-- ==== Sys2Proof/Word.lean ====
section
/-!
DEFINITION. The plain types every other file uses: bytes and words, the place of a field in a register,
sparse tables in one canonical form, and exact fractions for the arithmetic of the number-format chapter.
-/
namespace Sys2Proof

/-- One byte. -/
abbrev Byte := BitVec 8

/-- The place of a field in a register: its lowest bit and its width (spec/00_scope.md, Conventions). -/
structure Field where
  lo : Nat
  width : Nat
  deriving DecidableEq, Repr

/-- A sparse table: (key, value) pairs, keys strictly rising, no entry equal to what an unlisted key reads as. -/
abbrev Tab (α : Type) := List (Nat × α)

/-- An exact fraction `num / den`; `den` is never 0 in a value the model builds. -/
structure Frac where
  num : Int
  den : Nat
  deriving DecidableEq, Repr

/-- A value of one of the floating or block formats: finite, infinite (`neg` is its sign) or NaN. -/
inductive Num where
  | fin (q : Frac)
  | inf (neg : Bool)
  | nan
  deriving DecidableEq, Repr

/-- The exact result of an FP32 operation before its one rounding: the value, the sign a zero takes, and whether it is `round` of a sum,
where a value that underflows is +0 (R58, R59, R112). -/
structure Exact where
  v : Num
  zneg : Bool
  sum : Bool := false
  deriving DecidableEq, Repr

/-- The element formats of R40, R41 and R43. -/
inductive ElemFmt where
  | e4m3 | e5m2 | e3m2 | e2m3 | e2m1 | int8 | bx16
  deriving DecidableEq, Repr

/-- The slot formats of the Sterling register (R49). -/
inductive AccFmt where
  | acc2 | acc4 | acc10
  deriving DecidableEq, Repr

/-- The two rounding modes (R57). -/
inductive Round where
  | rne | sr
  deriving DecidableEq, Repr

end Sys2Proof
end

