-- ==== Sys2Proof/Syntax.lean ====
section
/-!
DEFINITION. The commands and events of the block (spec/opcode_table.json), one constructor of `Instr` per row, and the plain
data they carry: what comes from outside the block (packets, flits, readings, host bytes, errors that strike) is an operand.
-/
namespace Sys2Proof

/-- A fabric packet: the header of R318 and its body. -/
structure Packet where
  dst : Nat := 0
  src : Nat := 0
  tc : Nat := 0
  type : Nat := 0
  dclu : Nat := 0
  sclu : Nat := 0
  plane : Nat := 0
  mc : Bool := false
  hops : Nat := 0
  tag : Nat := 0
  chunk : Nat := 0
  offset : Nat := 0
  mask : BitVec 96 := 0
  body : List Byte := []
  stream : Nat := 0           -- which stream of a collective a PARTIAL travels on; the model's own, no header field
  deriving DecidableEq, Repr

/-- Who makes a register access (R566): the keeper, a host port, the mailbox of the managers, or a mover of a T0 stream. -/
inductive Requester where
  | keeper
  | mailbox
  | host (port : Fin 2)
  | mover
  deriving DecidableEq, Repr

/-- An access that waits at a crossing into a clock domain that is stopped (R544, R545): a mover's chunk, a command of a ring, the REG_READ of a
mailbox channel, or a register write. -/
inductive Held where
  | mover (m : Fin 32)
  | command (ring : Fin 64) (cid : BitVec 16)
  | regRead (ch : Fin 4)
  | regWrite (req : Requester) (off : BitVec 26) (wide : Bool) (v : BitVec 64)
  deriving DecidableEq, Repr

/-- An error that strikes stored data while a command runs (R216, R225), with the stored bits it flips: the 64 data bytes and the 32
code bits of a burst of HBM, or the 32 data bits (31:0) and the parity bit (32) of a word of stage memory, `again` where the word's
re-read in the next fabric cycle fails too (R448). -/
inductive MemErr where
  | none
  | hbm (dpa : Nat) (data : BitVec 512) (code : BitVec 32)
  | stage (dpa : Nat) (bits : BitVec 33) (again : Bool)
  deriving DecidableEq, Repr

/-- An arm: one of the 64 global ones or of a cluster's 64 (R32, R33). -/
inductive ArmId where
  | glob (i : Fin 64)
  | clu (c : Fin 64) (j : Fin 64)
  deriving DecidableEq, Repr

/-- What a lane meets in a core cycle (R72, R78, R447). -/
inductive LaneEvent where
  | step      -- a K-step and its private block are there
  | slip      -- a K-step arrives and no private block is there
  | bubble    -- the feeder had no K-step
  | residue   -- the mod-3 check of the product or the add fails
  | condResidue   -- the mod-3 check of the conditioner's arithmetic for the arriving K-step fails (R445)
  deriving DecidableEq, Repr

/-- A counter of R487. -/
inductive CounterId where
  | glb (g : Fin 32)
  | prt (p : Fin 12) (j : Fin 16)
  | clu (c : Fin 64) (j : Fin 8)
  deriving DecidableEq, Repr

/-- The measured part of a test result record (R455), as the test engine finds it. -/
structure TestResult where
  fail : Bool
  failIndex : BitVec 32
  failCount : BitVec 32
  failMap : BitVec 256
  durationNs : BitVec 32
  dieTemp : BitVec 16
  railMv : BitVec 16
  deriving DecidableEq, Repr

/-- What one rail's regulator answers on AVSBus (R419): `none` where it gives no valid sample. -/
structure AvsRead where
  mv : Nat
  ma : Nat
  temp : BitVec 16
  deriving DecidableEq, Repr

/-- What a port reads of a cage's CMIS module (R298): whether its memory is readable, whether its identifier names a CMIS module, the
major number of its revision, the media code of R312 (above 3: any other media), the length in 0.1 m, the label byte of page 03h, and
whether page 01h advertises host-side equalisation. -/
structure Cmis where
  readable : Bool
  cmis : Bool := true
  revision : Nat := 5
  media : Nat
  length : Nat
  label : BitVec 8
  hint : Bool
  deriving DecidableEq, Repr

/-- A CAPS training record (R295). -/
structure CapsRec where
  vmin : Nat × Nat
  vmax : Nat × Nat
  role : Nat
  chip : Nat
  dims : Nat × Nat × Nat
  txl : BitVec 11
  deriving DecidableEq, Repr

/-- The ACK and ACKV that every flit carries (R284, R288). -/
structure LinkAck where
  ack : BitVec 16
  ackv : Bool
  deriving DecidableEq, Repr

/-- A DATA flit (R284): its SEQ, ACK and ACKV, the class and channel of its VCX, and its payload. A flit that starts a packet
(HEAD) carries the packet's header (`body` empty) with the header's LEN, then the first body bytes; any other flit carries body
bytes alone. `kind`: the KIND it came with, 0 for DATA; 5 to 7 are reserved. -/
structure Flit where
  seq : BitVec 16
  ack : BitVec 16
  ackv : Bool
  tc : Nat
  ch : Nat
  hdr : Option (Packet × Nat)
  bytes : List Byte
  kind : BitVec 3 := 0
  deriving DecidableEq, Repr

/-- What the line did to the codewords decoded with a flit (R286): for each, which of its 272 symbols came with an error. -/
abbrev FecReport := List (List (Fin 272))

/-- The firmware flash as the ROM reads it (R546): both directory copies and both bundle slots. -/
structure FlashImage where
  readable : Bool
  dir0 : List Byte
  dir1 : List Byte
  slotA : List Byte
  slotB : List Byte
  deriving DecidableEq, Repr

/-- The identity block of the package identity memory (R550): its bytes with the root signature, and what they hold: serial, device
public key, the trim values (the helper data acts through the PUF seed). -/
structure IdentityBlock where
  bytes : List Byte
  r : Nat
  s : Nat
  serial : BitVec 64
  pubX : Nat
  pubY : Nat
  weights : List (BitVec 24)
  volts : List (BitVec 12)
  offsets : List (BitVec 16)
  deriving DecidableEq, Repr

/-- The strap pins (R573). -/
structure Straps where
  split : Bool
  mgmt : Fin 4
  deriving DecidableEq, Repr

/-- The reader whose read of host memory has failed (R503): a mover, or a command of a ring. -/
inductive HostReader where
  | mover (m : Fin 32)
  | command (ring : Fin 64) (cid : BitVec 16)
  deriving DecidableEq, Repr

/-- A NAK as its sender takes it (R519): a sequence error, RNR, or one that ends the queue pair. -/
inductive NakKind where
  | sequence
  | rnr
  | fatal
  deriving DecidableEq, Repr

/-- An instruction of the test access port (R580). -/
inductive TapInstr where
  | bypass
  | idcode
  | sample
  | extest
  | other
  deriving DecidableEq, Repr

/-- The commands and events, one constructor per row of spec/opcode_table.json. -/
inductive Instr where
  /-- BOOT_ROM_STAGE (R538). The boot ROM reads the flash directory, verifies the keeper component and the identity block, derives the PUF key, applies trim and extends M0 and M1. -/
  | bootRomStage (fl : FlashImage) (id : IdentityBlock) (seed : BitVec 256) (st : Straps)
  /-- BOOT_KEEPER_STAGE (R538). The keeper runs on both cores, verifies and loads microcode and link firmware, checks the repair area, extends M2 to M4 and sets HOST_READY. -/
  | bootKeeperStage (bundle : List Byte)
  /-- BOOT_HBM_STAGE (R538). The device checks stack identity, initialises HBM, applies the repair data and zeroes stage memory with correct parity. -/
  | bootHbmStage (ids : List (BitVec 64)) (good : BitVec 8)
  /-- BOOT_SELFTEST_STAGE (R538). START-context FULL tests run on every unit and test area, and PERMANENT outcomes retire units and append repair records. -/
  | bootSelftestStage (fails : List (BitVec 32 × TestResult))
  /-- BOOT_BOARD_STAGE (R538). The keeper reads and checks the board identity, writes PRT_AXIS_MAP and extends M6, after which image loads are accepted. -/
  | bootBoardStage (board : Option (List Byte))
  /-- RESET_WARM (R540). A GLB_RESET_CMD write with SCOPE 1 requests a warm reset. -/
  | resetWarm (by_ : Fin 4) (ix : BitVec 12)
  /-- RESET_CLUSTER (R540). A GLB_RESET_CMD write with SCOPE 2 requests a reset of cluster c. -/
  | resetCluster (by_ : Fin 4) (ix : BitVec 12)
  /-- RESET_RANK (R540). A GLB_RESET_CMD write with SCOPE 3 requests a reset of one physical rank. -/
  | resetRank (by_ : Fin 4) (ix : BitVec 12)
  /-- RESET_PORT (R540). A GLB_RESET_CMD write with SCOPE 4 takes torus port p to DOWN and clears its link state. -/
  | resetPort (by_ : Fin 4) (ix : BitVec 12)
  /-- RESET_PSEUDO_CHANNEL (R540). A GLB_RESET_CMD write with SCOPE 5 retrains the controller and PHY of one pseudo-channel. -/
  | resetPseudoChannel (by_ : Fin 4) (ix : BitVec 12)
  /-- RESET_TENANT (R540). A GLB_RESET_CMD write with SCOPE 6 discards every stream, saved context, transfer and stack of tenant t. -/
  | resetTenant (by_ : Fin 4) (ix : BitVec 12)
  /-- HUNG_CROSSING (R545). The access `access` that has waited 50 µs on a stopped domain is reported, and
  GLB_HUNG_INFO is written; it stays pending. -/
  | hungCrossing (target source : BitVec 8) (access : Held)
  /-- GLB_PWRDN_REQ (R537). A write of GLB_PWRDN.REQ runs the orderly power-down and sets SAFE. -/
  | glbPwrdnReq (by_ : Fin 4)
  /-- FW_UPDATE (R558). A mailbox FW_UPDATE request stages, hands over, commits SVN or aborts a keeper firmware update. -/
  | fwUpdate (ch : Fin 4)
  /-- FW_STAGE_DONE (R558). The standby core finishes programming and verifying the inactive slot and starts the new firmware as standby. -/
  | fwStageDone (flashOk : Bool)
  /-- SEC_EXTEND (R553). A write of SEC_EXTEND_CMD extends M12 to M15 with SEC_EXTEND_DIG and appends a log entry. -/
  | secExtend (by_ : Fin 4) (ix : Fin 4)
  /-- SEC_LOCK_WRITE (R561). Setting SEC_CTL.LOCK locks the security configuration and extends M5. -/
  | secLockWrite (by_ : Fin 4) (v : BitVec 32)
  /-- SEC_OWNER_KEY_WRITE (R561). A write of an owner-key register recomputes that entry's KEY_ID. -/
  | secOwnerKeyWrite (by_ : Fin 4) (k : Fin 16) (w : Fin 9) (v : BitVec 64)
  /-- DEBUG_CTL_WRITE (R559). A write of GLB_DEBUG_CTL takes effect only when SEC_CTL.DEBUG_PERMIT is 1, and sets DEBUG_EVER. -/
  | debugCtlWrite (by_ : Fin 4) (v : BitVec 32)
  /-- REGISTER_WRITE (R563). A write to a register that has no row of its own updates its fields under the access codes and lock rules. -/
  | registerWrite (req : Requester) (off : BitVec 26) (wide : Bool) (v : BitVec 64)
  /-- CADENCE_FRAME_RX (R21). A Manchester frame on CADENCE_IN is received whole and checked by its CRC-8. -/
  | cadenceFrameRx (pos : BitVec 64) (check : BitVec 8)
  /-- BEAT_PACKET_RX (R22). A fabric BEAT packet arrives and is considered under CAD_CTL. -/
  | beatPacketRx (p : Packet)
  /-- ARM_POS_WRITE (R26). A write of an arm's POS register is checked, and the arm fires on write if its position is already passed. -/
  | armPosWrite (by_ : Fin 4) (a : ArmId) (v : BitVec 64)
  /-- ARM_CTL_WRITE (R27). A write of an arm's CTL register is checked, clears FIRED and LATE, and may fire the arm on write. -/
  | armCtlWrite (by_ : Fin 4) (a : ArmId) (v : BitVec 64)
  /-- STREAM_FETCH (R133). The sequencer fetches the next 4 KiB of its stream into the fetch queue, raising FETCH without execute-stream permission. -/
  | streamFetch (c : Fin 64) (err : MemErr)
  /-- PORT_HEAD_ISSUE (R132). An instruction at a port head issues once its checks pass, its header wait is satisfied and its unit has room;
`waited`: core cycles for which one that finds no room waits until it is looked at again (R84, R98). -/
  | portHeadIssue (c : Fin 64) (port : Fin 4) (waited : Nat)
  /-- MMA_F (R181). MMA.F computes forward-product tiles of a private and a shared row-blocked operand. -/
  | mmaF (c : Fin 64) (w : BitVec 128) (go : Bool)
  /-- MMA_DX (R181). MMA.DX computes data-gradient tiles from one row-blocked and one column-blocked operand. -/
  | mmaDx (c : Fin 64) (w : BitVec 128) (go : Bool)
  /-- MMA_DW (R181). MMA.DW computes weight-gradient tiles from two column-blocked operands. -/
  | mmaDw (c : Fin 64) (w : BitVec 128) (go : Bool)
  /-- ACCRD (R209). ACCRD computes one tile and writes its slots raw with their status words. -/
  | accrd (c : Fin 64) (w : BitVec 128) (go : Bool)
  /-- RAMP_UP (R80). A gated rank ungates its four ramp groups in turn before a tile's first K-step, within the limit of R432. -/
  | rampUp (c : Fin 64) (r : Fin 13)
  /-- RAMP_DOWN (R81). A rank idle for RAMP_IDLE core cycles gates its ramp groups in reverse order. -/
  | rampDown (c : Fin 64) (r : Fin 13)
  /-- TILE_START (R76). A tile starts on a rank once N free slots of its format exist in every lane; `waited`: core cycles for which it waits
for them until the next look (R98). -/
  | tileStart (c : Fin 64) (r : Fin 13) (sampled : Bool) (waited : Nat)
  /-- LANE_ACCUMULATE (R72). A lane multiplies an arriving K-step by its private block and adds the exact dot product into its slot; `shared` and
`priv`: K-steps and private blocks that the feeders have read since for the rank and the lane (R77). -/
  | laneAccumulate (c : Fin 64) (r : Fin 13) (lane : Fin 128) (ev : LaneEvent) (shared priv : Nat)
  /-- CHAIN_RESTART (R78). A stopped stagger chain restarts once every tap buffer has a free entry. -/
  | chainRestart (c : Fin 64) (r : Fin 13) (cycles : Nat)
  /-- WIDENING_REPLAY (R52). A missed tile replays from its K-panel in the replay format once the limbs it needs are free. -/
  | wideningReplay (c : Fin 64) (r : Fin 13) (waited : Nat)
  /-- DRAIN_BLOCK_READ (R74). The drain reads one ready block of 32 lanes and converts it to the output format, after `stalled` core cycles in which it
could not (R78); `accepted`: stage memory takes the write. -/
  | drainBlockRead (c : Fin 64) (r : Fin 13) (stalled : Nat) (accepted : Bool)
  /-- EMISSION_PASS (R75). A drain emission pass converts all 4N blocks of an FP8 tile at one tile exponent, stalled for `stalled` core cycles
(R78). -/
  | emissionPass (c : Fin 64) (r : Fin 13) (stalled : Nat)
  /-- TILE_COMPLETE (R137). A tile's final output is written to stage memory, its slots free and its header token is signalled. -/
  | tileComplete (c : Fin 64) (r : Fin 13)
  /-- AUDIT_COMPARE (R451). When home and audit ranks have both accumulated an audited tile, every slot is compared. -/
  | auditCompare (c : Fin 64) (homeBad auditBad thirdBad : Bool)
  /-- RANK_QUIESCED (R94). A rank with QUIESCE set reports QUIESCED once no tile is in flight. -/
  | rankQuiesced (c : Fin 64) (r : Fin 13)
  /-- RNK_CTL_WRITE (R87). A write of RNK_CTL.QUIESCE stops or resumes the acceptance of new tiles on the rank. -/
  | rnkCtlWrite (by_ : Fin 4) (c : Fin 64) (r : Fin 13) (v : BitVec 32)
  /-- RNK_SKEW_MAP_WRITE (R87). A write of RNK_SKEW_MAP on a quiesced rank derives the lane map and skew trims, or is rejected. -/
  | rnkSkewMapWrite (by_ : Fin 4) (c : Fin 64) (r : Fin 13) (v : BitVec 64)
  /-- CLU_RANK_MAP_WRITE (R91). A write of CLU_RANK_MAP remaps logical ranks to physical ranks, or is rejected. -/
  | cluRankMapWrite (by_ : Fin 4) (c : Fin 64) (v : BitVec 64)
  /-- VEW (R110). VEW performs an elementwise operation, including dropout. -/
  | vew (c : Fin 64) (w : BitVec 128) (go : Bool)
  /-- VACT (R107). VACT computes an activation function elementwise and may save its input. -/
  | vact (c : Fin 64) (w : BitVec 128) (go : Bool)
  /-- VDACT (R109). VDACT computes an activation derivative times the incoming gradient. -/
  | vdact (c : Fin 64) (w : BitVec 128) (go : Bool)
  /-- VNORM (R116). VNORM applies LayerNorm or RMSNorm per row and writes statistics. -/
  | vnorm (c : Fin 64) (w : BitVec 128) (go : Bool)
  /-- VNORMB (R117). VNORMB computes the normalisation backward pass and optionally accumulates dγ and dβ. -/
  | vnormb (c : Fin 64) (w : BitVec 128) (go : Bool)
  /-- VSMAX (R118). VSMAX computes a masked soft-maximum over each row. -/
  | vsmax (c : Fin 64) (w : BitVec 128) (go : Bool)
  /-- VSMAXB (R119). VSMAXB computes the soft-maximum backward pass. -/
  | vsmaxb (c : Fin 64) (w : BitVec 128) (go : Bool)
  /-- VRED (R113). VRED reduces rows or columns exactly and rounds once. -/
  | vred (c : Fin 64) (w : BitVec 128) (go : Bool)
  /-- VOPT (R125). VOPT applies an optimiser kernel to a shard, writing the inactive bank. -/
  | vopt (c : Fin 64) (w : BitVec 128) (go : Bool)
  /-- VCONV (R120). VCONV converts a tensor between formats in one pass. -/
  | vconv (c : Fin 64) (w : BitVec 128) (go : Bool)
  /-- VRNG (R121). VRNG writes raw, uniform, normal or sampled values from draws. -/
  | vrng (c : Fin 64) (w : BitVec 128) (go : Bool)
  /-- ARGMAX (R208). ARGMAX writes the largest value and its index per row or column. -/
  | argmax (c : Fin 64) (w : BitVec 128) (go : Bool)
  /-- ARGMIN (R208). ARGMIN writes the smallest value and its index per row or column. -/
  | argmin (c : Fin 64) (w : BitVec 128) (go : Bool)
  /-- VEC_GRANULE (R104). The vector engine executes one granule of an instruction, and signals the header token after the last.
  `waited`: the core cycles for which the engine waited for stage memory (R105). -/
  | vecGranule (c : Fin 64) (residue : Bool) (waited : Nat) (err : MemErr)
  /-- VEC_GRANULE_REEXEC (R104). A granule that met a residue error executes again once the targeted test of the engine has ended. -/
  | vecGranuleReexec (c : Fin 64) (residue : Bool) (err : MemErr)
  /-- MOV (R191). MOV copies a logical tensor between HBM, stage memory, host windows or register space through a mover. -/
  | mov (c : Fin 64) (w : BitVec 128) (go : Bool)
  /-- MOV_C (R192). MOV.C runs the operand conditioner to write row-blocked and column-blocked copies. -/
  | movC (c : Fin 64) (w : BitVec 128) (go : Bool)
  /-- CONDITIONER_PASS_END (R82). The conditioner finishes writing a MOV.C's outputs and its header token is signalled. -/
  | conditionerPassEnd (c : Fin 64) (residue : Bool) (err : MemErr)
  /-- MOV_D (R193). MOV.D loads a descriptor from 64 bytes of stage memory. -/
  | movD (c : Fin 64) (w : BitVec 128) (go : Bool)
  /-- MOV_S (R194). MOV.S writes a scalar register or SLOT from an immediate, a register, a load or a named value. -/
  | movS (c : Fin 64) (w : BitVec 128)
  /-- PUSH (R195). PUSH adds a KEEP or RECOMPUTE entry to the slot's activation stack. -/
  | push (c : Fin 64) (w : BitVec 128) (go : Bool)
  /-- POP (R196). POP pops, peeks or discards an activation-stack entry. -/
  | pop (c : Fin 64) (w : BitVec 128) (go : Bool)
  /-- STACK_ENTRY_REPORT (R236). The stack engine reads a trailer and reports the entry kind to the sequencer. -/
  | stackEntryReport (c : Fin 64) (err : MemErr)
  /-- PREF (R197). PREF joins the cluster's prefetch list as a wait-fill prefetch. -/
  | pref (c : Fin 64) (w : BitVec 128) (go : Bool)
  /-- PREF_ENTRY_START (R197). A prefetch entry starts when decode holds in a wait, reaches a FENCE or YIELD, or its token is waited on. -/
  | prefEntryStart (c : Fin 64)
  /-- MOVER_CHUNK (R256). A mover checks, reads and writes one 64 KiB chunk and updates its fingerprint at the boundary. -/
  | moverChunk (m : Fin 32) (err : MemErr)
  /-- MOV_REDRIVE (R276). A write of MOV_REDRIVE_m.GO continues a DETECTED transfer from its chunk. -/
  | movRedrive (by_ : Fin 4) (m : Fin 32)
  /-- WAIT (R136). WAIT holds decode until a token count reaches k, then subtracts k. -/
  | wait (c : Fin 64) (w : BitVec 128)
  /-- SIGNAL (R203). SIGNAL adds a count to a token of this cluster, another cluster or another chip. -/
  | signal (c : Fin 64) (w : BitVec 128)
  /-- CWAIT (R149). CWAIT holds decode until CAD_POS reaches a position. -/
  | cwait (c : Fin 64) (w : BitVec 128)
  /-- BEAT (R150). BEAT offers a cadence position to the cadence unit. -/
  | beat (c : Fin 64) (w : BitVec 128)
  /-- YIELD (R147). YIELD records a yield point, or drains and hands the cluster to a pending save. -/
  | yieldI (c : Fin 64) (w : BitVec 128)
  /-- FENCE (R139). FENCE holds decode until every earlier instruction of the named ports has completed. -/
  | fence (c : Fin 64) (w : BitVec 128)
  /-- FENCE_RELEASE (R202). A held FENCE releases decode once the named ports have drained. -/
  | fenceRelease (c : Fin 64)
  /-- LOOP (R144). LOOP runs a body a trip count of times with an induction register. -/
  | loop (c : Fin 64) (w : BitVec 128)
  /-- BR (R206). BR branches, compares into a predicate, or returns from a recompute segment. -/
  | br (c : Fin 64) (w : BitVec 128)
  /-- STEST (R207). STEST runs a targeted self-test pattern on one unit and writes a result record. -/
  | stest (c : Fin 64) (w : BitVec 128) (res : TestResult)
  /-- STREAM_END (R556). After decode passes the last word and all ports complete, the sequencer becomes IDLE. -/
  | streamEnd (c : Fin 64)
  /-- SEQ_START (R556). A write of SEQ_CTL.START starts the selected tenant's loaded SERVICE or RECOVERY stream from PC 0. -/
  | seqStart (by_ : Fin 4) (c : Fin 64) (sel : Fin 4)
  /-- SEQ_HALT (R164). A write of SEQ_CTL.HALT holds decode and makes the sequencer HALTED. -/
  | seqHalt (by_ : Fin 4) (c : Fin 64)
  /-- SEQ_RESUME (R155). A write of SEQ_CTL.RESUME continues a HALTED sequencer or one with a resumable fault. -/
  | seqResume (by_ : Fin 4) (c : Fin 64)
  /-- YIELD_GAP_MAX_WRITE (R167). Any write of SEQ_YIELD_GAP_MAX sets it to 0. -/
  | yieldGapMaxWrite (by_ : Fin 4) (c : Fin 64) (v : BitVec 64)
  /-- SEND (R198). SEND transfers a tensor to a neighbour or chip under its landing grant. -/
  | send (c : Fin 64) (w : BitVec 128) (go : Bool)
  /-- RECV (R199). RECV issues a landing grant to its source and lands the matching transfer. -/
  | recv (c : Fin 64) (w : BitVec 128) (go : Bool)
  /-- MCAST (R198). MCAST sends a tensor to every chip of a box under every unfenced grant. -/
  | mcast (c : Fin 64) (w : BitVec 128) (go : Bool)
  /-- TRANSFER_CHUNK_SEND (R199). A sender packetises and injects one 64 KiB chunk of a granted transfer. -/
  | transferChunkSend (i k : Nat) (err : MemErr)
  /-- COLL (R200). COLL starts a reduce-scatter, all-gather, all-reduce, broadcast or max under a plan. -/
  | coll (c : Fin 64) (w : BitVec 128) (go : Bool)
  /-- COLL_CHUNK_SEND (R366). The collective engine sends a partial chunk once it holds credit, keeping it in a hold entry. -/
  | collChunkSend (i : Fin 16) (st : Fin 4) (err : MemErr)
  /-- COLL_CHUNK_REDUCE (R349). A reduction unit adds or compares a counted chunk into the partial. -/
  | collChunkReduce (i : Fin 16) (st : Fin 4) (err : MemErr)
  /-- PARTIAL_PACKET_RX (R367). A PARTIAL packet lands in a slot, is discarded as duplicate or stale, or completes a chunk for counting. -/
  | partialPacketRx (p : Packet)
  /-- COLL_CREDIT_RX (R366). A collective credit GRANT raises LIMIT and frees hold entries. -/
  | collCreditRx (p : Packet)
  /-- COLL_DONE_RX (R370). A DONE control arrives, and the member completes once it holds DONE from every unfenced member. -/
  | collDoneRx (p : Packet)
  /-- COLL_RESTART_RX (R371). A RESTART control makes the member restart at a higher attempt. -/
  | collRestartRx (p : Packet)
  /-- COLL_RESEND_RX (R368). A RESEND control makes the sender send the named chunk again from its hold. -/
  | collResendRx (p : Packet)
  /-- COLL_REDRIVE (R380). A write of COL_REDRIVE_i.GO continues a collective stream stopped by a detected error. -/
  | collRedrive (by_ : Fin 4) (i : Fin 16)
  /-- PACKET_ROUTE (R325). A router chooses an output for a head flit adaptively, on escape, by detour or as unroutable. -/
  | packetRoute (i : Nat)
  /-- MC_REPLICATE (R334). A router with room in its replication store copies a multicast packet onto its branches. -/
  | mcReplicate (i : Nat)
  /-- PACKET_REROUTE (R330). A packet returned by a port going DOWN re-enters route selection. -/
  | packetReroute (port : Fin 12)
  /-- CREDIT_RX (R322). A hop-local CREDIT packet returns channel and pool credits to the sender. -/
  | creditRx (port : Fin 12) (p : Packet)
  /-- CREDIT_RETURN_TIMER (R322). A receiver returns pending credits at least once every 64 fabric cycles. -/
  | creditReturnTimer (port : Fin 12)
  /-- DATA_PACKET_RX (R199). A DATA packet lands at its offset, counts once, and the RECV completes when every byte has landed. -/
  | dataPacketRx (p : Packet)
  /-- GRANT_RX (R199). A landing grant reaches the sender, which transmits or sends a length notice. -/
  | grantRx (p : Packet)
  /-- LENGTH_NOTICE_RX (R199). A length notice completes the RECV with status LENGTH. -/
  | lengthNoticeRx (p : Packet)
  /-- LANDED_NOTICE_RX (R199). A landed notice gives the sender a destination's acceptance and may complete the SEND or MCAST. -/
  | landedNoticeRx (p : Packet)
  /-- SIGNAL_PACKET_RX (R203). A remote SIGNAL packet adds its count to the target token, or to a held count. -/
  | signalPacketRx (p : Packet)
  /-- UNREACH_RX (R320). An UNREACH notice is passed to the owner of the discarded chunk. -/
  | unreachRx (p : Packet)
  /-- FENCE_PACKET_RX (R464). A FENCE packet sets the fence bit when its epoch is not stale. -/
  | fencePacketRx (p : Packet)
  /-- FENCE_SET (R344). FAB_FENCE_CMD with OP 1 sets a chip's fence bit. -/
  | fenceSet (by_ : Fin 4) (chip : BitVec 15)
  /-- FENCE_CLEAR (R344). FAB_FENCE_CMD with OP 2 clears a chip's fence bit. -/
  | fenceClear (by_ : Fin 4) (chip : BitVec 15)
  /-- FENCE_CLEAR_ALL (R344). FAB_FENCE_CMD with OP 3 clears every fence bit. -/
  | fenceClearAll (by_ : Fin 4)
  /-- GLB_FENCE_ISSUE (R464). A write of GLB_FENCE_ISSUE applies a fence locally and multicasts it. -/
  | glbFenceIssue (by_ : Fin 4) (v : BitVec 64)
  /-- DECLARE_OFFLINE (R464). A write of GLB_UNIT_CTL.OFFLINE makes the chip publish CHIP_STATE OFFLINE. -/
  | declareOffline (by_ : Fin 4)
  /-- UNITSTATE_RX (R463). A unit-state record is checked and kept, and an OFFLINE record makes the peer multicast a fence. -/
  | unitstateRx (p : Packet)
  /-- GLB_UNIT_EPOCH_WRITE (R469). A write of GLB_UNIT_EPOCH takes effect only when greater than the current epoch. -/
  | glbUnitEpochWrite (by_ : Fin 4) (v : BitVec 32)
  /-- ERR_REPORT (R445). A write of GLB_ERR_REPORT charges a REPORTED error to a unit. -/
  | errReport (by_ : Fin 4) (v : BitVec 32)
  /-- FAB_DETOUR_WRITE (R345). A write of FAB_DETOUR_k is accepted only for a permitted plane order. -/
  | fabDetourWrite (by_ : Fin 4) (k : Fin 6) (v : BitVec 32)
  /-- CONGESTION_INTERVAL_TIMEOUT (R340). An interval with no beat for MAXINT µs closes and its congestion page is written. -/
  | congestionIntervalTimeout (err : Bool)
  /-- PORT_ENABLE_WRITE (R291). A write of PRT_CTL.EN starts training or takes the port DOWN. -/
  | portEnableWrite (by_ : Fin 4) (p : Fin 12) (v : BitVec 32)
  /-- MODULE_PRESENCE_CHANGE (R298). A change of a cage's presence signal rereads or removes the module. -/
  | modulePresenceChange (p : Fin 12) (m : Option Cmis)
  /-- DETECT_DONE (R291). The DETECT read of the CMIS module ends, passing to EQUALISE or to HELD. -/
  | detectDone (p : Fin 12) (m : Cmis)
  /-- EQUALISE_DONE (R291). Receiver adaptation ends and the port goes to ALIGN or HELD by lanes locked. -/
  | equaliseDone (p : Fin 12) (rx tx : BitVec 11)
  /-- ALIGN_DONE (R291). Lane identification, deskew and flit-group lock complete. -/
  | alignDone (p : Fin 12) (rx tx : BitVec 11)
  /-- CAPS_RX (R296). A CAPS training record negotiates the version and checks the neighbour. -/
  | capsRx (p : Fin 12) (r : CapsRec) (a : LinkAck)
  /-- CAPS_ACK_RX (R295). A CAPS_ACK training record completes capability exchange. -/
  | capsAckRx (p : Fin 12) (a : LinkAck)
  /-- PING_RX (R301). A PING training record is answered by a PONG echoing its stamp. -/
  | pingRx (p : Fin 12) (stamp : BitVec 64) (a : LinkAck)
  /-- PONG_RX (R301). A PONG gives the round trip, sets the replay timeout and may hold the port with cause RTT. -/
  | pongRx (p : Fin 12) (stamp : BitVec 64) (rtt : BitVec 16) (a : LinkAck)
  /-- TRAIN_STATE_TIMEOUT (R291). A training state that exceeds its limit goes to HELD, or RETRAIN goes to DOWN. -/
  | trainStateTimeout (p : Fin 12)
  /-- DETECT_RETRY_TIMER (R291). A DOWN port with EN set retries DETECT every 100 ms while a module is present. -/
  | detectRetryTimer (p : Fin 12)
  /-- DATA_FLIT_RX (R289). A DATA flit is accepted in order, discarded as duplicate, or starts an error episode with a NAK. -/
  | dataFlitRx (p : Fin 12) (f : Flit) (crc : BitVec 32) (fec : FecReport)
  /-- NULL_FLIT_RX (R289). A NULL flit is accepted and its ACK frees replay entries. -/
  | nullFlitRx (p : Fin 12) (ack : BitVec 16) (ackv : Bool)
  /-- NAK_RX (R290). A NAK makes the transmitter replay every buffered flit after the acknowledged one. -/
  | nakRx (p : Fin 12) (ack : BitVec 16) (ackv : Bool)
  /-- REPLAY_TIMEOUT (R290). A stalled ACK for PRT_RTT.TIMEOUT replays from the oldest buffered flit. -/
  | replayTimeout (p : Fin 12)
  /-- LMF_SLOT (R287). Every 256th flit slot carries an LMF that repeats unacknowledged link-management messages. -/
  | lmfSlot (p : Fin 12) (cycles : Nat)
  /-- LMF_ACK_RX (R304). An acknowledgement of a link-management message number stops its repetition. -/
  | lmfAckRx (p : Fin 12) (num : BitVec 16) (a : LinkAck)
  /-- SPARE_REQ_RX (R303). SPARE_REQ makes the transmitter copy the failed lane onto the spare and send SPARE_SWITCH. -/
  | spareReqRx (p : Fin 12) (num : BitVec 16) (lane : Fin 11) (codeword : BitVec 64) (a : LinkAck)
  /-- SPARE_SWITCH_RX (R303). SPARE_SWITCH names the codeword at which the spare takes the lane's position. -/
  | spareSwitchRx (p : Fin 12) (num : BitVec 16) (lane : Fin 11) (codeword : BitVec 64) (a : LinkAck)
  /-- SPARE_SWITCH_APPLY (R303). At codeword s both sides use the spare for the failed position. -/
  | spareSwitchApply (p : Fin 12) (tx : Bool)
  /-- SPARE_ACK_RX (R303). SPARE_ACK makes the transmitter turn off the failed lane. -/
  | spareAckRx (p : Fin 12) (num : BitVec 16) (a : LinkAck)
  /-- DOWN_NOTICE_RX (R306). A peer's DOWN_NOTICE takes the port DOWN and returns buffered packets. -/
  | downNoticeRx (p : Fin 12) (a : LinkAck)
  /-- LANE_FAIL (R302). A lane that loses lock for 1 µs or passes its corrected-symbol threshold fails and is retired. -/
  | laneFail (p : Fin 12) (lane : Fin 11)
  /-- RETRAIN_DONE (R291). A retrain passes to ACTIVE with sequence numbers and buffers kept. -/
  | retrainDone (p : Fin 12)
  /-- LOSS_OF_SIGNAL (R306). Loss of signal on every lane takes the port DOWN at once. -/
  | lossOfSignal (p : Fin 12)
  /-- PRT_AXIS_MAP_WRITE (R308). A write of PRT_AXIS_MAP sets the logical roles of physical pairs, or is rejected. -/
  | prtAxisMapWrite (by_ : Fin 4) (v : BitVec 32)
  /-- PREEMPT_SAVE (R264). MOV_PREEMPT_CMD OP 1 requests a save of a tenant on the masked clusters. -/
  | preemptSave (by_ : Fin 4) (t : Fin 4)
  /-- PREEMPT_RESTORE (R264). MOV_PREEMPT_CMD OP 2 restores a saved context on the masked clusters. -/
  | preemptRestore (by_ : Fin 4) (t : Fin 4)
  /-- PREEMPT_PARK (R264). MOV_PREEMPT_CMD OP 3 requests a park at the next yield point. -/
  | preemptPark (by_ : Fin 4) (t : Fin 4)
  /-- PREEMPT_UNPARK (R264). MOV_PREEMPT_CMD OP 4 continues a parked cluster. -/
  | preemptUnpark (by_ : Fin 4) (t : Fin 4)
  /-- PREEMPT_DISCARD (R264). MOV_PREEMPT_CMD OP 5 invalidates both context slots and held signals. -/
  | preemptDiscard (by_ : Fin 4) (t : Fin 4)
  /-- CLUSTER_CAPTURE (R265). At a yield point, or once halted or faulted, the drain ends and the cluster becomes SAVING or PARKED. -/
  | clusterCapture (c : Fin 64)
  /-- CONTEXT_SAVE_DONE (R270). A context save finishes writing a slot, retries into slot B, or is abandoned. -/
  | contextSaveDone (c : Fin 64) (t : Fin 4) (badA badB : Bool) (err : MemErr)
  /-- CONTEXT_RESTORE_DONE (R270). A restore checks and writes back the context, applies held signals and restarts held transfers, or fails. -/
  | contextRestoreDone (c : Fin 64) (t : Fin 4) (err : MemErr)
  /-- MOV_TEN_CTL_WRITE (R262). A write of MOV_TEN_CTL_t changing PATH or EN is ignored while the tenant holds streams or contexts. -/
  | movTenCtlWrite (by_ : Fin 4) (t : Fin 4) (v : BitVec 64)
  /-- MOV_CTX_REGION_WRITE (R277). A write of MOV_CTX_BASE_t or MOV_CTX_SLOT_t is ignored while t has a saved context. -/
  | movCtxRegionWrite (by_ : Fin 4) (t : Fin 4) (isSlot : Bool) (v : BitVec 64)
  /-- STK_SLOT_WRITE (R263). A write of STK_SLOT_s changes the owner, emptying partitions and zeroing key, NDI and DPOS, or is ignored. -/
  | stkSlotWrite (by_ : Fin 4) (sl : Fin 16) (v : BitVec 64)
  /-- STK_KEY_NDI_WRITE (R263). A write of a slot's key or next-draw index is ignored while its owner's stream runs on the slot. -/
  | stkKeyNdiWrite (by_ : Fin 4) (sl : Fin 16) (reg : Fin 3) (v : BitVec 64)
  /-- STK_DPOS_WRITE (R391). A write of STK_DPOS_s copies the next-draw index into MEM_SLOT_NDIPOS_s. -/
  | stkDposWrite (by_ : Fin 4) (sl : Fin 16) (v : BitVec 64)
  /-- STK_BASE_PART_WRITE (R252). A write of STK_BASE_s or STK_PART_s is ignored while any partition is in use or misaligned. -/
  | stkBasePartWrite (by_ : Fin 4) (sl : Fin 16) (isPart : Bool) (v : BitVec 64)
  /-- STK_HWM_WRITE (R252). Any write of STK_HWM_s sets it to 0. -/
  | stkHwmWrite (by_ : Fin 4) (sl : Fin 16) (v : BitVec 64)
  /-- MEM_RGN_W0_WRITE (R251). A write of a region entry's W0 is checked with the held W1 and accepted or rejected. -/
  | memRgnW0Write (by_ : Fin 4) (t : Fin 4) (i : Fin 256) (v : BitVec 64)
  /-- MEM_RGN_W1_WRITE (R251). A write of a region entry's W1 is checked when the entry is valid. -/
  | memRgnW1Write (by_ : Fin 4) (t : Fin 4) (i : Fin 256) (v : BitVec 64)
  /-- MEM_RSV_WRITE (R247). A write of MEM_RSV.COUNT moves the region ceiling, or is ignored if a region would reach it. -/
  | memRsvWrite (by_ : Fin 4) (v : BitVec 32)
  /-- MEM_WITHHOLD (R220). MEM_REMAP_CTL.WITHHOLD makes every access to a pseudo-channel a detected error. -/
  | memWithhold (by_ : Fin 4) (p : Fin 512)
  /-- MEM_COMMIT (R221). MEM_REMAP_CTL.COMMIT starts the commit pass that retires a withheld pseudo-channel, or is rejected. -/
  | memCommit (by_ : Fin 4) (p : Fin 512) (alsoWithhold : Bool)
  /-- HBM_REFRESH (R212). A per-bank refresh falls due at the interval the stack temperature requires. -/
  | hbmRefresh (p : Fin 512) (bank : Nat)
  /-- HBM_DETECT_RECOVERY (R449). The keeper rereads a failed burst twice, writing it back and redriving, or declaring the data lost. -/
  | hbmDetectRecovery (dpa : Nat) (data : BitVec 512) (code : BitVec 32) (tenant : Fin 4)
  /-- STAGE_PARITY_RECOVERY (R448). A page whose re-read failed is rebuilt from its journalled HBM source when the fingerprint matches. -/
  | stageParityRecovery (c : Fin 64) (dpa : Nat) (tenant : Fin 4)
  /-- TARGETED_TEST_START (R453). The test engine starts the FULL pattern set on the charged unit within 50 µs of detection. -/
  | targetedTestStart (unit : BitVec 32)
  /-- TARGETED_TEST_END (R456). The keeper classifies the test as PERMANENT, TRANSIENT or CONDITIONAL and acts on it. -/
  | targetedTestEnd (unit : BitVec 32) (res : TestResult)
  /-- SLICE_CLUSTER_END (R459). A slice's test stream on a cluster ends and the saved tenant is restored. -/
  | sliceClusterEnd (c : Fin 64) (tests : List (BitVec 32 × TestResult))
  /-- SEAL_COMPLETE (R388). A seal writes the bank header, HDR_CRC and SEAL with VALID, or fails to SEAL_ERR. -/
  | sealComplete (b : Fin 2)
  /-- BEGIN_RX (R394). A BEGIN makes the twin invalidate its mirror and accept, or refuse. -/
  | beginRx (p : Packet)
  /-- ACCEPT_RX (R393). An ACCEPT lets the sender stream bank chunks. -/
  | acceptRx (p : Packet)
  /-- REFUSE_RX (R393). A REFUSE ends the push or schedules BEGIN again for DRAINING. -/
  | refuseRx (p : Packet)
  /-- MIRROR_CHUNK_RX (R394). A mirror chunk lands, and the last one leads to the fingerprint check and COMPLETE. -/
  | mirrorChunkRx (p : Packet)
  /-- PUSH_ACK_RX (R393). An ACK acknowledges a chunk and ends STALLED. -/
  | pushAckRx (p : Packet)
  /-- COMPLETE_RX (R395). A COMPLETE ends the push DONE or ABORTED and signals the push token. -/
  | completeRx (p : Packet)
  /-- ABORT_RX (R394). An ABORT leaves the receiver's mirror invalid and EMPTY. -/
  | abortRx (p : Packet)
  /-- PUSH_CHUNK_RESEND_TIMER (R393). A chunk unacknowledged for 1 ms is sent again. -/
  | pushChunkResendTimer (i : Nat)
  /-- TWIN_CANCEL (R396). MEM_TWIN_CTL.CANCEL ends a running or waiting push with ABORTED CANCELLED. -/
  | twinCancel (by_ : Fin 4)
  /-- DRAIN_GO (R397). A write of MEM_DRAIN_CTL_k.GO starts a storage drain or load. -/
  | drainGo (by_ : Fin 4) (k : Fin 8) (v : BitVec 64)
  /-- STORAGE_DRAIN_END (R397). A drain or load ends with its result and digest. -/
  | storageDrainEnd (k : Fin 8) (qpError : Bool) (err : MemErr) (object : List Byte)
  /-- BARRIER_RAISE (R399). MEM_BARRIER_CTL.RAISE raises the fault barrier and halts T1. -/
  | barrierRaise (by_ : Fin 4)
  /-- BARRIER_CLEAR (R399). MEM_BARRIER_CTL.CLEAR clears the fault barrier when every T1 sequencer is IDLE. -/
  | barrierClear (by_ : Fin 4)
  /-- RESTORE_LIST_GO (R401). MEM_RST_CTL.GO runs the restore list of SLOT, POSITION, VERIFY and FPRINT entries. -/
  | restoreListGo (by_ : Fin 4) (v : BitVec 64)
  /-- RESTORE_LIST_END (R405). The restore list completes or stops at the first failing entry. -/
  | restoreListEnd (err : MemErr)
  /-- AVS_TELEMETRY_READ (R419). Every 50 µs the device reads each rail's voltage, current and status over AVSBus. -/
  | avsTelemetryRead (rails : List (Option AvsRead)) (alerts : List Nat)
  /-- ESTIMATOR_PERIOD (R421). At each 2 µs period end the estimator computes rail power and the governor sets cap and actuators. -/
  | estimatorPeriod (counts : List (List Nat))
  /-- PWR_PROFILE_SELECT (R427). A write of PWR_CTL.PROFILE selects the profile for the next period. -/
  | pwrProfileSelect (by_ : Fin 4) (v : BitVec 32)
  /-- BUDGET_RX (R428). A BUDGET packet records another member's grant and demand. -/
  | budgetRx (p : Packet)
  /-- BRD_ALERT_N_CHANGE (R423). A filtered change of BRD_ALERT_N applies or releases the alert cap. -/
  | brdAlertNChange (low : Bool)
  /-- DROOP_TRIP (R430). A droop detector trips and the core clock is stretched within 2 core cycles. -/
  | droopTrip (d : Fin 64)
  /-- DROOP_CLEAR (R430). A droop detector clears when the voltage recovers. -/
  | droopClear (d : Fin 64)
  /-- THERMAL_SENSOR_READ (R433). A sensor is read at its interval, and three failed readings count it as failed. -/
  | thermalSensorRead (i : Fin 103) (reading : Option (BitVec 16))
  /-- TRACE_BLOCK_FLUSH (R481). A trace block closes FLUSH µs after its first record and is written or sent. -/
  | traceBlockFlush (err : Bool)
  /-- TRACE_BLOCK_RX (R482). A received TRACE block is written by a collector or discarded. -/
  | traceBlockRx (p : Packet) (err : Bool)
  /-- TRACE_WATCHDOG (R478). A wait held longer than TRC_WDOG.LIMIT triggers its cluster's ring. -/
  | traceWatchdog (c : Fin 64)
  /-- TRC_TRIG_WRITE (R478). A write of TRC_TRIG triggers a ring or every enabled ring. -/
  | trcTrigWrite (by_ : Fin 4) (v : BitVec 32)
  /-- RING_FREEZE (R478). A triggered ring freezes after POST records, and dumps if a freeze area is set. -/
  | ringFreeze (u : Fin 80)
  /-- RING_RELEASE (R497). A write of TRC_RING_CTL_u.RELEASE resumes a frozen or dumped ring. -/
  | ringRelease (by_ : Fin 4) (u : Fin 80)
  /-- TRC_CTL_WRITE (R485). A write of TRC_CTL sets the drain mode, closing an open block when MODE becomes OFF. -/
  | trcCtlWrite (by_ : Fin 4) (v : BitVec 32)
  /-- CNT_SNAP_NOW (R491). A write of CNT_SNAP_CTL.NOW writes one snapshot page with every section. -/
  | cntSnapNow (by_ : Fin 4) (err : Bool)
  /-- COUNTER_SELECT_WRITE (R487). A write of a counter select register chooses its source and clears its count. -/
  | counterSelectWrite (by_ : Fin 4) (k : CounterId) (v : BitVec 32)
  /-- HOST_LINK_TRAIN_START (R538). A host port starts link training after PWROK rises or its PERST_N is released. -/
  | hostLinkTrainStart (p : Fin 2)
  /-- HOST_LINK_DOWN (R504). A host link down disables the port's rings and fails device reads in flight. -/
  | hostLinkDown (p : Fin 2)
  /-- HOST_PORT_RESET (R504). Hot reset, PERST or FLR on a port acts as link down and resets the port's tenants. -/
  | hostPortReset (p : Fin 2)
  /-- BAR2_READ (R502). A host BAR2 read returns HBM data when the region check passes, or Completer Abort. -/
  | bar2Read (p : Fin 2) (off : BitVec 40) (n : Fin 4097) (err : MemErr)
  /-- BAR2_WRITE (R502). A host BAR2 write lands in HBM when the region check passes, or is discarded. -/
  | bar2Write (p : Fin 2) (off : BitVec 40) (bytes : List Byte) (err : MemErr)
  /-- HOST_RING_ENABLE (R505). A write setting HIF_RING_CTL_r.EN enables the ring only if its conditions hold. -/
  | hostRingEnable (req : Requester) (r : Fin 64) (v : BitVec 64)
  /-- SQ_TAIL_DOORBELL (R506). A SQ_TAIL doorbell makes new commands available to fetch, or is rejected. -/
  | sqTailDoorbell (p : Fin 2) (r : Fin 64) (v : BitVec 32) (width32 : Bool)
  /-- CQ_HEAD_DOORBELL (R506). A CQ_HEAD doorbell releases completion entries to the device. -/
  | cqHeadDoorbell (p : Fin 2) (r : Fin 64) (v : BitVec 32) (width32 : Bool)
  /-- HOST_CMD_FETCH (R509). The device fetches the next SQ entry and starts it, up to 16 in flight. -/
  | hostCmdFetch (r : Fin 64) (entry : BitVec 512)
  /-- HOST_CMD_COMPLETE (R510). A finished command writes its completion entry and its MSI-X vector. -/
  | hostCmdComplete (r : Fin 64) (cid : BitVec 16)
  /-- HOST_NOP (R508). NOP completes with DETAIL 0. -/
  | hostNop (r : Fin 64) (cid : BitVec 16)
  /-- HOST_COPY_IN (R511). COPY_IN copies host memory into a DPA range on a host copy engine. -/
  | hostCopyIn (r : Fin 64) (cid : BitVec 16)
  /-- HOST_COPY_OUT (R511). COPY_OUT copies a DPA range into host memory. -/
  | hostCopyOut (r : Fin 64) (cid : BitVec 16)
  /-- HOST_COPY_CHUNK (R511). A host copy engine checks and moves one 64 KiB chunk. -/
  | hostCopyChunk (r : Fin 64) (cid : BitVec 16) (data : List Byte) (err : MemErr)
  /-- HOST_LOAD_IMAGE (R162). LOAD_IMAGE fetches, checks and loads a schedule image for the ring's tenant. -/
  | hostLoadImage (r : Fin 64) (cid : BitVec 16) (img : List Byte)
  /-- HOST_START (R556). START writes SEQ_CTL.START in each masked cluster as the ring's tenant. -/
  | hostStart (r : Fin 64) (cid : BitVec 16)
  /-- HOST_SIGNAL (R508). SIGNAL adds a count to a token of a cluster under the tenant rules. -/
  | hostSignal (r : Fin 64) (cid : BitVec 16)
  /-- HOST_QP_CREATE (R520). QP_CREATE sets up a reliable connected queue pair from a descriptor. -/
  | hostQpCreate (r : Fin 64) (cid : BitVec 16) (desc : BitVec 512)
  /-- HOST_QP_DESTROY (R508). QP_DESTROY frees a queue pair. -/
  | hostQpDestroy (r : Fin 64) (cid : BitVec 16)
  /-- HOST_QP_POST (R523). QP_POST posts a SEND, RDMA WRITE or RDMA READ on a queue pair. -/
  | hostQpPost (r : Fin 64) (cid : BitVec 16) (err : MemErr)
  /-- HOST_MKEY (R521). MKEY sets, replaces or releases a memory key and returns its rkey. -/
  | hostMkey (r : Fin 64) (cid : BitVec 16)
  /-- HOST_ATTEST (R554). ATTEST reads a nonce and writes a signed attestation report. -/
  | hostAttest (r : Fin 64) (cid : BitVec 16) (nonce : BitVec 256)
  /-- I3C_PRIVATE_WRITE (R514). An I3C private write stores data at an offset of channel 0's window. -/
  | i3cPrivateWrite (off : BitVec 16) (data : List Byte)
  /-- GET_IDENTITY (R517). The mailbox GET_IDENTITY returns identity status, board and serial. -/
  | getIdentity (ch : Fin 4)
  /-- GET_UNITSTATE (R517). The mailbox GET_UNITSTATE returns the newest unit-state record. -/
  | getUnitstate (ch : Fin 4)
  /-- GET_ENERGY (R517). The mailbox GET_ENERGY returns the energy registers. -/
  | getEnergy (ch : Fin 4)
  /-- SET_CAP (R517). The mailbox SET_CAP writes PWR_CAP.CAP. -/
  | setCap (ch : Fin 4)
  /-- REG_READ (R517). The mailbox REG_READ returns 8 bytes read as T0 at a BAR0 offset. -/
  | regRead (ch : Fin 4)
  /-- REG_WRITE (R517). The mailbox REG_WRITE writes a register as T0. -/
  | regWrite (ch : Fin 4)
  /-- ATTEST (R554). The mailbox ATTEST returns a signed attestation report over the supplied nonce. -/
  | attest (ch : Fin 4)
  /-- VERSIONS (R529). The mailbox VERSIONS negotiates the telemetry page format version. -/
  | versions (ch : Fin 4)
  /-- SVC_SEND_RX (R520). An incoming SEND fills the next receive buffer, or is answered with a NAK; `st`: the stream of a collective's chunk
notice (R374). -/
  | svcSendRx (q : Fin 4096) (psn : BitVec 24) (bytes : List Byte) (st : Fin 4) (room ecn : Bool)
  /-- SVC_RDMA_WRITE_RX (R521). An incoming RDMA WRITE is checked against its key and region and written, or refused. -/
  | svcRdmaWriteRx (q : Fin 4096) (psn : BitVec 24) (rkey : BitVec 32) (a : BitVec 64) (bytes : List Byte) (ecn : Bool) (err : MemErr)
  /-- SVC_RDMA_READ_RX (R521). An incoming RDMA READ is checked and served, or refused. -/
  | svcRdmaReadRx (q : Fin 4096) (psn : BitVec 24) (rkey : BitVec 32) (a : BitVec 64) (n : BitVec 32) (err : MemErr)
  /-- SVC_READ_RESPONSE_RX (R519). A response to a posted RDMA READ lands in the local range. -/
  | svcReadResponseRx (q : Fin 4096) (bytes : List Byte) (err : MemErr)
  /-- SVC_ACK_RX (R519). An acknowledgement completes posted operations on a queue pair. -/
  | svcAckRx (q : Fin 4096) (psn : BitVec 24)
  /-- SVC_NAK_RX (R519). A NAK triggers go-back-N retransmission or puts the queue pair in error. -/
  | svcNakRx (q : Fin 4096) (psn : BitVec 24) (kind : NakKind)
  /-- FLIT_SLOT (R323). At each flit slot an output arbitrates between classes, refills the TC4 bucket and sends a DATA or NULL flit into the replay buffer. -/
  | flitSlot (p : Fin 12) (cycles : Nat)
  /-- HOST_LINK_UP (R500). PCI Express link training on a host port completes and HIF_CFG records the trained width. -/
  | hostLinkUp (p : Fin 2) (width : Fin 17)
  /-- FREEZE_DUMP_DONE (R479). A freeze dump completes and the ring is DUMPED, resuming if AUTO_RELEASE is 1. -/
  | freezeDumpDone (u : Fin 80) (err : Bool)
  /-- HOST_READ_TIMEOUT (R503). A device read of host memory that exceeds HIF_CTO_p is a detected error for its reader. -/
  | hostReadTimeout (p : Fin 2) (reader : HostReader)
  /-- EVQ_LOST_ENTRY (R512). When event-queue space returns, a LOST entry carrying the count is written. -/
  | evqLostEntry (t : Fin 4) (space : Nat)
  /-- I3C_SETDASA (R514). SETDASA assigns the device's dynamic address from its static address. -/
  | i3cSetdasa (sa : BitVec 7) (da : BitVec 7)
  /-- I3C_ENTDAA (R514). ENTDAA assigns a dynamic address using the Provisional ID. -/
  | i3cEntdaa (pid : BitVec 48) (da : BitVec 7)
  /-- REREAD_BOARD (R526). The mailbox REREAD_BOARD rereads and rechecks the board identity while all ports are disabled. -/
  | rereadBoard (ch : Fin 4) (board : Option (List Byte))
  /-- SVC_RETRY_TIMEOUT (R519). A queue pair's transport timeout expires and it retransmits or enters error. -/
  | svcRetryTimeout (q : Fin 4096)
  /-- SVC_CNP_RX (R522). A CNP cuts the queue pair's rate. -/
  | svcCnpRx (q : Fin 4096)
  /-- SVC_RATE_TIMER (R522). After 55 µs without a CNP the queue pair's rate increases. -/
  | svcRateTimer (q : Fin 4096)
  /-- SVC_PAUSE_RX (R518). A received 802.3x or PFC frame is discarded and counted. -/
  | svcPauseRx (p : Fin 2)
  /-- CADENCE_IN_MISSING_TRANSITION (R577). A mid-bit transition missing on CADENCE_IN after a recognised sync field ends the frame as a failed check, setting PIN_CRC and counting CAD_PIN_ERR_CNT. -/
  | cadenceInMissingTransition (synced : Bool)
  /-- SVC_LINK_UP_DOWN (R533). A service Ethernet port's link comes up or goes down, changing SVC_STATUS_p.LINK. -/
  | svcLinkUpDown (p : Fin 2) (up : Bool)
  /-- TEST_ACCESS_PORT_INSTRUCTION (R580). An IEEE 1149.1 instruction through TCK, TMS and TDI runs BYPASS, IDCODE, SAMPLE/PRELOAD or EXTEST, and EXTEST drives lands only while WARM_RST_N is low. -/
  | testAccessPortInstruction (code : TapInstr) (drive pins : Nat)
  /-- PWROK_RISE (R536). The rising edge of PWROK is the cold reset and starts the boot at the ROM stage. -/
  | pwrokRise
  /-- PWROK_FALL (R537). Within 10 µs of PWROK falling the device stops every clock, turns off every transmitter and releases its outputs. -/
  | pwrokFall
  /-- WARM_RST_N_ASSERT (R540). WARM_RST_N held low for 1 µs or more while PWROK is high starts a warm reset, and boot resumes at the rising edge. -/
  | warmRstNAssert
  /-- RESET_QUEUED_START (R542). A queued reset request starts once the running reset has ended. -/
  | resetQueuedStart
  /-- RESET_COMPLETE (R540). A scoped reset finishes, and GLB_RESET_STATUS shows its result. -/
  | resetComplete
  /-- KEEPER_HEARTBEAT_LOSS (R557). When no heartbeat arrives for 10 ms, the standby keeper core takes over. -/
  | keeperHeartbeatLoss
  /-- KEEPER_HANDOVER (R558). At the first accepted beat with no slice, restore list or replay running, the active core passes its state to the standby core. -/
  | keeperHandover
  /-- HANDOVER_TIMEOUT (R558). If the new core does not report ready within 2 ms, the old core stays active and the result is HANDOVER_FAILED. -/
  | handoverTimeout
  /-- MOVER_ASSIGN (R255). The device assigns a free mover to a waiting request or prefetch entry by tenant and cluster turn. -/
  | moverAssign
  /-- UNITSTATE_PUBLISH_TIMER (R462). Every 10 ms the device publishes its unit-state record. -/
  | unitstatePublishTimer
  /-- CONGESTION_SAMPLE (R340). Every 64 fabric cycles each output adds its queue depth to a bin. -/
  | congestionSample
  /-- COMMIT_PASS_END (R222). The commit pass moves home granules, poisons lost granules and sets MEM_TOP. -/
  | commitPassEnd
  /-- PUSH_START (R392). A waiting push starts when its bank is sealed with the named step and fingerprints. -/
  | pushStart
  /-- PUSH_BEGIN_RETRY_TIMER (R393). After REFUSE with DRAINING, BEGIN is sent again every 1 ms. -/
  | pushBeginRetryTimer
  /-- PUSH_TIMEOUT (R396). A push with no ACK or COMPLETE for 100 ms aborts with TIMEOUT. -/
  | pushTimeout
  /-- BARRIER_REACHED (R399). Once issued work completes and T1 transfers and fabric instructions are abandoned, the barrier state becomes REACHED. -/
  | barrierReached
  /-- ESTIMATOR_REFIT (R422). Every 1 ms each rail's gain and offset are refitted against telemetry. -/
  | estimatorRefit
  /-- POOL_BUDGET_ROUND (R429). Every 100 µs a pooled member recomputes its grant and sends BUDGET packets. -/
  | poolBudgetRound
  /-- STRETCH_END (R430). The clock stretch ends 16 core cycles after the last detector clears. -/
  | stretchEnd
  /-- VOLTAGE_REACHED (R431). The regulator reports the written VDD_CORE target reached. -/
  | voltageReached
  /-- FREQUENCY_CHANGE (R431). A pending core clock change takes effect once droop and voltage allow. -/
  | frequencyChange
  /-- THERMAL_CAP_STEP (R434). Every 100 µs the thermal cap falls, rises or holds by sensor state. -/
  | thermalCapStep
  /-- TRACE_DRAIN_TAKE (R481). The drain takes an undrained record into the open trace block, emitting LOST_SPAN first after a gap. -/
  | traceDrainTake
  /-- WARM_RST_N_RELEASE (R576). The filtered rising edge of WARM_RST_N after a held warm reset resumes the boot. -/
  | warmRstNRelease
  deriving DecidableEq, Repr

end Sys2Proof
end

