-- ==== Sys2Proof/Decode.lean ====
section
/-!
DEFINITION. The command a table word spells. The block has no decoder of commands: every row of spec/opcode_table.json gives 0 bits, so
no word spells a command. (The Askeb instruction words that the block's own sequencers decode are read in Machine/Sequencer.lean.)
-/
namespace Sys2Proof

/-- No row of the table gives bits, so every word is refused. -/
def decodeTableWord (_nbits _w : Nat) : Option Instr := none

end Sys2Proof
end

