-- ==== Sys2Proof/Config.lean ====
section
/-!
DEFINITION. What the spec leaves open: constants with no body, so that no proof can see a value of them.
-/
namespace Sys2Proof

/-- A free value; the argument is a plain counter of State, so each use is a value of its own. -/
opaque Config.freeValue : Nat → BitVec 64

/-- A byte that a read of host memory gives: the read's number, the port and the offset in its window. -/
opaque Config.hostByte : Nat → Nat → Nat → BitVec 8

/-- Smiant's JEDEC manufacturer identity, bits 11:1 of IDCODE (R580): the spec gives no number. -/
opaque Config.jedecId : BitVec 11

/-- The manufacturer field of the package identity memory in the I3C Provisional ID (R514): the spec gives no number. -/
opaque Config.mipiId : BitVec 15

/-- The payload of an LMF as a function of its messages and the numbers it acknowledges: the spec gives it no layout (log entry 122). -/
opaque Config.lmfPayload : List Nat → List (BitVec 8)

/-- Words in a stream of the keeper firmware (R151): the spec gives neither its length nor its words (log entry 127). -/
opaque Config.keeperStreamLen : Nat

/-- Bytes 0x200 to 0x2FF of a context slot as a function of the values R268 names for them, in its order: the spec gives no layout (log
entry 128). -/
opaque Config.ctxArea : List Nat → Nat → BitVec 8

end Sys2Proof
end

