-- ==== Sys2Proof/Machine/Numerics.lean ====
section
/-!
DEFINITION. The number formats, the Sterling register and the draw generator (spec/02_numerics_and_sterling.md), in exact
integer and fraction arithmetic: nothing here rounds but by R58.
-/
namespace Sys2Proof

/-! ### Exact fractions -/

def Frac.ofInt (n : Int) : Frac := ⟨n, 1⟩

/-- `2 ^ k` for any integer `k`. -/
def Frac.pow2 (k : Int) : Frac :=
  if 0 ≤ k then ⟨2 ^ k.toNat, 1⟩ else ⟨1, 2 ^ (-k).toNat⟩

def Frac.neg (a : Frac) : Frac := ⟨-a.num, a.den⟩
def Frac.abs (a : Frac) : Frac := ⟨a.num.natAbs, a.den⟩

/-- Exact sum; a denominator that divides the other is not multiplied in, so sums of dyadic values stay small. -/
def Frac.add (a b : Frac) : Frac :=
  if a.den % b.den = 0 then ⟨a.num + b.num * (a.den / b.den : Nat), a.den⟩
  else if b.den % a.den = 0 then ⟨a.num * (b.den / a.den : Nat) + b.num, b.den⟩
  else ⟨a.num * b.den + b.num * a.den, a.den * b.den⟩

def Frac.sub (a b : Frac) : Frac := a.add b.neg
def Frac.mul (a b : Frac) : Frac := ⟨a.num * b.num, a.den * b.den⟩

/-- Exact quotient; the caller has checked that the divisor is not 0. -/
def Frac.div (a b : Frac) : Frac :=
  ⟨(if b.num < 0 then -1 else 1) * a.num * b.den, a.den * b.num.natAbs⟩

/-- `a * 2 ^ k`. -/
def Frac.shift (a : Frac) (k : Int) : Frac :=
  if 0 ≤ k then ⟨a.num * 2 ^ k.toNat, a.den⟩ else ⟨a.num, a.den * 2 ^ (-k).toNat⟩

def Frac.isZero (a : Frac) : Bool := a.num == 0
def Frac.lt (a b : Frac) : Bool := decide (a.num * b.den < b.num * a.den)
def Frac.le (a b : Frac) : Bool := decide (a.num * b.den ≤ b.num * a.den)
def Frac.eqv (a b : Frac) : Bool := decide (a.num * b.den = b.num * a.den)
def Frac.max (a b : Frac) : Frac := if a.lt b then b else a
def Frac.sum (l : List Frac) : Frac := l.foldl Frac.add ⟨0, 1⟩

/-- The largest integer not above the fraction. -/
def Frac.floor (a : Frac) : Int := a.num / (a.den : Int)

/-- `floor (log2 |a|)` for `a` not 0. -/
def Frac.log2 (a : Frac) : Int :=
  let n := a.num.natAbs
  let e : Int := (Nat.log2 n : Int) - Nat.log2 a.den
  if (Frac.pow2 e).le ⟨n, a.den⟩ then e else e - 1

/-- The nearest integer, ties to even (the rounding of R47 and of R58 in mode RNE). -/
def Frac.rneInt (a : Frac) : Int :=
  let k := a.floor
  let twice := (a.sub (.ofInt k)).shift 1
  if (Frac.ofInt 1).lt twice || ((Frac.ofInt 1).eqv twice && k % 2 == 1) then k + 1 else k

/-! ### Element formats (R40, R41, R43) -/

/-- Exponent bits, mantissa bits, bias; the integer formats have no exponent. -/
def ElemFmt.shape : ElemFmt → Nat × Nat × Int
  | .e4m3 => (4, 3, 7)
  | .e5m2 => (5, 2, 15)
  | .e3m2 => (3, 2, 3)
  | .e2m3 => (2, 3, 1)
  | .e2m1 => (2, 1, 1)
  | .int8 => (0, 8, 0)
  | .bx16 => (0, 16, 0)

/-- Bits of one element in memory (R42). -/
def ElemFmt.bits : ElemFmt → Nat
  | .e4m3 => 8 | .e5m2 => 8 | .e3m2 => 6 | .e2m3 => 6 | .e2m1 => 4 | .int8 => 8 | .bx16 => 16

/-- The largest finite magnitude (R40), 127/64 for MXINT8 and 32,767 × 2^−14 for BX16 (R46). -/
def ElemFmt.maxval : ElemFmt → Frac
  | .e4m3 => ⟨448, 1⟩
  | .e5m2 => ⟨57344, 1⟩
  | .e3m2 => ⟨28, 1⟩
  | .e2m3 => ⟨15, 2⟩
  | .e2m1 => ⟨6, 1⟩
  | .int8 => ⟨127, 64⟩
  | .bx16 => ⟨32767, 16384⟩

/-- Two's complement value of the low `w` bits. -/
def toSigned (w n : Nat) : Int :=
  let m := n % 2 ^ w
  if m < 2 ^ (w - 1) then m else (m : Int) - 2 ^ w

/-- The low `w` bits of an integer. -/
def ofSigned (w : Nat) (i : Int) : Nat := (i % (2 ^ w : Int)).toNat

/-- The value of a minifloat code with all its exponent codes finite (R40). -/
def miniValue (ebits mbits : Nat) (bias : Int) (code : Nat) : Frac :=
  let man := code % 2 ^ mbits
  let ex := (code / 2 ^ mbits) % 2 ^ ebits
  let mag : Frac :=
    if ex = 0 then (Frac.ofInt man).shift (1 - bias - mbits)
    else (Frac.ofInt (2 ^ mbits + man)).shift ((ex : Int) - bias - mbits)
  if (code / 2 ^ (ebits + mbits)) % 2 = 1 then mag.neg else mag

/-- The value of an element code before its block scale (R40, R41, R43). -/
def ElemFmt.value (f : ElemFmt) (code : Nat) : Num :=
  match f with
  | .int8 => .fin ⟨toSigned 8 code, 64⟩
  | .bx16 => .fin ⟨toSigned 16 code, 16384⟩
  | .e4m3 => if code % 128 = 127 then .nan else .fin (miniValue 4 3 7 code)
  | .e5m2 =>
    if code % 128 = 124 then .inf (decide (128 ≤ code % 256))
    else if 124 < code % 128 then .nan
    else .fin (miniValue 5 2 15 code)
  | .e3m2 => .fin (miniValue 3 2 3 code)
  | .e2m3 => .fin (miniValue 2 3 1 code)
  | .e2m1 => .fin (miniValue 2 1 1 code)

/-- Bytes read little-endian as one number. -/
def leNat : List Byte → Nat
  | [] => 0
  | b :: rest => b.toNat + 256 * leNat rest

/-- `n` bytes of a number, little-endian. -/
def leBytes : Nat → Nat → List Byte
  | 0, _ => []
  | n + 1, v => BitVec.ofNat 8 v :: leBytes n (v / 256)

/-- Element `i` of a block given as one little-endian number (R42). -/
def ElemFmt.code (f : ElemFmt) (block i : Nat) : Nat := (block >>> (f.bits * i)) % 2 ^ f.bits

/-! ### Rounding (R58) -/

/-- The procedure of R58 on a quantum already chosen: the signed multiple of `q` the value rounds to. -/
def roundQuanta (v q : Frac) (mode : Round) (u : Nat) : Int :=
  let n := v.div q
  match mode with
  | .rne =>
    let k := n.abs.rneInt
    if v.num < 0 then -k else k
  | .sr =>
    let k := n.floor
    let t := ((n.sub (.ofInt k)).shift 32).floor
    if (u : Int) < t then k + 1 else k

/-- `round_float` of R58: the rounded value, or none where its magnitude exceeds `maxval` (overflow). -/
def roundFloat (v : Frac) (mbits : Nat) (emin : Int) (maxval : Frac) (mode : Round) (u : Nat) : Option Frac :=
  if v.isZero then some ⟨0, 1⟩
  else
    let e := v.log2
    let q := Frac.pow2 ((if e < emin then emin else e) - mbits)
    let w := (Frac.ofInt (roundQuanta v q mode u)).mul q
    if maxval.lt w.abs then none else some w

/-- R58 onto an element grid of R40, R41 or R43 (the integer formats with their fixed quantum). -/
def ElemFmt.round (f : ElemFmt) (v : Frac) (mode : Round) (u : Nat) : Option Frac :=
  match f with
  | .int8 =>
    let k := roundQuanta v ⟨1, 64⟩ mode u
    if 127 < k.natAbs then none else some ⟨k, 64⟩
  | .bx16 =>
    let k := roundQuanta v ⟨1, 16384⟩ mode u
    if 32767 < k.natAbs then none else some ⟨k, 16384⟩
  | _ => roundFloat v f.shape.2.1 (1 - f.shape.2.2) f.maxval mode u

/-- The code of a value that lies on a minifloat grid; every zero is +0 (R58). -/
def miniCode (ebits mbits : Nat) (bias : Int) (w : Frac) : Nat :=
  if w.isZero then 0
  else
    let e := w.log2
    let emin : Int := 1 - bias
    let mag :=
      if e < emin then ((w.abs.shift (bias - 1 + mbits)).floor).toNat
      else (e + bias).toNat * 2 ^ mbits + (((w.abs.shift (mbits - e)).floor).toNat - 2 ^ mbits)
    if w.num < 0 then 2 ^ (ebits + mbits) + mag else mag

/-- The code of a value that lies on the element grid. -/
def ElemFmt.encode (f : ElemFmt) (w : Frac) : Nat :=
  match f with
  | .int8 => ofSigned 8 (w.shift 6).floor
  | .bx16 => ofSigned 16 (w.shift 14).floor
  | _ => miniCode f.shape.1 f.shape.2.1 f.shape.2.2 w

/-- The element codes of the non-finite results of R62; none where the format marks the whole block. -/
def ElemFmt.nonFinite (f : ElemFmt) (n : Num) : Option Nat :=
  match f, n with
  | .e5m2, .nan => some 0x7F
  | .e5m2, .inf neg => some (if neg then 0xFC else 0x7C)
  | .e4m3, .nan => some 0x7F
  | .e4m3, .inf neg => some (if neg then 0xFF else 0x7F)
  | _, _ => none

/-! ### Block scales (R46, R47) -/

/-- `block_exponent` of R46. -/
def blockExponent (m maxval : Frac) : Int :=
  if m.isZero then -127
  else
    let r := m.div maxval
    let e := r.log2
    let x := if r.eqv (Frac.pow2 e) then e else e + 1
    if x < -127 then -127 else x

/-- The largest magnitude among the finite values of a list. -/
def maxFinite (l : List Num) : Frac :=
  l.foldl (fun m v => match v with
    | .fin q => m.max q.abs
    | _ => m) ⟨0, 1⟩

def Num.isFinite : Num → Bool
  | .fin _ => true
  | _ => false

/-- A block: its scale code and its element codes in order. -/
abbrev Block := Nat × List Nat

/-- The non-finite block of R62: scale 0xFF, element codes 0. -/
def nanBlock (n : Nat) : Block := (0xFF, List.replicate n 0)

/-- `bxd_split` of R47 on the values of one block: the hi block and the lo block. -/
def bxdSplit (vs : List Num) : Block × Block :=
  if vs.all Num.isFinite then
    let v := vs.map (fun n => match n with | .fin q => q | _ => ⟨0, 1⟩)
    let xh := blockExponent (maxFinite vs) ElemFmt.bx16.maxval
    let xl := if xh - 15 < -127 then -127 else xh - 15
    let hi := v.map (fun q => (q.shift (14 - xh)).rneInt)
    let lo := (v.zip hi).map (fun p => ((p.1.sub ((Frac.ofInt p.2).shift (xh - 14))).shift (14 - xl)).rneInt)
    (((xh + 127).toNat, hi.map (ofSigned 16)), ((xl + 127).toNat, lo.map (ofSigned 16)))
  else (nanBlock vs.length, nanBlock vs.length)

/-- A block of `fmt` from exact values (R46, R60, R62): `us` are the draws of its elements in order. -/
def encodeBlock (f : ElemFmt) (vs : List Num) (mode : Round) (us : List Nat) : Block :=
  let x0 := blockExponent (maxFinite vs) f.maxval
  let x := if 127 < x0 then 127 else x0
  let coded := (vs.zip us).map (fun p =>
    match p.1 with
    | .fin q =>
      match f.round (q.shift (-x)) mode p.2 with
      | some w => some (f.encode w)
      | none => f.nonFinite (.inf (decide (q.num < 0)))
    | n => f.nonFinite n)
  if coded.all Option.isSome then ((x + 127).toNat, coded.map (·.getD 0)) else nanBlock vs.length

/-- The value of element code `code` in a block of scale `scale` (R39). -/
def blockValue (f : ElemFmt) (scale code : Nat) : Num :=
  if scale = 0xFF then .nan
  else match f.value code with
    | .fin q => .fin (q.shift ((scale : Int) - 127))
    | n => n

/-- Block precision loss (R48): the conversion of the block changed a nonzero element. -/
def blockLost (vs : List Num) (back : List Frac) : Bool :=
  vs.all Num.isFinite &&
    (vs.zip back).any (fun p => match p.1 with | .fin q => !q.eqv p.2 | _ => false)

/-! ### FP32 and BF16 (R44, R59) -/

/-- The value of an FP32 word. -/
def fp32Value (b : BitVec 32) : Num :=
  let n := b.toNat
  let ex := (n / 2 ^ 23) % 256
  if ex = 255 then (if n % 2 ^ 23 = 0 then .inf (decide (2 ^ 31 ≤ n)) else .nan)
  else .fin (miniValue 8 23 127 n)

/-- The value of a BF16 word: the upper half of an FP32 word. -/
def bf16Value (b : BitVec 16) : Num := fp32Value (BitVec.ofNat 32 (b.toNat * 2 ^ 16))

/-- The largest finite FP32 and BF16 values. -/
def fp32Max : Frac := (Frac.ofInt (2 ^ 24 - 1)).shift 104
def bf16Max : Frac := (Frac.ofInt 255).shift 120

/-- A non-finite result in FP32 (R62). -/
def fp32NonFinite : Num → BitVec 32
  | .nan => 0x7FC00000
  | .inf true => 0xFF800000
  | _ => 0x7F800000

/-- An exact value rounded once into FP32 (R58, R59, R62); a zero result is +0. -/
def toFp32 (v : Num) (mode : Round) (u : Nat) : BitVec 32 :=
  match v with
  | .fin q =>
    match roundFloat q 23 (-126) fp32Max mode u with
    | some w => BitVec.ofNat 32 (miniCode 8 23 127 w)
    | none => fp32NonFinite (.inf (decide (q.num < 0)))
  | n => fp32NonFinite n

/-- An exact value rounded once into BF16 (R58, R59, R62); a zero result is +0. -/
def toBf16 (v : Num) (mode : Round) (u : Nat) : BitVec 16 :=
  match v with
  | .fin q =>
    match roundFloat q 7 (-126) bf16Max mode u with
    | some w => BitVec.ofNat 16 (miniCode 8 7 127 w)
    | none => BitVec.ofNat 16 ((fp32NonFinite (.inf (decide (q.num < 0)))).toNat / 2 ^ 16)
  | n => BitVec.ofNat 16 ((fp32NonFinite n).toNat / 2 ^ 16)

/-! ### The Sterling register (R49 to R55) -/

def AccFmt.limbs : AccFmt → Nat
  | .acc2 => 2 | .acc4 => 4 | .acc10 => 10

def AccFmt.slots : AccFmt → Nat
  | .acc2 => 20 | .acc4 => 10 | .acc10 => 4

/-- The window depth D (R49). -/
def AccFmt.depth : AccFmt → Int
  | .acc2 => 36 | .acc4 => 164 | .acc10 => 548

def AccFmt.code : AccFmt → Nat
  | .acc2 => 0 | .acc4 => 1 | .acc10 => 2

/-- The narrowest slot format whose depth covers a spread (R52). -/
def replayFmt (spread : Int) : AccFmt :=
  if spread ≤ 36 then .acc2 else if spread ≤ 164 then .acc4 else .acc10

/-- The scale sum of a block pair (R50); none where either scale is 0xFF. -/
def scaleSum (sa sb : Nat) : Option Int :=
  if sa = 0xFF ∨ sb = 0xFF then none else some ((sa : Int) - 127 + ((sb : Int) - 127))

/-- The tile anchor (R50): the largest scale sum, −254 where no pair takes part. -/
def anchorOf (pairs : List (Nat × Nat)) : Int :=
  pairs.foldl (fun a p => match scaleSum p.1 p.2 with
    | some x => if a < x then x else a
    | none => a) (-254)

/-- The largest spread of the pairs that take part (R52); 0 where none does. -/
def maxSpread (anchor : Int) (pairs : List (Nat × Nat)) : Int :=
  pairs.foldl (fun m p => match scaleSum p.1 p.2 with
    | some x => if m < anchor - x then anchor - x else m
    | none => m) 0

/-- What one block pair adds to a slot: the exact dot product of the finite products and the flags of R55. -/
structure PairSum where
  dot : Frac
  nonzero : Bool
  p : Bool
  m : Bool
  q : Bool
  deriving DecidableEq, Repr

/-- One element product of R55 folded into a block pair's sum. -/
def PairSum.step (s : PairSum) (a b : Num) : PairSum :=
  let signed (neg : Bool) : PairSum := if neg then { s with m := true } else { s with p := true }
  match a, b with
  | .nan, _ => { s with q := true }
  | _, .nan => { s with q := true }
  | .inf x, .inf y => signed (x != y)
  | .inf x, .fin f => if f.isZero then { s with q := true } else signed (x != decide (f.num < 0))
  | .fin f, .inf y => if f.isZero then { s with q := true } else signed (y != decide (f.num < 0))
  | .fin f, .fin g =>
    let pr := f.mul g
    if pr.isZero then s else { s with dot := s.dot.add pr, nonzero := true }

/-- The dot product of a block pair (R55); a scale 0xFF on either side sets Q. A pair that sets a flag adds nothing. -/
def pairSum (sa sb : Nat) (as bs : List Num) : PairSum :=
  let z : PairSum := ⟨⟨0, 1⟩, false, false, false, false⟩
  if sa = 0xFF ∨ sb = 0xFF then { z with q := true }
  else
    let x := (as.zip bs).foldl (fun s p => s.step p.1 p.2) z
    if x.p || x.m || x.q then { x with dot := ⟨0, 1⟩, nonzero := false } else x

/-- The integer a dot product adds to a slot of format `f` at anchor `a` (R49): weight of bit 0 is 2^(A − 32 − D). -/
def slotAdd (f : AccFmt) (anchor sum : Int) (dot : Frac) : Int :=
  (dot.shift (sum - (anchor - 32 - f.depth))).floor

/-- The exact value of a slot (R49), with its flags (R62). -/
def slotValue (f : AccFmt) (anchor i : Int) (p m q : Bool) : Num :=
  if q || (p && m) then .nan
  else if p then .inf false
  else if m then .inf true
  else .fin ((Frac.ofInt i).shift (anchor - 32 - f.depth))

/-- The status word of the accumulator debug read (R56). -/
def slotStatus (f : AccFmt) (anchor : Int) (p m q : Bool) (count : Nat) : BitVec 64 :=
  BitVec.ofNat 64 (ofSigned 9 anchor + f.code * 2 ^ 9 + p.toNat * 2 ^ 11 + m.toNat * 2 ^ 12 + q.toNat * 2 ^ 13
    + (count % 2 ^ 25) * 2 ^ 14)

/-! ### FP8 tiles with a sidecar (R61) -/

/-- The outcome of one emission pass at tile exponent `M`: whether some finite element overflows. -/
def fp8Overflows (f : ElemFmt) (vs : List Num) (m : Int) (mode : Round) (us : List Nat) : Bool :=
  (vs.zip us).any (fun p => match p.1 with
    | .fin q => (f.round (q.shift m) mode p.2).isNone
    | _ => false)

/-- The element codes of an emission at tile exponent `M` (R61, R62). -/
def fp8Codes (f : ElemFmt) (vs : List Num) (m : Int) (mode : Round) (us : List Nat) : List Nat :=
  (vs.zip us).map (fun p => match p.1 with
    | .fin q =>
      match f.round (q.shift m) mode p.2 with
      | some w => f.encode w
      | none => (f.nonFinite (.inf (decide (q.num < 0)))).getD 0
    | n => (f.nonFinite n).getD 0)

/-- The sidecar entry (R61). -/
def sidecarEntry (m : Int) (steps : Nat) (exh : Bool) : BitVec 32 :=
  BitVec.ofNat 32 (ofSigned 8 m + (steps % 16) * 2 ^ 8 + exh.toNat * 2 ^ 12)

/-! ### AQ32 and AQ48 (R64, R65) -/

/-- A finite code, an infinity or NaN of AQ32 (`w` = 32) or AQ48 (`w` = 48). -/
def aqValue (w : Nat) (code : Nat) : Num :=
  if code = 2 ^ (w - 1) - 1 then .inf false
  else if code = 2 ^ (w - 1) + 1 then .inf true
  else if code = 2 ^ (w - 1) then .nan
  else .fin ⟨toSigned w code, 1⟩

/-- The code of an integer or a non-finite result. -/
def aqCode (w : Nat) (n : Num) : Nat :=
  match n with
  | .fin q => ofSigned w q.floor
  | .inf false => 2 ^ (w - 1) - 1
  | .inf true => 2 ^ (w - 1) + 1
  | .nan => 2 ^ (w - 1)

/-- Addition of R65. -/
def aqAdd (a b : Num) : Num :=
  match a, b with
  | .nan, _ => .nan
  | _, .nan => .nan
  | .inf x, .inf y => if x = y then .inf x else .nan
  | .inf x, .fin _ => .inf x
  | .fin _, .inf y => .inf y
  | .fin x, .fin y => .fin (x.add y)

/-- A local value quantised into AQ32 at scale code `e` (R64): the code, and whether it overflowed. -/
def aq32Quantise (e : Nat) (v : Num) : Num × Bool :=
  match v with
  | .fin q =>
    let k := roundQuanta q (Frac.pow2 ((e : Int) - 158)) .rne 0
    if 2 ^ 31 - 2 < k.natAbs then (.inf (decide (k < 0)), true) else (.fin ⟨k, 1⟩, false)
  | n => (n, false)

/-! ### The draw generator (R66 to R68) -/

/-- One round of R66 on the pair (a, b). -/
def drawRound (k1 k0 : BitVec 64) (s : BitVec 64 × BitVec 64) (i : Nat) : BitVec 64 × BitVec 64 :=
  let m0 : BitVec 64 := 0xE3A75C196B2DF44D
  let m1 : BitVec 64 := 0x8F1CD2B63A59E717
  let rk := (if i % 2 = 0 then k0 else k1) + BitVec.ofNat 64 (i + 1) * 0xA5C317F92B64D08D
  let t := s.2 ^^^ rk
  let t := t * (if i % 2 = 0 then m0 else m1)
  let t := t ^^^ (t >>> 32)
  let t := t * (if i % 2 = 0 then m1 else m0)
  let t := t ^^^ (t >>> 29)
  (s.2, s.1 ^^^ t)

/-- `draw` of R66: (d1, d0). -/
def draw (k1 k0 c1 c0 : BitVec 64) : BitVec 64 × BitVec 64 :=
  [0, 1, 2, 3].foldl (drawRound k1 k0) (c1, c0)

/-- The upper coordinate word of R67. -/
def drawC1 (step mbatch slot kind : Nat) : BitVec 64 :=
  BitVec.ofNat 64 ((step % 2 ^ 40) * 2 ^ 24 + (mbatch % 2 ^ 16) * 2 ^ 8 + (slot % 16) * 16 + kind % 16)

/-- The lower coordinate word of R67. -/
def drawC0 (layer tensor element : Nat) : BitVec 64 :=
  BitVec.ofNat 64 ((layer % 2 ^ 16) * 2 ^ 48 + (tensor % 2 ^ 8) * 2 ^ 40 + element % 2 ^ 40)

end Sys2Proof
end

