-- ==== Sys2Proof/Machine/Codes.lean ====
section
/-!
DEFINITION. The check codes of the spec (CRC-8 of R21, CRC-32C of R285, CRC-64 of R257) and the digest SM3 that R163 and R398 name
(PRESUMED: the standard's own definition, GB/T 32905; log entry 34).
-/
namespace Sys2Proof

/-! ### Cyclic redundancy checks -/

/-- One byte of a non-reflected CRC of `w` bits with polynomial `poly`: the byte enters at the top, its highest bit first. -/
def crcByteMsb (w poly : Nat) (crc : Nat) (b : Byte) : Nat :=
  (List.range 8).foldl (fun c _ => if c.testBit (w - 1) then (c * 2 % 2 ^ w) ^^^ poly else c * 2 % 2 ^ w)
    (crc ^^^ (b.toNat * 2 ^ (w - 8)))

def crcMsb (w poly init : Nat) (bs : List Byte) : Nat := bs.foldl (crcByteMsb w poly) init

/-- CRC-64 of R257, continued from `f`. -/
def crc64From (f : BitVec 64) (bs : List Byte) : BitVec 64 := BitVec.ofNat 64 (crcMsb 64 0x42F0E1EBA9EA3693 f.toNat bs)
def crc64 (bs : List Byte) : BitVec 64 := crc64From 0 bs

/-- CRC-8 of R21 over the 64 position bits, bit 63 first. -/
def crc8 (v : BitVec 64) : BitVec 8 := BitVec.ofNat 8 (crcMsb 8 0x07 0 (leBytes 8 v.toNat).reverse)

/-- One byte of a reflected CRC of 32 bits with (reflected) polynomial `poly`. -/
def crc32Byte (poly : Nat) (crc : Nat) (b : Byte) : Nat :=
  (List.range 8).foldl (fun c _ => if c % 2 = 1 then (c / 2) ^^^ poly else c / 2) (crc ^^^ b.toNat)

/-- CRC-32C of R285: reflected in and out, initial value and final complement all ones. -/
def crc32c (bs : List Byte) : BitVec 32 := ~~~ BitVec.ofNat 32 (bs.foldl (crc32Byte 0x82F63B78) 0xFFFFFFFF)

/-! ### SM3 -/

def beNat : List Byte → Nat := List.foldl (fun n b => n * 256 + b.toNat) 0
def beBytes (n v : Nat) : List Byte := (leBytes n v).reverse

/-- Words W_0 … W_67 of a block, newest first: each from the words 3, 6, 9, 13 and 16 back. -/
def sm3P0 (x : BitVec 32) : BitVec 32 := x ^^^ x.rotateLeft 9 ^^^ x.rotateLeft 17
def sm3P1 (x : BitVec 32) : BitVec 32 := x ^^^ x.rotateLeft 15 ^^^ x.rotateLeft 23

def sm3Words : Nat → List (BitVec 32) → List (BitVec 32)
  | 0, ws => ws
  | n + 1, ws =>
    let w (i : Nat) := ws.getD i 0
    sm3Words n ((sm3P1 (w 15 ^^^ w 8 ^^^ (w 2).rotateLeft 15) ^^^ (w 12).rotateLeft 7 ^^^ w 5) :: ws)

def sm3Block (v : List (BitVec 32)) (block : List Byte) : List (BitVec 32) :=
  let w0 := ((List.range 16).map (fun i => BitVec.ofNat 32 (beNat ((block.drop (4 * i)).take 4)))).reverse
  let ws := (sm3Words 52 w0).reverse
  let round (st : List (BitVec 32)) (j : Nat) : List (BitVec 32) :=
    match st with
    | [a, b, c, d, e, f, g, h] =>
      let t : BitVec 32 := if j < 16 then 0x79cc4519 else 0x7a879d8a
      let ss1 := (a.rotateLeft 12 + e + t.rotateLeft (j % 32)).rotateLeft 7
      let ss2 := ss1 ^^^ a.rotateLeft 12
      let wj := ws.getD j 0
      let wj' := wj ^^^ ws.getD (j + 4) 0
      let ff := if j < 16 then a ^^^ b ^^^ c else (a &&& b) ||| (a &&& c) ||| (b &&& c)
      let gg := if j < 16 then e ^^^ f ^^^ g else (e &&& f) ||| (~~~e &&& g)
      let tt1 := ff + d + ss2 + wj'
      let tt2 := gg + h + ss1 + wj
      [tt1, a, b.rotateLeft 9, c, sm3P0 tt2, e, f.rotateLeft 19, g]
    | _ => st
  ((List.range 64).foldl round v).zipWith (· ^^^ ·) v

def sm3Blocks : Nat → List (BitVec 32) → List Byte → List (BitVec 32)
  | 0, v, _ => v
  | n + 1, v, bs => if bs.length < 64 then v else sm3Blocks n (sm3Block v (bs.take 64)) (bs.drop 64)

/-- The SM3 digest, 32 bytes. -/
def sm3 (bs : List Byte) : List Byte :=
  let pad := (64 - (bs.length + 9) % 64) % 64
  let msg := bs ++ [0x80] ++ List.replicate pad 0 ++ beBytes 8 (bs.length * 8)
  let iv : List (BitVec 32) := [0x7380166f, 0x4914b2b9, 0x172442d7, 0xda8a0600, 0xa96f30bc, 0x163138aa, 0xe38dee4d, 0xb0fb0e4e]
  (sm3Blocks (msg.length / 64) iv msg).flatMap (fun w => beBytes 4 w.toNat)

end Sys2Proof
end

