-- ==== Sys2Proof/Machine/State.lean ====
section
/-!
DEFINITION. What the block holds. Every register of spec/18_register_map.md lives in `regs`, keyed by its BAR0 offset; memory in
`mem`, keyed by its device physical address (R210); the state the spec gives a unit without a register of its own stands in the
records below. Everything is plain data.
-/
namespace Sys2Proof.Machine

/-! ### The sequencer and its ports (R131, R132) -/

/-- A decoded instruction: its word and PC, the predicate, SLOT and the scalar registers as they were at decode (R132). -/
structure QEntry where
  word : BitVec 128 := 0
  pc : Nat := 0
  pred : Bool := true
  slot : Nat := 0
  scal : Tab (BitVec 64) := []
  deriving DecidableEq, Repr

/-- One loop-stack entry (R144); `suspended` while a recompute segment runs (R146). -/
structure LoopEntry where
  ireg : Nat
  start : BitVec 64
  stride : BitVec 64
  trip : Nat
  iter : Nat
  bodyStart : Nat
  bodyLen : Nat
  suspended : Bool
  deriving DecidableEq, Repr

/-- Why decode holds. -/
inductive HoldKind where
  | header                          -- a sequencer instruction waits for its header token (R136)
  | wait (tok count : Nat)          -- WAIT (R136)
  | cwait (pos : BitVec 64) (yieldable : Bool)
  | fence (ports : Nat)             -- FENCE (R139)
  | yield                           -- YIELD with a request pending (R147)
  | pop                             -- POP until the entry kind is known (R132)
  deriving DecidableEq, Repr

/-- A held decode: the instruction that holds it and when the hold began. -/
structure Hold where
  kind : HoldKind
  entry : QEntry
  since : Nat
  deriving DecidableEq, Repr

/-! ### Ranks (R49 to R55, R70 to R81) -/

/-- One slot of the Sterling register: its integer, its flags, the pairs accumulated. -/
structure Slot where
  acc : Int := 0
  p : Bool := false
  m : Bool := false
  q : Bool := false
  count : Nat := 0
  deriving DecidableEq, Repr

/-- A tensor descriptor with the captured value of its index register (R132, R140). -/
structure Desc where
  raw : BitVec 512
  idx : BitVec 64 := 0
  deriving DecidableEq, Repr

/-- A tile in flight on a rank. -/
structure Tile where
  mma : Nat                   -- which active instruction
  index : Nat                 -- which of its tiles
  fmt : AccFmt
  anchor : Int
  group : Nat := 0            -- first column of the group in the limbs (R52)
  groupLen : Nat              -- its columns
  replay : Option AccFmt := none   -- waits for limbs to replay in this format (R52)
  lanes : Tab Nat := []       -- K-steps each logical lane has accumulated in this group
  slots : Tab Slot := []      -- key: column × 128 + logical lane
  blocks : List Nat := []     -- output blocks the drain has read (R74): column × 4 + block
  exp : Int := 0              -- tile exponent being tried (R61)
  steps : Nat := 0            -- re-emissions
  emitted : Bool := false     -- the final emission pass has ended (R75)
  exh : Bool := false
  audited : Bool := false     -- sampled for audit (R451)
  auditDone : Bool := false
  errors : Nat := 0           -- detected errors it has met (R446)
  stopAt : Option Nat := none -- the stage word whose parity failure stops it (R446, R448)
  waiting : Bool := false     -- abandoned; waits for QUIESCE to clear (R447)
  deriving DecidableEq, Repr

/-- An issued rank instruction whose tiles are not all complete, with its descriptors as read at issue. -/
structure ActiveMma where
  id : Nat
  entry : QEntry
  p : Desc
  q : Desc
  o : Desc
  next : Nat := 0             -- next tile to start
  done : Nat := 0             -- tiles completed
  panel : Nat := 0            -- its panel group (R186); 0: none
  lead : Bool := true         -- the first of its group: its reads of the private operand serve the group (R89)
  deriving DecidableEq, Repr

/-- Converted output in the drain's buffer (R75, R77): the instruction, its tile, the elements and the scales by element. -/
structure DrainOut where
  mma : Nat
  index : Nat
  els : List (Nat × Nat)
  scales : List (Nat × Nat) := []
  deriving DecidableEq, Repr

/-- What the keeper does once a rank reports QUIESCED (R87). -/
structure SwitchIn where
  lanes : List Nat            -- physical lanes to retire
  cause : Nat
  deriving DecidableEq, Repr

structure Rank where
  active : List ActiveMma := []
  tiles : List Tile := []
  nextId : Nat := 0
  shared : Nat := 0           -- K-steps in the shared input buffer (R77)
  priv : Tab Nat := []        -- private K-steps that each lane's buffer holds (R77)
  tap : Tab Nat := []         -- K-steps waiting in each lane's tap buffer (R78)
  out : List DrainOut := []   -- the drain output buffer (R77)
  stopped : Bool := false     -- the stagger chain is stopped (R78)
  slot : Nat := 0             -- admission slots of lane 0, modulo 16 (R424)
  ramping : Bool := false     -- a ramp-up is under way (R80, R81)
  selfQuiesced : Bool := false   -- QUIESCE was set by a residue error, or by the keeper for a switch-in (R87, R447)
  switch : Option SwitchIn := none   -- the switch-in that waits for QUIESCED
  deriving DecidableEq, Repr

/-! ### Vector engine, conditioner, movers -/

/-- A vector instruction with its descriptors A to E and the four of IMM, as read at issue. -/
structure VecJob where
  entry : QEntry
  ds : List Desc
  granule : Nat := 0
  fails : Nat := 0            -- detected errors of the current granule (R446)
  waiting : Bool := false     -- waits for the targeted test (R447)
  deriving DecidableEq, Repr

/-- A running MOV.C (R192). -/
structure CondJob where
  entry : QEntry
  src : Desc
  row : Desc
  col : Desc
  fails : Nat := 0
  waiting : Bool := false
  deriving DecidableEq, Repr

/-- A mover's progress record (R258), its descriptors as read at issue with the captured values of their index registers; for a stack copy,
where the entry lies and its trailer, which a PUSH writes last (R234, R235). -/
structure MovRec where
  src : BitVec 512 := 0
  dst : BitVec 512 := 0
  srcIdx : BitVec 64 := 0
  dstIdx : BitVec 64 := 0
  state : Nat := 0
  kind : Nat := 0
  cluster : Nat := 0
  tenant : Nat := 0
  slot : Nat := 0
  sig : Nat := 0
  total : Nat := 0
  done : Nat := 0
  fp : BitVec 64 := 0
  pc : Nat := 0
  word : BitVec 128 := 0
  stkAddr : Nat := 0
  trailer : BitVec 512 := 0
  deriving DecidableEq, Repr

structure PrefEntry where
  mrec : MovRec
  due : Bool := false         -- decode has reached a FENCE or YIELD that starts it (R197)
  deriving DecidableEq, Repr

/-- A request for a mover (R255): of a port head, which issues as it gets one, of a started prefetch entry, or of a transfer that continues
from its record. -/
structure MovReq where
  mrec : MovRec
  isPref : Bool
  head : Bool := false
  deriving DecidableEq, Repr

/-- The operations the stack engine orders on one partition (R237), and its push count (R234). -/
structure StkPart where
  pushes : Nat := 0
  writing : Nat := 0          -- PUSHes whose trailer is not yet written
  reading : Nat := 0          -- POPs and PEEKs that have not finished reading
  deriving DecidableEq, Repr

/-- A queued or running targeted test (R453, R466). -/
structure TestReq where
  unit : Nat
  cls : Nat
  tenant : Nat
  dpa : Nat
  cpos : BitVec 64
  tsc : Nat
  running : Bool := false
  lost : Bool := false        -- its burst has been declared lost (R449)
  deriving DecidableEq, Repr

/-- What a cluster holds beside its registers. SEQ_PC, SEQ_STATUS and the SEQ_TOKEN registers stand in `regs`. -/
structure Cluster where
  sreg : Tab (BitVec 64) := []
  preds : BitVec 8 := 1
  desc : Tab (BitVec 512) := []
  loops : List LoopEntry := []
  ret : Option (Nat × Nat) := none      -- return register, and the loop depth at entry (R146)
  fetched : Tab (BitVec 128) := []      -- the fetch queue, by PC (R133)
  rankQ : List QEntry := []
  vecQ : List QEntry := []
  movQ : List QEntry := []
  fabQ : List QEntry := []
  hold : Option Hold := none
  vec : Option VecJob := none
  cond : Option CondJob := none
  pref : List PrefEntry := []
  journal : List MovRec := []           -- last 32 completed HBM-to-own-stage transfers (R448)
  pageTag : Tab Nat := []               -- stage page → 1 + number of the transfer that wrote it whole
  journalNext : Nat := 0
  tests : List TestReq := []
  yieldAt : Nat := 0                    -- CAD_TSC at the last yield point (R148)
  yieldHeld : Nat := 0                  -- time held in WAIT and non-yieldable CWAIT since then
  before : Nat := 0                     -- sequencer state before capture (R266)
  capturedAt : Nat := 0                 -- CAD_TSC at the last capture
  parkReq : Bool := false               -- the pending request is PARK
  reqTenant : Nat := 0
  requested : Bool := false             -- a SAVE or PARK is pending (R265)
  heldRecs : List MovRec := []          -- transfers stopped in HELD for a capture; in a saved context every stopped transfer
  wdogFired : Bool := false             -- the watchdog has fired in this hold (R478)
  testStream : Bool := false            -- a TEST-context stream of a slice runs (R459)
  headSince : Tab Nat := []             -- port → 1 + CAD_TSC when its head began to wait for its token (R476)
  prod : Tab (BitVec 64) := []          -- token → PEER of the newest signal (R476)
  hard : Bool := false                  -- a fault that cannot be resumed is pending (R155)
  panel : List QEntry := []             -- the run of rank-port instructions that share a panel group (R186), and its number
  panelNo : Nat := 0
  headAt : Tab Nat := []                -- port → 1 + CAD_TSC when its head reached it (R184)
  capturedPos : BitVec 64 := 0          -- CAD_POS at the last capture (R268)
  saveSeqs : Tab Nat := []              -- per tenant: saves of it on this cluster (R268)
  deriving DecidableEq, Repr

/-- A saved context: the cluster's record and its registers as captured (R266). -/
structure SavedCtx where
  clu : Cluster
  regs : List (Nat × BitVec 64)
  fault : List (BitVec 64) := []      -- the words of a pending fault record
  stk : List (Nat × BitVec 64 × StkPart) := []   -- by slot of the tenant: STK_TOP and what the stack engine holds of the partition (R238)
  deriving DecidableEq, Repr

/-! ### Observation (R473 to R484) -/

structure TraceRec where
  tsc : BitVec 64
  cpos : BitVec 64
  event : Nat
  unit : Nat
  obj : Nat
  dur : Nat
  peer : BitVec 64
  deriving DecidableEq, Repr

/-- A trace ring: its newest 256 records, oldest first; STATE, WRITTEN and LOST stand in TRC_RING_STAT_u. -/
structure Ring where
  recs : List TraceRec := []
  undrained : Nat := 0        -- how many of the newest records the drain has not taken
  post : Nat := 0             -- records still to come before the freeze
  lost : Nat := 0             -- lost since the last LOST_SPAN (R484)
  firstTsc : BitVec 64 := 0
  firstCpos : BitVec 64 := 0
  lastTsc : BitVec 64 := 0
  deriving DecidableEq, Repr

/-- The open trace block (R481). -/
structure TraceBlock where
  recs : List TraceRec := []
  first : Nat := 0
  deriving DecidableEq, Repr

/-! ### Error detection and retirement (R445 to R463) -/

structure UnitRec where
  state : Nat := 0
  cond : Bool := false
  conf : Nat := 0
  replays : Nat := 0
  last : Option Nat := none   -- CAD_TSC of the last TRANSIENT or PASS outcome
  untested : Bool := false    -- its last outcome is UNTESTED: the next slice tests it (R456)
  freq : Nat := 0             -- FLEVEL and die temperature logged when the record opened (R457)
  temp : Nat := 0
  deriving DecidableEq, Repr

/-- A retired pseudo-channel: the set X before its commit, and the bursts of its lost granules rewritten since (R222). -/
structure Commit where
  pc : Nat
  before : List Nat
  healed : List Nat := []
  deriving DecidableEq, Repr

/-- A self-test slice in progress (R459). -/
structure Slice where
  k : Nat
  left : List Nat             -- clusters still to finish
  saved : List (Nat × Nat)    -- (cluster, tenant) saved for the slice
  deriving DecidableEq, Repr

/-! ### Checkpoint banks and the twin (R386 to R396) -/

/-- A slot's values as a seal captures them (R386, R388). -/
structure SlotSnap where
  k0 : BitVec 64 := 0
  k1 : BitVec 64 := 0
  ndi : Nat := 0
  ndiPos : Nat := 0
  dpos : BitVec 64 := 0
  owner : Nat := 0
  deriving DecidableEq, Repr

/-- A seal in progress (R388). -/
structure SealJob where
  bank : Nat
  step : Nat
  fpen : Bool
  pos : BitVec 64
  slots : List SlotSnap
  deriving DecidableEq, Repr

/-- The twin push, from its request to its end (R392, R393); its STATE stands in MEM_TWIN_STATUS. -/
structure Push where
  bank : Nat
  step : Nat
  next : Nat := 0             -- sequence index of the next chunk to send
  draining : Bool := false    -- the twin refused BEGIN with DRAINING: it is sent again every 1 ms
  unacked : List Nat := []
  deriving DecidableEq, Repr

/-- The mirror being filled (R394): which packets of each chunk have landed, which chunks are complete, the held header, and of the
body as it was received, by position, how many bytes came and their CRC-64. -/
structure Fill where
  sender : Nat
  tag : Nat
  len : Nat
  got : List (Nat × Nat) := []
  landed : List Nat := []
  header : List Byte := []
  crcs : Tab (Nat × BitVec 64) := []
  deriving DecidableEq, Repr

/-! ### The router (R316 to R341) -/

/-- A packet inside the router: where it came in (0–11 torus, 12–15 local), the channel it holds there (16: just injected),
for a queued one the channel it leaves on and the flits already sent, for a multicast copy the store entry it frees; the axis it travels
on its channel (3: none yet), and the output that a port going DOWN returned it from: this router has counted itself in HOPS (R330). -/
structure RPkt where
  p : Packet
  inPort : Nat := 12
  chan : Nat := 16
  outChan : Nat := 16
  sent : Nat := 0
  copyOf : Option Nat := none
  axis : Nat := 3
  back : Option Nat := none
  deriving DecidableEq, Repr

/-- A multicast packet held in the replication store until its last copy has left (R334). -/
structure McEntry where
  id : Nat
  tc : Nat
  flits : Nat
  left : Nat
  deriving DecidableEq, Repr

/-- Arbitration of one output (R323): the class being served, the turns it has left, the channel last served. -/
structure Arb where
  cls : Nat := 0
  left : Nat := 0
  chan : Nat := 0
  deriving DecidableEq, Repr

/-- The open congestion interval (R340, R341). -/
structure CongInt where
  bins : Tab Nat := []        -- port × 8 + bin
  samples : Nat := 0
  pos : BitVec 64 := 0
  tsc : Nat := 0
  flits : Tab Nat := []
  stall : Tab Nat := []       -- port × 5 + class
  deriving DecidableEq, Repr

/-- The router. -/
structure Router where
  rin : List RPkt := []       -- waiting for route selection, oldest first
  rout : Tab (List RPkt) := []   -- queued for an output port
  lastPort : Nat := 11
  usedRes : Tab Nat := []     -- reserved credits in use: port × 128 + class × 16 + channel
  usedPool : Tab Nat := []    -- pool credits in use, same key
  heldRes : Tab Nat := []     -- flits held at an input against its reserve, same key
  heldPool : Tab Nat := []    -- flits held at an input in the shared pool, same key
  due : Tab Nat := []         -- credits to return: port × 256 + pool × 128 + channel × 8 + class
  store : List McEntry := []
  nextId : Nat := 0
  tc4 : Tab Nat := []         -- TC4 buckets, in 1/200 flit (R339)
  arb : Tab Arb := []
  cong : CongInt := {}
  arrived : List Packet := [] -- delivered to the local ports, not yet taken by their sink
  deriving DecidableEq, Repr

/-! ### Fabric transfers (R198, R199) -/

/-- A destination of a SEND or MCAST: 0 waits for its grant, 1 granted, 2 accepted, 3 length mismatch, 4 fenced. -/
structure TxDest where
  chip : Nat
  state : Nat := 0
  resend : List Nat := []     -- chunks an UNREACH named
  deriving DecidableEq, Repr

/-- An outstanding SEND or MCAST; its source descriptor has the index offset folded in. -/
structure Tx where
  cluster : Nat
  tenant : Nat
  entry : QEntry
  mcast : Bool := false
  mask : BitVec 96 := 0
  dests : List TxDest
  src : BitVec 512
  total : Nat
  tag : Nat
  tc : Nat
  dclu : Nat
  creg : Nat := 0             -- address of the completion word; 0: none
  seq : Nat := 0
  since : Nat := 0
  next : Nat := 0             -- next chunk sent for the first time
  stop : Bool := false        -- stopped in REGION_ASYNC
  deriving DecidableEq, Repr

/-- An outstanding RECV. -/
structure Rx where
  cluster : Nat
  tenant : Nat
  entry : QEntry
  src : Nat
  sclu : Nat
  dst : BitVec 512
  total : Nat
  tag : Nat
  creg : Nat := 0
  seq : Nat := 0
  got : List (Nat × Nat) := []   -- (chunk, offset) of the packets counted
  landed : Nat := 0              -- bytes counted
  stop : Bool := false
  deriving DecidableEq, Repr

/-- A landing grant held for a SEND that has not issued. -/
structure Grant where
  chip : Nat                  -- the receiver
  clu : Nat
  sclu : Nat                  -- the sending cluster here
  tag : Nat
  len : Nat
  deriving DecidableEq, Repr

/-! ### Torus links (R281 to R315) -/

/-- A link-management message (R303, R304, R306). -/
inductive LinkMsg where
  | spareReq (lane : Nat)
  | spareSwitch (lane : Nat) (codeword : BitVec 64)
  | spareAck
  | downNotice
  deriving DecidableEq, Repr

/-- A message not yet acknowledged: its number, and the LMF slots that have carried it (R304). -/
structure LinkNote where
  num : BitVec 16
  msg : LinkMsg
  sent : Nat := 0
  deriving DecidableEq, Repr

/-- A spare switch of one direction (R303): the failing lane, the spare, the codeword s once it is known; `done` once the spare is in
use and the transmitter waits for SPARE_ACK. -/
structure Switch where
  lane : Nat
  spare : Nat
  codeword : Option (BitVec 64) := none
  done : Bool := false
  deriving DecidableEq, Repr

/-- A training record sent (R295): its TYPE, this chip's own figures, the stamp. -/
structure TrainRec where
  type : Nat
  caps : CapsRec
  stamp : BitVec 64 := 0
  deriving DecidableEq, Repr

/-- SEQ, ACK and ACKV of a flit other than DATA (R284). -/
structure FlitHead where
  seq : BitVec 16
  ack : BitVec 16
  ackv : Bool
  deriving DecidableEq, Repr

/-- A flit as it leaves a port (R284): an LMF with its messages and the message numbers it acknowledges (R304), a TRAIN flit with its
record or, in ALIGN, with the number of the one lane that carries it (R291). -/
inductive LinkFlit where
  | data (f : Flit)
  | null (h : FlitHead)
  | lmf (h : FlitHead) (notes : List LinkNote) (acks : List (BitVec 16))
  | nak (h : FlitHead)
  | train (h : FlitHead) (r : TrainRec)
  | lane (h : FlitHead) (lane : Nat)
  deriving DecidableEq, Repr

/-- What a torus port holds beside its registers and the router's queues. -/
structure Link where
  module : Bool := false              -- a module is present
  aligned : Bool := false             -- progress of NEGOTIATE or of a RETRAIN
  capsSent : Bool := false
  capsOk : Bool := false
  acked : Bool := false
  measured : Bool := false
  ping : Option (BitVec 64) := none   -- the stamp of the PING that waits for its PONG
  next : BitVec 16 := 0               -- SEQ of the next DATA flit
  buf : List (Flit × Bool) := []      -- the replay buffer, oldest first; true: the flit ends its packet
  replay : Option Nat := none         -- the next buffered flit to send again
  last : BitVec 16 := 0xFFFF          -- SEQ of the last DATA flit accepted
  heard : Bool := false               -- ACKV
  episode : Bool := false             -- an error episode is open: its NAK has been sent
  esc : Nat := 0                      -- replays of the oldest flit in a row (R290)
  parts : Tab (Packet × Nat) := []    -- packets held in part, by class × 16 + channel, with the body bytes they await in all
  notes : List LinkNote := []
  nextNote : BitVec 16 := 0
  acks : List (BitVec 16) := []       -- message numbers to acknowledge in the next LMF
  txSwitch : Option Switch := none
  rxSwitch : Option Switch := none
  failed : List Nat := []             -- receive lanes that failed while the spare switch ran (R307)
  retrains : List Nat := []           -- CAD_TSC of the RETRAINs started within the last second (R294)
  laneEn : Nat := 0                   -- the lane enable controls of the module's page 10h as last written (R298)
  txPos : List Nat := []              -- the active lanes in the order of their positions, each way (R286, R303)
  rxPos : List Nat := []
  group : List LinkFlit := []         -- the flits sent that wait for a group of five (R286)
  txSym : Nat := 0                    -- stream symbols sent and received since alignment ended
  rxSym : Nat := 0
  wire : List (Nat × List Nat) := []  -- the symbols that the last group gave each transmit lane
  winWords : Nat := 0                 -- codewords of the open window, and the symbols corrected in it by lane (R302)
  winCorr : Tab Nat := []
  slot : Nat := 0                     -- flit slots, for the duty of R424
  deriving DecidableEq, Repr

/-! ### Collectives (R349 to R375) -/

/-- A plan of R352 with the shard counts of R354 and the tensor's padded length. -/
structure Plan where
  id : Nat := 0
  ops : Nat := 0
  axes : Nat := 0
  issuer : Nat := 0
  streams : Nat := 0
  slots : Nat := 0
  replayMax : Nat := 0
  fallback : Bool := false
  root : Nat := 0
  chunkTab : Nat := 0
  total : Nat := 0
  scaleTab : Nat := 0
  land : Nat := 0
  hold : Nat := 0
  fbTab : Nat := 0
  counts : List Nat := []
  deriving DecidableEq, Repr

/-- What one chunk of the schedule carries: 0 pre-pass values, 1 gathered pre-pass values, 2 partial sums, 3 gathered results,
4 a closing entry, 5 broadcast data, 6 partial maxima. -/
structure CItem where
  kind : Nat
  stage : Nat
  shard : Nat
  chunk : Nat
  dests : List Nat
  first : Bool := false       -- the sender's own contribution (R360, t = 0)
  final : Bool := false       -- its receiver owns the shard set at this stage
  deriving DecidableEq, Repr

/-- A chunk held for a re-send: its stream and sequence number, whom it went to. -/
structure CHold where
  stream : Nat
  seq : Nat
  len : Nat
  trailer : Bool
  ovf : Nat := 0
  dests : List Nat
  again : List Nat := []      -- destinations it is to be sent to again
  deriving DecidableEq, Repr

/-- Partial values of a chunk as codes, the exchanges they have been through, the overflow bits of the chunk's blocks; for a
gathered kind, that the chunk has arrived. -/
structure CPart where
  kind : Nat
  shard : Nat
  chunk : Nat
  codes : List Nat
  level : Nat := 0
  ovf : Nat := 0
  deriving DecidableEq, Repr

/-- Where the service network carries a stream's traffic to a receiver (R373, R374): the queue pair, the remote key, the landing DPA. -/
structure FbPath where
  stream : Nat
  chip : Nat
  qp : Nat
  rkey : Nat
  land : Nat
  deriving DecidableEq, Repr

/-- A collective context in use. -/
structure Coll where
  entry : QEntry
  op : Nat
  plan : Plan
  n : Nat                     -- n of R200
  src : BitVec 512
  dst : BitVec 512
  stats : BitVec 512
  staten : Bool
  creg : Nat                  -- address of the completion word; 0: none
  since : Nat := 0            -- CAD_TSC at COLL_START
  atIssue : List Nat          -- the codes of a valid scale table as it stood at issue; empty: STATE 0
  uses : Nat
  attempt : Nat := 0
  highest : Nat := 0          -- the highest ATTEMPT seen
  wait : Nat := 0             -- FENCED that the bitmap must show before the attempt starts (R371)
  running : Bool := false     -- the attempt has started
  pass : Nat := 1
  members : List Nat := []    -- M, the chips of the attempt in member order
  codes : List Nat := []      -- e_b of this pass
  parts : List CPart := []
  ready : Bool := false       -- the reduction of this pass is complete here, its results written
  sent : Tab Nat := []        -- stream → sequence numbers used
  limit : Tab Nat := []       -- stream × 32768 + chip → LIMIT heard
  hold : List CHold := []
  got : List (Nat × Nat × Nat × Nat) := []   -- packets landed of chunks not yet counted: stream, chip, seq, offset
  counted : List (Nat × Nat × Nat) := []     -- chunks counted and not yet consumed: stream, chip, seq
  eaten : Tab Nat := []       -- stream × 32768 + chip → chunks consumed
  blobs : Tab (List Byte) := []   -- closing entries by member index
  localSq : Frac := ⟨0, 1⟩
  ovfN : Nat := 0
  prepass : Bool := false
  unread : Bool := false          -- the scale table is not read yet: its read met a detected error (R375)
  gathered : Bool := false        -- the gather phase of this pass is over here: the closing gather runs (R370)
  told : Tab Nat := []            -- stream × 32768 + chip → LIMIT told
  fb : List FbPath := []          -- streams this member sends over the service network, by receiver
  fbIn : List (Nat × Nat × Nat) := []   -- streams that come over it: stream, sender, queue pair
  stalled : List Nat := []
  det : List Nat := []
  resend : List (Nat × Nat × Nat) := []   -- landings that failed their region check: stream, chip, seq
  stop : Bool := false            -- stopped in REGION_ASYNC
  doneSent : Bool := false
  dones : List (Nat × Nat) := []  -- DONE heard: chip, FENCED
  deriving DecidableEq, Repr

/-! ### The loaded image of a tenant (R156 to R163) -/

/-- What START and the engines read of a tenant's loaded image: header fields, and its sections as bytes, by cluster. -/
structure ImageRec where
  jobId : BitVec 64 := 0
  cadMaster : Nat := 0
  cadSrc : Nat := 0
  beatCluster : Nat := 0
  yieldBound : Nat := 0
  scalarInit : Tab (List Byte) := []
  descs : Tab (List Byte) := []
  tokens : Tab (List Byte) := []
  plans : List Byte := []
  chunkTabs : List Byte := []
  chipProgram : List Byte := []   -- empty: every chip runs the one program
  deriving DecidableEq, Repr

/-! ### Boot, trust and the keeper cores (R538 to R558) -/

/-- A running or staged firmware component: VERSION and SVN of its header, the SM3 digest of header and payload (R547, R553). -/
structure Component where
  version : Nat := 0
  svn : Nat := 0
  digest : List Byte := []
  deriving DecidableEq, Repr

/-- A firmware update from STAGE to its handover (R558): the channel that waits for the answer while it is programmed, the slot, the
three components. -/
structure Staged where
  slot : Nat
  comps : List Component
  chan : Nat := 0
  ready : Bool := false         -- programmed, read back, and running on the standby core
  deriving DecidableEq, Repr

/-- What the security block and the keeper hold beside their registers. `rootDigest` stands in the ROM; `devKey` in the security block;
`repairLog` with its signature in the package identity memory; `gen` and `active` in the flash directory (R546 to R552). -/
structure Trust where
  powered : Bool := true
  warmHeld : Bool := false            -- WARM_RST_N is held low
  cold : Bool := true                 -- the boot that runs or ran began with a cold reset
  rootDigest : BitVec 256 := 0
  devKey : Nat := 0
  devPub : Nat × Nat := (0, 0)
  signer : Nat × Nat := (0, 0)        -- SIGNER of the keeper component that booted
  keeper : Component := {}
  ucode : Component := {}
  linkFw : Component := {}
  gen : Nat := 0
  active : Nat := 0
  repairLog : List (Nat × Nat) := []  -- (UNIT_ID, state), oldest first
  repairSig : Nat × Nat := (0, 0)
  staged : Option Staged := none
  handover : Option Nat := none       -- a HANDOVER waits for its beat; the channel that waits for the answer
  core : Nat := 0                     -- the active keeper core
  standby : Bool := true              -- the other core answers
  held : List (Nat × Held) := []      -- accesses that wait at a crossing, with the domain they wait for, oldest first (R544)
  deriving DecidableEq, Repr

/-- The I3C target (R514): its dynamic address, and the offset last written. -/
structure I3c where
  dyn : Option Nat := none
  offset : Nat := 0
  deriving DecidableEq, Repr

/-! ### Host commands and queue pairs (R505 to R523) -/

/-- A command of a ring in flight (R507 to R511): its result once it is done, the bytes a copy has moved with their fingerprint. `mute`:
its completion is not written (R504). -/
structure HostCmd where
  ring : Nat
  cid : Nat
  opcode : Nat
  flags : Nat
  args : List (BitVec 64)
  started : Bool := false
  copying : Bool := false               -- holds a copy engine
  done : Nat := 0
  fp : BitVec 64 := 0
  result : Option (Nat × Nat) := none   -- STATUS, DETAIL
  order : Nat := 0                      -- place among the ended commands of its ring; 0: not ended (R509)
  mute : Bool := false
  deriving DecidableEq, Repr

/-- An operation posted on a queue pair (R523), with the packet numbers it takes; one that the device itself posts names ring 64, of which
no command waits (R373). -/
structure QpPost where
  ring : Nat
  cid : Nat
  op : Nat
  dpa : Nat
  bytes : Nat
  rkey : Nat
  remote : Nat
  psn : Nat
  packets : Nat
  moved : Nat := 0
  deriving DecidableEq, Repr

/-- A queue pair (R519 to R522). -/
structure Qp where
  port : Nat
  tenant : Nat
  pmtu : Nat
  remote : Nat
  psn : Nat                   -- of the next packet sent
  rpsn : Nat                  -- expected from the peer
  gid : Nat
  timeout : Nat
  retry : Nat
  rnr : Nat
  dscp : Nat
  pcp : Nat
  rqDpa : Nat
  rqEntries : Nat
  rqSize : Nat
  received : Nat := 0         -- receive buffers filled so far
  posts : List QpPost := []
  tries : Nat := 0            -- retries since the last progress
  rnrTries : Nat := 0
  error : Bool := false
  rate : Nat := 800000        -- Mb/s
  adds : Nat := 0             -- additions in a row
  cutAt : Option Nat := none  -- CAD_TSC of the last cut
  cnpAt : Option Nat := none  -- CAD_TSC of the last CNP returned
  deriving DecidableEq, Repr

/-- A scoped reset: SCOPE and INDEX (R540). -/
structure ResetReq where
  scope : Nat
  index : Nat
  deriving DecidableEq, Repr

/-! ### Power and temperature (R420 to R437) -/

/-- What the estimator, the governor and pooling hold beside their registers. -/
structure Power where
  gain : List Frac := List.replicate 5 ⟨1, 1⟩      -- g[r]
  offset : List Frac := List.replicate 5 ⟨0, 1⟩    -- o[r], W
  dsum : List Frac := List.replicate 5 ⟨0, 1⟩      -- d[r] summed over the periods since the last telemetry read
  periods : Nat := 0
  samples : List (List (Frac × Frac)) := List.replicate 5 []   -- per rail: d̄ and measured power of the samples of this interval
  demand : Nat := 0                                -- total demand of the last period, W
  nextProfile : Option Nat := none                 -- profile that becomes active at the next period boundary
  brdAlert : Bool := false                         -- BRD_ALERT_N is asserted
  alerted : Bool := false                          -- the alert cap applied in the last period
  railAlert : List Nat := []                       -- rails whose regulator reports an alert
  inForce : List Nat := []                         -- reasons in force: reason × 4 + domain
  tripped : List Nat := []                         -- droop detectors tripped
  droopSince : Nat := 0
  voltage : Nat := 26                              -- level whose voltage VDD_CORE has reached
  stretchEnded : Nat := 0                          -- CAD_TSC as the last stretch ended
  asked : Nat := 26                                -- level whose voltage was written last
  pooling : Bool := false                          -- pooling has started
  seq : Nat := 0                                   -- BUDGET messages sent
  heard : List (Nat × Nat × Nat × Nat) := []       -- member chip, its grant, its demand, CAD_TSC
  fails : Tab Nat := []                            -- invalid readings in a row, per sensor
  cool : Nat := 0                                  -- 100 µs steps since the thermal cap could last rise
  energy : List Frac := List.replicate 5 ⟨0, 1⟩    -- µJ of tenants 0 to 3 and unattributed
  tripOut : Bool := false                          -- THERMTRIP_N is asserted (R435)
  rampStarts : List Nat := []                      -- CAD_TSC of the ramps that started of late (R432)
  rampWaits : List Nat := []                       -- ranks whose ramp waits: cluster × 16 + rank
  rampSince : Nat := 0
  coreRem : Nat := 0                               -- thousandths of a core cycle run since the last whole one
  acts : Tab Nat := []                             -- activity of the running estimator period: tenant × 16 + source (R420, R437)
  who : Nat := 0                                   -- the tenant that the present access is for: whose activity it is (R437)
  deriving DecidableEq, Repr

/-! ### What leaves the block -/

/-- What the block sends outside; the list is the model's own record of it, oldest first. -/
inductive Msg where
  | keeper (code a b : Nat)                      -- a notice to the keeper (T0's events, R512)
  | hostWrite (port addr : Nat) (bytes : List Byte)   -- a write into the memory of the host on a port
  | msix (port vector : Nat)                     -- an MSI-X message (R513)
  | svcWrite (qp rkey addr : Nat) (bytes : List Byte)   -- an RDMA WRITE posted on a queue pair (R373)
  | ibi (code : Nat)                             -- an in-band interrupt to the board manager (R514)
  | link (port : Nat) (f : LinkFlit)             -- a flit on a torus port (R284)
  | hostFlush (port : Nat)                       -- a zero-length read that a mover issues after its posted writes (R256)
  | hostRead (port : Nat) (bytes : Option (List Byte))   -- a host read completes; none: Completer Abort (R502)
  | svcSend (qp : Nat) (bytes : List Byte)       -- a SEND posted on a queue pair
  | svcRead (qp rkey addr n : Nat)               -- an RDMA READ posted on a queue pair
  | svcReadData (qp : Nat) (bytes : List Byte)   -- the response to a served RDMA READ
  | svcAck (qp : Nat)                            -- an acknowledgement
  | svcNak (qp kind : Nat)                       -- a NAK: 0 RNR, 1 invalid request, 2 remote access, 3 remote operational, 4 sequence
  | svcCnp (qp : Nat)                            -- a congestion notification (R522)
  | svcAgain (qp psn : Nat)                      -- go-back-N: everything from this packet number is sent again
  | tap (bits : Nat)                             -- what the test access port shifts out
  deriving DecidableEq, Repr

/-- Faults: none of the spec's own faults stops the block, and no meaning of the model raises one; the type keeps one name for
an access the address map cannot place, which safe arithmetic never forms (safe). -/
inductive Fault where
  | badAddress
  deriving DecidableEq, Repr

/-- Refusals: only a command without a meaning is refused (safe). -/
inductive Refusal where
  | notModelled (mnemonic : String)
  deriving DecidableEq, Repr

structure State where
  pending : List Instr := []
  regs : Tab (BitVec 64) := []
  mem : Tab Byte := []
  codeErr : Tab (BitVec 32) := []    -- by DPA / 64: the stored detection code of a burst xor the right one (R216)
  badStage : List Nat := []          -- 4-byte stage words whose parity fails, by DPA / 4
  commits : List Commit := []
  clu : Tab Cluster := []
  rank : Tab Rank := []              -- key: cluster × 16 + physical rank
  movers : Tab MovRec := []
  movReqs : List MovReq := []
  lastTenant : Nat := 3              -- R255
  turnLeft : Nat := 0
  lastCluster : Tab Nat := []        -- per tenant
  images : Tab ImageRec := []        -- per tenant; none: no image loaded
  txs : List Tx := []
  rxs : List Rx := []
  grants : List Grant := []
  txSeq : Tab Nat := []              -- transfers so far on each key of R199, at each end
  rxSeq : Tab Nat := []
  colls : Tab Coll := []             -- per collective context
  collN : Tab Nat := []              -- COLLs issued, per plan (R200)
  early : List (Packet × Bool) := []   -- collective packets and (true) chunk notices held for a pass or an attempt not yet reached (R371)
  seals : List SealJob := []
  push : Option Push := none
  fill : Option Fill := none
  commitPc : Option Nat := none      -- the pseudo-channel whose commit pass runs (R222)
  stk : Tab StkPart := []            -- key: slot × 64 + cluster
  saved : Tab SavedCtx := []         -- key: tenant × 64 + cluster
  heldSig : Tab Nat := []            -- key: (tenant × 64 + cluster) × 256 + token
  rings : Tab Ring := []
  block : TraceBlock := {}
  drainNext : Nat := 0
  units : Tab UnitRec := []
  hbmTests : List TestReq := []      -- targeted tests of pseudo-channels (R453)
  act : List Nat := []               -- estimator counts of the last 2 µs period (R420, R470)
  slice : Option Slice := none
  tr : Trust := {}
  straps : Nat := 0                  -- MGMT_ADDR as sampled (R574); PCIE_SPLIT stands in HIF_CFG
  i3c : I3c := {}
  hostLink : Tab Nat := []           -- host port → 1 training, 2 up
  hostCmds : List HostCmd := []      -- in the order of their fetch
  sqTail : Tab Nat := []             -- per ring: the newest SQ_TAIL and CQ_HEAD
  cqHead : Tab Nat := []
  cqCount : Tab Nat := []            -- per ring: completions written, and those the host has not released
  cqUsed : Tab Nat := []
  qps : Tab Qp := []                 -- by n of QPN 0x10000 + n
  kprQp : Nat := 0                   -- the queue pair that answers channel 3 (R515)
  tap : TapInstr := .bypass
  tapDrive : Option Nat := none      -- what EXTEST drives on the lands
  telemetryOff : Bool := false       -- no common telemetry page version (R529)
  reset_ : Option ResetReq := none   -- the scoped reset that runs (R542)
  resetQ : List ResetReq := []       -- requests that wait
  pw : Power := {}
  fwBeat : Bool := false              -- a beat has been accepted since a firmware handover became ready (R560)
  peerRec : Tab (List Byte) := []    -- newest unit-state record of each peer and twin
  peerEpoch : Tab Nat := []          -- highest EPOCH heard from each chip
  lastChange : Nat × Nat × Nat × Nat := (0, 0, 0, 0)   -- unit, state, outcome, cause of the newest record (R463)
  rt : Router := {}
  links : Tab Link := []             -- per torus port
  boardRead : Bool := false          -- the keeper has read the board identity memory (R292)
  evqUsed : Tab Nat := []            -- event-queue entries the host has not taken back (R512)
  evqLost : Tab Nat := []            -- events lost since the queue filled (R512)
  out : List Msg := []
  freeIx : Nat := 0                  -- the model's own: how many free values have been taken
  deriving DecidableEq, Repr

/-- The block right after reset: every register at its reset value, memory with nothing listed, nothing pending. The twelve torus ports
are DOWN and keeper core 1 is on standby, so their unit states are OFFLINE (R309, R461). -/
def State.reset : State :=
  { units := (List.range 12).map (fun p => (8 * 2 ^ 28 + p, UnitRec.mk 5 false 0 0 none false 0 0))
      ++ [(10 * 2 ^ 28 + 1, UnitRec.mk 5 false 0 0 none false 0 0)] }

end Sys2Proof.Machine
end

