-- ==== Sys2Proof/Machine/Fec.lean ====
section
/-!
DEFINITION. Flits as bytes and as codewords (spec/09_ploveus_links.md R284 to R286, R295; spec/10_routing.md R317, R318, R321): the
packet header, the headers of every KIND of flit, training records, and the Reed-Solomon code with its lanes.
-/
namespace Sys2Proof

/-! ### Layout (R284, R317, R318, R321) -/

/-- The 48-byte header of a packet whose body has `len` bytes (R318). -/
def Packet.header (p : Packet) (len : Nat) : List Byte :=
  leBytes 8 ((if p.mc then 0 else p.dst % 2 ^ 15) + p.src % 2 ^ 15 * 2 ^ 15 + p.tc % 8 * 2 ^ 30 + p.type % 16 * 2 ^ 33
      + p.dclu % 64 * 2 ^ 37 + p.sclu % 64 * 2 ^ 43 + p.plane % 4 * 2 ^ 49 + p.mc.toNat * 2 ^ 51 + p.hops % 4096 * 2 ^ 52)
    ++ leBytes 8 (p.tag % 2 ^ 16 + p.chunk % 2 ^ 32 * 2 ^ 16)
    ++ leBytes 8 (p.offset % 2 ^ 16 + len % 2 ^ 13 * 2 ^ 16)
    ++ leBytes 12 p.mask.toNat ++ leBytes 12 0

/-- The packet that a 48-byte header describes, and the LEN it gives. -/
def Packet.ofHeader (bs : List Byte) : Packet × Nat :=
  let num (a n : Nat) : Nat := leNat ((bs.drop a).take n)
  let f (lo w : Nat) : Nat := num 0 8 / 2 ^ lo % 2 ^ w
  ({ dst := f 0 15, src := f 15 15, tc := f 30 3, type := f 33 4, dclu := f 37 6, sclu := f 43 6, plane := f 49 2
     mc := f 51 1 == 1, hops := f 52 12, tag := num 8 2, chunk := num 0xA 4, offset := num 0x10 2
     mask := BitVec.ofNat 96 (num 0x18 12) }, num 0x12 2 % 2 ^ 13)

/-- The payload bytes of a DATA flit that are in use. -/
def Flit.payload (f : Flit) : List Byte :=
  match f.hdr with
  | some (p, len) => p.header len ++ f.bytes
  | none => f.bytes

/-- VCX of R321. -/
def Flit.vcx (f : Flit) : Nat := f.tc % 8 + f.ch % 16 * 8 + f.hdr.isSome.toNat * 128

/-- A flit's header word (R284). -/
def flitWord (seq ack : BitVec 16) (ackv : Bool) (kind vcx len : Nat) : Nat :=
  seq.toNat + ack.toNat * 2 ^ 16 + ackv.toNat * 2 ^ 32 + kind % 8 * 2 ^ 33 + vcx % 256 * 2 ^ 36 + len % 256 * 2 ^ 44

def Flit.word (f : Flit) : Nat := flitWord f.seq f.ack f.ackv f.kind.toNat f.vcx f.payload.length

/-- Bytes 0 to 251 of a flit: its header word, its payload, zeros. -/
def flitBytes (word : Nat) (payload : List Byte) : List Byte :=
  leBytes 8 word ++ payload.take 244 ++ List.replicate (244 - payload.length) 0

def Flit.wire (f : Flit) : List Byte := flitBytes f.word f.payload

/-- The CRC of R285 over them. -/
def Flit.crc (f : Flit) : BitVec 32 := crc32c f.wire

/-- Body bytes that flit `i` of a packet carries (R317). -/
def Packet.slice (p : Packet) (i : Nat) : List Byte :=
  if i = 0 then p.body.take 196 else (p.body.drop (196 + 244 * (i - 1))).take 244

/-- Flit `i` of a packet on a channel. -/
def Packet.flit (p : Packet) (ch i : Nat) (seq ack : BitVec 16) (ackv : Bool) : Flit :=
  { seq := seq, ack := ack, ackv := ackv, tc := p.tc, ch := ch
    hdr := if i = 0 then some ({ p with body := [] }, p.body.length) else none
    bytes := p.slice i }

namespace Machine

/-! ### The other kinds of flit (R284, R291, R295, R304) -/

/-- A training record as its bytes (R295). -/
def TrainRec.bytes (r : TrainRec) : List Byte :=
  let c := r.caps
  leBytes 1 r.type ++ leBytes 1 c.vmin.1 ++ leBytes 1 c.vmin.2 ++ leBytes 1 c.vmax.1 ++ leBytes 1 c.vmax.2 ++ leBytes 1 c.role
    ++ leBytes 2 c.chip ++ leBytes 1 c.dims.1 ++ leBytes 1 c.dims.2.1 ++ leBytes 1 c.dims.2.2 ++ leBytes 2 c.txl.toNat
    ++ leBytes 3 0 ++ leBytes 8 r.stamp.toNat

/-- A link-management message as numbers: its message number, which it is, its lane, its codeword. -/
def LinkNote.code (n : LinkNote) : List Nat :=
  n.num.toNat :: (match n.msg with
    | .spareReq lane => [1, lane, 0]
    | .spareSwitch lane cw => [2, lane, cw.toNat]
    | .spareAck => [3, 0, 0]
    | .downNotice => [4, 0, 0])

/-- The payload of an LMF: the spec gives it no layout, so it is a free value of the messages (log entry 122). -/
def lmfBytes (notes : List LinkNote) (acks : List (BitVec 16)) : List Byte :=
  (Config.lmfPayload (notes.length :: (notes.flatMap LinkNote.code ++ acks.map BitVec.toNat))).take 244

def FlitHead.word (h : FlitHead) (kind len : Nat) : Nat := flitWord h.seq h.ack h.ackv kind 0 len

/-- Bytes 0 to 251 of any flit. The payload of a TRAIN flit in ALIGN is its lane number, one byte (DESIGN CHOICE, log entry 122). -/
def LinkFlit.wire : LinkFlit → List Byte
  | .data f => f.wire
  | .null h => flitBytes (h.word 1 0) []
  | .lmf h notes acks => flitBytes (h.word 2 (lmfBytes notes acks).length) (lmfBytes notes acks)
  | .nak h => flitBytes (h.word 3 0) []
  | .train h r => flitBytes (h.word 4 24) r.bytes
  | .lane h l => flitBytes (h.word 4 1) (leBytes 1 l)

/-- The 256 bytes of a flit (R284, R285). -/
def LinkFlit.bytes (f : LinkFlit) : List Byte := f.wire ++ leBytes 4 (crc32c f.wire).toNat

end Machine

/-! ### The code of R286 -/

/-- The product in GF(2^10) with field polynomial x^10 + x^3 + 1. -/
def gfMul (a b : Nat) : Nat :=
  ((List.range 10).foldl (fun (x : Nat × Nat) i =>
    (if b.testBit i then x.1 ^^^ x.2 else x.1, if (x.2 * 2).testBit 10 then (x.2 * 2) ^^^ 0x409 else x.2 * 2)) (0, a)).1

/-- Powers of the root α of the field polynomial. -/
def gfPow : Nat → Nat
  | 0 => 1
  | n + 1 => gfMul 2 (gfPow n)

/-- The generator, the coefficient of the highest power first: the product of (x − α^i), i = 0 to 15. -/
def rsGen : List Nat :=
  (List.range 16).foldl (fun (g : List Nat) i => List.zipWith (· ^^^ ·) (g ++ [0]) (0 :: g.map (gfMul (gfPow i)))) [1]

/-- The 16 parity symbols of a message: the remainder of message × x^16 by the generator, the first symbol sent being the coefficient
of the highest power. -/
def rsParity (msg : List Nat) : List Nat :=
  msg.foldl (fun (r : List Nat) m =>
    List.zipWith (· ^^^ ·) (r.drop 1 ++ [0]) ((rsGen.drop 1).map (gfMul (m ^^^ r.headD 0)))) (List.replicate 16 0)

/-- The four codewords of a group of five flits, 272 symbols each. -/
def fecGroup (bytes : List Byte) : List (List Nat) :=
  let n := leNat bytes
  (List.range 4).map (fun w =>
    let msg := (List.range 256).map (fun j => n / 2 ^ (10 * (256 * w + j)) % 1024)
    msg ++ rsParity msg)

/-- The symbols of a stream that go to each lane, in order: stream symbol i to position i mod n. `start`: the number of the first. -/
def toLanes (pos : List Nat) (start : Nat) (symbols : List Nat) : List (Nat × List Nat) :=
  (List.range pos.length).map (fun x =>
    (pos.getD x 0, ((List.range symbols.length).filter (fun i => (start + i) % pos.length == x)).map (fun i => symbols.getD i 0)))

/-- The lane that carried symbol `j` of a codeword whose first symbol was stream symbol `start`. -/
def laneOfSymbol (pos : List Nat) (start j : Nat) : Nat := pos.getD ((start + j) % pos.length) 0

/-- A codeword is corrected with up to 8 symbols in error. -/
def correctable (errs : List (Fin 272)) : Bool := Nat.ble errs.eraseDups.length 8

end Sys2Proof
end

