-- ==== Sys2Proof/Machine/RegMap.lean ====
section
/-!
DEFINITION. The register map of spec/18_register_map.md (R562 to R569) with every field table of the owning chapters:
one offset function per register (`Reg.<NAME>`, its indexes as arguments), one `Field` per field (`Fld.<NAME>_<FIELD>`),
the access code of each field, and the value an unlisted register reads as (its reset value).
-/
namespace Sys2Proof

/-- The access codes of R6; `w1g` is a W1S bit that its table says reads 0: a write of 1 starts something and leaves nothing. -/
inductive Access where
  | ro | rov | rw | rwl | w1c | w1s | w1g | wo
  deriving DecidableEq, Repr

/-- A family of registers: base offset, the stride and count of each index, its width in bits, its fields. -/
structure RegDesc where
  base : Nat
  dims : List (Nat × Nat)
  width : Nat
  fields : List (Field × Access)
  deriving DecidableEq, Repr


namespace Reg

/-- R559. -/
abbrev GLB_ID : Nat := 0x0
/-- R559. -/
abbrev GLB_BOOT_STATUS : Nat := 0x8
/-- R559. -/
abbrev GLB_RESET_CMD : Nat := 0x10
/-- R559. -/
abbrev GLB_RESET_STATUS : Nat := 0x18
/-- R559. -/
abbrev GLB_DEBUG_CTL : Nat := 0x20
/-- R559. -/
abbrev GLB_PWRDN : Nat := 0x28
/-- R559. -/
abbrev GLB_START_CTX : Nat := 0x30
/-- R559. -/
abbrev GLB_STATUS : Nat := 0x38
/-- R559. -/
abbrev GLB_HUNG_INFO : Nat := 0x40
/-- R560. -/
abbrev GLB_RESET_CNT : Nat := 0x80
/-- R560. -/
abbrev GLB_RESET_REJ_CNT : Nat := 0x88
/-- R560. -/
abbrev GLB_HUNG_CNT : Nat := 0x90
/-- R560. -/
abbrev GLB_HANDOVER_CNT : Nat := 0x98
/-- R560. -/
abbrev GLB_KPR_FAILOVER_CNT : Nat := 0xa0
/-- R467. -/
abbrev GLB_RAS_CTL : Nat := 0x8000
/-- R468. -/
abbrev GLB_RAS_STATUS : Nat := 0x8008
/-- R469. -/
abbrev GLB_UNIT_EPOCH : Nat := 0x8010
/-- R469. -/
abbrev GLB_UNIT_QUERY : Nat := 0x8018
/-- R469. -/
abbrev GLB_ERR_REPORT : Nat := 0x8020
/-- R469. -/
abbrev GLB_FENCE_ISSUE : Nat := 0x8028
/-- R469. -/
abbrev GLB_UNIT_CTL : Nat := 0x8030
/-- R469. -/
abbrev GLB_ERR_LOG_BASE : Nat := 0x8038
/-- R469. -/
abbrev GLB_ERR_LOG_CTL : Nat := 0x8040
/-- R469. -/
abbrev GLB_ERR_LOG_IDX : Nat := 0x8048
/-- R471. -/
abbrev GLB_SLICE_MASK (i : Nat) : Nat := 0x8100 + 0x10 * i
/-- R471. -/
abbrev GLB_SLICE_CTL (i : Nat) : Nat := 0x8108 + 0x10 * i
/-- R472. -/
abbrev GLB_CLASS_CNT (i : Nat) : Nat := 0x8208 + 0x8 * i
/-- R472. -/
abbrev GLB_DETECT_CNT : Nat := 0x8250
/-- R472. -/
abbrev GLB_TRANSIENT_CNT : Nat := 0x8258
/-- R472. -/
abbrev GLB_PERMANENT_CNT : Nat := 0x8260
/-- R472. -/
abbrev GLB_CONDITIONAL_CNT : Nat := 0x8268
/-- R472. -/
abbrev GLB_CONFIRM_CNT : Nat := 0x8270
/-- R472. -/
abbrev GLB_UNTESTED_CNT : Nat := 0x8278
/-- R472. -/
abbrev GLB_AUDIT_CNT : Nat := 0x8280
/-- R472. -/
abbrev GLB_AUDIT_SKIP_CNT : Nat := 0x8288
/-- R472. -/
abbrev GLB_AUDIT_MISMATCH_CNT : Nat := 0x8290
/-- R472. -/
abbrev GLB_SLICE_CNT : Nat := 0x8298
/-- R472. -/
abbrev GLB_SLICE_SKIP_CNT : Nat := 0x82a0
/-- R472. -/
abbrev GLB_RECORD_TX_CNT : Nat := 0x82a8
/-- R472. -/
abbrev GLB_STALE_CNT : Nat := 0x82b0
/-- R531. -/
abbrev HIF_CFG : Nat := 0x10000
/-- R531. -/
abbrev HIF_STATUS : Nat := 0x10008
/-- R531. -/
abbrev HIF_VERSION : Nat := 0x10010
/-- R534. -/
abbrev HIF_DB_REJ_CNT : Nat := 0x10040
/-- R534. -/
abbrev HIF_BAR2_REJ_CNT : Nat := 0x10048
/-- R534. -/
abbrev HIF_EVQ_LOST_CNT : Nat := 0x10050
/-- R534. -/
abbrev HIF_CTO_CNT : Nat := 0x10058
/-- R534. -/
abbrev HIF_LINKDOWN_CNT : Nat := 0x10060
/-- R534. -/
abbrev HIF_CMD_CNT : Nat := 0x10068
/-- R531. -/
abbrev HIF_BAR_TEN (i : Nat) : Nat := 0x10100 + 0x40 * i
/-- R531. -/
abbrev HIF_HWIN_OFF (i : Nat) : Nat := 0x10108 + 0x40 * i
/-- R531. -/
abbrev HIF_BAR2_DPA (i : Nat) : Nat := 0x10110 + 0x40 * i
/-- R531. -/
abbrev HIF_CTO (i : Nat) : Nat := 0x10118 + 0x40 * i
/-- R531. -/
abbrev HIF_RING_OWN (i : Nat) : Nat := 0x11000 + 0x40 * i
/-- R531. -/
abbrev HIF_RING_SQ (i : Nat) : Nat := 0x11008 + 0x40 * i
/-- R531. -/
abbrev HIF_RING_CQ (i : Nat) : Nat := 0x11010 + 0x40 * i
/-- R531. -/
abbrev HIF_RING_CTL (i : Nat) : Nat := 0x11018 + 0x40 * i
/-- R531. -/
abbrev HIF_RING_STAT (i : Nat) : Nat := 0x11020 + 0x40 * i
/-- R531. -/
abbrev HIF_EVQ_BASE (i : Nat) : Nat := 0x12020 + 0x20 * i
/-- R531. -/
abbrev HIF_EVQ_CTL (i : Nat) : Nat := 0x12028 + 0x20 * i
/-- R531. -/
abbrev HIF_EVQ_IDX (i : Nat) : Nat := 0x12030 + 0x20 * i
/-- R532. -/
abbrev KPR_CTL : Nat := 0x20000
/-- R532. -/
abbrev KPR_STATUS : Nat := 0x20008
/-- R534. -/
abbrev KPR_GO_IGN_CNT : Nat := 0x20040
/-- R534. -/
abbrev KPR_DENIED_CNT : Nat := 0x20048
/-- R534. -/
abbrev KPR_REQ_CNT : Nat := 0x20050
/-- R532. -/
abbrev KPR_CH (i : Nat) : Nat := 0x20100 + 0x10 * i
/-- R532. -/
abbrev KPR_REQ (i j : Nat) : Nat := 0x21000 + 0x800 * i + 0x8 * j
/-- R532. -/
abbrev KPR_RSP (i j : Nat) : Nat := 0x21400 + 0x800 * i + 0x8 * j
/-- R532. -/
abbrev IDM_STATUS : Nat := 0x28000
/-- R532. -/
abbrev IDM_BOARD0 : Nat := 0x28008
/-- R532. -/
abbrev IDM_BOARD1 : Nat := 0x28010
/-- R532. -/
abbrev IDM_CABLE_LO : Nat := 0x28018
/-- R532. -/
abbrev IDM_CABLE_HI : Nat := 0x28020
/-- R532. -/
abbrev IDM_PKG_SERIAL : Nat := 0x28028
/-- R532. -/
abbrev IDM_HBM_ID (i : Nat) : Nat := 0x28100 + 0x8 * i
/-- R561. -/
abbrev SEC_CTL : Nat := 0x30000
/-- R561. -/
abbrev SEC_POLICY : Nat := 0x30008
/-- R561. -/
abbrev SEC_STATUS : Nat := 0x30010
/-- R561. -/
abbrev SEC_SVN : Nat := 0x30018
/-- R561. -/
abbrev SEC_SIG_FAIL_CNT : Nat := 0x30040
/-- R561. -/
abbrev SEC_MEAS (i j : Nat) : Nat := 0x30100 + 0x20 * i + 0x8 * j
/-- R561. -/
abbrev SEC_EXTEND_DIG (i : Nat) : Nat := 0x30300 + 0x8 * i
/-- R561. -/
abbrev SEC_EXTEND_CMD : Nat := 0x30320
/-- R561. -/
abbrev SEC_LOG_IDX : Nat := 0x30328
/-- R561. -/
abbrev SEC_OWNER_KEY (i j : Nat) : Nat := 0x30800 + 0x80 * i + 0x8 * j
/-- R561. -/
abbrev SEC_OWNER_CTL (i : Nat) : Nat := 0x30840 + 0x80 * i
/-- R561. -/
abbrev SEC_OWNER_ID (i j : Nat) : Nat := 0x30848 + 0x80 * i + 0x8 * j
/-- R561. -/
abbrev SEC_LOG (i j : Nat) : Nat := 0x32000 + 0x40 * i + 0x8 * j
/-- R28. -/
abbrev CAD_CTL : Nat := 0x40000
/-- R29. -/
abbrev CAD_POS : Nat := 0x40008
/-- R30. -/
abbrev CAD_STATUS : Nat := 0x40010
/-- R31. -/
abbrev CAD_BEAT_CNT : Nat := 0x40018
/-- R31. -/
abbrev CAD_STALE_CNT : Nat := 0x40020
/-- R31. -/
abbrev CAD_PIN_ERR_CNT : Nat := 0x40028
/-- R31. -/
abbrev CAD_LATE_CNT : Nat := 0x40030
/-- R31. -/
abbrev CAD_ARM_ERR_CNT : Nat := 0x40038
/-- R31. -/
abbrev CAD_MASTER : Nat := 0x40040
/-- R31. -/
abbrev CAD_TSC : Nat := 0x40048
/-- R32. -/
abbrev CAD_GARM_POS (i : Nat) : Nat := 0x41000 + 0x10 * i
/-- R32. -/
abbrev CAD_GARM_CTL (i : Nat) : Nat := 0x41008 + 0x10 * i
/-- R438. -/
abbrev PWR_CTL : Nat := 0x50000
/-- R439. -/
abbrev PWR_STATUS : Nat := 0x50008
/-- R440. -/
abbrev PWR_CAP : Nat := 0x50010
/-- R440. -/
abbrev PWR_ACTIVE : Nat := 0x50018
/-- R440. -/
abbrev PWR_EST : Nat := 0x50020
/-- R440. -/
abbrev PWR_FREQ : Nat := 0x50028
/-- R440. -/
abbrev PWR_DROOP_CTL : Nat := 0x50030
/-- R440. -/
abbrev PWR_RAMP_CTL : Nat := 0x50038
/-- R440. -/
abbrev PWR_ILIM : Nat := 0x50040
/-- R440. -/
abbrev PWR_PHASE_MAP : Nat := 0x50048
/-- R440. -/
abbrev PWR_POOL : Nat := 0x50050
/-- R440. -/
abbrev PWR_POOL_MBR (i : Nat) : Nat := 0x50058 + 0x8 * i
/-- R441. -/
abbrev PWR_PROFILE (i : Nat) : Nat := 0x50100 + 0x8 * i
/-- R442. -/
abbrev PWR_WEIGHT (i : Nat) : Nat := 0x50200 + 0x8 * i
/-- R442. -/
abbrev PWR_VF (i : Nat) : Nat := 0x50280 + 0x8 * i
/-- R442. -/
abbrev PWR_RAIL (i : Nat) : Nat := 0x50380 + 0x8 * i
/-- R443. -/
abbrev PWR_THR_CNT (i : Nat) : Nat := 0x50400 + 0x8 * i
/-- R443. -/
abbrev PWR_CAL_CLAMP_CNT : Nat := 0x50430
/-- R443. -/
abbrev PWR_TELEM_LOSS_CNT : Nat := 0x50438
/-- R443. -/
abbrev PWR_POOL_LOSS_CNT : Nat := 0x50440
/-- R443. -/
abbrev PWR_POOL_ERR_CNT : Nat := 0x50448
/-- R443. -/
abbrev PWR_THR_NS (i j : Nat) : Nat := 0x50500 + 0x20 * i + 0x8 * j
/-- R443. -/
abbrev PWR_ENERGY (i : Nat) : Nat := 0x50600 + 0x8 * i
/-- R443. -/
abbrev PWR_ENERGY_UNATTR : Nat := 0x50620
/-- R444. -/
abbrev THM_LIMITS : Nat := 0x50800
/-- R444. -/
abbrev THM_STATUS : Nat := 0x50808
/-- R444. -/
abbrev THM_CAP : Nat := 0x50810
/-- R444. -/
abbrev THM_HOT : Nat := 0x50818
/-- R444. -/
abbrev THM_SENSOR_FAIL_CNT : Nat := 0x50840
/-- R444. -/
abbrev THM_TEMP (i : Nat) : Nat := 0x50900 + 0x8 * i
/-- R494. -/
abbrev TRC_CTL : Nat := 0x60000
/-- R495. -/
abbrev TRC_STATUS : Nat := 0x60008
/-- R496. -/
abbrev TRC_BASE : Nat := 0x60010
/-- R496. -/
abbrev TRC_SIZE : Nat := 0x60018
/-- R496. -/
abbrev TRC_BIDX : Nat := 0x60020
/-- R496. -/
abbrev TRC_HBM_SHARE : Nat := 0x60028
/-- R496. -/
abbrev TRC_DEST : Nat := 0x60030
/-- R496. -/
abbrev TRC_WDOG : Nat := 0x60038
/-- R496. -/
abbrev TRC_TRIG : Nat := 0x60040
/-- R496. -/
abbrev TRC_FREEZE_BASE : Nat := 0x60048
/-- R496. -/
abbrev TRC_WINDOW (i : Nat) : Nat := 0x60050 + 0x8 * i
/-- R497. -/
abbrev TRC_RING_CTL (i : Nat) : Nat := 0x60100 + 0x10 * i
/-- R497. -/
abbrev TRC_RING_STAT (i : Nat) : Nat := 0x60108 + 0x10 * i
/-- R498. -/
abbrev TRC_TRIG_CNT : Nat := 0x60600
/-- R498. -/
abbrev TRC_LOST_CNT : Nat := 0x60608
/-- R498. -/
abbrev TRC_WDOG_CNT : Nat := 0x60610
/-- R498. -/
abbrev TRC_BLK_LOST_CNT : Nat := 0x60618
/-- R498. -/
abbrev TRC_COLL_DROP_CNT : Nat := 0x60620
/-- R498. -/
abbrev TRC_BLK_CNT : Nat := 0x60628
/-- R498. -/
abbrev TRC_REC_CNT : Nat := 0x60630
/-- R498. -/
abbrev CNT_SNAP_CNT : Nat := 0x60638
/-- R498. -/
abbrev CNT_SNAP_LOST_CNT : Nat := 0x60640
/-- R499. -/
abbrev CNT_GLB_SEL (i : Nat) : Nat := 0x61000 + 0x10 * i
/-- R499. -/
abbrev CNT_GLB (i : Nat) : Nat := 0x61008 + 0x10 * i
/-- R496. -/
abbrev CNT_SNAP_BASE : Nat := 0x61400
/-- R496. -/
abbrev CNT_SNAP_CTL : Nat := 0x61408
/-- R496. -/
abbrev CNT_SNAP_IDX : Nat := 0x61410
/-- R342. -/
abbrev FAB_CTL : Nat := 0x100000
/-- R343. -/
abbrev FAB_STATUS : Nat := 0x100008
/-- R344. -/
abbrev FAB_ARB : Nat := 0x100010
/-- R344. -/
abbrev FAB_TC4_CTL : Nat := 0x100018
/-- R344. -/
abbrev FAB_FENCE_CMD : Nat := 0x100020
/-- R344. -/
abbrev FAB_FENCE_COUNT : Nat := 0x100028
/-- R347. -/
abbrev FAB_FDROP_CNT : Nat := 0x100040
/-- R347. -/
abbrev FAB_UNROUTE_CNT : Nat := 0x100048
/-- R347. -/
abbrev FAB_DETOUR_CNT : Nat := 0x100050
/-- R347. -/
abbrev FAB_BADPKT_CNT : Nat := 0x100058
/-- R347. -/
abbrev FAB_CPAGE_LOST_CNT : Nat := 0x100060
/-- R347. -/
abbrev FAB_DET_ERR_CNT : Nat := 0x100068
/-- R347. -/
abbrev FAB_ESCAPE_CNT : Nat := 0x100070
/-- R347. -/
abbrev FAB_MC_COPY_CNT : Nat := 0x100078
/-- R347. -/
abbrev FAB_REROUTE_CNT : Nat := 0x100080
/-- R347. -/
abbrev FAB_CPAGE_CNT : Nat := 0x100088
/-- R345. -/
abbrev FAB_DETOUR (i : Nat) : Nat := 0x100100 + 0x8 * i
/-- R346. -/
abbrev FAB_CPAGE_BASE : Nat := 0x100200
/-- R346. -/
abbrev FAB_CPAGE_CTL : Nat := 0x100208
/-- R346. -/
abbrev FAB_CPAGE_IDX : Nat := 0x100210
/-- R348. -/
abbrev FAB_FENCE (i : Nat) : Nat := 0x101000 + 0x8 * i
/-- R310. -/
abbrev PRT_CTL (i : Nat) : Nat := 0x110000 + 0x10000 * i
/-- R311. -/
abbrev PRT_STATUS (i : Nat) : Nat := 0x110008 + 0x10000 * i
/-- R312. -/
abbrev PRT_PEER (i : Nat) : Nat := 0x110010 + 0x10000 * i
/-- R312. -/
abbrev PRT_RTT (i : Nat) : Nat := 0x110018 + 0x10000 * i
/-- R312. -/
abbrev PRT_LANES (i : Nat) : Nat := 0x110020 + 0x10000 * i
/-- R312. -/
abbrev PRT_MODULE (i : Nat) : Nat := 0x110028 + 0x10000 * i
/-- R312. -/
abbrev PRT_LANE_CTL (i : Nat) : Nat := 0x110030 + 0x10000 * i
/-- R313. -/
abbrev PRT_FLIT_TX_CNT (i : Nat) : Nat := 0x110040 + 0x10000 * i
/-- R313. -/
abbrev PRT_FLIT_RX_CNT (i : Nat) : Nat := 0x110048 + 0x10000 * i
/-- R313. -/
abbrev PRT_CRC_ERR_CNT (i : Nat) : Nat := 0x110050 + 0x10000 * i
/-- R313. -/
abbrev PRT_FEC_CORR_CNT (i : Nat) : Nat := 0x110058 + 0x10000 * i
/-- R313. -/
abbrev PRT_FEC_UNCORR_CNT (i : Nat) : Nat := 0x110060 + 0x10000 * i
/-- R313. -/
abbrev PRT_NAK_TX_CNT (i : Nat) : Nat := 0x110068 + 0x10000 * i
/-- R313. -/
abbrev PRT_REPLAY_CNT (i : Nat) : Nat := 0x110070 + 0x10000 * i
/-- R313. -/
abbrev PRT_REPLAY_TO_CNT (i : Nat) : Nat := 0x110078 + 0x10000 * i
/-- R313. -/
abbrev PRT_DUP_CNT (i : Nat) : Nat := 0x110080 + 0x10000 * i
/-- R313. -/
abbrev PRT_SPARE_CNT (i : Nat) : Nat := 0x110088 + 0x10000 * i
/-- R313. -/
abbrev PRT_RETRAIN_CNT (i : Nat) : Nat := 0x110090 + 0x10000 * i
/-- R313. -/
abbrev PRT_DOWN_CNT (i : Nat) : Nat := 0x110098 + 0x10000 * i
/-- R313. -/
abbrev PRT_HOLD_CNT (i : Nat) : Nat := 0x1100a0 + 0x10000 * i
/-- R313. -/
abbrev PRT_RETURN_CNT (i : Nat) : Nat := 0x1100a8 + 0x10000 * i
/-- R314. -/
abbrev PRT_LANE_CORR_CNT (i j : Nat) : Nat := 0x110100 + 0x10000 * i + 0x8 * j
/-- R315. -/
abbrev PRT_AXIS_MAP : Nat := 0x110800
/-- R315. -/
abbrev PRT_MAP_ERR_CNT : Nat := 0x110808
/-- R499. -/
abbrev CNT_PRT_SEL (i j : Nat) : Nat := 0x110900 + 0x10000 * i + 0x10 * j
/-- R499. -/
abbrev CNT_PRT (i j : Nat) : Nat := 0x110908 + 0x10000 * i + 0x10 * j
/-- R376. -/
abbrev COL_CTL : Nat := 0x1e0000
/-- R377. -/
abbrev COL_STATUS : Nat := 0x1e0008
/-- R378. -/
abbrev COL_DONE_CNT : Nat := 0x1e0040
/-- R378. -/
abbrev COL_OVF_CNT : Nat := 0x1e0048
/-- R378. -/
abbrev COL_REPLAY_CNT : Nat := 0x1e0050
/-- R378. -/
abbrev COL_INF_CNT : Nat := 0x1e0058
/-- R378. -/
abbrev COL_DUP_CNT : Nat := 0x1e0060
/-- R378. -/
abbrev COL_FB_CHUNK_CNT : Nat := 0x1e0068
/-- R378. -/
abbrev COL_RESTART_CNT : Nat := 0x1e0070
/-- R378. -/
abbrev COL_STALL_CNT : Nat := 0x1e0078
/-- R378. -/
abbrev COL_DET_CNT : Nat := 0x1e0080
/-- R378. -/
abbrev COL_MFENCED_CNT : Nat := 0x1e0088
/-- R378. -/
abbrev COL_PREPASS_CNT : Nat := 0x1e0090
/-- R378. -/
abbrev COL_CHUNK_TX_CNT : Nat := 0x1e0098
/-- R378. -/
abbrev COL_CHUNK_RX_CNT : Nat := 0x1e00a0
/-- R379. -/
abbrev COL_CTX_STAT (i : Nat) : Nat := 0x1e1000 + 0x10 * i
/-- R380. -/
abbrev COL_REDRIVE (i : Nat) : Nat := 0x1e1008 + 0x10 * i
/-- R240. -/
abbrev MEM_CTL (i : Nat) : Nat := 0x200000 + 0x20000 * i
/-- R241. -/
abbrev MEM_STATUS (i : Nat) : Nat := 0x200008 + 0x20000 * i
/-- R242. -/
abbrev MEM_PC_WITHHELD (i : Nat) : Nat := 0x200010 + 0x20000 * i
/-- R242. -/
abbrev MEM_PC_RETIRED (i : Nat) : Nat := 0x200018 + 0x20000 * i
/-- R242. -/
abbrev MEM_ERR_ADDR (i : Nat) : Nat := 0x200020 + 0x20000 * i
/-- R243. -/
abbrev MEM_DET_CNT (i : Nat) : Nat := 0x200040 + 0x20000 * i
/-- R243. -/
abbrev MEM_WHELD_CNT (i : Nat) : Nat := 0x200048 + 0x20000 * i
/-- R243. -/
abbrev MEM_RMW_CNT (i : Nat) : Nat := 0x200050 + 0x20000 * i
/-- R244. -/
abbrev MEM_REMAP_CTL : Nat := 0x210000
/-- R245. -/
abbrev MEM_REMAP_STATUS : Nat := 0x210008
/-- R246. -/
abbrev MEM_TOP : Nat := 0x210010
/-- R247. -/
abbrev MEM_RSV : Nat := 0x210018
/-- R248. -/
abbrev MEM_RGN_STATUS : Nat := 0x210020
/-- R249. -/
abbrev MEM_LOST_CNT : Nat := 0x210040
/-- R249. -/
abbrev MEM_REMAP_REJ_CNT : Nat := 0x210048
/-- R249. -/
abbrev MEM_RGN_ERR_CNT : Nat := 0x210050
/-- R249. -/
abbrev MEM_LAND_ERR_CNT : Nat := 0x210058
/-- R250. -/
abbrev MEM_BANK_A : Nat := 0x210100
/-- R250. -/
abbrev MEM_BANK_B : Nat := 0x210108
/-- R250. -/
abbrev MEM_BANK_LEN : Nat := 0x210110
/-- R250. -/
abbrev MEM_MIRROR : Nat := 0x210118
/-- R250. -/
abbrev MEM_MIRROR_LEN : Nat := 0x210120
/-- R251. -/
abbrev MEM_RGN_W0 (i j : Nat) : Nat := 0x211000 + 0x1000 * i + 0x10 * j
/-- R251. -/
abbrev MEM_RGN_W1 (i j : Nat) : Nat := 0x211008 + 0x1000 * i + 0x10 * j
/-- R252. -/
abbrev STK_BASE (i : Nat) : Nat := 0x218000 + 0x40 * i
/-- R252. -/
abbrev STK_PART (i : Nat) : Nat := 0x218008 + 0x40 * i
/-- R252. -/
abbrev STK_HWM (i : Nat) : Nat := 0x218010 + 0x40 * i
/-- R280. -/
abbrev STK_KEY_LO (i : Nat) : Nat := 0x218018 + 0x40 * i
/-- R280. -/
abbrev STK_KEY_HI (i : Nat) : Nat := 0x218020 + 0x40 * i
/-- R280. -/
abbrev STK_NDI (i : Nat) : Nat := 0x218028 + 0x40 * i
/-- R280. -/
abbrev STK_DPOS (i : Nat) : Nat := 0x218030 + 0x40 * i
/-- R280. -/
abbrev STK_SLOT (i : Nat) : Nat := 0x218038 + 0x40 * i
/-- R253. -/
abbrev STK_TOP (i j : Nat) : Nat := 0x219000 + 0x200 * i + 0x8 * j
/-- R273. -/
abbrev MOV_CTL : Nat := 0x230000
/-- R274. -/
abbrev MOV_STATUS : Nat := 0x230008
/-- R275. -/
abbrev MOV_XFER_CNT : Nat := 0x230040
/-- R275. -/
abbrev MOV_CHUNK_CNT : Nat := 0x230048
/-- R275. -/
abbrev MOV_RSTOP_CNT : Nat := 0x230050
/-- R275. -/
abbrev MOV_DET_CNT : Nat := 0x230058
/-- R275. -/
abbrev MOV_PREF_CNT : Nat := 0x230060
/-- R275. -/
abbrev MOV_PATH_REJ_CNT : Nat := 0x230068
/-- R275. -/
abbrev MOV_TEN_IGN_CNT : Nat := 0x230070
/-- R275. -/
abbrev MOV_SLOT_IGN_CNT : Nat := 0x230078
/-- R275. -/
abbrev MOV_SAVE_CNT : Nat := 0x230080
/-- R275. -/
abbrev MOV_SAVE_RETRY_CNT : Nat := 0x230088
/-- R275. -/
abbrev MOV_SAVE_FAIL_CNT : Nat := 0x230090
/-- R275. -/
abbrev MOV_RESTORE_CNT : Nat := 0x230098
/-- R275. -/
abbrev MOV_RESTORE_FAIL_CNT : Nat := 0x2300a0
/-- R275. -/
abbrev MOV_PREEMPT_IGN_CNT : Nat := 0x2300a8
/-- R275. -/
abbrev MOV_HELD_SIG_CNT : Nat := 0x2300b0
/-- R276. -/
abbrev MOV_STATE (i : Nat) : Nat := 0x231000 + 0x20 * i
/-- R276. -/
abbrev MOV_DONE (i : Nat) : Nat := 0x231008 + 0x20 * i
/-- R276. -/
abbrev MOV_FP (i : Nat) : Nat := 0x231010 + 0x20 * i
/-- R276. -/
abbrev MOV_REDRIVE (i : Nat) : Nat := 0x231018 + 0x20 * i
/-- R277. -/
abbrev MOV_TEN_CTL (i : Nat) : Nat := 0x232000 + 0x40 * i
/-- R277. -/
abbrev MOV_CTX_BASE (i : Nat) : Nat := 0x232008 + 0x40 * i
/-- R277. -/
abbrev MOV_CTX_SLOT (i : Nat) : Nat := 0x232010 + 0x40 * i
/-- R278. -/
abbrev MOV_PREEMPT_CMD : Nat := 0x233000
/-- R278. -/
abbrev MOV_PREEMPT_MASK : Nat := 0x233008
/-- R279. -/
abbrev MOV_CTX_STATUS (i j : Nat) : Nat := 0x233100 + 0x200 * i + 0x8 * j
/-- R408. -/
abbrev MEM_BANK_CTL : Nat := 0x250000
/-- R409. -/
abbrev MEM_BANK_STATE (i : Nat) : Nat := 0x250008 + 0x8 * i
/-- R410. -/
abbrev MEM_TWIN_CTL : Nat := 0x250018
/-- R411. -/
abbrev MEM_TWIN_STATUS : Nat := 0x250020
/-- R411. -/
abbrev MEM_TWIN_DONE : Nat := 0x250028
/-- R411. -/
abbrev MEM_MIRROR_STATE : Nat := 0x250030
/-- R412. -/
abbrev MEM_BARRIER_CTL : Nat := 0x250038
/-- R412. -/
abbrev MEM_BARRIER_STATUS : Nat := 0x250040
/-- R413. -/
abbrev MEM_TS_STATUS : Nat := 0x250048
/-- R414. -/
abbrev MEM_SEAL_CNT : Nat := 0x250080
/-- R414. -/
abbrev MEM_SEAL_ERR_CNT : Nat := 0x250088
/-- R414. -/
abbrev MEM_PUSH_CNT : Nat := 0x250090
/-- R414. -/
abbrev MEM_PUSH_FAIL_CNT : Nat := 0x250098
/-- R414. -/
abbrev MEM_PUSH_SKIP_CNT : Nat := 0x2500a0
/-- R414. -/
abbrev MEM_MIRROR_RX_CNT : Nat := 0x2500a8
/-- R414. -/
abbrev MEM_REALIGN_CNT : Nat := 0x2500b0
/-- R414. -/
abbrev MEM_RST_REJ_CNT : Nat := 0x2500b8
/-- R414. -/
abbrev MEM_BARRIER_CNT : Nat := 0x2500c0
/-- R414. -/
abbrev MEM_DRAIN_CNT : Nat := 0x2500c8
/-- R414. -/
abbrev MEM_DRAIN_FAIL_CNT : Nat := 0x2500d0
/-- R414. -/
abbrev MEM_ABANDON_CNT : Nat := 0x2500d8
/-- R415. -/
abbrev MEM_SLOT_NDIPOS (i : Nat) : Nat := 0x250100 + 0x8 * i
/-- R416. -/
abbrev MEM_RST_LIST : Nat := 0x250200
/-- R416. -/
abbrev MEM_RST_CTL : Nat := 0x250208
/-- R416. -/
abbrev MEM_RST_STATUS : Nat := 0x250210
/-- R417. -/
abbrev MEM_DRAIN_CTL (i : Nat) : Nat := 0x250400 + 0x40 * i
/-- R417. -/
abbrev MEM_DRAIN_LOCAL (i : Nat) : Nat := 0x250408 + 0x40 * i
/-- R417. -/
abbrev MEM_DRAIN_LEN (i : Nat) : Nat := 0x250410 + 0x40 * i
/-- R417. -/
abbrev MEM_DRAIN_REMOTE (i : Nat) : Nat := 0x250418 + 0x40 * i
/-- R417. -/
abbrev MEM_DRAIN_STATUS (i : Nat) : Nat := 0x250420 + 0x40 * i
/-- R417. -/
abbrev MEM_DRAIN_DONE (i : Nat) : Nat := 0x250428 + 0x40 * i
/-- R417. -/
abbrev MEM_DRAIN_DIG_LO (i : Nat) : Nat := 0x250430 + 0x40 * i
/-- R417. -/
abbrev MEM_DRAIN_DIG_HI (i : Nat) : Nat := 0x250438 + 0x40 * i
/-- R417. -/
abbrev MEM_DRAIN_DIG_X0 (i : Nat) : Nat := 0x250600 + 0x10 * i
/-- R417. -/
abbrev MEM_DRAIN_DIG_X1 (i : Nat) : Nat := 0x250608 + 0x10 * i
/-- R90. -/
abbrev CLU_CTL (i : Nat) : Nat := 0x400000 + 0x40000 * i
/-- R91. -/
abbrev CLU_RANK_MAP (i : Nat) : Nat := 0x400008 + 0x40000 * i
/-- R92. -/
abbrev CLU_STATUS (i : Nat) : Nat := 0x400010 + 0x40000 * i
/-- R93. -/
abbrev CLU_BPL_CNT (i : Nat) : Nat := 0x400018 + 0x40000 * i
/-- R93. -/
abbrev CLU_MAP_ERR_CNT (i : Nat) : Nat := 0x400020 + 0x40000 * i
/-- R93. -/
abbrev CLU_XPOSE_WAIT_CNT (i : Nat) : Nat := 0x400028 + 0x40000 * i
/-- R94. -/
abbrev RNK_CTL (i j : Nat) : Nat := 0x401000 + 0x40000 * i + 0x800 * j
/-- R95. -/
abbrev RNK_SKEW_MAP (i j : Nat) : Nat := 0x401008 + 0x40000 * i + 0x800 * j
/-- R97. -/
abbrev RNK_STATUS (i j : Nat) : Nat := 0x401010 + 0x40000 * i + 0x800 * j
/-- R98. -/
abbrev RNK_TILE_CNT (i j : Nat) : Nat := 0x401040 + 0x40000 * i + 0x800 * j
/-- R98. -/
abbrev RNK_WMISS_CNT (i j : Nat) : Nat := 0x401048 + 0x40000 * i + 0x800 * j
/-- R98. -/
abbrev RNK_WREPLAY_CNT (i j : Nat) : Nat := 0x401050 + 0x40000 * i + 0x800 * j
/-- R98. -/
abbrev RNK_SSTEP_CNT (i j : Nat) : Nat := 0x401058 + 0x40000 * i + 0x800 * j
/-- R98. -/
abbrev RNK_SEXH_CNT (i j : Nat) : Nat := 0x401060 + 0x40000 * i + 0x800 * j
/-- R98. -/
abbrev RNK_BUBBLE_CNT (i j : Nat) : Nat := 0x401068 + 0x40000 * i + 0x800 * j
/-- R98. -/
abbrev RNK_SLIP_CNT (i j : Nat) : Nat := 0x401070 + 0x40000 * i + 0x800 * j
/-- R98. -/
abbrev RNK_CHAIN_STALL_CNT (i j : Nat) : Nat := 0x401078 + 0x40000 * i + 0x800 * j
/-- R98. -/
abbrev RNK_DRAIN_STALL_CNT (i j : Nat) : Nat := 0x401080 + 0x40000 * i + 0x800 * j
/-- R98. -/
abbrev RNK_LIMB_WAIT_CNT (i j : Nat) : Nat := 0x401088 + 0x40000 * i + 0x800 * j
/-- R98. -/
abbrev RNK_RAMP_CNT (i j : Nat) : Nat := 0x401090 + 0x40000 * i + 0x800 * j
/-- R98. -/
abbrev RNK_SKEW_ERR_CNT (i j : Nat) : Nat := 0x401098 + 0x40000 * i + 0x800 * j
/-- R96. -/
abbrev RNK_LMAP (i j k : Nat) : Nat := 0x401100 + 0x40000 * i + 0x800 * j + 0x8 * k
/-- R128. -/
abbrev VEC_CTL (i : Nat) : Nat := 0x408000 + 0x40000 * i
/-- R129. -/
abbrev VEC_STATUS (i : Nat) : Nat := 0x408010 + 0x40000 * i
/-- R130. -/
abbrev VEC_NONFINITE_CNT (i : Nat) : Nat := 0x408018 + 0x40000 * i
/-- R130. -/
abbrev VEC_SSTEP_CNT (i : Nat) : Nat := 0x408020 + 0x40000 * i
/-- R130. -/
abbrev VEC_SEXH_CNT (i : Nat) : Nat := 0x408028 + 0x40000 * i
/-- R130. -/
abbrev VEC_EMPTYROW_CNT (i : Nat) : Nat := 0x408030 + 0x40000 * i
/-- R130. -/
abbrev VEC_BPL_CNT (i : Nat) : Nat := 0x408038 + 0x40000 * i
/-- R130. -/
abbrev VEC_OP_CNT (i : Nat) : Nat := 0x408040 + 0x40000 * i
/-- R130. -/
abbrev VEC_GRANULE_REEXEC_CNT (i : Nat) : Nat := 0x408048 + 0x40000 * i
/-- R130. -/
abbrev VEC_PORT_WAIT_CNT (i : Nat) : Nat := 0x408050 + 0x40000 * i
/-- R499. -/
abbrev CNT_CLU_SEL (i j : Nat) : Nat := 0x409000 + 0x40000 * i + 0x10 * j
/-- R499. -/
abbrev CNT_CLU (i j : Nat) : Nat := 0x409008 + 0x40000 * i + 0x10 * j
/-- R164. -/
abbrev SEQ_CTL (i : Nat) : Nat := 0x410000 + 0x40000 * i
/-- R165. -/
abbrev SEQ_STATUS (i : Nat) : Nat := 0x410008 + 0x40000 * i
/-- R166. -/
abbrev SEQ_PC (i : Nat) : Nat := 0x410010 + 0x40000 * i
/-- R167. -/
abbrev SEQ_FAULT_CNT (i : Nat) : Nat := 0x410018 + 0x40000 * i
/-- R167. -/
abbrev SEQ_INSN_CNT (i : Nat) : Nat := 0x410020 + 0x40000 * i
/-- R167. -/
abbrev SEQ_YIELD_CNT (i : Nat) : Nat := 0x410028 + 0x40000 * i
/-- R167. -/
abbrev SEQ_YIELD_LATE_CNT (i : Nat) : Nat := 0x410030 + 0x40000 * i
/-- R167. -/
abbrev SEQ_YIELD_GAP_MAX (i : Nat) : Nat := 0x410038 + 0x40000 * i
/-- R170. -/
abbrev SEQ_STREAM_BASE (i j k : Nat) : Nat := 0x410040 + 0x40000 * i + 0x20 * j + 0x10 * k
/-- R170. -/
abbrev SEQ_STREAM_LEN (i j k : Nat) : Nat := 0x410048 + 0x40000 * i + 0x20 * j + 0x10 * k
/-- R168. -/
abbrev SEQ_FAULT_REC (i j k : Nat) : Nat := 0x410100 + 0x40000 * i + 0x40 * j + 0x8 * k
/-- R169. -/
abbrev SEQ_TOKEN (i j : Nat) : Nat := 0x411000 + 0x40000 * i + 0x8 * j
/-- R33. -/
abbrev CLU_ARM_POS (i j : Nat) : Nat := 0x438000 + 0x40000 * i + 0x10 * j
/-- R33. -/
abbrev CLU_ARM_CTL (i j : Nat) : Nat := 0x438008 + 0x40000 * i + 0x10 * j
/-- R533. -/
abbrev SVC_CTL (i : Nat) : Nat := 0x1800000 + 0x100 * i
/-- R533. -/
abbrev SVC_MAC (i : Nat) : Nat := 0x1800008 + 0x100 * i
/-- R533. -/
abbrev SVC_IP6_LO (i : Nat) : Nat := 0x1800010 + 0x100 * i
/-- R533. -/
abbrev SVC_IP6_HI (i : Nat) : Nat := 0x1800018 + 0x100 * i
/-- R533. -/
abbrev SVC_IP4 (i : Nat) : Nat := 0x1800020 + 0x100 * i
/-- R533. -/
abbrev SVC_STATUS_P (i : Nat) : Nat := 0x1800028 + 0x100 * i
/-- R534. -/
abbrev SVC_PAUSE_DROP_CNT (i : Nat) : Nat := 0x1800040 + 0x100 * i
/-- R534. -/
abbrev SVC_QP_ERR_CNT (i : Nat) : Nat := 0x1800048 + 0x100 * i
/-- R533. -/
abbrev SVC_RC : Nat := 0x1800200
/-- R533. -/
abbrev SVC_VERSION : Nat := 0x1800208
/-- R533. -/
abbrev SVC_STATUS : Nat := 0x1800210
/-- R534. -/
abbrev SVC_KEY_REJ_CNT : Nat := 0x1800218
/-- R534. -/
abbrev SVC_CNP_RX_CNT : Nat := 0x1800220
/-- R533. -/
abbrev SVC_MKEY (i : Nat) : Nat := 0x1801000 + 0x10 * i
/-- R533. -/
abbrev SVC_MKEY_LEN (i : Nat) : Nat := 0x1801008 + 0x10 * i
/-- R533. -/
abbrev SVC_QP_STAT (i : Nat) : Nat := 0x1805000 + 0x8 * i

end Reg

namespace Fld

def GLB_ID_PART : Field := ⟨0, 16⟩
def GLB_ID_STEPPING : Field := ⟨16, 8⟩
def GLB_BOOT_STATUS_STAGE : Field := ⟨0, 3⟩
def GLB_BOOT_STATUS_FAIL : Field := ⟨3, 4⟩
def GLB_BOOT_STATUS_SLOT : Field := ⟨7, 1⟩
def GLB_BOOT_STATUS_HOST_READY : Field := ⟨8, 1⟩
def GLB_RESET_CMD_SCOPE : Field := ⟨0, 4⟩
def GLB_RESET_CMD_INDEX : Field := ⟨4, 12⟩
def GLB_RESET_STATUS_BUSY : Field := ⟨0, 1⟩
def GLB_RESET_STATUS_RESULT : Field := ⟨1, 3⟩
def GLB_RESET_STATUS_LAST_SCOPE : Field := ⟨4, 4⟩
def GLB_DEBUG_CTL_ACC_VIS : Field := ⟨0, 1⟩
def GLB_DEBUG_CTL_DBG_WIN : Field := ⟨1, 1⟩
def GLB_DEBUG_CTL_DEBUG_EVER : Field := ⟨2, 1⟩
def GLB_PWRDN_REQ : Field := ⟨0, 1⟩
def GLB_PWRDN_SAFE : Field := ⟨1, 1⟩
def GLB_START_CTX_RECOVERY : Field := ⟨0, 4⟩
def GLB_STATUS_HUNG : Field := ⟨0, 1⟩
def GLB_STATUS_RESET_REJ : Field := ⟨1, 1⟩
def GLB_HUNG_INFO_TO_DOMAIN : Field := ⟨0, 8⟩
def GLB_HUNG_INFO_FROM_DOMAIN : Field := ⟨8, 8⟩
def GLB_RAS_CTL_AUDIT_FRAC : Field := ⟨0, 16⟩
def GLB_RAS_CTL_COND_WINDOW : Field := ⟨16, 12⟩
def GLB_RAS_CTL_LOCK : Field := ⟨31, 1⟩
def GLB_RAS_STATUS_FLAGS : Field := ⟨0, 8⟩
def GLB_UNIT_EPOCH_EPOCH : Field := ⟨0, 32⟩
def GLB_UNIT_QUERY_UNIT_ID : Field := ⟨0, 32⟩
def GLB_UNIT_QUERY_STATE : Field := ⟨32, 3⟩
def GLB_UNIT_QUERY_COND : Field := ⟨35, 1⟩
def GLB_UNIT_QUERY_CONF : Field := ⟨36, 4⟩
def GLB_ERR_REPORT_UNIT_ID : Field := ⟨0, 32⟩
def GLB_FENCE_ISSUE_CHIP : Field := ⟨0, 15⟩
def GLB_FENCE_ISSUE_EPOCH : Field := ⟨32, 32⟩
def GLB_UNIT_CTL_OFFLINE : Field := ⟨0, 1⟩
def GLB_ERR_LOG_BASE_BASE : Field := ⟨0, 48⟩
def GLB_ERR_LOG_CTL_LOG2N : Field := ⟨0, 4⟩
def GLB_ERR_LOG_CTL_EN : Field := ⟨4, 1⟩
def GLB_ERR_LOG_IDX_IDX : Field := ⟨0, 32⟩
def GLB_SLICE_MASK_MASK : Field := ⟨0, 64⟩
def GLB_SLICE_CTL_MAXTIME : Field := ⟨0, 16⟩
def GLB_SLICE_CTL_ROTATE : Field := ⟨16, 1⟩
def HIF_CFG_SPLIT : Field := ⟨0, 1⟩
def HIF_CFG_HP0_WIDTH : Field := ⟨1, 5⟩
def HIF_CFG_HP1_WIDTH : Field := ⟨6, 5⟩
def HIF_STATUS_DB_REJ : Field := ⟨0, 1⟩
def HIF_STATUS_BAR2_REJ : Field := ⟨1, 1⟩
def HIF_STATUS_EVQ_LOST : Field := ⟨2, 1⟩
def HIF_STATUS_CTO : Field := ⟨3, 1⟩
def HIF_STATUS_LINKDOWN : Field := ⟨4, 1⟩
def HIF_VERSION_RANGE : Field := ⟨0, 32⟩
def HIF_BAR_TEN_TEN : Field := ⟨0, 2⟩
def HIF_BAR_TEN_VALID : Field := ⟨2, 1⟩
def HIF_BAR_TEN_BAR2_TEN : Field := ⟨4, 2⟩
def HIF_BAR_TEN_BAR2_VALID : Field := ⟨6, 1⟩
def HIF_HWIN_OFF_OFF : Field := ⟨12, 52⟩
def HIF_BAR2_DPA_DPA : Field := ⟨30, 18⟩
def HIF_CTO_CTO : Field := ⟨0, 16⟩
def HIF_RING_OWN_TEN : Field := ⟨0, 2⟩
def HIF_RING_OWN_PORT : Field := ⟨2, 1⟩
def HIF_RING_OWN_ASSIGNED : Field := ⟨3, 1⟩
def HIF_RING_SQ_BASE : Field := ⟨6, 58⟩
def HIF_RING_CQ_BASE : Field := ⟨6, 58⟩
def HIF_RING_CTL_N : Field := ⟨0, 4⟩
def HIF_RING_CTL_VECTOR : Field := ⟨8, 8⟩
def HIF_RING_CTL_VMAJOR : Field := ⟨16, 8⟩
def HIF_RING_CTL_VMINOR : Field := ⟨24, 8⟩
def HIF_RING_CTL_EN : Field := ⟨32, 1⟩
def HIF_RING_STAT_SQ_HEAD : Field := ⟨0, 16⟩
def HIF_RING_STAT_CQ_TAIL : Field := ⟨16, 16⟩
def HIF_RING_STAT_ERR : Field := ⟨32, 4⟩
def HIF_EVQ_BASE_BASE : Field := ⟨6, 58⟩
def HIF_EVQ_CTL_N : Field := ⟨0, 4⟩
def HIF_EVQ_CTL_VECTOR : Field := ⟨8, 8⟩
def HIF_EVQ_CTL_EN : Field := ⟨16, 1⟩
def HIF_EVQ_IDX_IDX : Field := ⟨0, 32⟩
def KPR_CTL_ADMIN : Field := ⟨0, 4⟩
def KPR_CTL_LOCK : Field := ⟨31, 1⟩
def KPR_STATUS_GO_IGN : Field := ⟨0, 1⟩
def KPR_STATUS_DENIED : Field := ⟨1, 1⟩
def KPR_CH_GO : Field := ⟨0, 1⟩
def KPR_CH_BUSY : Field := ⟨1, 1⟩
def KPR_CH_DONE : Field := ⟨2, 1⟩
def KPR_CH_VECTOR : Field := ⟨8, 8⟩
def KPR_REQ_BUF : Field := ⟨0, 64⟩
def KPR_RSP_BUF : Field := ⟨0, 64⟩
def IDM_STATUS_BID : Field := ⟨0, 5⟩
def IDM_STATUS_HBM_ERR : Field := ⟨5, 8⟩
def IDM_STATUS_PKG_FULL : Field := ⟨13, 1⟩
def IDM_STATUS_VALID : Field := ⟨14, 1⟩
def IDM_BOARD0_CHIP : Field := ⟨0, 15⟩
def IDM_BOARD0_TWIN : Field := ⟨15, 15⟩
def IDM_BOARD0_DX : Field := ⟨30, 6⟩
def IDM_BOARD0_DY : Field := ⟨36, 6⟩
def IDM_BOARD0_DZ : Field := ⟨42, 6⟩
def IDM_BOARD0_SLOT : Field := ⟨48, 3⟩
def IDM_BOARD1_BOARD_ID : Field := ⟨0, 16⟩
def IDM_BOARD1_LIMIT : Field := ⟨16, 16⟩
def IDM_CABLE_LO_LABELS : Field := ⟨0, 64⟩
def IDM_CABLE_HI_LABELS : Field := ⟨0, 32⟩
def IDM_PKG_SERIAL_SERIAL : Field := ⟨0, 64⟩
def IDM_HBM_ID_ID : Field := ⟨0, 64⟩
def SEC_CTL_DEBUG_PERMIT : Field := ⟨0, 1⟩
def SEC_CTL_LOCK : Field := ⟨31, 1⟩
def SEC_POLICY_REQUIRE_SIG : Field := ⟨0, 4⟩
def SEC_STATUS_PUF_FAIL : Field := ⟨0, 1⟩
def SEC_STATUS_REPAIR_SIG : Field := ⟨1, 1⟩
def SEC_STATUS_SIG_FAIL : Field := ⟨2, 1⟩
def SEC_SVN_KEEPER : Field := ⟨0, 16⟩
def SEC_SVN_UCODE : Field := ⟨16, 16⟩
def SEC_SVN_LINK : Field := ⟨32, 16⟩
def SEC_MEAS_DIG : Field := ⟨0, 64⟩
def SEC_EXTEND_DIG_DIG : Field := ⟨0, 64⟩
def SEC_EXTEND_CMD_INDEX : Field := ⟨0, 2⟩
def SEC_LOG_IDX_IDX : Field := ⟨0, 32⟩
def SEC_OWNER_KEY_KEY : Field := ⟨0, 64⟩
def SEC_OWNER_CTL_TENANTS : Field := ⟨0, 4⟩
def SEC_OWNER_CTL_VALID : Field := ⟨4, 1⟩
def SEC_OWNER_ID_KEY_ID : Field := ⟨0, 64⟩
def SEC_LOG_ENTRY : Field := ⟨0, 64⟩
def CAD_CTL_SRC : Field := ⟨0, 2⟩
def CAD_CTL_EN : Field := ⟨2, 1⟩
def CAD_CTL_LOCK : Field := ⟨31, 1⟩
def CAD_POS_POS : Field := ⟨0, 64⟩
def CAD_STATUS_STALE : Field := ⟨0, 1⟩
def CAD_STATUS_PIN_CRC : Field := ⟨1, 1⟩
def CAD_STATUS_ARM_LATE : Field := ⟨2, 1⟩
def CAD_STATUS_ARM_ERR : Field := ⟨3, 1⟩
def CAD_STATUS_MASTER_VALID : Field := ⟨4, 1⟩
def CAD_MASTER_CHIP : Field := ⟨0, 15⟩
def CAD_TSC_TSC : Field := ⟨0, 64⟩
def CAD_GARM_POS_POS : Field := ⟨0, 64⟩
def CAD_GARM_CTL_ACTION : Field := ⟨0, 4⟩
def CAD_GARM_CTL_FIRED : Field := ⟨4, 1⟩
def CAD_GARM_CTL_LATE : Field := ⟨5, 1⟩
def CAD_GARM_CTL_ARG : Field := ⟨16, 16⟩
def CAD_GARM_CTL_REPEAT : Field := ⟨32, 16⟩
def PWR_CTL_PROFILE : Field := ⟨0, 4⟩
def PWR_CTL_PHASE_MAP_EN : Field := ⟨4, 1⟩
def PWR_CTL_POOL_EN : Field := ⟨5, 1⟩
def PWR_CTL_ALERT_EN : Field := ⟨6, 1⟩
def PWR_CTL_LOCK : Field := ⟨31, 1⟩
def PWR_STATUS_THR : Field := ⟨0, 6⟩
def PWR_STATUS_CAL_CLAMP : Field := ⟨6, 1⟩
def PWR_STATUS_TELEM : Field := ⟨7, 1⟩
def PWR_STATUS_POOL_LOSS : Field := ⟨8, 1⟩
def PWR_STATUS_POOL_ERR : Field := ⟨9, 1⟩
def PWR_CAP_CAP : Field := ⟨0, 12⟩
def PWR_CAP_ALERT_CAP : Field := ⟨16, 12⟩
def PWR_ACTIVE_PROFILE : Field := ⟨0, 4⟩
def PWR_ACTIVE_FLEVEL : Field := ⟨4, 5⟩
def PWR_ACTIVE_CDUTY : Field := ⟨9, 5⟩
def PWR_ACTIVE_MDUTY : Field := ⟨14, 5⟩
def PWR_ACTIVE_LDUTY : Field := ⟨19, 5⟩
def PWR_ACTIVE_CAP_EFF : Field := ⟨24, 12⟩
def PWR_ACTIVE_GRANT : Field := ⟨36, 12⟩
def PWR_ACTIVE_REASONS : Field := ⟨48, 6⟩
def PWR_EST_TOTAL : Field := ⟨0, 16⟩
def PWR_EST_COMPUTE : Field := ⟨16, 16⟩
def PWR_EST_MEMORY : Field := ⟨32, 16⟩
def PWR_EST_LINK : Field := ⟨48, 16⟩
def PWR_FREQ_TARGET : Field := ⟨0, 5⟩
def PWR_FREQ_CURRENT : Field := ⟨5, 5⟩
def PWR_FREQ_PENDING : Field := ⟨10, 1⟩
def PWR_FREQ_STRETCH : Field := ⟨11, 1⟩
def PWR_DROOP_CTL_THRESH : Field := ⟨0, 7⟩
def PWR_DROOP_CTL_LOCK : Field := ⟨31, 1⟩
def PWR_RAMP_CTL_MAXRANKS : Field := ⟨0, 10⟩
def PWR_ILIM_ILIM : Field := ⟨0, 12⟩
def PWR_ILIM_LOCK : Field := ⟨31, 1⟩
def PWR_PHASE_MAP_PROF : Field := ⟨0, 64⟩
def PWR_POOL_LIMIT : Field := ⟨0, 16⟩
def PWR_POOL_N : Field := ⟨16, 4⟩
def PWR_POOL_MBR_CHIP0 : Field := ⟨0, 15⟩
def PWR_POOL_MBR_CHIP1 : Field := ⟨16, 15⟩
def PWR_POOL_MBR_CHIP2 : Field := ⟨32, 15⟩
def PWR_POOL_MBR_CHIP3 : Field := ⟨48, 15⟩
def PWR_PROFILE_CAP : Field := ⟨0, 12⟩
def PWR_PROFILE_ORDER : Field := ⟨12, 3⟩
def PWR_PROFILE_FLOOR_C : Field := ⟨16, 12⟩
def PWR_PROFILE_FLOOR_M : Field := ⟨28, 12⟩
def PWR_PROFILE_FLOOR_L : Field := ⟨40, 12⟩
def PWR_PROFILE_FMAX : Field := ⟨52, 5⟩
def PWR_WEIGHT_W : Field := ⟨0, 24⟩
def PWR_VF_MV : Field := ⟨0, 12⟩
def PWR_RAIL_GAIN : Field := ⟨0, 16⟩
def PWR_RAIL_OFFSET : Field := ⟨16, 16⟩
def PWR_RAIL_MEAS : Field := ⟨32, 16⟩
def PWR_RAIL_MV : Field := ⟨48, 16⟩
def THM_LIMITS_DIE_THROT : Field := ⟨0, 8⟩
def THM_LIMITS_DIE_TRIP : Field := ⟨8, 8⟩
def THM_LIMITS_HBM_THROT : Field := ⟨16, 8⟩
def THM_LIMITS_HBM_TRIP : Field := ⟨24, 8⟩
def THM_LIMITS_LOCK : Field := ⟨63, 1⟩
def THM_STATUS_SENSOR_FAIL : Field := ⟨0, 1⟩
def THM_CAP_CAP : Field := ⟨0, 12⟩
def THM_HOT_DIE_MAX : Field := ⟨0, 16⟩
def THM_HOT_HBM_MAX : Field := ⟨16, 16⟩
def THM_TEMP_TEMP : Field := ⟨0, 16⟩
def THM_TEMP_FAIL : Field := ⟨16, 1⟩
def TRC_CTL_MODE : Field := ⟨0, 2⟩
def TRC_CTL_SCOPE : Field := ⟨2, 1⟩
def TRC_CTL_COLLECT : Field := ⟨3, 1⟩
def TRC_CTL_TRIGTOK : Field := ⟨4, 8⟩
def TRC_CTL_FLUSH : Field := ⟨12, 8⟩
def TRC_CTL_LOCK : Field := ⟨31, 1⟩
def TRC_STATUS_TRIG : Field := ⟨0, 1⟩
def TRC_STATUS_LOST : Field := ⟨1, 1⟩
def TRC_STATUS_WDOG : Field := ⟨2, 1⟩
def TRC_STATUS_BLK_LOST : Field := ⟨3, 1⟩
def TRC_STATUS_SNAP_LOST : Field := ⟨4, 1⟩
def TRC_STATUS_COLL_DROP : Field := ⟨5, 1⟩
def TRC_BASE_BASE : Field := ⟨0, 48⟩
def TRC_SIZE_LOG2N : Field := ⟨0, 5⟩
def TRC_BIDX_BIDX : Field := ⟨0, 64⟩
def TRC_HBM_SHARE_SHARE : Field := ⟨0, 4⟩
def TRC_HBM_SHARE_LOCK : Field := ⟨31, 1⟩
def TRC_DEST_CHIP : Field := ⟨0, 15⟩
def TRC_DEST_REMOTE : Field := ⟨15, 1⟩
def TRC_WDOG_LIMIT : Field := ⟨0, 24⟩
def TRC_TRIG_UNIT : Field := ⟨0, 7⟩
def TRC_TRIG_ALL : Field := ⟨7, 1⟩
def TRC_FREEZE_BASE_BASE : Field := ⟨0, 48⟩
def TRC_WINDOW_OPEN : Field := ⟨0, 64⟩
def TRC_RING_CTL_EN : Field := ⟨0, 1⟩
def TRC_RING_CTL_POST : Field := ⟨1, 8⟩
def TRC_RING_CTL_ALLWAITS : Field := ⟨9, 1⟩
def TRC_RING_CTL_AUTO_RELEASE : Field := ⟨10, 1⟩
def TRC_RING_CTL_RELEASE : Field := ⟨11, 1⟩
def TRC_RING_STAT_STATE : Field := ⟨0, 2⟩
def TRC_RING_STAT_WRITTEN : Field := ⟨2, 32⟩
def TRC_RING_STAT_LOST : Field := ⟨34, 30⟩
def CNT_GLB_SEL_SRC : Field := ⟨0, 6⟩
def CNT_GLB_SEL_FILTER : Field := ⟨6, 8⟩
def CNT_GLB_COUNT : Field := ⟨0, 48⟩
def CNT_GLB_WRAPS : Field := ⟨48, 16⟩
def CNT_SNAP_BASE_BASE : Field := ⟨0, 48⟩
def CNT_SNAP_CTL_LOG2N : Field := ⟨0, 4⟩
def CNT_SNAP_CTL_EN : Field := ⟨4, 1⟩
def CNT_SNAP_CTL_NOW : Field := ⟨5, 1⟩
def CNT_SNAP_IDX_IDX : Field := ⟨0, 32⟩
def FAB_CTL_ADAPT_EN : Field := ⟨0, 1⟩
def FAB_CTL_DETOUR_EN : Field := ⟨1, 1⟩
def FAB_CTL_LOCK : Field := ⟨31, 1⟩
def FAB_STATUS_FDROP : Field := ⟨0, 1⟩
def FAB_STATUS_UNROUTE : Field := ⟨1, 1⟩
def FAB_STATUS_DETOUR : Field := ⟨2, 1⟩
def FAB_STATUS_BADPKT : Field := ⟨3, 1⟩
def FAB_STATUS_CPAGE_LOST : Field := ⟨4, 1⟩
def FAB_STATUS_DET_ERR : Field := ⟨5, 1⟩
def FAB_ARB_W_TC0 : Field := ⟨0, 4⟩
def FAB_ARB_W_TC1 : Field := ⟨4, 4⟩
def FAB_ARB_W_TC3 : Field := ⟨8, 4⟩
def FAB_ARB_W_TC4 : Field := ⟨12, 4⟩
def FAB_TC4_CTL_SHARE : Field := ⟨0, 4⟩
def FAB_TC4_CTL_BURST : Field := ⟨8, 8⟩
def FAB_TC4_CTL_LOCK : Field := ⟨31, 1⟩
def FAB_FENCE_CMD_CHIP : Field := ⟨0, 15⟩
def FAB_FENCE_CMD_OP : Field := ⟨16, 2⟩
def FAB_FENCE_COUNT_COUNT : Field := ⟨0, 15⟩
def FAB_DETOUR_HOP : Field := ⟨0, 3⟩
def FAB_DETOUR_PLANE : Field := ⟨3, 2⟩
def FAB_CPAGE_BASE_BASE : Field := ⟨0, 48⟩
def FAB_CPAGE_CTL_LOG2N : Field := ⟨0, 4⟩
def FAB_CPAGE_CTL_MAXINT : Field := ⟨8, 24⟩
def FAB_CPAGE_CTL_EN : Field := ⟨32, 1⟩
def FAB_CPAGE_IDX_IDX : Field := ⟨0, 32⟩
def FAB_FENCE_BITS : Field := ⟨0, 64⟩
def PRT_CTL_EN : Field := ⟨0, 1⟩
def PRT_CTL_MIN_LANES : Field := ⟨1, 4⟩
def PRT_CTL_USE_HINT : Field := ⟨5, 1⟩
def PRT_CTL_REQ_LABEL : Field := ⟨6, 1⟩
def PRT_CTL_LOCK : Field := ⟨31, 1⟩
def PRT_STATUS_STATE : Field := ⟨0, 3⟩
def PRT_STATUS_TX_LANES : Field := ⟨3, 4⟩
def PRT_STATUS_RX_LANES : Field := ⟨7, 4⟩
def PRT_STATUS_LC : Field := ⟨11, 2⟩
def PRT_STATUS_HOLD : Field := ⟨13, 4⟩
def PRT_STATUS_TX_SPARE : Field := ⟨17, 1⟩
def PRT_STATUS_RX_SPARE : Field := ⟨18, 1⟩
def PRT_STATUS_CRC : Field := ⟨19, 1⟩
def PRT_STATUS_UNCORR : Field := ⟨20, 1⟩
def PRT_STATUS_SPARED : Field := ⟨21, 1⟩
def PRT_STATUS_RETRAIN : Field := ⟨22, 1⟩
def PRT_STATUS_DOWN : Field := ⟨23, 1⟩
def PRT_STATUS_HELD : Field := ⟨24, 1⟩
def PRT_PEER_CHIP : Field := ⟨0, 15⟩
def PRT_PEER_ROLE : Field := ⟨16, 4⟩
def PRT_PEER_VMAJOR : Field := ⟨24, 8⟩
def PRT_PEER_VMINOR : Field := ⟨32, 8⟩
def PRT_RTT_RTT : Field := ⟨0, 16⟩
def PRT_RTT_TIMEOUT : Field := ⟨16, 16⟩
def PRT_LANES_TX_ACTIVE : Field := ⟨0, 11⟩
def PRT_LANES_TX_RETIRED : Field := ⟨11, 11⟩
def PRT_LANES_RX_ACTIVE : Field := ⟨32, 11⟩
def PRT_LANES_RX_RETIRED : Field := ⟨43, 11⟩
def PRT_MODULE_MEDIA : Field := ⟨0, 2⟩
def PRT_MODULE_LENGTH : Field := ⟨8, 8⟩
def PRT_MODULE_LABEL : Field := ⟨16, 8⟩
def PRT_MODULE_PRESET : Field := ⟨24, 4⟩
def PRT_MODULE_HINT : Field := ⟨28, 1⟩
def PRT_LANE_CTL_THRESH : Field := ⟨0, 24⟩
def PRT_AXIS_MAP_ROLES : Field := ⟨0, 18⟩
def PRT_AXIS_MAP_MAP_ERR : Field := ⟨31, 1⟩
def CNT_PRT_SEL_SRC : Field := ⟨0, 6⟩
def CNT_PRT_SEL_FILTER : Field := ⟨6, 8⟩
def CNT_PRT_COUNT : Field := ⟨0, 48⟩
def CNT_PRT_WRAPS : Field := ⟨48, 16⟩
def COL_CTL_FALLBACK_EN : Field := ⟨0, 1⟩
def COL_CTL_LOCK : Field := ⟨31, 1⟩
def COL_STATUS_FLAGS : Field := ⟨0, 9⟩
def COL_CTX_STAT_PHASE : Field := ⟨0, 4⟩
def COL_CTX_STAT_STALL : Field := ⟨4, 1⟩
def COL_CTX_STAT_DET : Field := ⟨5, 1⟩
def COL_CTX_STAT_FALLBACK : Field := ⟨6, 1⟩
def COL_CTX_STAT_PLAN : Field := ⟨8, 8⟩
def COL_CTX_STAT_SEQ : Field := ⟨16, 16⟩
def COL_CTX_STAT_ATTEMPT : Field := ⟨32, 4⟩
def COL_CTX_STAT_PASS : Field := ⟨36, 2⟩
def COL_CTX_STAT_ISSUER : Field := ⟨40, 6⟩
def COL_CTX_STAT_FENCED : Field := ⟨48, 15⟩
def COL_REDRIVE_GO : Field := ⟨0, 1⟩
def MEM_CTL_RATE : Field := ⟨0, 2⟩
def MEM_CTL_LOCK : Field := ⟨31, 1⟩
def MEM_STATUS_DET : Field := ⟨0, 1⟩
def MEM_STATUS_WHELD : Field := ⟨1, 1⟩
def MEM_PC_WITHHELD_WHELD : Field := ⟨0, 64⟩
def MEM_PC_RETIRED_RET : Field := ⟨0, 64⟩
def MEM_ERR_ADDR_DPA : Field := ⟨0, 48⟩
def MEM_ERR_ADDR_PC : Field := ⟨48, 9⟩
def MEM_REMAP_CTL_PC : Field := ⟨0, 9⟩
def MEM_REMAP_CTL_WITHHOLD : Field := ⟨9, 1⟩
def MEM_REMAP_CTL_COMMIT : Field := ⟨10, 1⟩
def MEM_REMAP_STATUS_BUSY : Field := ⟨0, 1⟩
def MEM_REMAP_STATUS_REJECT : Field := ⟨1, 1⟩
def MEM_REMAP_STATUS_J : Field := ⟨4, 7⟩
def MEM_TOP_TOP : Field := ⟨0, 48⟩
def MEM_RSV_COUNT : Field := ⟨0, 5⟩
def MEM_RSV_LOCK : Field := ⟨31, 1⟩
def MEM_RGN_STATUS_RGN_ERR : Field := ⟨0, 1⟩
def MEM_RGN_STATUS_LAND_ERR : Field := ⟨1, 1⟩
def MEM_BANK_A_BASE : Field := ⟨0, 48⟩
def MEM_BANK_B_BASE : Field := ⟨0, 48⟩
def MEM_BANK_LEN_LEN : Field := ⟨0, 40⟩
def MEM_BANK_LEN_LOCK : Field := ⟨63, 1⟩
def MEM_MIRROR_BASE : Field := ⟨0, 48⟩
def MEM_MIRROR_LEN_LEN : Field := ⟨0, 40⟩
def MEM_RGN_W0_BASE : Field := ⟨0, 48⟩
def MEM_RGN_W0_RD : Field := ⟨48, 1⟩
def MEM_RGN_W0_WR : Field := ⟨49, 1⟩
def MEM_RGN_W0_XS : Field := ⟨50, 1⟩
def MEM_RGN_W0_FL : Field := ⟨51, 1⟩
def MEM_RGN_W0_OWNER : Field := ⟨52, 2⟩
def MEM_RGN_W0_VALID : Field := ⟨63, 1⟩
def MEM_RGN_W1_LIMIT : Field := ⟨0, 48⟩
def STK_BASE_BASE : Field := ⟨0, 48⟩
def STK_PART_PART : Field := ⟨0, 36⟩
def STK_HWM_HWM : Field := ⟨0, 36⟩
def STK_KEY_LO_K0 : Field := ⟨0, 64⟩
def STK_KEY_HI_K1 : Field := ⟨0, 64⟩
def STK_NDI_NDI : Field := ⟨0, 40⟩
def STK_DPOS_DPOS : Field := ⟨0, 64⟩
def STK_SLOT_OWNER : Field := ⟨0, 2⟩
def STK_TOP_TOP : Field := ⟨0, 36⟩
def STK_TOP_ENTRIES : Field := ⟨36, 20⟩
def MOV_CTL_PREF_FLOOR : Field := ⟨0, 5⟩
def MOV_CTL_LOCK : Field := ⟨31, 1⟩
def MOV_STATUS_REGION : Field := ⟨0, 1⟩
def MOV_STATUS_DET : Field := ⟨1, 1⟩
def MOV_STATUS_TEN_WR_IGN : Field := ⟨2, 1⟩
def MOV_STATUS_SLOT_WR_IGN : Field := ⟨3, 1⟩
def MOV_STATUS_SAVE_FAIL : Field := ⟨4, 1⟩
def MOV_STATUS_RESTORE_FAIL : Field := ⟨5, 1⟩
def MOV_STATE_STATE : Field := ⟨0, 64⟩
def MOV_DONE_DONE : Field := ⟨0, 40⟩
def MOV_FP_FP : Field := ⟨0, 64⟩
def MOV_REDRIVE_GO : Field := ⟨0, 1⟩
def MOV_TEN_CTL_PATH : Field := ⟨0, 2⟩
def MOV_TEN_CTL_EN : Field := ⟨2, 1⟩
def MOV_TEN_CTL_WEIGHT : Field := ⟨4, 4⟩
def MOV_TEN_CTL_QUOTA : Field := ⟨8, 6⟩
def MOV_CTX_BASE_BASE : Field := ⟨0, 48⟩
def MOV_CTX_SLOT_SLOT : Field := ⟨0, 36⟩
def MOV_PREEMPT_CMD_OP : Field := ⟨0, 3⟩
def MOV_PREEMPT_CMD_TENANT : Field := ⟨3, 2⟩
def MOV_PREEMPT_MASK_MASK : Field := ⟨0, 64⟩
def MOV_CTX_STATUS_STATE : Field := ⟨0, 3⟩
def MOV_CTX_STATUS_NEWEST : Field := ⟨3, 1⟩
def MOV_CTX_STATUS_RESULT : Field := ⟨4, 4⟩
def MOV_CTX_STATUS_SEQ : Field := ⟨8, 32⟩
def MEM_BANK_CTL_SIGCLU : Field := ⟨0, 6⟩
def MEM_BANK_CTL_SIGTOK : Field := ⟨6, 8⟩
def MEM_BANK_CTL_SIGEN : Field := ⟨14, 1⟩
def MEM_BANK_STATE_STATE : Field := ⟨0, 3⟩
def MEM_BANK_STATE_FPEN : Field := ⟨3, 1⟩
def MEM_BANK_STATE_PUSH : Field := ⟨4, 1⟩
def MEM_BANK_STATE_STEP : Field := ⟨8, 40⟩
def MEM_TWIN_CTL_EN : Field := ⟨0, 1⟩
def MEM_TWIN_CTL_SIGCLU : Field := ⟨1, 6⟩
def MEM_TWIN_CTL_SIGTOK : Field := ⟨7, 8⟩
def MEM_TWIN_CTL_SIGEN : Field := ⟨15, 1⟩
def MEM_TWIN_CTL_CANCEL : Field := ⟨16, 1⟩
def MEM_TWIN_STATUS_STATE : Field := ⟨0, 3⟩
def MEM_TWIN_STATUS_RESULT : Field := ⟨3, 5⟩
def MEM_TWIN_STATUS_BANK : Field := ⟨8, 1⟩
def MEM_TWIN_STATUS_STEP : Field := ⟨9, 40⟩
def MEM_TWIN_DONE_CHUNKS : Field := ⟨0, 40⟩
def MEM_MIRROR_STATE_STATE : Field := ⟨0, 2⟩
def MEM_MIRROR_STATE_OWNER : Field := ⟨8, 15⟩
def MEM_MIRROR_STATE_STEP : Field := ⟨24, 40⟩
def MEM_BARRIER_CTL_RAISE : Field := ⟨0, 1⟩
def MEM_BARRIER_CTL_AUTO : Field := ⟨1, 1⟩
def MEM_BARRIER_CTL_CLEAR : Field := ⟨2, 1⟩
def MEM_BARRIER_STATUS_STATE : Field := ⟨0, 2⟩
def MEM_BARRIER_STATUS_CAUSE : Field := ⟨2, 2⟩
def MEM_BARRIER_STATUS_CHIP : Field := ⟨4, 15⟩
def MEM_TS_STATUS_FLAGS : Field := ⟨0, 7⟩
def MEM_SLOT_NDIPOS_NDIPOS : Field := ⟨0, 40⟩
def MEM_RST_LIST_DPA : Field := ⟨0, 48⟩
def MEM_RST_CTL_COUNT : Field := ⟨0, 16⟩
def MEM_RST_CTL_GO : Field := ⟨16, 1⟩
def MEM_RST_STATUS_STATE : Field := ⟨0, 2⟩
def MEM_RST_STATUS_RESULT : Field := ⟨4, 4⟩
def MEM_RST_STATUS_INDEX : Field := ⟨8, 16⟩
def MEM_RST_STATUS_REALIGNED : Field := ⟨24, 16⟩
def MEM_DRAIN_CTL_DIR : Field := ⟨0, 1⟩
def MEM_DRAIN_CTL_PORT : Field := ⟨1, 1⟩
def MEM_DRAIN_CTL_GO : Field := ⟨2, 1⟩
def MEM_DRAIN_CTL_QP : Field := ⟨8, 24⟩
def MEM_DRAIN_CTL_RKEY : Field := ⟨32, 32⟩
def MEM_DRAIN_LOCAL_DPA : Field := ⟨0, 48⟩
def MEM_DRAIN_LEN_LEN : Field := ⟨0, 40⟩
def MEM_DRAIN_REMOTE_ADDR : Field := ⟨0, 64⟩
def MEM_DRAIN_STATUS_STATE : Field := ⟨0, 2⟩
def MEM_DRAIN_STATUS_RESULT : Field := ⟨4, 3⟩
def MEM_DRAIN_STATUS_STEP : Field := ⟨24, 40⟩
def MEM_DRAIN_DONE_BYTES : Field := ⟨0, 40⟩
def MEM_DRAIN_DIG_LO_DIG : Field := ⟨0, 64⟩
def MEM_DRAIN_DIG_HI_DIG : Field := ⟨0, 64⟩
def MEM_DRAIN_DIG_X0_DIG : Field := ⟨0, 64⟩
def MEM_DRAIN_DIG_X1_DIG : Field := ⟨0, 64⟩
def CLU_CTL_RAMP_IDLE : Field := ⟨0, 16⟩
def CLU_CTL_PANEL_SHARE_EN : Field := ⟨16, 1⟩
def CLU_CTL_LOCK : Field := ⟨31, 1⟩
def CLU_RANK_MAP_MAP : Field := ⟨0, 48⟩
def CLU_RANK_MAP_SPARE : Field := ⟨48, 4⟩
def CLU_STATUS_BPL : Field := ⟨0, 1⟩
def CLU_STATUS_MAP_ERR : Field := ⟨1, 1⟩
def CLU_STATUS_XPOSE_WAIT : Field := ⟨2, 1⟩
def RNK_CTL_QUIESCE : Field := ⟨0, 1⟩
def RNK_CTL_QUIESCED : Field := ⟨1, 1⟩
def RNK_CTL_GATED : Field := ⟨2, 1⟩
def RNK_CTL_UNGATED : Field := ⟨3, 3⟩
def RNK_SKEW_MAP_PHYS0 : Field := ⟨0, 8⟩
def RNK_SKEW_MAP_VALID0 : Field := ⟨8, 1⟩
def RNK_SKEW_MAP_PHYS1 : Field := ⟨16, 8⟩
def RNK_SKEW_MAP_VALID1 : Field := ⟨24, 1⟩
def RNK_SKEW_MAP_PHYS2 : Field := ⟨32, 8⟩
def RNK_SKEW_MAP_VALID2 : Field := ⟨40, 1⟩
def RNK_SKEW_MAP_PHYS3 : Field := ⟨48, 8⟩
def RNK_SKEW_MAP_VALID3 : Field := ⟨56, 1⟩
def RNK_STATUS_WMISS : Field := ⟨0, 1⟩
def RNK_STATUS_SSTEP : Field := ⟨1, 1⟩
def RNK_STATUS_SEXH : Field := ⟨2, 1⟩
def RNK_STATUS_SKEW_ERR : Field := ⟨3, 1⟩
def RNK_LMAP_LANES : Field := ⟨0, 64⟩
def VEC_CTL_RD_SHARE : Field := ⟨0, 4⟩
def VEC_CTL_LOCK : Field := ⟨31, 1⟩
def VEC_STATUS_NONFINITE : Field := ⟨0, 1⟩
def VEC_STATUS_SSTEP : Field := ⟨1, 1⟩
def VEC_STATUS_SEXH : Field := ⟨2, 1⟩
def VEC_STATUS_EMPTYROW : Field := ⟨3, 1⟩
def VEC_STATUS_BPL : Field := ⟨4, 1⟩
def CNT_CLU_SEL_SRC : Field := ⟨0, 6⟩
def CNT_CLU_SEL_FILTER : Field := ⟨6, 8⟩
def CNT_CLU_COUNT : Field := ⟨0, 48⟩
def CNT_CLU_WRAPS : Field := ⟨48, 16⟩
def SEQ_CTL_START : Field := ⟨0, 1⟩
def SEQ_CTL_HALT : Field := ⟨1, 1⟩
def SEQ_CTL_RESUME : Field := ⟨2, 1⟩
def SEQ_CTL_TENANT : Field := ⟨4, 2⟩
def SEQ_STATUS_STATE : Field := ⟨0, 3⟩
def SEQ_STATUS_CTX : Field := ⟨3, 2⟩
def SEQ_STATUS_TENANT : Field := ⟨5, 2⟩
def SEQ_STATUS_SEGMENT : Field := ⟨7, 1⟩
def SEQ_STATUS_LOOP_DEPTH : Field := ⟨8, 4⟩
def SEQ_STATUS_SLOT : Field := ⟨12, 4⟩
def SEQ_STATUS_FAULT : Field := ⟨16, 1⟩
def SEQ_STATUS_YIELD_LATE : Field := ⟨17, 1⟩
def SEQ_PC_PC : Field := ⟨0, 64⟩
def SEQ_YIELD_GAP_MAX_NS : Field := ⟨0, 48⟩
def SEQ_STREAM_BASE_BASE : Field := ⟨0, 48⟩
def SEQ_STREAM_LEN_LEN : Field := ⟨0, 40⟩
def SEQ_FAULT_REC_WORD : Field := ⟨0, 64⟩
def SEQ_TOKEN_COUNT : Field := ⟨0, 24⟩
def SEQ_TOKEN_QUANTUM : Field := ⟨24, 16⟩
def SEQ_TOKEN_CONSUMER : Field := ⟨40, 3⟩
def SEQ_TOKEN_FWD : Field := ⟨48, 8⟩
def CLU_ARM_POS_POS : Field := ⟨0, 64⟩
def CLU_ARM_CTL_ACTION : Field := ⟨0, 4⟩
def CLU_ARM_CTL_FIRED : Field := ⟨4, 1⟩
def CLU_ARM_CTL_LATE : Field := ⟨5, 1⟩
def CLU_ARM_CTL_ARG : Field := ⟨16, 16⟩
def CLU_ARM_CTL_REPEAT : Field := ⟨32, 16⟩
def SVC_CTL_EN : Field := ⟨0, 1⟩
def SVC_CTL_MODE : Field := ⟨1, 1⟩
def SVC_CTL_VLAN_EN : Field := ⟨2, 1⟩
def SVC_CTL_VID : Field := ⟨3, 12⟩
def SVC_CTL_LOCK : Field := ⟨31, 1⟩
def SVC_MAC_MAC : Field := ⟨0, 48⟩
def SVC_IP6_LO_ADDR : Field := ⟨0, 64⟩
def SVC_IP6_HI_ADDR : Field := ⟨0, 64⟩
def SVC_IP4_ADDR : Field := ⟨0, 32⟩
def SVC_STATUS_P_LINK : Field := ⟨0, 1⟩
def SVC_STATUS_P_PAUSE_DROP : Field := ⟨1, 1⟩
def SVC_STATUS_P_QP_ERR : Field := ⟨2, 1⟩
def SVC_RC_CUT : Field := ⟨0, 8⟩
def SVC_RC_AI : Field := ⟨8, 12⟩
def SVC_RC_HAI : Field := ⟨20, 12⟩
def SVC_RC_MIN : Field := ⟨32, 12⟩
def SVC_VERSION_RANGE : Field := ⟨0, 32⟩
def SVC_STATUS_KEY_REJ : Field := ⟨0, 1⟩
def SVC_MKEY_BASE : Field := ⟨0, 48⟩
def SVC_MKEY_LEN_LEN : Field := ⟨0, 40⟩
def SVC_MKEY_LEN_RD : Field := ⟨40, 1⟩
def SVC_MKEY_LEN_WR : Field := ⟨41, 1⟩
def SVC_MKEY_LEN_TEN : Field := ⟨42, 2⟩
def SVC_MKEY_LEN_GEN : Field := ⟨44, 20⟩
def SVC_QP_STAT_STATE : Field := ⟨0, 3⟩
def SVC_QP_STAT_PORT : Field := ⟨3, 1⟩
def SVC_QP_STAT_TEN : Field := ⟨4, 2⟩

/-- The 48-bit count of a counter register. -/
def COUNT : Field := ⟨0, 48⟩

end Fld

def regTable0 : List RegDesc := [
  ⟨0x0, [], 32, [(⟨0, 16⟩, .ro), (⟨16, 8⟩, .ro)]⟩,
  ⟨0x8, [], 32, [(⟨0, 3⟩, .rov), (⟨3, 4⟩, .rov), (⟨7, 1⟩, .rov), (⟨8, 1⟩, .rov)]⟩,
  ⟨0x10, [], 32, [(⟨0, 4⟩, .wo), (⟨4, 12⟩, .wo)]⟩,
  ⟨0x18, [], 32, [(⟨0, 1⟩, .rov), (⟨1, 3⟩, .rov), (⟨4, 4⟩, .rov)]⟩,
  ⟨0x20, [], 32, [(⟨0, 1⟩, .rw), (⟨1, 1⟩, .rw), (⟨2, 1⟩, .rov)]⟩,
  ⟨0x28, [], 32, [(⟨0, 1⟩, .w1g), (⟨1, 1⟩, .rov)]⟩,
  ⟨0x30, [], 32, [(⟨0, 4⟩, .rw)]⟩,
  ⟨0x38, [], 32, [(⟨0, 1⟩, .w1c), (⟨1, 1⟩, .w1c)]⟩,
  ⟨0x40, [], 32, [(⟨0, 8⟩, .rov), (⟨8, 8⟩, .rov)]⟩,
  ⟨0x80, [], 64, [(⟨0, 48⟩, .rov)]⟩,
  ⟨0x88, [], 64, [(⟨0, 48⟩, .rov)]⟩,
  ⟨0x90, [], 64, [(⟨0, 48⟩, .rov)]⟩,
  ⟨0x98, [], 64, [(⟨0, 48⟩, .rov)]⟩,
  ⟨0xa0, [], 64, [(⟨0, 48⟩, .rov)]⟩,
  ⟨0x8000, [], 32, [(⟨0, 16⟩, .rw), (⟨16, 12⟩, .rwl), (⟨31, 1⟩, .w1s)]⟩,
  ⟨0x8008, [], 32, [(⟨0, 8⟩, .w1c)]⟩,
  ⟨0x8010, [], 32, [(⟨0, 32⟩, .rw)]⟩,
  ⟨0x8018, [], 64, [(⟨0, 32⟩, .rw), (⟨32, 3⟩, .rov), (⟨35, 1⟩, .rov), (⟨36, 4⟩, .rov)]⟩,
  ⟨0x8020, [], 32, [(⟨0, 32⟩, .wo)]⟩,
  ⟨0x8028, [], 64, [(⟨0, 15⟩, .wo), (⟨32, 32⟩, .wo)]⟩,
  ⟨0x8030, [], 32, [(⟨0, 1⟩, .w1s)]⟩,
  ⟨0x8038, [], 64, [(⟨0, 48⟩, .rw)]⟩,
  ⟨0x8040, [], 32, [(⟨0, 4⟩, .rw), (⟨4, 1⟩, .rw)]⟩,
  ⟨0x8048, [], 32, [(⟨0, 32⟩, .rov)]⟩]

def regTable1 : List RegDesc := [
  ⟨0x8100, [(0x10, 16)], 64, [(⟨0, 64⟩, .rw)]⟩,
  ⟨0x8108, [(0x10, 16)], 32, [(⟨0, 16⟩, .rw), (⟨16, 1⟩, .rw)]⟩,
  ⟨0x8208, [(0x8, 8)], 64, [(⟨0, 48⟩, .rov)]⟩,
  ⟨0x8250, [], 64, [(⟨0, 48⟩, .rov)]⟩,
  ⟨0x8258, [], 64, [(⟨0, 48⟩, .rov)]⟩,
  ⟨0x8260, [], 64, [(⟨0, 48⟩, .rov)]⟩,
  ⟨0x8268, [], 64, [(⟨0, 48⟩, .rov)]⟩,
  ⟨0x8270, [], 64, [(⟨0, 48⟩, .rov)]⟩,
  ⟨0x8278, [], 64, [(⟨0, 48⟩, .rov)]⟩,
  ⟨0x8280, [], 64, [(⟨0, 48⟩, .rov)]⟩,
  ⟨0x8288, [], 64, [(⟨0, 48⟩, .rov)]⟩,
  ⟨0x8290, [], 64, [(⟨0, 48⟩, .rov)]⟩,
  ⟨0x8298, [], 64, [(⟨0, 48⟩, .rov)]⟩,
  ⟨0x82a0, [], 64, [(⟨0, 48⟩, .rov)]⟩,
  ⟨0x82a8, [], 64, [(⟨0, 48⟩, .rov)]⟩,
  ⟨0x82b0, [], 64, [(⟨0, 48⟩, .rov)]⟩,
  ⟨0x10000, [], 32, [(⟨0, 1⟩, .rov), (⟨1, 5⟩, .rov), (⟨6, 5⟩, .rov)]⟩,
  ⟨0x10008, [], 32, [(⟨0, 1⟩, .w1c), (⟨1, 1⟩, .w1c), (⟨2, 1⟩, .w1c), (⟨3, 1⟩, .w1c), (⟨4, 1⟩, .w1c)]⟩,
  ⟨0x10010, [], 32, [(⟨0, 32⟩, .ro)]⟩,
  ⟨0x10040, [], 64, [(⟨0, 48⟩, .rov)]⟩,
  ⟨0x10048, [], 64, [(⟨0, 48⟩, .rov)]⟩,
  ⟨0x10050, [], 64, [(⟨0, 48⟩, .rov)]⟩,
  ⟨0x10058, [], 64, [(⟨0, 48⟩, .rov)]⟩,
  ⟨0x10060, [], 64, [(⟨0, 48⟩, .rov)]⟩]

def regTable2 : List RegDesc := [
  ⟨0x10068, [], 64, [(⟨0, 48⟩, .rov)]⟩,
  ⟨0x10100, [(0x40, 2)], 32, [(⟨0, 2⟩, .rw), (⟨2, 1⟩, .rw), (⟨4, 2⟩, .rw), (⟨6, 1⟩, .rw)]⟩,
  ⟨0x10108, [(0x40, 2)], 64, [(⟨12, 52⟩, .rw)]⟩,
  ⟨0x10110, [(0x40, 2)], 64, [(⟨30, 18⟩, .rw)]⟩,
  ⟨0x10118, [(0x40, 2)], 32, [(⟨0, 16⟩, .rw)]⟩,
  ⟨0x11000, [(0x40, 64)], 32, [(⟨0, 2⟩, .rw), (⟨2, 1⟩, .rw), (⟨3, 1⟩, .rw)]⟩,
  ⟨0x11008, [(0x40, 64)], 64, [(⟨6, 58⟩, .rw)]⟩,
  ⟨0x11010, [(0x40, 64)], 64, [(⟨6, 58⟩, .rw)]⟩,
  ⟨0x11018, [(0x40, 64)], 64, [(⟨0, 4⟩, .rw), (⟨8, 8⟩, .rw), (⟨16, 8⟩, .rw), (⟨24, 8⟩, .rw), (⟨32, 1⟩, .rw)]⟩,
  ⟨0x11020, [(0x40, 64)], 64, [(⟨0, 16⟩, .rov), (⟨16, 16⟩, .rov), (⟨32, 4⟩, .rov)]⟩,
  ⟨0x12020, [(0x20, 3)], 64, [(⟨6, 58⟩, .rw)]⟩,
  ⟨0x12028, [(0x20, 3)], 32, [(⟨0, 4⟩, .rw), (⟨8, 8⟩, .rw), (⟨16, 1⟩, .rw)]⟩,
  ⟨0x12030, [(0x20, 3)], 32, [(⟨0, 32⟩, .rov)]⟩,
  ⟨0x20000, [], 32, [(⟨0, 4⟩, .rwl), (⟨31, 1⟩, .w1s)]⟩,
  ⟨0x20008, [], 32, [(⟨0, 1⟩, .w1c), (⟨1, 1⟩, .w1c)]⟩,
  ⟨0x20040, [], 64, [(⟨0, 48⟩, .rov)]⟩,
  ⟨0x20048, [], 64, [(⟨0, 48⟩, .rov)]⟩,
  ⟨0x20050, [], 64, [(⟨0, 48⟩, .rov)]⟩,
  ⟨0x20100, [(0x10, 4)], 32, [(⟨0, 1⟩, .w1g), (⟨1, 1⟩, .rov), (⟨2, 1⟩, .rov), (⟨8, 8⟩, .rw)]⟩,
  ⟨0x21000, [(0x800, 4), (0x8, 128)], 64, [(⟨0, 64⟩, .rw)]⟩,
  ⟨0x21400, [(0x800, 4), (0x8, 128)], 64, [(⟨0, 64⟩, .rov)]⟩,
  ⟨0x28000, [], 32, [(⟨0, 5⟩, .rov), (⟨5, 8⟩, .rov), (⟨13, 1⟩, .rov), (⟨14, 1⟩, .rov)]⟩,
  ⟨0x28008, [], 64, [(⟨0, 15⟩, .rov), (⟨15, 15⟩, .rov), (⟨30, 6⟩, .rov), (⟨36, 6⟩, .rov), (⟨42, 6⟩, .rov), (⟨48, 3⟩, .rov)]⟩,
  ⟨0x28010, [], 64, [(⟨0, 16⟩, .rov), (⟨16, 16⟩, .rov)]⟩]

def regTable3 : List RegDesc := [
  ⟨0x28018, [], 64, [(⟨0, 64⟩, .rov)]⟩,
  ⟨0x28020, [], 64, [(⟨0, 32⟩, .rov)]⟩,
  ⟨0x28028, [], 64, [(⟨0, 64⟩, .rov)]⟩,
  ⟨0x28100, [(0x8, 8)], 64, [(⟨0, 64⟩, .rov)]⟩,
  ⟨0x30000, [], 32, [(⟨0, 1⟩, .rwl), (⟨31, 1⟩, .w1s)]⟩,
  ⟨0x30008, [], 32, [(⟨0, 4⟩, .rwl)]⟩,
  ⟨0x30010, [], 32, [(⟨0, 1⟩, .rov), (⟨1, 1⟩, .rov), (⟨2, 1⟩, .w1c)]⟩,
  ⟨0x30018, [], 64, [(⟨0, 16⟩, .rov), (⟨16, 16⟩, .rov), (⟨32, 16⟩, .rov)]⟩,
  ⟨0x30040, [], 64, [(⟨0, 48⟩, .rov)]⟩,
  ⟨0x30100, [(0x20, 16), (0x8, 4)], 64, [(⟨0, 64⟩, .rov)]⟩,
  ⟨0x30300, [(0x8, 4)], 64, [(⟨0, 64⟩, .rw)]⟩,
  ⟨0x30320, [], 32, [(⟨0, 2⟩, .wo)]⟩,
  ⟨0x30328, [], 32, [(⟨0, 32⟩, .rov)]⟩,
  ⟨0x30800, [(0x80, 16), (0x8, 8)], 64, [(⟨0, 64⟩, .rwl)]⟩,
  ⟨0x30840, [(0x80, 16)], 32, [(⟨0, 4⟩, .rwl), (⟨4, 1⟩, .rwl)]⟩,
  ⟨0x30848, [(0x80, 16), (0x8, 4)], 64, [(⟨0, 64⟩, .rov)]⟩,
  ⟨0x32000, [(0x40, 256), (0x8, 8)], 64, [(⟨0, 64⟩, .rov)]⟩,
  ⟨0x40000, [], 32, [(⟨0, 2⟩, .rwl), (⟨2, 1⟩, .rwl), (⟨31, 1⟩, .w1s)]⟩,
  ⟨0x40008, [], 64, [(⟨0, 64⟩, .rov)]⟩,
  ⟨0x40010, [], 32, [(⟨0, 1⟩, .w1c), (⟨1, 1⟩, .w1c), (⟨2, 1⟩, .w1c), (⟨3, 1⟩, .w1c), (⟨4, 1⟩, .rov)]⟩,
  ⟨0x40018, [], 64, [(⟨0, 48⟩, .rov)]⟩,
  ⟨0x40020, [], 64, [(⟨0, 48⟩, .rov)]⟩,
  ⟨0x40028, [], 64, [(⟨0, 48⟩, .rov)]⟩,
  ⟨0x40030, [], 64, [(⟨0, 48⟩, .rov)]⟩]

def regTable4 : List RegDesc := [
  ⟨0x40038, [], 64, [(⟨0, 48⟩, .rov)]⟩,
  ⟨0x40040, [], 64, [(⟨0, 15⟩, .rov)]⟩,
  ⟨0x40048, [], 64, [(⟨0, 64⟩, .rov)]⟩,
  ⟨0x41000, [(0x10, 64)], 64, [(⟨0, 64⟩, .rw)]⟩,
  ⟨0x41008, [(0x10, 64)], 64, [(⟨0, 4⟩, .rw), (⟨4, 1⟩, .rov), (⟨5, 1⟩, .rov), (⟨16, 16⟩, .rw), (⟨32, 16⟩, .rw)]⟩,
  ⟨0x50000, [], 32, [(⟨0, 4⟩, .rw), (⟨4, 1⟩, .rwl), (⟨5, 1⟩, .rwl), (⟨6, 1⟩, .rwl), (⟨31, 1⟩, .w1s)]⟩,
  ⟨0x50008, [], 32, [(⟨0, 6⟩, .w1c), (⟨6, 1⟩, .w1c), (⟨7, 1⟩, .w1c), (⟨8, 1⟩, .w1c), (⟨9, 1⟩, .w1c)]⟩,
  ⟨0x50010, [], 64, [(⟨0, 12⟩, .rw), (⟨16, 12⟩, .rw)]⟩,
  ⟨0x50018, [], 64, [(⟨0, 4⟩, .rov), (⟨4, 5⟩, .rov), (⟨9, 5⟩, .rov), (⟨14, 5⟩, .rov), (⟨19, 5⟩, .rov), (⟨24, 12⟩, .rov), (⟨36, 12⟩, .rov), (⟨48, 6⟩, .rov)]⟩,
  ⟨0x50020, [], 64, [(⟨0, 16⟩, .rov), (⟨16, 16⟩, .rov), (⟨32, 16⟩, .rov), (⟨48, 16⟩, .rov)]⟩,
  ⟨0x50028, [], 64, [(⟨0, 5⟩, .rov), (⟨5, 5⟩, .rov), (⟨10, 1⟩, .rov), (⟨11, 1⟩, .rov)]⟩,
  ⟨0x50030, [], 64, [(⟨0, 7⟩, .rwl), (⟨31, 1⟩, .w1s)]⟩,
  ⟨0x50038, [], 64, [(⟨0, 10⟩, .rw)]⟩,
  ⟨0x50040, [], 64, [(⟨0, 12⟩, .rwl), (⟨31, 1⟩, .w1s)]⟩,
  ⟨0x50048, [], 64, [(⟨0, 64⟩, .rw)]⟩,
  ⟨0x50050, [], 64, [(⟨0, 16⟩, .rov), (⟨16, 4⟩, .rov)]⟩,
  ⟨0x50058, [(0x8, 2)], 64, [(⟨0, 15⟩, .rov), (⟨16, 15⟩, .rov), (⟨32, 15⟩, .rov), (⟨48, 15⟩, .rov)]⟩,
  ⟨0x50100, [(0x8, 16)], 64, [(⟨0, 12⟩, .rw), (⟨12, 3⟩, .rw), (⟨16, 12⟩, .rw), (⟨28, 12⟩, .rw), (⟨40, 12⟩, .rw), (⟨52, 5⟩, .rw)]⟩,
  ⟨0x50200, [(0x8, 12)], 64, [(⟨0, 24⟩, .rw)]⟩,
  ⟨0x50280, [(0x8, 27)], 64, [(⟨0, 12⟩, .rov)]⟩,
  ⟨0x50380, [(0x8, 5)], 64, [(⟨0, 16⟩, .rov), (⟨16, 16⟩, .rov), (⟨32, 16⟩, .rov), (⟨48, 16⟩, .rov)]⟩,
  ⟨0x50400, [(0x8, 6)], 64, [(⟨0, 48⟩, .rov)]⟩,
  ⟨0x50430, [], 64, [(⟨0, 48⟩, .rov)]⟩,
  ⟨0x50438, [], 64, [(⟨0, 48⟩, .rov)]⟩]

def regTable5 : List RegDesc := [
  ⟨0x50440, [], 64, [(⟨0, 48⟩, .rov)]⟩,
  ⟨0x50448, [], 64, [(⟨0, 48⟩, .rov)]⟩,
  ⟨0x50500, [(0x20, 6), (0x8, 3)], 64, [(⟨0, 48⟩, .rov)]⟩,
  ⟨0x50600, [(0x8, 4)], 64, [(⟨0, 48⟩, .rov)]⟩,
  ⟨0x50620, [], 64, [(⟨0, 48⟩, .rov)]⟩,
  ⟨0x50800, [], 64, [(⟨0, 8⟩, .rwl), (⟨8, 8⟩, .rwl), (⟨16, 8⟩, .rwl), (⟨24, 8⟩, .rwl), (⟨63, 1⟩, .w1s)]⟩,
  ⟨0x50808, [], 64, [(⟨0, 1⟩, .w1c)]⟩,
  ⟨0x50810, [], 64, [(⟨0, 12⟩, .rov)]⟩,
  ⟨0x50818, [], 64, [(⟨0, 16⟩, .rov), (⟨16, 16⟩, .rov)]⟩,
  ⟨0x50840, [], 64, [(⟨0, 48⟩, .rov)]⟩,
  ⟨0x50900, [(0x8, 103)], 64, [(⟨0, 16⟩, .rov), (⟨16, 1⟩, .rov)]⟩,
  ⟨0x60000, [], 32, [(⟨0, 2⟩, .rw), (⟨2, 1⟩, .rw), (⟨3, 1⟩, .rwl), (⟨4, 8⟩, .rw), (⟨12, 8⟩, .rw), (⟨31, 1⟩, .w1s)]⟩,
  ⟨0x60008, [], 32, [(⟨0, 1⟩, .w1c), (⟨1, 1⟩, .w1c), (⟨2, 1⟩, .w1c), (⟨3, 1⟩, .w1c), (⟨4, 1⟩, .w1c), (⟨5, 1⟩, .w1c)]⟩,
  ⟨0x60010, [], 64, [(⟨0, 48⟩, .rw)]⟩,
  ⟨0x60018, [], 32, [(⟨0, 5⟩, .rw)]⟩,
  ⟨0x60020, [], 64, [(⟨0, 64⟩, .rov)]⟩,
  ⟨0x60028, [], 32, [(⟨0, 4⟩, .rwl), (⟨31, 1⟩, .w1s)]⟩,
  ⟨0x60030, [], 32, [(⟨0, 15⟩, .rw), (⟨15, 1⟩, .rw)]⟩,
  ⟨0x60038, [], 32, [(⟨0, 24⟩, .rw)]⟩,
  ⟨0x60040, [], 32, [(⟨0, 7⟩, .wo), (⟨7, 1⟩, .wo)]⟩,
  ⟨0x60048, [], 64, [(⟨0, 48⟩, .rw)]⟩,
  ⟨0x60050, [(0x8, 4)], 64, [(⟨0, 64⟩, .rov)]⟩,
  ⟨0x60100, [(0x10, 80)], 32, [(⟨0, 1⟩, .rw), (⟨1, 8⟩, .rw), (⟨9, 1⟩, .rw), (⟨10, 1⟩, .rw), (⟨11, 1⟩, .w1g)]⟩,
  ⟨0x60108, [(0x10, 80)], 64, [(⟨0, 2⟩, .rov), (⟨2, 32⟩, .rov), (⟨34, 30⟩, .rov)]⟩]

def regTable6 : List RegDesc := [
  ⟨0x60600, [], 64, [(⟨0, 48⟩, .rov)]⟩,
  ⟨0x60608, [], 64, [(⟨0, 48⟩, .rov)]⟩,
  ⟨0x60610, [], 64, [(⟨0, 48⟩, .rov)]⟩,
  ⟨0x60618, [], 64, [(⟨0, 48⟩, .rov)]⟩,
  ⟨0x60620, [], 64, [(⟨0, 48⟩, .rov)]⟩,
  ⟨0x60628, [], 64, [(⟨0, 48⟩, .rov)]⟩,
  ⟨0x60630, [], 64, [(⟨0, 48⟩, .rov)]⟩,
  ⟨0x60638, [], 64, [(⟨0, 48⟩, .rov)]⟩,
  ⟨0x60640, [], 64, [(⟨0, 48⟩, .rov)]⟩,
  ⟨0x61000, [(0x10, 32)], 32, [(⟨0, 6⟩, .rw), (⟨6, 8⟩, .rw)]⟩,
  ⟨0x61008, [(0x10, 32)], 64, [(⟨0, 48⟩, .rov), (⟨48, 16⟩, .rov)]⟩,
  ⟨0x61400, [], 64, [(⟨0, 48⟩, .rw)]⟩,
  ⟨0x61408, [], 32, [(⟨0, 4⟩, .rw), (⟨4, 1⟩, .rw), (⟨5, 1⟩, .w1g)]⟩,
  ⟨0x61410, [], 32, [(⟨0, 32⟩, .rov)]⟩,
  ⟨0x100000, [], 32, [(⟨0, 1⟩, .rwl), (⟨1, 1⟩, .rwl), (⟨31, 1⟩, .w1s)]⟩,
  ⟨0x100008, [], 32, [(⟨0, 1⟩, .w1c), (⟨1, 1⟩, .w1c), (⟨2, 1⟩, .w1c), (⟨3, 1⟩, .w1c), (⟨4, 1⟩, .w1c), (⟨5, 1⟩, .w1c)]⟩,
  ⟨0x100010, [], 32, [(⟨0, 4⟩, .rw), (⟨4, 4⟩, .rw), (⟨8, 4⟩, .rw), (⟨12, 4⟩, .rw)]⟩,
  ⟨0x100018, [], 32, [(⟨0, 4⟩, .rwl), (⟨8, 8⟩, .rwl), (⟨31, 1⟩, .w1s)]⟩,
  ⟨0x100020, [], 32, [(⟨0, 15⟩, .wo), (⟨16, 2⟩, .wo)]⟩,
  ⟨0x100028, [], 32, [(⟨0, 15⟩, .rov)]⟩,
  ⟨0x100040, [], 64, [(⟨0, 48⟩, .rov)]⟩,
  ⟨0x100048, [], 64, [(⟨0, 48⟩, .rov)]⟩,
  ⟨0x100050, [], 64, [(⟨0, 48⟩, .rov)]⟩,
  ⟨0x100058, [], 64, [(⟨0, 48⟩, .rov)]⟩]

def regTable7 : List RegDesc := [
  ⟨0x100060, [], 64, [(⟨0, 48⟩, .rov)]⟩,
  ⟨0x100068, [], 64, [(⟨0, 48⟩, .rov)]⟩,
  ⟨0x100070, [], 64, [(⟨0, 48⟩, .rov)]⟩,
  ⟨0x100078, [], 64, [(⟨0, 48⟩, .rov)]⟩,
  ⟨0x100080, [], 64, [(⟨0, 48⟩, .rov)]⟩,
  ⟨0x100088, [], 64, [(⟨0, 48⟩, .rov)]⟩,
  ⟨0x100100, [(0x8, 6)], 32, [(⟨0, 3⟩, .rw), (⟨3, 2⟩, .rw)]⟩,
  ⟨0x100200, [], 64, [(⟨0, 48⟩, .rw)]⟩,
  ⟨0x100208, [], 64, [(⟨0, 4⟩, .rw), (⟨8, 24⟩, .rw), (⟨32, 1⟩, .rw)]⟩,
  ⟨0x100210, [], 64, [(⟨0, 32⟩, .rov)]⟩,
  ⟨0x101000, [(0x8, 384)], 64, [(⟨0, 64⟩, .rov)]⟩,
  ⟨0x110000, [(0x10000, 12)], 32, [(⟨0, 1⟩, .rw), (⟨1, 4⟩, .rwl), (⟨5, 1⟩, .rwl), (⟨6, 1⟩, .rwl), (⟨31, 1⟩, .w1s)]⟩,
  ⟨0x110008, [(0x10000, 12)], 32, [(⟨0, 3⟩, .rov), (⟨3, 4⟩, .rov), (⟨7, 4⟩, .rov), (⟨11, 2⟩, .rov), (⟨13, 4⟩, .rov), (⟨17, 1⟩, .rov), (⟨18, 1⟩, .rov), (⟨19, 1⟩, .w1c), (⟨20, 1⟩, .w1c), (⟨21, 1⟩, .w1c), (⟨22, 1⟩, .w1c), (⟨23, 1⟩, .w1c), (⟨24, 1⟩, .w1c)]⟩,
  ⟨0x110010, [(0x10000, 12)], 64, [(⟨0, 15⟩, .rov), (⟨16, 4⟩, .rov), (⟨24, 8⟩, .rov), (⟨32, 8⟩, .rov)]⟩,
  ⟨0x110018, [(0x10000, 12)], 64, [(⟨0, 16⟩, .rov), (⟨16, 16⟩, .rov)]⟩,
  ⟨0x110020, [(0x10000, 12)], 64, [(⟨0, 11⟩, .rov), (⟨11, 11⟩, .rov), (⟨32, 11⟩, .rov), (⟨43, 11⟩, .rov)]⟩,
  ⟨0x110028, [(0x10000, 12)], 64, [(⟨0, 2⟩, .rov), (⟨8, 8⟩, .rov), (⟨16, 8⟩, .rov), (⟨24, 4⟩, .rov), (⟨28, 1⟩, .rov)]⟩,
  ⟨0x110030, [(0x10000, 12)], 64, [(⟨0, 24⟩, .rw)]⟩,
  ⟨0x110040, [(0x10000, 12)], 64, [(⟨0, 48⟩, .rov)]⟩,
  ⟨0x110048, [(0x10000, 12)], 64, [(⟨0, 48⟩, .rov)]⟩,
  ⟨0x110050, [(0x10000, 12)], 64, [(⟨0, 48⟩, .rov)]⟩,
  ⟨0x110058, [(0x10000, 12)], 64, [(⟨0, 48⟩, .rov)]⟩,
  ⟨0x110060, [(0x10000, 12)], 64, [(⟨0, 48⟩, .rov)]⟩,
  ⟨0x110068, [(0x10000, 12)], 64, [(⟨0, 48⟩, .rov)]⟩]

def regTable8 : List RegDesc := [
  ⟨0x110070, [(0x10000, 12)], 64, [(⟨0, 48⟩, .rov)]⟩,
  ⟨0x110078, [(0x10000, 12)], 64, [(⟨0, 48⟩, .rov)]⟩,
  ⟨0x110080, [(0x10000, 12)], 64, [(⟨0, 48⟩, .rov)]⟩,
  ⟨0x110088, [(0x10000, 12)], 64, [(⟨0, 48⟩, .rov)]⟩,
  ⟨0x110090, [(0x10000, 12)], 64, [(⟨0, 48⟩, .rov)]⟩,
  ⟨0x110098, [(0x10000, 12)], 64, [(⟨0, 48⟩, .rov)]⟩,
  ⟨0x1100a0, [(0x10000, 12)], 64, [(⟨0, 48⟩, .rov)]⟩,
  ⟨0x1100a8, [(0x10000, 12)], 64, [(⟨0, 48⟩, .rov)]⟩,
  ⟨0x110100, [(0x10000, 12), (0x8, 11)], 64, [(⟨0, 48⟩, .rov)]⟩,
  ⟨0x110800, [], 32, [(⟨0, 18⟩, .rw), (⟨31, 1⟩, .w1c)]⟩,
  ⟨0x110808, [], 64, [(⟨0, 48⟩, .rov)]⟩,
  ⟨0x110900, [(0x10000, 12), (0x10, 16)], 32, [(⟨0, 6⟩, .rw), (⟨6, 8⟩, .rw)]⟩,
  ⟨0x110908, [(0x10000, 12), (0x10, 16)], 64, [(⟨0, 48⟩, .rov), (⟨48, 16⟩, .rov)]⟩,
  ⟨0x1e0000, [], 32, [(⟨0, 1⟩, .rwl), (⟨31, 1⟩, .w1s)]⟩,
  ⟨0x1e0008, [], 32, [(⟨0, 9⟩, .w1c)]⟩,
  ⟨0x1e0040, [], 64, [(⟨0, 48⟩, .rov)]⟩,
  ⟨0x1e0048, [], 64, [(⟨0, 48⟩, .rov)]⟩,
  ⟨0x1e0050, [], 64, [(⟨0, 48⟩, .rov)]⟩,
  ⟨0x1e0058, [], 64, [(⟨0, 48⟩, .rov)]⟩,
  ⟨0x1e0060, [], 64, [(⟨0, 48⟩, .rov)]⟩,
  ⟨0x1e0068, [], 64, [(⟨0, 48⟩, .rov)]⟩,
  ⟨0x1e0070, [], 64, [(⟨0, 48⟩, .rov)]⟩,
  ⟨0x1e0078, [], 64, [(⟨0, 48⟩, .rov)]⟩,
  ⟨0x1e0080, [], 64, [(⟨0, 48⟩, .rov)]⟩]

def regTable9 : List RegDesc := [
  ⟨0x1e0088, [], 64, [(⟨0, 48⟩, .rov)]⟩,
  ⟨0x1e0090, [], 64, [(⟨0, 48⟩, .rov)]⟩,
  ⟨0x1e0098, [], 64, [(⟨0, 48⟩, .rov)]⟩,
  ⟨0x1e00a0, [], 64, [(⟨0, 48⟩, .rov)]⟩,
  ⟨0x1e1000, [(0x10, 16)], 64, [(⟨0, 4⟩, .rov), (⟨4, 1⟩, .rov), (⟨5, 1⟩, .rov), (⟨6, 1⟩, .rov), (⟨8, 8⟩, .rov), (⟨16, 16⟩, .rov), (⟨32, 4⟩, .rov), (⟨36, 2⟩, .rov), (⟨40, 6⟩, .rov), (⟨48, 15⟩, .rov)]⟩,
  ⟨0x1e1008, [(0x10, 16)], 32, [(⟨0, 1⟩, .w1g)]⟩,
  ⟨0x200000, [(0x20000, 8)], 32, [(⟨0, 2⟩, .rwl), (⟨31, 1⟩, .w1s)]⟩,
  ⟨0x200008, [(0x20000, 8)], 32, [(⟨0, 1⟩, .w1c), (⟨1, 1⟩, .w1c)]⟩,
  ⟨0x200010, [(0x20000, 8)], 64, [(⟨0, 64⟩, .rov)]⟩,
  ⟨0x200018, [(0x20000, 8)], 64, [(⟨0, 64⟩, .rov)]⟩,
  ⟨0x200020, [(0x20000, 8)], 64, [(⟨0, 48⟩, .rov), (⟨48, 9⟩, .rov)]⟩,
  ⟨0x200040, [(0x20000, 8)], 64, [(⟨0, 48⟩, .rov)]⟩,
  ⟨0x200048, [(0x20000, 8)], 64, [(⟨0, 48⟩, .rov)]⟩,
  ⟨0x200050, [(0x20000, 8)], 64, [(⟨0, 48⟩, .rov)]⟩,
  ⟨0x210000, [], 32, [(⟨0, 9⟩, .rw), (⟨9, 1⟩, .w1g), (⟨10, 1⟩, .w1g)]⟩,
  ⟨0x210008, [], 32, [(⟨0, 1⟩, .rov), (⟨1, 1⟩, .w1c), (⟨4, 7⟩, .rov)]⟩,
  ⟨0x210010, [], 64, [(⟨0, 48⟩, .rov)]⟩,
  ⟨0x210018, [], 32, [(⟨0, 5⟩, .rwl), (⟨31, 1⟩, .w1s)]⟩,
  ⟨0x210020, [], 32, [(⟨0, 1⟩, .w1c), (⟨1, 1⟩, .w1c)]⟩,
  ⟨0x210040, [], 64, [(⟨0, 48⟩, .rov)]⟩,
  ⟨0x210048, [], 64, [(⟨0, 48⟩, .rov)]⟩,
  ⟨0x210050, [], 64, [(⟨0, 48⟩, .rov)]⟩,
  ⟨0x210058, [], 64, [(⟨0, 48⟩, .rov)]⟩,
  ⟨0x210100, [], 64, [(⟨0, 48⟩, .rwl)]⟩]

def regTable10 : List RegDesc := [
  ⟨0x210108, [], 64, [(⟨0, 48⟩, .rwl)]⟩,
  ⟨0x210110, [], 64, [(⟨0, 40⟩, .rwl), (⟨63, 1⟩, .w1s)]⟩,
  ⟨0x210118, [], 64, [(⟨0, 48⟩, .rwl)]⟩,
  ⟨0x210120, [], 64, [(⟨0, 40⟩, .rwl)]⟩,
  ⟨0x211000, [(0x1000, 4), (0x10, 256)], 64, [(⟨0, 48⟩, .rw), (⟨48, 1⟩, .rw), (⟨49, 1⟩, .rw), (⟨50, 1⟩, .rw), (⟨51, 1⟩, .rw), (⟨52, 2⟩, .rw), (⟨63, 1⟩, .rw)]⟩,
  ⟨0x211008, [(0x1000, 4), (0x10, 256)], 64, [(⟨0, 48⟩, .rw)]⟩,
  ⟨0x218000, [(0x40, 16)], 64, [(⟨0, 48⟩, .rw)]⟩,
  ⟨0x218008, [(0x40, 16)], 64, [(⟨0, 36⟩, .rw)]⟩,
  ⟨0x218010, [(0x40, 16)], 64, [(⟨0, 36⟩, .rw)]⟩,
  ⟨0x218018, [(0x40, 16)], 64, [(⟨0, 64⟩, .rw)]⟩,
  ⟨0x218020, [(0x40, 16)], 64, [(⟨0, 64⟩, .rw)]⟩,
  ⟨0x218028, [(0x40, 16)], 64, [(⟨0, 40⟩, .rw)]⟩,
  ⟨0x218030, [(0x40, 16)], 64, [(⟨0, 64⟩, .rw)]⟩,
  ⟨0x218038, [(0x40, 16)], 64, [(⟨0, 2⟩, .rw)]⟩,
  ⟨0x219000, [(0x200, 16), (0x8, 64)], 64, [(⟨0, 36⟩, .rov), (⟨36, 20⟩, .rov)]⟩,
  ⟨0x230000, [], 32, [(⟨0, 5⟩, .rwl), (⟨31, 1⟩, .w1s)]⟩,
  ⟨0x230008, [], 32, [(⟨0, 1⟩, .w1c), (⟨1, 1⟩, .w1c), (⟨2, 1⟩, .w1c), (⟨3, 1⟩, .w1c), (⟨4, 1⟩, .w1c), (⟨5, 1⟩, .w1c)]⟩,
  ⟨0x230040, [], 64, [(⟨0, 48⟩, .rov)]⟩,
  ⟨0x230048, [], 64, [(⟨0, 48⟩, .rov)]⟩,
  ⟨0x230050, [], 64, [(⟨0, 48⟩, .rov)]⟩,
  ⟨0x230058, [], 64, [(⟨0, 48⟩, .rov)]⟩,
  ⟨0x230060, [], 64, [(⟨0, 48⟩, .rov)]⟩,
  ⟨0x230068, [], 64, [(⟨0, 48⟩, .rov)]⟩,
  ⟨0x230070, [], 64, [(⟨0, 48⟩, .rov)]⟩]

def regTable11 : List RegDesc := [
  ⟨0x230078, [], 64, [(⟨0, 48⟩, .rov)]⟩,
  ⟨0x230080, [], 64, [(⟨0, 48⟩, .rov)]⟩,
  ⟨0x230088, [], 64, [(⟨0, 48⟩, .rov)]⟩,
  ⟨0x230090, [], 64, [(⟨0, 48⟩, .rov)]⟩,
  ⟨0x230098, [], 64, [(⟨0, 48⟩, .rov)]⟩,
  ⟨0x2300a0, [], 64, [(⟨0, 48⟩, .rov)]⟩,
  ⟨0x2300a8, [], 64, [(⟨0, 48⟩, .rov)]⟩,
  ⟨0x2300b0, [], 64, [(⟨0, 48⟩, .rov)]⟩,
  ⟨0x231000, [(0x20, 32)], 64, [(⟨0, 64⟩, .rov)]⟩,
  ⟨0x231008, [(0x20, 32)], 64, [(⟨0, 40⟩, .rov)]⟩,
  ⟨0x231010, [(0x20, 32)], 64, [(⟨0, 64⟩, .rov)]⟩,
  ⟨0x231018, [(0x20, 32)], 64, [(⟨0, 1⟩, .w1g)]⟩,
  ⟨0x232000, [(0x40, 4)], 64, [(⟨0, 2⟩, .rw), (⟨2, 1⟩, .rw), (⟨4, 4⟩, .rw), (⟨8, 6⟩, .rw)]⟩,
  ⟨0x232008, [(0x40, 4)], 64, [(⟨0, 48⟩, .rw)]⟩,
  ⟨0x232010, [(0x40, 4)], 64, [(⟨0, 36⟩, .rw)]⟩,
  ⟨0x233000, [], 32, [(⟨0, 3⟩, .wo), (⟨3, 2⟩, .wo)]⟩,
  ⟨0x233008, [], 64, [(⟨0, 64⟩, .rw)]⟩,
  ⟨0x233100, [(0x200, 4), (0x8, 64)], 64, [(⟨0, 3⟩, .rov), (⟨3, 1⟩, .rov), (⟨4, 4⟩, .rov), (⟨8, 32⟩, .rov)]⟩,
  ⟨0x250000, [], 32, [(⟨0, 6⟩, .rw), (⟨6, 8⟩, .rw), (⟨14, 1⟩, .rw)]⟩,
  ⟨0x250008, [(0x8, 2)], 64, [(⟨0, 3⟩, .rov), (⟨3, 1⟩, .rov), (⟨4, 1⟩, .rov), (⟨8, 40⟩, .rov)]⟩,
  ⟨0x250018, [], 32, [(⟨0, 1⟩, .rw), (⟨1, 6⟩, .rw), (⟨7, 8⟩, .rw), (⟨15, 1⟩, .rw), (⟨16, 1⟩, .w1g)]⟩,
  ⟨0x250020, [], 64, [(⟨0, 3⟩, .rov), (⟨3, 5⟩, .rov), (⟨8, 1⟩, .rov), (⟨9, 40⟩, .rov)]⟩,
  ⟨0x250028, [], 64, [(⟨0, 40⟩, .rov)]⟩,
  ⟨0x250030, [], 64, [(⟨0, 2⟩, .rov), (⟨8, 15⟩, .rov), (⟨24, 40⟩, .rov)]⟩]

def regTable12 : List RegDesc := [
  ⟨0x250038, [], 32, [(⟨0, 1⟩, .w1g), (⟨1, 1⟩, .rw), (⟨2, 1⟩, .w1g)]⟩,
  ⟨0x250040, [], 32, [(⟨0, 2⟩, .rov), (⟨2, 2⟩, .rov), (⟨4, 15⟩, .rov)]⟩,
  ⟨0x250048, [], 32, [(⟨0, 7⟩, .w1c)]⟩,
  ⟨0x250080, [], 64, [(⟨0, 48⟩, .rov)]⟩,
  ⟨0x250088, [], 64, [(⟨0, 48⟩, .rov)]⟩,
  ⟨0x250090, [], 64, [(⟨0, 48⟩, .rov)]⟩,
  ⟨0x250098, [], 64, [(⟨0, 48⟩, .rov)]⟩,
  ⟨0x2500a0, [], 64, [(⟨0, 48⟩, .rov)]⟩,
  ⟨0x2500a8, [], 64, [(⟨0, 48⟩, .rov)]⟩,
  ⟨0x2500b0, [], 64, [(⟨0, 48⟩, .rov)]⟩,
  ⟨0x2500b8, [], 64, [(⟨0, 48⟩, .rov)]⟩,
  ⟨0x2500c0, [], 64, [(⟨0, 48⟩, .rov)]⟩,
  ⟨0x2500c8, [], 64, [(⟨0, 48⟩, .rov)]⟩,
  ⟨0x2500d0, [], 64, [(⟨0, 48⟩, .rov)]⟩,
  ⟨0x2500d8, [], 64, [(⟨0, 48⟩, .rov)]⟩,
  ⟨0x250100, [(0x8, 16)], 64, [(⟨0, 40⟩, .rov)]⟩,
  ⟨0x250200, [], 64, [(⟨0, 48⟩, .rw)]⟩,
  ⟨0x250208, [], 64, [(⟨0, 16⟩, .rw), (⟨16, 1⟩, .w1g)]⟩,
  ⟨0x250210, [], 64, [(⟨0, 2⟩, .rov), (⟨4, 4⟩, .rov), (⟨8, 16⟩, .rov), (⟨24, 16⟩, .rov)]⟩,
  ⟨0x250400, [(0x40, 8)], 64, [(⟨0, 1⟩, .rw), (⟨1, 1⟩, .rw), (⟨2, 1⟩, .w1g), (⟨8, 24⟩, .rw), (⟨32, 32⟩, .rw)]⟩,
  ⟨0x250408, [(0x40, 8)], 64, [(⟨0, 48⟩, .rw)]⟩,
  ⟨0x250410, [(0x40, 8)], 64, [(⟨0, 40⟩, .rw)]⟩,
  ⟨0x250418, [(0x40, 8)], 64, [(⟨0, 64⟩, .rw)]⟩,
  ⟨0x250420, [(0x40, 8)], 64, [(⟨0, 2⟩, .rov), (⟨4, 3⟩, .rov), (⟨24, 40⟩, .rov)]⟩]

def regTable13 : List RegDesc := [
  ⟨0x250428, [(0x40, 8)], 64, [(⟨0, 40⟩, .rov)]⟩,
  ⟨0x250430, [(0x40, 8)], 64, [(⟨0, 64⟩, .rov)]⟩,
  ⟨0x250438, [(0x40, 8)], 64, [(⟨0, 64⟩, .rov)]⟩,
  ⟨0x250600, [(0x10, 8)], 64, [(⟨0, 64⟩, .rov)]⟩,
  ⟨0x250608, [(0x10, 8)], 64, [(⟨0, 64⟩, .rov)]⟩,
  ⟨0x400000, [(0x40000, 64)], 32, [(⟨0, 16⟩, .rwl), (⟨16, 1⟩, .rwl), (⟨31, 1⟩, .w1s)]⟩,
  ⟨0x400008, [(0x40000, 64)], 64, [(⟨0, 48⟩, .rw), (⟨48, 4⟩, .rov)]⟩,
  ⟨0x400010, [(0x40000, 64)], 32, [(⟨0, 1⟩, .w1c), (⟨1, 1⟩, .w1c), (⟨2, 1⟩, .w1c)]⟩,
  ⟨0x400018, [(0x40000, 64)], 64, [(⟨0, 48⟩, .rov)]⟩,
  ⟨0x400020, [(0x40000, 64)], 64, [(⟨0, 48⟩, .rov)]⟩,
  ⟨0x400028, [(0x40000, 64)], 64, [(⟨0, 48⟩, .rov)]⟩,
  ⟨0x401000, [(0x40000, 64), (0x800, 13)], 32, [(⟨0, 1⟩, .rw), (⟨1, 1⟩, .rov), (⟨2, 1⟩, .rov), (⟨3, 3⟩, .rov)]⟩,
  ⟨0x401008, [(0x40000, 64), (0x800, 13)], 64, [(⟨0, 8⟩, .rw), (⟨8, 1⟩, .rw), (⟨16, 8⟩, .rw), (⟨24, 1⟩, .rw), (⟨32, 8⟩, .rw), (⟨40, 1⟩, .rw), (⟨48, 8⟩, .rw), (⟨56, 1⟩, .rw)]⟩,
  ⟨0x401010, [(0x40000, 64), (0x800, 13)], 32, [(⟨0, 1⟩, .w1c), (⟨1, 1⟩, .w1c), (⟨2, 1⟩, .w1c), (⟨3, 1⟩, .w1c)]⟩,
  ⟨0x401040, [(0x40000, 64), (0x800, 13)], 64, [(⟨0, 48⟩, .rov)]⟩,
  ⟨0x401048, [(0x40000, 64), (0x800, 13)], 64, [(⟨0, 48⟩, .rov)]⟩,
  ⟨0x401050, [(0x40000, 64), (0x800, 13)], 64, [(⟨0, 48⟩, .rov)]⟩,
  ⟨0x401058, [(0x40000, 64), (0x800, 13)], 64, [(⟨0, 48⟩, .rov)]⟩,
  ⟨0x401060, [(0x40000, 64), (0x800, 13)], 64, [(⟨0, 48⟩, .rov)]⟩,
  ⟨0x401068, [(0x40000, 64), (0x800, 13)], 64, [(⟨0, 48⟩, .rov)]⟩,
  ⟨0x401070, [(0x40000, 64), (0x800, 13)], 64, [(⟨0, 48⟩, .rov)]⟩,
  ⟨0x401078, [(0x40000, 64), (0x800, 13)], 64, [(⟨0, 48⟩, .rov)]⟩,
  ⟨0x401080, [(0x40000, 64), (0x800, 13)], 64, [(⟨0, 48⟩, .rov)]⟩,
  ⟨0x401088, [(0x40000, 64), (0x800, 13)], 64, [(⟨0, 48⟩, .rov)]⟩]

def regTable14 : List RegDesc := [
  ⟨0x401090, [(0x40000, 64), (0x800, 13)], 64, [(⟨0, 48⟩, .rov)]⟩,
  ⟨0x401098, [(0x40000, 64), (0x800, 13)], 64, [(⟨0, 48⟩, .rov)]⟩,
  ⟨0x401100, [(0x40000, 64), (0x800, 13), (0x8, 16)], 64, [(⟨0, 64⟩, .rov)]⟩,
  ⟨0x408000, [(0x40000, 64)], 32, [(⟨0, 4⟩, .rwl), (⟨31, 1⟩, .w1s)]⟩,
  ⟨0x408010, [(0x40000, 64)], 32, [(⟨0, 1⟩, .w1c), (⟨1, 1⟩, .w1c), (⟨2, 1⟩, .w1c), (⟨3, 1⟩, .w1c), (⟨4, 1⟩, .w1c)]⟩,
  ⟨0x408018, [(0x40000, 64)], 64, [(⟨0, 48⟩, .rov)]⟩,
  ⟨0x408020, [(0x40000, 64)], 64, [(⟨0, 48⟩, .rov)]⟩,
  ⟨0x408028, [(0x40000, 64)], 64, [(⟨0, 48⟩, .rov)]⟩,
  ⟨0x408030, [(0x40000, 64)], 64, [(⟨0, 48⟩, .rov)]⟩,
  ⟨0x408038, [(0x40000, 64)], 64, [(⟨0, 48⟩, .rov)]⟩,
  ⟨0x408040, [(0x40000, 64)], 64, [(⟨0, 48⟩, .rov)]⟩,
  ⟨0x408048, [(0x40000, 64)], 64, [(⟨0, 48⟩, .rov)]⟩,
  ⟨0x408050, [(0x40000, 64)], 64, [(⟨0, 48⟩, .rov)]⟩,
  ⟨0x409000, [(0x40000, 64), (0x10, 8)], 32, [(⟨0, 6⟩, .rw), (⟨6, 8⟩, .rw)]⟩,
  ⟨0x409008, [(0x40000, 64), (0x10, 8)], 64, [(⟨0, 48⟩, .rov), (⟨48, 16⟩, .rov)]⟩,
  ⟨0x410000, [(0x40000, 64)], 32, [(⟨0, 1⟩, .w1s), (⟨1, 1⟩, .w1s), (⟨2, 1⟩, .w1s), (⟨4, 2⟩, .wo)]⟩,
  ⟨0x410008, [(0x40000, 64)], 32, [(⟨0, 3⟩, .rov), (⟨3, 2⟩, .rov), (⟨5, 2⟩, .rov), (⟨7, 1⟩, .rov), (⟨8, 4⟩, .rov), (⟨12, 4⟩, .rov), (⟨16, 1⟩, .w1c), (⟨17, 1⟩, .w1c)]⟩,
  ⟨0x410010, [(0x40000, 64)], 64, [(⟨0, 64⟩, .rov)]⟩,
  ⟨0x410018, [(0x40000, 64)], 64, [(⟨0, 48⟩, .rov)]⟩,
  ⟨0x410020, [(0x40000, 64)], 64, [(⟨0, 48⟩, .rov)]⟩,
  ⟨0x410028, [(0x40000, 64)], 64, [(⟨0, 48⟩, .rov)]⟩,
  ⟨0x410030, [(0x40000, 64)], 64, [(⟨0, 48⟩, .rov)]⟩,
  ⟨0x410038, [(0x40000, 64)], 64, [(⟨0, 48⟩, .rw)]⟩,
  ⟨0x410040, [(0x40000, 64), (0x20, 3), (0x10, 2)], 64, [(⟨0, 48⟩, .rov)]⟩]

def regTable15 : List RegDesc := [
  ⟨0x410048, [(0x40000, 64), (0x20, 3), (0x10, 2)], 64, [(⟨0, 40⟩, .rov)]⟩,
  ⟨0x410100, [(0x40000, 64), (0x40, 4), (0x8, 8)], 64, [(⟨0, 64⟩, .rov)]⟩,
  ⟨0x411000, [(0x40000, 64), (0x8, 256)], 64, [(⟨0, 24⟩, .rov), (⟨24, 16⟩, .rov), (⟨40, 3⟩, .rov), (⟨48, 8⟩, .rov)]⟩,
  ⟨0x438000, [(0x40000, 64), (0x10, 64)], 64, [(⟨0, 64⟩, .rw)]⟩,
  ⟨0x438008, [(0x40000, 64), (0x10, 64)], 64, [(⟨0, 4⟩, .rw), (⟨4, 1⟩, .rov), (⟨5, 1⟩, .rov), (⟨16, 16⟩, .rw), (⟨32, 16⟩, .rw)]⟩,
  ⟨0x1800000, [(0x100, 2)], 32, [(⟨0, 1⟩, .rw), (⟨1, 1⟩, .rwl), (⟨2, 1⟩, .rw), (⟨3, 12⟩, .rw), (⟨31, 1⟩, .w1s)]⟩,
  ⟨0x1800008, [(0x100, 2)], 64, [(⟨0, 48⟩, .rw)]⟩,
  ⟨0x1800010, [(0x100, 2)], 64, [(⟨0, 64⟩, .rw)]⟩,
  ⟨0x1800018, [(0x100, 2)], 64, [(⟨0, 64⟩, .rw)]⟩,
  ⟨0x1800020, [(0x100, 2)], 32, [(⟨0, 32⟩, .rw)]⟩,
  ⟨0x1800028, [(0x100, 2)], 32, [(⟨0, 1⟩, .rov), (⟨1, 1⟩, .w1c), (⟨2, 1⟩, .w1c)]⟩,
  ⟨0x1800040, [(0x100, 2)], 64, [(⟨0, 48⟩, .rov)]⟩,
  ⟨0x1800048, [(0x100, 2)], 64, [(⟨0, 48⟩, .rov)]⟩,
  ⟨0x1800200, [], 64, [(⟨0, 8⟩, .rw), (⟨8, 12⟩, .rw), (⟨20, 12⟩, .rw), (⟨32, 12⟩, .rw)]⟩,
  ⟨0x1800208, [], 32, [(⟨0, 32⟩, .ro)]⟩,
  ⟨0x1800210, [], 32, [(⟨0, 1⟩, .w1c)]⟩,
  ⟨0x1800218, [], 64, [(⟨0, 48⟩, .rov)]⟩,
  ⟨0x1800220, [], 64, [(⟨0, 48⟩, .rov)]⟩,
  ⟨0x1801000, [(0x10, 1024)], 64, [(⟨0, 48⟩, .rw)]⟩,
  ⟨0x1801008, [(0x10, 1024)], 64, [(⟨0, 40⟩, .rw), (⟨40, 1⟩, .rw), (⟨41, 1⟩, .rw), (⟨42, 2⟩, .rw), (⟨44, 20⟩, .rov)]⟩,
  ⟨0x1805000, [(0x8, 4096)], 64, [(⟨0, 3⟩, .rov), (⟨3, 1⟩, .rov), (⟨4, 2⟩, .rov)]⟩]

/-- Every register of the index R568 and R569, with the fields of its own chapter. -/
def regTable : List RegDesc :=
  regTable0 ++ regTable1 ++ regTable2 ++ regTable3 ++ regTable4 ++ regTable5 ++ regTable6 ++ regTable7 ++ regTable8 ++ regTable9 ++ regTable10 ++ regTable11 ++ regTable12 ++ regTable13 ++ regTable14 ++ regTable15

/-- Whether `off` is an instance of a register family: peel one index after another. -/
def dimsHit : List (Nat × Nat) → Nat → Bool
  | [], off => off == 0
  | (stride, count) :: rest, off => decide (off / stride < count) && dimsHit rest (off % stride)

/-- Whether the 8-byte slot at BAR0 offset `off` is a register of the family (R562). -/
def RegDesc.hit (d : RegDesc) (off : Nat) : Bool := decide (d.base ≤ off) && dimsHit d.dims (off - d.base)

/-- The register at a BAR0 offset; none where the offset is unpopulated (R562, R564). -/
def regAt (off : Nat) : Option RegDesc := regTable.find? (·.hit off)

/-- Registers whose reset value is not 0 (the Reset columns of the field tables; R565), BAR0 offsets 0x0 up. -/
def resetTableLow : List (RegDesc × BitVec 64) := [
  (⟨0x0, [], 32, []⟩, 0x102400#64),
  (⟨0x8000, [], 32, []⟩, 0xe100148#64),
  (⟨0x8108, [(0x10, 16)], 32, []⟩, 0x10064#64),
  (⟨0x10010, [], 32, []⟩, 0x10001#64),
  (⟨0x10118, [(0x40, 2)], 32, []⟩, 0x3e8#64),
  (⟨0x20000, [], 32, []⟩, 0x1#64),
  (⟨0x50000, [], 32, []⟩, 0x40#64),
  (⟨0x50010, [], 64, []⟩, 0x3840960#64),
  (⟨0x50018, [], 64, []⟩, 0x9608421a0#64),
  (⟨0x50028, [], 64, []⟩, 0x35a#64),
  (⟨0x50030, [], 64, []⟩, 0x28#64),
  (⟨0x50038, [], 64, []⟩, 0x40#64),
  (⟨0x50100, [(0x8, 16)], 64, []⟩, 0x1a09606412c0960#64),
  (⟨0x50380, [(0x8, 5)], 64, []⟩, 0x1000#64),
  (⟨0x50800, [], 64, []⟩, 0x645c7364#64),
  (⟨0x50810, [], 64, []⟩, 0x960#64),
  (⟨0x60000, [], 32, []⟩, 0x64000#64),
  (⟨0x60028, [], 32, []⟩, 0x6#64),
  (⟨0x60038, [], 32, []⟩, 0x2710#64),
  (⟨0x60100, [(0x10, 80)], 32, []⟩, 0x481#64)]

/-- Registers whose reset value is not 0 (the Reset columns of the field tables; R565), BAR0 offsets 0x100000 up. -/
def resetTableMid : List (RegDesc × BitVec 64) := [
  (⟨0x100000, [], 32, []⟩, 0x3#64),
  (⟨0x100010, [], 32, []⟩, 0x1284#64),
  (⟨0x100018, [], 32, []⟩, 0x4006#64),
  (⟨0x100208, [], 64, []⟩, 0x271000#64),
  (⟨0x110000, [(0x10000, 12)], 32, []⟩, 0x70#64),
  (⟨0x110008, [(0x10000, 12)], 32, []⟩, 0x1800#64),
  (⟨0x110030, [(0x10000, 12)], 64, []⟩, 0x10000#64),
  (⟨0x110800, [], 32, []⟩, 0x2c688#64),
  (⟨0x1e0000, [], 32, []⟩, 0x1#64),
  (⟨0x210010, [], 64, []⟩, 0xc000000000#64),
  (⟨0x210018, [], 32, []⟩, 0x4#64),
  (⟨0x218038, [(0x40, 16)], 64, []⟩, 0x1#64),
  (⟨0x230000, [], 32, []⟩, 0x4#64),
  (⟨0x232000, [(0x40, 4)], 64, []⟩, 0x2010#64),
  (⟨0x250038, [], 32, []⟩, 0x2#64)]

/-- Registers whose reset value is not 0 (the Reset columns of the field tables; R565), BAR0 offsets 0x400000 up. -/
def resetTableClu : List (RegDesc × BitVec 64) := [
  (⟨0x400000, [(0x40000, 64)], 32, []⟩, 0x10100#64),
  (⟨0x400008, [(0x40000, 64)], 64, []⟩, 0xcba9876543210#64),
  (⟨0x401000, [(0x40000, 64), (0x800, 13)], 32, []⟩, 0x4#64),
  (⟨0x408000, [(0x40000, 64)], 32, []⟩, 0x4#64),
  (⟨0x411000, [(0x40000, 64), (0x8, 256)], 64, []⟩, 0x70001000000#64)]

/-- Registers whose reset value is not 0 (the Reset columns of the field tables; R565), BAR0 offsets 0x1400000 up. -/
def resetTableSvc : List (RegDesc × BitVec 64) := [
  (⟨0x1800200, [], 64, []⟩, 0x64190028c0#64),
  (⟨0x1800208, [], 32, []⟩, 0x10001#64)]

/-- The value of the first family of a reset table that holds the offset; 0 where none does. -/
def resetIn (t : List (RegDesc × BitVec 64)) (off : Nat) : BitVec 64 :=
  match t.find? (fun r => r.1.hit off) with
  | some r => r.2
  | none => 0

/-- What a register nothing has written reads as: its reset value (R565; 0 where the spec gives none, and where
the spec names a trim, identity, strap or board value it is 0 until the boot stage that loads it). RNK_LMAP holds the
identity map (R96) and MOV_TEN_CTL_0 has EN set (R277). -/
def regReset (off : Nat) : BitVec 64 :=
  if off < 0x100000 then resetIn resetTableLow off
  else if off < 0x400000 then
    (if off = Reg.MOV_TEN_CTL 0 then 0x2014 else resetIn resetTableMid off)
  else if off < 0x1400000 then
    let o := off % 0x40000
    let q := (o - 0x1000) % 0x800
    if 0x1000 ≤ o ∧ o < 0x7800 ∧ 0x100 ≤ q ∧ q < 0x180 ∧ q % 8 = 0 then
      BitVec.ofNat 64 (0x0706050403020100 + (q - 0x100) / 8 * 0x0808080808080808)
    else resetIn resetTableClu off
  else resetIn resetTableSvc off

end Sys2Proof
end

