-- ==== Sys2Proof/Machine/Ops.lean ====
section
/-!
DEFINITION. The named operations every meaning is written with: sparse tables, registers and their fields, counters and flags,
the address map and memory with its detection codes and parity, region checks, trace records, notices, and what a detected
error does.
-/
namespace Sys2Proof

/-! ### Sparse tables in canonical form -/

/-- The value at a key; `d` where none is listed. -/
def Tab.get {α : Type} (d : α) : Tab α → Nat → α
  | [], _ => d
  | (k, v) :: rest, i => if i = k then v else Tab.get d rest i

/-- Remove a key, wherever it stands. -/
def Tab.erase {α : Type} : Tab α → Nat → Tab α
  | [], _ => []
  | (k, v) :: rest, i => if i = k then Tab.erase rest i else (k, v) :: Tab.erase rest i

/-- Insert or replace a key, the keys staying in rising order. -/
def Tab.put {α : Type} : Tab α → Nat → α → Tab α
  | [], i, x => [(i, x)]
  | (k, v) :: rest, i, x =>
    if i = k then (k, x) :: rest
    else if i < k then (i, x) :: (k, v) :: rest
    else (k, v) :: Tab.put rest i x

/-- Write a value; the value an unlisted key reads as removes the entry. -/
def Tab.set {α : Type} [DecidableEq α] (d : α) (t : Tab α) (i : Nat) (x : α) : Tab α :=
  if x = d then t.erase i else t.put i x

/-- The canonical form: keys strictly rising above `lo`, no entry equal to the default of its key. -/
def Tab.wfFrom {α : Type} [DecidableEq α] (d : Nat → α) : Option Nat → Tab α → Bool
  | _, [] => true
  | lo, (k, v) :: rest =>
    (match lo with | none => true | some l => decide (l < k)) && decide (v ≠ d k) && Tab.wfFrom d (some k) rest

def Tab.wf {α : Type} [DecidableEq α] (d : Nat → α) (t : Tab α) : Bool := Tab.wfFrom d none t

namespace Machine

/-! ### Registers (R6, R562 to R566) -/

/-- The register at a BAR0 offset. -/
def State.rd (s : State) (off : Nat) : BitVec 64 := s.regs.get (regReset off) off

/-- Write a register whole. -/
def State.wr (s : State) (off : Nat) (v : BitVec 64) : State := { s with regs := s.regs.set (regReset off) off v }

/-- A field of a register. -/
def State.fld (s : State) (off : Nat) (f : Field) : Nat := (s.rd off).toNat / 2 ^ f.lo % 2 ^ f.width

/-- A word with one field replaced; the value is taken modulo the field's width. -/
def putField (w : BitVec 64) (f : Field) (n : Nat) : BitVec 64 :=
  let mask := BitVec.ofNat 64 ((2 ^ f.width - 1) * 2 ^ f.lo)
  (w &&& ~~~mask) ||| BitVec.ofNat 64 (n % 2 ^ f.width * 2 ^ f.lo)

def State.setFld (s : State) (off : Nat) (f : Field) (n : Nat) : State := s.wr off (putField (s.rd off) f n)

def getField (w : BitVec 64) (f : Field) : Nat := w.toNat / 2 ^ f.lo % 2 ^ f.width

/-- A 48-bit event counter rises by `n`. -/
def State.cntBy (s : State) (off n : Nat) : State := s.setFld off Fld.COUNT (s.fld off Fld.COUNT + n)
def State.cnt (s : State) (off : Nat) : State := s.cntBy off 1

/-- A status flag is set and its companion counter increments (R6). -/
def State.event (s : State) (stat : Nat) (f : Field) (ctr : Nat) : State := (s.setFld stat f 1).cnt ctr

/-- A bit of a register that holds an array of flags. -/
def bitField (i : Nat) : Field := ⟨i, 1⟩

/-! ### Selected event counters (R487 to R490) -/

/-- One selected counter counts `n` when its SRC and FILTER name the event; a count that passes 2^48 − 1 raises WRAPS. -/
def State.countOne (s : State) (sel cntr src filt n : Nat) : State :=
  if s.fld sel Fld.CNT_GLB_SEL_SRC = src ∧ src ≠ 0 ∧
      (s.fld sel Fld.CNT_GLB_SEL_FILTER = 0 ∨ filt = 0 ∨ s.fld sel Fld.CNT_GLB_SEL_FILTER = filt) then
    let v := s.fld cntr Fld.CNT_GLB_COUNT + n
    (s.setFld cntr Fld.CNT_GLB_COUNT v).setFld cntr Fld.CNT_GLB_WRAPS (s.fld cntr Fld.CNT_GLB_WRAPS + v / 2 ^ 48)
  else s

/-- A global event (R490); `filt` 0 where the source has no filter. -/
def State.bumpGlb (s : State) (src filt n : Nat) : State :=
  (List.range 32).foldl (fun s g => s.countOne (Reg.CNT_GLB_SEL g) (Reg.CNT_GLB g) src filt n) s

/-- A cluster event (R488). -/
def State.bumpClu (s : State) (c src filt n : Nat) : State :=
  (List.range 8).foldl (fun s j => s.countOne (Reg.CNT_CLU_SEL c j) (Reg.CNT_CLU c j) src filt n) s

/-- A port event (R489). -/
def State.bumpPrt (s : State) (p src filt n : Nat) : State :=
  (List.range 16).foldl (fun s j => s.countOne (Reg.CNT_PRT_SEL p j) (Reg.CNT_PRT p j) src filt n) s

/-- The core and fabric clocks stand and the transmitters are off: THERMTRIP_N is asserted, or PWROK is low (R435, R576). HBM is then
in self-refresh, or unpowered. -/
def State.stopped (s : State) : Bool := s.pw.tripOut || !s.tr.powered

/-! ### Activity (R420, R437) -/

/-- `n` more of activity source `i` in the running estimator period, caused by tenant `t`. -/
def State.spendBy (s : State) (t i n : Nat) : State :=
  { s with pw := { s.pw with acts := s.pw.acts.set 0 (t * 16 + i) (s.pw.acts.get 0 (t * 16 + i) + n) } }

/-- The accesses that follow are for tenant `t`. -/
def State.onBehalf (s : State) (t : Nat) : State := { s with pw := { s.pw with who := t } }

/-- Activity of the tenant that the present access is for. -/
def State.spend (s : State) (i n : Nat) : State := s.spendBy s.pw.who i n

/-! ### Unit records -/

def State.cl (s : State) (c : Nat) : Cluster := s.clu.get {} c
def State.setCl (s : State) (c : Nat) (x : Cluster) : State := { s with clu := s.clu.set {} c x }
def State.modCl (s : State) (c : Nat) (f : Cluster → Cluster) : State := s.setCl c (f (s.cl c))

/-- The rank record of physical rank `r` of cluster `c`. -/
def State.rk (s : State) (c r : Nat) : Rank := s.rank.get {} (c * 16 + r)
def State.setRk (s : State) (c r : Nat) (x : Rank) : State := { s with rank := s.rank.set {} (c * 16 + r) x }

def State.say (s : State) (m : Msg) : State := { s with out := s.out ++ [m] }

/-- CAD_TSC as a number. -/
def State.now (s : State) : Nat := (s.rd Reg.CAD_TSC).toNat

/-- This chip's number (R8), from the board identity. -/
def State.chip (s : State) : Nat := s.fld Reg.IDM_BOARD0 Fld.IDM_BOARD0_CHIP

/-- A fresh free value: the counter of State advances, nothing constrains the value. -/
def State.free (s : State) : BitVec 64 × State := (Config.freeValue s.freeIx, { s with freeIx := s.freeIx + 1 })

/-! ### Device physical addresses (R210) -/

/-- What a device physical address names. -/
inductive Place where
  | hbm
  | stage (c off : Nat)
  | reg (off : Nat)
  | host (port off : Nat)
  | none
  deriving DecidableEq, Repr

def State.memTop (s : State) : Nat := s.fld Reg.MEM_TOP Fld.MEM_TOP_TOP

def stageBase (c : Nat) : Nat := 0x10000000000 + c * 0x800000
def stageSize : Nat := 0x600000

def State.place (s : State) (a : Nat) : Place :=
  if a < s.memTop then .hbm
  else if 0x10000000000 ≤ a ∧ a < 0x10000000000 + 64 * 0x800000 then
    let o := a - 0x10000000000
    if o % 0x800000 < stageSize then .stage (o / 0x800000) (o % 0x800000) else .none
  else if 0x20000000000 ≤ a ∧ a < 0x20004000000 then .reg (a - 0x20000000000)
  else if 0x40000000000 ≤ a ∧ a < 0x50000000000 then .host 0 (a - 0x40000000000)
  else if 0x50000000000 ≤ a ∧ a < 0x60000000000 then .host 1 (a - 0x50000000000)
  else .none

/-- The range lies within one populated range of R210. -/
def State.onePlace (s : State) (a n : Nat) : Bool :=
  match s.place a, s.place (a + n - 1) with
  | .hbm, .hbm => true
  | .stage c _, .stage d _ => c == d
  | .reg _, .reg _ => true
  | .host p _, .host q _ => p == q
  | _, _ => false

/-- The range lies wholly in the stage memory of cluster `c`. -/
def inStage (c a n : Nat) : Bool :=
  decide (stageBase c ≤ a) && decide (a + n ≤ stageBase c + stageSize)

/-! ### Where HBM data lives (R214, R215, R220, R222) -/

/-- The retired pseudo-channels X in ascending order. -/
def State.retired (s : State) : List Nat :=
  if s.fld Reg.MEM_REMAP_STATUS Fld.MEM_REMAP_STATUS_J = 0 then []
  else (List.range 512).filter (fun p => s.fld (Reg.MEM_PC_RETIRED (p % 8)) (bitField (p / 8)) == 1)

/-- `hbm_locate` of R215: the pseudo-channel and the offset within it, for a retired set given in ascending order. -/
def hbmLocate (x : List Nat) (dpa : Nat) : Nat × Nat :=
  let g := dpa / 4096
  let r := g / 512
  let h := (r % 512) ^^^ (r / 512 % 512) ^^^ (r / 2 ^ 18 * 0x155)
  let p := (g % 512) ^^^ h
  if x.contains p then
    let j := x.length
    let i := (x.filter (· < p)).length
    let m := r * j + i
    let hr := 393215 - m / (512 - j)
    let hp := ((List.range 512).filter (fun q => !x.contains q)).getD (m % (512 - j)) 0
    (hp, hr * 4096 + dpa % 4096)
  else (p, r * 4096 + dpa % 4096)

def State.withheld (s : State) (p : Nat) : Bool :=
  s.fld (Reg.MEM_PC_WITHHELD (p % 8)) (bitField (p / 8)) == 1

/-- Whether a commit lost the granule of a burst and nothing has rewritten the burst since (R222). -/
def Commit.lost (k : Commit) (burst : Nat) : Bool :=
  (hbmLocate k.before (burst * 64)).1 == k.pc && !k.healed.contains burst

/-- The detection code of a burst (R216): over its 64 data bytes and then DPA bits 39:6 as 5 bytes. -/
def burstCode (burst : Nat) (data : List Byte) : BitVec 32 := crc32c (data ++ leBytes 5 (burst % 2 ^ 34))

/-- Whether the detection code of a burst fails (R216, R222). -/
def State.burstBad (s : State) (burst : Nat) : Bool :=
  s.codeErr.get 0 burst != 0 || s.commits.any (·.lost burst)

/-- A whole burst is written: its code is right again. -/
def State.healBurst (s : State) (burst : Nat) : State :=
  { s with
    codeErr := s.codeErr.set 0 burst 0
    commits := s.commits.map (fun k => if k.lost burst then { k with healed := k.healed ++ [burst] } else k) }

/-! ### Trace rings (R473 to R479) -/

/-- PEER of a trace record (R474). -/
def peerWord (chip clu kind pc seq : Nat) : BitVec 64 :=
  BitVec.ofNat 64 (chip % 2 ^ 15 + clu % 64 * 2 ^ 15 + kind % 8 * 2 ^ 21 + pc % 2 ^ 24 * 2 ^ 24 + seq % 2 ^ 16 * 2 ^ 48)

def State.ringState (s : State) (u : Nat) : Nat := s.fld (Reg.TRC_RING_STAT u) Fld.TRC_RING_STAT_STATE

def State.ring (s : State) (u : Nat) : Ring := s.rings.get {} u
def State.setRing (s : State) (u : Nat) (r : Ring) : State := { s with rings := s.rings.set {} u r }

/-- A ring loses one record (R484). -/
def State.ringLose (s : State) (u : Nat) (tsc cpos : BitVec 64) : State :=
  let r := s.ring u
  let r := if r.lost = 0 then { r with firstTsc := tsc, firstCpos := cpos } else r
  let s := s.setRing u { r with lost := r.lost + 1, lastTsc := tsc }
  let s := s.setFld (Reg.TRC_RING_STAT u) Fld.TRC_RING_STAT_LOST (s.fld (Reg.TRC_RING_STAT u) Fld.TRC_RING_STAT_LOST + 1)
  (s.event Reg.TRC_STATUS Fld.TRC_STATUS_LOST Reg.TRC_LOST_CNT).bumpGlb 0x0E 0 1

/-- A ring takes one record: the oldest is overwritten; a ring that counts POST comes nearer its freeze (R473, R478). -/
def State.ringPut (s : State) (rec : TraceRec) : State :=
  let u := rec.unit
  if s.fld (Reg.TRC_RING_CTL u) Fld.TRC_RING_CTL_EN = 0 then s
  else if 2 ≤ s.ringState u ∨ (s.ringState u = 1 ∧ (s.ring u).post = 0) then s.ringLose u rec.tsc rec.cpos
  else
    let r := s.ring u
    let s := match r.recs with
      | old :: _ => if r.recs.length = 256 ∧ r.undrained = 256 then s.ringLose u old.tsc old.cpos else s
      | [] => s
    let r := s.ring u
    let keep := if r.recs.length = 256 then r.recs.drop 1 else r.recs
    let post := if s.ringState u = 1 then r.post - 1 else r.post
    let s := s.setRing u { r with recs := keep ++ [rec], undrained := min 256 (r.undrained + 1), post := post }
    let s := s.setFld (Reg.TRC_RING_STAT u) Fld.TRC_RING_STAT_WRITTEN
      (s.fld (Reg.TRC_RING_STAT u) Fld.TRC_RING_STAT_WRITTEN + 1)
    if u < 64 then s.bumpClu u 0x14 0 1 else s

/-- An event of a unit is recorded (R474, R475). -/
def State.trace (s : State) (u ev obj dur : Nat) (peer : BitVec 64) : State :=
  s.ringPut { tsc := s.rd Reg.CAD_TSC, cpos := s.rd Reg.CAD_POS, event := ev, unit := u,
              obj := obj % 2 ^ 16, dur := min dur (2 ^ 32 - 1), peer := peer }

/-- One ring is triggered: its TRIGGER record, then POST more (R478). A ring counting POST or frozen ignores it. -/
def State.triggerRing (s : State) (u source : Nat) : State :=
  if s.fld (Reg.TRC_RING_CTL u) Fld.TRC_RING_CTL_EN = 0 then s
  else if s.ringState u ≠ 0 then s
  else
    let s := s.trace u 0x17 source 0 0
    let s := s.setFld (Reg.TRC_RING_STAT u) Fld.TRC_RING_STAT_STATE 1
    let r := s.ring u
    s.setRing u { r with post := s.fld (Reg.TRC_RING_CTL u) Fld.TRC_RING_CTL_POST }

/-- A trigger (R478): of the unit's ring, or with SCOPE = 1 of every enabled ring. -/
def State.trigger (s : State) (u source : Nat) : State :=
  let s := s.event Reg.TRC_STATUS Fld.TRC_STATUS_TRIG Reg.TRC_TRIG_CNT
  if s.fld Reg.TRC_CTL Fld.TRC_CTL_SCOPE = 1 then (List.range 80).foldl (fun s v => s.triggerRing v source) s
  else s.triggerRing u source

/-! ### Event queues and notices (R512) -/

/-- The port of the host a tenant's PATH names; none where it names no host. -/
def State.hostPort (s : State) (t : Nat) : Option Nat :=
  match s.fld (Reg.MOV_TEN_CTL t) Fld.MOV_TEN_CTL_PATH with
  | 1 => some 0
  | 2 => some 1
  | _ => none

/-- An entry of tenant `t`'s event queue is written, or counted as lost where the queue is full; T0's events go to the
keeper (R512). -/
def State.evq (s : State) (t type cluster info : Nat) : State :=
  if t = 0 then s.say (.keeper type cluster info)
  else if s.fld (Reg.HIF_EVQ_CTL (t - 1)) Fld.HIF_EVQ_CTL_EN = 0 then s
  else
    match s.hostPort t with
    | none => s
    | some port =>
      let n := s.fld (Reg.HIF_EVQ_CTL (t - 1)) Fld.HIF_EVQ_CTL_N
      let idx := s.fld (Reg.HIF_EVQ_IDX (t - 1)) Fld.HIF_EVQ_IDX_IDX
      let used := s.evqUsed.get 0 t
      if 2 ^ n ≤ used then
        { s with evqLost := s.evqLost.set 0 t (s.evqLost.get 0 t + 1) }.event Reg.HIF_STATUS Fld.HIF_STATUS_EVQ_LOST
          Reg.HIF_EVQ_LOST_CNT
      else
        let base := s.fld (Reg.HIF_EVQ_BASE (t - 1)) ⟨6, 58⟩ * 64
        let bytes := leBytes 4 (type % 256 + (idx / 2 ^ n + 1) % 2 * 2 ^ 8 + cluster % 256 * 2 ^ 16)
          ++ leBytes 4 info ++ leBytes 8 (s.rd Reg.CAD_POS).toNat
        let s := { s with evqUsed := s.evqUsed.set 0 t (used + 1) }
        let s := s.setFld (Reg.HIF_EVQ_IDX (t - 1)) Fld.HIF_EVQ_IDX_IDX (idx + 1)
        (s.say (.hostWrite port (base + idx % 2 ^ n * 16) bytes)).say
          (.msix port (s.fld (Reg.HIF_EVQ_CTL (t - 1)) Fld.HIF_EVQ_CTL_VECTOR))

/-- The keeper is notified. -/
def State.tellKeeper (s : State) (code a b : Nat) : State := s.say (.keeper code a b)

/-! ### Unit states and detected errors (R445 to R466) -/

/-- UNIT_ID of R460. -/
def unitId (kind index : Nat) : Nat := kind * 2 ^ 28 + index

def State.unitOf (s : State) (u : Nat) : UnitRec := s.units.get {} u
def State.setUnit (s : State) (u : Nat) (r : UnitRec) : State := { s with units := s.units.set {} u r }

/-- The cluster whose test engine tests a unit; none for units outside the clusters (R453, R460). -/
def unitCluster (u : Nat) : Option Nat :=
  match u / 2 ^ 28 with
  | 1 => some (u % 64)
  | 2 => some (u % 2 ^ 28 / 16)
  | 3 => some (u % 2 ^ 28 / 4096)
  | 4 => some (u % 64)
  | 5 => some (u % 64)
  | 6 => some (u % 2 ^ 28 / 64)
  | _ => none

/-- The unit the test engine tests when a unit is charged: a lane is tested with its rank. -/
def testedUnit (u : Nat) : Nat := if u / 2 ^ 28 = 3 then unitId 2 (u % 2 ^ 28 / 256) else u

/-! ### HBM detection and stage parity (R216 to R218, R225) -/

/-- A detected HBM error: MEM_ERR_ADDR, DET and its counter, and MEM_WHELD_CNT where the pseudo-channel is withheld (R217,
R220). -/
def State.hbmDetect (s : State) (dpa : Nat) : State :=
  let p := (hbmLocate s.retired dpa).1
  let st := p % 8
  let s := s.wr (Reg.MEM_ERR_ADDR st) (BitVec.ofNat 64 (dpa / 64 * 64 % 2 ^ 48 + p * 2 ^ 48))
  let s := s.event (Reg.MEM_STATUS st) Fld.MEM_STATUS_DET (Reg.MEM_DET_CNT st)
  let s := s.bumpGlb 0x06 0 1
  if s.withheld p then s.event (Reg.MEM_STATUS st) Fld.MEM_STATUS_WHELD (Reg.MEM_WHELD_CNT st) else s

/-- Whether reading a burst is a detected error (R217, R220). -/
def State.burstFails (s : State) (burst : Nat) : Bool :=
  s.burstBad burst || s.withheld (hbmLocate s.retired (burst * 64)).1

/-- The bursts of a range whose read is a detected error, in ascending order. -/
def State.badBursts (s : State) (a n : Nat) : List Nat :=
  ((List.range ((a + n - 1) / 64 - a / 64 + 1)).map (· + a / 64)).filter s.burstFails

/-- Bursts read (0x04) or written (0x05) in the selected counters, by the stack that serves each granule (R490). -/
def State.countBursts (s : State) (src a n : Nat) : State :=
  (List.range ((a + n - 1) / 4096 - a / 4096 + 1)).foldl (fun (s : State) i =>
    let g := (a / 4096 + i) * 4096
    let lo := max a g
    let hi := min (a + n) (g + 4096)
    s.bumpGlb src ((hbmLocate s.retired lo).1 % 8 + 1) ((hi - 1) / 64 - lo / 64 + 1)) s

/-- The first stage word of a range whose parity fails. -/
def State.firstBadWord (s : State) (a n : Nat) : Option Nat :=
  s.badStage.find? (fun w => decide (a < w * 4 + 4) && decide (w * 4 < a + n))

/-- A byte as memory holds it; an unlisted address reads 0. -/
def State.byte (s : State) (a : Nat) : Byte := s.mem.get 0 a

/-- Bytes from ascending addresses. -/
def State.bytes (s : State) (a : Nat) : Nat → List Byte
  | 0 => []
  | n + 1 => s.byte a :: s.bytes (a + 1) n

/-- Store bytes at ascending addresses. -/
def State.poke (s : State) (a : Nat) : List Byte → State
  | [] => s
  | b :: rest => { s with mem := s.mem.set 0 a b }.poke (a + 1) rest

/-- A number read little-endian from `n` bytes. -/
def State.peekNat (s : State) (a n : Nat) : Nat := leNat (s.bytes a n)
def State.pokeNat (s : State) (a n v : Nat) : State := s.poke a (leBytes n v)

/-- `n` words of 8 bytes that the spec leaves open, and the free values they use up. -/
def State.freeBytes (s : State) (n : Nat) : List Byte :=
  (List.range n).flatMap (fun k => leBytes 8 (Config.freeValue (s.freeIx + k)).toNat)
def State.skipFree (s : State) (n : Nat) : State := { s with freeIx := s.freeIx + n }

/-- What a read of memory gives: its bytes, or the address of the detected error that stopped it. -/
inductive MemRes where
  | ok (bytes : List Byte)
  | detected (hbm : Bool) (dpa : Nat)
  deriving DecidableEq, Repr

/-- The bus address of an offset in a host window (R503). -/
def State.busAddr (s : State) (port off : Nat) : Nat := ((s.rd (Reg.HIF_HWIN_OFF port)).toNat + off) % 2 ^ 64

/-- Host bytes are outside the block: each is a free value of the address and of the read. -/
def hostBytes (ix port off : Nat) : Nat → List Byte
  | 0 => []
  | n + 1 => Config.hostByte ix port off :: hostBytes ix port (off + 1) n

/-- Register space is read as 8-byte words (R563); T0 makes the access. -/
def State.regBytes (s : State) (off : Nat) : Nat → List Byte
  | 0 => []
  | n + 1 => leBytes 8 (if (regAt off).isSome then (s.rd off).toNat else 0) ++ s.regBytes (off + 8) n

/-- A read of `n` bytes by a unit of the device: the detection code and the parity are checked. Every burst that fails is detected and
counted; the requester learns the first (R216, R217, R225). -/
def State.readMem (s : State) (a n : Nat) : MemRes × State :=
  if n = 0 then (.ok [], s)
  else match s.place a with
    | .hbm =>
      match s.badBursts a n with
      | b :: more => (.detected true (b * 64), (b :: more).foldl (fun (s : State) x => s.hbmDetect (x * 64)) s)
      | [] => (.ok (s.bytes a n), (s.countBursts 0x04 a n).spend 8 ((a + n - 1) / 64 - a / 64 + 1))
    | .stage c _ =>
      match s.firstBadWord a n with
      | some w => (.detected false (w * 4), s)
      | none => (.ok (s.bytes a n), (s.bumpClu c 0x0E 0 ((a + n - 1) / 128 - a / 128 + 1)).spend 5 ((a + n - 1) / 128 - a / 128 + 1))
    | .reg off => (.ok (s.regBytes off (n / 8)), s)
    | .host p off => (.ok (hostBytes s.freeIx p (s.busAddr p off) n), (s.skipFree 1).spend 11 n)
    | .none => (.ok (List.replicate n 0), s)

/-- The parts of a write that lie in one burst each: the burst's address, and the bytes written there with their place. -/
def splitBursts : Nat → Nat → List Byte → List (Nat × List Byte)
  | 0, _, _ => []
  | _, _, [] => []
  | k + 1, a, bs =>
    let n := 64 - a % 64
    (a, bs.take n) :: splitBursts k (a + n) (bs.drop n)

/-- What a write meets: the detected error of the read part of a read-modify-write, if any. -/
abbrev WrErr := Option (Bool × Nat)

/-- One burst of a write: a partial burst is a read-modify-write, and is withheld where the read part fails (R218). -/
def State.writeBurst (s : State) (a : Nat) (bs : List Byte) : WrErr × State :=
  let b := a / 64
  let st := (hbmLocate s.retired a).1 % 8
  if bs.length = 64 then
    if s.withheld (hbmLocate s.retired a).1 then (some (true, b * 64), s.hbmDetect a) else (none, (s.healBurst b).poke a bs)
  else
    let s := s.cnt (Reg.MEM_RMW_CNT st)
    if s.burstFails b then (some (true, b * 64), s.hbmDetect a) else (none, s.poke a bs)

/-- The stage words that a write covers only in part and whose parity fails: the bank's read-modify-write keeps them as they are
(R225). -/
def State.keptWords (s : State) (a n : Nat) : List Nat :=
  s.badStage.filter (fun w => decide (a < w * 4 + 4) && decide (w * 4 < a + n) && !(decide (a ≤ w * 4) && decide (w * 4 + 4 ≤ a + n)))

/-- A write of stage memory of cluster `c`: whole words get their parity anew, the tag of every page it touches is cleared (R225,
R448). -/
def State.writeStage (s : State) (c a : Nat) (bs : List Byte) : WrErr × State :=
  let kept := s.keptWords a bs.length
  let old := kept.map (fun w => (w * 4, s.bytes (w * 4) 4))
  let s := old.foldl (fun (s : State) e => s.poke e.1 e.2) (s.poke a bs)
  let s := { s with badStage := s.badStage.filter (fun w => !(decide (a ≤ w * 4) && decide (w * 4 + 4 ≤ a + bs.length))) }
  let page (i : Nat) := stageBase c + i * 4096
  let s := s.modCl c (fun k => { k with pageTag := k.pageTag.filter (fun p =>
    !(decide (a < page p.1 + 4096) && decide (page p.1 < a + bs.length))) })
  (kept.head?.map (fun w => (false, w * 4)), (s.bumpClu c 0x0F 0 ((a + bs.length - 1) / 128 - a / 128 + 1)).spend 5 ((a + bs.length - 1) / 128 - a / 128 + 1))

/-- A write by a unit of the device, and the detected error that its read-modify-writes met first (R218, R225). Register space is not
written here. -/
def State.writeMem (s : State) (a : Nat) (bs : List Byte) : WrErr × State :=
  if bs.isEmpty then (none, s)
  else match s.place a with
    | .hbm =>
      let parts := splitBursts (bs.length / 64 + 2) a bs
      let r := parts.foldl (fun (acc : WrErr × State) p =>
        let w := acc.2.writeBurst p.1 p.2
        (acc.1.or w.1, w.2)) (none, s)
      (r.1, (r.2.countBursts 0x05 a bs.length).spend 9 ((a + bs.length - 1) / 64 - a / 64 + 1))
    | .stage c _ => s.writeStage c a bs
    | .host p off => (none, (s.say (.hostWrite p (s.busAddr p off) bs)).spend 11 bs.length)
    | _ => (none, s)

/-- Bytes with the bits of a mask flipped, the mask's low byte first. -/
def flipBytes (mask : Nat) (bs : List Byte) : List Byte :=
  (List.range bs.length).zip bs |>.map (fun e => e.2 ^^^ BitVec.ofNat 8 (mask / 2 ^ (8 * e.1)))

/-- The number of ones in the low `w` bits is odd. -/
def oddOnes (w n : Nat) : Bool := (List.range w).foldl (fun b i => b != n.testBit i) false

/-- An error strikes stored data: the bits flip, and what the code or the parity makes of the new contents follows (R216, R225). -/
def State.strike (s : State) : MemErr → State
  | .none => s
  | .hbm dpa data code =>
    let b := dpa / 64
    let old := s.bytes (b * 64) 64
    let new := flipBytes data.toNat old
    let d := s.codeErr.get 0 b ^^^ burstCode b old ^^^ burstCode b new ^^^ code
    { s.poke (b * 64) new with codeErr := s.codeErr.set 0 b d }
  | .stage dpa bits _ =>
    let w := dpa / 4
    let s := s.poke (w * 4) (flipBytes (bits.toNat % 2 ^ 32) (s.bytes (w * 4) 4))
    if !oddOnes 33 bits.toNat then s
    else if s.badStage.contains w then { s with badStage := s.badStage.filter (· ≠ w) }
    else { s with badStage := s.badStage ++ [w] }

/-! ### Region tables (R226 to R231) -/

/-- The region ceiling (R219). -/
def State.ceiling (s : State) : Nat :=
  let j := s.fld Reg.MEM_REMAP_STATUS Fld.MEM_REMAP_STATUS_J
  (512 - max (min 16 (s.fld Reg.MEM_RSV Fld.MEM_RSV_COUNT)) j) * 0x60000000

/-- The permissions of R227. -/
inductive Perm where
  | rd | wr | xs | fl
  deriving DecidableEq, Repr

def Perm.field : Perm → Field
  | .rd => Fld.MEM_RGN_W0_RD
  | .wr => Fld.MEM_RGN_W0_WR
  | .xs => Fld.MEM_RGN_W0_XS
  | .fl => Fld.MEM_RGN_W0_FL

/-- The listed entries of a tenant's region table that are VALID: (W0, LIMIT). Entries never written are not valid. -/
def State.regions (s : State) (t : Nat) : List (BitVec 64 × Nat) :=
  (s.regs.filter (fun e => decide (Reg.MEM_RGN_W0 t 0 ≤ e.1) && decide (e.1 < Reg.MEM_RGN_W0 t 0 + 0x1000)
      && e.1 % 16 == 0 && getField e.2 Fld.MEM_RGN_W0_VALID == 1)).map
    (fun e => (e.2, s.fld (e.1 + 8) Fld.MEM_RGN_W1_LIMIT))

/-- The region check of R228: one valid entry covers the whole access and grants the permission. -/
def State.regionOk (s : State) (t a n : Nat) (p : Perm) : Bool :=
  (s.regions t).any (fun e => decide (getField e.1 Fld.MEM_RGN_W0_BASE ≤ a) && decide (a + n - 1 ≤ e.2)
    && getField e.1 p.field == 1)

/-! ### The canonical form -/

/-- The memory lists its addresses in rising order and no byte that equals what an unlisted address reads as. -/
def State.memWf (s : State) : Bool := Tab.wf (fun _ => (0 : Byte)) s.mem

/-- The registers stand in the same form, against their reset values. -/
def State.regsWf (s : State) : Bool := Tab.wf regReset s.regs

/-! ### Publishing (R462, R463) -/

/-- The sequencer states of R165. -/
def seqIdle : Nat := 0
def seqRunning : Nat := 1
def seqHalted : Nat := 2
def seqYielded : Nat := 3
def seqFaulted : Nat := 4

def State.seqState (s : State) (c : Nat) : Nat := s.fld (Reg.SEQ_STATUS c) Fld.SEQ_STATUS_STATE
def State.setSeqState (s : State) (c v : Nat) : State := s.setFld (Reg.SEQ_STATUS c) Fld.SEQ_STATUS_STATE v
def State.seqTenant (s : State) (c : Nat) : Nat := s.fld (Reg.SEQ_STATUS c) Fld.SEQ_STATUS_TENANT
def State.seqSlot (s : State) (c : Nat) : Nat := s.fld (Reg.SEQ_STATUS c) Fld.SEQ_STATUS_SLOT
def State.seqPc (s : State) (c : Nat) : Nat := (s.rd (Reg.SEQ_PC c)).toNat

end Machine
end Sys2Proof
end

