-- ==== Sys2Proof/Machine/Fabric.lean ====
section
/-!
DEFINITION. The router (spec/10_routing.md): coordinates and directions, credits, route selection with its escape, plane and
detour rules, replication, fences, congestion sampling.
-/
namespace Sys2Proof

/-- Flits a packet travels in (R317). -/
def Packet.flits (p : Packet) : Nat := (48 + p.body.length + 243) / 244

/-- The classes that carry each TYPE (R319). -/
def typeClasses : Nat → List Nat
  | 0 => [0, 1, 3]
  | 1 => [1]
  | 2 => [3]
  | 3 => [2] | 4 => [2] | 5 => [2] | 6 => [2] | 7 => [2] | 8 => [2] | 9 => [2] | 10 => [2]
  | 11 => [4]
  | _ => []

/-- The TYPE is unknown, or travels on a class that does not carry it (R319). -/
def Packet.malformed (p : Packet) : Bool := !(typeClasses p.type).contains p.tc

namespace Machine

/-! ### Coordinates and ports (R7 to R9, R281, R308) -/

def chipX (n : Nat) : Nat := n % 32
def chipY (n : Nat) : Nat := n / 32 % 32
def chipZ (n : Nat) : Nat := n / 1024

/-- The coordinate of a chip on axis 0–2. -/
def chipAxis (n a : Nat) : Nat := if a = 0 then chipX n else if a = 1 then chipY n else chipZ n

/-- The dimension of axis 0–2, from the board identity. -/
def State.dim (s : State) (a : Nat) : Nat :=
  if a = 0 then s.fld Reg.IDM_BOARD0 Fld.IDM_BOARD0_DX
  else if a = 1 then s.fld Reg.IDM_BOARD0 Fld.IDM_BOARD0_DY
  else s.fld Reg.IDM_BOARD0 Fld.IDM_BOARD0_DZ

/-- Whether a chip number lies in the torus (R7). -/
def State.inTorus (s : State) (n : Nat) : Bool :=
  decide (chipX n < s.dim 0) && decide (chipY n < s.dim 1) && decide (chipZ n < s.dim 2)

/-- The chip one hop along direction `d` (0 XP, 1 XN, 2 YP, 3 YN, 4 ZP, 5 ZN) of chip `n` (R9). -/
def State.neighbour (s : State) (n d : Nat) : Nat :=
  let a := d / 2
  let dd := s.dim a
  let c := chipAxis n a
  let c' := if d % 2 = 0 then (c + 1) % dd else (c + dd - 1) % dd
  let x := if a = 0 then c' else chipX n
  let y := if a = 1 then c' else chipY n
  let z := if a = 2 then c' else chipZ n
  (z * 32 + y) * 32 + x

/-- The logical role of physical pair `k` (R308, R315). -/
def State.role (s : State) (k : Nat) : Nat := s.fld Reg.PRT_AXIS_MAP ⟨3 * k, 3⟩

/-- The physical pair of a role. -/
def State.pairOf (s : State) (d : Nat) : Nat := ((List.range 6).find? (fun k => s.role k == d)).getD d

/-- Physical port of member `m` (0 A, 1 B) of direction `d`. -/
def State.portOf (s : State) (d m : Nat) : Nat := 2 * s.pairOf d + m

def State.linkState (s : State) (p : Nat) : Nat := s.fld (Reg.PRT_STATUS p) Fld.PRT_STATUS_STATE

/-- Whether a chip's fence bit is set (R335). -/
def State.fenced (s : State) (n : Nat) : Bool := s.fld (Reg.FAB_FENCE (n / 64)) (bitField (n % 64)) == 1

/-- A port may carry a packet onward: ACTIVE and its peer not fenced (R324, R336). -/
def State.portOk (s : State) (p : Nat) : Bool :=
  s.linkState p == 5 && !s.fenced (s.fld (Reg.PRT_PEER p) Fld.PRT_PEER_CHIP)

/-- The candidate ports of a direction, member A first. -/
def State.cands (s : State) (d : Nat) : List Nat := [s.portOf d 0, s.portOf d 1].filter s.portOk

/-- The productive directions from chip `n` to chip `t` on axis `a` (R324). -/
def State.productive (s : State) (n t a : Nat) : List Nat :=
  let dd := s.dim a
  if dd = 0 then []
  else
    let f := (chipAxis t a + dd - chipAxis n a % dd) % dd
    let b := (chipAxis n a + dd - chipAxis t a % dd) % dd
    if f = 0 then []
    else if f < b then [2 * a]
    else if b < f then [2 * a + 1]
    else [2 * a, 2 * a + 1]

/-- The dimension-order direction: the first axis of `order` still to travel, positive on a tie (R326, R327). -/
def State.orderDir (s : State) (n t : Nat) (order : List Nat) : Option Nat :=
  order.findSome? (fun a => (s.productive n t a).head?)

/-! ### Flits and credits (R317, R321, R322) -/

/-- Flits reserved for a channel at each torus input. -/
def reserveOf (tc ch : Nat) : Nat := if tc = 2 then 32 else if ch < 2 then 0 else 4

def chanKey (p tc ch : Nat) : Nat := p * 128 + tc * 16 + ch

def Router.poolTotal (r : Router) (p : Nat) : Nat :=
  (r.usedPool.filter (fun e => e.1 / 128 == p)).foldl (fun n e => n + e.2) 0

/-- Credit left towards the peer for a channel: its reserve, and for classes but TC2 the shared pool. -/
def Router.credit (r : Router) (p tc ch : Nat) : Nat :=
  let k := chanKey p tc ch
  (reserveOf tc ch - r.usedRes.get 0 k)
    + (if tc = 2 then 0 else min (4096 - r.usedPool.get 0 k) (7744 - r.poolTotal p))

def Router.queue (r : Router) (p : Nat) : List RPkt := r.rout.get [] p
def Router.queuedFlits (r : Router) (p : Nat) : Nat := (r.queue p).foldl (fun n q => n + (q.p.flits - q.sent)) 0
def Router.queuedOn (r : Router) (p tc ch : Nat) : Nat :=
  (r.queue p).foldl (fun n q => if q.p.tc = tc ∧ q.outChan = ch then n + (q.p.flits - q.sent) else n) 0

/-- Credit a new packet can count on: what the flits already queued on the channel do not need. -/
def Router.creditLeft (r : Router) (p tc ch : Nat) : Nat := r.credit p tc ch - r.queuedOn p tc ch

/-- Occupancy of an output (R325). -/
def Router.occupancy (r : Router) (p : Nat) : Nat := r.queuedFlits p + r.poolTotal p

/-- One flit leaves on a channel: it takes a reserved credit if one is left, a pool credit otherwise. -/
def Router.spend (r : Router) (p tc ch : Nat) : Router :=
  let k := chanKey p tc ch
  if r.usedRes.get 0 k < reserveOf tc ch then { r with usedRes := r.usedRes.set 0 k (r.usedRes.get 0 k + 1) }
  else { r with usedPool := r.usedPool.set 0 k (r.usedPool.get 0 k + 1) }

/-- One flit arrives on a channel and takes its place at the input. -/
def Router.hold (r : Router) (p tc ch : Nat) : Router :=
  let k := chanKey p tc ch
  if r.heldRes.get 0 k < reserveOf tc ch then { r with heldRes := r.heldRes.set 0 k (r.heldRes.get 0 k + 1) }
  else { r with heldPool := r.heldPool.set 0 k (r.heldPool.get 0 k + 1) }

/-- A packet leaves its input: its flits' places are free and their credits due (R322). -/
def Router.release (r : Router) (q : RPkt) : Router :=
  if 12 ≤ q.inPort ∨ 16 ≤ q.chan then r
  else
    let k := chanKey q.inPort q.p.tc q.chan
    let n := q.p.flits
    let pool := min n (r.heldPool.get 0 k)
    let res := min (n - pool) (r.heldRes.get 0 k)
    let kd (b : Nat) := q.inPort * 256 + b * 128 + q.chan * 8 + q.p.tc
    { r with
      heldPool := r.heldPool.set 0 k (r.heldPool.get 0 k - pool)
      heldRes := r.heldRes.set 0 k (r.heldRes.get 0 k - res)
      due := (r.due.set 0 (kd 1) (r.due.get 0 (kd 1) + pool)).set 0 (kd 0)
        ((r.due.set 0 (kd 1) (r.due.get 0 (kd 1) + pool)).get 0 (kd 0) + res) }

/-- A packet enters the router from a local port. -/
def State.inject (s : State) (p : Packet) : State :=
  { s with rt := { s.rt with rin := s.rt.rin ++ [{ p := p }] } }

/-- A packet is queued for an output on a channel. -/
def State.enqueue (s : State) (q : RPkt) (port ch : Nat) : State :=
  let r := s.rt.release q
  { s with rt := { r with rout := r.rout.set [] port (r.queue port ++ [{ q with outChan := ch, sent := 0, back := none }]) } }.spendBy 1 7
    q.p.flits

def State.deliver (s : State) (q : RPkt) : State :=
  let r := s.rt.release q
  { s with rt := { r with arrived := r.arrived ++ [q.p] } }.spendBy 1 7 q.p.flits

def State.dropPkt (s : State) (q : RPkt) : State := { s with rt := s.rt.release q }

/-- A sink takes a packet that arrived at the local ports. -/
def State.take (s : State) (p : Packet) : State :=
  { s with rt := { s.rt with arrived := s.rt.arrived.erase p } }

/-! ### Malformed, fenced and unroutable packets (R319, R329, R336) -/

def State.badPacket (s : State) : State := s.event Reg.FAB_STATUS Fld.FAB_STATUS_BADPKT Reg.FAB_BADPKT_CNT

/-- FENCED_DROP (R336). -/
def State.fencedDrop (s : State) : State :=
  (s.event Reg.FAB_STATUS Fld.FAB_STATUS_FDROP Reg.FAB_FDROP_CNT).bumpGlb 0x10 0 1

/-- The UNREACH packet of R320 for a discarded packet. -/
def unreachFor (me : Nat) (p : Packet) (reason : Nat) : Packet :=
  { dst := p.src, src := me, tc := 2, type := 9, dclu := p.sclu, sclu := p.dclu, tag := p.tag, stream := p.stream
    body := leBytes 2 p.dst ++ leBytes 1 p.tc ++ leBytes 1 p.type ++ leBytes 2 p.offset ++ leBytes 1 reason
      ++ leBytes 1 0 ++ leBytes 4 p.chunk ++ leBytes 4 0 }

/-- UNROUTABLE (R329): discarded, counted, and for TC0, TC1 and TC3 an UNREACH to the source. -/
def State.unroutable (s : State) (q : RPkt) (reason : Nat) : State :=
  let s := s.dropPkt q
  let s := s.event Reg.FAB_STATUS Fld.FAB_STATUS_UNROUTE Reg.FAB_UNROUTE_CNT
  let s := s.trace 76 0x13 q.p.tag 0 (peerWord q.p.dst 0 0 0 0)
  if q.p.tc = 2 ∨ q.p.tc = 4 then s else s.inject (unreachFor s.chip q.p reason)

/-! ### Route selection (R324 to R328) -/

/-- Dimension order of a plane: P2 is Z, Y, X; plane 0 and P1 are X, Y, Z. -/
def planeOrder (plane : Nat) : List Nat := if plane = 2 then [2, 1, 0] else [0, 1, 2]

/-- Low and high channel of a plane's dimension-ordered set: escape, P1, P2 (R321). -/
def planeChans (plane : Nat) : Nat × Nat := if plane = 1 then (5, 6) else if plane = 2 then (8, 9) else (2, 3)

/-- Whether the hop in direction `d` from chip `n` crosses the dateline, the link between D − 1 and 0 (R321). -/
def State.crosses (s : State) (n d : Nat) : Bool :=
  let c := chipAxis n (d / 2)
  if d % 2 = 0 then c + 1 == s.dim (d / 2) else c == 0

/-- HOPS with this router counted: a packet that a port returned has counted it already (R318, R330). -/
def RPkt.hops (q : RPkt) : Nat := if q.back.isSome then q.p.hops else q.p.hops + 1

/-- The channel of a dimension-order hop: high once the dateline of the axis is crossed (R326, R327). -/
def State.orderChan (s : State) (q : RPkt) (d : Nat) : Nat :=
  let lh := planeChans q.p.plane
  let came := q.axis = d / 2 ∧ q.chan = lh.2
  if s.crosses s.chip d ∨ came then lh.2 else lh.1

/-- The dimension-order port: member A when it is a candidate with a free flit credit, member B otherwise; none where neither
has credit yet. -/
def State.orderPort (s : State) (q : RPkt) (d : Nat) : Option Nat :=
  (s.cands d).find? (fun p => decide (0 < s.rt.creditLeft p q.p.tc (s.orderChan q d)))

/-- Remove a packet from those waiting for route selection. -/
def State.unwait (s : State) (q : RPkt) : State := { s with rt := { s.rt with rin := s.rt.rin.erase q } }

/-- DETOUR (R327), or unroutable where it is not allowed. -/
def State.detour (s : State) (q : RPkt) (d : Nat) : State :=
  let hop := s.fld (Reg.FAB_DETOUR d) Fld.FAB_DETOUR_HOP
  let l := s.fld (Reg.FAB_DETOUR d) Fld.FAB_DETOUR_PLANE
  if s.fld Reg.FAB_CTL Fld.FAB_CTL_DETOUR_EN = 0 ∨ l = 0 ∨ l = 3 ∨ l ≤ q.p.plane ∨ (s.cands hop).isEmpty then
    (s.unwait q).unroutable q 1
  else
    let ch := if l = 1 then 4 else 7
    match (s.cands hop).find? (fun p => decide (0 < s.rt.creditLeft p q.p.tc ch)) with
    | none => s
    | some port =>
      let s := s.event Reg.FAB_STATUS Fld.FAB_STATUS_DETOUR Reg.FAB_DETOUR_CNT
      let s := s.bumpPrt port 0x0C 0 1
      (s.unwait q).enqueue { q with p := { q.p with plane := l, hops := q.hops } } port ch

/-- Dimension-order routing on escape or on a plane (R326, R327). -/
def State.routeOrder (s : State) (q : RPkt) (fromAdaptive : Bool) : State :=
  match s.orderDir s.chip q.p.dst (planeOrder q.p.plane) with
  | none => (s.unwait q).deliver q
  | some d =>
    if (s.cands d).isEmpty then (if fromAdaptive then s else s.detour q d)
    else
      match s.orderPort q d with
      | none => s
      | some port =>
        let ch := s.orderChan q d
        let s := s.unwait q
        let s := if fromAdaptive then (s.cnt Reg.FAB_ESCAPE_CNT).bumpPrt port 0x0B 0 1 else s
        s.enqueue { q with p := { q.p with hops := q.hops } } port ch

/-- The candidates with the lowest occupancy, first after the one last chosen in physical port order (R325). -/
def Router.pick (r : Router) (ports : List Nat) : Option Nat :=
  let low := ports.foldl (fun m p => min m (r.occupancy p)) (ports.foldl (fun m p => max m (r.occupancy p)) 0)
  let best := ports.filter (fun p => r.occupancy p == low)
  let after := (List.range 12).map (fun i => (r.lastPort + 1 + i) % 12)
  after.find? (fun p => best.contains p)

/-- Adaptive routing on plane 0 (R325). -/
def State.routeAdaptive (s : State) (q : RPkt) : State :=
  let dirs := [0, 1, 2].flatMap (s.productive s.chip q.p.dst)
  let ports := dirs.flatMap s.cands
  if ports.isEmpty then
    match s.orderDir s.chip q.p.dst [0, 1, 2] with
    | none => s
    | some d => s.detour q d
  else
    let n := q.p.flits
    let roomy := ports.filter (fun p => decide (n ≤ s.rt.creditLeft p q.p.tc 0) || decide (n ≤ s.rt.creditLeft p q.p.tc 1))
    match s.rt.pick roomy with
    | some port =>
      let ch := if n ≤ s.rt.creditLeft port q.p.tc 0 then 0 else 1
      let s := { s with rt := { s.rt with lastPort := port } }
      (s.unwait q).enqueue { q with p := { q.p with hops := q.hops } } port ch
    | none => s.routeOrder q true

/-- Route selection of a unicast head flit (R319, R324 to R329, R336). -/
def State.route (s : State) (q : RPkt) : State :=
  if q.p.malformed then ((s.unwait q).dropPkt q).badPacket
  else if s.fenced q.p.dst then ((s.unwait q).dropPkt q).fencedDrop
  else if ([0, 1, 2].flatMap (s.productive s.chip q.p.dst)).isEmpty then (s.unwait q).deliver q
  else if 256 ≤ q.hops then (s.unwait q).unroutable q 2
  else if q.p.plane = 0 ∧ s.fld Reg.FAB_CTL Fld.FAB_CTL_ADAPT_EN = 1 ∧ q.p.tc ≠ 4 ∧ (q.chan < 2 ∨ q.chan = 16) then
    s.routeAdaptive q
  else s.routeOrder q false

/-- The outputs at which a waiting packet's head waits for credit (R325 to R327, R341): those that route selection would take, none of
which has the credit yet. -/
def State.waitsAt (s : State) (q : RPkt) : List Nat :=
  let arrived := ([0, 1, 2].flatMap (s.productive s.chip q.p.dst)).isEmpty
  if q.p.mc || q.p.malformed || s.fenced q.p.dst || arrived || decide (256 ≤ q.hops) then []
  else
    let escape : List Nat := match s.orderDir s.chip q.p.dst (planeOrder q.p.plane) with
      | some d =>
        let hop := s.fld (Reg.FAB_DETOUR d) Fld.FAB_DETOUR_HOP
        if (s.cands d).isEmpty then s.cands hop else if (s.orderPort q d).isSome then [] else s.cands d
      | none => []
    if q.p.plane = 0 ∧ s.fld Reg.FAB_CTL Fld.FAB_CTL_ADAPT_EN = 1 ∧ q.p.tc ≠ 4 ∧ (q.chan < 2 ∨ q.chan = 16) then
      let ports := ([0, 1, 2].flatMap (s.productive s.chip q.p.dst)).flatMap s.cands
      let n := q.p.flits
      if escape.isEmpty ∨ ports.any (fun p => decide (n ≤ s.rt.creditLeft p q.p.tc 0) || decide (n ≤ s.rt.creditLeft p q.p.tc 1)) then []
      else (ports ++ escape).eraseDups
    else escape

/-- PACKET_ROUTE: the head flit of the `i`-th waiting packet. -/
def execPacketRoute (i : Nat) (s : State) : Host.Outcome State Fault Refusal :=
  .next (match s.rt.rin[i]? with
    | some q => if q.p.mc || s.stopped then s else s.route q
    | none => s)

/-! ### Multicast (R333, R334, R336) -/

def maskAxis (m : BitVec 96) (a : Nat) : Nat := m.toNat / 2 ^ (32 * a) % 2 ^ 32

def maskOf (x y z : Nat) : BitVec 96 := BitVec.ofNat 96 (x % 2 ^ 32 + y % 2 ^ 32 * 2 ^ 32 + z % 2 ^ 32 * 2 ^ 64)

/-- The chips of a box. -/
def State.boxChips (s : State) (m : BitVec 96) : List Nat :=
  (List.range (s.dim 2)).flatMap (fun z => (List.range (s.dim 1)).flatMap (fun y => (List.range (s.dim 0)).filterMap (fun x =>
    if (maskAxis m 0).testBit x && (maskAxis m 1).testBit y && (maskAxis m 2).testBit z then some ((z * 32 + y) * 32 + x)
    else none)))

/-- An MCAST box that R333 accepts: no empty axis mask, no bit at or above its dimension. -/
def State.boxOk (s : State) (m : BitVec 96) : Bool :=
  [0, 1, 2].all (fun a => maskAxis m a != 0 && decide (maskAxis m a < 2 ^ s.dim a))

/-- The axis a multicast packet still travels along at its arrival: the axis of the port it came by, X at its source. -/
def State.mcStage (s : State) (q : RPkt) : Nat := if q.inPort < 12 then s.role (q.inPort / 2) / 2 else 0

/-- The coordinates of axis `a` in a mask that lie in direction `d` from here (positive on a tie, R334). -/
def State.mcBits (s : State) (m : BitVec 96) (a d : Nat) : Nat :=
  (List.range (s.dim a)).foldl (fun acc c =>
    let t := if a = 0 then (chipZ s.chip * 32 + chipY s.chip) * 32 + c
      else if a = 1 then (chipZ s.chip * 32 + c) * 32 + chipX s.chip
      else (c * 32 + chipY s.chip) * 32 + chipX s.chip
    if (maskAxis m a).testBit c && (s.productive s.chip t a).head? == some d then acc + 2 ^ c else acc) 0

def maskSet (m : BitVec 96) (a v : Nat) : BitVec 96 :=
  maskOf (if a = 0 then v else maskAxis m 0) (if a = 1 then v else maskAxis m 1) (if a = 2 then v else maskAxis m 2)

/-- The branches of a multicast packet at this router: (direction, narrowed mask). A packet that travels axis `a` goes on along
it, and where this chip's coordinate of the axis is included, along every later axis (R334). -/
def State.mcBranches (s : State) (q : RPkt) : List (Nat × BitVec 96) :=
  let own (a : Nat) := chipAxis s.chip a
  let at' (m : BitVec 96) (a : Nat) : List (Nat × BitVec 96) :=
    [2 * a, 2 * a + 1].filterMap (fun d =>
      let b := s.mcBits m a d
      let came := q.inPort < 12 ∧ s.role (q.inPort / 2) = (if d % 2 = 0 then d + 1 else d - 1)
      let backward := q.inPort < 12 ∧ s.mcStage q = a ∧ s.role (q.inPort / 2) = d
      if b = 0 ∨ (backward ∧ ¬ came) then none else some (d, maskSet m a b))
  let fix (m : BitVec 96) (a : Nat) : BitVec 96 := maskSet m a (2 ^ own a)
  let m := q.p.mask
  let st := s.mcStage q
  let here (a : Nat) : Bool := (maskAxis m a).testBit (own a)
  let b0 := if st = 0 then at' m 0 else []
  let m1 := if st = 0 then fix m 0 else m
  let b1 := if st = 0 ∧ here 0 then at' m1 1 else if st = 1 then at' m1 1 else []
  let m2 := if st ≤ 1 then fix m1 1 else m1
  let go2 := (st = 0 ∧ here 0 = true ∧ here 1 = true) ∨ (st = 1 ∧ here 1 = true) ∨ st = 2
  let b2 := if go2 then at' m2 2 else []
  b0 ++ b1 ++ b2

/-- Whether this chip is itself a destination (R333: the source never is). -/
def State.mcLocal (s : State) (q : RPkt) : Bool :=
  q.p.src != s.chip && [0, 1, 2].all (fun a => (maskAxis q.p.mask a).testBit (chipAxis s.chip a))

/-- One more copy of a stored multicast packet waits to leave (R334). -/
def Router.addCopy (r : Router) (id : Nat) : Router :=
  { r with store := r.store.map (fun (e : McEntry) => if e.id = id then { e with left := e.left + 1 } else e) }

/-- The least box that holds the given chips (R333). -/
def boxOf (chips : List Nat) : BitVec 96 :=
  let bits (a : Nat) : Nat := (chips.map (fun n => chipAxis n a)).eraseDups.foldl (fun m c => m + 2 ^ c) 0
  maskOf (bits 0) (bits 1) (bits 2)

/-- The port of a branch: member A where it is a candidate with a free flit credit, member B otherwise (R326). -/
def State.mcPort (s : State) (q : RPkt) (d : Nat) : Option Nat :=
  match s.orderPort q d with
  | some p => some p
  | none => (s.cands d).getLast?

/-- One branch of a replication: its fenced destinations leave its mask, as far as a box can say so (DEDUCED, log entry 123); without a
destination it is pruned; without a port its destinations leave as unicast copies on escape (R334, R336). -/
def State.mcBranch (s : State) (q : RPkt) (id : Nat) (b : Nat × BitVec 96) : State :=
  let live := (s.boxChips b.2).filter (fun n => !s.fenced n && n != q.p.src)
  if live.isEmpty then s.fencedDrop
  else
    match s.mcPort q b.1 with
    | some port =>
      let s := if q.back.isSome then s else (s.cnt Reg.FAB_MC_COPY_CNT).bumpPrt port 0x0D 0 1
      let c : RPkt := { q with p := { q.p with mask := boxOf live, hops := q.hops }, copyOf := some id
                               outChan := s.orderChan q b.1, sent := 0, back := none }
      let r := s.rt.addCopy id
      { s with rt := { r with rout := r.rout.set [] port (r.queue port ++ [c]) } }.spendBy 1 7 c.p.flits
    | none =>
      let s := if s.fenced (s.neighbour s.chip b.1) then s.fencedDrop else s
      live.foldl (fun (s : State) n =>
        let s := s.cnt Reg.FAB_MC_COPY_CNT
        let c : RPkt := { q with p := { q.p with mc := false, mask := 0, dst := n, plane := 0 }, inPort := 12
                                 chan := if q.chan = 3 then 3 else 2, copyOf := none }
        { s with rt := { s.rt with rin := s.rt.rin ++ [c] } }) s

/-- A copy's tail has left: the store entry is freed with the last one (R334). -/
def Router.freeCopy (r : Router) (q : RPkt) : Router :=
  match q.copyOf with
  | none => r
  | some id =>
    let st := r.store.map (fun (e : McEntry) => if e.id = id then { e with left := e.left - 1 } else e)
    { r with store := st.filter (fun (e : McEntry) => e.left != 0) }

/-- Replication of a multicast head (R334): its store must have room for the whole packet. A copy that a port returned is routed again as
the branch it was (R338). One whose HOPS reaches 256 goes no further than this chip (R329). -/
def State.replicate (s : State) (q : RPkt) : State :=
  let n := q.p.flits
  let used := (s.rt.store.filter (fun (e : McEntry) => e.tc == q.p.tc)).foldl (fun a (e : McEntry) => a + e.flits) 0
  if q.p.malformed then ((s.unwait q).dropPkt q).badPacket
  else if 256 < used + n then s
  else
    let id := s.rt.nextId
    let branches := match q.back with
      | some port => [(s.role (port / 2), q.p.mask)]
      | none => s.mcBranches q
    let loc := q.back.isNone && s.mcLocal q
    let s := s.unwait q
    let s := { s with rt := { s.rt with nextId := id + 1, store := s.rt.store ++ [{ id := id, tc := q.p.tc, flits := n, left := 0 }] } }
    let s :=
      if branches.isEmpty = false ∧ 256 ≤ q.hops then s.unroutable { q with inPort := 12 } 2
      else branches.foldl (fun (s : State) b => s.mcBranch q id b) s
    let s := if loc then s.cnt Reg.FAB_MC_COPY_CNT else s
    let r := if loc then { s.rt with arrived := s.rt.arrived ++ [q.p] } else s.rt
    let r := (r.release q).freeCopy q
    { s with rt := { r with store := r.store.filter (fun (e : McEntry) => !(e.id == id && e.left == 0)) } }

/-- MC_REPLICATE: the `i`-th waiting packet, a multicast. -/
def execMcReplicate (i : Nat) (s : State) : Host.Outcome State Fault Refusal :=
  .next (match s.rt.rin[i]? with
    | some q => if q.p.mc then s.replicate q else s
    | none => s)

/-! ### Returned packets and credits (R322, R330) -/

/-- The oldest packet that a port returned re-enters route selection at its channel and plane, behind those returned before it and ahead
of newer packets (R306, R330). -/
def State.reroute (s : State) (port : Nat) : State :=
  match s.rt.queue port with
  | [] => s
  | q :: rest =>
    let s := { s with rt := { s.rt with rout := s.rt.rout.set [] port rest } }
    let s := s.cnt Reg.FAB_REROUTE_CNT
    let c : RPkt := { q with inPort := 12, chan := q.outChan, outChan := 16, sent := 0, axis := s.role (port / 2) / 2, back := some port }
    let old := s.rt.rin.takeWhile (fun x => x.back.isSome)
    { s with rt := { s.rt with rin := old ++ c :: s.rt.rin.drop old.length } }

/-- PACKET_REROUTE: only once the port is no longer ACTIVE (R330). -/
def execPacketReroute (port : Fin 12) (s : State) : Host.Outcome State Fault Refusal :=
  .next (if s.linkState port = 5 ∨ s.linkState port = 6 then s else s.reroute port)

/-- The 4-byte entries of a CREDIT packet (R322): class, channel, pool bit, flits. -/
def creditEntries : Nat → List Byte → List (Nat × Nat × Nat × Nat)
  | 0, _ => []
  | k + 1, bs =>
    if bs.length < 4 then []
    else
      let v := leNat (bs.take 4)
      (v % 8, v / 8 % 16, v / 128 % 2, v / 256) :: creditEntries k (bs.drop 4)

/-- A credit of one kind that exceeds what is in use of it counts for the other: the two ends may name a flit differently while credits
are on their way, and none is lost (R322; DEDUCED, log entry 123). -/
def Router.refund (r : Router) (port : Nat) (e : Nat × Nat × Nat × Nat) : Router :=
  let k := chanKey port e.1 e.2.1
  let res := r.usedRes.get 0 k
  let pool := r.usedPool.get 0 k
  let n := e.2.2.2
  let fromPool := if e.2.2.1 = 1 then n else n - res
  let fromRes := if e.2.2.1 = 1 then n - pool else n
  { r with usedPool := r.usedPool.set 0 k (pool - fromPool), usedRes := r.usedRes.set 0 k (res - fromRes) }

/-- CREDIT_RX: the credit sink of a port consumes the packet at once (R322). -/
def execCreditRx (port : Fin 12) (p : Packet) (s : State) : Host.Outcome State Fault Refusal :=
  .next (if p.type = 10 ∧ p.tc = 2 then
      let s := s.take p
      { s with rt := (creditEntries 48 p.body).foldl (fun r e => r.refund port e) s.rt }
    else (s.take p).badPacket)

/-- A CREDIT packet needs no credit, so it waits behind no packet that does: it goes ahead of those of its channel of which no flit has
left (R322, R332). -/
def aheadOfUnsent (c : RPkt) : List RPkt → List RPkt
  | [] => [c]
  | q :: rest =>
    if q.p.tc = c.p.tc ∧ q.outChan = c.outChan ∧ q.sent = 0 ∧ q.p.type ≠ 10 then c :: q :: rest else q :: aheadOfUnsent c rest

/-- CREDIT_RETURN_TIMER: the credits due on a port leave in one CREDIT packet of up to 48 entries, hop-local on TC2 (R322). -/
def execCreditReturnTimer (port : Fin 12) (s : State) : Host.Outcome State Fault Refusal :=
  .next (
    let mine := (s.rt.due.filter (fun e => e.1 / 256 == port.val)).take 48
    if mine.isEmpty ∨ s.linkState port ≠ 5 then s
    else
      let body := mine.flatMap (fun e => leBytes 4 (e.1 % 256 + e.2 % 2 ^ 24 * 256))
      let p : Packet := { dst := s.fld (Reg.PRT_PEER port) Fld.PRT_PEER_CHIP, src := s.chip, tc := 2, type := 10, body := body }
      let due := mine.foldl (fun d e => d.set 0 e.1 0) s.rt.due
      { s with rt := { s.rt with due := due,
                                 rout := s.rt.rout.set [] port (aheadOfUnsent { p := p, outChan := 2 } (s.rt.queue port)) } })

/-! ### Fences (R335, R344) -/

/-- FAB_FENCE_COUNT follows the bitmap. -/
def State.setFence (s : State) (n : Nat) (v : Bool) : State :=
  if 24576 ≤ n ∨ s.fenced n = v then s
  else
    let s := s.setFld (Reg.FAB_FENCE (n / 64)) (bitField (n % 64)) v.toNat
    let c := s.fld Reg.FAB_FENCE_COUNT Fld.FAB_FENCE_COUNT_COUNT
    s.setFld Reg.FAB_FENCE_COUNT Fld.FAB_FENCE_COUNT_COUNT (if v then c + 1 else c - 1)

def State.clearFences (s : State) : State :=
  ((List.range 384).foldl (fun s w => s.wr (Reg.FAB_FENCE w) 0) s).setFld Reg.FAB_FENCE_COUNT Fld.FAB_FENCE_COUNT_COUNT 0

/-! ### Detour entries (R345) -/

/-- The hop's axis comes later than the blocked axis in the plane's order. -/
def detourAllowed (k hop plane : Nat) : Bool :=
  decide (hop < 6) && ((plane == 1 && decide (k / 2 < hop / 2)) || (plane == 2 && decide (hop / 2 < k / 2)))

def State.writeDetour (s : State) (k : Nat) (v : BitVec 32) : State :=
  let hop := v.toNat % 8
  let plane := v.toNat / 8 % 4
  if plane = 0 then
    let s := if hop < 6 then s.setFld (Reg.FAB_DETOUR k) Fld.FAB_DETOUR_HOP hop else s
    s.setFld (Reg.FAB_DETOUR k) Fld.FAB_DETOUR_PLANE 0
  else if detourAllowed k hop plane then s.wr (Reg.FAB_DETOUR k) (BitVec.ofNat 64 (hop + plane * 8))
  else s.event Reg.FAB_STATUS Fld.FAB_STATUS_DET_ERR Reg.FAB_DET_ERR_CNT

/-- FAB_DETOUR_WRITE, by T0 (R345). -/
def execFabDetourWrite (by_ : Fin 4) (k : Fin 6) (v : BitVec 32) (s : State) : Host.Outcome State Fault Refusal :=
  .next (if by_ = 0 then s.writeDetour k v else s)

end Machine
end Sys2Proof
end

