-- ==== Sys2Proof/Machine/Tokens.lean ====
section
/-!
DEFINITION. What every part of the sequencer shares (spec/05_askeb_model.md): scalar registers and predicates, fault records,
tokens with their forwards and overflow, the program counter with its loop back-edges, and the release of held waits.
-/
namespace Sys2Proof.Machine

/-! ### Scalar state (R131) -/

def Cluster.s (k : Cluster) (r : Nat) : BitVec 64 := if r = 0 then 0 else k.sreg.get 0 r
def Cluster.setS (k : Cluster) (r : Nat) (v : BitVec 64) : Cluster := if r = 0 then k else { k with sreg := k.sreg.set 0 r v }
def Cluster.p (k : Cluster) (i : Nat) : Bool := i == 0 || k.preds.getLsbD i
def Cluster.setP (k : Cluster) (i : Nat) (v : Bool) : Cluster :=
  if i = 0 then k
  else { k with preds := (k.preds &&& ~~~(BitVec.ofNat 8 (2 ^ i))) ||| BitVec.ofNat 8 (if v then 2 ^ i else 0) }
def Cluster.d (k : Cluster) (i : Nat) : BitVec 512 := k.desc.get 0 i

def State.seqCtx (s : State) (c : Nat) : Nat := s.fld (Reg.SEQ_STATUS c) Fld.SEQ_STATUS_CTX
def State.setPc (s : State) (c pc : Nat) : State := s.wr (Reg.SEQ_PC c) (BitVec.ofNat 64 pc)

/-- Words in the running stream of a cluster, and where it starts (R162, R170). T0's streams are the keeper firmware's (R151): where they
stand is open, and each word comes with its command. -/
def State.streamLen (s : State) (c : Nat) : Nat :=
  let t := s.seqTenant c
  if t = 0 then Config.keeperStreamLen else s.fld (Reg.SEQ_STREAM_LEN c (t - 1) (if s.seqCtx c = 3 then 1 else 0)) Fld.SEQ_STREAM_LEN_LEN
def State.streamBase (s : State) (c : Nat) : Nat :=
  let t := s.seqTenant c
  if t = 0 then 0 else s.fld (Reg.SEQ_STREAM_BASE c (t - 1) (if s.seqCtx c = 3 then 1 else 0)) Fld.SEQ_STREAM_BASE_BASE

def State.image (s : State) (t : Nat) : ImageRec := s.images.get {} t

/-- SEQ_STATUS.LOOP_DEPTH and SEGMENT follow the loop stack and the return register. -/
def State.showLoops (s : State) (c : Nat) : State :=
  let k := s.cl c
  (s.setFld (Reg.SEQ_STATUS c) Fld.SEQ_STATUS_LOOP_DEPTH (k.loops.filter (fun (l : LoopEntry) => !l.suspended)).length).setFld
    (Reg.SEQ_STATUS c) Fld.SEQ_STATUS_SEGMENT (if k.ret.isSome then 1 else 0)

/-! ### Fault records (R152, R153, R168) -/

/-- The ports of R153. -/
def portRank : Nat := 0
def portVector : Nat := 1
def portMover : Nat := 2
def portFabric : Nat := 3
def portSeq : Nat := 4

structure FaultRec where
  code : Nat
  port : Nat
  async : Bool := false
  aux0 : Nat := 0
  pc : Nat := 0
  word : BitVec 128 := 0
  dpa : Nat := 0
  aux1 : Nat := 0

/-- A fault record is written, FAULT is set and the counter rises, the keeper and the owning tenant are notified, the ring records
it and is triggered; the sequencer becomes FAULTED, unless `stay` (R138, R152, R478). -/
def State.recordFault (s : State) (c : Nat) (f : FaultRec) (stay : Bool) : State :=
  let st := Reg.SEQ_STATUS c
  let k := s.fld (Reg.SEQ_FAULT_CNT c) Fld.COUNT % 4
  let t := s.seqTenant c
  let w0 := f.code + f.port * 2 ^ 8 + s.seqCtx c * 2 ^ 11 + t * 2 ^ 13 + f.async.toNat * 2 ^ 15 + s.seqSlot c * 2 ^ 16
    + c * 2 ^ 20 + f.aux0 % 2 ^ 32 * 2 ^ 32
  let put (s : State) (w v : Nat) : State := s.wr (Reg.SEQ_FAULT_REC c k w) (BitVec.ofNat 64 v)
  let s := put s 0 w0
  let s := put s 1 f.pc
  let s := put s 2 (f.word.toNat % 2 ^ 64)
  let s := put s 3 (f.word.toNat / 2 ^ 64)
  let s := put s 4 (s.rd Reg.CAD_POS).toNat
  let s := put s 5 s.now
  let s := put s 6 (f.dpa % 2 ^ 48)
  let s := put s 7 f.aux1
  let s := s.event st Fld.SEQ_STATUS_FAULT (Reg.SEQ_FAULT_CNT c)
  let s := s.tellKeeper 1 c f.code
  let s := if t = 0 then s else s.evq t 1 c (s.fld (Reg.SEQ_FAULT_CNT c) Fld.COUNT % 2 ^ 32)
  let s := s.trace c 0x10 f.code 0 (peerWord 0 0 0 f.pc 0)
  let s := s.trigger c 2
  if stay then s
  else (s.modCl c (fun k => { k with hard := k.hard || f.code != 0x0C })).setSeqState c seqFaulted

/-- A fault of any kind but a token overflow. -/
def State.fault (s : State) (c : Nat) (f : FaultRec) : State := s.recordFault c f false

/-- An issue trap of a decoded instruction (R152). -/
def State.trap (s : State) (c port code aux0 : Nat) (e : QEntry) : State :=
  s.fault c { code := code, port := port, aux0 := aux0, pc := e.pc, word := e.word }

/-! ### Tokens (R136 to R138, R160, R169, R204) -/

def State.tok (s : State) (c t : Nat) : Nat := s.fld (Reg.SEQ_TOKEN c t) Fld.SEQ_TOKEN_COUNT
def State.quantum (s : State) (c t : Nat) : Nat := s.fld (Reg.SEQ_TOKEN c t) Fld.SEQ_TOKEN_QUANTUM
def State.consumer (s : State) (c t : Nat) : Nat := s.fld (Reg.SEQ_TOKEN c t) Fld.SEQ_TOKEN_CONSUMER

/-- TOKEN_OVERFLOW of token `t` (R138). -/
def State.tokenOverflow (s : State) (c t : Nat) : State :=
  s.recordFault c { code := 0x0E, port := portSeq, async := true, aux0 := t, pc := s.seqPc c } (s.seqState c = seqIdle)

/-- One token's count rises by `n`, saturating with TOKEN_OVERFLOW. -/
def State.addOne (s : State) (c t n : Nat) (peer : BitVec 64) : State :=
  if t = 0 then s
  else
    let v := s.tok c t + n
    let s := s.setFld (Reg.SEQ_TOKEN c t) Fld.SEQ_TOKEN_COUNT (min v (2 ^ 24 - 1))
    let s := s.modCl c (fun k => { k with prod := k.prod.set 0 t peer })
    let s := s.bumpClu c 0x13 t 1
    let s := if s.fld Reg.TRC_CTL Fld.TRC_CTL_TRIGTOK = t then s.trigger c 3 else s
    if 2 ^ 24 - 1 < v then s.tokenOverflow c t else s

/-- A signal of token `t` by `n`, and of its forward token (R138). -/
def State.addToken (s : State) (c t n : Nat) (peer : BitVec 64) : State :=
  if t = 0 then s
  else
    let f := s.fld (Reg.SEQ_TOKEN c t) Fld.SEQ_TOKEN_FWD
    (s.addOne c t n peer).addOne c f n peer

/-- The count suffices for a header wait on `t`; t0 always does. -/
def State.headerOk (s : State) (c t : Nat) : Bool := t == 0 || decide (s.quantum c t ≤ s.tok c t)

/-- A satisfied header wait subtracts the quantum. -/
def State.takeQuantum (s : State) (c t : Nat) : State :=
  if t = 0 then s else s.setFld (Reg.SEQ_TOKEN c t) Fld.SEQ_TOKEN_COUNT (s.tok c t - s.quantum c t)

/-! ### Instruction words (R172) -/

/-- Bits `hi` down to `lo` of an instruction word. -/
def bitsOf (w : BitVec 128) (hi lo : Nat) : Nat := w.toNat / 2 ^ lo % 2 ^ (hi + 1 - lo)

def QEntry.op (e : QEntry) : Nat := bitsOf e.word 127 120
def QEntry.predSel (e : QEntry) : Nat := bitsOf e.word 115 112
def QEntry.wait (e : QEntry) : Nat := bitsOf e.word 111 104
def QEntry.sig (e : QEntry) : Nat := bitsOf e.word 103 96

/-- The PEER of a local instruction that signals (R476). -/
def State.localPeer (s : State) (c port pc : Nat) : BitVec 64 := peerWord s.chip c (port + 1) pc 0

/-! ### The program counter and loop back-edges (R144, R205) -/

/-- Where decode goes after the word before `pc`: the innermost active loop whose body ends there runs again or ends. -/
def Cluster.backEdge : Nat → Cluster → Nat → Nat × Cluster
  | 0, k, pc => (pc, k)
  | fuel + 1, k, pc =>
    match k.loops with
    | [] => (pc, k)
    | l :: rest =>
      if l.suspended ∨ pc ≠ l.bodyStart + l.bodyLen then (pc, k)
      else if l.iter + 1 < l.trip then
        let i := l.iter + 1
        let k := { k with loops := { l with iter := i } :: rest }
        (l.bodyStart, k.setS l.ireg (l.start + BitVec.ofNat 64 i * l.stride))
      else Cluster.backEdge fuel { k with loops := rest } pc

/-- Decode continues at `pc`. -/
def State.goto (s : State) (c pc : Nat) : State :=
  let r := Cluster.backEdge 9 (s.cl c) pc
  ((s.setCl c r.2).setPc c r.1).showLoops c

/-- A sequencer instruction completes: its hold ends, its header token is signalled, and decode continues at `pc`. -/
def State.seqDone (s : State) (c : Nat) (e : QEntry) (pc : Nat) : State :=
  let s := s.modCl c (fun k => { k with hold := none, wdogFired := false })
  (s.addToken c e.sig 1 (s.localPeer c portSeq e.pc)).goto c pc

/-! ### Releases (R136, R147, R149, R204, R476) -/

/-- The hold time since an event, in ns. -/
def State.heldFor (s : State) (since : Nat) : Nat := s.now - since

/-- Whether waits that never held are recorded (R476). -/
def State.allWaits (s : State) (c : Nat) : Bool := s.fld (Reg.TRC_RING_CTL c) Fld.TRC_RING_CTL_ALLWAITS == 1

/-- The WAIT_TOKEN record of a satisfied wait on `t` (R475, R476). -/
def State.traceWait (s : State) (c t dur : Nat) : State := s.trace c 0x01 t dur ((s.cl c).prod.get 0 t)

/-- Time held in WAIT and non-yieldable CWAIT does not count in the yield gap (R148). -/
def State.addHeld (s : State) (c dur : Nat) : State := s.modCl c (fun k => { k with yieldHeld := k.yieldHeld + dur })

/-- The next yield gap is measured from now (R148). -/
def State.gapFromNow (s : State) (c : Nat) : State := s.modCl c (fun k => { k with yieldAt := s.now, yieldHeld := 0 })

/-- A yield point: it is counted, its gap recorded, and the next gap starts (R147, R148). -/
def State.yieldPoint (s : State) (c : Nat) : State :=
  let k := s.cl c
  let gap := s.now - k.yieldAt - k.yieldHeld
  let bound := (s.image (s.seqTenant c)).yieldBound
  let s := (s.cnt (Reg.SEQ_YIELD_CNT c)).setFld (Reg.SEQ_YIELD_GAP_MAX c) Fld.SEQ_YIELD_GAP_MAX_NS
    (max gap (s.fld (Reg.SEQ_YIELD_GAP_MAX c) Fld.SEQ_YIELD_GAP_MAX_NS))
  let s := if bound ≠ 0 ∧ bound < gap then
      s.event (Reg.SEQ_STATUS c) Fld.SEQ_STATUS_YIELD_LATE (Reg.SEQ_YIELD_LATE_CNT c) else s
  s.gapFromNow c

/-- The quanta that the port heads waiting on token `t` take before a WAIT does: in ascending port order, each if the count still
suffices (R204). -/
def State.claims (s : State) (c t : Nat) : Nat :=
  [(s.cl c).rankQ, (s.cl c).vecQ, (s.cl c).movQ, (s.cl c).fabQ].foldl (fun n q =>
    match q with
    | e :: _ => if e.wait = t ∧ n + s.quantum c t ≤ s.tok c t then n + s.quantum c t else n
    | [] => n) 0

/-- A held WAIT whose count suffices after the header waits of the port heads (R204), a held CWAIT whose position is reached, or a YIELD whose
request has been served (R147) releases decode. -/
def State.releaseHold (s : State) (c : Nat) : State :=
  if s.seqState c ≠ seqRunning then s
  else
    match (s.cl c).hold with
    | some ⟨.wait t n, e, since⟩ =>
      if n + s.claims c t ≤ s.tok c t then
        let dur := s.heldFor since
        let s := s.setFld (Reg.SEQ_TOKEN c t) Fld.SEQ_TOKEN_COUNT (s.tok c t - n)
        let s := (s.traceWait c t dur).addHeld c dur
        s.seqDone c e (e.pc + 1)
      else s
    | some ⟨.cwait p y, e, since⟩ =>
      if p ≤ s.rd Reg.CAD_POS then
        let dur := s.heldFor since
        let s := s.trace c 0x02 0 dur (peerWord (s.fld Reg.CAD_MASTER Fld.CAD_MASTER_CHIP) 0 6 0 0)
        let s := if y then s.gapFromNow c else s.addHeld c dur
        s.seqDone c e (e.pc + 1)
      else s
    | some ⟨.yield, e, _⟩ => if (s.cl c).requested then s else (s.gapFromNow c).seqDone c e (e.pc + 1)
    | _ => s

/-- A signal: the count and its forward rise, and a held wait they satisfy is served. -/
def State.signal (s : State) (c t n : Nat) (peer : BitVec 64) : State := (s.addToken c t n peer).releaseHold c

/-- The header signal of an instruction on a port (R137). -/
def State.signalHeader (s : State) (c port : Nat) (e : QEntry) (n : Nat) : State :=
  if n = 0 then s else s.signal c e.sig n (s.localPeer c port e.pc)

end Sys2Proof.Machine
end

