-- ==== Sys2Proof/Machine/Banks.lean ====
section
/-!
DEFINITION. Checkpoint banks (spec/12_training_state_and_restart.md, R385 to R389, R392, R395): seal requests and unseals, how a push
ends, and the checked write that every agent of the device uses.
-/
namespace Sys2Proof.Machine

/-! ### Banks (R239, R250, R385, R409) -/

def State.bankLen (s : State) : Nat := s.fld Reg.MEM_BANK_LEN Fld.MEM_BANK_LEN_LEN
def State.bankBase (s : State) (b : Nat) : Nat :=
  if b = 0 then s.fld Reg.MEM_BANK_A Fld.MEM_BANK_A_BASE else s.fld Reg.MEM_BANK_B Fld.MEM_BANK_B_BASE
def State.bankState (s : State) (b : Nat) : Nat := s.fld (Reg.MEM_BANK_STATE b) Fld.MEM_BANK_STATE_STATE
def State.bankStep (s : State) (b : Nat) : Nat := s.fld (Reg.MEM_BANK_STATE b) Fld.MEM_BANK_STATE_STEP
def State.bankFpen (s : State) (b : Nat) : Bool := s.fld (Reg.MEM_BANK_STATE b) Fld.MEM_BANK_STATE_FPEN == 1
def State.setBank (s : State) (b v : Nat) : State := s.setFld (Reg.MEM_BANK_STATE b) Fld.MEM_BANK_STATE_STATE v

/-- This chip's twin (R11). -/
def State.twin (s : State) : Nat := s.fld Reg.IDM_BOARD0 Fld.IDM_BOARD0_TWIN

/-! ### The end of a push (R392, R395, R396, R410, R411) -/

def State.pushState (s : State) : Nat := s.fld Reg.MEM_TWIN_STATUS Fld.MEM_TWIN_STATUS_STATE
def State.setPush (s : State) (v : Nat) : State := s.setFld Reg.MEM_TWIN_STATUS Fld.MEM_TWIN_STATUS_STATE v

/-- A control packet of a push (R393). -/
def State.sendMirrorCtl (s : State) (dst tag kind reason value : Nat) : State :=
  s.inject { dst := dst, src := s.chip, tc := 3, type := 2, tag := tag % 2 ^ 16, offset := 0xFF00
             body := leBytes 1 kind ++ leBytes 1 reason ++ leBytes 6 0 ++ leBytes 8 value }

/-- The token of a push's end, with any outcome (R395). -/
def State.signalPush (s : State) : State :=
  if s.fld Reg.MEM_TWIN_CTL Fld.MEM_TWIN_CTL_SIGEN = 1 then
    s.signal (s.fld Reg.MEM_TWIN_CTL Fld.MEM_TWIN_CTL_SIGCLU) (s.fld Reg.MEM_TWIN_CTL Fld.MEM_TWIN_CTL_SIGTOK) 1 0
  else s

/-- A firing that starts no push, or a waiting push that cannot start (R392). DEDUCED (log entry 120): a skip is an outcome in which a
push ends, so it signals too (R395, R411). -/
def State.skipPush (s : State) (result : Nat) : State :=
  ((s.setFld Reg.MEM_TWIN_STATUS Fld.MEM_TWIN_STATUS_RESULT result).event Reg.MEM_TS_STATUS (bitField 2)
    Reg.MEM_PUSH_SKIP_CNT).signalPush

/-- A push ends, DONE (1) or ABORTED with RESULT 6 to 12; its token is signalled with SIGEN (R395). -/
def State.endPush (s : State) (result : Nat) : State :=
  match s.push with
  | none => s
  | some p =>
    let s := { s with push := none }
    let s := (s.setPush 0).setFld Reg.MEM_TWIN_STATUS Fld.MEM_TWIN_STATUS_RESULT result
    let s := s.setFld (Reg.MEM_BANK_STATE p.bank) Fld.MEM_BANK_STATE_PUSH 0
    let s := if result = 1 then s.cnt Reg.MEM_PUSH_CNT
      else s.event Reg.MEM_TS_STATUS (bitField 1) Reg.MEM_PUSH_FAIL_CNT
    s.signalPush

/-- The sender aborts its push: ABORT with the reason of R393, then the end. A push that still waits for its seal has sent
nothing and sends no ABORT. -/
def State.abortPush (s : State) (reason result : Nat) : State :=
  match s.push with
  | none => s
  | some p => (if s.pushState = 1 then s else s.sendMirrorCtl s.twin p.step 6 reason 0).endPush result

/-! ### Unsealing, and the write every agent uses (R389) -/

def overlaps (a n b m : Nat) : Bool := decide (a < b + m) && decide (b < a + n) && decide (0 < n)

/-- A write touches bank `b` while it is SEALING or SEALED: its SEAL word clears, its fingerprint pass ends, and a push that
reads it aborts. -/
def State.unsealBank (s : State) (b : Nat) : State :=
  let s := (s.writeMem (s.bankBase b) (leBytes 8 0)).2
  let s := { s.setBank b 0 with seals := s.seals.filter (fun (j : SealJob) => j.bank != b) }
  match s.push with
  | some p => if p.bank = b ∧ 2 ≤ s.pushState then s.abortPush 4 6 else s
  | none => s

def State.unseal (s : State) (a n : Nat) : State :=
  if s.bankLen = 0 then s
  else (List.range 2).foldl (fun (s : State) b =>
    if (s.bankState b = 1 ∨ s.bankState b = 2) ∧ overlaps a n (s.bankBase b) s.bankLen then s.unsealBank b else s) s

/-- A write by a unit of the device: it first unseals what it touches (R389); the detected error its read-modify-writes met first
(R218, R225). -/
def State.write (s : State) (a : Nat) (bs : List Byte) : WrErr × State := (s.unseal a bs.length).writeMem a bs

/-- A write into HBM by an engine that reports the detected error of `err` (R217, R218). -/
def State.storeOwn (s : State) (err : Bool) (a : Nat) (bs : List Byte) : WrErr × State :=
  if err then (some (true, a), s.hbmDetect a) else s.write a bs

/-! ### Seals (R386 to R388) -/

/-- The segment table follows R387: entries 64-byte aligned, at least 64 bytes, inside the bank, ascending, not overlapping,
reserved bytes 0, KIND 0 to 8. -/
def segmentsOk (len : Nat) : Nat → Nat → List Byte → Bool
  | 0, _, _ => true
  | n + 1, low, bs =>
    let off := leNat (bs.take 8)
    let l := leNat ((bs.drop 8).take 8)
    decide (4096 ≤ off) && decide (low ≤ off) && off % 64 == 0 && l % 64 == 0 && decide (64 ≤ l) && decide (off + l ≤ len)
      && decide (leNat ((bs.drop 16).take 1) ≤ 8) && leNat ((bs.drop 17).take 1) == 0 && leNat ((bs.drop 20).take 4) == 0
      && segmentsOk len n (off + l) (bs.drop 32)

/-- The segment table meets R387; one whose bursts fail cannot be checked, and the seal's own read meets the error (R217, R445). -/
def State.segmentTableOk (s : State) (b : Nat) : Bool :=
  let base := s.bankBase b
  let n := s.peekNat (base + 0x400) 2
  !(s.badBursts base 4096).isEmpty || decide (n ≤ 94) && s.peekNat (base + 0x402) 62 == 0 && segmentsOk s.bankLen n 4096 (s.bytes (base + 0x440) (32 * n))

/-- The values of slot `i` that a seal captures (R386): those of T1's slots, and OWNER alone of the others. -/
def State.slotSnap (s : State) (i : Nat) : SlotSnap :=
  let o := s.fld (Reg.STK_SLOT i) Fld.STK_SLOT_OWNER
  if o = 1 then
    { k0 := s.rd (Reg.STK_KEY_LO i), k1 := s.rd (Reg.STK_KEY_HI i), ndi := s.fld (Reg.STK_NDI i) Fld.STK_NDI_NDI
      ndiPos := s.fld (Reg.MEM_SLOT_NDIPOS i) Fld.MEM_SLOT_NDIPOS_NDIPOS, dpos := s.rd (Reg.STK_DPOS i), owner := o }
  else { owner := o }

def SlotSnap.bytes (x : SlotSnap) : List Byte :=
  leBytes 8 x.k0.toNat ++ leBytes 8 x.k1.toNat ++ leBytes 8 x.ndi ++ leBytes 8 x.ndiPos ++ leBytes 8 x.dpos.toNat
    ++ leBytes 1 x.owner ++ leBytes 7 0

/-- The token of a seal's end (R388). -/
def State.signalSeal (s : State) : State :=
  if s.fld Reg.MEM_BANK_CTL Fld.MEM_BANK_CTL_SIGEN = 1 then
    s.signal (s.fld Reg.MEM_BANK_CTL Fld.MEM_BANK_CTL_SIGCLU) (s.fld Reg.MEM_BANK_CTL Fld.MEM_BANK_CTL_SIGTOK) 1 0
  else s

def State.sealError (s : State) (b : Nat) : State :=
  let s := { s.setBank b 3 with seals := s.seals.filter (fun (j : SealJob) => j.bank != b) }
  (s.event Reg.MEM_TS_STATUS (bitField 0) Reg.MEM_SEAL_ERR_CNT).signalSeal

/-- The bank a T1 mover write of exactly 8 bytes seals, if any (R388). -/
def State.sealTarget (s : State) (a n : Nat) : Option Nat :=
  if s.bankLen = 0 ∨ n ≠ 8 then none else (List.range 2).find? (fun b => s.bankBase b == a)

/-- SEAL_REQUEST: a request is itself a write into the bank; the cadence position and the slots are captured; a bad request ends
at once in SEAL_ERR (R388). -/
def State.sealRequest (s : State) (b value : Nat) : State :=
  let s := if s.bankState b = 1 ∨ s.bankState b = 2 then s.unsealBank b else s
  let step := value % 2 ^ 40
  let fpen := value.testBit 62
  let job : SealJob := { bank := b, step := step, fpen := fpen, pos := s.rd Reg.CAD_POS
                         slots := (List.range 16).map s.slotSnap }
  let s := (s.setFld (Reg.MEM_BANK_STATE b) Fld.MEM_BANK_STATE_FPEN fpen.toNat).setFld (Reg.MEM_BANK_STATE b)
    Fld.MEM_BANK_STATE_STEP step
  if value ≠ step + (if fpen then 2 ^ 62 else 0) ∨ s.bankLen % 65536 ≠ 0 ∨ !s.segmentTableOk b then s.sealError b
  else { s.setBank b 1 with seals := s.seals.filter (fun (j : SealJob) => j.bank != b) ++ [job] }

end Sys2Proof.Machine
end

