-- ==== Sys2Proof/Machine/Fp32.lean ====
section
/-!
DEFINITION. The arithmetic of the vector engine (R100 to R102): IEEE 754 binary32, round to nearest even, subnormals kept,
signed zeros, one canonical NaN; and the primitive functions of R101, each the exact value rounded once.
The irrational functions are evaluated in fixed point with 320 fraction bits, far beyond what one rounding to 24 bits can see.
-/
namespace Sys2Proof

/-- An FP32 word. -/
abbrev F32 := BitVec 32

/-- The canonical NaN of R100. -/
def f32NaN : F32 := 0x7FC00000
def f32Inf (neg : Bool) : F32 := if neg then 0xFF800000 else 0x7F800000
def f32Zero (neg : Bool) : F32 := if neg then 0x80000000 else 0

def f32Neg? (a : F32) : Bool := a.msb
def f32IsNaN (a : F32) : Bool := decide (0x7F800000 < a.toNat % 2 ^ 31)
def f32IsInf (a : F32) : Bool := a.toNat % 2 ^ 31 == 0x7F800000
def f32IsZero (a : F32) : Bool := a.toNat % 2 ^ 31 == 0
def f32IsFinite (a : F32) : Bool := decide (a.toNat % 2 ^ 31 < 0x7F800000)

/-- The exact value of a finite word. -/
def f32Frac (a : F32) : Frac :=
  match fp32Value a with
  | .fin q => q
  | _ => ⟨0, 1⟩

/-- The one rounding of an exact result (R100, R102): to FP32, or with `bf` to BF16 held in the upper half of the word.
A result that underflows to zero keeps its sign, but that of a sum is +0 (R58, R59, R112). -/
def Exact.rounded (bf : Bool) (e : Exact) : F32 :=
  match e.v with
  | .nan => f32NaN
  | .inf neg => f32Inf neg
  | .fin q =>
    if q.isZero then f32Zero e.zneg
    else
      let r := if bf then BitVec.ofNat 32 ((toBf16 (.fin q) .rne 0).toNat * 2 ^ 16) else toFp32 (.fin q) .rne 0
      if r = 0 then f32Zero (decide (q.num < 0) && !e.sum) else r

/-- A word as an exact result, unchanged when it is rounded to FP32. -/
def f32X (a : F32) : Exact := { v := fp32Value a, zneg := f32Neg? a }
def exactNaN : Exact := { v := .nan, zneg := false }
def exactInf (neg : Bool) : Exact := { v := .inf neg, zneg := false }
def exactZero (neg : Bool) : Exact := { v := .fin ⟨0, 1⟩, zneg := neg }
def exactOf (q : Frac) (zneg : Bool) : Exact := { v := .fin q, zneg := zneg }

def f32Negate (a : F32) : F32 := if f32IsNaN a then f32NaN else a ^^^ 0x80000000
def f32Abs (a : F32) : F32 := if f32IsNaN a then f32NaN else a &&& 0x7FFFFFFF

/-- `fma(a, b, c)`: a × b + c rounded once (R100, R101). -/
def f32FmaX (a b c : F32) : Exact :=
  if f32IsNaN a || f32IsNaN b || f32IsNaN c then exactNaN
  else
    let ps := f32Neg? a != f32Neg? b
    if f32IsInf a || f32IsInf b then
      if f32IsZero a || f32IsZero b then exactNaN
      else if f32IsInf c && (f32Neg? c != ps) then exactNaN
      else exactInf ps
    else if f32IsInf c then f32X c
    else
      let p := (f32Frac a).mul (f32Frac b)
      let zneg := if p.isZero && f32IsZero c then ps && f32Neg? c else false
      exactOf (p.add (f32Frac c)) zneg
def f32Fma (a b c : F32) : F32 := (f32FmaX a b c).rounded false

def f32AddX (a b : F32) : Exact :=
  if f32IsNaN a || f32IsNaN b then exactNaN
  else if f32IsInf a then (if f32IsInf b && (f32Neg? a != f32Neg? b) then exactNaN else f32X a)
  else if f32IsInf b then f32X b
  else exactOf ((f32Frac a).add (f32Frac b)) (f32IsZero a && f32IsZero b && f32Neg? a && f32Neg? b)
def f32Add (a b : F32) : F32 := (f32AddX a b).rounded false

def f32SubX (a b : F32) : Exact := if f32IsNaN b then exactNaN else f32AddX a (b ^^^ 0x80000000)
def f32Sub (a b : F32) : F32 := (f32SubX a b).rounded false

def f32MulX (a b : F32) : Exact :=
  if f32IsNaN a || f32IsNaN b then exactNaN
  else
    let sgn := f32Neg? a != f32Neg? b
    if f32IsInf a || f32IsInf b then (if f32IsZero a || f32IsZero b then exactNaN else exactInf sgn)
    else exactOf ((f32Frac a).mul (f32Frac b)) sgn
def f32Mul (a b : F32) : F32 := (f32MulX a b).rounded false

def f32DivX (a b : F32) : Exact :=
  if f32IsNaN a || f32IsNaN b then exactNaN
  else
    let sgn := f32Neg? a != f32Neg? b
    if f32IsInf a then (if f32IsInf b then exactNaN else exactInf sgn)
    else if f32IsInf b then exactZero sgn
    else if f32IsZero b then (if f32IsZero a then exactNaN else exactInf sgn)
    else exactOf ((f32Frac a).div (f32Frac b)) sgn
def f32Div (a b : F32) : F32 := (f32DivX a b).rounded false

def f32One : F32 := 0x3F800000
def f32Recip (a : F32) : F32 := f32Div f32One a

/-- `a < b` as numbers; false where either is NaN. -/
def f32Lt (a b : F32) : Bool :=
  if f32IsNaN a || f32IsNaN b then false
  else if f32IsInf a then (f32Neg? a && !(f32IsInf b && f32Neg? b))
  else if f32IsInf b then !f32Neg? b
  else (f32Frac a).lt (f32Frac b)

/-- MAX of R110 and R114: NaN if either is NaN; +0 over −0. -/
def f32Max (a b : F32) : F32 :=
  if f32IsNaN a || f32IsNaN b then f32NaN
  else if f32Lt a b then b
  else if f32Lt b a then a
  else if f32IsZero a then (if f32Neg? a then b else a) else a

/-- MIN of R110: NaN if either is NaN; −0 under +0. -/
def f32Min (a b : F32) : F32 :=
  if f32IsNaN a || f32IsNaN b then f32NaN
  else if f32Lt a b then a
  else if f32Lt b a then b
  else if f32IsZero a then (if f32Neg? a then a else b) else a

/-! ### Roots -/

/-- The integer square root, one result bit at a time from bit `k − 1` down. -/
def isqrtBits : Nat → Nat → Nat → Nat
  | 0, _, r => r
  | k + 1, n, r => let t := r + 2 ^ k; isqrtBits k n (if t * t ≤ n then t else r)

def isqrt (n : Nat) : Nat := isqrtBits (Nat.log2 n / 2 + 1) n 0

/-- The square root of a positive fraction to `k` fraction bits, half a unit added where it is not exact, so that one
rounding of it is the rounding of the exact root. -/
def sqrtSticky (q : Frac) (k : Nat) : Frac :=
  let n := (q.shift (2 * k)).floor.toNat
  let r := isqrt n
  if (Frac.ofInt (r * r)).eqv (q.shift (2 * k)) then (Frac.ofInt r).shift (-k)
  else (Frac.ofInt (2 * r + 1)).shift (-(k + 1))

def f32SqrtX (a : F32) : Exact :=
  if f32IsNaN a then exactNaN
  else if f32IsZero a then f32X a
  else if f32Neg? a then exactNaN
  else if f32IsInf a then f32X a
  else exactOf (sqrtSticky (f32Frac a) 120) false
def f32Sqrt (a : F32) : F32 := (f32SqrtX a).rounded false

def f32RsqrtX (a : F32) : Exact :=
  if f32IsNaN a then exactNaN
  else if f32IsZero a then exactInf (f32Neg? a)
  else if f32Neg? a then exactNaN
  else if f32IsInf a then exactZero false
  else exactOf (sqrtSticky ((Frac.ofInt 1).div (f32Frac a)) 120) false
def f32Rsqrt (a : F32) : F32 := (f32RsqrtX a).rounded false

/-! ### The irrational functions in fixed point -/

/-- Fraction bits of the fixed-point evaluations. -/
def fxBits : Nat := 320
def fxOne : Int := 2 ^ 320
def fxOf (q : Frac) : Int := (q.shift 320).floor
def fxMul (a b : Int) : Int := a * b / 2 ^ 320
def fxDiv (a b : Int) : Int := a * 2 ^ 320 / b
def fxFrac (a : Int) : Frac := (Frac.ofInt a).shift (-320)

/-- Σ 1 / (n 2^n) from `n` on: the series of ln 2. -/
def ln2Series : Nat → Nat → Int → Int
  | 0, _, acc => acc
  | k + 1, n, acc => ln2Series k (n + 1) (acc + 2 ^ 320 / ((n : Int) * 2 ^ n))
def fxLn2 : Int := ln2Series 330 1 0

/-- Taylor series of e^r: `t` is the current term. -/
def expSeries : Nat → Nat → Int → Int → Int → Int
  | 0, _, _, _, acc => acc
  | k + 1, n, r, t, acc => expSeries k (n + 1) r (fxMul t r / (n + 1)) (acc + t)

/-- e^q for a fraction of moderate size, as a fraction. -/
def expFrac (q : Frac) : Frac :=
  let x := fxOf q
  let k := x / fxLn2
  let r := x - k * fxLn2
  (fxFrac (expSeries 90 0 r fxOne 0)).shift k

/-- Σ z^(2n+1) / (2n+1), with `p` the current power of z. -/
def atanhSeries : Nat → Nat → Int → Int → Int → Int
  | 0, _, _, _, acc => acc
  | k + 1, n, z2, p, acc => atanhSeries k (n + 1) z2 (fxMul p z2) (acc + p / (2 * n + 1))

/-- The natural logarithm of a positive fraction. -/
def lnFrac (q : Frac) : Frac :=
  let e := q.log2
  let m := q.shift (-e)
  let z := fxOf ((m.sub (.ofInt 1)).div (m.add (.ofInt 1)))
  fxFrac (e * fxLn2 + 2 * atanhSeries 110 0 (fxMul z z) z 0)

/-- Σ (−1)^n z^(2n+1) / (2n+1) for z = 1/d: the arctangent series of Machin's formula. -/
def atanInv : Nat → Nat → Int → Int → Int → Int
  | 0, _, _, _, acc => acc
  | k + 1, n, d2, p, acc => atanInv k (n + 1) d2 (-(p / d2)) (acc + p / (2 * n + 1))
def fxPi : Int := 16 * atanInv 80 0 25 (fxOne / 5) 0 - 4 * atanInv 80 0 57121 (fxOne / 239) 0

/-- Taylor series of cos t: `p` is the current term, already signed. -/
def cosSeries : Nat → Nat → Int → Int → Int → Int
  | 0, _, _, _, acc => acc
  | k + 1, n, t2, p, acc => cosSeries k (n + 1) t2 (-(fxMul p t2) / ((2 * n + 1) * (2 * n + 2))) (acc + p)

/-- Σ 2^n x^(2n+1) / (2n+1)!!: the series of erf without cancellation. -/
def erfSeries : Nat → Nat → Int → Int → Int → Int
  | 0, _, _, _, acc => acc
  | k + 1, n, x2, p, acc => erfSeries k (n + 1) x2 (2 * fxMul p x2 / (2 * n + 3)) (acc + p)

/-- The IEEE limits of exp at non-finite and extreme arguments; the exact value rounded once elsewhere. -/
def f32ExpX (a : F32) : Exact :=
  if f32IsNaN a then exactNaN
  else if f32IsInf a then (if f32Neg? a then exactZero false else f32X a)
  else
    let q := f32Frac a
    if q.isZero then f32X f32One
    else if (Frac.ofInt 100).lt q then exactInf false
    else if q.lt (.ofInt (-200)) then exactZero false
    else exactOf (expFrac q) false
def f32Exp (a : F32) : F32 := (f32ExpX a).rounded false

def f32LogX (a : F32) : Exact :=
  if f32IsNaN a then exactNaN
  else if f32IsZero a then exactInf true
  else if f32Neg? a then exactNaN
  else if f32IsInf a then f32X a
  else if a = f32One then exactZero false
  else exactOf (lnFrac (f32Frac a)) false
def f32Log (a : F32) : F32 := (f32LogX a).rounded false

def f32TanhX (a : F32) : Exact :=
  if f32IsNaN a then exactNaN
  else if f32IsZero a then f32X a
  else if f32IsInf a || (Frac.ofInt 50).lt (f32Frac a).abs then (if f32Neg? a then f32X 0xBF800000 else f32X f32One)
  else
    let e := fxOf (expFrac ((f32Frac a).abs.shift 1).neg)
    let m := fxFrac (fxDiv (fxOne - e) (fxOne + e))
    exactOf (if f32Neg? a then m.neg else m) false
def f32Tanh (a : F32) : F32 := (f32TanhX a).rounded false

def f32SigmoidX (a : F32) : Exact :=
  if f32IsNaN a then exactNaN
  else if f32IsInf a then (if f32Neg? a then exactZero false else f32X f32One)
  else
    let q := f32Frac a
    if (Frac.ofInt 100).lt q then f32X f32One
    else if q.lt (.ofInt (-200)) then exactZero false
    else
      let e := expFrac q
      exactOf (e.div (e.add (.ofInt 1))) false
def f32Sigmoid (a : F32) : F32 := (f32SigmoidX a).rounded false

def f32ErfX (a : F32) : Exact :=
  if f32IsNaN a then exactNaN
  else if f32IsZero a then f32X a
  else if f32IsInf a || (Frac.ofInt 10).lt (f32Frac a).abs then (if f32Neg? a then f32X 0xBF800000 else f32X f32One)
  else
    let q := (f32Frac a).abs
    let x := fxOf q
    let s := erfSeries 620 0 (fxMul x x) x 0
    let e := fxOf (expFrac (q.mul q).neg)
    let rootPi := Int.ofNat (isqrt (fxPi.toNat * 2 ^ 320))
    let m := fxFrac (fxDiv (2 * fxMul s e) rootPi)
    exactOf (if f32Neg? a then m.neg else m) false
def f32Erf (a : F32) : F32 := (f32ErfX a).rounded false

/-- cos(πx), the argument reduced modulo 2 exactly. -/
def f32CosPiX (a : F32) : Exact :=
  if f32IsNaN a || f32IsInf a then exactNaN
  else
    let q := (f32Frac a).abs
    let r := q.sub (.ofInt (2 * (q.shift (-1)).floor))
    let r := if (Frac.ofInt 1).lt r then (Frac.ofInt 2).sub r else r
    if r.eqv ⟨1, 2⟩ then exactZero false
    else if r.isZero then f32X f32One
    else if r.eqv ⟨1, 1⟩ then f32X 0xBF800000
    else
      let flip := (⟨1, 2⟩ : Frac).lt r
      let t := fxMul fxPi (fxOf (if flip then (Frac.ofInt 1).sub r else r))
      let c := fxFrac (cosSeries 60 0 (fxMul t t) fxOne 0)
      exactOf (if flip then c.neg else c) false
def f32CosPi (a : F32) : F32 := (f32CosPiX a).rounded false

/-! ### BF16 (R102) -/

def bf16To32 (b : BitVec 16) : F32 := BitVec.ofNat 32 (b.toNat * 2 ^ 16)

/-- A signed 32-bit integer result. -/
def int32Of (i : Int) : BitVec 32 := BitVec.ofInt 32 i

end Sys2Proof
end

