-- ==== Sys2Proof/Machine/Operands.lean ====
section
/-!
DEFINITION. Every operand form of a tensor: descriptors, their validity and their effective addresses (R140 to R142), the transfer
stream (R256), and the elements as values (R40 to R48, R61, R64, R141).
-/
namespace Sys2Proof.Machine

/-- Bits `hi:lo` of the 64-bit word at byte offset `off` of a descriptor. -/
def Desc.word (d : Desc) (off lo width : Nat) : Nat := d.raw.toNat / 2 ^ (8 * off + lo) % 2 ^ width

def Desc.base (d : Desc) : Nat := d.word 0 0 48
def Desc.fmt (d : Desc) : Nat := d.word 0 48 8
def Desc.orient (d : Desc) : Nat := d.word 0 56 2
def Desc.ndim (d : Desc) : Nat := d.word 0 58 2
def Desc.sbase (d : Desc) : Nat := d.word 8 0 48
def Desc.layer (d : Desc) : Nat := d.word 8 48 16
def Desc.size (d : Desc) (i : Nat) : Nat :=
  if d.ndim < i then 1
  else match i with
    | 0 => d.word 0x10 0 24
    | 1 => d.word 0x10 24 24
    | 2 => d.word 0x18 0 24
    | _ => d.word 0x18 24 24
def Desc.tensor (d : Desc) : Nat := d.word 0x10 48 8
def Desc.idxreg (d : Desc) : Nat := d.word 0x10 56 5
def Desc.stride (d : Desc) (i : Nat) : Nat := d.word (0x18 + 8 * i) 0 40
def Desc.istride (d : Desc) : Nat := d.word 0x38 0 40

/-- Bits of an element (R141); 0 for a reserved code. -/
def fmtBits : Nat → Nat
  | 0x00 => 32 | 0x01 => 16 | 0x02 => 8 | 0x03 => 8 | 0x04 => 8 | 0x05 => 8 | 0x06 => 6 | 0x07 => 6 | 0x08 => 4 | 0x09 => 8
  | 0x0A => 16 | 0x0B => 32 | 0x0C => 48 | 0x0D => 32 | 0x0E => 1 | 0x0F => 8 | 0x10 => 128
  | _ => 0

/-- Formats with a scale per block of 32 (R141, R142). -/
def fmtBlocked (f : Nat) : Bool := decide (4 ≤ f) && decide (f ≤ 0x0C)
def fmtFp8 (f : Nat) : Bool := f == 2 || f == 3
/-- Dense formats (R142). -/
def fmtDense (f : Nat) : Bool := (decide (2 ≤ f) && decide (f ≤ 0x0C)) || f == 0x0E

def Desc.bits (d : Desc) : Nat := fmtBits d.fmt
def Desc.count (d : Desc) : Nat := d.size 0 * d.size 1 * d.size 2 * d.size 3
def Desc.outer (d : Desc) : Nat := d.size 2 * d.size 3

/-- R142: a descriptor is valid. A size of 0 within NDIM makes it invalid (DESIGN CHOICE, log entry 136). -/
def Desc.valid (d : Desc) : Bool :=
  let dense (i : Nat) : Bool :=
    decide (d.ndim < i) || (decide (d.stride i * 8 = (List.range i).foldl (fun n j => n * d.size j) d.bits))
  d.word 0 60 4 == 0 && d.word 0x10 61 3 == 0 && d.word 0x18 48 16 == 0
    && [0x20, 0x28, 0x30, 0x38].all (fun o => d.word o 40 24 == 0)
    && decide (d.fmt ≤ 0x10) && d.orient != 3
    && (List.range 4).all (fun i => decide (0 < d.size i))
    && (if fmtDense d.fmt then dense 1 && dense 2 && dense 3 else true)
    && (if fmtBlocked d.fmt then
          (d.orient == 1 && d.size 0 % 32 == 0) || (d.orient == 2 && decide (1 ≤ d.ndim) && d.size 1 % 32 == 0)
        else d.orient == 0)
    && (d.idxreg == 0 || !(fmtBlocked d.fmt || d.fmt == 0x0E) || d.istride % 32 == 0)

/-- s[IDXREG] × ISTRIDE, in elements. -/
def Desc.skip (d : Desc) : Nat := if d.idxreg = 0 then 0 else d.idx.toNat * d.istride

/-- The effective element and scale addresses, modulo 2^64 (R142). -/
def Desc.addr (d : Desc) : Nat := (d.base + d.skip * d.bits / 8) % 2 ^ 64
def Desc.scaleAddr (d : Desc) : Nat := (d.sbase + d.skip / 32) % 2 ^ 64

/-- The same tensor with its index offset folded into its addresses (R258). -/
def Desc.folded (d : Desc) : BitVec 512 :=
  let w0 := d.raw.toNat / 2 ^ 48 % 2 ^ 16 * 2 ^ 48 + d.addr % 2 ^ 48
  let w1 := d.raw.toNat / 2 ^ 112 % 2 ^ 16 * 2 ^ 48 + (if fmtBlocked d.fmt ∨ fmtFp8 d.fmt then d.scaleAddr % 2 ^ 48 else d.sbase)
  let w2 := d.word 0x10 0 56
  let rest := d.raw.toNat / 2 ^ 192 % 2 ^ 320
  BitVec.ofNat 512 (w0 + w1 * 2 ^ 64 + w2 * 2 ^ 128 + rest * 2 ^ 192)

/-- Bytes of the element array when dense, and of the scale array (R234, R256). -/
def Desc.elemBytes (d : Desc) : Nat := (d.count * d.bits + 7) / 8
def Desc.scaleBytes (d : Desc) : Nat := if fmtBlocked d.fmt then d.count / 32 else 0
/-- The length of the transfer stream (R256). -/
def Desc.total (d : Desc) : Nat := d.elemBytes + d.scaleBytes

/-- Elements lie at any strides, or dense (R142). -/
def Desc.strided (d : Desc) : Bool := !fmtDense d.fmt

/-- Address of the row (all indices above the innermost, in row-major order) of a strided tensor. -/
def Desc.rowAddr (d : Desc) (row : Nat) : Nat :=
  d.addr + row % d.size 1 * d.stride 1 + row / d.size 1 % d.size 2 * d.stride 2 + row / d.size 1 / d.size 2 * d.stride 3

/-- Bytes of the element array from its lowest to its highest byte (R228). -/
def Desc.span (d : Desc) : Nat :=
  if d.strided then
    (d.size 1 - 1) * d.stride 1 + (d.size 2 - 1) * d.stride 2 + (d.size 3 - 1) * d.stride 3 + d.size 0 * d.bits / 8
  else d.elemBytes

/-- The byte ranges the descriptor names: elements, and for a block format the scales (R228). -/
def Desc.ranges (d : Desc) : List (Nat × Nat) :=
  (d.addr, d.span) :: (if fmtBlocked d.fmt then [(d.scaleAddr, d.scaleBytes)] else [])

/-- The contiguous pieces, as (address, length), of stream bytes `off` to `off + n − 1` (R256). -/
def Desc.pieces (d : Desc) : Nat → Nat → Nat → List (Nat × Nat)
  | 0, _, _ => []
  | fuel + 1, off, n =>
    if n = 0 then []
    else if off < d.elemBytes then
      let rowBytes := if d.strided then d.size 0 * d.bits / 8 else d.elemBytes
      let within := off % rowBytes
      let len := min n (rowBytes - within)
      (if d.strided then d.rowAddr (off / rowBytes) + within else d.addr + within, len) :: d.pieces fuel (off + len) (n - len)
    else [(d.scaleAddr + (off - d.elemBytes), n)]

def Desc.chunkPieces (d : Desc) (off n : Nat) : List (Nat × Nat) := d.pieces (n + 1) off n

/-- The ranges a chunk check covers: its lowest to its highest element byte, and its scale bytes (R228, R256). -/
def Desc.chunkRanges (d : Desc) (off n : Nat) : List (Nat × Nat) :=
  let ps := d.chunkPieces off n
  let inElems := ps.take (if off + n ≤ d.elemBytes then ps.length else if d.elemBytes ≤ off then 0 else ps.length - 1)
  let sc := ps.drop inElems.length
  let lo := inElems.foldl (fun m p => min m p.1) (inElems.head?.map (·.1) |>.getD 0)
  let hi := inElems.foldl (fun m p => max m (p.1 + p.2)) 0
  (if inElems.isEmpty then [] else [(lo, hi - lo)]) ++ sc

/-! ### Reading and writing pieces -/

/-- Read pieces in order; the first detected error stops it. -/
def State.readPieces (s : State) : List (Nat × Nat) → MemRes × State
  | [] => (.ok [], s)
  | p :: rest =>
    match s.readMem p.1 p.2 with
    | (.detected h a, s) => (.detected h a, s)
    | (.ok bs, s) =>
      match s.readPieces rest with
      | (.ok more, s) => (.ok (bs ++ more), s)
      | r => r

/-- Write bytes into pieces in order; the detected error a partial burst or word met first. -/
def State.writePieces (s : State) : List (Nat × Nat) → List Byte → WrErr × State
  | [], _ => (none, s)
  | p :: rest, bs =>
    let w := s.write p.1 (bs.take p.2)
    let r := w.2.writePieces rest (bs.drop p.2)
    (w.1.or r.1, r.2)

/-! ### Elements as values -/

/-- The element formats of rank operands (R141). -/
def elemFmt : Nat → Option ElemFmt
  | 0x02 => some .e4m3 | 0x03 => some .e5m2 | 0x04 => some .e4m3 | 0x05 => some .e5m2 | 0x06 => some .e3m2
  | 0x07 => some .e2m3 | 0x08 => some .e2m1 | 0x09 => some .int8 | 0x0A => some .bx16
  | _ => none

/-- `w` bits at bit offset `bit` from address `a`. -/
def State.peekBits (s : State) (a bit w : Nat) : Nat :=
  let lo := bit / 8
  let n := (bit % 8 + w + 7) / 8
  s.peekNat (a + lo) n / 2 ^ (bit % 8) % 2 ^ w

/-- Where element `e` (row-major) lies: its byte address and the bit within. -/
def Desc.elemAt (d : Desc) (e : Nat) : Nat × Nat :=
  if d.strided then (d.rowAddr (e / d.size 0) + e % d.size 0 * (d.bits / 8), 0)
  else (d.addr + e * d.bits / 8, e * d.bits % 8)

def State.elemCode (s : State) (d : Desc) (e : Nat) : Nat :=
  let p := d.elemAt e
  s.peekBits p.1 p.2 d.bits

/-- Which scale of the scale array is element `e`'s (R82, R142). -/
def Desc.scaleIx (d : Desc) (e : Nat) : Nat :=
  if d.orient = 1 then e / 32
  else
    let i0 := e % d.size 0
    let i1 := e / d.size 0 % d.size 1
    let o := e / d.size 0 / d.size 1
    (o * (d.size 1 / 32) + i1 / 32) * d.size 0 + i0

def State.elemScale (s : State) (d : Desc) (e : Nat) : Nat := (s.byte (d.scaleAddr + d.scaleIx e)).toNat

/-- The value of element `e`: a float, a block element under its scale, an AQ integer on its quantum (R64), an integer. FP8 with
sidecar is read under the tile exponent `m` (R61). DESIGN CHOICE (log entry 144): an AQ block of scale code 0xFF has the values that
R64's formula gives. -/
def State.elemNum (s : State) (d : Desc) (e : Nat) (m : Int) : Num :=
  let code := s.elemCode d e
  let scaled (n : Num) (k : Int) : Num := match n with
    | .fin q => .fin (q.shift k)
    | x => x
  match d.fmt with
  | 0x00 => fp32Value (BitVec.ofNat 32 code)
  | 0x01 => bf16Value (BitVec.ofNat 16 code)
  | 0x02 => scaled (ElemFmt.e4m3.value code) (-m)
  | 0x03 => scaled (ElemFmt.e5m2.value code) (-m)
  | 0x0B => scaled (aqValue 32 code) ((s.elemScale d e : Int) - 158)
  | 0x0C => scaled (aqValue 48 code) ((s.elemScale d e : Int) - 158)
  | 0x0D => .fin (Frac.ofInt (toSigned 32 code))
  | 0x0E => .fin (Frac.ofInt code)
  | 0x0F => .fin (Frac.ofInt code)
  | f => match elemFmt f with
    | some ef => blockValue ef (s.elemScale d e) code
    | none => .nan

/-- Bits to be stored: the byte address, the bit within, the width and the value. -/
structure BitItem where
  addr : Nat
  bit : Nat
  width : Nat
  val : Nat
  deriving DecidableEq, Repr

/-- The code `v` of element `e`, and of the scale of its block. -/
def Desc.elemItem (d : Desc) (e v : Nat) : BitItem := ⟨(d.elemAt e).1, (d.elemAt e).2, d.bits, v⟩
def Desc.scaleItem (d : Desc) (e v : Nat) : BitItem := ⟨d.scaleAddr + d.scaleIx e, 0, 8, v⟩

/-- Bits written, those beside them kept; the detected error the write met. -/
def State.putItem (s : State) (x : BitItem) : WrErr × State :=
  let n := (x.bit + x.width + 7) / 8
  let old := s.peekNat x.addr n
  s.write x.addr (leBytes n (old % 2 ^ x.bit + x.val % 2 ^ x.width * 2 ^ x.bit + old / 2 ^ (x.bit + x.width) * 2 ^ (x.bit + x.width)))

/-- The stage words that the items cover together are written whole, so that nothing of them is read first (R225). -/
def State.wholeWords (s : State) (xs : List BitItem) : State :=
  { s with badStage := s.badStage.filter (fun w => !(List.range 32).all (fun b => xs.any (fun x =>
      decide (8 * x.addr + x.bit ≤ 32 * w + b) && decide (32 * w + b < 8 * x.addr + x.bit + x.width)))) }

/-- Items written in order, and the first detected error that the writes met. -/
def State.putItems (s : State) (xs : List BitItem) : WrErr × State :=
  xs.foldl (fun (acc : WrErr × State) x =>
    let w := acc.2.putItem x
    (acc.1.or w.1, w.2)) (none, s.wholeWords xs)

/-! ### Checks shared by the instructions (R99, R103, R185, R228) -/

/-- Every range lies wholly in the stage memory of cluster `c`. -/
def rangesInStage (c : Nat) (rs : List (Nat × Nat)) : Bool := rs.all (fun r => inStage c r.1 r.2)

/-- Every range passes its region check. -/
def State.rangesOk (s : State) (t : Nat) (p : Perm) (rs : List (Nat × Nat)) : Bool := rs.all (fun r => s.regionOk t r.1 r.2 p)

def rangesOverlap (xs ys : List (Nat × Nat)) : Bool := xs.any (fun x => ys.any (fun y => overlaps x.1 x.2 y.1 y.2))

def Desc.sameShape (a b : Desc) : Bool := (List.range 4).all (fun i => a.size i == b.size i)

end Sys2Proof.Machine
end

