-- ==== Sys2Proof/Machine/Errors.lean ====
section
/-!
DEFINITION. Error detection (spec/14_faults_and_selftest.md): unit states and their records, the error log, charging a detected error
to a unit, and the queue of targeted tests.
-/
namespace Sys2Proof.Machine

/-! ### Unit states and records (R460 to R463, R469) -/

/-- GLB_UNIT_QUERY shows the unit it names (R469). -/
def State.showQuery (s : State) : State :=
  let r := s.unitOf (s.fld Reg.GLB_UNIT_QUERY Fld.GLB_UNIT_QUERY_UNIT_ID)
  ((s.setFld Reg.GLB_UNIT_QUERY Fld.GLB_UNIT_QUERY_STATE r.state).setFld Reg.GLB_UNIT_QUERY Fld.GLB_UNIT_QUERY_COND
    r.cond.toNat).setFld Reg.GLB_UNIT_QUERY Fld.GLB_UNIT_QUERY_CONF r.conf

def State.unitState (s : State) (u : Nat) : Nat := (s.unitOf u).state

/-- Boot failed in the ROM or the KEEPER stage: no cluster and no port runs (R539). -/
def State.bootDead (s : State) : Bool :=
  s.fld Reg.GLB_BOOT_STATUS Fld.GLB_BOOT_STATUS_STAGE == 6 && s.fld Reg.GLB_BOOT_STATUS Fld.GLB_BOOT_STATUS_FAIL != 6

/-- The physical rank of cluster `c` that serves no logical rank, if it is in service (R88, R91). -/
def State.spareRank (s : State) (c : Nat) : Option Nat :=
  let r := s.fld (Reg.CLU_RANK_MAP c) Fld.CLU_RANK_MAP_SPARE
  if 12 < r ∨ s.unitState (unitId 2 (c * 16 + r)) = 3 then none else some r

/-- The clusters that are RETIRED. -/
def State.retiredClusters (s : State) : List Nat := (List.range 64).filter (fun c => s.unitState (unitId 1 c) == 3)

/-- The unit-state record of R463. -/
def State.unitRecord (s : State) : List Byte :=
  let l := s.lastChange
  let body := leBytes 4 (s.fld Reg.GLB_UNIT_EPOCH Fld.GLB_UNIT_EPOCH_EPOCH) ++ leBytes 2 s.chip
    ++ leBytes 1 (s.unitState 0) ++ leBytes 1 l.2.2.2 ++ leBytes 4 l.1 ++ leBytes 1 l.2.1 ++ leBytes 1 l.2.2.1
    ++ leBytes 2 0 ++ leBytes 8 (s.rd Reg.CAD_POS).toNat
    ++ leBytes 8 (s.retiredClusters.foldl (fun n c => n + 2 ^ c) 0)
    ++ leBytes 1 ((List.range 64).filter (fun c => (s.spareRank c).isSome)).length
    ++ leBytes 1 ((List.range 12).filter (fun p => s.linkState p == 5)).length
    ++ leBytes 2 (s.fld Reg.MEM_REMAP_STATUS Fld.MEM_REMAP_STATUS_J)
    ++ leBytes 4 (s.units.filter (fun e => e.2.cond)).length ++ leBytes 20 0
  body ++ leBytes 4 (crc32c body).toNat

/-- One unit-state record goes to the peer of every ACTIVE port and to the twin, and to the board manager through the keeper
mailbox (R462, R514). -/
def State.publish (s : State) : State :=
  let rec' := s.unitRecord
  let send (s : State) (dst : Nat) : State :=
    s.inject { dst := dst, src := s.chip, tc := 2, type := 8, body := rec' }
  let peers := ((List.range 12).filter (fun p => s.linkState p == 5)).map (fun p => s.fld (Reg.PRT_PEER p) Fld.PRT_PEER_CHIP)
  let s := (peers ++ [s.twin]).eraseDups.foldl send s
  let s := (s.tellKeeper 4 (s.fld Reg.GLB_UNIT_EPOCH Fld.GLB_UNIT_EPOCH_EPOCH) 0).say (.ibi 2)
  (s.cnt Reg.GLB_RECORD_TX_CNT).bumpGlb 0x11 0 1

/-- The state epoch rises, a record is published, and the tenants' event queues learn the new epoch (R462, R512). -/
def State.epochUp (s : State) : State :=
  let e := s.fld Reg.GLB_UNIT_EPOCH Fld.GLB_UNIT_EPOCH_EPOCH + 1
  let s := s.setFld Reg.GLB_UNIT_EPOCH Fld.GLB_UNIT_EPOCH_EPOCH e
  [1, 2, 3].foldl (fun (s : State) t => s.evq t 4 0 (e % 2 ^ 32)) s.showQuery.publish

/-- A unit enters a state with an outcome and a cause; an unchanged state and record change nothing (R462, R463). -/
def State.unitChange (s : State) (u : Nat) (r : UnitRec) (outcome cause : Nat) : State :=
  let old := s.unitOf u
  let s := { s.setUnit u r with lastChange := (u, r.state, outcome, cause) }
  if old.state = r.state ∧ old.cond = r.cond then s.showQuery else s.epochUp

/-- A confirmation of a unit's open condition record changes the record (R457, R462). -/
def State.confirm (s : State) (u cause : Nat) : State :=
  let r := s.unitOf u
  ({ (s.cnt Reg.GLB_CONFIRM_CNT).setUnit u { r with conf := r.conf + 1 } with lastChange := (u, r.state, 4, cause) }).epochUp

/-- The state of a unit in service: DEGRADED with an open condition record, or where its kind has no spare left (R461). -/
def State.inService (s : State) (u : Nat) : Nat :=
  let noSpare : Bool := match u / 2 ^ 28 with
    | 2 => (s.spareRank (u % 2 ^ 28 / 16)).isNone
    | 3 =>
      let v := s.rd (Reg.RNK_SKEW_MAP (u % 2 ^ 28 / 4096) (u % 2 ^ 28 / 256 % 16))
      v.getLsbD 8 && v.getLsbD 24 && v.getLsbD 40 && v.getLsbD 56
    | _ => false
  if (s.unitOf u).cond || noSpare then 1 else 0

/-- The same, once its condition record is closed. -/
def State.inServiceClear (s : State) (u : Nat) : Nat := (s.setUnit u { s.unitOf u with cond := false }).inService u

/-! ### The error log (R456, R470) -/

/-- What an outcome or an error adds to the log. -/
structure LogEntry where
  cls : Nat
  outcome : Nat
  tenant : Nat
  unit : Nat
  failIndex : Nat := 0xFFFFFFFF
  cpos : BitVec 64
  tsc : Nat
  dpa : Nat := 0
  dieTemp : Nat := 0
  railMv : Nat := 0

/-- min(15, floor(log2(count + 1))) of each estimator source (R470). -/
def State.actSig (s : State) : Nat :=
  (List.range 12).foldl (fun n i => n + min 15 (Nat.log2 (s.act.getD i 0 + 1)) * 2 ^ (4 * i)) 0

def State.logError (s : State) (e : LogEntry) : State :=
  if s.fld Reg.GLB_ERR_LOG_CTL Fld.GLB_ERR_LOG_CTL_EN = 0 then s
  else
    let n := min 12 (s.fld Reg.GLB_ERR_LOG_CTL Fld.GLB_ERR_LOG_CTL_LOG2N)
    let ix := s.fld Reg.GLB_ERR_LOG_IDX Fld.GLB_ERR_LOG_IDX_IDX
    let bs := leBytes 4 ix ++ leBytes 1 e.cls ++ leBytes 1 e.outcome ++ leBytes 1 e.tenant ++ leBytes 1 0 ++ leBytes 4 e.unit
      ++ leBytes 4 e.failIndex ++ leBytes 8 e.cpos.toNat ++ leBytes 8 e.tsc ++ leBytes 8 e.dpa ++ leBytes 2 e.dieTemp
      ++ leBytes 2 e.railMv ++ leBytes 1 (s.fld Reg.PWR_ACTIVE Fld.PWR_ACTIVE_FLEVEL) ++ leBytes 3 0 ++ leBytes 6 s.actSig
      ++ leBytes 2 0 ++ leBytes 4 (s.fld Reg.GLB_UNIT_EPOCH Fld.GLB_UNIT_EPOCH_EPOCH) ++ leBytes 4 0
    let s := ((s.onBehalf 0).write (s.fld Reg.GLB_ERR_LOG_BASE Fld.GLB_ERR_LOG_BASE_BASE + ix % 2 ^ n * 64) bs).2
    s.setFld Reg.GLB_ERR_LOG_IDX Fld.GLB_ERR_LOG_IDX_IDX (ix + 1)

/-! ### Charging an error (R445, R447, R453, R457, R466) -/

/-- The ring that a unit's error triggers: its cluster's, its port's, or the ring of power and reliability (R473, R478). -/
def unitRing (u : Nat) : Nat :=
  match unitCluster u, u / 2 ^ 28 with
  | some c, _ => c
  | none, 8 => 64 + u % 2 ^ 28 % 12
  | none, 9 => 64 + u % 2 ^ 28 / 32 % 12
  | none, _ => 79

/-- The tests waiting or running on the engine that tests a unit. -/
def State.testsFor (s : State) (u : Nat) : List TestReq :=
  match unitCluster u with
  | some c => (s.cl c).tests
  | none => s.hbmTests

/-- The engine that tests a unit: its cluster's, or the memory controller of its stack (R453). -/
def testEngine (u : Nat) : Nat :=
  match unitCluster u with
  | some c => c
  | none => 64 + u % 8

def State.setTestsFor (s : State) (u : Nat) (l : List TestReq) : State :=
  match unitCluster u with
  | some c => s.modCl c (fun k => { k with tests := l })
  | none => { s with hbmTests := l }

/-- UNTESTED (R456, R466): logged, and left to the next slice. -/
def State.untested (s : State) (q : TestReq) : State :=
  let s := s.event Reg.GLB_RAS_STATUS (bitField 4) Reg.GLB_UNTESTED_CNT
  let s := s.setUnit q.unit { s.unitOf q.unit with untested := true }
  let s := { s with lastChange := (q.unit, s.unitState q.unit, 5, q.cls) }
  s.logError { cls := q.cls, outcome := 5, tenant := q.tenant, unit := q.unit, cpos := q.cpos, tsc := q.tsc, dpa := q.dpa }

/-- A detected error of class `cls` is charged to a unit: flags and counters, the trace and its trigger; then the targeted test is
queued, unless the unit is TESTING, retired, or of a kind that takes no test (R445, R453, R466). An error of a unit with an open
condition record counts as a confirmation besides (R457). -/
def State.charge (s : State) (cls unit tenant dpa : Nat) : State :=
  let s := s.event Reg.GLB_RAS_STATUS (bitField 0) Reg.GLB_DETECT_CNT
  let s := s.cnt (Reg.GLB_CLASS_CNT (cls - 1))
  let s := s.trace 79 0x16 cls 0 (peerWord 0 0 0 unit 0)
  let s := s.trigger (unitRing unit) 2
  let q : TestReq := { unit := unit, cls := cls, tenant := tenant, dpa := dpa, cpos := s.rd Reg.CAD_POS, tsc := s.now }
  let log (s : State) : State :=
    s.logError { cls := cls, outcome := 0, tenant := tenant, unit := unit, cpos := q.cpos, tsc := q.tsc, dpa := dpa }
  let r := s.unitOf unit
  if r.state = 2 ∨ r.state = 3 then log s
  else if unit / 2 ^ 28 = 9 ∨ unit / 2 ^ 28 = 8 ∨ unit / 2 ^ 28 = 10 ∨ unit / 2 ^ 28 = 0 then s
  else
    let s := if r.cond then s.confirm unit cls else s
    let tests := s.testsFor unit
    if (unitCluster unit).isSome ∧ 4 ≤ (tests.filter (fun (x : TestReq) => !x.running)).length then s.untested q
    else
      let s := s.setTestsFor unit (tests ++ [q])
      s.unitChange unit { s.unitOf unit with state := 2 } 0 cls

/-- The pseudo-channel that holds a burst, as a unit. -/
def State.pcUnit (s : State) (dpa : Nat) : Nat := unitId 7 (hbmLocate s.retired dpa).1

/-- The stage bank of an address, as a unit (R223, R460). -/
def stageBankUnit (dpa : Nat) : Nat :=
  let o := dpa - 0x10000000000
  unitId 6 (o / 0x800000 * 64 + o % 0x800000 / 128 % 48)

/-- A requester met a detected error of memory: HBM_DETECT or STAGE_PARITY is charged (R448, R449). -/
def State.chargeMem (s : State) (hbm : Bool) (dpa tenant : Nat) : State :=
  if hbm then s.charge 5 (s.pcUnit dpa) tenant dpa else s.charge 4 (stageBankUnit dpa) tenant dpa

/-- The detected error that a write met, charged to the unit that holds the data (R218, R225). -/
def State.chargeWrite (s : State) (r : WrErr) (tenant : Nat) : State :=
  match r with
  | some e => s.chargeMem e.1 e.2 tenant
  | none => s

/-- Items written by an instruction of a tenant; a detected error of the bank's read-modify-write is charged (R225). -/
def State.putAll (s : State) (tenant : Nat) (xs : List BitItem) : State :=
  let w := (s.onBehalf tenant).putItems xs
  w.2.chargeWrite w.1 tenant

/-- A write by an engine of the device, with the detected error of `err` or of its own: whether it failed; the error is charged (R217,
R218, R445). -/
def State.storeCharged (s : State) (err : Bool) (a : Nat) (bs : List Byte) (tenant : Nat) : Bool × State :=
  let w := (s.onBehalf tenant).storeOwn err a bs
  (w.1.isSome, w.2.chargeWrite w.1 tenant)

/-- The error that strikes a read: stored data goes bad, or a stage read whose re-read passes is charged and its data delivered
(R216, R448). The access that follows is for the tenant. -/
def State.meet (s : State) (e : MemErr) (tenant : Nat) : State :=
  match e with
  | .stage dpa _ false => (s.charge 4 (stageBankUnit dpa) tenant dpa).onBehalf tenant
  | _ => (s.strike e).onBehalf tenant

end Sys2Proof.Machine
end

