-- ==== Sys2Proof/Machine/Flags.lean ====
section
/-!
DEFINITION. What a write does to the flags and fields of one register under the access codes of R6 (a W1C flag clears, a lock bit
sticks, a locked field stays), before any effect of its own chapter.
-/
namespace Sys2Proof.Machine

/-- The bits of a field in place. -/
def fieldMask (f : Field) : BitVec 64 := BitVec.ofNat 64 ((2 ^ f.width - 1) * 2 ^ f.lo)

end Sys2Proof.Machine

namespace Sys2Proof

/-- The fields of code RWL are held: the register's lock bit, its W1S field, is set (R6, R565). -/
def RegDesc.locked (d : RegDesc) (old : BitVec 64) : Bool :=
  d.fields.any (fun e => e.2 == .rwl) && d.fields.any (fun e => e.2 == .w1s && (old &&& Machine.fieldMask e.1) != 0)

/-- The new value of a register written with `v`, where `held` keeps its RWL fields: RW fields take the value; W1C bits clear; W1S bits
stick; RO, RO/V and reserved bits stay; WO fields, and W1S bits that read 0, hold nothing (R6, R564). -/
def RegDesc.written (d : RegDesc) (held : Bool) (old v : BitVec 64) : BitVec 64 :=
  d.fields.foldl (fun acc e =>
    let m := Machine.fieldMask e.1
    match e.2 with
    | .ro => acc ||| (old &&& m)
    | .rov => acc ||| (old &&& m)
    | .rw => acc ||| (v &&& m)
    | .rwl => acc ||| ((if held then old else v) &&& m)
    | .w1c => acc ||| (old &&& m &&& ~~~v)
    | .w1s => acc ||| ((old ||| v) &&& m)
    | .w1g => acc
    | .wo => acc) 0

namespace Machine

/-- A write of the register at `off` by the access codes alone. -/
def State.writeCodes (s : State) (off : Nat) (v : BitVec 64) : State :=
  match regAt off with
  | none => s
  | some d => s.wr off (d.written (d.locked (s.rd off)) (s.rd off) v)

end Machine
end Sys2Proof
end

