-- ==== Sys2Proof/Machine/Observe.lean ====
section
/-!
DEFINITION. Trace, counters and telemetry (spec/15_observation.md): triggers and freezes, the drain and its blocks, trace windows,
counter selection and snapshot pages.
-/
namespace Sys2Proof

/-- A trace record as its 32 bytes (R474). -/
def Machine.TraceRec.bytes (r : Machine.TraceRec) : List Byte :=
  leBytes 8 r.tsc.toNat ++ leBytes 8 r.cpos.toNat ++ leBytes 1 r.event ++ leBytes 1 r.unit ++ leBytes 2 r.obj
    ++ leBytes 4 r.dur ++ leBytes 8 r.peer.toNat

namespace Machine

/-! ### Triggers and freezes (R478, R479, R485) -/

/-- A ring resumes recording. -/
def State.ringResume (s : State) (u : Nat) : State :=
  (s.setRing u { s.ring u with post := 0 }).setFld (Reg.TRC_RING_STAT u) Fld.TRC_RING_STAT_STATE 0

/-- TRC_TRIG: the ring of UNIT, or with ALL every enabled ring (R478, R496). -/
def State.writeTrcTrig (s : State) (v : BitVec 32) : State :=
  if v.getLsbD 7 then
    let s := s.event Reg.TRC_STATUS Fld.TRC_STATUS_TRIG Reg.TRC_TRIG_CNT
    (List.range 80).foldl (fun (s : State) u => s.triggerRing u 3) s
  else if v.toNat % 128 < 80 then s.trigger (v.toNat % 128) 3
  else s

def execTrcTrigWrite (by_ : Fin 4) (v : BitVec 32) (s : State) : Host.Outcome State Fault Refusal :=
  .next (if by_ = 0 then s.writeTrcTrig v else s)

/-- RING_FREEZE: a ring that counts POST has taken its last record (R478). -/
def execRingFreeze (u : Fin 80) (s : State) : Host.Outcome State Fault Refusal :=
  .next (if s.ringState u = 1 ∧ (s.ring u).post = 0 then s.setFld (Reg.TRC_RING_STAT u) Fld.TRC_RING_STAT_STATE 2 else s)

/-- FREEZE_DUMP_DONE: a frozen ring's records are dumped; it resumes with AUTO_RELEASE; a detected error ends the dump and leaves
it FROZEN (R479, R485). -/
def State.freezeDump (s : State) (u : Nat) (err : Bool) : State :=
  let base := s.fld Reg.TRC_FREEZE_BASE Fld.TRC_FREEZE_BASE_BASE
  if s.ringState u ≠ 2 ∨ base = 0 then s
  else
    let w := s.storeCharged err (base + u * 8192) ((s.ring u).recs.flatMap TraceRec.bytes) 0
    if w.1 then w.2.event Reg.TRC_STATUS Fld.TRC_STATUS_BLK_LOST Reg.TRC_BLK_LOST_CNT
    else
      let s := w.2.setFld (Reg.TRC_RING_STAT u) Fld.TRC_RING_STAT_STATE 3
      if s.fld (Reg.TRC_RING_CTL u) Fld.TRC_RING_CTL_AUTO_RELEASE = 1 then s.ringResume u else s

def execFreezeDumpDone (u : Fin 80) (err : Bool) (s : State) : Host.Outcome State Fault Refusal := .next (s.freezeDump u err)

/-- RELEASE resumes a FROZEN or DUMPED ring (R479, R497). -/
def State.ringRelease (s : State) (u : Nat) : State := if 2 ≤ s.ringState u then s.ringResume u else s

def execRingRelease (by_ : Fin 4) (u : Fin 80) (s : State) : Host.Outcome State Fault Refusal :=
  .next (if by_ = 0 then s.ringRelease u else s)

/-! ### Windows (R480) -/

def State.windowOpen (s : State) (w : Nat) : Bool := s.fld (Reg.TRC_WINDOW (w / 64)) (bitField (w % 64)) == 1

/-- TRACE_OPEN or TRACE_CLOSE of window `w`; a change leaves a WINDOW record in ring 78. -/
def State.setWindow (s : State) (w : Nat) (v : Bool) : State :=
  if s.windowOpen w = v then s
  else (s.setFld (Reg.TRC_WINDOW (w / 64)) (bitField (w % 64)) v.toNat).trace 78 0x0D (w % 256 + if v then 2 ^ 15 else 0) 0 0

/-- Rings drain: MODE ALWAYS, or WINDOWED with a window open (R480, R494). -/
def State.draining (s : State) : Bool :=
  s.fld Reg.TRC_CTL Fld.TRC_CTL_MODE == 2
    || (s.fld Reg.TRC_CTL Fld.TRC_CTL_MODE == 1 && (List.range 4).any (fun w => s.rd (Reg.TRC_WINDOW w) != 0))

/-! ### The drain (R481, R482, R484) -/

/-- A drained record joins the open block. -/
def State.blockPut (s : State) (r : TraceRec) : State :=
  let b := s.block
  { s with block := { recs := b.recs ++ [r], first := if b.recs.isEmpty then s.now else b.first } }

/-- The LOST_SPAN record of a ring (R475, R484). -/
def Ring.lostSpan (r : Ring) (u : Nat) : TraceRec :=
  { tsc := r.firstTsc, cpos := r.firstCpos, event := 0x18, unit := u, obj := u, dur := min r.lost (2 ^ 32 - 1), peer := r.lastTsc }

/-- TRACE_DRAIN_TAKE: the oldest undrained record of the next ring in ascending UNIT order, its gap marked first. A full block
takes nothing more until it is flushed. -/
def State.drainTake (s : State) : State :=
  if !s.draining ∨ 126 ≤ s.block.recs.length then s
  else
    let order := (List.range 80).map (fun i => (s.drainNext + i) % 80)
    match order.find? (fun u => decide (0 < (s.ring u).undrained)) with
    | none => s
    | some u =>
      let r := s.ring u
      let s := if 0 < r.lost then (s.blockPut (r.lostSpan u)).setRing u { r with lost := 0 } else s
      if 126 ≤ s.block.recs.length then s
      else
        match r.recs[r.recs.length - r.undrained]? with
        | none => s
        | some x =>
          let s := s.setRing u { s.ring u with undrained := r.undrained - 1 }
          let s := s.blockPut x
          let s := { s with drainNext := (u + 1) % 80 }
          (s.cnt Reg.TRC_REC_CNT).bumpGlb 0x0D 0 1

def execTraceDrainTake (s : State) : Host.Outcome State Fault Refusal := .next s.drainTake

/-- A trace block as its 4 KiB (R481). -/
def traceBlockBytes (chip bseq : Nat) (recs : List TraceRec) : List Byte :=
  let body := leBytes 2 0x0010 ++ leBytes 1 1 ++ leBytes 1 0 ++ leBytes 2 chip ++ leBytes 2 recs.length ++ leBytes 8 bseq
    ++ leBytes 48 0 ++ recs.flatMap TraceRec.bytes
  body ++ List.replicate (4096 - body.length) 0

/-- A block enters this chip's own trace ring, or is lost where its write meets a detected error (R482). -/
def State.blockToRing (s : State) (err : Bool) (bs : List Byte) : State :=
  let n := min 20 (s.fld Reg.TRC_SIZE Fld.TRC_SIZE_LOG2N)
  let ix := (s.rd Reg.TRC_BIDX).toNat
  let w := s.storeCharged err (s.fld Reg.TRC_BASE Fld.TRC_BASE_BASE + ix % 2 ^ n * 4096) bs 0
  if w.1 then w.2.event Reg.TRC_STATUS Fld.TRC_STATUS_BLK_LOST Reg.TRC_BLK_LOST_CNT
  else w.2.wr Reg.TRC_BIDX (BitVec.ofNat 64 (ix + 1))

/-- TRACE_BLOCK_FLUSH: the open block closes and is written or sent (R481, R482). -/
def State.flushBlock (s : State) (err : Bool) : State :=
  if s.block.recs.isEmpty then s
  else
    let bs := traceBlockBytes s.chip (s.fld Reg.TRC_BLK_CNT Fld.COUNT) s.block.recs
    let s := s.cnt Reg.TRC_BLK_CNT
    let s := { s with block := {} }
    if s.fld Reg.TRC_DEST Fld.TRC_DEST_REMOTE = 0 then s.blockToRing err bs
    else
      let dst := s.fld Reg.TRC_DEST Fld.TRC_DEST_CHIP
      if s.fenced dst then s.event Reg.TRC_STATUS Fld.TRC_STATUS_BLK_LOST Reg.TRC_BLK_LOST_CNT
      else s.inject { dst := dst, src := s.chip, tc := 4, type := 11, body := bs }

def execTraceBlockFlush (err : Bool) (s : State) : Host.Outcome State Fault Refusal := .next (s.flushBlock err)

/-- TRACE_BLOCK_RX: a collector writes the block among its own; another chip discards it (R482). -/
def execTraceBlockRx (p : Packet) (err : Bool) (s : State) : Host.Outcome State Fault Refusal :=
  let s := s.take p
  .next (if p.type ≠ 11 ∨ p.malformed then s.badPacket
    else if s.fld Reg.TRC_CTL Fld.TRC_CTL_COLLECT = 1 then s.blockToRing err p.body
    else s.event Reg.TRC_STATUS Fld.TRC_STATUS_COLL_DROP Reg.TRC_COLL_DROP_CNT)

/-- MODE is OFF; 3 acts as 0 (R494). -/
def State.traceOff (s : State) : Bool :=
  s.fld Reg.TRC_CTL Fld.TRC_CTL_MODE == 0 || s.fld Reg.TRC_CTL Fld.TRC_CTL_MODE == 3

/-- TRC_CTL: MODE written to OFF closes an open block at once (R485, R494). -/
def State.writeTrcCtl (s : State) (v : BitVec 64) : State :=
  let s := s.writeCodes Reg.TRC_CTL v
  if s.traceOff then s.flushBlock false else s

def execTrcCtlWrite (by_ : Fin 4) (v : BitVec 32) (s : State) : Host.Outcome State Fault Refusal :=
  .next (if by_ = 0 then s.writeTrcCtl (v.setWidth 64) else s)

/-! ### Counters and snapshots (R487, R491, R492) -/

/-- A write of a select register clears its counter (R487). -/
def State.selectCounter (s : State) (sel cntr : Nat) (v : BitVec 32) : State := (s.writeCodes sel (v.setWidth 64)).wr cntr 0

def execCounterSelectWrite (by_ : Fin 4) (k : CounterId) (v : BitVec 32) (s : State) : Host.Outcome State Fault Refusal :=
  .next (if by_ ≠ 0 then s else match k with
    | .glb g => s.selectCounter (Reg.CNT_GLB_SEL g) (Reg.CNT_GLB g) v
    | .prt p j => s.selectCounter (Reg.CNT_PRT_SEL p j) (Reg.CNT_PRT p j) v
    | .clu c j => s.selectCounter (Reg.CNT_CLU_SEL c j) (Reg.CNT_CLU c j) v)

/-- The snapshot page of R492. -/
def State.snapPage (s : State) (mask ix : Nat) : List Byte :=
  let on (b : Nat) (n : Nat) (bs : List Byte) : List Byte := if mask.testBit b then bs else List.replicate n 0
  leBytes 2 0x0002 ++ leBytes 1 1 ++ leBytes 1 0 ++ leBytes 2 s.chip ++ leBytes 2 mask
    ++ leBytes 8 (s.rd Reg.CAD_POS).toNat ++ leBytes 8 s.now ++ leBytes 4 ix ++ leBytes 36 0
    ++ on 0 384 ((List.range 32).flatMap (fun g => leBytes 8 (s.rd (Reg.CNT_GLB g)).toNat)
        ++ (List.range 32).flatMap (fun g => leBytes 4 (s.rd (Reg.CNT_GLB_SEL g)).toNat))
    ++ leBytes 64 0
    ++ on 1 1536 ((List.range 12).flatMap (fun p => (List.range 16).flatMap (fun j => leBytes 8 (s.rd (Reg.CNT_PRT p j)).toNat)))
    ++ on 2 4096 ((List.range 64).flatMap (fun c => (List.range 8).flatMap (fun j => leBytes 8 (s.rd (Reg.CNT_CLU c j)).toNat)))
    ++ on 3 1280 ((List.range 80).flatMap (fun u => leBytes 8 (s.rd (Reg.TRC_RING_STAT u)).toNat
        ++ leBytes 8 (s.rd (Reg.TRC_RING_CTL u)).toNat))
    ++ leBytes 760 0 ++ leBytes 4 ix ++ leBytes 4 0

/-- One snapshot page is written (R491), unless no page format is common (R529). -/
def State.snapshot (s : State) (mask : Nat) (err : Bool) : State :=
  if s.fld Reg.CNT_SNAP_CTL Fld.CNT_SNAP_CTL_EN = 0 ∨ s.telemetryOff = true then s
  else
    let n := min 12 (s.fld Reg.CNT_SNAP_CTL Fld.CNT_SNAP_CTL_LOG2N)
    let ix := s.fld Reg.CNT_SNAP_IDX Fld.CNT_SNAP_IDX_IDX
    let w := s.storeCharged err (s.fld Reg.CNT_SNAP_BASE Fld.CNT_SNAP_BASE_BASE + ix % 2 ^ n * 8192) (s.snapPage (mask % 16) ix) 0
    if w.1 then w.2.event Reg.TRC_STATUS Fld.TRC_STATUS_SNAP_LOST Reg.CNT_SNAP_LOST_CNT
    else (w.2.setFld Reg.CNT_SNAP_IDX Fld.CNT_SNAP_IDX_IDX (ix + 1)).cnt Reg.CNT_SNAP_CNT

/-- CNT_SNAP_NOW: a write of CNT_SNAP_CTL.NOW by T0. -/
def execCntSnapNow (by_ : Fin 4) (err : Bool) (s : State) : Host.Outcome State Fault Refusal :=
  .next (if by_ = 0 then s.snapshot 15 err else s)

/-! ### Congestion pages (R340, R341) -/

/-- The bin of a queue depth (R340). -/
def congBin (n : Nat) : Nat :=
  if n = 0 then 0 else if n < 16 then 1 else if n < 64 then 2 else if n < 256 then 3 else if n < 1024 then 4
  else if n < 4096 then 5 else if n < 8192 then 6 else 7

/-- CONGESTION_SAMPLE: every output samples its queue depth (R340); the threshold counters of R489 count too. -/
def State.congSample (s : State) : State :=
  (List.range 12).foldl (fun s p =>
    let d := s.rt.queuedFlits p
    let k := p * 8 + congBin d
    let s := { s with rt := { s.rt with cong := { s.rt.cong with bins := s.rt.cong.bins.set 0 k (s.rt.cong.bins.get 0 k + 1) } } }
    (List.range 16).foldl (fun s j =>
      if s.fld (Reg.CNT_PRT_SEL p j) Fld.CNT_PRT_SEL_SRC = 7 ∧ s.fld (Reg.CNT_PRT_SEL p j) Fld.CNT_PRT_SEL_FILTER * 64 ≤ d then
        let v := s.fld (Reg.CNT_PRT p j) Fld.CNT_PRT_COUNT + 1
        (s.setFld (Reg.CNT_PRT p j) Fld.CNT_PRT_COUNT v).setFld (Reg.CNT_PRT p j) Fld.CNT_PRT_WRAPS
          (s.fld (Reg.CNT_PRT p j) Fld.CNT_PRT_WRAPS + v / 2 ^ 48)
      else s) s)
    { s with rt := { s.rt with cong := { s.rt.cong with samples := s.rt.cong.samples + 1 } } }

def execCongestionSample (s : State) : Host.Outcome State Fault Refusal := .next s.congSample

/-- The page of R341 for the closing interval. -/
def State.congPage (s : State) (closePos : BitVec 64) : List Byte :=
  let g := s.rt.cong
  leBytes 2 1 ++ leBytes 1 1 ++ leBytes 1 0 ++ leBytes 2 s.chip ++ leBytes 2 0
    ++ leBytes 8 g.pos.toNat ++ leBytes 8 closePos.toNat ++ leBytes 8 g.tsc ++ leBytes 8 s.now
    ++ leBytes 4 (s.fld Reg.FAB_CPAGE_IDX Fld.FAB_CPAGE_IDX_IDX) ++ leBytes 4 g.samples ++ leBytes 16 0
    ++ (List.range 12).flatMap (fun p =>
        (List.range 8).flatMap (fun b => leBytes 4 (g.bins.get 0 (p * 8 + b)))
          ++ leBytes 4 (g.flits.get 0 p) ++ (List.range 5).flatMap (fun t => leBytes 4 (g.stall.get 0 (p * 5 + t)))
          ++ leBytes 1 (s.linkState p) ++ leBytes 1 (s.fld (Reg.PRT_STATUS p) Fld.PRT_STATUS_TX_LANES) ++ leBytes 6 0)
    ++ leBytes 192 0

/-- CONGESTION_PAGE_WRITE: the interval closes; with EN, and a common page format (R529), its page is written to the ring, or lost where the write meets a
detected error; the bins clear and a new interval opens (R340, R338). -/
def State.congClose (s : State) (closePos : BitVec 64) (err : Bool) : State :=
  let s :=
    if s.fld Reg.FAB_CPAGE_CTL Fld.FAB_CPAGE_CTL_EN = 0 ∨ s.telemetryOff = true then s
    else
      let n := min 12 (s.fld Reg.FAB_CPAGE_CTL Fld.FAB_CPAGE_CTL_LOG2N)
      let idx := s.fld Reg.FAB_CPAGE_IDX Fld.FAB_CPAGE_IDX_IDX
      let w := s.storeCharged err (s.fld Reg.FAB_CPAGE_BASE Fld.FAB_CPAGE_BASE_BASE + idx % 2 ^ n * 1024) (s.congPage closePos) 0
      if w.1 then w.2.event Reg.FAB_STATUS Fld.FAB_STATUS_CPAGE_LOST Reg.FAB_CPAGE_LOST_CNT
      else (w.2.setFld Reg.FAB_CPAGE_IDX Fld.FAB_CPAGE_IDX_IDX (idx + 1)).cnt Reg.FAB_CPAGE_CNT
  { s with rt := { s.rt with cong := { pos := s.rd Reg.CAD_POS, tsc := s.now } } }

/-- CONGESTION_INTERVAL_TIMEOUT: MAXINT µs have passed without a beat; CPOS_CLOSE is 0 (R340, R341). -/
def execCongestionIntervalTimeout (err : Bool) (s : State) : Host.Outcome State Fault Refusal := .next (s.congClose 0 err)

end Machine
end Sys2Proof
end

