-- ==== Sys2Proof/Machine/Twin.lean ====
section
/-!
DEFINITION. Seals and the twin (spec/12_training_state_and_restart.md, R388, R392 to R396): how a seal completes, the push engine and
the mirror it fills.
-/
namespace Sys2Proof.Machine

/-- Bytes 0x400 to 0xFFF of a sealed bank: the segment table as the schedule wrote it, every entry's FP computed where FPEN is 1 and 0
otherwise (R387). `bank`: the bank's bytes as the seal read them. -/
def sealedTable (fpen : Bool) (bank : List Byte) : List Byte :=
  let table := (bank.drop 0x400).take 0xC00
  let n := leNat (table.take 2)
  (List.range n).foldl (fun (t : List Byte) j =>
    let at' := 0x40 + 32 * j
    let off := leNat ((t.drop at').take 8)
    let l := leNat ((t.drop (at' + 8)).take 8)
    let fp := if fpen then (crc64 ((bank.drop off).take l)).toNat else 0
    t.take (at' + 0x18) ++ leBytes 8 fp ++ t.drop (at' + 0x20)) table

/-- A waiting push finds the seal it did not wait for: SKIPPED_STALE (R392). -/
def State.staleCheck (s : State) (j : SealJob) : State :=
  match s.push with
  | some p =>
    if p.bank = j.bank ∧ s.pushState = 1 ∧ ¬ (p.step = j.step ∧ j.fpen = true) then
      ({ s with push := none }.setPush 0).skipPush 2
    else s
  | none => s

/-- SEAL_COMPLETE: bytes 0x008 to 0xFFF of the header are written, SEAL last, and the bank is SEALED; a detected error of the pass is
charged and ends in SEAL_ERR (R388, R445). -/
def State.sealComplete (s : State) (b : Nat) : State :=
  match s.seals.find? (fun (j : SealJob) => j.bank == b) with
  | none => s
  | some j =>
    let base := s.bankBase b
    let len := s.bankLen
    match (s.onBehalf 1).readMem base (if j.fpen then len else 4096) with
    | (.detected h a, s) => (s.sealError b).chargeMem h a 1
    | (.ok bank, s) =>
      let s := { s with seals := s.seals.filter (fun (x : SealJob) => x.bank != b) }
      let table := sealedTable j.fpen bank
      let bodyFp := if j.fpen then (crc64 (bank.drop 4096)).toNat else 0
      let head (crc : Nat) := leBytes 4 0x4B4E4142 ++ leBytes 2 1 ++ leBytes 1 b ++ leBytes 1 0 ++ leBytes 2 s.chip
        ++ leBytes 6 0 ++ leBytes 8 (s.image 1).jobId.toNat ++ leBytes 8 j.pos.toNat ++ leBytes 8 len ++ leBytes 8 bodyFp
        ++ leBytes 8 crc ++ j.slots.flatMap SlotSnap.bytes ++ leBytes 192 0
      let hdrCrc := (crc64 (head 0 ++ table)).toNat
      let w := s.writeMem (base + 8) (head hdrCrc ++ table)
      let v := w.2.writeMem base (leBytes 8 (j.step + (if j.fpen then 2 ^ 62 else 0) + 2 ^ 63))
      match w.1.or v.1 with
      | some e => (v.2.sealError b).chargeMem e.1 e.2 1
      | none => (((v.2.setBank b 2).cnt Reg.MEM_SEAL_CNT).staleCheck j).signalSeal

def execSealComplete (b : Fin 2) (s : State) : Host.Outcome State Fault Refusal := .next (s.sealComplete b)

/-! ### The push engine (R392 to R396) -/

/-- A TWIN_PUSH firing at step `step` with bank `b` (R392). -/
def State.twinPush (s : State) (b step : Nat) : State :=
  let name (s : State) := (s.setFld Reg.MEM_TWIN_STATUS Fld.MEM_TWIN_STATUS_BANK b).setFld Reg.MEM_TWIN_STATUS
    Fld.MEM_TWIN_STATUS_STEP step
  if s.fld Reg.MEM_TWIN_CTL Fld.MEM_TWIN_CTL_EN = 0 then
    (if s.push.isSome then s else name s).skipPush 5
  else if s.push.isSome then s.skipPush 3
  else if s.fenced s.twin then (name s).skipPush 4
  else ({ name s with push := some { bank := b, step := step } }.setPush 1).wr Reg.MEM_TWIN_DONE 0

/-- PUSH_START: the awaited seal is there, so BEGIN goes to the twin (R392, R393). -/
def State.pushStart (s : State) : State :=
  match s.push with
  | none => s
  | some p =>
    if s.pushState = 1 ∧ s.bankState p.bank = 2 ∧ s.bankStep p.bank = p.step ∧ s.bankFpen p.bank then
      let s := (s.setPush 2).setFld (Reg.MEM_BANK_STATE p.bank) Fld.MEM_BANK_STATE_PUSH 1
      s.sendMirrorCtl s.twin p.step 1 0 s.bankLen
    else s

def execPushStart (s : State) : Host.Outcome State Fault Refusal := .next s.pushStart

def State.pushChunks (s : State) : Nat := s.bankLen / 65536

/-- Where chunk number `i` of the send sequence lies: chunks 1 to N − 1, then chunk 0 (R393). -/
def seqChunk (n i : Nat) : Nat := if i + 1 < n then i + 1 else 0

/-- The packets of 4 KiB that carry a chunk. -/
def packetsOf (p : Packet) : Nat → Nat → List Byte → List Packet
  | 0, _, _ => []
  | k + 1, off, bs =>
    if bs.isEmpty then [] else { p with offset := off, body := bs.take 4096 } :: packetsOf p k (off + 4096) (bs.drop 4096)

def State.injectAll (s : State) (ps : List Packet) : State := ps.foldl State.inject s

/-- One chunk of the push leaves; a detected error of its read aborts the push and is charged (R396, R449). -/
def State.sendPushChunk (s : State) (i : Nat) : State :=
  match s.push with
  | none => s
  | some p =>
    match (s.onBehalf 1).readMem (s.bankBase p.bank + seqChunk s.pushChunks i * 65536) 65536 with
    | (.detected h a, s) => (s.abortPush 5 10).chargeMem h a 1
    | (.ok bs, s) =>
      s.injectAll (packetsOf { dst := s.twin, src := s.chip, tc := 3, type := 2, tag := p.step % 2 ^ 16, chunk := i } 16 0 bs)

/-- New chunks leave while at most 64 are unacknowledged (R393). -/
def State.pushWindow : Nat → State → State
  | 0, s => s
  | k + 1, s =>
    match s.push with
    | none => s
    | some p =>
      if s.pushState = 3 ∧ p.unacked.length < 64 ∧ p.next < s.pushChunks then
        let s := { s with push := some { p with next := p.next + 1, unacked := p.unacked ++ [p.next] } }
        State.pushWindow k (s.sendPushChunk p.next)
      else s

/-- Whether a control packet of the receiver belongs to the running push. -/
def State.pushReply (s : State) (p : Packet) : Bool :=
  match s.push with
  | none => false
  | some q => p.src == s.twin && p.tag == q.step % 2 ^ 16

/-- ACCEPT_RX (R393). -/
def execAcceptRx (p : Packet) (s : State) : Host.Outcome State Fault Refusal :=
  let s := s.take p
  .next (if s.pushReply p ∧ s.pushState = 2 then State.pushWindow 64 (s.setPush 3) else s)

/-- A reply to BEGIN: NOREGION ends the push; after DRAINING, BEGIN is sent again every 1 ms (R393, R394). -/
def State.pushRefused (s : State) (p : Packet) : State :=
  match s.push with
  | none => s
  | some q =>
    if !s.pushReply p || s.pushState != 2 then s
    else if leNat ((p.body.drop 1).take 1) = 2 then s.endPush 8
    else if leNat ((p.body.drop 1).take 1) = 1 then { s with push := some { q with draining := true } }
    else s

/-- REFUSE_RX (R393, R394). -/
def execRefuseRx (p : Packet) (s : State) : Host.Outcome State Fault Refusal := .next ((s.take p).pushRefused p)

/-- PUSH_ACK_RX: the chunk is acknowledged, a stalled push runs again, the window moves on (R393). -/
def execPushAckRx (p : Packet) (s : State) : Host.Outcome State Fault Refusal :=
  let s := s.take p
  let i := leNat ((p.body.drop 8).take 8)
  .next (match s.push with
    | some q =>
      if s.pushReply p ∧ 3 ≤ s.pushState ∧ q.unacked.contains i then
        let s := { s with push := some { q with unacked := q.unacked.filter (· ≠ i) } }
        let s := s.setFld Reg.MEM_TWIN_DONE Fld.MEM_TWIN_DONE_CHUNKS (s.fld Reg.MEM_TWIN_DONE Fld.MEM_TWIN_DONE_CHUNKS + 1)
        State.pushWindow 64 (s.setPush 3)
      else s
    | none => s)

/-- COMPLETE_RX: DONE, or ABORTED FP_MISMATCH (R394 to R396). -/
def execCompleteRx (p : Packet) (s : State) : Host.Outcome State Fault Refusal :=
  let s := s.take p
  .next (if s.pushReply p ∧ 3 ≤ s.pushState then s.endPush (if leNat ((p.body.drop 1).take 1) = 3 then 9 else 1) else s)

/-- ABORT_RX: from the receiver of this chip's push (a landing without its region), or from the sender whose mirror fills here
(R394, R396). -/
def State.mirrorEmpty (s : State) : State :=
  { s with fill := none }.setFld Reg.MEM_MIRROR_STATE Fld.MEM_MIRROR_STATE_STATE 0

def execAbortRx (p : Packet) (s : State) : Host.Outcome State Fault Refusal :=
  let s := s.take p
  .next (
    if leNat ((p.body.drop 1).take 1) = 2 then (if s.pushReply p then s.endPush 8 else s)
    else match s.fill with
      | some f => if f.sender = p.src ∧ f.tag = p.tag then s.mirrorEmpty else s
      | none => s)

/-- PUSH_CHUNK_RESEND_TIMER: an unacknowledged chunk is sent again (R393). -/
def execPushChunkResendTimer (i : Nat) (s : State) : Host.Outcome State Fault Refusal :=
  .next (match s.push with
    | some p => if 3 ≤ s.pushState ∧ p.unacked.contains i then s.sendPushChunk i else s
    | none => s)

/-- PUSH_BEGIN_RETRY_TIMER: BEGIN again after REFUSE with DRAINING (R393). -/
def execPushBeginRetryTimer (s : State) : Host.Outcome State Fault Refusal :=
  .next (match s.push with
    | some p => if s.pushState = 2 ∧ p.draining = true then s.sendMirrorCtl s.twin p.step 1 0 s.bankLen else s
    | none => s)

/-- An UNREACH names a chunk of the push: the push is STALLED, and the chunk is sent again. DEDUCED (log entry 120): while it is STALLED
a further UNREACH sends nothing, for R393 then sends each unacknowledged chunk every 1 ms (R393, R329). -/
def State.mirrorUnreach (s : State) (tag chunk offset : Nat) : State :=
  match s.push with
  | none => s
  | some p =>
    if tag ≠ p.step % 2 ^ 16 ∨ offset = 0xFF00 ∨ s.pushState ≠ 3 ∨ p.unacked.contains chunk = false then s
    else (s.setPush 4).sendPushChunk chunk

/-- PUSH_TIMEOUT: no ACK or COMPLETE for 100 ms; a stalled push and one whose twin is fenced do not time out (R396). -/
def execPushTimeout (s : State) : Host.Outcome State Fault Refusal :=
  .next (if (s.pushState = 2 ∨ s.pushState = 3) ∧ !s.fenced s.twin then s.abortPush 6 11 else s)

/-- TWIN_CANCEL: T0 ends a running or waiting push (R396, R410). -/
def State.cancelPush (s : State) : State := s.abortPush 7 12

def execTwinCancel (by_ : Fin 4) (s : State) : Host.Outcome State Fault Refusal := .next (if by_ = 0 then s.cancelPush else s)

/-! ### The mirror (R394) -/

def State.mirrorBase (s : State) : Nat := s.fld Reg.MEM_MIRROR Fld.MEM_MIRROR_BASE
def State.mirrorLen (s : State) : Nat := s.fld Reg.MEM_MIRROR_LEN Fld.MEM_MIRROR_LEN_LEN
def State.mirrorState (s : State) : Nat := s.fld Reg.MEM_MIRROR_STATE Fld.MEM_MIRROR_STATE_STATE

/-- A landing in HBM waits, under link credit, while a commit pass runs (R221): its packet stays where it arrived. -/
def State.landsLater (s : State) (a : Nat) : Bool := s.commitPc.isSome && s.place a == .hbm

/-- BEGIN: refused without room or its region, or while the mirror drains; otherwise the mirror is invalid from here on and fills
(R394). -/
def State.mirrorBegin (s : State) (p : Packet) : State :=
  let len := leNat ((p.body.drop 8).take 8)
  if s.mirrorLen < len ∨ !s.regionOk 1 s.mirrorBase s.mirrorLen .fl then s.sendMirrorCtl p.src p.tag 3 2 0
  else if s.mirrorState = 3 then s.sendMirrorCtl p.src p.tag 3 1 0
  else
    let w := (s.onBehalf 1).write s.mirrorBase (leBytes 8 0)
    let s := w.2.chargeWrite w.1 1
    let s := { s with fill := some { sender := p.src, tag := p.tag, len := len } }
    let s := (s.setFld Reg.MEM_MIRROR_STATE Fld.MEM_MIRROR_STATE_STATE 1).setFld Reg.MEM_MIRROR_STATE
      Fld.MEM_MIRROR_STATE_OWNER p.src
    s.sendMirrorCtl p.src p.tag 2 0 0

/-- BEGIN_RX (R394). -/
def execBeginRx (p : Packet) (s : State) : Host.Outcome State Fault Refusal :=
  .next (if s.landsLater s.mirrorBase then s else (s.take p).mirrorBegin p)

/-- Bytes written into a buffer at an offset, the buffer growing with zeros where it is short. -/
def patch (buf : List Byte) (off : Nat) (bs : List Byte) : List Byte :=
  let buf := buf ++ List.replicate (off + bs.length - buf.length) 0
  buf.take off ++ bs ++ buf.drop (off + bs.length)

/-- The CRC-64 of the body in body order, combined from those of its parts in whatever order they came: a CRC that starts at 0 is
carried over the bytes of the next part as over zeros, and the part's own is added (R257, R394). -/
def Fill.bodyCrc (f : Fill) : BitVec 64 :=
  f.crcs.foldl (fun c e => crc64From c (List.replicate e.2.1 0) ^^^ e.2.2) 0

/-- Every chunk has landed: the body's fingerprint as it was received decides (R394). A detected error of the header's write leaves the
mirror EMPTY (DESIGN CHOICE, log entry 121). -/
def State.mirrorFinish (s : State) (f : Fill) : State :=
  if f.bodyCrc.toNat = leNat ((f.header.drop 0x30).take 8) then
    let w := (s.onBehalf 1).write (s.mirrorBase + 8) (f.header.drop 8)
    let v := w.2.write w.2.mirrorBase (f.header.take 8)
    match w.1.or v.1 with
    | some e => v.2.mirrorEmpty.chargeMem e.1 e.2 1
    | none =>
      let s := { v.2 with fill := none }
      let s := (s.setFld Reg.MEM_MIRROR_STATE Fld.MEM_MIRROR_STATE_STATE 2).setFld Reg.MEM_MIRROR_STATE
        Fld.MEM_MIRROR_STATE_STEP (leNat (f.header.take 5))
      (s.cnt Reg.MEM_MIRROR_RX_CNT).sendMirrorCtl f.sender f.tag 5 0 0
  else s.mirrorEmpty.sendMirrorCtl f.sender f.tag 5 3 0

/-- A landing that fails its region check (R232). -/
def State.landError (s : State) : State := s.event Reg.MEM_RGN_STATUS Fld.MEM_RGN_STATUS_LAND_ERR Reg.MEM_LAND_ERR_CNT

/-- A packet of a chunk has landed: a complete chunk is acknowledged and the last one ends the fill (R394). -/
def State.mirrorLanded (s : State) (f : Fill) (chunk : Nat) : State :=
  if (f.got.filter (fun g => g.1 == chunk)).length < 16 then { s with fill := some f }
  else
    let f := { f with landed := f.landed ++ [chunk] }
    let s := { s with fill := some f }.sendMirrorCtl f.sender f.tag 4 0 chunk
    if f.landed.length = f.len / 65536 then s.mirrorFinish f else s

/-- A packet of a chunk lands, all but the header's bytes, which are held; a chunk that fails its region check aborts the fill; a packet
whose write meets a detected error is charged and not counted, so its chunk is sent again (R218, R232, R394, R396). -/
def State.mirrorChunk (s : State) (p : Packet) : State :=
  match s.fill with
  | none => s
  | some f =>
    let n := f.len / 65536
    let at' := seqChunk n p.chunk * 65536
    if f.sender ≠ p.src ∨ f.tag ≠ p.tag ∨ n ≤ p.chunk ∨ f.landed.contains p.chunk ∨ f.got.contains (p.chunk, p.offset) then s
    else if !s.regionOk 1 (s.mirrorBase + at') 65536 .fl then
      s.landError.mirrorEmpty.sendMirrorCtl f.sender f.tag 6 2 0
    else
      let pos := at' + p.offset
      let held := if pos < 4096 then p.body.take (4096 - pos) else []
      let rest := p.body.drop held.length
      let w := (s.onBehalf 1).write (s.mirrorBase + pos + held.length) rest
      match w.1 with
      | some e => w.2.chargeMem e.1 e.2 1
      | none =>
        w.2.mirrorLanded { f with
          header := if held.isEmpty then f.header else patch f.header pos held
          got := f.got ++ [(p.chunk, p.offset)]
          crcs := if rest.isEmpty then f.crcs else f.crcs.set (0, 0) (pos + held.length) (rest.length, crc64 rest) } p.chunk

/-- MIRROR_CHUNK_RX (R394). -/
def execMirrorChunkRx (p : Packet) (s : State) : Host.Outcome State Fault Refusal :=
  .next (if s.landsLater s.mirrorBase then s else (s.take p).mirrorChunk p)

/-- A chip is fenced in this chip's bitmap: its push into the mirror is void, and a push to it ends (R394, R396). -/
def State.pushesFenced (s : State) (chip : Nat) : State :=
  let s := match s.fill with
    | some f => if f.sender = chip then s.mirrorEmpty else s
    | none => s
  if chip = s.twin then s.endPush 7 else s

end Sys2Proof.Machine
end

