-- ==== Sys2Proof/Machine/Movers.lean ====
section
/-!
DEFINITION. The movers and what tenants own (spec/08_movers_tenants_preemption.md, spec/07_memory.md): mover records and their
assignment, prefetch entries, tenant and slot registers, the activation stacks' bookkeeping.
-/
namespace Sys2Proof.Machine

/-! ### Who holds what (R261, R264, R279) -/

def State.ctxState (s : State) (t c : Nat) : Nat := s.fld (Reg.MOV_CTX_STATUS t c) Fld.MOV_CTX_STATUS_STATE
def State.setCtx (s : State) (t c v : Nat) : State := s.setFld (Reg.MOV_CTX_STATUS t c) Fld.MOV_CTX_STATUS_STATE v

/-- The cluster's resident stream is tenant `t`'s: running, halted, yielded, faulted or loading. -/
def State.resident (s : State) (t c : Nat) : Bool := s.seqState c != seqIdle && s.seqTenant c == t

/-- A cluster holds a stream or a saved context of `t` (R261, R262). -/
def State.holds (s : State) (t c : Nat) : Bool := s.resident t c || s.ctxState t c == 3

def State.holdsAny (s : State) (t : Nat) : Bool := (List.range 64).any (s.holds t)

/-! ### Mover records (R258, R276) -/

/-- The tensors a record copies between, their index offsets applied (R142, R258). -/
def MovRec.srcD (r : MovRec) : Desc := ⟨r.src, r.srcIdx⟩
def MovRec.dstD (r : MovRec) : Desc := ⟨r.dst, r.dstIdx⟩

/-- Word 0x80 of a progress record. -/
def MovRec.word80 (r : MovRec) : Nat :=
  r.state + r.kind * 2 ^ 3 + r.cluster * 2 ^ 6 + r.tenant * 2 ^ 12 + r.slot * 2 ^ 14 + r.sig * 2 ^ 18

/-- The 256 bytes of a progress record. -/
def MovRec.bytes (r : MovRec) : List Byte :=
  leBytes 64 r.src.toNat ++ leBytes 64 r.dst.toNat ++ leBytes 8 r.word80 ++ leBytes 8 r.total ++ leBytes 8 r.done
    ++ leBytes 8 r.fp.toNat ++ leBytes 8 r.pc ++ leBytes 88 0

/-- Mover `m` holds a record; MOV_STATE_m, MOV_DONE_m and MOV_FP_m show it. -/
def State.setMover (s : State) (m : Nat) (r : MovRec) : State :=
  let s := { s with movers := s.movers.put m r }
  let s := s.wr (Reg.MOV_STATE m) (BitVec.ofNat 64 r.word80)
  (s.setFld (Reg.MOV_DONE m) Fld.MOV_DONE_DONE r.done).wr (Reg.MOV_FP m) r.fp

/-- Mover `m` becomes free; MOV_FP_m keeps its value until the next transfer (R257). -/
def State.freeMover (s : State) (m : Nat) : State :=
  { s with movers := s.movers.erase m }.setFld (Reg.MOV_STATE m) ⟨0, 3⟩ 0

def State.mover (s : State) (m : Nat) : Option MovRec := (s.movers.find? (fun e => e.1 == m)).map (·.2)

def State.freeMovers (s : State) : List Nat := (List.range 32).filter (fun m => (s.mover m).isNone)

/-- Movers that hold a transfer of tenant `t`. -/
def State.heldBy (s : State) (t : Nat) : Nat := (s.movers.filter (fun e => e.2.tenant == t)).length

/-! ### Assignment (R255, R273, R277) -/

def State.weight (s : State) (t : Nat) : Nat := max 1 (s.fld (Reg.MOV_TEN_CTL t) Fld.MOV_TEN_CTL_WEIGHT)
def State.quota (s : State) (t : Nat) : Nat := min 32 (max 1 (s.fld (Reg.MOV_TEN_CTL t) Fld.MOV_TEN_CTL_QUOTA))

/-- The tenants in the order of their turns: the one whose turn still runs, then ascending from the one after it. -/
def State.turnOrder (s : State) : List Nat :=
  (if s.turnLeft = 0 then [] else [s.lastTenant]) ++ (List.range 4).map (fun i => (s.lastTenant + 1 + i) % 4)

/-- A port head that asked still waits: its header wait is satisfied, and it issues (R255). -/
def State.reqReady (s : State) (r : MovReq) : Bool :=
  !r.head || (s.seqState r.mrec.cluster == seqRunning && (match (s.cl r.mrec.cluster).movQ with
    | e :: _ => s.headerOk r.mrec.cluster e.wait
    | [] => false))

/-- The request served next among those of one sort: tenant by turns, cluster by turns, then the oldest. -/
def State.pickReq (s : State) (isPref : Bool) : Option MovReq :=
  let rs := s.movReqs.filter (fun (r : MovReq) => r.isPref == isPref && s.reqReady r)
  let able (t : Nat) : Bool := rs.any (fun (r : MovReq) => r.mrec.tenant == t) && decide (s.heldBy t < s.quota t)
  match s.turnOrder.find? able with
  | none => none
  | some t =>
    let last := s.lastCluster.get 63 t
    let order := (List.range 64).map (fun i => (last + 1 + i) % 64)
    match order.find? (fun c => rs.any (fun (r : MovReq) => r.mrec.tenant == t && r.mrec.cluster == c)) with
    | none => none
    | some c => rs.find? (fun (r : MovReq) => r.mrec.tenant == t && r.mrec.cluster == c)

/-- MOV_REDRIVE: a DETECTED transfer continues (R272, R276). -/
def State.redrive (s : State) (m : Nat) : State :=
  match s.mover m with
  | some r => if r.state = 4 then s.setMover m { r with state := 1 } else s
  | none => s

def execMovRedrive (by_ : Fin 4) (m : Fin 32) (s : State) : Host.Outcome State Fault Refusal :=
  .next (if by_ = 0 then s.redrive m else s)

/-! ### Prefetch (R197, R259) -/

/-- A prefetch entry may start: decode holds in a WAIT or a CWAIT, a wait names its SIG token, or decode reached a FENCE or a YIELD
that starts it. -/
def Cluster.prefReady (k : Cluster) (e : PrefEntry) : Bool :=
  e.due
    || (match k.hold with
        | some ⟨.wait _ _, _, _⟩ => true
        | some ⟨.cwait _ _, _, _⟩ => true
        | some ⟨.header, q, _⟩ => e.mrec.sig != 0 && q.wait == e.mrec.sig
        | _ => false)
    || [k.rankQ, k.vecQ, k.movQ, k.fabQ].any (fun q =>
        match q.head? with
        | some h => e.mrec.sig != 0 && h.wait == e.mrec.sig
        | none => false)

/-- PREF_ENTRY_START: the next entry in list order starts and asks for a mover. -/
def State.startPref (s : State) (c : Nat) : State :=
  let k := s.cl c
  match k.pref with
  | [] => s
  | e :: rest =>
    if !k.prefReady e then s
    else
      let s := s.setCl c { k with pref := rest }
      let s := { s with movReqs := s.movReqs ++ [MovReq.mk e.mrec true false] }
      (s.cnt Reg.MOV_PREF_CNT).bumpClu c 0x12 0 1

def execPrefEntryStart (c : Fin 64) (s : State) : Host.Outcome State Fault Refusal := .next (s.startPref c)

/-- Every entry of the list is due: decode reached a FENCE that names the mover port, or a YIELD. -/
def State.duePrefs (s : State) (c : Nat) : State :=
  s.modCl c (fun k => { k with pref := k.pref.map (fun (e : PrefEntry) => { e with due := true }) })

/-! ### Tenant registers (R262, R267, R277) -/

def State.tenIgnored (s : State) : State := s.event Reg.MOV_STATUS Fld.MOV_STATUS_TEN_WR_IGN Reg.MOV_TEN_IGN_CNT
def State.slotIgnored (s : State) : State := s.event Reg.MOV_STATUS Fld.MOV_STATUS_SLOT_WR_IGN Reg.MOV_SLOT_IGN_CNT

/-- Every ring assigned to a tenant is disabled. -/
def State.disableRings (s : State) (t : Nat) : State :=
  (List.range 64).foldl (fun (s : State) r =>
    if s.fld (Reg.HIF_RING_OWN r) Fld.HIF_RING_OWN_TEN = t then s.setFld (Reg.HIF_RING_CTL r) Fld.HIF_RING_CTL_EN 0 else s) s

/-- MOV_TEN_CTL: a change of PATH, or EN cleared, is ignored while a cluster holds a stream or context of the tenant; otherwise it
disables the tenant's rings (R262, R530). T0's PATH is fixed at the keeper. -/
def State.writeTenCtl (s : State) (t : Nat) (v : BitVec 64) : State :=
  let off := Reg.MOV_TEN_CTL t
  let v := if t = 0 then putField v Fld.MOV_TEN_CTL_PATH 0 else v
  let moves : Bool := getField v Fld.MOV_TEN_CTL_PATH != s.fld off Fld.MOV_TEN_CTL_PATH
    || (s.fld off Fld.MOV_TEN_CTL_EN == 1 && getField v Fld.MOV_TEN_CTL_EN == 0)
  if !moves then s.writeCodes off v
  else if s.holdsAny t then s.tenIgnored
  else (s.disableRings t).writeCodes off v

def execMovTenCtlWrite (by_ : Fin 4) (t : Fin 4) (v : BitVec 64) (s : State) : Host.Outcome State Fault Refusal :=
  .next (if by_ = 0 then s.writeTenCtl t v else s)

/-- MOV_CTX_BASE and MOV_CTX_SLOT: ignored while a cluster holds, saves or restores a context of the tenant. -/
def State.writeCtxRegion (s : State) (t : Nat) (isSlot : Bool) (v : BitVec 64) : State :=
  if (List.range 64).any (fun c => s.ctxState t c == 2 || s.ctxState t c == 3 || s.ctxState t c == 5) then s.tenIgnored
  else s.writeCodes (if isSlot then Reg.MOV_CTX_SLOT t else Reg.MOV_CTX_BASE t) v

def execMovCtxRegionWrite (by_ : Fin 4) (t : Fin 4) (isSlot : Bool) (v : BitVec 64) (s : State) :
    Host.Outcome State Fault Refusal :=
  .next (if by_ = 0 then s.writeCtxRegion t isSlot v else s)

/-- The context region of a tenant is valid (R267). -/
def State.ctxRegionOk (s : State) (t : Nat) : Bool :=
  let b := s.fld (Reg.MOV_CTX_BASE t) Fld.MOV_CTX_BASE_BASE
  let n := s.fld (Reg.MOV_CTX_SLOT t) Fld.MOV_CTX_SLOT_SLOT
  b % 4096 == 0 && n % 4096 == 0 && n != 0 && decide (b + 128 * n ≤ s.ceiling)

/-! ### Slot and stack registers (R233, R238, R252, R253, R263, R280, R391) -/

def State.slotOwner (s : State) (sl : Nat) : Nat := s.fld (Reg.STK_SLOT sl) Fld.STK_SLOT_OWNER

def State.stkPart (s : State) (sl c : Nat) : StkPart := s.stk.get {} (sl * 64 + c)
def State.setStkPart (s : State) (sl c : Nat) (x : StkPart) : State := { s with stk := s.stk.set {} (sl * 64 + c) x }
/-- The stack copies of a tenant on a cluster have been discarded: none is writing or reading any more (R237). -/
def State.settleStacks (s : State) (t c : Nat) : State :=
  ((List.range 16).filter (fun sl => s.slotOwner sl == t)).foldl (fun (s : State) sl =>
    s.setStkPart sl c { pushes := (s.stkPart sl c).pushes }) s
def State.stkTop (s : State) (sl c : Nat) : Nat := s.fld (Reg.STK_TOP sl c) Fld.STK_TOP_TOP
def State.stkEntries (s : State) (sl c : Nat) : Nat := s.fld (Reg.STK_TOP sl c) Fld.STK_TOP_ENTRIES
def State.setStkTop (s : State) (sl c top entries : Nat) : State :=
  (s.setFld (Reg.STK_TOP sl c) Fld.STK_TOP_TOP top).setFld (Reg.STK_TOP sl c) Fld.STK_TOP_ENTRIES entries

/-- Where partition `c` of slot `sl` starts. -/
def State.stkBase (s : State) (sl c : Nat) : Nat :=
  s.fld (Reg.STK_BASE sl) Fld.STK_BASE_BASE + c * s.fld (Reg.STK_PART sl) Fld.STK_PART_PART

/-- A slot's partitions are emptied and their push counts restart (R238). -/
def State.emptySlot (s : State) (sl : Nat) : State :=
  (List.range 64).foldl (fun (s : State) c => (s.wr (Reg.STK_TOP sl c) 0).setStkPart sl c {}) s

/-- A sequencer of tenant `t` is RUNNING, HALTED or YIELDED in slot `sl`. -/
def State.slotInUse (s : State) (t sl : Nat) : Bool :=
  (List.range 64).any (fun c => (s.seqState c == 1 || s.seqState c == 2 || s.seqState c == 3) && s.seqTenant c == t
    && s.seqSlot c == sl)

/-- STK_SLOT: an accepted change of owner empties the slot and zeroes its key, indexes and data position (R263, R391). -/
def State.writeSlot (s : State) (sl : Nat) (v : BitVec 64) : State :=
  let old := s.slotOwner sl
  let new := getField v Fld.STK_SLOT_OWNER
  if s.slotInUse old sl ∨ s.slotInUse new sl then s.slotIgnored
  else if new = old then s
  else
    let s := (s.emptySlot sl).setFld (Reg.STK_SLOT sl) Fld.STK_SLOT_OWNER new
    let s := (s.wr (Reg.STK_KEY_LO sl) 0).wr (Reg.STK_KEY_HI sl) 0
    ((s.wr (Reg.STK_NDI sl) 0).wr (Reg.STK_DPOS sl) 0).wr (Reg.MEM_SLOT_NDIPOS sl) 0

def execStkSlotWrite (by_ : Fin 4) (sl : Fin 16) (v : BitVec 64) (s : State) : Host.Outcome State Fault Refusal :=
  .next (if by_ = 0 then s.writeSlot sl v else s)

/-- STK_KEY_LO (0), STK_KEY_HI (1) and STK_NDI (2): ignored while a stream of the owner is RUNNING in the slot (R263). -/
def State.writeKeyNdi (s : State) (sl reg : Nat) (v : BitVec 64) : State :=
  let t := s.slotOwner sl
  if (List.range 64).any (fun c => s.seqState c == 1 && s.seqTenant c == t && s.seqSlot c == sl) then s.slotIgnored
  else s.writeCodes (if reg = 0 then Reg.STK_KEY_LO sl else if reg = 1 then Reg.STK_KEY_HI sl else Reg.STK_NDI sl) v

def execStkKeyNdiWrite (by_ : Fin 4) (sl : Fin 16) (reg : Fin 3) (v : BitVec 64) (s : State) :
    Host.Outcome State Fault Refusal :=
  .next (if by_ = 0 ∨ by_.val = s.slotOwner sl then s.writeKeyNdi sl reg v else s)

/-- STK_DPOS: each accepted write latches the slot's next-draw index (R391). -/
def State.writeDpos (s : State) (sl : Nat) (v : BitVec 64) : State :=
  (s.wr (Reg.STK_DPOS sl) v).setFld (Reg.MEM_SLOT_NDIPOS sl) Fld.MEM_SLOT_NDIPOS_NDIPOS
    (s.fld (Reg.STK_NDI sl) Fld.STK_NDI_NDI)

def execStkDposWrite (by_ : Fin 4) (sl : Fin 16) (v : BitVec 64) (s : State) : Host.Outcome State Fault Refusal :=
  .next (if by_ = 0 ∨ by_.val = s.slotOwner sl then s.writeDpos sl v else s)

/-- STK_BASE and STK_PART: ignored while a partition of the slot holds anything, or where the value is not 4 KiB aligned (R252). -/
def State.writeBasePart (s : State) (sl : Nat) (isPart : Bool) (v : BitVec 64) : State :=
  let x := if isPart then getField v Fld.STK_PART_PART else getField v Fld.STK_BASE_BASE
  if (List.range 64).any (fun c => s.stkTop sl c != 0) ∨ x % 4096 ≠ 0 then s
  else s.writeCodes (if isPart then Reg.STK_PART sl else Reg.STK_BASE sl) v

def execStkBasePartWrite (by_ : Fin 4) (sl : Fin 16) (isPart : Bool) (v : BitVec 64) (s : State) :
    Host.Outcome State Fault Refusal :=
  .next (if by_ = 0 then s.writeBasePart sl isPart v else s)

/-- STK_HWM: any write clears it (R252). -/
def execStkHwmWrite (by_ : Fin 4) (sl : Fin 16) (_v : BitVec 64) (s : State) : Host.Outcome State Fault Refusal :=
  .next (if by_ = 0 then s.wr (Reg.STK_HWM sl) 0 else s)

/-- STK_HWM records the largest TOP of any partition (R238). -/
def State.raiseHwm (s : State) (sl top : Nat) : State :=
  s.setFld (Reg.STK_HWM sl) Fld.STK_HWM_HWM (max top (s.fld (Reg.STK_HWM sl) Fld.STK_HWM_HWM))

/-! ### Journal and page tags (R448) -/

/-- Adjacent pieces joined. -/
def joinPieces : List (Nat × Nat) → List (Nat × Nat)
  | [] => []
  | p :: rest => match joinPieces rest with
    | q :: more => if p.1 + p.2 = q.1 then (p.1, p.2 + q.2) :: more else p :: q :: more
    | [] => [p]

/-- The stage pages of cluster `c` that lie whole in one of the pieces. -/
def wholePages (c : Nat) (ps : List (Nat × Nat)) : List Nat :=
  (joinPieces ps).flatMap (fun p =>
    let lo := (p.1 - stageBase c + 4095) / 4096
    let hi := (p.1 + p.2 - stageBase c) / 4096
    (List.range (hi - lo)).map (· + lo))

/-- A completed transfer from HBM into its own cluster's stage memory joins the journal and tags the pages it wrote whole. -/
def State.journalize (s : State) (r : MovRec) : State :=
  let ps := r.dstD.chunkPieces 0 r.total
  if s.place r.srcD.addr ≠ .hbm ∨ !ps.all (fun p => inStage r.cluster p.1 p.2) then s
  else
    s.modCl r.cluster (fun k =>
      let n := k.journalNext
      { k with
        journal := (k.journal ++ [r]).drop (k.journal.length - 31)
        journalNext := n + 1
        pageTag := (wholePages r.cluster ps).foldl (fun t p => t.set 0 p (n + 1)) k.pageTag })

/-- The journal entry that a page's tag names, while it is among the last 32 (R448). -/
def Cluster.journalOf (k : Cluster) (page : Nat) : Option MovRec :=
  let tag := k.pageTag.get 0 page
  let back := k.journalNext + 1 - tag
  if tag = 0 ∨ k.journal.length < back then none else k.journal[k.journal.length - back]?

end Sys2Proof.Machine
end

