-- ==== Sys2Proof/Machine/Transfers.lean ====
section
/-!
DEFINITION. SEND, RECV and MCAST once issued (spec/06_askeb_reference.md R198 to R203, spec/10_routing.md): grants and notices, chunks
out and packets in, completion words, and remote signals.
-/
namespace Sys2Proof.Machine

/-- The key of R199 as a number; at the sender it names no destination chip. -/
def xferKey (src sclu dclu tag : Nat) : Nat := ((src * 64 + sclu) * 64 + dclu) * 65536 + tag

/-- The completion word of R201, written before the header signal: an aligned word of stage memory, which no earlier error touches. -/
def State.writeCompletion (s : State) (addr status absent : Nat) : State :=
  if addr = 0 then s else ((s.onBehalf 1).write addr (leBytes 8 (status + absent % 2 ^ 24 * 2 ^ 8))).2

/-- A GRANT packet (R320). -/
def State.sendGrant (s : State) (dst dclu sclu tag kind len : Nat) : State :=
  s.inject { dst := dst, src := s.chip, tc := 2, type := 3, dclu := dclu, sclu := sclu, tag := tag
             body := leBytes 1 kind ++ leBytes 7 0 ++ leBytes 8 len }

/-! ### The sending end -/

/-- A SEND or MCAST whose every destination has accepted, mismatched or been fenced completes (R201, R337). -/
def State.txComplete (s : State) (x : Tx) : State :=
  if x.dests.any (fun (d : TxDest) => d.state == 0 || d.state == 1) then s
  else
    let absent := (x.dests.filter (fun (d : TxDest) => d.state == 4)).length
    let status := if x.dests.any (fun (d : TxDest) => d.state == 3) then 2 else if absent = 0 then 0 else 1
    let s := { s with txs := s.txs.erase x }
    let k := xferKey s.chip x.cluster x.dclu x.tag
    let s := { s with txSeq := s.txSeq.set 0 k (s.txSeq.get 0 k + 1) }
    (s.writeCompletion x.creg status absent).signalHeader x.cluster portFabric x.entry 1

/-- A transfer replaced by its newer form, and completed if that ends it. -/
def State.txUpdate (s : State) (old new : Tx) : State :=
  { s with txs := s.txs.map (fun (x : Tx) => if x = old then new else x) }.txComplete new

def Tx.setDest (x : Tx) (chip : Nat) (f : TxDest → TxDest) : Tx :=
  { x with dests := x.dests.map (fun (d : TxDest) => if d.chip = chip then f d else d) }

/-- A grant of `len` bytes for a destination that waits for it: a length that differs ends that destination with a length notice
(R199). -/
def State.txGrant (s : State) (x : Tx) (chip len : Nat) : State :=
  let s := s.trace x.cluster 0x03 x.tag (s.now - x.since) (peerWord chip x.dclu 7 0 x.seq)
  if len = x.total then s.txUpdate x (x.setDest chip (fun d => { d with state := 1 }))
  else (s.sendGrant chip x.dclu x.cluster x.tag 3 x.total).txUpdate x (x.setDest chip (fun d => { d with state := 3 }))

/-- The outstanding transfer of cluster `c` on a key, with a destination in one of the given states. -/
def State.txFor (s : State) (c chip dclu tag : Nat) (st : List Nat) : Option Tx :=
  s.txs.find? (fun (x : Tx) => x.cluster == c && x.dclu == dclu && x.tag == tag
    && x.dests.any (fun (d : TxDest) => d.chip == chip && st.contains d.state))

/-- A landing grant (R199); one that comes before its SEND is kept for it. -/
def State.grantRx (s : State) (p : Packet) : State :=
  let len := leNat ((p.body.drop 8).take 5)
  let s := s.trace p.dclu 0x07 p.tag 0 (peerWord p.src p.sclu 7 0 (s.txSeq.get 0 (xferKey s.chip p.dclu p.sclu p.tag)))
  match s.txFor p.dclu p.src p.sclu p.tag [0] with
  | some x => s.txGrant x p.src len
  | none => { s with grants := s.grants ++ [Grant.mk p.src p.sclu p.dclu p.tag len] }

/-- A landed notice: a destination has accepted every chunk (R199). -/
def State.landedNotice (s : State) (p : Packet) : State :=
  match s.txFor p.dclu p.src p.sclu p.tag [1] with
  | some x => s.txUpdate x (x.setDest p.src (fun d => { d with state := 2 }))
  | none => s

/-- Bytes of chunk `k` of a stream. -/
def chunkLen (total k : Nat) : Nat := min 65536 (total - k * 65536)

/-- Where a chunk may go: nowhere before the grants of every unfenced destination; one multicast while every destination takes it,
else a unicast to each that does; a chunk sent again goes to those it was named for, or to all (R199, R330). -/
def Tx.targets (x : Tx) (k : Nat) : Option (List (Bool × Nat)) :=
  if x.dests.any (fun (d : TxDest) => d.state == 0) then none
  else
    let live := x.dests.filter (fun (d : TxDest) => d.state == 1)
    let named := live.filter (fun (d : TxDest) => d.resend.contains k)
    if live.isEmpty then none
    else if k < x.next then some ((if named.isEmpty then live else named).map (fun (d : TxDest) => (false, d.chip)))
    else if x.mcast ∧ x.dests.all (fun (d : TxDest) => d.state != 3) then some [(true, 0)]
    else some (live.map (fun (d : TxDest) => (false, d.chip)))

/-- TRANSFER_CHUNK_SEND: chunk `k` of the `i`-th transfer: the next one, or one the sender still holds and sends again. Its region
check and the detected error of its read stop it before it is sent (R199, R228, R272). -/
def State.sendChunk (s : State) (i k : Nat) (err : MemErr) : State :=
  match s.txs[i]? with
  | none => s
  | some x =>
    let d : Desc := { raw := x.src }
    let n := chunkLen x.total k
    if x.stop ∨ x.next < k ∨ n = 0 then s
    else match x.targets k with
      | none => s
      | some ts =>
        let bad := (d.chunkRanges (k * 65536) n).find? (fun r => !s.regionOk x.tenant r.1 r.2 .rd)
        match bad with
        | some r =>
          let s := { s with txs := s.txs.map (fun (y : Tx) => if y = x then { x with stop := true } else y) }
          s.fault x.cluster { code := 0x0C, port := portFabric, async := true, pc := x.entry.pc, word := x.entry.word, dpa := r.1 }
        | none =>
          match (s.meet err x.tenant).readPieces (d.chunkPieces (k * 65536) n) with
          | (.detected h a, s) => s.chargeMem h a x.tenant
          | (.ok bs, s) =>
            let s := if k = 0 ∧ x.next = 0 then
                s.trace x.cluster 0x04 x.tag 0 (peerWord ((x.dests.head?.map (·.chip)).getD 0) x.dclu 0 0 x.seq) else s
            let s := ts.foldl (fun (s : State) t =>
              s.injectAll (packetsOf { dst := if t.1 then 0 else t.2, src := s.chip, tc := x.tc, type := 0, dclu := x.dclu
                                       sclu := x.cluster, tag := x.tag, chunk := k, mc := t.1
                                       mask := if t.1 then x.mask else 0 } 16 0 bs)) s
            let y := { x with
              next := max x.next (k + 1)
              dests := x.dests.map (fun (e : TxDest) => { e with resend := e.resend.filter (· ≠ k) }) }
            { s with txs := s.txs.map (fun (z : Tx) => if z = x then y else z) }

def execTransferChunkSend (i k : Nat) (err : MemErr) (s : State) : Host.Outcome State Fault Refusal :=
  .next (s.sendChunk i k err)

/-- An UNREACH that names a chunk of a SEND or MCAST: it is sent again from the source (R199, R329). -/
def State.txUnreach (s : State) (c chip dclu tag k : Nat) : State :=
  match s.txFor c chip dclu tag [1] with
  | none => s
  | some x =>
    let y := x.setDest chip (fun d => { d with resend := if d.resend.contains k then d.resend else d.resend ++ [k] })
    { s with txs := s.txs.map (fun (z : Tx) => if z = x then y else z) }

/-! ### The receiving end -/

/-- A RECV completes with a status (R199, R201). -/
def State.rxComplete (s : State) (x : Rx) (status absent : Nat) : State :=
  let k := xferKey x.src x.sclu x.cluster x.tag
  let s := { s with rxs := s.rxs.erase x, rxSeq := s.rxSeq.set 0 k (s.rxSeq.get 0 k + 1) }
  (s.writeCompletion x.creg status absent).signalHeader x.cluster portFabric x.entry 1

def State.rxFor (s : State) (c src sclu tag : Nat) : Option Rx :=
  s.rxs.find? (fun (x : Rx) => x.cluster == c && x.src == src && x.sclu == sclu && x.tag == tag)

/-- A length notice: the RECV completes with status LENGTH (R199). -/
def State.lengthNotice (s : State) (p : Packet) : State :=
  match s.rxFor p.dclu p.src p.sclu p.tag with
  | some x => s.rxComplete x 2 0
  | none => s

/-- A packet of a transfer lands at its offset and counts once; a chunk whose landing fails its region check is discarded whole with
REGION_ASYNC; the last byte sends the landed notice and completes the RECV (R199, R228, R232, R272). A landing in HBM waits while a
commit pass runs (R221). DEDUCED (log entry 121): a packet whose write meets a detected error is charged and not counted, and waits to
land again. -/
def State.landPacket (s : State) (p : Packet) : State :=
  match s.rxFor p.dclu p.src p.sclu p.tag with
  | none => s.take p
  | some x =>
    let d : Desc := { raw := x.dst }
    let off := p.chunk * 65536 + p.offset
    let ps := d.chunkPieces off p.body.length
    if x.got.contains (p.chunk, p.offset) ∨ x.total < off + p.body.length ∨ x.stop then s.take p
    else
      let replace (s : State) (y : Rx) : State := { s with rxs := s.rxs.map (fun (z : Rx) => if z = x then y else z) }
      match (d.chunkRanges (p.chunk * 65536) (chunkLen x.total p.chunk)).find? (fun r => !s.regionOk x.tenant r.1 r.2 .fl) with
      | some r =>
        let gone := (x.got.filter (fun g => g.1 == p.chunk)).foldl (fun n g => n + min 4096 (x.total - (g.1 * 65536 + g.2))) 0
        let y := { x with stop := true, got := x.got.filter (fun g => g.1 != p.chunk), landed := x.landed - gone }
        (replace (s.take p) y).fault x.cluster
          { code := 0x0C, port := portFabric, async := true, pc := x.entry.pc, word := x.entry.word, dpa := r.1 }
      | none =>
        if ps.any (fun r => s.landsLater r.1) then s
        else
          let w := (s.onBehalf x.tenant).writePieces ps p.body
          if w.1.isSome then w.2.chargeWrite w.1 x.tenant
          else
            let s := w.2.take p
            let s := if x.got.isEmpty then s.trace x.cluster 0x05 x.tag 0 (peerWord x.src x.sclu 0 0 x.seq) else s
            let y := { x with got := x.got ++ [(p.chunk, p.offset)], landed := x.landed + p.body.length }
            let s := replace s y
            if y.landed < x.total then s
            else (s.sendGrant x.src x.sclu x.cluster x.tag 4 0).rxComplete y 0 0

def execDataPacketRx (p : Packet) (s : State) : Host.Outcome State Fault Refusal :=
  .next (if p.malformed then (s.take p).badPacket else s.landPacket p)

/-! ### A fence reaches the fabric ports (R201, R337) -/

/-- Destinations not yet served count as fenced; a RECV from the chip completes with MEMBER_FENCED. -/
def State.xfersFenced (s : State) (chip : Nat) : State :=
  let s := (s.txs.filter (fun (x : Tx) => x.dests.any (fun (d : TxDest) => d.chip == chip && decide (d.state < 2)))).foldl
    (fun (s : State) x => s.txUpdate x (x.setDest chip (fun d => if d.state < 2 then { d with state := 4 } else d))) s
  (s.rxs.filter (fun (x : Rx) => x.src == chip)).foldl (fun (s : State) x => s.rxComplete x 1 1) s

/-! ### Signals that cross clusters and chips (R138, R202, R203, R261, R268) -/

def heldKey (t c tok : Nat) : Nat := (t * 64 + c) * 256 + tok

/-- A signal of tenant `t` for cluster `c`: held while the tenant's context there is being saved, saved or restored; else applied,
unless the cluster runs another tenant's stream. -/
def State.signalTo (s : State) (t c tok n : Nat) (peer : BitVec 64) : State :=
  let x := s.ctxState t c
  if x = 2 ∨ x = 3 ∨ x = 5 then
    let k := heldKey t c tok
    let s := { s with heldSig := s.heldSig.set 0 k (s.heldSig.get 0 k + n) }
    s.cnt Reg.MOV_HELD_SIG_CNT
  else if s.seqState c = seqIdle ∨ s.seqTenant c = t then s.signal c tok n peer
  else s

/-- SIGNAL_PACKET_RX: a remote SIGNAL of T1 (R203). -/
def execSignalPacketRx (p : Packet) (s : State) : Host.Outcome State Fault Refusal :=
  let s := s.take p
  let tok := leNat (p.body.take 1)
  let peer := peerWord p.src p.sclu 7 0 0
  .next (if p.type ≠ 4 ∨ p.malformed then s.badPacket
    else (s.trace p.dclu 0x09 tok 0 peer).signalTo 1 p.dclu tok (leNat ((p.body.drop 4).take 3)) peer)

end Sys2Proof.Machine
end

