-- ==== Sys2Proof/Machine/Collectives.lean ====
section
/-!
DEFINITION. The collective engine (spec/11_collectives.md): plans, rings and their schedules, quantised contributions, chunks with
their credit and duplicates, the closing gather, attempts and the service-network fallback.
-/
namespace Sys2Proof.Machine

/-! ### Plans (R350, R352, R354) -/

/-- Plan `p` of T1's image with the counts of its chunk table; none where the section lists none. -/
def ImageRec.plan (im : ImageRec) (p g : Nat) : Option Plan :=
  let num (a n : Nat) := leNat ((im.plans.drop (0x40 + p * 0x40 + a)).take n)
  if leNat (im.plans.take 2) ≤ p then none
  else
    let total := num 0x10 8
    let ct := num 0x0A 2
    let tabNum (a n : Nat) := leNat ((im.chunkTabs.drop a).take n)
    let toff := tabNum (0x40 + ct * 8) 8
    let counts := if ct = 0xFFFF then List.replicate g (total / g)
      else if ct < tabNum 0 2 then (List.range (tabNum toff 8)).map (fun j => tabNum (toff + 8 + 8 * j) 5) else []
    some { id := p, ops := num 0 1, axes := num 1 1, issuer := num 2 1, streams := num 3 1, slots := num 4 1
           replayMax := num 5 1, fallback := num 6 1 % 2 == 1, root := num 8 2, chunkTab := ct, total := total
           scaleTab := num 0x18 8, land := num 0x20 8, hold := num 0x28 8, fbTab := num 0x30 8, counts := counts }

/-- The axes a plan spans. -/
def axesOf (axes : Nat) : List Nat := [0, 1, 2].filter axes.testBit

/-- G of R350. -/
def State.groupSize (s : State) (axes : Nat) : Nat := (axesOf axes).foldl (fun n a => n * s.dim a) 1

/-- The chip of member `i`, and the member index of a chip (R350). -/
def State.memberChip (s : State) (axes i : Nat) : Nat :=
  let gx := if axes.testBit 0 then s.dim 0 else 1
  let gy := if axes.testBit 1 then s.dim 1 else 1
  let x := if axes.testBit 0 then i % gx else chipX s.chip
  let y := if axes.testBit 1 then i / gx % gy else chipY s.chip
  let z := if axes.testBit 2 then i / gx / gy else chipZ s.chip
  (z * 32 + y) * 32 + x

def State.memberIx (s : State) (axes n : Nat) : Nat :=
  let gx := if axes.testBit 0 then s.dim 0 else 1
  let gy := if axes.testBit 1 then s.dim 1 else 1
  let on (a : Nat) := if axes.testBit a then chipAxis n a else 0
  (on 2 * gy + on 1) * gx + on 0

def State.groupChips (s : State) (axes : Nat) : List Nat := (List.range (s.groupSize axes)).map (s.memberChip axes)

def ceil32 (n : Nat) : Nat := (n + 31) / 32 * 32

/-- P_j, START_j and TOTAL_PAD of R354. -/
def Plan.pOf (p : Plan) (j : Nat) : Nat := (p.counts.take j).foldl (· + ·) 0
def Plan.startOf (p : Plan) (j : Nat) : Nat := (p.counts.take j).foldl (fun n c => n + ceil32 c) 0
def Plan.totalPad (p : Plan) : Nat := p.startOf p.counts.length
def Plan.countOf (p : Plan) (j : Nat) : Nat := p.counts.getD j 0
def Plan.ns (p : Plan) : Nat := ((List.range 4).filter p.streams.testBit).length
/-- The enabled streams in the order PA, PB, NA, NB. -/
def Plan.streamList (p : Plan) : List Nat := (List.range 4).filter p.streams.testBit
def Plan.streamIx (p : Plan) (st : Nat) : Nat := ((List.range st).filter p.streams.testBit).length

/-! ### Contexts -/

def State.coll (s : State) (i : Nat) : Option Coll := (s.colls.find? (fun e => e.1 == i)).map (·.2)
def State.group (s : State) (c : Coll) : List Nat := s.groupChips c.plan.axes
def State.fencedIn (s : State) (c : Coll) : Nat := ((s.group c).filter s.fenced).length
def State.myIx (s : State) (c : Coll) : Nat := s.memberIx c.plan.axes s.chip

/-- COL_CTX_STAT_i follows the context (R379). -/
def State.showColl (s : State) (i : Nat) : State :=
  match s.coll i with
  | none => s.wr (Reg.COL_CTX_STAT i) 0
  | some c =>
    let reduce := c.op == 0 || c.op == 2 || c.op == 4
    let phase := if c.doneSent then 5 else if c.pass = 0 then 1 else if reduce && !c.ready then 2
      else if !c.gathered then 3 else 4
    s.wr (Reg.COL_CTX_STAT i) (BitVec.ofNat 64 (phase + (!c.stalled.isEmpty).toNat * 2 ^ 4 + (!c.det.isEmpty).toNat * 2 ^ 5
      + (!c.fb.isEmpty || !c.fbIn.isEmpty).toNat * 2 ^ 6 + c.plan.id % 256 * 2 ^ 8 + c.n % 2 ^ 16 * 2 ^ 16 + c.attempt % 16 * 2 ^ 32
      + c.pass % 4 * 2 ^ 36 + c.plan.issuer % 64 * 2 ^ 40 + s.fencedIn c % 2 ^ 15 * 2 ^ 48))

/-- Every context is shown anew: a fence has changed. -/
def State.showColls (s : State) : State := (s.colls.map (·.1)).foldl State.showColl s

def State.setColl (s : State) (i : Nat) (c : Coll) : State := { s with colls := s.colls.put i c }.showColl i

def State.colEvent (s : State) (bit ctr : Nat) : State := s.event Reg.COL_STATUS (bitField bit) ctr
def State.colDup (s : State) : State := (s.colEvent 3 Reg.COL_DUP_CNT).bumpGlb 0x09 0 1

/-! ### Rings and the order of chunks (R355, R360, R361) -/

/-- One stage: the chips of the ring by position, and the shards each position owns. -/
structure Stage where
  ring : List Nat
  sets : List (List Nat)

/-- The one ring over M in member order; each member also owns the shards of the fenced members that follow it (R360, R369). -/
def State.wholeRing (s : State) (c : Coll) : Stage :=
  let g := c.plan.counts.length
  let ixs := c.members.map (s.memberIx c.plan.axes)
  let set (q : Nat) : List Nat :=
    let a := ixs.getD q 0
    let b := ixs.getD ((q + 1) % ixs.length) 0
    let n := if ixs.length ≤ 1 then g else (b + g - a - 1) % g + 1
    (List.range n).map (fun k => (a + k) % g)
  { ring := c.members, sets := (List.range ixs.length).map set }

/-- The stages as chip `n` takes them: one ring per spanned axis; a group with a fenced member, or of one axis, takes the one ring
over M (the ring of a box with a fenced member is a DESIGN CHOICE of the model). -/
def State.stages (s : State) (c : Coll) (n : Nat) : List Stage :=
  let ax := axesOf c.plan.axes
  if ax.length ≤ 1 ∨ c.members.length ≠ s.groupSize c.plan.axes then [s.wholeRing c]
  else ax.zipIdx.map (fun a =>
    let others := ax.filter (· ≠ a.1)
    let ring := c.members.filter (fun m => others.all (fun o => chipAxis m o == chipAxis n o))
    let before := ax.take a.2
    let sets := ring.map (fun m => (List.range c.members.length).filter (fun j =>
      let k := s.memberChip c.plan.axes j
      before.all (fun b => chipAxis k b == chipAxis n b) && chipAxis k a.1 == chipAxis m a.1))
    { ring := ring, sets := sets })

/-- Bytes per element, and where a shard's elements start in DST: shards are padded in AQ48 (R351, R354). -/
def Coll.dstDesc (c : Coll) : Desc := { raw := c.dst }
def Coll.srcDesc (c : Coll) : Desc := { raw := c.src }
def Coll.padded (c : Coll) : Bool := c.dstDesc.fmt == 0x0C
def Coll.shardLen (c : Coll) (j : Nat) : Nat :=
  if c.padded then ceil32 (c.plan.countOf j) else c.plan.countOf j
def Coll.shardAt (c : Coll) (j : Nat) : Nat := if c.padded then c.plan.startOf j else c.plan.pOf j

/-- Bytes of shard `j` as a gathered stream: its elements, then its scales (R256, R355). -/
def Coll.shardBytes (c : Coll) (j : Nat) : Nat :=
  let n := c.shardLen j
  (n * c.dstDesc.bits + 7) / 8 + (if fmtBlocked c.dstDesc.fmt then n / 32 else 0)

/-- Whether an operation reduces onto agreed scales. -/
def Coll.sums (c : Coll) : Bool := c.op == 0 || c.op == 2

/-- How many values, or bytes of a gathered stream, a kind of chunk moves for a shard. -/
def Coll.kindLen (c : Coll) (kind j : Nat) : Nat :=
  match kind with
  | 0 => ceil32 (c.plan.countOf j) / 32
  | 1 => ceil32 (c.plan.countOf j) / 32
  | 2 => ceil32 (c.plan.countOf j)
  | 6 => c.plan.countOf j
  | 3 => c.shardBytes j
  | 5 => c.dstDesc.total
  | _ => 16 + (if c.sums then ceil32 (c.plan.countOf j) / 32 else 0)

/-- The most a chunk of a kind carries: 8,192 values or 64 KiB (R355). -/
def kindUnit (kind : Nat) : Nat := if kind = 3 ∨ kind = 4 ∨ kind = 5 then 65536 else 8192
def kindBytes (kind : Nat) : Nat := if kind = 2 then 6 else if kind = 0 ∨ kind = 1 ∨ kind = 6 then 4 else 1
def Coll.chunkCount (c : Coll) (kind j : Nat) : Nat := (c.kindLen kind j + kindUnit kind - 1) / kindUnit kind
def Coll.chunkSize (c : Coll) (kind j k : Nat) : Nat := min (kindUnit kind) (c.kindLen kind j - k * kindUnit kind)

/-- The shards that a member's closing entry covers: those of its set at the last stage. -/
def State.ownShards (s : State) (c : Coll) (n : Nat) : List Nat :=
  match (s.stages c n).getLast? with
  | some st => st.sets.getD (st.ring.idxOf n) []
  | none => []

/-- Bytes of a closing entry: the statistics of R372 and the codes of the owner's blocks (R370). -/
def State.blobLen (s : State) (c : Coll) (j : Nat) : Nat :=
  16 + (if c.sums then (s.ownShards c (s.memberChip c.plan.axes j)).foldl (fun n k => n + ceil32 (c.plan.countOf k) / 32) 0 else 0)

/-- What chip `n` sends on stream `st` at one stage for one kind of chunk, in order. -/
def State.stageSends (s : State) (c : Coll) (n st kind k : Nat) (sg : Stage) : List CItem :=
  let m := sg.ring.length
  let p := sg.ring.idxOf n
  let neg := decide (2 ≤ st)
  let next := sg.ring.getD (if neg then (p + m - 1) % m else (p + 1) % m) 0
  let reduce := kind == 0 || kind == 2 || kind == 6
  (List.range (m - 1)).flatMap (fun t =>
    let ix := if reduce then (if neg then (p + 1 + t) % m else (p + 2 * m - 1 - t) % m)
      else (if neg then (p + t) % m else (p + m - t) % m)
    let shards := sg.sets.getD ix []
    let shards := if kind = 4 then shards.filter (fun j => c.members.contains (s.memberChip c.plan.axes j)) else shards
    shards.flatMap (fun j =>
      let chunks := if kind = 4 then (s.blobLen c j + 65535) / 65536 else c.chunkCount kind j
      ((List.range chunks).filter (fun x => x % c.plan.ns == c.plan.streamIx st)).map (fun x =>
        { kind := kind, stage := k, shard := j, chunk := x, dests := [next], first := t == 0, final := t + 2 == m })))

/-- What chip `n` sends on stream `st` in a pass, phase by phase: one ring neighbour, or ROOT, serves a receiver in each. -/
def State.phases (s : State) (c : Coll) (n st : Nat) : List (List CItem) :=
  let sgs := (s.stages c n).zipIdx
  let fwd (kind : Nat) := sgs.map (fun x => s.stageSends c n st kind x.2 x.1)
  let back (kind : Nat) := sgs.reverse.map (fun x => s.stageSends c n st kind x.2 x.1)
  let root := s.memberChip c.plan.axes c.plan.root
  if c.pass = 0 then fwd 0 ++ back 1
  else match c.op with
    | 0 => fwd 2 ++ back 4
    | 1 => back 3 ++ back 4
    | 2 => fwd 2 ++ back 3 ++ back 4
    | 3 =>
      (if n = root ∧ c.members.contains root then
        ((List.range (c.chunkCount 5 0)).filter (fun x => x % c.plan.ns == c.plan.streamIx st)).map (fun x =>
          CItem.mk 5 0 0 x (c.members.filter (· ≠ n)) true true)
      else []) :: back 4
    | _ => fwd 6 ++ back 3 ++ back 4

/-- The same in sequence, across all phases. -/
def State.sends (s : State) (c : Coll) (n st : Nat) : List CItem := (s.phases c n st).flatten

/-- The chips that send to chip `me`. -/
def State.upstreamOf (s : State) (c : Coll) (me st : Nat) : List Nat :=
  let near := (s.stages c me).map (fun sg =>
    let m := sg.ring.length
    let p := sg.ring.idxOf me
    sg.ring.getD (if 2 ≤ st then (p + 1) % m else (p + m - 1) % m) me)
  let root := if c.op = 3 then [s.memberChip c.plan.axes c.plan.root] else []
  (near ++ root).eraseDups.filter (fun n => n != me && c.members.contains n)

def State.upstream (s : State) (c : Coll) (st : Nat) : List Nat := s.upstreamOf c s.chip st

/-- What comes on stream `st` from chip `n`: (sequence number, chunk), ascending. -/
def State.recvs (s : State) (c : Coll) (st n : Nat) : List (Nat × CItem) :=
  ((s.sends c n st).zipIdx.filter (fun e => e.1.dests.contains s.chip)).map (fun e => (e.2, e.1))

/-- Items with their sequence numbers, phase by phase. -/
def numbered : Nat → List (List CItem) → List (List (Nat × CItem))
  | _, [] => []
  | k, p :: rest => p.zipIdx.map (fun e => (k + e.2, e.1)) :: numbered (k + p.length) rest

/-- Everything that comes to chip `me` on stream `st` in a pass, in the order in which its slots serve it: sender, sequence number,
chunk. Where every member sends alike, the place in this order is the sequence number. -/
def State.order (s : State) (c : Coll) (me st : Nat) : List (Nat × Nat × CItem) :=
  let from' := (s.upstreamOf c me st).map (fun n => (n, numbered 0 (s.phases c n st)))
  (List.range ((from'.map (fun e => e.2.length)).foldl max 0)).flatMap (fun k => from'.flatMap (fun e =>
    ((e.2.getD k []).filter (fun x => x.2.dests.contains me)).map (fun x => (e.1, x.1, x.2))))

/-- The landing slot of a chunk at chip `me` (R366): its place among what comes on the stream, modulo SLOTS. -/
def State.landIx (s : State) (c : Coll) (me st n seq : Nat) : Nat :=
  (s.order c me st).findIdx (fun e => e.1 == n && e.2.1 == seq) % c.plan.slots

/-! ### Packets (R364 to R366) -/

def ckey (st n : Nat) : Nat := st * 32768 + n

/-- CHUNK of R364. -/
def Coll.chunkWord (c : Coll) (seq : Nat) : Nat :=
  seq % 2 ^ 18 + c.pass % 4 * 2 ^ 18 + c.attempt % 16 * 2 ^ 20 + c.plan.id % 256 * 2 ^ 24

def State.collPacket (s : State) (c : Coll) (dst st seq offset : Nat) (body : List Byte) : Packet :=
  { dst := dst, src := s.chip, tc := 1, type := 1, dclu := c.plan.issuer, sclu := c.plan.issuer, tag := c.n % 2 ^ 16
    chunk := c.chunkWord seq, offset := offset, body := body, stream := st }

/-- The box of a group (R333): every coordinate of a spanned axis, this chip's own of the others. -/
def State.groupMask (s : State) (axes : Nat) : BitVec 96 :=
  let on (a : Nat) := if axes.testBit a then 2 ^ s.dim a - 1 else 2 ^ chipAxis s.chip a
  maskOf (on 0) (on 1) (on 2)

/-- A control body (R365). -/
def State.controlBody (s : State) (c : Coll) (kind st attempt seq : Nat) : List Byte :=
  leBytes 1 kind ++ leBytes 1 st ++ leBytes 2 (s.fencedIn c) ++ leBytes 4 attempt ++ leBytes 8 seq

/-- A fallback path of this member: to a receiver it sends to, or back to a sender whose stream comes that way (R373). -/
def Coll.fbTo (c : Coll) (st n : Nat) : Option FbPath := c.fb.find? (fun (x : FbPath) => x.stream == st && x.chip == n)
def Coll.qpBack (c : Coll) (st n : Nat) : Option Nat :=
  ((c.fbIn.find? (fun x => x.1 == st && x.2.1 == n)).map (·.2.2)).or ((c.fbTo st n).map (·.qp))

/-- The FB_TAB entry of a chip (R374). -/
def State.fbAddr (s : State) (c : Coll) (n : Nat) : Nat := c.plan.fbTab + 16 * s.memberIx c.plan.axes n
def fbPathOf (st n : Nat) (bs : List Byte) : FbPath :=
  let v := leNat bs
  { stream := st, chip := n, qp := v % 2 ^ 24, rkey := v / 2 ^ 32 % 2 ^ 32, land := v / 2 ^ 64 % 2 ^ 48 }

/-- The 128-byte chunk notice of R374. -/
def noticeBytes (p : Packet) (kind : Nat) : List Byte :=
  p.header p.body.length ++ (p.body ++ List.replicate (64 - p.body.length) 0).take 64 ++ leBytes 2 kind ++ leBytes 14 0

/-! ### Queue pairs (R519, R520, R523) -/

/-- QPN of R519. -/
def qpn (n : Nat) : Nat := 0x10000 + n
def State.qp (s : State) (n : Nat) : Option Qp := (s.qps.find? (fun e => e.1 == n)).map (·.2)
def State.setQp (s : State) (n : Nat) (q : Qp) : State := { s with qps := s.qps.put n q }

/-- A queue pair that is neither free nor in error, on an enabled port. -/
def State.liveQp (s : State) (n : Nat) : Option Qp :=
  (s.qp n).filter (fun q => !q.error && s.fld (Reg.SVC_CTL q.port) Fld.SVC_CTL_EN == 1)

/-- Bytes in a packet. -/
def Qp.mtu (q : Qp) : Nat := 2 ^ (q.pmtu + 7)

/-- Packets of a message; an empty message takes one. -/
def Qp.packetsOf (q : Qp) (n : Nat) : Nat := max 1 ((n + q.mtu - 1) / q.mtu)

/-- The operation goes out. -/
def State.sendPost (s : State) (n : Nat) (q : Qp) (p : QpPost) (bs : List Byte) : State :=
  let s := s.setQp n { q with psn := (q.psn + p.packets) % 2 ^ 24, posts := q.posts ++ [p] }
  s.say (match p.op with
    | 0 => .svcSend (qpn n) bs
    | 1 => .svcWrite (qpn n) p.rkey p.remote bs
    | _ => .svcRead (qpn n) p.rkey p.remote p.bytes)

/-- An operation the device itself posts on a queue pair: 0 SEND, 1 WRITE, 2 READ (R373, R397, R398). A queue pair that is not in service takes
none (DESIGN CHOICE, log entry 124: the spec names no report). -/
def State.ownPost (s : State) (qp op rkey remote n : Nat) (bs : List Byte) : State :=
  if qp < qpn 0 ∨ qpn 4096 ≤ qp then s
  else match s.liveQp (qp - qpn 0) with
    | none => s
    | some q => s.sendPost (qp - qpn 0) q
        { ring := 64, cid := 0, op := op, dpa := 0, bytes := n, rkey := rkey, remote := remote, psn := q.psn, packets := q.packetsOf n } bs

/-- A control or GRANT body as a SEND (R373). -/
def State.sendNotice (s : State) (qp kind : Nat) (p : Packet) : State := s.ownPost qp 0 0 0 128 (noticeBytes p kind)

/-- DONE or RESTART, to the whole group's box; to a member on the service network besides as a notice (R365, R373). -/
def State.multicastControl (s : State) (c : Coll) (kind : Nat) : State :=
  let p := s.collPacket c 0 0 0 0xFF00 (s.controlBody c kind 0 c.attempt 0)
  let s := s.inject { p with mc := true, mask := s.groupMask c.plan.axes }
  ((c.fb.map (·.qp)) ++ c.fbIn.map (·.2.2)).eraseDups.foldl (fun (s : State) q => s.sendNotice q 1 p) s

/-- How many of the chunks that came from chip `n` are consumed (R366): added or stored here, and of a partial that goes on, its
outgoing partial in this member's hold. -/
def State.consumed (s : State) (c : Coll) (st n : Nat) : Nat :=
  let mine := s.sends c s.chip st
  let gone (x : CItem) : Bool :=
    if x.kind = 0 ∨ x.kind = 2 ∨ x.kind = 6 then
      match mine.findIdx? (fun y => y.kind == x.kind && y.stage == x.stage && y.shard == x.shard && y.chunk == x.chunk) with
      | some k => decide (k < c.sent.get 0 st)
      | none => true
    else true
  (((s.recvs c st n).take (c.eaten.get 0 (ckey st n))).takeWhile (fun e => gone e.2)).length

/-- LIMIT for the sender of a stream (R366): the number of chunks consumed on the stream plus SLOTS, in the order in which the slots serve
them. DEDUCED (log entry 124): where the members' numbers differ, it is told in the sender's own, and permits no chunk whose slot
another sender's chunk may still take. -/
def State.limitFor (s : State) (c : Coll) (st n : Nat) : Nat :=
  let all := s.order c s.chip st
  let senders := (s.upstream c st).map (fun m => (m, s.consumed c st m))
  let numOf (m : Nat) : Nat := ((senders.find? (fun e => e.1 == m)).map (·.2)).getD 0
  let eaten (e : Nat × Nat × CItem) : Bool :=
    decide ((all.filter (fun x => x.1 == e.1 && decide (x.2.1 < e.2.1))).length < numOf e.1)
  let done := (all.takeWhile eaten).length
  let rs := all.zipIdx.filter (fun e => e.1.1 == n)
  let left := rs.drop (numOf n)
  if rs.all (fun e => e.1.2.1 == e.2) then done + c.plan.slots
  else
    let base := match left with
      | e :: _ => e.1.2.1
      | [] => ((rs.getLast?).map (fun e => e.1.2.1 + 1)).getD 0
    match left.find? (fun e => decide (done + c.plan.slots ≤ e.2)) with
    | some e => min (base + c.plan.slots) e.1.2.1
    | none => base + c.plan.slots

/-- A GRANT of KIND 2 to the sender of a stream (R366). -/
def State.sendCredit (s : State) (c : Coll) (st n limit : Nat) : State :=
  let p : Packet := { dst := n, src := s.chip, tc := 2, type := 3, dclu := c.plan.issuer, sclu := c.plan.issuer
                      tag := c.n % 2 ^ 16, chunk := c.chunkWord 0
                      body := leBytes 1 2 ++ leBytes 1 st ++ leBytes 2 0 ++ leBytes 4 limit ++ leBytes 8 0 }
  match c.qpBack st n with
  | some q => s.sendNotice q 2 p
  | none => s.inject p

/-- RESEND, to the sender of the chunk (R365, R368). -/
def State.sendResend (s : State) (c : Coll) (st n seq : Nat) : State :=
  let p := s.collPacket c n st 0 0xFF00 (s.controlBody c 3 st c.attempt seq)
  match c.qpBack st n with
  | some q => s.sendNotice q 1 p
  | none => s.inject p

/-! ### Contributions (R357, R358, R363) -/

/-- Why the engine stops before a chunk (R375): a failed region check, or a detected error. -/
inductive CStop where
  | region (addr : Nat)
  | det (hbm : Bool) (dpa : Nat)
  deriving DecidableEq, Repr

def State.badRange (s : State) (p : Perm) (rs : List (Nat × Nat)) : Option Nat :=
  (rs.find? (fun r => !s.regionOk 1 r.1 r.2 p)).map (·.1)

/-- `ceil(log2 q)` for q > 0. -/
def ceilLog2 (q : Frac) : Int := if (Frac.pow2 q.log2).eqv q.abs then q.log2 else q.log2 + 1

/-- 127 + ceil(log2 m) + 2 within 0 and 254 (R358, R359). -/
def agreedCode (m : Frac) : Nat := min 254 (max 0 (127 + ceilLog2 m + 2)).toNat

def maxAbs (l : List Num) : Frac :=
  l.foldl (fun m v => match v with
    | .fin q => m.max q.abs
    | _ => m) ⟨0, 1⟩

/-- An overflow here is the last one permitted, so the element becomes an infinity (R363). -/
def Coll.lastChance (c : Coll) (e : Nat) : Bool :=
  decide (64 < c.plan.counts.length) || decide (1 + c.plan.replayMax ≤ c.pass) || decide (254 < e + 4)

/-- The member's own values of a chunk as exact numbers; padding positions are zero. -/
def State.ownValues (s : State) (c : Coll) (shard start n : Nat) : List Num :=
  (List.range n).map (fun k =>
    if start + k < c.plan.countOf shard then s.elemNum c.srcDesc (c.plan.pOf shard + start + k) 0 else .fin ⟨0, 1⟩)

/-- The member's own codes of a chunk, with its overflow bits; the context counts what it quantises. -/
def State.ownCodes (s : State) (c : Coll) (kind shard k : Nat) : List Nat × Nat × Coll × State :=
  let n := c.chunkSize kind shard k
  let at' := k * 8192
  match kind with
  | 0 =>
    ((List.range n).map (fun b => (toFp32 (.fin (maxAbs (s.ownValues c shard ((at' + b) * 32) 32))) .rne 0).toNat), 0, c, s)
  | 6 =>
    ((s.ownValues c shard at' n).zipIdx.map (fun v => match v.1 with
      | .fin q => if q.isZero then s.elemCode c.srcDesc (c.plan.pOf shard + at' + v.2)
          * (if c.srcDesc.fmt = 1 then 65536 else 1) else (toFp32 (.fin q) .rne 0).toNat
      | x => (toFp32 x .rne 0).toNat), 0, c, s)
  | _ =>
    let b0 := (c.plan.startOf shard + at') / 32
    let qs := (s.ownValues c shard at' n).zipIdx.map (fun v =>
      let e := c.codes.getD (b0 + v.2 / 32) 127
      let r := aq32Quantise e v.1
      if r.2 && !c.lastChance e then (Num.fin ⟨0, 1⟩, true, false, v.2 / 32, e) else (r.1, r.2, r.2, v.2 / 32, e))
    let ovf := qs.filter (fun r => r.2.1)
    let inf := (qs.filter (fun r => r.2.2.1)).length
    let bits := ovf.foldl (fun m r => if m.testBit r.2.2.2.1 then m else m + 2 ^ r.2.2.2.1) 0
    let sq := qs.foldl (fun (a : Frac) r => match r.1 with
      | .fin q => a.add ((q.mul q).shift (2 * ((r.2.2.2.2 : Int) - 158)))
      | _ => a) c.localSq
    let c := { c with localSq := sq, ovfN := c.ovfN + ovf.length }
    let s := if ovf.isEmpty then s else (s.setFld Reg.COL_STATUS (bitField 0) 1).cntBy Reg.COL_OVF_CNT ovf.length
    let s := if inf = 0 then s else (s.setFld Reg.COL_STATUS (bitField 2) 1).cntBy Reg.COL_INF_CNT inf
    (qs.map (fun r => aqCode 48 r.1), bits, c, s)

/-- Two partials of a chunk combined (R65, R114). -/
def combine (kind : Nat) (a b : List Nat) : List Nat :=
  a.zipWith (fun x y => if kind = 2 then aqCode 48 (aqAdd (aqValue 48 x) (aqValue 48 y))
    else (f32Max (BitVec.ofNat 32 x) (BitVec.ofNat 32 y)).toNat) b

def Coll.part (c : Coll) (kind shard chunk : Nat) : Option CPart :=
  c.parts.find? (fun (p : CPart) => p.kind == kind && p.shard == shard && p.chunk == chunk)

def Coll.setPart (c : Coll) (p : CPart) : Coll :=
  { c with parts := c.parts.filter (fun (q : CPart) => !(q.kind == p.kind && q.shard == p.shard && q.chunk == p.chunk)) ++ [p] }

/-- Bytes `off` to `off + n − 1` of SRC's stream, under the region check of the contribution (R228, R375). -/
def State.readSrc (s : State) (c : Coll) (off n : Nat) : Except (CStop × State) (List Byte × State) :=
  let ps := if n = 0 then [] else c.srcDesc.chunkPieces off n
  match s.badRange .rd ps with
  | some a => .error (.region a, s)
  | none => match (s.onBehalf 1).readPieces ps with
    | (.detected h a, s) => .error (.det h a, s)
    | (.ok bs, s) => .ok (bs, s)

/-- This member's part of a chunk so far: what an earlier stage left, or its own contribution, read and counted once. -/
def State.partOf (s : State) (c : Coll) (kind shard chunk : Nat) : Except (CStop × State) (CPart × Coll × State) :=
  match c.part kind shard chunk with
  | some p => .ok (p, c, s)
  | none =>
    let unit := 8192 * (if kind = 0 then 32 else 1)
    let el := c.plan.pOf shard + chunk * unit
    let n := min unit (c.plan.pOf shard + c.plan.countOf shard - el)
    match s.readSrc c (el * c.srcDesc.bits / 8) (n * c.srcDesc.bits / 8) with
    | .error e => .error e
    | .ok (_, s) =>
      let r := s.ownCodes c kind shard chunk
      .ok (CPart.mk kind shard chunk r.1 0 r.2.1, r.2.2.1, r.2.2.2)

/-- The exchanges that come before stage `k`: a ring of one member has none. -/
def State.levelAt (s : State) (c : Coll) (k : Nat) : Nat :=
  (((s.stages c s.chip).take k).filter (fun sg => decide (1 < sg.ring.length))).length

def Coll.levelOf (c : Coll) (kind shard chunk : Nat) : Nat := ((c.part kind shard chunk).map (·.level)).getD 0

/-- A chunk of a gathered kind has arrived here. -/
def Coll.arrived (c : Coll) (kind shard chunk : Nat) : Bool := (c.part kind shard chunk).isSome

def encodeCodes (kind : Nat) (cs : List Nat) : List Byte := cs.flatMap (fun x => leBytes (kindBytes kind) x)
def decodeCodes (kind n : Nat) (bs : List Byte) : List Nat :=
  (List.range n).map (fun i => leNat ((bs.drop (i * kindBytes kind)).take (kindBytes kind)))

/-! ### Memory of the engine (R228, R351, R353, R355) -/

/-- A slot of LAND or HOLD by its index among those of a stream. -/
def Coll.slotAt (c : Coll) (base st ix : Nat) : Nat := base + (c.plan.streamIx st * c.plan.slots + ix % c.plan.slots) * 65536

/-- Where a chunk lands here. -/
def State.landSlot (s : State) (c : Coll) (st n seq : Nat) : Nat := c.slotAt c.plan.land st (s.landIx c s.chip st n seq)

/-- The pieces of DST that hold bytes `off` to `off + n − 1` of shard `j`'s gathered stream. -/
def Coll.shardPieces (c : Coll) (d : Desc) (start j off n : Nat) : List (Nat × Nat) :=
  let eb := (c.shardLen j * d.bits + 7) / 8
  let inE := min n (eb - off)
  (if off < eb then d.chunkPieces (start * d.bits / 8 + off) inE else [])
    ++ (if eb < off + n then d.chunkPieces (d.elemBytes + start / 32 + (off - eb) * (if off < eb then 0 else 1)) (n - inE) else [])

/-- Elements of a 1-bit format stand shard behind shard without padding, so a shard may start and end inside a byte (R351). -/
def Coll.bitwise (c : Coll) : Bool := c.dstDesc.bits % 8 != 0 && !fmtBlocked c.dstDesc.fmt

/-- The first bit in DST of those bytes of the stream, and how many bits they hold. -/
def Coll.bitSpan (c : Coll) (j off n : Nat) : Nat × Nat :=
  (c.shardAt j * c.dstDesc.bits + off * 8, min (n * 8) (c.shardLen j * c.dstDesc.bits - off * 8))

/-- The pieces of DST that a part of shard `j`'s stream touches. -/
def Coll.shardSpots (c : Coll) (j off n : Nat) : List (Nat × Nat) :=
  if c.bitwise then
    let b := c.bitSpan j off n
    c.dstDesc.chunkPieces (b.1 / 8) ((b.1 % 8 + b.2 + 7) / 8)
  else c.shardPieces c.dstDesc (c.shardAt j) j off n

def State.shardRead (s : State) (c : Coll) (j off n : Nat) : MemRes × State :=
  match (s.onBehalf 1).readPieces (c.shardSpots j off n) with
  | (.ok bs, s) =>
    let b := c.bitSpan j off n
    (.ok (if c.bitwise then leBytes n (leNat bs / 2 ^ (b.1 % 8) % 2 ^ b.2) else bs), s)
  | r => r

/-- A part of a shard's stream is stored in DST, the bits beside it kept; a result needs FL (R228). -/
def State.shardWrite (s : State) (c : Coll) (j off : Nat) (bs : List Byte) : Option CStop × State :=
  let ps := c.shardSpots j off bs.length
  match s.badRange .fl ps with
  | some a => (some (.region a), s)
  | none =>
    let b := c.bitSpan j off bs.length
    let old := leNat (ps.flatMap (fun p => s.bytes p.1 p.2))
    let sh := b.1 % 8
    let new := leBytes ((sh + b.2 + 7) / 8)
      (old % 2 ^ sh + leNat bs % 2 ^ b.2 * 2 ^ sh + old / 2 ^ (sh + b.2) * 2 ^ (sh + b.2))
    let w := (s.onBehalf 1).writePieces ps (if c.bitwise then new else bs)
    (w.1.map (fun e => CStop.det e.1 e.2), w.2)

/-- Result bytes are stored in DST at given pieces. -/
def State.resultWrite (s : State) (ps : List (Nat × Nat)) (bs : List Byte) : Option CStop × State :=
  match s.badRange .fl ps with
  | some a => (some (.region a), s)
  | none =>
    let w := (s.onBehalf 1).writePieces ps bs
    (w.1.map (fun e => CStop.det e.1 e.2), w.2)

/-- A failed check of the engine's own access: REGION_ASYNC on the issuing cluster (R272). -/
def State.collRegionFault (s : State) (i : Nat) (c : Coll) (a : Nat) : State :=
  (s.setColl i { c with stop := true }).fault c.plan.issuer
    { code := 0x0C, port := portFabric, async := true, pc := c.entry.pc, word := c.entry.word, dpa := a }

/-- A detected error stops the stream before its chunk (R375). DEDUCED (log entry 121): one met by a write of the engine does the same. -/
def State.collDetected (s : State) (i st : Nat) (c : Coll) (h : Bool) (a : Nat) : State :=
  let s := s.setColl i { c with det := if c.det.contains st then c.det else c.det ++ [st] }
  (s.colEvent 7 Reg.COL_DET_CNT).chargeMem h a 1

def State.collStop (s : State) (i st : Nat) (c : Coll) : CStop → State
  | .region a => s.collRegionFault i c a
  | .det h a => s.collDetected i st c h a

/-! ### Starting an attempt (R356, R369, R371) -/

/-- A pass begins: nothing sent, landed or reduced yet. -/
def Coll.beginPass (c : Coll) (pass : Nat) : Coll :=
  { c with pass := pass, parts := [], ready := false, sent := [], limit := [], hold := [], got := [], counted := [], eaten := []
           blobs := [], localSq := ⟨0, 1⟩, ovfN := 0, gathered := false, told := [] }

/-- Every sender of a stream whose LIMIT has changed is told (R366). -/
def State.tellLimits (s : State) (c : Coll) (st : Nat) : Coll × State :=
  (s.upstream c st).foldl (fun (a : Coll × State) n =>
    let l := a.2.limitFor a.1 st n
    if (a.2.recvs a.1 st n).isEmpty ∨ l = a.1.told.get 0 (ckey st n) then a
    else ({ a.1 with told := a.1.told.set 0 (ckey st n) l }, a.2.sendCredit a.1 st n l)) (c, s)

/-- Every sender to this member gets its first credit (R366; DEDUCED: the first GRANT of a pass is sent when it begins). -/
def State.firstCredits (s : State) (i : Nat) (c : Coll) : State :=
  let r := c.plan.streamList.foldl (fun (a : Coll × State) st => a.2.tellLimits a.1 st) (c, s)
  r.2.setColl i r.1

/-- An attempt starts over the unfenced members, at PASS 0 where the table is not valid (R358, R369); none starts before the scale table has
been read. -/
def State.beginAttempt (s : State) (i : Nat) (c : Coll) : State :=
  if c.unread then s.setColl i c
  else
    let m := (s.group c).filter (fun n => !s.fenced n)
    let pass := if c.sums && c.atIssue.isEmpty then 0 else 1
    let c := { c.beginPass pass with
      running := true, members := m, codes := c.atIssue, dones := [], doneSent := false, fb := [], fbIn := [], stalled := []
      det := [], resend := [], prepass := pass == 0 }
    let s := if pass = 0 then s.cnt Reg.COL_PREPASS_CNT else s
    s.firstCredits i c

/-- The agreed scales are read as they stand at issue, and the first attempt starts (R356); a detected error leaves the context waiting with
DET until it is redriven (R375). -/
def State.openColl (s : State) (i : Nat) (c : Coll) : State :=
  if !c.sums then s.beginAttempt i c
  else match (s.onBehalf 1).readMem c.plan.scaleTab (64 + c.plan.totalPad / 32) with
    | (.detected h a, s) => s.collDetected i (c.plan.streamList.headD 0) { c with unread := true } h a
    | (.ok bs, s) =>
      let valid := bs.take 1 == [1]
      let c := { c with
        unread := false, det := []
        atIssue := if valid then (bs.drop 64).map (·.toNat) else []
        uses := if valid then leNat ((bs.drop 8).take 8) else 0 }
      if c.wait ≤ s.fencedIn c then s.beginAttempt i c else s.setColl i c

/-- A restart (R371): what the attempt landed and held is discarded; the member waits until its bitmap shows enough fences. -/
def State.restartColl (s : State) (i : Nat) (c : Coll) (attempt : Nat) : State :=
  let c := { c with attempt := attempt, highest := max attempt c.highest, running := false }
  let s := ((s.setColl i c).colEvent 5 Reg.COL_RESTART_CNT).trace 77 0x14 c.plan.id 0 (peerWord attempt 0 0 0 c.n)
  let s := s.multicastControl c 2
  if c.wait ≤ s.fencedIn c then s.beginAttempt i c else s

/-- A restart for a cause of this member's own (R371). -/
def State.restartOwn (s : State) (i : Nat) (c : Coll) : State := s.restartColl i c (c.highest + 1)

/-! ### Completion (R359, R370, R372) -/

/-- The final codes of a block's owner: 0xFF asks for a repeat (R359, R363). -/
def Coll.nextCode (c : Coll) (b : Nat) (overflowed : Bool) (vals : List Num) : Nat :=
  let e := c.codes.getD b 127
  let m := maxAbs vals
  if overflowed then (if c.lastChance e then min (e + 4) 254 else 0xFF)
  else if m.isZero then e else agreedCode (m.shift ((e : Int) - 158))

/-- The reduced values of a chunk in quanta of their blocks. -/
def CPart.quanta (p : CPart) : List Num := p.codes.map (aqValue 48)

/-- An exact sum in quanta of a block, rounded once to FP32 (R351). -/
def fp32OfQuanta (e : Nat) (code : Nat) : Nat :=
  (toFp32 (match aqValue 48 code with
    | .fin q => .fin (q.shift ((e : Int) - 158))
    | y => y) .rne 0).toNat

/-- A reduced chunk is written to DST, its values and in AQ48 the codes of its blocks (R351). -/
def State.writeReduced (s : State) (c : Coll) (base : Nat) (p : CPart) : Option CStop × State :=
  let d := c.dstDesc
  let first := p.chunk * 8192
  let b0 := (c.plan.startOf p.shard + first) / 32
  let whole : Bool := c.padded && p.kind != 6
  let n := if whole then p.codes.length else min p.codes.length (c.plan.countOf p.shard - first)
  let words := (p.codes.take n).zipIdx.map (fun v =>
    if p.kind = 6 ∨ whole = true then v.1 else fp32OfQuanta (c.codes.getD (b0 + v.2 / 32) 127) v.1)
  let w := s.resultWrite (d.chunkPieces ((base + first) * d.bits / 8) (n * d.bits / 8)) (words.flatMap (leBytes (d.bits / 8)))
  if whole ∧ w.1.isNone then
    w.2.resultWrite (d.chunkPieces (d.elemBytes + (base + first) / 32) (n / 32))
      ((List.range (n / 32)).flatMap (fun b => leBytes 1 (c.codes.getD (b0 + b) 127)))
  else w

/-- Where shard `j`'s result starts in DST: at its own place, or packed behind the shards this member holds (REDUCE_SCATTER). -/
def State.resultAt (s : State) (c : Coll) (j : Nat) : Option Nat :=
  if c.op = 0 then (if j = s.myIx c then some 0 else none) else some (c.shardAt j)

/-- This member's own closing entry (R372) and codes (R359). -/
def State.ownBlob (s : State) (c : Coll) : List Byte :=
  let mine := s.ownShards c s.chip
  let ps := mine.flatMap (fun j => (List.range (c.chunkCount 2 j)).filterMap (fun k => c.part 2 j k))
  let scaled (p : CPart) : List Num := (p.quanta).zipIdx.map (fun v => match v.1 with
    | .fin q => .fin (q.shift ((c.codes.getD ((c.plan.startOf p.shard + p.chunk * 8192 + v.2) / 32) 127 : Int) - 158))
    | x => x)
  let sq := ps.foldl (fun (a : Frac) p => (scaled p).foldl (fun (a : Frac) v => match v with
    | .fin q => a.add (q.mul q)
    | _ => a) a) ⟨0, 1⟩
  let bad := ps.foldl (fun n p => n + ((p.quanta).filter (fun v => !v.isFinite)).length) 0
  let f (q : Frac) := (toFp32 (.fin q) .rne 0).toNat
  let codes := ps.flatMap (fun p => (List.range (p.codes.length / 32)).map (fun b =>
    let g := (c.plan.startOf p.shard + p.chunk * 8192) / 32 + b
    c.nextCode g (p.ovf.testBit b) (((p.quanta).drop (b * 32)).take 32)))
  leBytes 4 (f c.localSq) ++ leBytes 4 (f sq) ++ leBytes 4 (min bad (2 ^ 32 - 1)) ++ leBytes 4 (min c.ovfN (2 ^ 32 - 1))
    ++ (if c.sums then codes.flatMap (leBytes 1) else [])

/-- The reduced chunks this member owns, final and written, one after the other. -/
def State.finishParts (s : State) (c : Coll) (kind : Nat) : List (Nat × Nat) → Except (CStop × Coll × State) (Coll × State)
  | [] => .ok (c, s)
  | (j, k) :: rest =>
    match s.partOf c kind j k with
    | .error e => .error (e.1, c, e.2)
    | .ok (p, c, s) =>
      let c := c.setPart p
      if kind = 0 then s.finishParts (c.setPart { p with kind := 1 }) kind rest
      else match s.resultAt c j with
        | none => s.finishParts c kind rest
        | some base => match s.writeReduced c base p with
          | (some e, s) => .error (e, c, s)
          | (none, s) => s.finishParts c kind rest

/-- The reduction of a pass is complete at this member: results it owns are final and written; before a gather, its own shard or
ROOT's data stands in DST. -/
def State.finishReduce (s : State) (c : Coll) : Except (CStop × Coll × State) (Coll × State) :=
  let kind := if c.pass = 0 then 0 else if c.op = 4 then 6 else 2
  if c.op = 1 ∨ c.op = 3 then
    let me := s.myIx c
    let send := c.op = 1 ∨ s.chip = s.memberChip c.plan.axes c.plan.root
    let n := if c.op = 1 then c.shardBytes me else c.dstDesc.total
    let done := { c with blobs := c.blobs.set [] me (List.replicate 16 0), ready := true }
    if !send then .ok (done, s)
    else match s.readSrc c 0 n with
      | .error e => .error (e.1, c, e.2)
      | .ok (bs, s) =>
        match (if c.op = 1 then s.shardWrite c me 0 bs else s.resultWrite (c.dstDesc.chunkPieces 0 n) bs) with
        | (some e, s) => .error (e, c, s)
        | (none, s) => .ok (done, s)
  else
    match s.finishParts c kind ((s.ownShards c s.chip).flatMap (fun j => (List.range (c.chunkCount kind j)).map (fun k => (j, k)))) with
    | .error e => .error e
    | .ok (c, s) => .ok ({ c with ready := true, blobs := if kind = 0 then [] else c.blobs.set [] (s.myIx c) (s.ownBlob c) }, s)

/-- A round of sums of FP32 entries, rounded once (R372). -/
def sumFp32 (ws : List Nat) : Nat :=
  let q := ws.foldl (fun (a : Frac) w => match fp32Value (BitVec.ofNat 32 w) with
    | .fin x => a.add x
    | _ => a) ⟨0, 1⟩
  if ws.any (fun w => !(fp32Value (BitVec.ofNat 32 w)).isFinite) then 0x7F800000 else (toFp32 (.fin q) .rne 0).toNat

/-- The statistics record of R372, from the gathered entries alone: an overflow of the final pass is one that became an infinity (R363). -/
def Coll.statsBytes (c : Coll) (absent : Nat) : List Byte :=
  let es := c.blobs.map (·.2)
  let col (a : Nat) := es.map (fun b => leNat ((b.drop a).take 4))
  let ovf := (col 12).foldl (· + ·) 0
  leBytes 4 c.members.length ++ leBytes 4 absent ++ leBytes 4 (sumFp32 (col 0)) ++ leBytes 4 (sumFp32 (col 4))
    ++ leBytes 8 c.plan.total ++ leBytes 8 ((col 8).foldl (· + ·) 0) ++ leBytes 8 ovf
    ++ leBytes 1 c.pass ++ leBytes 1 (c.prepass.toNat + 2 * (decide (0 < ovf)).toNat) ++ leBytes 22 0

/-- The codes every owner published, in the padded layout; blocks nobody published keep theirs. -/
def State.publishedCodes (s : State) (c : Coll) : List Nat :=
  let own := c.blobs.flatMap (fun b =>
    let shards := s.ownShards c (s.memberChip c.plan.axes b.1)
    let blocks := shards.flatMap (fun j => (List.range (ceil32 (c.plan.countOf j) / 32)).map (· + c.plan.startOf j / 32))
    blocks.zip ((b.2.drop 16).map (·.toNat)))
  (List.range (c.plan.totalPad / 32)).map (fun b =>
    ((own.find? (fun e => e.1 == b)).map (·.2)).getD (c.codes.getD b 127))

/-- The collective completes: the scale table and the statistics, the completion word, the signal (R370); a detected error of these writes
is charged (R218). -/
def State.completeColl (s : State) (i : Nat) (c : Coll) : State :=
  let absent := s.fencedIn c
  let s := { s with colls := s.colls.erase i }.showColl i
  let s := (s.cnt Reg.COL_DONE_CNT).bumpGlb 0x07 0 1
  let s := if absent = 0 then s else s.colEvent 8 Reg.COL_MFENCED_CNT
  let s := if c.sums then
      let w := (s.onBehalf 1).write c.plan.scaleTab (leBytes 1 1 ++ leBytes 7 0 ++ leBytes 8 (c.uses + 1) ++ leBytes 48 0
        ++ (s.publishedCodes c).flatMap (leBytes 1))
      w.2.chargeWrite w.1 1
    else s
  let s := if c.staten then
      let w := (s.onBehalf 1).writePieces (Desc.chunkPieces { raw := c.stats } 0 64) (c.statsBytes absent)
      w.2.chargeWrite w.1 1
    else s
  let s := s.trace c.plan.issuer 0x0B c.plan.id (s.now - c.since) (peerWord absent 0 0 0 c.n)
  (s.writeCompletion c.creg (if absent = 0 then 0 else 1) absent).signalHeader c.plan.issuer portFabric c.entry 1

/-- The whole pass has moved at this member: everything sent, consumed, and the hold empty. -/
def State.passOver (s : State) (c : Coll) : Bool :=
  c.ready && c.hold.isEmpty && c.counted.isEmpty
    && c.plan.streamList.all (fun st => (s.sends c s.chip st).length == c.sent.get 0 st
        && (s.upstream c st).all (fun n => (s.recvs c st n).length == c.eaten.get 0 (ckey st n)))

/-- Every chunk due here of the phases whose kinds pass `p` has been taken; these phases come first. -/
def State.phaseOver (s : State) (c : Coll) (p : Nat → Bool) : Bool :=
  c.plan.streamList.all (fun st => (s.upstream c st).all (fun n =>
    decide (((s.recvs c st n).filter (fun e => p e.2.kind)).length ≤ c.eaten.get 0 (ckey st n))))

/-- The reduce phase has moved at this member: every partial due here is added. -/
def State.reduceOver (s : State) (c : Coll) : Bool := s.phaseOver c (fun k => k == 0 || k == 2 || k == 6)

/-- The gather phase has moved at this member: only closing entries are left (R370). -/
def State.gatherOver (s : State) (c : Coll) : Bool := s.phaseOver c (fun k => k != 4)

/-- The scales of the first reduction pass, from the pre-pass (R358). -/
def Coll.prepassCodes (c : Coll) : List Nat :=
  (List.range c.plan.counts.length).flatMap (fun j => (List.range (c.chunkCount 0 j)).flatMap (fun k =>
    match c.part 1 j k with
    | some p => p.codes.map (fun w => match fp32Value (BitVec.ofNat 32 w) with
      | .fin q => if q.isZero then 127 else agreedCode q
      | _ => 127)
    | none => List.replicate (c.chunkSize 0 j k) 127))

/-- What follows from a change of a context, as far as it goes at once: results written, the next pass, DONE, completion. -/
def State.advanceColl : Nat → State → Nat → State
  | 0, s, _ => s
  | fuel + 1, s, i =>
    match s.coll i with
    | none => s
    | some c =>
      if !c.running || c.stop then s
      else if !c.ready then
        if !s.reduceOver c || !c.det.isEmpty then s
        else match s.finishReduce c with
          | .error (e, c, s) => s.collStop i (c.plan.streamList.headD 0) c e
          | .ok (c, s) => State.advanceColl fuel (s.setColl i c) i
      else if !c.gathered then
        if s.gatherOver c then State.advanceColl fuel (s.setColl i { c with gathered := true }) i else s
      else if !s.passOver c then s
      else if c.pass = 0 then
        State.advanceColl fuel (s.firstCredits i { c.beginPass 1 with codes := c.prepassCodes }) i
      else
        let codes := if c.sums then s.publishedCodes c else []
        if codes.contains 0xFF ∧ c.pass < 1 + c.plan.replayMax then
          let next := (codes.zip c.codes).map (fun e => if e.1 = 0xFF then e.2 + 4 else e.2)
          let c := { c.beginPass (c.pass + 1) with codes := next }
          State.advanceColl fuel ((s.colEvent 1 Reg.COL_REPLAY_CNT).firstCredits i c) i
        else if !c.doneSent then
          let c := { c with doneSent := true, dones := c.dones ++ [(s.chip, s.fencedIn c)] }
          State.advanceColl fuel ((s.setColl i c).multicastControl c 1) i
        else if c.members.all (fun n => s.fenced n || c.dones.any (fun d => d.1 == n)) then
          if c.dones.any (fun d => d.2 != (c.dones.headD (0, 0)).2) then s.restartOwn i c else s.completeColl i c
        else s

def State.advance (s : State) (i : Nat) : State := State.advanceColl 8 s i

/-! ### Sending (R355, R360, R361, R366) -/

/-- The body and trailer bits of the chunk that an item names, if it is ready to leave; closing entries leave after the gather phase
(R370). -/
def State.chunkBody (s : State) (c : Coll) (x : CItem) : Option (Except (CStop × State) (List Byte × Nat × Coll × State)) :=
  let k := x.chunk
  if x.kind = 0 ∨ x.kind = 2 ∨ x.kind = 6 then
    let need := s.levelAt c x.stage
    if c.levelOf x.kind x.shard k ≠ (if x.first then need else need + 1) then none
    else if need = 0 ∧ x.first = true then
      match s.partOf c x.kind x.shard k with
      | .error e => some (.error e)
      | .ok (p, c, s) => some (.ok (encodeCodes x.kind p.codes, p.ovf, c.setPart p, s))
    else (c.part x.kind x.shard k).map (fun p => .ok (encodeCodes x.kind p.codes, p.ovf, c, s))
  else if !c.ready then none
  else
    let own := (s.ownShards c s.chip).contains x.shard
    match x.kind with
    | 1 => (c.part 1 x.shard k).map (fun p => .ok (encodeCodes 1 p.codes, 0, c, s))
    | 4 =>
      if c.gathered && (own || c.arrived 4 x.shard k) then some (.ok (((c.blobs.get [] x.shard).drop (k * 65536)).take 65536, 0, c, s))
      else none
    | _ =>
      let n := c.chunkSize x.kind x.shard k
      if x.kind = 3 ∧ !(own || c.arrived 3 x.shard k) then none
      else match (if x.kind = 5 then (s.onBehalf 1).readPieces (c.dstDesc.chunkPieces (k * 65536) n) else s.shardRead c x.shard (k * 65536) n) with
        | (.detected h a, s) => some (.error (.det h a, s))
        | (.ok bs, s) => some (.ok (bs, 0, c, s))

/-- The packets of a chunk to one chip, or to the group's box, or as an RDMA WRITE into the receiver's landing slot and its notice
(R355, R364, R373). -/
def State.emitChunk (s : State) (c : Coll) (st seq : Nat) (trailer : Bool) (ovf dst : Nat) (mc : Bool) (bs : List Byte) : State :=
  let p := s.collPacket c dst st seq 0 []
  let p := if mc then { p with dst := 0, mc := true, mask := s.groupMask c.plan.axes } else p
  let tb := leBytes 32 ovf ++ leBytes 32 0
  let s := (s.cnt Reg.COL_CHUNK_TX_CNT).bumpGlb 0x08 0 1
  match (if mc then none else c.fbTo st dst) with
  | some e =>
    let slot := c.slotAt e.land st (s.landIx c dst st s.chip seq)
    let s := (s.ownPost e.qp 1 e.rkey slot bs.length bs).sendNotice e.qp 0 { p with offset := 0xC000, body := tb }
    s.colEvent 4 Reg.COL_FB_CHUNK_CNT
  | none =>
    let s := s.injectAll (packetsOf p 16 0 bs)
    if trailer then s.inject { p with offset := 0xC000, body := tb } else s

/-- The hold entry's slot is free (R366). -/
def Coll.holdFree (c : Coll) (st seq : Nat) : Bool :=
  c.hold.all (fun (h : CHold) => h.stream != st || h.seq % c.plan.slots != seq % c.plan.slots)

/-- A held chunk is read from its hold entry and sent again (R368). -/
def State.resendHeld (s : State) (i : Nat) (c : Coll) (h : CHold) : State :=
  let a := c.slotAt c.plan.hold h.stream h.seq
  match (s.onBehalf 1).readMem a h.len with
  | (.detected x b, s) => ((s.colEvent 7 Reg.COL_DET_CNT).chargeMem x b 1).restartOwn i c
  | (.ok bs, s) =>
    let c' := { c with hold := c.hold.map (fun (g : CHold) => if g = h then { g with again := [] } else g) }
    h.again.foldl (fun (s : State) n => s.emitChunk c h.stream h.seq h.trailer h.ovf n false bs) (s.setColl i c')

/-- COLL_CHUNK_SEND: on one stream, a held chunk that is due again, or the next chunk once it is ready and under credit. A broadcast chunk
goes as one multicast, and besides to each receiver on the service network (R361, R373). -/
def State.collSend (s : State) (i st : Nat) (err : MemErr) : State :=
  match s.coll i with
  | none => s
  | some c =>
    if !c.running || c.stop || c.det.contains st || c.stalled.contains st then s
    else
      let s := s.meet err 1
      match c.hold.find? (fun (h : CHold) => h.stream == st && !h.again.isEmpty) with
      | some h => s.resendHeld i c h
      | none =>
        let seq := c.sent.get 0 st
        match (s.sends c s.chip st)[seq]? with
        | none => s
        | some x =>
          if !x.dests.all (fun n => decide (seq < c.limit.get 0 (ckey st n))) || !c.holdFree st seq then s
          else match s.chunkBody c x with
            | none => s
            | some (.error (e, s)) => s.collStop i st c e
            | some (.ok (bs, ovf, c, s)) =>
              match (s.onBehalf 1).write (c.slotAt c.plan.hold st seq) bs with
              | (some e, s) => s.collDetected i st c e.1 e.2
              | (none, s) =>
                let h := CHold.mk st seq bs.length (x.kind == 2) ovf x.dests []
                let c := { c with sent := c.sent.set 0 st (seq + 1), hold := c.hold ++ [h] }
                let r := s.tellLimits c st
                let s := r.2.setColl i r.1
                let s := if x.kind = 5 then s.emitChunk r.1 st seq false 0 0 true bs else s
                let to' := if x.kind = 5 then x.dests.filter (fun n => (r.1.fbTo st n).isSome) else x.dests
                (to'.foldl (fun (s : State) n => s.emitChunk r.1 st seq (x.kind == 2) ovf n false bs) s).advance i

/-! ### Landing and reducing (R360, R366, R367) -/

/-- The context and stream that a packet of the engine belongs to: its plan, id and, by its ATTEMPT and PASS, whether it is stale
(0), current (1), of a later pass or attempt of a started collective (2). -/
def State.collFor (s : State) (p : Packet) : Option (Nat × Coll) :=
  s.colls.find? (fun e => e.2.plan.id % 256 == p.chunk / 2 ^ 24 % 256 && e.2.n % 2 ^ 16 == p.tag)

def Coll.age (c : Coll) (p : Packet) : Nat :=
  let a := (p.chunk / 2 ^ 20 % 16 + 16 - c.attempt % 16) % 16
  let pass := p.chunk / 2 ^ 18 % 4
  if 8 ≤ a then 0 else if 0 < a then 3 else if !c.running then 2 else if pass < c.pass then 0 else if c.pass < pass then 2 else 1

/-- A packet kept for a pass or an attempt that this member has not reached, or a collective it has not issued (R371; DEDUCED for the
latter, and for a DONE or RESTART of it). -/
def State.keepEarly (s : State) (p : Packet) (notice : Bool := false) : State := { s with early := s.early ++ [(p, notice)] }

/-- The collective of a packet has been issued here and is over: its n lies behind the plan's count (R200, R364). -/
def State.collPast (s : State) (p : Packet) : Bool :=
  let d := (s.collN.get 0 (p.chunk / 2 ^ 24 % 256) + 65536 - p.tag) % 65536
  decide (0 < d ∧ d < 32768)

/-- How many bytes a chunk occupies on the wire, its trailer aside. -/
def State.itemBytes (s : State) (c : Coll) (x : CItem) : Nat :=
  if x.kind = 4 then min 65536 (s.blobLen c x.shard - x.chunk * 65536) else c.chunkSize x.kind x.shard x.chunk * kindBytes x.kind

/-- What has landed of a chunk is given up. -/
def Coll.unland (c : Coll) (st n seq : Nat) : Coll :=
  { c with got := c.got.filter (fun g => !(g.1 == st && g.2.1 == n && g.2.2.1 == seq)) }

/-- A landing on a stream of a context, up to its counting: the duplicates of R367, the region check of R232 with LAND_ERR, and the write; of a
chunk whose body an RDMA WRITE has landed only the trailer is written. A landing in HBM waits while a commit pass runs (R221). DEDUCED (log
entry 121): a chunk whose landing write met a detected error is charged and asked for again. -/
def State.landPiece (s : State) (i : Nat) (c : Coll) (p : Packet) (notice : Bool) (k : State → CItem → State) : State :=
  let st := p.stream
  let seq := p.chunk % 2 ^ 18
  match (s.recvs c st p.src).zipIdx.find? (fun e => e.1.1 == seq) with
  | none => s.colDup
  | some (r, ix) =>
    if ix < c.eaten.get 0 (ckey st p.src) ∨ c.counted.contains (st, p.src, seq) then s.colDup
    else
      let slot := s.landSlot c st p.src seq
      if s.landsLater slot then s.keepEarly p notice
      else if !s.regionOk 1 slot 65536 .fl then
        s.landError.collRegionFault i { c.unland st p.src seq with resend := c.resend ++ [(st, p.src, seq)] } slot
      else match (if notice then (if r.2.kind = 2 then (s.onBehalf 1).write (slot + 0xC000) (p.body.take 64) else (none, s))
          else (s.onBehalf 1).write (slot + p.offset) p.body) with
        | (some e, s) => ((s.setColl i (c.unland st p.src seq)).chargeMem e.1 e.2 1).sendResend c st p.src seq
        | (none, s) => k s r.2

/-- A chunk is counted: every packet of it has landed (R367). -/
def State.countChunk (s : State) (i : Nat) (c : Coll) (st n seq : Nat) : State :=
  (s.setColl i { c.unland st n seq with counted := c.counted ++ [(st, n, seq)] }).cnt Reg.COL_CHUNK_RX_CNT

/-- A packet of the current pass lands in its slot; a chunk whose packets have all landed is counted (R367). -/
def State.landPartial (s : State) (i : Nat) (c : Coll) (p : Packet) : State :=
  s.landPiece i c p false (fun s x =>
    let st := p.stream
    let seq := p.chunk % 2 ^ 18
    let key := (st, p.src, seq, p.offset)
    let got := if c.got.contains key then c.got else c.got ++ [key]
    let landed := (got.filter (fun g => g.1 == st && g.2.1 == p.src && g.2.2.1 == seq)).length
    let need := (s.itemBytes c x + 4095) / 4096 + (if x.kind = 2 then 1 else 0)
    if landed < need then s.setColl i { c with got := got } else s.countChunk i { c with got := got } st p.src seq)

/-- The notice of a chunk whose body an RDMA WRITE has landed counts as its trailer, and the chunk counts once (R367, R373). -/
def State.landNotice (s : State) (i : Nat) (c : Coll) (p : Packet) : State :=
  s.landPiece i c p true (fun s _ => s.countChunk i c p.stream p.src (p.chunk % 2 ^ 18))

/-- A chunk is consumed: the slot is free, and its senders may learn it (R366). -/
def State.chunkDone (s : State) (i : Nat) (c : Coll) (st n seq : Nat) : State :=
  let r := s.tellLimits { c with
    counted := c.counted.erase (st, n, seq)
    eaten := c.eaten.set 0 (ckey st n) (c.eaten.get 0 (ckey st n) + 1) } st
  (r.2.setColl i r.1).advance i

/-- A chunk has been stored in DST, or its store stopped the stream. -/
def State.chunkStored (s : State) (i : Nat) (c : Coll) (st n seq : Nat) (e : Option CStop) : State :=
  match e with
  | some e => s.collStop i st c e
  | none => s.chunkDone i c st n seq

/-- A counted chunk is taken: added or compared into the partial, or stored; credit goes back to its sender (R360, R366). -/
def State.consume (s : State) (i : Nat) (c : Coll) (st n : Nat) (seq : Nat) (x : CItem) : State :=
  let slot := s.landSlot c st n seq
  let len := s.itemBytes c x
  match (s.onBehalf 1).readPieces ((slot, len) :: (if x.kind = 2 then [(slot + 0xC000, 64)] else [])) with
  | (.detected h a, s) =>
    let c := { c with counted := c.counted.erase (st, n, seq) }
    (((s.setColl i c).colEvent 7 Reg.COL_DET_CNT).chargeMem h a 1).sendResend c st n seq
  | (.ok bs, s) =>
    match x.kind with
    | 1 => s.chunkDone i (c.setPart (CPart.mk 1 x.shard x.chunk (decodeCodes 1 (len / 4) bs) 0 0)) st n seq
    | 4 =>
      let old := c.blobs.get [] x.shard
      s.chunkDone i ({ c with blobs := c.blobs.set [] x.shard (patch old (x.chunk * 65536) bs) }.setPart
        (CPart.mk 4 x.shard x.chunk [] 0 0)) st n seq
    | 3 =>
      let w := s.shardWrite c x.shard (x.chunk * 65536) bs
      w.2.chunkStored i (if w.1.isSome then c else c.setPart (CPart.mk 3 x.shard x.chunk [] 0 0)) st n seq w.1
    | 5 =>
      let w := s.resultWrite (c.dstDesc.chunkPieces (x.chunk * 65536) len) bs
      w.2.chunkStored i c st n seq w.1
    | k =>
      match s.partOf c k x.shard x.chunk with
      | .error e => e.2.collStop i st c e.1
      | .ok (own, c, s) =>
        let vals := combine k (decodeCodes k (len / kindBytes k) bs) own.codes
        let ovf := if k = 2 then leNat ((bs.drop len).take 32) ||| own.ovf else 0
        s.chunkDone i (c.setPart (CPart.mk k x.shard x.chunk vals (s.levelAt c x.stage + 1) ovf)) st n seq

/-- COLL_CHUNK_REDUCE: a reduction unit takes the next counted chunk of a stream. -/
def State.collReduce (s : State) (i st : Nat) (err : MemErr) : State :=
  match s.coll i with
  | none => s
  | some c =>
    if !c.running || c.stop || c.det.contains st then s
    else
      let s := s.meet err 1
      match (s.upstream c st).findSome? (fun n => match (s.recvs c st n)[c.eaten.get 0 (ckey st n)]? with
        | some r => if c.counted.contains (st, n, r.1) && (decide (r.2.kind = 1 ∨ 3 ≤ r.2.kind ∧ r.2.kind ≤ 5)
            || c.levelOf r.2.kind r.2.shard r.2.chunk == s.levelAt c r.2.stage) then some (n, r) else none
        | none => none) with
      | some (n, r) => s.consume i c st n r.1 r.2
      | none => s

/-! ### Control (R366, R368, R370, R371) -/

/-- A packet or control with a higher ATTEMPT: the member joins that attempt, unless it has completed (R371; DEDUCED: it does not
raise the attempt again, or no two members would ever agree). -/
def State.joinAttempt (s : State) (i : Nat) (c : Coll) (attempt wait : Nat) : State :=
  s.restartColl i { c with wait := max wait c.wait } attempt

/-- A GRANT of KIND 2. -/
def State.collCredit (s : State) (p : Packet) : State :=
  match s.collFor p with
  | none => if s.collPast p then s else s.keepEarly p
  | some (i, c) =>
    match c.age p with
    | 0 => s
    | 1 =>
      let st := leNat ((p.body.drop 1).take 1)
      let k := ckey st p.src
      let limit := max (leNat ((p.body.drop 4).take 4)) (c.limit.get 0 k)
      let freed (h : CHold) : CHold := if h.stream = st ∧ h.seq + c.plan.slots < limit then
        { h with dests := h.dests.filter (· ≠ p.src) } else h
      let c := { c with limit := c.limit.set 0 k limit
                        hold := (c.hold.map freed).filter (fun (h : CHold) => !h.dests.isEmpty) }
      (s.setColl i c).advance i
    | 2 => s.keepEarly p
    | _ => (s.keepEarly p).joinAttempt i c (c.attempt + (p.chunk / 2 ^ 20 % 16 + 16 - c.attempt % 16) % 16) 0

/-- DONE (R370): noted; disagreement in FENCED restarts (R371). -/
def State.collDone (s : State) (p : Packet) : State :=
  match s.collFor p with
  | none => if s.collPast p then s else s.keepEarly p
  | some (i, c) =>
    let attempt := leNat ((p.body.drop 4).take 4)
    if attempt < c.attempt then s.colDup
    else if c.attempt < attempt then (s.keepEarly p).joinAttempt i c attempt 0
    else if !c.running then s.keepEarly p
    else if c.dones.any (fun d => d.1 == p.src) then s
    else
      let fenced := leNat ((p.body.drop 2).take 2)
      let c := { c with dones := c.dones ++ [(p.src, fenced)] }
      let s := s.setColl i c
      if c.dones.any (fun d => d.2 != fenced) then s.restartOwn i c else s.advance i

/-- RESTART (R371). -/
def State.collRestart (s : State) (p : Packet) : State :=
  match s.collFor p with
  | none => if s.collPast p then s else s.keepEarly p
  | some (i, c) =>
    let attempt := leNat ((p.body.drop 4).take 4)
    let fenced := leNat ((p.body.drop 2).take 2)
    if attempt < c.attempt then s.colDup
    else if c.attempt < attempt then s.joinAttempt i c attempt fenced
    else if c.running then s else s.setColl i { c with wait := max fenced c.wait }

/-- RESEND (R368): the chunk is due again from its hold entry; one of a higher ATTEMPT restarts (R371). -/
def State.collResend (s : State) (p : Packet) : State :=
  match s.collFor p with
  | none => if s.collPast p then s.colDup else s.keepEarly p
  | some (i, c) =>
    match c.age p with
    | 0 => s.colDup
    | 1 =>
      let st := leNat ((p.body.drop 1).take 1)
      let seq := leNat ((p.body.drop 8).take 8)
      s.setColl i { c with hold := c.hold.map (fun (h : CHold) =>
        if h.stream = st ∧ h.seq = seq ∧ h.dests.contains p.src ∧ !h.again.contains p.src then
          { h with again := h.again ++ [p.src] } else h) }
    | 2 => s.keepEarly p
    | _ => (s.keepEarly p).joinAttempt i c (c.attempt + (p.chunk / 2 ^ 20 % 16 + 16 - c.attempt % 16) % 16) 0

/-- A packet or notice of the engine, as it comes or from those kept early; `notice` where its body came by RDMA WRITE. -/
def State.collPacketRx (s : State) (p : Packet) (notice : Bool) : State :=
  if p.type = 3 then s.collCredit p
  else if p.offset = 0xFF00 then
    match leNat (p.body.take 1) with
    | 1 => s.collDone p
    | 2 => s.collRestart p
    | 3 => s.collResend p
    | _ => s.badPacket
  else match s.collFor p with
    | none => if s.collPast p then s.colDup else s.keepEarly p notice
    | some (i, c) =>
      match c.age p with
      | 0 => s.colDup
      | 1 => if notice then s.landNotice i c p else s.landPartial i c p
      | 2 => s.keepEarly p notice
      | _ => (s.keepEarly p notice).joinAttempt i c (c.attempt + (p.chunk / 2 ^ 20 % 16 + 16 - c.attempt % 16) % 16) 0

/-- The packets kept early are looked at once more. -/
def State.replayOnce (s : State) : State :=
  s.early.foldl (fun (s : State) p => s.collPacketRx p.1 p.2) { s with early := [] }

/-- The packets kept early are looked at again, as long as one of them may lead on: each look takes at least one of them, or joins an
attempt one of them names. -/
def State.replayEarly (s : State) : State := (List.range (2 * s.early.length)).foldl (fun (s : State) _ => s.replayOnce) s

def execCollChunkSend (i : Fin 16) (st : Fin 4) (err : MemErr) (s : State) : Host.Outcome State Fault Refusal :=
  .next (s.collSend i st err).replayEarly

def execCollChunkReduce (i : Fin 16) (st : Fin 4) (err : MemErr) (s : State) : Host.Outcome State Fault Refusal :=
  .next (s.collReduce i st err).replayEarly

/-- MEM_BARRIER_STATUS.STATE: 0 NONE, 1 ENTERING, 2 REACHED (R412). -/
def State.barrier (s : State) : Nat := s.fld Reg.MEM_BARRIER_STATUS Fld.MEM_BARRIER_STATUS_STATE

/-- The grant sink (R320): KIND 1, 3 and 4 go to the fabric port of cluster DCLU, KIND 2 to the collective engine; a reserved KIND is
discarded and counted. While the fault barrier is being entered, a grant is for an instruction that is abandoned (R399). -/
def State.grantSink (s : State) (p : Packet) : State :=
  match leNat (p.body.take 1) with
  | 1 => if s.barrier = 1 then s else s.grantRx p
  | 2 => (s.collCredit p).replayEarly
  | 3 => s.lengthNotice p
  | 4 => s.landedNotice p
  | _ => s.badPacket

/-- GRANT_RX: KIND 1 as a rule, a landing grant (R199). -/
def execGrantRx (p : Packet) (s : State) : Host.Outcome State Fault Refusal := .next ((s.take p).grantSink p)

/-- LANDED_NOTICE_RX: KIND 4 as a rule (R199). -/
def execLandedNoticeRx (p : Packet) (s : State) : Host.Outcome State Fault Refusal := .next ((s.take p).grantSink p)

/-- LENGTH_NOTICE_RX: KIND 3 as a rule (R199). -/
def execLengthNoticeRx (p : Packet) (s : State) : Host.Outcome State Fault Refusal := .next ((s.take p).grantSink p)

/-- COLL_CREDIT_RX: KIND 2 as a rule (R366). -/
def execCollCreditRx (p : Packet) (s : State) : Host.Outcome State Fault Refusal := .next ((s.take p).grantSink p)

def execCollDoneRx (p : Packet) (s : State) : Host.Outcome State Fault Refusal := .next ((s.take p).collDone p).replayEarly

def execCollRestartRx (p : Packet) (s : State) : Host.Outcome State Fault Refusal := .next ((s.take p).collRestart p).replayEarly

def execCollResendRx (p : Packet) (s : State) : Host.Outcome State Fault Refusal := .next ((s.take p).collResend p).replayEarly

/-- PARTIAL_PACKET_RX: a PARTIAL packet, its controls among them (R364, R367); one that lands in HBM waits where it arrived while a commit
pass runs (R221). -/
def execPartialPacketRx (p : Packet) (s : State) : Host.Outcome State Fault Refusal :=
  .next (if p.malformed then (s.take p).badPacket
    else if p.offset ≠ 0xFF00 ∧ (s.collFor p).any (fun e => s.landsLater e.2.plan.land) then s
    else ((s.take p).collPacketRx p false).replayEarly)

/-- COLL_REDRIVE: the stopped streams continue; a scale table that met the error is read again (R375, R380). -/
def State.collRedrive (s : State) (i : Nat) : State :=
  match s.coll i with
  | some c => if c.unread then s.openColl i c else (s.setColl i { c with det := [] }).advance i
  | none => s

def execCollRedrive (by_ : Fin 4) (i : Fin 16) (s : State) : Host.Outcome State Fault Refusal :=
  .next (if by_ = 0 then (s.collRedrive i).replayEarly else s)

/-- RESUME after REGION_ASYNC: the collectives of the cluster go on, and ask again for the landings they discarded (R272, R368). -/
def State.collResume (s : State) (cl : Nat) : State :=
  ((s.colls.filter (fun e => e.2.stop && e.2.plan.issuer == cl)).foldl (fun (s : State) e =>
    let c := { e.2 with stop := false, resend := [] }
    let s := e.2.resend.foldl (fun (s : State) r => s.sendResend c r.1 r.2.1 r.2.2) (s.setColl e.1 c)
    s.advance e.1) s).replayEarly

/-! ### UNREACH (R320, R329, R368, R373) -/

/-- A held chunk of a stream is due again to a receiver. -/
def Coll.dueAgain (c : Coll) (st seq dst : Nat) : Coll :=
  { c with hold := c.hold.map (fun (h : CHold) =>
      if h.stream = st ∧ h.seq = seq ∧ h.dests.contains dst ∧ !h.again.contains dst then { h with again := h.again ++ [dst] } else h) }

/-- A chunk of a collective did not reach its receiver: the stream falls back to the service network, on the path FB_TAB gives (R374), or
stalls. DEDUCED (log entry 121): a detected error of FB_TAB stops the stream as one of SCALE_TAB does (R375). -/
def State.collUnreach (s : State) (dst chunk st : Nat) (tag : Nat) : State :=
  match s.colls.find? (fun e => e.2.plan.id % 256 == chunk / 2 ^ 24 % 256 && e.2.n % 2 ^ 16 == tag) with
  | none => s
  | some (i, c) =>
    if !c.running || chunk / 2 ^ 20 % 16 != c.attempt % 16 || chunk / 2 ^ 18 % 4 != c.pass % 4 then s
    else if c.plan.fallback then
      let c := c.dueAgain st (chunk % 2 ^ 18) dst
      if (c.fbTo st dst).isSome then s.setColl i c
      else match (s.onBehalf 1).readMem (s.fbAddr c dst) 16 with
        | (.detected h a, s) => s.collDetected i st c h a
        | (.ok bs, s) => s.setColl i { c with fb := c.fb ++ [fbPathOf st dst bs] }
    else if c.stalled.contains st then s
    else (s.setColl i { c with stalled := c.stalled ++ [st] }).colEvent 6 Reg.COL_STALL_CNT

/-- UNREACH_RX: passed on by the discarded TYPE: a SEND's or MCAST's chunk, a collective's, or a MIRROR chunk of the twin push (R320,
R393). -/
def execUnreachRx (p : Packet) (s : State) : Host.Outcome State Fault Refusal :=
  let s := s.take p
  let dst := leNat (p.body.take 2)
  let type := leNat ((p.body.drop 3).take 1)
  let chunk := leNat ((p.body.drop 8).take 4)
  .next (match type with
    | 0 => s.txUnreach p.dclu dst p.sclu p.tag chunk
    | 1 => s.collUnreach dst chunk p.stream p.tag
    | 2 => s.mirrorUnreach p.tag chunk (leNat ((p.body.drop 4).take 2))
    | _ => s.badPacket)

/-! ### Fences (R369 to R371) -/

/-- A chip is fenced here: an attempt whose member it is restarts unless DONE is sent; one that waits for fences may start; one that
waits for DONE may complete. -/
def State.collsFenced (s : State) (chip : Nat) : State :=
  (s.colls.map (·.1)).foldl (fun (s : State) i =>
    match s.coll i with
    | none => s
    | some c =>
      if !(s.group c).contains chip then s
      else if !c.running then (if c.wait ≤ s.fencedIn c then (s.beginAttempt i c).replayEarly else s.showColl i)
      else if c.members.contains chip ∧ !c.doneSent then (s.restartOwn i c).replayEarly
      else (s.showColl i).advance i) s

/-- Abandoning every collective at the fault barrier (R399). -/
def State.collsAbandon (s : State) : State :=
  (s.colls.map (·.1)).foldl (fun (s : State) i => ({ s with colls := s.colls.erase i }.showColl i).cnt Reg.MEM_ABANDON_CNT) s

end Sys2Proof.Machine
end

