-- ==== Sys2Proof/Machine/Fences.lean ====
section
/-!
DEFINITION. The fault barrier (R399) and fences with their epochs (R335, R344, R462 to R465, R469), and what a fence reaches.
-/
namespace Sys2Proof.Machine

/-! ### The fault barrier (R399, R412) -/

def State.setBarrier (s : State) (v : Nat) : State := s.setFld Reg.MEM_BARRIER_STATUS Fld.MEM_BARRIER_STATUS_STATE v

/-- The T1 streams of the chip. -/
def State.t1Clusters (s : State) : List Nat := (List.range 64).filter (fun c => s.resident 1 c)

/-- A T1 stream holds decode, loses its prefetch list and its stopped transfers, and becomes HALTED; what it was FAULTED for clears with
the barrier (R155, R399). -/
def State.barrierHalt (s : State) (c : Nat) : State :=
  (s.modCl c (fun k => { k with pref := [], heldRecs := [], hard := false, before := seqHalted })).setSeqState c seqHalted

/-- T1's transfers stop and are discarded; its fabric instructions in flight are abandoned and counted, and the grants that came for
them are dropped. -/
def State.abandonT1 (s : State) : State :=
  let mine := (s.movers.filter (fun e => e.2.tenant == 1)).map (·.1)
  let s := mine.foldl State.freeMover s
  let s := { s with movReqs := s.movReqs.filter (fun (r : MovReq) => r.mrec.tenant != 1) }
  let s := (List.range 64).foldl (fun (s : State) c => s.settleStacks 1 c) s
  let n := (s.txs.filter (fun (x : Tx) => x.tenant == 1)).length + (s.rxs.filter (fun (x : Rx) => x.tenant == 1)).length
  let s := { s with txs := s.txs.filter (fun (x : Tx) => x.tenant != 1), rxs := s.rxs.filter (fun (x : Rx) => x.tenant != 1)
                    grants := [] }
  (s.cntBy Reg.MEM_ABANDON_CNT n).collsAbandon

/-- The barrier is raised (again): steps 1 to 4 of R399 begin. -/
def State.raiseBarrier (s : State) (cause chip : Nat) : State :=
  let s := s.wr Reg.MEM_BARRIER_STATUS (BitVec.ofNat 64 (1 + cause * 2 ^ 2 + chip % 2 ^ 15 * 2 ^ 4))
  let s := s.t1Clusters.foldl State.barrierHalt s
  s.abandonT1

/-- BARRIER_RAISE: MEM_BARRIER_CTL.RAISE, by T0. -/
def execBarrierRaise (by_ : Fin 4) (s : State) : Host.Outcome State Fault Refusal :=
  .next (if by_ = 0 then s.raiseBarrier 1 0 else s)

/-- Issued rank and vector work of a T1 cluster has completed. -/
def State.issuedDone (s : State) (c : Nat) : Bool :=
  (List.range 13).all (fun r => (s.rk c r).active.isEmpty && (s.rk c r).tiles.isEmpty) && (s.cl c).vec.isNone
    && (s.cl c).cond.isNone

/-- BARRIER_REACHED: steps 2 to 4 are done; the flag, the counter, the notices (R399, R512). -/
def State.reachBarrier (s : State) : State :=
  if s.barrier ≠ 1 ∨ !s.t1Clusters.all s.issuedDone then s
  else
    let s := (s.setBarrier 2).event Reg.MEM_TS_STATUS (bitField 5) Reg.MEM_BARRIER_CNT
    (s.tellKeeper 2 0 0).evq 1 2 0 (s.rd Reg.MEM_BARRIER_STATUS).toNat

def execBarrierReached (s : State) : Host.Outcome State Fault Refusal := .next s.reachBarrier

/-- The barrier clears; a restart through it empties T1's stacks (R238, R399). -/
def State.clearBarrier (s : State) : State :=
  ((List.range 16).filter (fun sl => s.slotOwner sl == 1)).foldl State.emptySlot (s.wr Reg.MEM_BARRIER_STATUS 0)

/-- BARRIER_CLEAR: MEM_BARRIER_CTL.CLEAR, by T0, while every T1 sequencer is IDLE. -/
def execBarrierClear (by_ : Fin 4) (s : State) : Host.Outcome State Fault Refusal :=
  .next (if by_ = 0 ∧ s.barrier ≠ 0 ∧ s.t1Clusters.isEmpty then s.clearBarrier else s)

/-- The loaded T1 image maps a chip to a program (R159, R399). -/
def State.inJob (s : State) (chip : Nat) : Bool :=
  match s.images.find? (fun e => e.1 == 1) with
  | none => false
  | some e => e.2.chipProgram.isEmpty || leNat ((e.2.chipProgram.drop (2 * chip)).take 2) != 0xFFFF

/-! ### A fence bit is set (R335, R336, R399, R464) -/

/-- The record that a fence of its own number, or a declaration, gives the chip (R461, R464). -/
def State.chipState (s : State) (v : Nat) : State := s.unitChange 0 { s.unitOf 0 with state := v } 0 0

/-- Packets that wait for route selection to the fenced chip are discarded at once. -/
def State.dropFenced (s : State) (chip : Nat) : State :=
  (s.rt.rin.filter (fun (q : RPkt) => !q.p.mc && q.p.dst == chip)).foldl
    (fun (s : State) q => ((s.unwait q).dropPkt q).fencedDrop) s

/-- A fence bit newly set: its record, the packets, pushes, transfers and collectives it reaches, and the barrier with AUTO. -/
def State.applyFence (s : State) (chip issuer : Nat) : State :=
  if 24576 ≤ chip ∨ s.fenced chip then s
  else
    let s := s.setFence chip true
    let s := s.trace 76 0x12 chip 0 (peerWord issuer 0 0 0 0)
    let s := if chip = s.chip then s.chipState 4 else s
    let s := (((s.dropFenced chip).pushesFenced chip).xfersFenced chip).collsFenced chip
    if s.fld Reg.MEM_BARRIER_CTL Fld.MEM_BARRIER_CTL_AUTO = 1 ∧ s.inJob chip then s.raiseBarrier 0 chip else s

/-- A fence with an epoch: applied unless it is stale (R464). -/
def State.fenceEpoch (s : State) (chip epoch issuer : Nat) : State :=
  if epoch < s.peerEpoch.get 0 chip then s.event Reg.GLB_RAS_STATUS (bitField 7) Reg.GLB_STALE_CNT
  else s.applyFence chip issuer

/-- The FENCE packet to the whole torus (R335, R464). -/
def State.multicastFence (s : State) (chip reason epoch : Nat) : State :=
  s.inject { src := s.chip, tc := 2, type := 6, mc := true, mask := maskOf (2 ^ s.dim 0 - 1) (2 ^ s.dim 1 - 1) (2 ^ s.dim 2 - 1)
             body := leBytes 2 chip ++ leBytes 1 reason ++ leBytes 1 0 ++ leBytes 4 epoch ++ leBytes 2 s.chip ++ leBytes 6 0 }

/-- FENCE_PACKET_RX. -/
def execFencePacketRx (p : Packet) (s : State) : Host.Outcome State Fault Refusal :=
  .next (if p.type ≠ 6 ∨ p.malformed then (s.take p).badPacket
    else (s.take p).fenceEpoch (leNat (p.body.take 2)) (leNat ((p.body.drop 4).take 4)) (leNat ((p.body.drop 8).take 2)))

/-- FENCE_SET: FAB_FENCE_CMD with OP 1, by T0 (R344). -/
def execFenceSet (by_ : Fin 4) (chip : BitVec 15) (s : State) : Host.Outcome State Fault Refusal :=
  .next (if by_ = 0 then s.applyFence chip.toNat s.chip else s)

/-- FENCE_CLEAR: FAB_FENCE_CMD with OP 2, by T0 (R344); the contexts show the fences that are left (R379). -/
def execFenceClear (by_ : Fin 4) (chip : BitVec 15) (s : State) : Host.Outcome State Fault Refusal :=
  .next (if by_ = 0 then (s.setFence chip.toNat false).showColls else s)

/-- FENCE_CLEAR_ALL: FAB_FENCE_CMD with OP 3, by T0 (R344). -/
def execFenceClearAll (by_ : Fin 4) (s : State) : Host.Outcome State Fault Refusal :=
  .next (if by_ = 0 then s.clearFences.showColls else s)

/-- GLB_FENCE_ISSUE, by T0: applied here at once, then multicast (R464). -/
def State.issueFence (s : State) (chip reason epoch : Nat) : State :=
  (s.fenceEpoch chip epoch s.chip).multicastFence chip reason epoch

def execGlbFenceIssue (by_ : Fin 4) (v : BitVec 64) (s : State) : Host.Outcome State Fault Refusal :=
  .next (if by_ = 0 then s.issueFence (v.toNat % 2 ^ 15) 1 (v.toNat / 2 ^ 32) else s)

/-! ### Unit-state records (R461 to R465) -/

/-- The chip declares itself OFFLINE (R464). -/
def State.declareOffline (s : State) : State := s.chipState 5

/-- DECLARE_OFFLINE: GLB_UNIT_CTL.OFFLINE, by T0; the bit is set (R6). -/
def execDeclareOffline (by_ : Fin 4) (s : State) : Host.Outcome State Fault Refusal :=
  .next (if by_ = 0 then (s.setFld Reg.GLB_UNIT_CTL (bitField 0) 1).declareOffline else s)

/-- Whether a chip is this chip's peer on some port, or its twin. -/
def State.isPeer (s : State) (n : Nat) : Bool :=
  (List.range 12).any (fun p => s.linkState p == 5 && s.fld (Reg.PRT_PEER p) Fld.PRT_PEER_CHIP == n)

/-- UNITSTATE_RX: a record with a right CRC raises the epoch heard from its chip and is kept for a peer and the twin; a peer's
OFFLINE record is fenced (R463, R464). -/
def State.unitRecordRx (s : State) (rec' : List Byte) : State :=
  let chip := leNat ((rec'.drop 4).take 2)
  let epoch := leNat (rec'.take 4)
  if rec'.length ≠ 64 ∨ leNat (rec'.drop 60) ≠ (crc32c (rec'.take 60)).toNat then s
  else
    let s := { s with peerEpoch := s.peerEpoch.set 0 chip (max epoch (s.peerEpoch.get 0 chip)) }
    let newer := leNat ((s.peerRec.get [] chip).take 4) ≤ epoch
    let s := if (s.isPeer chip || chip == s.twin) && newer then { s with peerRec := s.peerRec.set [] chip rec' } else s
    if s.isPeer chip ∧ leNat ((rec'.drop 6).take 1) = 5 then s.issueFence chip 0 epoch else s

def execUnitstateRx (p : Packet) (s : State) : Host.Outcome State Fault Refusal :=
  .next (if p.type ≠ 8 ∨ p.malformed then (s.take p).badPacket else (s.take p).unitRecordRx p.body)

/-- UNITSTATE_PUBLISH_TIMER (R462). -/
def execUnitstatePublishTimer (s : State) : Host.Outcome State Fault Refusal := .next s.publish

/-- GLB_UNIT_EPOCH_WRITE: only a greater value takes effect (R469). -/
def State.writeEpoch (s : State) (v : BitVec 32) : State :=
  if s.fld Reg.GLB_UNIT_EPOCH Fld.GLB_UNIT_EPOCH_EPOCH < v.toNat then
    s.setFld Reg.GLB_UNIT_EPOCH Fld.GLB_UNIT_EPOCH_EPOCH v.toNat
  else s

def execGlbUnitEpochWrite (by_ : Fin 4) (v : BitVec 32) (s : State) : Host.Outcome State Fault Refusal :=
  .next (if by_ = 0 then s.writeEpoch v else s)

/-- ERR_REPORT: a REPORTED error is charged to the unit (R445). -/
def execErrReport (by_ : Fin 4) (v : BitVec 32) (s : State) : Host.Outcome State Fault Refusal :=
  .next (if by_ = 0 then s.charge 8 v.toNat 0 0 else s)

end Sys2Proof.Machine
end

