-- ==== Sys2Proof/Machine/Ranks.lean ====
section
/-!
DEFINITION. The ranks (spec/03_ranks.md, spec/02_numerics_and_sterling.md R45 to R63, spec/06_askeb_reference.md R180 to R186, R209):
the fields and checks of a matrix instruction, its tiles lane by lane in the Sterling register, replays, the drain, audit, and the
spare mechanisms.
-/
namespace Sys2Proof.Machine

/-! ### Lost data (R450) -/

/-- Data of a tenant is declared lost: T1 raises the fault barrier; another tenant's streams halt and the keeper notifies its
host. -/
def State.lostData (s : State) (tenant : Nat) : State :=
  if tenant = 1 then s.raiseBarrier 1 0
  else
    let s := ((List.range 64).filter (fun c => s.seqTenant c == tenant && (s.seqState c == 1 || s.seqState c == 3))).foldl
      (fun (s : State) c => s.setSeqState c seqHalted) s
    s.tellKeeper 9 tenant 0

/-! ### Fields of a matrix instruction (R180, R209) -/

structure MmaF where
  accrd : Bool
  kind : Nat          -- 0 MMA.F, 1 MMA.DX, 2 MMA.DW
  rank : Nat
  phys : Bool
  n : Nat
  acc : Nat
  opmode : Nat
  rnd : Bool
  m0 : Int
  stepreg : Nat
  mbreg : Nat
  rowblk : Nat
  colt : Nat
  tiles : Nat
  kstop : Nat

def QEntry.mma (e : QEntry) : MmaF :=
  let f := bitsOf e.word
  if e.op = 0x73 then
    { accrd := true, kind := f 59 58, rank := f 71 68, phys := f 60 60 == 1, n := f 67 63, acc := f 62 61, opmode := 0
      rnd := false, m0 := 0, stepreg := 0, mbreg := 0, rowblk := f 33 22, colt := f 21 10, tiles := 1, kstop := f 57 34 }
  else
    { accrd := false, kind := e.op - 0x10, rank := f 71 68, phys := false, n := f 67 63, acc := f 62 61, opmode := f 60 59
      rnd := f 58 58 == 1, m0 := toSigned 8 (f 57 50), stepreg := f 49 45, mbreg := f 44 40, rowblk := f 35 24, colt := f 23 12
      tiles := f 11 0, kstop := 0 }

def accFmt (a : Nat) : AccFmt := if a = 0 then .acc2 else if a = 1 then .acc4 else .acc10

/-- The descriptor `d[i]` of a cluster with the captured value of its index register (R132, R142). -/
def State.descOf (s : State) (c : Nat) (e : QEntry) (i : Nat) : Desc :=
  let raw := (s.cl c).d i
  let d : Desc := { raw := raw }
  { raw := raw, idx := if d.idxreg = 0 then 0 else e.scal.get 0 d.idxreg }

/-- Orientation an operand is read in: its own, or for an FP32 or BF16 operand the one the instruction requires (R181). -/
def readOrient (kind : Nat) (own other : Desc) (isP : Bool) : Nat :=
  if own.orient ≠ 0 then own.orient
  else match kind with
    | 0 => 1
    | 2 => 2
    | _ => if other.orient = 1 then 2 else if other.orient = 2 then 1 else if isP then 1 else 2

/-- Row and reduction extent of an operand read in an orientation (R181). -/
def Desc.rows (d : Desc) (orient : Nat) : Nat := if orient = 1 then d.size 1 else d.size 0
def Desc.red (d : Desc) (orient : Nat) : Nat := if orient = 1 then d.size 0 else d.size 1

def ActiveMma.f (a : ActiveMma) : MmaF := a.entry.mma
def ActiveMma.po (a : ActiveMma) : Nat := readOrient a.f.kind a.p a.q true
def ActiveMma.qo (a : ActiveMma) : Nat := readOrient a.f.kind a.q a.p false
def ActiveMma.k (a : ActiveMma) : Nat := a.p.red a.po

/-! ### Issue checks (R45, R71, R176, R181 to R185, R209) -/

/-- The class of a rank format: 8-bit floats, MXINT8, the 4- and 6-bit formats, BX16. -/
def rankClass (f : Nat) : Nat :=
  if f = 4 ∨ f = 5 then 1 else if f = 9 then 2 else if 6 ≤ f ∧ f ≤ 8 then 3 else if f = 0x0A then 4 else 0

/-- R45 and R184. -/
def pairOk (opmode p q : Nat) : Bool :=
  let wide (f : Nat) : Bool := f == 0 || f == 1
  match opmode with
  | 0 => rankClass p != 0 && rankClass p == rankClass q
  | 1 => (wide p || p == 0x0A) && (wide q || q == 0x0A) && (wide p || wide q)
  | _ => wide p && wide q

/-- The orientations of R181. -/
def orientOk (kind : Nat) (po qo : Nat) : Bool :=
  match kind with
  | 0 => po == 1 && qo == 1
  | 2 => po == 2 && qo == 2
  | _ => (po == 1 && qo == 2) || (po == 2 && qo == 1)

/-- The ORIENT that O must carry for its format (R183). -/
def outOrientOk (d : Desc) : Bool :=
  if d.fmt ≤ 3 then d.orient == 0 else if d.fmt ≤ 0x0A then d.orient == 2 else true

/-- Rows and columns written: those within the operands' extents (R182). -/
def ActiveMma.rowEnd (a : ActiveMma) : Nat := min (128 * a.f.rowblk + 128) (a.p.rows a.po)
def ActiveMma.colEnd (a : ActiveMma) : Nat := min (a.f.n * (a.f.colt + a.f.tiles)) (a.q.rows a.qo)

/-- The sidecar entry of tile `t` (R142). -/
def ActiveMma.sidecarIx (a : ActiveMma) (t : Nat) : Nat :=
  a.f.rowblk * ((a.o.size 0 + a.f.n - 1) / a.f.n) + (a.f.colt + t)

/-- The instruction writes some element (R182). -/
def ActiveMma.wrote (a : ActiveMma) : Bool := decide (128 * a.f.rowblk < a.rowEnd) && decide (a.f.n * a.f.colt < a.colEnd)

/-- The byte ranges an instruction writes: its rows and columns of O, and their scales or sidecar entries (R141, R185). A tile that writes
no element has no sidecar entry. -/
def ActiveMma.writes (a : ActiveMma) : List (Nat × Nat) :=
  let f := a.f
  if f.accrd then a.o.chunkRanges 0 (128 * f.n * ((accFmt f.acc).limbs * 8 + 8))
  else if !a.wrote then []
  else
    let r0 := 128 * f.rowblk
    let c0 := f.n * f.colt
    let first := if a.o.strided then a.o.rowAddr r0 + c0 * a.o.bits / 8 else a.o.addr + (r0 * a.o.size 0 + c0) * a.o.bits / 8
    let r1 := a.rowEnd - 1
    let hi := if a.o.strided then a.o.rowAddr r1 + (a.colEnd * a.o.bits + 7) / 8
      else a.o.addr + ((r1 * a.o.size 0 + a.colEnd) * a.o.bits + 7) / 8
    let main := (first, hi - first)
    if fmtFp8 a.o.fmt then
      [main, (a.o.scaleAddr + 4 * a.sidecarIx 0, 4 * ((a.colEnd + f.n - 1) / f.n - f.colt))]
    else if fmtBlocked a.o.fmt then
      let sc (r c : Nat) := a.o.scaleAddr + r / 32 * a.o.size 0 + c
      [main, (sc r0 c0, sc r1 (a.colEnd - 1) + 1 - sc r0 c0)]
    else [main]

/-- K-steps of the reduction in one pass (R71). -/
def ActiveMma.s (a : ActiveMma) : Nat :=
  if a.f.opmode ≠ 0 ∨ a.p.fmt = 0x0A then a.k / 8
  else if rankClass a.p.fmt = 3 then (a.k + 63) / 64 else a.k / 32

/-- The first check of R176, orders 6 to 12, that a matrix instruction fails: its fault code. -/
def State.mmaCheck (s : State) (c : Nat) (a : ActiveMma) : Option Nat :=
  let f := a.f
  let k := a.k
  let slots := (accFmt f.acc).slots
  let o := a.o
  let shapeBad : Bool := a.p.ndim != 1 || a.q.ndim != 1 || k != a.q.red a.qo || k % 32 != 0 || decide (2 ^ 24 < k)
    || f.n == 0 || decide (slots < f.n) || f.tiles == 0
    || (if f.accrd then decide (a.s < f.kstop) || decide (o.count < 128 * f.n * ((accFmt f.acc).limbs * 8 + 8))
        else o.ndim != 1 || (a.wrote && (decide (o.size 1 < a.rowEnd) || decide (o.size 0 < a.colEnd))))
  let outBad : Bool := if f.accrd then o.fmt != 0x0F else decide (0x0A < o.fmt) || (f.m0 != 0 && !fmtFp8 o.fmt)
  let align (d : Desc) : Bool := d.addr % 64 == 0 && (!fmtBlocked d.fmt || d.scaleAddr % 32 == 0)
  let reads := a.p.ranges ++ a.q.ranges
  if !a.p.valid || !a.q.valid || !o.valid then some 0x05
  else if !pairOk f.opmode a.p.fmt a.q.fmt then some 0x06
  else if !orientOk f.kind a.po a.qo || (!f.accrd && !outOrientOk o) then some 0x07
  else if shapeBad then some 0x08
  else if outBad || !align a.p || !align a.q || (f.accrd && f.phys && decide (12 < f.rank)) then some 0x09
  else if rangesOverlap a.writes reads then some 0x0A
  else if !rangesInStage c (reads ++ o.ranges) || !s.rangesOk (s.seqTenant c) .rd reads
      || !s.rangesOk (s.seqTenant c) .wr o.ranges then some 0x0B
  else none

/-! ### Ranks, limbs, transposer streams and the conditioner (R54, R76, R84, R88, R184) -/

/-- The physical rank of a logical one (R88). -/
def State.physRank (s : State) (c l : Nat) : Nat := s.fld (Reg.CLU_RANK_MAP c) ⟨4 * l, 4⟩

def ActiveMma.physical (s : State) (c : Nat) (a : ActiveMma) : Nat :=
  if a.f.phys then a.f.rank else s.physRank c a.f.rank

/-- Passes of the instruction: three for BXD (R47). -/
def ActiveMma.passes (a : ActiveMma) : Nat := if a.f.opmode = 2 then 3 else 1

/-- K-steps a lane takes for one column group of a tile. -/
def ActiveMma.total (a : ActiveMma) (gl : Nat) : Nat :=
  if a.f.kstop ≠ 0 then a.f.kstop * gl else a.passes * a.s * gl

def Tile.laneCount (t : Tile) (l : Nat) : Nat := t.lanes.get 0 l

/-- Every lane has accumulated the group's last K-step. -/
def Tile.full (t : Tile) (a : ActiveMma) : Bool := (List.range 128).all (fun l => decide (a.total t.groupLen ≤ t.laneCount l))

/-- Every column of the tile is accumulated. -/
def Tile.final (t : Tile) (a : ActiveMma) : Bool :=
  !t.waiting && t.replay.isNone && t.full a && decide (a.f.n ≤ t.group + t.groupLen)

def ActiveMma.fp8 (a : ActiveMma) : Bool := !a.f.accrd && fmtFp8 a.o.fmt

/-- The blocks of the group in the limbs that the drain reads. -/
def Tile.groupRead (t : Tile) : Bool :=
  (List.range (4 * t.groupLen)).all (fun b => t.blocks.contains (4 * t.group + b))

/-- Limbs a tile holds in every lane (R54, R76). -/
def Tile.limbs (t : Tile) (a : ActiveMma) : Nat :=
  if t.waiting || t.replay.isSome then 0
  else if (if a.fp8 then t.emitted else !a.f.accrd && t.groupRead) then 0
  else t.groupLen * t.fmt.limbs

def Rank.mmaOf (r : Rank) (t : Tile) : Option ActiveMma := r.active.find? (fun (a : ActiveMma) => a.id == t.mma)

def Rank.limbsFree (r : Rank) : Nat :=
  40 - r.tiles.foldl (fun n (t : Tile) => match r.mmaOf t with
    | some a => n + t.limbs a
    | none => n) 0

/-- The instruction still feeds K-steps into the chain. -/
def Rank.feeding (r : Rank) (a : ActiveMma) : Bool :=
  decide (a.next < a.f.tiles) || r.tiles.any (fun (t : Tile) => t.mma == a.id && !t.final a)

/-- Transposer streams an instruction holds: one per operand read in column orientation (R84). -/
def ActiveMma.streams (a : ActiveMma) : Nat := (if a.po = 2 then 1 else 0) + (if a.qo = 2 then 1 else 0)

def State.xposeUsed (s : State) (c : Nat) : Nat :=
  (List.range 13).foldl (fun n r =>
    let k := s.rk c r
    (k.active.filter k.feeding).foldl (fun n (a : ActiveMma) => n + a.streams) n) 0

/-- The conditioner is taken: by a MOV.C, or by an instruction of OPMODE 1 or 2 (R184). -/
def State.condBusy (s : State) (c : Nat) : Bool :=
  (s.cl c).cond.isSome || (List.range 13).any (fun r =>
    let k := s.rk c r
    (k.active.filter k.feeding).any (fun (a : ActiveMma) => a.f.opmode != 0))

def State.quiesce (s : State) (c r : Nat) : Bool := s.fld (Reg.RNK_CTL c r) Fld.RNK_CTL_QUIESCE == 1

/-- A unit of the cluster is TESTING. -/
def State.testing (s : State) (unit : Nat) : Bool := s.unitState unit == 2

/-- A MOV.C at the head of the mover port wants the conditioner, and reached its head before (R184). -/
def State.movcFirst (s : State) (c : Nat) : Bool :=
  match (s.cl c).movQ with
  | e :: _ => e.op == 0x31 && e.pred && s.headerOk c e.wait && decide ((s.cl c).headAt.get 0 portMover < (s.cl c).headAt.get 0 portRank)
  | [] => false

/-- Whether an instruction that passed its checks finds room on its rank (R54, R76, R84, R87, R184, R453); where it does not, the
counters of the wait of `waited` core cycles. -/
def State.mmaRoom (s : State) (c : Nat) (a : ActiveMma) (waited : Nat) : Bool × State :=
  let r := a.physical s c
  let k := s.rk c r
  if s.quiesce c r || k.active.any (fun (b : ActiveMma) => decide (b.next < b.f.tiles)) then (false, s)
  else if a.f.opmode ≠ 0 ∧ (s.condBusy c || s.testing (unitId 5 c) || s.movcFirst c) = true then (false, s)
  else if 4 < s.xposeUsed c + a.streams then
    (false, (s.setFld (Reg.CLU_STATUS c) Fld.CLU_STATUS_XPOSE_WAIT 1).cntBy (Reg.CLU_XPOSE_WAIT_CNT c) waited)
  else if k.limbsFree < a.f.n * (accFmt a.f.acc).limbs then (false, s.cntBy (Reg.RNK_LIMB_WAIT_CNT c r) waited)
  else (true, s)

/-! ### Operands as K-steps (R46, R47, R71, R181, R182, R184) -/

/-- The element format a rank sees for an operand. -/
def ActiveMma.fmtOf (a : ActiveMma) (d : Desc) : ElemFmt := if a.f.opmode ≠ 0 then .bx16 else (elemFmt d.fmt).getD .e4m3

/-- Block `b` of row `r` of an operand read in an orientation, as one or two limbs of (scale code, element codes); rows and blocks
beyond the extents are zero under scale code 0 (R182). -/
def State.opBlock (s : State) (a : ActiveMma) (d : Desc) (orient r b : Nat) : List (Nat × List Nat) :=
  let z : Nat × List Nat := (0, List.replicate 32 0)
  if d.rows orient ≤ r ∨ d.red orient ≤ b * 32 then [z, z]
  else
    let el (i : Nat) := if orient = 1 then r * d.size 0 + b * 32 + i else (b * 32 + i) * d.size 0 + r
    let ix := (List.range 32).map el
    if a.f.opmode = 0 ∨ d.fmt = 0x0A then
      let x := (s.elemScale d (el 0), ix.map (s.elemCode d))
      [x, x]
    else
      let vs := ix.map (fun e => s.elemNum d e 0)
      if a.f.opmode = 1 then
        let x := encodeBlock .bx16 vs .rne (List.replicate 32 0)
        [x, x]
      else
        let x := bxdSplit vs
        [x.1, x.2]

/-- Blocks that lose precision in the conditioner's conversion of an operand (R48). -/
def State.opLoss (s : State) (a : ActiveMma) (d : Desc) (orient r0 r1 : Nat) : Nat :=
  if a.f.opmode = 0 ∨ d.fmt = 0x0A then 0
  else
    (List.range (r1 - r0)).foldl (fun n r => (List.range (d.red orient / 32)).foldl (fun n b =>
      let ix := (List.range 32).map (fun i => if orient = 1 then (r0 + r) * d.size 0 + b * 32 + i
        else (b * 32 + i) * d.size 0 + (r0 + r))
      let vs := ix.map (fun e => s.elemNum d e 0)
      let ls := s.opBlock a d orient (r0 + r) b
      let val (l : Nat × List Nat) (i : Nat) : Frac := match blockValue .bx16 l.1 (l.2.getD i 0) with
        | .fin q => q
        | _ => ⟨0, 1⟩
      let back := (List.range 32).map (fun i =>
        if a.f.opmode = 1 then val (ls.getD 0 (0, [])) i else (val (ls.getD 0 (0, [])) i).add (val (ls.getD 1 (0, [])) i))
      if blockLost vs back then n + 1 else n) n) 0

/-- The limbs that pass `i` multiplies: hi·hi, hi·lo, lo·hi (R47). -/
def passLimbs (i : Nat) : Nat × Nat := if i = 1 then (0, 1) else if i = 2 then (1, 0) else (0, 0)

/-- Every scale pair of a tile: each row, column, block and pass (R50). DESIGN CHOICE (log entry 144): the padding block of R71 takes no
part, neither in the anchor nor in the largest spread of R52. -/
def State.scalePairs (s : State) (a : ActiveMma) (t : Nat) : List (Nat × Nat) :=
  let nb := a.k / 32
  (List.range nb).flatMap (fun b =>
    let ps := (List.range 128).map (fun i => s.opBlock a a.p a.po (128 * a.f.rowblk + i) b)
    let qs := (List.range a.f.n).map (fun j => s.opBlock a a.q a.qo (a.f.n * (a.f.colt + t) + j) b)
    (List.range a.passes).flatMap (fun i =>
      let l := passLimbs i
      ps.flatMap (fun p => qs.map (fun q => ((p.getD l.1 (0, [])).1, (q.getD l.2 (0, [])).1)))))

/-- The block pairs of K-step (pass `i`, step `st`) on lane `l` and column `col` of tile `t`: scale codes and element values. -/
def State.kPairs (s : State) (a : ActiveMma) (t i st l col : Nat) : List ((Nat × Nat) × (List Num × List Num)) :=
  let lm := passLimbs i
  let quarter := a.f.opmode ≠ 0 ∨ a.p.fmt = 0x0A
  let blocks := if quarter then [st / 4] else if rankClass a.p.fmt = 3 then [2 * st, 2 * st + 1] else [st]
  blocks.map (fun b =>
    let p := (s.opBlock a a.p a.po (128 * a.f.rowblk + l) b).getD lm.1 (0, [])
    let q := (s.opBlock a a.q a.qo (a.f.n * (a.f.colt + t) + col) b).getD lm.2 (0, [])
    let cut (xs : List Nat) := if quarter then (xs.drop (st % 4 * 8)).take 8 else xs
    ((p.1, q.1), ((cut p.2).map (a.fmtOf a.p).value, (cut q.2).map (a.fmtOf a.q).value)))

/-! ### Tiles (R50 to R55, R72, R76) -/

/-- A tile as it starts: its anchor set, no lane advanced. -/
def State.newTile (s : State) (a : ActiveMma) (t : Nat) (audited : Bool) : Tile :=
  { mma := a.id, index := t, fmt := accFmt a.f.acc, anchor := anchorOf (s.scalePairs a t), groupLen := a.f.n, exp := a.f.m0
    audited := audited }

def State.modRk (s : State) (c r : Nat) (f : Rank → Rank) : State := s.setRk c r (f (s.rk c r))

def Rank.setTile (k : Rank) (old new : Tile) : Rank := { k with tiles := k.tiles.map (fun (t : Tile) => if t = old then new else t) }

/-- The cluster's audits: an unassigned rank that no audited tile keeps busy (R451). -/
def State.auditFree (s : State) (c : Nat) : Bool :=
  (s.spareRank c).isSome && (List.range 13).all (fun r =>
    (s.rk c r).tiles.all (fun (t : Tile) => !t.audited || t.auditDone))

/-- A tile abandoned by a residue error or an audit starts again from its first K-step (R76, R79). -/
def Tile.restart (t : Tile) (a : ActiveMma) : Tile :=
  { t with fmt := accFmt a.f.acc, group := 0, groupLen := a.f.n, replay := none, lanes := [], slots := [], blocks := []
           exp := a.f.m0, steps := 0, emitted := false, exh := false, audited := false, auditDone := false, stopAt := none
           waiting := false }

/-- TILE_START (R76, R80, R451): an abandoned tile starts again, or the next tile of the oldest instruction starts, once the rank
accepts tiles, every lane group is ungated, no replay waits for limbs and the slots are free; it waits for them for `waited` core cycles
more. A conditioned one that the conditioner failed waits for the conditioner's test besides (R447). -/
def State.startTile (s : State) (c r : Nat) (sampled : Bool) (waited : Nat) : State :=
  let k := s.rk c r
  if s.quiesce c r || s.fld (Reg.RNK_CTL c r) Fld.RNK_CTL_UNGATED != 4
      || k.tiles.any (fun (t : Tile) => t.replay.isSome) then s
  else
    let lacks (n : Nat) : Bool := decide (k.limbsFree < n)
    match k.tiles.find? (fun (t : Tile) => t.waiting) with
    | some t =>
      match k.mmaOf t with
      | none => s
      | some a =>
        if a.f.opmode ≠ 0 ∧ s.testing (unitId 5 c) = true then s
        else if lacks (a.f.n * (accFmt a.f.acc).limbs) then s.cntBy (Reg.RNK_LIMB_WAIT_CNT c r) waited
        else s.setRk c r (k.setTile t (t.restart a))
    | none =>
      match k.active.find? (fun (a : ActiveMma) => decide (a.next < a.f.tiles)) with
      | none => s
      | some a =>
        if lacks (a.f.n * (accFmt a.f.acc).limbs) then s.cntBy (Reg.RNK_LIMB_WAIT_CNT c r) waited
        else
          let want := sampled && !a.f.accrd && s.fld Reg.GLB_RAS_CTL Fld.GLB_RAS_CTL_AUDIT_FRAC != 0
          let audit := want && s.auditFree c
          let s := if want && !audit then s.cnt Reg.GLB_AUDIT_SKIP_CNT else if audit then s.cnt Reg.GLB_AUDIT_CNT else s
          s.setRk c r { k with
            active := k.active.map (fun (b : ActiveMma) => if b.id = a.id then { b with next := b.next + 1 } else b)
            tiles := k.tiles ++ [s.newTile a a.next audit] }

def execTileStart (c : Fin 64) (r : Fin 13) (sampled : Bool) (waited : Nat) (s : State) : Host.Outcome State Fault Refusal :=
  .next (s.startTile c r sampled waited)

/-- One K-step on one lane of a tile: exact accumulation with its flags, or none where a block pair falls below the window
(R49 to R55, R72). DESIGN CHOICE (log entry 144): COUNT counts the pairs of the padding block of R71 too, and those of a block pair whose
scale is 0xFF. -/
def State.laneStep (s : State) (a : ActiveMma) (t : Tile) (l : Nat) : Option Tile :=
  let n := t.laneCount l
  let gl := t.groupLen
  let perPass := a.s * gl
  let pass := if a.f.kstop ≠ 0 then 0 else n / perPass
  let st := if a.f.kstop ≠ 0 then n / gl else n / gl % a.s
  let col := t.group + n % gl
  let ps := (s.kPairs a t.index pass st l col).map (fun x => (scaleSum x.1.1 x.1.2, pairSum x.1.1 x.1.2 x.2.1 x.2.2, x.2.1.length))
  if ps.any (fun x => match x.1 with
      | some sum => x.2.1.nonzero && decide (t.fmt.depth < t.anchor - sum)
      | none => false) then none
  else
    let key := col * 128 + l
    let slot := ps.foldl (fun (sl : Slot) x =>
      let add := match x.1 with
        | some sum => slotAdd t.fmt t.anchor sum x.2.1.dot
        | none => 0
      { acc := sl.acc + add, p := sl.p || x.2.1.p, m := sl.m || x.2.1.m, q := sl.q || x.2.1.q
        count := sl.count + (if pass = 0 then x.2.2 else 0) }) (t.slots.get {} key)
    some { t with slots := t.slots.set {} key slot, lanes := t.lanes.set 0 l (n + 1) }

/-- The physical lane of a logical one (R85, R96). -/
def State.physLane (s : State) (c r l : Nat) : Nat := s.fld (Reg.RNK_LMAP c r (l / 8)) ⟨8 * (l % 8), 8⟩

/-- K-steps that a lane still has to take for a tile. -/
def Rank.owed (k : Rank) (t : Tile) (l : Nat) : Nat :=
  if t.waiting || t.replay.isSome then 0
  else match k.mmaOf t with
    | some a => a.total t.groupLen - t.laneCount l
    | none => 0

/-- The tap buffers without the K-steps of an abandoned tile, which have become bubbles (R79). -/
def Rank.tapWithout (k : Rank) (t : Tile) : Tab Nat :=
  let before := k.tiles.takeWhile (fun (u : Tile) => decide (u ≠ t))
  k.tap.foldl (fun (m : Tab Nat) e =>
    let skip := before.foldl (fun n (u : Tile) => n + k.owed u e.1) 0
    m.set 0 e.1 (e.2 - min (e.2 - skip) (k.owed t e.1))) k.tap

/-- A tile is abandoned and waits: its slots, its K-steps in the buffers and its output there go (R79, R446). -/
def Rank.abandon (k : Rank) (t : Tile) (errors : Nat) : Rank :=
  { k.setTile t { t with waiting := true, lanes := [], slots := [], replay := none, errors := errors, stopAt := none, audited := false } with
    tap := k.tapWithout t, shared := 0, priv := []
    out := k.out.filter (fun (o : DrainOut) => !(o.mma == t.mma && o.index == t.index)) }

/-- A unit of a rank, itself or a lane of it, is TESTING. -/
def State.rankTesting (s : State) (c r : Nat) : Bool :=
  s.testing (unitId 2 (c * 16 + r)) || (List.range 132).any (fun l => s.testing (unitId 3 ((c * 16 + r) * 256 + l)))

/-- The keeper clears the QUIESCE of a residue error or of its own switch-in once no test and no switch-in of the rank is left (R87, R447);
one that T0 has written stays. -/
def State.settleQuiesce (s : State) (c r : Nat) : State :=
  let k := s.rk c r
  if !k.selfQuiesced || k.switch.isSome || s.rankTesting c r then s
  else ((s.setRk c r { k with selfQuiesced := false }).setFld (Reg.RNK_CTL c r) Fld.RNK_CTL_QUIESCE 0).setFld (Reg.RNK_CTL c r)
    Fld.RNK_CTL_QUIESCED 0

/-- The device or the keeper sets QUIESCE for itself; where T0 has set it, T0's stays (R87, R447). -/
def State.quiesceSelf (s : State) (c r : Nat) : State :=
  if s.quiesce c r then s
  else (s.modRk c r (fun k => { k with selfQuiesced := true })).setFld (Reg.RNK_CTL c r) Fld.RNK_CTL_QUIESCE 1

/-- A residue error: the tile is abandoned and waits, the rank is quiesced in the same cycle, the lane is charged; the third error
of a tile loses it (R445 to R447). -/
def State.residue (s : State) (c r l : Nat) (t : Tile) : State :=
  let s := (s.setRk c r ((s.rk c r).abandon t (t.errors + 1))).quiesceSelf c r
  let s := (s.charge 1 (unitId 3 ((c * 16 + r) * 256 + s.physLane c r l)) (s.seqTenant c) 0).settleQuiesce c r
  if 3 ≤ t.errors + 1 then s.lostData (s.seqTenant c) else s

/-- The conditioner's residue check fails for a conditioned tile: the tile is abandoned and waits for the conditioner's test (R445, R447). -/
def State.condResidue (s : State) (c r : Nat) (t : Tile) : State :=
  let s := (s.setRk c r ((s.rk c r).abandon t (t.errors + 1))).charge 3 (unitId 5 c) (s.seqTenant c) 0
  if 3 ≤ t.errors + 1 then s.lostData (s.seqTenant c) else s

/-- The bytes of one operand that a K-step of lane `l` reads: its blocks with their scales. -/
def ActiveMma.opBytes (a : ActiveMma) (t : Tile) (l : Nat) (d : Desc) (orient r : Nat) : List (Nat × Nat) :=
  let st := t.laneCount l / t.groupLen % a.s
  let blocks := if a.f.opmode ≠ 0 ∨ a.p.fmt = 0x0A then [st / 4] else if rankClass a.p.fmt = 3 then [2 * st, 2 * st + 1] else [st]
  blocks.flatMap (fun b =>
    if d.rows orient ≤ r ∨ d.red orient ≤ b * 32 then []
    else
      let el (i : Nat) := if orient = 1 then r * d.size 0 + b * 32 + i else (b * 32 + i) * d.size 0 + r
      (List.range 32).map (fun i => ((d.elemAt (el i)).1, (d.bits + 7) / 8))
        ++ (if fmtBlocked d.fmt then [(d.scaleAddr + d.scaleIx (el 0), 1)] else []))

/-- The private and the shared bytes of a K-step. -/
def ActiveMma.privBytes (a : ActiveMma) (t : Tile) (l : Nat) : List (Nat × Nat) := a.opBytes t l a.p a.po (a.f.rowblk * 128 + l)
def ActiveMma.sharedBytes (a : ActiveMma) (t : Tile) (l : Nat) : List (Nat × Nat) :=
  a.opBytes t l a.q a.qo (a.f.n * (a.f.colt + t.index) + t.group + t.laneCount l % t.groupLen)

/-- The first stage word that a K-step reads and whose parity fails (R446, R448). -/
def State.kBad (s : State) (a : ActiveMma) (t : Tile) (l : Nat) : Option Nat :=
  if s.badStage.isEmpty then none else (a.privBytes t l ++ a.sharedBytes t l).findSome? (fun p => s.firstBadWord p.1 p.2)

/-- Stage lines that ranges touch. -/
def linesOf (ps : List (Nat × Nat)) : Nat :=
  (ps.flatMap (fun p => (List.range ((p.1 + p.2 - 1) / 128 - p.1 / 128 + 1)).map (· + p.1 / 128))).eraseDups.length

/-- The feeders' reads of stage memory count in the selected counters (R488): a private block as it is first used, by the rank that leads
its panel group alone (R89), the shared K-step as it enters lane 0. DESIGN CHOICE (log entry 125): each read counts the lines it touches.
They are activity too, as are the K-step, by its class, and the elements that a transposer or the conditioner passes for it: 32 per block
read of an operand in column orientation, or of one that OPMODE conditions (R420; DESIGN CHOICE, log entry 140). -/
def State.feederReads (s : State) (c l : Nat) (a : ActiveMma) (t : Tile) : State :=
  let first : Bool := a.lead && t.laneCount l % t.groupLen == 0
  let n := (if first then linesOf (a.privBytes t l) else 0) + (if l = 0 then linesOf (a.sharedBytes t l) else 0)
  let through (o f : Nat) : Nat := (if o = 2 then 32 else 0) + (if a.f.opmode ≠ 0 ∧ f ≠ 0x0A then 32 else 0)
  let e := (if first then through a.po a.p.fmt else 0) + (if l = 0 then through a.qo a.q.fmt else 0)
  let src := if a.f.opmode ≠ 0 ∨ a.p.fmt = 0x0A then 2 else if rankClass a.p.fmt = 3 then 1 else 0
  let t' := s.seqTenant c
  (((s.bumpClu c 0x0E 0 n).spendBy t' 5 n).spendBy t' 4 e).spendBy t' src 1

/-- The ranks that take the private K-steps a rank's feeder reads: its panel group's, with PANEL_SHARE_EN (R89, R186). -/
def State.panelRanks (s : State) (c r : Nat) : List Nat :=
  let panel (x : Nat) : Nat := (((s.rk c x).active.find? (s.rk c x).feeding).map (fun (a : ActiveMma) => a.panel)).getD 0
  if panel r = 0 ∨ s.fld (Reg.CLU_CTL c) Fld.CLU_CTL_PANEL_SHARE_EN = 0 then [r]
  else (List.range 13).filter (fun x => panel x == panel r)

/-- What the feeders have read since: shared K-steps for the rank, up to 32, and private ones for the lane, up to 8 and not before every
rank of the group has room (R77, R78, R89). -/
def State.feed (s : State) (c r l shared priv : Nat) : State :=
  let s := if l = 0 then s.modRk c r (fun k => { k with shared := min 32 (k.shared + shared) }) else s
  let group := s.panelRanks c r
  let n := group.foldl (fun n x => min n (8 - (s.rk c x).priv.get 0 l)) priv
  if n = 0 then s
  else group.foldl (fun (s : State) x => s.modRk c x (fun k => { k with priv := k.priv.set 0 l (k.priv.get 0 l + n) })) s

/-- The spread of the whole panel decides the replay format (R52). -/
def State.missTile (s : State) (c r : Nat) (a : ActiveMma) (t : Tile) : State :=
  let f := replayFmt (maxSpread t.anchor (s.scalePairs a t.index))
  let s := s.event (Reg.RNK_STATUS c r) Fld.RNK_STATUS_WMISS (Reg.RNK_WMISS_CNT c r)
  let k := s.rk c r
  (s.setRk c r { k.setTile t { t with replay := some f, lanes := [], slots := [], audited := false } with
    tap := k.tapWithout t, shared := 0, priv := [] }).bumpClu c 0x08 0 1

/-- A lane takes the K-step that is first for it, or stops at a stage word whose parity fails, an error of the tile as often as it is a new
one (R72, R446, R448). The private block goes after the last of the columns it serves. -/
def State.laneTake (s : State) (c r l : Nat) (a : ActiveMma) (t : Tile) : State :=
  match s.kBad a t l with
  | some w =>
    if t.stopAt = some w then s
    else
      let s := s.setRk c r ((s.rk c r).setTile t { t with stopAt := some w, errors := t.errors + 1 })
      let s := s.charge 4 (stageBankUnit (w * 4)) (s.seqTenant c) (w * 4)
      if 3 ≤ t.errors + 1 then s.lostData (s.seqTenant c) else s
  | none =>
    let s := (if l = 0 then s.bumpClu c 0x06 (a.f.rank + 1) 1 else s).feederReads c l a t
    match s.laneStep a t l with
    | some t' =>
      let k := s.rk c r
      let last := t.laneCount l % t.groupLen + 1 = t.groupLen
      s.setRk c r { k.setTile t { t' with stopAt := none } with
        priv := if last then k.priv.set 0 l (k.priv.get 0 l - 1) else k.priv }
    | none => s.missTile c r a t

/-- The rank admission duty closes a slot of lane 0: CDUTY of every 16 are open, the first ones (R424; which: DESIGN CHOICE, log entry
142). -/
def State.slotClosed (s : State) (k : Rank) : Bool := Nat.ble (s.fld Reg.PWR_ACTIVE Fld.PWR_ACTIVE_CDUTY) (k.slot % 16)

/-- LANE_ACCUMULATE: what one logical lane meets in a core cycle (R72, R77, R78, R445). No K-step enters lane 0 in a slot that the
admission duty closes. A bubble enters lane 0 where its feeder has no
K-step, and counts there; a K-step that finds no private block waits in the lane's tap buffer. A slipped lane takes a K-step out of its tap
buffer as a bubble passes it or while the chain is stopped. -/
def State.laneEvent (s : State) (c r l : Nat) (ev : LaneEvent) (shared priv : Nat) : State :=
  if s.stopped then s else
  let s := s.feed c r l shared priv
  let closed := l = 0 && s.slotClosed (s.rk c r)
  let s := if l = 0 then s.modRk c r (fun k => { k with slot := (k.slot + 1) % 16 }) else s
  let k := s.rk c r
  let bubble : Bool := if l = 0 then closed || k.shared == 0 else ev == .bubble
  let s := if k.shared = 0 ∧ l = 0 ∧ k.stopped = false ∧ k.tiles.any (fun (t : Tile) => !t.waiting) = true then
      (s.cnt (Reg.RNK_BUBBLE_CNT c r)).bumpClu c 0x09 0 1
    else s
  match k.tiles.find? (fun (t : Tile) => decide (0 < k.owed t l)) with
  | none => s
  | some t =>
    match k.mmaOf t with
    | none => s
    | some a =>
      let tapN := k.tap.get 0 l
      let has : Bool := decide (0 < k.priv.get 0 l)
      if ev = .residue then s.residue c r l t
      else if ev = .condResidue then (if a.f.opmode = 0 then s else s.condResidue c r t)
      else if k.stopped || bubble then
        if tapN = 0 ∨ has = false then s
        else if (s.kBad a t l).isSome then s.laneTake c r l a t
        else (s.setRk c r { k with tap := k.tap.set 0 l (tapN - 1) }).laneTake c r l a t
      else if has && (s.kBad a t l).isSome then s.laneTake c r l a t
      else
        let k := { k with shared := if l = 0 then k.shared - 1 else k.shared }
        if has then
          let s := s.setRk c r k
          (if tapN = 0 then s else s.cnt (Reg.RNK_SLIP_CNT c r)).laneTake c r l a t
        else
          let n := min 16 (tapN + 1)
          (s.setRk c r { k with tap := k.tap.set 0 l n, stopped := n == 16 }).cnt (Reg.RNK_SLIP_CNT c r)

def execLaneAccumulate (c : Fin 64) (r : Fin 13) (lane : Fin 128) (ev : LaneEvent) (shared priv : Nat) (s : State) :
    Host.Outcome State Fault Refusal := .next (s.laneEvent c r lane ev shared priv)

/-- CHAIN_RESTART: every tap buffer has a free entry again; the cycles the chain was stopped count (R78). -/
def State.chainRestart (s : State) (c r cycles : Nat) : State :=
  let k := s.rk c r
  if !k.stopped || k.tap.any (fun e => decide (16 ≤ e.2)) then s
  else ((s.setRk c r { k with stopped := false }).cntBy (Reg.RNK_CHAIN_STALL_CNT c r) cycles).bumpClu c 0x0A 0 cycles

def execChainRestart (c : Fin 64) (r : Fin 13) (cycles : Nat) (s : State) : Host.Outcome State Fault Refusal :=
  .next (s.chainRestart c r cycles)

/-- WIDENING_REPLAY: the missed tile has its limbs and runs again from the start of its panel in the replay format, or its next
group of columns follows (R52). -/
def State.wideningReplay (s : State) (c r waited : Nat) : State :=
  let k := s.rk c r
  match k.tiles.find? (fun (t : Tile) => t.replay.isSome) with
  | some t =>
    match k.mmaOf t, t.replay with
    | some a, some f =>
      let gl := min a.f.n f.slots
      if k.limbsFree < min 40 (gl * f.limbs) then s.cntBy (Reg.RNK_LIMB_WAIT_CNT c r) waited
      else (s.setRk c r (k.setTile t { t with replay := none, fmt := f, group := 0, groupLen := gl, blocks := [] })).cnt
        (Reg.RNK_WREPLAY_CNT c r)
    | _, _ => s
  | none =>
    let more := k.tiles.find? (fun (t : Tile) => !t.waiting && match k.mmaOf t with
      | some a => decide (t.group + t.groupLen < a.f.n) && t.full a && (a.fp8 || a.f.accrd || t.groupRead)
      | none => false)
    match more with
    | none => s
    | some t =>
      match k.mmaOf t with
      | none => s
      | some a =>
        let g := t.group + t.groupLen
        s.setRk c r (k.setTile t { t with group := g, groupLen := min t.groupLen (a.f.n - g), lanes := [] })

def execWideningReplay (c : Fin 64) (r : Fin 13) (waited : Nat) (s : State) : Host.Outcome State Fault Refusal :=
  .next (s.wideningReplay c r waited)

/-! ### Output conversion (R57 to R62, R66 to R68, R74, R75, R183) -/

/-- Bits 31:0 of d0 of a draw of a sequence slot (R66 to R68). -/
def State.drawOf (s : State) (slot kind : Nat) (step mb : BitVec 64) (layer tensor elem : Nat) : BitVec 64 × BitVec 64 :=
  draw (s.rd (Reg.STK_KEY_HI slot)) (s.rd (Reg.STK_KEY_LO slot)) (drawC1 step.toNat mb.toNat slot kind) (drawC0 layer tensor elem)

def State.drawU (s : State) (slot kind : Nat) (step mb : BitVec 64) (layer tensor elem : Nat) : Nat :=
  (s.drawOf slot kind step mb layer tensor elem).2.toNat % 2 ^ 32

/-- u of an output element of a matrix instruction (R183). -/
def State.mmaU (s : State) (a : ActiveMma) (e : Nat) : Nat :=
  if a.f.rnd then
    s.drawU a.entry.slot 0 (a.entry.scal.get 0 a.f.stepreg) (a.entry.scal.get 0 a.f.mbreg) a.o.layer a.o.tensor (a.o.skip + e)
  else 0

def MmaF.mode (f : MmaF) : Round := if f.rnd then .sr else .rne

def Tile.value (t : Tile) (col l : Nat) : Num :=
  let x := t.slots.get {} (col * 128 + l)
  slotValue t.fmt t.anchor x.acc x.p x.m x.q

/-- Output row of a lane and output column of a tile's column. -/
def ActiveMma.outRow (a : ActiveMma) (l : Nat) : Nat := 128 * a.f.rowblk + l
def ActiveMma.outCol (a : ActiveMma) (t : Tile) (col : Nat) : Nat := a.f.n * (a.f.colt + t.index) + col
def ActiveMma.outEl (a : ActiveMma) (t : Tile) (col l : Nat) : Nat := a.outRow l * a.o.size 0 + a.outCol t col
def ActiveMma.written (a : ActiveMma) (t : Tile) (col l : Nat) : Bool :=
  decide (a.outRow l < a.rowEnd) && decide (a.outCol t col < a.colEnd)

/-- Block `b` of column `col` converted (R59, R60), as far as it is written (R182). -/
def State.blockOut (s : State) (a : ActiveMma) (t : Tile) (col b : Nat) : DrainOut :=
  let ls := (List.range 32).map (· + 32 * b)
  let vs := ls.map (t.value col)
  let us := ls.map (fun l => s.mmaU a (a.outEl t col l))
  let keep (xs : List Nat) : List (Nat × Nat) :=
    ((ls.zip xs).filter (fun x => a.written t col x.1)).map (fun x => (a.outEl t col x.1, x.2))
  match elemFmt a.o.fmt with
  | some f =>
    let blk := encodeBlock f vs a.f.mode us
    { mma := a.id, index := t.index, els := keep blk.2
      scales := if a.written t col (32 * b) then [(a.outEl t col (32 * b), blk.1)] else [] }
  | none =>
    { mma := a.id, index := t.index
      els := keep ((vs.zip us).map (fun x => if a.o.fmt = 0 then (toFp32 x.1 a.f.mode x.2).toNat else (toBf16 x.1 a.f.mode x.2).toNat)) }

/-- Converted output goes to stage memory. -/
def State.writeOut (s : State) (c : Nat) (d : Desc) (o : DrainOut) : State :=
  s.putAll (s.seqTenant c) (o.els.map (fun x => d.elemItem x.1 x.2) ++ o.scales.map (fun x => d.scaleItem x.1 x.2))

/-- The buffer of the drain is written out in order. -/
def State.flushOut (s : State) (c r : Nat) : State :=
  let k := s.rk c r
  k.out.foldl (fun (s : State) o => match k.active.find? (fun (a : ActiveMma) => a.id == o.mma) with
    | some a => s.writeOut c a.o o
    | none => s) (s.setRk c r { k with out := [] })

/-- A block is ready when its 32 lanes hold their final values (R74); an audited tile waits for its comparison (R451). -/
def Tile.blockReady (t : Tile) (a : ActiveMma) (col b : Nat) : Bool :=
  (!t.audited || t.auditDone) && (List.range 32).all (fun i =>
    decide (a.total t.groupLen - t.groupLen + (col - t.group) < t.laneCount (32 * b + i)))

/-- The next block of a tile that the drain would read. -/
def Tile.nextBlock (t : Tile) (a : ActiveMma) : Option (Nat × Nat) :=
  if t.waiting || t.replay.isSome || a.fp8 || a.f.accrd then none
  else ((List.range (4 * t.groupLen)).map (fun i => (t.group + i / 4, i % 4))).find? (fun x =>
    !t.blocks.contains (4 * x.1 + x.2) && t.blockReady a x.1 x.2)

/-- DRAIN_BLOCK_READ: after the core cycles it could not, the drain writes what its buffer holds, reads the next ready block, and writes it
converted; a block whose write stage memory does not accept stays in the buffer, and the drain reads no other (R74, R77, R78). -/
def State.drainBlock (s : State) (c r stalled : Nat) (accepted : Bool) : State :=
  let s := (s.cntBy (Reg.RNK_DRAIN_STALL_CNT c r) stalled).bumpClu c 0x0B 0 stalled
  if !accepted && !(s.rk c r).out.isEmpty then s
  else
    let s := if accepted then s.flushOut c r else s
    let k := s.rk c r
    match k.tiles.findSome? (fun (t : Tile) => match k.mmaOf t with
      | some a => (t.nextBlock a).map (fun x => (t, a, x))
      | none => none) with
    | none => s
    | some (t, a, x) =>
      let o := s.blockOut a t x.1 x.2
      let k := k.setTile t { t with blocks := t.blocks ++ [4 * x.1 + x.2] }
      if accepted then (s.setRk c r k).writeOut c a.o o else s.setRk c r { k with out := k.out ++ [o] }

def execDrainBlockRead (c : Fin 64) (r : Fin 13) (stalled : Nat) (accepted : Bool) (s : State) : Host.Outcome State Fault Refusal :=
  .next (s.drainBlock c r stalled accepted)

/-- The values of an FP8 tile that are written, with their draws, by column and lane. -/
def State.tileVals (s : State) (a : ActiveMma) (t : Tile) : List ((Nat × Nat) × (Num × Nat)) :=
  (List.range a.f.n).flatMap (fun col => (List.range 128).filterMap (fun l =>
    if a.written t col l then some ((col, l), (t.value col l, s.mmaU a (a.outEl t col l))) else none))

/-- The output of the final pass (R61). -/
def State.fp8Out (s : State) (a : ActiveMma) (t : Tile) : DrainOut :=
  let vs := s.tileVals a t
  let codes := fp8Codes ((elemFmt a.o.fmt).getD .e4m3) (vs.map (·.2.1)) t.exp a.f.mode (vs.map (·.2.2))
  { mma := a.id, index := t.index, els := (vs.zip codes).map (fun x => (a.outEl t x.1.1.1 x.1.1.2, x.2)) }

/-- EMISSION_PASS: one pass over a final FP8 tile, after the core cycles the drain was stalled; an overflow steps the exponent down, at
most eight times, and the final pass's output stays in the drain's buffer (R61, R75, R78). -/
def State.emissionPass (s : State) (c r stalled : Nat) : State :=
  let s := (s.cntBy (Reg.RNK_DRAIN_STALL_CNT c r) stalled).bumpClu c 0x0B 0 stalled
  let k := s.rk c r
  match k.tiles.findSome? (fun (t : Tile) => match k.mmaOf t with
    | some a => if a.fp8 && t.final a && !t.emitted && (!t.audited || t.auditDone) && k.out.isEmpty then some (t, a) else none
    | none => none) with
  | none => s
  | some (t, a) =>
    let vs := s.tileVals a t
    let f := (elemFmt a.o.fmt).getD .e4m3
    let ends (t' : Tile) : State := s.setRk c r { k.setTile t t' with out := [s.fp8Out a t] }
    if !fp8Overflows f (vs.map (·.2.1)) t.exp a.f.mode (vs.map (·.2.2)) then ends { t with emitted := true }
    else if t.steps < 8 ∧ -128 < t.exp then
      (s.setRk c r (k.setTile t { t with exp := t.exp - 1, steps := t.steps + 1 })).event (Reg.RNK_STATUS c r)
        Fld.RNK_STATUS_SSTEP (Reg.RNK_SSTEP_CNT c r)
    else
      (ends { t with emitted := true, exh := true }).event (Reg.RNK_STATUS c r) Fld.RNK_STATUS_SEXH (Reg.RNK_SEXH_CNT c r)

def execEmissionPass (c : Fin 64) (r : Fin 13) (stalled : Nat) (s : State) : Host.Outcome State Fault Refusal :=
  .next (s.emissionPass c r stalled)

/-- The sidecar entry of a tile that has written an element (R61, R141). -/
def State.writeSidecar (s : State) (c : Nat) (a : ActiveMma) (t : Tile) : State :=
  if (s.tileVals a t).isEmpty then s
  else
    let w := (s.onBehalf (s.seqTenant c)).write (a.o.scaleAddr + 4 * a.sidecarIx t.index) (leBytes 4 (sidecarEntry t.exp t.steps t.exh).toNat)
    w.2.chargeWrite w.1 (s.seqTenant c)

/-- The raw slots of an accumulator debug read (R56, R209). -/
def Tile.rawBytes (t : Tile) (n : Nat) : List Byte :=
  (List.range n).flatMap (fun col => (List.range 128).flatMap (fun l =>
    let x := t.slots.get {} (col * 128 + l)
    leBytes (8 * t.fmt.limbs) (ofSigned (64 * t.fmt.limbs) x.acc)
      ++ leBytes 8 (slotStatus t.fmt t.anchor x.p x.m x.q x.count).toNat))

/-- Everything of a tile is in its output. -/
def Tile.outputDone (t : Tile) (a : ActiveMma) : Bool :=
  if a.fp8 then t.emitted
  else if a.f.accrd then t.final a
  else t.final a && (List.range (4 * a.f.n)).all (fun b => t.blocks.contains b)

/-- TILE_COMPLETE: the drain's buffer is written out, so that the final output is in stage memory; the tile counts and signals (R137, R186,
R209). -/
def State.tileComplete (s : State) (c r : Nat) : State :=
  let k := s.rk c r
  match k.tiles.findSome? (fun (t : Tile) => match k.mmaOf t with
    | some a => if t.outputDone a then some (t, a) else none
    | none => none) with
  | none => s
  | some (t, a) =>
    let s := s.flushOut c r
    let s := if a.fp8 then s.writeSidecar c a t
      else if a.f.accrd then
        let w := (s.onBehalf (s.seqTenant c)).writePieces (a.o.chunkPieces 0 (t.rawBytes a.f.n).length) (t.rawBytes a.f.n)
        w.2.chargeWrite w.1 (s.seqTenant c)
      else s
    let k := s.rk c r
    let act := k.active.map (fun (b : ActiveMma) => if b.id = a.id then { b with done := b.done + 1 } else b)
    let s := s.setRk c r { k with tiles := k.tiles.erase t
                                  active := act.filter (fun (b : ActiveMma) => b.done != b.f.tiles) }
    let s := (s.cnt (Reg.RNK_TILE_CNT c r)).bumpClu c 0x07 (a.f.rank + 1) 1
    s.signalHeader c portRank a.entry 1

def execTileComplete (c : Fin 64) (r : Fin 13) (s : State) : Host.Outcome State Fault Refusal := .next (s.tileComplete c r)

/-! ### Cross-rank audit (R451, R452) -/

/-- AUDIT_COMPARE: both ranks have accumulated the audited tile. The operands say which of the home result, the audit result and the
home rank's third result an undetected error has changed. -/
def State.auditCompare (s : State) (c : Nat) (homeBad auditBad thirdBad : Bool) : State :=
  match (List.range 13).findSome? (fun r => (s.rk c r).tiles.findSome? (fun (t : Tile) => match (s.rk c r).mmaOf t with
    | some a => if t.audited && !t.auditDone && t.full a then some (r, a, t) else none
    | none => none)) with
  | none => s
  | some (r, a, t) =>
    let k := s.rk c r
    let pass (s : State) : State := s.setRk c r ((s.rk c r).setTile t { t with auditDone := true })
    if !homeBad && !auditBad then pass s
    else
      let s := s.event Reg.GLB_RAS_STATUS (bitField 5) Reg.GLB_AUDIT_MISMATCH_CNT
      let blame (s : State) (x : Nat) : State := s.charge 6 (unitId 2 (c * 16 + x)) (s.seqTenant c) 0
      let spare := (s.spareRank c).getD 12
      if !thirdBad && (homeBad != auditBad) then pass (blame s (if homeBad then r else spare))
      else
        let s := s.setRk c r { k.setTile t { t.restart a with errors := t.errors + 1, audited := true } with
          out := k.out.filter (fun (o : DrainOut) => !(o.mma == t.mma && o.index == t.index)) }
        let s := blame (blame s r) spare
        if 3 ≤ t.errors + 1 then s.lostData (s.seqTenant c) else s

def execAuditCompare (c : Fin 64) (homeBad auditBad thirdBad : Bool) (s : State) : Host.Outcome State Fault Refusal :=
  .next (s.auditCompare c homeBad auditBad thirdBad)

/-! ### Quiesce, ramp, spares (R79 to R81, R85, R87, R88, R91, R94 to R96) -/


/-- RNK_CTL_WRITE: QUIESCE, by T0; QUIESCED falls with it. -/
def State.writeRnkCtl (s : State) (c r : Nat) (q : Bool) : State :=
  let s := (s.setFld (Reg.RNK_CTL c r) Fld.RNK_CTL_QUIESCE q.toNat).modRk c r (fun k => { k with selfQuiesced := false })
  if q then s else s.setFld (Reg.RNK_CTL c r) Fld.RNK_CTL_QUIESCED 0

def execRnkCtlWrite (by_ : Fin 4) (c : Fin 64) (r : Fin 13) (v : BitVec 32) (s : State) : Host.Outcome State Fault Refusal :=
  .next (if by_ = 0 then s.writeRnkCtl c r (v.getLsbD 0) else s)

def State.setUngated (s : State) (c r n : Nat) : State :=
  (s.setFld (Reg.RNK_CTL c r) Fld.RNK_CTL_UNGATED n).setFld (Reg.RNK_CTL c r) Fld.RNK_CTL_GATED (if n = 0 then 1 else 0)

/-! ### Throttle reasons, and the limit on ramps (R432, R436) -/

/-- The reasons in force become `rs`: each start sets its flag, counts, and is recorded in the ring of power (R436, R475). -/
def State.setReasons (s : State) (rs : List Nat) : State :=
  let fresh := rs.filter (fun x => !s.pw.inForce.contains x)
  let s := fresh.foldl (fun (s : State) x =>
    (s.event Reg.PWR_STATUS (bitField (x / 4)) (Reg.PWR_THR_CNT (x / 4))).trace 79 0x15 (x / 4) 0 0) s
  let s := { s with pw := { s.pw with inForce := rs } }
  s.setFld Reg.PWR_ACTIVE Fld.PWR_ACTIVE_REASONS
    ((List.range 6).foldl (fun n c => n + (if rs.any (fun x => x / 4 == c) then 2 ^ c else 0)) 0)

/-- Time in force accrues in the domains; GLB source 0x0A counts it once per reason (R436, R490). -/
def State.accrue (s : State) (rs : List Nat) (ns : Nat) : State :=
  let s := rs.foldl (fun (s : State) x => s.cntBy (Reg.PWR_THR_NS (x / 4) (x % 4)) ns) s
  ((rs.map (· / 4)).eraseDups).foldl (fun (s : State) c => s.bumpGlb 0x0A (c + 1) ns) s

def levelMHz (k : Nat) : Nat := 650 + 25 * k
def State.flevel (s : State) : Nat := s.fld Reg.PWR_FREQ Fld.PWR_FREQ_CURRENT
def State.stretched (s : State) : Bool := s.fld Reg.PWR_FREQ Fld.PWR_FREQ_STRETCH == 1

/-- The core clock in MHz: the level in force, half of it while the clock is stretched (R424, R430). -/
def State.coreMHz (s : State) : Nat := if s.stretched then levelMHz s.flevel / 2 else levelMHz s.flevel

/-- The ramps that started within the last 32 core cycles. -/
def State.rampsNow (s : State) : List Nat := s.pw.rampStarts.filter (fun t => decide ((s.now - t) * s.coreMHz < 32000))

/-- No ramp waits any more: RAMP ends in COMPUTE. -/
def State.rampsFree (s : State) : State :=
  if s.pw.rampWaits.isEmpty ∧ s.pw.inForce.contains 16 then
    (s.accrue [16] (s.now - s.pw.rampSince)).setReasons (s.pw.inForce.filter (· ≠ 16))
  else s

/-- A ramp beyond MAXRANKS waits, and RAMP is in force in COMPUTE. -/
def State.rampWait (s : State) (key : Nat) : State :=
  if s.pw.rampWaits.contains key then s
  else if s.pw.rampWaits.isEmpty then
    { s with pw := { s.pw with rampWaits := [key], rampSince := s.now } }.setReasons (s.pw.inForce ++ [16])
  else { s with pw := { s.pw with rampWaits := s.pw.rampWaits ++ [key] } }

/-- A ramp starts. -/
def State.rampStart (s : State) (key : Nat) : State :=
  { s with pw := { s.pw with rampStarts := s.rampsNow ++ [s.now], rampWaits := s.pw.rampWaits.filter (· ≠ key) } }.rampsFree

/-- No tile of a rank is in flight and none may start: nothing issued is left, or it waits until QUIESCE clears (R81). -/
def State.rankIdle (s : State) (c r : Nat) : Bool :=
  let k := s.rk c r
  k.tiles.all (fun (t : Tile) => t.waiting)
    && (s.quiesce c r || (k.tiles.isEmpty && k.active.all (fun (a : ActiveMma) => decide (a.f.tiles ≤ a.next))))

/-- Ramps of ranks whose work has gone wait no longer. -/
def State.rampSettle (s : State) : State :=
  { s with pw := { s.pw with rampWaits := s.pw.rampWaits.filter (fun k => !s.rankIdle (k / 16) (k % 16)) } }.rampsFree

/-- One lane group more is ungated; the first of a ramp counts (R80, R81). -/
def State.rampGroup (s : State) (c r : Nat) : State :=
  let k := s.rk c r
  let n := s.fld (Reg.RNK_CTL c r) Fld.RNK_CTL_UNGATED
  if 4 ≤ n ∨ s.rankIdle c r = true then s
  else
    let s := if k.ramping then s else s.cnt (Reg.RNK_RAMP_CNT c r)
    (s.setRk c r { k with ramping := decide (n + 1 < 4) }).setUngated c r (n + 1)

/-- RAMP_UP: for an issued tile one lane group more is ungated; a ramp that would be one too many within 32 core cycles waits (R80, R81,
R432). -/
def State.rampUp (s : State) (c r : Nat) : State :=
  let k := s.rk c r
  if 4 ≤ s.fld (Reg.RNK_CTL c r) Fld.RNK_CTL_UNGATED ∨ s.rankIdle c r = true then s
  else if k.ramping then s.rampGroup c r
  else if max 1 (s.fld Reg.PWR_RAMP_CTL Fld.PWR_RAMP_CTL_MAXRANKS) ≤ s.rampsNow.length then s.rampWait (c * 16 + r)
  else (s.rampStart (c * 16 + r)).rampGroup c r

def execRampUp (c : Fin 64) (r : Fin 13) (s : State) : Host.Outcome State Fault Refusal := .next (s.rampUp c r)

/-- RAMP_DOWN: a rank with no tile in flight gates one lane group more (R81). -/
def State.rampDown (s : State) (c r : Nat) : State :=
  let k := s.rk c r
  let n := s.fld (Reg.RNK_CTL c r) Fld.RNK_CTL_UNGATED
  if n = 0 ∨ s.rankIdle c r = false then s
  else (s.setRk c r { k with ramping := false }).setUngated c r (n - 1)

def execRampDown (c : Fin 64) (r : Fin 13) (s : State) : Host.Outcome State Fault Refusal := .next (s.rampDown c r)

/-- The retired lanes of a map value; none where it violates the entry rules of R95. -/
def skewLanes (v : BitVec 64) : Option (List Nat) :=
  let es := (List.range 4).map (fun e => (v.toNat / 2 ^ (16 * e) % 256, v.toNat / 2 ^ (16 * e + 8) % 2))
  let valid := es.takeWhile (fun e => e.2 == 1)
  let ls := valid.map (·.1)
  if (es.filter (fun e => e.2 == 1)).length = valid.length ∧ ls.all (fun l => decide (l < 132)) ∧ ls.eraseDups.length = ls.length
  then some ls else none

/-- The physical lane of each logical lane under R85. -/
def laneMap (retired : List Nat) : List Nat :=
  let spares := [128, 129, 130, 131].filter (fun p => !retired.contains p)
  (List.range 128).map (fun l =>
    if retired.contains l then spares.getD (retired.filter (fun x => decide (x < l))).length 128 else l)

/-- RNK_SKEW_MAP accepted: RNK_LMAP follows (R87). -/
def State.setSkew (s : State) (c r : Nat) (v : BitVec 64) (retired : List Nat) : State :=
  let m := laneMap retired
  let s := s.writeCodes (Reg.RNK_SKEW_MAP c r) v
  (List.range 16).foldl (fun (s : State) j =>
    s.wr (Reg.RNK_LMAP c r j) (BitVec.ofNat 64 (leNat ((List.range 8).map (fun i => BitVec.ofNat 8 (m.getD (8 * j + i) 0)))))) s

def State.writeSkew (s : State) (c r : Nat) (v : BitVec 64) : State :=
  match skewLanes v with
  | some ls =>
    if s.fld (Reg.RNK_CTL c r) Fld.RNK_CTL_QUIESCED = 1 then s.setSkew c r v ls
    else s.event (Reg.RNK_STATUS c r) Fld.RNK_STATUS_SKEW_ERR (Reg.RNK_SKEW_ERR_CNT c r)
  | none => s.event (Reg.RNK_STATUS c r) Fld.RNK_STATUS_SKEW_ERR (Reg.RNK_SKEW_ERR_CNT c r)

def execRnkSkewMapWrite (by_ : Fin 4) (c : Fin 64) (r : Fin 13) (v : BitVec 64) (s : State) : Host.Outcome State Fault Refusal :=
  .next (if by_ = 0 then s.writeSkew c r v else s)

/-- The logical rank a physical one serves under a map value; 12 where none. -/
def servedBy (v : BitVec 64) (p : Nat) : Nat :=
  ((List.range 12).find? (fun i => v.toNat / 2 ^ (4 * i) % 16 == p)).getD 12

/-- The work of a rank joins another's, under numbers that are free there. -/
def Rank.takeWork (k w : Rank) : Rank :=
  { k with active := k.active ++ w.active.map (fun (a : ActiveMma) => { a with id := a.id + k.nextId })
           tiles := k.tiles ++ w.tiles.map (fun (t : Tile) => { t with mma := t.mma + k.nextId })
           nextId := k.nextId + w.nextId }

/-- The work of logical ranks whose physical rank changes moves with them and replays there (R88); nothing of it stays in the buffers of
the rank it leaves. -/
def State.moveRanks (s : State) (c : Nat) (old new : BitVec 64) : State :=
  let at_ (v : BitVec 64) (i : Nat) : Nat := v.toNat / 2 ^ (4 * i) % 16
  let moved := (List.range 12).filter (fun i => at_ old i != at_ new i)
  let work := moved.map (fun i => (at_ new i, s.rk c (at_ old i)))
  let s := moved.foldl (fun (s : State) i => s.modRk c (at_ old i) (fun k =>
    { k with active := [], tiles := [], shared := 0, priv := [], tap := [], out := [], stopped := false })) s
  work.foldl (fun (s : State) w => s.modRk c w.1 (fun k => k.takeWork w.2)) s

/-- CLU_RANK_MAP_WRITE: accepted only for distinct ranks, every rank whose assignment changes quiesced (R91). -/
def State.writeRankMap (s : State) (c : Nat) (v : BitVec 64) : State :=
  let old := s.rd (Reg.CLU_RANK_MAP c)
  let ps := (List.range 12).map (fun i => v.toNat / 2 ^ (4 * i) % 16)
  let ok := ps.all (fun p => decide (p < 13)) && decide (ps.eraseDups.length = 12)
    && (List.range 13).all (fun p => servedBy old p == servedBy v p || s.fld (Reg.RNK_CTL c p) Fld.RNK_CTL_QUIESCED == 1)
  if !ok then s.event (Reg.CLU_STATUS c) Fld.CLU_STATUS_MAP_ERR (Reg.CLU_MAP_ERR_CNT c)
  else
    let s := s.setFld (Reg.CLU_RANK_MAP c) Fld.CLU_RANK_MAP_MAP (v.toNat % 2 ^ 48)
    let spare := ((List.range 13).find? (fun p => !ps.contains p && s.unitState (unitId 2 (c * 16 + p)) != 3)).getD 15
    (s.setFld (Reg.CLU_RANK_MAP c) Fld.CLU_RANK_MAP_SPARE spare).moveRanks c old v

def execCluRankMapWrite (by_ : Fin 4) (c : Fin 64) (v : BitVec 64) (s : State) : Host.Outcome State Fault Refusal :=
  .next (if by_ = 0 then s.writeRankMap c v else s)

/-! ### Issue, and an instruction run to its end -/

/-- The instructions may stand in one panel group (R186). -/
def QEntry.panelWith (e d : QEntry) : Bool :=
  let same (hi lo : Nat) : Bool := bitsOf e.word hi lo == bitsOf d.word hi lo
  e.op == d.op && e.op != 0x73 && bitsOf e.word 39 36 != 0 && same 39 36 && same 95 88 && same 35 24 && same 67 63 && same 11 0
    && same 62 61 && same 60 59

/-- The instruction's place in the run of rank-port instructions: it joins the group of those before it, or begins a run (R186). -/
def State.joinPanel (s : State) (c : Nat) (e : QEntry) : Bool × State :=
  let k := s.cl c
  let joins := !k.panel.isEmpty && k.panel.all (fun d => e.panelWith d && bitsOf e.word 71 68 != bitsOf d.word 71 68)
    && s.fld (Reg.CLU_CTL c) Fld.CLU_CTL_PANEL_SHARE_EN == 1
  (joins, s.setCl c (if joins then { k with panel := k.panel ++ [e] } else { k with panel := [e], panelNo := k.panelNo + 1 }))

/-- The instruction joins its rank; the conditioner counts the blocks that lose precision (R48, R184, R186). -/
def State.mmaIssue (s : State) (c : Nat) (a : ActiveMma) : State :=
  let r := a.physical s c
  let loss := s.opLoss a a.p a.po (128 * a.f.rowblk) a.rowEnd + s.opLoss a a.q a.qo (a.f.n * a.f.colt) a.colEnd
  let s := if loss = 0 then s else (s.setFld (Reg.CLU_STATUS c) Fld.CLU_STATUS_BPL 1).cntBy (Reg.CLU_BPL_CNT c) loss
  let j := s.joinPanel c a.entry
  let group := if a.f.accrd ∨ bitsOf a.entry.word 39 36 = 0 then 0 else (j.2.cl c).panelNo
  j.2.modRk c r (fun k => { k with active := k.active ++ [{ a with id := k.nextId, panel := group, lead := !j.1 }], nextId := k.nextId + 1 })

/-- The instruction at the head of the rank port with its descriptors as they are now. -/
def State.mmaOf (s : State) (c : Nat) (e : QEntry) : ActiveMma :=
  { id := 0, entry := e, p := s.descOf c e (bitsOf e.word 95 88), q := s.descOf c e (bitsOf e.word 87 80)
    o := s.descOf c e (bitsOf e.word 79 72) }

/-- Every lane takes every K-step that the rank's tiles still want, without slip or error. -/
def State.runLanes (s : State) (c r : Nat) : State :=
  let steps := (s.rk c r).tiles.foldl (fun n (t : Tile) => match (s.rk c r).mmaOf t with
    | some a => n + a.total t.groupLen
    | none => n) 0
  (List.range 128).foldl (fun (s : State) l => (List.range steps).foldl (fun (s : State) _ => s.laneEvent c r l .step 1 1) s) s

/-- A rank's work with no audit, stall or error, to its end: ramp, tiles, lanes, replays, drain, completion. -/
def State.runRank : Nat → State → Nat → Nat → State
  | 0, s, _, _ => s
  | fuel + 1, s, c, r =>
    if (s.rk c r).active.isEmpty then s
    else
      let s := (List.range 4).foldl (fun (s : State) _ => s.rampUp c r) s
      let s := ((s.startTile c r false 0).runLanes c r).wideningReplay c r 0
      let s := s.runLanes c r
      let s := (List.range 80).foldl (fun (s : State) _ => s.drainBlock c r 0 true) s
      let s := (List.range 9).foldl (fun (s : State) _ => s.emissionPass c r 0) s
      State.runRank fuel (s.tileComplete c r) c r

end Sys2Proof.Machine
end

