-- ==== Sys2Proof/Machine/Vector.lean ====
section
/-!
DEFINITION. The vector engine (spec/04_vector_engine.md, spec/06_askeb_reference.md R187 to R190, R208): fields and checks of its
instructions, what each computes per element, row or group, granules and their re-execution.
-/
namespace Sys2Proof.Machine

/-! ### Elements as FP32, exact sums (R100 to R102, R112) -/

/-- An element as FP32: BF16 widened, a block or AQ element rounded once (R102, R120). -/
def State.f32At (s : State) (d : Desc) (e : Nat) : F32 :=
  if d.fmt = 0 then BitVec.ofNat 32 (s.elemCode d e)
  else if d.fmt = 1 then BitVec.ofNat 32 (s.elemCode d e * 2 ^ 16)
  else toFp32 (s.elemNum d e 0) .rne 0

/-- The code of a result written to an FP32 or BF16 element with its one rounding (R102). -/
def Desc.xItem (d : Desc) (e : Nat) (x : Exact) : BitItem :=
  d.elemItem e (if d.fmt = 1 then (x.rounded true).toNat / 2 ^ 16 else (x.rounded false).toNat)

/-- sum_exact of products of pairs in a vector accumulator, with its flags. -/
def sumProducts (ps : List (F32 × F32)) : Num :=
  let t := ps.foldl (fun (t : PairSum) p => t.step (fp32Value p.1) (fp32Value p.2)) ⟨⟨0, 1⟩, false, false, false, false⟩
  if t.q || (t.p && t.m) then .nan else if t.p then .inf false else if t.m then .inf true else .fin t.dot

def sumOf (xs : List F32) : Num := sumProducts (xs.map (fun x => (x, f32One)))

/-- `round` of an exact value; a zero is +0, however it comes about (R58, R59, R112; DEDUCED that `round` of a quotient of sums takes
the same zero, log entry 126). -/
def exactNum (n : Num) : Exact := { v := n, zneg := false, sum := true }

/-- round(s / n). -/
def overN (v : Num) (n : Nat) : Exact := match v with
  | .fin q => exactNum (.fin (q.div (Frac.ofInt n)))
  | x => exactNum x

/-- Mean and variance of R113. -/
def meanVar (xs : List F32) : Exact × Exact :=
  let n := xs.length
  let s1 := sumOf xs
  match s1, sumProducts (xs.map (fun x => (x, x))) with
  | .fin a, .fin b =>
    (overN s1 n, exactNum (.fin ((((Frac.ofInt n).mul b).sub (a.mul a)).div (Frac.ofInt (n * n : Nat)))))
  | _, _ => (overN s1 n, exactNaN)

def f32Of (b : Bool) : F32 := if b then f32One else 0
def f32Pos (x : F32) : Bool := f32Lt 0 x

/-! ### Activations (R107, R109) -/

def cHalf : F32 := 0x3F000000
def cRsqrt2 : F32 := 0x3F3504F3
def cSqrt2Pi : F32 := 0x3F4C422A
def cGelu : F32 := 0x3D372713
def cGelu3 : F32 := 0x3E095D4F
def cRsqrt2Pi : F32 := 0x3ECC422A

/-- f(x) of VACT; its last operation is rounded where it is written. -/
def actX (fn : Nat) (al x : F32) : Exact :=
  if f32IsNaN x then exactNaN
  else match fn with
    | 0 => if f32Pos x then f32X x else exactZero false
    | 1 => if f32Pos x then f32X x else f32MulX al x
    | 2 => f32TanhX x
    | 3 => f32SigmoidX x
    | 4 => if f32Pos x then f32X x else f32MulX al (f32Sub (f32Exp x) f32One)
    | 5 => f32ExpX x
    | 6 => if f32Pos x then f32MulX x x else exactZero false
    | 7 => f32MulX x (f32Sigmoid x)
    | 8 => f32MulX (f32Mul cHalf x) (f32Add f32One (f32Erf (f32Mul x cRsqrt2)))
    | _ => f32MulX (f32Mul cHalf x)
        (f32Add f32One (f32Tanh (f32Mul cSqrt2Pi (f32Fma (f32Mul cGelu x) (f32Mul x x) x))))

/-- d of VDACT from the stored output (`src` 0) or the saved input. -/
def dActOf (fn : Nat) (src : Bool) (al v : F32) : F32 :=
  if f32IsNaN v then f32NaN
  else if src then match fn with
    | 0 => f32Of (f32Pos v)
    | 1 => if f32Pos v then f32One else al
    | 2 => let t := f32Tanh v; f32Fma (f32Negate t) t f32One
    | 3 => let t := f32Sigmoid v; f32Mul t (f32Sub f32One t)
    | 4 => if f32Pos v then f32One else f32Mul al (f32Exp v)
    | 5 => f32Exp v
    | 6 => if f32Pos v then f32Mul 0x40000000 v else 0
    | 7 => let t := f32Sigmoid v; f32Mul t (f32Fma v (f32Sub f32One t) f32One)
    | 8 =>
      let t := f32Erf (f32Mul v cRsqrt2)
      let p := f32Mul (f32Exp (f32Mul (f32Negate cHalf) (f32Mul v v))) cRsqrt2Pi
      f32Fma v p (f32Mul cHalf (f32Add f32One t))
    | _ =>
      let x2 := f32Mul v v
      let th := f32Tanh (f32Mul cSqrt2Pi (f32Fma (f32Mul cGelu v) x2 v))
      let q := f32Mul cSqrt2Pi (f32Fma cGelu3 x2 f32One)
      let r := f32Fma (f32Negate th) th f32One
      f32Fma (f32Mul (f32Mul cHalf v) r) q (f32Mul cHalf (f32Add f32One th))
  else match fn with
    | 0 => f32Of (f32Pos v)
    | 1 => if f32Pos v then f32One else al
    | 2 => f32Fma (f32Negate v) v f32One
    | 3 => f32Mul v (f32Sub f32One v)
    | 4 => if f32Pos v then f32One else f32Add v al
    | 5 => v
    | _ => f32Mul 0x40000000 (f32Sqrt v)

/-- The elementwise operations of R110 but DROPOUT. -/
def ewX (op : Nat) (a b c : F32) : Exact :=
  match op with
  | 0 => f32AddX a b
  | 1 => f32SubX a b
  | 2 => f32MulX a b
  | 3 => f32FmaX a b c
  | 4 => f32X (f32Max a b)
  | 5 => f32X (f32Min a b)
  | 6 => f32X (if f32IsZero c then b else a)
  | 8 => f32X (f32Abs a)
  | _ => f32X (f32Negate a)

/-! ### Fields (R187, R188) -/

def QEntry.imm (e : QEntry) : Nat := bitsOf e.word 55 24
def QEntry.fn (e : QEntry) : Nat := bitsOf e.word 13 0
def QEntry.fnBits (e : QEntry) (hi lo : Nat) : Nat := bitsOf e.word hi lo
def QEntry.vStep (e : QEntry) : Nat := bitsOf e.word 23 19
def QEntry.vMb (e : QEntry) : Nat := bitsOf e.word 18 14

/-- Where bit fields of a word are 0. -/
def zeroAt (w : BitVec 128) (fs : List (Nat × Nat)) : Bool := fs.all (fun f => bitsOf w f.1 f.2 == 0)

/-- What an elementwise operation reads beside a: b, c. -/
def ewUses (op : Nat) : Bool × Bool :=
  match op with
  | 3 => (true, true)
  | 6 => (true, true)
  | 8 => (false, false)
  | 9 => (false, false)
  | _ => (true, false)

/-- A vector instruction uses a reserved code, or sets a field that its form does not use (R174, R188). -/
def vecReserved (w : BitVec 128) : Bool :=
  let op := bitsOf w 127 120
  let f := bitsOf w
  let a := (95, 88)
  let b := (87, 80)
  let c := (79, 72)
  let e := (63, 56)
  let imm := (55, 24)
  let draws := [(23, 19), (18, 14)]
  let fnTop (n : Nat) := (13, n)
  let bad : Bool × List (Nat × Nat) := match op with
    | 0x20 =>
      let o := f 3 0
      let u := ewUses o
      (decide (9 < o) || f 5 4 == 3 || f 7 6 == 3,
        [e, (13, 13)] ++ (if u.1 then (if f 5 4 = 0 then [] else [b]) else [b, (5, 4)])
          ++ (if u.2 then (if f 7 6 = 0 then [] else [c]) else [c, (7, 6)])
          ++ (if f 5 4 = 2 ∨ f 7 6 = 2 then [] else [(12, 8)])
          ++ (if o = 7 ∨ f 5 4 = 1 ∨ f 7 6 = 1 then [] else [imm]) ++ (if o = 7 then [] else draws))
    | 0x21 => (decide (9 < f 3 0), [b, c, fnTop 5] ++ draws ++ (if f 4 4 = 1 then [] else [e])
        ++ (if f 3 0 = 1 ∨ f 3 0 = 4 then [] else [imm]))
    | 0x22 => (decide (9 < f 3 0), [c, e, fnTop 5] ++ draws ++ (if f 3 0 = 1 ∨ f 3 0 = 4 then [] else [imm]))
    | 0x23 => (false, [fnTop 1] ++ draws ++ (if f 0 0 = 1 then [c] else []))
    | 0x24 => (false, [(31, 24), fnTop 3] ++ draws ++ (if f 1 1 = 1 then [] else [(55, 48)])
        ++ (if f 2 2 = 1 then [] else [(47, 32)]) ++ (if f 0 0 = 1 then [(39, 32)] else []))
    | 0x25 => (false, [c, e, fnTop 1] ++ draws ++ (if f 0 0 = 1 then [] else [b]))
    | 0x26 => (false, [c, e, fnTop 0] ++ draws)
    | 0x27 => (decide (5 < f 3 0), [c, imm, fnTop 5] ++ draws ++ (if f 3 0 = 5 then [] else [b])
        ++ (if f 3 0 = 2 then [] else [e]))
    | 0x28 => (decide (2 < f 3 0), [fnTop 6] ++ (if f 3 0 = 0 then [] else [(55, 40)]) ++ (if f 5 5 = 1 then [] else draws))
    | 0x29 => (false, [b, c, e, (55, 32), fnTop 1] ++ (if f 0 0 = 1 then [] else draws))
    | 0x2A => (decide (3 < f 2 0), [c, e, imm, fnTop 4] ++ (if f 2 0 = 3 then [] else [a, b]))
    | _ => (false, [b, c, imm, fnTop 1] ++ draws)
  bad.1 || !zeroAt w bad.2

/-! ### A job and its tensors -/

/-- The job of a vector instruction with its descriptors as they are now: A to E, then the four of IMM. -/
def State.vecOf (s : State) (c : Nat) (e : QEntry) : VecJob :=
  { entry := e
    ds := [(95, 88), (87, 80), (79, 72), (71, 64), (63, 56), (55, 48), (47, 40), (39, 32), (31, 24)].map
      (fun f => s.descOf c e (bitsOf e.word f.1 f.2)) }

def VecJob.d (j : VecJob) (i : Nat) : Desc := j.ds.getD i { raw := 0 }
def VecJob.op (j : VecJob) : Nat := j.entry.op
def VecJob.f (j : VecJob) (hi lo : Nat) : Nat := bitsOf j.entry.word hi lo

/-- The index in the descriptor table of the job's descriptor `i`. -/
def VecJob.dIx (j : VecJob) (i : Nat) : Nat :=
  match [(95, 88), (87, 80), (79, 72), (71, 64), (63, 56), (55, 48), (47, 40), (39, 32), (31, 24)][i]? with
  | some f => j.f f.1 f.2
  | none => 0

def VecJob.sample (j : VecJob) : Bool := j.op == 0x2A && j.f 2 0 == 3

/-- The descriptors read (but dγ and dβ), by their place in the job (R188). -/
def VecJob.reads (j : VecJob) : List Nat :=
  match j.op with
  | 0x20 =>
    let u := ewUses (j.f 3 0)
    [0] ++ (if u.1 && j.f 5 4 == 0 then [1] else []) ++ (if u.2 && j.f 7 6 == 0 then [2] else [])
  | 0x21 => [0]
  | 0x22 => [0, 1]
  | 0x23 => if j.f 0 0 = 0 then [0, 1, 2] else [0, 1]
  | 0x24 => [0, 1, 2, 4] ++ (if j.f 1 1 = 1 then [5] else [])
  | 0x25 => if j.f 0 0 = 1 then [0, 1] else [0]
  | 0x26 => [0, 1]
  | 0x27 => if j.f 3 0 = 5 then [0, 1] else [0]
  | 0x28 => [0, 1, 2] ++ (if j.f 3 0 = 0 then [5] else []) ++ [7]
  | 0x29 => [0]
  | 0x2A => if j.sample then [0, 1] else []
  | _ => [0]

/-- The descriptors written (but dγ and dβ). -/
def VecJob.writes (j : VecJob) : List Nat :=
  match j.op with
  | 0x21 => if j.f 4 4 = 1 then [3, 4] else [3]
  | 0x23 => [3, 4]
  | 0x27 => if j.f 3 0 = 2 then [3, 4] else [3]
  | 0x28 => [3, 4] ++ (if j.f 3 0 = 0 then [6] else []) ++ [8]
  | 0x71 => [3, 4]
  | 0x72 => [3, 4]
  | _ => [3]

/-- dγ and, in MODE 0, dβ of VNORMB: read and written, exempt from R103 (R117). -/
def VecJob.accs (j : VecJob) : List Nat :=
  if j.op = 0x24 ∧ j.f 2 2 = 1 then (if j.f 0 0 = 0 then [6, 7] else [6]) else []

/-- Columns and rows of a tensor read as a matrix (R113). -/
def Desc.cols (d : Desc) : Nat := d.size 0
def Desc.rowsAll (d : Desc) : Nat := d.size 1 * d.size 2 * d.size 3

/-- Row-wise instructions take one row a granule (R104). -/
def VecJob.rowWise (j : VecJob) : Bool :=
  [0x23, 0x24, 0x25, 0x26].contains j.op || (j.op == 0x27 && j.f 4 4 == 0)

/-- The granules of an instruction: 4,096 outputs each where it is not row-wise (R104). DESIGN CHOICE (log entry 97): VRED with AXIS = 1,
ARGMAX, ARGMIN, VRNG and SAMPLE, of which R104 says neither, take 4,096 outputs a granule. -/
def VecJob.granules (j : VecJob) : Nat := if j.rowWise then (j.d 0).rowsAll else ((j.d 3).count + 4095) / 4096

/-! ### Issue checks (R107 to R109, R112, R120, R126, R176, R189, R190) -/

def Desc.isFloat (d : Desc) : Bool := d.fmt == 0 || d.fmt == 1
def Desc.isMoment (d : Desc) : Bool := d.fmt == 0 || d.fmt == 0x0A
def Desc.isParams (d : Desc) : Bool := d.fmt == 0x0F && d.count == 64

/-- The shapes of R189. -/
def VecJob.shapeOk (j : VecJob) : Bool :=
  let d := j.d
  let like (is : List Nat) : Bool := is.all (fun i => (d i).sameShape (d 3))
  let perCol (is : List Nat) : Bool := is.all (fun i => (d i).count == (d 3).cols)
  let stats : Bool := (d 4).count == 2 * (d 3).rowsAll
  let results (axis : Nat) (is : List Nat) : Bool :=
    is.all (fun i => (d i).count == if axis = 0 then (d 0).rowsAll else (d 0).cols)
  match j.op with
  | 0x23 => like [0] && perCol (if j.f 0 0 = 0 then [1, 2] else [1]) && stats
  | 0x24 => like ([0, 1] ++ if j.f 1 1 = 1 then [5] else []) && perCol ([2] ++ j.accs) && stats
  | 0x27 => results (j.f 4 4) j.writes && (j.f 3 0 != 5 || (d 1).sameShape (d 0))
      && decide ((if j.f 4 4 = 0 then (d 0).cols else (d 0).rowsAll) ≤ 2 ^ 24)
  | 0x28 => like ([0, 1, 2, 4] ++ if j.f 3 0 = 0 then [5, 6] else [])
  | 0x2A => !j.sample || ((d 3).count == (d 0).rowsAll && (d 1).count == (d 0).rowsAll)
  | 0x71 => results (j.f 0 0) [3, 4]
  | 0x72 => results (j.f 0 0) [3, 4]
  | _ => like (j.reads ++ j.writes)

/-- The formats of R120 and R189. -/
def VecJob.fmtOk (j : VecJob) : Bool :=
  let d := j.d
  let floats (is : List Nat) : Bool := is.all (fun i => (d i).isFloat)
  let fp32 (is : List Nat) : Bool := is.all (fun i => (d i).fmt == 0)
  match j.op with
  | 0x23 => floats [0, 1, 3] && (j.f 0 0 == 1 || floats [2]) && fp32 [4]
  | 0x24 => floats [0, 1, 2, 3] && (j.f 1 1 == 0 || floats [5]) && fp32 (4 :: j.accs)
  | 0x25 => floats [0, 3] && (j.f 0 0 == 0 || (d 1).fmt == 0x0E)
  | 0x28 => ((d 0).isFloat || (d 0).fmt == 0x0C) && fp32 [1, 3] && (d 2).isMoment && (d 4).isMoment
      && (j.f 3 0 != 0 || ((d 5).isMoment && (d 6).isMoment)) && (d 7).isParams && (d 8).isParams
  | 0x29 =>
    let a := (d 0).fmt
    let o := (d 3).fmt
    if a ≤ 1 then (decide (2 ≤ o) && decide (o ≤ 0x0A)) || (a == 0 && o == 1)
    else if 4 ≤ a ∧ a ≤ 0x0A then o ≤ 1
    else (a == 0x0B || a == 0x0C) && o == 0
  | 0x2A => match j.f 2 0 with
    | 0 => (d 3).fmt == 0x10
    | 3 => (d 3).fmt == 0x0D && (d 0).isFloat && (d 1).fmt == 0x0E
    | _ => (d 3).fmt == 0
  | 0x71 => floats [0, 3] && (d 4).fmt == 0x0D
  | 0x72 => floats [0, 3] && (d 4).fmt == 0x0D
  | _ => floats (j.reads ++ j.writes)

/-- The instruction takes draws (R190). -/
def VecJob.takesDraws (j : VecJob) : Bool :=
  match j.op with
  | 0x20 => j.f 3 0 == 7
  | 0x28 => j.f 5 5 == 1
  | 0x29 => j.f 0 0 == 1
  | 0x2A => true
  | _ => false

/-- 0 < α ≤ 1. -/
def alphaOk (a : F32) : Bool := match fp32Value a with
  | .fin q => (⟨0, 1⟩ : Frac).lt q && q.le ⟨1, 1⟩
  | _ => false

def VecJob.valuesOk (j : VecJob) : Bool :=
  let al : Bool := (j.f 3 0 != 1 && j.f 3 0 != 4) || alphaOk (BitVec.ofNat 32 j.entry.imm)
  (!j.takesDraws || (j.entry.vStep != 0 && j.entry.vMb != 0))
    && match j.op with
      | 0x20 => !(j.f 5 4 == 1 && (j.f 7 6 == 1 || j.f 3 0 == 7))
      | 0x21 => al && (j.f 4 4 == 1 || decide (j.f 3 0 < 7))
      | 0x22 => al && (j.f 4 4 == 1 || decide (j.f 3 0 < 7))
      | 0x29 => fmtFp8 (j.d 3).fmt || j.f 31 24 == 0
      | 0x2A => !j.sample || j.f 3 3 == 1
      | _ => true

/-- The ranges written: for an FP8 conversion its sidecar entries too, one per group of 4,096 elements (R120, R141). -/
def VecJob.writeRanges (j : VecJob) : List (Nat × Nat) :=
  j.writes.flatMap (fun i => (j.d i).ranges)
    ++ (if j.op = 0x29 ∧ fmtFp8 (j.d 3).fmt = true then [((j.d 3).scaleAddr, 4 * j.granules)] else [])

def VecJob.readRanges (j : VecJob) : List (Nat × Nat) := j.reads.flatMap (fun i => (j.d i).ranges)
def VecJob.accRanges (j : VecJob) : List (Nat × Nat) := j.accs.flatMap (fun i => (j.d i).ranges)

/-- The first check of R176, orders 6 to 12, that a vector instruction fails: its code and AUX0. -/
def State.vecCheck (s : State) (c : Nat) (j : VecJob) : Option (Nat × Nat) :=
  let t := s.seqTenant c
  match (j.reads ++ j.writes ++ j.accs).find? (fun i => !(j.d i).valid) with
  | some i => some (0x05, j.dIx i)
  | none =>
    if !j.shapeOk then some (0x08, 0)
    else if !j.fmtOk || !j.valuesOk then some (0x09, 0)
    else if rangesOverlap j.writeRanges j.readRanges then some (0x0A, 0)
    else if !rangesInStage c (j.readRanges ++ j.writeRanges ++ j.accRanges) || !s.rangesOk t .rd (j.readRanges ++ j.accRanges)
        || !s.rangesOk t .wr (j.writeRanges ++ j.accRanges) then some (0x0B, 0)
    else none

/-! ### What a granule reads -/

/-- Pieces of elements `lo` to `lo + n − 1`, with every scale of a block tensor. -/
def Desc.elemPieces (d : Desc) (lo n : Nat) : List (Nat × Nat) :=
  if fmtBlocked d.fmt then d.ranges
  else
    let a := lo * d.bits / 8
    d.chunkPieces a (((lo + n) * d.bits + 7) / 8 - a)

def VecJob.granuleReads (j : VecJob) (g : Nat) : List (Nat × Nat) :=
  let win (i : Nat) : List (Nat × Nat) :=
    let d := j.d i
    if j.rowWise then
      if d.sameShape (j.d 0) then d.elemPieces (g * d.cols) d.cols
      else if i = 4 then d.elemPieces (2 * g) 2 else d.chunkPieces 0 d.elemBytes
    else if d.sameShape (j.d 3) then d.elemPieces (4096 * g) (min 4096 (d.count - 4096 * g))
    else d.chunkPieces 0 d.elemBytes
  (j.reads ++ j.accs).flatMap win

/-! ### What a granule computes -/

def rndMode (rnd : Nat) : Round := if rnd = 1 then .sr else .rne

/-- A draw of the job at an element of tensor `d`. -/
def State.vecDraw (s : State) (j : VecJob) (kind : Nat) (d : Desc) (elem : Nat) : BitVec 64 × BitVec 64 :=
  s.drawOf j.entry.slot kind (j.entry.scal.get 0 j.entry.vStep) (j.entry.scal.get 0 j.entry.vMb) d.layer d.tensor elem

/-- u of stochastic rounding in the vector engine (R68). -/
def State.vecU (s : State) (j : VecJob) (rnd : Nat) (d : Desc) (e : Nat) : Nat :=
  if rnd = 1 then (s.vecDraw j 3 d (d.skip + e)).2.toNat % 2 ^ 32 else 0

/-- A scalar or tensor operand of VEW (R188). -/
def State.ewArg (s : State) (j : VecJob) (src i e : Nat) : F32 :=
  if src = 1 then BitVec.ofNat 32 j.entry.imm
  else if src = 2 then (j.entry.scal.get 0 (j.f 12 8)).setWidth 32
  else s.f32At (j.d i) e

/-- Element `e` of VEW (R110, R111). -/
def State.ewAt (s : State) (j : VecJob) (e : Nat) : Exact :=
  let op := j.f 3 0
  let u := ewUses op
  let a := s.f32At (j.d 0) e
  let b := if u.1 then s.ewArg j (j.f 5 4) 1 e else 0
  let c := if u.2 then s.ewArg j (j.f 7 6) 2 e else 0
  if op = 7 then
    let r := (s.vecDraw j 4 (j.d 0) ((j.d 0).skip + e)).2.toNat % 2 ^ 32
    if j.entry.imm ≤ r then f32MulX a b else exactZero false
  else ewX op a b c

/-- Writes of the elements `es`, each by `f`. -/
def State.eachX (s : State) (c : Nat) (d : Desc) (es : List Nat) (f : Nat → Exact) : State :=
  s.putAll (s.seqTenant c) (es.map (fun e => d.xItem e (f e)))

/-- The elements of granule `g` of an elementwise instruction. -/
def VecJob.els (j : VecJob) (g : Nat) : List Nat :=
  (List.range (min 4096 ((j.d 3).count - 4096 * g))).map (· + 4096 * g)

/-- The element indices of row `r` or column `r` of a tensor (R113). -/
def Desc.line (d : Desc) (axis r : Nat) : List Nat :=
  if axis = 0 then (List.range d.cols).map (· + r * d.cols) else (List.range d.rowsAll).map (· * d.cols + r)

/-- NaN if any is NaN, else the largest (R114). -/
def maxOf : List F32 → F32
  | [] => f32Inf true
  | x :: rest => rest.foldl f32Max x

/-- One result of VRED: the value, and the variance of MEANVAR (R113). -/
def State.redAt (s : State) (j : VecJob) (r : Nat) : Exact × Exact :=
  let es := (j.d 0).line (j.f 4 4) r
  let xs := es.map (s.f32At (j.d 0))
  match j.f 3 0 with
  | 0 => (exactNum (sumOf xs), exactNaN)
  | 1 => (exactNum (sumProducts (xs.map (fun x => (x, x)))), exactNaN)
  | 2 => meanVar xs
  | 3 => (f32X (maxOf xs), exactNaN)
  | 4 => (f32X (maxOf (xs.map f32Abs)), exactNaN)
  | _ => (exactNum (sumProducts (es.map (fun e => (s.f32At (j.d 0) e, s.f32At (j.d 1) e)))), exactNaN)

/-- One row of VNORM (R116). -/
def State.normRow (s : State) (c : Nat) (j : VecJob) (g : Nat) : State :=
  let h := (j.d 0).cols
  let xs := (List.range h).map (fun i => s.f32At (j.d 0) (g * h + i))
  let eps : F32 := BitVec.ofNat 32 j.entry.imm
  let mode := j.f 0 0
  let mv := meanVar xs
  let mu := if mode = 0 then mv.1.rounded false else 0
  let var := if mode = 0 then mv.2.rounded false else (overN (sumProducts (xs.map (fun x => (x, x)))) h).rounded false
  let r := f32Rsqrt (f32Add var eps)
  let y (i : Nat) (x : F32) : Exact :=
    let gm := s.f32At (j.d 1) i
    if mode = 0 then f32FmaX (f32Mul (f32Sub x mu) r) gm (s.f32At (j.d 2) i) else f32MulX (f32Mul x r) gm
  s.putAll (s.seqTenant c) (((List.range h).zip xs).map (fun p => (j.d 3).xItem (g * h + p.1) (y p.1 p.2))
    ++ [(j.d 4).elemItem (2 * g) mu.toNat, (j.d 4).elemItem (2 * g + 1) r.toNat])

/-- One row of VNORMB (R117). -/
def State.normBRow (s : State) (c : Nat) (j : VecJob) (g : Nat) : State :=
  let h := (j.d 0).cols
  let mode := j.f 0 0
  let mu := if mode = 0 then s.f32At (j.d 4) (2 * g) else 0
  let r := s.f32At (j.d 4) (2 * g + 1)
  let col (i : Nat) : F32 × F32 × F32 :=
    let xh := f32Mul (f32Sub (s.f32At (j.d 0) (g * h + i)) mu) r
    let dy := s.f32At (j.d 1) (g * h + i)
    (xh, dy, f32Mul dy (s.f32At (j.d 2) i))
  let cs := (List.range h).map col
  let a := if mode = 0 then (overN (sumOf (cs.map (·.2.2))) h).rounded false else 0
  let b := (overN (sumProducts (cs.map (fun x => (x.2.2, x.1)))) h).rounded false
  let out := ((List.range h).zip cs).map (fun p =>
    let t := f32Fma (f32Negate p.2.1) b (f32Sub p.2.2.2 a)
    (j.d 3).xItem (g * h + p.1) (if j.f 1 1 = 1 then f32FmaX r t (s.f32At (j.d 5) (g * h + p.1)) else f32MulX r t))
  let dg := ((List.range h).zip cs).map (fun p => (j.d 6).xItem p.1 (f32FmaX p.2.2.1 p.2.1 (s.f32At (j.d 6) p.1)))
  let db := ((List.range h).zip cs).map (fun p => (j.d 7).xItem p.1 (f32AddX (s.f32At (j.d 7) p.1) p.2.2.1))
  s.putAll (s.seqTenant c) (out ++ (if j.f 2 2 = 0 then [] else dg ++ (if mode = 0 then db else [])))

/-- One row of VSMAX (R118). -/
def State.smaxRow (s : State) (c : Nat) (j : VecJob) (g : Nat) : State :=
  let h := (j.d 0).cols
  let tau : F32 := BitVec.ofNat 32 j.entry.imm
  let es := (j.d 0).line 0 g
  let zs := es.map (fun e =>
    if j.f 0 0 = 1 ∧ s.elemCode (j.d 1) e = 1 then f32Inf true else f32Mul (s.f32At (j.d 0) e) tau)
  let m := maxOf zs
  if m = f32Inf true then
    let s := s.eachX c (j.d 3) es (fun _ => exactZero false)
    s.event (Reg.VEC_STATUS c) Fld.VEC_STATUS_EMPTYROW (Reg.VEC_EMPTYROW_CNT c)
  else
    let xs := zs.map (fun z => f32Exp (f32Sub z m))
    let sum := (exactNum (sumOf xs)).rounded false
    s.putAll (s.seqTenant c) (((List.range h).zip xs).map (fun p => (j.d 3).xItem (g * h + p.1) (f32DivX p.2 sum)))

/-- One row of VSMAXB (R119). -/
def State.smaxBRow (s : State) (c : Nat) (j : VecJob) (g : Nat) : State :=
  let tau : F32 := BitVec.ofNat 32 j.entry.imm
  let es := (j.d 0).line 0 g
  let ps := es.map (fun e => (s.f32At (j.d 0) e, s.f32At (j.d 1) e))
  let m := (exactNum (sumProducts (ps.map (fun p => (p.2, p.1))))).rounded false
  s.putAll (s.seqTenant c) ((es.zip ps).map (fun p => (j.d 3).xItem p.1 (f32MulX (f32Mul p.2.1 (f32Sub p.2.2 m)) tau)))

/-- Elements that begin a block of a block tensor among `es`, and a block's elements (R82, R142). -/
def Desc.blockStarts (d : Desc) (es : List Nat) : List Nat :=
  es.filter (fun e => if d.orient = 1 then e % 32 == 0 else e / d.size 0 % d.size 1 % 32 == 0)
def Desc.blockEls (d : Desc) (e : Nat) : List Nat := (List.range 32).map (fun i => if d.orient = 1 then e + i else e + i * d.size 0)

/-- One block of values as it is written to a block tensor, and whether BX16 lost precision (R46, R48, R58, R60). -/
def Desc.blockItems (d : Desc) (e : Nat) (vs : List Num) (mode : Round) (us : List Nat) : Bool × List BitItem :=
  let f := (elemFmt d.fmt).getD .bx16
  let b := encodeBlock f vs mode us
  let back := b.2.map (fun x => match blockValue f b.1 x with
    | .fin q => q
    | _ => ⟨0, 1⟩)
  (d.fmt == 0x0A && blockLost vs back, ((d.blockEls e).zip b.2).map (fun p => d.elemItem p.1 p.2) ++ [d.scaleItem e b.1])

/-- Blocks written, and how many of them lost precision. -/
def State.putBlocks (s : State) (tenant : Nat) (bs : List (Bool × List BitItem)) : Nat × State :=
  ((bs.filter (·.1)).length, s.putAll tenant (bs.flatMap (·.2)))

/-- The exponent steps of an FP8 group: the final exponent, steps taken, exhausted (R61). -/
def fp8Steps (f : ElemFmt) (vs : List Num) (mode : Round) (us : List Nat) : Nat → Int → Nat → Int × Nat × Bool
  | 0, m, n => (m, n, fp8Overflows f vs m mode us)
  | k + 1, m, n =>
    if fp8Overflows f vs m mode us then
      if -128 < m then fp8Steps f vs mode us k (m - 1) (n + 1) else (m, n, true)
    else (m, n, false)

/-- One granule of VCONV (R120). -/
def State.convGranule (s : State) (c : Nat) (j : VecJob) (g : Nat) : State :=
  let a := j.d 0
  let d := j.d 3
  let rnd := j.f 0 0
  let mode := rndMode rnd
  let es := j.els g
  if fmtFp8 d.fmt then
    let f := (elemFmt d.fmt).getD .e4m3
    let vs := es.map (fun e => s.elemNum a e 0)
    let us := es.map (s.vecU j rnd a)
    let r := fp8Steps f vs mode us 8 (toSigned 8 (j.f 31 24)) 0
    let s := s.putAll (s.seqTenant c) ((es.zip (fp8Codes f vs r.1 mode us)).map (fun p => d.elemItem p.1 p.2)
      ++ [⟨d.scaleAddr + 4 * g, 0, 32, (sidecarEntry r.1 r.2.1 r.2.2).toNat⟩])
    let s := if r.2.1 = 0 then s
      else (s.setFld (Reg.VEC_STATUS c) Fld.VEC_STATUS_SSTEP 1).cntBy (Reg.VEC_SSTEP_CNT c) r.2.1
    if r.2.2 then s.event (Reg.VEC_STATUS c) Fld.VEC_STATUS_SEXH (Reg.VEC_SEXH_CNT c) else s
  else if fmtBlocked d.fmt then
    let w := s.putBlocks (s.seqTenant c) ((d.blockStarts es).map (fun e =>
      let bs := d.blockEls e
      d.blockItems e (bs.map (fun e => s.elemNum a e 0)) mode (bs.map (s.vecU j rnd a))))
    if w.1 = 0 then w.2 else (w.2.setFld (Reg.VEC_STATUS c) Fld.VEC_STATUS_BPL 1).cntBy (Reg.VEC_BPL_CNT c) w.1
  else
    s.putAll (s.seqTenant c) (es.map (fun e =>
      let v := s.elemNum a e 0
      let u := s.vecU j rnd a e
      d.elemItem e (if d.fmt = 0 then (toFp32 v mode u).toNat else (toBf16 v mode u).toNat)))

/-- The index of the next indexed draw of a slot is taken and advances (R69). -/
def State.nextDraw (s : State) (slot : Nat) : Nat × State :=
  let n := s.fld (Reg.STK_NDI slot) Fld.STK_NDI_NDI
  (n, s.setFld (Reg.STK_NDI slot) Fld.STK_NDI_NDI (n + 1))

/-- A draw of VRNG for element `e` (R121). -/
def State.rngDraw (s : State) (j : VecJob) (e : Nat) : (BitVec 64 × BitVec 64) × State :=
  if j.f 3 3 = 1 then
    let n := s.nextDraw j.entry.slot
    (s.vecDraw j 8 (j.d 3) n.1, n.2)
  else (s.vecDraw j 5 (j.d 3) ((j.d 3).skip + e), s)

def uniformOf (d0 : BitVec 64) : Frac := (Frac.ofInt (d0.toNat % 2 ^ 32 / 2 ^ 8 : Nat)).shift (-24)

/-- NORMAL of R121. -/
def normalOf (d1 d0 : BitVec 64) : F32 :=
  let u1 := toFp32 (.fin ((Frac.ofInt (d0.toNat / 2 ^ 40 + 1 : Nat)).shift (-24))) .rne 0
  let u2 := toFp32 (.fin ((Frac.ofInt (d1.toNat / 2 ^ 40 : Nat)).shift (-24))) .rne 0
  f32Mul (f32Sqrt (f32Mul 0xC0000000 (f32Log u1))) (f32CosPi (f32Mul 0x40000000 u2))

/-- The smallest index whose running sum exceeds the threshold. -/
def sampleIx (limit : Frac) : Nat → Frac → List Frac → Nat
  | i, _, [] => i
  | i, acc, w :: rest => if limit.lt (acc.add w) then i else sampleIx limit (i + 1) (acc.add w) rest

/-- SAMPLE of one row (R122). -/
def State.sampleRow (s : State) (j : VecJob) (r : Nat) : Int × State :=
  if s.elemCode (j.d 1) r = 0 then (-1, s)
  else
    let x := s.rngDraw j r
    let ws := ((j.d 0).line 0 r).map (s.f32At (j.d 0))
    let fs := ws.map f32Frac
    let total := Frac.sum fs
    if !ws.all f32IsFinite || total.isZero then (-2, x.2)
    else (sampleIx ((uniformOf x.1.2).mul total) 0 ⟨0, 1⟩ fs, x.2)

/-- The code of element `e` of VRNG. -/
def State.rngAt (s : State) (j : VecJob) (e : Nat) : Nat × State :=
  if j.sample then
    let x := s.sampleRow j e
    (ofSigned 32 x.1, x.2)
  else
    let x := s.rngDraw j e
    (match j.f 2 0 with
      | 0 => x.1.2.toNat + x.1.1.toNat * 2 ^ 64
      | 1 => (toFp32 (.fin (uniformOf x.1.2)) .rne 0).toNat
      | _ => (normalOf x.1.1 x.1.2).toNat, x.2)

/-- Elements of VRNG in ascending order, each with its draw. -/
def State.rngEls (s : State) (j : VecJob) : List Nat → List BitItem × State
  | [] => ([], s)
  | e :: rest =>
    let x := s.rngAt j e
    let r := x.2.rngEls j rest
    ((j.d 3).elemItem e x.1 :: r.1, r.2)

/-- The winner of ARGMAX or ARGMIN and its index: the first NaN, else the extreme, ties to the lowest (R115). -/
def argBest (lower : Bool) : Nat → List F32 → Option (F32 × Nat) → F32 × Nat
  | _, [], best => best.getD (f32NaN, 0)
  | i, x :: rest, none => argBest lower (i + 1) rest (some (x, i))
  | i, x :: rest, some b =>
    let wins : Bool := !f32IsNaN b.1 && (f32IsNaN x || (if lower then f32Lt x b.1 else f32Lt b.1 x))
    argBest lower (i + 1) rest (some (if wins then (x, i) else b))

def State.argAt (s : State) (j : VecJob) (r : Nat) : List BitItem :=
  let xs := ((j.d 0).line (j.f 0 0) r).map (s.f32At (j.d 0))
  let b := argBest (j.op == 0x72) 0 xs none
  [(j.d 3).xItem r (f32X b.1), (j.d 4).elemItem r b.2]

/-! ### The optimiser (R123 to R127) -/

/-- A parameter of the block read, as FP32. -/
def State.optParam (s : State) (j : VecJob) (off : Nat) : F32 :=
  BitVec.ofNat 32 ((List.range 4).foldl (fun n i => n + s.elemCode (j.d 7) (off + i) * 2 ^ (8 * i)) 0)

/-- w2, m2 and v2 of element `e` (R125). -/
def State.optAt (s : State) (j : VecJob) (e : Nat) : Exact × F32 × F32 :=
  let lr := s.optParam j 0x00
  let b1 := s.optParam j 0x04
  let b2 := s.optParam j 0x08
  let wd := s.optParam j 0x10
  let omb1 := f32Sub f32One b1
  let omb2 := f32Sub f32One b2
  let g := f32Mul (s.f32At (j.d 0) e) (s.optParam j 0x14)
  let w := s.f32At (j.d 1) e
  let m := s.f32At (j.d 2) e
  match j.f 3 0 with
  | 0 =>
    let v := s.f32At (j.d 5) e
    let c1 := f32Recip (f32Sub f32One (f32Mul (s.optParam j 0x18) b1))
    let c2 := f32Recip (f32Sub f32One (f32Mul (s.optParam j 0x1C) b2))
    let m2 := f32Fma b1 m (f32Mul omb1 g)
    let v2 := f32Fma b2 v (f32Mul omb2 (f32Mul g g))
    let den := f32Add (f32Sqrt (f32Mul v2 c2)) (s.optParam j 0x0C)
    let upd := f32Fma wd w (f32Div (f32Mul m2 c1) den)
    (f32FmaX (f32Negate lr) upd w, m2, v2)
  | 1 =>
    let m2 := f32Fma b1 m g
    (f32FmaX (f32Negate lr) (f32Fma wd w m2) w, m2, 0)
  | _ =>
    let c := f32Fma b1 m (f32Mul omb1 g)
    let sg : F32 := if f32IsNaN c then f32NaN else if f32Pos c then f32One else if f32Lt c 0 then 0xBF800000 else 0
    (f32FmaX (f32Negate lr) (f32Fma wd w sg) w, f32Fma b2 m (f32Mul omb2 g), 0)

/-- A moment tensor's share of a granule: FP32, or the BX16 blocks that begin in it (R126). -/
def State.momentItems (s : State) (j : VecJob) (d : Desc) (es : List Nat) (f : Nat → F32) : List BitItem :=
  if d.fmt = 0 then es.map (fun e => d.xItem e (f32X (f e)))
  else
    let rnd := j.f 5 5
    (d.blockStarts es).flatMap (fun e =>
      let bs := d.blockEls e
      (d.blockItems e (bs.map (fun e => fp32Value (f e))) (rndMode rnd) (bs.map (s.vecU j rnd d))).2)

/-- The parameter block written: the copied fields, and with LAST the advanced powers and STEP (R124). -/
def State.paramItems (s : State) (j : VecJob) : List BitItem :=
  let code (i : Nat) : Nat := s.elemCode (j.d 7) i
  let b1p := (f32Mul (s.optParam j 0x18) (s.optParam j 0x04)).toNat
  let b2p := (f32Mul (s.optParam j 0x1C) (s.optParam j 0x08)).toNat
  let step := (s.optParam j 0x20).toNat + 1
  let adv := leBytes 4 b1p ++ leBytes 4 b2p ++ leBytes 4 step
  (List.range 64).filterMap (fun i =>
    if 0x18 ≤ i ∧ i < 0x24 then (if j.f 4 4 = 1 then some ((j.d 8).elemItem i (adv.getD (i - 0x18) 0).toNat) else none)
    else some ((j.d 8).elemItem i (code i)))

def State.optGranule (s : State) (c : Nat) (j : VecJob) (g : Nat) : State :=
  let es := j.els g
  let r := s.optAt j
  let bad := (es.filter (fun e => !f32IsFinite ((r e).1.rounded false))).length
  let s := s.putAll (s.seqTenant c) (es.map (fun e => (j.d 3).xItem e (r e).1) ++ s.momentItems j (j.d 4) es (fun e => (r e).2.1)
    ++ (if j.f 3 0 = 0 then s.momentItems j (j.d 6) es (fun e => (r e).2.2) else [])
    ++ (if g + 1 = j.granules then s.paramItems j else []))
  if bad = 0 then s
  else (s.setFld (Reg.VEC_STATUS c) Fld.VEC_STATUS_NONFINITE 1).cntBy (Reg.VEC_NONFINITE_CNT c) bad

/-! ### Granules (R104, R137, R446, R447) -/

/-- The effect of granule `g`. -/
def State.vecEffect (s : State) (c : Nat) (j : VecJob) (g : Nat) : State :=
  let es := j.els g
  match j.op with
  | 0x20 => s.eachX c (j.d 3) es (s.ewAt j)
  | 0x21 =>
    let al : F32 := BitVec.ofNat 32 j.entry.imm
    let s' := s.eachX c (j.d 3) es (fun e => actX (j.f 3 0) al (s.f32At (j.d 0) e))
    if j.f 4 4 = 1 then s'.eachX c (j.d 4) es (fun e => f32X (s.f32At (j.d 0) e)) else s'
  | 0x22 =>
    let al : F32 := BitVec.ofNat 32 j.entry.imm
    s.eachX c (j.d 3) es (fun e => f32MulX (s.f32At (j.d 0) e) (dActOf (j.f 3 0) (j.f 4 4 == 1) al (s.f32At (j.d 1) e)))
  | 0x23 => s.normRow c j g
  | 0x24 => s.normBRow c j g
  | 0x25 => s.smaxRow c j g
  | 0x26 => s.smaxBRow c j g
  | 0x27 =>
    let rs := if j.rowWise then [g] else es
    let s' := s.eachX c (j.d 3) rs (fun r => (s.redAt j r).1)
    if j.f 3 0 = 2 then s'.eachX c (j.d 4) rs (fun r => (s.redAt j r).2) else s'
  | 0x28 => s.optGranule c j g
  | 0x29 => s.convGranule c j g
  | 0x2A =>
    let r := s.rngEls j es
    r.2.putAll (s.seqTenant c) r.1
  | _ => s.putAll (s.seqTenant c) (es.flatMap (s.argAt j))

def State.setVec (s : State) (c : Nat) (j : Option VecJob) : State := s.modCl c (fun k => { k with vec := j })

/-- The lane operations of a granule: one per element of its result, or of its row (R420; DESIGN CHOICE, log entry 140). -/
def VecJob.laneOps (j : VecJob) (g : Nat) : Nat := if j.rowWise then (j.d 0).cols else (j.els g).length

/-- The current granule is written; after the last the instruction completes and signals. -/
def State.vecRun (s : State) (c : Nat) (j : VecJob) : State :=
  let s := ((s.vecEffect c j j.granule).bumpClu c 0x0C 0 1).spendBy (s.seqTenant c) 3 (j.laneOps j.granule)
  if j.granule + 1 < j.granules then s.setVec c (some { j with granule := j.granule + 1, fails := 0, waiting := false })
  else ((s.setVec c none).cnt (Reg.VEC_OP_CNT c)).signalHeader c portVector j.entry 1

/-- A detected error of the current granule; the third declares it lost. -/
def State.vecFail (s : State) (c : Nat) (j : VecJob) (waiting : Bool) : State :=
  let s := s.setVec c (some { j with fails := j.fails + 1, waiting := waiting })
  if 3 ≤ j.fails + 1 then s.lostData (s.seqTenant c) else s

/-- One execution of the current granule, on which the error `err` strikes, or a residue check fails. -/
def State.vecGranule (s : State) (c : Nat) (j : VecJob) (residue : Bool) (err : MemErr) : State :=
  let s := s.meet err (s.seqTenant c)
  match s.readPieces (j.granuleReads j.granule) with
  | (.detected h a, s) => (s.chargeMem h a (s.seqTenant c)).vecFail c j false
  | (.ok _, s) =>
    if residue then (s.charge 2 (unitId 4 c) (s.seqTenant c) 0).vecFail c j true else s.vecRun c j

/-- VEC_GRANULE: the running instruction's next granule, after the core cycles it waited for stage memory (R104, R105). -/
def execVecGranule (c : Fin 64) (residue : Bool) (waited : Nat) (err : MemErr) (s : State) : Host.Outcome State Fault Refusal :=
  .next (match (s.cl c).vec with
    | some j =>
      if j.waiting || s.stopped then s
      else (if waited = 0 then s else (s.cntBy (Reg.VEC_PORT_WAIT_CNT c) waited).bumpClu c 0x0D 0 waited).vecGranule c j residue err
    | none => s)

/-- VEC_GRANULE_REEXEC: the failed granule runs again once its unit's targeted test has ended; it may meet an error again (R446). -/
def execVecGranuleReexec (c : Fin 64) (residue : Bool) (err : MemErr) (s : State) : Host.Outcome State Fault Refusal :=
  .next (match (s.cl c).vec with
    | some j =>
      if !j.waiting || s.testing (unitId 4 c) || s.stopped then s
      else (s.cnt (Reg.VEC_GRANULE_REEXEC_CNT c)).vecGranule c { j with waiting := false } residue err
    | none => s)

/-- The whole of a vector instruction, without errors. -/
def State.vecRunAll : Nat → State → Nat → State
  | 0, s, _ => s
  | n + 1, s, c => match (s.cl c).vec with
    | some j => State.vecRunAll n (s.vecGranule c j false .none) c
    | none => s

end Sys2Proof.Machine
end

