-- ==== Sys2Proof/Machine/Conditioner.lean ====
section
/-!
DEFINITION. The operand conditioner as MOV.C runs it (spec/03_ranks.md R82, spec/06_askeb_reference.md R192).
-/
namespace Sys2Proof.Machine

/-- The job of a MOV.C with its descriptors as they are now. -/
def State.condOf (s : State) (c : Nat) (e : QEntry) : CondJob :=
  { entry := e, src := s.descOf c e (bitsOf e.word 95 88), row := s.descOf c e (bitsOf e.word 87 80)
    col := s.descOf c e (bitsOf e.word 79 72) }

def CondJob.rowEn (j : CondJob) : Bool := bitsOf j.entry.word 71 71 == 1
def CondJob.colEn (j : CondJob) : Bool := bitsOf j.entry.word 70 70 == 1
def CondJob.rnd (j : CondJob) : Nat := bitsOf j.entry.word 69 69

/-- Reserved fields of MOV.C (R174, R192). -/
def condReserved (w : BitVec 128) : Bool :=
  let f := bitsOf w
  !zeroAt w ([(58, 0)] ++ (if f 71 71 = 1 then [] else [(87, 80)]) ++ (if f 70 70 = 1 then [] else [(79, 72)])
    ++ (if f 69 69 = 1 then [] else [(68, 59)]))

/-- The enabled destinations: descriptor, its index in the table, the orientation of its role, its draw kind (R68). -/
def CondJob.dests (j : CondJob) : List (Desc × Nat × Nat × Nat) :=
  (if j.rowEn then [(j.row, bitsOf j.entry.word 87 80, 1, 1)] else [])
    ++ (if j.colEn then [(j.col, bitsOf j.entry.word 79 72, 2, 2)] else [])

def roundUp32 (n : Nat) : Nat := (n + 31) / 32 * 32

/-- The extents of R192: the blocked dimension rounded up, the others the source's. -/
def Desc.paddedFrom (d src : Desc) (orient : Nat) : Bool :=
  d.size 0 == (if orient = 1 then roundUp32 (src.size 0) else src.size 0)
    && d.size 1 == (if orient = 2 then roundUp32 (src.size 1) else src.size 1)
    && d.size 2 == src.size 2 && d.size 3 == src.size 3

/-- The first check of R176, orders 6 to 12, that MOV.C fails. -/
def State.condCheck (s : State) (c : Nat) (j : CondJob) : Option (Nat × Nat) :=
  let t := s.seqTenant c
  let ws := j.dests.flatMap (fun x => x.1.ranges)
  match ((j.src, bitsOf j.entry.word 95 88, 0, 0) :: j.dests).find? (fun x => !x.1.valid) with
  | some x => some (0x05, x.2.1)
  | none =>
    if !j.dests.all (fun x => x.1.paddedFrom j.src x.2.2.1) then some (0x08, 0)
    else if j.dests.isEmpty || !j.src.isFloat
        || !j.dests.all (fun x => decide (4 ≤ x.1.fmt) && decide (x.1.fmt ≤ 0x0A) && x.1.orient == x.2.2.1) then some (0x09, 0)
    else if rangesOverlap ws j.src.ranges then some (0x0A, 0)
    else if !rangesInStage c (j.src.ranges ++ ws) || !s.rangesOk t .rd j.src.ranges || !s.rangesOk t .wr ws then some (0x0B, 0)
    else none

/-- A conditioned MMA at the head of the rank port wants the conditioner, and reached its head before, or in the same core cycle (R184). -/
def State.mmaFirst (s : State) (c : Nat) : Bool :=
  match (s.cl c).rankQ with
  | e :: _ => e.op != 0x73 && bitsOf e.word 60 59 != 0 && e.pred && s.headerOk c e.wait
      && decide ((s.cl c).headAt.get 0 portRank ≤ (s.cl c).headAt.get 0 portMover)
  | [] => false

/-- The conditioner takes the MOV.C unless it is busy or TESTING, or an MMA comes first (R184, R453). -/
def State.condRoom (s : State) (c : Nat) : Bool := !s.condBusy c && !s.testing (unitId 5 c) && !s.mmaFirst c

/-- The source element behind destination element `e`; none in the padding. -/
def padSource (src d : Desc) (e : Nat) : Option Nat :=
  let i0 := e % d.size 0
  let i1 := e / d.size 0 % d.size 1
  let o := e / d.size 0 / d.size 1
  if i0 < src.size 0 ∧ i1 < src.size 1 then some ((o * src.size 1 + i1) * src.size 0 + i0) else none

/-- One destination written, block by block, the padding zero (R46, R48, R82). -/
def State.condWrite (s : State) (c : Nat) (j : CondJob) (d : Desc) (kind : Nat) : State :=
  let e0 := j.entry
  let step := e0.scal.get 0 (bitsOf e0.word 68 64)
  let mb := e0.scal.get 0 (bitsOf e0.word 63 59)
  let u (x : Nat) : Nat :=
    if j.rnd = 1 then s.drawU e0.slot kind step mb j.src.layer j.src.tensor (j.src.skip + x) else 0
  let w := s.putBlocks (s.seqTenant c) ((d.blockStarts (List.range d.count)).map (fun e =>
    let xs := (d.blockEls e).map (padSource j.src d)
    let vs := xs.map (fun x => match x with
      | some i => s.elemNum j.src i 0
      | none => .fin ⟨0, 1⟩)
    d.blockItems e vs (rndMode j.rnd) (xs.map (fun x => (x.map u).getD 0))))
  if w.1 = 0 then w.2 else (w.2.setFld (Reg.CLU_STATUS c) Fld.CLU_STATUS_BPL 1).cntBy (Reg.CLU_BPL_CNT c) w.1

/-- CONDITIONER_PASS_END: the pass ends; a detected error of its source, or a failed residue check, has it run again from its
source, the third loses it (R445 to R447). -/
def State.condEnd (s : State) (c : Nat) (j : CondJob) (residue : Bool) (err : MemErr) : State :=
  let t := s.seqTenant c
  let s := s.meet err t
  let fail (s : State) (waiting : Bool) : State :=
    let s := s.modCl c (fun k => { k with cond := some { j with fails := j.fails + 1, waiting := waiting } })
    if 3 ≤ j.fails + 1 then s.lostData t else s
  match s.readPieces (j.src.chunkPieces 0 j.src.total) with
  | (.detected h a, s) => fail (s.chargeMem h a t) false
  | (.ok _, s) =>
    if residue then fail (s.charge 3 (unitId 5 c) t 0) true
    else
      let s := s.spend 4 (j.src.count * j.dests.length)
      let s := j.dests.foldl (fun (s : State) x => s.condWrite c j x.1 x.2.2.2) s
      (s.modCl c (fun k => { k with cond := none })).signalHeader c portMover j.entry 1

def execConditionerPassEnd (c : Fin 64) (residue : Bool) (err : MemErr) (s : State) : Host.Outcome State Fault Refusal :=
  .next (match (s.cl c).cond with
    | some j => if j.waiting && s.testing (unitId 5 c) then s else s.condEnd c j residue err
    | none => s)

end Sys2Proof.Machine
end

