-- ==== Sys2Proof/Machine/Memory.lean ====
section
/-!
DEFINITION. HBM and the region tables as commands reach them (spec/07_memory.md): region and reserve writes, withholding and
retiring pseudo-channels, refresh.
-/
namespace Sys2Proof.Machine

/-! ### Region tables (R227 to R231, R247, R248, R251) -/

def State.regionError (s : State) : State := s.event Reg.MEM_RGN_STATUS Fld.MEM_RGN_STATUS_RGN_ERR Reg.MEM_RGN_ERR_CNT

/-- Whether the permissions of an entry are allowed by its range (R210) and its owner (R229). -/
def permsAllowed (t owner : Nat) (p : Place) (rd wr xs fl : Bool) : Bool :=
  (match p with
    | .hbm => true
    | .stage _ _ => !xs
    | .reg _ => !xs && !fl && t == 0
    | .host _ _ => !xs && !fl
    | .none => !rd && !wr && !xs && !fl)
  && (t == 0 || owner == t || (!wr && !xs && !fl))

/-- An entry of tenant `t`'s table breaks nothing of R230. -/
def State.entryOk (s : State) (t : Nat) (w0 w1 : BitVec 64) : Bool :=
  let base := getField w0 Fld.MEM_RGN_W0_BASE
  let limit := getField w1 Fld.MEM_RGN_W1_LIMIT
  let owner := getField w0 Fld.MEM_RGN_W0_OWNER
  let bit (f : Field) : Bool := getField w0 f == 1
  base % 64 == 0 && limit % 64 == 63 && decide (base ≤ limit) && s.onePlace base (limit + 1 - base)
    && (s.place base != .hbm || decide (limit < s.ceiling))
    && permsAllowed t owner (s.place base) (bit Fld.MEM_RGN_W0_RD) (bit Fld.MEM_RGN_W0_WR) (bit Fld.MEM_RGN_W0_XS)
        (bit Fld.MEM_RGN_W0_FL)
    && [0, 1, 2, 3].all (fun u => u == t || (s.regions u).all (fun e =>
        getField e.1 Fld.MEM_RGN_W0_OWNER == owner
          || !overlaps base (limit + 1 - base) (getField e.1 Fld.MEM_RGN_W0_BASE) (e.2 + 1 - getField e.1 Fld.MEM_RGN_W0_BASE)))

/-- A write of W0: always accepted with VALID = 0, else checked with the W1 held (R230, R251). -/
def State.writeRgnW0 (s : State) (t i : Nat) (v : BitVec 64) : State :=
  let off := Reg.MEM_RGN_W0 t i
  if getField v Fld.MEM_RGN_W0_VALID = 1 ∧ !s.entryOk t v (s.rd (Reg.MEM_RGN_W1 t i)) then s.regionError
  else s.writeCodes off v

/-- A write of W1: checked with the W0 held while that is valid (R251). -/
def State.writeRgnW1 (s : State) (t i : Nat) (v : BitVec 64) : State :=
  let w0 := s.rd (Reg.MEM_RGN_W0 t i)
  if getField w0 Fld.MEM_RGN_W0_VALID = 1 ∧ !s.entryOk t w0 v then s.regionError
  else s.writeCodes (Reg.MEM_RGN_W1 t i) v

def execMemRgnW0Write (by_ : Fin 4) (t : Fin 4) (i : Fin 256) (v : BitVec 64) (s : State) : Host.Outcome State Fault Refusal :=
  .next (if by_ = 0 then s.writeRgnW0 t i v else s)

def execMemRgnW1Write (by_ : Fin 4) (t : Fin 4) (i : Fin 256) (v : BitVec 64) (s : State) : Host.Outcome State Fault Refusal :=
  .next (if by_ = 0 then s.writeRgnW1 t i v else s)

/-- The first DPA that no region may reach for a reserve and a number of retired pseudo-channels (R219). -/
def ceilingOf (count j : Nat) : Nat := (512 - max (min 16 count) j) * 0x60000000

/-- Some valid HBM region of any table reaches at or above `top`. -/
def State.regionAbove (s : State) (top : Nat) : Bool :=
  [0, 1, 2, 3].any (fun t => (s.regions t).any (fun e =>
    s.place (getField e.1 Fld.MEM_RGN_W0_BASE) == .hbm && decide (top ≤ e.2)))

/-- MEM_RSV: a write that would put a valid region at or above the new ceiling is ignored with RGN_ERR (R247). -/
def State.writeRsv (s : State) (v : BitVec 64) : State :=
  let j := s.fld Reg.MEM_REMAP_STATUS Fld.MEM_REMAP_STATUS_J
  let count := if s.fld Reg.MEM_RSV Fld.MEM_RSV_LOCK = 1 then s.fld Reg.MEM_RSV Fld.MEM_RSV_COUNT
    else getField v Fld.MEM_RSV_COUNT
  if s.regionAbove (ceilingOf count j) then s.regionError else s.writeCodes Reg.MEM_RSV v

def execMemRsvWrite (by_ : Fin 4) (v : BitVec 32) (s : State) : Host.Outcome State Fault Refusal :=
  .next (if by_ = 0 then s.writeRsv (v.setWidth 64) else s)

/-! ### Withholding and retiring (R219 to R222, R244, R245) -/

def State.pcRetired (s : State) (p : Nat) : Bool := s.fld (Reg.MEM_PC_RETIRED (p % 8)) (bitField (p / 8)) == 1

/-- Pseudo-channel `p` is withheld (R220). -/
def State.withhold (s : State) (p : Nat) : State :=
  if s.pcRetired p then s else s.setFld (Reg.MEM_PC_WITHHELD (p % 8)) (bitField (p / 8)) 1

def execMemWithhold (by_ : Fin 4) (p : Fin 512) (s : State) : Host.Outcome State Fault Refusal :=
  .next (if by_ = 0 then (s.setFld Reg.MEM_REMAP_CTL Fld.MEM_REMAP_CTL_PC p).withhold p else s)

/-- No mover, started prefetch entry, storage drain or twin push is active. -/
def State.copiesIdle (s : State) : Bool :=
  s.movers.all (fun e => e.2.state != 1) && s.movReqs.isEmpty && s.push.isNone
    && (List.range 8).all (fun k => s.fld (Reg.MEM_DRAIN_STATUS k) Fld.MEM_DRAIN_STATUS_STATE != 1)

/-- Whether a commit of `p` is accepted (R221). -/
def State.commitOk (s : State) (p : Nat) : Bool :=
  let j := s.fld Reg.MEM_REMAP_STATUS Fld.MEM_REMAP_STATUS_J
  s.withheld p && !s.pcRetired p && decide (j < 64) && s.commitPc.isNone
    && (List.range 64).all (fun c => s.seqState c != 1 && s.seqState c != 5) && s.copiesIdle
    && !s.regionAbove (ceilingOf (s.fld Reg.MEM_RSV Fld.MEM_RSV_COUNT) (j + 1))

/-- A COMMIT, alone or with WITHHOLD in the same write, which is rejected (R221, R244). -/
def State.commit (s : State) (p : Nat) (alsoWithhold : Bool) : State :=
  let s := s.setFld Reg.MEM_REMAP_CTL Fld.MEM_REMAP_CTL_PC p
  if alsoWithhold ∨ !s.commitOk p then
    s.event Reg.MEM_REMAP_STATUS Fld.MEM_REMAP_STATUS_REJECT Reg.MEM_REMAP_REJ_CNT
  else { s with commitPc := some p }.setFld Reg.MEM_REMAP_STATUS Fld.MEM_REMAP_STATUS_BUSY 1

/-- How many granules of the space that stays visible a commit of `p` loses, with `x` retired before it (R222): one per visible
stripe, and the displaced ones whose home was on `p`. -/
def lostGranules (x : List Nat) (p : Nat) : Nat :=
  let j := x.length
  let stripes := 768 * (511 - j)
  let ix := (((List.range 512).filter (fun q => !x.contains q)).takeWhile (· ≠ p)).length
  let m := stripes * j
  stripes + m / (512 - j) + (if ix < m % (512 - j) then 1 else 0)

/-- COMMIT_PASS_END: the map changes, the lost granules read as detected errors until rewritten, MEM_TOP falls (R222). -/
def State.commitEnd (s : State) : State :=
  match s.commitPc with
  | none => s
  | some p =>
    let x := s.retired
    let j := x.length + 1
    let s := s.cntBy Reg.MEM_LOST_CNT (lostGranules x p)
    let s := { s with commits := s.commits ++ [Commit.mk p x []], commitPc := none }
    let s := s.setFld Reg.MEM_TOP Fld.MEM_TOP_TOP ((512 - j) * 0x60000000)
    let s := s.setFld (Reg.MEM_PC_WITHHELD (p % 8)) (bitField (p / 8)) 0
    let s := s.setFld (Reg.MEM_PC_RETIRED (p % 8)) (bitField (p / 8)) 1
    (s.setFld Reg.MEM_REMAP_STATUS Fld.MEM_REMAP_STATUS_J j).setFld Reg.MEM_REMAP_STATUS Fld.MEM_REMAP_STATUS_BUSY 0

/-- HBM_REFRESH: a per-bank refresh keeps every byte; the controller's timing is not modelled (R212). -/
def execHbmRefresh (_p : Fin 512) (_bank : Nat) (s : State) : Host.Outcome State Fault Refusal := .next s

end Sys2Proof.Machine
end

