-- ==== Sys2Proof/Machine/Sm2.lean ====
section
/-!
DEFINITION. SM2 signatures (R163, R547, R552, R554): the curve, scalar multiplication, signing and verification with the default
distinguishing identifier. The constants are those of the SM2 standard, which spec/17_bringup_and_trust.md names and does not repeat
(PRESUMED, log entry 3).
-/
namespace Sys2Proof

def sm2P : Nat := 0xFFFFFFFEFFFFFFFFFFFFFFFFFFFFFFFFFFFFFFFF00000000FFFFFFFFFFFFFFFF
def sm2B : Nat := 0x28E9FA9E9D9F5E344D5A9E4BCF6509A7F39789F515AB8F92DDBCBD414D940E93
def sm2N : Nat := 0xFFFFFFFEFFFFFFFFFFFFFFFFFFFFFFFF7203DF6B21C6052B53BBF40939D54123
def sm2Gx : Nat := 0x32C4AE2C1F1981195F9904466A39C9948FE30BBFF2660BE1715A4589334C74C7
def sm2Gy : Nat := 0xBC3736A2F4F6779C59BDCEE36B692153D0A9877CC62A474002DF32E52139F0A0

/-- `b ^ e` modulo `m`, the exponent taken bit by bit. -/
def powMod (m : Nat) : Nat → Nat → Nat → Nat
  | 0, _, _ => 1 % m
  | k + 1, b, e =>
    let r := powMod m k (b * b % m) (e / 2)
    if e % 2 = 1 then r * b % m else r

/-- The inverse modulo a prime below 2^256. -/
def invMod (m a : Nat) : Nat := powMod m 256 (a % m) (m - 2)

def subMod (m a b : Nat) : Nat := (a + (m - b % m)) % m

/-- A point in Jacobian coordinates; `z = 0` is the point at infinity. -/
structure EcPoint where
  x : Nat
  y : Nat
  z : Nat
  deriving DecidableEq, Repr

def EcPoint.zero : EcPoint := ⟨1, 1, 0⟩

def EcPoint.double (p : EcPoint) : EcPoint :=
  if p.z = 0 ∨ p.y = 0 then EcPoint.zero
  else
    let m := sm2P
    let dl := p.z * p.z % m
    let gm := p.y * p.y % m
    let bt := p.x * gm % m
    let al := 3 * subMod m p.x dl * (p.x + dl) % m
    let x := subMod m (al * al) (8 * bt)
    let z := subMod m ((p.y + p.z) * (p.y + p.z)) (gm + dl)
    ⟨x, subMod m (al * subMod m (4 * bt) x) (8 * gm * gm), z⟩

def EcPoint.add (p q : EcPoint) : EcPoint :=
  if p.z = 0 then q
  else if q.z = 0 then p
  else
    let m := sm2P
    let z1 := p.z * p.z % m
    let z2 := q.z * q.z % m
    let u1 := p.x * z2 % m
    let u2 := q.x * z1 % m
    let s1 := p.y * z2 * q.z % m
    let s2 := q.y * z1 * p.z % m
    if u1 = u2 then (if s1 = s2 then p.double else EcPoint.zero)
    else
      let h := subMod m u2 u1
      let r := subMod m s2 s1
      let hh := h * h % m
      let hhh := h * hh % m
      let v := u1 * hh % m
      let x := subMod m (r * r) (hhh + 2 * v)
      ⟨x, subMod m (r * subMod m v x) (s1 * hhh), h * p.z * q.z % m⟩

/-- `n` times a point, the low `k` bits of `n` from the highest down. -/
def EcPoint.mul (p : EcPoint) (n : Nat) : Nat → EcPoint
  | 0 => EcPoint.zero
  | k + 1 =>
    let q := (EcPoint.mul p (n / 2) k).double
    if n % 2 = 1 then q.add p else q

def EcPoint.affine (p : EcPoint) : Nat × Nat :=
  let i := invMod sm2P p.z
  let i2 := i * i % sm2P
  (p.x * i2 % sm2P, p.y * i2 * i % sm2P)

def sm2G : EcPoint := ⟨sm2Gx, sm2Gy, 1⟩

/-- The public key of a private key. -/
def sm2Public (d : Nat) : Nat × Nat := (sm2G.mul d 256).affine

/-- The default distinguishing identifier. -/
def sm2Id : List Byte := [0x31, 0x32, 0x33, 0x34, 0x35, 0x36, 0x37, 0x38, 0x31, 0x32, 0x33, 0x34, 0x35, 0x36, 0x37, 0x38]

/-- The number signed: SM3 of the signer's Z and the message. -/
def sm2Digest (x y : Nat) (msg : List Byte) : Nat :=
  let z := sm3 (beBytes 2 128 ++ sm2Id ++ beBytes 32 (sm2P - 3) ++ beBytes 32 sm2B ++ beBytes 32 sm2Gx ++ beBytes 32 sm2Gy
    ++ beBytes 32 x ++ beBytes 32 y)
  beNat (sm3 (z ++ msg))

/-- Whether (r, s) is a signature of the message under the public key (x, y). -/
def sm2Verify (x y : Nat) (msg : List Byte) (r s : Nat) : Bool :=
  let t := (r + s) % sm2N
  if r = 0 ∨ sm2N ≤ r ∨ s = 0 ∨ sm2N ≤ s ∨ t = 0 then false
  else if (y * y) % sm2P ≠ (x * x * x + (sm2P - 3) * x + sm2B) % sm2P then false
  else
    let p := ((sm2G.mul s 256).add (EcPoint.mul ⟨x, y, 1⟩ t 256)).affine
    decide ((sm2Digest x y msg + p.1) % sm2N = r)

/-- The signature of a message under private key `d` with the nonce `k`. -/
def sm2Sign (d k : Nat) (msg : List Byte) : Nat × Nat :=
  let pub := sm2Public d
  let r := (sm2Digest pub.1 pub.2 msg + (sm2Public k).1) % sm2N
  (r, invMod sm2N (1 + d) * subMod sm2N k (r * d) % sm2N)

end Sys2Proof
end

