-- ==== Sys2Proof/Machine/Trust.lean ====
section
/-!
DEFINITION. The security block (spec/17_bringup_and_trust.md): measurement registers and their log, repair data and its signature,
owner keys, the debug permissions, the attestation report.
-/
namespace Sys2Proof.Machine

/-! ### Measurements (R553) -/

/-- Words `w = 0 …` of a family of registers as bytes. -/
def State.regWords (s : State) (reg : Nat → Nat) (n : Nat) : List Byte :=
  (List.range n).flatMap (fun w => leBytes 8 (s.rd (reg w)).toNat)

/-- Bytes into such registers. -/
def State.putWords (s : State) (reg : Nat → Nat) (n : Nat) (bs : List Byte) : State :=
  (List.range n).foldl (fun (s : State) w => s.wr (reg w) (BitVec.ofNat 64 (leNat ((bs.drop (8 * w)).take 8)))) s

def State.measurement (s : State) (i : Nat) : List Byte := s.regWords (Reg.SEC_MEAS i) 4

/-- M_i is extended by a digest, and the log takes an entry (R553). -/
def State.extend (s : State) (i kind tenant : Nat) (c : Component) (d : List Byte) : State :=
  let s := s.putWords (Reg.SEC_MEAS i) 4 (sm3 (s.measurement i ++ d))
  let k := s.fld Reg.SEC_LOG_IDX Fld.SEC_LOG_IDX_IDX
  let e := leBytes 1 i ++ leBytes 1 kind ++ leBytes 1 tenant ++ leBytes 1 0 ++ leBytes 4 c.version ++ leBytes 2 c.svn
    ++ leBytes 6 0 ++ leBytes 8 s.now ++ d ++ leBytes 8 0
  (s.putWords (Reg.SEC_LOG (k % 256)) 8 e).setFld Reg.SEC_LOG_IDX Fld.SEC_LOG_IDX_IDX (k + 1)

/-- SEC_EXTEND: a write of SEC_EXTEND_CMD by T0 (R553, R561). -/
def State.secExtend (s : State) (ix : Nat) : State :=
  s.extend (12 + ix % 4) 2 0 {} (s.regWords Reg.SEC_EXTEND_DIG 4)

def execSecExtend (by_ : Fin 4) (ix : Fin 4) (s : State) : Host.Outcome State Fault Refusal :=
  .next (if by_ = 0 then s.secExtend ix else s)

/-! ### Signing with the device key (R551, R552, R554) -/

/-- A nonce below the order of the curve: the spec gives no value, so each is made of free values. -/
def State.nonce (s : State) : Nat × State :=
  let a := s.free
  let b := a.2.free
  let c := b.2.free
  let d := c.2.free
  ((a.1.toNat + b.1.toNat * 2 ^ 64 + c.1.toNat * 2 ^ 128 + d.1.toNat * 2 ^ 192) % (sm2N - 1) + 1, d.2)

def State.sign (s : State) (msg : List Byte) : (Nat × Nat) × State :=
  let k := s.nonce
  (sm2Sign s.tr.devKey k.1 msg, k.2)

/-! ### Repair data (R458, R527, R552) -/

/-- States of repair records beside RETIRED (R527). -/
def repairWithheld : Nat := 16
def repairCommitted : Nat := 17

/-- The newest repair record of a unit; 0: none. -/
def State.repairState (s : State) (u : Nat) : Nat :=
  match s.tr.repairLog.reverse.find? (fun e => e.1 == u) with
  | some e => e.2
  | none => 0

/-- The 2,048 records of the repair area. -/
def repairBytes (l : List (Nat × Nat)) : List Byte :=
  let bs := l.flatMap (fun e => leBytes 4 e.1 ++ leBytes 4 e.2)
  bs ++ List.replicate (16384 - bs.length) 0

/-- The repair area with its signature. -/
def State.repairArea (s : State) : List Byte :=
  repairBytes s.tr.repairLog ++ beBytes 32 s.tr.repairSig.1 ++ beBytes 32 s.tr.repairSig.2

/-- The keeper signs the records anew, and M4 is extended by the area (R552, R553). -/
def State.resignRepair (s : State) : State :=
  let r := s.sign (repairBytes s.tr.repairLog)
  let s := { r.2 with tr := { r.2.tr with repairSig := r.1 } }
  s.extend 4 5 0 {} (sm3 s.repairArea)

/-- A record is appended; a full area takes none (R527). -/
def State.repairPut (s : State) (u v : Nat) : State :=
  if 2048 ≤ s.tr.repairLog.length then s.setFld Reg.IDM_STATUS Fld.IDM_STATUS_PKG_FULL 1
  else { s with tr := { s.tr with repairLog := s.tr.repairLog ++ [(u, v)] } }.resignRepair

/-! ### Owner keys and the lock (R555, R561) -/

def State.secLocked (s : State) : Bool := s.fld Reg.SEC_CTL Fld.SEC_CTL_LOCK == 1

/-- x then y of an owner key, big-endian bytes each. -/
def State.ownerKey (s : State) (k : Nat) : List Byte := s.regWords (Reg.SEC_OWNER_KEY k) 8

/-- SEC_OWNER_KEY_WRITE: word 0–7 of entry `k`, or its SEC_OWNER_CTL (8); KEY_ID follows. -/
def State.writeOwnerKey (s : State) (k w : Nat) (v : BitVec 64) : State :=
  if s.secLocked then s
  else
    let s := s.writeCodes (if w < 8 then Reg.SEC_OWNER_KEY k w else Reg.SEC_OWNER_CTL k) v
    s.putWords (Reg.SEC_OWNER_ID k) 4 (sm3 (s.ownerKey k))

def execSecOwnerKeyWrite (by_ : Fin 4) (k : Fin 16) (w : Fin 9) (v : BitVec 64) (s : State) : Host.Outcome State Fault Refusal :=
  .next (if by_ = 0 then s.writeOwnerKey k w v else s)

/-- SEC_CTL, SEC_POLICY and the owner-key table, as M5 takes them. -/
def State.secConfig (s : State) : List Byte :=
  leBytes 8 (s.rd Reg.SEC_CTL).toNat ++ leBytes 8 (s.rd Reg.SEC_POLICY).toNat
    ++ (List.range 16).flatMap (fun k => s.ownerKey k ++ leBytes 8 (s.rd (Reg.SEC_OWNER_CTL k)).toNat)

/-- SEC_LOCK_WRITE: a write of SEC_CTL; setting LOCK extends M5. -/
def State.writeSecCtl (s : State) (v : BitVec 64) : State :=
  let was := s.secLocked
  let s := s.writeCodes Reg.SEC_CTL v
  if !was && s.secLocked then s.extend 5 3 0 {} (sm3 s.secConfig) else s

def execSecLockWrite (by_ : Fin 4) (v : BitVec 32) (s : State) : Host.Outcome State Fault Refusal :=
  .next (if by_ = 0 then s.writeSecCtl (v.setWidth 64) else s)

/-- DEBUG_CTL_WRITE (R559). -/
def State.writeDebugCtl (s : State) (v : BitVec 64) : State :=
  if s.fld Reg.SEC_CTL Fld.SEC_CTL_DEBUG_PERMIT = 0 then s
  else
    let s := s.writeCodes Reg.GLB_DEBUG_CTL v
    if v.toNat % 4 = 0 then s else s.setFld Reg.GLB_DEBUG_CTL Fld.GLB_DEBUG_CTL_DEBUG_EVER 1

def execDebugCtlWrite (by_ : Fin 4) (v : BitVec 32) (s : State) : Host.Outcome State Fault Refusal :=
  .next (if by_ = 0 then s.writeDebugCtl (v.setWidth 64) else s)

/-! ### Attestation (R554) -/

/-- The report over a nonce: unsigned with IDENTITY_FAIL, signed with the device key otherwise. -/
def State.attest (s : State) (nonce : List Byte) : List Byte × State :=
  let fail := s.fld Reg.SEC_STATUS Fld.SEC_STATUS_PUF_FAIL
  let flags := fail + s.fld Reg.GLB_DEBUG_CTL Fld.GLB_DEBUG_CTL_DEBUG_EVER * 2 + s.fld Reg.SEC_STATUS Fld.SEC_STATUS_REPAIR_SIG * 4
  let t := s.tr
  let body := leBytes 4 0x5454414B ++ leBytes 2 1 ++ leBytes 2 flags ++ leBytes 8 (s.rd Reg.IDM_PKG_SERIAL).toNat
    ++ (nonce ++ List.replicate 32 0).take 32 ++ leBytes 2 (if s.boardRead then s.chip else 0xFFFF) ++ leBytes 2 0
    ++ leBytes 4 (s.fld Reg.SEC_LOG_IDX Fld.SEC_LOG_IDX_IDX) ++ leBytes 8 s.now
    ++ leBytes 4 t.keeper.version ++ leBytes 4 t.ucode.version ++ leBytes 4 t.linkFw.version
    ++ leBytes 2 t.keeper.svn ++ leBytes 2 t.ucode.svn ++ leBytes 2 t.linkFw.svn ++ leBytes 6 (s.rd Reg.SEC_SVN).toNat
    ++ leBytes 40 0 ++ (List.range 16).flatMap s.measurement ++ beBytes 32 t.devPub.1 ++ beBytes 32 t.devPub.2
  if fail = 1 then (body ++ List.replicate 64 0, s)
  else
    let r := s.sign body
    (body ++ beBytes 32 r.1.1 ++ beBytes 32 r.1.2, r.2)

end Sys2Proof.Machine
end

