-- ==== Sys2Proof/Machine/Ras.lean ====
section
/-!
DEFINITION. The targeted test and its outcomes, retirement, and the recovery of stored data (spec/14_faults_and_selftest.md R448 to
R458, R466).
-/
namespace Sys2Proof.Machine

/-! ### Retirement (R87, R88, R458) -/

/-- A unit becomes RETIRED, and the repair data says so. -/
def State.retire (s : State) (u cause : Nat) : State :=
  (s.unitChange u { s.unitOf u with state := 3, cond := false, untested := false } 2 cause).repairPut u 3

/-- A cluster becomes RETIRED: it accepts nothing, and the barrier is raised (R458). -/
def State.retireCluster (s : State) (c cause : Nat) : State := (s.retire (unitId 1 c) cause).raiseBarrier 1 0

/-- Every tile in flight on a rank that has failed is abandoned (R88). -/
def Rank.abandonAll (k : Rank) : Rank := k.tiles.foldl (fun (k : Rank) (t : Tile) => k.abandon t t.errors) k

/-- A physical rank is retired: its tiles are abandoned, and the unassigned rank takes its logical rank and replays them, or the cluster
goes (R88, R458). -/
def State.retireRank (s : State) (c r cause : Nat) : State :=
  let s := s.retire (unitId 2 (c * 16 + r)) cause
  let s := s.modRk c r (fun k => { k.abandonAll with switch := none })
  let old := s.rd (Reg.CLU_RANK_MAP c)
  let l := servedBy old r
  if l = 12 then s.setFld (Reg.CLU_RANK_MAP c) Fld.CLU_RANK_MAP_SPARE 15
  else
    let sp := s.fld (Reg.CLU_RANK_MAP c) Fld.CLU_RANK_MAP_SPARE
    if 12 < sp then s.retireCluster c cause
    else
      let s := s.setFld (Reg.CLU_RANK_MAP c) ⟨4 * l, 4⟩ sp
      let s := s.setFld (Reg.CLU_RANK_MAP c) Fld.CLU_RANK_MAP_SPARE 15
      (s.moveRanks c old (s.rd (Reg.CLU_RANK_MAP c))).settleQuiesce c r

/-- The lanes that a rank's map retires. -/
def State.lanesOut (s : State) (c r : Nat) : List Nat := (skewLanes (s.rd (Reg.RNK_SKEW_MAP c r))).getD []

/-- The lanes that the rank will have retired, with more of them and those of a switch-in that waits. -/
def State.lanesWith (s : State) (c r : Nat) (lanes : List Nat) : List Nat :=
  (s.lanesOut c r ++ (((s.rk c r).switch.map (·.lanes)).getD []) ++ lanes).eraseDups

/-- Lanes of a rank are to be retired onto its spares: the keeper quiesces the rank, and switches them in once it is QUIESCED; more than
its free spares retire the rank (R85, R87, R458). -/
def State.retireLanes (s : State) (c r : Nat) (lanes : List Nat) (cause : Nat) : State :=
  if 4 < (s.lanesWith c r lanes).length then s.retireRank c r cause
  else
    let wait := ((((s.rk c r).switch.map (·.lanes)).getD []) ++ lanes).eraseDups
    (s.quiesceSelf c r).modRk c r (fun k => { k with switch := some ⟨wait, cause⟩ })

/-- The switch-in of R87: the map of the retired lanes with those that waited, the lanes RETIRED, the rank in service again. -/
def State.switchIn (s : State) (c r : Nat) (w : SwitchIn) : State :=
  let u := unitId 2 (c * 16 + r)
  let new := s.lanesWith c r w.lanes
  let v := ((List.range new.length).zip new).foldl (fun n p => n + (p.2 + 256) * 2 ^ (16 * p.1)) 0
  let s := (s.modRk c r (fun k => { k with switch := none })).setSkew c r (BitVec.ofNat 64 v) new
  let s := w.lanes.foldl (fun (s : State) l => s.retire (unitId 3 ((c * 16 + r) * 256 + l)) w.cause) s
  if s.testing u && (s.testsFor u).all (fun (q : TestReq) => q.unit != u) then
    s.unitChange u { s.unitOf u with state := s.inService u } 2 w.cause
  else s

/-- RANK_QUIESCED: QUIESCE is set and every started tile has completed; an abandoned one waits outside the rank. The keeper then does the
switch-in that waits for it, and clears the QUIESCE it has set (R79, R87, R447). -/
def State.rankQuiesced (s : State) (c r : Nat) : State :=
  if !s.quiesce c r || !(s.rk c r).tiles.all (fun (t : Tile) => t.waiting) then s
  else
    let s := s.setFld (Reg.RNK_CTL c r) Fld.RNK_CTL_QUIESCED 1
    match (s.rk c r).switch with
    | some w => (s.switchIn c r w).settleQuiesce c r
    | none => s

def execRankQuiesced (c : Fin 64) (r : Fin 13) (s : State) : Host.Outcome State Fault Refusal := .next (s.rankQuiesced c r)

/-- What retiring a unit does beside its state (R458). -/
def State.retireUnit (s : State) (u cause : Nat) (failMap : BitVec 256) : State :=
  let ix := u % 2 ^ 28
  match u / 2 ^ 28 with
  | 2 =>
    let lanes := (List.range 132).filter (fun i => failMap.getLsbD i)
    if lanes.isEmpty then s.retireRank (ix / 16) (ix % 16) cause else s.retireLanes (ix / 16) (ix % 16) lanes cause
  | 3 =>
    let lanes := (List.range 132).filter (fun i => failMap.getLsbD i)
    s.retireLanes (ix / 4096) (ix / 256 % 16) (ix % 256 :: lanes.filter (· ≠ ix % 256)) cause
  | 4 => (s.retire u cause).retireCluster (ix % 64) cause
  | 5 => (s.retire u cause).retireCluster (ix % 64) cause
  | 6 => (s.retire u cause).retireCluster (ix / 64 % 64) cause
  | 7 => ((s.retire u cause).withhold ix).repairPut u repairWithheld
  | 1 => s.retireCluster ix cause
  | _ => s.retire u cause

/-- MEM_COMMIT: a commit of a pseudo-channel of the repair data that a region bars raises the fault barrier (R221, R458). -/
def State.memCommit (s : State) (p : Nat) (alsoWithhold : Bool) : State :=
  let barred := s.regionAbove (ceilingOf (s.fld Reg.MEM_RSV Fld.MEM_RSV_COUNT) (s.fld Reg.MEM_REMAP_STATUS Fld.MEM_REMAP_STATUS_J + 1))
  let s' := s.commit p alsoWithhold
  if barred && s.withheld p && s.repairState (unitId 7 p) == repairWithheld then s'.raiseBarrier 1 0 else s'

def execMemCommit (by_ : Fin 4) (p : Fin 512) (alsoWithhold : Bool) (s : State) : Host.Outcome State Fault Refusal :=
  .next (if by_ = 0 then s.memCommit p alsoWithhold else s)

/-- COMMIT_PASS_END: the map changes, and the repair data says so (R222, R527). -/
def execCommitPassEnd (s : State) : Host.Outcome State Fault Refusal :=
  .next (match s.commitPc with
    | some p => s.commitEnd.repairPut (unitId 7 p) repairCommitted
    | none => s)

/-! ### The targeted test (R453, R456, R457, R466) -/

/-- TARGETED_TEST_START: the next waiting test of the unit starts on a free engine. -/
def State.testStart (s : State) (u : Nat) : State :=
  let l := s.testsFor u
  match l.find? (fun (q : TestReq) => !q.running && testEngine q.unit == testEngine u) with
  | some q => if q.unit ≠ u then s else
    if l.any (fun (x : TestReq) => x.running && testEngine x.unit == testEngine u) then s
    else s.setTestsFor u (l.map (fun (x : TestReq) => if x = q then { x with running := true } else x))
  | none => s

def execTargetedTestStart (unit : BitVec 32) (s : State) : Host.Outcome State Fault Refusal := .next (s.testStart unit.toNat)

/-- COND_WINDOW in ns. -/
def State.condWindow (s : State) : Nat := max 1 (s.fld Reg.GLB_RAS_CTL Fld.GLB_RAS_CTL_COND_WINDOW) * 1000000000

/-- The keeper clears the QUIESCE that a residue error set, once it may (R447). -/
def State.unquiesce (s : State) (u : Nat) : State :=
  let ix := u % 2 ^ 28
  match u / 2 ^ 28 with
  | 2 => s.settleQuiesce (ix / 16) (ix % 16)
  | 3 => s.settleQuiesce (ix / 4096) (ix / 256 % 16)
  | _ => s

/-- An outcome: its flag and counter, the log entry (R456, R468, R470). -/
def State.outcome (s : State) (q : TestReq) (bit ctr code : Nat) (res : TestResult) : State :=
  let s := s.event Reg.GLB_RAS_STATUS (bitField bit) ctr
  s.logError { cls := q.cls, outcome := code, tenant := q.tenant, unit := q.unit, failIndex := res.failIndex.toNat
               cpos := q.cpos, tsc := q.tsc, dpa := q.dpa, dieTemp := res.dieTemp.toNat, railMv := res.railMv.toNat }

/-- The keeper's classification of a test (R456, R457); the log entry holds the epoch after it (R470). -/
def State.classify (s : State) (q : TestReq) (res : TestResult) : State :=
  let u := q.unit
  let r := s.unitOf u
  let recent : Bool := match r.last with
    | some t => decide (s.now - t ≤ s.condWindow)
    | none => false
  if res.fail ∨ 3 ≤ r.conf then
    (s.retireUnit u q.cls res.failMap).outcome q 2 Reg.GLB_PERMANENT_CNT 2 res
  else if recent ∨ r.cond = true then
    let r' : UnitRec := { r with state := 1, cond := true, last := some s.now, untested := false
                                 replays := if r.cond then r.replays else 0, conf := if r.cond then r.conf else 0
                                 freq := s.fld Reg.PWR_ACTIVE Fld.PWR_ACTIVE_FLEVEL, temp := res.dieTemp.toNat }
    (s.unitChange u r' 3 q.cls).outcome q 3 Reg.GLB_CONDITIONAL_CNT 3 res
  else
    let r' : UnitRec := { r with state := s.inService u, last := some s.now, untested := false }
    (s.unitChange u r' 1 q.cls).outcome q 1 Reg.GLB_TRANSIENT_CNT 1 res

/-- What a test writes over data that is lost: the failing stage line, whose parity still tells until recovery rewrites it, and a burst that
was declared lost. The patterns' last values are free (R453). -/
def State.testPattern (s : State) (q : TestReq) : State :=
  if q.unit / 2 ^ 28 = 6 then
    let a := q.dpa / 128 * 128
    if s.badStage.any (fun w => decide (a ≤ w * 4) && decide (w * 4 < a + 128)) then (s.poke a (s.freeBytes 16)).skipFree 16 else s
  else if q.lost then ((s.poke (q.dpa / 64 * 64) (s.freeBytes 8)).skipFree 8).healBurst (q.dpa / 64)
  else s

/-- TARGETED_TEST_END: the running test of the unit ends; the keeper classifies it, and the work that waited goes on. -/
def State.testEnd (s : State) (u : Nat) (res : TestResult) : State :=
  let l := s.testsFor u
  match l.find? (fun (q : TestReq) => q.running && q.unit == u) with
  | none => s
  | some q => ((((s.setTestsFor u (l.erase q)).testPattern q).classify q res)).unquiesce u

def execTargetedTestEnd (unit : BitVec 32) (res : TestResult) (s : State) : Host.Outcome State Fault Refusal :=
  .next (s.testEnd unit.toNat res)

/-! ### Test result records (R455) -/

def testRecord (u pattern : Nat) (res : TestResult) (now : Nat) : List Byte :=
  leBytes 4 u ++ leBytes 2 pattern ++ leBytes 1 res.fail.toNat ++ leBytes 1 0 ++ leBytes 4 res.failIndex.toNat
    ++ leBytes 4 res.failCount.toNat ++ leBytes 32 res.failMap.toNat ++ leBytes 4 res.durationNs.toNat
    ++ leBytes 2 res.dieTemp.toNat ++ leBytes 2 res.railMv.toNat ++ leBytes 8 now

/-! ### Recovery of stored data (R448 to R450) -/

/-- Movers stopped in DETECTED whose next chunk reads the address continue. -/
def State.redriveAt (s : State) (a n : Nat) : State :=
  (s.movers.filter (fun e =>
    let n' := min 65536 (e.2.total - e.2.done)
    e.2.state == 4 && (e.2.srcD.chunkPieces e.2.done n' ++ e.2.dstD.chunkPieces e.2.done n').any (fun p => overlaps p.1 p.2 a n))).foldl
    (fun (s : State) e => s.redrive e.1) s

/-- Collectives stopped by a detected error continue. -/
def State.redriveColls (s : State) : State :=
  (s.colls.filter (fun e => !e.2.det.isEmpty)).foldl (fun (s : State) e => s.collRedrive e.1) s

/-- A burst is lost: a sealed bank over it loses its SEAL word, a valid mirror over it is EMPTY (R449). -/
def State.burstLost (s : State) (dpa tenant : Nat) : State :=
  let s := { s with hbmTests := s.hbmTests.map (fun (q : TestReq) => if q.dpa / 64 = dpa / 64 then { q with lost := true } else q) }
  let s := if s.bankLen = 0 then s else [0, 1].foldl (fun (s : State) b =>
    if s.bankState b = 2 ∧ overlaps (s.bankBase b) s.bankLen dpa 64 = true then s.unsealBank b else s) s
  let s := if s.mirrorState = 2 ∧ overlaps s.mirrorBase s.mirrorLen dpa 64 = true then s.mirrorEmpty else s
  s.lostData tenant

/-- The data of a re-read of a burst that sees these bits of it otherwise than they are stored, if its code is right; a place on a
withheld pseudo-channel and a burst that a commit has lost never pass (R216, R220, R222). -/
def State.reread (s : State) (b : Nat) (data : BitVec 512) (code : BitVec 32) : Option (List Byte) :=
  let old := s.bytes (b * 64) 64
  let new := flipBytes data.toNat old
  if s.codeErr.get 0 b ^^^ burstCode b old ^^^ burstCode b new ^^^ code = 0 ∧ s.withheld (hbmLocate s.retired (b * 64)).1 = false
      ∧ s.commits.any (·.lost b) = false then some new else none

/-- HBM_DETECT_RECOVERY: the keeper has read the burst twice more; the operands are what the better re-read sees otherwise than stored
(R449). -/
def execHbmDetectRecovery (dpa : Nat) (data : BitVec 512) (code : BitVec 32) (tenant : Fin 4) (s : State) :
    Host.Outcome State Fault Refusal :=
  let b := dpa / 64
  .next (if !s.burstFails b then s
    else match s.reread b data code with
      | some bs => (((s.poke (b * 64) bs).healBurst b).redriveAt (b * 64) 64).redriveColls
      | none => s.burstLost (b * 64) tenant)

/-- Bytes of a page of stage memory within a transfer's stream. -/
def pageFrom (ps : List (Nat × Nat)) (stream : List Byte) (base : Nat) : List Byte :=
  let find (a : Nat) : Byte :=
    let r := ps.foldl (fun (acc : Nat × Option Nat) p =>
      (acc.1 + p.2, if p.1 ≤ a ∧ a < p.1 + p.2 then some (acc.1 + (a - p.1)) else acc.2)) (0, none)
    match r.2 with
    | some i => stream.getD i 0
    | none => 0
  (List.range 4096).map (fun i => find (base + i))

/-- The page of a failing word written again from its journalled source, where the source's fingerprint is the record's; false where
it cannot be (R448). -/
def State.rebuildPage (s : State) (c dpa tenant : Nat) : Bool × State :=
  let page := (dpa - stageBase c) / 4096
  match (s.cl c).journalOf page with
  | none => (false, s)
  | some r =>
    match (s.onBehalf tenant).readPieces (r.srcD.chunkPieces 0 r.total) with
    | (.detected h a, s) => (false, s.chargeMem h a tenant)
    | (.ok bs, s) =>
      if crc64 bs ≠ r.fp then (false, s)
      else
        let base := stageBase c + page * 4096
        let s := s.poke base (pageFrom (r.dstD.chunkPieces 0 r.total) bs base)
        (true, { s with badStage := s.badStage.filter (fun w => !(decide (base ≤ w * 4) && decide (w * 4 < base + 4096))) })

/-- The patterns that the test left in a lost line are whole: its parity no longer fails (R453). -/
def State.lineLost (s : State) (dpa : Nat) : State :=
  if (s.unitOf (stageBankUnit dpa)).untested then s
  else { s with badStage := s.badStage.filter (fun w => w * 4 / 128 != dpa / 128) }

/-- STAGE_PARITY_RECOVERY: the re-read has failed; the recovery follows the line's test (R448, R450, R453). -/
def execStageParityRecovery (c : Fin 64) (dpa : Nat) (tenant : Fin 4) (s : State) : Host.Outcome State Fault Refusal :=
  .next (if !s.badStage.contains (dpa / 4) || !inStage c dpa 1 || s.testing (stageBankUnit dpa) then s
    else
      let r := s.rebuildPage c dpa tenant
      if r.1 then r.2.redriveAt (dpa / 4 * 4) 4 else (r.2.lineLost dpa).lostData tenant)

end Sys2Proof.Machine
end

