-- ==== Sys2Proof/Machine/Preempt.lean ====
section
/-!
DEFINITION. Pre-emption (spec/08_movers_tenants_preemption.md R264 to R272, R147, R278, R279) and the self-test slices that use it
(spec/14_faults_and_selftest.md R457, R459).
-/
namespace Sys2Proof.Machine

/-! ### Requests (R264) -/

def State.ctxIgnored (s : State) (t c : Nat) : State :=
  (s.setFld (Reg.MOV_CTX_STATUS t c) Fld.MOV_CTX_STATUS_RESULT 4).cnt Reg.MOV_PREEMPT_IGN_CNT

def State.setResult (s : State) (t c r : Nat) : State := s.setFld (Reg.MOV_CTX_STATUS t c) Fld.MOV_CTX_STATUS_RESULT r

/-- Requests for T1 are ignored while the barrier is in force (R399). -/
def State.preemptBarred (s : State) (t : Nat) : Bool := t == 1 && s.barrier != 0

/-- Whether a SAVE or PARK of tenant `t` on cluster `c` is taken. -/
def State.requestOk (s : State) (t c : Nat) : Bool := s.ctxState t c == 0 && s.resident t c && !s.preemptBarred t

def State.request (s : State) (t c : Nat) (park : Bool) : State :=
  if s.requestOk t c then
    (s.modCl c (fun k => { k with requested := true, parkReq := park, reqTenant := t })).setCtx t c 1
  else s.ctxIgnored t c

/-- The clusters of MOV_PREEMPT_MASK. -/
def State.preemptMask (s : State) : List Nat := (List.range 64).filter (fun c => (s.rd Reg.MOV_PREEMPT_MASK).getLsbD c)

/-- PREEMPT_SAVE (R264, R265). -/
def State.preemptSave (s : State) (t : Nat) : State :=
  if !s.ctxRegionOk t then s.cnt Reg.MOV_PREEMPT_IGN_CNT
  else s.preemptMask.foldl (fun (s : State) c => s.request t c false) s

def execPreemptSave (by_ : Fin 4) (t : Fin 4) (s : State) : Host.Outcome State Fault Refusal :=
  .next (if by_ = 0 then s.preemptSave t else s)

/-- PREEMPT_PARK. -/
def State.preemptPark (s : State) (t : Nat) : State := s.preemptMask.foldl (fun (s : State) c => s.request t c true) s

def execPreemptPark (by_ : Fin 4) (t : Fin 4) (s : State) : Host.Outcome State Fault Refusal :=
  .next (if by_ = 0 then s.preemptPark t else s)

def State.beginRestore (s : State) (t c : Nat) : State :=
  if s.ctxState t c = 3 ∧ s.seqState c = seqIdle ∧ s.preemptBarred t = false then s.setCtx t c 5 else s.ctxIgnored t c

/-- PREEMPT_RESTORE. -/
def State.preemptRestore (s : State) (t : Nat) : State :=
  if !s.ctxRegionOk t then s.cnt Reg.MOV_PREEMPT_IGN_CNT
  else s.preemptMask.foldl (fun (s : State) c => s.beginRestore t c) s

def execPreemptRestore (by_ : Fin 4) (t : Fin 4) (s : State) : Host.Outcome State Fault Refusal :=
  .next (if by_ = 0 then s.preemptRestore t else s)

/-! ### Capture (R147, R265, R266) -/

/-- Transfers of the cluster in the fabric: SEND, RECV, MCAST and COLL. -/
def State.fabricBusy (s : State) (c : Nat) : Bool :=
  s.txs.any (fun (x : Tx) => x.cluster == c) || s.rxs.any (fun (x : Rx) => x.cluster == c)
    || s.colls.any (fun e => e.2.plan.issuer == c)

/-- Issued rank, vector and conditioner work, and the fabric, are done. -/
def State.issuedQuiet (s : State) (c : Nat) : Bool := s.issuedDone c && !s.fabricBusy c

/-- Every instruction decoded for the named ports has completed. -/
def State.portsDone (s : State) (c ports : Nat) : Bool :=
  let k := s.cl c
  (!ports.testBit 0 || (k.rankQ.isEmpty && (List.range 13).all (fun r => (s.rk c r).active.isEmpty && (s.rk c r).tiles.isEmpty)))
    && (!ports.testBit 1 || (k.vecQ.isEmpty && k.vec.isNone))
    && (!ports.testBit 2 || (k.movQ.isEmpty && k.cond.isNone && k.heldRecs.isEmpty && k.pref.all (fun (e : PrefEntry) => !e.due)
        && s.movers.all (fun e => e.2.cluster != c) && s.movReqs.all (fun (r : MovReq) => r.mrec.cluster != c)))
    && (!ports.testBit 3 || (k.fabQ.isEmpty && !s.fabricBusy c))

/-- At a yield point of R265 with everything before it complete. -/
def State.captureReady (s : State) (c : Nat) : Bool :=
  let k := s.cl c
  let st := s.seqState c
  let drained : Bool := k.rankQ.isEmpty && k.vecQ.isEmpty && k.fabQ.isEmpty
  k.requested && s.issuedQuiet c
    && (st == seqHalted || st == seqFaulted
      || (st == seqRunning && drained && match k.hold with
          | some h => match h.kind with
            | .yield => true
            | .cwait _ y => y
            | _ => false
          | none => false))

/-- The cluster's transfers stop in HELD and release their movers; those in REGION_STOP or DETECTED stay as they are. A port head that
waits for a mover has not issued: its request lapses. -/
def State.holdMovers (s : State) (c : Nat) : State :=
  let mine := s.movers.filter (fun e => e.2.cluster == c && e.2.state == 1)
  let reqs := s.movReqs.filter (fun (r : MovReq) => r.mrec.cluster == c && !r.head)
  let recs := (mine.map (·.2) ++ reqs.map (·.mrec)).map (fun (r : MovRec) => { r with state := max r.state 2 })
  let s := mine.foldl (fun (s : State) e => s.freeMover e.1) s
  let s := { s with movReqs := s.movReqs.filter (fun (r : MovReq) => r.mrec.cluster != c) }
  s.modCl c (fun k => { k with heldRecs := k.heldRecs ++ recs })

/-- Stopped transfers ask for movers again: HELD ones as transfers that continue, the others in their states (R255, R270). -/
def State.unholdMovers (s : State) (c : Nat) : State :=
  let recs := (s.cl c).heldRecs
  let s := s.modCl c (fun k => { k with heldRecs := [] })
  { s with movReqs := s.movReqs ++ recs.map (fun (r : MovRec) =>
      MovReq.mk { r with state := if 3 ≤ r.state then r.state else 0 } (r.kind == 1) false) }

/-- CLUSTER_CAPTURE: the cluster becomes SAVING or PARKED. -/
def State.capture (s : State) (c : Nat) : State :=
  if !s.captureReady c then s
  else
    let k := s.cl c
    let t := k.reqTenant
    let dur := match k.hold with
      | some h => s.now - h.since
      | none => 0
    let before := s.seqState c
    let s := s.holdMovers c
    let s := s.modCl c (fun k => { k with before := before, requested := false, capturedAt := s.now, capturedPos := s.rd Reg.CAD_POS })
    let s := (s.setSeqState c seqYielded).setCtx t c (if k.parkReq then 4 else 2)
    s.trace c 0x0E t dur 0

def execClusterCapture (c : Fin 64) (s : State) : Host.Outcome State Fault Refusal := .next (s.capture c)

/-- The cluster goes on as it was before its capture, or FAULTED where a fault came meanwhile: a YIELD completes, a yieldable CWAIT is
evaluated again. -/
def State.continueAfter (s : State) (c t : Nat) : State :=
  let k := s.cl c
  let s := if s.seqState c = seqFaulted then s else s.setSeqState c k.before
  ((s.trace c 0x0F t (s.now - k.capturedAt) 0).unholdMovers c).releaseHold c

def State.unpark (s : State) (t c : Nat) : State :=
  if s.ctxState t c ≠ 4 ∨ s.preemptBarred t = true then s.ctxIgnored t c
  else ((s.setCtx t c 0).setResult t c 0).continueAfter c t

/-- PREEMPT_UNPARK. -/
def State.preemptUnpark (s : State) (t : Nat) : State := s.preemptMask.foldl (fun (s : State) c => s.unpark t c) s

def execPreemptUnpark (by_ : Fin 4) (t : Fin 4) (s : State) : Host.Outcome State Fault Refusal :=
  .next (if by_ = 0 then s.preemptUnpark t else s)

/-! ### The image of a context (R267 to R269) -/

def State.ctxSlot (s : State) (t c k : Nat) : Nat :=
  s.fld (Reg.MOV_CTX_BASE t) Fld.MOV_CTX_BASE_BASE + (2 * c + k) * s.fld (Reg.MOV_CTX_SLOT t) Fld.MOV_CTX_SLOT_SLOT

/-- A range added to a list of disjoint ranges in ascending order, touching ones merged. -/
def addRange (r : Nat × Nat) : List (Nat × Nat) → List (Nat × Nat)
  | [] => [r]
  | q :: rest =>
    if r.2 < q.1 then r :: q :: rest
    else if q.2 < r.1 then q :: addRange r rest
    else addRange (min r.1 q.1, max r.2 q.2) rest

/-- The live stage memory of a tenant on a cluster: offsets [lo, hi), ascending. -/
def State.liveRanges (s : State) (t c : Nat) : List (Nat × Nat) :=
  let rs := (s.regions t).filterMap (fun e =>
    let lo := max (getField e.1 Fld.MEM_RGN_W0_BASE) (stageBase c)
    let hi := min (e.2 + 1) (stageBase c + stageSize)
    if getField e.1 Fld.MEM_RGN_W0_OWNER = t
        ∧ (getField e.1 Fld.MEM_RGN_W0_WR = 1 ∨ getField e.1 Fld.MEM_RGN_W0_FL = 1) ∧ lo < hi then
      some (lo - stageBase c, hi - stageBase c)
    else none)
  rs.foldl (fun acc r => addRange r acc) []

def padTo (n : Nat) (bs : List Byte) : List Byte := (bs ++ List.replicate n 0).take n

/-- What a loop entry holds, as numbers. -/
def LoopEntry.nums (l : LoopEntry) : List Nat :=
  [l.ireg, l.start.toNat, l.stride.toNat, l.trip, l.iter, l.bodyStart, l.bodyLen, l.suspended.toNat]

/-- The words of the newest fault record. -/
def State.newestFault (s : State) (c : Nat) : List (BitVec 64) :=
  let k := (s.fld (Reg.SEQ_FAULT_CNT c) Fld.COUNT + 3) % 4
  (List.range 8).map (fun w => s.rd (Reg.SEQ_FAULT_REC c k w))

/-- The cluster as its context holds it: with every stopped transfer of it, wherever its record stands. -/
def State.ctxCluster (s : State) (c : Nat) : Cluster :=
  let k := s.cl c
  { k with heldRecs := (s.movers.filter (fun e => e.2.cluster == c)).map (·.2) ++ k.heldRecs }

/-- The slots a tenant owns. -/
def State.slotsOf (s : State) (t : Nat) : List Nat := (List.range 16).filter (fun sl => s.slotOwner sl == t)

/-- The values that bytes 0x200 to 0x2FF of a context slot hold, in R268's order. -/
def State.ctxNums (s : State) (t c : Nat) : List Nat :=
  let k := s.cl c
  [s.seqPc c, s.seqSlot c, k.preds.toNat, k.loops.length] ++ k.loops.flatMap LoopEntry.nums
    ++ [(k.ret.getD (0, 0)).1, (k.ret.getD (0, 0)).2, k.ret.isSome.toNat, s.seqCtx c, k.before]
    ++ (s.slotsOf t).map (fun sl => (s.rd (Reg.STK_TOP sl c)).toNat) ++ (s.slotsOf t).map (fun sl => (s.stkPart sl c).pushes)

/-- Bytes 0x100 to the end of a context slot, around the bytes of live memory. -/
def State.ctxBody (s : State) (t c : Nat) (live : List (Nat × Nat)) (mem : List Byte) : List Byte :=
  let k := s.ctxCluster c
  let fault := if k.before = seqFaulted then (s.newestFault c).flatMap (fun w => leBytes 8 w.toNat) ++ leBytes 8 1 else []
  (List.range 32).flatMap (fun i => leBytes 8 (k.s i).toNat)
    ++ (List.range 256).map (Config.ctxArea (s.ctxNums t c))
    ++ (List.range 256).flatMap (fun i => leBytes 8 (s.rd (Reg.SEQ_TOKEN c i)).toNat)
    ++ [k.rankQ, k.vecQ, k.movQ, k.fabQ].flatMap (fun q => padTo 256 (q.flatMap (fun (e : QEntry) => leBytes 16 e.word.toNat)))
    ++ padTo 256 fault
    ++ padTo 2048 (k.pref.flatMap (fun (e : PrefEntry) => e.mrec.bytes))
    ++ padTo 8192 (k.heldRecs.flatMap MovRec.bytes)
    ++ List.replicate 2048 0
    ++ (List.range 256).flatMap (fun i => leBytes 64 (k.d i).toNat)
    ++ padTo 4096 (live.flatMap (fun r => leBytes 8 r.1 ++ leBytes 8 (r.2 - r.1)))
    ++ mem

/-- A slot's header (R268). -/
def State.ctxHeader (s : State) (t c seq len : Nat) (crc : BitVec 64) (valid : Bool) : List Byte :=
  padTo 256 (leBytes 4 0x5843544B ++ leBytes 2 1 ++ leBytes 1 t ++ leBytes 1 c ++ leBytes 8 seq
    ++ leBytes 8 (s.cl c).capturedPos.toNat ++ leBytes 8 len ++ leBytes 8 crc.toNat ++ leBytes 1 valid.toNat)

/-! ### Save (R270, R272) -/

/-- The registers a context holds beside its record. -/
def State.ctxRegs (s : State) (c : Nat) : List (Nat × BitVec 64) :=
  ([Reg.SEQ_STATUS c, Reg.SEQ_PC c] ++ (List.range 256).map (Reg.SEQ_TOKEN c)).map (fun o => (o, s.rd o))

/-- The held signals of a context are applied, each with its forward (R268). -/
def State.applyHeld (s : State) (t c : Nat) : State :=
  let hs := s.heldSig.filter (fun e => e.1 / 256 == t * 64 + c)
  let s := { s with heldSig := s.heldSig.filter (fun e => e.1 / 256 != t * 64 + c) }
  hs.foldl (fun (s : State) e => s.addToken c (e.1 % 256) e.2 0) s

/-- A save that ends without a context: the signals held meanwhile are applied, and the stream goes on after its yield point. -/
def State.saveFailed (s : State) (t c : Nat) : State :=
  let s := ((s.setResult t c 2).setCtx t c 0).event Reg.MOV_STATUS Fld.MOV_STATUS_SAVE_FAIL Reg.MOV_SAVE_FAIL_CNT
  (((s.tellKeeper 3 t c).evq t 3 c 2).applyHeld t c).continueAfter c t

/-- What stays with a cluster when its stream leaves it. -/
def Cluster.vacated (k : Cluster) : Cluster :=
  { journal := k.journal, pageTag := k.pageTag, journalNext := k.journalNext, tests := k.tests, saveSeqs := k.saveSeqs }

/-- Writes in order, up to the first that meets a detected error, which is charged; whether one did. -/
def State.storeAll (s : State) (tenant : Nat) : List (Bool × Nat × List Byte) → Bool × State
  | [] => (false, s)
  | w :: rest =>
    match s.storeCharged w.1 w.2.1 w.2.2 tenant with
    | (true, s) => (true, s)
    | (false, s) => s.storeAll tenant rest

/-- Slot `k` is written: VALID cleared, the slot, its header, then the other slot's VALID cleared (R270); whether a write met a detected
error, of `bad` or of its own. -/
def State.writeSlotImage (s : State) (t c k : Nat) (bad : Bool) (body : List Byte) (seq : Nat) : Bool × State :=
  let a := s.ctxSlot t c k
  s.storeAll t [(false, a + 0x28, [0]), (bad, a + 256, body), (false, a, s.ctxHeader t c seq (256 + body.length) (crc64 body) true),
    (false, s.ctxSlot t c (1 - k) + 0x28, [0])]

/-- The saved context leaves the cluster: SAVED, its movers released, the sequencer IDLE. -/
def State.saved_ (s : State) (t c k seq : Nat) : State :=
  let stopped := s.movers.filter (fun e => e.2.cluster == c)
  let clu := s.ctxCluster c
  let ctx : SavedCtx :=
    { clu := clu, regs := s.ctxRegs c, fault := if clu.before = seqFaulted then s.newestFault c else []
      stk := (s.slotsOf t).map (fun sl => (sl, s.rd (Reg.STK_TOP sl c), s.stkPart sl c)) }
  let s := (stopped.foldl (fun (s : State) e => s.freeMover e.1) s).settleStacks t c
  let s := { s with saved := s.saved.put (t * 64 + c) ctx }
  let s := (s.setCl c { clu.vacated with saveSeqs := clu.saveSeqs.set 0 t seq }).setSeqState c seqIdle
  let s := (s.setCtx t c 3).setResult t c k
  let s := s.setFld (Reg.MOV_CTX_STATUS t c) Fld.MOV_CTX_STATUS_NEWEST k
  let s := s.setFld (Reg.MOV_CTX_STATUS t c) Fld.MOV_CTX_STATUS_SEQ seq
  ((s.cnt Reg.MOV_SAVE_CNT).bumpGlb 0x0C 0 1).evq t 3 c k

/-- A stream of the keeper firmware starts on an IDLE cluster in context `ctx` (R151): nothing of an earlier stream is left, and its tokens
are as at reset. -/
def State.startKeeperStream (s : State) (c ctx : Nat) : State :=
  let s := s.setCl c { (s.cl c).vacated with yieldAt := s.now }
  let s := (List.range 256).foldl (fun (s : State) i => s.wr (Reg.SEQ_TOKEN c i) (regReset (Reg.SEQ_TOKEN c i))) s
  let s := (s.setFld (Reg.SEQ_STATUS c) Fld.SEQ_STATUS_CTX ctx).setFld (Reg.SEQ_STATUS c) Fld.SEQ_STATUS_TENANT 0
  let s := s.setFld (Reg.SEQ_STATUS c) Fld.SEQ_STATUS_SLOT 0
  ((s.setPc c 0).showLoops c).setSeqState c seqRunning

/-- The cluster is TESTING while its slice runs, and in service again after it, unless a test has retired it (R461; DEDUCED, log entry
143). -/
def State.sliceState (s : State) (c : Nat) (on : Bool) : State :=
  let u := unitId 1 c
  if s.unitState u = 3 then s else s.unitChange u { s.unitOf u with state := if on then 2 else 0 } 0 0

/-- The keeper's TEST-context stream of a slice starts on an IDLE cluster (R459). -/
def State.startTestStream (s : State) (c : Nat) : State :=
  ((s.startKeeperStream c 2).modCl c (fun k => { k with testStream := true })).sliceState c true

/-- CONTEXT_SAVE_DONE: the save has written slot A, or B where a write of A met a detected error; with both failing, or with a
parity error of the live stage memory, it is abandoned (R270, R272). -/
def State.saveDone (s : State) (t c : Nat) (badA badB : Bool) (err : MemErr) : State :=
  if s.ctxState t c ≠ 2 then s
  else
    let s := s.meet err t
    let live := s.liveRanges t c
    match s.readPieces (live.map (fun r => (stageBase c + r.1, r.2 - r.1))) with
    | (.detected h a, s) => (s.chargeMem h a t).saveFailed t c
    | (.ok mem, s) =>
      let seq := (s.cl c).saveSeqs.get 0 t + 1
      let body := s.ctxBody t c live mem
      let r := match s.writeSlotImage t c 0 badA body seq with
        | (false, s) => (some 0, s)
        | (true, s) => match (s.cnt Reg.MOV_SAVE_RETRY_CNT).writeSlotImage t c 1 badB body seq with
          | (false, s) => (some 1, s)
          | (true, s) => (none, s)
      match r with
      | (none, s) => s.saveFailed t c
      | (some k, s) =>
        let s := s.saved_ t c k seq
        match s.slice with
        | some sl => if sl.saved.contains (c, t) then s.startTestStream c else s
        | none => s

def execContextSaveDone (c : Fin 64) (t : Fin 4) (badA badB : Bool) (err : MemErr) (s : State) :
    Host.Outcome State Fault Refusal := .next (s.saveDone t c badA badB err)

/-! ### Restore and discard (R266, R268, R270, R272) -/

def State.dropSaved (s : State) (t c : Nat) : State :=
  { s with saved := s.saved.erase (t * 64 + c)
           heldSig := s.heldSig.filter (fun e => e.1 / 256 != t * 64 + c) }

/-- A restore fails: the context is lost; for T1 the barrier is raised. -/
def State.restoreFailed (s : State) (t c : Nat) : State :=
  let s := ((s.setResult t c 3).setCtx t c 0).event Reg.MOV_STATUS Fld.MOV_STATUS_RESTORE_FAIL Reg.MOV_RESTORE_FAIL_CNT
  let s := (s.dropSaved t c).evq t 3 c 3
  if t = 1 then s.raiseBarrier 1 0 else s

/-- A header as a restore checks it: its LENGTH and CRC, where MAGIC, FMT, TENANT, CLUSTER and VALID are right. -/
def ctxHeaderOf (t c : Nat) (bs : List Byte) : Option (Nat × Nat) :=
  let f (off n : Nat) : Nat := leNat ((bs.drop off).take n)
  if f 0 4 = 0x5843544B ∧ f 4 2 = 1 ∧ f 6 1 = t ∧ f 7 1 = c ∧ f 0x28 1 = 1 then some (f 0x18 8, f 0x20 8) else none

/-- A pending fault is raised again (R266): its record rewritten, flag, counter and notices. -/
def State.reraise (s : State) (c : Nat) (words : List (BitVec 64)) : State :=
  let k := s.fld (Reg.SEQ_FAULT_CNT c) Fld.COUNT
  let s := (List.range 8).foldl (fun (s : State) w => s.wr (Reg.SEQ_FAULT_REC c (k % 4) w) (words.getD w 0)) s
  let s := s.event (Reg.SEQ_STATUS c) Fld.SEQ_STATUS_FAULT (Reg.SEQ_FAULT_CNT c)
  let code := (s.rd (Reg.SEQ_FAULT_REC c (k % 4) 0)).toNat % 256
  let s := s.tellKeeper 1 c code
  if s.seqTenant c = 0 then s else s.evq (s.seqTenant c) 1 c ((k + 1) % 2 ^ 32)

/-- The live ranges of stage memory that the body of a context lists: offset and length, up to the first length 0. -/
def ctxLive (body : List Byte) : List (Nat × Nat) :=
  ((List.range 256).map (fun i =>
    (leNat ((body.drop (0x7F00 + 16 * i)).take 8), leNat ((body.drop (0x7F08 + 16 * i)).take 8)))).takeWhile (fun r => r.2 != 0)

/-- The saved bytes go back to their live ranges. -/
def State.putLive (s : State) (t c : Nat) : List (Nat × Nat) → List Byte → State
  | [], _ => s
  | r :: rest, bs =>
    let w := (s.onBehalf t).write (stageBase c + r.1) (bs.take r.2)
    (w.2.chargeWrite w.1 t).putLive t c rest (bs.drop r.2)

/-- A record as its 256 bytes say; what they do not hold is kept. -/
def MovRec.ofBytes (r : MovRec) (bs : List Byte) : MovRec :=
  let f (off n : Nat) : Nat := leNat ((bs.drop off).take n)
  let w := f 0x80 8
  { r with
    src := BitVec.ofNat 512 (f 0 64), dst := BitVec.ofNat 512 (f 0x40 64), state := w % 8, kind := w / 2 ^ 3 % 8
    cluster := w / 2 ^ 6 % 64, tenant := w / 2 ^ 12 % 4, slot := w / 2 ^ 14 % 16, sig := w / 2 ^ 18 % 256
    total := f 0x88 8, done := f 0x90 8, fp := BitVec.ofNat 64 (f 0x98 8), pc := f 0xA0 8 }

/-- The cluster's record with what the body of its context slot says of it (R268); the values of which R268 gives no bytes, and those of
bytes 0x200 to 0x2FF, are as kept (log entry 128). -/
def Cluster.ofBody (k : Cluster) (body : List Byte) : Cluster :=
  let num (off n : Nat) : Nat := leNat ((body.drop off).take n)
  let recAt (off : Nat) : List Byte := (body.drop off).take 256
  let words (off : Nat) (q : List QEntry) : List QEntry :=
    ((List.range q.length).zip q).map (fun x => { x.2 with word := BitVec.ofNat 128 (num (off + 16 * x.1) 16) })
  { k with
    sreg := (List.range 32).foldl (fun (m : Tab (BitVec 64)) i => m.set 0 i (BitVec.ofNat 64 (num (8 * i) 8))) []
    rankQ := words 0xA00 k.rankQ, vecQ := words 0xB00 k.vecQ, movQ := words 0xC00 k.movQ, fabQ := words 0xD00 k.fabQ
    pref := ((List.range k.pref.length).zip k.pref).map (fun x => { x.2 with mrec := x.2.mrec.ofBytes (recAt (0xF00 + 256 * x.1)) })
    heldRecs := ((List.range k.heldRecs.length).zip k.heldRecs).map (fun x =>
      if x.1 < 32 then x.2.ofBytes (recAt (0x1700 + 256 * x.1)) else x.2)
    desc := (List.range 256).foldl (fun (m : Tab (BitVec 512)) i => m.set 0 i (BitVec.ofNat 512 (num (0x3F00 + 64 * i) 64))) [] }

/-- A context that was read and found right comes back: its record, registers, partitions and live memory. A T1 context that comes back
behind the fault barrier comes back HALTED, without transfers (R399). -/
def State.reload (s : State) (t c : Nat) (ctx : SavedCtx) (body : List Byte) : State :=
  let num (off n : Nat) : Nat := leNat ((body.drop off).take n)
  let keep := s.cl c
  let status := s.rd (Reg.SEQ_STATUS c)
  let clu : Cluster :=
    { ctx.clu.ofBody body with
      journal := keep.journal, pageTag := keep.pageTag, journalNext := keep.journalNext
      tests := keep.tests, saveSeqs := keep.saveSeqs, requested := false }
  let clu := if s.preemptBarred t then { clu with pref := [], heldRecs := [], hard := false, before := seqHalted } else clu
  let s := s.putLive t c (ctxLive body) (body.drop 0x8F00)
  let s := ctx.regs.foldl (fun (s : State) r => s.wr r.1 r.2) s
  let s := (List.range 256).foldl (fun (s : State) i => s.wr (Reg.SEQ_TOKEN c i) (BitVec.ofNat 64 (num (0x200 + 8 * i) 8))) s
  let s := (ctx.stk.filter (fun x => s.slotOwner x.1 == t)).foldl (fun (s : State) x =>
    (s.wr (Reg.STK_TOP x.1 c) x.2.1).setStkPart x.1 c x.2.2) s
  let s := s.setFld (Reg.SEQ_STATUS c) Fld.SEQ_STATUS_FAULT (getField status Fld.SEQ_STATUS_FAULT)
  { s.setCl c clu with saved := s.saved.erase (t * 64 + c) }

/-- The words of the fault record that a context's body carries. -/
def ctxFault (body : List Byte) : List (BitVec 64) :=
  (List.range 8).map (fun w => BitVec.ofNat 64 (leNat ((body.drop (0xE00 + 8 * w)).take 8)))

/-- CONTEXT_RESTORE_DONE: the slot whose VALID is 1 is read and checked, and the state, held signals, transfers and pending fault
come back. -/
def State.restoreDone (s : State) (t c : Nat) (err : MemErr) : State :=
  if s.ctxState t c ≠ 5 then s
  else
    match ((s.strike err).onBehalf t).readMem (s.ctxSlot t c 0 + 0x28) 1 with
    | (.detected h x, s) => (s.chargeMem h x t).restoreFailed t c
    | (.ok v, s) =>
    let a := s.ctxSlot t c (if leNat v = 1 then 0 else 1)
    match s.readMem a 256 with
    | (.detected h x, s) => (s.chargeMem h x t).restoreFailed t c
    | (.ok hdr, s) =>
      match ctxHeaderOf t c hdr, s.saved.find? (fun e => e.1 == t * 64 + c) with
      | some (len, crc), some (_, ctx) =>
        match s.readMem (a + 256) (len - 256) with
        | (.detected h x, s) => (s.chargeMem h x t).restoreFailed t c
        | (.ok body, s) =>
          if (crc64 body).toNat ≠ crc then s.restoreFailed t c
          else
            let s := s.reload t c ctx body
            let s := (((s.setCtx t c 0).setResult t c 0).cnt Reg.MOV_RESTORE_CNT).evq t 3 c 0
            let s := (s.applyHeld t c).continueAfter c t
            if ctx.clu.before = seqFaulted ∧ s.preemptBarred t = false then s.reraise c (ctxFault body) else s
      | _, _ => s.restoreFailed t c

def execContextRestoreDone (c : Fin 64) (t : Fin 4) (err : MemErr) (s : State) : Host.Outcome State Fault Refusal :=
  .next (s.restoreDone t c err)

/-- DISCARD: both slots' VALID bytes and the holding counts are cleared. -/
def State.discard (s : State) (t c : Nat) : State :=
  if s.ctxState t c ≠ 3 then s.ctxIgnored t c
  else
    let s := (s.storeCharged false (s.ctxSlot t c 0 + 0x28) [0] t).2
    let s := (s.storeCharged false (s.ctxSlot t c 1 + 0x28) [0] t).2
    ((s.dropSaved t c).setCtx t c 0).setResult t c 0

/-- PREEMPT_DISCARD. -/
def State.preemptDiscard (s : State) (t : Nat) : State :=
  s.preemptMask.foldl (fun (s : State) c => if s.preemptBarred t then s.ctxIgnored t c else s.discard t c) s

def execPreemptDiscard (by_ : Fin 4) (t : Fin 4) (s : State) : Host.Outcome State Fault Refusal :=
  .next (if by_ = 0 then s.preemptDiscard t else s)

/-! ### Self-test slices (R457, R459) -/

def State.sliceSkip (s : State) : State := s.event Reg.GLB_RAS_STATUS (bitField 6) Reg.GLB_SLICE_SKIP_CNT

/-- A cluster of a slice: its tenant's save is requested, or its test stream starts, or it is left out. -/
def State.sliceCluster (s : State) (c : Nat) : State :=
  match s.slice with
  | none => s
  | some sl =>
    let t := s.seqTenant c
    if s.seqState c = seqIdle then ({ s with slice := some { sl with left := sl.left ++ [c] } }).startTestStream c
    else if t ≠ 0 ∧ s.ctxRegionOk t = true ∧ s.requestOk t c = true then
      { s with slice := some { sl with left := sl.left ++ [c], saved := sl.saved ++ [(c, t)] } }.request t c false
    else s.sliceSkip

/-- Slice `k` runs (R459). -/
def State.startSlice (s : State) (k : Nat) : State :=
  if 15 < k ∨ s.slice.isSome then s.sliceSkip
  else
    let mask := s.rd (Reg.GLB_SLICE_MASK k)
    let s := { s with slice := some { k := k, left := [], saved := [] } }.cnt Reg.GLB_SLICE_CNT
    let s := ((List.range 64).filter mask.getLsbD).foldl State.sliceCluster s
    match s.slice with
    | some sl => if sl.left.isEmpty then { s with slice := none } else s
    | none => s

/-- What one test of a slice says of its unit: a replay of an open condition record, or a test of an UNTESTED unit or of the
rotation, which ROTATE admits (R456, R457, R459, R471). -/
def State.sliceTest (rotate : Bool) (s : State) (x : BitVec 32 × TestResult) : State :=
  let u := x.1.toNat
  let res := x.2
  let r := s.unitOf u
  let q : TestReq := { unit := u, cls := s.lastChange.2.2.2, tenant := 0, dpa := 0, cpos := s.rd Reg.CAD_POS, tsc := s.now }
  let log (s : State) (code : Nat) : State :=
    s.logError { cls := 8, outcome := code, tenant := 0, unit := u, failIndex := res.failIndex.toNat
                 cpos := q.cpos, tsc := q.tsc, dieTemp := res.dieTemp.toNat, railMv := res.railMv.toNat }
  if r.cond then
    let conf := if res.fail then r.conf + 1 else r.conf
    let s := s.setUnit u { r with replays := r.replays + 1 }
    let s := if res.fail then log (s.confirm u 8) 4 else s
    if 3 ≤ conf then (s.retireUnit u 8 res.failMap).outcome { q with cls := 8 } 2 Reg.GLB_PERMANENT_CNT 2 res
    else if r.replays + 1 < 8 then s
    else log (s.unitChange u { r with cond := false, conf := 0, replays := 0, state := s.inServiceClear u } 6 0) 6
  else if r.untested then s.classify { q with cls := 8 } res
  else if !rotate then s
  else if res.fail then (s.retireUnit u 8 res.failMap).outcome { q with cls := 8 } 2 Reg.GLB_PERMANENT_CNT 2 res
  else s.setUnit u { r with last := some s.now }

/-- SLICE_CLUSTER_END: the cluster's test stream ends with the results of its tests, and the tenant saved for it is restored. -/
def State.sliceEnd (s : State) (c : Nat) (tests : List (BitVec 32 × TestResult)) : State :=
  match s.slice with
  | none => s
  | some sl =>
    if !sl.left.contains c || !(s.cl c).testStream || !s.portsDone c 15 then s
    else
      let s := tests.foldl (State.sliceTest (s.fld (Reg.GLB_SLICE_CTL sl.k) Fld.GLB_SLICE_CTL_ROTATE == 1)) s
      let s := s.sliceState c false
      let s := (s.setCl c (s.cl c).vacated).setSeqState c seqIdle
      let left := sl.left.filter (· ≠ c)
      let s := { s with slice := if left.isEmpty then none else some { sl with left := left } }
      match sl.saved.find? (fun p => p.1 == c) with
      | some p => s.beginRestore p.2 c
      | none => s

def execSliceClusterEnd (c : Fin 64) (tests : List (BitVec 32 × TestResult)) (s : State) : Host.Outcome State Fault Refusal :=
  .next (s.sliceEnd c tests)

end Sys2Proof.Machine
end

