-- ==== Sys2Proof/Machine/Restore.lean ====
section
/-!
DEFINITION. Storage drains and loads (R397, R398, R417) and the restore agent (R401 to R405, R416) of
spec/12_training_state_and_restart.md.
-/
namespace Sys2Proof.Machine

/-! ### Storage drains and loads -/

def State.drainState (s : State) (k : Nat) : Nat := s.fld (Reg.MEM_DRAIN_STATUS k) Fld.MEM_DRAIN_STATUS_STATE
def State.drainFail (s : State) : State := s.event Reg.MEM_TS_STATUS (bitField 6) Reg.MEM_DRAIN_FAIL_CNT



def State.drainLocal (s : State) (k : Nat) : Nat := s.fld (Reg.MEM_DRAIN_LOCAL k) Fld.MEM_DRAIN_LOCAL_DPA
def State.drainLen (s : State) (k : Nat) : Nat := s.fld (Reg.MEM_DRAIN_LEN k) Fld.MEM_DRAIN_LEN_LEN

/-- The source of a drain: the valid mirror (2), or a SEALED bank (0, 1), of LEN bytes. -/
def State.drainSource (s : State) (k : Nat) : Option Nat :=
  let a := s.drainLocal k
  let n := s.drainLen k
  if n = 0 then none
  else if 2 ≤ s.mirrorState ∧ a = s.mirrorBase ∧ n = s.mirrorLen then some 2
  else [0, 1].find? (fun b => s.bankState b == 2 && a == s.bankBase b && n == s.bankLen)

/-- A running drain of the mirror. -/
def State.mirrorDrains (s : State) : Bool :=
  (List.range 8).any (fun k => s.drainState k == 1 && s.fld (Reg.MEM_DRAIN_CTL k) Fld.MEM_DRAIN_CTL_DIR == 0 && s.drainSource k == some 2)

/-- The operation of descriptor `k` ends with a result; the mirror is VALID again when no other drain reads it. -/
def State.drainEnd (s : State) (k result : Nat) : State :=
  let s := (s.setFld (Reg.MEM_DRAIN_STATUS k) Fld.MEM_DRAIN_STATUS_STATE 2).setFld (Reg.MEM_DRAIN_STATUS k)
    Fld.MEM_DRAIN_STATUS_RESULT result
  let s := if s.mirrorState = 3 ∧ s.mirrorDrains = false then s.setFld Reg.MEM_MIRROR_STATE Fld.MEM_MIRROR_STATE_STATE 2 else s
  if result = 0 then s.cnt Reg.MEM_DRAIN_CNT else s.drainFail

/-- The queue pair of a descriptor, its remote key and address. -/
def State.drainQp (s : State) (k : Nat) : Nat := s.fld (Reg.MEM_DRAIN_CTL k) Fld.MEM_DRAIN_CTL_QP
def State.drainKey (s : State) (k : Nat) : Nat := s.fld (Reg.MEM_DRAIN_CTL k) Fld.MEM_DRAIN_CTL_RKEY
def State.drainRemote (s : State) (k : Nat) : Nat := (s.rd (Reg.MEM_DRAIN_REMOTE k)).toNat

/-- The queue pair is in service on the port that the descriptor names. -/
def State.drainQpOk (s : State) (k : Nat) : Bool :=
  decide (qpn 0 ≤ s.drainQp k) && (s.liveQp (s.drainQp k - qpn 0)).any (fun q =>
    q.port == s.fld (Reg.MEM_DRAIN_CTL k) Fld.MEM_DRAIN_CTL_PORT)

/-- The READs of a load: the object in messages of at most 1 GiB (R519), and its trailer. -/
def State.postLoad (s : State) (k : Nat) : State :=
  let n := s.drainLen k
  let parts := (List.range ((n + 2 ^ 30 - 1) / 2 ^ 30)).map (fun i => (i * 2 ^ 30, min (2 ^ 30) (n - i * 2 ^ 30))) ++ [(n, 128)]
  parts.foldl (fun (s : State) p => s.ownPost (s.drainQp k) 2 (s.drainKey k) (s.drainRemote k + p.1) p.2 []) s

/-- CKP_DRAIN or GO: descriptor `k`'s operation starts, or ends at once BUSY, BAD_INDEX or SRC_INVALID. -/
def State.startDrain (s : State) (k : Nat) : State :=
  if 7 < k then s.drainFail
  else if s.drainState k = 1 then
    (s.setFld (Reg.MEM_DRAIN_STATUS k) Fld.MEM_DRAIN_STATUS_RESULT 1).drainFail
  else
    let s := s.setFld (Reg.MEM_DRAIN_DONE k) Fld.MEM_DRAIN_DONE_BYTES 0
    let run (s : State) (step : Nat) : State :=
      ((s.setFld (Reg.MEM_DRAIN_STATUS k) Fld.MEM_DRAIN_STATUS_STATE 1).setFld (Reg.MEM_DRAIN_STATUS k)
        Fld.MEM_DRAIN_STATUS_RESULT 0).setFld (Reg.MEM_DRAIN_STATUS k) Fld.MEM_DRAIN_STATUS_STEP step
    if s.fld (Reg.MEM_DRAIN_CTL k) Fld.MEM_DRAIN_CTL_DIR = 1 then (run s 0).postLoad k
    else match s.drainSource k with
      | none => s.drainEnd k 3
      | some 2 =>
        run (s.setFld Reg.MEM_MIRROR_STATE Fld.MEM_MIRROR_STATE_STATE 3)
          (s.fld Reg.MEM_MIRROR_STATE Fld.MEM_MIRROR_STATE_STEP)
      | some b => run s (s.bankStep b)

/-- A write of another register of a descriptor (R417). -/
def State.writeDrain (s : State) (k slot : Nat) (v : BitVec 64) : State := if s.drainState k = 1 then s else s.writeCodes slot v

/-- DRAIN_GO: a write of MEM_DRAIN_CTL_k with GO; ignored while the descriptor runs (R417). -/
def State.writeDrainCtl (s : State) (k : Nat) (v : BitVec 64) : State :=
  if s.drainState k = 1 then s
  else
    let s := s.writeCodes (Reg.MEM_DRAIN_CTL k) v
    if v.getLsbD 2 then s.startDrain k else s

def execDrainGo (by_ : Fin 4) (k : Fin 8) (v : BitVec 64) (s : State) : Host.Outcome State Fault Refusal :=
  .next (if by_ = 0 then s.writeDrainCtl k v else s)

/-- Bytes in 64 KiB chunks, the last one short. -/
def chunks64k : Nat → List Byte → List (List Byte)
  | 0, _ => []
  | n + 1, bs => if bs.isEmpty then [] else bs.take 65536 :: chunks64k n (bs.drop 65536)

/-- The digest of R398. -/
def objectDigest (bs : List Byte) : List Byte := sm3 ((chunks64k (bs.length / 65536 + 1) bs).flatMap sm3)

def State.showDigest (s : State) (k : Nat) (d : List Byte) : State :=
  let w (i : Nat) : BitVec 64 := BitVec.ofNat 64 (leNat ((d.drop (8 * i)).take 8))
  (((s.wr (Reg.MEM_DRAIN_DIG_LO k) (w 0)).wr (Reg.MEM_DRAIN_DIG_HI k) (w 1)).wr (Reg.MEM_DRAIN_DIG_X0 k) (w 2)).wr
    (Reg.MEM_DRAIN_DIG_X1 k) (w 3)

/-- The trailer of an object read from a bank image. -/
def objectTrailer (bs : List Byte) (digest : List Byte) : List Byte :=
  let f (off n : Nat) := (bs.drop off).take n
  leBytes 4 0x54534B43 ++ leBytes 2 1 ++ f 0x10 2 ++ leBytes 8 (leNat (f 0 8) % 2 ^ 40) ++ f 0x18 8 ++ leBytes 8 bs.length
    ++ digest ++ leBytes 64 0

/-- A drain reads its source in 64 KiB chunks, writes them to the remote address by RDMA WRITE and the trailer after them. -/
def State.runDrain (s : State) (k : Nat) : State :=
  let a := s.drainLocal k
  let n := s.drainLen k
  match (s.onBehalf 0).readMem a n with
  | (.detected h x, s) => (s.chargeMem h x 0).drainEnd k 4
  | (.ok bs, s) =>
    let cs := chunks64k (n / 65536 + 1) bs
    let digest := objectDigest bs
    let s := ((List.range cs.length).zip cs).foldl (fun (s : State) c => s.ownPost (s.drainQp k) 1 (s.drainKey k) (s.drainRemote k + c.1 * 65536)
      c.2.length c.2) s
    let s := s.ownPost (s.drainQp k) 1 (s.drainKey k) (s.drainRemote k + n) 128 (objectTrailer bs digest)
    let s := (s.showDigest k digest).setFld (Reg.MEM_DRAIN_DONE k) Fld.MEM_DRAIN_DONE_BYTES n
    s.drainEnd k 0

/-- A load lands the object it read, and checks its trailer and digest. -/
def State.runLoad (s : State) (k : Nat) (object : List Byte) : State :=
  let n := s.drainLen k
  let bs := object.take n
  let tr := object.drop n
  let f (off len : Nat) : Nat := leNat ((tr.drop off).take len)
  let w := (s.onBehalf 0).write (s.drainLocal k) bs
  let digest := objectDigest bs
  let s := (w.2.showDigest k digest).setFld (Reg.MEM_DRAIN_DONE k) Fld.MEM_DRAIN_DONE_BYTES bs.length
  let s := s.setFld (Reg.MEM_DRAIN_STATUS k) Fld.MEM_DRAIN_STATUS_STEP (f 8 8)
  if w.1.isSome then (s.chargeWrite w.1 0).drainEnd k 4
  else if f 0 4 ≠ 0x54534B43 ∨ f 4 2 ≠ 1 ∨ f 0x18 8 ≠ n ∨ (tr.drop 0x20).take 32 ≠ digest then s.drainEnd k 6
  else s.drainEnd k 0

/-- STORAGE_DRAIN_END: the running operation of descriptor `k` ends; `qpError` where its queue pair failed, `object` the bytes and
trailer a load has read. -/
def execStorageDrainEnd (k : Fin 8) (qpError : Bool) (err : MemErr) (object : List Byte) (s : State) :
    Host.Outcome State Fault Refusal :=
  .next (if s.drainState k ≠ 1 then s
    else
      let s := s.strike err
      if qpError || !s.drainQpOk k then s.drainEnd k 5
      else if s.fld (Reg.MEM_DRAIN_CTL k) Fld.MEM_DRAIN_CTL_DIR = 1 then s.runLoad k object
      else if (s.drainSource k).isNone then s.drainEnd k 3
      else s.runDrain k)

/-! ### The restore agent -/

def State.rstState (s : State) : Nat := s.fld Reg.MEM_RST_STATUS Fld.MEM_RST_STATUS_STATE

/-- RESTORE_LIST_GO: a write of MEM_RST_CTL; GO starts the list unless one is BUSY (R416). -/
def State.writeRstCtl (s : State) (v : BitVec 64) : State :=
  let busy := s.rstState = 1
  let s := s.writeCodes Reg.MEM_RST_CTL v
  if v.getLsbD 16 ∧ ¬busy then s.wr Reg.MEM_RST_STATUS 1 else s

def execRestoreListGo (by_ : Fin 4) (v : BitVec 64) (s : State) : Host.Outcome State Fault Refusal :=
  .next (if by_ = 0 then s.writeRstCtl v else s)

/-- The list stops at an entry with a result other than OK (R405). -/
def State.rstReject (s : State) (ix result : Nat) : State :=
  let s := ((s.setFld Reg.MEM_RST_STATUS Fld.MEM_RST_STATUS_STATE 3).setFld Reg.MEM_RST_STATUS Fld.MEM_RST_STATUS_RESULT
    result).setFld Reg.MEM_RST_STATUS Fld.MEM_RST_STATUS_INDEX ix
  s.event Reg.MEM_TS_STATUS (bitField 4) Reg.MEM_RST_REJ_CNT

def State.rstDone (s : State) (ix : Nat) : State :=
  ((s.setFld Reg.MEM_RST_STATUS Fld.MEM_RST_STATUS_STATE 2).setFld Reg.MEM_RST_STATUS Fld.MEM_RST_STATUS_RESULT 0).setFld
    Reg.MEM_RST_STATUS Fld.MEM_RST_STATUS_INDEX ix

/-- A SLOT entry (R402): its result, 0 for applied. -/
def State.rstSlot (s : State) (e : List Byte) : Nat × State :=
  let f (off n : Nat) : Nat := leNat ((e.drop off).take n)
  let sl := f 1 1
  let ndi := f 0x18 8
  let pos := f 0x20 8
  let busy := s.slotOwner sl != 1 || (List.range 64).any (fun c => s.seqState c == 1 && s.seqTenant c == 1 && s.seqSlot c == sl)
  let d := (ndi + 2 ^ 40 - pos) % 2 ^ 40
  let put (s : State) (n : Nat) : State :=
    let s := (s.wr (Reg.STK_KEY_LO sl) (BitVec.ofNat 64 (f 8 8))).wr (Reg.STK_KEY_HI sl) (BitVec.ofNat 64 (f 0x10 8))
    (s.setFld (Reg.STK_NDI sl) Fld.STK_NDI_NDI n).writeDpos sl (BitVec.ofNat 64 (f 0x28 8))
  if busy then (6, s)
  else if d = 0 then (0, put s ndi)
  else if d = 1 ∨ d = 2 ^ 40 - 1 then
    let s := (put s pos).tellKeeper 5 sl 0
    let s := s.event Reg.MEM_TS_STATUS (bitField 3) Reg.MEM_REALIGN_CNT
    let s := s.setFld Reg.MEM_RST_STATUS Fld.MEM_RST_STATUS_REALIGNED (s.fld Reg.MEM_RST_STATUS Fld.MEM_RST_STATUS_REALIGNED + 1)
    (0, s.evq 1 5 0 sl)
  else (1, s)

/-- The bytes of an entry that its kind does not name are 0 (R401). -/
def rstReservedOk (e : List Byte) (kind : Nat) : Bool :=
  let zero (lo n : Nat) : Bool := leNat ((e.drop lo).take n) == 0
  match kind with
  | 1 => zero 2 6 && zero 0x30 16 && zero 0x1D 3 && zero 0x25 3 && decide (leNat ((e.drop 1).take 1) < 16)
  | 2 => zero 1 7 && zero 0x10 48
  | 3 => zero 1 7 && zero 0x20 32
  | 4 => zero 1 7 && zero 0x20 32
  | _ => false

/-- One entry at `a` (R401 to R405): its result. -/
def State.rstEntry (s : State) (a : Nat) (e : List Byte) : Nat × State :=
  let f (off n : Nat) : Nat := leNat ((e.drop off).take n)
  let kind := f 0 1
  let dpa := f 8 8
  let len := f 0x10 8
  if !rstReservedOk e kind then (4, s)
  else match kind with
    | 1 => s.rstSlot e
    | 2 =>
      if s.fld Reg.CAD_CTL Fld.CAD_CTL_EN = 1 then (5, s) else (0, s.wr Reg.CAD_POS (BitVec.ofNat 64 (f 8 8)))
    | _ =>
      if dpa % 64 ≠ 0 ∨ len % 64 ≠ 0 ∨ s.memTop < dpa + len then (4, s)
      else match (s.onBehalf 0).readMem dpa len with
        | (.detected h x, s) => (3, s.chargeMem h x 0)
        | (.ok bs, s) =>
          if kind = 4 then
            let w := s.write (a + 0x18) (leBytes 8 (crc64 bs).toNat)
            (if w.1.isSome then 3 else 0, w.2.chargeWrite w.1 0)
          else (if (crc64 bs).toNat = f 0x18 8 then 0 else 2, s)

/-- Entries in order, to the first failure, an END or the last. -/
def State.runList : Nat → State → Nat → Nat → State
  | 0, s, _, ix => s.rstDone ix
  | n + 1, s, base, ix =>
    let a := base + 64 * ix
    match (s.onBehalf 0).readMem a 64 with
    | (.detected h x, s) => (s.chargeMem h x 0).rstReject ix 3
    | (.ok e, s) =>
      if leNat (e.take 1) = 0 then
        if leNat e = 0 then s.rstDone ix else s.rstReject ix 4
      else
        let r := s.rstEntry a e
        if r.1 = 0 then State.runList n r.2 base (ix + 1) else r.2.rstReject ix r.1

/-- RESTORE_LIST_END: the list has run. -/
def execRestoreListEnd (err : MemErr) (s : State) : Host.Outcome State Fault Refusal :=
  .next (if s.rstState ≠ 1 then s
    else
      let s := s.strike err
      State.runList (s.fld Reg.MEM_RST_CTL Fld.MEM_RST_CTL_COUNT) s (s.fld Reg.MEM_RST_LIST Fld.MEM_RST_LIST_DPA) 0)

end Sys2Proof.Machine
end

