-- ==== Sys2Proof/Machine/Power.lean ====
section
/-!
DEFINITION. The estimator, the governor, pooling, droop and thermal control (spec/13_power_thermal.md), in exact fractions; a
register shows the value below its unit (log entry on rounding).
-/
namespace Sys2Proof.Machine

/-- The value of a fraction in units of a register field: the part below the unit is dropped, the field saturates. -/
def showFrac (q : Frac) (per width : Nat) : Nat := min (2 ^ width - 1) ((q.mul (Frac.ofInt per)).floor).toNat

def sumFrac (l : List Frac) : Frac := Frac.sum l
def fracN (n : Nat) : Frac := Frac.ofInt n

/-! ### The estimator (R420 to R422, R437) -/

/-- The rail and the domain (0 COMPUTE, 1 MEMORY, 2 LINK, 3 FIXED) of a source. -/
def sourceRail (i : Nat) : Nat := if i < 5 then 0 else if i < 8 then 1 else if i < 10 then 2 else if i = 10 then 3 else 4
def sourceDomain (i : Nat) : Nat := if i < 7 then 0 else if i = 7 then 2 else if i < 10 then 1 else if i = 10 then 2 else 3

def Power.g (p : Power) (r : Nat) : Frac := p.gain.getD r ⟨1, 1⟩
def Power.o (p : Power) (r : Nat) : Frac := p.offset.getD r ⟨0, 1⟩

/-- w[i] × n ÷ 2 µs, in W. -/
def State.sourceW (s : State) (i n : Nat) : Frac := ⟨s.fld (Reg.PWR_WEIGHT i) Fld.PWR_WEIGHT_W * n * 5, 1000000000⟩

/-- The total count of a source over the tenants. -/
def sourceCount (counts : List (List Nat)) (i : Nat) : Nat := counts.foldl (fun n l => n + l.getD i 0) 0

/-- d[r] of a period. -/
def State.railD (s : State) (counts : List (List Nat)) (r : Nat) : Frac :=
  sumFrac (((List.range 12).filter (fun i => sourceRail i == r)).map (fun i => s.sourceW i (sourceCount counts i)))

/-- Estimated power of a domain; FIXED adds every offset (R418, R421). -/
def State.domainP (s : State) (counts : List (List Nat)) (d : Nat) : Frac :=
  let act := sumFrac (((List.range 12).filter (fun i => sourceDomain i == d)).map (fun i =>
    (s.pw.g (sourceRail i)).mul (s.sourceW i (sourceCount counts i))))
  if d = 3 then act.add (sumFrac s.pw.offset) else act

/-- The energy of a period, in µJ, of tenant `t`, or with 4 of nobody (R437). -/
def State.energyOf (s : State) (counts : List (List Nat)) (t : Nat) : Frac :=
  let src (i n : Nat) : Frac := ((s.pw.g (sourceRail i)).mul (s.sourceW i n)).mul (fracN 2)
  if t = 4 then (sumFrac s.pw.offset).mul (fracN 2)
  else sumFrac ((List.range 12).map (fun i =>
    if i = 7 ∨ i = 10 then (if t = 1 then src i (sourceCount counts i) else ⟨0, 1⟩) else src i ((counts.getD t []).getD i 0)))

def State.addEnergy (s : State) (counts : List (List Nat)) : State :=
  let e := (List.range 5).map (fun t => (s.pw.energy.getD t ⟨0, 1⟩).add (s.energyOf counts t))
  let s := { s with pw := { s.pw with energy := e } }
  (List.range 5).foldl (fun (s : State) t =>
    s.setFld (if t = 4 then Reg.PWR_ENERGY_UNATTR else Reg.PWR_ENERGY t) Fld.COUNT (((e.getD t ⟨0, 1⟩).floor).toNat)) s

/-- PWR_RAIL shows the gain and the offset. -/
def State.showRail (s : State) (r : Nat) : State :=
  (s.setFld (Reg.PWR_RAIL r) Fld.PWR_RAIL_GAIN (showFrac (s.pw.g r) 4096 16)).setFld (Reg.PWR_RAIL r) Fld.PWR_RAIL_OFFSET
    (ofSigned 16 (((s.pw.o r).mul (fracN 10)).floor))

/-- A sensor gives no valid reading; the third in a row fails it (R433). -/
def State.sensorMissing (s : State) (i : Nat) : State :=
  let n := s.pw.fails.get 0 i + 1
  let s := { s with pw := { s.pw with fails := s.pw.fails.set 0 i n } }
  if n ≠ 3 then s
  else (s.setFld (Reg.THM_TEMP i) Fld.THM_TEMP_FAIL 1).event Reg.THM_STATUS Fld.THM_STATUS_SENSOR_FAIL Reg.THM_SENSOR_FAIL_CNT

/-- A sensor gives a valid reading. -/
def State.sensorValid (s : State) (i t : Nat) : State :=
  let s := { s with pw := { s.pw with fails := s.pw.fails.set 0 i 0 } }
  (s.setFld (Reg.THM_TEMP i) Fld.THM_TEMP_TEMP t).setFld (Reg.THM_TEMP i) Fld.THM_TEMP_FAIL 0

/-- AVS_TELEMETRY_READ: every rail's voltage, current and temperature are read; a valid sample pairs the measured power with the mean
estimate of the periods it covers, and a regulator that answers nothing counts toward its sensor's failure (R419, R422, R433). -/
def State.telemetry (s : State) (rails : List (Option AvsRead)) (alerts : List Nat) : State :=
  let n := max 1 s.pw.periods
  let s := (List.range 5).foldl (fun (s : State) r =>
    match rails.getD r none with
    | none => s.sensorMissing (98 + r)
    | some x =>
      let p : Frac := ⟨x.mv * x.ma, 1000000⟩
      let d := (s.pw.dsum.getD r ⟨0, 1⟩).div (fracN n)
      let l := s.pw.samples.getD r []
      let s := { s with pw := { s.pw with samples := s.pw.samples.set r (l ++ [(d, p)]) } }
      let s := s.setFld (Reg.PWR_RAIL r) Fld.PWR_RAIL_MEAS (showFrac p 10 16)
      let s := s.setFld (Reg.PWR_RAIL r) Fld.PWR_RAIL_MV x.mv
      s.sensorValid (98 + r) x.temp.toNat) s
  { s with pw := { s.pw with dsum := List.replicate 5 ⟨0, 1⟩, periods := 0, railAlert := alerts } }

def execAvsTelemetryRead (rails : List (Option AvsRead)) (alerts : List Nat) (s : State) : Host.Outcome State Fault Refusal :=
  .next (s.telemetry rails alerts)

def clampFrac (q lo hi : Frac) : Frac := if q.lt lo then lo else if hi.lt q then hi else q

/-- One rail's refit (R422); a spread of 0 over a mean of 0 leaves the fitted gain open. -/
def State.refitRail (s : State) (r : Nat) : State :=
  let all := s.pw.samples.getD r []
  if all.length < 20 then s.event Reg.PWR_STATUS Fld.PWR_STATUS_TELEM Reg.PWR_TELEM_LOSS_CNT
  else
    let xs := all.drop (all.length - 20)
    let mean (l : List Frac) : Frac := (sumFrac l).div (fracN 20)
    let md := mean (xs.map (·.1))
    let mm := mean (xs.map (·.2))
    let sdd := sumFrac (xs.map (fun x => (x.1.sub md).mul (x.1.sub md)))
    let sdm := sumFrac (xs.map (fun x => (x.1.sub md).mul (x.2.sub mm)))
    let bound := (md.mul md).mul ⟨20, 2500⟩
    let g := s.pw.g r
    let (fit, s) := if sdd.isZero then (let f := s.free; ((⟨f.1.toInt, 4096⟩ : Frac), f.2)) else (sdm.div sdd, s)
    let g1 := if bound.le sdd then g.add ((fit.sub g).mul ⟨1, 4⟩) else g
    let g2 := if bound.le sdd then clampFrac g1 ⟨1, 2⟩ ⟨2, 1⟩ else g1
    let s := if g2.eqv g1 then s else s.event Reg.PWR_STATUS Fld.PWR_STATUS_CAL_CLAMP Reg.PWR_CAL_CLAMP_CNT
    let o := s.pw.o r
    let o1 := o.add (((mm.sub (g2.mul md)).sub o).mul ⟨1, 4⟩)
    let s := { s with pw := { s.pw with gain := s.pw.gain.set r g2, offset := s.pw.offset.set r o1 } }
    s.showRail r

/-- ESTIMATOR_REFIT: every 1 ms each rail is refitted on the samples of the interval. -/
def execEstimatorRefit (s : State) : Host.Outcome State Fault Refusal :=
  let s := (List.range 5).foldl State.refitRail s
  .next { s with pw := { s.pw with samples := List.replicate 5 [] } }

/-! ### Caps and profiles (R423, R427) -/

/-- The bounds of PWR_CAP.CAP. -/
def capBound (w : Nat) : Nat := min 2400 (max 900 w)

def State.profile (s : State) : Nat := s.fld Reg.PWR_ACTIVE Fld.PWR_ACTIVE_PROFILE
def State.prof (s : State) (f : Field) : Nat := s.fld (Reg.PWR_PROFILE s.profile) f
def State.pwrCap (s : State) : Nat := capBound (s.fld Reg.PWR_CAP Fld.PWR_CAP_CAP)
def State.alert (s : State) : Bool :=
  s.fld Reg.PWR_CTL Fld.PWR_CTL_ALERT_EN == 1 && (s.pw.brdAlert || !s.pw.railAlert.isEmpty)
def State.alertCap (s : State) : Nat := if s.alert then capBound (s.fld Reg.PWR_CAP Fld.PWR_CAP_ALERT_CAP) else 2400
def State.thermCap (s : State) : Nat := s.fld Reg.THM_CAP Fld.THM_CAP_CAP
def State.poolEn (s : State) : Bool := s.fld Reg.PWR_CTL Fld.PWR_CTL_POOL_EN == 1
def State.grantW (s : State) : Nat := s.fld Reg.PWR_ACTIVE Fld.PWR_ACTIVE_GRANT
def State.boardGrant (s : State) : Nat := if s.poolEn then (if s.pw.pooling then s.grantW else s.pwrCap) else 2400
def State.capEff (s : State) : Nat :=
  min (min (capBound (s.prof Fld.PWR_PROFILE_CAP)) s.pwrCap) (min s.boardGrant (min s.thermCap s.alertCap))

/-- A profile is selected; it becomes active at the next period boundary. -/
def State.selectProfile (s : State) (k : Nat) : State := { s with pw := { s.pw with nextProfile := some (k % 16) } }

/-- The members of the pool (R428, R440). -/
def State.poolN (s : State) : Nat := s.fld Reg.PWR_POOL Fld.PWR_POOL_N
def State.poolL (s : State) : Nat := s.fld Reg.PWR_POOL Fld.PWR_POOL_LIMIT
def State.poolMembers (s : State) : List Nat :=
  (List.range s.poolN).map (fun m => s.fld (Reg.PWR_POOL_MBR (m / 4)) ⟨16 * (m % 4), 15⟩)

/-- Where pooling is on but could not start, the board grant is PWR_CAP.CAP as it stands (R428). -/
def State.showGrant (s : State) : State :=
  if s.poolEn && !s.pw.pooling then s.setFld Reg.PWR_ACTIVE Fld.PWR_ACTIVE_GRANT s.pwrCap else s

/-- PWR_CAP takes a value: T0's write, or SET_CAP with the board manager's CAP. -/
def State.writeCap (s : State) (v : BitVec 64) : State := (s.writeCodes Reg.PWR_CAP v).showGrant

/-- Pooling is switched on: it starts, or sets POOL_ERR with the grant at PWR_CAP.CAP (R428). -/
def State.startPool (s : State) : State :=
  let n := s.poolN
  if 2 ≤ n ∧ n ≤ 8 ∧ n * 900 ≤ s.poolL ∧ s.poolMembers.contains s.chip then
    { s with pw := { s.pw with pooling := true } }.setFld Reg.PWR_ACTIVE Fld.PWR_ACTIVE_GRANT (min (s.poolL / n) s.pwrCap)
  else
    ({ s with pw := { s.pw with pooling := false } }.event Reg.PWR_STATUS Fld.PWR_STATUS_POOL_ERR Reg.PWR_POOL_ERR_CNT).showGrant

/-- PWR_PROFILE_SELECT: a write of PWR_CTL. PROFILE selects, and reads the active profile; POOL_EN starts and ends pooling. -/
def State.writePwrCtl (s : State) (v : BitVec 64) : State :=
  let was := s.poolEn
  let active := s.profile
  let s := (s.writeCodes Reg.PWR_CTL v).setFld Reg.PWR_CTL Fld.PWR_CTL_PROFILE active
  let s := s.selectProfile (getField v Fld.PWR_CTL_PROFILE)
  if s.poolEn && !was then s.startPool
  else if !s.poolEn && was then
    { s with pw := { s.pw with pooling := false, heard := [] } }.setFld Reg.PWR_ACTIVE Fld.PWR_ACTIVE_GRANT 0
  else s

def execPwrProfileSelect (by_ : Fin 4) (v : BitVec 32) (s : State) : Host.Outcome State Fault Refusal :=
  .next (if by_ = 0 then s.writePwrCtl (v.setWidth 64) else s)

/-! ### The governor (R423 to R426, R431) -/

def State.vf (s : State) (k : Nat) : Nat := s.fld (Reg.PWR_VF k) Fld.PWR_VF_MV

/-- P(f) of R425 at full rank admission, from the VDD_CORE and VDD_BASE parts of the period. -/
def State.powerAt (s : State) (a b : Frac) (k : Nat) : Frac :=
  let r : Frac := ⟨levelMHz k, levelMHz s.flevel⟩
  let v : Frac := if s.vf s.flevel = 0 then ⟨1, 1⟩ else ⟨s.vf k, s.vf s.flevel⟩
  ((a.mul r).mul (v.mul v)).add (b.mul r)

/-- P ÷ V ≤ ILIM, where ILIM is set. -/
def State.ilimOk (s : State) (p : Frac) (k : Nat) : Bool :=
  let i := s.fld Reg.PWR_ILIM Fld.PWR_ILIM_ILIM
  i == 0 || (p.mul (fracN 1000)).le (fracN (i * s.vf k))

/-- The setting of the COMPUTE actuator as one scale: duty 4 to 16 at level 0, then the levels. -/
def cSetting (level duty : Nat) : Nat := if level = 0 then duty - 4 else 12 + level

/-- The largest admission duty from `lo` to 16 whose power fits; `lo` where none does. -/
def dutyFor (lo : Nat) (fits : Nat → Bool) : Nat := ((List.range (17 - lo)).map (16 - ·)).find? fits |>.getD lo

/-- Down by any amount, up by one step. -/
def stepTo (now want : Nat) : Nat := if want ≤ now then want else now + 1

/-- The governor's division of R423: the grants of COMPUTE, MEMORY and LINK. -/
def divide (order : List Nat) (floor demand : List Frac) : Frac → List (Nat × Frac)
  | avail => match order with
    | [] => []
    | d :: rest =>
      let f := floor.getD d ⟨0, 1⟩
      let left := sumFrac (rest.map (fun e => floor.getD e ⟨0, 1⟩))
      let x := demand.getD d ⟨0, 1⟩
      let room := avail.sub left
      let g := f.max (if x.lt room then x else room)
      (d, g) :: divide rest floor demand (avail.sub g)

def orderOf (o : Nat) : List Nat :=
  match o with
  | 1 => [2, 0, 1]
  | 2 => [1, 2, 0]
  | 3 => [1, 0, 2]
  | 4 => [0, 2, 1]
  | 5 => [0, 1, 2]
  | _ => [2, 1, 0]

/-- Sensor `i` as degrees ÷ 16. -/
def State.temp (s : State) (i : Nat) : Int := toSigned 16 (s.fld (Reg.THM_TEMP i) Fld.THM_TEMP_TEMP)
def State.limit (s : State) (f : Field) : Int := 16 * (s.fld Reg.THM_LIMITS f : Int)
def State.dieHot (s : State) : Bool := (List.range 90).any (fun i => decide (s.limit Fld.THM_LIMITS_DIE_THROT ≤ s.temp i))
def State.hbmHot (s : State) : Bool := (List.range 8).any (fun i => decide (s.limit Fld.THM_LIMITS_HBM_THROT ≤ s.temp (90 + i)))

/-- A detector is tripped, or fewer than 64 core cycles have passed since the stretch ended: pending changes wait (R431). -/
def State.droopWait (s : State) : Bool :=
  s.stretched || !s.pw.tripped.isEmpty || (s.pw.stretchEnded != 0 && decide ((s.now - s.pw.stretchEnded) * s.coreMHz < 64000))

/-- The target's voltage is written, where the change goes up and may proceed (R431). -/
def State.askVoltage (s : State) : State :=
  let k := s.fld Reg.PWR_FREQ Fld.PWR_FREQ_TARGET
  if s.flevel < k ∧ s.droopWait = false then { s with pw := { s.pw with asked := k } } else s

/-- The clock's target, which replaces a pending one: pending until FREQUENCY_CHANGE; an upward one writes the voltage first (R431). -/
def State.setTarget (s : State) (k : Nat) : State :=
  let s := s.setFld Reg.PWR_FREQ Fld.PWR_FREQ_TARGET k
  (s.setFld Reg.PWR_FREQ Fld.PWR_FREQ_PENDING (if k = s.flevel then 0 else 1)).askVoltage

/-- The period's decision: demands, grants, actuators, reasons. -/
def State.govern (s : State) (counts : List (List Nat)) : State :=
  let cduty := s.fld Reg.PWR_ACTIVE Fld.PWR_ACTIVE_CDUTY
  let mduty := s.fld Reg.PWR_ACTIVE Fld.PWR_ACTIVE_MDUTY
  let lduty := s.fld Reg.PWR_ACTIVE Fld.PWR_ACTIVE_LDUTY
  let part (rail : Nat) : Frac :=
    sumFrac (((List.range 12).filter (fun i => sourceRail i == rail && sourceDomain i == 0)).map (fun i =>
      (s.pw.g rail).mul (s.sourceW i (sourceCount counts i))))
  let full (q : Frac) (n : Nat) : Frac := q.mul ⟨16, max 1 n⟩
  let a := full (part 0) cduty
  let b := full (part 1) cduty
  let fmax := min 26 (s.prof Fld.PWR_PROFILE_FMAX)
  let fixed := s.domainP counts 3
  let demand := [s.powerAt a b fmax, full (s.domainP counts 1) mduty, full (s.domainP counts 2) lduty]
  let floor := [Fld.PWR_PROFILE_FLOOR_C, Fld.PWR_PROFILE_FLOOR_M, Fld.PWR_PROFILE_FLOOR_L].map (fun f => fracN (s.prof f))
  let cap := s.capEff
  let grants := divide (orderOf (s.prof Fld.PWR_PROFILE_ORDER)) floor demand ((fracN cap).sub fixed)
  let grant (d : Nat) : Frac := ((grants.find? (fun e => e.1 == d)).map (·.2)).getD ⟨0, 1⟩
  let fitsG (k : Nat) : Bool := (s.powerAt a b k).le (grant 0)
  let fitsI (k : Nat) : Bool := s.ilimOk (s.powerAt a b k) k
  let levels := (List.range (fmax + 1)).map (fmax - ·)
  let duty0 (fits : Frac → Bool) : Nat := dutyFor 4 (fun n => fits ((s.powerAt a b 0).mul ⟨n, 16⟩))
  let pick (lv : Option Nat) (dt : Nat) : Nat := match lv with
    | some k => cSetting k 16
    | none => cSetting 0 dt
  let wantG : Nat := pick (levels.find? fitsG) (duty0 (fun p => p.le (grant 0)))
  let want : Nat := pick (levels.find? (fun k => fitsG k && fitsI k)) (duty0 (fun p => p.le (grant 0) && s.ilimOk p 0))
  let set := stepTo (cSetting (s.fld Reg.PWR_FREQ Fld.PWR_FREQ_TARGET) cduty) want
  let m0 := dutyFor 4 (fun n => ((demand.getD 1 ⟨0, 1⟩).mul ⟨n, 16⟩).le (grant 1))
  let mBound := s.hbmHot && decide (12 < m0)
  let mNew := stepTo mduty (if mBound then 12 else m0)
  let lNew := stepTo lduty (dutyFor 8 (fun n => ((demand.getD 2 ⟨0, 1⟩).mul ⟨n, 16⟩).le (grant 2)))
  let below := (List.range 3).filter (fun d => (grant d).lt (demand.getD d ⟨0, 1⟩))
  let binds (c : Nat) : Bool := c == cap
  let rs (code : Nat) (on : Bool) : List Nat := if on then below.map (fun d => code * 4 + d) else []
  let reasons := rs 0 (binds (capBound (s.prof Fld.PWR_PROFILE_CAP)) || binds s.pwrCap || (s.poolEn && binds s.grantW))
    ++ (rs 1 (binds s.thermCap) ++ (if mBound then [1 * 4 + 1] else [])).eraseDups
    ++ (if s.fld Reg.PWR_FREQ Fld.PWR_FREQ_STRETCH = 1 then [2 * 4] else [])
    ++ (if Nat.blt want wantG then [3 * 4] else [])
    ++ (if s.pw.rampWaits.isEmpty then [] else [4 * 4])
    ++ rs 5 (binds s.alertCap)
  let s := { s with pw := { s.pw with demand := ((sumFrac (fixed :: demand)).floor).toNat } }
  let s := s.setFld Reg.PWR_ACTIVE Fld.PWR_ACTIVE_CAP_EFF cap
  let s := s.setFld Reg.PWR_ACTIVE Fld.PWR_ACTIVE_CDUTY (if set ≤ 12 then set + 4 else 16)
  let s := s.setFld Reg.PWR_ACTIVE Fld.PWR_ACTIVE_MDUTY mNew
  let s := s.setFld Reg.PWR_ACTIVE Fld.PWR_ACTIVE_LDUTY lNew
  let s := s.setTarget (set - 12)
  let s := s.setReasons reasons
  s.accrue (reasons.filter (fun x => x / 4 != 2 && x / 4 != 4)) 2000

/-- The activity counts of the period per tenant: what the commands have done in it, and `more`, the activity of units of which the
table has no command (the keeper's cores, the feeders' re-reads; R420, R437; log entry 140). -/
def State.periodCounts (s : State) (more : List (List Nat)) : List (List Nat) :=
  (List.range 4).map (fun t => (List.range 12).map (fun i => s.pw.acts.get 0 (t * 16 + i) + (more.getD t []).getD i 0))

/-- ESTIMATOR_PERIOD: a 2 µs period ends with the activity counts of each tenant; a selected profile becomes active, the estimate
and the energy are formed and the governor sets cap and actuators (R421, R423, R427, R437). An alert cap that begins to apply is told to the
board manager (R514). -/
def State.period (s : State) (counts : List (List Nat)) : State :=
  let s := { s with act := (List.range 12).map (sourceCount counts) }
  let s := if s.alert && !s.pw.alerted then s.say (.ibi 3) else s
  let s := { s with pw := { s.pw with alerted := s.alert } }
  let s := match s.pw.nextProfile with
    | some k => ({ s with pw := { s.pw with nextProfile := none } }.setFld Reg.PWR_ACTIVE Fld.PWR_ACTIVE_PROFILE k).setFld
        Reg.PWR_CTL Fld.PWR_CTL_PROFILE k
    | none => s
  let ds := (List.range 5).map (fun r => (s.pw.dsum.getD r ⟨0, 1⟩).add (s.railD counts r))
  let s := { s with pw := { s.pw with dsum := ds, periods := s.pw.periods + 1 } }
  let dom := (List.range 4).map (s.domainP counts)
  let put (s : State) (f : Field) (q : Frac) : State := s.setFld Reg.PWR_EST f (showFrac q 10 16)
  let s := put s Fld.PWR_EST_TOTAL (sumFrac dom)
  let s := put s Fld.PWR_EST_COMPUTE (dom.getD 0 ⟨0, 1⟩)
  let s := put s Fld.PWR_EST_MEMORY (dom.getD 1 ⟨0, 1⟩)
  let s := put s Fld.PWR_EST_LINK (dom.getD 2 ⟨0, 1⟩)
  (s.addEnergy counts).rampSettle.govern counts

def execEstimatorPeriod (more : List (List Nat)) (s : State) : Host.Outcome State Fault Refusal :=
  .next ({ s with pw := { s.pw with acts := [] } }.period (s.periodCounts more))

/-! ### Pooling (R428, R429) -/

/-- What member `j` was heard to grant and to demand within the last 150 µs. -/
def State.heardFrom (s : State) (j : Nat) : Option (Nat × Nat) :=
  (s.pw.heard.find? (fun h => h.1 == j && decide (s.now - h.2.2.2 ≤ 150000))).map (fun h => (h.2.1, h.2.2.1))

/-- POOL_BUDGET_ROUND: the member's own grant is recomputed and sent to every other member. -/
def State.poolRound (s : State) : State :=
  if !s.poolEn || !s.pw.pooling then s
  else
    let others := s.poolMembers.filter (· ≠ s.chip)
    let n := s.poolN
    let l := s.poolL
    let g := s.grantW
    let lost := others.any (fun j => (s.heardFrom j).isNone)
    let s := if lost then s.event Reg.PWR_STATUS Fld.PWR_STATUS_POOL_LOSS Reg.PWR_POOL_LOSS_CNT else s
    let sumG := others.foldl (fun a j => a + ((s.heardFrom j).map (·.1)).getD 2400) 0
    let own := s.pw.demand - 900
    let excess := own + others.foldl (fun a j => a + (match s.heardFrom j with
      | some h => h.2 - 900
      | none => 1500)) 0
    let room := l - n * 900
    let target := if excess ≤ room then s.pw.demand else 900 + room * own / excess
    let head := l - (sumG + g)
    let g' := if target < g then target else min target (g + head / n)
    let g'' := min (min (max g' 900) 2400) s.pwrCap
    let s := s.setFld Reg.PWR_ACTIVE Fld.PWR_ACTIVE_GRANT g''
    let body := leBytes 2 s.pw.seq ++ leBytes 2 g'' ++ leBytes 2 (min s.pw.demand 65535) ++ leBytes 2 s.pwrCap ++ leBytes 8 0
    let s := { s with pw := { s.pw with seq := (s.pw.seq + 1) % 65536 } }
    others.foldl (fun (s : State) j => s.inject { dst := j, src := s.chip, tc := 2, type := 7, body := body }) s

def execPoolBudgetRound (s : State) : Host.Outcome State Fault Refusal := .next s.poolRound

/-- BUDGET_RX: a member's grant and demand. -/
def execBudgetRx (p : Packet) (s : State) : Host.Outcome State Fault Refusal :=
  let s := s.take p
  .next (if p.type ≠ 7 ∨ p.malformed then s.badPacket
    else if !s.poolMembers.contains p.src then s
    else
      let f (off : Nat) : Nat := leNat ((p.body.drop off).take 2)
      { s with pw := { s.pw with heard := s.pw.heard.filter (fun h => h.1 != p.src) ++ [(p.src, f 2, f 4, s.now)] } })

/-- BRD_ALERT_N_CHANGE: the filtered level of the pin; the next period's cap follows it (R423). -/
def execBrdAlertNChange (low : Bool) (s : State) : Host.Outcome State Fault Refusal :=
  .next { s with pw := { s.pw with brdAlert := low } }

/-! ### Droop and the clock (R430, R431) -/

/-- The clock is stretched, and DROOP is in force in COMPUTE. -/
def State.stretch (s : State) : State :=
  let s := { s with pw := { s.pw with droopSince := s.now } }.setFld Reg.PWR_FREQ Fld.PWR_FREQ_STRETCH 1
  s.setReasons (s.pw.inForce ++ [8])

/-- A frequency change is under way: it is pending, no droop held it, and, going up, its voltage is reached; it takes effect within 64
core cycles (R431; DEDUCED, log entry 141). -/
def State.changing (s : State) : Bool :=
  s.fld Reg.PWR_FREQ Fld.PWR_FREQ_PENDING == 1 && !s.droopWait
    && (decide (s.fld Reg.PWR_FREQ Fld.PWR_FREQ_TARGET < s.flevel) || s.pw.voltage == s.fld Reg.PWR_FREQ Fld.PWR_FREQ_TARGET)

/-- DROOP_TRIP: the clock is stretched at once, or as soon as a change under way has completed (R430, R431). -/
def State.droopTrip (s : State) (d : Nat) : State :=
  let wait := s.changing || !s.pw.tripped.isEmpty
  let s := { s with pw := { s.pw with tripped := (s.pw.tripped ++ [d]).eraseDups } }
  if s.stretched ∨ wait = true then s else s.stretch

def execDroopTrip (d : Fin 64) (s : State) : Host.Outcome State Fault Refusal := .next (s.droopTrip d)

def execDroopClear (d : Fin 64) (s : State) : Host.Outcome State Fault Refusal :=
  .next { s with pw := { s.pw with tripped := s.pw.tripped.filter (· ≠ d.val) } }

/-- STRETCH_END: 16 core cycles after the last detector has cleared. -/
def State.stretchEnd (s : State) : State :=
  if !s.stretched || !s.pw.tripped.isEmpty then s
  else
    let s := s.accrue [8] (s.now - s.pw.droopSince)
    let s := { s with pw := { s.pw with stretchEnded := s.now } }
    (s.setFld Reg.PWR_FREQ Fld.PWR_FREQ_STRETCH 0).setReasons (s.pw.inForce.filter (· ≠ 8))

def execStretchEnd (s : State) : Host.Outcome State Fault Refusal := .next s.stretchEnd

/-- VOLTAGE_REACHED: the regulator reports that the voltage written last is reached. -/
def execVoltageReached (s : State) : Host.Outcome State Fault Refusal :=
  .next { s with pw := { s.pw with voltage := s.pw.asked } }

/-- The level in force becomes `t`; going down, its voltage is written after it. A droop that began during the change now stretches the
clock. -/
def State.takeLevel (s : State) (t : Nat) : State :=
  let down := t < s.flevel
  let s := (s.setFld Reg.PWR_FREQ Fld.PWR_FREQ_CURRENT t).setFld Reg.PWR_FREQ Fld.PWR_FREQ_PENDING 0
  let s := s.setFld Reg.PWR_ACTIVE Fld.PWR_ACTIVE_FLEVEL t
  let s := if down then { s with pw := { s.pw with asked := t, voltage := t } } else s
  if s.stretched || s.pw.tripped.isEmpty then s else s.stretch

/-- FREQUENCY_CHANGE: a pending change takes its next step. Before a stretch that did not find it under way it waits until 64 core cycles
after the stretch, a downward one not beyond a droop of 10 µs; an upward one then writes its voltage, and takes effect once that is
reached (R431). -/
def State.freqChange (s : State) : State :=
  let t := s.fld Reg.PWR_FREQ Fld.PWR_FREQ_TARGET
  let held : Bool := if s.stretched then true else s.pw.tripped.isEmpty && s.droopWait
  if s.fld Reg.PWR_FREQ Fld.PWR_FREQ_PENDING = 0 then s
  else if t ≤ s.flevel then
    (if held && !(s.stretched && decide (10000 ≤ s.now - s.pw.droopSince)) then s else s.takeLevel t)
  else if held then s
  else if s.pw.voltage = t ∧ s.pw.asked = t then s.takeLevel t
  else s.askVoltage

def execFrequencyChange (s : State) : Host.Outcome State Fault Refusal := .next s.freqChange

/-! ### Thermal control (R433 to R435) -/

/-- The throttle threshold of a sensor's class in 1/16 °C; the regulators have none. -/
def State.classLimit (s : State) (i : Nat) : Option Int :=
  if i < 90 then some (s.limit Fld.THM_LIMITS_DIE_THROT) else if i < 98 then some (s.limit Fld.THM_LIMITS_HBM_THROT) else none

def maxTemp (l : List Int) : Int := l.foldl max (-32768)

/-- THM_HOT shows the hottest of each class. -/
def State.showHot (s : State) : State :=
  (s.setFld Reg.THM_HOT Fld.THM_HOT_DIE_MAX (ofSigned 16 (maxTemp ((List.range 90).map s.temp)))).setFld Reg.THM_HOT
    Fld.THM_HOT_HBM_MAX (ofSigned 16 (maxTemp ((List.range 8).map (fun i => s.temp (90 + i)))))

/-- A failed sensor is taken to read its class's throttle threshold as it stands (R433); a regulator's, of no class, keeps its value. -/
def State.failedRead (s : State) : State :=
  ((List.range 98).foldl (fun (s : State) i =>
    match s.classLimit i with
    | some l =>
      if s.fld (Reg.THM_TEMP i) Fld.THM_TEMP_FAIL = 1 then s.setFld (Reg.THM_TEMP i) Fld.THM_TEMP_TEMP (ofSigned 16 l) else s
    | none => s) s).showHot

/-- THERMTRIP_N asserts, the clocks stop, the transmitters turn off and HBM goes into self-refresh (R435): `State.stopped`. -/
def State.thermTrip (s : State) : State :=
  let dieTrip : Int := 16 * (min 115 (s.fld Reg.THM_LIMITS Fld.THM_LIMITS_DIE_TRIP) : Nat)
  let hbmTrip : Int := 16 * (min 105 (s.fld Reg.THM_LIMITS Fld.THM_LIMITS_HBM_TRIP) : Nat)
  let hot : Bool := (List.range 90).any (fun i => decide (dieTrip ≤ s.temp i))
    || (List.range 8).any (fun i => decide (hbmTrip ≤ s.temp (90 + i)))
  if hot then { s with pw := { s.pw with tripOut := true } } else s

/-- A write of THM_LIMITS moves what failed sensors read, and may meet a trip limit (R433, R435). -/
def State.writeLimits (s : State) (v : BitVec 64) : State := (s.writeCodes Reg.THM_LIMITS v).failedRead.thermTrip

/-- THERMAL_SENSOR_READ: a reading, or none; three invalid ones in a row fail the sensor, which then reads its class's threshold. -/
def State.sensorRead (s : State) (i : Nat) (reading : Option (BitVec 16)) : State :=
  match reading with
  | some t =>
    (s.sensorValid i t.toNat).showHot.thermTrip
  | none => (s.sensorMissing i).failedRead.thermTrip

def execThermalSensorRead (i : Fin 103) (reading : Option (BitVec 16)) (s : State) : Host.Outcome State Fault Refusal :=
  .next (s.sensorRead i reading)

/-- THERMAL_CAP_STEP: every 100 µs the cap falls while a sensor is hot, rises by 25 W per ms once every one is 3 °C below, else
holds (R434). -/
def State.capStep (s : State) : State :=
  let cap := s.thermCap
  let cool := (List.range 98).all (fun i => match s.classLimit i with
    | some l => decide (s.temp i ≤ l - 48)
    | none => true)
  let setCool (s : State) (n : Nat) : State := { s with pw := { s.pw with cool := n } }
  if s.dieHot || s.hbmHot then (setCool s 0).setFld Reg.THM_CAP Fld.THM_CAP_CAP (max 900 (cap - 25))
  else if cool then
    if s.pw.cool + 1 < 10 then setCool s (s.pw.cool + 1)
    else (setCool s 0).setFld Reg.THM_CAP Fld.THM_CAP_CAP (min 2400 (cap + 25))
  else setCool s 0

def execThermalCapStep (s : State) : Host.Outcome State Fault Refusal := .next s.capStep

end Sys2Proof.Machine
end

