-- ==== Sys2Proof/Machine/Cadence.lean ====
section
/-!
DEFINITION. The cadence unit (spec/01_execution_contract.md R18 to R33): beats from their three sources, armed events and what they
start, and the release of cadence waits.
-/
namespace Sys2Proof.Machine

/-! ### Arms (R25 to R27, R32, R33) -/

end Sys2Proof.Machine

namespace Sys2Proof

def ArmId.pos : ArmId → Nat
  | .glob i => Reg.CAD_GARM_POS i
  | .clu c j => Reg.CLU_ARM_POS c j

def ArmId.ctl : ArmId → Nat
  | .glob i => Reg.CAD_GARM_CTL i
  | .clu c j => Reg.CLU_ARM_CTL c j

def ArmId.isGlobal : ArmId → Bool
  | .glob _ => true
  | .clu _ _ => false

/-- The cluster and index of an arm; 0 for a global one. -/
def ArmId.place : ArmId → Nat × Nat
  | .glob i => (0, i)
  | .clu c j => (c, j)

namespace Machine

def stepOf (p : BitVec 64) : Nat := p.toNat / 2 ^ 24
def phaseOf (p : BitVec 64) : Nat := p.toNat / 2 ^ 20 % 16

/-- Phase UPD (R19). -/
def phaseUpd : Nat := 4

/-- TOKEN_SIGNAL of a cluster arm: held where the job's context there is being saved, saved or restored (R268). -/
def State.armSignal (s : State) (c j tok : Nat) : State :=
  let x := s.ctxState 1 c
  if x = 2 ∨ x = 3 ∨ x = 5 then s.signalTo 1 c tok 1 0
  else s.signal c tok 1 (peerWord s.chip c 6 j 0)

/-- What an arm's action does, fired at a position whose STEP is `step` (R27). -/
def State.armAction (s : State) (a : ArmId) (step action arg : Nat) : State :=
  match action with
  | 1 => s.selectProfile arg
  | 2 => s.startDrain arg
  | 3 => s.twinPush (arg % 2) step
  | 4 => s.setWindow (arg % 256) true
  | 5 => s.setWindow (arg % 256) false
  | 6 => s.startSlice arg
  | 7 => s.snapshot arg false
  | 8 => if a.isGlobal then s else s.armSignal a.place.1 a.place.2 (arg % 256)
  | _ => s

/-- An enabled arm that is not inert and whose position has been reached (R25, R26). -/
def State.armDue (s : State) (a : ArmId) : Bool :=
  s.fld a.ctl Fld.CAD_GARM_CTL_ACTION != 0 && s.fld a.ctl Fld.CAD_GARM_CTL_FIRED == 0
    && decide (s.rd a.pos ≤ s.rd Reg.CAD_POS)

/-- One firing: its mark, the arm's next position or its end, and its action (R26). -/
def State.armFire (s : State) (a : ArmId) (late : Bool) : State :=
  let pos := s.rd a.pos
  let action := s.fld a.ctl Fld.CAD_GARM_CTL_ACTION
  let arg := s.fld a.ctl Fld.CAD_GARM_CTL_ARG
  let k := s.fld a.ctl Fld.CAD_GARM_CTL_REPEAT
  let s := s.setFld a.ctl Fld.CAD_GARM_CTL_LATE late.toNat
  let s := if late then s.event Reg.CAD_STATUS Fld.CAD_STATUS_ARM_LATE Reg.CAD_LATE_CNT else s
  let s := if k = 0 ∨ 2 ^ 40 - 1 < stepOf pos + k then s.setFld a.ctl Fld.CAD_GARM_CTL_FIRED 1
    else s.wr a.pos (pos + BitVec.ofNat 64 (k * 2 ^ 24))
  s.armAction a (stepOf pos) action arg

/-- An arm fires until it is inert or its position has passed CAD_POS. -/
def State.armRun : Nat → State → ArmId → Bool → State
  | 0, s, _, _ => s
  | n + 1, s, a, late => if s.armDue a then State.armRun n (s.armFire a late) a late else s

/-- Firings that can fall due at once: one per step from the arm's position to CAD_POS. -/
def State.armFuel (s : State) (a : ArmId) : Nat := stepOf (s.rd Reg.CAD_POS) - stepOf (s.rd a.pos) + 1

def State.fireArm (s : State) (late : Bool) (a : ArmId) : State := State.armRun (s.armFuel a) s a late

/-- Every arm in firing order: global, then each cluster's (R25). -/
def allArms : List ArmId :=
  (List.finRange 64).map ArmId.glob ++ (List.finRange 64).flatMap (fun c => (List.finRange 64).map (ArmId.clu c))

/-! ### Beats (R20, R22, R25, R31, R149, R427) -/

/-- An accepted beat: the position, the master, the multicast, the phase map, the arms, the waits, the congestion interval. -/
def State.acceptBeat (s : State) (pos : BitVec 64) (master : Nat) (send : Bool) : State :=
  let old := s.rd Reg.CAD_POS
  let s := ((s.wr Reg.CAD_POS pos).cnt Reg.CAD_BEAT_CNT).bumpGlb 0x03 0 1
  let s := if s.fld Reg.CAD_STATUS Fld.CAD_STATUS_MASTER_VALID = 1 then s
    else (s.setFld Reg.CAD_MASTER Fld.CAD_MASTER_CHIP master).setFld Reg.CAD_STATUS Fld.CAD_STATUS_MASTER_VALID 1
  let s := s.trace 78 0x0C (phaseOf pos) 0 (peerWord (s.fld Reg.CAD_MASTER Fld.CAD_MASTER_CHIP) 0 0 0 0)
  let s := if send then
      s.inject { src := s.chip, tc := 2, type := 5, mc := true
                 mask := maskOf (2 ^ s.dim 0 - 1) (2 ^ s.dim 1 - 1) (2 ^ s.dim 2 - 1), body := leBytes 8 pos.toNat }
    else s
  let s := if s.fld Reg.PWR_CTL Fld.PWR_CTL_PHASE_MAP_EN = 1 ∧ phaseOf pos ≠ phaseOf old then
      s.selectProfile (s.fld Reg.PWR_PHASE_MAP ⟨4 * phaseOf pos, 4⟩)
    else s
  let s := allArms.foldl (fun (s : State) a => s.fireArm false a) s
  let s := (List.range 64).foldl (fun (s : State) c => s.releaseHold c) s
  let s := s.congClose pos false
  { s with fwBeat := s.fwBeat || (s.slice.isNone && s.rstState != 1) }

/-- A beat from source `src` of CAD_CTL.SRC: ignored, discarded as stale, or accepted (R22). -/
def State.offerBeat (s : State) (src : Nat) (pos : BitVec 64) (master : Nat) : State :=
  if s.fld Reg.CAD_CTL Fld.CAD_CTL_EN = 0 ∨ s.fld Reg.CAD_CTL Fld.CAD_CTL_SRC ≠ src then s
  else if pos ≤ s.rd Reg.CAD_POS ∨ phaseOf pos = 6 ∨ phaseOf pos = 7 then
    s.event Reg.CAD_STATUS Fld.CAD_STATUS_STALE Reg.CAD_STALE_CNT
  else s.acceptBeat pos master (src != 1)

/-- BEAT_PACKET_RX: a BEAT packet of the fabric (R20, R22, R320). -/
def execBeatPacketRx (p : Packet) (s : State) : Host.Outcome State Fault Refusal :=
  let s := s.take p
  .next (if p.type ≠ 5 ∨ p.malformed then s.badPacket
    else s.offerBeat 1 (BitVec.ofNat 64 (leNat (p.body.take 8))) p.src)

def State.pinError (s : State) : State := s.event Reg.CAD_STATUS Fld.CAD_STATUS_PIN_CRC Reg.CAD_PIN_ERR_CNT

/-- CADENCE_FRAME_RX: a frame of CADENCE_IN at the end of its check field; the pin is sampled only with SRC = 3 (R21, R577). -/
def execCadenceFrameRx (pos : BitVec 64) (check : BitVec 8) (s : State) : Host.Outcome State Fault Refusal :=
  .next (if s.fld Reg.CAD_CTL Fld.CAD_CTL_SRC ≠ 3 then s
    else if check ≠ crc8 pos then s.pinError
    else s.offerBeat 3 pos s.chip)

/-- CADENCE_IN_MISSING_TRANSITION: after a recognised sync it ends the frame as a failed check, before it nothing (R577). -/
def execCadenceInMissingTransition (synced : Bool) (s : State) : Host.Outcome State Fault Refusal :=
  .next (if s.fld Reg.CAD_CTL Fld.CAD_CTL_SRC = 3 ∧ synced then s.pinError else s)

/-! ### Arm writes (R26, R27) -/

/-- The arm as it would stand breaks R27 for the writer. -/
def armRejected (by_ : Nat) (a : ArmId) (pos ctl : BitVec 64) : Bool :=
  let action := getField ctl Fld.CAD_GARM_CTL_ACTION
  action != 0 && (decide (8 < action) || (by_ != 0 && (action == 1 || action == 6)) || (action == 8 && a.isGlobal)
    || (action == 6 && phaseOf pos != phaseUpd))

def State.armError (s : State) : State := s.event Reg.CAD_STATUS Fld.CAD_STATUS_ARM_ERR Reg.CAD_ARM_ERR_CNT

/-- A write of POS leaves FIRED as it is; the arm may fire on the write. -/
def State.writeArmPos (s : State) (by_ : Nat) (a : ArmId) (v : BitVec 64) : State :=
  if armRejected by_ a v (s.rd a.ctl) then s.armError else (s.wr a.pos v).fireArm true a

/-- A write of CTL clears FIRED and LATE; the arm may fire on the write. -/
def State.writeArmCtl (s : State) (by_ : Nat) (a : ArmId) (v : BitVec 64) : State :=
  let new := v &&& (fieldMask Fld.CAD_GARM_CTL_ACTION ||| fieldMask Fld.CAD_GARM_CTL_ARG ||| fieldMask Fld.CAD_GARM_CTL_REPEAT)
  if armRejected by_ a (s.rd a.pos) new then s.armError else (s.wr a.ctl new).fireArm true a

/-- T0 and T1 write arms; another tenant's write changes nothing (R12). -/
def execArmPosWrite (by_ : Fin 4) (a : ArmId) (v : BitVec 64) (s : State) : Host.Outcome State Fault Refusal :=
  .next (if by_.val ≤ 1 then s.writeArmPos by_ a v else s)

def execArmCtlWrite (by_ : Fin 4) (a : ArmId) (v : BitVec 64) (s : State) : Host.Outcome State Fault Refusal :=
  .next (if by_.val ≤ 1 then s.writeArmCtl by_ a v else s)

/-- The keeper's load of an arm: CTL with ACTION 0, then POS, then CTL (R27). -/
def State.loadArm (s : State) (a : ArmId) (pos ctl : BitVec 64) : State :=
  ((s.writeArmCtl 0 a (ctl &&& ~~~fieldMask Fld.CAD_GARM_CTL_ACTION)).writeArmPos 0 a pos).writeArmCtl 0 a ctl

end Machine
end Sys2Proof
end

