-- ==== Sys2Proof/Machine/Issue.lean ====
section
/-!
DEFINITION. The port heads (spec/05_askeb_model.md R132, R136, R143, R152, spec/06_askeb_reference.md R176): for each port
instruction its issue checks 6 to 13, whether its unit has room, and what its issue starts. A head waits for its token first, is
checked then, and consumes the wait when its unit has room.
-/
namespace Sys2Proof.Machine

/-! ### Port queues (R132) -/

def Cluster.queue (k : Cluster) (port : Nat) : List QEntry :=
  match port with
  | 0 => k.rankQ
  | 1 => k.vecQ
  | 2 => k.movQ
  | _ => k.fabQ

def Cluster.setQueue (k : Cluster) (port : Nat) (q : List QEntry) : Cluster :=
  match port with
  | 0 => { k with rankQ := q }
  | 1 => { k with vecQ := q }
  | 2 => { k with movQ := q }
  | _ => { k with fabQ := q }

/-- The port of an opcode (R173); none for a reserved one. -/
def opPort (op : Nat) : Option Nat :=
  if (0x10 ≤ op ∧ op ≤ 0x12) ∨ op = 0x73 then some portRank
  else if (0x20 ≤ op ∧ op ≤ 0x2A) ∨ op = 0x71 ∨ op = 0x72 then some portVector
  else if op = 0x33 ∨ (0x50 ≤ op ∧ op ≤ 0x55) ∨ op = 0x60 ∨ op = 0x61 ∨ op = 0x70 then some portSeq
  else if 0x30 ≤ op ∧ op ≤ 0x36 then some portMover
  else if 0x40 ≤ op ∧ op ≤ 0x43 then some portFabric
  else none

/-- The head of a port starts to wait for its token (R476). -/
def State.headWaits (s : State) (c port : Nat) : State :=
  s.modCl c (fun k => if k.headSince.get 0 port = 0 then { k with headSince := k.headSince.set 0 port (s.now + 1) } else k)

/-- The head leaves its queue: its header wait is consumed, and recorded unless the predicate is off (R136, R143, R476). -/
def State.takeHead (s : State) (c port : Nat) (e : QEntry) : State :=
  let since := (s.cl c).headSince.get 0 port
  let s := s.takeQuantum c e.wait
  let s := if e.pred ∧ e.wait ≠ 0 ∧ (since ≠ 0 ∨ s.allWaits c) then
      s.traceWait c e.wait (if since = 0 then 0 else s.now + 1 - since)
    else s
  s.modCl c (fun k => { k.setQueue port ((k.queue port).drop 1) with
    headSince := k.headSince.set 0 port 0, headAt := k.headAt.set 0 port (s.now + 1), wdogFired := since = 0 && k.wdogFired })

/-- Signals of a predicated-off instruction (R143): one, or one per tile. -/
def QEntry.offSignals (e : QEntry) : Nat := if 0x10 ≤ e.op ∧ e.op ≤ 0x12 then e.mma.tiles else 1

/-! ### Transfers through a mover (R191, R197, R256, R258) -/

/-- A register-space range is carried as 8-byte accesses (R191, R563). -/
def Desc.regAligned (s : State) (d : Desc) : Bool :=
  match s.place d.addr with
  | .reg _ => d.addr % 8 == 0 && (if d.strided then d.size 0 * d.bits % 64 == 0 && d.stride 1 % 8 == 0 && d.stride 2 % 8 == 0
      && d.stride 3 % 8 == 0 else d.elemBytes % 8 == 0 && d.scaleAddr % 8 == 0 && d.scaleBytes % 8 == 0)
  | _ => true

def QEntry.fld (e : QEntry) (hi lo : Nat) : Nat := bitsOf e.word hi lo

/-- Checks 6 to 12 of MOV and PREF. -/
def State.movCheck (s : State) (c : Nat) (e : QEntry) : Option (Nat × Nat) :=
  let src := s.descOf c e (e.fld 95 88)
  let dst := s.descOf c e (e.fld 87 80)
  let t := s.seqTenant c
  if !src.valid then some (0x05, e.fld 95 88)
  else if !dst.valid then some (0x05, e.fld 87 80)
  else if src.fmt ≠ dst.fmt ∨ src.orient ≠ dst.orient ∨ src.sameShape dst = false then some (0x08, 0)
  else if !src.regAligned s || !dst.regAligned s then some (0x09, 0)
  else if rangesOverlap dst.ranges src.ranges then some (0x0A, 0)
  else if !s.rangesOk t .rd src.ranges || !s.rangesOk t .wr dst.ranges then some (0x0B, 0)
  else none

/-- The record of a transfer of cluster `c` (R258). -/
def State.movRec (s : State) (c : Nat) (e : QEntry) (kind : Nat) (src dst : Desc) : MovRec :=
  { src := src.raw, dst := dst.raw, srcIdx := src.idx, dstIdx := dst.idx, kind := kind, cluster := c, tenant := s.seqTenant c
    slot := e.slot, sig := e.sig, total := if kind = 3 then dst.total else src.total, pc := e.pc, word := e.word }

/-- The head of a mover port has asked for a mover; it issues, in order, as it gets one (R132, R255). -/
def State.headReqWaits (s : State) (c : Nat) : Bool := s.movReqs.any (fun (r : MovReq) => r.mrec.cluster == c && r.head)

/-- The head of the mover port asks for a mover, once (R255). -/
def State.askMover (s : State) (r : MovRec) : State :=
  if s.headReqWaits r.cluster then s else { s with movReqs := s.movReqs ++ [MovReq.mk r false true] }

/-- MOV asks for a mover. -/
def State.movAsk (s : State) (c : Nat) (e : QEntry) : State :=
  s.askMover (s.movRec c e 0 (s.descOf c e (e.fld 95 88)) (s.descOf c e (e.fld 87 80)))

def State.prefStart (s : State) (c : Nat) (e : QEntry) : State :=
  let r := s.movRec c e 1 (s.descOf c e (e.fld 95 88)) (s.descOf c e (e.fld 87 80))
  s.modCl c (fun k => { k with pref := k.pref ++ [PrefEntry.mk r false] })

/-! ### MOV.D (R193) -/

def QEntry.movdAddr (e : QEntry) : Nat := (e.scal.get 0 (e.fld 79 75)).toNat % 2 ^ 48

def State.movdCheck (s : State) (c : Nat) (e : QEntry) : Option (Nat × Nat) :=
  if e.movdAddr % 64 ≠ 0 then some (0x09, 0)
  else if inStage c e.movdAddr 64 && s.regionOk (s.seqTenant c) e.movdAddr 64 .rd then none
  else some (0x0B, 0)

/-- The 64 bytes are read as the unit has room; a detected error is charged and the load tried again. -/
def State.movdRoom (s : State) (c : Nat) (e : QEntry) : Bool × State :=
  match (s.onBehalf (s.seqTenant c)).readMem e.movdAddr 64 with
  | (.detected h a, s) => (false, s.chargeMem h a (s.seqTenant c))
  | (.ok _, s) => (true, s)

def State.movdStart (s : State) (c : Nat) (e : QEntry) : State :=
  (s.modCl c (fun k => { k with desc := k.desc.set 0 (e.fld 87 80) (BitVec.ofNat 512 (s.peekNat e.movdAddr 64)) })).signalHeader c
    portMover e 1

/-! ### The activation stack (R195, R196, R233 to R238) -/

def pad64 (n : Nat) : Nat := (n + 63) / 64 * 64

/-- A tensor laid out dense at given element and scale addresses. -/
def Desc.denseAt (d : Desc) (addr saddr : Nat) : BitVec 512 :=
  let st (n : Nat) : Nat := (n * d.bits / 8) % 2 ^ 40
  BitVec.ofNat 512 (addr % 2 ^ 48 + d.fmt * 2 ^ 48 + d.orient * 2 ^ 56 + d.ndim * 2 ^ 58 + saddr % 2 ^ 48 * 2 ^ 64
    + (d.size 0 + d.size 1 * 2 ^ 24) * 2 ^ 128 + (d.size 2 + d.size 3 * 2 ^ 24) * 2 ^ 192
    + st (d.size 0) * 2 ^ 256 + st (d.size 0 * d.size 1) * 2 ^ 320 + st (d.size 0 * d.size 1 * d.size 2) * 2 ^ 384)

/-- Bytes of an entry: data, scales, trailer (R234). -/
def Desc.entryLen (d : Desc) : Nat := pad64 d.elemBytes + pad64 d.scaleBytes + 64

def QEntry.pushKeep (e : QEntry) : Bool := e.fld 87 87 == 0

/-- LEN of the entry a PUSH adds. -/
def State.pushLen (s : State) (c : Nat) (e : QEntry) : Nat :=
  if e.pushKeep then (s.descOf c e (e.fld 95 88)).entryLen else 64

/-- The trailer of R234. -/
def trailerOf (kind : Nat) (d : Desc) (len elem scale segment arg seq : Nat) : BitVec 512 :=
  let shape := if kind = 0 then d.fmt * 2 ^ 8 + d.orient * 2 ^ 16 + d.ndim * 2 ^ 18 else 0
  let sizes (i : Nat) : Nat := if kind = 0 then d.size i else 0
  BitVec.ofNat 512 (kind + shape + len * 2 ^ 64 + elem * 2 ^ 128 + scale * 2 ^ 192
    + (sizes 0 + sizes 1 * 2 ^ 24) * 2 ^ 256 + (sizes 2 + sizes 3 * 2 ^ 24) * 2 ^ 320 + segment * 2 ^ 384
    + (arg + seq % 2 ^ 32 * 2 ^ 32) * 2 ^ 448)

/-- Checks 6 to 13 of PUSH. An entry that passes the partition's end has no place there to check against the region table, so it
raises STACK (DEDUCED). -/
def State.pushCheck (s : State) (c : Nat) (e : QEntry) : Option (Nat × Nat) :=
  let d := s.descOf c e (e.fld 95 88)
  let t := s.seqTenant c
  let top := s.stkTop e.slot c
  let len := s.pushLen c e
  let fits : Bool := decide (top + len ≤ s.fld (Reg.STK_PART e.slot) Fld.STK_PART_PART)
  if e.pushKeep && !d.valid then some (0x05, e.fld 95 88)
  else if e.pushKeep && !d.regAligned s then some (0x09, 0)
  else if (e.pushKeep && !s.rangesOk t .rd d.ranges)
      || (fits && !s.regionOk (s.slotOwner e.slot) (s.stkBase e.slot c + top) len .wr) then some (0x0B, 0)
  else if !e.pushKeep && decide (s.streamLen c ≤ e.fld 79 40) then some (0x11, 0)
  else if !fits then some (0x13, 0)
  else none

/-- A KEEP push asks for a mover; a RECOMPUTE push writes its trailer at issue, so it waits for the readers before it (R237). -/
def State.pushRoom (s : State) (c : Nat) (e : QEntry) : Bool × State :=
  if e.pushKeep then
    let d := s.descOf c e (e.fld 95 88)
    let base := s.stkBase e.slot c + s.stkTop e.slot c
    let r := s.movRec c e 2 d ⟨d.denseAt base (base + pad64 d.elemBytes), 0⟩
    (false, s.askMover { r with
      stkAddr := base
      trailer := trailerOf 0 d (s.pushLen c e) d.elemBytes d.scaleBytes 0 0 (s.stkPart e.slot c).pushes })
  else ((s.stkPart e.slot c).reading == 0, s)

/-- A PUSH allocates its entry at issue (R234, R235, R238). -/
def State.pushEntry (s : State) (c sl len writing : Nat) : State :=
  let top := s.stkTop sl c
  let part := s.stkPart sl c
  let s := (s.setStkTop sl c (top + len) (s.stkEntries sl c + 1)).raiseHwm sl (top + len)
  s.setStkPart sl c { part with pushes := (part.pushes + 1) % 2 ^ 32, writing := part.writing + writing }

/-- A RECOMPUTE push: its trailer is its entry. -/
def State.stkPushStart (s : State) (c : Nat) (e : QEntry) : State :=
  let base := s.stkBase e.slot c + s.stkTop e.slot c
  let tr := trailerOf 1 (s.descOf c e (e.fld 95 88)) 64 0 0 (e.fld 79 40) (e.fld 39 8) (s.stkPart e.slot c).pushes
  let w := ((s.pushEntry c e.slot 64 0).onBehalf (s.seqTenant c)).write base (leBytes 64 tr.toNat)
  (w.2.chargeWrite w.1 (s.seqTenant c)).signalHeader c portMover e 1

/-- Fields of a trailer. -/
def trailerKind (t : BitVec 512) : Nat := t.toNat % 2
def trailerLen (t : BitVec 512) : Nat := t.toNat / 2 ^ 64 % 2 ^ 40
def trailerElem (t : BitVec 512) : Nat := t.toNat / 2 ^ 128 % 2 ^ 40
def trailerScale (t : BitVec 512) : Nat := t.toNat / 2 ^ 192 % 2 ^ 40
/-- A KEEP trailer names the format and logical shape of a descriptor (R236). -/
def trailerMatches (t : BitVec 512) (d : Desc) : Bool :=
  let f (lo w : Nat) : Nat := t.toNat / 2 ^ lo % 2 ^ w
  f 8 8 == d.fmt && f 16 2 == d.orient && f 256 24 == d.size 0 && f 280 24 == d.size 1 && f 320 24 == d.size 2
    && f 344 24 == d.size 3

/-- What reading the trailers of a partition gives: the trailer's address and the trailer, or the fault or the detected error met
on the way. -/
inductive Trailer where
  | found (addr : Nat) (t : BitVec 512)
  | trap (code : Nat)
  | detected (hbm : Bool) (dpa : Nat)

/-- The trailer that ends at `top` (R234). -/
def State.trailerEnding (s : State) (owner top : Nat) : Trailer × State :=
  if !s.regionOk owner (top - 64) 64 .rd then (.trap 0x0B, s)
  else match (s.onBehalf owner).readMem (top - 64) 64 with
    | (.detected h a, s) => (.detected h a, s)
    | (.ok bs, s) => (.found (top - 64) (BitVec.ofNat 512 (leNat bs)), s)

/-- Follow LEN downward `depth` times from the trailer that ends at `top` (R236). -/
def State.trailerAt (s : State) (owner : Nat) : Nat → Nat → Trailer × State
  | 0, top => s.trailerEnding owner top
  | n + 1, top =>
    match s.trailerEnding owner top with
    | (.found a t, s') => State.trailerAt s' owner n (a + 64 - trailerLen t)
    | r => r

/-- POP leaves the decode hold: its entry's kind is known (R132). -/
def State.popKnown (s : State) (c : Nat) (e : QEntry) : State :=
  match (s.cl c).hold with
  | some ⟨.pop, _, _⟩ => (s.modCl c (fun k => { k with hold := none })).goto c (e.pc + 1)
  | _ => s

/-- The recompute diversion (R146): the loops are suspended, s28 takes ARG, the segment runs. -/
def State.divert (s : State) (c : Nat) (e : QEntry) (segment arg : Nat) : State :=
  let s := s.modCl c (fun k =>
    let k := { k with hold := none, ret := some (e.pc + 1, k.loops.length)
                      loops := k.loops.map (fun (l : LoopEntry) => { l with suspended := true }) }
    k.setS 28 (BitVec.ofNat 64 arg))
  ((s.setPc c segment).showLoops c).signalHeader c portMover e 1

/-- The entry is taken off the partition. -/
def State.popEntry (s : State) (c sl len : Nat) : State := s.setStkTop sl c (s.stkTop sl c - len) (s.stkEntries sl c - 1)

/-- The copy of a KEEP entry into DST asks for a mover (R196, R236). -/
def State.popCopy (s : State) (c : Nat) (e : QEntry) (dst : Desc) (addr : Nat) (t : BitVec 512) : State :=
  let base := addr + 64 - trailerLen t
  s.askMover { s.movRec c e 3 ⟨dst.denseAt base (base + pad64 (trailerElem t)), 0⟩ dst with stkAddr := base, trailer := t }

/-- Whether the DST of a POP or PEEK stops it before its entry is looked at: DESC and the region of DST come before STACK (R176). -/
def State.popDstBad (s : State) (c : Nat) (e : QEntry) : Option (Nat × Nat) :=
  let dst := s.descOf c e (e.fld 95 88)
  if e.fld 87 86 = 2 then none
  else if !dst.valid then some (0x05, e.fld 95 88)
  else if !s.rangesOk (s.seqTenant c) .wr dst.ranges then some (0x0B, 0)
  else none

/-- The stack engine has read the trailer of the entry a POP names: the checks left to it, and what the POP does (R196, R236). -/
def State.popReported (s : State) (c : Nat) (e : QEntry) (addr : Nat) (t : BitVec 512) : State :=
  let form := e.fld 87 86
  let dst := s.descOf c e (e.fld 95 88)
  let keep := trailerKind t == 0
  let len := trailerLen t
  let take (s : State) : State := s.takeHead c portMover e
  if form = 2 then (((take s).popEntry c e.slot len).popKnown c e).signalHeader c portMover e 1
  else if keep then
    if !dst.valid then s.trap c portMover 0x05 (e.fld 95 88) e
    else if !trailerMatches t dst then s.trap c portMover 0x08 0 e
    else if !s.regionOk (s.slotOwner e.slot) (addr + 64 - len) len .rd || !s.rangesOk (s.seqTenant c) .wr dst.ranges then
      s.trap c portMover 0x0B 0 e
    else (s.popCopy c e dst addr t).popKnown c e
  else if form = 1 then
    match s.popDstBad c e with
    | some x => s.trap c portMover x.1 x.2 e
    | none => s.trap c portMover 0x13 0 e
  else if (s.cl c).ret.isSome then s.trap c portMover 0x12 0 e
  else ((take s).popEntry c e.slot len).divert c e (t.toNat / 2 ^ 384 % 2 ^ 40) (t.toNat / 2 ^ 448 % 2 ^ 32)

/-- STACK_ENTRY_REPORT: the engine reads the trailer for the POP at the head of the mover port, once every PUSH before it has
written its own (R236, R237). -/
def State.stackReport (s : State) (c : Nat) (err : MemErr) : State :=
  match (s.cl c).movQ with
  | [] => s
  | e :: _ =>
    if e.op ≠ 0x35 ∨ e.pred = false ∨ s.seqState c ≠ seqRunning ∨ (s.stkPart e.slot c).writing ≠ 0 ∨ s.headReqWaits c = true then s
    else if !s.headerOk c e.wait then s.headWaits c portMover
    else
      let depth := if e.fld 87 86 = 1 then e.fld 85 72 else 0
      if s.stkEntries e.slot c ≤ depth then
        match s.popDstBad c e with
        | some x => s.trap c portMover x.1 x.2 e
        | none => s.trap c portMover 0x13 0 e
      else
        let s := s.meet err (s.seqTenant c)
        match s.trailerAt (s.slotOwner e.slot) depth (s.stkBase e.slot c + s.stkTop e.slot c) with
        | (.found a t, s) => s.popReported c e a t
        | (.trap code, s) => s.trap c portMover code 0 e
        | (.detected h a, s) => s.chargeMem h a (s.seqTenant c)

def execStackEntryReport (c : Fin 64) (err : MemErr) (s : State) : Host.Outcome State Fault Refusal :=
  .next (s.stackReport c err)

/-! ### SEND, RECV, MCAST (R198, R199, R201, R333) -/

/-- The chip a PORT names, or the one DREG names; none where the axis is held down or the number lies outside the torus. -/
def State.fabChip (s : State) (e : QEntry) : Option Nat :=
  let p := e.fld 87 84
  if p = 15 then
    let n := (e.scal.get 0 (e.fld 83 79)).toNat % 2 ^ 15
    if s.inTorus n then some n else none
  else if s.dim (p / 4) ≤ 1 then none
  else some (s.neighbour s.chip (p / 2))

/-- The completion word's address from the register `r`; 0: none (R201). -/
def QEntry.creg (e : QEntry) (r : Nat) : Nat := if r = 0 then 0 else (e.scal.get 0 r).toNat
def QEntry.cregMisaligned (e : QEntry) (r : Nat) : Bool := decide (e.creg r % 8 ≠ 0)
def State.cregRegionBad (s : State) (c : Nat) (e : QEntry) (r : Nat) : Bool :=
  r != 0 && !(inStage c (e.creg r) 8 && s.regionOk (s.seqTenant c) (e.creg r) 8 .wr)

/-- The 12 bytes of the box mask of an MCAST, where they lie, and whether they may be read. -/
def QEntry.maskAddr (e : QEntry) : Nat := (e.scal.get 0 (e.fld 83 79)).toNat
def State.mcastMask (s : State) (e : QEntry) : BitVec 96 := BitVec.ofNat 96 (s.peekNat e.maskAddr 12)
def State.maskReadable (s : State) (c : Nat) (e : QEntry) : Bool :=
  inStage c e.maskAddr 12 && s.regionOk (s.seqTenant c) e.maskAddr 12 .rd

/-- An MCAST reads its box mask as its unit has room; a parity error is charged and the read tried again (R198, R225). -/
def State.maskRoom (s : State) (c : Nat) (e : QEntry) : Bool × State :=
  match (s.onBehalf (s.seqTenant c)).readMem e.maskAddr 12 with
  | (.detected h a, s) => (false, s.chargeMem h a (s.seqTenant c))
  | (.ok _, s) => (true, s)

/-- Checks 6 to 12 of SEND, RECV and MCAST. -/
def State.fabCheck (s : State) (c : Nat) (e : QEntry) : Option (Nat × Nat) :=
  let d := s.descOf c e (e.fld 95 88)
  let t := s.seqTenant c
  let mcast := e.op = 0x43
  let r := e.fld 53 49
  if !d.valid then some (0x05, e.fld 95 88)
  else if (if mcast then s.maskReadable c e && (s.firstBadWord e.maskAddr 12).isNone && !s.boxOk (s.mcastMask e) else (s.fabChip e).isNone) || e.cregMisaligned r then
    some (0x09, 0)
  else if !s.rangesOk t (if e.op = 0x41 then .fl else .rd) d.ranges || s.cregRegionBad c e r
      || (mcast && !s.maskReadable c e) then some (0x0B, 0)
  else none

/-- The destinations of a SEND or MCAST. -/
def State.txChips (s : State) (e : QEntry) : List Nat :=
  if e.op = 0x43 then (s.boxChips (s.mcastMask e)).filter (· ≠ s.chip) else (s.fabChip e).toList

/-- At most one transfer per key of R199 is outstanding at each end: the key names the source chip, both clusters and the TAG, and no
destination chip. -/
def State.fabRoom (s : State) (c : Nat) (e : QEntry) : Bool :=
  let other := e.fld 78 73
  let tag := e.fld 72 57
  if e.op = 0x41 then
    !s.rxs.any (fun (x : Rx) => x.cluster == c && x.sclu == other && x.tag == tag && some x.src == s.fabChip e)
  else !s.txs.any (fun (x : Tx) => x.cluster == c && x.dclu == other && x.tag == tag)

/-- A grant that came before its SEND or MCAST is taken now. -/
def State.earlyGrant (s : State) (c dclu tag chip : Nat) : State :=
  match s.grants.find? (fun (g : Grant) => g.chip == chip && g.clu == dclu && g.sclu == c && g.tag == tag) with
  | none => s
  | some g =>
    match s.txFor c chip dclu tag [0] with
    | some x => { s with grants := s.grants.erase g }.txGrant x chip g.len
    | none => s

/-- A SEND or MCAST starts: a fenced destination is rejected at the source (R199, R201, R337). -/
def State.txStart (s : State) (c : Nat) (e : QEntry) : State :=
  let d := s.descOf c e (e.fld 95 88)
  let chips := s.txChips e
  let dclu := e.fld 78 73
  let tag := e.fld 72 57
  let dests := chips.map (fun n => TxDest.mk n (if s.fenced n then 4 else 0) [])
  let x : Tx := { cluster := c, tenant := s.seqTenant c, entry := e, mcast := e.op == 0x43
                  mask := if e.op = 0x43 then s.mcastMask e else 0, dests := dests, src := d.folded, total := d.total, tag := tag
                  tc := e.fld 56 54, dclu := dclu, creg := e.creg (e.fld 53 49), since := s.now
                  seq := s.txSeq.get 0 (xferKey s.chip c dclu tag) }
  let s := { s with txs := s.txs ++ [x] }.txComplete x
  chips.foldl (fun (s : State) n => s.earlyGrant c dclu tag n) s

/-- A RECV starts: its landing grant goes to the source; a fenced source completes it (R199, R201). -/
def State.rxStart (s : State) (c : Nat) (e : QEntry) : State :=
  let d := s.descOf c e (e.fld 95 88)
  let src := (s.fabChip e).getD 0
  let sclu := e.fld 78 73
  let tag := e.fld 72 57
  let x : Rx := { cluster := c, tenant := s.seqTenant c, entry := e, src := src, sclu := sclu, dst := d.folded, total := d.total
                  tag := tag, creg := e.creg (e.fld 53 49), seq := s.rxSeq.get 0 (xferKey src sclu c tag) }
  let s := { s with rxs := s.rxs ++ [x] }
  if s.fenced src then s.rxComplete x 1 1
  else (s.trace c 0x06 tag 0 (peerWord src sclu 0 0 x.seq)).sendGrant src sclu c tag 1 d.total

/-! ### COLL (R200, R349 to R354) -/

/-- The plan a COLL names, with its counts for the group it spans. -/
def State.planOf (s : State) (p : Nat) : Option Plan :=
  let im := s.image 1
  match im.plan p 1 with
  | none => none
  | some q => im.plan p (s.groupSize q.axes)

/-- The plan lies within R352 and its counts fit its group (R353). -/
def State.planSound (s : State) (q : Plan) : Bool :=
  let g := s.groupSize q.axes
  q.counts.length == g && decide (q.counts.foldl (· + ·) 0 = q.total) && decide (1 ≤ q.axes) && decide (q.axes < 8)

/-- A collective instruction's operands: plan, operation, this member's index, whether it reads SRC (R351). -/
structure CollArgs where
  q : Plan
  op : Nat
  ix : Nat
  src : Desc
  dst : Desc
  stats : Desc
  staten : Bool
  reads : Bool

def State.collArgs (s : State) (c : Nat) (e : QEntry) (q : Plan) : CollArgs :=
  let ix := s.memberIx q.axes s.chip
  { q := q, op := e.fld 71 68, ix := ix, src := s.descOf c e (e.fld 95 88), dst := s.descOf c e (e.fld 87 80)
    stats := s.descOf c e (e.fld 67 60), staten := e.fld 59 59 == 1, reads := e.fld 71 68 != 3 || ix == q.root }

/-- Formats of SRC and DST (R351). -/
def CollArgs.fmtOk (a : CollArgs) : Bool :=
  let float (d : Desc) : Bool := d.fmt == 0 || d.fmt == 1
  let aq := a.dst.fmt == 0x0C && a.dst.orient == 1
  match a.op with
  | 0 => float a.src && (a.dst.fmt == 0 || aq)
  | 2 => float a.src && (a.dst.fmt == 0 || aq)
  | 4 => float a.src && a.dst.fmt == 0
  | _ => !a.reads || a.src.fmt == a.dst.fmt

/-- Element counts of SRC and DST (R351). -/
def CollArgs.countOk (a : CollArgs) : Bool :=
  let mine := a.q.countOf a.ix
  let aq := a.dst.fmt == 0x0C
  match a.op with
  | 0 => a.src.count == a.q.total && a.dst.count == (if aq then ceil32 mine else mine)
  | 1 => a.src.count == mine && a.dst.count == a.q.total
  | 2 => a.src.count == a.q.total && a.dst.count == (if aq then a.q.totalPad else a.q.total)
  | _ => (!a.reads || a.src.count == a.q.total) && a.dst.count == a.q.total

/-- The remaining conditions of R351 and R353 that raise OPERAND. -/
def State.collOperandOk (s : State) (c : Nat) (e : QEntry) (a : CollArgs) : Bool :=
  let q := a.q
  q.ops.testBit a.op && q.issuer == c && (a.op != 3 || decide (q.root < s.groupSize q.axes))
    && decide (1 ≤ q.streams) && decide (q.streams < 16) && decide (4 ≤ q.slots) && decide (q.slots ≤ 64)
    && decide (q.replayMax ≤ 2) && decide (q.totalPad ≤ 2 ^ 30)
    && ((a.op != 1 && a.op != 3) || (decide (a.dst.total ≤ 2 ^ 33) && (!fmtBlocked a.dst.fmt || q.counts.all (· % 32 == 0))))
    && (!q.fallback || (q.fbTab != 0 && s.fld Reg.COL_CTL Fld.COL_CTL_FALLBACK_EN == 1))
    && (!a.staten || ((a.op == 0 || a.op == 2) && a.stats.fmt == 0x0F))
    && a.fmtOk && !e.cregMisaligned (e.fld 58 54)

/-- The byte ranges of a COLL with the permission each needs: RD for the contribution, FL for the result (R228, R351, R353). -/
def State.collRanges (s : State) (a : CollArgs) : List (Perm × Nat × Nat) :=
  let q := a.q
  let n := q.ns * q.slots * 65536
  (if a.reads then a.src.ranges.map (fun r => (Perm.rd, r)) else []) ++ a.dst.ranges.map (fun r => (Perm.fl, r))
    ++ (if a.staten then a.stats.ranges.map (fun r => (Perm.wr, r)) else [])
    ++ [(.fl, q.land, n), (.rd, q.hold, n), (.wr, q.hold, n)]
    ++ (if a.op = 0 ∨ a.op = 2 then [(.rd, q.scaleTab, 64 + q.totalPad / 32), (.wr, q.scaleTab, 64 + q.totalPad / 32)] else [])
    ++ (if q.fallback then [(.rd, q.fbTab, s.groupSize q.axes * 16)] else [])

/-- Checks 6 to 12 of COLL. -/
def State.collCheck (s : State) (c : Nat) (e : QEntry) : Option (Nat × Nat) :=
  let op := e.fld 71 68
  let first := s.collArgs c e ((s.planOf (e.fld 79 72)).getD {})
  if first.reads && (s.planOf (e.fld 79 72)).isSome && !first.src.valid then some (0x05, e.fld 95 88)
  else if op ≠ 3 ∧ first.src.valid = false then some (0x05, e.fld 95 88)
  else if !first.dst.valid then some (0x05, e.fld 87 80)
  else if first.staten && !first.stats.valid then some (0x05, e.fld 67 60)
  else match s.planOf (e.fld 79 72) with
    | none => some (0x09, 0)
    | some q =>
      let a := s.collArgs c e q
      if !s.planSound q then some (0x09, 0)
      else if !a.countOk || (a.staten && a.stats.count != 64) then some (0x08, 0)
      else if !s.collOperandOk c e a then some (0x09, 0)
      else if (s.collRanges a).any (fun r => !s.regionOk 1 r.2.1 r.2.2 r.1) || s.cregRegionBad c e (e.fld 58 54) then some (0x0B, 0)
      else none

/-- A context is free and the plan's previous COLL has completed here (R349). -/
def State.collRoom (s : State) (e : QEntry) : Bool :=
  match s.planOf (e.fld 79 72) with
  | none => false
  | some q => decide (s.colls.length < 16) && !s.colls.any (fun x => x.2.plan.id == q.id)

/-- One more COLL of a plan has been issued (R200). -/
def State.collCounted (s : State) (p : Nat) : State := { s with collN := s.collN.set 0 p (s.collN.get 0 p + 1) }

def State.collStart (s : State) (c : Nat) (e : QEntry) : State :=
  match s.planOf (e.fld 79 72), (List.range 16).find? (fun i => (s.coll i).isNone) with
  | some q, some i =>
    let a := s.collArgs c e q
    let n := s.collN.get 0 q.id
    let s := s.collCounted q.id
    let co : Coll :=
      { entry := e, op := a.op, plan := q, n := n, src := a.src.folded, dst := a.dst.folded, stats := a.stats.folded
        staten := a.staten, creg := e.creg (e.fld 58 54), since := s.now, atIssue := [], uses := 0 }
    let s := s.trace c 0x0A q.id 0 (peerWord 0 0 0 0 n)
    (((s.openColl i co).replayEarly).advance i).replayEarly
  | _, _ => s

/-! ### Every port head (R132, R176) -/

/-- The descriptor a DESC fault of a matrix instruction names. -/
def State.mmaBadDesc (s : State) (c : Nat) (e : QEntry) : Nat :=
  let a := s.mmaOf c e
  if !a.p.valid then e.fld 95 88 else if !a.q.valid then e.fld 87 80 else e.fld 79 72

/-- Checks 6 to 13 of the instruction at a port head; POP's wait for the stack engine. -/
def State.headCheck (s : State) (c : Nat) (e : QEntry) : Option (Nat × Nat) :=
  match opPort e.op, e.op with
  | some 0, _ => (s.mmaCheck c (s.mmaOf c e)).map (fun code => (code, if code = 0x05 then s.mmaBadDesc c e else 0))
  | some 1, _ => s.vecCheck c (s.vecOf c e)
  | _, 0x31 => s.condCheck c (s.condOf c e)
  | _, 0x32 => s.movdCheck c e
  | _, 0x34 => s.pushCheck c e
  | _, 0x42 => s.collCheck c e
  | some 2, _ => s.movCheck c e
  | _, _ => s.fabCheck c e

/-- Whether the unit has room, and what finding none records: a transfer that needs a mover asks for one, and issues as it gets it. -/
def State.headRoom (s : State) (c : Nat) (e : QEntry) (waited : Nat) : Bool × State :=
  match opPort e.op, e.op with
  | some 0, _ => s.mmaRoom c (s.mmaOf c e) waited
  | some 1, _ => ((s.cl c).vec.isNone && !s.testing (unitId 4 c), s)
  | _, 0x31 => (s.condRoom c, s)
  | _, 0x32 => s.movdRoom c e
  | _, 0x34 => s.pushRoom c e
  | _, 0x36 => (decide ((s.cl c).pref.length < 8), s)
  | _, 0x42 => (s.collRoom e, s)
  | some 2, _ => (false, s.movAsk c e)
  | _, 0x43 => if s.fabRoom c e then s.maskRoom c e else (false, s)
  | _, _ => (s.fabRoom c e, s)

/-- What the issue starts. -/
def State.headStart (s : State) (c : Nat) (e : QEntry) : State :=
  match opPort e.op, e.op with
  | some 0, _ => s.mmaIssue c (s.mmaOf c e)
  | some 1, _ => s.setVec c (some (s.vecOf c e))
  | _, 0x31 => s.modCl c (fun k => { k with cond := some (s.condOf c e) })
  | _, 0x32 => s.movdStart c e
  | _, 0x34 => s.stkPushStart c e
  | _, 0x36 => s.prefStart c e
  | _, 0x41 => s.rxStart c e
  | _, 0x42 => s.collStart c e
  | _, _ => s.txStart c e

/-- A predicated-off head: it does nothing but signal; a COLL still counts, a POP lets decode go on (R143, R175, R200). -/
def State.headOff (s : State) (c port : Nat) (e : QEntry) : State :=
  let s := if e.op = 0x42 then s.collCounted (e.fld 79 72) else s
  let s := if e.op = 0x35 then s.popKnown c e else s
  s.signalHeader c port e e.offSignals

/-- PORT_HEAD_ISSUE. -/
def State.issueHead (s : State) (c port waited : Nat) : State :=
  match (s.cl c).queue port with
  | [] => s
  | e :: _ =>
    if s.stopped = true ∨ s.seqState c ≠ seqRunning then s
    else if !s.headerOk c e.wait then s.headWaits c port
    else if !e.pred then (s.takeHead c port e).headOff c port e
    else if e.op = 0x35 then s
    else match s.headCheck c e with
      | some x => s.trap c port x.1 x.2 e
      | none => match s.headRoom c e waited with
        | (false, s) => s
        | (true, s) => (s.takeHead c port e).headStart c e

def execPortHeadIssue (c : Fin 64) (port : Fin 4) (waited : Nat) (s : State) : Host.Outcome State Fault Refusal :=
  .next (s.issueHead c port waited)

/-! ### Movers assigned (R255) -/

/-- A port head issues with the mover it has got: PUSH allocates its entry, POP and PEEK begin to read theirs (R235 to R237). -/
def State.headGotMover (s : State) (r : MovRec) : State :=
  let c := r.cluster
  match (s.cl c).movQ with
  | [] => s
  | e :: _ =>
    let s := s.takeHead c portMover e
    match r.kind with
    | 2 => s.pushEntry c r.slot (trailerLen r.trailer) 1
    | 3 =>
      let s := if e.fld 87 86 = 0 then s.popEntry c r.slot (trailerLen r.trailer) else s
      let part := s.stkPart r.slot c
      s.setStkPart r.slot c { part with reading := part.reading + 1 }
    | _ => s

/-- A record that stopped in REGION_STOP or DETECTED comes back in that state and notifies as on first occurrence (R270). -/
def State.notifyStopped (s : State) (m : Nat) (r : MovRec) : State :=
  match r.state with
  | 3 => (s.event Reg.MOV_STATUS Fld.MOV_STATUS_REGION Reg.MOV_RSTOP_CNT).evq r.tenant 6 r.cluster m
  | 4 => (s.event Reg.MOV_STATUS Fld.MOV_STATUS_DET Reg.MOV_DET_CNT).evq r.tenant 6 r.cluster m
  | _ => s

/-- MOVER_ASSIGN: one free mover takes the request whose turn it is, port heads before prefetch entries. A turn lasts while its tenant
has requests. -/
def State.assignMover (s : State) : State :=
  let free := s.freeMovers
  let floor := s.fld Reg.MOV_CTL Fld.MOV_CTL_PREF_FLOOR
  match free with
  | [] => s
  | m :: _ =>
    let choice := match s.pickReq false with
      | some r => some r
      | none => if floor < free.length then s.pickReq true else none
    match choice with
    | none => s
    | some r =>
      let t := r.mrec.tenant
      let left := if t = s.lastTenant ∧ 0 < s.turnLeft then s.turnLeft - 1 else s.weight t - 1
      let rest := s.movReqs.erase r
      let s := { s with movReqs := rest, lastTenant := t
                        turnLeft := if rest.any (fun (x : MovReq) => x.mrec.tenant == t) then left else 0
                        lastCluster := s.lastCluster.set 63 t r.mrec.cluster }
      let s := if r.head then s.headGotMover r.mrec else s
      (s.setMover m { r.mrec with state := if 3 ≤ r.mrec.state then r.mrec.state else 1 }).notifyStopped m r.mrec

def execMoverAssign (s : State) : Host.Outcome State Fault Refusal := .next s.assignMover

end Sys2Proof.Machine
end

