-- ==== Sys2Proof/Machine/Clock.lean ====
section
/-!
DEFINITION. The block's clock: one nanosecond of CAD_TSC (spec/01_execution_contract.md, after R24) and the counters of clock cycles
(spec/15_observation.md R488, R490).
-/
namespace Sys2Proof.Machine

/-- The port whose full queue holds decode: its 16 entries are taken and the word at the PC, fetched, belongs to it (R132, R133). -/
def Cluster.fullPort (k : Cluster) (pc : Nat) : Option Nat :=
  match (k.fetched.find? (fun e => e.1 == pc)).bind (fun e => opPort (bitsOf e.2 127 120)) with
  | some p => if p < 4 ∧ 16 ≤ (k.queue p).length then some p else none
  | none => none

/-- `n` core cycles in the counters of cluster `c`: all of them, and those decode was held (R488). -/
def State.cluCycles (s : State) (c n : Nat) : State :=
  let s := s.bumpClu c 0x01 0 n
  match (s.cl c).hold with
  | some h =>
    match h.kind with
    | .wait tok _ => s.bumpClu c 0x03 tok n
    | .cwait _ _ => s.bumpClu c 0x04 0 n
    | _ => s
  | none =>
    if s.seqState c ≠ seqRunning then s
    else match (s.cl c).fullPort (s.seqPc c) with
      | some p => s.bumpClu c 0x05 (p + 1) n
      | none => s

/-- Some counter of cluster `c` counts something (R487). -/
def State.cluCounts (s : State) (c : Nat) : Bool := (List.range 8).any (fun j => s.rd (Reg.CNT_CLU_SEL c j) != 0)

/-- The cycles of one nanosecond while the clocks run: the fabric clock's 1.6 GHz, and the core clock at its present frequency; the part
of a core cycle left over is kept. -/
def State.countCycles (s : State) : State :=
  let core := s.pw.coreRem + s.coreMHz
  let s := { s with pw := { s.pw with coreRem := core % 1000 } }
  let s := (s.bumpGlb 0x01 0 ((s.now + 1) * 8 / 5 - s.now * 8 / 5)).bumpGlb 0x02 0 (core / 1000)
  ((List.range 64).filter s.cluCounts).foldl (fun (s : State) c => s.cluCycles c (core / 1000)) s

/-- One period of the free-running 1 GHz timestamp counter, which runs while power is good. -/
def State.tick (s : State) : State :=
  let s := if s.stopped then s else s.countCycles
  if s.tr.powered then s.wr Reg.CAD_TSC (s.rd Reg.CAD_TSC + 1) else s

end Sys2Proof.Machine
end

