-- ==== Sys2Proof/Machine/Sequencer.lean ====
section
/-!
DEFINITION. The sequencer (spec/05_askeb_model.md, spec/06_askeb_reference.md): fetch, decode with its checks 1 to 5, the instructions
it executes itself, starting, halting, resuming and ending a stream.
-/
namespace Sys2Proof.Machine

/-! ### Reserved fields and codes (R172 to R175, check 2) -/

/-- The opcode is reserved, or CLASS is not its bits 7:4 (R173). -/
def wordIllegal (w : BitVec 128) : Bool := (opPort (bitsOf w 127 120)).isNone || bitsOf w 119 116 != bitsOf w 127 124

/-- Unused fields of BR by form (R206). -/
def brUnused (form bimm : Nat) : List (Nat × Nat) :=
  match form with
  | 0 => [(91, 74), (49, 0)]
  | 1 => [(73, 50), (17, 0), if bimm = 1 then (79, 75) else (49, 18)]
  | 2 => [(17, 0), if bimm = 1 then (79, 75) else (49, 18)]
  | _ => [(91, 0)]

/-- A reserved field is not 0, or a reserved code is used. -/
def wordReserved (w : BitVec 128) : Bool :=
  let f := bitsOf w
  let zero := zeroAt w
  let predicated := f 115 112 != 0
  let tcBad := f 56 54 != 0 && f 56 54 != 3
  let portBad := decide (12 ≤ f 87 84) && f 87 84 != 15
  let dreg : List (Nat × Nat) := if f 87 84 = 15 then [] else [(83, 79)]
  match opPort (f 127 120), f 127 120 with
  | some 1, _ => vecReserved w
  | _, 0x31 => condReserved w
  | _, 0x73 => f 62 61 == 3 || f 59 58 == 3 || decide ((if f 60 60 = 1 then 12 else 11) < f 71 68) || !zero [(9, 0)]
  | some 0, _ => decide (12 ≤ f 71 68) || f 62 61 == 3 || f 60 59 == 3 || (f 58 58 == 0 && !zero [(49, 40)])
  | _, 0x32 => !zero [(95, 88), (74, 0)]
  | _, 0x33 => !zero ([(81, 64)] ++ (if f 87 87 = 1 then [(92, 88)] else [])
      ++ (if f 95 93 = 1 ∨ f 95 93 = 2 then [] else [(86, 82)]) ++ (if 3 ≤ f 95 93 then [(63, 0)] else []))
  | _, 0x34 => !zero ([(86, 80), (7, 0)] ++ (if f 87 87 = 0 then [(79, 8)] else [(95, 88)]))
  | _, 0x35 => f 87 86 == 3 || !zero ([(71, 0)] ++ (if f 87 86 = 1 then [] else [(85, 72)]) ++ (if f 87 86 = 2 then [(95, 88)] else []))
  | some 2, _ => !zero [(79, 0)]
  | _, 0x40 => portBad || tcBad || !zero ([(48, 0)] ++ dreg)
  | _, 0x41 => portBad || !zero ([(56, 54), (48, 0)] ++ dreg)
  | _, 0x42 => decide (4 < f 71 68) || !zero ([(53, 0)] ++ (if f 59 59 = 1 then [] else [(67, 60)]))
  | _, 0x43 => tcBad || !zero [(87, 84), (48, 0)]
  | _, 0x50 => predicated || !zero [(63, 0)]
  | _, 0x51 => predicated || !zero ([(51, 0)] ++ (if f 57 57 = 1 then [] else [(56, 52)]))
  | _, 0x52 => !zero [(89, 0)]
  | _, 0x53 => !zero [(90, 0)]
  | _, 0x54 => predicated || !zero [(95, 0)]
  | _, 0x55 => !zero [(91, 0)]
  | _, 0x60 => !zero [(0, 0), if f 90 90 = 1 then (64, 41) else (89, 85)]
  | _, 0x61 => decide (3 < f 95 92) || ((f 95 92 == 1 || f 95 92 == 2) && decide (5 < f 88 85)) || !zero (brUnused (f 95 92) (f 74 74))
  | _, _ => decide (4 < f 95 92) || !zero [(55, 0)]

/-! ### Context, tenant and token port (R131, R138, R151, R178, R202, checks 3 to 5) -/

/-- The instruction uses the current sequence slot: the stack, or draws (R131). -/
def slotUser (w : BitVec 128) : Bool :=
  let f := bitsOf w
  match f 127 120 with
  | 0x34 | 0x35 | 0x2A => true
  | 0x10 | 0x11 | 0x12 => f 58 58 == 1
  | 0x31 => f 69 69 == 1
  | 0x29 => f 0 0 == 1
  | 0x20 => f 3 0 == 7
  | 0x28 => f 5 5 == 1
  | _ => false

/-- A cluster holds a stream of another tenant, and nothing of this one (R202, R261). -/
def State.foreign (s : State) (t c : Nat) : Bool :=
  let x := s.ctxState t c
  s.seqState c != seqIdle && s.seqTenant c != t && x != 2 && x != 3 && x != 5

/-- The instruction as decode captures it: predicate, SLOT and scalar registers (R132, R135). -/
def State.capture_ (s : State) (c : Nat) (w : BitVec 128) : QEntry :=
  let k := s.cl c
  { word := w, pc := s.seqPc c, pred := k.p (bitsOf w 114 112) != (bitsOf w 115 115 == 1), slot := s.seqSlot c, scal := k.sreg }

def QEntry.movsAddr (e : QEntry) : Nat := (e.scal.get 0 (e.fld 86 82) + BitVec.ofNat 64 (e.fld 63 0)).toNat

/-- The value MOV.S writes. -/
def State.movsValue (s : State) (c : Nat) (e : QEntry) : BitVec 64 :=
  match e.fld 95 93 with
  | 0 => BitVec.ofNat 64 (e.fld 63 0)
  | 1 => e.scal.get 0 (e.fld 86 82) + BitVec.ofNat 64 (e.fld 63 0)
  | 2 => BitVec.ofNat 64 (s.peekNat e.movsAddr 8)
  | 3 => BitVec.ofNat 64 s.chip
  | 4 => BitVec.ofNat 64 c
  | 5 => BitVec.ofNat 64 (s.seqTenant c)
  | 6 => BitVec.ofNat 64 (s.seqCtx c)
  | _ => s.rd Reg.CAD_POS

/-- MOV.S would write a slot that the tenant does not own into SLOT: check 4, whatever the predicate (R131, R176, R194). The value of a LOAD
is known only as it executes, so its check comes then (DEDUCED, log entry 130). -/
def State.toSlotForeign (s : State) (c : Nat) (w : BitVec 128) : Bool :=
  let e := s.capture_ c w
  let v := (s.movsValue c e).toNat
  e.op == 0x33 && e.fld 87 87 == 1 && e.fld 95 93 != 2 && decide (v ≤ 15) && s.slotOwner v != s.seqTenant c

/-- The fault of checks 3 and 4. -/
def State.contextCheck (s : State) (c : Nat) (w : BitVec 128) : Option Nat :=
  let f := bitsOf w
  let op := f 127 120
  let t := s.seqTenant c
  let ctx := s.seqCtx c
  let torus := opPort op = some 3 ∨ (op = 0x51 ∧ f 57 57 = 1)
  let keeper := ctx = 0 ∨ ctx = 2
  if (torus ∨ op = 0x53) ∧ keeper then some 0x03
  else if (op = 0x70 ∨ op = 0x71 ∨ op = 0x72) ∧ ctx = 1 then some 0x03
  else if op = 0x73 ∧ (ctx = 1 ∨ t ≠ 0 ∨ s.fld Reg.GLB_DEBUG_CTL Fld.GLB_DEBUG_CTL_ACC_VIS = 0) then some 0x03
  else if torus ∧ t ≠ 1 then some 0x04
  else if op = 0x51 ∧ f 57 57 = 0 ∧ s.foreign t (f 63 58) = true then some 0x04
  else if slotUser w ∧ s.slotOwner (s.seqSlot c) ≠ t then some 0x04
  else if s.toSlotForeign c w then some 0x04
  else none

/-- The token whose consumer is another port (R138). -/
def State.tokenPortCheck (s : State) (c : Nat) (w : BitVec 128) : Option Nat :=
  let port := (opPort (bitsOf w 127 120)).getD portSeq
  let bad (tok p : Nat) : Bool := tok != 0 && s.consumer c tok != p && s.consumer c tok != 7
  if bad (bitsOf w 111 104) port then some (bitsOf w 111 104)
  else if bitsOf w 127 120 = 0x50 ∧ bad (bitsOf w 95 88) portSeq = true then some (bitsOf w 95 88)
  else none

/-- The first of checks 1 to 5 that a word fails: its fault and AUX0. -/
def State.decodeCheck (s : State) (c : Nat) (w : BitVec 128) : Option (Nat × Nat) :=
  if wordIllegal w then some (0x01, 0)
  else if wordReserved w then some (0x02, 0)
  else match s.contextCheck c w with
    | some code => some (code, 0)
    | none => (s.tokenPortCheck c w).map (fun tok => (0x0D, tok))

/-! ### Decode (R132, R135, R176) -/

/-- The word at the PC has been fetched, and decode does not hold but for the header wait of this very word. The words of T0's streams are
the keeper firmware's, and each comes with its command (R151, log entry 127). -/
def State.canDecode (s : State) (c : Nat) (w : BitVec 128) : Bool :=
  let k := s.cl c
  !s.stopped && s.seqState c == seqRunning && s.unitState (unitId 1 c) != 3
    && (s.seqTenant c == 0 || (decide (s.seqPc c < s.streamLen c) && k.fetched.contains (s.seqPc c, w)))
    && (match k.hold with
        | none => true
        | some h => h.kind == .header && h.entry.word == w && h.entry.pc == s.seqPc c)

/-- Decode of the word `w` as an instruction of opcode `op`: the captured instruction, or the state in which decode ends instead.
A held word is not decoded twice. -/
def State.decode (s : State) (c : Nat) (w : BitVec 128) (op : Nat) : Except State (QEntry × State) :=
  let port := (opPort (bitsOf w 127 120)).getD portSeq
  if s.canDecode c w = false ∨ (wordIllegal w = false ∧ bitsOf w 127 120 ≠ op) then .error s
  else match (s.cl c).hold with
    | some h => .ok (h.entry, s)
    | none =>
      if wordIllegal w = false ∧ port < 4 ∧ 16 ≤ ((s.cl c).queue port).length then .error s
      else
        let e := s.capture_ c w
        let s := (s.cnt (Reg.SEQ_INSN_CNT c)).bumpClu c 0x02 0 1
        match s.decodeCheck c w with
        | some x => .error (s.trap c port x.1 x.2 e)
        | none => .ok (e, s)

/-- A port instruction is decoded into its queue; POP holds decode until its entry's kind is known (R132). -/
def State.enqueueInsn (s : State) (c : Nat) (w : BitVec 128) (op : Nat) : State :=
  match s.decode c w op with
  | .error s => s
  | .ok (e, s) =>
    let port := (opPort op).getD 0
    let s := s.modCl c (fun k => { k.setQueue port (k.queue port ++ [e]) with
      headAt := if (k.queue port).isEmpty then k.headAt.set 0 port (s.now + 1) else k.headAt })
    if op = 0x35 then s.modCl c (fun k => { k with hold := some ⟨.pop, e, s.now⟩ }) else s.goto c (e.pc + 1)

/-- The header wait of a sequencer instruction: consumed, or decode holds (R136, R176). -/
def State.seqHeader (s : State) (c : Nat) (e : QEntry) : Except State State :=
  if s.headerOk c e.wait then
    let held := (s.cl c).hold.map (·.since)
    let s := s.takeQuantum c e.wait
    let s := if e.pred ∧ e.wait ≠ 0 ∧ (held.isSome ∨ s.allWaits c) then
        s.traceWait c e.wait ((held.map s.heldFor).getD 0) else s
    .ok (s.modCl c (fun k => { k with hold := none, wdogFired := held.isNone && k.wdogFired }))
  else .error (s.modCl c (fun k => if k.hold.isNone then { k with hold := some ⟨.header, e, s.now⟩ } else k))

def State.seqHold (s : State) (c : Nat) (e : QEntry) (kind : HoldKind) : State :=
  s.modCl c (fun k => { k with hold := some ⟨kind, e, s.now⟩ })

/-- A sequencer instruction: decode, its own checks where its predicate holds, the header wait, then its effect, or where the
predicate is off only its completion at `off` (R143, R176). -/
def State.runSeq (s : State) (c : Nat) (w : BitVec 128) (op : Nat) (check : State → QEntry → Option (Nat × Nat))
    (effect : State → QEntry → State) (off : QEntry → Nat) : State :=
  match s.decode c w op with
  | .error s => s
  | .ok (e, s) =>
    match (if e.pred then check s e else none) with
    | some x => s.trap c portSeq x.1 x.2 e
    | none =>
      match s.seqHeader c e with
      | .error s => s
      | .ok s => if e.pred then effect s e else s.seqDone c e (off e)

def QEntry.nextPc (e : QEntry) : Nat := e.pc + 1

/-! ### WAIT, SIGNAL, CWAIT, BEAT (R136, R149, R150, R202 to R204) -/

def zeroCount (_ : State) (e : QEntry) : Option (Nat × Nat) := if e.fld 87 64 = 0 then some (0x09, 0) else none

/-- WAIT: served at once where the count suffices after the header waits of the port heads (R204). -/
def State.doWait (c : Nat) (s : State) (e : QEntry) : State :=
  let t := e.fld 95 88
  let k := e.fld 87 64
  if t = 0 then s.seqDone c e e.nextPc
  else if k + s.claims c t ≤ s.tok c t then
    let s := s.setFld (Reg.SEQ_TOKEN c t) Fld.SEQ_TOKEN_COUNT (s.tok c t - k)
    (if s.allWaits c then s.traceWait c t 0 else s).seqDone c e e.nextPc
  else s.seqHold c e (.wait t k)

def execWait (c : Fin 64) (w : BitVec 128) (s : State) : Host.Outcome State Fault Refusal :=
  .next (s.runSeq c w 0x50 zeroCount (State.doWait c) QEntry.nextPc)

def QEntry.signalChip (e : QEntry) : Nat := (e.scal.get 0 (e.fld 56 52)).toNat % 2 ^ 15

def signalCheck (s : State) (e : QEntry) : Option (Nat × Nat) :=
  if e.fld 87 64 = 0 ∨ (e.fld 57 57 = 1 ∧ s.inTorus e.signalChip = false) then some (0x09, 0) else none

/-- SIGNAL applies its count at once; a remote one leaves as TC2, unless its chip is fenced. -/
def State.doSignal (c : Nat) (s : State) (e : QEntry) : State :=
  let tok := e.fld 95 88
  let n := e.fld 87 64
  let clu := e.fld 63 58
  let s :=
    if e.fld 57 57 = 0 then s.signalTo (s.seqTenant c) clu tok n (s.localPeer c portSeq e.pc)
    else if s.fenced e.signalChip then s
    else
      let s := s.inject { dst := e.signalChip, src := s.chip, tc := 2, type := 4, dclu := clu, sclu := c
                          body := leBytes 4 tok ++ leBytes 4 n }
      s.trace c 0x08 tok 0 (peerWord e.signalChip clu 0 0 0)
  s.seqDone c e e.nextPc

def execSignal (c : Fin 64) (w : BitVec 128) (s : State) : Host.Outcome State Fault Refusal :=
  .next (s.runSeq c w 0x51 signalCheck (State.doSignal c) QEntry.nextPc)

def noCheck (_ : State) (_ : QEntry) : Option (Nat × Nat) := none

def State.doCwait (c : Nat) (s : State) (e : QEntry) : State :=
  let p := e.scal.get 0 (e.fld 95 91)
  let y := e.fld 90 90 == 1
  if p ≤ s.rd Reg.CAD_POS then
    (if s.allWaits c then s.trace c 0x02 0 0 (peerWord (s.fld Reg.CAD_MASTER Fld.CAD_MASTER_CHIP) 0 6 0 0) else s).seqDone c e e.nextPc
  else
    let s := s.seqHold c e (.cwait p y)
    if y then s.yieldPoint c else s

def execCwait (c : Fin 64) (w : BitVec 128) (s : State) : Host.Outcome State Fault Refusal :=
  .next (s.runSeq c w 0x52 noCheck (State.doCwait c) QEntry.nextPc)

def beatCheck (c : Nat) (s : State) (_ : QEntry) : Option (Nat × Nat) :=
  let im := s.image 1
  if s.fld Reg.CAD_CTL Fld.CAD_CTL_SRC ≠ 2 ∨ s.seqTenant c ≠ 1 ∨ im.cadMaster ≠ s.chip ∨ im.beatCluster ≠ c then some (0x14, 0)
  else none

def State.doBeat (c : Nat) (s : State) (e : QEntry) : State :=
  (s.offerBeat 2 (e.scal.get 0 (e.fld 95 91)) s.chip).seqDone c e e.nextPc

def execBeat (c : Fin 64) (w : BitVec 128) (s : State) : Host.Outcome State Fault Refusal :=
  .next (s.runSeq c w 0x53 (beatCheck c) (State.doBeat c) QEntry.nextPc)

/-! ### YIELD and FENCE (R139, R147, R197, R202) -/

def State.doYield (c : Nat) (s : State) (e : QEntry) : State :=
  let s := (s.yieldPoint c).duePrefs c
  if (s.cl c).requested then s.seqHold c e .yield else s.seqDone c e e.nextPc

def execYieldI (c : Fin 64) (w : BitVec 128) (s : State) : Host.Outcome State Fault Refusal :=
  .next (s.runSeq c w 0x54 noCheck (State.doYield c) QEntry.nextPc)

def State.doFence (c : Nat) (s : State) (e : QEntry) : State :=
  let ports := e.fld 95 92
  let s := if ports.testBit 2 then s.duePrefs c else s
  if s.portsDone c ports then s.seqDone c e e.nextPc else s.seqHold c e (.fence ports)

def execFence (c : Fin 64) (w : BitVec 128) (s : State) : Host.Outcome State Fault Refusal :=
  .next (s.runSeq c w 0x55 noCheck (State.doFence c) QEntry.nextPc)

/-- FENCE_RELEASE: the named ports have drained. -/
def State.fenceRelease (s : State) (c : Nat) : State :=
  if s.seqState c ≠ seqRunning then s
  else match (s.cl c).hold with
    | some ⟨.fence ports, e, _⟩ => if s.portsDone c ports then s.seqDone c e e.nextPc else s
    | _ => s

def execFenceRelease (c : Fin 64) (s : State) : Host.Outcome State Fault Refusal := .next (s.fenceRelease c)

/-! ### LOOP and BR (R144 to R146, R205, R206) -/

/-- The checks of LOOP. The ninth LOOP_DEPTH is raised whatever the trip count, though one of 0 pushes nothing (DESIGN CHOICE, log entry
132). -/
def loopCheck (c : Nat) (s : State) (e : QEntry) : Option (Nat × Nat) :=
  if e.fld 84 65 = 0 then some (0x09, 0)
  else if 8 ≤ (s.cl c).loops.length then some (0x0F, 0)
  else if s.streamLen c < e.pc + 1 + e.fld 84 65 then some (0x11, 0)
  else none

def QEntry.loopEnd (e : QEntry) : Nat := e.pc + 1 + e.fld 84 65

def State.doLoop (c : Nat) (s : State) (e : QEntry) : State :=
  let trip := if e.fld 90 90 = 1 then (e.scal.get 0 (e.fld 89 85)).toNat else e.fld 64 41
  if trip = 0 then s.seqDone c e e.loopEnd
  else
    let start := BitVec.ofInt 64 (toSigned 24 (e.fld 40 17))
    let l : LoopEntry := { ireg := e.fld 95 91, start := start, stride := BitVec.ofInt 64 (toSigned 16 (e.fld 16 1)), trip := trip
                           iter := 0, bodyStart := e.pc + 1, bodyLen := e.fld 84 65, suspended := false }
    (s.modCl c (fun k => { k with loops := l :: k.loops }.setS l.ireg start)).seqDone c e e.nextPc

def execLoop (c : Fin 64) (w : BitVec 128) (s : State) : Host.Outcome State Fault Refusal :=
  .next (s.runSeq c w 0x60 (loopCheck c) (State.doLoop c) QEntry.loopEnd)

/-- The comparison of CMP and CMPBR on the values at decode. -/
def QEntry.compare (e : QEntry) : Bool :=
  let a := e.scal.get 0 (e.fld 84 80)
  let b := if e.fld 74 74 = 1 then BitVec.ofInt 64 (toSigned 32 (e.fld 49 18)) else e.scal.get 0 (e.fld 79 75)
  match e.fld 88 85 with
  | 0 => a == b
  | 1 => a != b
  | 2 => a.slt b
  | 3 => a.sle b
  | 4 => a.ult b
  | _ => a.ule b

def QEntry.brTaken (e : QEntry) : Bool := e.fld 95 92 == 0 || (e.fld 95 92 == 2 && e.compare)
def QEntry.brTarget (e : QEntry) : Int := e.pc + toSigned 24 (e.fld 73 50)

/-- The word `t` lies in the body of a LOOP of the stream that is not active: the LOOP words as the stream holds them, where the device
holds it. -/
def State.inIdleBody (s : State) (c t : Nat) : Bool :=
  let active := (s.cl c).loops.filterMap (fun (l : LoopEntry) => if l.suspended then none else some l.bodyStart)
  s.seqTenant c != 0 && (List.range t).any (fun q =>
    let w := BitVec.ofNat 128 (s.peekNat (s.streamBase c + 16 * q) 16)
    bitsOf w 127 116 == 0x606 && decide (t ≤ q + bitsOf w 84 65) && !active.contains (q + 1))

/-- The faults of a taken branch to `t` (R145, R146). Check 13 gives no order between the two: a target that leaves the loop body and the
stream raises LOOP_EXIT (DESIGN CHOICE, log entry 131). -/
def State.targetCheck (s : State) (c : Nat) (t : Int) : Option (Nat × Nat) :=
  let k := s.cl c
  let live := k.loops.filter (fun (l : LoopEntry) => !l.suspended)
  let outside : Bool := match live with
    | l :: _ => decide (t < (l.bodyStart : Int)) || decide ((l.bodyStart + l.bodyLen : Int) ≤ t)
    | [] => false
  let bounded := !live.isEmpty || k.ret.isNone
  if outside || (bounded && decide (0 ≤ t) && s.inIdleBody c t.toNat) then some (0x10, 0)
  else if t < 0 ∨ (s.streamLen c : Int) ≤ t then some (0x11, 0)
  else none

def brCheck (c : Nat) (s : State) (e : QEntry) : Option (Nat × Nat) :=
  if e.fld 95 92 = 3 then
    match (s.cl c).ret with
    | none => some (0x11, 0)
    | some r => if (s.cl c).loops.length ≠ r.2 then some (0x10, 0) else none
  else if e.brTaken then s.targetCheck c e.brTarget
  else none

def State.doBr (c : Nat) (s : State) (e : QEntry) : State :=
  if e.fld 95 92 = 3 then
    let back := ((s.cl c).ret.getD (0, 0)).1
    (s.modCl c (fun k => { k with ret := none, loops := k.loops.map (fun (l : LoopEntry) => { l with suspended := false }) })).seqDone
      c e back
  else
    let s := if e.fld 95 92 = 0 then s else s.modCl c (fun k => k.setP (e.fld 91 89) e.compare)
    s.seqDone c e (if e.brTaken then e.brTarget.toNat else e.nextPc)

def execBr (c : Fin 64) (w : BitVec 128) (s : State) : Host.Outcome State Fault Refusal :=
  .next (s.runSeq c w 0x61 (brCheck c) (State.doBr c) QEntry.nextPc)

/-! ### MOV.S (R134, R194) -/

/-- A LOAD is checked for alignment and place; a value for SLOT must be one the tenant owns (R194). -/
def movsCheck (c : Nat) (s : State) (e : QEntry) : Option (Nat × Nat) :=
  let load := e.fld 95 93 == 2
  let v := (s.movsValue c e).toNat
  if load && e.movsAddr % 8 != 0 then some (0x09, 0)
  else if load && !(inStage c e.movsAddr 8 && s.regionOk (s.seqTenant c) e.movsAddr 8 .rd) then some (0x0B, 0)
  else if e.fld 87 87 = 0 ∨ (load = true ∧ s.headerOk c e.wait = false) then none
  else if 15 < v then some (0x09, 0)
  else if s.slotOwner v ≠ s.seqTenant c then some (0x04, 0)
  else none

/-- The value is written; a LOAD that meets a parity error is charged, and decode holds at the word with its header wait still to
be served. -/
def State.doMovs (c : Nat) (s : State) (e : QEntry) : State :=
  let go (s : State) : State :=
    let v := s.movsValue c e
    let s := if e.fld 87 87 = 1 then s.setFld (Reg.SEQ_STATUS c) Fld.SEQ_STATUS_SLOT v.toNat
      else s.modCl c (fun k => k.setS (e.fld 92 88) v)
    s.seqDone c e e.nextPc
  if e.fld 95 93 ≠ 2 then go s
  else match (s.onBehalf (s.seqTenant c)).readMem e.movsAddr 8 with
    | (.detected h a, s) =>
      let s := if e.wait = 0 then s
        else s.setFld (Reg.SEQ_TOKEN c e.wait) Fld.SEQ_TOKEN_COUNT (s.tok c e.wait + s.quantum c e.wait)
      (s.chargeMem h a (s.seqTenant c)).seqHold c e .header
    | (.ok _, s) => go s

def execMovS (c : Fin 64) (w : BitVec 128) (s : State) : Host.Outcome State Fault Refusal :=
  .next (s.runSeq c w 0x33 (movsCheck c) (State.doMovs c) QEntry.nextPc)

/-! ### STEST (R207, R453 to R455) -/

/-- The unit STEST names. -/
def QEntry.testUnit (e : QEntry) (c : Nat) : Nat :=
  let ix := e.fld 91 80
  match e.fld 95 92 with
  | 0 => unitId 2 (c * 16 + ix)
  | 1 => unitId 4 c
  | 2 => unitId 6 (c * 64 + ix)
  | 3 => unitId 5 c
  | _ => unitId 7 ix

/-- Whether a pattern applies to a unit (R454). -/
def patternOk (unit pattern : Nat) : Bool :=
  match pattern with
  | 0 => true
  | 1 => true
  | 2 => unit == 0 || unit == 1 || unit == 3
  | 3 => unit == 0 || unit == 1
  | 4 => unit == 2 || unit == 4
  | 5 => unit == 2 || unit == 4
  | 6 => unit == 0 || unit == 1 || unit == 3
  | _ => false

def stestCheck (c : Nat) (s : State) (e : QEntry) : Option (Nat × Nat) :=
  let d := s.descOf c e (e.fld 79 72)
  let unit := e.fld 95 92
  let limit := if unit = 0 then 13 else if unit = 2 then 48 else if unit = 4 then 512 else 1
  if !d.valid then some (0x05, e.fld 79 72)
  else if limit ≤ e.fld 91 80 ∨ patternOk unit (e.fld 71 56) = false ∨ d.fmt ≠ 0x0F ∨ d.count ≠ 64 then some (0x09, 0)
  else if !rangesInStage c d.ranges || !s.rangesOk (s.seqTenant c) .wr d.ranges then some (0x0B, 0)
  else none

/-- The test of a whole stage bank leaves its lines with contents the spec does not give, written whole: free values (R453, R454). -/
def State.testBank (s : State) (c bank : Nat) : State :=
  (List.range 1024).foldl (fun (s : State) i =>
    (s.write (stageBase c + (i * 48 + bank) * 128) (s.freeBytes 16)).2.skipFree 16) s

/-- The test runs with the result `res`, and its record is written. -/
def State.doStest (res : TestResult) (c : Nat) (s : State) (e : QEntry) : State :=
  let d := s.descOf c e (e.fld 79 72)
  let s := s.onBehalf (s.seqTenant c)
  let s := if e.fld 95 92 = 2 ∧ s.seqCtx c ≠ 3 then s.testBank c (e.fld 91 80) else s
  let w := s.writePieces (d.chunkPieces 0 64) (testRecord (e.testUnit c) (e.fld 71 56) res s.now)
  (w.2.chargeWrite w.1 (s.seqTenant c)).seqDone c e e.nextPc

def execStest (c : Fin 64) (w : BitVec 128) (res : TestResult) (s : State) : Host.Outcome State Fault Refusal :=
  .next (s.runSeq c w 0x70 (stestCheck c) (State.doStest res c) QEntry.nextPc)

/-! ### Fetch (R133, R556) -/

/-- The first word of the fetch queue: the PC, or the start of a loop body that fits the queue and holds the PC. -/
def State.fetchStart (s : State) (c : Nat) : Nat :=
  match (s.cl c).loops with
  | l :: _ => if !l.suspended && decide (l.bodyLen ≤ 256) && decide (l.bodyStart ≤ s.seqPc c)
      && decide (s.seqPc c < l.bodyStart + l.bodyLen) then l.bodyStart else s.seqPc c
  | [] => s.seqPc c

/-- A range cut at 4 KiB boundaries. -/
def pages : Nat → Nat → Nat → List (Nat × Nat)
  | 0, _, _ => []
  | k + 1, a, n => if n = 0 then [] else (a, min n (4096 - a % 4096)) :: pages k (a + min n (4096 - a % 4096)) (n - min n (4096 - a % 4096))

/-- STREAM_FETCH: 256 words from the stream's region enter the fetch queue; without XS it is a FETCH fault. -/
def State.streamFetch (s : State) (c : Nat) (err : MemErr) : State :=
  if s.stopped = true ∨ s.seqState c ≠ seqRunning ∨ s.seqTenant c = 0 ∨ s.streamLen c ≤ s.seqPc c then s
  else
    let first := s.fetchStart c
    let n := min 256 (s.streamLen c - first)
    let a := s.streamBase c + 16 * first
    let t := s.seqTenant c
    match (pages 3 a (16 * n)).find? (fun p => !s.regionOk t p.1 p.2 .xs) with
    | some p => s.fault c { code := 0x15, port := portSeq, async := true, pc := s.seqPc c, dpa := p.1 }
    | none =>
      match (s.meet err t).readMem a (16 * n) with
      | (.detected h d, s) => s.chargeMem h d t
      | (.ok bs, s) =>
        s.modCl c (fun k => { k with
          fetched := (List.range n).map (fun i => (first + i, BitVec.ofNat 128 (leNat ((bs.drop (16 * i)).take 16)))) })

def execStreamFetch (c : Fin 64) (err : MemErr) (s : State) : Host.Outcome State Fault Refusal := .next (s.streamFetch c err)

/-! ### Starting and ending a stream (R556, R159, R160) -/

/-- The SCALAR_INIT, DESCRIPTORS and TOKENS sections of a tenant's image are loaded into the cluster. Where the image has no SCALAR_INIT for
it, every scalar is 0, SLOT 0 and only p0 set; without DESCRIPTORS every descriptor is 0; without TOKENS the tokens are as at reset
(DESIGN CHOICE, log entry 133). -/
def State.loadTables (s : State) (t c : Nat) : State :=
  let im := s.image t
  let si := im.scalarInit.get [] c
  let ds := im.descs.get [] c
  let toks := im.tokens.get [] c
  let num (bs : List Byte) (a n : Nat) := leNat ((bs.drop a).take n)
  let k := s.cl c
  let k : Cluster := { k.vacated with
    sreg := (List.range 32).foldl (fun (m : Tab (BitVec 64)) i => if i = 0 then m else m.set 0 i (BitVec.ofNat 64 (num si (8 * i) 8))) []
    preds := BitVec.ofNat 8 (num si 0x101 1) ||| 1
    desc := (List.range (ds.length / 64)).foldl (fun (m : Tab (BitVec 512)) i => m.set 0 i (BitVec.ofNat 512 (num ds (64 * i) 64))) []
    yieldAt := s.now }
  let s := s.setCl c k
  let s := s.setFld (Reg.SEQ_STATUS c) Fld.SEQ_STATUS_SLOT (num si 0x100 1)
  (List.range 256).foldl (fun (s : State) i =>
    let v := BitVec.ofNat 64 (num toks (8 * i) 8)
    let v := if toks.isEmpty then regReset (Reg.SEQ_TOKEN c i) else v
    s.wr (Reg.SEQ_TOKEN c i) (if getField v Fld.SEQ_TOKEN_QUANTUM = 0 then putField v Fld.SEQ_TOKEN_QUANTUM 1 else v)) s

/-- START of tenant `t`'s loaded stream (R164, R399, R556); a cluster that restores a context holds that stream (R261). -/
def State.seqStart (s : State) (t c : Nat) : State :=
  let rec_ : Bool := (s.rd Reg.GLB_START_CTX).getLsbD t
  let len := s.fld (Reg.SEQ_STREAM_LEN c (t - 1) rec_.toNat) Fld.SEQ_STREAM_LEN_LEN
  if t = 0 ∨ s.seqState c ≠ seqIdle ∨ len = 0 ∨ (t = 1 ∧ rec_ = false ∧ s.barrier ≠ 0) ∨ s.bootDead = true
      ∨ s.unitState (unitId 1 c) = 3 ∨ (List.range 4).any (fun u => s.ctxState u c == 5) = true then s
  else
    let s := s.loadTables t c
    let s := (s.setFld (Reg.SEQ_STATUS c) Fld.SEQ_STATUS_CTX (if rec_ then 3 else 1)).setFld (Reg.SEQ_STATUS c) Fld.SEQ_STATUS_TENANT t
    ((s.setPc c 0).showLoops c).setSeqState c seqRunning

/-- T0 and the tenant of the running stream write SEQ_CTL (R164). -/
def State.mayControl (s : State) (by_ c : Nat) : Bool := by_ == 0 || s.resident by_ c

/-- A tenant with a loaded stream on an IDLE cluster may write START there too (R164). -/
def State.mayStart_ (s : State) (by_ c : Nat) : Bool :=
  s.mayControl by_ c || (s.seqState c == seqIdle
    && [0, 1].any (fun x => s.fld (Reg.SEQ_STREAM_LEN c (by_ - 1) x) Fld.SEQ_STREAM_LEN_LEN != 0))

/-- A bit of SEQ_CTL is written 1: it is set (R6), and acts. -/
def State.strobe (s : State) (c : Nat) (f : Field) : State := s.setFld (Reg.SEQ_CTL c) f 1

/-- SEQ_START: by a tenant its own stream, by T0 the one SEQ_CTL.TENANT selects (R164, R556). -/
def execSeqStart (by_ : Fin 4) (c : Fin 64) (sel : Fin 4) (s : State) : Host.Outcome State Fault Refusal :=
  .next (if s.mayStart_ by_ c then (s.strobe c Fld.SEQ_CTL_START).seqStart (if by_ = 0 then sel else by_) c else s)

/-- HALT (R164): a RUNNING sequencer becomes HALTED, and so does one captured at a yield point, which stays captured. One that is IDLE or
FAULTED decodes nothing, and keeps its STATE (DESIGN CHOICE, log entry 134). -/
def State.seqHalt (s : State) (c : Nat) : State :=
  if s.seqState c = seqRunning then s.setSeqState c seqHalted
  else if s.seqState c = seqYielded ∧ (s.cl c).before ≠ seqFaulted then
    (s.modCl c (fun k => { k with before := seqHalted })).setSeqState c seqHalted
  else s

def execSeqHalt (by_ : Fin 4) (c : Fin 64) (s : State) : Host.Outcome State Fault Refusal :=
  .next (if s.mayControl by_ c then (s.strobe c Fld.SEQ_CTL_HALT).seqHalt c else s)

/-- What stopped in REGION_ASYNC goes on: movers check their chunk again, transfers and collectives their landings (R155, R272). -/
def State.resumeStopped (s : State) (c : Nat) : State :=
  let s := (s.movers.filter (fun e => e.2.cluster == c && e.2.state == 3)).foldl
    (fun (s : State) e => s.setMover e.1 { e.2 with state := 1 }) s
  let s := { s with
    movReqs := s.movReqs.map (fun (r : MovReq) =>
      if r.mrec.cluster = c ∧ r.mrec.state = 3 then { r with mrec := { r.mrec with state := 0 } } else r)
    txs := s.txs.map (fun (x : Tx) => if x.cluster = c then { x with stop := false } else x)
    rxs := s.rxs.map (fun (x : Rx) => if x.cluster = c then { x with stop := false } else x) }
  s.collResume c

/-- The cluster's stream is captured: SAVING, or PARKED. -/
def State.captured (s : State) (c : Nat) : Bool :=
  s.ctxState (s.seqTenant c) c == 2 || s.ctxState (s.seqTenant c) c == 4

/-- RESUME: a HALTED sequencer continues, and a FAULTED one whose pending faults can all be resumed (R155, R164, R399); one that is
captured goes on when its capture ends. -/
def State.seqResume (s : State) (c : Nat) : State :=
  if s.seqTenant c = 1 ∧ s.seqCtx c = 1 ∧ s.barrier ≠ 0 then s
  else if s.seqState c = seqHalted ∧ s.captured c = true then
    (s.modCl c (fun k => { k with before := seqRunning })).setSeqState c seqYielded
  else if s.seqState c = seqHalted then (s.setSeqState c seqRunning).releaseHold c
  else if s.seqState c = seqFaulted ∧ (s.cl c).hard = false ∧ s.captured c = false then
    ((s.setSeqState c seqRunning).resumeStopped c).releaseHold c
  else s

def execSeqResume (by_ : Fin 4) (c : Fin 64) (s : State) : Host.Outcome State Fault Refusal :=
  .next (if s.mayControl by_ c then (s.strobe c Fld.SEQ_CTL_RESUME).seqResume c else s)

/-- SEQ_CTL written whole: START, HALT, RESUME in that order (R164). -/
def State.writeSeqCtl (s : State) (t c : Nat) (v : BitVec 64) : State :=
  let bit (f : Field) : Bool := getField v f == 1
  let s := if bit Fld.SEQ_CTL_START && s.mayStart_ t c then
      (s.strobe c Fld.SEQ_CTL_START).seqStart (if t = 0 then getField v Fld.SEQ_CTL_TENANT else t) c
    else s
  let s := if bit Fld.SEQ_CTL_HALT && s.mayControl t c then (s.strobe c Fld.SEQ_CTL_HALT).seqHalt c else s
  if bit Fld.SEQ_CTL_RESUME && s.mayControl t c then (s.strobe c Fld.SEQ_CTL_RESUME).seqResume c else s

/-- A pending SAVE or PARK of a stream that ends lapses; a slice that waited for it starts its tests (DESIGN CHOICE). -/
def State.lapseRequest (s : State) (t c : Nat) : State :=
  if s.ctxState t c ≠ 1 then s
  else
    let s := s.setCtx t c 0
    match s.slice with
    | some sl => if sl.saved.any (fun p => p.1 == c) then
        { s with slice := some { sl with saved := sl.saved.filter (fun p => p.1 != c) } }.startTestStream c else s
    | none => s

/-- STREAM_END: decode has passed the last word and every port has completed (R556). T0's streams end with their slice or boot stage. -/
def State.streamEnd (s : State) (c : Nat) : State :=
  let k := s.cl c
  if s.seqState c ≠ seqRunning ∨ s.seqTenant c = 0 ∨ s.seqPc c < s.streamLen c ∨ k.hold.isSome = true ∨ s.portsDone c 15 = false
  then s
  else ((s.setCl c k.vacated).setSeqState c seqIdle).lapseRequest (s.seqTenant c) c

def execStreamEnd (c : Fin 64) (s : State) : Host.Outcome State Fault Refusal := .next (s.streamEnd c)

/-- SEQ_YIELD_GAP_MAX: any write sets it to 0 (R167); as SEQ_CTL, T0 and the tenant of the running stream write it (DESIGN CHOICE, log entry
135). -/
def execYieldGapMaxWrite (by_ : Fin 4) (c : Fin 64) (_v : BitVec 64) (s : State) : Host.Outcome State Fault Refusal :=
  .next (if s.mayControl by_ c then s.wr (Reg.SEQ_YIELD_GAP_MAX c) 0 else s)

/-! ### The watchdog (R478) -/

/-- A wait of R476 holds in the cluster. -/
def Cluster.waits (k : Cluster) : Bool :=
  !k.headSince.isEmpty || (match k.hold with
    | some h => match h.kind with
      | .header => true
      | .wait _ _ => true
      | .cwait _ _ => true
      | _ => false
    | none => false)

/-- TRACE_WATCHDOG: a wait has held longer than TRC_WDOG.LIMIT, once per hold. -/
def State.watchdog (s : State) (c : Nat) : State :=
  if s.fld Reg.TRC_WDOG Fld.TRC_WDOG_LIMIT = 0 ∨ (s.cl c).waits = false ∨ (s.cl c).wdogFired = true then s
  else
    let s := s.modCl c (fun k => { k with wdogFired := true })
    (s.event Reg.TRC_STATUS Fld.TRC_STATUS_WDOG Reg.TRC_WDOG_CNT).trigger c 1

def execTraceWatchdog (c : Fin 64) (s : State) : Host.Outcome State Fault Refusal := .next (s.watchdog c)

end Sys2Proof.Machine
end

