-- ==== Sys2Proof/Machine/Image.lean ====
section
/-!
DEFINITION. The schedule image (spec/05_askeb_model.md R156 to R163; spec/17_bringup_and_trust.md R555): its header and directory, the
checks of R161 in order, and what a load does (R162).
-/
namespace Sys2Proof

/-- A little-endian number inside a file. -/
def fileNum (bs : List Byte) (off n : Nat) : Nat := leNat ((bs.drop off).take n)

/-- A directory entry (R158). -/
structure Section where
  type : Nat
  program : Nat
  cluster : Nat
  ctx : Nat
  offset : Nat
  length : Nat
  deriving DecidableEq, Repr

/-- The directory, SECTION_COUNT entries from DIR_OFFSET; never more than the file can hold. -/
def imageSections (img : List Byte) : List Section :=
  let n := min (fileNum img 0x38 4) (img.length / 32)
  let d := fileNum img 0x40 8
  (List.range n).map (fun i =>
    let f (off k : Nat) := fileNum img (d + 32 * i + off) k
    { type := f 0 2, program := f 2 2, cluster := f 4 1, ctx := f 5 1, offset := f 8 8, length := f 0x10 8 })

def Section.bytes (x : Section) (img : List Byte) : List Byte := (img.drop x.offset).take x.length

/-- The program the image gives a chip: CHIP_PROGRAM's entry, or the one program (R156, R159). -/
def chipProgramOf (img : List Byte) (chip : Nat) : Nat :=
  match (imageSections img).find? (fun x => x.type == 0x0B) with
  | some x => fileNum (x.bytes img) (2 * chip) 2
  | none => 0

/-- The sections of one program: its own and those of every program. -/
def programSections (img : List Byte) (prog : Nat) : List Section :=
  (imageSections img).filter (fun x => x.program == prog || x.program == 0xFFFF)

/-! ### The checks that need the file alone (R159, R160, R161) -/

/-- 0x06: every section within the image, 64-byte aligned, no two overlapping, STREAM lengths multiples of 16. -/
def boundsOk (img : List Byte) : Bool :=
  let l := imageSections img
  let top := min (fileNum img 0x10 8) img.length
  l.length == fileNum img 0x38 4
    && l.all (fun x => x.offset % 64 == 0 && Nat.ble (x.offset + x.length) top && (x.type != 1 || x.length % 16 == 0))
    && (List.range l.length).all (fun i => (l.drop (i + 1)).all (fun y =>
        match l[i]? with
        | some x => Nat.ble (x.offset + x.length) y.offset || Nat.ble (y.offset + y.length) x.offset
        | none => true))

/-- Scope, CTX and size of one section (R159): 1 to 4 and 7 belong to a cluster, 5, 6, 8 to 10 to the chip, 0x0B and 0xF0 to the image. -/
def sectionOk (programs : Nat) (x : Section) : Bool :=
  let perCluster := Nat.blt x.cluster 64 && (x.program == 0xFFFF || Nat.blt x.program programs)
  let perChip := x.cluster == 0xFF && (x.program == 0xFFFF || Nat.blt x.program programs)
  let whole := x.cluster == 0xFF && x.program == 0xFFFF
  match x.type with
  | 0x01 => perCluster && (x.ctx == 1 || x.ctx == 3)
  | 0x02 => perCluster && x.ctx == 0 && x.length == 264
  | 0x03 => perCluster && x.ctx == 0 && x.length % 64 == 0 && Nat.ble x.length 16384
  | 0x04 => perCluster && x.ctx == 0 && x.length == 2048
  | 0x05 => perChip && x.ctx == 0 && x.length == 4096
  | 0x06 => perChip && x.ctx == 0 && x.length == 1024
  | 0x07 => perCluster && x.ctx == 0 && x.length == 1024
  | 0x08 => perChip && x.ctx == 0
  | 0x09 => perChip && x.ctx == 0
  | 0x0A => perChip && x.ctx == 0 && Nat.ble 8 x.length
  | 0x0B => whole && x.ctx == 0 && x.length == 49152
  | 0xF0 => whole && x.ctx == 0 && x.length == 104
  | _ => false

/-- 0x07: section types, scopes and CTX; one stream per context and cluster; SIGNATURE present exactly when the image is signed, then last
in the directory and in the image; CHIP_PROGRAM where there is more than one program. -/
def sectionsOk (img : List Byte) : Bool :=
  let l := imageSections img
  let programs := fileNum img 0x28 2
  let streams := l.filter (fun x => x.type == 1)
  let clash (x y : Section) : Bool := x.cluster == y.cluster && x.ctx == y.ctx
    && (x.program == y.program || x.program == 0xFFFF || y.program == 0xFFFF)
  let isSig (x : Section) : Bool := x.type == 0xF0
  Nat.ble 1 programs && l.all (sectionOk programs)
    && (List.range streams.length).all (fun i => (streams.drop (i + 1)).all (fun y =>
        match streams[i]? with
        | some x => !clash x y
        | none => true))
    && (if fileNum img 0x0E 2 % 2 = 1 then (l.filter isSig).length == 1 && (match l.getLast? with
            | some x => isSig x && l.all (fun y => Nat.ble y.offset x.offset)
            | none => false)
        else !l.any isSig)
    && (Nat.ble programs 1 || l.any (fun x => x.type == 0x0B))

/-- 0x0B: every token table entry follows R160, that of t0 is zero, and no token forwards to itself. -/
def tokenTableOk (bs : List Byte) : Bool :=
  fileNum bs 0 8 == 0 && (List.range (bs.length / 8)).all (fun i =>
    let v := fileNum bs (8 * i) 8
    let consumer := v / 2 ^ 40 % 8
    let fwd := v / 2 ^ 48 % 256
    consumer != 5 && consumer != 6 && v / 2 ^ 43 % 32 == 0 && v / 2 ^ 56 == 0 && (fwd == 0 || fwd != i))

namespace Machine

/-! ### The checks against the chip (R161, R555) -/

/-- The signature of a signed image verifies under an owner key of the tenant, or none is required (R163, R555). -/
def State.signatureOk (s : State) (t : Nat) (img : List Byte) : Bool :=
  if fileNum img 0x0E 2 % 2 = 0 then s.fld Reg.SEC_POLICY (bitField t) == 0
  else match (imageSections img).getLast? with
    | none => false
    | some x =>
      let sig := x.bytes img
      let id := (sig.drop 8).take 32
      let r := beNat ((sig.drop 0x28).take 32)
      let v := beNat ((sig.drop 0x48).take 32)
      x.type == 0xF0 && fileNum sig 0 2 == 1 && (List.range 16).any (fun k =>
        s.fld (Reg.SEC_OWNER_CTL k) Fld.SEC_OWNER_CTL_VALID == 1 && s.fld (Reg.SEC_OWNER_CTL k) (bitField t) == 1
          && s.regWords (Reg.SEC_OWNER_ID k) 4 == id
          && sm2Verify (beNat ((s.ownerKey k).take 32)) (beNat ((s.ownerKey k).drop 32)) (img.take x.offset) r v)

def roundUp (n k : Nat) : Nat := (n + k - 1) / k * k

/-- The STREAM sections of this chip's program with the place each takes in the code area (R162). -/
def streamPlaces (code : Nat) : List Section → List (Section × Nat)
  | [] => []
  | x :: rest => if x.type = 1 then (x, code) :: streamPlaces (code + roundUp x.length 4096) rest else streamPlaces code rest

def codeBytes (l : List Section) : Nat := l.foldl (fun n x => if x.type = 1 then n + roundUp x.length 4096 else n) 0

/-- 0x0D: the code area is aligned, lies in HBM below the region ceiling, clear of every context region. -/
def State.codeAreaOk (s : State) (code n : Nat) : Bool :=
  code % 4096 == 0 && Nat.ble (code + n) (min s.ceiling s.memTop) && [0, 1, 2, 3].all (fun t =>
    !overlaps code n (s.fld (Reg.MOV_CTX_BASE t) Fld.MOV_CTX_BASE_BASE) (128 * s.fld (Reg.MOV_CTX_SLOT t) Fld.MOV_CTX_SLOT_SLOT))

/-- The REGIONS section is loaded; a rejected entry is left invalid (R226). -/
def State.loadRegions (s : State) (t : Nat) (bs : List Byte) : State :=
  (List.range 256).foldl (fun (s : State) i =>
    let w0 := BitVec.ofNat 64 (fileNum bs (16 * i) 8)
    let w1 := BitVec.ofNat 64 (fileNum bs (16 * i + 8) 8)
    let s := s.wr (Reg.MEM_RGN_W0 t i) 0
    let s := s.writeRgnW1 t i w1
    s.writeRgnW0 t i w0) s

/-- The state whose region table is as the image leaves it. -/
def State.withRegions (s : State) (t : Nat) (img : List Byte) (l : List Section) : State :=
  match l.find? (fun x => x.type == 5) with
  | some x => s.loadRegions t (x.bytes img)
  | none => s

/-- The value R162 writes into CAD_CTL.SRC. -/
def State.loadSrc (s : State) (img : List Byte) : Nat := if fileNum img 0x30 2 = s.chip then fileNum img 0x32 1 else 1

/-- The checks of R161 in order: 0, or the status of the first that fails. -/
def State.imageStatus (s : State) (t : Nat) (img : List Byte) (code : Nat) : Nat :=
  let f := fileNum img
  let micro := s.tr.ucode.version / 65536
  let master := f 0x30 2
  let prog := chipProgramOf img s.chip
  let mine := programSections img prog
  if f 0 4 ≠ 0x424B5341 then 0x01
  else if f 4 2 ≠ 1 ∨ f 6 2 ≠ 0 then 0x02
  else if f 8 1 ≠ 1 ∨ f 9 1 ≠ 0 then 0x03
  else if micro < f 0x0A 2 ∨ f 0x0C 2 < micro then 0x04
  else if !s.signatureOk t img then 0x05
  else if !boundsOk img then 0x06
  else if !sectionsOk img then 0x07
  else if s.fld Reg.IDM_STATUS Fld.IDM_STATUS_VALID = 0 ∨ f 0x20 1 ≠ s.dim 0 ∨ f 0x21 1 ≠ s.dim 1 ∨ f 0x22 1 ≠ s.dim 2
      ∨ !s.inTorus master ∨ 32768 ≤ master then 0x08
  else if f 0x34 4 = 0 ∨ 200000 < f 0x34 4 then 0x09
  else if f 0x28 2 ≤ prog then 0x0A
  else if !((imageSections img).filter (fun x => x.type == 4)).all (fun x => tokenTableOk (x.bytes img)) then 0x0B
  else if (List.range 64).any (fun c =>
      (s.seqTenant c == t && (s.seqState c == seqRunning || s.seqState c == seqYielded))
        || [1, 2, 4, 5].contains (s.ctxState t c)) then 0x0C
  else if !s.codeAreaOk code (codeBytes mine) then 0x0D
  else if !(mine.filter (fun x => x.type == 0x0A)).all (fun x =>
      x.length == 8 || (s.withRegions t img mine).regionOk t (fileNum (x.bytes img) 0 8) (x.length - 8) .wr) then 0x0E
  else if t = 1 ∧ ((f 0x32 1 ≠ 2 ∧ f 0x32 1 ≠ 3) ∨ 63 < f 0x33 1
      ∨ (s.fld Reg.CAD_CTL Fld.CAD_CTL_LOCK = 1 ∧ s.fld Reg.CAD_CTL Fld.CAD_CTL_SRC ≠ s.loadSrc img)) then 0x0F
  else 0

/-! ### The load (R162) -/

/-- Work of a tenant's stopped stream on a cluster that the load waits for: what still runs, but for what stopped for a cause of its own. -/
def State.drained (s : State) (t c : Nat) : Bool :=
  !s.resident t c || (s.issuedDone c && s.movers.all (fun e => e.2.cluster != c || Nat.ble 3 e.2.state)
    && s.movReqs.all (fun (r : MovReq) => r.mrec.cluster != c || r.head || Nat.ble 3 r.mrec.state)
    && s.txs.all (fun (x : Tx) => x.cluster != c || x.stop) && s.rxs.all (fun (x : Rx) => x.cluster != c || x.stop)
    && s.colls.all (fun e => e.2.plan.issuer != c || e.2.stop || !e.2.stalled.isEmpty || !e.2.det.isEmpty))

/-- A tenant's stream leaves a cluster: queues, transfers and tables go, the sequencer is IDLE. -/
def State.dropStream (s : State) (t c : Nat) : State :=
  if !s.resident t c then s
  else
    let s := ((s.movers.filter (fun e => e.2.cluster == c && e.2.tenant == t)).map (·.1)).foldl State.freeMover s
    let gone := (s.colls.filter (fun e => e.2.plan.issuer == c && t == 1)).map (·.1)
    let s := { s with
      movReqs := s.movReqs.filter (fun (r : MovReq) => !(r.mrec.cluster == c && r.mrec.tenant == t))
      txs := s.txs.filter (fun (x : Tx) => !(x.cluster == c && x.tenant == t))
      rxs := s.rxs.filter (fun (x : Rx) => !(x.cluster == c && x.tenant == t)) }
    let s := gone.foldl (fun (s : State) i => { s with colls := s.colls.erase i }.showColl i) s
    ((s.settleStacks t c).setCl c (s.cl c).vacated).setSeqState c seqIdle

/-- The tenant's saved context on a cluster, as DISCARD. -/
def State.dropContext (s : State) (t c : Nat) : State := if s.ctxState t c = 3 then s.discard t c else s

/-- Step 1: the tenant's streams, image, saved contexts and held signals go; with T1's image go its plans, and so their counts of R200, and
what was kept for collectives and transfers not yet issued (DEDUCED). -/
def State.unloadImage (s : State) (t : Nat) : State :=
  let s := (List.range 64).foldl (fun (s : State) c =>
    let s := (s.dropStream t c).dropContext t c
    [0, 1].foldl (fun (s : State) x =>
      if t = 0 then s else (s.wr (Reg.SEQ_STREAM_BASE c (t - 1) x) 0).wr (Reg.SEQ_STREAM_LEN c (t - 1) x) 0) s) s
  let s := { s with images := s.images.erase t
                    heldSig := s.heldSig.filter (fun e => e.1 / 16384 != t) }
  if t = 1 then { s with collN := [], early := [], grants := [] } else s

/-- Step 2: the streams are copied into the code area and named by the clusters' stream registers. -/
def State.loadStreams (s : State) (t : Nat) (img : List Byte) (l : List (Section × Nat)) : State :=
  l.foldl (fun (s : State) e =>
    let s := (s.storeCharged false e.2 (e.1.bytes img) t).2
    if t = 0 then s
    else
      let x := if e.1.ctx = 3 then 1 else 0
      (s.wr (Reg.SEQ_STREAM_BASE e.1.cluster (t - 1) x) (BitVec.ofNat 64 e.2)).wr (Reg.SEQ_STREAM_LEN e.1.cluster (t - 1) x)
        (BitVec.ofNat 64 (e.1.length / 16))) s

/-- Sections of one type by cluster, later ones over earlier ones. -/
def byCluster (img : List Byte) (l : List Section) (type : Nat) : Tab (List Byte) :=
  (l.filter (fun x => x.type == type)).foldl (fun m x => m.set [] x.cluster (x.bytes img)) []

/-- The chip-wide section of a type; empty where there is none. -/
def chipSection (img : List Byte) (l : List Section) (type : Nat) : List Byte :=
  match (l.filter (fun x => x.type == type)).getLast? with
  | some x => x.bytes img
  | none => []

/-- What the chip keeps of a loaded image. -/
def imageRecord (img : List Byte) (l : List Section) : ImageRec :=
  { jobId := BitVec.ofNat 64 (fileNum img 0x18 8), cadMaster := fileNum img 0x30 2, cadSrc := fileNum img 0x32 1
    beatCluster := fileNum img 0x33 1, yieldBound := fileNum img 0x34 4
    scalarInit := byCluster img l 2, descs := byCluster img l 3, tokens := byCluster img l 4
    plans := chipSection img l 8, chunkTabs := chipSection img l 9, chipProgram := chipSection img l 0x0B }

def State.loadArms (s : State) (a : Fin 64 → ArmId) (bs : List Byte) : State :=
  (List.range 64).foldl (fun (s : State) i =>
    s.loadArm (a (Fin.ofNat 64 i)) (BitVec.ofNat 64 (fileNum bs (16 * i) 8)) (BitVec.ofNat 64 (fileNum bs (16 * i + 8) 8))) s

/-- Step 3: the tables, then the DATA sections. Clusters on which another tenant's stream is in progress keep their tables; START
loads them (R556). Of several sections of one type for one scope, REGIONS and GLOBAL_ARMS take the first, COLL_PLANS, CHUNK_TABLES,
CHIP_PROGRAM and the clusters' tables the last (DESIGN CHOICE, log entry 137). -/
def State.loadSections (s : State) (t : Nat) (img : List Byte) (l : List Section) : State :=
  let s := s.withRegions t img l
  let s := { s with images := s.images.put t (imageRecord img l) }
  let cs := ((l.filter (fun x => [2, 3, 4].contains x.type)).map (fun (x : Section) => x.cluster)).eraseDups
  let s := cs.foldl (fun (s : State) c => if s.seqState c = seqIdle then s.loadTables t c else s) s
  let s := match l.find? (fun x => x.type == 6) with
    | some x => s.loadArms ArmId.glob (x.bytes img)
    | none => s
  let s := (l.filter (fun x => x.type == 7)).foldl (fun (s : State) x =>
    s.loadArms (ArmId.clu (Fin.ofNat 64 x.cluster)) (x.bytes img)) s
  (l.filter (fun x => x.type == 0x0A)).foldl (fun (s : State) x =>
    (s.storeCharged false (fileNum (x.bytes img) 0 8) ((x.bytes img).drop 8) t).2) s

/-- Step 4: the cadence source of a T1 image. -/
def State.loadCadence (s : State) (img : List Byte) : State :=
  if s.fld Reg.CAD_CTL Fld.CAD_CTL_LOCK = 1 then s
  else (s.setFld Reg.CAD_CTL Fld.CAD_CTL_EN 0).setFld Reg.CAD_CTL Fld.CAD_CTL_SRC (s.loadSrc img)

/-- LOAD_IMAGE for a tenant: the status of R161 and the state after, or none while the load waits for ports to complete. The load is one
step, so SEQ_STATUS.STATE never reads LOADING (DESIGN CHOICE, log entry 138). -/
def State.loadImage (s : State) (t : Nat) (img : List Byte) (code : Nat) : Option (Nat × State) :=
  match s.imageStatus t img code with
  | 0 =>
    if !(List.range 64).all (s.drained t) then none
    else
      let l := programSections img (chipProgramOf img s.chip)
      let s := s.unloadImage t
      let s := if t = 1 ∧ s.barrier ≠ 0 then
          ((List.range 16).filter (fun sl => s.slotOwner sl == 1)).foldl State.emptySlot s else s
      let s := s.loadStreams t img (streamPlaces code l)
      let s := s.loadSections t img l
      let s := if t = 1 then s.loadCadence img else s
      some (0, s.extend (8 + t) 1 t {} (sm3 img))
  | e => some (e, if e = 0x05 then s.event Reg.SEC_STATUS Fld.SEC_STATUS_SIG_FAIL Reg.SEC_SIG_FAIL_CNT else s)

end Machine
end Sys2Proof
end

