-- ==== Sys2Proof/Machine/Links.lean ====
section
/-!
DEFINITION. The torus ports below the flit (spec/09_ploveus_links.md): modules and their labels, training and negotiation, the lanes of
each direction with their spare, fast retrains, going DOWN, and the port-to-axis map.
-/
namespace Sys2Proof.Machine

/-! ### The link record and what software sees of it (R291, R309, R311, R312) -/

def State.link (s : State) (p : Nat) : Link := s.links.get {} p
def State.setLink (s : State) (p : Nat) (l : Link) : State := { s with links := s.links.set {} p l }
def State.modLink (s : State) (p : Nat) (f : Link → Link) : State := s.setLink p (f (s.link p))

/-- SEQ, ACK and ACKV of the next flit that is not DATA (R284, R288). -/
def Link.head (l : Link) : FlitHead := { seq := l.next, ack := l.last, ackv := l.heard }

/-- A flit joins its group; five make four codewords, whose symbols go round the active lanes (R286). -/
def Link.push (l : Link) (f : LinkFlit) : Link :=
  let flits := l.group ++ [f]
  if flits.length < 5 then { l with group := flits }
  else
    let symbols := (fecGroup (flits.flatMap LinkFlit.bytes)).flatten
    { l with group := [], txSym := l.txSym + symbols.length, wire := toLanes l.txPos l.txSym symbols }

/-- A flit goes out on a port; with the transmitters off none does (R435). -/
def State.sendFlit (s : State) (p : Nat) (f : LinkFlit) : State :=
  if s.stopped then s else (s.modLink p (fun l => l.push f)).say (.link p f)

/-- The lanes whose bits are set in a mask of 11. -/
def laneBits (n : Nat) : List Nat := (List.range 11).filter (fun i => n.testBit i)
def laneMask (l : List Nat) : Nat := ((List.range 11).filter l.contains).foldl (fun n i => n + 2 ^ i) 0

def State.txLanes (s : State) (p : Nat) : List Nat := laneBits (s.fld (Reg.PRT_LANES p) Fld.PRT_LANES_TX_ACTIVE)
def State.rxLanes (s : State) (p : Nat) : List Nat := laneBits (s.fld (Reg.PRT_LANES p) Fld.PRT_LANES_RX_ACTIVE)
def State.txRetired (s : State) (p : Nat) : List Nat := laneBits (s.fld (Reg.PRT_LANES p) Fld.PRT_LANES_TX_RETIRED)
def State.rxRetired (s : State) (p : Nat) : List Nat := laneBits (s.fld (Reg.PRT_LANES p) Fld.PRT_LANES_RX_RETIRED)

/-- The active lanes of a direction, in the order of their positions. -/
def State.setTxLanes (s : State) (p : Nat) (l : List Nat) : State :=
  ((s.modLink p (fun k => { k with txPos := l })).setFld (Reg.PRT_LANES p) Fld.PRT_LANES_TX_ACTIVE (laneMask l)).setFld (Reg.PRT_STATUS p) Fld.PRT_STATUS_TX_LANES
    (laneBits (laneMask l)).length

def State.setRxLanes (s : State) (p : Nat) (l : List Nat) : State :=
  ((s.modLink p (fun k => { k with rxPos := l })).setFld (Reg.PRT_LANES p) Fld.PRT_LANES_RX_ACTIVE (laneMask l)).setFld (Reg.PRT_STATUS p) Fld.PRT_STATUS_RX_LANES
    (laneBits (laneMask l)).length

def State.retireTx (s : State) (p : Nat) (l : List Nat) : State :=
  s.setFld (Reg.PRT_LANES p) Fld.PRT_LANES_TX_RETIRED (laneMask (s.txRetired p ++ l))
def State.retireRx (s : State) (p : Nat) (l : List Nat) : State :=
  s.setFld (Reg.PRT_LANES p) Fld.PRT_LANES_RX_RETIRED (laneMask (s.rxRetired p ++ l))

/-- The spare of a direction: the lane left over when ten carry data, if it is free (R282). -/
def State.spareBit (s : State) (p : Nat) (tx : Bool) : Bool :=
  s.fld (Reg.PRT_STATUS p) (if tx then Fld.PRT_STATUS_TX_SPARE else Fld.PRT_STATUS_RX_SPARE) == 1
def State.setSpare (s : State) (p : Nat) (tx v : Bool) : State :=
  s.setFld (Reg.PRT_STATUS p) (if tx then Fld.PRT_STATUS_TX_SPARE else Fld.PRT_STATUS_RX_SPARE) v.toNat
def State.spareLane (s : State) (p : Nat) (tx : Bool) : Option Nat :=
  if s.spareBit p tx then
    (List.range 11).find? (fun i => !(if tx then s.txLanes p ++ s.txRetired p else s.rxLanes p ++ s.rxRetired p).contains i)
  else none

/-- MIN_LANES as it acts (R310). -/
def State.minLanes (s : State) (p : Nat) : Nat := min 10 (max 5 (s.fld (Reg.PRT_CTL p) Fld.PRT_CTL_MIN_LANES))
def State.portEn (s : State) (p : Nat) : Bool := s.fld (Reg.PRT_CTL p) Fld.PRT_CTL_EN == 1

/-- The unit state that a link state gives (R309). -/
def State.portUnit (s : State) (p : Nat) : State :=
  let u := unitId 8 p
  let full := s.fld (Reg.PRT_STATUS p) Fld.PRT_STATUS_TX_LANES == 10 && s.fld (Reg.PRT_STATUS p) Fld.PRT_STATUS_RX_LANES == 10
    && s.spareBit p true && s.spareBit p false
  let next (v : Nat) : State := s.unitChange u { s.unitOf u with state := v } 0 0
  match s.linkState p with
  | 5 => if full then next 0 else next 1
  | 0 => next 5
  | 7 => next 5
  | _ => s

/-- The port enters a link state: STATE, the LINK trace record, its unit state. -/
def State.toLink (s : State) (p st : Nat) : State :=
  let s := s.setFld (Reg.PRT_STATUS p) Fld.PRT_STATUS_STATE st
  (s.trace (64 + p) 0x11 st 0 (peerWord (s.fld (Reg.PRT_PEER p) Fld.PRT_PEER_CHIP) 0 0 0 0)).portUnit p

/-- The lane enable controls of the module's page 10h follow the transmitters: off, or on for every lane that is not retired (R298;
DESIGN CHOICE, log entry 122: the spec says that they are written, not when). -/
def State.enableLanes (s : State) (p : Nat) (on : Bool) : State :=
  s.modLink p (fun l => { l with laneEn := if on then 2047 - laneMask (s.txRetired p) else 0 })

/-- The transmitters go off: no lane carries data, no spare is free. -/
def State.lanesOff (s : State) (p : Nat) : State :=
  ((((s.setTxLanes p []).setRxLanes p []).setSpare p true false).setSpare p false false).enableLanes p false

/-- In ALIGN each lane carries its number in a TRAIN flit sent on that lane alone (R291). -/
def State.sendLaneIds (s : State) (p : Nat) : State :=
  ((List.range 11).filter (fun i => !(s.txRetired p).contains i)).foldl
    (fun (s : State) i => s.say (.link p (.lane (s.link p).head i))) s

/-! ### Acknowledgements (R288, R290, R330) -/

/-- Entries of the replay buffer up to and including a SEQ; none where it does not hold that SEQ. -/
def Link.ackedUpTo (l : Link) (seq : BitVec 16) : Option Nat := (l.buf.findIdx? (fun e => e.1.seq == seq)).map (· + 1)

/-- The first packet of a channel at an output, all of whose flits are sent: its tail is acknowledged, the router need not keep it
(R330). -/
def State.packetAcked (s : State) (p tc ch : Nat) : State :=
  match (s.rt.queue p).find? (fun q => q.p.tc == tc && q.outChan == ch && q.sent == q.p.flits) with
  | some q => { s with rt := { s.rt with rout := s.rt.rout.set [] p ((s.rt.queue p).erase q) } }
  | none => s

/-- An ACK frees every buffered flit up to its SEQ, and the escalation count starts again (R288, R290). -/
def State.takeAck (s : State) (p : Nat) (ack : BitVec 16) (ackv : Bool) : State :=
  let l := s.link p
  match if ackv then l.ackedUpTo ack else none with
  | none => s
  | some n =>
    let tails := (l.buf.take n).filter (fun e => e.2)
    let s := s.setLink p { l with buf := l.buf.drop n, esc := 0, replay := l.replay.map (· - n) }
    tails.foldl (fun (s : State) e => s.packetAcked p e.1.tc e.1.ch) s

/-- The ACK that came with any flit. -/
def State.hearAck (s : State) (p : Nat) (a : LinkAck) : State := s.takeAck p a.ack a.ackv

/-! ### DOWN and HELD (R293, R306) -/

/-- The channels of the packets with an unacknowledged flit in the replay buffer, one entry per packet, in SEQ order (R306). -/
def Link.unacked (l : Link) : List Nat :=
  let step (acc : List Nat × List Nat) (e : Flit × Bool) : List Nat × List Nat :=
    let k := e.1.tc * 16 + e.1.ch
    let seen := if acc.1.contains k then acc.2 else acc.2 ++ [k]
    (if e.2 then acc.1.filter (· ≠ k) else if acc.1.contains k then acc.1 else acc.1 ++ [k], seen)
  (l.buf.foldl step ([], [])).2

/-- The packets of a queue in the order in which their channels are listed, the rest after them; true: the list names it. -/
def returnOrder : List Nat → List RPkt → List (Bool × RPkt)
  | [], q => q.map (fun x => (false, x))
  | k :: rest, q =>
    match q.find? (fun x => x.p.tc * 16 + x.outChan == k) with
    | some x => (true, x) :: returnOrder rest (q.erase x)
    | none => returnOrder rest q

/-- The packets that a port going DOWN returns: those with a flit the peer has not acknowledged, in SEQ order, then those of which no
flit has left (R306, R330, R338). A CREDIT packet ends with its link (DEDUCED, log entry 122: it is hop-local and never forwarded). -/
def State.returned (s : State) (p : Nat) : List (Bool × RPkt) :=
  (returnOrder (s.link p).unacked (s.rt.queue p)).filter (fun x => x.2.p.type != 10)

/-- Everything of one port in a router table whose key divided by `w` names the port. -/
def dropPort {α : Type} (t : Tab α) (w p : Nat) : Tab α := t.filter (fun e => e.1 / w != p)

/-- A link ends: its packets stay at the output until they are routed again, none of their flits sent; what was held in part is discarded;
credits and sequence numbers start again with the next training (R306, R330). -/
def State.endLink (s : State) (p : Nat) : State :=
  let l := s.link p
  let r := s.rt
  let r := { r with
    usedRes := dropPort r.usedRes 128 p
    usedPool := dropPort r.usedPool 128 p
    heldRes := dropPort r.heldRes 128 p
    heldPool := dropPort r.heldPool 128 p
    due := dropPort r.due 256 p
    rout := r.rout.set [] p ((s.returned p).map (fun x => { x.2 with sent := 0 })) }
  { s with rt := r }.setLink p { module := l.module, retrains := l.retrains }

/-- The port goes DOWN; `notice`: its lanes carry flits, ALIGN to RETRAIN, so that DOWN_NOTICE goes first (R306). -/
def State.linkDown (s : State) (p : Nat) (notice : Bool) : State :=
  let s := if notice && decide (3 ≤ s.linkState p ∧ s.linkState p ≤ 6) then
      s.sendFlit p (.lmf (s.link p).head [{ num := (s.link p).nextNote, msg := .downNotice }] (s.link p).acks) else s
  let s := s.cntBy (Reg.PRT_RETURN_CNT p) ((s.returned p).filter (·.1)).length
  let s := (s.endLink p).lanesOff p
  let s := s.setFld (Reg.PRT_STATUS p) Fld.PRT_STATUS_HOLD 0
  (s.event (Reg.PRT_STATUS p) Fld.PRT_STATUS_DOWN (Reg.PRT_DOWN_CNT p)).toLink p 0

/-- The port is held with a cause of R293. -/
def State.holdPort (s : State) (p cause : Nat) : State :=
  let s := (s.endLink p).lanesOff p
  let s := s.setFld (Reg.PRT_STATUS p) Fld.PRT_STATUS_HOLD cause
  (s.event (Reg.PRT_STATUS p) Fld.PRT_STATUS_HELD (Reg.PRT_HOLD_CNT p)).toLink p 7

/-- A check of NEGOTIATE fails: HELD, or DOWN where the port retrains (R291). -/
def State.failTraining (s : State) (p cause : Nat) : State :=
  if s.linkState p = 6 then s.linkDown p true else s.holdPort p cause

/-! ### Fast retrain (R294, R305, R307) -/

/-- RETRAIN_START: sequence numbers and buffers are kept; the third start within 1 s takes the port DOWN (R294). -/
def State.startRetrain (s : State) (p : Nat) : State :=
  let recent := ((s.link p).retrains.filter (fun t => decide (s.now - t ≤ 1000000000))) ++ [s.now]
  let s := s.modLink p (fun l => { l with
    retrains := recent, aligned := false, capsSent := false, capsOk := false, acked := false, measured := false, ping := none
    episode := false, esc := 0, replay := none, notes := [], acks := [], txSwitch := none, rxSwitch := none, failed := [] })
  let s := s.event (Reg.PRT_STATUS p) Fld.PRT_STATUS_RETRAIN (Reg.PRT_RETRAIN_CNT p)
  if 3 ≤ recent.length then s.linkDown p true else (s.toLink p 6).sendLaneIds p

/-- A direction has lost lanes and has no spare for them: it retrains with those that remain, or goes DOWN (R305). -/
def State.shrinkRx (s : State) (p : Nat) (lost : List Nat) : State :=
  let l := (s.link p).rxPos.filter (fun i => !lost.contains i)
  let s := (s.setRxLanes p l).setSpare p false false
  if l.length < s.minLanes p then s.linkDown p true
  else if s.linkState p = 6 then s else s.startRetrain p

/-! ### Modules and training (R291, R292, R298 to R300) -/

/-- The board identity keeps every port disabled: it failed a check other than BID_POOL (R526). -/
def State.portsBarred (s : State) : Bool :=
  [0, 1, 2, 4].any (fun b => s.fld Reg.IDM_STATUS (bitField b) == 1)

/-- DETECT starts: the module is read. A chip whose boot failed before the HBM stage runs no port (R539). -/
def State.startDetect (s : State) (p : Nat) : State :=
  if s.bootDead then s else (s.setFld (Reg.PRT_STATUS p) Fld.PRT_STATUS_HOLD 0).toLink p 1

/-- PORT_ENABLE_WRITE: T0 writes PRT_CTL. EN set starts training from DOWN, while a module is present, and from HELD; EN cleared takes
the port DOWN (R291, R306, R310). -/
def State.writePrtCtl (s : State) (p : Nat) (v : BitVec 64) : State :=
  let was := s.portEn p
  let s := s.writeCodes (Reg.PRT_CTL p) (if s.portsBarred then v &&& ~~~1 else v)
  let st := s.linkState p
  if s.portEn p then
    if was then s else if (st = 0 ∨ st = 7) ∧ (s.link p).module = true then s.startDetect p else s
  else if was = true ∧ st ≠ 0 ∧ st ≠ 7 then s.linkDown p true
  else s

def execPortEnableWrite (by_ : Fin 4) (p : Fin 12) (v : BitVec 32) (s : State) : Host.Outcome State Fault Refusal :=
  .next (if by_ = 0 then s.writePrtCtl p (v.setWidth 64) else s)

/-- Preset and latency class of a medium; none: held with cause MODULE (R300). A module that is no CMIS module of revision 5.0 or later
cannot be read as one (R298). -/
def presetOf (m : Cmis) : Option (Nat × Nat) :=
  if !(m.readable && m.cmis && Nat.ble 5 m.revision) then none
  else match m.media with
    | 1 => if m.length ≤ 10 then some (0, 0) else if m.length ≤ 20 then some (1, 0) else none
    | 2 => if m.length ≤ 50 then some (4, 1) else none
    | 3 => some (8, 2)
    | _ => none

/-- What PRT_MODULE shows of the module read (R312). -/
def State.showModule (s : State) (p : Nat) (m : Cmis) : State :=
  if !(m.readable && m.cmis && Nat.ble 5 m.revision) then s.wr (Reg.PRT_MODULE p) 0
  else
    let media := if m.media ≤ 3 then m.media else 0
    let len := if media = 3 then 0xFF else min 255 m.length
    let hint := s.fld (Reg.PRT_CTL p) Fld.PRT_CTL_USE_HINT == 1 && m.hint
    let preset : Nat := match presetOf m with
      | some x => x.1
      | none => 0
    s.wr (Reg.PRT_MODULE p) (BitVec.ofNat 64
      (media + len * 2 ^ 8 + m.label.toNat * 2 ^ 16 + preset * 2 ^ 24 + hint.toNat * 2 ^ 28))

/-- MODULE_PRESENCE_CHANGE: a module that appears is read, and DETECT starts where the port may train; removal is loss of signal on every
lane (R291, R298, R306). -/
def State.modulePresence (s : State) (p : Nat) (m : Option Cmis) : State :=
  let s := s.modLink p (fun l => { l with module := m.isSome })
  let st := s.linkState p
  match m with
  | some c =>
    let s := s.showModule p c
    if s.portEn p ∧ (st = 0 ∨ st = 7) then s.startDetect p else s
  | none =>
    let s := (s.wr (Reg.PRT_MODULE p) 0).setFld (Reg.PRT_STATUS p) Fld.PRT_STATUS_LC 3
    if st = 0 then s else s.linkDown p false

def execModulePresenceChange (p : Fin 12) (m : Option Cmis) (s : State) : Host.Outcome State Fault Refusal :=
  .next (s.modulePresence p m)

/-- The label byte that names the logical role of a physical port (R299). -/
def State.labelOf (s : State) (p : Nat) : Nat :=
  let r := s.role (p / 2)
  0xA0 + p % 2 * 8 + r % 2 * 4 + r / 2

/-- DETECT_DONE: the axis, the medium and its length, then the label (R291, R293, R299, R300). -/
def State.detectDone (s : State) (p : Nat) (m : Cmis) : State :=
  if s.linkState p ≠ 1 then s
  else
    let s := s.showModule p m
    if s.dim (s.role (p / 2) / 2) ≤ 1 then s.holdPort p 7
    else match presetOf m with
      | none => s.holdPort p 1
      | some (_, lc) =>
        let labelled := m.label.toNat / 16 == 0xA
        if (labelled && m.label.toNat != s.labelOf p)
            || (!labelled && s.fld (Reg.PRT_CTL p) Fld.PRT_CTL_REQ_LABEL == 1) then s.holdPort p 2
        else ((s.setFld (Reg.PRT_STATUS p) Fld.PRT_STATUS_LC lc).enableLanes p true).toLink p 2

def execDetectDone (p : Fin 12) (m : Cmis) (s : State) : Host.Outcome State Fault Refusal := .next (s.detectDone p m)

/-- The lanes that carry data out of those locked: lanes 0 to 9 when all eleven locked, all of them otherwise (R282, R291). -/
def chosenLanes (locked : List Nat) : List Nat := if 10 < locked.length then locked.take 10 else locked

/-- EQUALISE_DONE: the receive lanes locked here, and the transmit lanes locked at the peer (R282, R291). -/
def State.equaliseDone (s : State) (p : Nat) (rx tx : Nat) : State :=
  if s.linkState p ≠ 2 then s
  else
    let r := (laneBits rx).filter (fun i => !(s.rxRetired p).contains i)
    let t := (laneBits tx).filter (fun i => !(s.txRetired p).contains i)
    if r.length < s.minLanes p ∨ t.length < s.minLanes p then s.holdPort p 3
    else
      let s := (s.setRxLanes p (chosenLanes r)).setTxLanes p (chosenLanes t)
      (((s.setSpare p false (r.length == 11)).setSpare p true (t.length == 11)).toLink p 3).sendLaneIds p

def execEqualiseDone (p : Fin 12) (rx tx : BitVec 11) (s : State) : Host.Outcome State Fault Refusal :=
  .next (s.equaliseDone p rx.toNat tx.toNat)

/-- This chip's CAPS record (R295). -/
def State.ownCaps (s : State) (p : Nat) : CapsRec :=
  { vmin := (1, 0), vmax := (1, 0), role := 2 * s.role (p / 2) + p % 2, chip := s.chip
    dims := (s.dim 0, s.dim 1, s.dim 2), txl := BitVec.ofNat 11 (laneMask (s.txLanes p)) }

def State.sendTrain (s : State) (p type : Nat) (stamp : BitVec 64) : State :=
  s.sendFlit p (.train (s.link p).head { type := type, caps := s.ownCaps p, stamp := stamp })

/-- The first TRAIN record of NEGOTIATE, once the keeper has read the board identity memory (R292). -/
def State.sendCaps (s : State) (p : Nat) : State :=
  if s.boardRead ∧ (s.link p).capsSent = false ∧ (s.linkState p = 4 ∨ (s.linkState p = 6 ∧ (s.link p).aligned = true)) then
    (s.sendTrain p 1 0).modLink p (fun l => { l with capsSent := true })
  else s

/-- The lanes of a direction that go on after ALIGN: those that carried data, aligned and are not retired; the free spare takes the place
of one that did not (R282, R305). -/
def alignedLanes (pos retired : List Nat) (aligned : Nat) (spare : Option Nat) : List Nat :=
  let l := pos.filter (fun i => aligned.testBit i && !retired.contains i)
  match spare with
  | some i => if l.length < pos.length ∧ aligned.testBit i then l ++ [i] else l
  | none => l

/-- ALIGN_DONE: the lanes aligned in each direction; a retrain goes on with those, and retires the transmit lanes the peer lost; the
stream of codewords starts anew (R286, R291). -/
def State.alignDone (s : State) (p : Nat) (rx tx : Nat) : State :=
  let st := s.linkState p
  let r := alignedLanes (s.link p).rxPos (s.rxRetired p) rx (s.spareLane p false)
  let t := alignedLanes (s.link p).txPos (s.txRetired p) tx (s.spareLane p true)
  if (st ≠ 3 ∧ st ≠ 6) ∨ r.length < s.minLanes p ∨ t.length < s.minLanes p then s
  else
    let lost := (s.link p).txPos.filter (fun i => !t.contains i)
    let s := if lost ≠ [] then (if st = 6 then s.retireTx p lost else s).setSpare p true false else s
    let s := if (s.link p).rxPos.any (fun i => !r.contains i) then s.setSpare p false false else s
    let s := (s.setRxLanes p r).setTxLanes p t
    let s := s.modLink p (fun l => { l with aligned := true, group := [], txSym := 0, rxSym := 0, winWords := 0, winCorr := [] })
    (if st = 3 then s.toLink p 4 else s).sendCaps p

def execAlignDone (p : Fin 12) (rx tx : BitVec 11) (s : State) : Host.Outcome State Fault Refusal :=
  .next (s.alignDone p rx.toNat tx.toNat)

/-! ### Negotiation (R295 to R297, R301) -/

def State.negotiating (s : State) (p : Nat) : Bool :=
  s.linkState p == 4 || (s.linkState p == 6 && (s.link p).aligned)

/-- Version pairs in order (R296). -/
def verLe (a b : Nat × Nat) : Bool := Nat.blt a.1 b.1 || (a.1 == b.1 && Nat.ble a.2 b.2)
def verMax (a b : Nat × Nat) : Nat × Nat := if verLe a b then b else a
def verMin (a b : Nat × Nat) : Nat × Nat := if verLe a b then a else b

/-- The neighbour check of R297. -/
def State.neighbourOk (s : State) (p : Nat) (r : CapsRec) : Bool :=
  let d := s.role (p / 2)
  r.dims == (s.dim 0, s.dim 1, s.dim 2) && r.chip == s.neighbour s.chip d && r.role == 2 * (d ^^^ 1) + p % 2

/-- NEGOTIATE has passed: capabilities exchanged both ways, the round trip measured. -/
def Link.trained (l : Link) : Bool := l.aligned && l.capsOk && l.acked && l.measured

/-- A port in NEGOTIATE that has passed becomes ACTIVE (R291). -/
def State.activate (s : State) (p : Nat) : State :=
  if s.linkState p = 4 ∧ (s.link p).trained = true then s.toLink p 5 else s

/-- CAPS_RX: the highest common version, then the neighbour (R296, R297). -/
def State.capsRx (s : State) (p : Nat) (r : CapsRec) : State :=
  if !s.negotiating p then s
  else
    let s := (s.setFld (Reg.PRT_PEER p) Fld.PRT_PEER_CHIP r.chip).setFld (Reg.PRT_PEER p) Fld.PRT_PEER_ROLE r.role
    let lo := verMax (1, 0) r.vmin
    let hi := verMin (1, 0) r.vmax
    if !verLe lo hi then s.failTraining p 4
    else
      let s := (s.setFld (Reg.PRT_PEER p) Fld.PRT_PEER_VMAJOR hi.1).setFld (Reg.PRT_PEER p) Fld.PRT_PEER_VMINOR hi.2
      if !s.neighbourOk p r then s.failTraining p 5
      else ((s.modLink p (fun l => { l with capsOk := true })).sendTrain p 2 0).activate p

def execCapsRx (p : Fin 12) (r : CapsRec) (a : LinkAck) (s : State) : Host.Outcome State Fault Refusal :=
  .next ((s.hearAck p a).capsRx p r)

/-- CAPS_ACK_RX: the peer has this chip's record; the port sends its PING. -/
def State.capsAckRx (s : State) (p : Nat) : State :=
  if !s.negotiating p ∨ (s.link p).capsSent = false then s
  else
    let t := s.rd Reg.CAD_TSC
    ((s.modLink p (fun l => { l with acked := true, ping := some t })).sendTrain p 3 t).activate p

def execCapsAckRx (p : Fin 12) (a : LinkAck) (s : State) : Host.Outcome State Fault Refusal := .next ((s.hearAck p a).capsAckRx p)

/-- PING_RX: answered by a PONG with the same stamp (R295, R301). -/
def execPingRx (p : Fin 12) (stamp : BitVec 64) (a : LinkAck) (s : State) : Host.Outcome State Fault Refusal :=
  let s := s.hearAck p a
  .next (if s.negotiating p then s.sendTrain p 4 stamp else s)

/-- PONG_RX: the round trip in ns; the replay timeout is 500 ns longer; above 3,500 ns the port is held (R301). -/
def State.pongRx (s : State) (p : Nat) (stamp : BitVec 64) (rtt : Nat) : State :=
  if !s.negotiating p ∨ (s.link p).ping ≠ some stamp then s
  else
    let s := (s.setFld (Reg.PRT_RTT p) Fld.PRT_RTT_RTT rtt).setFld (Reg.PRT_RTT p) Fld.PRT_RTT_TIMEOUT (min 65535 (rtt + 500))
    if 3500 < rtt then s.failTraining p 6
    else (s.modLink p (fun l => { l with measured := true, ping := none })).activate p

def execPongRx (p : Fin 12) (stamp : BitVec 64) (rtt : BitVec 16) (a : LinkAck) (s : State) :
    Host.Outcome State Fault Refusal := .next ((s.hearAck p a).pongRx p stamp rtt.toNat)

/-- TRAIN_STATE_TIMEOUT: HELD with cause TIMEOUT, or DOWN from RETRAIN (R291). -/
def execTrainStateTimeout (p : Fin 12) (s : State) : Host.Outcome State Fault Refusal :=
  .next (
    let st := s.linkState p
    if 1 ≤ st ∧ st ≤ 4 then s.holdPort p 8 else if st = 6 then s.linkDown p true else s)

/-- DETECT_RETRY_TIMER: 100 ms in DOWN with EN set and a module present (R291). -/
def execDetectRetryTimer (p : Fin 12) (s : State) : Host.Outcome State Fault Refusal :=
  .next (if s.linkState p = 0 ∧ s.portEn p = true ∧ (s.link p).module = true then s.startDetect p else s)

/-- RETRAIN_DONE: a retrain that has aligned and negotiated again goes on with its sequence numbers and buffers (R291, R305). -/
def execRetrainDone (p : Fin 12) (s : State) : Host.Outcome State Fault Refusal :=
  .next (if s.linkState p = 6 ∧ (s.link p).trained = true then s.toLink p 5 else s)

/-- LOSS_OF_SIGNAL on every lane: DOWN at once, and no notice (R306, R307). -/
def execLossOfSignal (p : Fin 12) (s : State) : Host.Outcome State Fault Refusal :=
  .next (if s.linkState p = 0 then s else s.linkDown p false)

/-- DOWN_NOTICE_RX: the ACK of its flit still frees what the peer has taken (R288, R306). -/
def execDownNoticeRx (p : Fin 12) (a : LinkAck) (s : State) : Host.Outcome State Fault Refusal :=
  let s := s.hearAck p a
  .next (if 3 ≤ s.linkState p ∧ s.linkState p ≤ 6 then s.linkDown p true else s)

/-! ### Link-management messages and the spare switch (R303, R304, R307) -/

/-- A message waits for the LMF slots, under the next message number. -/
def State.queueNote (s : State) (p : Nat) (m : LinkMsg) : State :=
  s.modLink p (fun l => { l with notes := l.notes ++ [{ num := l.nextNote, msg := m }], nextNote := l.nextNote + 1 })

/-- A message has arrived: its number is acknowledged in the next LMF. -/
def State.ackNote (s : State) (p : Nat) (num : BitVec 16) : State :=
  s.modLink p (fun l => { l with acks := if l.acks.contains num then l.acks else l.acks ++ [num] })

/-- LMF_ACK_RX: the message is not repeated any more (R304). -/
def execLmfAckRx (p : Fin 12) (num : BitVec 16) (a : LinkAck) (s : State) : Host.Outcome State Fault Refusal :=
  .next ((s.hearAck p a).modLink p (fun l => { l with notes := l.notes.filter (fun (n : LinkNote) => n.num != num) }))

/-- TC4's bucket in 1/200 flit: the capacity and the gain of one slot (R339). -/
def State.tc4Cap (s : State) : Nat := max 1 (s.fld Reg.FAB_TC4_CTL Fld.FAB_TC4_CTL_BURST) * 200

def State.tc4Share (s : State) : Nat := min 10 (max 1 (s.fld Reg.FAB_TC4_CTL Fld.FAB_TC4_CTL_SHARE))

/-- Whether a head flit of class `tc` waits for credit at an output: on one of its channels, or for its route; a TC4 flit waits for its
bucket too (R339, R341). -/
def State.stalls (s : State) (p tc : Nat) : Bool :=
  (List.range 16).any (fun ch =>
    match (s.rt.queue p).find? (fun q => q.p.tc == tc && q.outChan == ch && Nat.blt q.sent q.p.flits) with
    | some q => q.sent == 0 && q.p.type != 10 && (s.rt.credit p tc ch == 0 || (tc == 4 && Nat.blt (s.rt.tc4.get 0 p) 200))
    | none => false)
  || s.rt.rin.any (fun q => q.p.tc == tc && (s.waitsAt q).contains p)

/-- A flit slot of an ACTIVE output, `cycles` fabric cycles after the last one: TC4's bucket gains its share, every class with a waiting
head flit counts the cycles it waited (R339, R341, R489). -/
def State.slotTick (s : State) (p cycles : Nat) : State :=
  let s := ((List.range 5).filter (s.stalls p)).foldl (fun (s : State) tc => s.bumpPrt p 6 (tc + 1) cycles) (s.bumpPrt p 1 0 cycles)
  let g := s.rt.cong
  let stall := ((List.range 5).filter (s.stalls p)).foldl (fun t tc => t.set 0 (p * 5 + tc) (t.get 0 (p * 5 + tc) + cycles)) g.stall
  { s with rt := { s.rt with
    tc4 := s.rt.tc4.set 0 p (min s.tc4Cap (s.rt.tc4.get 0 p + s.tc4Share))
    cong := { g with stall := stall } } }.modLink p (fun l => { l with slot := l.slot + 1 })

/-- LMF_SLOT: the LMF carries every message not yet acknowledged; one carried 64 times without an acknowledgement starts a RETRAIN
(R287, R294, R304). -/
def State.lmfSlot (s : State) (p cycles : Nat) : State :=
  if s.stopped = true ∨ s.linkState p ≠ 5 then s
  else
    let s := s.slotTick p cycles
    let l := s.link p
    if l.notes.any (fun (n : LinkNote) => Nat.ble 64 n.sent) then s.startRetrain p
    else
      let s := (s.sendFlit p (.lmf l.head l.notes l.acks)).bumpPrt p 5 0 1
      s.modLink p (fun l => { l with notes := l.notes.map (fun (n : LinkNote) => { n with sent := n.sent + 1 }), acks := [] })

def execLmfSlot (p : Fin 12) (cycles : Nat) (s : State) : Host.Outcome State Fault Refusal := .next (s.lmfSlot p cycles)

/-- SPARE_REQ_RX: the failed lane's position is copied onto the spare, and SPARE_SWITCH names codeword s, 1,024 ahead (R303). -/
def State.spareReqRx (s : State) (p : Nat) (num : BitVec 16) (lane : Nat) (cw : BitVec 64) : State :=
  if s.linkState p ≠ 5 then s
  else
    let s := s.ackNote p num
    match s.spareLane p true, (s.link p).txSwitch with
    | some sp, none =>
      if !(s.txLanes p).contains lane then s
      else
        let at' := cw + 1024
        (s.modLink p (fun l => { l with txSwitch := some (Switch.mk lane sp (some at') false) })).queueNote p
          (.spareSwitch lane at')
    | _, _ => s

def execSpareReqRx (p : Fin 12) (num : BitVec 16) (lane : Fin 11) (codeword : BitVec 64) (a : LinkAck) (s : State) :
    Host.Outcome State Fault Refusal := .next ((s.hearAck p a).spareReqRx p num lane codeword)

/-- SPARE_SWITCH_RX: the codeword from which the spare is read (R303). -/
def State.spareSwitchRx (s : State) (p : Nat) (num : BitVec 16) (lane : Nat) (cw : BitVec 64) : State :=
  if s.linkState p ≠ 5 then s
  else
    let s := s.ackNote p num
    s.modLink p (fun l => match l.rxSwitch with
      | some w => if w.lane = lane then { l with rxSwitch := some { w with codeword := some cw } } else l
      | none => l)

def execSpareSwitchRx (p : Fin 12) (num : BitVec 16) (lane : Fin 11) (codeword : BitVec 64) (a : LinkAck) (s : State) :
    Host.Outcome State Fault Refusal := .next ((s.hearAck p a).spareSwitchRx p num lane codeword)

/-- The lanes with `f` replaced by the spare. -/
def swapLane (l : List Nat) (f sp : Nat) : List Nat := l.map (fun i => if i = f then sp else i)

/-- SPARE_SWITCH_APPLY: codeword s is reached in one direction. The receiver stops reading lane f and sends SPARE_ACK; a lane that
failed meanwhile then fails with no spare (R303, R307). -/
def State.spareApply (s : State) (p : Nat) (tx : Bool) : State :=
  let l := s.link p
  let spared (s : State) : State :=
    (s.setSpare p tx false).event (Reg.PRT_STATUS p) Fld.PRT_STATUS_SPARED (Reg.PRT_SPARE_CNT p)
  if s.linkState p ≠ 5 then s
  else if tx then
    match l.txSwitch with
    | some w =>
      if w.done ∨ w.codeword = none then s
      else (spared ((s.setTxLanes p (swapLane (s.link p).txPos w.lane w.spare)).modLink p
        (fun l => { l with txSwitch := some { w with done := true } }))).portUnit p
    | none => s
  else
    match l.rxSwitch with
    | some w =>
      if w.codeword = none then s
      else
        let s := (spared (s.setRxLanes p (swapLane (s.link p).rxPos w.lane w.spare))).modLink p
          (fun l => { l with rxSwitch := none, failed := [] })
        let s := (s.queueNote p .spareAck).portUnit p
        if l.failed.isEmpty then s else s.shrinkRx p l.failed
    | none => s

def execSpareSwitchApply (p : Fin 12) (tx : Bool) (s : State) : Host.Outcome State Fault Refusal := .next (s.spareApply p tx)

/-- SPARE_ACK_RX: the transmitter turns off lane f (R303). -/
def State.spareAckRx (s : State) (p : Nat) (num : BitVec 16) : State :=
  if s.linkState p ≠ 5 then s
  else
    let s := s.ackNote p num
    match (s.link p).txSwitch with
    | some w => if w.done then ((s.retireTx p [w.lane]).enableLanes p true).modLink p (fun l => { l with txSwitch := none }) else s
    | none => s

def execSpareAckRx (p : Fin 12) (num : BitVec 16) (a : LinkAck) (s : State) : Host.Outcome State Fault Refusal :=
  .next ((s.hearAck p a).spareAckRx p num)

/-! ### Lane failures (R302, R305, R307, R453) -/

/-- The failed receive lane as a unit. -/
def rxLaneUnit (p lane : Nat) : Nat := unitId 9 (p * 32 + 16 + lane)

/-- LINK_LANE is charged to the lane. It is TRANSIENT, unless the lane fails again within COND_WINDOW of its last failure, after a
port reset returned it to service: then PERMANENT (R445, R453). -/
def State.chargeLane (s : State) (p lane : Nat) : State :=
  let u := rxLaneUnit p lane
  let r := s.unitOf u
  let again : Bool := match r.last with
    | some t => decide (s.now - t ≤ s.condWindow)
    | none => false
  let s := s.charge 7 u 0 0
  let q : TestReq := { unit := u, cls := 7, tenant := 0, dpa := 0, cpos := s.rd Reg.CAD_POS, tsc := s.now }
  let res : TestResult := { fail := false, failIndex := BitVec.ofNat 32 lane, failCount := 0, failMap := 0, durationNs := 0
                            dieTemp := 0, railMv := 0 }
  if again then (s.retire u 7).outcome q 2 Reg.GLB_PERMANENT_CNT 2 res
  else (s.unitChange u { r with state := 3, last := some s.now } 1 7).outcome q 1 Reg.GLB_TRANSIENT_CNT 1 res

/-- LANE_FAIL: the receive lane is retired; the spare takes its place, in training at once and in ACTIVE by a switch, or the port retrains
without it (R282, R302, R303, R305, R307). -/
def State.laneFail (s : State) (p lane : Nat) : State :=
  let st := s.linkState p
  if st = 0 ∨ st = 7 ∨ (s.rxRetired p).contains lane = true then s
  else
    let active := (s.rxLanes p).contains lane
    let spare := s.spareLane p false
    let s := (s.chargeLane p lane).retireRx p [lane]
    if st = 5 then
      match (s.link p).rxSwitch with
      | some w =>
        if lane = w.spare then s.shrinkRx p (w.lane :: lane :: (s.link p).failed)
        else if active then s.modLink p (fun l => { l with failed := l.failed ++ [lane] })
        else s
      | none =>
        if !active then (s.setSpare p false false).portUnit p
        else match spare with
          | some sp =>
            (s.modLink p (fun l => { l with rxSwitch := some (Switch.mk lane sp none false) })).queueNote p (.spareReq lane)
          | none => s.shrinkRx p [lane]
    else if st = 6 then (if active then s.shrinkRx p [lane] else s.setSpare p false false)
    else match active, spare with
      | true, some sp => (s.setRxLanes p (swapLane (s.link p).rxPos lane sp)).setSpare p false false
      | true, none => s.setRxLanes p ((s.link p).rxPos.filter (· ≠ lane))
      | false, _ => s.setSpare p false false

def execLaneFail (p : Fin 12) (lane : Fin 11) (s : State) : Host.Outcome State Fault Refusal := .next (s.laneFail p lane)

/-- What a port reset leaves of the link: DOWN, its retired lanes back in service but for those retired as PERMANENT (R302, R453). -/
def State.resetLink (s : State) (p : Nat) : State :=
  let s := if s.linkState p = 0 then s.endLink p else s.linkDown p true
  let perm (i : Nat) : Bool := s.repairState (rxLaneUnit p i) == 3
  let kept := (List.range 11).filter perm
  let s := ((s.rxRetired p).filter (fun i => !perm i)).foldl (fun (s : State) i =>
    s.unitChange (rxLaneUnit p i) { s.unitOf (rxLaneUnit p i) with state := 0 } 0 0) s
  let s := s.setFld (Reg.PRT_LANES p) Fld.PRT_LANES_RX_RETIRED (laneMask kept)
  s.setFld (Reg.PRT_LANES p) Fld.PRT_LANES_TX_RETIRED 0

/-! ### The port-to-axis map (R308, R315) -/

def mapRoles (v : Nat) : List Nat := (List.range 6).map (fun k => v / 8 ^ k % 8)

/-- PRT_AXIS_MAP_WRITE (R308). -/
def State.writeAxisMap (s : State) (v : BitVec 64) : State :=
  let s := s.setFld Reg.PRT_AXIS_MAP Fld.PRT_AXIS_MAP_MAP_ERR
    (if v.getLsbD 31 then 0 else s.fld Reg.PRT_AXIS_MAP Fld.PRT_AXIS_MAP_MAP_ERR)
  let new := mapRoles (v.toNat % 2 ^ 18)
  let perm := (List.range 6).all new.contains
  let idle (p : Nat) : Bool := !s.portEn p && (s.linkState p == 0 || s.linkState p == 7)
  let free := (List.range 6).all (fun k => new.getD k 0 == s.role k || (idle (2 * k) && idle (2 * k + 1)))
  if perm && free then s.setFld Reg.PRT_AXIS_MAP Fld.PRT_AXIS_MAP_ROLES (v.toNat % 2 ^ 18)
  else s.event Reg.PRT_AXIS_MAP Fld.PRT_AXIS_MAP_MAP_ERR Reg.PRT_MAP_ERR_CNT

def execPrtAxisMapWrite (by_ : Fin 4) (v : BitVec 32) (s : State) : Host.Outcome State Fault Refusal :=
  .next (if by_ = 0 then s.writeAxisMap (v.setWidth 64) else s)

end Sys2Proof.Machine
end

