-- ==== Sys2Proof/Machine/Resets.lean ====
section
/-!
DEFINITION. Resets, clock crossings and power (spec/17_bringup_and_trust.md R536, R537, R540 to R545).
-/
namespace Sys2Proof.Machine

/-! ### What waits at a crossing (R544, R545, R564) -/

/-- Bytes into a buffer of 8-byte register words from byte `off` on. -/
def State.bufPut (s : State) (reg : Nat → Nat) (off : Nat) : List Byte → State
  | [] => s
  | b :: rest => (s.setFld (reg (off / 8)) ⟨off % 8 * 8, 8⟩ b.toNat).bufPut reg (off + 1) rest

def State.kprHeader (s : State) (ch : Nat) : Nat := (s.rd (Reg.KPR_REQ ch 0)).toNat

/-- The response is announced: IBI 0x01, the channel's vector, or a SEND back (R515, R516). -/
def State.kprAnnounce (s : State) (ch : Nat) (bs : List Byte) : State :=
  match ch with
  | 0 => s.say (.ibi 1)
  | 3 => s.say (.svcSend (qpn s.kprQp) bs)
  | _ => s.say (.msix (ch - 1) (s.fld (Reg.KPR_CH ch) Fld.KPR_CH_VECTOR))

/-- The keeper writes the response, clears BUSY and sets DONE (R516); DENIED is counted (R517). -/
def State.kprRespond (s : State) (ch status : Nat) (payload : List Byte) : State :=
  let bs := leBytes 4 (s.kprHeader ch) ++ leBytes 2 payload.length ++ leBytes 1 status ++ leBytes 1 0 ++ payload
  let s := (s.bufPut (Reg.KPR_RSP ch) 0 bs).cnt Reg.KPR_REQ_CNT
  let s := if status = 2 then s.event Reg.KPR_STATUS Fld.KPR_STATUS_DENIED Reg.KPR_DENIED_CNT else s
  let s := (s.setFld (Reg.KPR_CH ch) Fld.KPR_CH_BUSY 0).setFld (Reg.KPR_CH ch) Fld.KPR_CH_DONE 1
  s.kprAnnounce ch bs

/-- The command of that ring and CID becomes `f` of itself. -/
def State.modCmd (s : State) (r cid : Nat) (f : HostCmd → HostCmd) : State :=
  { s with hostCmds := s.hostCmds.map (fun (c : HostCmd) => if c.ring = r ∧ c.cid = cid then f c else c) }

/-- The place of the next command of ring `r` to end: completions are written in completion order (R509). -/
def State.nextOrder (s : State) (r : Nat) : Nat :=
  (s.hostCmds.filter (fun (c : HostCmd) => c.ring == r)).foldl (fun n (c : HostCmd) => max n c.order) 0 + 1

/-- The command is done with a status and its detail. -/
def State.cmdEnd (s : State) (r cid status detail : Nat) : State :=
  s.modCmd r cid (fun c => { c with started := true, result := some (status, detail), order := s.nextOrder r })

/-- The clock domain of a cluster, and the cluster whose domain holds a register (R543, R562). -/
def clusterDomain (c : Nat) : Nat := 0x10 + c
def clusterOfReg (off : Nat) : Option Nat :=
  if 0x400000 ≤ off ∧ off < 0x1400000 then some ((off - 0x400000) / 0x40000) else none

/-- The cluster whose domain is held in reset: its cluster reset runs. -/
def State.clusterHeld (s : State) : Option Nat :=
  match s.reset_ with
  | some r => if r.scope = 2 then some r.index else none
  | none => none

/-- An access that touches the stage memory or the registers of a cluster held in reset: it waits, and acts when the cluster is ready. -/
def State.heldOff (s : State) (ps : List (Nat × Nat)) : Bool :=
  match s.clusterHeld with
  | none => false
  | some c => ps.any (fun p => overlaps p.1 p.2 (stageBase c) stageSize || (match s.place p.1 with
      | .reg off => clusterOfReg off == some c
      | _ => false))

/-- A reset stops a clock domain (R543). -/
def ResetReq.stops (r : ResetReq) (dom : Nat) : Bool :=
  match r.scope with
  | 2 => dom == clusterDomain r.index
  | 4 => dom == 0x50 + r.index
  | 5 => dom == 0x60 + r.index % 8
  | _ => false

/-- A waiting access is flushed: a detected error for a mover or a command, 0xFFFF_FFFF_FFFF_FFFF for a register read, nothing for a
write. -/
def State.flushOne (s : State) (h : Held) : State :=
  match h with
  | .mover m =>
    match s.mover m with
    | some r => if r.state ≠ 1 then s
      else (s.setMover m { r with state := 4 }).event Reg.MOV_STATUS Fld.MOV_STATUS_DET Reg.MOV_DET_CNT
    | none => s
  | .command r cid =>
    match s.hostCmds.find? (fun (c : HostCmd) => c.ring == r && c.cid == cid.toNat) with
    | some c => if c.result.isSome then s else s.cmdEnd r cid.toNat 4 c.done
    | none => s
  | .regRead ch =>
    if s.fld (Reg.KPR_CH ch) Fld.KPR_CH_BUSY = 1 then s.kprRespond ch 0 (leBytes 8 (2 ^ 64 - 1)) else s
  | .regWrite _ _ _ _ => s

/-- The notice of a reset: what waits for its domain is flushed, oldest first (R544). -/
def State.flushHeld (s : State) (r : ResetReq) : State :=
  let gone := s.tr.held.filter (fun e => r.stops e.1)
  let s := { s with tr := { s.tr with held := s.tr.held.filter (fun e => !r.stops e.1) } }
  gone.foldl (fun (s : State) e => s.flushOne e.2) s

/-- An access waits for a domain. -/
def State.hold (s : State) (dom : Nat) (h : Held) : State :=
  if s.tr.held.contains (dom, h) then s else { s with tr := { s.tr with held := s.tr.held ++ [(dom, h)] } }

/-! ### Cold and warm (R536, R540, R541) -/

/-- What every reset keeps of the links: which cages hold a module. -/
def State.modules (s : State) : Tab Link := s.links.filterMap (fun e => if e.2.module then some (e.1, { module := true }) else none)

/-- The block after a cold reset: all but the package identity memory, the ROM, what flash holds, and the pins. -/
def State.cold (s : State) : State :=
  let t := s.tr
  let base : State := { State.reset with
    pending := s.pending
    tr := { rootDigest := t.rootDigest, gen := t.gen, active := t.active, repairLog := t.repairLog, repairSig := t.repairSig }
    pw := { brdAlert := s.pw.brdAlert, railAlert := s.pw.railAlert }
    links := s.modules
    out := s.out
    freeIx := s.freeIx }
  base.wr Reg.SEC_SVN (s.rd Reg.SEC_SVN)

/-- A register that a lock only cold reset clears holds as it stands (R444, R532, R540). -/
def State.keepLocked (s old : State) (off : Nat) (lock : Field) : State := if old.fld off lock = 1 then s.wr off (old.rd off) else s

/-- The block after a warm reset: HBM keeps its bytes. -/
def State.warm (s : State) : State :=
  let t := s.tr
  let base : State := { State.reset with
    pending := s.pending
    mem := s.mem.filter (fun e => decide (e.1 < 0x10000000000))
    codeErr := s.codeErr
    commits := s.commits
    tr := { rootDigest := t.rootDigest, gen := t.gen, active := t.active, repairLog := t.repairLog, repairSig := t.repairSig
            devKey := t.devKey, cold := false }
    pw := { brdAlert := s.pw.brdAlert, railAlert := s.pw.railAlert, tripOut := s.pw.tripOut }
    links := s.modules
    out := s.out
    freeIx := s.freeIx }
  let base := (base.wr Reg.SEC_SVN (s.rd Reg.SEC_SVN)).wr Reg.CAD_TSC (s.rd Reg.CAD_TSC)
  let base := (base.keepLocked s Reg.THM_LIMITS Fld.THM_LIMITS_LOCK).keepLocked s Reg.KPR_CTL Fld.KPR_CTL_LOCK
  base.setFld Reg.GLB_DEBUG_CTL Fld.GLB_DEBUG_CTL_DEBUG_EVER (s.fld Reg.GLB_DEBUG_CTL Fld.GLB_DEBUG_CTL_DEBUG_EVER)

/-- PWROK_RISE: the rising edge is the cold reset, and boot starts at the ROM stage. -/
def execPwrokRise (s : State) : Host.Outcome State Fault Refusal := .next s.cold

/-- PWROK_FALL: clocks and transmitters stop, every content is lost; an asserted THERMTRIP_N stays (R537, R576). -/
def State.powerOff (s : State) : State :=
  let s' := s.cold
  { s' with tr := { s'.tr with powered := false }, pw := { s'.pw with tripOut := s.pw.tripOut } }

def execPwrokFall (s : State) : Host.Outcome State Fault Refusal := .next s.powerOff

def State.setReset (s : State) (f : Field) (v : Nat) : State := s.setFld Reg.GLB_RESET_STATUS f v

/-- A warm reset runs from here until boot reaches READY or FAILED. -/
def State.warmRun (s : State) : State :=
  { s.warm with reset_ := some (ResetReq.mk 1 0) }.setReset Fld.GLB_RESET_STATUS_BUSY 1

/-- WARM_RST_N_ASSERT: ignored while PWROK is low; a scoped reset that runs ends MERGED (R542, R576). -/
def State.warmPin (s : State) : State :=
  if s.stopped = true then s
  else
    let ran := s.reset_.isSome
    let last := s.fld Reg.GLB_RESET_STATUS Fld.GLB_RESET_STATUS_LAST_SCOPE
    let s := s.warmRun
    let s := { s with tr := { s.tr with warmHeld := true } }
    if ran then (s.setReset Fld.GLB_RESET_STATUS_RESULT 2).setReset Fld.GLB_RESET_STATUS_LAST_SCOPE last else s

def execWarmRstNAssert (s : State) : Host.Outcome State Fault Refusal := .next s.warmPin

/-- WARM_RST_N_RELEASE: boot resumes (R576). -/
def execWarmRstNRelease (s : State) : Host.Outcome State Fault Refusal :=
  .next { s with tr := { s.tr with warmHeld := false }, tapDrive := none }

/-! ### Scoped resets (R540, R541) -/

/-- The registers at offsets from `lo`, `n` bytes, go to their reset values. -/
def State.resetRegs (s : State) (lo n : Nat) : State :=
  { s with regs := s.regs.filter (fun e => !(decide (lo ≤ e.1) && decide (e.1 < lo + n))) }

/-- A rank's slots, stagger chain, tap and drain buffers are cleared, every ramp group is gated. -/
def State.resetRank (s : State) (c r : Nat) : State :=
  let k := s.rk c r
  (s.setRk c r { active := k.active, nextId := k.nextId }).setUngated c r 0

/-- The stage memory of a cluster reads zero, its parity right. -/
def State.zeroStage (s : State) (c : Nat) : State :=
  { s with
    mem := s.mem.filter (fun e => !(decide (stageBase c ≤ e.1) && decide (e.1 < stageBase c + stageSize)))
    badStage := s.badStage.filter (fun w => !(decide (stageBase c ≤ w * 4) && decide (w * 4 < stageBase c + stageSize))) }

/-- A cluster reset. Its stream, if one is resident, ends; the loaded image stays. -/
def State.resetCluster (s : State) (c : Nat) : State :=
  let s := s.dropStream (s.seqTenant c) c
  let s := (s.setCl c {}).resetRegs (Reg.SEQ_PC c) 8
  let s := (s.wr (Reg.SEQ_STATUS c) (s.rd (Reg.SEQ_STATUS c) &&& 0x30000)).resetRegs (Reg.SEQ_CTL c) 8
  let s := (s.resetRegs (Reg.SEQ_TOKEN c 0) 0x800).resetRegs (Reg.CLU_ARM_POS c 0) 0x400
  let s := [0, 1, 2, 3].foldl (fun (s : State) t => s.settleStacks t c) s
  let s := (List.range 13).foldl (fun (s : State) r => (s.setRk c r {}).resetRank c r) s
  let s := match s.slice with
    | some sl => { s with slice := if sl.left.all (· == c) then none else some { sl with left := sl.left.filter (· ≠ c) } }
    | none => s
  let s := (s.setFld (Reg.CLU_CTL c) Fld.CLU_CTL_LOCK 0).setFld (Reg.VEC_CTL c) Fld.VEC_CTL_LOCK 0
  s.zeroStage c

/-- A port reset: DOWN, its retired lanes back, its lock open; it trains again with EN set. -/
def State.resetPort (s : State) (p : Nat) : State :=
  let s := (s.resetLink p).setFld (Reg.PRT_CTL p) Fld.PRT_CTL_LOCK 0
  if s.portEn p ∧ (s.link p).module = true then s.startDetect p else s

/-- A tenant's transfers stop and its fabric instructions in flight are abandoned and counted, as steps 3 and 4 of R399. -/
def State.abandonTenant (s : State) (t : Nat) : State :=
  let s := ((s.movers.filter (fun e => e.2.tenant == t)).map (·.1)).foldl State.freeMover s
  let n := (s.txs.filter (fun (x : Tx) => x.tenant == t)).length + (s.rxs.filter (fun (x : Rx) => x.tenant == t)).length
  let s := { s with
    movReqs := s.movReqs.filter (fun (r : MovReq) => r.mrec.tenant != t)
    txs := s.txs.filter (fun (x : Tx) => x.tenant != t)
    rxs := s.rxs.filter (fun (x : Rx) => x.tenant != t) }.cntBy Reg.MEM_ABANDON_CNT n
  if t = 1 then { s with grants := [] }.collsAbandon else s

/-- A context of the tenant goes as DISCARD takes it; one whose save still runs waits for the save to end (R272). -/
def State.resetContext (s : State) (t c : Nat) : State :=
  match s.ctxState t c with
  | 0 => s
  | 2 => s
  | 3 => s.discard t c
  | 5 => (s.setCtx t c 3).discard t c
  | _ => (s.setCtx t c 0).setResult t c 0

/-- A tenant reset, but for clusters whose save still runs. -/
def State.resetTenant (s : State) (t : Nat) : State :=
  let s := s.abandonTenant t
  let s := (List.range 64).foldl (fun (s : State) c =>
    let saving := s.ctxState t c == 2
    let s := if saving then s else (s.dropStream t c).resetContext t c
    [0, 1].foldl (fun (s : State) x => (s.wr (Reg.SEQ_STREAM_BASE c (t - 1) x) 0).wr (Reg.SEQ_STREAM_LEN c (t - 1) x) 0) s) s
  let s := { s with images := s.images.erase t, heldSig := s.heldSig.filter (fun e => e.1 / 16384 != t) }
  let s := ((List.range 16).filter (fun sl => s.slotOwner sl == t)).foldl State.emptySlot s
  if t = 1 then
    ((s.setFld Reg.CAD_CTL Fld.CAD_CTL_LOCK 0).setFld Reg.MEM_BANK_LEN Fld.MEM_BANK_LEN_LOCK 0).wr Reg.MEM_BARRIER_STATUS 0
  else s

/-! ### Requests (R542) -/

def ResetReq.indexOk (r : ResetReq) : Bool :=
  match r.scope with
  | 1 => r.index == 0
  | 2 => Nat.blt r.index 64
  | 3 => Nat.blt r.index 1024 && Nat.blt (r.index % 16) 13
  | 4 => Nat.blt r.index 12
  | 5 => Nat.blt r.index 512
  | 6 => Nat.ble 1 r.index && Nat.ble r.index 3
  | _ => false

/-- `r` lies within `q`: the same reset, anything within warm, a rank of the cluster (R541). -/
def ResetReq.within (r q : ResetReq) : Bool := r == q || q.scope == 1 || (q.scope == 2 && r.scope == 3 && r.index / 16 == q.index)

/-- The conditions of R542 under which a reset is rejected. -/
def State.resetBarred (s : State) (r : ResetReq) : Bool :=
  match r.scope with
  | 2 => [0, 1, 2, 3].any (fun t => s.ctxState t r.index != 0)
      || s.units.any (fun e => e.2.state == 2 && unitCluster e.1 == some r.index)
  | 3 => s.fld (Reg.RNK_CTL (r.index / 16) (r.index % 16)) Fld.RNK_CTL_QUIESCED == 0
      && servedBy (s.rd (Reg.CLU_RANK_MAP (r.index / 16))) (r.index % 16) != 12
  | 5 => s.fld Reg.MEM_REMAP_STATUS Fld.MEM_REMAP_STATUS_BUSY == 1
  | _ => false

/-- REJECTED (1) or BAD_INDEX (3). -/
def State.resetRefused (s : State) (result : Nat) : State :=
  (s.setReset Fld.GLB_RESET_STATUS_RESULT result).event Reg.GLB_STATUS Fld.GLB_STATUS_RESET_REJ Reg.GLB_RESET_REJ_CNT

/-- What a reset does as it starts. -/
def State.resetEffect (s : State) (r : ResetReq) : State :=
  match r.scope with
  | 2 => s.resetCluster r.index
  | 3 => s.resetRank (r.index / 16) (r.index % 16)
  | 4 => s.resetPort r.index
  | 6 => s.resetTenant r.index
  | _ => s

def State.startReset (s : State) (r : ResetReq) : State :=
  if r.scope = 1 then s.warmRun.setReset Fld.GLB_RESET_STATUS_LAST_SCOPE 1
  else if s.resetBarred r then s.resetRefused 1
  else ({ s.flushHeld r with reset_ := some r }.setReset Fld.GLB_RESET_STATUS_BUSY 1).resetEffect r

/-- A write of GLB_RESET_CMD; scopes 0 and 7 to 15 are ignored. -/
def State.requestReset (s : State) (r : ResetReq) : State :=
  if r.scope = 0 ∨ 6 < r.scope ∨ s.stopped = true then s
  else
    let s := s.setReset Fld.GLB_RESET_STATUS_LAST_SCOPE r.scope
    if !r.indexOk then s.resetRefused 3
    else match s.reset_ with
      | some q =>
        if r.within q then s.setReset Fld.GLB_RESET_STATUS_RESULT 2
        else if 4 ≤ s.resetQ.length then s.resetRefused 1
        else { s with resetQ := s.resetQ ++ [r] }
      | none => s.startReset r

def State.resetRow (s : State) (by_ scope : Nat) (ix : BitVec 12) : State :=
  if by_ = 0 then s.requestReset (ResetReq.mk scope ix.toNat) else s

/-- RESET_WARM. -/
def execResetWarm (by_ : Fin 4) (ix : BitVec 12) (s : State) : Host.Outcome State Fault Refusal := .next (s.resetRow by_ 1 ix)
/-- RESET_CLUSTER. -/
def execResetCluster (by_ : Fin 4) (ix : BitVec 12) (s : State) : Host.Outcome State Fault Refusal := .next (s.resetRow by_ 2 ix)
/-- RESET_RANK. -/
def execResetRank (by_ : Fin 4) (ix : BitVec 12) (s : State) : Host.Outcome State Fault Refusal := .next (s.resetRow by_ 3 ix)
/-- RESET_PORT. -/
def execResetPort (by_ : Fin 4) (ix : BitVec 12) (s : State) : Host.Outcome State Fault Refusal := .next (s.resetRow by_ 4 ix)
/-- RESET_PSEUDO_CHANNEL: contents and the withheld and retired states stay. -/
def execResetPseudoChannel (by_ : Fin 4) (ix : BitVec 12) (s : State) : Host.Outcome State Fault Refusal :=
  .next (s.resetRow by_ 5 ix)
/-- RESET_TENANT. -/
def execResetTenant (by_ : Fin 4) (ix : BitVec 12) (s : State) : Host.Outcome State Fault Refusal := .next (s.resetRow by_ 6 ix)

/-- RESET_QUEUED_START: the oldest waiting request starts once no reset runs. -/
def State.resetNext (s : State) : State :=
  match s.reset_, s.resetQ with
  | none, r :: rest => { s with resetQ := rest }.startReset r
  | _, _ => s

def execResetQueuedStart (s : State) : Host.Outcome State Fault Refusal := .next s.resetNext

/-- The running reset ends DONE. -/
def State.resetDone (s : State) : State :=
  ((({ s with reset_ := none }.setReset Fld.GLB_RESET_STATUS_BUSY 0).setReset Fld.GLB_RESET_STATUS_RESULT 0)).cnt Reg.GLB_RESET_CNT

def State.bootStage (s : State) : Nat := s.fld Reg.GLB_BOOT_STATUS Fld.GLB_BOOT_STATUS_STAGE

/-! ### Crossings and power-down (R537, R545) -/

/-- HUNG_CROSSING: the access stays pending. -/
def execHungCrossing (target source : BitVec 8) (access : Held) (s : State) : Host.Outcome State Fault Refusal :=
  .next (((s.hold target.toNat access).wr Reg.GLB_HUNG_INFO (BitVec.ofNat 64 (target.toNat + source.toNat * 256))).event Reg.GLB_STATUS
    Fld.GLB_STATUS_HUNG Reg.GLB_HUNG_CNT)

/-- GLB_PWRDN_REQ: OFFLINE is published, every ACTIVE port is told, SAFE is set. -/
def State.powerDown (s : State) : State :=
  let s := s.declareOffline
  let s := ((List.range 12).filter (fun p => s.linkState p == 5)).foldl (fun (s : State) p =>
    s.sendFlit p (.lmf (s.link p).head [{ num := (s.link p).nextNote, msg := .downNotice }] (s.link p).acks)) s
  s.setFld Reg.GLB_PWRDN Fld.GLB_PWRDN_SAFE 1

def execGlbPwrdnReq (by_ : Fin 4) (s : State) : Host.Outcome State Fault Refusal := .next (if by_ = 0 then s.powerDown else s)

end Sys2Proof.Machine
end

