-- ==== Sys2Proof/Machine/Boot.lean ====
section
/-!
DEFINITION. Boot and its chain of trust (spec/17_bringup_and_trust.md R538, R539, R546 to R552; spec/16_host_service_identity.md R524 to
R528), the keeper cores and live update (R549, R557, R558).
-/
namespace Sys2Proof

/-! ### The flash (R546, R547) -/

/-- GEN and ACTIVE of a directory copy whose MAGIC and CRC are correct. -/
def directoryOf (bs : List Byte) : Option (Nat × Nat) :=
  if bs.length < 0x40 ∨ fileNum bs 0 4 ≠ 0x5249444B ∨ fileNum bs 0x38 8 ≠ (crc64 (bs.take 0x38)).toNat then none
  else some (fileNum bs 4 4, fileNum bs 8 1)

/-- The copy the ROM uses: the larger GEN, copy 0 where they are equal. -/
def pickDirectory (d0 d1 : List Byte) : Option (Nat × Nat) :=
  match directoryOf d0, directoryOf d1 with
  | some a, some b => some (if a.1 < b.1 then b else a)
  | some a, none => some a
  | none, b => b

/-- A component of a bundle: its header fields, the signed message and the bytes that are measured. -/
structure BundleEntry where
  kind : Nat
  svn : Nat
  version : Nat
  signer : Nat × Nat
  r : Nat
  s : Nat
  message : List Byte
  image : List Byte
  deriving DecidableEq, Repr

/-- What the chip keeps of a component. -/
def BundleEntry.component (e : BundleEntry) : Machine.Component := { version := e.version, svn := e.svn, digest := sm3 e.image }

/-- The two slots in the order the ROM tries them, with the bundle of each. -/
def FlashImage.order (fl : FlashImage) (active : Nat) : List (Nat × List Byte) :=
  if active = 0 then [(0, fl.slotA), (1, fl.slotB)] else [(1, fl.slotB), (0, fl.slotA)]

/-- The component at the head of a bundle and what follows it; none where the header is wrong or the payload is cut off. -/
def nextComponent (bs : List Byte) : Option (BundleEntry × List Byte) :=
  let len := fileNum bs 0x10 8
  if bs.length < 256 ∨ fileNum bs 0 4 ≠ 0x504D434B ∨ bs.length < 256 + len then none
  else
    let payload := (bs.drop 256).take len
    some ({ kind := fileNum bs 4 2, svn := fileNum bs 6 2, version := fileNum bs 8 4
            signer := (beNat ((bs.drop 0x20).take 32), beNat ((bs.drop 0x40).take 32))
            r := beNat ((bs.drop 0x60).take 32), s := beNat ((bs.drop 0x80).take 32)
            message := bs.take 0x60 ++ List.replicate 64 0 ++ (bs.drop 0xA0).take 0x60 ++ payload
            image := bs.take 256 ++ payload }, bs.drop (Machine.roundUp (256 + len) 4096))

/-- The components in front of the KIND 0 header that ends a bundle; none where there is no such end. -/
def bundleOf : Nat → List Byte → Option (List BundleEntry)
  | 0, _ => none
  | n + 1, bs =>
    match nextComponent bs with
    | none => none
    | some (e, rest) => if e.kind = 0 then some [] else (bundleOf n rest).map (e :: ·)

namespace Machine

/-! ### Checking a component (R548) -/

/-- SEC_SVN of a component's kind. -/
def State.minSvn (s : State) (kind : Nat) : Nat := (s.rd Reg.SEC_SVN).toNat / 2 ^ (16 * (kind - 1)) % 2 ^ 16

/-- SIGNER is the root key, and the signature verifies. -/
def State.signedByRoot (s : State) (e : BundleEntry) : Bool :=
  beNat (sm3 (beBytes 32 e.signer.1 ++ beBytes 32 e.signer.2)) == s.tr.rootDigest.toNat
    && sm2Verify e.signer.1 e.signer.2 e.message e.r e.s

/-- The checks of R548 in order: 0, or the RESULT of R558 that names the first that fails. -/
def State.componentCheck (s : State) (kind : Nat) (e : BundleEntry) : Nat :=
  if e.kind ≠ kind then 1 else if !s.signedByRoot e then 2 else if e.svn < s.minSvn kind then 3 else 0

/-! ### The ROM stage (R538, R539, R548, R550, R551, R574) -/

def State.setBoot (s : State) (f : Field) (v : Nat) : State := s.setFld Reg.GLB_BOOT_STATUS f v
def State.toStage (s : State) (n : Nat) : State := s.setBoot Fld.GLB_BOOT_STATUS_STAGE n

/-- A stage fails (R539). -/
def State.bootFail (s : State) (code : Nat) : State := (s.toStage 6).setBoot Fld.GLB_BOOT_STATUS_FAIL code

/-- The straps are sampled. -/
def State.sampleStraps (s : State) (st : Straps) : State :=
  { s with straps := st.mgmt }.setFld Reg.HIF_CFG Fld.HIF_CFG_SPLIT st.split.toNat

/-- The device key: derived from the PUF seed at a cold reset, kept through a warm one (R551). -/
def State.deriveKey (s : State) (seed : BitVec 256) : State :=
  if s.tr.cold then { s with tr := { s.tr with devKey := beNat (sm3 (beBytes 32 seed.toNat ++ [1])) % (sm2N - 1) + 1 } } else s

/-- Trim and serial of the identity block (R524, R565). -/
def State.applyTrim (s : State) (id : IdentityBlock) : State :=
  let s := s.wr Reg.IDM_PKG_SERIAL id.serial
  let s := (List.range 12).foldl (fun (s : State) i => s.wr (Reg.PWR_WEIGHT i) ((id.weights.getD i 0).setWidth 64)) s
  let s := (List.range 27).foldl (fun (s : State) k => s.wr (Reg.PWR_VF k) ((id.volts.getD k 0).setWidth 64)) s
  let off (r : Nat) : BitVec 16 := id.offsets.getD r 0
  let s := (List.range 5).foldl (fun (s : State) r => s.setFld (Reg.PWR_RAIL r) Fld.PWR_RAIL_OFFSET (off r).toNat) s
  { s with pw := { s.pw with offset := (List.range 5).map (fun r => (⟨(off r).toInt, 10⟩ : Frac)) } }

/-- What a slot gives the ROM: its keeper component, or the FAIL code of the first check it fails. -/
def State.romSlot (s : State) (bs : List Byte) : Except Nat BundleEntry :=
  match nextComponent bs with
  | none => .error 2
  | some (e, _) =>
    match s.componentCheck 1 e with
    | 0 => .ok e
    | 3 => .error 3
    | _ => .error 2

/-- The slot that boots, or the FAIL code of the slot tried first. -/
def State.romPick (s : State) (slots : List (Nat × List Byte)) : Except Nat (Nat × BundleEntry) :=
  match slots with
  | [] => .error 1
  | (n, bs) :: rest =>
    match s.romSlot bs with
    | .ok e => .ok (n, e)
    | .error c =>
      match rest.findSome? (fun x => match s.romSlot x.2 with | .ok e => some (x.1, e) | .error _ => none) with
      | some r => .ok r
      | none => .error c

/-- The ROM stage past the flash: identity, key, trim, M0 and M1. A failure leaves HOST_READY set (R539). -/
def State.romIdentity (s : State) (slot : Nat) (e : BundleEntry) (id : IdentityBlock) (seed : BitVec 256) : State :=
  if !sm2Verify e.signer.1 e.signer.2 id.bytes id.r id.s then (s.bootFail 4).setBoot Fld.GLB_BOOT_STATUS_HOST_READY 1
  else
    let s := (s.deriveKey seed).applyTrim id
    let s := s.setFld Reg.SEC_STATUS Fld.SEC_STATUS_PUF_FAIL (if sm2Public s.tr.devKey = (id.pubX, id.pubY) then 0 else 1)
    let s := { s with tr := { s.tr with devPub := (id.pubX, id.pubY), signer := e.signer, keeper := e.component } }
    let s := s.setBoot Fld.GLB_BOOT_STATUS_SLOT slot
    ((s.extend 0 6 0 {} (sm3 id.bytes)).extend 1 0 0 e.component e.component.digest).toStage 1

/-- Boot may go on: power is good and WARM_RST_N is high. -/
def State.bootRuns (s : State) (stage : Nat) : Bool := s.tr.powered && !s.tr.warmHeld && s.bootStage == stage

def State.bootRom (s : State) (fl : FlashImage) (id : IdentityBlock) (seed : BitVec 256) (st : Straps) : State :=
  if !s.bootRuns 0 then s
  else
    let s := s.sampleStraps st
    let failed (code : Nat) : State := (s.bootFail code).setBoot Fld.GLB_BOOT_STATUS_HOST_READY 1
    if !fl.readable then failed 7
    else match pickDirectory fl.dir0 fl.dir1 with
      | none => failed 1
      | some (gen, active) =>
        match s.romPick (fl.order active) with
        | .error c => failed c
        | .ok (slot, e) => { s with tr := { s.tr with gen := gen, active := active } }.romIdentity slot e id seed

/-- BOOT_ROM_STAGE. -/
def execBootRomStage (fl : FlashImage) (id : IdentityBlock) (seed : BitVec 256) (st : Straps) (s : State) :
    Host.Outcome State Fault Refusal := .next (s.bootRom fl id seed st)

/-! ### The KEEPER stage (R538, R548, R552) -/

/-- Both keeper cores run; a standby core is in service. -/
def State.coresUp (s : State) : State :=
  let s := { s with tr := { s.tr with core := 0, standby := true } }
  s.setUnit (unitId 10 1) { s.unitOf (unitId 10 1) with state := 5 }

/-- The repair area is checked with the device key: no record is applied where the signature fails (R552). -/
def State.checkRepair (s : State) : State :=
  let pub := sm2Public s.tr.devKey
  if sm2Verify pub.1 pub.2 (repairBytes s.tr.repairLog) s.tr.repairSig.1 s.tr.repairSig.2 then s
  else s.setFld Reg.SEC_STATUS Fld.SEC_STATUS_REPAIR_SIG 1

def State.bootKeeper (s : State) (bundle : List Byte) : State :=
  if !s.bootRuns 1 then s
  else match bundleOf 8 bundle with
    | some [_, u, l] =>
      if s.componentCheck 2 u ≠ 0 ∨ s.componentCheck 3 l ≠ 0 then s.bootFail 5
      else
        let s := { s with tr := { s.tr with ucode := u.component, linkFw := l.component } }.coresUp.checkRepair
        let s := (s.extend 2 0 0 u.component u.component.digest).extend 3 0 0 l.component l.component.digest
        let s := s.extend 4 5 0 {} (sm3 s.repairArea)
        (s.setBoot Fld.GLB_BOOT_STATUS_HOST_READY 1).toStage 2
    | _ => s.bootFail 5

/-- BOOT_KEEPER_STAGE: `bundle` is the slot that booted, as the keeper reads it. -/
def execBootKeeperStage (bundle : List Byte) (s : State) : Host.Outcome State Fault Refusal := .next (s.bootKeeper bundle)

/-! ### The HBM stage (R527, R528) -/

/-- The units whose newest repair record is `v`. -/
def State.recorded (s : State) (kind v : Nat) : List Nat :=
  (((s.tr.repairLog.map (·.1)).eraseDups).filter (fun u => u / 2 ^ 28 == kind && s.repairState u == v)).map (· % 2 ^ 28)

/-- Retired lanes of a rank into RNK_SKEW_MAP. -/
def State.repairLanes (s : State) (c r : Nat) : State :=
  let lanes := ((s.recorded 3 3).filter (fun i => i / 256 == c * 16 + r)).map (· % 256)
  if lanes.isEmpty then s
  else
    let l := lanes.take 4
    let v := ((List.range l.length).zip l).foldl (fun n p => n + (p.2 + 256) * 2 ^ (16 * p.1)) 0
    s.setSkew c r (BitVec.ofNat 64 v) l

/-- A retired rank into CLU_RANK_MAP: its logical rank goes to the rank that served none. -/
def State.repairRank (s : State) (c r : Nat) : State :=
  let l := servedBy (s.rd (Reg.CLU_RANK_MAP c)) r
  let sp := s.fld (Reg.CLU_RANK_MAP c) Fld.CLU_RANK_MAP_SPARE
  let s := if l < 12 ∧ sp ≤ 12 then s.setFld (Reg.CLU_RANK_MAP c) ⟨4 * l, 4⟩ sp else s
  s.setFld (Reg.CLU_RANK_MAP c) Fld.CLU_RANK_MAP_SPARE 15

/-- The set X becomes `x` without a commit pass (R215, R527). -/
def State.setRetired (s : State) (x : List Nat) : State :=
  let s := x.foldl (fun (s : State) p => s.setFld (Reg.MEM_PC_RETIRED (p % 8)) (bitField (p / 8)) 1) s
  (s.setFld Reg.MEM_REMAP_STATUS Fld.MEM_REMAP_STATUS_J x.length).setFld Reg.MEM_TOP Fld.MEM_TOP_TOP
    ((512 - x.length) * 0x60000000)

/-- The HBM map from the repair data: after a cold reset every recorded pseudo-channel is retired, after a warm one the committed ones,
the others being withheld. -/
def State.repairHbm (s : State) : State :=
  let withheld := s.recorded 7 repairWithheld
  let committed := s.recorded 7 repairCommitted
  if s.tr.cold then withheld.foldl (fun (s : State) p => s.repairPut (unitId 7 p) repairCommitted) (s.setRetired (committed ++ withheld))
  else withheld.foldl State.withhold (s.setRetired committed)

/-- REPAIR_DATA_APPLY. -/
def State.applyRepair (s : State) : State :=
  if s.fld Reg.SEC_STATUS Fld.SEC_STATUS_REPAIR_SIG = 1 then s
  else
    let gone := (((s.tr.repairLog.map (·.1)).eraseDups).filter (fun u => s.repairState u != 0))
    let s := gone.foldl (fun (s : State) u => s.setUnit u { s.unitOf u with state := 3 }) s
    let lanes := (s.recorded 3 3).map (· / 256)
    let s := lanes.eraseDups.foldl (fun (s : State) k => s.repairLanes (k / 16) (k % 16)) s
    let s := (s.recorded 2 3).foldl (fun (s : State) k => s.repairRank (k / 16) (k % 16)) s
    let s := (s.recorded 9 3).foldl (fun (s : State) k =>
      if 16 ≤ k % 32 then s.retireRx (k / 32) [k % 32 - 16] else s.retireTx (k / 32) [k % 32]) s
    s.repairHbm

/-- The START-context streams of the keeper firmware, on every cluster in service, for the tests of the SELFTEST stage (R151, R538). -/
def State.startStreams (s : State) : State :=
  ((List.range 64).filter (fun c => s.unitState (unitId 1 c) != 3)).foldl (fun (s : State) c => s.startKeeperStream c 0) s

/-- They end with the stage. -/
def State.endStreams (s : State) : State :=
  ((List.range 64).filter (fun c => s.resident 0 c)).foldl (fun (s : State) c => (s.setCl c (s.cl c).vacated).setSeqState c seqIdle) s

/-- `good`: the stacks whose DEVICE_ID reports 12-high, 96 GiB, 2,048 data bits and 64 pseudo-channels. -/
def State.bootHbm (s : State) (ids : List (BitVec 64)) (good : BitVec 8) : State :=
  if !s.bootRuns 2 then s
  else
    let s := (List.range 8).foldl (fun (s : State) i => s.wr (Reg.IDM_HBM_ID i) (ids.getD i 0)) s
    if good ≠ 0xFF then
      ((s.setFld Reg.IDM_STATUS Fld.IDM_STATUS_HBM_ERR (~~~good).toNat).bootFail 6).declareOffline
    else (((List.range 64).foldl State.zeroStage s.applyRepair).startStreams).toStage 3

/-- BOOT_HBM_STAGE. -/
def execBootHbmStage (ids : List (BitVec 64)) (good : BitVec 8) (s : State) : Host.Outcome State Fault Refusal :=
  .next (s.bootHbm ids good)

/-! ### SELFTEST (R454, R458, R552) -/

/-- A unit that fails its START test is PERMANENT. -/
def State.startTestFails (s : State) (x : BitVec 32 × TestResult) : State :=
  let u := x.1.toNat
  if s.unitState u = 3 then s
  else
    let q : TestReq := { unit := u, cls := 8, tenant := 0, dpa := 0, cpos := s.rd Reg.CAD_POS, tsc := s.now }
    (s.outcome q 2 Reg.GLB_PERMANENT_CNT 2 x.2).retireUnit u 8 x.2.failMap

/-- With REPAIR_SIG the records start anew and are signed anew. -/
def State.bootSelftest (s : State) (fails : List (BitVec 32 × TestResult)) : State :=
  if !s.bootRuns 3 then s
  else
    let bad := s.fld Reg.SEC_STATUS Fld.SEC_STATUS_REPAIR_SIG = 1
    let s := if bad then { s with tr := { s.tr with repairLog := [] } }.resignRepair else s
    (fails.foldl State.startTestFails s.endStreams).toStage 4

/-- BOOT_SELFTEST_STAGE: the units whose tests fail. -/
def execBootSelftestStage (fails : List (BitVec 32 × TestResult)) (s : State) : Host.Outcome State Fault Refusal :=
  .next (s.bootSelftest fails)

/-! ### Board identity (R7, R11, R308, R525, R526) -/

/-- Fields of the 64 bytes of board identity. -/
def boardChip (b : List Byte) : Nat := (fileNum b 0x0C 1 * 32 + fileNum b 0x0B 1) * 32 + fileNum b 0x0A 1

/-- The chips listed on the board. -/
def boardChips (b : List Byte) : List Nat := (List.range (min 8 (fileNum b 0x16 1))).map (fun i => fileNum b (0x18 + 2 * i) 2)

/-- The twin: declared, or z with its lowest bit flipped. -/
def boardTwin (b : List Byte) : Nat × Nat × Nat :=
  if fileNum b 9 1 % 2 = 1 then (fileNum b 0x10 1, fileNum b 0x11 1, fileNum b 0x12 1)
  else (fileNum b 0x0A 1, fileNum b 0x0B 1, fileNum b 0x0C 1 ^^^ 1)

def boardFormatOk (b : List Byte) : Bool :=
  b.length == 64 && fileNum b 0 4 == 0x4449424B && fileNum b 4 1 == 1 && fileNum b 0x3C 4 == (crc32c (b.take 0x3C)).toNat

/-- Dimensions and a coordinate within them (R7). -/
def boardCoordOk (b : List Byte) : Bool :=
  let d (i : Nat) : Nat := fileNum b (0x0D + i) 1
  let x (i : Nat) : Nat := fileNum b (0x0A + i) 1
  Nat.ble 1 (d 0) && Nat.ble (d 0) 32 && Nat.ble 1 (d 1) && Nat.ble (d 1) 32 && Nat.ble 1 (d 2) && Nat.ble (d 2) 24
    && Nat.ble (d 0 * d 1 * d 2) 24576 && Nat.blt (x 0) (d 0) && Nat.blt (x 1) (d 1) && Nat.blt (x 2) (d 2)

def twinChip (t : Nat × Nat × Nat) : Nat := (t.2.2 * 32 + t.2.1) * 32 + t.1

def boardTwinOk (b : List Byte) : Bool :=
  let t := boardTwin b
  Nat.blt t.1 (fileNum b 0x0D 1) && Nat.blt t.2.1 (fileNum b 0x0E 1) && Nat.blt t.2.2 (fileNum b 0x0F 1)
    && twinChip t != boardChip b && !(boardChips b).contains (twinChip t)

def boardPoolOk (b : List Byte) : Bool :=
  let n := fileNum b 0x16 1
  Nat.ble 2 n && Nat.ble n 8 && (boardChips b).contains (boardChip b) && Nat.ble (n * 900) (fileNum b 0x14 2)

/-- The expected label of a port, and the role its bits name. -/
def boardLabel (b : List Byte) (p : Nat) : Nat := fileNum b (0x28 + p) 1
def labelRole (v : Nat) : Nat := v % 4 * 2 + v / 4 % 2
def boardRoles (b : List Byte) : List Nat := (List.range 6).map (fun k => labelRole (boardLabel b (2 * k)))

def boardCableOk (b : List Byte) : Bool :=
  (List.range 6).all (fun k =>
    let e := boardLabel b (2 * k)
    let o := boardLabel b (2 * k + 1)
    e / 16 == 0xA && o / 16 == 0xA && e / 8 % 2 == 0 && o / 8 % 2 == 1 && e % 8 == o % 8)
    && (List.range 6).all (boardRoles b).contains

/-- The failed checks as bits of IDM_STATUS.BID; past a failed format nothing more is checked, past a bad coordinate no twin. -/
def boardFaults (b : List Byte) : List Nat :=
  if !boardFormatOk b then [0]
  else (if boardCoordOk b then (if boardTwinOk b then [] else [2]) else [1])
    ++ (if boardPoolOk b then [] else [3]) ++ (if boardCableOk b then [] else [4])

/-- The IDM registers of a board identity that passed checks 1 to 3; the members of its pool. -/
def State.writeBoard (s : State) (b : List Byte) : State :=
  let w0 := boardChip b + twinChip (boardTwin b) * 2 ^ 15 + fileNum b 0x0D 1 * 2 ^ 30 + fileNum b 0x0E 1 * 2 ^ 36
    + fileNum b 0x0F 1 * 2 ^ 42 + fileNum b 8 1 % 8 * 2 ^ 48
  let s := s.wr Reg.IDM_BOARD0 (BitVec.ofNat 64 w0)
  let s := s.wr Reg.IDM_BOARD1 (BitVec.ofNat 64 (fileNum b 6 2 + fileNum b 0x14 2 * 2 ^ 16))
  let s := (s.wr Reg.IDM_CABLE_LO (BitVec.ofNat 64 (fileNum b 0x28 8))).wr Reg.IDM_CABLE_HI (BitVec.ofNat 64 (fileNum b 0x30 4))
  let s := s.wr Reg.PWR_POOL (BitVec.ofNat 64 (fileNum b 0x14 2 + fileNum b 0x16 1 % 16 * 2 ^ 16))
  let s := (List.range 2).foldl (fun (s : State) i => s.wr (Reg.PWR_POOL_MBR i) 0) s
  ((List.range 8).zip (boardChips b)).foldl (fun (s : State) e =>
    s.setFld (Reg.PWR_POOL_MBR (e.1 / 4)) ⟨16 * (e.1 % 4), 15⟩ e.2) s

/-- The registers of a board identity that did not pass. -/
def State.clearBoard (s : State) : State :=
  [Reg.IDM_BOARD0, Reg.IDM_BOARD1, Reg.IDM_CABLE_LO, Reg.IDM_CABLE_HI, Reg.PWR_POOL].foldl (fun (s : State) r => s.wr r 0) s

/-- BOARD_IDENTITY_CHECK: IDM_STATUS and the IDM registers are replaced, M6 is extended by the bytes, each failure raises IBI 0x04, and
the port-to-axis map is written where the labels allow it. -/
def State.checkBoard (s : State) (board : Option (List Byte)) : State :=
  let b := board.getD []
  let bad := boardFaults b
  let ok := !bad.any (· < 3)
  let s := s.setFld Reg.IDM_STATUS Fld.IDM_STATUS_BID (bad.foldl (fun n i => n + 2 ^ i) 0)
  let s := s.setFld Reg.IDM_STATUS Fld.IDM_STATUS_VALID ok.toNat
  let s := if ok then s.writeBoard b else s.clearBoard
  let s := bad.foldl (fun (s : State) _ => s.say (.ibi 4)) s
  let s := if board.isSome then s.extend 6 7 0 {} (sm3 b) else s
  if ok ∧ !bad.contains 4 then
    s.setFld Reg.PRT_AXIS_MAP Fld.PRT_AXIS_MAP_ROLES (((List.range 6).zip (boardRoles b)).foldl (fun n e => n + e.2 * 8 ^ e.1) 0)
  else s

/-- The BOARD stage; ports that wait for the board identity go on (R292). -/
def State.bootBoard (s : State) (board : Option (List Byte)) : State :=
  if !s.bootRuns 4 then s
  else
    let s := s.checkBoard board
    let admin := fileNum (board.getD []) 0x34 1 % 16
    let s := if !boardFormatOk (board.getD []) ∨ s.fld Reg.KPR_CTL Fld.KPR_CTL_LOCK = 1 then s
      else s.setFld Reg.KPR_CTL Fld.KPR_CTL_ADMIN admin
    (List.range 12).foldl State.sendCaps ({ s with boardRead := true }.toStage 5)

/-- BOOT_BOARD_STAGE: `board` is what the board identity memory reads as; none where the read fails. -/
def execBootBoardStage (board : Option (List Byte)) (s : State) : Host.Outcome State Fault Refusal := .next (s.bootBoard board)

end Machine
end Sys2Proof
end

