-- ==== Sys2Proof/Machine/Host.lean ====
section
/-!
DEFINITION. Host ports, command rings and event queues (spec/16_host_service_identity.md R500 to R513, R530).
-/
namespace Sys2Proof

/-- Bytes `lo` to `lo + n − 1` of a 64-byte entry as a number. -/
def entryNum (e : BitVec 512) (lo n : Nat) : Nat := e.toNat / 2 ^ (8 * lo) % 2 ^ (8 * n)

namespace Machine

/-! ### Paths (R260, R502) -/

/-- Tenant `t` may be reached through host port `p`. -/
def State.bound (s : State) (t p : Nat) : Bool :=
  t != 0 && s.hostPort t == some p && s.fld (Reg.MOV_TEN_CTL t) Fld.MOV_TEN_CTL_EN == 1

def State.pathReject (s : State) : State := s.cnt Reg.MOV_PATH_REJ_CNT

def State.ringTen (s : State) (r : Nat) : Nat := s.fld (Reg.HIF_RING_OWN r) Fld.HIF_RING_OWN_TEN
def State.ringPort (s : State) (r : Nat) : Nat := s.fld (Reg.HIF_RING_OWN r) Fld.HIF_RING_OWN_PORT
def State.ringAssigned (s : State) (r : Nat) : Bool := s.fld (Reg.HIF_RING_OWN r) Fld.HIF_RING_OWN_ASSIGNED == 1
def State.ringEn (s : State) (r : Nat) : Bool := s.fld (Reg.HIF_RING_CTL r) Fld.HIF_RING_CTL_EN == 1
def State.ringN (s : State) (r : Nat) : Nat := s.fld (Reg.HIF_RING_CTL r) Fld.HIF_RING_CTL_N
def State.ringErr (s : State) (r v : Nat) : State := s.setFld (Reg.HIF_RING_STAT r) Fld.HIF_RING_STAT_ERR v

/-- The ring's tenant is bound to the ring's port. -/
def State.ringBound (s : State) (r : Nat) : Bool := s.ringAssigned r && s.bound (s.ringTen r) (s.ringPort r)

/-! ### The link of a port (R500, R503, R504, R538) -/

def hostWidth (p : Nat) : Field := if p = 0 then Fld.HIF_CFG_HP0_WIDTH else Fld.HIF_CFG_HP1_WIDTH

/-- HP1 exists only with PCIE_SPLIT high. -/
def State.hostPresent (s : State) (p : Nat) : Bool := p == 0 || s.fld Reg.HIF_CFG Fld.HIF_CFG_SPLIT == 1

/-- HOST_LINK_TRAIN_START. -/
def execHostLinkTrainStart (p : Fin 2) (s : State) : Host.Outcome State Fault Refusal :=
  .next (if s.tr.powered ∧ s.hostPresent p = true ∧ s.hostLink.get 0 p = 0 then { s with hostLink := s.hostLink.set 0 p 1 } else s)

/-- HOST_LINK_UP: HIF_CFG shows the trained lanes. -/
def execHostLinkUp (p : Fin 2) (width : Fin 17) (s : State) : Host.Outcome State Fault Refusal :=
  .next (if s.hostPresent p then ({ s with hostLink := s.hostLink.set 0 p 2 }).setFld Reg.HIF_CFG (hostWidth p) width else s)

/-- One of the pieces lies in the window of host port `p`. -/
def State.onHost (s : State) (p : Nat) (ps : List (Nat × Nat)) : Bool :=
  ps.any (fun x => match s.place x.1 with
    | .host q _ => q == p
    | _ => false)

/-- A transfer whose next chunk reads from a host port: its source, or after posted writes the zero-length read of R256. -/
def MovRec.readsHost (m : MovRec) (s : State) (p : Nat) : Bool :=
  let n := min 65536 (m.total - m.done)
  s.onHost p (m.srcD.chunkPieces m.done n) || s.onHost p (m.dstD.chunkPieces m.done n)

/-- A mover's read of host memory fails: the mover stops in DETECTED, and its tenant is told (R503). -/
def State.hostReadFails (s : State) (m : Nat) : State :=
  match s.mover m with
  | some r =>
    if r.state ≠ 1 then s
    else ((s.setMover m { r with state := 4 }).event Reg.MOV_STATUS Fld.MOV_STATUS_DET Reg.MOV_DET_CNT).evq r.tenant 6 r.cluster m
  | none => s

/-- LINKDOWN: the port's rings are disabled, the completions of started commands are not written, device reads fail (R504). -/
def State.hostDown (s : State) (p : Nat) : State :=
  let s := s.event Reg.HIF_STATUS Fld.HIF_STATUS_LINKDOWN Reg.HIF_LINKDOWN_CNT
  let s := { s with hostLink := s.hostLink.set 0 p 0
                    hostCmds := s.hostCmds.map (fun (c : HostCmd) => if s.ringPort c.ring = p then { c with mute := true } else c) }
  let s := s.setFld Reg.HIF_CFG (hostWidth p) 0
  let s := (List.range 64).foldl (fun (s : State) r =>
    if s.ringAssigned r && s.ringPort r == p then s.setFld (Reg.HIF_RING_CTL r) Fld.HIF_RING_CTL_EN 0 else s) s
  ((s.movers.filter (fun e => e.2.readsHost s p)).map (·.1)).foldl State.hostReadFails s

/-- HOST_LINK_DOWN. -/
def execHostLinkDown (p : Fin 2) (s : State) : Host.Outcome State Fault Refusal := .next (s.hostDown p)

/-- HOST_PORT_RESET: link down, and a tenant reset of every tenant whose PATH is the port. -/
def State.hostPortReset (s : State) (p : Nat) : State :=
  let ts := [1, 2, 3].filter (fun t => s.hostPort t == some p)
  ts.foldl (fun (s : State) t => s.requestReset (ResetReq.mk 6 t)) (s.hostDown p)

def execHostPortReset (p : Fin 2) (s : State) : Host.Outcome State Fault Refusal := .next (s.hostPortReset p)

/-! ### Commands in flight (R507 to R511) -/

def State.hostCmd (s : State) (r cid : Nat) : Option HostCmd :=
  s.hostCmds.find? (fun (c : HostCmd) => c.ring == r && c.cid == cid)

/-- The commands of its ring fetched before a command. -/
def State.earlier (s : State) (r cid : Nat) : List HostCmd :=
  (s.hostCmds.filter (fun (c : HostCmd) => c.ring == r)).takeWhile (fun c => c.cid != cid)

/-- A command may start: the ones before it have, and with FENCE they have completed (R509). -/
def State.mayStart (s : State) (r cid : Nat) : Bool :=
  match s.hostCmd r cid with
  | some c =>
    let l := s.earlier r cid
    l.all (·.started) && (c.flags % 2 == 0 || l.isEmpty)
  | none => false

def HostCmd.arg (c : HostCmd) (i : Nat) : Nat := (c.args.getD i 0).toNat

/-- A row that runs a command of opcode `op`: once it may start, its tenant's path is checked, then it acts. -/
def State.runCmd (s : State) (r cid op : Nat) (f : State → HostCmd → State) : State :=
  match s.hostCmd r cid with
  | some c =>
    if c.opcode ≠ op ∨ c.result.isSome = true ∨ !s.mayStart r cid then s
    else if !s.ringBound r then s.pathReject.cmdEnd r cid 2 0
    else f (s.modCmd r cid (fun c => { c with started := true })) c
  | none => s

/-- HOST_READ_TIMEOUT: CTO, and a detected error for the reader (R503, R510). -/
def State.hostTimeout (s : State) : HostReader → State
  | .mover m => s.hostReadFails m
  | .command r cid =>
    match s.hostCmd r cid.toNat with
    | some c => if c.started ∧ c.result = none then s.cmdEnd r cid.toNat 8 c.done else s
    | none => s

def execHostReadTimeout (_p : Fin 2) (reader : HostReader) (s : State) : Host.Outcome State Fault Refusal :=
  .next ((s.event Reg.HIF_STATUS Fld.HIF_STATUS_CTO Reg.HIF_CTO_CNT).hostTimeout reader)

/-! ### BAR2 (R502) -/

def State.bar2Ten (s : State) (p : Nat) : Nat := s.fld (Reg.HIF_BAR_TEN p) Fld.HIF_BAR_TEN_BAR2_TEN
def State.bar2Dpa (s : State) (p off : Nat) : Nat := (s.rd (Reg.HIF_BAR2_DPA p)).toNat + off

/-- The access passes the region check of the port's BAR2 tenant. -/
def State.bar2Ok (s : State) (p a n : Nat) (q : Perm) : Bool :=
  s.fld (Reg.HIF_BAR_TEN p) Fld.HIF_BAR_TEN_BAR2_VALID == 1 && s.place a == .hbm && s.regionOk (s.bar2Ten p) a n q

def State.bar2Reject (s : State) : State := s.event Reg.HIF_STATUS Fld.HIF_STATUS_BAR2_REJ Reg.HIF_BAR2_REJ_CNT

/-- BAR2_READ. -/
def State.bar2Read (s : State) (p off n : Nat) (err : MemErr) : State :=
  let a := s.bar2Dpa p off
  if s.stopped then s
  else if n = 0 then s.say (.hostRead p (some []))
  else if !s.bar2Ok p a n .rd then s.bar2Reject.say (.hostRead p none)
  else match ((s.meet err (s.bar2Ten p)).spend 11 n).readMem a n with
    | (.ok bs, s) => s.say (.hostRead p (some bs))
    | (.detected h x, s) => (s.chargeMem h x (s.bar2Ten p)).say (.hostRead p none)

def execBar2Read (p : Fin 2) (off : BitVec 40) (n : Fin 4097) (err : MemErr) (s : State) : Host.Outcome State Fault Refusal :=
  .next (s.bar2Read p off.toNat n err)

/-- BAR2_WRITE: one whose read part meets a detected error does not write that burst (R218). -/
def State.bar2Write (s : State) (p off : Nat) (bs : List Byte) (err : MemErr) : State :=
  let a := s.bar2Dpa p off
  if bs.isEmpty || s.stopped then s
  else if !s.bar2Ok p a bs.length .wr then s.bar2Reject
  else
    let w := ((s.meet err (s.bar2Ten p)).spend 11 bs.length).write a bs
    w.2.chargeWrite w.1 (s.bar2Ten p)

def execBar2Write (p : Fin 2) (off : BitVec 40) (bytes : List Byte) (err : MemErr) (s : State) :
    Host.Outcome State Fault Refusal := .next (s.bar2Write p off.toNat bytes err)

/-! ### Rings and doorbells (R505, R506) -/

/-- The first condition of R505 that a ring fails, with the N and version of the write: 0 none. -/
def State.ringFault (s : State) (r : Nat) (v : BitVec 64) : Nat :=
  let n := getField v Fld.HIF_RING_CTL_N
  if !s.ringBound r then 1
  else if (s.rd (Reg.HIF_RING_SQ r)).toNat % 64 ≠ 0 ∨ (s.rd (Reg.HIF_RING_CQ r)).toNat % 64 ≠ 0 then 2
  else if n < 4 ∨ 12 < n then 3
  else if getField v Fld.HIF_RING_CTL_VMAJOR ≠ 1 ∨ getField v Fld.HIF_RING_CTL_VMINOR ≠ 0 then 4
  else 0

/-- A write of HIF_RING_CTL_r; a ring that becomes enabled starts empty. -/
def State.writeRingCtl (s : State) (r : Nat) (v : BitVec 64) : State :=
  let was := s.ringEn r
  if getField v Fld.HIF_RING_CTL_EN = 0 then s.writeCodes (Reg.HIF_RING_CTL r) v
  else
    let e := s.ringFault r v
    if e ≠ 0 then (s.writeCodes (Reg.HIF_RING_CTL r) (putField v Fld.HIF_RING_CTL_EN 0)).ringErr r e
    else
      let s := s.writeCodes (Reg.HIF_RING_CTL r) v
      if was then s
      else { s.wr (Reg.HIF_RING_STAT r) 0 with
        sqTail := s.sqTail.erase r, cqHead := s.cqHead.erase r, cqCount := s.cqCount.erase r, cqUsed := s.cqUsed.erase r }

/-- Whether a requester may write a ring's own registers: T0, or the port the ring is assigned to (R502). -/
def State.ringWriter (s : State) (r : Nat) : Requester → Bool
  | .host p => s.ringAssigned r && s.ringPort r == p.val
  | _ => true

/-- HOST_RING_ENABLE. -/
def execHostRingEnable (req : Requester) (r : Fin 64) (v : BitVec 64) (s : State) : Host.Outcome State Fault Refusal :=
  .next (if s.ringWriter r req then s.writeRingCtl r v else s)

def State.doorbellReject (s : State) : State := s.event Reg.HIF_STATUS Fld.HIF_STATUS_DB_REJ Reg.HIF_DB_REJ_CNT

/-- A doorbell before its own effect (R506). -/
def State.doorbell (s : State) (p r v : Nat) (width32 : Bool) (f : State → State) : State :=
  if !width32 then s
  else if s.ringPort r ≠ p ∨ !s.ringBound r then s.pathReject.doorbellReject
  else if !s.ringEn r then s.doorbellReject
  else if 2 ^ s.ringN r ≤ v then (s.setFld (Reg.HIF_RING_CTL r) Fld.HIF_RING_CTL_EN 0).ringErr r 5
  else f s

/-- SQ_TAIL_DOORBELL. -/
def execSqTailDoorbell (p : Fin 2) (r : Fin 64) (v : BitVec 32) (width32 : Bool) (s : State) :
    Host.Outcome State Fault Refusal :=
  .next (s.doorbell p r v.toNat width32 (fun s => { s with sqTail := s.sqTail.set 0 r v.toNat }))

/-- CQ_HEAD_DOORBELL: the entries from the old head up to the new one are released. -/
def State.cqRelease (s : State) (r v : Nat) : State :=
  let n := 2 ^ s.ringN r
  let freed := (v + n - s.cqHead.get 0 r) % n
  { s with cqHead := s.cqHead.set 0 r v, cqUsed := s.cqUsed.set 0 r (s.cqUsed.get 0 r - freed) }

def execCqHeadDoorbell (p : Fin 2) (r : Fin 64) (v : BitVec 32) (width32 : Bool) (s : State) :
    Host.Outcome State Fault Refusal := .next (s.doorbell p r v.toNat width32 (fun s => s.cqRelease r v.toNat))

/-- HOST_CMD_FETCH: the next SQ entry; a reserved opcode is done at once (R507 to R509). -/
def State.cmdFetch (s : State) (r : Nat) (e : BitVec 512) : State :=
  let head := s.fld (Reg.HIF_RING_STAT r) Fld.HIF_RING_STAT_SQ_HEAD
  if s.stopped = true ∨ !s.ringEn r ∨ head = s.sqTail.get 0 r ∨ 16 ≤ (s.hostCmds.filter (fun (c : HostCmd) => c.ring == r)).length then s
  else
    let op := entryNum e 0 1
    let cid := entryNum e 2 2
    let c : HostCmd := { ring := r, cid := cid, opcode := op, flags := entryNum e 1 1
                         args := (List.range 4).map (fun i => BitVec.ofNat 64 (entryNum e (8 + 8 * i) 8))
                         result := if op = 0 ∨ 11 < op then some (1, 0) else none }
    let s := s.setFld (Reg.HIF_RING_STAT r) Fld.HIF_RING_STAT_SQ_HEAD ((head + 1) % 2 ^ s.ringN r)
    let s := { s with hostCmds := s.hostCmds ++ [c] }
    if !s.mayStart r cid then s
    else if c.result.isSome then s.cmdEnd r cid 1 0
    else s.modCmd r cid (fun c => { c with started := true })

def execHostCmdFetch (r : Fin 64) (entry : BitVec 512) (s : State) : Host.Outcome State Fault Refusal :=
  .next (s.cmdFetch r entry)

/-- No other command of the ring ended before this one; one of a reserved opcode that has only now become free to start ends last. -/
def State.completesNext (s : State) (r : Nat) (c : HostCmd) : Bool :=
  s.hostCmds.all (fun (x : HostCmd) => x.ring != r || x.order == 0 || (c.order != 0 && Nat.ble c.order x.order))

/-- HOST_CMD_COMPLETE: the completion entry and its vector, in completion order, held back while the CQ is full; none is written for a muted command or a
disabled ring; a reserved opcode completes once it may start (R509, R510). -/
def State.cmdComplete (s : State) (r cid : Nat) : State :=
  match s.hostCmd r cid with
  | none => s
  | some c =>
    match c.result with
    | none => s
    | some (status, detail) =>
      let n := 2 ^ s.ringN r
      let drop (s : State) : State := { s with hostCmds := s.hostCmds.erase c }.cnt Reg.HIF_CMD_CNT
      if !c.started && !s.mayStart r cid then s
      else if c.mute || !s.ringEn r then drop s
      else if !s.completesNext r c then s
      else if n ≤ s.cqUsed.get 0 r then s
      else
        let k := s.cqCount.get 0 r
        let s := { drop s with cqCount := s.cqCount.set 0 r (k + 1), cqUsed := s.cqUsed.set 0 r (s.cqUsed.get 0 r + 1) }
        let tail := k % n
        let s := s.setFld (Reg.HIF_RING_STAT r) Fld.HIF_RING_STAT_CQ_TAIL ((tail + 1) % n)
        let bs := leBytes 2 cid ++ leBytes 1 status ++ leBytes 1 ((k / n + 1) % 2) ++ leBytes 4 0 ++ leBytes 8 detail
        let s := s.say (.hostWrite (s.ringPort r) ((s.rd (Reg.HIF_RING_CQ r)).toNat + 16 * tail) bs)
        if c.flags / 2 % 2 = 1 then s
        else s.say (.msix (s.ringPort r) (s.fld (Reg.HIF_RING_CTL r) Fld.HIF_RING_CTL_VECTOR))

def execHostCmdComplete (r : Fin 64) (cid : BitVec 16) (s : State) : Host.Outcome State Fault Refusal :=
  .next (s.cmdComplete r cid.toNat)

/-! ### The plain commands (R508, R511, R554, R556) -/

/-- HOST_NOP. -/
def execHostNop (r : Fin 64) (cid : BitVec 16) (s : State) : Host.Outcome State Fault Refusal :=
  .next (s.runCmd r cid.toNat 1 (fun s _ => s.cmdEnd r cid.toNat 0 0))

/-- The copies that run on a port's four engines. -/
def State.copiesOn (s : State) (p : Nat) : Nat :=
  (s.hostCmds.filter (fun (c : HostCmd) => c.copying && c.result == none && s.ringPort c.ring == p)).length

/-- A copy starts on an engine of its port; one of no bytes is done at once. -/
def State.startCopy (s : State) (r cid op : Nat) : State :=
  if 4 ≤ s.copiesOn (s.ringPort r) then s
  else s.runCmd r cid op (fun s c =>
    if c.copying then s
    else if c.arg 2 = 0 then s.cmdEnd r cid 0 (crc64 []).toNat
    else s.modCmd r cid (fun c => { c with copying := true }))

/-- HOST_COPY_IN. -/
def execHostCopyIn (r : Fin 64) (cid : BitVec 16) (s : State) : Host.Outcome State Fault Refusal := .next (s.startCopy r cid.toNat 2)
/-- HOST_COPY_OUT. -/
def execHostCopyOut (r : Fin 64) (cid : BitVec 16) (s : State) : Host.Outcome State Fault Refusal := .next (s.startCopy r cid.toNat 3)

/-- A chunk has moved: the fingerprint goes on, and the last one ends the copy. -/
def State.copyStep (s : State) (r cid : Nat) (c : HostCmd) (bs : List Byte) : State :=
  let fp := crc64From c.fp bs
  let done := c.done + bs.length
  let s := s.modCmd r cid (fun c => { c with fp := fp, done := done })
  if c.arg 2 ≤ done then s.cmdEnd r cid 0 fp.toNat else s

/-- A detected error of the DPA side ends a copy. -/
def State.copyDetected (s : State) (r cid : Nat) (c : HostCmd) (hbm : Bool) (a : Nat) : State :=
  (s.chargeMem hbm a (s.ringTen r)).cmdEnd r cid 4 c.done

/-- HOST_COPY_CHUNK: at most 64 KiB; `data` is what the host's memory gives a COPY_IN (R511). -/
def State.copyChunk (s : State) (r cid : Nat) (data : List Byte) (err : MemErr) : State :=
  match s.hostCmd r cid with
  | none => s
  | some c =>
    if !c.copying ∨ c.result.isSome = true then s
    else
      let t := s.ringTen r
      let n := min 65536 (c.arg 2 - c.done)
      if s.heldOff [(c.arg (if c.opcode = 2 then 1 else 0) + c.done, n)] then s
      else
      let s := (s.meet err t).spend 11 n
      if c.opcode = 2 then
        let a := c.arg 1 + c.done
        if !s.regionOk t a n .wr then s.cmdEnd r cid 3 c.done
        else
          let bs := (data ++ List.replicate n 0).take n
          let w := s.write a bs
          match w.1 with
          | some e => w.2.copyDetected r cid c e.1 e.2
          | none => w.2.copyStep r cid c bs
      else
        let a := c.arg 0 + c.done
        if !s.regionOk t a n .rd then s.cmdEnd r cid 3 c.done
        else match s.readMem a n with
          | (.detected h x, s) => s.copyDetected r cid c h x
          | (.ok bs, s) => (s.say (.hostWrite (s.ringPort r) ((c.arg 1 + c.done) % 2 ^ 64) bs)).copyStep r cid c bs

def execHostCopyChunk (r : Fin 64) (cid : BitVec 16) (data : List Byte) (err : MemErr) (s : State) :
    Host.Outcome State Fault Refusal := .next (s.copyChunk r cid.toNat data err)

/-- HOST_LOAD_IMAGE: `img` is the image as the keeper fetches it; the load may wait for the tenant's ports (R161, R162). -/
def execHostLoadImage (r : Fin 64) (cid : BitVec 16) (img : List Byte) (s : State) : Host.Outcome State Fault Refusal :=
  .next (s.runCmd r cid.toNat 4 (fun s c =>
    match s.loadImage (s.ringTen r) (img.take (c.arg 1)) (c.arg 2) with
    | none => s
    | some (0, s) => s.cmdEnd r cid.toNat 0 0
    | some (e, s) => s.cmdEnd r cid.toNat 5 e))

/-- HOST_START: SEQ_CTL.START in each cluster of the mask, as the ring's tenant. -/
def execHostStart (r : Fin 64) (cid : BitVec 16) (s : State) : Host.Outcome State Fault Refusal :=
  .next (s.runCmd r cid.toNat 5 (fun s c =>
    let cs := (List.range 64).filter (fun i => (c.arg 0).testBit i)
    (cs.foldl (fun (s : State) i => s.seqStart (s.ringTen r) i) s).cmdEnd r cid.toNat 0 0))

/-- HOST_SIGNAL under the tenant rules of R202 and R261: TENANT for a cluster that runs another tenant's stream and holds no saved context of
this one, BAD_COMMAND for a count of 0. -/
def execHostSignal (r : Fin 64) (cid : BitVec 16) (s : State) : Host.Outcome State Fault Refusal :=
  .next (s.runCmd r cid.toNat 6 (fun s c =>
    let t := s.ringTen r
    let clu := c.arg 0 % 64
    let n := c.arg 0 / 2 ^ 16 % 2 ^ 24
    if n = 0 then s.cmdEnd r cid.toNat 1 0
    else if s.foreign t clu then s.cmdEnd r cid.toNat 7 0
    else (s.signalTo t clu (c.arg 0 / 2 ^ 8 % 256) n (peerWord 0 0 0 0 0)).cmdEnd r cid.toNat 0 0))

/-- HOST_ATTEST: the report lies 0x40 past the nonce. -/
def execHostAttest (r : Fin 64) (cid : BitVec 16) (nonce : BitVec 256) (s : State) : Host.Outcome State Fault Refusal :=
  .next (s.runCmd r cid.toNat 11 (fun s c =>
    let x := s.attest (leBytes 32 nonce.toNat)
    (x.2.say (.hostWrite (s.ringPort r) ((c.arg 0 + 0x40) % 2 ^ 64) x.1)).cmdEnd r cid.toNat 0 0))

/-! ### Event queues (R512) -/

/-- EVQ_LOST_ENTRY: the host has taken back `space` entries of tenant `t`'s queue; events lost since it filled are reported first. -/
def State.evqSpace (s : State) (t space : Nat) : State :=
  let s := { s with evqUsed := s.evqUsed.set 0 t (s.evqUsed.get 0 t - space) }
  let n := s.evqLost.get 0 t
  if n = 0 ∨ 2 ^ s.fld (Reg.HIF_EVQ_CTL (t - 1)) Fld.HIF_EVQ_CTL_N ≤ s.evqUsed.get 0 t then s
  else { s with evqLost := s.evqLost.set 0 t 0 }.evq t 8 0 n

def execEvqLostEntry (t : Fin 4) (space : Nat) (s : State) : Host.Outcome State Fault Refusal :=
  .next (if t = 0 then s else s.evqSpace t space)

end Machine
end Sys2Proof
end

