-- ==== Sys2Proof/Machine/Mailbox.lean ====
section
/-!
DEFINITION. The keeper mailbox (spec/16_host_service_identity.md R515 to R517): its requests and GO.
-/
namespace Sys2Proof.Machine

/-- The opcodes of R517. -/
def kprOpcodes : List Nat := [0x01, 0x02, 0x03, 0x04, 0x10, 0x11, 0x20, 0x21, 0x30, 0x31]

def State.kprOp (s : State) (ch : Nat) : Nat := s.kprHeader ch % 2 ^ 16
def State.kprLen (s : State) (ch : Nat) : Nat := s.kprHeader ch / 2 ^ 32 % 2 ^ 16

/-- The payload of a request: LEN bytes, at most 1,016. -/
def State.kprPayload (s : State) (ch : Nat) : List Byte :=
  ((List.range 127).flatMap (fun w => leBytes 8 (s.rd (Reg.KPR_REQ ch (w + 1))).toNat)).take (s.kprLen ch)

/-- GO of a channel: one while BUSY is ignored; an opcode that R517 does not list is answered BAD_OPCODE (R516). -/
def State.kprGo (s : State) (ch : Nat) : State :=
  if s.fld (Reg.KPR_CH ch) Fld.KPR_CH_BUSY = 1 then s.event Reg.KPR_STATUS Fld.KPR_STATUS_GO_IGN Reg.KPR_GO_IGN_CNT
  else
    let s := (s.setFld (Reg.KPR_CH ch) Fld.KPR_CH_BUSY 1).setFld (Reg.KPR_CH ch) Fld.KPR_CH_DONE 0
    if kprOpcodes.contains (s.kprOp ch) then s else s.kprRespond ch 1 []

end Sys2Proof.Machine
end

