-- ==== Sys2Proof/Machine/Service.lean ====
section
/-!
DEFINITION. Service ports (spec/16_host_service_identity.md R518 to R523) and what the collective fallback receives on them (R373, R374).
-/
namespace Sys2Proof.Machine

/-! ### Queue pairs (R519, R520) -/

/-- The fields of a descriptor name a queue pair that KT1 supports (R519, R520). -/
def qpFieldsOk (d : BitVec 512) : Bool :=
  decide (entryNum d 0 1 < 2) && decide (3 ≤ entryNum d 1 1) && decide (entryNum d 1 1 ≤ 5)
    && decide (1 ≤ entryNum d 0x30 4) && decide (entryNum d 0x30 4 ≤ 4096) && entryNum d 0x30 4 == 2 ^ Nat.log2 (entryNum d 0x30 4)
    && decide (64 ≤ entryNum d 0x34 4) && decide (entryNum d 0x34 4 ≤ 4096) && entryNum d 0x34 4 % 64 == 0

def qpOf (t : Nat) (d : BitVec 512) : Qp :=
  { port := entryNum d 0 1, tenant := t, pmtu := entryNum d 1 1, remote := entryNum d 4 3, psn := entryNum d 8 3
    rpsn := entryNum d 0xC 3, gid := entryNum d 0x10 16, timeout := entryNum d 0x20 1 % 32, retry := entryNum d 0x21 1 % 8
    rnr := entryNum d 0x22 1 % 8, dscp := entryNum d 0x23 1 % 64, pcp := entryNum d 0x24 1 % 8
    rqDpa := entryNum d 0x28 6, rqEntries := entryNum d 0x30 4, rqSize := entryNum d 0x34 4 }

/-- SVC_QP_STAT_n. -/
def State.showQp (s : State) (n state port ten : Nat) : State :=
  ((s.setFld (Reg.SVC_QP_STAT n) Fld.SVC_QP_STAT_STATE state).setFld (Reg.SVC_QP_STAT n) Fld.SVC_QP_STAT_PORT port).setFld
    (Reg.SVC_QP_STAT n) Fld.SVC_QP_STAT_TEN ten

/-- HOST_QP_CREATE: the option version is the peer's maximum, so 1.0 is common from major 1 on (R529). -/
def execHostQpCreate (r : Fin 64) (cid : BitVec 16) (desc : BitVec 512) (s : State) : Host.Outcome State Fault Refusal :=
  .next (s.runCmd r cid.toNat 7 (fun s _ =>
    let t := s.ringTen r
    let q := qpOf t desc
    match (List.range 4096).find? (fun n => (s.qp n).isNone) with
    | none => s.cmdEnd r cid.toNat 9 0
    | some n =>
      if !qpFieldsOk desc ∨ entryNum desc 2 1 = 0 ∨ 2 ^ 48 ≤ entryNum desc 0x28 8
          ∨ !s.regionOk t q.rqDpa (q.rqEntries * q.rqSize) .fl then s.cmdEnd r cid.toNat 9 0
      else ((s.setQp n q).showQp n 1 q.port t).cmdEnd r cid.toNat 0 (qpn n)))

/-- Every operation that a queue pair still holds fails with QP; DETAIL holds the bytes moved. -/
def State.failPosts (s : State) (q : Qp) : State :=
  q.posts.foldl (fun (s : State) (p : QpPost) => s.cmdEnd p.ring p.cid 9 p.moved) s

/-- The queue pair enters ERROR. -/
def State.qpError (s : State) (n : Nat) (q : Qp) : State :=
  let s := (s.setQp n { q with error := true, posts := [] }).showQp n 2 q.port q.tenant
  (s.event (Reg.SVC_STATUS_P q.port) Fld.SVC_STATUS_P_QP_ERR (Reg.SVC_QP_ERR_CNT q.port)).failPosts q

/-- The queue pair that an argument's QPN names. -/
def State.qpArg (s : State) (v : Nat) : Option (Nat × Qp) :=
  if v < qpn 0 ∨ qpn 4096 ≤ v then none else (s.qp (v - qpn 0)).map (fun q => (v - qpn 0, q))

/-- HOST_QP_DESTROY. -/
def execHostQpDestroy (r : Fin 64) (cid : BitVec 16) (s : State) : Host.Outcome State Fault Refusal :=
  .next (s.runCmd r cid.toNat 8 (fun s c =>
    match s.qpArg (c.arg 0) with
    | none => s.cmdEnd r cid.toNat 9 0
    | some (n, q) =>
      if q.tenant ≠ s.ringTen r then s.cmdEnd r cid.toNat 7 0
      else ((({ s with qps := s.qps.erase n }).wr (Reg.SVC_QP_STAT n) 0).failPosts q).cmdEnd r cid.toNat 0 0))

/-! ### Posting (R519, R523) -/

/-- Whether a READ may be sent now: at most 16 are outstanding. -/
def Qp.readRoom (q : Qp) : Bool := Nat.blt (q.posts.filter (fun (p : QpPost) => p.op == 2)).length 16

def Qp.holds (q : Qp) (r cid : Nat) : Bool := q.posts.any (fun (p : QpPost) => p.ring == r && p.cid == cid)

/-- The checks of QP_POST, then the operation. -/
def State.postOn (s : State) (r cid : Nat) (c : HostCmd) (n : Nat) (q : Qp) (err : MemErr) : State :=
  let op := c.arg 0 / 2 ^ 24 % 256
  let dpa := c.arg 1 % 2 ^ 48
  let bytes := c.arg 2 % 2 ^ 32
  let p : QpPost := { ring := r, cid := cid, op := op, dpa := dpa, bytes := bytes, rkey := c.arg 2 / 2 ^ 32, remote := c.arg 3
                      psn := q.psn, packets := q.packetsOf bytes }
  if q.tenant ≠ s.ringTen r then s.cmdEnd r cid 7 0
  else if q.error then s.cmdEnd r cid 9 0
  else if 2 < op ∨ 2 ^ 30 < bytes then s.cmdEnd r cid 1 0
  else if bytes ≠ 0 ∧ !s.regionOk q.tenant dpa bytes (if op = 2 then .wr else .rd) then s.cmdEnd r cid 3 0
  else if op = 2 then s.sendPost n q p []
  else match ((s.meet err q.tenant).spend 11 bytes).readMem dpa bytes with
    | (.ok bs, s) => s.sendPost n q p bs
    | (.detected h a, s) => (s.chargeMem h a q.tenant).cmdEnd r cid 4 0

/-- HOST_QP_POST: a READ waits while 16 are outstanding; a command already posted waits for its acknowledgement. -/
def State.qpPost (s : State) (r cid : Nat) (err : MemErr) : State :=
  match s.hostCmd r cid with
  | none => s
  | some c =>
    match s.qpArg (c.arg 0 % 2 ^ 24) with
    | none => s.runCmd r cid 9 (fun s _ => s.cmdEnd r cid 9 0)
    | some (n, q) =>
      if q.holds r cid || (c.arg 0 / 2 ^ 24 % 256 == 2 && !q.readRoom) then s
      else s.runCmd r cid 9 (fun s c => s.postOn r cid c n q err)

def execHostQpPost (r : Fin 64) (cid : BitVec 16) (err : MemErr) (s : State) : Host.Outcome State Fault Refusal :=
  .next (s.qpPost r cid.toNat err)

/-! ### Acknowledgements (R519, R523) -/

/-- How many packets, from the first packet of a post on, an acknowledgement of packet `psn` covers. -/
def QpPost.acked (p : QpPost) (psn : Nat) : Nat :=
  let d := (psn + 2 ^ 24 - p.psn) % 2 ^ 24
  if d < 2 ^ 23 then d + 1 else 0

/-- An acknowledgement of every packet up to `psn`: SENDs and WRITEs it covers complete, up to the first READ that waits for its response. -/
def ackPosts : List QpPost → Nat → Nat → List QpPost × List QpPost
  | [], _, _ => ([], [])
  | p :: rest, mtu, psn =>
    if p.op = 2 then ([], p :: rest)
    else if p.packets ≤ p.acked psn then
      let x := ackPosts rest mtu psn
      (p :: x.1, x.2)
    else ([], { p with moved := max p.moved (min p.bytes (p.acked psn * mtu)) } :: rest)

/-- The acknowledged operations complete with OK; the retry counts start anew. -/
def State.ackQp (s : State) (n : Nat) (q : Qp) (psn : Nat) : State :=
  let x := ackPosts q.posts q.mtu psn
  let s := s.setQp n { q with posts := x.2, tries := 0, rnrTries := 0 }
  x.1.foldl (fun (s : State) (p : QpPost) => s.cmdEnd p.ring p.cid 0 p.bytes) s

/-- SVC_ACK_RX. -/
def execSvcAckRx (q : Fin 4096) (psn : BitVec 24) (s : State) : Host.Outcome State Fault Refusal :=
  .next (match s.liveQp q with
    | some x => if x.posts.isEmpty then s else s.ackQp q x psn.toNat
    | none => s)

/-- Go-back-N from the oldest packet not acknowledged; past the retry count the queue pair enters ERROR. -/
def State.sendAgain (s : State) (n : Nat) (q : Qp) : State :=
  match q.posts with
  | [] => s
  | p :: _ =>
    if q.retry ≤ q.tries then s.qpError n q
    else (s.setQp n { q with tries := q.tries + 1 }).say (.svcAgain (qpn n) ((p.psn + p.moved / q.mtu) % 2 ^ 24))

/-- An RNR NAK: the same under the RNR retry count, of which 7 has no end (PRESUMED: InfiniBand; log entry 80). -/
def State.sendAgainRnr (s : State) (n : Nat) (q : Qp) : State :=
  match q.posts with
  | [] => s
  | p :: _ =>
    if q.rnr ≠ 7 ∧ q.rnr ≤ q.rnrTries then s.qpError n q
    else (s.setQp n { q with rnrTries := q.rnrTries + 1 }).say (.svcAgain (qpn n) ((p.psn + p.moved / q.mtu) % 2 ^ 24))

/-- What a NAK acknowledges before it asks: every packet before its own. -/
def State.ackBefore (s : State) (n : Nat) (q : Qp) (psn : Nat) : State :=
  match q.posts with
  | [] => s
  | p :: _ => if p.acked ((psn + 2 ^ 24 - 1) % 2 ^ 24) = 0 then s else s.ackQp n q ((psn + 2 ^ 24 - 1) % 2 ^ 24)

/-- SVC_NAK_RX. -/
def State.nakQp (s : State) (n psn : Nat) (kind : NakKind) : State :=
  match s.liveQp n with
  | none => s
  | some q =>
    let s := s.ackBefore n q psn
    match s.liveQp n with
    | none => s
    | some q =>
      match kind with
      | .sequence => s.sendAgain n q
      | .rnr => s.sendAgainRnr n q
      | .fatal => s.qpError n q

def execSvcNakRx (q : Fin 4096) (psn : BitVec 24) (kind : NakKind) (s : State) : Host.Outcome State Fault Refusal :=
  .next (s.nakQp q psn.toNat kind)

/-- SVC_RETRY_TIMEOUT. -/
def execSvcRetryTimeout (q : Fin 4096) (s : State) : Host.Outcome State Fault Refusal :=
  .next (match s.liveQp q with
    | some x => s.sendAgain q x
    | none => s)

/-- A response packet of the oldest READ lands; what was sent before that READ is acknowledged by it. -/
def State.readResponse (s : State) (n : Nat) (bs : List Byte) (err : MemErr) : State :=
  match s.liveQp n with
  | none => s
  | some q =>
    let before := q.posts.takeWhile (fun (p : QpPost) => p.op != 2)
    match q.posts.dropWhile (fun (p : QpPost) => p.op != 2) with
    | [] => s
    | p :: rest =>
      let s := before.foldl (fun (s : State) (p : QpPost) => s.cmdEnd p.ring p.cid 0 p.bytes) s
      let bs := bs.take (p.bytes - p.moved)
      let s := s.setQp n { q with posts := rest, tries := 0, rnrTries := 0 }
      if p.ring = 64 then if p.bytes ≤ p.moved + bs.length then s else s.setQp n { q with posts := { p with moved := p.moved + bs.length } :: rest, tries := 0, rnrTries := 0 }
      else if !bs.isEmpty ∧ !s.regionOk q.tenant (p.dpa + p.moved) bs.length .wr then s.cmdEnd p.ring p.cid 3 p.moved
      else
        let w := ((s.meet err q.tenant).spend 11 bs.length).write (p.dpa + p.moved) bs
        if w.1.isSome then (w.2.chargeWrite w.1 q.tenant).cmdEnd p.ring p.cid 4 p.moved
        else
          let p := { p with moved := p.moved + bs.length }
          if p.bytes ≤ p.moved then w.2.cmdEnd p.ring p.cid 0 p.bytes
          else w.2.setQp n { q with posts := p :: rest, tries := 0, rnrTries := 0 }

/-- The oldest READ of a queue pair lands in HBM while a commit pass runs: its response waits (R221). -/
def State.readLandsLater (s : State) (n : Nat) : Bool :=
  (s.liveQp n).any (fun q => ((q.posts.find? (fun (p : QpPost) => p.op == 2)).any (fun p => s.landsLater p.dpa)))

/-- SVC_READ_RESPONSE_RX. -/
def execSvcReadResponseRx (q : Fin 4096) (bytes : List Byte) (err : MemErr) (s : State) : Host.Outcome State Fault Refusal :=
  .next (if s.readLandsLater q then s else s.readResponse q bytes err)

/-! ### Memory keys (R521) -/

def State.keyLen (s : State) (k : Nat) : Nat := s.fld (Reg.SVC_MKEY_LEN k) Fld.SVC_MKEY_LEN_LEN
def State.keyTen (s : State) (k : Nat) : Nat := s.fld (Reg.SVC_MKEY_LEN k) Fld.SVC_MKEY_LEN_TEN
def State.keyGen (s : State) (k : Nat) : Nat := s.fld (Reg.SVC_MKEY_LEN k) Fld.SVC_MKEY_LEN_GEN
def State.keyBase (s : State) (k : Nat) : Nat := s.fld (Reg.SVC_MKEY k) Fld.SVC_MKEY_BASE

/-- The entry of a valid rkey: bits 31:30 are 0, GEN matches, and the entry is in use. -/
def State.keyOf (s : State) (rkey : Nat) : Option Nat :=
  let k := rkey % 1024
  if rkey / 2 ^ 30 = 0 ∧ rkey / 1024 % 2 ^ 20 = s.keyGen k ∧ s.keyLen k ≠ 0 then some k else none

/-- MKEY sets an entry: GEN rises, and the rkey names it. -/
def State.setKey (s : State) (k dpa len perms ten : Nat) : State :=
  let gen := (s.keyGen k + 1) % 2 ^ 20
  let s := s.wr (Reg.SVC_MKEY k) (BitVec.ofNat 64 dpa)
  s.wr (Reg.SVC_MKEY_LEN k) (BitVec.ofNat 64 (len + perms % 4 * 2 ^ 40 + ten % 4 * 2 ^ 42 + gen * 2 ^ 44))

def State.rkey (s : State) (k : Nat) : Nat := s.keyGen k * 1024 + k

/-- HOST_MKEY: a release, a replacement, or a new key. -/
def State.mkey (s : State) (r cid : Nat) (c : HostCmd) : State :=
  let t := s.ringTen r
  let len := c.arg 1
  let set (s : State) (k : Nat) : State :=
    let s := s.setKey k (c.arg 0) len (c.arg 2) t
    s.cmdEnd r cid 0 (s.rkey k)
  if 2 ^ 48 ≤ c.arg 0 ∨ 2 ^ 40 ≤ len then s.cmdEnd r cid 1 0
  else if c.arg 3 = 0 then
    if len = 0 then s.cmdEnd r cid 1 0
    else match (List.range 1024).find? (fun k => s.keyLen k == 0) with
      | none => s.cmdEnd r cid 6 0
      | some k => set s k
  else match s.keyOf (c.arg 3) with
    | none => s.cmdEnd r cid 1 0
    | some k =>
      if s.keyTen k ≠ t then s.cmdEnd r cid 7 0
      else if len = 0 then (s.setFld (Reg.SVC_MKEY_LEN k) Fld.SVC_MKEY_LEN_LEN 0).cmdEnd r cid 0 (c.arg 3)
      else set s k

def execHostMkey (r : Fin 64) (cid : BitVec 16) (s : State) : Host.Outcome State Fault Refusal :=
  .next (s.runCmd r cid.toNat 10 (fun s c => s.mkey r cid.toNat c))

/-- An access through a key: the key, its range, its permission, and the region check of its tenant. -/
def State.keyAccess (s : State) (rkey a n : Nat) (write : Bool) : Option Nat :=
  match s.keyOf rkey with
  | none => none
  | some k =>
    if decide (s.keyBase k ≤ a) && decide (a + n ≤ s.keyBase k + s.keyLen k)
        && s.fld (Reg.SVC_MKEY_LEN k) (if write then Fld.SVC_MKEY_LEN_WR else Fld.SVC_MKEY_LEN_RD) == 1
        && (n == 0 || s.regionOk (s.keyTen k) a n (if write then .fl else .rd)) then some (s.keyTen k) else none

/-- A remote access is refused. -/
def State.keyReject (s : State) (n : Nat) : State :=
  (s.event Reg.SVC_STATUS Fld.SVC_STATUS_KEY_REJ Reg.SVC_KEY_REJ_CNT).say (.svcNak (qpn n) 2)

/-! ### What arrives (R519 to R522) -/

/-- Where a packet number stands: 0 expected, 1 ahead of it, so that packets between are missing, 2 seen before (PRESUMED: InfiniBand's
reliable connected transport; log entry 80). -/
def Qp.turn (q : Qp) (psn : Nat) : Nat :=
  let d := (psn + 2 ^ 24 - q.rpsn) % 2 ^ 24
  if d = 0 then 0 else if d < 2 ^ 23 then 1 else 2

/-- Packets accepted from the peer, and the CNP that an ECN mark asks for: at most one in 50 µs. -/
def State.received (s : State) (n : Nat) (q : Qp) (len : Nat) (ecn : Bool) : State :=
  let q := { q with rpsn := (q.rpsn + q.packetsOf len) % 2 ^ 24 }
  let due : Bool := match q.cnpAt with
    | none => true
    | some t => decide (t + 50000 ≤ s.now)
  if ecn && due then (s.setQp n { q with cnpAt := some s.now }).say (.svcCnp (qpn n)) else s.setQp n q

/-- The bytes lie in the landing buffer of a running collective: they are a partial of the fallback (R232, R373). -/
def State.inLanding (s : State) (a n : Nat) : Bool :=
  s.colls.any (fun e => decide (e.2.plan.land ≤ a) && decide (a + n ≤ e.2.plan.land + e.2.plan.ns * e.2.plan.slots * 65536))

/-- SVC_RDMA_WRITE_RX: a range is checked per packet; one whose read part meets a detected error leaves that burst as it was. A landing in
HBM waits while a commit pass runs (R221); a collective's partial that T1's table does not let land is a landing error besides (R232). -/
def State.rdmaWrite (s : State) (n psn rkey a : Nat) (bs : List Byte) (ecn : Bool) (err : MemErr) : State :=
  match s.liveQp n with
  | none => s
  | some q =>
    if q.turn psn = 1 then s.say (.svcNak (qpn n) 4)
    else if q.turn psn = 2 then s.say (.svcAck (qpn n))
    else match s.keyAccess rkey a bs.length true with
    | none =>
      (if s.inLanding a bs.length ∧ !bs.isEmpty ∧ !s.regionOk 1 a bs.length .fl then s.landError else s).keyReject n
    | some t =>
      if s.landsLater a then s
      else
        let s := s.received n q bs.length ecn
        let w := ((s.meet err t).spend 11 bs.length).write a bs
        if w.1.isSome then (w.2.chargeWrite w.1 t).say (.svcNak (qpn n) 3) else w.2.say (.svcAck (qpn n))

def execSvcRdmaWriteRx (q : Fin 4096) (psn : BitVec 24) (rkey : BitVec 32) (a : BitVec 64) (bytes : List Byte) (ecn : Bool) (err : MemErr) (s : State) :
    Host.Outcome State Fault Refusal := .next (s.rdmaWrite q psn.toNat rkey.toNat a.toNat bytes ecn err)

/-- SVC_RDMA_READ_RX: it takes as many packet numbers as its response has packets; one seen before is served again. -/
def State.rdmaRead (s : State) (n psn rkey a len : Nat) (err : MemErr) : State :=
  match s.liveQp n with
  | none => s
  | some q =>
    if q.turn psn = 1 then s.say (.svcNak (qpn n) 4)
    else if 2 ^ 30 < len then s.say (.svcNak (qpn n) 1)
    else match s.keyAccess rkey a len false with
    | none => s.keyReject n
    | some t =>
      let s := if q.turn psn = 0 then s.setQp n { q with rpsn := (q.rpsn + q.packetsOf len) % 2 ^ 24 } else s
      match ((s.meet err t).spend 11 len).readMem a len with
      | (.ok bs, s) => s.say (.svcReadData (qpn n) bs)
      | (.detected h x, s) => (s.chargeMem h x t).say (.svcNak (qpn n) 3)

def execSvcRdmaReadRx (q : Fin 4096) (psn : BitVec 24) (rkey : BitVec 32) (a : BitVec 64) (n : BitVec 32) (err : MemErr) (s : State) :
    Host.Outcome State Fault Refusal := .next (s.rdmaRead q psn.toNat rkey.toNat a.toNat n.toNat err)

/-- The collective engine's notice in a SEND of 128 bytes (R374): the packet whose header it carries, and its kind. The header names no
stream, so a chunk's comes with the command. -/
def noticeOf (bs : List Byte) (st : Nat) : Packet × Nat :=
  let h := Packet.ofHeader (bs.take 48)
  let body := ((bs.drop 48).take 64).take h.2
  ({ h.1 with body := body, stream := st }, leNat ((bs.drop 112).take 2))

/-- A T1 queue pair belongs to the collective engine where the fallback table of the plan that a notice names lists it (R373, R374); a
detected error of the table is charged, and the SEND is then no notice. -/
def State.engineQp (s : State) (n : Nat) (p : Packet) : Bool × State :=
  match (s.image 1).plan (p.chunk / 2 ^ 24 % 256) 1 with
  | none => (false, s)
  | some q =>
    if !q.fallback then (false, s)
    else match (s.onBehalf 1).readMem q.fbTab (16 * s.groupSize q.axes) with
      | (.detected h a, s) => (false, (s.colEvent 7 Reg.COL_DET_CNT).chargeMem h a 1)
      | (.ok bs, s) =>
        ((List.range (s.groupSize q.axes)).any (fun j => leNat ((bs.drop (16 * j)).take 3) == qpn n), s)

/-- A chunk notice, a control or a GRANT body of the collective fallback (R373, R374): from here on, what goes back to that sender on that
stream goes by the same queue pair. -/
def State.fallbackNotice (s : State) (n kind : Nat) (p : Packet) : State :=
  let st := if kind = 0 then p.stream else leNat ((p.body.drop 1).take 1)
  let s := match s.collFor p with
    | some (i, c) =>
      if kind = 0 ∧ c.age p = 1 ∧ !c.fbIn.contains (st, p.src, qpn n) then
        s.setColl i { c with fbIn := c.fbIn.filter (fun (x : Nat × Nat × Nat) => !(x.1 == st && x.2.1 == p.src)) ++ [(st, p.src, qpn n)] } else s
    | none => s
  (s.collPacketRx p (decide (kind = 0))).replayEarly

/-- A request on channel 3: a SEND on a T0 queue pair (R515). -/
def State.kprSend (s : State) (n : Nat) (bs : List Byte) : State :=
  if 1024 < bs.length then s.say (.svcNak (qpn n) 1)
  else
    let s := s.say (.svcAck (qpn n))
    if s.fld (Reg.KPR_CH 3) Fld.KPR_CH_BUSY = 1 then s.kprGo 3
    else ({ s.bufPut (Reg.KPR_REQ 3) 0 bs with kprQp := n }).kprGo 3

/-- Whether a landing of a queue pair's SEND waits for a commit pass (R221). -/
def State.sendLandsLater (s : State) (n : Nat) : Bool :=
  (s.liveQp n).any (fun q => q.tenant != 0 && s.landsLater (q.rqDpa + q.received % q.rqEntries * q.rqSize))

/-- SVC_SEND_RX: a SEND fills the next receive buffer and is told to the tenant's event queue; `room` says that the buffer is free; one of
128 bytes on a queue pair of the collective engine is a notice, of stream `st` where it is a chunk's. A buffer whose write meets a detected
error is not filled (log entry 121). -/
def State.sendRx (s : State) (n psn : Nat) (bs : List Byte) (st : Nat) (room ecn : Bool) : State :=
  match s.liveQp n with
  | none => s
  | some q =>
    let buf := q.rqDpa + q.received % q.rqEntries * q.rqSize
    if q.turn psn = 1 then s.say (.svcNak (qpn n) 4)
    else if q.turn psn = 2 then s.say (.svcAck (qpn n))
    else if q.tenant = 0 then (s.received n q bs.length ecn).kprSend n bs
    else if q.rqSize < bs.length then s.say (.svcNak (qpn n) 1)
    else if !room then s.say (.svcNak (qpn n) 0)
    else if !s.regionOk q.tenant buf q.rqSize .fl then s.say (.svcNak (qpn n) 3)
    else match ((s.onBehalf q.tenant).spend 11 bs.length).write buf bs with
      | (some e, s) => (s.chargeMem e.1 e.2 q.tenant).say (.svcNak (qpn n) 3)
      | (none, s) =>
        let s := s.received n { q with received := q.received + 1 } bs.length ecn
        let s := (s.evq q.tenant 7 0 (qpn n)).say (.svcAck (qpn n))
        let x := noticeOf bs st
        if q.tenant ≠ 1 ∨ bs.length ≠ 128 ∨ (x.1.type ≠ 1 ∧ x.1.type ≠ 3) then s
        else
          let e := s.engineQp n x.1
          if e.1 then e.2.fallbackNotice n x.2 x.1 else e.2

def execSvcSendRx (q : Fin 4096) (psn : BitVec 24) (bytes : List Byte) (st : Fin 4) (room ecn : Bool) (s : State) :
    Host.Outcome State Fault Refusal := .next (if s.sendLandsLater q then s else s.sendRx q psn.toNat bytes st room ecn)

/-! ### Rate control (R522) -/

def lineRate : Nat := 800000

/-- SVC_CNP_RX: the rate is cut at most once in 50 µs, never below MIN. -/
def State.cnp (s : State) (n : Nat) : State :=
  let s := s.cnt Reg.SVC_CNP_RX_CNT
  match s.qp n with
  | none => s
  | some q =>
    let due : Bool := match q.cutAt with
      | none => true
      | some t => decide (t + 50000 ≤ s.now)
    if due then
      s.setQp n { q with rate := max (s.fld Reg.SVC_RC Fld.SVC_RC_MIN) (q.rate * s.fld Reg.SVC_RC Fld.SVC_RC_CUT / 256)
                         adds := 0, cutAt := some s.now }
    else s.setQp n { q with adds := 0 }

def execSvcCnpRx (q : Fin 4096) (s : State) : Host.Outcome State Fault Refusal := .next (s.cnp q)

/-- SVC_RATE_TIMER: AI is added; after five additions in a row HAI instead, up to the line rate. -/
def execSvcRateTimer (q : Fin 4096) (s : State) : Host.Outcome State Fault Refusal :=
  .next (match s.qp q with
    | none => s
    | some x =>
      let step := if x.adds < 5 then s.fld Reg.SVC_RC Fld.SVC_RC_AI else s.fld Reg.SVC_RC Fld.SVC_RC_HAI
      s.setQp q { x with rate := min lineRate (x.rate + step), adds := x.adds + 1 })

/-! ### The ports (R518, R533) -/

/-- SVC_PAUSE_RX: discarded and counted. -/
def execSvcPauseRx (p : Fin 2) (s : State) : Host.Outcome State Fault Refusal :=
  .next (s.event (Reg.SVC_STATUS_P p) Fld.SVC_STATUS_P_PAUSE_DROP (Reg.SVC_PAUSE_DROP_CNT p))

/-- SVC_LINK_UP_DOWN: a link comes up only on an enabled port. -/
def execSvcLinkUpDown (p : Fin 2) (up : Bool) (s : State) : Host.Outcome State Fault Refusal :=
  .next (s.setFld (Reg.SVC_STATUS_P p) Fld.SVC_STATUS_P_LINK
    (if up ∧ s.fld (Reg.SVC_CTL p) Fld.SVC_CTL_EN = 1 then 1 else 0))

end Sys2Proof.Machine
end

