-- ==== Sys2Proof/Machine/Registers.lean ====
section
/-!
DEFINITION. Register writes (spec/18_register_map.md R562 to R566; R502 for hosts): which tenant a request acts for, the merge of a
4-byte write, and the effect of the owning chapter, or else the access codes alone.
-/
namespace Sys2Proof

/-- The indexes of a register within its family. -/
def dimsIndex : List (Nat × Nat) → Nat → List Nat
  | [], _ => []
  | (stride, _) :: rest, off => off / stride :: dimsIndex rest (off % stride)

/-- The bits that a write of the other half leaves as they are. -/
def RegDesc.kept (d : RegDesc) : BitVec 64 :=
  d.fields.foldl (fun (acc : BitVec 64) e => match e.2 with
    | .rw => acc ||| Machine.fieldMask e.1
    | .rwl => acc ||| Machine.fieldMask e.1
    | _ => acc) 0

/-- The value that reaches a register: a 4-byte write changes only its half; the high half of a 32-bit register ignores writes; none
where nothing is written (R563). -/
def RegDesc.merged (d : RegDesc) (old : BitVec 64) (high wide : Bool) (v : BitVec 64) : Option (BitVec 64) :=
  if d.width = 32 then (if high then none else some (v &&& 0xFFFFFFFF))
  else if wide then some v
  else if high then some ((old &&& d.kept &&& 0xFFFFFFFF) ||| (v <<< 32))
  else some ((old &&& d.kept &&& 0xFFFFFFFF00000000) ||| (v &&& 0xFFFFFFFF))

namespace Machine

/-! ### Registers whose write does more than its access codes -/

def finOf (n i : Nat) [NeZero n] : Fin n := Fin.ofNat n i



/-- FAB_FENCE_CMD (R344). -/
def State.writeFenceCmd (s : State) (v : BitVec 64) : State :=
  let chip := getField v Fld.FAB_FENCE_CMD_CHIP
  match getField v Fld.FAB_FENCE_CMD_OP with
  | 1 => s.applyFence chip s.chip
  | 2 => (s.setFence chip false).showColls
  | 3 => s.clearFences.showColls
  | _ => s

/-- MOV_PREEMPT_CMD (R264, R278). -/
def State.preemptCmd (s : State) (v : BitVec 64) : State :=
  let t := getField v Fld.MOV_PREEMPT_CMD_TENANT
  match getField v Fld.MOV_PREEMPT_CMD_OP with
  | 1 => s.preemptSave t
  | 2 => s.preemptRestore t
  | 3 => s.preemptPark t
  | 4 => s.preemptUnpark t
  | 5 => s.preemptDiscard t
  | _ => s

/-- MEM_REMAP_CTL (R244). -/
def State.writeRemap (s : State) (v : BitVec 64) : State :=
  let p := getField v Fld.MEM_REMAP_CTL_PC
  let s := s.setFld Reg.MEM_REMAP_CTL Fld.MEM_REMAP_CTL_PC p
  let w : Bool := getField v Fld.MEM_REMAP_CTL_WITHHOLD == 1
  if getField v Fld.MEM_REMAP_CTL_COMMIT = 1 then s.memCommit p w else if w then s.withhold p else s

/-- MEM_BARRIER_CTL: CLEAR first, then RAISE (R412). -/
def State.writeBarrierCtl (s : State) (v : BitVec 64) : State :=
  let s := s.setFld Reg.MEM_BARRIER_CTL Fld.MEM_BARRIER_CTL_AUTO (getField v Fld.MEM_BARRIER_CTL_AUTO)
  let s := if v.getLsbD 2 && s.barrier != 0 && s.t1Clusters.isEmpty then s.clearBarrier else s
  if v.getLsbD 0 then s.raiseBarrier 1 0 else s

/-- KPR_CH_c: the vector, and GO (R516, R532). -/
def State.writeKprCh (s : State) (c : Nat) (v : BitVec 64) : State :=
  let s := s.setFld (Reg.KPR_CH c) Fld.KPR_CH_VECTOR (getField v Fld.KPR_CH_VECTOR)
  if v.getLsbD 0 then s.kprGo c else s

/-- A register of the banks and the mirror, all locked by MEM_BANK_LEN.LOCK (R250). -/
def State.writeBank (s : State) (off : Nat) (v : BitVec 64) : State :=
  if s.fld Reg.MEM_BANK_LEN Fld.MEM_BANK_LEN_LOCK = 1 then s else s.writeCodes off v

/-- The writes of T0 that have an effect of their own: the family's base, and the effect of its indexes and value. -/
def specialWrites : List (Nat × (List Nat → BitVec 64 → State → State)) :=
  let a (i : List Nat) : Nat := i.headD 0
  let b (i : List Nat) : Nat := i.getD 1 0
  [ (Reg.GLB_RESET_CMD, fun _ v s => s.requestReset (ResetReq.mk (getField v Fld.GLB_RESET_CMD_SCOPE) (getField v Fld.GLB_RESET_CMD_INDEX))),
    (Reg.GLB_DEBUG_CTL, fun _ v s => s.writeDebugCtl v),
    (Reg.GLB_PWRDN, fun _ v s => if v.getLsbD 0 then s.powerDown else s),
    (Reg.GLB_UNIT_EPOCH, fun _ v s => s.writeEpoch (v.setWidth 32)),
    (Reg.GLB_UNIT_QUERY, fun _ v s => (s.writeCodes Reg.GLB_UNIT_QUERY v).showQuery),
    (Reg.GLB_ERR_REPORT, fun _ v s => s.charge 8 (v.toNat % 2 ^ 32) 0 0),
    (Reg.GLB_UNIT_CTL, fun _ v s => 
      let s := s.writeCodes Reg.GLB_UNIT_CTL v
      if v.getLsbD 0 then s.declareOffline else s),
    (Reg.HIF_RING_CTL 0, fun i v s => s.writeRingCtl (a i) v),
    (Reg.KPR_CH 0, fun i v s => s.writeKprCh (a i) v),
    (Reg.SEC_CTL, fun _ v s => s.writeSecCtl v),
    (Reg.SEC_POLICY, fun _ v s => if s.secLocked then s else s.writeCodes Reg.SEC_POLICY v),
    (Reg.SEC_EXTEND_CMD, fun _ v s => s.secExtend (v.toNat % 4)),
    (Reg.SEC_OWNER_KEY 0 0, fun i v s => s.writeOwnerKey (a i) (b i) v),
    (Reg.SEC_OWNER_CTL 0, fun i v s => s.writeOwnerKey (a i) 8 v),
    (Reg.CAD_GARM_POS 0, fun i v s => s.writeArmPos 0 (.glob (finOf 64 (a i))) v),
    (Reg.CAD_GARM_CTL 0, fun i v s => s.writeArmCtl 0 (.glob (finOf 64 (a i))) v),
    (Reg.PWR_CTL, fun _ v s => s.writePwrCtl v),
    (Reg.PWR_CAP, fun _ v s => s.writeCap v),
    (Reg.THM_LIMITS, fun _ v s => s.writeLimits v),
    (Reg.TRC_CTL, fun _ v s => s.writeTrcCtl v),
    (Reg.TRC_BASE, fun _ v s => if s.traceOff then s.writeCodes Reg.TRC_BASE v else s),
    (Reg.TRC_SIZE, fun _ v s => if s.traceOff then s.writeCodes Reg.TRC_SIZE v else s),
    (Reg.TRC_DEST, fun _ v s => if s.traceOff then s.writeCodes Reg.TRC_DEST v else s),
    (Reg.TRC_TRIG, fun _ v s => s.writeTrcTrig (v.setWidth 32)),
    (Reg.TRC_RING_CTL 0, fun i v s =>
      let s := s.writeCodes (Reg.TRC_RING_CTL (a i)) v
      if v.getLsbD 11 then s.ringRelease (a i) else s),
    (Reg.CNT_GLB_SEL 0, fun i v s => s.selectCounter (Reg.CNT_GLB_SEL (a i)) (Reg.CNT_GLB (a i)) (v.setWidth 32)),
    (Reg.CNT_SNAP_CTL, fun _ v s =>
      let s := s.writeCodes Reg.CNT_SNAP_CTL v
      if v.getLsbD 5 then s.snapshot 15 false else s),
    (Reg.FAB_FENCE_CMD, fun _ v s => s.writeFenceCmd v),
    (Reg.FAB_DETOUR 0, fun i v s => s.writeDetour (a i) (v.setWidth 32)),
    (Reg.PRT_CTL 0, fun i v s => s.writePrtCtl (a i) v),
    (Reg.PRT_AXIS_MAP, fun _ v s => s.writeAxisMap v),
    (Reg.CNT_PRT_SEL 0 0, fun i v s => s.selectCounter (Reg.CNT_PRT_SEL (a i) (b i)) (Reg.CNT_PRT (a i) (b i)) (v.setWidth 32)),
    (Reg.COL_REDRIVE 0, fun i v s => if v.getLsbD 0 then s.collRedrive (a i) else s),
    (Reg.MEM_CTL 0, fun i v s =>
      let rate := getField v Fld.MEM_CTL_RATE
      s.writeCodes (Reg.MEM_CTL (a i)) (if rate = 3 then putField v Fld.MEM_CTL_RATE (s.fld (Reg.MEM_CTL (a i)) Fld.MEM_CTL_RATE) else v)),
    (Reg.MEM_REMAP_CTL, fun _ v s => s.writeRemap v),
    (Reg.MEM_RSV, fun _ v s => s.writeRsv v),
    (Reg.MEM_BANK_A, fun _ v s => s.writeBank Reg.MEM_BANK_A v),
    (Reg.MEM_BANK_B, fun _ v s => s.writeBank Reg.MEM_BANK_B v),
    (Reg.MEM_MIRROR, fun _ v s => s.writeBank Reg.MEM_MIRROR v),
    (Reg.MEM_MIRROR_LEN, fun _ v s => s.writeBank Reg.MEM_MIRROR_LEN v),
    (Reg.MEM_RGN_W0 0 0, fun i v s => s.writeRgnW0 (a i) (b i) v),
    (Reg.MEM_RGN_W1 0 0, fun i v s => s.writeRgnW1 (a i) (b i) v),
    (Reg.STK_BASE 0, fun i v s => s.writeBasePart (a i) false v),
    (Reg.STK_PART 0, fun i v s => s.writeBasePart (a i) true v),
    (Reg.STK_HWM 0, fun i _ s => s.wr (Reg.STK_HWM (a i)) 0),
    (Reg.STK_KEY_LO 0, fun i v s => s.writeKeyNdi (a i) 0 v),
    (Reg.STK_KEY_HI 0, fun i v s => s.writeKeyNdi (a i) 1 v),
    (Reg.STK_NDI 0, fun i v s => s.writeKeyNdi (a i) 2 v),
    (Reg.STK_DPOS 0, fun i v s => s.writeDpos (a i) v),
    (Reg.STK_SLOT 0, fun i v s => s.writeSlot (a i) v),
    (Reg.MOV_REDRIVE 0, fun i v s => if v.getLsbD 0 then s.redrive (a i) else s),
    (Reg.MOV_TEN_CTL 0, fun i v s => s.writeTenCtl (a i) v),
    (Reg.MOV_CTX_BASE 0, fun i v s => s.writeCtxRegion (a i) false v),
    (Reg.MOV_CTX_SLOT 0, fun i v s => s.writeCtxRegion (a i) true v),
    (Reg.MOV_PREEMPT_CMD, fun _ v s => s.preemptCmd v),
    (Reg.MEM_TWIN_CTL, fun _ v s =>
      let s := s.writeCodes Reg.MEM_TWIN_CTL v
      if v.getLsbD 16 then s.cancelPush else s),
    (Reg.MEM_BARRIER_CTL, fun _ v s => s.writeBarrierCtl v),
    (Reg.MEM_RST_CTL, fun _ v s => s.writeRstCtl v),
    (Reg.MEM_DRAIN_CTL 0, fun i v s => s.writeDrainCtl (a i) v),
    (Reg.MEM_DRAIN_LOCAL 0, fun i v s => s.writeDrain (a i) (Reg.MEM_DRAIN_LOCAL (a i)) v),
    (Reg.MEM_DRAIN_LEN 0, fun i v s => s.writeDrain (a i) (Reg.MEM_DRAIN_LEN (a i)) v),
    (Reg.MEM_DRAIN_REMOTE 0, fun i v s => s.writeDrain (a i) (Reg.MEM_DRAIN_REMOTE (a i)) v),
    (Reg.CLU_RANK_MAP 0, fun i v s => s.writeRankMap (a i) v),
    (Reg.RNK_CTL 0 0, fun i v s => s.writeRnkCtl (a i) (b i) (v.getLsbD 0)),
    (Reg.RNK_SKEW_MAP 0 0, fun i v s => s.writeSkew (a i) (b i) v),
    (Reg.CNT_CLU_SEL 0 0, fun i v s => s.selectCounter (Reg.CNT_CLU_SEL (a i) (b i)) (Reg.CNT_CLU (a i) (b i)) (v.setWidth 32)),
    (Reg.SEQ_CTL 0, fun i v s => s.writeSeqCtl 0 (a i) v),
    (Reg.SEQ_YIELD_GAP_MAX 0, fun i _ s => s.wr (Reg.SEQ_YIELD_GAP_MAX (a i)) 0),
    (Reg.CLU_ARM_POS 0 0, fun i v s => s.writeArmPos 0 (.clu (finOf 64 (a i)) (finOf 64 (b i))) v),
    (Reg.CLU_ARM_CTL 0 0, fun i v s => s.writeArmCtl 0 (.clu (finOf 64 (a i)) (finOf 64 (b i))) v),
    (Reg.MEM_BANK_LEN, fun _ v s => s.writeBank Reg.MEM_BANK_LEN v) ]

/-- T0's write of the register at `slot`, of family `d`. -/
def State.keeperWrite (s : State) (d : RegDesc) (slot : Nat) (v : BitVec 64) : State :=
  match specialWrites.find? (fun e => e.1 == d.base) with
  | some e => e.2 (dimsIndex d.dims (slot - d.base)) v s
  | none => s.writeCodes slot v

/-- What tenants 1 to 3 may write: SEQ_CTL and SEQ_YIELD_GAP_MAX of their clusters, T1 the arms, an owner its slot's key, next-draw
index and data position (R12, R164, R263). -/
def State.tenantWrite (s : State) (t : Nat) (d : RegDesc) (slot : Nat) (v : BitVec 64) : State :=
  let i := dimsIndex d.dims (slot - d.base)
  let a := i.headD 0
  let b := i.getD 1 0
  let own : Bool := s.slotOwner a == t
  if d.base = Reg.SEQ_CTL 0 then s.writeSeqCtl t a v
  else if d.base = Reg.SEQ_YIELD_GAP_MAX 0 then (if s.mayControl t a then s.wr slot 0 else s)
  else if d.base = Reg.CAD_GARM_POS 0 then (if t = 1 then s.writeArmPos 1 (.glob (finOf 64 a)) v else s)
  else if d.base = Reg.CAD_GARM_CTL 0 then (if t = 1 then s.writeArmCtl 1 (.glob (finOf 64 a)) v else s)
  else if d.base = Reg.CLU_ARM_POS 0 0 then (if t = 1 then s.writeArmPos 1 (.clu (finOf 64 a) (finOf 64 b)) v else s)
  else if d.base = Reg.CLU_ARM_CTL 0 0 then (if t = 1 then s.writeArmCtl 1 (.clu (finOf 64 a) (finOf 64 b)) v else s)
  else if d.base = Reg.STK_KEY_LO 0 then (if own then s.writeKeyNdi a 0 v else s)
  else if d.base = Reg.STK_KEY_HI 0 then (if own then s.writeKeyNdi a 1 v else s)
  else if d.base = Reg.STK_NDI 0 then (if own then s.writeKeyNdi a 2 v else s)
  else if d.base = Reg.STK_DPOS 0 then (if own then s.writeDpos a v else s)
  else s

/-! ### Requesters (R502, R563, R564) -/

/-- The registers that a host port writes for itself: SQ, CQ and CTL of its rings, the event-queue registers of its tenants, its
mailbox channel with the request buffer (R502). -/
def State.portsOwn (s : State) (p : Nat) (d : RegDesc) (slot : Nat) : Bool :=
  let a := (dimsIndex d.dims (slot - d.base)).headD 0
  if d.base = Reg.HIF_RING_SQ 0 ∨ d.base = Reg.HIF_RING_CQ 0 ∨ d.base = Reg.HIF_RING_CTL 0 then
    s.ringAssigned a && s.ringPort a == p
  else if d.base = Reg.HIF_EVQ_BASE 0 ∨ d.base = Reg.HIF_EVQ_CTL 0 then s.hostPort (a + 1) == some p
  else if d.base = Reg.KPR_CH 0 ∨ d.base = Reg.KPR_REQ 0 0 then a == p + 1
  else false

/-- A host's write: the port's own registers, else for the tenant of HIF_BAR_TEN_p while it is VALID and bound to the port; a tenant
that is VALID but not bound is a rejected path (R260, R502). -/
def State.hostWrite (s : State) (p : Nat) (d : RegDesc) (slot : Nat) (v : BitVec 64) : State :=
  if s.portsOwn p d slot then s.keeperWrite d slot v
  else if s.fld (Reg.HIF_BAR_TEN p) Fld.HIF_BAR_TEN_VALID = 0 then s
  else
    let t := s.fld (Reg.HIF_BAR_TEN p) Fld.HIF_BAR_TEN_TEN
    if s.bound t p then s.tenantWrite t d slot v else s.pathReject

/-- The status registers and counters that every tenant may read, by family, in the blocks whose other registers only T0 reads: the
global and fault registers, memory, the activation stacks, the movers, the training state, the clusters' own registers, their ranks
and vector engines. -/
def openFamilies : List Nat :=
  [ Reg.GLB_ID, Reg.GLB_BOOT_STATUS, Reg.GLB_STATUS, Reg.GLB_RESET_CNT, Reg.GLB_RESET_REJ_CNT, Reg.GLB_HUNG_CNT, Reg.GLB_HANDOVER_CNT,
    Reg.GLB_KPR_FAILOVER_CNT ] ++
  [ Reg.GLB_RAS_STATUS, Reg.GLB_UNIT_EPOCH, Reg.GLB_CLASS_CNT 0, Reg.GLB_DETECT_CNT, Reg.GLB_TRANSIENT_CNT, Reg.GLB_PERMANENT_CNT,
    Reg.GLB_CONDITIONAL_CNT, Reg.GLB_CONFIRM_CNT, Reg.GLB_UNTESTED_CNT, Reg.GLB_AUDIT_CNT, Reg.GLB_AUDIT_SKIP_CNT,
    Reg.GLB_AUDIT_MISMATCH_CNT, Reg.GLB_SLICE_CNT, Reg.GLB_SLICE_SKIP_CNT, Reg.GLB_RECORD_TX_CNT, Reg.GLB_STALE_CNT, Reg.SEC_SIG_FAIL_CNT ] ++
  [ Reg.MEM_STATUS 0, Reg.MEM_DET_CNT 0, Reg.MEM_WHELD_CNT 0, Reg.MEM_RMW_CNT 0, Reg.MEM_REMAP_STATUS, Reg.MEM_RGN_STATUS, Reg.MEM_LOST_CNT,
    Reg.MEM_REMAP_REJ_CNT, Reg.MEM_RGN_ERR_CNT, Reg.MEM_LAND_ERR_CNT, Reg.MEM_PC_WITHHELD 0, Reg.MEM_PC_RETIRED 0, Reg.MEM_ERR_ADDR 0,
    Reg.MEM_TOP, Reg.STK_HWM 0, Reg.STK_TOP 0 0 ] ++
  [ Reg.MOV_CTL, Reg.MOV_STATUS, Reg.MOV_XFER_CNT, Reg.MOV_CHUNK_CNT, Reg.MOV_RSTOP_CNT, Reg.MOV_DET_CNT, Reg.MOV_PREF_CNT,
    Reg.MOV_PATH_REJ_CNT, Reg.MOV_TEN_IGN_CNT, Reg.MOV_SLOT_IGN_CNT, Reg.MOV_SAVE_CNT, Reg.MOV_SAVE_RETRY_CNT, Reg.MOV_SAVE_FAIL_CNT,
    Reg.MOV_RESTORE_CNT, Reg.MOV_RESTORE_FAIL_CNT, Reg.MOV_PREEMPT_IGN_CNT, Reg.MOV_HELD_SIG_CNT ] ++
  [ Reg.MEM_BANK_STATE 0, Reg.MEM_TWIN_STATUS, Reg.MEM_TWIN_DONE, Reg.MEM_MIRROR_STATE, Reg.MEM_BARRIER_STATUS, Reg.MEM_TS_STATUS,
    Reg.MEM_SEAL_CNT, Reg.MEM_SEAL_ERR_CNT, Reg.MEM_PUSH_CNT, Reg.MEM_PUSH_FAIL_CNT, Reg.MEM_PUSH_SKIP_CNT, Reg.MEM_MIRROR_RX_CNT,
    Reg.MEM_REALIGN_CNT, Reg.MEM_RST_REJ_CNT, Reg.MEM_BARRIER_CNT, Reg.MEM_DRAIN_CNT, Reg.MEM_DRAIN_FAIL_CNT, Reg.MEM_ABANDON_CNT,
    Reg.MEM_RST_STATUS, Reg.MEM_DRAIN_STATUS 0, Reg.MEM_DRAIN_DONE 0, Reg.MEM_DRAIN_DIG_LO 0, Reg.MEM_DRAIN_DIG_HI 0,
    Reg.MEM_DRAIN_DIG_X0 0, Reg.MEM_DRAIN_DIG_X1 0 ] ++
  [ Reg.CLU_BPL_CNT 0, Reg.CLU_MAP_ERR_CNT 0, Reg.CLU_XPOSE_WAIT_CNT 0, Reg.RNK_TILE_CNT 0 0, Reg.RNK_WMISS_CNT 0 0, Reg.RNK_WREPLAY_CNT 0 0,
    Reg.RNK_SSTEP_CNT 0 0, Reg.RNK_SEXH_CNT 0 0, Reg.RNK_BUBBLE_CNT 0 0, Reg.RNK_SLIP_CNT 0 0, Reg.RNK_CHAIN_STALL_CNT 0 0,
    Reg.RNK_DRAIN_STALL_CNT 0 0, Reg.RNK_LIMB_WAIT_CNT 0 0, Reg.RNK_RAMP_CNT 0 0, Reg.RNK_SKEW_ERR_CNT 0 0 ] ++
  [ Reg.VEC_STATUS 0, Reg.VEC_NONFINITE_CNT 0, Reg.VEC_SSTEP_CNT 0, Reg.VEC_SEXH_CNT 0, Reg.VEC_EMPTYROW_CNT 0, Reg.VEC_BPL_CNT 0,
    Reg.VEC_OP_CNT 0, Reg.VEC_GRANULE_REEXEC_CNT 0, Reg.VEC_PORT_WAIT_CNT 0 ]

/-- The blocks whose every register every tenant may read (R285, R341, R379, R438, R479, R533): power and thermal but the energy of R437,
trace and counters, router, ports, collective engine, host interface, mailbox and identity memories, service ports. Here the extents of
R562, and the counters inside a cluster. -/
def openBlock (slot : Nat) : Bool :=
  decide ((0x10000 ≤ slot ∧ slot < 0x30000) ∨ (0x50000 ≤ slot ∧ slot < 0x1F0000) ∨ (0x1800000 ≤ slot ∧ slot < 0x2000000))
    || decide (0x400000 ≤ slot ∧ slot < 0x1400000 ∧ (slot - 0x400000) % 0x40000 / 0x1000 = 9)

/-- Tenant `t` may read the register at `slot` of family `d` (R12, R263, R276, R412, R437, R502, R564). T1 reads every cadence register,
T2 and T3 CAD_POS and CAD_STATUS; a slot's owner its registers, and the tenant named in MOV_STATE_m that mover's. DEDUCED: SEQ_CTL is read
by whoever may write it, since the SEQ block lets every tenant read "the rest" (log entry 139). -/
def State.mayRead (s : State) (t : Nat) (d : RegDesc) (slot : Nat) : Bool :=
  let a := (dimsIndex d.dims (slot - d.base)).headD 0
  if t = 0 then true
  else if d.base = Reg.PWR_ENERGY 0 ∨ d.base = Reg.PWR_ENERGY_UNATTR then false
  else if openBlock slot = true ∨ openFamilies.contains d.base = true then true
  else if d.base = Reg.CAD_POS ∨ d.base = Reg.CAD_STATUS then true
  else if 0x40000 ≤ slot ∧ slot < 0x50000 ∨ d.base = Reg.CLU_ARM_POS 0 0 ∨ d.base = Reg.CLU_ARM_CTL 0 0 then t == 1
  else if d.base = Reg.SEQ_CTL 0 then s.mayStart_ t a
  else if 0x400000 ≤ slot ∧ slot < 0x1400000 ∧ (slot - 0x400000) % 0x40000 / 0x8000 = 2 then true
  else if [Reg.STK_SLOT 0, Reg.STK_KEY_LO 0, Reg.STK_KEY_HI 0, Reg.STK_NDI 0, Reg.STK_DPOS 0, Reg.MEM_SLOT_NDIPOS 0].contains d.base then
    s.slotOwner a == t
  else if [Reg.MOV_STATE 0, Reg.MOV_DONE 0, Reg.MOV_FP 0].contains d.base then
    s.fld (Reg.MOV_STATE a) ⟨12, 2⟩ == t
  else false

/-- What tenant `t` reads at a BAR0 offset: 0 where no register lies or where it may not read (R564). -/
def State.tenantRead (s : State) (t off : Nat) : BitVec 64 :=
  match regAt off with
  | some d => if s.mayRead t d off then s.rd off else 0
  | none => 0

/-- Boot failed in the ROM stage: most reads answer 0 and writes are discarded (R539). -/
def State.romDead (s : State) : Bool :=
  let f := s.fld Reg.GLB_BOOT_STATUS Fld.GLB_BOOT_STATUS_FAIL
  s.fld Reg.GLB_BOOT_STATUS Fld.GLB_BOOT_STATUS_STAGE == 6 && f != 5 && f != 6

/-- What a host read of 8 bytes on port `p` answers (R502, R544): the port's own registers, else the view of the tenant of HIF_BAR_TEN_p
while it is VALID and bound to the port, else 0; a debug window reads 0, a cluster held in reset nothing yet. After a failed ROM stage only GLB_ID
and GLB_BOOT_STATUS answer (R539). -/
def State.hostRegRead (s : State) (p off : Nat) : Option (BitVec 64) :=
  if s.stopped = true ∨ (clusterOfReg off).isSome ∧ clusterOfReg off = s.clusterHeld then none
  else if s.romDead then some (if off = Reg.GLB_ID ∨ off = Reg.GLB_BOOT_STATUS then s.rd off else 0)
  else match regAt off with
  | none => some 0
  | some d =>
    let t := s.fld (Reg.HIF_BAR_TEN p) Fld.HIF_BAR_TEN_TEN
    if s.portsOwn p d off then some (s.rd off)
    else if s.fld (Reg.HIF_BAR_TEN p) Fld.HIF_BAR_TEN_VALID = 1 ∧ s.bound t p = true then some (s.tenantRead t off)
    else some 0

/-- A register write of 4 bytes, or of 8 (`wide`), at a BAR0 offset. One that is not naturally aligned, or at an unpopulated offset, is
discarded; GLB_FENCE_ISSUE acts only on 8 bytes. -/
def State.regWrite (s : State) (req : Requester) (off : Nat) (wide : Bool) (v : BitVec 64) : State :=
  let slot := off / 8 * 8
  if off % (if wide then 8 else 4) ≠ 0 ∨ s.romDead = true ∨ s.stopped = true then s
  else match regAt slot with
    | none => s
    | some d =>
      match d.merged (s.rd slot) (off % 8 == 4) wide v with
      | none => s
      | some x =>
        match req with
        | .host p => if slot = Reg.GLB_FENCE_ISSUE then s else s.hostWrite p d slot x
        | _ =>
          if slot = Reg.GLB_FENCE_ISSUE then
            (if wide then s.issueFence (x.toNat % 2 ^ 15) 1 (x.toNat / 2 ^ 32) else s)
          else s.keeperWrite d slot x

/-- A register write; one into a cluster that is held in reset waits for it (R544, R545). -/
def State.writeAccess (s : State) (req : Requester) (off : BitVec 26) (wide : Bool) (v : BitVec 64) : State :=
  if (clusterOfReg off.toNat).isSome ∧ clusterOfReg off.toNat = s.clusterHeld then
    s.hold (clusterDomain ((clusterOfReg off.toNat).getD 0)) (.regWrite req off wide v)
  else s.regWrite req off.toNat wide v

/-- REGISTER_WRITE. -/
def execRegisterWrite (req : Requester) (off : BitVec 26) (wide : Bool) (v : BitVec 64) (s : State) :
    Host.Outcome State Fault Refusal := .next (s.writeAccess req off wide v)

end Machine
end Sys2Proof
end

