-- ==== Sys2Proof/Machine/MoverChunk.lean ====
section
/-!
DEFINITION. The movers at work (spec/08_movers_tenants_preemption.md R256 to R259, R272; spec/07_memory.md R234 to R237).
-/
namespace Sys2Proof.Machine

/-- Register space takes 8-byte words in ascending order (R563). -/
def State.putRegs (s : State) (off : Nat) : Nat → List Byte → State
  | 0, _ => s
  | n + 1, bs => (s.regWrite .mover off true (BitVec.ofNat 64 (leNat (bs.take 8)))).putRegs (off + 8) n (bs.drop 8)

/-- One piece of a chunk is written: into register space, as a seal request (R388), or into memory. -/
def State.moverWrite (s : State) (r : MovRec) (a : Nat) (bs : List Byte) : WrErr × State :=
  match s.place a with
  | .reg off => (none, s.putRegs off (bs.length / 8) bs)
  | _ =>
    match (if r.tenant = 1 then s.sealTarget a bs.length else none) with
    | some b => (none, s.sealRequest b (leNat bs))
    | none => s.write a bs

/-- The pieces of a chunk are written in order; the first detected error that the writes met. -/
def State.moverPieces (s : State) (r : MovRec) : List (Nat × Nat) → List Byte → WrErr × State
  | [], _ => (none, s)
  | p :: rest, bs =>
    let w := s.moverWrite r p.1 (bs.take p.2)
    let x := w.2.moverPieces r rest (bs.drop p.2)
    (w.1.or x.1, x.2)

/-- After the last posted write of a chunk, a zero-length read goes to each host port it wrote through; its completion is the chunk's
boundary (R256). -/
def State.flushHosts (s : State) (ps : List (Nat × Nat)) : State :=
  [0, 1].foldl (fun (s : State) p => if s.onHost p ps then s.say (.hostFlush p) else s) s

/-- The tenants whose tables check the source and the destination: a stack entry is checked for the owner of its slot (R234). -/
def State.moverTenants (s : State) (r : MovRec) : Nat × Nat :=
  if r.kind = 2 then (r.tenant, s.slotOwner r.slot) else if r.kind = 3 then (s.slotOwner r.slot, r.tenant) else (r.tenant, r.tenant)

/-- The first address of a chunk that its region check refuses (R228, R256). -/
def State.moverRefused (s : State) (r : MovRec) (n : Nat) : Option Nat :=
  let t := s.moverTenants r
  let src := r.srcD.chunkRanges r.done n
  let dst := r.dstD.chunkRanges r.done n
  match src.find? (fun p => !s.regionOk t.1 p.1 p.2 .rd) with
  | some p => some p.1
  | none => (dst.find? (fun p => !s.regionOk t.2 p.1 p.2 .wr)).map (·.1)

/-- REGION_STOP: the stream takes REGION_ASYNC, DONE and FP stay (R272). -/
def State.moverStop (s : State) (m : Nat) (r : MovRec) (dpa : Nat) : State :=
  let s := (s.setMover m { r with state := 3 }).event Reg.MOV_STATUS Fld.MOV_STATUS_REGION Reg.MOV_RSTOP_CNT
  s.fault r.cluster { code := 0x0C, port := portMover, async := true, aux0 := m, pc := r.pc, word := r.word, dpa := dpa }

/-- DETECTED: the sequencer is not faulted; its token waits (R272). -/
def State.moverDetected (s : State) (m : Nat) (r : MovRec) (hbm : Bool) (dpa : Nat) : State :=
  let s := (s.setMover m { r with state := 4 }).event Reg.MOV_STATUS Fld.MOV_STATUS_DET Reg.MOV_DET_CNT
  s.chargeMem hbm dpa r.tenant

/-- The stack engine learns that an entry is written, or read (R237). -/
def State.stackMoved (s : State) (r : MovRec) : State :=
  let k := s.stkPart r.slot r.cluster
  match r.kind with
  | 2 => s.setStkPart r.slot r.cluster { k with writing := k.writing - 1 }
  | 3 => s.setStkPart r.slot r.cluster { k with reading := k.reading - 1 }
  | _ => s

/-- The last boundary is reached: a PUSH writes its trailer, the transfer is counted and journalled, the mover is free and keeps its
fingerprint, and the header token is signalled (R235, R257, R259, R448). -/
def State.moverDone (s : State) (m : Nat) (r : MovRec) : State :=
  let s := ((s.setMover m r).cnt Reg.MOV_XFER_CNT).journalize r
  let s := (s.stackMoved r).freeMover m
  s.signalHeader r.cluster portMover { word := r.word, pc := r.pc } 1

/-- A chunk has moved: DONE and FP go on. The last chunk of a PUSH ends with its trailer; where that write meets a detected error, the
mover stops before the chunk's boundary (R218, R235). -/
def State.moverBoundary (s : State) (m : Nat) (r : MovRec) (n : Nat) (bs : List Byte) : State :=
  let new := { r with done := r.done + n, fp := crc64From r.fp bs }
  let w : WrErr × State := if r.kind = 2 ∧ new.total ≤ new.done then
      s.write (r.stkAddr + trailerLen r.trailer - 64) (leBytes 64 r.trailer.toNat)
    else (none, s)
  match w.1 with
  | some e => w.2.moverDetected m r e.1 e.2
  | none =>
    let s := ((w.2.cnt Reg.MOV_CHUNK_CNT).bumpClu r.cluster 0x11 0 1).bumpGlb 0x0B 0 n
    if new.done < new.total then s.setMover m new else s.moverDone m new

/-- A host port that the chunk reads from, or reads after its posted writes, is not up. -/
def State.moverHostDown (s : State) (r : MovRec) : Bool :=
  (r.readsHost s 0 && s.hostLink.get 0 0 != 2) || (r.readsHost s 1 && s.hostLink.get 0 1 != 2)

/-- MOVER_CHUNK: check, read, write. A PUSH waits for the POPs and PEEKs that still read its partition (R237). -/
def State.moverChunk (s : State) (m : Nat) (err : MemErr) : State :=
  match s.mover m with
  | none => s
  | some r =>
    let n := min 65536 (r.total - r.done)
    if s.stopped = true ∨ r.state ≠ 1 ∨ (r.kind = 2 ∧ (s.stkPart r.slot r.cluster).reading ≠ 0) then s
    else match s.moverRefused r n with
      | some a => s.moverStop m r a
      | none =>
        if s.heldOff (r.srcD.chunkPieces r.done n ++ r.dstD.chunkPieces r.done n) then s
        else if s.moverHostDown r then s.hostReadFails m
        else match ((s.meet err r.tenant).spend 6 n).readPieces (r.srcD.chunkPieces r.done n) with
          | (.detected h a, s) => s.moverDetected m r h a
          | (.ok bs, s) =>
            match s.moverPieces r (r.dstD.chunkPieces r.done n) bs with
            | (some e, s) => s.moverDetected m r e.1 e.2
            | (none, s) => (s.flushHosts (r.dstD.chunkPieces r.done n)).moverBoundary m r n bs

def execMoverChunk (m : Fin 32) (err : MemErr) (s : State) : Host.Outcome State Fault Refusal := .next (s.moverChunk m err)

end Sys2Proof.Machine
end

