-- ==== Sys2Proof/Machine/Askeb.lean ====
section
/-!
DEFINITION. The rows of the port instructions (spec/06_askeb_reference.md R173 to R209): the word is decoded into its port's queue
and, with `go`, the port's heads issue one after another and their unit runs each to its end without errors.
-/
namespace Sys2Proof.Machine

/-- The movers of a cluster's started transfers run chunk by chunk until they stop or complete. -/
def State.runMover : Nat → State → Nat → State
  | 0, s, _ => s
  | n + 1, s, m => State.runMover n (s.moverChunk m .none) m

def State.runMovers (s : State) (c : Nat) : State :=
  let s := s.assignMover
  (s.movers.filter (fun e => e.2.cluster == c && e.2.state == 1)).foldl
    (fun (s : State) e => s.runMover ((e.2.total - e.2.done + 65535) / 65536 + 1) e.1) s

/-- The unit behind a port, taken to the end of what it runs. A granule or a pass that waits for a targeted test stays waiting. -/
def State.runUnit (s : State) (c port : Nat) (e : QEntry) : State :=
  match port with
  | 0 =>
    let r := (s.mmaOf c e).physical s c
    State.runRank (24 * ((s.rk c r).active.foldl (fun n (a : ActiveMma) => n + a.f.tiles) 0) + 24) s c r
  | 1 => match (s.cl c).vec with
    | some j => if j.waiting then s else State.vecRunAll (j.granules + 1) s c
    | none => s
  | 2 => match (s.cl c).cond with
    | some j => if j.waiting then s.runMovers c else (s.condEnd c j false .none).runMovers c
    | none => s.runMovers c
  | _ => s

/-- The head of the port issues, a POP by the stack engine's report, and its unit runs. -/
def State.portTurn (s : State) (c port : Nat) : State :=
  match (s.cl c).queue port with
  | [] => s
  | e :: _ => (if e.op = 0x35 ∧ e.pred = true then s.stackReport c .none else s.issueHead c port 0).runUnit c port e

def State.portTurns : Nat → State → Nat → Nat → State
  | 0, s, _, _ => s
  | n + 1, s, c, port => State.portTurns n (s.portTurn c port) c port

/-- One port instruction of opcode `op`. -/
def State.portInsn (s : State) (c : Nat) (w : BitVec 128) (go : Bool) (op : Nat) : State :=
  let port := (opPort op).getD 0
  let d := s.enqueueInsn c w op
  if go && decide (((s.cl c).queue port).length < ((d.cl c).queue port).length) then
    d.portTurns ((d.cl c).queue port).length c port
  else d

/-- MMA.F (R181): forward product. -/
def execMmaF (c : Fin 64) (w : BitVec 128) (go : Bool) (s : State) : Host.Outcome State Fault Refusal :=
  .next (s.portInsn c w go 0x10)

/-- MMA.DX (R181): data gradient. -/
def execMmaDx (c : Fin 64) (w : BitVec 128) (go : Bool) (s : State) : Host.Outcome State Fault Refusal :=
  .next (s.portInsn c w go 0x11)

/-- MMA.DW (R181): weight gradient. -/
def execMmaDw (c : Fin 64) (w : BitVec 128) (go : Bool) (s : State) : Host.Outcome State Fault Refusal :=
  .next (s.portInsn c w go 0x12)

/-- ACCRD (R209): a tile raw with its status words. -/
def execAccrd (c : Fin 64) (w : BitVec 128) (go : Bool) (s : State) : Host.Outcome State Fault Refusal :=
  .next (s.portInsn c w go 0x73)

/-- VEW (R110). -/
def execVew (c : Fin 64) (w : BitVec 128) (go : Bool) (s : State) : Host.Outcome State Fault Refusal :=
  .next (s.portInsn c w go 0x20)

/-- VACT (R107). -/
def execVact (c : Fin 64) (w : BitVec 128) (go : Bool) (s : State) : Host.Outcome State Fault Refusal :=
  .next (s.portInsn c w go 0x21)

/-- VDACT (R109). -/
def execVdact (c : Fin 64) (w : BitVec 128) (go : Bool) (s : State) : Host.Outcome State Fault Refusal :=
  .next (s.portInsn c w go 0x22)

/-- VNORM (R116). -/
def execVnorm (c : Fin 64) (w : BitVec 128) (go : Bool) (s : State) : Host.Outcome State Fault Refusal :=
  .next (s.portInsn c w go 0x23)

/-- VNORMB (R117). -/
def execVnormb (c : Fin 64) (w : BitVec 128) (go : Bool) (s : State) : Host.Outcome State Fault Refusal :=
  .next (s.portInsn c w go 0x24)

/-- VSMAX (R118). -/
def execVsmax (c : Fin 64) (w : BitVec 128) (go : Bool) (s : State) : Host.Outcome State Fault Refusal :=
  .next (s.portInsn c w go 0x25)

/-- VSMAXB (R119). -/
def execVsmaxb (c : Fin 64) (w : BitVec 128) (go : Bool) (s : State) : Host.Outcome State Fault Refusal :=
  .next (s.portInsn c w go 0x26)

/-- VRED (R113). -/
def execVred (c : Fin 64) (w : BitVec 128) (go : Bool) (s : State) : Host.Outcome State Fault Refusal :=
  .next (s.portInsn c w go 0x27)

/-- VOPT (R125). -/
def execVopt (c : Fin 64) (w : BitVec 128) (go : Bool) (s : State) : Host.Outcome State Fault Refusal :=
  .next (s.portInsn c w go 0x28)

/-- VCONV (R120). -/
def execVconv (c : Fin 64) (w : BitVec 128) (go : Bool) (s : State) : Host.Outcome State Fault Refusal :=
  .next (s.portInsn c w go 0x29)

/-- VRNG (R121). -/
def execVrng (c : Fin 64) (w : BitVec 128) (go : Bool) (s : State) : Host.Outcome State Fault Refusal :=
  .next (s.portInsn c w go 0x2A)

/-- ARGMAX (R208). -/
def execArgmax (c : Fin 64) (w : BitVec 128) (go : Bool) (s : State) : Host.Outcome State Fault Refusal :=
  .next (s.portInsn c w go 0x71)

/-- ARGMIN (R208). -/
def execArgmin (c : Fin 64) (w : BitVec 128) (go : Bool) (s : State) : Host.Outcome State Fault Refusal :=
  .next (s.portInsn c w go 0x72)

/-- MOV (R191). -/
def execMov (c : Fin 64) (w : BitVec 128) (go : Bool) (s : State) : Host.Outcome State Fault Refusal :=
  .next (s.portInsn c w go 0x30)

/-- MOV.C (R192). -/
def execMovC (c : Fin 64) (w : BitVec 128) (go : Bool) (s : State) : Host.Outcome State Fault Refusal :=
  .next (s.portInsn c w go 0x31)

/-- MOV.D (R193). -/
def execMovD (c : Fin 64) (w : BitVec 128) (go : Bool) (s : State) : Host.Outcome State Fault Refusal :=
  .next (s.portInsn c w go 0x32)

/-- PUSH (R195). -/
def execPush (c : Fin 64) (w : BitVec 128) (go : Bool) (s : State) : Host.Outcome State Fault Refusal :=
  .next (s.portInsn c w go 0x34)

/-- POP (R196). -/
def execPop (c : Fin 64) (w : BitVec 128) (go : Bool) (s : State) : Host.Outcome State Fault Refusal :=
  .next (s.portInsn c w go 0x35)

/-- PREF (R197): its entry starts by PREF_ENTRY_START. -/
def execPref (c : Fin 64) (w : BitVec 128) (go : Bool) (s : State) : Host.Outcome State Fault Refusal :=
  .next (s.portInsn c w go 0x36)

/-- SEND (R198). -/
def execSend (c : Fin 64) (w : BitVec 128) (go : Bool) (s : State) : Host.Outcome State Fault Refusal :=
  .next (s.portInsn c w go 0x40)

/-- RECV (R199). -/
def execRecv (c : Fin 64) (w : BitVec 128) (go : Bool) (s : State) : Host.Outcome State Fault Refusal :=
  .next (s.portInsn c w go 0x41)

/-- MCAST (R198). -/
def execMcast (c : Fin 64) (w : BitVec 128) (go : Bool) (s : State) : Host.Outcome State Fault Refusal :=
  .next (s.portInsn c w go 0x43)

/-- COLL (R200). -/
def execColl (c : Fin 64) (w : BitVec 128) (go : Bool) (s : State) : Host.Outcome State Fault Refusal :=
  .next (s.portInsn c w go 0x42)

end Sys2Proof.Machine
end

