-- ==== Sys2Proof/Machine/Flits.lean ====
section
/-!
DEFINITION. Flits on a torus link (spec/09_ploveus_links.md R284 to R290; spec/10_routing.md R317, R318, R321 to R323, R339): replay, acceptance in order, packets taken apart and put together, and what an output sends in each flit slot.
-/
namespace Sys2Proof

namespace Machine

/-! ### The replay buffer (R288, R290) -/

/-- A replay starts from the oldest buffered flit; the eighth in a row without an ACK starts a fast retrain, unless a spare switch runs:
it completes first, and the count starts again (R290, R307). -/
def State.startReplay (s : State) (p : Nat) : State :=
  let l := s.link p
  if l.buf.isEmpty then s
  else
    let s := (s.cnt (Reg.PRT_REPLAY_CNT p)).bumpPrt p 0x0A 0 1
    let s := s.setLink p { l with replay := some 0, esc := l.esc + 1 }
    if l.esc + 1 < 8 then s
    else if l.txSwitch.isSome || l.rxSwitch.isSome then s.modLink p (fun l => { l with esc := 0 })
    else s.startRetrain p

/-- NAK_RX: the flit in progress ends, and every buffered flit after the acknowledged one goes again (R290). -/
def State.nakRx (s : State) (p : Nat) (ack : BitVec 16) (ackv : Bool) : State :=
  if s.linkState p = 5 then (s.takeAck p ack ackv).startReplay p else s

def execNakRx (p : Fin 12) (ack : BitVec 16) (ackv : Bool) (s : State) : Host.Outcome State Fault Refusal :=
  .next (s.nakRx p ack ackv)

/-- REPLAY_TIMEOUT: the ACK has not advanced for PRT_RTT.TIMEOUT while flits are buffered (R290). -/
def State.replayTimeout (s : State) (p : Nat) : State :=
  if s.linkState p ≠ 5 ∨ (s.link p).buf = [] then s else (s.cnt (Reg.PRT_REPLAY_TO_CNT p)).startReplay p

def execReplayTimeout (p : Fin 12) (s : State) : Host.Outcome State Fault Refusal := .next (s.replayTimeout p)

/-- NULL_FLIT_RX: accepted in any order; its ACK frees replay entries (R289). -/
def execNullFlitRx (p : Fin 12) (ack : BitVec 16) (ackv : Bool) (s : State) : Host.Outcome State Fault Refusal :=
  .next (if s.linkState p = 5 then s.takeAck p ack ackv else s)

/-! ### Acceptance (R285, R286, R289) -/

/-- One codeword decoded: its corrected symbols count for their lanes, in the counters and in the window of 2^24 codewords; one with more
than 8 symbols in error counts as uncorrectable (R286, R302, R311, R313, R314). -/
def State.codeword (s : State) (p : Nat) (errs : List (Fin 272)) : State :=
  let l := s.link p
  let l := if l.winWords = 2 ^ 24 then { l with winWords := 0, winCorr := [] } else l
  let fixed := if correctable errs then errs.eraseDups.map (fun j => laneOfSymbol l.rxPos l.rxSym j) else []
  let s := s.setLink p { l with
    rxSym := l.rxSym + 272
    winWords := l.winWords + 1
    winCorr := fixed.foldl (fun t i => t.set 0 i (t.get 0 i + 1)) l.winCorr }
  let s := fixed.foldl (fun (s : State) i =>
    ((s.cnt (Reg.PRT_FEC_CORR_CNT p)).cnt (Reg.PRT_LANE_CORR_CNT p i)).bumpPrt p 9 (i + 1) 1) s
  if correctable errs then s
  else (s.setFld (Reg.PRT_STATUS p) Fld.PRT_STATUS_UNCORR 1).cnt (Reg.PRT_FEC_UNCORR_CNT p)

/-- What the FEC decoder met since the last flit. -/
def State.fecReport (s : State) (p : Nat) (fec : FecReport) : State := fec.foldl (fun (s : State) e => s.codeword p e) s

/-- A receive lane on which FEC corrected more than THRESH symbols within the open window fails (R302). -/
def State.threshFail (s : State) (p : Nat) : State :=
  match (s.link p).winCorr.find? (fun e => decide (s.fld (Reg.PRT_LANE_CTL p) Fld.PRT_LANE_CTL_THRESH < e.2)) with
  | none => s
  | some (lane, _) =>
    (s.modLink p (fun l => { l with winCorr := l.winCorr.erase lane })).laneFail p lane

/-- The first flit of an error episode is answered by one NAK (R289). -/
def State.episode (s : State) (p : Nat) : State :=
  let l := s.link p
  if l.episode then s
  else ((s.setLink p { l with episode := true }).cnt (Reg.PRT_NAK_TX_CNT p)).sendFlit p (.nak l.head)

/-- An accepted flit goes to the router: it takes its place at the input; with its packet's last flit the packet waits for route
selection, or for the credit sink (R317, R322). -/
def State.acceptFlit (s : State) (p : Nat) (f : Flit) : State :=
  let l := s.link p
  let k := f.tc * 16 + f.ch
  let part : Option (Packet × Nat) := match f.hdr with
    | some (q, len) => some ({ q with body := f.bytes }, len)
    | none => (l.parts.get ({}, 0) k |> fun e => if (l.parts.filter (fun x => x.1 == k)).isEmpty then none
        else some ({ e.1 with body := e.1.body ++ f.bytes }, e.2))
  match part with
  | none => s
  | some (q, len) =>
    let s := if q.type = 10 then s else { s with rt := s.rt.hold p f.tc f.ch }
    if q.body.length < len then s.setLink p { l with parts := l.parts.put k (q, len) }
    else
      let s := s.setLink p { l with parts := l.parts.erase k }
      if q.type = 10 then { s with rt := { s.rt with arrived := s.rt.arrived ++ [q] } }
      else { s with rt := { s.rt with rin := s.rt.rin ++ [{ p := q, inPort := p, chan := f.ch, axis := s.role (p / 2) / 2 }] } }

/-- DATA_FLIT_RX: a flit whose CRC fails, whatever its KIND was, or with a reserved KIND is an error; a DATA flit is accepted in order; a
lane over its threshold fails after it (R284, R285, R288, R289, R302). -/
def State.dataFlitRx (s : State) (p : Nat) (f : Flit) (crc : BitVec 32) (fec : FecReport) : State :=
  if s.linkState p ≠ 5 then s
  else
    let s := s.fecReport p fec
    let s :=
      if crc ≠ f.crc ∨ f.kind ≠ 0 then
        ((s.event (Reg.PRT_STATUS p) Fld.PRT_STATUS_CRC (Reg.PRT_CRC_ERR_CNT p)).bumpPrt p 8 0 1).episode p
      else
        let s := s.takeAck p f.ack f.ackv
        let l := s.link p
        let ahead := (f.seq - (l.last + 1)).toNat
        if ahead = 0 then
          let s := s.setLink p { l with last := f.seq, heard := true, episode := false }
          let s := ((s.cnt (Reg.PRT_FLIT_RX_CNT p)).bumpPrt p 3 (f.tc + 1) 1).spendBy 1 10 1
          s.acceptFlit p f
        else if 2 ^ 15 ≤ ahead ∧ l.heard = true then s.cnt (Reg.PRT_DUP_CNT p)
        else s.episode p
    s.threshFail p

def execDataFlitRx (p : Fin 12) (f : Flit) (crc : BitVec 32) (fec : FecReport) (s : State) :
    Host.Outcome State Fault Refusal := .next (s.dataFlitRx p f crc fec)

/-! ### What an output sends (R287, R288, R323, R339) -/

/-- The weight of a class (R344). -/
def State.arbWeight (s : State) (tc : Nat) : Nat :=
  max 1 (s.fld Reg.FAB_ARB (match tc with
    | 0 => Fld.FAB_ARB_W_TC0
    | 1 => Fld.FAB_ARB_W_TC1
    | 3 => Fld.FAB_ARB_W_TC3
    | _ => Fld.FAB_ARB_W_TC4))

/-- The packet that a channel of an output sends: the oldest with flits left, if it has credit for one. -/
def State.sendable (s : State) (p tc ch : Nat) : Option RPkt :=
  match (s.rt.queue p).find? (fun q => q.p.tc == tc && q.outChan == ch && Nat.blt q.sent q.p.flits) with
  | some q => if q.p.type = 10 ∨ 0 < s.rt.credit p tc ch then some q else none
  | none => none

/-- The channel a class sends on next: round robin after the one it used last (R323); TC4 within its rate. -/
def State.pickChan (s : State) (p tc : Nat) : Option (Nat × RPkt) :=
  if tc = 4 ∧ s.rt.tc4.get 0 p < 200 then none
  else
    let lastCh := (s.rt.arb.get {} (p * 8 + tc)).chan
    ((List.range 16).map (fun i => (lastCh + 1 + i) % 16)).findSome? (fun ch => (s.sendable p tc ch).map (fun q => (ch, q)))

/-- The class that sends: TC2 first, the others by weighted round robin; with its record after the turn (R323). -/
def State.pickClass (s : State) (p : Nat) : Option (Nat × Nat × RPkt × Arb) :=
  let a := s.rt.arb.get {} (p * 8 + 5)
  match s.pickChan p 2 with
  | some (ch, q) => some (2, ch, q, a)
  | none =>
    let order := [0, 1, 3, 4]
    let stay := if 0 < a.left then (s.pickChan p a.cls).map (fun x => (a.cls, x.1, x.2, { a with left := a.left - 1 })) else none
    match stay with
    | some r => some r
    | none =>
      let i := (order.findIdx? (· == a.cls)).getD 3
      ((List.range 4).map (fun k => order.getD ((i + 1 + k) % 4) 0)).findSome? (fun tc =>
        (s.pickChan p tc).map (fun x => (tc, x.1, x.2, Arb.mk tc (s.arbWeight tc - 1) 0)))

/-- A DATA flit leaves, first time or replayed. -/
def State.countTx (s : State) (p tc : Nat) : State :=
  let s := ((s.cnt (Reg.PRT_FLIT_TX_CNT p)).bumpPrt p 2 (tc + 1) 1).spendBy 1 10 1
  let s := if tc = 4 then s.bumpGlb 0x0F 0 1 else s
  { s with rt := { s.rt with cong := { s.rt.cong with flits := s.rt.cong.flits.set 0 p (s.rt.cong.flits.get 0 p + 1) } } }

/-- The next flit of a queued packet leaves on its channel: it takes credit, a SEQ and a place in the replay buffer. -/
def State.sendNext (s : State) (p tc ch : Nat) (q : RPkt) (a : Arb) : State :=
  let l := s.link p
  let f := q.p.flit ch q.sent l.next l.last l.heard
  let tail := q.sent + 1 == q.p.flits
  let r := if q.p.type = 10 then s.rt else s.rt.spend p tc ch
  let r := if tail then r.freeCopy q else r
  let q' : RPkt := { q with sent := q.sent + 1, copyOf := if tail then none else q.copyOf }
  let r := { r with
    rout := r.rout.set [] p ((r.queue p).replace q q')
    arb := (r.arb.set (Arb.mk 0 0 0) (p * 8 + 5) a).set (Arb.mk 0 0 0) (p * 8 + tc) (Arb.mk 0 0 ch)
    tc4 := if tc = 4 then r.tc4.set 0 p (r.tc4.get 0 p - 200) else r.tc4 }
  let s := { s with rt := r }.setLink p { l with next := l.next + 1, buf := l.buf ++ [(f, tail)] }
  (s.countTx p tc).sendFlit p (.data f)

/-- A NULL flit (R287). -/
def State.sendNull (s : State) (p : Nat) : State :=
  let l := s.link p
  (s.sendFlit p (.null l.head)).bumpPrt p 4 0 1

/-- FLIT_SLOT: the output replays, sends the flit that arbitration picks while the replay buffer has room, or sends NULL; the link duty
admits DATA in LDUTY of every 16 slots (R287, R288, R323, R339, R424; which of them: DESIGN CHOICE, log entry 123). -/
def State.flitSlot (s : State) (p cycles : Nat) : State :=
  if s.stopped = true ∨ s.linkState p ≠ 5 then s
  else
    let s := s.slotTick p cycles
    let l := s.link p
    if s.fld Reg.PWR_ACTIVE Fld.PWR_ACTIVE_LDUTY ≤ (l.slot - 1) % 16 then s.sendNull p
    else
      match l.replay.bind (fun k => (l.buf[k]?).map (fun e => (k, e.1))) with
      | some (k, f) =>
        let s := s.setLink p { l with replay := if k + 1 < l.buf.length then some (k + 1) else none }
        (s.countTx p f.tc).sendFlit p (.data { f with ack := l.last, ackv := l.heard })
      | none =>
        if 8192 ≤ l.buf.length then s.sendNull p
        else match s.pickClass p with
          | some (tc, ch, q, a) => s.sendNext p tc ch q a
          | none => s.sendNull p

def execFlitSlot (p : Fin 12) (cycles : Nat) (s : State) : Host.Outcome State Fault Refusal := .next (s.flitSlot p cycles)

end Machine
end Sys2Proof
end

