-- ==== Sys2Proof/Machine/Keeper.lean ====
section
/-!
DEFINITION. What the keeper does on request (spec/16_host_service_identity.md R514 to R517, R526, R529) and live update of its firmware
(spec/17_bringup_and_trust.md R549, R557, R558).
-/
namespace Sys2Proof.Machine

/-! ### Serving a request (R515 to R517, R530) -/

def State.kprBusy (s : State) (ch : Nat) : Bool := s.fld (Reg.KPR_CH ch) Fld.KPR_CH_BUSY == 1

/-- The channel waits for a firmware update to be programmed or handed over, or for a crossing. -/
def State.kprWaits (s : State) (ch : Nat) : Bool :=
  s.tr.handover == some ch || s.tr.held.any (fun e => match e.2 with
    | .regRead c => c.val == ch
    | _ => false) || (match s.tr.staged with
    | some st => !st.ready && st.chan == ch
    | none => false)

/-- The request of opcode `op` on channel `ch` is the next to be served: the lowest channel first. After a failed ROM stage no keeper
runs (R539). -/
def State.kprTurn (s : State) (ch op : Nat) : Bool :=
  !s.stopped && !s.romDead && s.kprBusy ch && s.kprOp ch == op && !s.kprWaits ch && (List.range ch).all (fun c => !s.kprBusy c || s.kprWaits c)

def State.kprAdmin (s : State) (ch : Nat) : Bool := (s.rd Reg.KPR_CTL).getLsbD ch

/-- The channels that an operation is allowed on (R517). -/
def State.kprAllowed (s : State) (ch op : Nat) : Bool :=
  match op with
  | 0x01 => true
  | 0x02 => true
  | 0x20 => true
  | 0x03 => ch == 0 || s.kprAdmin ch
  | 0x04 => ch == 0 || s.kprAdmin ch
  | _ => s.kprAdmin ch

/-- A request is served: refused on its channel, or answered by `f`. -/
def State.kprServe (s : State) (ch op : Nat) (f : State → List Byte → State) : State :=
  if !s.kprTurn ch op then s
  else if !s.kprAllowed ch op then s.kprRespond ch 2 []
  else f s (s.kprPayload ch)

def State.regBytes8 (s : State) (rs : List Nat) : List Byte := rs.flatMap (fun r => leBytes 8 (s.rd r).toNat)

/-- The domain that a reset held is ready again: accesses that waited for it complete normally, the writes in order; the other
accesses' own commands go on (R545). -/
def State.restart (s : State) (r : ResetReq) : State :=
  let due := s.tr.held.filter (fun e => r.stops e.1)
  let s := { s with tr := { s.tr with held := s.tr.held.filter (fun e => !r.stops e.1) } }
  due.foldl (fun (s : State) e => match e.2 with
    | .regWrite req off wide v => s.regWrite req off.toNat wide v
    | _ => s) s

/-- RESET_COMPLETE: a warm reset is done when boot ends; a tenant reset once no save of the tenant runs. -/
def State.resetComplete (s : State) : State :=
  match s.reset_ with
  | none => s
  | some r =>
    if r.scope = 1 then (if s.bootStage < 5 then s else s.resetDone)
    else if r.scope = 6 then
      (if (List.range 64).any (fun c => s.ctxState r.index c == 2) then s else (s.resetTenant r.index).resetDone)
    else s.resetDone.restart r

def execResetComplete (s : State) : Host.Outcome State Fault Refusal := .next s.resetComplete

/-- GET_IDENTITY. -/
def execGetIdentity (ch : Fin 4) (s : State) : Host.Outcome State Fault Refusal :=
  .next (s.kprServe ch 0x01 (fun s _ =>
    s.kprRespond ch 0 (s.regBytes8 [Reg.IDM_STATUS, Reg.IDM_BOARD0, Reg.IDM_BOARD1, Reg.IDM_PKG_SERIAL])))

/-- GET_UNITSTATE. -/
def execGetUnitstate (ch : Fin 4) (s : State) : Host.Outcome State Fault Refusal :=
  .next (s.kprServe ch 0x02 (fun s _ => s.kprRespond ch 0 s.unitRecord))

/-- GET_ENERGY. -/
def execGetEnergy (ch : Fin 4) (s : State) : Host.Outcome State Fault Refusal :=
  .next (s.kprServe ch 0x03 (fun s _ =>
    s.kprRespond ch 0 (s.regBytes8 ((List.range 4).map Reg.PWR_ENERGY ++ [Reg.PWR_ENERGY_UNATTR]))))

/-- SET_CAP: the cap is the low 12 bits of the payload. -/
def execSetCap (ch : Fin 4) (s : State) : Host.Outcome State Fault Refusal :=
  .next (s.kprServe ch 0x04 (fun s bs =>
    if bs.length < 2 then s.kprRespond ch 3 []
    else (s.setFld Reg.PWR_CAP Fld.PWR_CAP_CAP (leNat (bs.take 2))).showGrant.kprRespond ch 0 []))

/-- What T0 reads at a BAR0 offset through the mailbox: a register, or a debug window while DBG_WIN is 1, whose contents the spec leaves
open (R564, R567). -/
def State.mailboxRead (s : State) (off : Nat) : BitVec 64 × State :=
  if (regAt off).isSome then (s.rd off, s)
  else if 0x2000000 ≤ off ∧ off < 0x4000000 ∧ s.fld Reg.GLB_DEBUG_CTL Fld.GLB_DEBUG_CTL_DBG_WIN = 1 then s.free
  else (0, s)

/-- REG_READ: the payload is the offset, 8 bytes. -/
def execRegRead (ch : Fin 4) (s : State) : Host.Outcome State Fault Refusal :=
  .next (s.kprServe ch 0x10 (fun s bs =>
    let off := leNat (bs.take 8)
    if bs.length < 8 ∨ off % 8 ≠ 0 then s.kprRespond ch 3 []
    else if (clusterOfReg off).isSome ∧ clusterOfReg off = s.clusterHeld then
      s.hold (clusterDomain ((clusterOfReg off).getD 0)) (.regRead ch)
    else
      let r := s.mailboxRead off
      r.2.kprRespond ch 0 (leBytes 8 r.1.toNat)))

/-- REG_WRITE: the payload is the offset and the value, 8 bytes each; one past BAR0 writes nothing, and one that resets the mailbox leaves
nothing to answer. -/
def execRegWrite (ch : Fin 4) (s : State) : Host.Outcome State Fault Refusal :=
  .next (s.kprServe ch 0x11 (fun s bs =>
    let off := leNat (bs.take 8)
    if bs.length < 16 ∨ off % 8 ≠ 0 then s.kprRespond ch 3 []
    else
      let s := if 2 ^ 26 ≤ off then s
        else s.writeAccess .mailbox (BitVec.ofNat 26 off) true (BitVec.ofNat 64 (leNat ((bs.drop 8).take 8)))
      if s.kprBusy ch then s.kprRespond ch 0 [] else s))

/-- ATTEST. -/
def execAttest (ch : Fin 4) (s : State) : Host.Outcome State Fault Refusal :=
  .next (s.kprServe ch 0x20 (fun s bs =>
    if bs.length ≠ 32 then s.kprRespond ch 3 []
    else
      let r := s.attest bs
      r.2.kprRespond ch 0 r.1))

/-- VERSIONS: the peer's MIN and MAX, two bytes each, MAJOR first; with no common version telemetry pages are not written (R529). -/
def execVersions (ch : Fin 4) (s : State) : Host.Outcome State Fault Refusal :=
  .next (s.kprServe ch 0x30 (fun s bs =>
    let version (i : Nat) : Nat := leNat ((bs.drop i).take 1) * 256 + leNat ((bs.drop (i + 1)).take 1)
    if bs.length < 4 then s.kprRespond ch 3 []
    else
      let ok : Bool := decide (version 0 ≤ 256) && decide (256 ≤ version 2)
      { s with telemetryOff := !ok }.kprRespond ch (if ok then 0 else 3) (leBytes 4 0x00010001)))

/-- REREAD_BOARD: only while every port is disabled (R526). -/
def execRereadBoard (ch : Fin 4) (board : Option (List Byte)) (s : State) : Host.Outcome State Fault Refusal :=
  .next (s.kprServe ch 0x31 (fun s _ =>
    if (List.range 12).any s.portEn then s.kprRespond ch 2 []
    else
      let s := s.checkBoard board
      s.kprRespond ch 0 (s.regBytes8 [Reg.IDM_STATUS])))

/-! ### Firmware update (R549, R557, R558) -/

/-- The answer to FW_UPDATE: any RESULT but OK carries BAD_ARG. -/
def State.fwAnswer (s : State) (ch result : Nat) : State := s.kprRespond ch (if result = 0 then 0 else 3) (leBytes 8 result)

/-- The components of a bundle for STAGE, or the RESULT that refuses it. -/
def State.stageBundle (s : State) (bs : List Byte) : Except Nat (List Component) :=
  match bundleOf 8 bs with
  | some [k, u, l] =>
    match [s.componentCheck 1 k, s.componentCheck 2 u, s.componentCheck 3 l].find? (· ≠ 0) with
    | some e => .error e
    | none => .ok [k.component, u.component, l.component]
  | _ => .error 1

/-- STAGE: the bundle is read and verified; the slot that is not ACTIVE is programmed until FW_STAGE_DONE. -/
def State.fwStage (s : State) (ch dpa len : Nat) : State :=
  if s.tr.staged.any (fun st => !st.ready) then s.kprRespond ch 4 []
  else if !s.tr.standby && !s.bootDead then s.fwAnswer ch 5
  else if len = 0 ∨ 31 * 2 ^ 20 < len ∨ !s.regionOk 0 dpa len .rd then s.fwAnswer ch 1
  else match (s.onBehalf 0).readMem dpa len with
    | (.detected h a, s) => (s.chargeMem h a 0).fwAnswer ch 1
    | (.ok bs, s) =>
      match s.stageBundle bs with
      | .error e => s.fwAnswer ch e
      | .ok cs => { s with tr := { s.tr with staged := some (Staged.mk (1 - s.tr.active) cs ch false) } }

/-- HANDOVER: the channel waits for KEEPER_HANDOVER. -/
def State.fwHandover (s : State) (ch : Nat) : State :=
  if s.tr.handover.isSome then s.kprRespond ch 4 []
  else if s.tr.staged.any (·.ready) then { s with tr := { s.tr with handover := some ch }, fwBeat := false }
  else s.fwAnswer ch 6

/-- COMMIT_SVN: each counter rises to the SVN of the running component of its kind (R549). -/
def State.commitSvn (s : State) : State :=
  [(0, s.tr.keeper.svn), (1, s.tr.ucode.svn), (2, s.tr.linkFw.svn)].foldl (fun (s : State) e =>
    s.setFld Reg.SEC_SVN ⟨16 * e.1, 16⟩ (max (s.minSvn (e.1 + 1)) e.2)) s

/-- The staged update goes away; a channel that waits for it is answered. -/
def State.fwDrop (s : State) (result : Nat) : State :=
  let wait := (match s.tr.staged with
    | some st => if st.ready then [] else [st.chan]
    | none => []) ++ s.tr.handover.toList
  wait.foldl (fun (s : State) c => s.fwAnswer c result) { s with tr := { s.tr with staged := none, handover := none } }

/-- FW_UPDATE. -/
def execFwUpdate (ch : Fin 4) (s : State) : Host.Outcome State Fault Refusal :=
  .next (s.kprServe ch 0x21 (fun s bs =>
    if bs.length < 24 then s.kprRespond ch 3 []
    else match leNat (bs.take 1) with
      | 1 => s.fwStage ch (leNat ((bs.drop 8).take 8)) (leNat ((bs.drop 16).take 8))
      | 2 => s.fwHandover ch
      | 3 => s.commitSvn.fwAnswer ch 0
      | 4 => if s.tr.staged.isSome then (s.fwDrop 6).fwAnswer ch 0 else s.fwAnswer ch 6
      | _ => s.kprRespond ch 3 []))

/-- FW_STAGE_DONE: the slot is programmed, read back and compared, and the standby core runs the new firmware; after a KEEPER-stage
failure the directory names the slot at once, so the next warm reset boots from it (R539). -/
def State.fwStageDone (s : State) (flashOk : Bool) : State :=
  match s.tr.staged with
  | none => s
  | some st =>
    if st.ready then s
    else if !flashOk then ({ s with tr := { s.tr with staged := none } }).fwAnswer st.chan 4
    else if s.bootDead then
      ({ s with tr := { s.tr with staged := none, gen := s.tr.gen + 1, active := st.slot } }).fwAnswer st.chan 0
    else ({ s with tr := { s.tr with staged := some { st with ready := true } } }).fwAnswer st.chan 0

def execFwStageDone (flashOk : Bool) (s : State) : Host.Outcome State Fault Refusal := .next (s.fwStageDone flashOk)

/-- The cores change places: unit states of the new active core and of the other. -/
def State.swapCores (s : State) (newState oldState : Nat) : State :=
  let a := unitId 10 s.tr.core
  let b := unitId 10 (1 - s.tr.core)
  let s := { s with tr := { s.tr with core := 1 - s.tr.core } }
  (s.unitChange a { s.unitOf a with state := oldState } 0 0).unitChange b { s.unitOf b with state := newState } 0 0

/-- KEEPER_HANDOVER: after a beat accepted since HANDOVER while no slice and no restore list ran, or at once with CAD_CTL.EN = 0, the
standby core becomes active, extends M1, and writes the directory. -/
def State.handOver (s : State) : State :=
  match s.tr.handover, s.tr.staged with
  | some ch, some st =>
    if (!s.fwBeat && s.fld Reg.CAD_CTL Fld.CAD_CTL_EN == 1) || !st.ready then s
    else
      let k := st.comps.headD {}
      let s := (s.swapCores 0 5).extend 1 4 0 k k.digest
      let s := { s with tr := { s.tr with keeper := k, gen := s.tr.gen + 1, active := st.slot, staged := none, handover := none } }
      (s.cnt Reg.GLB_HANDOVER_CNT).fwAnswer ch 0
  | _, _ => s

def execKeeperHandover (s : State) : Host.Outcome State Fault Refusal := .next s.handOver

/-- HANDOVER_TIMEOUT: the old core stays active, the directory is unchanged. -/
def execHandoverTimeout (s : State) : Host.Outcome State Fault Refusal :=
  .next (match s.tr.handover with
    | some ch => ({ s with tr := { s.tr with handover := none } }).fwAnswer ch 7
    | none => s)

/-- KEEPER_HEARTBEAT_LOSS: the standby core takes over, and no standby is left; when it fails too, the chip declares itself OFFLINE
(R464). What was staged on the standby core is dropped. -/
def State.keeperLost (s : State) : State :=
  if s.tr.standby then
    ((({ s with tr := { s.tr with standby := false } }).swapCores 1 5).cnt Reg.GLB_KPR_FAILOVER_CNT).fwDrop 5
  else s.declareOffline

def execKeeperHeartbeatLoss (s : State) : Host.Outcome State Fault Refusal := .next s.keeperLost

/-! ### The I3C target (R514) -/

/-- I3C_PRIVATE_WRITE: data at an offset of channel 0's window: the request buffer and KPR_CH_0; the response buffer is read-only. -/
def State.i3cWrite (s : State) (off : Nat) (bs : List Byte) : State :=
  let s := { s with i3c := { s.i3c with offset := off } }
  let req := bs.take (0x400 - off)
  let s := if off < 0x400 then s.bufPut (Reg.KPR_REQ 0) off req else s
  if off ≤ 0x800 ∧ 0x800 < off + bs.length then s.writeKprCh 0 (BitVec.ofNat 64 (leNat ((bs.drop (0x800 - off)).take 4)))
  else s

/-- Bytes of a buffer of 8-byte register words. -/
def State.bufGet (s : State) (reg : Nat → Nat) (off n : Nat) : List Byte :=
  (List.range n).map (fun i => (s.rd (reg ((off + i) / 8))).extractLsb' ((off + i) % 8 * 8) 8)

/-- What a private read of `n` bytes returns, from the offset last written on: request buffer, response buffer, KPR_CH_0, else 0. The
table has no command of it. -/
def State.i3cRead (s : State) (n : Nat) : List Byte :=
  (List.range n).flatMap (fun i =>
    let a := s.i3c.offset + i
    if a < 0x400 then s.bufGet (Reg.KPR_REQ 0) a 1
    else if a < 0x800 then s.bufGet (Reg.KPR_RSP 0) (a - 0x400) 1
    else if a < 0x808 then s.bufGet (fun _ => Reg.KPR_CH 0) (a - 0x800) 1
    else [0])

def execI3cPrivateWrite (off : BitVec 16) (data : List Byte) (s : State) : Host.Outcome State Fault Refusal :=
  .next (s.i3cWrite off.toNat data)

/-- I3C_SETDASA: the static address is 0x30 + MGMT_ADDR. -/
def execI3cSetdasa (sa : BitVec 7) (da : BitVec 7) (s : State) : Host.Outcome State Fault Refusal :=
  .next (if sa.toNat = 0x30 + s.straps ∧ s.i3c.dyn = none then { s with i3c := { s.i3c with dyn := some da.toNat } } else s)

/-- The Provisional ID: manufacturer, part 0x2400, instance MGMT_ADDR. The manufacturer field of the identity memory is open. -/
def State.provisionalId (s : State) : BitVec 48 :=
  BitVec.ofNat 48 (Config.mipiId.toNat * 2 ^ 33 + 0x2400 * 2 ^ 16 + s.straps * 2 ^ 12)

/-- I3C_ENTDAA: a device without a dynamic address takes the one given to its Provisional ID. -/
def execI3cEntdaa (pid : BitVec 48) (da : BitVec 7) (s : State) : Host.Outcome State Fault Refusal :=
  .next (if pid = s.provisionalId ∧ s.i3c.dyn = none then { s with i3c := { s.i3c with dyn := some da.toNat } } else s)

end Sys2Proof.Machine
end

