-- ==== Sys2Proof/Machine/Tap.lean ====
section
/-!
DEFINITION. The test access port (spec/19_package_and_electrical.md R580).
-/
namespace Sys2Proof.Machine

/-- IDCODE: version 1, part number 0x2400, the manufacturer, and bit 0 set as IEEE 1149.1 has it. -/
def tapIdcode : Nat := 0x12400001 + Config.jedecId.toNat * 2

/-- The instruction in force: EXTEST outside a warm reset acts as SAMPLE/PRELOAD, and an unknown code as BYPASS. -/
def State.tapActs (s : State) (code : TapInstr) : TapInstr :=
  match code with
  | .extest => if s.tr.warmHeld then .extest else .sample
  | .other => .bypass
  | x => x

/-- What the selected register shifts out: the identity word, the state of the lands, or the bypass bit captured as 0. -/
def tapOut (code : TapInstr) (pins : Nat) : Nat :=
  match code with
  | .idcode => tapIdcode
  | .sample => pins
  | .extest => pins
  | _ => 0

/-- TEST_ACCESS_PORT_INSTRUCTION: `drive` is what the boundary register drives under EXTEST, `pins` what the lands show. -/
def State.tapRun (s : State) (code : TapInstr) (drive pins : Nat) : State :=
  let t := s.tapActs code
  { s with tap := t, tapDrive := if t = .extest then some drive else none, out := s.out ++ [Msg.tap (tapOut t pins)] }

def execTestAccessPortInstruction (code : TapInstr) (drive pins : Nat) (s : State) : Host.Outcome State Fault Refusal :=
  .next (s.tapRun code drive pins)

end Sys2Proof.Machine
end

