-- ==== Sys2Proof/Machine/Dispatch.lean ====
section
/-!
DEFINITION. Which meaning each command has: one arm per constructor of `Instr`, each a direct call of its own definition.
-/
namespace Sys2Proof.Machine

def exec (i : Instr) (s : State) : Host.Outcome State Fault Refusal :=
  match i with
  | .bootRomStage fl id seed st => Sys2Proof.Machine.execBootRomStage fl id seed st s
  | .bootKeeperStage bundle => Sys2Proof.Machine.execBootKeeperStage bundle s
  | .bootHbmStage ids good => Sys2Proof.Machine.execBootHbmStage ids good s
  | .bootSelftestStage fails => Sys2Proof.Machine.execBootSelftestStage fails s
  | .bootBoardStage board => Sys2Proof.Machine.execBootBoardStage board s
  | .resetWarm by_ ix => Sys2Proof.Machine.execResetWarm by_ ix s
  | .resetCluster by_ ix => Sys2Proof.Machine.execResetCluster by_ ix s
  | .resetRank by_ ix => Sys2Proof.Machine.execResetRank by_ ix s
  | .resetPort by_ ix => Sys2Proof.Machine.execResetPort by_ ix s
  | .resetPseudoChannel by_ ix => Sys2Proof.Machine.execResetPseudoChannel by_ ix s
  | .resetTenant by_ ix => Sys2Proof.Machine.execResetTenant by_ ix s
  | .hungCrossing target source access => Sys2Proof.Machine.execHungCrossing target source access s
  | .glbPwrdnReq by_ => Sys2Proof.Machine.execGlbPwrdnReq by_ s
  | .fwUpdate ch => Sys2Proof.Machine.execFwUpdate ch s
  | .fwStageDone flashOk => Sys2Proof.Machine.execFwStageDone flashOk s
  | .secExtend by_ ix => Sys2Proof.Machine.execSecExtend by_ ix s
  | .secLockWrite by_ v => Sys2Proof.Machine.execSecLockWrite by_ v s
  | .secOwnerKeyWrite by_ k w v => Sys2Proof.Machine.execSecOwnerKeyWrite by_ k w v s
  | .debugCtlWrite by_ v => Sys2Proof.Machine.execDebugCtlWrite by_ v s
  | .registerWrite req off wide v => Sys2Proof.Machine.execRegisterWrite req off wide v s
  | .cadenceFrameRx pos check => Sys2Proof.Machine.execCadenceFrameRx pos check s
  | .beatPacketRx p => Sys2Proof.Machine.execBeatPacketRx p s
  | .armPosWrite by_ a v => Sys2Proof.Machine.execArmPosWrite by_ a v s
  | .armCtlWrite by_ a v => Sys2Proof.Machine.execArmCtlWrite by_ a v s
  | .streamFetch c err => Sys2Proof.Machine.execStreamFetch c err s
  | .portHeadIssue c port waited => Sys2Proof.Machine.execPortHeadIssue c port waited s
  | .mmaF c w go => Sys2Proof.Machine.execMmaF c w go s
  | .mmaDx c w go => Sys2Proof.Machine.execMmaDx c w go s
  | .mmaDw c w go => Sys2Proof.Machine.execMmaDw c w go s
  | .accrd c w go => Sys2Proof.Machine.execAccrd c w go s
  | .rampUp c r => Sys2Proof.Machine.execRampUp c r s
  | .rampDown c r => Sys2Proof.Machine.execRampDown c r s
  | .tileStart c r sampled waited => Sys2Proof.Machine.execTileStart c r sampled waited s
  | .laneAccumulate c r lane ev shared priv => Sys2Proof.Machine.execLaneAccumulate c r lane ev shared priv s
  | .chainRestart c r cycles => Sys2Proof.Machine.execChainRestart c r cycles s
  | .wideningReplay c r waited => Sys2Proof.Machine.execWideningReplay c r waited s
  | .drainBlockRead c r stalled accepted => Sys2Proof.Machine.execDrainBlockRead c r stalled accepted s
  | .emissionPass c r stalled => Sys2Proof.Machine.execEmissionPass c r stalled s
  | .tileComplete c r => Sys2Proof.Machine.execTileComplete c r s
  | .auditCompare c homeBad auditBad thirdBad => Sys2Proof.Machine.execAuditCompare c homeBad auditBad thirdBad s
  | .rankQuiesced c r => Sys2Proof.Machine.execRankQuiesced c r s
  | .rnkCtlWrite by_ c r v => Sys2Proof.Machine.execRnkCtlWrite by_ c r v s
  | .rnkSkewMapWrite by_ c r v => Sys2Proof.Machine.execRnkSkewMapWrite by_ c r v s
  | .cluRankMapWrite by_ c v => Sys2Proof.Machine.execCluRankMapWrite by_ c v s
  | .vew c w go => Sys2Proof.Machine.execVew c w go s
  | .vact c w go => Sys2Proof.Machine.execVact c w go s
  | .vdact c w go => Sys2Proof.Machine.execVdact c w go s
  | .vnorm c w go => Sys2Proof.Machine.execVnorm c w go s
  | .vnormb c w go => Sys2Proof.Machine.execVnormb c w go s
  | .vsmax c w go => Sys2Proof.Machine.execVsmax c w go s
  | .vsmaxb c w go => Sys2Proof.Machine.execVsmaxb c w go s
  | .vred c w go => Sys2Proof.Machine.execVred c w go s
  | .vopt c w go => Sys2Proof.Machine.execVopt c w go s
  | .vconv c w go => Sys2Proof.Machine.execVconv c w go s
  | .vrng c w go => Sys2Proof.Machine.execVrng c w go s
  | .argmax c w go => Sys2Proof.Machine.execArgmax c w go s
  | .argmin c w go => Sys2Proof.Machine.execArgmin c w go s
  | .vecGranule c residue waited err => Sys2Proof.Machine.execVecGranule c residue waited err s
  | .vecGranuleReexec c residue err => Sys2Proof.Machine.execVecGranuleReexec c residue err s
  | .mov c w go => Sys2Proof.Machine.execMov c w go s
  | .movC c w go => Sys2Proof.Machine.execMovC c w go s
  | .conditionerPassEnd c residue err => Sys2Proof.Machine.execConditionerPassEnd c residue err s
  | .movD c w go => Sys2Proof.Machine.execMovD c w go s
  | .movS c w => Sys2Proof.Machine.execMovS c w s
  | .push c w go => Sys2Proof.Machine.execPush c w go s
  | .pop c w go => Sys2Proof.Machine.execPop c w go s
  | .stackEntryReport c err => Sys2Proof.Machine.execStackEntryReport c err s
  | .pref c w go => Sys2Proof.Machine.execPref c w go s
  | .prefEntryStart c => Sys2Proof.Machine.execPrefEntryStart c s
  | .moverChunk m err => Sys2Proof.Machine.execMoverChunk m err s
  | .movRedrive by_ m => Sys2Proof.Machine.execMovRedrive by_ m s
  | .wait c w => Sys2Proof.Machine.execWait c w s
  | .signal c w => Sys2Proof.Machine.execSignal c w s
  | .cwait c w => Sys2Proof.Machine.execCwait c w s
  | .beat c w => Sys2Proof.Machine.execBeat c w s
  | .yieldI c w => Sys2Proof.Machine.execYieldI c w s
  | .fence c w => Sys2Proof.Machine.execFence c w s
  | .fenceRelease c => Sys2Proof.Machine.execFenceRelease c s
  | .loop c w => Sys2Proof.Machine.execLoop c w s
  | .br c w => Sys2Proof.Machine.execBr c w s
  | .stest c w res => Sys2Proof.Machine.execStest c w res s
  | .streamEnd c => Sys2Proof.Machine.execStreamEnd c s
  | .seqStart by_ c sel => Sys2Proof.Machine.execSeqStart by_ c sel s
  | .seqHalt by_ c => Sys2Proof.Machine.execSeqHalt by_ c s
  | .seqResume by_ c => Sys2Proof.Machine.execSeqResume by_ c s
  | .yieldGapMaxWrite by_ c v => Sys2Proof.Machine.execYieldGapMaxWrite by_ c v s
  | .send c w go => Sys2Proof.Machine.execSend c w go s
  | .recv c w go => Sys2Proof.Machine.execRecv c w go s
  | .mcast c w go => Sys2Proof.Machine.execMcast c w go s
  | .transferChunkSend ix k err => Sys2Proof.Machine.execTransferChunkSend ix k err s
  | .coll c w go => Sys2Proof.Machine.execColl c w go s
  | .collChunkSend ix st err => Sys2Proof.Machine.execCollChunkSend ix st err s
  | .collChunkReduce ix st err => Sys2Proof.Machine.execCollChunkReduce ix st err s
  | .partialPacketRx p => Sys2Proof.Machine.execPartialPacketRx p s
  | .collCreditRx p => Sys2Proof.Machine.execCollCreditRx p s
  | .collDoneRx p => Sys2Proof.Machine.execCollDoneRx p s
  | .collRestartRx p => Sys2Proof.Machine.execCollRestartRx p s
  | .collResendRx p => Sys2Proof.Machine.execCollResendRx p s
  | .collRedrive by_ ix => Sys2Proof.Machine.execCollRedrive by_ ix s
  | .packetRoute ix => Sys2Proof.Machine.execPacketRoute ix s
  | .mcReplicate ix => Sys2Proof.Machine.execMcReplicate ix s
  | .packetReroute port => Sys2Proof.Machine.execPacketReroute port s
  | .creditRx port p => Sys2Proof.Machine.execCreditRx port p s
  | .creditReturnTimer port => Sys2Proof.Machine.execCreditReturnTimer port s
  | .dataPacketRx p => Sys2Proof.Machine.execDataPacketRx p s
  | .grantRx p => Sys2Proof.Machine.execGrantRx p s
  | .lengthNoticeRx p => Sys2Proof.Machine.execLengthNoticeRx p s
  | .landedNoticeRx p => Sys2Proof.Machine.execLandedNoticeRx p s
  | .signalPacketRx p => Sys2Proof.Machine.execSignalPacketRx p s
  | .unreachRx p => Sys2Proof.Machine.execUnreachRx p s
  | .fencePacketRx p => Sys2Proof.Machine.execFencePacketRx p s
  | .fenceSet by_ chip => Sys2Proof.Machine.execFenceSet by_ chip s
  | .fenceClear by_ chip => Sys2Proof.Machine.execFenceClear by_ chip s
  | .fenceClearAll by_ => Sys2Proof.Machine.execFenceClearAll by_ s
  | .glbFenceIssue by_ v => Sys2Proof.Machine.execGlbFenceIssue by_ v s
  | .declareOffline by_ => Sys2Proof.Machine.execDeclareOffline by_ s
  | .unitstateRx p => Sys2Proof.Machine.execUnitstateRx p s
  | .glbUnitEpochWrite by_ v => Sys2Proof.Machine.execGlbUnitEpochWrite by_ v s
  | .errReport by_ v => Sys2Proof.Machine.execErrReport by_ v s
  | .fabDetourWrite by_ k v => Sys2Proof.Machine.execFabDetourWrite by_ k v s
  | .congestionIntervalTimeout err => Sys2Proof.Machine.execCongestionIntervalTimeout err s
  | .portEnableWrite by_ p v => Sys2Proof.Machine.execPortEnableWrite by_ p v s
  | .modulePresenceChange p m => Sys2Proof.Machine.execModulePresenceChange p m s
  | .detectDone p m => Sys2Proof.Machine.execDetectDone p m s
  | .equaliseDone p rx tx => Sys2Proof.Machine.execEqualiseDone p rx tx s
  | .alignDone p rx tx => Sys2Proof.Machine.execAlignDone p rx tx s
  | .capsRx p r a => Sys2Proof.Machine.execCapsRx p r a s
  | .capsAckRx p a => Sys2Proof.Machine.execCapsAckRx p a s
  | .pingRx p stamp a => Sys2Proof.Machine.execPingRx p stamp a s
  | .pongRx p stamp rtt a => Sys2Proof.Machine.execPongRx p stamp rtt a s
  | .trainStateTimeout p => Sys2Proof.Machine.execTrainStateTimeout p s
  | .detectRetryTimer p => Sys2Proof.Machine.execDetectRetryTimer p s
  | .dataFlitRx p f crc fec => Sys2Proof.Machine.execDataFlitRx p f crc fec s
  | .nullFlitRx p ack ackv => Sys2Proof.Machine.execNullFlitRx p ack ackv s
  | .nakRx p ack ackv => Sys2Proof.Machine.execNakRx p ack ackv s
  | .replayTimeout p => Sys2Proof.Machine.execReplayTimeout p s
  | .lmfSlot p cycles => Sys2Proof.Machine.execLmfSlot p cycles s
  | .lmfAckRx p num a => Sys2Proof.Machine.execLmfAckRx p num a s
  | .spareReqRx p num lane codeword a => Sys2Proof.Machine.execSpareReqRx p num lane codeword a s
  | .spareSwitchRx p num lane codeword a => Sys2Proof.Machine.execSpareSwitchRx p num lane codeword a s
  | .spareSwitchApply p tx => Sys2Proof.Machine.execSpareSwitchApply p tx s
  | .spareAckRx p num a => Sys2Proof.Machine.execSpareAckRx p num a s
  | .downNoticeRx p a => Sys2Proof.Machine.execDownNoticeRx p a s
  | .laneFail p lane => Sys2Proof.Machine.execLaneFail p lane s
  | .retrainDone p => Sys2Proof.Machine.execRetrainDone p s
  | .lossOfSignal p => Sys2Proof.Machine.execLossOfSignal p s
  | .prtAxisMapWrite by_ v => Sys2Proof.Machine.execPrtAxisMapWrite by_ v s
  | .preemptSave by_ t => Sys2Proof.Machine.execPreemptSave by_ t s
  | .preemptRestore by_ t => Sys2Proof.Machine.execPreemptRestore by_ t s
  | .preemptPark by_ t => Sys2Proof.Machine.execPreemptPark by_ t s
  | .preemptUnpark by_ t => Sys2Proof.Machine.execPreemptUnpark by_ t s
  | .preemptDiscard by_ t => Sys2Proof.Machine.execPreemptDiscard by_ t s
  | .clusterCapture c => Sys2Proof.Machine.execClusterCapture c s
  | .contextSaveDone c t badA badB err => Sys2Proof.Machine.execContextSaveDone c t badA badB err s
  | .contextRestoreDone c t err => Sys2Proof.Machine.execContextRestoreDone c t err s
  | .movTenCtlWrite by_ t v => Sys2Proof.Machine.execMovTenCtlWrite by_ t v s
  | .movCtxRegionWrite by_ t isSlot v => Sys2Proof.Machine.execMovCtxRegionWrite by_ t isSlot v s
  | .stkSlotWrite by_ sl v => Sys2Proof.Machine.execStkSlotWrite by_ sl v s
  | .stkKeyNdiWrite by_ sl reg v => Sys2Proof.Machine.execStkKeyNdiWrite by_ sl reg v s
  | .stkDposWrite by_ sl v => Sys2Proof.Machine.execStkDposWrite by_ sl v s
  | .stkBasePartWrite by_ sl isPart v => Sys2Proof.Machine.execStkBasePartWrite by_ sl isPart v s
  | .stkHwmWrite by_ sl v => Sys2Proof.Machine.execStkHwmWrite by_ sl v s
  | .memRgnW0Write by_ t ix v => Sys2Proof.Machine.execMemRgnW0Write by_ t ix v s
  | .memRgnW1Write by_ t ix v => Sys2Proof.Machine.execMemRgnW1Write by_ t ix v s
  | .memRsvWrite by_ v => Sys2Proof.Machine.execMemRsvWrite by_ v s
  | .memWithhold by_ p => Sys2Proof.Machine.execMemWithhold by_ p s
  | .memCommit by_ p alsoWithhold => Sys2Proof.Machine.execMemCommit by_ p alsoWithhold s
  | .hbmRefresh p bank => Sys2Proof.Machine.execHbmRefresh p bank s
  | .hbmDetectRecovery dpa data code tenant => Sys2Proof.Machine.execHbmDetectRecovery dpa data code tenant s
  | .stageParityRecovery c dpa tenant => Sys2Proof.Machine.execStageParityRecovery c dpa tenant s
  | .targetedTestStart unit => Sys2Proof.Machine.execTargetedTestStart unit s
  | .targetedTestEnd unit res => Sys2Proof.Machine.execTargetedTestEnd unit res s
  | .sliceClusterEnd c tests => Sys2Proof.Machine.execSliceClusterEnd c tests s
  | .sealComplete b => Sys2Proof.Machine.execSealComplete b s
  | .beginRx p => Sys2Proof.Machine.execBeginRx p s
  | .acceptRx p => Sys2Proof.Machine.execAcceptRx p s
  | .refuseRx p => Sys2Proof.Machine.execRefuseRx p s
  | .mirrorChunkRx p => Sys2Proof.Machine.execMirrorChunkRx p s
  | .pushAckRx p => Sys2Proof.Machine.execPushAckRx p s
  | .completeRx p => Sys2Proof.Machine.execCompleteRx p s
  | .abortRx p => Sys2Proof.Machine.execAbortRx p s
  | .pushChunkResendTimer ix => Sys2Proof.Machine.execPushChunkResendTimer ix s
  | .twinCancel by_ => Sys2Proof.Machine.execTwinCancel by_ s
  | .drainGo by_ k v => Sys2Proof.Machine.execDrainGo by_ k v s
  | .storageDrainEnd k qpError err object => Sys2Proof.Machine.execStorageDrainEnd k qpError err object s
  | .barrierRaise by_ => Sys2Proof.Machine.execBarrierRaise by_ s
  | .barrierClear by_ => Sys2Proof.Machine.execBarrierClear by_ s
  | .restoreListGo by_ v => Sys2Proof.Machine.execRestoreListGo by_ v s
  | .restoreListEnd err => Sys2Proof.Machine.execRestoreListEnd err s
  | .avsTelemetryRead rails alerts => Sys2Proof.Machine.execAvsTelemetryRead rails alerts s
  | .estimatorPeriod counts => Sys2Proof.Machine.execEstimatorPeriod counts s
  | .pwrProfileSelect by_ v => Sys2Proof.Machine.execPwrProfileSelect by_ v s
  | .budgetRx p => Sys2Proof.Machine.execBudgetRx p s
  | .brdAlertNChange low => Sys2Proof.Machine.execBrdAlertNChange low s
  | .droopTrip d => Sys2Proof.Machine.execDroopTrip d s
  | .droopClear d => Sys2Proof.Machine.execDroopClear d s
  | .thermalSensorRead ix reading => Sys2Proof.Machine.execThermalSensorRead ix reading s
  | .traceBlockFlush err => Sys2Proof.Machine.execTraceBlockFlush err s
  | .traceBlockRx p err => Sys2Proof.Machine.execTraceBlockRx p err s
  | .traceWatchdog c => Sys2Proof.Machine.execTraceWatchdog c s
  | .trcTrigWrite by_ v => Sys2Proof.Machine.execTrcTrigWrite by_ v s
  | .ringFreeze u => Sys2Proof.Machine.execRingFreeze u s
  | .ringRelease by_ u => Sys2Proof.Machine.execRingRelease by_ u s
  | .trcCtlWrite by_ v => Sys2Proof.Machine.execTrcCtlWrite by_ v s
  | .cntSnapNow by_ err => Sys2Proof.Machine.execCntSnapNow by_ err s
  | .counterSelectWrite by_ k v => Sys2Proof.Machine.execCounterSelectWrite by_ k v s
  | .hostLinkTrainStart p => Sys2Proof.Machine.execHostLinkTrainStart p s
  | .hostLinkDown p => Sys2Proof.Machine.execHostLinkDown p s
  | .hostPortReset p => Sys2Proof.Machine.execHostPortReset p s
  | .bar2Read p off n err => Sys2Proof.Machine.execBar2Read p off n err s
  | .bar2Write p off bytes err => Sys2Proof.Machine.execBar2Write p off bytes err s
  | .hostRingEnable req r v => Sys2Proof.Machine.execHostRingEnable req r v s
  | .sqTailDoorbell p r v width32 => Sys2Proof.Machine.execSqTailDoorbell p r v width32 s
  | .cqHeadDoorbell p r v width32 => Sys2Proof.Machine.execCqHeadDoorbell p r v width32 s
  | .hostCmdFetch r entry => Sys2Proof.Machine.execHostCmdFetch r entry s
  | .hostCmdComplete r cid => Sys2Proof.Machine.execHostCmdComplete r cid s
  | .hostNop r cid => Sys2Proof.Machine.execHostNop r cid s
  | .hostCopyIn r cid => Sys2Proof.Machine.execHostCopyIn r cid s
  | .hostCopyOut r cid => Sys2Proof.Machine.execHostCopyOut r cid s
  | .hostCopyChunk r cid data err => Sys2Proof.Machine.execHostCopyChunk r cid data err s
  | .hostLoadImage r cid img => Sys2Proof.Machine.execHostLoadImage r cid img s
  | .hostStart r cid => Sys2Proof.Machine.execHostStart r cid s
  | .hostSignal r cid => Sys2Proof.Machine.execHostSignal r cid s
  | .hostQpCreate r cid desc => Sys2Proof.Machine.execHostQpCreate r cid desc s
  | .hostQpDestroy r cid => Sys2Proof.Machine.execHostQpDestroy r cid s
  | .hostQpPost r cid err => Sys2Proof.Machine.execHostQpPost r cid err s
  | .hostMkey r cid => Sys2Proof.Machine.execHostMkey r cid s
  | .hostAttest r cid nonce => Sys2Proof.Machine.execHostAttest r cid nonce s
  | .i3cPrivateWrite off data => Sys2Proof.Machine.execI3cPrivateWrite off data s
  | .getIdentity ch => Sys2Proof.Machine.execGetIdentity ch s
  | .getUnitstate ch => Sys2Proof.Machine.execGetUnitstate ch s
  | .getEnergy ch => Sys2Proof.Machine.execGetEnergy ch s
  | .setCap ch => Sys2Proof.Machine.execSetCap ch s
  | .regRead ch => Sys2Proof.Machine.execRegRead ch s
  | .regWrite ch => Sys2Proof.Machine.execRegWrite ch s
  | .attest ch => Sys2Proof.Machine.execAttest ch s
  | .versions ch => Sys2Proof.Machine.execVersions ch s
  | .svcSendRx q psn bytes st room ecn => Sys2Proof.Machine.execSvcSendRx q psn bytes st room ecn s
  | .svcRdmaWriteRx q psn rkey a bytes ecn err => Sys2Proof.Machine.execSvcRdmaWriteRx q psn rkey a bytes ecn err s
  | .svcRdmaReadRx q psn rkey a n err => Sys2Proof.Machine.execSvcRdmaReadRx q psn rkey a n err s
  | .svcReadResponseRx q bytes err => Sys2Proof.Machine.execSvcReadResponseRx q bytes err s
  | .svcAckRx q psn => Sys2Proof.Machine.execSvcAckRx q psn s
  | .svcNakRx q psn kind => Sys2Proof.Machine.execSvcNakRx q psn kind s
  | .flitSlot p cycles => Sys2Proof.Machine.execFlitSlot p cycles s
  | .hostLinkUp p width => Sys2Proof.Machine.execHostLinkUp p width s
  | .freezeDumpDone u err => Sys2Proof.Machine.execFreezeDumpDone u err s
  | .hostReadTimeout p reader => Sys2Proof.Machine.execHostReadTimeout p reader s
  | .evqLostEntry t space => Sys2Proof.Machine.execEvqLostEntry t space s
  | .i3cSetdasa sa da => Sys2Proof.Machine.execI3cSetdasa sa da s
  | .i3cEntdaa pid da => Sys2Proof.Machine.execI3cEntdaa pid da s
  | .rereadBoard ch board => Sys2Proof.Machine.execRereadBoard ch board s
  | .svcRetryTimeout q => Sys2Proof.Machine.execSvcRetryTimeout q s
  | .svcCnpRx q => Sys2Proof.Machine.execSvcCnpRx q s
  | .svcRateTimer q => Sys2Proof.Machine.execSvcRateTimer q s
  | .svcPauseRx p => Sys2Proof.Machine.execSvcPauseRx p s
  | .cadenceInMissingTransition synced => Sys2Proof.Machine.execCadenceInMissingTransition synced s
  | .svcLinkUpDown p up => Sys2Proof.Machine.execSvcLinkUpDown p up s
  | .testAccessPortInstruction code drive pins => Sys2Proof.Machine.execTestAccessPortInstruction code drive pins s
  | .pwrokRise => Sys2Proof.Machine.execPwrokRise s
  | .pwrokFall => Sys2Proof.Machine.execPwrokFall s
  | .warmRstNAssert => Sys2Proof.Machine.execWarmRstNAssert s
  | .resetQueuedStart => Sys2Proof.Machine.execResetQueuedStart s
  | .resetComplete => Sys2Proof.Machine.execResetComplete s
  | .keeperHeartbeatLoss => Sys2Proof.Machine.execKeeperHeartbeatLoss s
  | .keeperHandover => Sys2Proof.Machine.execKeeperHandover s
  | .handoverTimeout => Sys2Proof.Machine.execHandoverTimeout s
  | .moverAssign => Sys2Proof.Machine.execMoverAssign s
  | .unitstatePublishTimer => Sys2Proof.Machine.execUnitstatePublishTimer s
  | .congestionSample => Sys2Proof.Machine.execCongestionSample s
  | .commitPassEnd => Sys2Proof.Machine.execCommitPassEnd s
  | .pushStart => Sys2Proof.Machine.execPushStart s
  | .pushBeginRetryTimer => Sys2Proof.Machine.execPushBeginRetryTimer s
  | .pushTimeout => Sys2Proof.Machine.execPushTimeout s
  | .barrierReached => Sys2Proof.Machine.execBarrierReached s
  | .estimatorRefit => Sys2Proof.Machine.execEstimatorRefit s
  | .poolBudgetRound => Sys2Proof.Machine.execPoolBudgetRound s
  | .stretchEnd => Sys2Proof.Machine.execStretchEnd s
  | .voltageReached => Sys2Proof.Machine.execVoltageReached s
  | .frequencyChange => Sys2Proof.Machine.execFrequencyChange s
  | .thermalCapStep => Sys2Proof.Machine.execThermalCapStep s
  | .traceDrainTake => Sys2Proof.Machine.execTraceDrainTake s
  | .warmRstNRelease => Sys2Proof.Machine.execWarmRstNRelease s

end Sys2Proof.Machine
end

