-- ==== Sys2Proof/WellFormed.lean ====
section
/-!
DEFINITION. Which commands are well formed: header fields within the widths of R318, byte strings of the sizes the spec gives.
-/
namespace Sys2Proof

/-- A packet whose header fields fit their places (R318): LEN is 13 bits, and the mask is 0 without MC. -/
def Packet.wf (p : Packet) : Bool :=
  decide (p.dst < 2 ^ 15) && decide (p.src < 2 ^ 15) && decide (p.tc < 8) && decide (p.type < 16) && decide (p.dclu < 64)
    && decide (p.sclu < 64) && decide (p.plane < 3) && decide (p.hops < 2 ^ 12) && decide (p.tag < 2 ^ 16)
    && decide (p.chunk < 2 ^ 32) && decide (p.offset < 2 ^ 16) && decide (p.body.length < 2 ^ 13) && (p.mc || p.mask == 0)
    && (p.mc == false || p.dst == 0)

/-- The board identity memory holds 64 bytes (R525); none: it does not answer. -/
def boardBytesOk (b : Option (List Byte)) : Bool :=
  match b with
  | some bs => decide (bs.length = 64)
  | none => true

/-- The error that strikes lies at a device physical address. -/
def MemErr.wf : MemErr → Bool
  | .none => true
  | .hbm a _ _ => decide (a < 2 ^ 48)
  | .stage a _ _ => decide (a < 2 ^ 48)

/-- The form of every command. -/
def Instr.wf : Instr → Bool
  | .pwrokRise => true
  | .pwrokFall => true
  | .bootRomStage _ _ _ _ => true
  | .bootKeeperStage _ => true
  | .bootHbmStage ids _ => decide (ids.length = 8)
  | .bootSelftestStage _ => true
  | .bootBoardStage board => boardBytesOk board
  | .warmRstNAssert => true
  | .resetWarm _ _ => true
  | .resetCluster _ _ => true
  | .resetRank _ _ => true
  | .resetPort _ _ => true
  | .resetPseudoChannel _ _ => true
  | .resetTenant _ _ => true
  | .resetQueuedStart => true
  | .resetComplete => true
  | .hungCrossing _ _ _ => true
  | .glbPwrdnReq _ => true
  | .keeperHeartbeatLoss => true
  | .fwUpdate _ => true
  | .fwStageDone _ => true
  | .keeperHandover => true
  | .handoverTimeout => true
  | .secExtend _ _ => true
  | .secLockWrite _ _ => true
  | .secOwnerKeyWrite _ _ _ _ => true
  | .debugCtlWrite _ _ => true
  | .registerWrite _ _ _ _ => true
  | .cadenceFrameRx _ _ => true
  | .beatPacketRx p => p.wf
  | .armPosWrite _ _ _ => true
  | .armCtlWrite _ _ _ => true
  | .streamFetch _ err => err.wf
  | .portHeadIssue _ _ _ => true
  | .mmaF _ _ _ => true
  | .mmaDx _ _ _ => true
  | .mmaDw _ _ _ => true
  | .accrd _ _ _ => true
  | .rampUp _ _ => true
  | .rampDown _ _ => true
  | .tileStart _ _ _ _ => true
  | .laneAccumulate _ _ _ _ _ _ => true
  | .chainRestart _ _ _ => true
  | .wideningReplay _ _ _ => true
  | .drainBlockRead _ _ _ _ => true
  | .emissionPass _ _ _ => true
  | .tileComplete _ _ => true
  | .auditCompare _ _ _ _ => true
  | .rankQuiesced _ _ => true
  | .rnkCtlWrite _ _ _ _ => true
  | .rnkSkewMapWrite _ _ _ _ => true
  | .cluRankMapWrite _ _ _ => true
  | .vew _ _ _ => true
  | .vact _ _ _ => true
  | .vdact _ _ _ => true
  | .vnorm _ _ _ => true
  | .vnormb _ _ _ => true
  | .vsmax _ _ _ => true
  | .vsmaxb _ _ _ => true
  | .vred _ _ _ => true
  | .vopt _ _ _ => true
  | .vconv _ _ _ => true
  | .vrng _ _ _ => true
  | .argmax _ _ _ => true
  | .argmin _ _ _ => true
  | .vecGranule _ _ _ err => err.wf
  | .vecGranuleReexec _ _ err => err.wf
  | .mov _ _ _ => true
  | .movC _ _ _ => true
  | .conditionerPassEnd _ _ err => err.wf
  | .movD _ _ _ => true
  | .movS _ _ => true
  | .push _ _ _ => true
  | .pop _ _ _ => true
  | .stackEntryReport _ err => err.wf
  | .pref _ _ _ => true
  | .prefEntryStart _ => true
  | .moverAssign => true
  | .moverChunk _ err => err.wf
  | .movRedrive _ _ => true
  | .wait _ _ => true
  | .signal _ _ => true
  | .cwait _ _ => true
  | .beat _ _ => true
  | .yieldI _ _ => true
  | .fence _ _ => true
  | .fenceRelease _ => true
  | .loop _ _ => true
  | .br _ _ => true
  | .stest _ _ _ => true
  | .streamEnd _ => true
  | .seqStart _ _ _ => true
  | .seqHalt _ _ => true
  | .seqResume _ _ => true
  | .yieldGapMaxWrite _ _ _ => true
  | .send _ _ _ => true
  | .recv _ _ _ => true
  | .mcast _ _ _ => true
  | .transferChunkSend _ _ err => err.wf
  | .coll _ _ _ => true
  | .collChunkSend _ _ err => err.wf
  | .collChunkReduce _ _ err => err.wf
  | .partialPacketRx p => p.wf
  | .collCreditRx p => p.wf
  | .collDoneRx p => p.wf
  | .collRestartRx p => p.wf
  | .collResendRx p => p.wf
  | .collRedrive _ _ => true
  | .packetRoute _ => true
  | .mcReplicate _ => true
  | .packetReroute _ => true
  | .creditRx _ p => p.wf
  | .creditReturnTimer _ => true
  | .dataPacketRx p => p.wf
  | .grantRx p => p.wf
  | .lengthNoticeRx p => p.wf
  | .landedNoticeRx p => p.wf
  | .signalPacketRx p => p.wf
  | .unreachRx p => p.wf
  | .fencePacketRx p => p.wf
  | .fenceSet _ _ => true
  | .fenceClear _ _ => true
  | .fenceClearAll _ => true
  | .glbFenceIssue _ _ => true
  | .declareOffline _ => true
  | .unitstateRx p => p.wf
  | .unitstatePublishTimer => true
  | .glbUnitEpochWrite _ _ => true
  | .errReport _ _ => true
  | .fabDetourWrite _ _ _ => true
  | .congestionSample => true
  | .congestionIntervalTimeout _ => true
  | .portEnableWrite _ _ _ => true
  | .modulePresenceChange _ _ => true
  | .detectDone _ _ => true
  | .equaliseDone _ _ _ => true
  | .alignDone _ _ _ => true
  | .capsRx _ _ _ => true
  | .capsAckRx _ _ => true
  | .pingRx _ _ _ => true
  | .pongRx _ _ _ _ => true
  | .trainStateTimeout _ => true
  | .detectRetryTimer _ => true
  | .dataFlitRx _ f _ _ => f.kind == 0 || decide (5 ≤ f.kind.toNat)
  | .nullFlitRx _ _ _ => true
  | .nakRx _ _ _ => true
  | .replayTimeout _ => true
  | .lmfSlot _ _ => true
  | .lmfAckRx _ _ _ => true
  | .spareReqRx _ _ _ _ _ => true
  | .spareSwitchRx _ _ _ _ _ => true
  | .spareSwitchApply _ _ => true
  | .spareAckRx _ _ _ => true
  | .downNoticeRx _ _ => true
  | .laneFail _ _ => true
  | .retrainDone _ => true
  | .lossOfSignal _ => true
  | .prtAxisMapWrite _ _ => true
  | .preemptSave _ _ => true
  | .preemptRestore _ _ => true
  | .preemptPark _ _ => true
  | .preemptUnpark _ _ => true
  | .preemptDiscard _ _ => true
  | .clusterCapture _ => true
  | .contextSaveDone _ _ _ _ err => err.wf
  | .contextRestoreDone _ _ err => err.wf
  | .movTenCtlWrite _ _ _ => true
  | .movCtxRegionWrite _ _ _ _ => true
  | .stkSlotWrite _ _ _ => true
  | .stkKeyNdiWrite _ _ _ _ => true
  | .stkDposWrite _ _ _ => true
  | .stkBasePartWrite _ _ _ _ => true
  | .stkHwmWrite _ _ _ => true
  | .memRgnW0Write _ _ _ _ => true
  | .memRgnW1Write _ _ _ _ => true
  | .memRsvWrite _ _ => true
  | .memWithhold _ _ => true
  | .memCommit _ _ _ => true
  | .commitPassEnd => true
  | .hbmRefresh _ bank => decide (bank < 16)
  | .hbmDetectRecovery dpa _ _ _ => decide (dpa < 2 ^ 48)
  | .stageParityRecovery _ dpa _ => decide (dpa < 2 ^ 48)
  | .targetedTestStart _ => true
  | .targetedTestEnd _ _ => true
  | .sliceClusterEnd _ _ => true
  | .sealComplete _ => true
  | .pushStart => true
  | .beginRx p => p.wf
  | .acceptRx p => p.wf
  | .refuseRx p => p.wf
  | .mirrorChunkRx p => p.wf
  | .pushAckRx p => p.wf
  | .completeRx p => p.wf
  | .abortRx p => p.wf
  | .pushChunkResendTimer _ => true
  | .pushBeginRetryTimer => true
  | .pushTimeout => true
  | .twinCancel _ => true
  | .drainGo _ _ _ => true
  | .storageDrainEnd _ _ err _ => err.wf
  | .barrierRaise _ => true
  | .barrierClear _ => true
  | .barrierReached => true
  | .restoreListGo _ _ => true
  | .restoreListEnd err => err.wf
  | .avsTelemetryRead rails alerts => decide (rails.length ≤ 5) && alerts.all (fun r => decide (r < 5))
  | .estimatorPeriod counts => decide (counts.length ≤ 5) && counts.all (fun l => decide (l.length ≤ 12))
  | .estimatorRefit => true
  | .pwrProfileSelect _ _ => true
  | .poolBudgetRound => true
  | .budgetRx p => p.wf
  | .brdAlertNChange _ => true
  | .droopTrip _ => true
  | .droopClear _ => true
  | .stretchEnd => true
  | .voltageReached => true
  | .frequencyChange => true
  | .thermalSensorRead _ _ => true
  | .thermalCapStep => true
  | .traceDrainTake => true
  | .traceBlockFlush _ => true
  | .traceBlockRx p _ => p.wf
  | .traceWatchdog _ => true
  | .trcTrigWrite _ _ => true
  | .ringFreeze _ => true
  | .freezeDumpDone _ _ => true
  | .ringRelease _ _ => true
  | .trcCtlWrite _ _ => true
  | .cntSnapNow _ _ => true
  | .counterSelectWrite _ _ _ => true
  | .hostLinkTrainStart _ => true
  | .hostLinkDown _ => true
  | .hostPortReset _ => true
  | .hostReadTimeout _ _ => true
  | .bar2Read _ _ _ err => err.wf
  | .bar2Write _ _ bytes err => err.wf && decide (bytes.length ≤ 4096)
  | .hostRingEnable _ _ _ => true
  | .sqTailDoorbell _ _ _ _ => true
  | .cqHeadDoorbell _ _ _ _ => true
  | .hostCmdFetch _ _ => true
  | .hostCmdComplete _ _ => true
  | .hostNop _ _ => true
  | .hostCopyIn _ _ => true
  | .hostCopyOut _ _ => true
  | .hostCopyChunk _ _ data err => err.wf && decide (data.length ≤ 65536)
  | .hostLoadImage _ _ _ => true
  | .hostStart _ _ => true
  | .hostSignal _ _ => true
  | .hostQpCreate _ _ _ => true
  | .hostQpDestroy _ _ => true
  | .hostQpPost _ _ err => err.wf
  | .hostMkey _ _ => true
  | .hostAttest _ _ _ => true
  | .evqLostEntry _ _ => true
  | .i3cPrivateWrite _ data => decide (data.length ≤ 65536)
  | .i3cSetdasa _ _ => true
  | .i3cEntdaa _ _ => true
  | .getIdentity _ => true
  | .getUnitstate _ => true
  | .getEnergy _ => true
  | .setCap _ => true
  | .regRead _ => true
  | .regWrite _ => true
  | .attest _ => true
  | .versions _ => true
  | .rereadBoard _ board => boardBytesOk board
  | .svcSendRx _ _ _ _ _ _ => true
  | .svcRdmaWriteRx _ _ _ _ _ _ err => err.wf
  | .svcRdmaReadRx _ _ _ _ _ err => err.wf
  | .svcReadResponseRx _ _ err => err.wf
  | .svcAckRx _ _ => true
  | .svcNakRx _ _ _ => true
  | .svcRetryTimeout _ => true
  | .svcCnpRx _ => true
  | .svcRateTimer _ => true
  | .svcPauseRx _ => true
  | .warmRstNRelease => true
  | .cadenceInMissingTransition _ => true
  | .flitSlot _ _ => true
  | .hostLinkUp _ _ => true
  | .svcLinkUpDown _ _ => true
  | .testAccessPortInstruction _ _ _ => true

end Sys2Proof
end

