-- ==== Sys2Proof/Safety.lean ====
section
/-!
DEFINITION. What counts as a safe state and a safe run, in the terms the statements use: the sparse tables in canonical form, the queue
of commands touched by nothing but the step, and what "unchanged but for" means.
-/
namespace Sys2Proof

namespace Machine

/-- The registers that recording an event may touch whatever the command (R473 to R490): STATE, WRITTEN and LOST of the trace rings, the
flags and counters of lost records and triggers, and the selected event counters. -/
def observes (off : Nat) : Bool :=
  off == 0x60008 || off == 0x60600 || off == 0x60608
    || (Nat.ble 0x60108 off && Nat.blt off 0x60608 && off % 16 == 8)
    || (Nat.ble 0x61008 off && Nat.blt off 0x61208 && off % 16 == 8)
    || (Nat.ble 0x110000 off && Nat.blt off 0x1d0000 && Nat.ble 0x908 ((off - 0x110000) % 0x10000)
        && Nat.blt ((off - 0x110000) % 0x10000) 0xa08 && off % 16 == 8)
    || (Nat.ble 0x400000 off && Nat.ble 0x9008 ((off - 0x400000) % 0x40000)
        && Nat.blt ((off - 0x400000) % 0x40000) 0x9088 && off % 16 == 8)

/-- `t` with the registers, the trace rings and the counts of activity of `s`: recording events and counting activity (R420, R473) go on
whatever the command does. -/
def State.watchOf (t s : State) : State :=
  { t with regs := s.regs, rings := s.rings, pw := { t.pw with acts := s.pw.acts, who := s.pw.who } }

/-- `t` is `s` but for the registers of `e`, and for what recording events touches: the trace rings, the counts of activity, and the
registers of `observes`. Everything else of the state is equal: memory, clusters, ranks, links, queues, messages. -/
structure Near (e : Nat → Prop) (s t : State) : Prop where
  regs : ∀ off, ¬ e off → observes off = false → t.rd off = s.rd off
  rest : t.watchOf s = s

/-- `observes`, and the registers that telling the outside touches: the event queues' indices and their lost count, the state epoch,
GLB_UNIT_QUERY and the count of published records (R462, R469, R512). -/
def notices (off : Nat) : Bool :=
  observes off || off == 0x8010 || off == 0x8018 || off == 0x82a8 || off == 0x10008 || off == 0x10050
    || off == 0x12030 || off == 0x12050 || off == 0x12070

/-- `t` is `s` but for the registers of `e`, and for what telling the outside touches: traces, messages added at the end of `out`,
packets handed to the router, and the event queues of the tenants. -/
structure Noted (e : Nat → Prop) (s t : State) : Prop where
  regs : ∀ off, ¬ e off → notices off = false → t.rd off = s.rd off
  rest : { t.watchOf s with out := s.out, rt := s.rt, evqUsed := s.evqUsed, evqLost := s.evqLost } = s
  said : ∃ l, t.out = s.out ++ l
  sent : ∃ l, t.rt = { s.rt with rin := s.rt.rin ++ l }

/-- A status flag is set, the other bits of its register as before, and its companion counter, 48 bits wide, rises by one (R6). -/
def raised (st : Nat) (f : Field) (ct : Nat) (s t : State) : Prop :=
  t.rd st = putField (s.rd st) f 1 ∧ t.rd ct = putField (s.rd ct) Fld.COUNT (s.fld ct Fld.COUNT + 1)

/-- A counter of 48 bits rises by `n`. -/
def counted (ct n : Nat) (s t : State) : Prop := t.rd ct = putField (s.rd ct) Fld.COUNT (s.fld ct Fld.COUNT + n)

/-- `n` bytes at `a` are whole bursts of populated HBM, no pseudo-channel is retired or withheld, and no checkpoint bank is laid out: a
write there stores its bytes and touches nothing else (R210, R218, R220, R389). -/
def plainHbm (s : State) (a n : Nat) : Prop :=
  a % 64 = 0 ∧ n % 64 = 0 ∧ 0 < n ∧ a + n ≤ s.memTop ∧ s.fld Reg.MEM_BANK_LEN Fld.MEM_BANK_LEN_LEN = 0 ∧
    s.fld Reg.MEM_REMAP_STATUS Fld.MEM_REMAP_STATUS_J = 0 ∧ ∀ i, i < 8 → s.rd (Reg.MEM_PC_WITHHELD i) = 0

/-- The bytes at `a` are `bs`, and every other byte of memory is as it was. -/
def storedAt (a : Nat) (bs : List Byte) (s t : State) : Prop :=
  (∀ i (h : i < bs.length), t.byte (a + i) = bs[i]) ∧ ∀ b, (b < a ∨ a + bs.length ≤ b) → t.byte b = s.byte b

/-- The registers of cluster `c` that its instructions change as they run: the count of instructions, the PC, SEQ_STATUS, the tokens. -/
def seqRegs (c : Nat) (off : Nat) : Prop :=
  off = Reg.SEQ_INSN_CNT c ∨ off = Reg.SEQ_PC c ∨ off = Reg.SEQ_STATUS c ∨ ∃ i, i < 256 ∧ off = Reg.SEQ_TOKEN c i

/-- Decode of cluster `c` is free to take the word `w`, of opcode `op`; it passes checks 1 to 5, its predicate holds and its header wait
is satisfied (R132, R135, R136, R143, R176). -/
structure Ready (s : State) (c : Nat) (w : BitVec 128) (op : Nat) : Prop where
  regs : s.regsWf = true
  can : s.canDecode c w = true
  free : (s.cl c).hold = none
  opcode : bitsOf w 127 120 = op
  sound : s.decodeCheck c w = none
  pred : (s.capture_ c w).pred = true
  header : s.headerOk c (bitsOf w 111 104) = true

/-- The header signal of `w` and its forward overflow no token (R137, R138). -/
def signalFits (s : State) (c : Nat) (w : BitVec 128) : Prop :=
  s.tok c (bitsOf w 103 96) + 2 < 2 ^ 24 ∧ s.tok c (s.fld (Reg.SEQ_TOKEN c (bitsOf w 103 96)) Fld.SEQ_TOKEN_FWD) + 2 < 2 ^ 24

/-- What running an instruction of the sequencer of cluster `c` may touch: the registers of `seqRegs`, the trace, and of the cluster's
record the scalar state, the loops and the return register, the hold of decode, the watchdog and the producers of tokens. -/
structure SeqRan (c : Nat) (s t : State) : Prop where
  regs : ∀ off, ¬ seqRegs c off → observes off = false → t.rd off = s.rd off
  rest : { t.watchOf s with clu := s.clu } = s
  others : ∀ d, d ≠ c → t.cl d = s.cl d
  cluster : { t.cl c with
    sreg := (s.cl c).sreg, preds := (s.cl c).preds, loops := (s.cl c).loops, ret := (s.cl c).ret
    hold := (s.cl c).hold, wdogFired := (s.cl c).wdogFired, prod := (s.cl c).prod } = s.cl c

/-- The rows of the port instructions with their opcodes (R173). -/
def portRows : List (Nat × (Fin 64 → BitVec 128 → Bool → Instr)) :=
  [(0x10, .mmaF), (0x11, .mmaDx), (0x12, .mmaDw), (0x73, .accrd), (0x20, .vew), (0x21, .vact), (0x22, .vdact), (0x23, .vnorm),
   (0x24, .vnormb), (0x25, .vsmax), (0x26, .vsmaxb), (0x27, .vred), (0x28, .vopt), (0x29, .vconv), (0x2A, .vrng), (0x71, .argmax),
   (0x72, .argmin), (0x30, .mov), (0x31, .movC), (0x32, .movD), (0x34, .push), (0x35, .pop), (0x36, .pref), (0x40, .send),
   (0x41, .recv), (0x42, .coll), (0x43, .mcast)]

/-- The port of an opcode, 0 where it has none. -/
def portOf (op : Nat) : Nat := (opPort op).getD 0

/-- `e` stands at the head of a port of a RUNNING sequencer, `rest` behind it; its header wait is satisfied, its predicate holds, and
checks 6 to 13 pass (R136, R143, R176). -/
structure HeadReady (s : State) (c port : Nat) (e : QEntry) (rest : List QEntry) : Prop where
  regs : s.regsWf = true
  runs : s.stopped = false
  queue : (s.cl c).queue port = e :: rest
  running : s.seqState c = 1
  header : s.headerOk c e.wait = true
  pred : e.pred = true
  sound : s.headCheck c e = none

/-- The cluster's record when a head has left its port, at the time `now`. -/
def Cluster.headTaken (k : Cluster) (port now : Nat) (rest : List QEntry) : Cluster :=
  { k.setQueue port rest with headSince := k.headSince.set 0 port 0, headAt := k.headAt.set 0 port (now + 1) }

/-- The cluster's record when a word has joined a port's queue, at the time `now`: the first one there is the port's head. -/
def Cluster.joined (k : Cluster) (port now : Nat) (e : QEntry) : Cluster :=
  { k.setQueue port (k.queue port ++ [e]) with headAt := if (k.queue port).isEmpty then k.headAt.set 0 port (now + 1) else k.headAt }

/-- Nothing that decode is held for is served by the sequencer's going on: no hold, or one of a header wait or a POP. -/
def Cluster.keepsHold (k : Cluster) : Prop := ∀ h, k.hold = some h → h.kind = .header ∨ h.kind = .pop

/-- Nothing that a signal of token `sig` would serve is held, and the token has room for it and is forwarded to no other (R137, R138). -/
def signalPlain (s : State) (c sig : Nat) : Prop :=
  sig < 256 ∧ (s.cl c).keepsHold ∧
    (sig = 0 ∨ s.tok c sig + 1 < 2 ^ 24 ∧ s.fld (Reg.SEQ_TOKEN c sig) Fld.SEQ_TOKEN_FWD = 0)

/-- `t` is `s` once the instruction `q` of a port of cluster `c` has signalled its token, but for the registers of `e` (R137, R476). -/
def Signalled (e : Nat → Prop) (c : Nat) (q : QEntry) (port : Nat) (s t : State) : Prop :=
  (q.sig ≠ 0 → t.tok c q.sig = s.tok c q.sig + 1) ∧
  Near (fun off => e off ∨ q.sig ≠ 0 ∧ off = Reg.SEQ_TOKEN c q.sig)
    (if q.sig = 0 then s else s.modCl c (fun k => { k with prod := k.prod.set 0 q.sig (s.localPeer c port q.pc) })) t

/-! ### Ranks -/

/-- What a rank's feeders have read since has joined its buffers, and a slot of lane 0 has passed (R77, R424). -/
def State.fed (s : State) (c r l shared priv : Nat) : State :=
  let u := s.feed c r l shared priv
  if l = 0 then u.modRk c r (fun k => { k with slot := (k.slot + 1) % 16 }) else u

/-- The clocks run, and `x` of instruction `a` is the first tile that is owed K-steps on lane `l`. -/
structure LaneFirst (s : State) (c r l : Nat) (x : Tile) (a : ActiveMma) : Prop where
  runs : s.stopped = false
  first : (s.rk c r).tiles.find? (fun y => decide (0 < (s.rk c r).owed y l)) = some x
  mma : (s.rk c r).mmaOf x = some a

/-- A K-step has entered lane 0. -/
def Rank.enters (k : Rank) (l : Nat) : Rank := { k with shared := if l = 0 then k.shared - 1 else k.shared }

/-- Lane `l` has taken the K-step of tile `x` that makes it `y`; the private block goes after the last column it serves. -/
def Rank.took (k : Rank) (x y : Tile) (l : Nat) : Rank :=
  { k.setTile x { y with stopAt := none } with
    priv := if x.laneCount l % x.groupLen + 1 = x.groupLen then k.priv.set 0 l (k.priv.get 0 l - 1) else k.priv }

/-- Tile `x` has missed its window and waits for its replay in format `f`; nothing of it stays in the buffers. -/
def Rank.missed (k : Rank) (x : Tile) (f : AccFmt) : Rank :=
  { k.setTile x { x with replay := some f, lanes := [], slots := [], audited := false } with
    tap := k.tapWithout x, shared := 0, priv := [] }

/-- The group of columns that a replaying tile holds is accumulated, and read where the drain reads it, and more columns follow (R52). -/
def Rank.groupDone (k : Rank) (t : Tile) : Bool :=
  !t.waiting && match k.mmaOf t with
    | some a => decide (t.group + t.groupLen < a.f.n) && t.full a && (a.fp8 || a.f.accrd || t.groupRead)
    | none => false

/-- The block that the drain reads next: its tile, instruction, column and number. -/
def Rank.nextOut (k : Rank) : Option (Tile × ActiveMma × Nat × Nat) :=
  k.tiles.findSome? (fun (t : Tile) => match k.mmaOf t with
    | some a => (t.nextBlock a).map (fun x => (t, a, x))
    | none => none)

/-- The FP8 tile whose emission pass is next, the drain's buffer being empty. -/
def Rank.nextPass (k : Rank) : Option (Tile × ActiveMma) :=
  k.tiles.findSome? (fun (t : Tile) => match k.mmaOf t with
    | some a => if a.fp8 && t.final a && !t.emitted && (!t.audited || t.auditDone) && k.out.isEmpty then some (t, a) else none
    | none => none)

/-- The tile whose output is done. -/
def Rank.nextDone (k : Rank) : Option (Tile × ActiveMma) :=
  k.tiles.findSome? (fun (t : Tile) => match k.mmaOf t with
    | some a => if t.outputDone a then some (t, a) else none
    | none => none)

/-- The audited tile of the cluster that both ranks have accumulated. -/
def State.auditAt (s : State) (c : Nat) : Option (Nat × ActiveMma × Tile) :=
  (List.range 13).findSome? (fun r => (s.rk c r).tiles.findSome? (fun (t : Tile) => match (s.rk c r).mmaOf t with
    | some a => if t.audited && !t.auditDone && t.full a then some (r, a, t) else none
    | none => none))

/-! ### Collectives -/

/-- The counted chunk that a reduction unit takes next on stream `st`: its sender, sequence number and kind (R360). -/
def State.nextChunk (s : State) (c : Coll) (st : Nat) : Option (Nat × Nat × CItem) :=
  (s.upstream c st).findSome? (fun n => match (s.recvs c st n)[c.eaten.get 0 (ckey st n)]? with
    | some r => if c.counted.contains (st, n, r.1) && (decide (r.2.kind = 1 ∨ 3 ≤ r.2.kind ∧ r.2.kind ≤ 5)
        || c.levelOf r.2.kind r.2.shard r.2.chunk == s.levelAt c r.2.stage) then some (n, r) else none
    | none => none)

/-! ### Packets -/

/-- The packet may go by adaptive routing: plane 0, a class that does, from an adaptive channel or a local port (R325). -/
def State.adaptive (s : State) (q : RPkt) : Prop :=
  q.p.plane = 0 ∧ s.fld Reg.FAB_CTL Fld.FAB_CTL_ADAPT_EN = 1 ∧ q.p.tc ≠ 4 ∧ (q.chan < 2 ∨ q.chan = 16)

/-- The ports of every productive direction (R324). -/
def State.towards (s : State) (q : RPkt) : List Nat := ([0, 1, 2].flatMap (s.productive s.chip q.p.dst)).flatMap s.cands

/-- Those of them with credit for the whole packet on channel 0 or 1 (R325). -/
def State.roomy (s : State) (q : RPkt) : List Nat :=
  (s.towards q).filter (fun p => decide (q.p.flits ≤ s.rt.creditLeft p q.p.tc 0) || decide (q.p.flits ≤ s.rt.creditLeft p q.p.tc 1))

/-- The clocks run, and the `i`-th waiting packet is `q`, a unicast packet that is well formed, for another chip that is not fenced, and has
hops left (R319, R324, R329, R336). -/
structure Routable (s : State) (i : Nat) (q : RPkt) : Prop where
  runs : s.stopped = false
  here : s.rt.rin[i]? = some q
  single : q.p.mc = false
  sound : q.p.malformed = false
  alive : s.fenced q.p.dst = false
  hops : q.hops < 256
  away : ([0, 1, 2].flatMap (s.productive s.chip q.p.dst)) ≠ []

/-! ### Fences -/

/-- What a fence bit newly set for `chip` ends: the chip's own state where it names itself, packets, pushes, transfers and collectives that
wait for it; with AUTO a chip of the job raises the barrier (R335, R336, R399, R464). -/
def State.fenceReaches (u : State) (chip : Nat) : State :=
  let v := ((((if chip = u.chip then u.chipState 4 else u).dropFenced chip).pushesFenced chip).xfersFenced chip).collsFenced chip
  if v.fld Reg.MEM_BARRIER_CTL Fld.MEM_BARRIER_CTL_AUTO = 1 ∧ v.inJob chip = true then v.raiseBarrier 0 chip else v

/-- Nothing of this chip waits for `chip`: no packet, no push or fill, no transfer, no collective, and no barrier with AUTO. -/
structure FenceAlone (s : State) (chip : Nat) : Prop where
  other : chip ≠ s.chip
  packets : ∀ q ∈ s.rt.rin, q.p.mc = true ∨ q.p.dst ≠ chip
  twin : s.twin ≠ chip
  fill : ∀ f, s.fill = some f → f.sender ≠ chip
  sends : ∀ x ∈ s.txs, ∀ d ∈ x.dests, d.chip ≠ chip
  receives : ∀ x ∈ s.rxs, x.src ≠ chip
  groups : ∀ i c, s.coll i = some c → chip ∉ s.group c
  auto : s.fld Reg.MEM_BARRIER_CTL Fld.MEM_BARRIER_CTL_AUTO = 0 ∨ s.inJob chip = false

/-! ### Links -/

/-- The port is DOWN: its lanes are off, its link starts anew, and its packets wait to be routed again, those with a flit the peer has not
acknowledged counted; of the rest only the registers of `e`, unit states and notices differ (R306, R330). -/
def wentDown (e : Nat → Prop) (p : Nat) (s t : State) : Prop :=
  t.linkState p = 0 ∧ t.fld (Reg.PRT_STATUS p) Fld.PRT_STATUS_HOLD = 0 ∧ t.fld (Reg.PRT_STATUS p) Fld.PRT_STATUS_DOWN = 1 ∧
    counted (Reg.PRT_DOWN_CNT p) 1 s t ∧ counted (Reg.PRT_RETURN_CNT p) ((s.returned p).filter (·.1)).length s t ∧
    t.txLanes p = [] ∧ t.rxLanes p = [] ∧ t.link p = { module := (s.link p).module, retrains := (s.link p).retrains } ∧
    t.rt.queue p = (s.returned p).map (fun x => { x.2 with sent := 0 }) ∧ (∀ q, q ≠ p → t.rt.queue q = s.rt.queue q) ∧
    t.rt.arrived = s.rt.arrived ∧
    Noted (fun off => e off ∨ off = Reg.PRT_STATUS p ∨ off = Reg.PRT_LANES p ∨ off = Reg.PRT_DOWN_CNT p ∨ off = Reg.PRT_RETURN_CNT p)
      { s with links := t.links, rt := t.rt, units := t.units, lastChange := t.lastChange } t

/-- The port is HELD with `cause`: its lanes are off and its link starts anew; of the rest as `wentDown` (R293). -/
def heldWith (e : Nat → Prop) (p cause : Nat) (s t : State) : Prop :=
  t.linkState p = 7 ∧ t.fld (Reg.PRT_STATUS p) Fld.PRT_STATUS_HOLD = cause ∧ t.fld (Reg.PRT_STATUS p) Fld.PRT_STATUS_HELD = 1 ∧
    counted (Reg.PRT_HOLD_CNT p) 1 s t ∧ t.txLanes p = [] ∧ t.rxLanes p = [] ∧
    t.link p = { module := (s.link p).module, retrains := (s.link p).retrains } ∧ (∀ q, q ≠ p → t.rt.queue q = s.rt.queue q) ∧
    t.rt.arrived = s.rt.arrived ∧
    Noted (fun off => e off ∨ off = Reg.PRT_STATUS p ∨ off = Reg.PRT_LANES p ∨ off = Reg.PRT_HOLD_CNT p)
      { s with links := t.links, rt := t.rt, units := t.units, lastChange := t.lastChange } t

/-- Nothing waits for a beat: no arm is enabled, no decode is held, the congestion pages and the phase map are off. -/
def calm (s : State) : Prop :=
  (∀ a ∈ allArms, s.fld a.ctl Fld.CAD_GARM_CTL_ACTION = 0) ∧ (∀ c, c < 64 → (s.cl c).hold = none) ∧
    s.fld Reg.FAB_CPAGE_CTL Fld.FAB_CPAGE_CTL_EN = 0 ∧ s.fld Reg.PWR_CTL Fld.PWR_CTL_PHASE_MAP_EN = 0

/-- Registers outside `except` read as before. -/
def regsKept (except : Nat → Prop) (s t : State) : Prop := ∀ off, ¬ except off → t.rd off = s.rd off

/-- Every byte of memory outside `except` reads as before. -/
def memKept (except : Nat → Prop) (s t : State) : Prop := ∀ a, ¬ except a → t.byte a = s.byte a

/-- The records of every cluster but `c` are as before. -/
def clustersKept (c : Nat) (s t : State) : Prop := ∀ d, d ≠ c → t.cl d = s.cl d

/-! ### Pre-emption and the stacks -/

/-- A request that is not permitted: RESULT 4, counted, and nothing else (R264). -/
def refused (t c : Nat) (s u : State) : Prop :=
  u.fld (Reg.MOV_CTX_STATUS t c) Fld.MOV_CTX_STATUS_RESULT = 4 ∧ counted Reg.MOV_PREEMPT_IGN_CNT 1 s u ∧
    Near (fun off => off = Reg.MOV_CTX_STATUS t c ∨ off = Reg.MOV_PREEMPT_IGN_CNT) s u

/-- Each cluster of the mask that may be asked is asked, each other one is refused, and the clusters outside the mask are as before (R264,
R265). -/
def requested (park : Bool) (t : Nat) (s u : State) : Prop :=
  (∀ c, c < 64 → c ∈ s.preemptMask → s.requestOk t c = true → u.ctxState t c = 1 ∧
    u.cl c = { s.cl c with requested := true, parkReq := park, reqTenant := t }) ∧
  (∀ c, c < 64 → c ∈ s.preemptMask → s.requestOk t c = false →
    u.fld (Reg.MOV_CTX_STATUS t c) Fld.MOV_CTX_STATUS_RESULT = 4 ∧ u.ctxState t c = s.ctxState t c ∧ u.cl c = s.cl c) ∧
  (∀ c, c < 64 → c ∉ s.preemptMask → u.rd (Reg.MOV_CTX_STATUS t c) = s.rd (Reg.MOV_CTX_STATUS t c) ∧ u.cl c = s.cl c) ∧
  counted Reg.MOV_PREEMPT_IGN_CNT (s.preemptMask.filter (fun c => !s.requestOk t c)).length s u ∧
  Near (fun off => off = Reg.MOV_PREEMPT_IGN_CNT ∨ ∃ c, c < 64 ∧ off = Reg.MOV_CTX_STATUS t c) { s with clu := u.clu } u

/-- The context that `u` held of tenant `t` on cluster `c` is SAVED in slot `k` with `seq`, and the sequencer is IDLE (R268, R270). -/
def savedAs (t c k seq : Nat) (u x : State) : Prop :=
  x.ctxState t c = 3 ∧ x.seqState c = 0 ∧ x.fld (Reg.MOV_CTX_STATUS t c) Fld.MOV_CTX_STATUS_RESULT = k ∧
    x.fld (Reg.MOV_CTX_STATUS t c) Fld.MOV_CTX_STATUS_NEWEST = k ∧
    x.fld (Reg.MOV_CTX_STATUS t c) Fld.MOV_CTX_STATUS_SEQ = seq % 2 ^ Fld.MOV_CTX_STATUS_SEQ.width ∧
    x.saved = u.saved.put (t * 64 + c) { clu := u.ctxCluster c, regs := u.ctxRegs c
                                         fault := if (u.ctxCluster c).before = 4 then u.newestFault c else []
                                         stk := (u.slotsOf t).map (fun sl => (sl, u.rd (Reg.STK_TOP sl c), u.stkPart sl c)) } ∧
    x.cl c = { (u.ctxCluster c).vacated with saveSeqs := (u.ctxCluster c).saveSeqs.set 0 t seq } ∧
    (∀ e ∈ x.movers, e.2.cluster ≠ c) ∧ counted Reg.MOV_SAVE_CNT 1 u x ∧ x.mem = u.mem ∧ clustersKept c u x

/-- A POP stands at the head of the mover port of a RUNNING sequencer; its header wait is satisfied, every PUSH before it has written its
trailer, and no mover has been asked for yet (R236, R237). -/
structure PopReady (s : State) (c : Nat) (e : QEntry) (rest : List QEntry) : Prop where
  queue : (s.cl c).movQ = e :: rest
  pop : e.op = 0x35
  pred : e.pred = true
  running : s.seqState c = 1
  written : (s.stkPart e.slot c).writing = 0
  unasked : s.headReqWaits c = false
  header : s.headerOk c e.wait = true

/-! ### Packets handed over, commands, requests -/

/-- One packet more among those the chip itself hands to its router; the router is otherwise as it was. -/
def handed (p : Packet) (s t : State) : Prop := t.rt = { s.rt with rin := s.rt.rin ++ [({ p := p } : RPkt)] }

/-- The control packet of a push (R393). -/
def mirrorCtl (s : State) (dst tag kind reason value : Nat) : Packet :=
  { dst := dst, src := s.chip, tc := 3, type := 2, tag := tag % 2 ^ 16, offset := 0xFF00
    body := leBytes 1 kind ++ leBytes 1 reason ++ leBytes 6 0 ++ leBytes 8 value }

/-- The command with CID `cid` that ring `r` has fetched is `c`, of opcode `op`; it has no result yet, may start, and its tenant is bound to the
ring's port (R505, R509). -/
structure CmdReady (s : State) (r cid op : Nat) (c : HostCmd) : Prop where
  here : s.hostCmd r cid = some c
  opcode : c.opcode = op
  running : c.result = none
  may : s.mayStart r cid = true
  bound : s.ringBound r = true

/-- That command is done with STATUS and DETAIL, and every other command stands as it was. -/
def cmdEnded (r cid : Nat) (c : HostCmd) (status detail : Nat) (s t : State) : Prop :=
  t.hostCmd r cid = some { c with started := true, result := some (status, detail), order := s.nextOrder r } ∧
    ∀ q k, ¬ (q = r ∧ k = cid) → t.hostCmd q k = s.hostCmd q k

/-- The command is done with STATUS and DETAIL, and nothing but the commands of the rings has changed. -/
def cmdDone (r cid : Nat) (c : HostCmd) (status detail : Nat) (s t : State) : Prop :=
  cmdEnded r cid c status detail s t ∧ t = { s with hostCmds := t.hostCmds }

/-- The command with CID `cid` of ring `r` has started. -/
def State.cmdBegun (s : State) (r cid : Nat) : State :=
  { s with hostCmds := s.hostCmds.map (fun (x : HostCmd) => if x.ring = r ∧ x.cid = cid then { x with started := true } else x) }

/-- A copy of ring `r` has moved on: its fingerprint and the bytes done. -/
def State.cmdMoved (s : State) (r cid done : Nat) (fp : BitVec 64) : State :=
  { s with hostCmds := s.hostCmds.map (fun (x : HostCmd) => if x.ring = r ∧ x.cid = cid then { x with fp := fp, done := done } else x) }

/-- Byte `i` of a buffer of register words. -/
def bufByte (s : State) (buf : Nat → Nat) (i : Nat) : Nat := (s.rd (buf (i / 8))).toNat / 2 ^ (8 * (i % 8)) % 256

/-- The keeper has answered channel `ch`: header and payload in the response buffer, BUSY clear, DONE set, the request counted, DENIED shown,
one announcement to the requester; of the rest only the registers of `e` may differ (R516, R517). -/
def answered (e : Nat → Prop) (ch status : Nat) (payload : List Byte) (s t : State) : Prop :=
  (∀ i, bufByte t (Reg.KPR_RSP ch) i = bufByte s (Reg.KPR_REQ ch) i ∨ 4 ≤ i) ∧
  (∀ i, 4 ≤ i → i < 8 → bufByte t (Reg.KPR_RSP ch) i =
    if i = 4 then payload.length % 256 else if i = 5 then payload.length / 256 % 256 else if i = 6 then status else 0) ∧
  (∀ i (h : i < payload.length), i < 1016 → bufByte t (Reg.KPR_RSP ch) (8 + i) = payload[i].toNat) ∧
  t.fld (Reg.KPR_CH ch) Fld.KPR_CH_BUSY = 0 ∧ t.fld (Reg.KPR_CH ch) Fld.KPR_CH_DONE = 1 ∧ counted Reg.KPR_REQ_CNT 1 s t ∧
  (status = 2 → raised Reg.KPR_STATUS Fld.KPR_STATUS_DENIED Reg.KPR_DENIED_CNT s t) ∧
  (ch = 0 → t.out = s.out ++ [.ibi 1]) ∧ (ch = 1 ∨ ch = 2 → t.out = s.out ++ [.msix (ch - 1) (s.fld (Reg.KPR_CH ch) Fld.KPR_CH_VECTOR)]) ∧
  (ch = 3 → ∃ bs, t.out = s.out ++ [.svcSend (0x10000 + s.kprQp) bs] ∧ bs.length = 8 + payload.length) ∧
  Near (fun o => e o ∨ (∃ i, i < 128 ∧ o = Reg.KPR_RSP ch i) ∨ o = Reg.KPR_CH ch ∨ o = Reg.KPR_REQ_CNT ∨
    status = 2 ∧ (o = Reg.KPR_STATUS ∨ o = Reg.KPR_DENIED_CNT)) { s with out := t.out } t

/-- The request on channel `ch` is of opcode `op`, its turn has come, and its operation is allowed there (R516, R517, R530). -/
structure Asked (s : State) (ch op : Nat) : Prop where
  turn : s.kprTurn ch op = true
  allowed : s.kprAllowed ch op = true

/-- The command `i` runs on `s` and answers a next state of which `P` holds. -/
def Completes (i : Instr) (s : State) (P : State → Prop) : Prop := ∃ t, exec i s = .next t ∧ P t

/-- A step that answers a next state: nothing stops the block. -/
def safeStep (s : State) : Prop := ∃ t, step s = .next t

end Machine
end Sys2Proof
end

