-- ==== Sys2Proof/Certificates/Slice0/Obligations.lean ====
section
/-!
DEFINITION. The statements about the block, grouped by family of commands. A completion statement says that a command answers a next state and
what that state holds; `Near` and `Noted` (Sys2Proof/Safety.lean) are its frame: what stays as it was. `s.regsWf` and `s.memWf` are the
canonical forms that InvariantKept shows every step keeps.
-/
open Sys2Proof Sys2Proof.Machine

/-! ### The whole machine -/

/-- The canonical forms of memory and registers hold after reset, and nothing waits in the queue (R565; the forms are the model's). -/
def Obligations.ResetCanonical : Prop :=
  State.reset.memWf = true ∧ State.reset.regsWf = true ∧ State.reset.pending = [] ∧ State.reset.mem = [] ∧
    ∀ off, State.reset.rd off = regReset off

/-- Every step from a state in canonical form answers a state in canonical form, whatever command stands in front and whatever its
operands; it takes exactly that command from the queue, and never gives back a free value it has used. -/
def Obligations.InvariantKept : Prop :=
  ∀ s t : State, s.memWf = true → s.regsWf = true → step s = .next t →
    t.memWf = true ∧ t.regsWf = true ∧ t.pending = s.pending.tail ∧ s.freeIx ≤ t.freeIx

/-- A step with a command in front runs that command on the state with the rest of the queue, for every command and state (log entry 1). -/
def Obligations.StepRunsFrontCommand : Prop :=
  ∀ (s : State) (c : Instr) (rest : List Instr), step { s with pending := c :: rest } = exec c { s with pending := rest }

/-- Nothing stops the block: a step from any state answers a next state. -/
def Obligations.NothingStopsTheBlock : Prop := ∀ s : State, safeStep s

/-- On an empty queue the block's clock goes on: CAD_TSC counts one period of 1 GHz; while the clocks run, a global counter set to core
cycles takes the whole core cycles of that nanosecond, the rest of a cycle being kept; with PWROK low nothing changes
(spec/01_execution_contract.md, after R24; that the tick is what an empty queue does is the model's choice, log entry 2). -/
def Obligations.IdleTick : Prop :=
  ∀ s : State, s.regsWf = true → s.pending = [] →
    (s.tr.powered = true → s.pw.tripOut = false → ∃ t, step s = .next t ∧ t.rd Reg.CAD_TSC = s.rd Reg.CAD_TSC + 1 ∧
      (∀ g, g < 32 → s.fld (Reg.CNT_GLB_SEL g) Fld.CNT_GLB_SEL_SRC = 2 → t.fld (Reg.CNT_GLB g) Fld.CNT_GLB_COUNT =
        (s.fld (Reg.CNT_GLB g) Fld.CNT_GLB_COUNT + (s.pw.coreRem + s.coreMHz) / 1000) % 2 ^ 48) ∧
      Near (· = Reg.CAD_TSC) { s with pw := { s.pw with coreRem := (s.pw.coreRem + s.coreMHz) % 1000 } } t) ∧
    (s.tr.powered = true → s.pw.tripOut = true → ∃ t, step s = .next t ∧ t.rd Reg.CAD_TSC = s.rd Reg.CAD_TSC + 1 ∧
      Near (· = Reg.CAD_TSC) s t) ∧
    (s.tr.powered = false → step s = .next s)

/-! ### Power, boot and resets (spec/17_bringup_and_trust.md) -/

/-- Power and the reset pin. PWROK rising is the cold reset: every register but SEC_SVN at its reset value, nothing in memory, no stream,
no transfer; PWROK falling loses the same and stops the block; WARM_RST_N low keeps HBM, CAD_TSC and SEC_SVN and shows BUSY; its release
lets boot go on; GLB_PWRDN.REQ of T0 publishes OFFLINE, tells the peer of every ACTIVE port and sets SAFE; HUNG_CROSSING keeps the access
pending, writes both domain IDs into GLB_HUNG_INFO, sets GLB_STATUS.HUNG and counts (R536, R537, R540, R545, R549). -/
def Obligations.PowerCommands : Prop :=
  (∀ s : State, Completes .pwrokRise s (fun t => t.pending = s.pending ∧ t.mem = [] ∧ t.clu = [] ∧ t.rank = [] ∧ t.movers = [] ∧
      t.images = [] ∧ t.saved = [] ∧ t.tr.powered = true ∧ t.tr.cold = true ∧ t.tr.repairLog = s.tr.repairLog ∧
      t.rd Reg.SEC_SVN = s.rd Reg.SEC_SVN ∧ ∀ off, off ≠ Reg.SEC_SVN → t.rd off = regReset off)) ∧
  (∀ s : State, Completes .pwrokFall s (fun t => t.pending = s.pending ∧ t.mem = [] ∧ t.clu = [] ∧ t.movers = [] ∧
      t.tr.powered = false ∧ t.pw.tripOut = s.pw.tripOut ∧ ∀ off, off ≠ Reg.SEC_SVN → t.rd off = regReset off)) ∧
  (∀ s : State, s.regsWf = true → s.memWf = true → s.stopped = false → Completes .warmRstNAssert s (fun t =>
      t.tr.warmHeld = true ∧ t.tr.devKey = s.tr.devKey ∧ t.clu = [] ∧ t.images = [] ∧
      (∀ a, t.byte a = if a < 0x10000000000 then s.byte a else 0) ∧
      t.rd Reg.CAD_TSC = s.rd Reg.CAD_TSC ∧ t.rd Reg.SEC_SVN = s.rd Reg.SEC_SVN ∧
      t.fld Reg.GLB_RESET_STATUS Fld.GLB_RESET_STATUS_BUSY = 1 ∧
      ∀ off, off ∉ [Reg.CAD_TSC, Reg.SEC_SVN, Reg.THM_LIMITS, Reg.KPR_CTL, Reg.GLB_DEBUG_CTL, Reg.GLB_RESET_STATUS] →
        t.rd off = regReset off)) ∧
  (∀ s : State, exec .warmRstNRelease s = .next { s with tr := { s.tr with warmHeld := false }, tapDrive := none }) ∧
  (∀ s : State, s.regsWf = true → Completes (.glbPwrdnReq 0) s (fun t => t.unitState 0 = 5 ∧
      t.rd Reg.GLB_PWRDN = putField (s.rd Reg.GLB_PWRDN) Fld.GLB_PWRDN_SAFE 1 ∧
      (s.stopped = false → ∀ p, p < 12 → s.linkState p = 5 →
        Msg.link p (.lmf (s.link p).head [{ num := (s.link p).nextNote, msg := .downNotice }] (s.link p).acks) ∈ t.out) ∧
      (∀ p, s.linkState p ≠ 5 → t.link p = s.link p) ∧
      Noted (· = Reg.GLB_PWRDN)
        { s.setUnit 0 { s.unitOf 0 with state := 5 } with lastChange := (0, 5, 0, 0), links := t.links } t)) ∧
  (∀ (s : State) (b : Fin 4), b ≠ 0 → exec (.glbPwrdnReq b) s = .next s) ∧
  (∀ (s : State) (target source : BitVec 8) (access : Held), s.regsWf = true → Completes (.hungCrossing target source access) s (fun t =>
    t.fld Reg.GLB_HUNG_INFO Fld.GLB_HUNG_INFO_TO_DOMAIN = target.toNat ∧
    t.fld Reg.GLB_HUNG_INFO Fld.GLB_HUNG_INFO_FROM_DOMAIN = source.toNat ∧
    raised Reg.GLB_STATUS Fld.GLB_STATUS_HUNG Reg.GLB_HUNG_CNT s t ∧
    (target.toNat, access) ∈ t.tr.held ∧
    Near (fun o => o = Reg.GLB_HUNG_INFO ∨ o = Reg.GLB_STATUS ∨ o = Reg.GLB_HUNG_CNT) { s with tr := { s.tr with held := t.tr.held } } t ∧
    ∀ e ∈ t.tr.held, e ∈ s.tr.held ∨ e = (target.toNat, access)))


/-- The five boot stages, each from the stage before it: what the ROM and the keeper verify and measure, the stage memory that the HBM
stage zeroes, SELFTEST, and the board identity that makes the chip number known (R525, R538, R548, R550, R553). -/
def Obligations.BootStagesRun : Prop :=
  (∀ (s : State) (fl : FlashImage) (id : IdentityBlock) (seed : BitVec 256) (st : Straps) (gen active slot : Nat) (e : BundleEntry),
    s.regsWf = true → s.bootRuns 0 = true → fl.readable = true → pickDirectory fl.dir0 fl.dir1 = some (gen, active) →
    s.romPick (fl.order active) = .ok (slot, e) → sm2Verify e.signer.1 e.signer.2 id.bytes id.r id.s = true →
    Completes (.bootRomStage fl id seed st) s (fun t => t.bootStage = 1 ∧
      t.fld Reg.GLB_BOOT_STATUS Fld.GLB_BOOT_STATUS_SLOT = slot % 2 ∧ t.straps = st.mgmt ∧
      t.fld Reg.HIF_CFG Fld.HIF_CFG_SPLIT = st.split.toNat % 2 ∧ t.tr.keeper = e.component ∧ t.tr.gen = gen ∧
      (∀ w, w < 4 → t.rd (Reg.SEC_MEAS 1 w) =
        BitVec.ofNat 64 (leNat (((sm3 (s.measurement 1 ++ e.component.digest)).drop (8 * w)).take 8))) ∧
      t.mem = s.mem ∧ t.clu = s.clu ∧ t.pending = s.pending)) ∧
  (∀ (s : State) (bundle : List Byte) (k u l : BundleEntry), s.regsWf = true → s.bootRuns 1 = true →
    bundleOf 8 bundle = some [k, u, l] → s.componentCheck 2 u = 0 → s.componentCheck 3 l = 0 →
    Completes (.bootKeeperStage bundle) s (fun t => t.bootStage = 2 ∧
      t.fld Reg.GLB_BOOT_STATUS Fld.GLB_BOOT_STATUS_HOST_READY = 1 ∧ t.tr.ucode = u.component ∧ t.tr.linkFw = l.component ∧
      (∀ w, w < 4 → t.rd (Reg.SEC_MEAS 2 w) =
        BitVec.ofNat 64 (leNat (((sm3 (s.measurement 2 ++ u.component.digest)).drop (8 * w)).take 8))) ∧
      t.mem = s.mem ∧ t.clu = s.clu)) ∧
  (∀ (s : State) (ids : List (BitVec 64)), s.regsWf = true → s.memWf = true → s.bootRuns 2 = true →
    Completes (.bootHbmStage ids 0xFF) s (fun t => t.bootStage = 3 ∧
      ∀ c a, c < 64 → stageBase c ≤ a → a < stageBase c + stageSize → t.byte a = 0)) ∧
  (∀ (s : State) (fails : List (BitVec 32 × TestResult)), s.regsWf = true → s.bootRuns 3 = true →
    Completes (.bootSelftestStage fails) s (fun t => t.bootStage = 4 ∧
      (fails = [] → s.fld Reg.SEC_STATUS Fld.SEC_STATUS_REPAIR_SIG = 0 → (∀ c, c < 64 → s.resident 0 c = false) →
        Near (· = Reg.GLB_BOOT_STATUS) s t))) ∧
  (∀ (s : State) (b : List Byte), s.regsWf = true → s.bootRuns 4 = true → (∀ e ∈ boardFaults b, 3 ≤ e) →
    Completes (.bootBoardStage (some b)) s (fun t => t.bootStage = 5 ∧ t.boardRead = true ∧
      t.fld Reg.IDM_STATUS Fld.IDM_STATUS_VALID = 1 ∧
      t.fld Reg.IDM_STATUS Fld.IDM_STATUS_BID = (if 3 ∈ boardFaults b then 8 else 0) + (if 4 ∈ boardFaults b then 16 else 0) ∧
      t.chip = boardChip b % 2 ^ 15 ∧ t.mem = s.mem ∧ t.clu = s.clu)) ∧
  (∀ s : State, s.regsWf = true → s.bootRuns 4 = true → Completes (.bootBoardStage none) s (fun t => t.bootStage = 5 ∧
    t.boardRead = true ∧ t.fld Reg.IDM_STATUS Fld.IDM_STATUS_VALID = 0 ∧ t.mem = s.mem ∧ t.clu = s.clu))

/-- A boot stage that fails sets STAGE to FAILED and records its code; a failure of the ROM stage sets HOST_READY besides (R538, R539,
R546, R559). -/
def Obligations.BootStageFailures : Prop :=
  (∀ (s : State) (fl : FlashImage) (id : IdentityBlock) (seed : BitVec 256) (st : Straps), s.regsWf = true → s.bootRuns 0 = true →
    (fl.readable = false ∨ pickDirectory fl.dir0 fl.dir1 = none) →
    Completes (.bootRomStage fl id seed st) s (fun t => t.bootStage = 6 ∧
      t.fld Reg.GLB_BOOT_STATUS Fld.GLB_BOOT_STATUS_FAIL = (if fl.readable then 1 else 7) ∧
      t.fld Reg.GLB_BOOT_STATUS Fld.GLB_BOOT_STATUS_HOST_READY = 1)) ∧
  (∀ (s : State) (bundle : List Byte), s.regsWf = true → s.bootRuns 1 = true → bundleOf 8 bundle = none →
    Completes (.bootKeeperStage bundle) s (fun t => t.bootStage = 6 ∧
      t.fld Reg.GLB_BOOT_STATUS Fld.GLB_BOOT_STATUS_FAIL = 5 ∧ Near (· = Reg.GLB_BOOT_STATUS) s t)) ∧
  (∀ (s : State) (ids : List (BitVec 64)) (good : BitVec 8), s.regsWf = true → s.bootRuns 2 = true → good ≠ 0xFF →
    Completes (.bootHbmStage ids good) s (fun t => t.bootStage = 6 ∧
      t.fld Reg.GLB_BOOT_STATUS Fld.GLB_BOOT_STATUS_FAIL = 6 ∧
      t.fld Reg.IDM_STATUS Fld.IDM_STATUS_HBM_ERR = (~~~good).toNat ∧ t.unitState 0 = 5)) ∧
  (∀ (s : State) (b : List Byte), s.regsWf = true → s.bootRuns 4 = true → boardFormatOk b = false →
    Completes (.bootBoardStage (some b)) s (fun t => t.bootStage = 5 ∧
      t.fld Reg.IDM_STATUS Fld.IDM_STATUS_VALID = 0 ∧ t.fld Reg.IDM_STATUS Fld.IDM_STATUS_BID = 1))

/-- The scoped resets of T0, on a block where no reset runs: the reset is taken up, BUSY and LAST_SCOPE show it, and the unit it names is
cleared as R540 lists (R540, R541). -/
def Obligations.ScopedResetsRun : Prop :=
  (∀ s : State, s.regsWf = true → s.stopped = false → s.reset_ = none → Completes (.resetWarm 0 0) s (fun t => t.reset_ = some (ResetReq.mk 1 0) ∧
      t.fld Reg.GLB_RESET_STATUS Fld.GLB_RESET_STATUS_BUSY = 1 ∧ t.fld Reg.GLB_RESET_STATUS Fld.GLB_RESET_STATUS_LAST_SCOPE = 1 ∧
      t.clu = [] ∧ t.images = [] ∧ t.bootStage = 0 ∧ t.rd Reg.CAD_TSC = s.rd Reg.CAD_TSC)) ∧
  (∀ (s : State) (ix : BitVec 12), s.regsWf = true → s.memWf = true → s.stopped = false → s.reset_ = none → ix.toNat < 64 →
    s.resetBarred (ResetReq.mk 2 ix.toNat) = false →
    Completes (.resetCluster 0 ix) s (fun t => t.reset_ = some (ResetReq.mk 2 ix.toNat) ∧
      t.fld Reg.GLB_RESET_STATUS Fld.GLB_RESET_STATUS_BUSY = 1 ∧ t.cl ix.toNat = {} ∧ t.seqState ix.toNat = seqIdle ∧
      (∀ a, t.byte a = if stageBase ix.toNat ≤ a ∧ a < stageBase ix.toNat + stageSize then 0 else s.byte a) ∧
      t.rd (Reg.CLU_RANK_MAP ix.toNat) = s.rd (Reg.CLU_RANK_MAP ix.toNat))) ∧
  (∀ (s : State) (ix : BitVec 12), s.regsWf = true → s.stopped = false → s.reset_ = none → (ResetReq.mk 3 ix.toNat).indexOk = true →
    s.resetBarred (ResetReq.mk 3 ix.toNat) = false →
    Completes (.resetRank 0 ix) s (fun t => t.fld Reg.GLB_RESET_STATUS Fld.GLB_RESET_STATUS_BUSY = 1 ∧
      t.fld (Reg.RNK_CTL (ix.toNat / 16) (ix.toNat % 16)) Fld.RNK_CTL_UNGATED = 0 ∧
      t.fld (Reg.RNK_CTL (ix.toNat / 16) (ix.toNat % 16)) Fld.RNK_CTL_GATED = 1 ∧
      Near (fun o => o = Reg.GLB_RESET_STATUS ∨ o = Reg.RNK_CTL (ix.toNat / 16) (ix.toNat % 16))
        { s.setRk (ix.toNat / 16) (ix.toNat % 16)
            { active := (s.rk (ix.toNat / 16) (ix.toNat % 16)).active, nextId := (s.rk (ix.toNat / 16) (ix.toNat % 16)).nextId }
          with reset_ := some (ResetReq.mk 3 ix.toNat) } t)) ∧
  (∀ (s : State) (ix : BitVec 12), s.regsWf = true → s.stopped = false → s.reset_ = none → ix.toNat < 12 → s.linkState ix.toNat = 0 →
    Completes (.resetPort 0 ix) s (fun t => t.reset_ = some (ResetReq.mk 4 ix.toNat) ∧
      t.fld Reg.GLB_RESET_STATUS Fld.GLB_RESET_STATUS_BUSY = 1 ∧ t.fld (Reg.PRT_CTL ix.toNat) Fld.PRT_CTL_LOCK = 0 ∧
      t.fld (Reg.PRT_LANES ix.toNat) Fld.PRT_LANES_TX_RETIRED = 0 ∧
      t.linkState ix.toNat = (if s.portEn ix.toNat ∧ (s.link ix.toNat).module = true ∧ s.bootDead = false then 1 else 0) ∧
      t.rd Reg.PRT_AXIS_MAP = s.rd Reg.PRT_AXIS_MAP ∧ t.mem = s.mem)) ∧
  (∀ (s : State) (ix : BitVec 12), s.regsWf = true → s.stopped = false → s.reset_ = none → ix.toNat < 512 →
    s.fld Reg.MEM_REMAP_STATUS Fld.MEM_REMAP_STATUS_BUSY ≠ 1 →
    Completes (.resetPseudoChannel 0 ix) s (fun t => t.fld Reg.GLB_RESET_STATUS Fld.GLB_RESET_STATUS_BUSY = 1 ∧
      t.fld Reg.GLB_RESET_STATUS Fld.GLB_RESET_STATUS_LAST_SCOPE = 5 ∧
      Near (· = Reg.GLB_RESET_STATUS) { s.flushHeld (ResetReq.mk 5 ix.toNat) with reset_ := some (ResetReq.mk 5 ix.toNat) } t)) ∧
  (∀ (s : State) (ix : BitVec 12), s.regsWf = true → s.stopped = false → s.reset_ = none → 1 ≤ ix.toNat → ix.toNat ≤ 3 →
    Completes (.resetTenant 0 ix) s (fun t => t.reset_ = some (ResetReq.mk 6 ix.toNat) ∧
      t.fld Reg.GLB_RESET_STATUS Fld.GLB_RESET_STATUS_BUSY = 1 ∧ t.images = s.images.erase ix.toNat ∧
      (∀ r ∈ t.movReqs, r.mrec.tenant ≠ ix.toNat) ∧ (∀ x ∈ t.txs, x.tenant ≠ ix.toNat) ∧ (∀ x ∈ t.rxs, x.tenant ≠ ix.toNat) ∧
      t.rd (Reg.MOV_TEN_CTL ix.toNat) = s.rd (Reg.MOV_TEN_CTL ix.toNat)))

/-- One reset runs at a time: a request within the running one is MERGED, any other waits in a queue of four; a bad index and a barred
request are refused with RESET_REJ; the oldest that waits starts when none runs; a reset that ends shows DONE and is counted, and the writes
that waited for its domain are made; what waits for the domain that a reset stops is flushed; T1 to T3 start none (R540, R542, R544,
R545, R560). -/
def Obligations.ResetRequests : Prop :=
  (∀ (s : State) (ix : BitVec 12) (q : ResetReq), s.regsWf = true → s.stopped = false → s.reset_ = some q → (ResetReq.mk 2 ix.toNat).indexOk = true →
    (ResetReq.mk 2 ix.toNat).within q = true →
    Completes (.resetCluster 0 ix) s (fun t => t.fld Reg.GLB_RESET_STATUS Fld.GLB_RESET_STATUS_RESULT = 2 ∧
      Near (· = Reg.GLB_RESET_STATUS) s t)) ∧
  (∀ (s : State) (ix : BitVec 12) (q : ResetReq), s.regsWf = true → s.stopped = false → s.reset_ = some q → (ResetReq.mk 4 ix.toNat).indexOk = true →
    (ResetReq.mk 4 ix.toNat).within q = false → s.resetQ.length < 4 →
    Completes (.resetPort 0 ix) s (fun t =>
      Near (· = Reg.GLB_RESET_STATUS) { s with resetQ := s.resetQ ++ [ResetReq.mk 4 ix.toNat] } t)) ∧
  (∀ (s : State) (ix : BitVec 12), s.regsWf = true → s.stopped = false → 64 ≤ ix.toNat →
    Completes (.resetCluster 0 ix) s (fun t => t.fld Reg.GLB_RESET_STATUS Fld.GLB_RESET_STATUS_RESULT = 3 ∧
      raised Reg.GLB_STATUS Fld.GLB_STATUS_RESET_REJ Reg.GLB_RESET_REJ_CNT s t ∧
      Near (fun o => o = Reg.GLB_RESET_STATUS ∨ o = Reg.GLB_STATUS ∨ o = Reg.GLB_RESET_REJ_CNT) s t)) ∧
  (∀ (s : State) (ix : BitVec 12), s.regsWf = true → s.stopped = false → s.reset_ = none → ix.toNat < 64 →
    (s.ctxState 0 ix.toNat ≠ 0 ∨ s.ctxState 1 ix.toNat ≠ 0 ∨ s.ctxState 2 ix.toNat ≠ 0 ∨ s.ctxState 3 ix.toNat ≠ 0) →
    Completes (.resetCluster 0 ix) s (fun t => t.fld Reg.GLB_RESET_STATUS Fld.GLB_RESET_STATUS_RESULT = 1 ∧
      raised Reg.GLB_STATUS Fld.GLB_STATUS_RESET_REJ Reg.GLB_RESET_REJ_CNT s t ∧
      Near (fun o => o = Reg.GLB_RESET_STATUS ∨ o = Reg.GLB_STATUS ∨ o = Reg.GLB_RESET_REJ_CNT) s t)) ∧
  (∀ (s : State) (p : Nat) (rest : List ResetReq), s.regsWf = true → s.reset_ = none → s.resetQ = ResetReq.mk 5 p :: rest →
    s.resetBarred (ResetReq.mk 5 p) = false →
    Completes .resetQueuedStart s (fun t => t.fld Reg.GLB_RESET_STATUS Fld.GLB_RESET_STATUS_BUSY = 1 ∧
      Near (· = Reg.GLB_RESET_STATUS)
        { ({ s with resetQ := rest }).flushHeld (ResetReq.mk 5 p) with reset_ := some (ResetReq.mk 5 p) } t)) ∧
  (∀ (s : State) (q : ResetReq), s.regsWf = true → s.reset_ = some q → (q.scope = 1 → 5 ≤ s.bootStage) →
    (q.scope = 6 → ∀ c, c < 64 → s.ctxState q.index c ≠ 2) → (∀ e ∈ s.tr.held, q.stops e.1 = false) →
    Completes .resetComplete s (fun t => t.reset_ = none ∧ t.fld Reg.GLB_RESET_STATUS Fld.GLB_RESET_STATUS_BUSY = 0 ∧
      t.fld Reg.GLB_RESET_STATUS Fld.GLB_RESET_STATUS_RESULT = 0 ∧ counted Reg.GLB_RESET_CNT 1 s t ∧
      (q.scope ≠ 6 → Near (fun o => o = Reg.GLB_RESET_STATUS ∨ o = Reg.GLB_RESET_CNT) { s with reset_ := none } t))) ∧
  (∀ (s : State) (q : ResetReq), s.reset_ = some q →
    (q.scope = 1 ∧ s.bootStage < 5 ∨ q.scope = 6 ∧ ∃ c, c < 64 ∧ s.ctxState q.index c = 2) → exec .resetComplete s = .next s) ∧
  (∀ (s : State) (c : Fin 64) (v : BitVec 64), s.regsWf = true → s.romDead = false → s.reset_ = some (ResetReq.mk 2 c) →
    s.tr.held = [(clusterDomain c, .regWrite .mailbox 0x30 true v)] → Completes .resetComplete s (fun t =>
      t.rd Reg.GLB_START_CTX = v &&& 0xF ∧ t.tr.held = [] ∧
      Near (fun o => o = Reg.GLB_RESET_STATUS ∨ o = Reg.GLB_RESET_CNT ∨ o = Reg.GLB_START_CTX)
        { s with reset_ := none, tr := { s.tr with held := [] } } t)) ∧
  (∀ (s : State) (ix : BitVec 12) (m : Fin 32) (r : MovRec), s.regsWf = true → s.stopped = false → s.reset_ = none → ix.toNat < 512 →
    s.fld Reg.MEM_REMAP_STATUS Fld.MEM_REMAP_STATUS_BUSY ≠ 1 → (0x60 + ix.toNat % 8, Held.mover m) ∈ s.tr.held →
    s.mover m = some r → r.state = 1 → Completes (.resetPseudoChannel 0 ix) s (fun t =>
      t.mover m = some { r with state := 4 } ∧ t.fld Reg.MOV_STATUS Fld.MOV_STATUS_DET = 1 ∧
      ∀ e ∈ t.tr.held, e.1 ≠ 0x60 + ix.toNat % 8)) ∧
  (∀ (s : State) (b : Fin 4) (ix : BitVec 12), b ≠ 0 → exec (.resetWarm b ix) s = .next s ∧ exec (.resetCluster b ix) s = .next s ∧
    exec (.resetRank b ix) s = .next s ∧ exec (.resetPort b ix) s = .next s ∧ exec (.resetPseudoChannel b ix) s = .next s ∧
    exec (.resetTenant b ix) s = .next s)


/-! ### The keeper, its mailbox and the security block (spec/16_host_service_identity.md, spec/17_bringup_and_trust.md) -/

/-- Live update. STAGE takes a bundle that verifies and waits for flash, and names the first check that fails; the slot written, the
bundle is ready, or at once ACTIVE after a failed boot stage; HANDOVER waits for a beat, then the standby core becomes active, M1 is
extended, the directory is written with GEN + 1 and the handover counted; one that times out leaves the old core; COMMIT_SVN raises the
counters; DROP drops what is staged; a lost heartbeat hands the chip to the standby core and counts a failover, and with none left the
chip is OFFLINE (R549, R557, R558). -/
def Obligations.KeeperUpdate : Prop :=
  (∀ (s : State) (ch : Fin 4), s.regsWf = true → Asked s ch 0x21 →
    24 ≤ (s.kprPayload ch).length → leNat ((s.kprPayload ch).take 1) = 3 →
    Completes (.fwUpdate ch) s (fun t => t.kprBusy ch = false ∧
      t.fld Reg.SEC_SVN Fld.SEC_SVN_KEEPER = max (s.minSvn 1) (s.tr.keeper.svn) % 2 ^ 16 ∧
      t.fld Reg.SEC_SVN Fld.SEC_SVN_UCODE = max (s.minSvn 2) (s.tr.ucode.svn) % 2 ^ 16 ∧
      t.fld Reg.SEC_SVN Fld.SEC_SVN_LINK = max (s.minSvn 3) (s.tr.linkFw.svn) % 2 ^ 16 ∧ t.tr = s.tr ∧ t.mem = s.mem)) ∧
  (∀ (s : State) (ch : Fin 4) (dpa len : Nat), s.regsWf = true → Asked s ch 0x21 →
    24 ≤ (s.kprPayload ch).length → leNat ((s.kprPayload ch).take 1) = 1 → leNat (((s.kprPayload ch).drop 8).take 8) = dpa →
    leNat (((s.kprPayload ch).drop 16).take 8) = len → (∀ st, s.tr.staged = some st → st.ready = true) →
    (s.tr.standby = true ∨ s.bootDead = true) → 0 < len → len ≤ 31 * 2 ^ 20 → s.regionOk 0 dpa len .rd = true →
    s.place dpa = .hbm → s.badBursts dpa len = [] →
    (∀ cs, s.stageBundle (s.bytes dpa len) = .ok cs → Completes (.fwUpdate ch) s (fun t =>
      Near (fun _ => False) { s with tr := { s.tr with staged := some (Staged.mk (1 - s.tr.active) cs ch false) } } t)) ∧
    (∀ e, s.stageBundle (s.bytes dpa len) = .error e → Completes (.fwUpdate ch) s (fun t =>
      answered (fun _ => False) ch (if e = 0 then 0 else 3) (leBytes 8 e) s t))) ∧
  (∀ (s : State) (ch : Fin 4), s.regsWf = true → Asked s ch 0x21 → 24 ≤ (s.kprPayload ch).length →
    leNat ((s.kprPayload ch).take 1) = 2 → s.tr.handover = none →
    ((∃ st, s.tr.staged = some st ∧ st.ready = true) →
      exec (.fwUpdate ch) s = .next { s with tr := { s.tr with handover := some ch.val }, fwBeat := false }) ∧
    ((∀ st, s.tr.staged = some st → st.ready = false) → Completes (.fwUpdate ch) s (fun t =>
      answered (fun _ => False) ch 3 (leBytes 8 6) s t))) ∧
  (∀ (s : State) (ch : Fin 4) (st : Staged), s.regsWf = true → Asked s ch 0x21 → 24 ≤ (s.kprPayload ch).length →
    leNat ((s.kprPayload ch).take 1) = 4 → s.tr.staged = some st → Completes (.fwUpdate ch) s (fun t => t.kprBusy ch = false ∧
      t.tr = { s.tr with staged := none, handover := none } ∧ t.mem = s.mem ∧ t.clu = s.clu)) ∧
  (∀ (s : State) (ch : Fin 4), s.regsWf = true → Asked s ch 0x21 →
    ((s.kprPayload ch).length < 24 ∨ leNat ((s.kprPayload ch).take 1) = 0 ∨ 4 < leNat ((s.kprPayload ch).take 1)) →
    Completes (.fwUpdate ch) s (fun t => answered (fun _ => False) ch 3 [] s t)) ∧
  (∀ (s : State) (st : Staged) (flashOk : Bool), s.regsWf = true → s.tr.staged = some st → st.ready = false → st.chan < 4 →
    Completes (.fwStageDone flashOk) s (fun t =>
      if flashOk = false then answered (fun _ => False) st.chan 3 (leBytes 8 4) { s with tr := { s.tr with staged := none } } t
      else if s.bootDead = true then answered (fun _ => False) st.chan 0 (leBytes 8 0)
        { s with tr := { s.tr with staged := none, gen := s.tr.gen + 1, active := st.slot } } t
      else answered (fun _ => False) st.chan 0 (leBytes 8 0)
        { s with tr := { s.tr with staged := some { st with ready := true } } } t)) ∧
  (∀ (s : State) (flashOk : Bool), (∀ st, s.tr.staged = some st → st.ready = true) → exec (.fwStageDone flashOk) s = .next s) ∧
  (∀ (s : State) (st : Staged) (ch : Nat), s.regsWf = true → ch < 4 → s.tr.handover = some ch → s.tr.staged = some st → st.ready = true →
    (s.fwBeat = true ∨ s.fld Reg.CAD_CTL Fld.CAD_CTL_EN = 0) →
    Completes .keeperHandover s (fun t => t.tr.core = 1 - s.tr.core ∧ t.tr.gen = s.tr.gen + 1 ∧ t.tr.active = st.slot ∧
      t.tr.staged = none ∧ t.tr.handover = none ∧ t.tr.keeper = st.comps.headD {} ∧ counted Reg.GLB_HANDOVER_CNT 1 s t ∧
      t.mem = s.mem ∧ t.clu = s.clu)) ∧
  (∀ s : State, s.tr.handover = none ∨ s.tr.staged = none ∨ (s.fwBeat = false ∧ s.fld Reg.CAD_CTL Fld.CAD_CTL_EN = 1) →
    exec .keeperHandover s = .next s) ∧
  (∀ (s : State) (ch : Nat), s.regsWf = true → ch < 4 → s.tr.handover = some ch →
    Completes .handoverTimeout s (fun t =>
      answered (fun _ => False) ch 3 (leBytes 8 7) { s with tr := { s.tr with handover := none } } t)) ∧
  (∀ s : State, s.regsWf = true → s.tr.standby = true → (∀ st, s.tr.staged = some st → st.chan < 4) →
    (∀ ch, s.tr.handover = some ch → ch < 4) → Completes .keeperHeartbeatLoss s (fun t =>
      t.tr = { s.tr with standby := false, core := 1 - s.tr.core, staged := none, handover := none } ∧
      counted Reg.GLB_KPR_FAILOVER_CNT 1 s t ∧ t.mem = s.mem ∧ t.clu = s.clu)) ∧
  (∀ s : State, s.tr.standby = false → Completes .keeperHeartbeatLoss s (fun t => t.unitState 0 = 5 ∧ t.tr = s.tr))

/-- T0 writes the security block and no other tenant does: SEC_EXTEND_CMD extends M(12 + INDEX) and makes one log entry; setting LOCK is
the last write that SEC_CTL takes; a locked table keeps its owner keys; GLB_DEBUG_CTL takes a write only with DEBUG_PERMIT, and a bit set
there leaves DEBUG_EVER behind (R553, R555, R559, R561). -/
def Obligations.SecurityWrites : Prop :=
  (∀ (s : State) (ix : Fin 4), s.regsWf = true → Completes (.secExtend 0 ix) s (fun t =>
    (∀ w, w < 4 → t.rd (Reg.SEC_MEAS (12 + ix) w) = BitVec.ofNat 64 (leNat
      (((sm3 (s.measurement (12 + ix) ++ s.regWords Reg.SEC_EXTEND_DIG 4)).drop (8 * w)).take 8))) ∧
    t.fld Reg.SEC_LOG_IDX Fld.SEC_LOG_IDX_IDX = (s.fld Reg.SEC_LOG_IDX Fld.SEC_LOG_IDX_IDX + 1) % 2 ^ 32 ∧
    Near (fun o => o = Reg.SEC_LOG_IDX ∨ (∃ w, w < 4 ∧ o = Reg.SEC_MEAS (12 + ix) w) ∨ ∃ n w, n < 256 ∧ w < 8 ∧ o = Reg.SEC_LOG n w) s t)) ∧
  (∀ (s : State) (v : BitVec 32), s.regsWf = true → s.secLocked = false → Completes (.secLockWrite 0 v) s (fun t =>
    t.secLocked = v.getLsbD 31 ∧ t.fld Reg.SEC_CTL Fld.SEC_CTL_DEBUG_PERMIT = (if v.getLsbD 0 then 1 else 0) ∧
    Near (fun o => o = Reg.SEC_CTL ∨ o = Reg.SEC_LOG_IDX ∨ (∃ w, w < 4 ∧ o = Reg.SEC_MEAS 5 w) ∨
      ∃ n w, n < 256 ∧ w < 8 ∧ o = Reg.SEC_LOG n w) s t)) ∧
  (∀ (s : State) (v : BitVec 32), s.regsWf = true → s.secLocked = true → Completes (.secLockWrite 0 v) s (fun t =>
    t.rd Reg.SEC_CTL = s.rd Reg.SEC_CTL &&& 0x80000001 ∧ Near (· = Reg.SEC_CTL) s t)) ∧
  (∀ (s : State) (k : Fin 16) (w : Fin 9) (v : BitVec 64), s.regsWf = true → s.secLocked = false → w.val < 8 →
    Completes (.secOwnerKeyWrite 0 k w v) s (fun t => t.rd (Reg.SEC_OWNER_KEY k w) = v ∧
      (∀ i, i < 4 → t.rd (Reg.SEC_OWNER_ID k i) = BitVec.ofNat 64 (leNat (((sm3 (t.ownerKey k)).drop (8 * i)).take 8))) ∧
      Near (fun o => o = Reg.SEC_OWNER_KEY k w ∨ ∃ i, i < 4 ∧ o = Reg.SEC_OWNER_ID k i) s t)) ∧
  (∀ (s : State) (k : Fin 16) (w : Fin 9) (v : BitVec 64), s.secLocked = true → exec (.secOwnerKeyWrite 0 k w v) s = .next s) ∧
  (∀ (s : State) (v : BitVec 32), s.regsWf = true → s.fld Reg.SEC_CTL Fld.SEC_CTL_DEBUG_PERMIT = 1 →
    Completes (.debugCtlWrite 0 v) s (fun t => t.fld Reg.GLB_DEBUG_CTL Fld.GLB_DEBUG_CTL_ACC_VIS = (if v.getLsbD 0 then 1 else 0) ∧
      t.fld Reg.GLB_DEBUG_CTL Fld.GLB_DEBUG_CTL_DBG_WIN = (if v.getLsbD 1 then 1 else 0) ∧
      t.fld Reg.GLB_DEBUG_CTL Fld.GLB_DEBUG_CTL_DEBUG_EVER =
        (if v.getLsbD 0 ∨ v.getLsbD 1 then 1 else s.fld Reg.GLB_DEBUG_CTL Fld.GLB_DEBUG_CTL_DEBUG_EVER) ∧
      Near (· = Reg.GLB_DEBUG_CTL) s t)) ∧
  (∀ (s : State) (v : BitVec 32), s.fld Reg.SEC_CTL Fld.SEC_CTL_DEBUG_PERMIT = 0 → exec (.debugCtlWrite 0 v) s = .next s) ∧
  (∀ (s : State) (b : Fin 4) (ix : Fin 4) (v : BitVec 32) (k : Fin 16) (w : Fin 9) (x : BitVec 64), b ≠ 0 →
    exec (.secExtend b ix) s = .next s ∧ exec (.secLockWrite b v) s = .next s ∧ exec (.secOwnerKeyWrite b k w x) s = .next s ∧
    exec (.debugCtlWrite b v) s = .next s)

/-! ### Register writes (spec/00_scope.md R6, spec/18_register_map.md) -/

/-- A register write follows the access codes: RW fields take the value and reserved bits stay 0, W1C flags clear where the value has a 1,
RO fields ignore it, an RWL field takes it until the lock bit is set; an unpopulated offset and an access that is not naturally aligned
are discarded; a 32-bit register takes no high half; a failed ROM stage discards every write; a write into a cluster held in reset waits
for it; a host port without a tenant writes only what is its own (R6, R502, R539, R544, R563, R564). -/
def Obligations.RegisterWriteCodes : Prop :=
  (∀ (s : State) (v : BitVec 64), s.regsWf = true → s.romDead = false → s.stopped = false → Completes (.registerWrite .mailbox 0x30 true v) s (fun t =>
    t.rd Reg.GLB_START_CTX = v &&& 0xF ∧ Near (· = Reg.GLB_START_CTX) s t)) ∧
  (∀ (s : State) (v : BitVec 64), s.regsWf = true → s.romDead = false → s.stopped = false → Completes (.registerWrite .keeper 0x38 true v) s (fun t =>
    t.rd Reg.GLB_STATUS = s.rd Reg.GLB_STATUS &&& 3 &&& ~~~v ∧ Near (· = Reg.GLB_STATUS) s t)) ∧
  (∀ (s : State) (v : BitVec 64), s.regsWf = true → s.romDead = false → s.stopped = false → Completes (.registerWrite .mailbox 0 true v) s (fun t =>
    t.rd Reg.GLB_ID = s.rd Reg.GLB_ID &&& 0xFFFFFF ∧ Near (· = Reg.GLB_ID) s t)) ∧
  (∀ (s : State) (v : BitVec 64), s.regsWf = true → s.romDead = false → s.stopped = false → Completes (.registerWrite .mailbox 0x230000 true v) s (fun t =>
    t.fld Reg.MOV_CTL Fld.MOV_CTL_PREF_FLOOR =
      (if s.fld Reg.MOV_CTL Fld.MOV_CTL_LOCK = 1 then s.fld Reg.MOV_CTL Fld.MOV_CTL_PREF_FLOOR else v.toNat % 32) ∧
    t.fld Reg.MOV_CTL Fld.MOV_CTL_LOCK = (if s.fld Reg.MOV_CTL Fld.MOV_CTL_LOCK = 1 ∨ v.getLsbD 31 then 1 else 0) ∧
    Near (· = Reg.MOV_CTL) s t)) ∧
  (∀ (s : State) (r : Requester) (off : BitVec 26) (wide : Bool) (v : BitVec 64),
    regAt (off.toNat / 8 * 8) = none ∨ off.toNat % (if wide then 8 else 4) ≠ 0 ∨ s.romDead = true ∨ s.stopped = true →
    clusterOfReg off.toNat = none ∨ clusterOfReg off.toNat ≠ s.clusterHeld → exec (.registerWrite r off wide v) s = .next s) ∧
  (∀ (s : State) (r : Requester) (off : BitVec 26) (wide : Bool) (v : BitVec 64) (c : Nat), clusterOfReg off.toNat = some c →
    s.reset_ = some (ResetReq.mk 2 c) → (clusterDomain c, Held.regWrite r off wide v) ∉ s.tr.held →
    exec (.registerWrite r off wide v) s =
      .next { s with tr := { s.tr with held := s.tr.held ++ [(clusterDomain c, .regWrite r off wide v)] } }) ∧
  (∀ (s : State) (r : Requester) (v : BitVec 64), exec (.registerWrite r 0x3C false v) s = .next s) ∧
  (∀ (s : State) (p : Fin 2) (wide : Bool) (v : BitVec 64), s.fld (Reg.HIF_BAR_TEN p) Fld.HIF_BAR_TEN_VALID = 0 →
    exec (.registerWrite (.host p) 0x30 wide v) s = .next s)

/-! ### Cadence (spec/01_execution_contract.md) -/

/-- A beat of the source that CAD_CTL names, greater than CAD_POS and with a phase that is not reserved, becomes CAD_POS and is counted;
on a calm block (no arm, no held decode) that is all a fabric beat does but for MASTER, the trace and the congestion interval. A beat that
is not greater is STALE; while EN is 0 or SRC names another source it changes nothing. A CADENCE_IN frame whose check or transition fails
sets PIN_CRC (R20 to R22, R31, R577). -/
def Obligations.BeatsAccepted : Prop :=
  (∀ (s : State) (p : Packet), s.regsWf = true → calm s → p.type = 5 → p.malformed = false →
    s.fld Reg.CAD_CTL Fld.CAD_CTL_EN = 1 → s.fld Reg.CAD_CTL Fld.CAD_CTL_SRC = 1 →
    s.rd Reg.CAD_POS < BitVec.ofNat 64 (leNat (p.body.take 8)) →
    phaseOf (BitVec.ofNat 64 (leNat (p.body.take 8))) ≠ 6 → phaseOf (BitVec.ofNat 64 (leNat (p.body.take 8))) ≠ 7 →
    Completes (.beatPacketRx p) s (fun t => t.rd Reg.CAD_POS = BitVec.ofNat 64 (leNat (p.body.take 8)) ∧
      counted Reg.CAD_BEAT_CNT 1 s t ∧ t.fwBeat = (s.fwBeat || (s.slice.isNone && s.rstState != 1)) ∧
      t.fld Reg.CAD_STATUS Fld.CAD_STATUS_MASTER_VALID = 1 ∧ t.mem = s.mem ∧ t.clu = s.clu ∧ t.out = s.out)) ∧
  (∀ (s : State) (pos : BitVec 64), s.regsWf = true → calm s →
    s.fld Reg.CAD_CTL Fld.CAD_CTL_EN = 1 → s.fld Reg.CAD_CTL Fld.CAD_CTL_SRC = 3 → s.rd Reg.CAD_POS < pos → phaseOf pos ≠ 6 →
    phaseOf pos ≠ 7 →
    Completes (.cadenceFrameRx pos (crc8 pos)) s (fun t => t.rd Reg.CAD_POS = pos ∧ counted Reg.CAD_BEAT_CNT 1 s t ∧
      (∃ q, t.rt.rin = s.rt.rin ++ [{ p := q }] ∧ q.type = 5 ∧ q.tc = 2 ∧ q.mc = true ∧ q.body = leBytes 8 pos.toNat) ∧
      t.mem = s.mem ∧ t.clu = s.clu)) ∧
  (∀ (s : State) (pos : BitVec 64), s.regsWf = true →
    s.fld Reg.CAD_CTL Fld.CAD_CTL_EN = 1 → s.fld Reg.CAD_CTL Fld.CAD_CTL_SRC = 3 → pos ≤ s.rd Reg.CAD_POS ∨ phaseOf pos = 6 ∨ phaseOf pos = 7 →
    Completes (.cadenceFrameRx pos (crc8 pos)) s (fun t => raised Reg.CAD_STATUS Fld.CAD_STATUS_STALE Reg.CAD_STALE_CNT s t ∧
      Near (fun o => o = Reg.CAD_STATUS ∨ o = Reg.CAD_STALE_CNT) s t)) ∧
  (∀ (s : State) (pos : BitVec 64), s.fld Reg.CAD_CTL Fld.CAD_CTL_EN = 0 → exec (.cadenceFrameRx pos (crc8 pos)) s = .next s) ∧
  (∀ (s : State) (pos : BitVec 64) (check : BitVec 8), s.regsWf = true → s.fld Reg.CAD_CTL Fld.CAD_CTL_SRC = 3 → check ≠ crc8 pos →
    Completes (.cadenceFrameRx pos check) s (fun t => raised Reg.CAD_STATUS Fld.CAD_STATUS_PIN_CRC Reg.CAD_PIN_ERR_CNT s t ∧
      Near (fun o => o = Reg.CAD_STATUS ∨ o = Reg.CAD_PIN_ERR_CNT) s t)) ∧
  (∀ s : State, s.regsWf = true → s.fld Reg.CAD_CTL Fld.CAD_CTL_SRC = 3 →
    Completes (.cadenceInMissingTransition true) s (fun t => raised Reg.CAD_STATUS Fld.CAD_STATUS_PIN_CRC Reg.CAD_PIN_ERR_CNT s t ∧
      Near (fun o => o = Reg.CAD_STATUS ∨ o = Reg.CAD_PIN_ERR_CNT) s t)) ∧
  (∀ s : State, exec (.cadenceInMissingTransition false) s = .next s)

/-- Arm writes. An accepted write of POS takes the value and leaves FIRED; one of CTL takes ACTION, ARG and REPEAT and clears FIRED and LATE;
with a position above CAD_POS nothing fires. A write after which the arm would break R27 leaves both registers, sets ARM_ERR and counts.
A one-shot TRACE_OPEN arm written at or below CAD_POS fires at once: LATE, FIRED, the window open, the firing counted. T2 and T3 write no
arm. A write is rejected exactly when the arm would hold a reserved code, action 8 in a global arm, action 6 at a position whose phase is
not UPD, or, for T1, an action of T0 alone; a disabled arm passes every check (R12, R25 to R27, R32, R480). -/
def Obligations.ArmWrites : Prop :=
  (∀ (s : State) (b : Fin 4) (a : ArmId) (v : BitVec 64), s.regsWf = true → b.val ≤ 1 → armRejected b.val a v (s.rd a.ctl) = false →
    s.rd Reg.CAD_POS < v → Completes (.armPosWrite b a v) s (fun t => t.rd a.pos = v ∧ Near (· = a.pos) s t)) ∧
  (∀ (s : State) (b : Fin 4) (a : ArmId) (v : BitVec 64), s.regsWf = true → b.val ≤ 1 →
    armRejected b.val a (s.rd a.pos) (v &&& 0xFFFFFFFF000F) = false → s.rd Reg.CAD_POS < s.rd a.pos →
    Completes (.armCtlWrite b a v) s (fun t => t.rd a.ctl = v &&& 0xFFFFFFFF000F ∧ Near (· = a.ctl) s t)) ∧
  (∀ (s : State) (b : Fin 4) (a : ArmId) (v : BitVec 64), s.regsWf = true → b.val ≤ 1 → armRejected b.val a v (s.rd a.ctl) = true →
    Completes (.armPosWrite b a v) s (fun t => raised Reg.CAD_STATUS Fld.CAD_STATUS_ARM_ERR Reg.CAD_ARM_ERR_CNT s t ∧
      Near (fun o => o = Reg.CAD_STATUS ∨ o = Reg.CAD_ARM_ERR_CNT) s t)) ∧
  (∀ (s : State) (b : Fin 4) (i : Fin 64) (w : Fin 256), s.regsWf = true → b.val ≤ 1 →
    s.rd (Reg.CAD_GARM_POS i) ≤ s.rd Reg.CAD_POS →
    Completes (.armCtlWrite b (.glob i) (BitVec.ofNat 64 (4 + w * 2 ^ 16))) s (fun t =>
      t.fld (Reg.CAD_GARM_CTL i) Fld.CAD_GARM_CTL_FIRED = 1 ∧ t.fld (Reg.CAD_GARM_CTL i) Fld.CAD_GARM_CTL_LATE = 1 ∧
      raised Reg.CAD_STATUS Fld.CAD_STATUS_ARM_LATE Reg.CAD_LATE_CNT s t ∧ t.windowOpen w = true ∧
      Near (fun o => o = Reg.CAD_GARM_CTL i ∨ o = Reg.CAD_STATUS ∨ o = Reg.CAD_LATE_CNT ∨ o = Reg.TRC_WINDOW (w / 64)) s t)) ∧
  (∀ (s : State) (b : Fin 4) (a : ArmId) (v : BitVec 64), 1 < b.val →
    exec (.armPosWrite b a v) s = .next s ∧ exec (.armCtlWrite b a v) s = .next s) ∧
  (∀ (b : Nat) (a : ArmId) (pos ctl : BitVec 64), b ≤ 1 →
    (armRejected b a pos ctl = true ↔ getField ctl Fld.CAD_GARM_CTL_ACTION ≠ 0 ∧
      (9 ≤ getField ctl Fld.CAD_GARM_CTL_ACTION ∨ (b = 1 ∧ getField ctl Fld.CAD_GARM_CTL_ACTION ∈ [1, 6]) ∨
        (getField ctl Fld.CAD_GARM_CTL_ACTION = 8 ∧ ∃ i, a = .glob i) ∨
        (getField ctl Fld.CAD_GARM_CTL_ACTION = 6 ∧ pos.toNat / 2 ^ 20 % 16 ≠ 4))))



/-! ### Observation (spec/15_observation.md) -/

/-- The trace unit: the drain takes the oldest record of the next ring and counts it; a flushed block is written to the trace ring as its
4 KiB and BIDX advances; a block from another chip is written by a collector; a ring that has counted POST freezes, is dumped, and is
released to record again; the watchdog triggers the cluster's ring; TRC_TRIG triggers a ring (R473, R478 to R482, R485). -/
def Obligations.TraceCommands : Prop :=
  (∀ (s : State) (u : Fin 80) (i : Nat) (x : TraceRec), s.regsWf = true → s.draining = true →
    (s.block.recs.length < 125 ∨ s.block.recs.length < 126 ∧ (s.ring u).lost = 0) → i < 80 → (s.drainNext + i) % 80 = u →
    (∀ j, j < i → (s.ring ((s.drainNext + j) % 80)).undrained = 0) → 0 < (s.ring u).undrained →
    (s.ring u).recs[(s.ring u).recs.length - (s.ring u).undrained]? = some x →
    Completes .traceDrainTake s (fun t =>
      t.block.recs = s.block.recs ++ (if (s.ring u).lost = 0 then [] else [(s.ring u).lostSpan u]) ++ [x] ∧
      t.ring u = { s.ring u with lost := 0, undrained := (s.ring u).undrained - 1 } ∧ (∀ v, v ≠ u.val → t.ring v = s.ring v) ∧
      counted Reg.TRC_REC_CNT 1 s t ∧ Near (· = Reg.TRC_REC_CNT) { s with block := t.block, drainNext := (u + 1) % 80 } t)) ∧
  (∀ s : State, s.regsWf = true → s.memWf = true → s.block.recs ≠ [] → s.block.recs.length ≤ 126 → s.fld Reg.TRC_DEST Fld.TRC_DEST_REMOTE = 0 →
    plainHbm s (s.fld Reg.TRC_BASE Fld.TRC_BASE_BASE +
      (s.rd Reg.TRC_BIDX).toNat % 2 ^ min 20 (s.fld Reg.TRC_SIZE Fld.TRC_SIZE_LOG2N) * 4096) 4096 →
    Completes (.traceBlockFlush false) s (fun t => t.block = {} ∧ counted Reg.TRC_BLK_CNT 1 s t ∧
      t.rd Reg.TRC_BIDX = s.rd Reg.TRC_BIDX + 1 ∧
      storedAt (s.fld Reg.TRC_BASE Fld.TRC_BASE_BASE +
        (s.rd Reg.TRC_BIDX).toNat % 2 ^ min 20 (s.fld Reg.TRC_SIZE Fld.TRC_SIZE_LOG2N) * 4096)
        (traceBlockBytes s.chip (s.fld Reg.TRC_BLK_CNT Fld.COUNT) s.block.recs) s t)) ∧
  (∀ (s : State) (err : Bool), s.regsWf = true → s.block.recs ≠ [] → s.fld Reg.TRC_DEST Fld.TRC_DEST_REMOTE = 1 →
    s.fenced (s.fld Reg.TRC_DEST Fld.TRC_DEST_CHIP) = false → Completes (.traceBlockFlush err) s (fun t => counted Reg.TRC_BLK_CNT 1 s t ∧
      handed { dst := s.fld Reg.TRC_DEST Fld.TRC_DEST_CHIP, src := s.chip, tc := 4, type := 11
               body := traceBlockBytes s.chip (s.fld Reg.TRC_BLK_CNT Fld.COUNT) s.block.recs } s t ∧
      Near (· = Reg.TRC_BLK_CNT) { s with block := {}, rt := t.rt } t)) ∧
  (∀ (s : State) (p : Packet), s.regsWf = true → p.type = 11 → p.malformed = false → s.fld Reg.TRC_CTL Fld.TRC_CTL_COLLECT ≠ 1 →
    Completes (.traceBlockRx p false) s (fun t => raised Reg.TRC_STATUS Fld.TRC_STATUS_COLL_DROP Reg.TRC_COLL_DROP_CNT s t ∧
      t.mem = s.mem)) ∧
  (∀ (s : State) (p : Packet), s.regsWf = true → s.memWf = true → p.type = 11 → p.malformed = false →
    s.fld Reg.TRC_CTL Fld.TRC_CTL_COLLECT = 1 → p.body.length = 4096 →
    plainHbm s (s.fld Reg.TRC_BASE Fld.TRC_BASE_BASE +
      (s.rd Reg.TRC_BIDX).toNat % 2 ^ min 20 (s.fld Reg.TRC_SIZE Fld.TRC_SIZE_LOG2N) * 4096) 4096 →
    Completes (.traceBlockRx p false) s (fun t => t.rd Reg.TRC_BIDX = s.rd Reg.TRC_BIDX + 1 ∧
      storedAt (s.fld Reg.TRC_BASE Fld.TRC_BASE_BASE +
        (s.rd Reg.TRC_BIDX).toNat % 2 ^ min 20 (s.fld Reg.TRC_SIZE Fld.TRC_SIZE_LOG2N) * 4096) p.body s t)) ∧
  (∀ (s : State) (c : Fin 64), s.regsWf = true → s.fld Reg.TRC_WDOG Fld.TRC_WDOG_LIMIT ≠ 0 → (s.cl c).waits = true →
    (s.cl c).wdogFired = false → Completes (.traceWatchdog c) s (fun t => (t.cl c).wdogFired = true ∧
      t.fld Reg.TRC_STATUS Fld.TRC_STATUS_WDOG = 1 ∧ counted Reg.TRC_WDOG_CNT 1 s t ∧
      Near (· = Reg.TRC_WDOG_CNT) (s.modCl c (fun k => { k with wdogFired := true })) t)) ∧
  (∀ (s : State) (u : Fin 80), s.regsWf = true → s.ringState u = 1 → (s.ring u).post = 0 →
    Completes (.ringFreeze u) s (fun t => t.ringState u = 2 ∧ Near (fun _ => False) s t)) ∧
  (∀ (s : State) (u : Fin 80), s.regsWf = true → s.memWf = true → s.ringState u = 2 →
    s.fld Reg.TRC_FREEZE_BASE Fld.TRC_FREEZE_BASE_BASE ≠ 0 →
    plainHbm s (s.fld Reg.TRC_FREEZE_BASE Fld.TRC_FREEZE_BASE_BASE + u * 8192) (32 * (s.ring u).recs.length) →
    Completes (.freezeDumpDone u false) s (fun t =>
      t.ringState u = (if s.fld (Reg.TRC_RING_CTL u) Fld.TRC_RING_CTL_AUTO_RELEASE = 1 then 0 else 3) ∧
      storedAt (s.fld Reg.TRC_FREEZE_BASE Fld.TRC_FREEZE_BASE_BASE + u * 8192) ((s.ring u).recs.flatMap TraceRec.bytes) s t)) ∧
  (∀ (s : State) (u : Fin 80), s.regsWf = true → 2 ≤ s.ringState u →
    Completes (.ringRelease 0 u) s (fun t => t.ringState u = 0 ∧ (t.ring u).recs = (s.ring u).recs ∧ Near (fun _ => False) s t)) ∧
  (∀ (s : State) (u : Fin 80), s.regsWf = true → s.fld (Reg.TRC_RING_CTL u) Fld.TRC_RING_CTL_EN = 1 → s.ringState u = 0 →
    s.fld Reg.TRC_CTL Fld.TRC_CTL_SCOPE = 0 →
    Completes (.trcTrigWrite 0 (BitVec.ofNat 32 u)) s (fun t => t.ringState u = 1 ∧
      (t.ring u).post = s.fld (Reg.TRC_RING_CTL u) Fld.TRC_RING_CTL_POST ∧
      t.fld Reg.TRC_STATUS Fld.TRC_STATUS_TRIG = 1 ∧ Near (fun _ => False) s t)) ∧
  (∀ (s : State) (b : Fin 4) (v : BitVec 32) (u : Fin 80), b ≠ 0 → exec (.trcTrigWrite b v) s = .next s ∧
    exec (.trcCtlWrite b v) s = .next s ∧ exec (.ringRelease b u) s = .next s)

/-- Counters: a write of a select register takes SRC and FILTER and clears its counter; CNT_SNAP_CTL.NOW writes the snapshot page and
counts it; TRC_CTL takes its fields; a sample adds one to each output's depth bin; an interval that times out writes its page where pages
are on, clears the bins and opens the next (R340, R341, R487 to R492, R494). -/
def Obligations.CounterCommands : Prop :=
  (∀ (s : State) (g : Fin 32) (v : BitVec 32), s.regsWf = true →
    Completes (.counterSelectWrite 0 (.glb g) v) s (fun t => t.rd (Reg.CNT_GLB g) = 0 ∧
      t.rd (Reg.CNT_GLB_SEL g) = v.setWidth 64 &&& 0x3FFF ∧ Near (· = Reg.CNT_GLB_SEL g) s t)) ∧
  (∀ (s : State) (c : Fin 64) (j : Fin 8) (v : BitVec 32), s.regsWf = true →
    Completes (.counterSelectWrite 0 (.clu c j) v) s (fun t => t.rd (Reg.CNT_CLU c j) = 0 ∧
      t.rd (Reg.CNT_CLU_SEL c j) = v.setWidth 64 &&& 0x3FFF ∧ Near (· = Reg.CNT_CLU_SEL c j) s t)) ∧
  (∀ (s : State) (p : Fin 12) (j : Fin 16) (v : BitVec 32), s.regsWf = true →
    Completes (.counterSelectWrite 0 (.prt p j) v) s (fun t => t.rd (Reg.CNT_PRT p j) = 0 ∧
      t.rd (Reg.CNT_PRT_SEL p j) = v.setWidth 64 &&& 0x3FFF ∧ Near (· = Reg.CNT_PRT_SEL p j) s t)) ∧
  (∀ s : State, s.regsWf = true → s.memWf = true → s.fld Reg.CNT_SNAP_CTL Fld.CNT_SNAP_CTL_EN = 1 → s.telemetryOff = false →
    plainHbm s (s.fld Reg.CNT_SNAP_BASE Fld.CNT_SNAP_BASE_BASE +
      s.fld Reg.CNT_SNAP_IDX Fld.CNT_SNAP_IDX_IDX % 2 ^ min 12 (s.fld Reg.CNT_SNAP_CTL Fld.CNT_SNAP_CTL_LOG2N) * 8192) 8192 →
    Completes (.cntSnapNow 0 false) s (fun t => counted Reg.CNT_SNAP_CNT 1 s t ∧
      t.fld Reg.CNT_SNAP_IDX Fld.CNT_SNAP_IDX_IDX = (s.fld Reg.CNT_SNAP_IDX Fld.CNT_SNAP_IDX_IDX + 1) % 2 ^ 32 ∧
      storedAt (s.fld Reg.CNT_SNAP_BASE Fld.CNT_SNAP_BASE_BASE +
        s.fld Reg.CNT_SNAP_IDX Fld.CNT_SNAP_IDX_IDX % 2 ^ min 12 (s.fld Reg.CNT_SNAP_CTL Fld.CNT_SNAP_CTL_LOG2N) * 8192)
        (s.snapPage 15 (s.fld Reg.CNT_SNAP_IDX Fld.CNT_SNAP_IDX_IDX)) s t)) ∧
  (∀ (s : State) (v : BitVec 32), s.regsWf = true → (s.block.recs = [] ∨ v.toNat % 4 = 1 ∨ v.toNat % 4 = 2) →
   Completes (.trcCtlWrite 0 v) s (fun t =>
    t.fld Reg.TRC_CTL Fld.TRC_CTL_MODE = v.toNat % 4 ∧ Near (· = Reg.TRC_CTL) s t)) ∧
  (∀ s : State, s.regsWf = true → Completes .congestionSample s (fun t => t.rt.cong.samples = s.rt.cong.samples + 1 ∧
    Near (fun _ => False) { s with rt := { s.rt with cong := t.rt.cong } } t)) ∧
  (∀ s : State, s.regsWf = true → s.fld Reg.FAB_CPAGE_CTL Fld.FAB_CPAGE_CTL_EN = 0 →
    exec (.congestionIntervalTimeout false) s =
      .next { s with rt := { s.rt with cong := { pos := s.rd Reg.CAD_POS, tsc := (s.rd Reg.CAD_TSC).toNat } } }) ∧
  (∀ s : State, s.regsWf = true → s.memWf = true → s.fld Reg.FAB_CPAGE_CTL Fld.FAB_CPAGE_CTL_EN = 1 → s.telemetryOff = false →
    plainHbm s (s.fld Reg.FAB_CPAGE_BASE Fld.FAB_CPAGE_BASE_BASE +
      s.fld Reg.FAB_CPAGE_IDX Fld.FAB_CPAGE_IDX_IDX % 2 ^ min 12 (s.fld Reg.FAB_CPAGE_CTL Fld.FAB_CPAGE_CTL_LOG2N) * 1024) 1024 →
    Completes (.congestionIntervalTimeout false) s (fun t => counted Reg.FAB_CPAGE_CNT 1 s t ∧ t.rt.cong.samples = 0 ∧ t.rt.cong.bins = [] ∧
      storedAt (s.fld Reg.FAB_CPAGE_BASE Fld.FAB_CPAGE_BASE_BASE +
        s.fld Reg.FAB_CPAGE_IDX Fld.FAB_CPAGE_IDX_IDX % 2 ^ min 12 (s.fld Reg.FAB_CPAGE_CTL Fld.FAB_CPAGE_CTL_LOG2N) * 1024)
        (s.congPage 0) s t))

/-! ### Streams (spec/05_askeb_model.md, spec/06_askeb_reference.md) -/

/-- START of a loaded stream makes an IDLE sequencer RUNNING at PC 0 with the tenant's scalar registers; HALT of a RUNNING one makes it
HALTED, RESUME of a HALTED one RUNNING, and RESUME of a FAULTED one whose fault cannot be resumed does nothing; the end of the stream
makes it IDLE and empties its record; a write of SEQ_YIELD_GAP_MAX sets it to 0; a tenant that does not own the running stream controls
nothing. STREAM_FETCH fills the fetch queue with up to 256 words of the stream from the PC, and without the XS permission raises FETCH (code
0x15) and stops the sequencer in FAULTED (R133, R152, R155, R164, R167, R556). -/
def Obligations.StreamControl : Prop :=
  (∀ (s : State) (b : Fin 4) (c : Fin 64) (sel : Fin 4) (n : Nat), s.regsWf = true → n = (if b = 0 then sel.val else b.val) → n ≠ 0 →
    s.seqState c = 0 → (n = 1 → (s.rd Reg.GLB_START_CTX).getLsbD 1 = false → s.barrier = 0) → s.bootDead = false →
    s.unitState (unitId 1 c) ≠ 3 → (∀ u, u < 4 → s.ctxState u c ≠ 5) →
    s.fld (Reg.SEQ_STREAM_LEN c (n - 1) ((s.rd Reg.GLB_START_CTX).getLsbD n).toNat) Fld.SEQ_STREAM_LEN_LEN ≠ 0 →
    Completes (.seqStart b c sel) s (fun t => t.seqState c = 1 ∧ t.seqPc c = 0 ∧ t.seqTenant c = n ∧
      t.seqCtx c = (if (s.rd Reg.GLB_START_CTX).getLsbD n then 3 else 1) ∧ (t.cl c).loops = [] ∧ (t.cl c).hold = none ∧
      t.fld (Reg.SEQ_CTL c) Fld.SEQ_CTL_START = 1 ∧
      (∀ i, 0 < i → i < 32 → (t.cl c).s i = BitVec.ofNat 64 (leNat ((((s.image n).scalarInit.get [] c).drop (8 * i)).take 8))) ∧
      (∀ off, ¬ seqRegs c off → off ≠ Reg.SEQ_CTL c → t.rd off = s.rd off) ∧ clustersKept c s t ∧
      { t with regs := s.regs, clu := s.clu } = s)) ∧
  (∀ (s : State) (b : Fin 4) (c : Fin 64), s.regsWf = true → s.mayControl b c = true → s.seqState c = 1 →
    Completes (.seqHalt b c) s (fun t => t.seqState c = 2 ∧ t.fld (Reg.SEQ_CTL c) Fld.SEQ_CTL_HALT = 1 ∧
      Near (fun off => off = Reg.SEQ_STATUS c ∨ off = Reg.SEQ_CTL c) s t)) ∧
  (∀ (s : State) (b : Fin 4) (c : Fin 64), s.regsWf = true → s.mayControl b c = true → s.seqState c = 3 → (s.cl c).before ≠ 4 →
    Completes (.seqHalt b c) s (fun t => t.seqState c = 2 ∧
      Near (fun off => off = Reg.SEQ_STATUS c ∨ off = Reg.SEQ_CTL c) (s.modCl c (fun k => { k with before := 2 })) t)) ∧
  (∀ (s : State) (b : Fin 4) (c : Fin 64), s.regsWf = true → s.mayControl b c = true → s.seqState c = 2 →
    (s.seqTenant c = 1 → s.seqCtx c = 1 → s.barrier = 0) →
    (s.captured c = false → (s.cl c).keepsHold → Completes (.seqResume b c) s (fun t => t.seqState c = 1 ∧
      Near (fun off => off = Reg.SEQ_STATUS c ∨ off = Reg.SEQ_CTL c) s t)) ∧
    (s.captured c = true → Completes (.seqResume b c) s (fun t => t.seqState c = 3 ∧
      Near (fun off => off = Reg.SEQ_STATUS c ∨ off = Reg.SEQ_CTL c) (s.modCl c (fun k => { k with before := 1 })) t))) ∧
  (∀ (s : State) (b : Fin 4) (c : Fin 64), s.regsWf = true → s.mayControl b c = true → s.seqState c = 4 → (s.cl c).hard = false →
    s.captured c = false → (s.seqTenant c = 1 → s.seqCtx c = 1 → s.barrier = 0) → (s.cl c).keepsHold → s.colls = [] →
    (s.movers.map (·.1)).Nodup → Completes (.seqResume b c) s (fun t => t.seqState c = 1 ∧
      (∀ m r, s.mover m = some r → r.cluster = c → r.state = 3 → t.mover m = some { r with state := 1 }) ∧
      (∀ x ∈ t.txs, x.cluster = c → x.stop = false) ∧ (∀ x ∈ t.rxs, x.cluster = c → x.stop = false) ∧ t.mem = s.mem)) ∧
  (∀ (s : State) (b : Fin 4) (c : Fin 64), s.mayControl b c = true → s.seqState c = 4 → (s.cl c).hard = true →
    exec (.seqResume b c) s = .next (s.strobe c Fld.SEQ_CTL_RESUME)) ∧
  (∀ (s : State) (c : Fin 64), s.regsWf = true → s.seqState c = 1 → s.seqTenant c ≠ 0 → s.streamLen c ≤ s.seqPc c →
    (s.cl c).hold = none → s.portsDone c 15 = true → (s.ctxState (s.seqTenant c) c = 1 → s.slice = none) →
    Completes (.streamEnd c) s (fun t => t.seqState c = 0 ∧ t.cl c = (s.cl c).vacated ∧ clustersKept c s t ∧
      t.ctxState (s.seqTenant c) c = (if s.ctxState (s.seqTenant c) c = 1 then 0 else s.ctxState (s.seqTenant c) c) ∧
      Near (fun off => off = Reg.SEQ_STATUS c ∨ off = Reg.MOV_CTX_STATUS (s.seqTenant c) c) (s.setCl c (s.cl c).vacated) t)) ∧
  (∀ (s : State) (b : Fin 4) (c : Fin 64) (v : BitVec 64), s.regsWf = true → s.mayControl b c = true →
    Completes (.yieldGapMaxWrite b c v) s (fun t => t.rd (Reg.SEQ_YIELD_GAP_MAX c) = 0 ∧ Near (· = Reg.SEQ_YIELD_GAP_MAX c) s t)) ∧
  (∀ (s : State) (b : Fin 4) (c : Fin 64) (v : BitVec 64), s.mayControl b c = false → exec (.yieldGapMaxWrite b c v) s = .next s ∧
    exec (.seqHalt b c) s = .next s ∧ exec (.seqResume b c) s = .next s) ∧
  (∀ (s : State) (c : Fin 64) (n : Nat), s.regsWf = true → s.stopped = false → s.seqState c = 1 → s.seqTenant c ≠ 0 →
    s.seqPc c < s.streamLen c → n = min 256 (s.streamLen c - s.fetchStart c) →
    (∀ p ∈ pages 3 (s.streamBase c + 16 * s.fetchStart c) (16 * n), s.regionOk (s.seqTenant c) p.1 p.2 .xs = true) →
    s.place (s.streamBase c + 16 * s.fetchStart c) = .hbm → s.badBursts (s.streamBase c + 16 * s.fetchStart c) (16 * n) = [] →
    Completes (.streamFetch c .none) s (fun t =>
      (t.cl c).fetched = (List.range n).map (fun i => (s.fetchStart c + i,
        BitVec.ofNat 128 (s.peekNat (s.streamBase c + 16 * s.fetchStart c + 16 * i) 16))) ∧
      Near (fun _ => False) (s.modCl c (fun k => { k with fetched := (t.cl c).fetched })) t)) ∧
  (∀ (s : State) (c : Fin 64) (e : MemErr), s.regsWf = true → s.stopped = false → s.seqState c = 1 → s.seqTenant c ≠ 0 →
    s.seqPc c < s.streamLen c →
    (∃ p ∈ pages 3 (s.streamBase c + 16 * s.fetchStart c) (16 * min 256 (s.streamLen c - s.fetchStart c)),
      s.regionOk (s.seqTenant c) p.1 p.2 .xs = false) → Completes (.streamFetch c e) s (fun t => t.seqState c = 4 ∧
      (t.rd (Reg.SEQ_FAULT_REC c (s.fld (Reg.SEQ_FAULT_CNT c) Fld.COUNT % 4) 0)).toNat % 256 = 0x15 ∧
      t.rd (Reg.SEQ_FAULT_REC c (s.fld (Reg.SEQ_FAULT_CNT c) Fld.COUNT % 4) 1) = s.rd (Reg.SEQ_PC c) ∧
      counted (Reg.SEQ_FAULT_CNT c) 1 s t ∧ (t.cl c).hard = true ∧ (t.cl c).fetched = (s.cl c).fetched ∧ clustersKept c s t ∧
      Noted (fun off => off = Reg.SEQ_STATUS c ∨ off = Reg.SEQ_FAULT_CNT c ∨ ∃ k w, k < 4 ∧ w < 8 ∧ off = Reg.SEQ_FAULT_REC c k w)
        (s.modCl c (fun k => { k with hard := true })) t)) ∧
  (∀ (s : State) (c : Fin 64) (e : MemErr), s.seqTenant c = 0 ∨ s.seqState c ≠ 1 → exec (.streamFetch c e) s = .next s)

/-! ### Port instructions (R132, R135, R143, R172 to R176) -/

/-- A port instruction that passes checks 1 to 5 enters its port's queue with its predicate, slot and scalar registers as decode captured
them, is counted, and decode goes on; a POP holds decode. MMA.F, MMA.DX, MMA.DW, ACCRD, VEW, VACT, VDACT, VNORM, VNORMB, VSMAX, VSMAXB,
VRED, VOPT, VCONV, VRNG, ARGMAX, ARGMIN, MOV, MOV.C, MOV.D, PUSH, POP, PREF, SEND, RECV, COLL, MCAST. One that meets an empty port decodes
and comes to its issue in one command: with room it issues and its unit runs, a transfer asks for a mover and its movers run (R132, R135,
R136, R176, R255). -/
def Obligations.PortInstructions : Prop :=
  (∀ x ∈ portRows, ∀ (s : State) (c : Fin 64) (w : BitVec 128), s.regsWf = true → s.canDecode c w = true → (s.cl c).hold = none →
    bitsOf w 127 120 = x.1 → s.decodeCheck c w = none → ((s.cl c).queue (portOf x.1)).length < 16 →
    Completes (x.2 c w false) s (fun t =>
      (t.cl c).queue (portOf x.1) = (s.cl c).queue (portOf x.1) ++ [s.capture_ c w] ∧
      counted (Reg.SEQ_INSN_CNT c) 1 s t ∧
      (x.1 ≠ 0x35 → (s.cl c).loops = [] → t.rd (Reg.SEQ_PC c) = s.rd (Reg.SEQ_PC c) + 1 ∧ (t.cl c).hold = none) ∧
      (x.1 = 0x35 → t.rd (Reg.SEQ_PC c) = s.rd (Reg.SEQ_PC c) ∧ (t.cl c).hold = some (Hold.mk .pop (s.capture_ c w) s.now)) ∧
      SeqRan c (s.modCl c (fun k => k.joined (portOf x.1) s.now (s.capture_ c w))) t)) ∧
  (∀ x ∈ portRows, x.1 ≠ 0x35 → ∀ (s d : State) (c : Fin 64) (w : BitVec 128), Ready s c w x.1 →
    (s.cl c).queue (portOf x.1) = [] → d = s.enqueueInsn c w x.1 → d.headCheck c (s.capture_ c w) = none →
    (d.cl c).queue (portOf x.1) = [s.capture_ c w] ∧
    exec (x.2 c w true) s = .next ((if (d.headRoom c (s.capture_ c w) 0).1 then
        (((d.headRoom c (s.capture_ c w) 0).2.takeHead c (portOf x.1) (s.capture_ c w)).headStart c (s.capture_ c w))
      else (d.headRoom c (s.capture_ c w) 0).2).runUnit c (portOf x.1) (s.capture_ c w))) ∧
  (∀ (s : State) (c : Fin 64) (w : BitVec 128), Ready s c w 0x35 → (s.cl c).movQ = [] →
    exec (.pop c w true) s = .next (((s.enqueueInsn c w 0x35).stackReport c .none).runUnit c 2 (s.capture_ c w)))

/-- What the issue of a port's head starts: a vector instruction its job with the descriptors as they are now, a MOV.C the conditioner's
pass, a MOV.D a descriptor, a PREF an entry of the prefetch table, a matrix instruction an active instruction of its physical rank; the
head leaves its queue and its wait is consumed. A MOV and a PUSH that keeps ask for a mover once, and stay at their head until they get
it. A head whose token has not come waits; a head whose check fails raises its issue trap; a predicated-off head does nothing but signal
(R132, R136, R143, R152, R184, R193, R197, R255). -/
def Obligations.PortHeadsIssue : Prop :=
  (∀ (s : State) (c : Fin 64) (e : QEntry) (rest : List QEntry) (w : Nat), HeadReady s c 1 e rest → opPort e.op = some 1 →
    (s.cl c).vec = none → s.testing (unitId 4 c) = false → Completes (.portHeadIssue c 1 w) s (fun t =>
      (t.cl c).vec = some (s.vecOf c e) ∧ (t.cl c).vecQ = rest ∧ (e.wait ≠ 0 → t.tok c e.wait = s.tok c e.wait - s.quantum c e.wait) ∧
      SeqRan c (s.modCl c (fun k => { k.headTaken 1 s.now rest with vec := some (s.vecOf c e) })) t)) ∧
  (∀ (s : State) (c : Fin 64) (e : QEntry) (rest : List QEntry) (w : Nat), HeadReady s c 2 e rest → e.op = 0x31 → s.condRoom c = true →
    Completes (.portHeadIssue c 2 w) s (fun t => (t.cl c).cond = some (s.condOf c e) ∧ (t.cl c).movQ = rest ∧
      SeqRan c (s.modCl c (fun k => { k.headTaken 2 s.now rest with cond := some (s.condOf c e) })) t)) ∧
  (∀ (s : State) (c : Fin 64) (e : QEntry) (rest : List QEntry) (w o : Nat), HeadReady s c 2 e rest → e.op = 0x32 → e.sig = 0 →
    (s.cl c).keepsHold →
    s.place e.movdAddr = .stage c o → s.firstBadWord e.movdAddr 64 = none → Completes (.portHeadIssue c 2 w) s (fun t =>
      (t.cl c).d (e.fld 87 80) = BitVec.ofNat 512 (s.peekNat e.movdAddr 64) ∧ (t.cl c).movQ = rest ∧
      SeqRan c (s.modCl c (fun k => { k.headTaken 2 s.now rest with desc := (t.cl c).desc })) t)) ∧
  (∀ (s : State) (c : Fin 64) (e : QEntry) (rest : List QEntry) (w : Nat), HeadReady s c 2 e rest → e.op = 0x30 →
    exec (.portHeadIssue c 2 w) s = .next (if s.headReqWaits c then s else { s with
      movReqs := s.movReqs ++ [MovReq.mk (s.movRec c e 0 (s.descOf c e (e.fld 95 88)) (s.descOf c e (e.fld 87 80))) false true] })) ∧
  (∀ (s : State) (c : Fin 64) (e : QEntry) (rest : List QEntry) (w : Nat), HeadReady s c 2 e rest → e.op = 0x34 → e.pushKeep = true →
    s.headReqWaits c = false → Completes (.portHeadIssue c 2 w) s (fun t => (∃ r, t.movReqs = s.movReqs ++ [MovReq.mk r false true] ∧
      r.kind = 2 ∧ r.cluster = c ∧ r.stkAddr = s.stkBase e.slot c + s.stkTop e.slot c ∧
      trailerLen r.trailer = s.pushLen c e % 2 ^ 40 ∧ trailerKind r.trailer = 0) ∧ { t with movReqs := s.movReqs } = s)) ∧
  (∀ (s : State) (c : Fin 64) (e : QEntry) (rest : List QEntry) (w : Nat), HeadReady s c 2 e rest → e.op = 0x36 →
    (s.cl c).pref.length < 8 → Completes (.portHeadIssue c 2 w) s (fun t =>
      (t.cl c).pref = (s.cl c).pref ++
        [PrefEntry.mk (s.movRec c e 1 (s.descOf c e (e.fld 95 88)) (s.descOf c e (e.fld 87 80))) false] ∧
      SeqRan c (s.modCl c (fun k => { k.headTaken 2 s.now rest with pref := (t.cl c).pref })) t)) ∧
  (∀ (s : State) (c : Fin 64) (e : QEntry) (rest : List QEntry) (w : Nat), HeadReady s c 0 e rest → opPort e.op = some 0 →
    (s.mmaRoom c (s.mmaOf c e) w).1 = true → Completes (.portHeadIssue c 0 w) s (fun t =>
      (∃ panel lead, (t.rk c ((s.mmaOf c e).physical s c)).active = (s.rk c ((s.mmaOf c e).physical s c)).active ++
        [{ s.mmaOf c e with id := (s.rk c ((s.mmaOf c e).physical s c)).nextId, panel := panel, lead := lead }]) ∧
      (t.cl c).rankQ = rest)) ∧
  (∀ (s : State) (c : Fin 64) (port : Fin 4) (e : QEntry) (rest : List QEntry) (w : Nat), (s.cl c).queue port = e :: rest →
    s.stopped = false → s.seqState c = 1 → s.headerOk c e.wait = false → Completes (.portHeadIssue c port w) s (fun t =>
      (t.cl c).queue port = e :: rest ∧ (t.cl c).headSince.get 0 port ≠ 0 ∧ clustersKept c s t ∧ { t with clu := s.clu } = s)) ∧
  (∀ (s : State) (c : Fin 64) (port : Fin 4) (e : QEntry) (rest : List QEntry) (w : Nat) (x : Nat × Nat), s.regsWf = true →
    (s.cl c).queue port = e :: rest → s.stopped = false → s.seqState c = 1 → s.headerOk c e.wait = true → e.pred = true → e.op ≠ 0x35 →
    s.headCheck c e = some x → Completes (.portHeadIssue c port w) s (fun t => t.seqState c = 4 ∧ (t.cl c).queue port = e :: rest ∧
      (t.rd (Reg.SEQ_FAULT_REC c (s.fld (Reg.SEQ_FAULT_CNT c) Fld.COUNT % 4) 0)).toNat % 256 = x.1 % 256 ∧
      counted (Reg.SEQ_FAULT_CNT c) 1 s t ∧ t.mem = s.mem)) ∧
  (∀ (s : State) (c : Fin 64) (port : Fin 4) (e : QEntry) (rest : List QEntry) (w : Nat), s.regsWf = true →
    (s.cl c).queue port = e :: rest → s.stopped = false → s.seqState c = 1 → s.headerOk c e.wait = true → e.pred = false → e.sig = 0 →
    (s.cl c).keepsHold → Completes (.portHeadIssue c port w) s (fun t =>
      SeqRan c ((if e.op = 0x42 then s.collCounted (e.fld 79 72) else s).modCl c (fun k => k.headTaken port s.now rest)) t))

/-! ### Ranks (spec/02_numerics_and_sterling.md, spec/03_ranks.md) -/

/-- A rank admits work: RAMP_UP ungates one more lane group for an issued instruction, the first of a ramp counted, and a ramp that would be one
too many within 32 core cycles waits, RAMP being in force; RAMP_DOWN gates one more of an idle rank; TILE_START starts an abandoned tile again,
or the next tile of the oldest instruction, its anchor set and no lane advanced, sampled for audit where a rank is free for it, once four
groups are ungated and its limbs are free, and counts a wait for limbs otherwise; CHAIN_RESTART lets the stagger chain go on and counts its
stalled cycles; RANK_QUIESCED sets QUIESCED when every started tile has completed, and then makes the switch-in that waited for it; RNK_CTL
takes QUIESCE from T0 (R76, R78 to R81, R87, R432, R436, R451). -/
def Obligations.RankAdmits : Prop :=
  (∀ (s : State) (c : Fin 64) (r : Fin 13) (n : Nat), s.regsWf = true → n = s.fld (Reg.RNK_CTL c r) Fld.RNK_CTL_UNGATED → n < 4 →
    s.rankIdle c r = false → (s.rk c r).ramping = true ∨ s.rampsNow.length < max 1 (s.fld Reg.PWR_RAMP_CTL Fld.PWR_RAMP_CTL_MAXRANKS) →
    16 ∉ s.pw.inForce → Completes (.rampUp c r) s (fun t => t.fld (Reg.RNK_CTL c r) Fld.RNK_CTL_UNGATED = n + 1 ∧
      t.fld (Reg.RNK_CTL c r) Fld.RNK_CTL_GATED = 0 ∧ (t.rk c r).ramping = decide (n + 1 < 4) ∧
      t.fld (Reg.RNK_RAMP_CNT c r) Fld.COUNT =
        (if (s.rk c r).ramping then s.fld (Reg.RNK_RAMP_CNT c r) Fld.COUNT else (s.fld (Reg.RNK_RAMP_CNT c r) Fld.COUNT + 1) % 2 ^ 48) ∧
      Near (fun off => off = Reg.RNK_CTL c r ∨ off = Reg.RNK_RAMP_CNT c r)
        { s.setRk c r { s.rk c r with ramping := decide (n + 1 < 4) } with pw := t.pw } t)) ∧
  (∀ (s : State) (c : Fin 64) (r : Fin 13), s.fld (Reg.RNK_CTL c r) Fld.RNK_CTL_UNGATED < 4 → s.rankIdle c r = false →
    (s.rk c r).ramping = false → max 1 (s.fld Reg.PWR_RAMP_CTL Fld.PWR_RAMP_CTL_MAXRANKS) ≤ s.rampsNow.length → s.pw.rampWaits = [] →
    16 ∉ s.pw.inForce → Completes (.rampUp c r) s (fun t => t.rk c r = s.rk c r ∧ t.rd (Reg.RNK_CTL c r) = s.rd (Reg.RNK_CTL c r) ∧
      t.pw = { s.pw with rampWaits := [c.val * 16 + r.val], rampSince := s.now, inForce := s.pw.inForce ++ [16] } ∧
      raised Reg.PWR_STATUS ⟨4, 1⟩ (Reg.PWR_THR_CNT 4) s t ∧
      Near (fun off => off = Reg.PWR_STATUS ∨ off = Reg.PWR_THR_CNT 4 ∨ off = Reg.PWR_ACTIVE) { s with pw := t.pw } t)) ∧
  (∀ (s : State) (c : Fin 64) (r : Fin 13) (n : Nat), s.regsWf = true → n = s.fld (Reg.RNK_CTL c r) Fld.RNK_CTL_UNGATED → n ≠ 0 →
    s.rankIdle c r = true → Completes (.rampDown c r) s (fun t => t.fld (Reg.RNK_CTL c r) Fld.RNK_CTL_UNGATED = n - 1 ∧
      t.fld (Reg.RNK_CTL c r) Fld.RNK_CTL_GATED = (if n = 1 then 1 else 0) ∧
      Near (· = Reg.RNK_CTL c r) (s.setRk c r { s.rk c r with ramping := false }) t)) ∧
  (∀ (s : State) (c : Fin 64) (r : Fin 13) (w : Nat) (a : ActiveMma), s.quiesce c r = false →
    s.fld (Reg.RNK_CTL c r) Fld.RNK_CTL_UNGATED = 4 → (∀ x ∈ (s.rk c r).tiles, x.replay = none ∧ x.waiting = false) →
    (s.rk c r).active.find? (fun b => decide (b.next < b.f.tiles)) = some a →
    exec (.tileStart c r false w) s = .next (if (s.rk c r).limbsFree < a.f.n * (accFmt a.f.acc).limbs
      then s.cntBy (Reg.RNK_LIMB_WAIT_CNT c r) w
      else s.setRk c r { s.rk c r with
        active := (s.rk c r).active.map (fun b => if b.id = a.id then { b with next := b.next + 1 } else b)
        tiles := (s.rk c r).tiles ++ [s.newTile a a.next false] })) ∧
  (∀ (s : State) (c : Fin 64) (r : Fin 13) (w : Nat) (a : ActiveMma), s.regsWf = true → s.quiesce c r = false →
    s.fld (Reg.RNK_CTL c r) Fld.RNK_CTL_UNGATED = 4 → (∀ x ∈ (s.rk c r).tiles, x.replay = none ∧ x.waiting = false) →
    (s.rk c r).active.find? (fun b => decide (b.next < b.f.tiles)) = some a → a.f.accrd = false →
    a.f.n * (accFmt a.f.acc).limbs ≤ (s.rk c r).limbsFree → s.fld Reg.GLB_RAS_CTL Fld.GLB_RAS_CTL_AUDIT_FRAC ≠ 0 →
    Completes (.tileStart c r true w) s (fun t =>
      counted (if s.auditFree c then Reg.GLB_AUDIT_CNT else Reg.GLB_AUDIT_SKIP_CNT) 1 s t ∧
      Near (· = if s.auditFree c then Reg.GLB_AUDIT_CNT else Reg.GLB_AUDIT_SKIP_CNT) (s.setRk c r { s.rk c r with
        active := (s.rk c r).active.map (fun b => if b.id = a.id then { b with next := b.next + 1 } else b)
        tiles := (s.rk c r).tiles ++ [s.newTile a a.next (s.auditFree c)] }) t)) ∧
  (∀ (s : State) (c : Fin 64) (r : Fin 13) (w : Nat) (sampled : Bool) (x : Tile) (a : ActiveMma), s.quiesce c r = false →
    s.fld (Reg.RNK_CTL c r) Fld.RNK_CTL_UNGATED = 4 → (∀ y ∈ (s.rk c r).tiles, y.replay = none) →
    (s.rk c r).tiles.find? (fun y => y.waiting) = some x → (s.rk c r).mmaOf x = some a →
    (a.f.opmode = 0 ∨ s.testing (unitId 5 c) = false) → a.f.n * (accFmt a.f.acc).limbs ≤ (s.rk c r).limbsFree →
    exec (.tileStart c r sampled w) s = .next (s.setRk c r ((s.rk c r).setTile x (x.restart a))) ∧
    (x.restart a).lanes = [] ∧ (x.restart a).slots = [] ∧ (x.restart a).waiting = false ∧ (x.restart a).errors = x.errors) ∧
  (∀ (s : State) (c : Fin 64) (r : Fin 13) (cycles : Nat), s.regsWf = true → (s.rk c r).stopped = true →
    (∀ e ∈ (s.rk c r).tap, e.2 < 16) → Completes (.chainRestart c r cycles) s (fun t => (t.rk c r).stopped = false ∧
      counted (Reg.RNK_CHAIN_STALL_CNT c r) cycles s t ∧
      Near (· = Reg.RNK_CHAIN_STALL_CNT c r) (s.setRk c r { s.rk c r with stopped := false }) t)) ∧
  (∀ (s : State) (c : Fin 64) (r : Fin 13), s.regsWf = true → s.quiesce c r = true → (∀ x ∈ (s.rk c r).tiles, x.waiting = true) →
    ((s.rk c r).switch = none → Completes (.rankQuiesced c r) s (fun t =>
      t.fld (Reg.RNK_CTL c r) Fld.RNK_CTL_QUIESCED = 1 ∧ Near (· = Reg.RNK_CTL c r) s t)) ∧
    (∀ w, (s.rk c r).switch = some w → (s.lanesWith c r w.lanes).length ≤ 4 → Completes (.rankQuiesced c r) s (fun t =>
      (t.rk c r).switch = none ∧ (t.rk c r).tiles = (s.rk c r).tiles ∧
      (∀ l, l < 128 → t.physLane c r l = (laneMap (s.lanesWith c r w.lanes)).getD l 0 % 256) ∧
      ∀ l ∈ w.lanes, l < 132 → t.unitState (unitId 3 ((c.val * 16 + r.val) * 256 + l)) = 3))) ∧
  (∀ (s : State) (c : Fin 64) (r : Fin 13) (v : BitVec 32), s.regsWf = true → Completes (.rnkCtlWrite 0 c r v) s (fun t =>
      t.quiesce c r = v.getLsbD 0 ∧ (v.getLsbD 0 = false → t.fld (Reg.RNK_CTL c r) Fld.RNK_CTL_QUIESCED = 0) ∧
      Near (· = Reg.RNK_CTL c r) (s.setRk c r { s.rk c r with selfQuiesced := false }) t)) ∧
  (∀ (s : State) (b : Fin 4) (c : Fin 64) (r : Fin 13) (v : BitVec 32) (x y : BitVec 64), b ≠ 0 → exec (.rnkCtlWrite b c r v) s = .next s ∧
    exec (.rnkSkewMapWrite b c r x) s = .next s ∧ exec (.cluRankMapWrite b c y) s = .next s)

/-- A tile on its rank, whatever else is there. LANE_ACCUMULATE: the K-steps the feeders have read join the rank's and the lane's buffers; the
first tile that is owed K-steps on the lane takes the next one exactly, or misses the window, is counted, and waits for its replay; a
K-step without its private block goes into the lane's tap buffer, stops the chain at the sixteenth and counts as a slip, as does one that
comes behind it; a bubble counts at lane 0, and a slipped lane takes a K-step from its buffer as a bubble passes or while the chain is stopped;
a failed check abandons the tile and charges the lane, a stage word whose parity fails stops it and charges its bank. WIDENING_REPLAY starts the
panel of a missed tile again in the wider format, waits for its limbs, or moves a tile to its next group of columns. DRAIN_BLOCK_READ drains
a ready block converted, to stage memory or into the drain's buffer; an emission pass emits or steps the exponent down; a tile whose output
is done leaves the rank, counts and signals; an audit passes or counts its mismatch (R52, R61, R72 to R78, R137, R445 to R448, R451). -/
def Obligations.RankTiles : Prop :=
  (∀ (s : State) (c : Fin 64) (r : Fin 13) (l : Fin 128) (ev : LaneEvent) (shared priv : Nat) (u : State) (k : Rank) (x : Tile) (a : ActiveMma),
    s.regsWf = true → u = s.fed c r l shared priv → k = u.rk c r → LaneFirst s c r l x a → ev = .step ∨ ev = .slip ∨ (ev = .bubble ∧ l.val = 0) →
    s.badStage = [] → k.stopped = false → (l.val = 0 → 0 < k.shared ∧ s.slotClosed (s.rk c r) = false) →
    (0 < k.priv.get 0 l → Completes (.laneAccumulate c r l ev shared priv) s (fun t =>
      (k.tap.get 0 l ≠ 0 → counted (Reg.RNK_SLIP_CNT c r) 1 s t) ∧
      match s.laneStep a x l with
      | some y => y.laneCount l = x.laneCount l + 1 ∧ Near (fun off => k.tap.get 0 l ≠ 0 ∧ off = Reg.RNK_SLIP_CNT c r)
          (u.setRk c r ((k.enters l).took x y l)) t
      | none => raised (Reg.RNK_STATUS c r) Fld.RNK_STATUS_WMISS (Reg.RNK_WMISS_CNT c r) s t ∧
          Near (fun off => k.tap.get 0 l ≠ 0 ∧ off = Reg.RNK_SLIP_CNT c r ∨ off = Reg.RNK_STATUS c r ∨ off = Reg.RNK_WMISS_CNT c r)
            (u.setRk c r ((k.enters l).missed x (replayFmt (maxSpread x.anchor (s.scalePairs a x.index))))) t)) ∧
    (k.priv.get 0 l = 0 → Completes (.laneAccumulate c r l ev shared priv) s (fun t => counted (Reg.RNK_SLIP_CNT c r) 1 s t ∧
      Near (· = Reg.RNK_SLIP_CNT c r) (u.setRk c r { k.enters l with
        tap := k.tap.set 0 l (min 16 (k.tap.get 0 l + 1)), stopped := decide (15 ≤ k.tap.get 0 l) }) t))) ∧
  (∀ (s : State) (c : Fin 64) (r : Fin 13) (l : Fin 128) (ev : LaneEvent) (shared priv : Nat) (u : State) (k : Rank) (x y : Tile)
    (a : ActiveMma), s.regsWf = true → u = s.fed c r l shared priv → k = u.rk c r → LaneFirst s c r l x a → s.badStage = [] →
    ev = .step ∨ ev = .slip ∨ ev = .bubble →
    k.stopped = true ∨ (l.val ≠ 0 ∧ ev = .bubble) ∨ (l.val = 0 ∧ (k.shared = 0 ∨ s.slotClosed (s.rk c r) = true)) →
    s.laneStep a x l = some y → Completes (.laneAccumulate c r l ev shared priv) s (fun t =>
      (l.val = 0 ∧ k.shared = 0 ∧ k.stopped = false → counted (Reg.RNK_BUBBLE_CNT c r) 1 s t) ∧
      (0 < k.tap.get 0 l ∧ 0 < k.priv.get 0 l → Near (fun off => (l.val = 0 ∧ k.shared = 0 ∧ k.stopped = false) ∧ off = Reg.RNK_BUBBLE_CNT c r)
        (u.setRk c r (({ k with tap := k.tap.set 0 l (k.tap.get 0 l - 1) } : Rank).took x y l)) t) ∧
      (k.tap.get 0 l = 0 ∨ k.priv.get 0 l = 0 →
        Near (fun off => (l.val = 0 ∧ k.shared = 0 ∧ k.stopped = false) ∧ off = Reg.RNK_BUBBLE_CNT c r) u t))) ∧
  (∀ (s : State) (c : Fin 64) (r : Fin 13) (l : Fin 128) (ev : LaneEvent) (shared priv : Nat), s.stopped = false → l.val ≠ 0 →
    (s.rk c r).tiles.find? (fun y => decide (0 < (s.rk c r).owed y l)) = none →
    exec (.laneAccumulate c r l ev shared priv) s = .next (s.feed c r l shared priv)) ∧
  (∀ (s : State) (c : Fin 64) (r : Fin 13) (l : Fin 128) (shared priv : Nat) (x : Tile) (a : ActiveMma), s.regsWf = true →
    LaneFirst s c r l x a → x.errors < 2 →
    Completes (.laneAccumulate c r l .residue shared priv) s (fun t => counted Reg.GLB_DETECT_CNT 1 s t ∧ (t.rk c r).tiles =
      ((s.rk c r).setTile x { x with
        waiting := true, lanes := [], slots := [], errors := x.errors + 1, stopAt := none, audited := false }).tiles ∧
      (t.rk c r).priv = [] ∧ (t.rk c r).shared = 0) ∧
    (a.f.opmode ≠ 0 → Completes (.laneAccumulate c r l .condResidue shared priv) s (fun t => counted Reg.GLB_DETECT_CNT 1 s t ∧ (t.rk c r).tiles =
      ((s.rk c r).setTile x { x with
        waiting := true, lanes := [], slots := [], errors := x.errors + 1, stopAt := none, audited := false }).tiles ∧
      (t.rk c r).priv = [] ∧ (t.rk c r).shared = 0)) ∧
    (a.f.opmode = 0 → Completes (.laneAccumulate c r l .condResidue shared priv) s (fun t =>
      Near (fun off => l.val = 0 ∧ off = Reg.RNK_BUBBLE_CNT c r) (s.fed c r l shared priv) t))) ∧
  (∀ (s : State) (c : Fin 64) (r : Fin 13) (l : Fin 128) (shared priv : Nat) (u : State) (k : Rank) (x : Tile) (a : ActiveMma) (w : Nat),
    s.regsWf = true → u = s.fed c r l shared priv → k = u.rk c r → LaneFirst s c r l x a → s.kBad a x l = some w → k.stopped = false →
    0 < k.priv.get 0 l → (l.val = 0 → 0 < k.shared ∧ s.slotClosed (s.rk c r) = false) →
    (x.stopAt = some w → exec (.laneAccumulate c r l .step shared priv) s = .next u) ∧
    (x.stopAt ≠ some w → x.errors < 2 → Completes (.laneAccumulate c r l .step shared priv) s (fun t => counted Reg.GLB_DETECT_CNT 1 s t ∧
      t.rk c r = k.setTile x { x with stopAt := some w, errors := x.errors + 1 }))) ∧
  (∀ (s : State) (c : Fin 64) (r : Fin 13) (w : Nat) (x : Tile) (a : ActiveMma) (f : AccFmt), s.regsWf = true →
    (s.rk c r).tiles.find? (fun y => y.replay.isSome) = some x → (s.rk c r).mmaOf x = some a → x.replay = some f →
    Completes (.wideningReplay c r w) s (fun t =>
      if min 40 (min a.f.n f.slots * f.limbs) ≤ (s.rk c r).limbsFree then
        counted (Reg.RNK_WREPLAY_CNT c r) 1 s t ∧ Near (· = Reg.RNK_WREPLAY_CNT c r) (s.setRk c r ((s.rk c r).setTile x { x with
          replay := none, fmt := f, group := 0, groupLen := min a.f.n f.slots, blocks := [] })) t
      else counted (Reg.RNK_LIMB_WAIT_CNT c r) w s t ∧ Near (· = Reg.RNK_LIMB_WAIT_CNT c r) s t)) ∧
  (∀ (s : State) (c : Fin 64) (r : Fin 13) (w : Nat), (∀ y ∈ (s.rk c r).tiles, y.replay = none) →
    (∀ x a, (s.rk c r).tiles.find? (s.rk c r).groupDone = some x → (s.rk c r).mmaOf x = some a →
      exec (.wideningReplay c r w) s = .next (s.setRk c r ((s.rk c r).setTile x { x with
        group := x.group + x.groupLen, groupLen := min x.groupLen (a.f.n - (x.group + x.groupLen)), lanes := [] }))) ∧
    ((s.rk c r).tiles.find? (s.rk c r).groupDone = none → exec (.wideningReplay c r w) s = .next s)) ∧
  (∀ (s u v : State) (c : Fin 64) (r : Fin 13) (stalled : Nat) (accepted : Bool), s.regsWf = true →
    u = (s.cntBy (Reg.RNK_DRAIN_STALL_CNT c r) stalled).bumpClu c 0x0B 0 stalled →
    (accepted = true → v = u.flushOut c r) → (accepted = false → v = u) →
    counted (Reg.RNK_DRAIN_STALL_CNT c r) stalled s u ∧ Near (· = Reg.RNK_DRAIN_STALL_CNT c r) s u ∧
    (accepted = false → (s.rk c r).out ≠ [] → exec (.drainBlockRead c r stalled accepted) s = .next u) ∧
    (accepted = true ∨ (s.rk c r).out = [] →
      ((v.rk c r).nextOut = none → exec (.drainBlockRead c r stalled accepted) s = .next v) ∧
      ∀ x a col b, (v.rk c r).nextOut = some (x, a, col, b) → exec (.drainBlockRead c r stalled accepted) s = .next (
        if accepted then
          (v.setRk c r ((v.rk c r).setTile x { x with blocks := x.blocks ++ [4 * col + b] })).writeOut c a.o (v.blockOut a x col b)
        else v.setRk c r { (v.rk c r).setTile x { x with blocks := x.blocks ++ [4 * col + b] } with
          out := (v.rk c r).out ++ [v.blockOut a x col b] }))) ∧
  (∀ (s u : State) (c : Fin 64) (r : Fin 13) (stalled : Nat) (x : Tile) (a : ActiveMma), s.regsWf = true →
    u = (s.cntBy (Reg.RNK_DRAIN_STALL_CNT c r) stalled).bumpClu c 0x0B 0 stalled → (s.rk c r).nextPass = some (x, a) →
    Completes (.emissionPass c r stalled) s (fun t =>
      if fp8Overflows ((elemFmt a.o.fmt).getD .e4m3) ((s.tileVals a x).map (·.2.1)) x.exp a.f.mode ((s.tileVals a x).map (·.2.2)) = false then
        t = u.setRk c r { (s.rk c r).setTile x { x with emitted := true } with out := [s.fp8Out a x] }
      else if x.steps < 8 ∧ -128 < x.exp then
        raised (Reg.RNK_STATUS c r) Fld.RNK_STATUS_SSTEP (Reg.RNK_SSTEP_CNT c r) s t ∧
        Near (fun off => off = Reg.RNK_STATUS c r ∨ off = Reg.RNK_SSTEP_CNT c r)
          (u.setRk c r ((s.rk c r).setTile x { x with exp := x.exp - 1, steps := x.steps + 1 })) t
      else
        raised (Reg.RNK_STATUS c r) Fld.RNK_STATUS_SEXH (Reg.RNK_SEXH_CNT c r) s t ∧
        Near (fun off => off = Reg.RNK_STATUS c r ∨ off = Reg.RNK_SEXH_CNT c r)
          (u.setRk c r { (s.rk c r).setTile x { x with emitted := true, exh := true } with out := [s.fp8Out a x] }) t)) ∧
  (∀ (s : State) (c : Fin 64) (r : Fin 13) (stalled : Nat), (s.rk c r).nextPass = none →
    exec (.emissionPass c r stalled) s = .next ((s.cntBy (Reg.RNK_DRAIN_STALL_CNT c r) stalled).bumpClu c 0x0B 0 stalled)) ∧
  (∀ (s v : State) (c : Fin 64) (r : Fin 13) (x : Tile) (a : ActiveMma), v = s.flushOut c r → v.regsWf = true →
    (s.rk c r).nextDone = some (x, a) → (v.rk c r).tiles = (s.rk c r).tiles → (v.rk c r).active = (s.rk c r).active →
    a.fp8 = false → a.f.accrd = false → signalPlain v c a.entry.sig → Completes (.tileComplete c r) s (fun t =>
      counted (Reg.RNK_TILE_CNT c r) 1 v t ∧ (t.rk c r).tiles = (s.rk c r).tiles.erase x ∧ (t.rk c r).active =
        ((s.rk c r).active.map (fun b => if b.id = a.id then { b with done := b.done + 1 } else b)).filter (fun b => b.done != b.f.tiles) ∧
      Signalled (· = Reg.RNK_TILE_CNT c r) c a.entry portRank (v.setRk c r (t.rk c r)) t)) ∧
  (∀ (s : State) (c : Fin 64) (r : Fin 13), (s.rk c r).nextDone = none → exec (.tileComplete c r) s = .next s) ∧
  (∀ (s : State) (c : Fin 64) (third : Bool) (r : Fin 13) (x : Tile) (a : ActiveMma), s.auditAt c = some (r.val, a, x) →
    exec (.auditCompare c false false third) s = .next (s.setRk c r ((s.rk c r).setTile x { x with auditDone := true }))) ∧
  (∀ (s : State) (c : Fin 64) (h v third : Bool) (r : Fin 13) (x : Tile) (a : ActiveMma), s.regsWf = true → s.auditAt c = some (r.val, a, x) →
    (h = true ∨ v = true) → x.errors < 2 → Completes (.auditCompare c h v third) s (fun t =>
      counted Reg.GLB_AUDIT_MISMATCH_CNT 1 s t ∧ t.fld Reg.GLB_RAS_STATUS (bitField 5) = 1 ∧
      counted Reg.GLB_DETECT_CNT (if third = false ∧ h ≠ v then 1 else 2) s t ∧
      (t.rk c r).tiles = ((s.rk c r).setTile x (if third = false ∧ h ≠ v then { x with auditDone := true }
        else { x.restart a with errors := x.errors + 1, audited := true })).tiles)) ∧
  (∀ (s : State) (c : Fin 64) (h v third : Bool), s.auditAt c = none → exec (.auditCompare c h v third) s = .next s)

/-- The maps of a rank and a cluster: RNK_SKEW_MAP is taken by T0 on a quiesced rank and RNK_LMAP follows it, retired lanes served by the
spares in order; CLU_RANK_MAP is taken where its ranks are distinct and every rank whose assignment changes is quiesced, the work of a logical
rank going with it, and is otherwise rejected with MAP_ERR (R85, R87, R88, R91, R95). -/
def Obligations.RankMaps : Prop :=
  (∀ (s : State) (c : Fin 64) (r : Fin 13) (v : BitVec 64) (ls : List Nat), s.regsWf = true → skewLanes v = some ls →
    s.fld (Reg.RNK_CTL c r) Fld.RNK_CTL_QUIESCED = 1 → Completes (.rnkSkewMapWrite 0 c r v) s (fun t =>
      (∀ l, l < 128 → t.physLane c r l = (laneMap ls).getD l 0 % 256) ∧
      Near (fun off => off = Reg.RNK_SKEW_MAP c r ∨ ∃ j, j < 16 ∧ off = Reg.RNK_LMAP c r j) s t)) ∧
  (∀ (s : State) (c : Fin 64) (r : Fin 13) (v : BitVec 64), s.regsWf = true →
    (skewLanes v = none ∨ s.fld (Reg.RNK_CTL c r) Fld.RNK_CTL_QUIESCED = 0) → Completes (.rnkSkewMapWrite 0 c r v) s (fun t =>
      raised (Reg.RNK_STATUS c r) Fld.RNK_STATUS_SKEW_ERR (Reg.RNK_SKEW_ERR_CNT c r) s t ∧
      Near (fun off => off = Reg.RNK_STATUS c r ∨ off = Reg.RNK_SKEW_ERR_CNT c r) s t)) ∧
  (∀ (s : State) (c : Fin 64) (v : BitVec 64), s.regsWf = true →
    (∀ i, i < 12 → v.toNat / 2 ^ (4 * i) % 16 < 13) → (∀ i j, i < j → j < 12 → v.toNat / 2 ^ (4 * i) % 16 ≠ v.toNat / 2 ^ (4 * j) % 16) →
    (∀ p, p < 13 → servedBy (s.rd (Reg.CLU_RANK_MAP c)) p = servedBy v p ∨ s.fld (Reg.RNK_CTL c p) Fld.RNK_CTL_QUIESCED = 1) →
    Completes (.cluRankMapWrite 0 c v) s (fun t =>
      (∀ i, i < 12 → t.physRank c i = v.toNat / 2 ^ (4 * i) % 16) ∧
      ((∀ i j, i < j → j < 12 → s.physRank c i ≠ s.physRank c j) → ∀ i, i < 12 →
        (t.physRank c i = s.physRank c i → t.rk c (t.physRank c i) = s.rk c (s.physRank c i)) ∧
        (t.physRank c i ≠ s.physRank c i →
          (t.rk c (t.physRank c i)).active =
            (if (List.range 12).any (fun j => s.physRank c j == t.physRank c i) then [] else (s.rk c (t.physRank c i)).active)
              ++ (s.rk c (s.physRank c i)).active.map (fun a => { a with id := a.id + (s.rk c (t.physRank c i)).nextId }) ∧
          (t.rk c (t.physRank c i)).tiles =
            (if (List.range 12).any (fun j => s.physRank c j == t.physRank c i) then [] else (s.rk c (t.physRank c i)).tiles)
              ++ (s.rk c (s.physRank c i)).tiles.map (fun x => { x with mma := x.mma + (s.rk c (t.physRank c i)).nextId }))) ∧
      (∀ off, off ≠ Reg.CLU_RANK_MAP c → t.rd off = s.rd off) ∧ t.mem = s.mem)) ∧
  (∀ (s : State) (c : Fin 64) (v : BitVec 64), s.regsWf = true →
    ((∃ i j, i < j ∧ j < 12 ∧ v.toNat / 2 ^ (4 * i) % 16 = v.toNat / 2 ^ (4 * j) % 16) ∨ (∃ i, i < 12 ∧ 13 ≤ v.toNat / 2 ^ (4 * i) % 16) ∨
      ∃ p, p < 13 ∧ servedBy (s.rd (Reg.CLU_RANK_MAP c)) p ≠ servedBy v p ∧ s.fld (Reg.RNK_CTL c p) Fld.RNK_CTL_QUIESCED = 0) →
    Completes (.cluRankMapWrite 0 c v) s (fun t =>
      raised (Reg.CLU_STATUS c) Fld.CLU_STATUS_MAP_ERR (Reg.CLU_MAP_ERR_CNT c) s t ∧ t.rd (Reg.CLU_RANK_MAP c) = s.rd (Reg.CLU_RANK_MAP c) ∧
      Near (fun off => off = Reg.CLU_STATUS c ∨ off = Reg.CLU_MAP_ERR_CNT c) s t))

/-! ### Instructions of the sequencer (spec/05_askeb_model.md, spec/06_askeb_reference.md) -/

/-- MOV.S writes its value into a scalar register, s0 staying 0: the immediate, a register plus the immediate, eight bytes of stage memory,
the chip, cluster, tenant or context number, or CAD_POS; with the SLOT form it writes the current sequence slot where the tenant owns it.
Decode goes on at the next word, or at the start of the innermost loop body that ends there and runs again (R131, R134, R144, R194). -/
def Obligations.MovScalar : Prop :=
  (∀ (s : State) (c : Fin 64) (w : BitVec 128), Ready s c w 0x33 → signalFits s c w → bitsOf w 95 93 ≠ 2 → bitsOf w 87 87 = 0 →
    Completes (.movS c w) s (fun t =>
      ((s.cl c).loops = [] → (∀ i, i < 32 → (t.cl c).s i =
          if i = 0 then 0 else if i = bitsOf w 92 88 then s.movsValue c (s.capture_ c w) else (s.cl c).s i) ∧
        t.rd (Reg.SEQ_PC c) = s.rd (Reg.SEQ_PC c) + 1) ∧
      (t.cl c).hold = none ∧ counted (Reg.SEQ_INSN_CNT c) 1 s t ∧ SeqRan c s t)) ∧
  (∀ (s : State) (c : Fin 64) (w : BitVec 128), Ready s c w 0x33 → signalFits s c w → bitsOf w 95 93 = 2 → bitsOf w 87 87 = 0 →
    (s.capture_ c w).movsAddr % 8 = 0 → inStage c (s.capture_ c w).movsAddr 8 = true →
    s.regionOk (s.seqTenant c) (s.capture_ c w).movsAddr 8 .rd = true → s.badStage = [] → (s.cl c).loops = [] →
    Completes (.movS c w) s (fun t => (bitsOf w 92 88 ≠ 0 → (t.cl c).s (bitsOf w 92 88) =
      BitVec.ofNat 64 (s.peekNat (s.capture_ c w).movsAddr 8)) ∧ SeqRan c s t)) ∧
  (∀ (s : State) (c : Fin 64) (w : BitVec 128), Ready s c w 0x33 → signalFits s c w → bitsOf w 95 93 ≠ 2 → bitsOf w 87 87 = 1 →
    (s.movsValue c (s.capture_ c w)).toNat < 16 → s.slotOwner (s.movsValue c (s.capture_ c w)).toNat = s.seqTenant c →
    Completes (.movS c w) s (fun t => t.seqSlot c = (s.movsValue c (s.capture_ c w)).toNat ∧ SeqRan c s t)) ∧
  (∀ (s : State) (c : Fin 64) (w : BitVec 128) (l : LoopEntry) (rest : List LoopEntry), Ready s c w 0x33 → signalFits s c w →
    bitsOf w 95 93 ≠ 2 → bitsOf w 87 87 = 0 → (s.cl c).loops = l :: rest → l.suspended = false →
    s.seqPc c + 1 = l.bodyStart + l.bodyLen → l.iter + 1 < l.trip → l.bodyStart < 2 ^ 64 → Completes (.movS c w) s (fun t =>
      t.seqPc c = l.bodyStart ∧ (t.cl c).loops = { l with iter := l.iter + 1 } :: rest ∧
      (l.ireg ≠ 0 → (t.cl c).s l.ireg = l.start + BitVec.ofNat 64 (l.iter + 1) * l.stride) ∧ SeqRan c s t))

/-- WAIT of k on a token with at least k, after what the port heads that wait on it take, takes k and goes on; with fewer it holds decode
and leaves the count. SIGNAL adds its count to a
token of a cluster of the tenant, or leaves as a packet of TC2 for another chip (R136, R137, R202 to R204). -/
def Obligations.TokenInstructions : Prop :=
  (∀ (s : State) (c : Fin 64) (w : BitVec 128) (k n : Nat), Ready s c w 0x50 → signalFits s c w → k = bitsOf w 95 88 → n = bitsOf w 87 64 →
    k ≠ 0 → n ≠ 0 → n + s.claims c k ≤ s.tok c k → bitsOf w 111 104 ≠ k → Completes (.wait c w) s (fun t =>
      (bitsOf w 103 96 ≠ k → s.fld (Reg.SEQ_TOKEN c (bitsOf w 103 96)) Fld.SEQ_TOKEN_FWD ≠ k → t.tok c k = s.tok c k - n) ∧
      (t.cl c).hold = none ∧ ((s.cl c).loops = [] → t.rd (Reg.SEQ_PC c) = s.rd (Reg.SEQ_PC c) + 1) ∧ SeqRan c s t)) ∧
  (∀ (s : State) (c : Fin 64) (w : BitVec 128) (k n : Nat), Ready s c w 0x50 → k = bitsOf w 95 88 → n = bitsOf w 87 64 →
    k ≠ 0 → s.tok c k < n + s.claims c k → bitsOf w 111 104 ≠ k → Completes (.wait c w) s (fun t => t.tok c k = s.tok c k ∧
      (t.cl c).hold = some (Hold.mk (.wait k n) (s.capture_ c w) s.now) ∧ t.rd (Reg.SEQ_PC c) = s.rd (Reg.SEQ_PC c) ∧ SeqRan c s t)) ∧
  (∀ (s : State) (c d : Fin 64) (w : BitVec 128) (k n : Nat), Ready s c w 0x51 → signalFits s c w → bitsOf w 57 57 = 0 →
    d.val = bitsOf w 63 58 → d ≠ c → k = bitsOf w 95 88 → n = bitsOf w 87 64 → k ≠ 0 → n ≠ 0 →
    s.ctxState (s.seqTenant c) d ≠ 2 → s.ctxState (s.seqTenant c) d ≠ 3 → s.ctxState (s.seqTenant c) d ≠ 5 →
    (s.seqState d = 0 ∨ s.seqTenant d = s.seqTenant c) → (s.cl d).hold = none → s.tok d k + n < 2 ^ 24 →
    s.fld (Reg.SEQ_TOKEN d k) Fld.SEQ_TOKEN_FWD = 0 → Completes (.signal c w) s (fun t =>
      t.tok d k = s.tok d k + n ∧ (t.cl d).prod.get 0 k = s.localPeer c 4 (s.seqPc c) ∧
      ∃ u, Near (· = Reg.SEQ_TOKEN d k) (s.modCl d (fun x => { x with prod := x.prod.set 0 k (s.localPeer c 4 (s.seqPc c)) })) u ∧
        SeqRan c u t)) ∧
  (∀ (s : State) (c : Fin 64) (w : BitVec 128), Ready s c w 0x51 → signalFits s c w → bitsOf w 57 57 = 1 → bitsOf w 87 64 ≠ 0 →
    s.inTorus (s.capture_ c w).signalChip = true → s.fenced (s.capture_ c w).signalChip = false → Completes (.signal c w) s (fun t =>
      SeqRan c (s.inject { dst := (s.capture_ c w).signalChip, src := s.chip, tc := 2, type := 4, dclu := bitsOf w 63 58, sclu := c
                           body := leBytes 4 (bitsOf w 95 88) ++ leBytes 4 (bitsOf w 87 64) }) t))

/-- CWAIT goes on where the position is reached and holds decode otherwise; BEAT on the master cluster's chip makes its register the
position; YIELD with nothing requested counts a yield point and goes on; FENCE goes on when its ports have drained and holds decode
otherwise, until FENCE_RELEASE (R22, R139, R147 to R150, R202). -/
def Obligations.PositionInstructions : Prop :=
  (∀ (s : State) (c : Fin 64) (w : BitVec 128), Ready s c w 0x52 → signalFits s c w →
    (s.capture_ c w).scal.get 0 (bitsOf w 95 91) ≤ s.rd Reg.CAD_POS → Completes (.cwait c w) s (fun t => (t.cl c).hold = none ∧
      ((s.cl c).loops = [] → t.rd (Reg.SEQ_PC c) = s.rd (Reg.SEQ_PC c) + 1) ∧ SeqRan c s t)) ∧
  (∀ (s : State) (c : Fin 64) (w : BitVec 128), Ready s c w 0x52 → bitsOf w 90 90 = 0 →
    s.rd Reg.CAD_POS < (s.capture_ c w).scal.get 0 (bitsOf w 95 91) → Completes (.cwait c w) s (fun t =>
      (t.cl c).hold = some (Hold.mk (.cwait ((s.capture_ c w).scal.get 0 (bitsOf w 95 91)) false) (s.capture_ c w) s.now) ∧
      t.rd (Reg.SEQ_PC c) = s.rd (Reg.SEQ_PC c) ∧ SeqRan c s t)) ∧
  (∀ (s : State) (c : Fin 64) (w : BitVec 128) (p : BitVec 64), Ready s c w 0x53 → signalFits s c w → calm s →
    s.fld Reg.CAD_CTL Fld.CAD_CTL_SRC = 2 → s.fld Reg.CAD_CTL Fld.CAD_CTL_EN = 1 → s.seqTenant c = 1 → (s.image 1).cadMaster = s.chip →
    (s.image 1).beatCluster = c → p = (s.capture_ c w).scal.get 0 (bitsOf w 95 91) → s.rd Reg.CAD_POS < p → phaseOf p ≠ 6 →
    phaseOf p ≠ 7 → Completes (.beat c w) s (fun t => t.rd Reg.CAD_POS = p ∧ counted Reg.CAD_BEAT_CNT 1 s t ∧
      (∃ q, t.rt.rin = s.rt.rin ++ [{ p := q }] ∧ q.type = 5 ∧ q.tc = 2 ∧ q.mc = true ∧ q.body = leBytes 8 p.toNat) ∧
      (t.cl c).hold = none ∧ t.mem = s.mem ∧ clustersKept c s t)) ∧
  (∀ (s : State) (c : Fin 64) (w : BitVec 128), Ready s c w 0x54 → signalFits s c w → (s.cl c).requested = false →
    Completes (.yieldI c w) s (fun t => counted (Reg.SEQ_YIELD_CNT c) 1 s t ∧ (t.cl c).hold = none ∧ (t.cl c).yieldAt = s.now ∧
      (t.cl c).yieldHeld = 0 ∧ (∀ e ∈ (t.cl c).pref, e.due = true) ∧
      t.fld (Reg.SEQ_YIELD_GAP_MAX c) Fld.SEQ_YIELD_GAP_MAX_NS =
        max (s.now - (s.cl c).yieldAt - (s.cl c).yieldHeld) (s.fld (Reg.SEQ_YIELD_GAP_MAX c) Fld.SEQ_YIELD_GAP_MAX_NS)
          % 2 ^ Fld.SEQ_YIELD_GAP_MAX_NS.width ∧
      (∀ off, ¬ seqRegs c off → off ≠ Reg.SEQ_YIELD_CNT c → off ≠ Reg.SEQ_YIELD_GAP_MAX c → off ≠ Reg.SEQ_YIELD_LATE_CNT c →
        observes off = false → t.rd off = s.rd off) ∧
      clustersKept c s t ∧ { t with regs := s.regs, rings := s.rings, clu := s.clu } = s)) ∧
  (∀ (s : State) (c : Fin 64) (w : BitVec 128), Ready s c w 0x55 → signalFits s c w →
    ((bitsOf w 95 92).testBit 2 = false ∨ (s.cl c).pref = []) →
    (s.portsDone c (bitsOf w 95 92) = true → Completes (.fence c w) s (fun t => (t.cl c).hold = none ∧
      ((s.cl c).loops = [] → t.rd (Reg.SEQ_PC c) = s.rd (Reg.SEQ_PC c) + 1) ∧ SeqRan c s t)) ∧
    (s.portsDone c (bitsOf w 95 92) = false → Completes (.fence c w) s (fun t =>
      (t.cl c).hold = some (Hold.mk (.fence (bitsOf w 95 92)) (s.capture_ c w) s.now) ∧
      t.rd (Reg.SEQ_PC c) = s.rd (Reg.SEQ_PC c) ∧ SeqRan c s t))) ∧
  (∀ (s : State) (c : Fin 64) (w : BitVec 128), Ready s c w 0x55 → (bitsOf w 95 92).testBit 2 = true → (s.cl c).pref ≠ [] →
    Completes (.fence c w) s (fun t => (t.cl c).hold = some (Hold.mk (.fence (bitsOf w 95 92)) (s.capture_ c w) s.now) ∧
      (t.cl c).pref.length = (s.cl c).pref.length ∧ (∀ e ∈ (t.cl c).pref, e.due = true) ∧
      t.rd (Reg.SEQ_PC c) = s.rd (Reg.SEQ_PC c) ∧ clustersKept c s t ∧ t.mem = s.mem)) ∧
  (∀ (s : State) (c : Fin 64) (ports since : Nat) (e : QEntry), s.regsWf = true → s.seqState c = 1 →
    (s.cl c).hold = some (Hold.mk (.fence ports) e since) → signalFits s c e.word →
    (s.portsDone c ports = true → Completes (.fenceRelease c) s (fun t => (t.cl c).hold = none ∧
      ((s.cl c).loops = [] → t.seqPc c = (e.pc + 1) % 2 ^ 64) ∧ SeqRan c s t)) ∧
    (s.portsDone c ports = false → exec (.fenceRelease c) s = .next s))

/-- LOOP with a trip count of 0 skips its body; otherwise it pushes its entry, writes its start value and goes on in the body. BR jumps to
PC plus its offset, writes its predicate with the comparison, jumps where the comparison holds, or returns from a recompute segment with
the loops active again. A predicated-off MOV.S, CWAIT, BEAT, FENCE or BR only goes on, a LOOP behind its body (R143 to R146, R205, R206). -/
def Obligations.ControlFlow : Prop :=
  (∀ (s : State) (c : Fin 64) (w : BitVec 128) (trip : Nat), Ready s c w 0x60 → signalFits s c w → bitsOf w 84 65 ≠ 0 →
    (s.cl c).loops.length < 8 → s.seqPc c + 1 + bitsOf w 84 65 ≤ s.streamLen c →
    trip = (if bitsOf w 90 90 = 1 then ((s.capture_ c w).scal.get 0 (bitsOf w 89 85)).toNat else bitsOf w 64 41) →
    (trip ≠ 0 → (∀ l ∈ (s.cl c).loops, l.suspended = true) → Completes (.loop c w) s (fun t =>
      (∃ l, (t.cl c).loops = l :: (s.cl c).loops ∧ l.trip = trip ∧ l.iter = 0 ∧ l.bodyStart = s.seqPc c + 1 ∧
        l.bodyLen = bitsOf w 84 65 ∧ l.start = BitVec.ofInt 64 (toSigned 24 (bitsOf w 40 17)) ∧
        l.stride = BitVec.ofInt 64 (toSigned 16 (bitsOf w 16 1)) ∧ (l.ireg ≠ 0 → (t.cl c).s l.ireg = l.start) ∧ l.ireg = bitsOf w 95 91) ∧
      t.rd (Reg.SEQ_PC c) = s.rd (Reg.SEQ_PC c) + 1 ∧ SeqRan c s t)) ∧
    (trip = 0 → (s.cl c).loops = [] → Completes (.loop c w) s (fun t => (t.cl c).loops = [] ∧
      t.rd (Reg.SEQ_PC c) = s.rd (Reg.SEQ_PC c) + 1 + BitVec.ofNat 64 (bitsOf w 84 65) ∧ SeqRan c s t))) ∧
  (∀ (s : State) (c : Fin 64) (w : BitVec 128) (to_ : Nat), Ready s c w 0x61 → signalFits s c w → bitsOf w 95 92 ≠ 3 →
    (s.capture_ c w).brTaken = true → (to_ : Int) = (s.capture_ c w).brTarget → to_ < s.streamLen c → (s.cl c).loops = [] →
    s.inIdleBody c to_ = false → Completes (.br c w) s (fun t => t.rd (Reg.SEQ_PC c) = BitVec.ofNat 64 to_ ∧
      (bitsOf w 95 92 = 2 → bitsOf w 91 89 ≠ 0 → (t.cl c).p (bitsOf w 91 89) = true) ∧ SeqRan c s t)) ∧
  (∀ (s : State) (c : Fin 64) (w : BitVec 128), Ready s c w 0x61 → signalFits s c w → (bitsOf w 95 92 = 1 ∨ bitsOf w 95 92 = 2) →
    (s.capture_ c w).brTaken = false → (s.cl c).loops = [] → Completes (.br c w) s (fun t =>
      t.rd (Reg.SEQ_PC c) = s.rd (Reg.SEQ_PC c) + 1 ∧
      (∀ i, i < 8 → (t.cl c).p i = if i = 0 then true else if i = bitsOf w 91 89 then (s.capture_ c w).compare else (s.cl c).p i) ∧
      SeqRan c s t)) ∧
  (∀ (s : State) (c : Fin 64) (w : BitVec 128) (back depth : Nat), Ready s c w 0x61 → signalFits s c w → bitsOf w 95 92 = 3 →
    (s.cl c).ret = some (back, depth) → (s.cl c).loops.length = depth → (∀ l ∈ (s.cl c).loops, back ≠ l.bodyStart + l.bodyLen) →
    Completes (.br c w) s (fun t => t.rd (Reg.SEQ_PC c) = BitVec.ofNat 64 back ∧ (t.cl c).ret = none ∧
      (t.cl c).loops = (s.cl c).loops.map (fun l => { l with suspended := false }) ∧ SeqRan c s t)) ∧
  (∀ (s : State) (c : Fin 64) (w : BitVec 128), s.regsWf = true → s.canDecode c w = true → (s.cl c).hold = none →
    bitsOf w 127 120 = 0x60 → s.decodeCheck c w = none → (s.capture_ c w).pred = false → s.headerOk c (bitsOf w 111 104) = true →
    signalFits s c w → (s.cl c).loops = [] → Completes (.loop c w) s (fun t =>
      t.rd (Reg.SEQ_PC c) = s.rd (Reg.SEQ_PC c) + 1 + BitVec.ofNat 64 (bitsOf w 84 65) ∧ (t.cl c).loops = [] ∧ SeqRan c s t)) ∧
  (∀ x ∈ [((0x33 : Nat), (Instr.movS : Fin 64 → BitVec 128 → Instr)), (0x52, .cwait), (0x53, .beat), (0x55, .fence), (0x61, .br)],
    ∀ (s : State) (c : Fin 64) (w : BitVec 128), s.regsWf = true → s.canDecode c w = true → (s.cl c).hold = none →
    bitsOf w 127 120 = x.1 → s.decodeCheck c w = none → (s.capture_ c w).pred = false → s.headerOk c (bitsOf w 111 104) = true →
    signalFits s c w → (s.cl c).loops = [] → Completes (x.2 c w) s (fun t => t.rd (Reg.SEQ_PC c) = s.rd (Reg.SEQ_PC c) + 1 ∧
      (t.cl c).hold = none ∧ (t.cl c).sreg = (s.cl c).sreg ∧ (t.cl c).preds = (s.cl c).preds ∧ SeqRan c s t))

/-! ### The vector engine, the conditioner and STEST (spec/04_vector_engine.md, spec/06_askeb_reference.md) -/

/-- VEC_GRANULE executes the current granule of the running instruction: the core cycles it waited for stage memory count, its results are
written, and the next granule follows or, after the last, the instruction completes, counts and signals; a detected error of its data or a
failed residue check charges the error and has the granule run again, the latter after the unit's test; VEC_GRANULE_REEXEC runs a waiting
granule again and counts. CONDITIONER_PASS_END writes the destinations of the MOV.C, completes it and signals, or has it run again likewise
(R104, R105, R137, R192, R217, R225, R445 to R447). -/
def Obligations.UnitPasses : Prop :=
  (∀ (s v u : State) (c : Fin 64) (waited : Nat) (err : MemErr) (j : VecJob) (bs : List Byte), s.regsWf = true → s.stopped = false →
    (s.cl c).vec = some j → j.waiting = false →
    v = (if waited = 0 then s else (s.cntBy (Reg.VEC_PORT_WAIT_CNT c) waited).bumpClu c 0x0D 0 waited) →
    (v.meet err (s.seqTenant c)).readPieces (j.granuleReads j.granule) = (.ok bs, u) →
    counted (Reg.VEC_PORT_WAIT_CNT c) waited s v ∧ Near (· = Reg.VEC_PORT_WAIT_CNT c) s v ∧
    exec (.vecGranule c false waited err) s = .next (u.vecRun c j)) ∧
  (∀ (s v u : State) (c : Fin 64) (waited : Nat) (err : MemErr) (j : VecJob) (bs : List Byte), s.stopped = false →
    (s.cl c).vec = some j → j.waiting = false →
    v = (if waited = 0 then s else (s.cntBy (Reg.VEC_PORT_WAIT_CNT c) waited).bumpClu c 0x0D 0 waited) →
    (v.meet err (s.seqTenant c)).readPieces (j.granuleReads j.granule) = (.ok bs, u) → u.regsWf = true → j.fails < 2 →
    Completes (.vecGranule c true waited err) s (fun t => (t.cl c).vec = some { j with fails := j.fails + 1, waiting := true } ∧
      counted Reg.GLB_DETECT_CNT 1 u t ∧ t.fld Reg.GLB_RAS_STATUS (bitField 0) = 1)) ∧
  (∀ (s v u : State) (c : Fin 64) (residue : Bool) (waited : Nat) (err : MemErr) (j : VecJob) (h : Bool) (a : Nat), s.stopped = false →
    (s.cl c).vec = some j → j.waiting = false →
    v = (if waited = 0 then s else (s.cntBy (Reg.VEC_PORT_WAIT_CNT c) waited).bumpClu c 0x0D 0 waited) →
    (v.meet err (s.seqTenant c)).readPieces (j.granuleReads j.granule) = (.detected h a, u) → u.regsWf = true → j.fails < 2 →
    Completes (.vecGranule c residue waited err) s (fun t => (t.cl c).vec = some { j with fails := j.fails + 1, waiting := false } ∧
      counted Reg.GLB_DETECT_CNT 1 u t ∧ t.fld Reg.GLB_RAS_STATUS (bitField 0) = 1)) ∧
  (∀ (u w : State) (c : Fin 64) (j : VecJob), w = u.vecEffect c j j.granule → w.regsWf = true →
    (j.granule + 1 < j.granules → Near (fun _ => False)
      (w.setVec c (some { j with granule := j.granule + 1, fails := 0, waiting := false })) (u.vecRun c j)) ∧
    (j.granules ≤ j.granule + 1 → signalPlain w c j.entry.sig → counted (Reg.VEC_OP_CNT c) 1 w (u.vecRun c j) ∧
      Signalled (· = Reg.VEC_OP_CNT c) c j.entry portVector (w.setVec c none) (u.vecRun c j))) ∧
  (∀ (s u : State) (c : Fin 64) (err : MemErr) (j : VecJob) (bs : List Byte), s.regsWf = true → s.stopped = false → (s.cl c).vec = some j →
    j.waiting = true → s.testing (unitId 4 c) = false →
    ((s.cnt (Reg.VEC_GRANULE_REEXEC_CNT c)).meet err (s.seqTenant c)).readPieces (j.granuleReads j.granule) = (.ok bs, u) →
    counted (Reg.VEC_GRANULE_REEXEC_CNT c) 1 s (s.cnt (Reg.VEC_GRANULE_REEXEC_CNT c)) ∧
    exec (.vecGranuleReexec c false err) s = .next (u.vecRun c { j with waiting := false }) ∧
    (u.regsWf = true → j.fails < 2 → Completes (.vecGranuleReexec c true err) s (fun t =>
      (t.cl c).vec = some { j with fails := j.fails + 1, waiting := true } ∧ counted Reg.GLB_DETECT_CNT 1 u t))) ∧
  (∀ (s : State) (c : Fin 64) (residue : Bool) (err : MemErr) (j : VecJob), (s.cl c).vec = some j → j.waiting = true →
    s.testing (unitId 4 c) = true → exec (.vecGranuleReexec c residue err) s = .next s) ∧
  (∀ (s u w : State) (c : Fin 64) (err : MemErr) (j : CondJob) (bs : List Byte), (s.cl c).cond = some j →
    j.waiting = false ∨ s.testing (unitId 5 c) = false →
    (s.meet err (s.seqTenant c)).readPieces (j.src.chunkPieces 0 j.src.total) = (.ok bs, u) →
    w = j.dests.foldl (fun v x => v.condWrite c j x.1 x.2.2.2) (u.spend 4 (j.src.count * j.dests.length)) → w.regsWf = true →
    signalPlain w c j.entry.sig → Completes (.conditionerPassEnd c false err) s (fun t => (t.cl c).cond = none ∧
      Signalled (fun _ => False) c j.entry portMover (w.modCl c (fun k => { k with cond := none })) t)) ∧
  (∀ (s u : State) (c : Fin 64) (err : MemErr) (j : CondJob) (bs : List Byte), (s.cl c).cond = some j →
    j.waiting = false ∨ s.testing (unitId 5 c) = false →
    (s.meet err (s.seqTenant c)).readPieces (j.src.chunkPieces 0 j.src.total) = (.ok bs, u) → u.regsWf = true → j.fails < 2 →
    Completes (.conditionerPassEnd c true err) s (fun t => (t.cl c).cond = some { j with fails := j.fails + 1, waiting := true } ∧
      counted Reg.GLB_DETECT_CNT 1 u t ∧ t.fld Reg.GLB_RAS_STATUS (bitField 0) = 1)) ∧
  (∀ (s u : State) (c : Fin 64) (residue : Bool) (err : MemErr) (j : CondJob) (h : Bool) (a : Nat), (s.cl c).cond = some j →
    j.waiting = false ∨ s.testing (unitId 5 c) = false →
    (s.meet err (s.seqTenant c)).readPieces (j.src.chunkPieces 0 j.src.total) = (.detected h a, u) → u.regsWf = true → j.fails < 2 →
    Completes (.conditionerPassEnd c residue err) s (fun t => (t.cl c).cond = some { j with fails := j.fails + 1, waiting := false } ∧
      counted Reg.GLB_DETECT_CNT 1 u t))

/-- STEST by a stream that may: the result of the test is written as its 64-byte record through DST, and the stream goes on; nothing else
changes (R207, R453 to R455). -/
def Obligations.StestRecords : Prop :=
  ∀ (s : State) (c : Fin 64) (w : BitVec 128) (res : TestResult) (d : Desc), Ready s c w 0x70 → signalFits s c w →
    d = s.descOf c (s.capture_ c w) (bitsOf w 79 72) → d.valid = true → d.fmt = 0x0F → d.count = 64 → d.ndim = 0 →
    bitsOf w 95 92 ≠ 2 → bitsOf w 91 80 < (if bitsOf w 95 92 = 0 then 13 else if bitsOf w 95 92 = 4 then 512 else 1) →
    patternOk (bitsOf w 95 92) (bitsOf w 71 56) = true → rangesInStage c d.ranges = true → s.rangesOk (s.seqTenant c) .wr d.ranges = true →
    s.badStage = [] → Completes (.stest c w res) s (fun t =>
      storedAt d.addr (testRecord ((s.capture_ c w).testUnit c) (bitsOf w 71 56) res s.now) s t ∧
      ((s.cl c).loops = [] → t.rd (Reg.SEQ_PC c) = s.rd (Reg.SEQ_PC c) + 1) ∧
      (∀ off, ¬ seqRegs c off → observes off = false → t.rd off = s.rd off) ∧ clustersKept c s t ∧ t.out = s.out)

/-! ### Movers (spec/08_movers_tenants_preemption.md) -/

/-- A mover copies a chunk, whatever moves: the destination's bytes become the source's, DONE and the fingerprint go on, the chunk counts;
at the last boundary a PUSH has its trailer, the transfer counts, the stack engine learns of it, the mover is free and the token signalled; for
two dense ranges of stage memory the whole effect on memory is stated. A chunk that its region table refuses moves nothing: the mover stops in
REGION_STOP, flag and counter rise, and the stream takes REGION_ASYNC. A detected error of its source or its destination stops it in DETECTED,
and so does a host port that is not up (R217, R218, R228, R235, R237, R256 to R259, R272). -/
def Obligations.MoverCopies : Prop :=
  (∀ (s u v z : State) (m : Fin 32) (err : MemErr) (r : MovRec) (bs : List Byte) (n : Nat), s.stopped = false → s.mover m = some r →
    r.state = 1 → (r.kind = 2 → (s.stkPart r.slot r.cluster).reading = 0) → n = min 65536 (r.total - r.done) → s.moverRefused r n = none →
    s.heldOff (r.srcD.chunkPieces r.done n ++ r.dstD.chunkPieces r.done n) = false → s.moverHostDown r = false →
    ((s.meet err r.tenant).spend 6 n).readPieces (r.srcD.chunkPieces r.done n) = (.ok bs, u) →
    u.moverPieces r (r.dstD.chunkPieces r.done n) bs = (none, z) → v = z.flushHosts (r.dstD.chunkPieces r.done n) → v.regsWf = true →
    (r.done + n < r.total → Completes (.moverChunk m err) s (fun t => counted Reg.MOV_CHUNK_CNT 1 v t ∧
      t.mover m = some { r with done := r.done + n, fp := crc64From r.fp bs } ∧ t.rd (Reg.MOV_FP m) = crc64From r.fp bs ∧
      t.fld (Reg.MOV_DONE m) Fld.MOV_DONE_DONE = (r.done + n) % 2 ^ Fld.MOV_DONE_DONE.width ∧
      Near (fun off => off = Reg.MOV_CHUNK_CNT ∨ off = Reg.MOV_STATE m ∨ off = Reg.MOV_DONE m ∨ off = Reg.MOV_FP m)
        { v with movers := t.movers } t)) ∧
    (∀ w, r.total ≤ r.done + n → w = (if r.kind = 2 then
        (v.write (r.stkAddr + trailerLen r.trailer - 64) (leBytes 64 r.trailer.toNat)).2 else v) →
      (r.kind = 2 → (v.write (r.stkAddr + trailerLen r.trailer - 64) (leBytes 64 r.trailer.toNat)).1 = none) → w.regsWf = true →
      signalPlain w r.cluster (bitsOf r.word 103 96) → Completes (.moverChunk m err) s (fun t =>
      counted Reg.MOV_CHUNK_CNT 1 w t ∧ counted Reg.MOV_XFER_CNT 1 w t ∧ (∀ e ∈ t.movers, e.1 ≠ m.val) ∧
      t.fld (Reg.MOV_STATE m) ⟨0, 3⟩ = 0 ∧ t.rd (Reg.MOV_FP m) = crc64From r.fp bs ∧ clustersKept r.cluster w t ∧
      (bitsOf r.word 103 96 ≠ 0 → t.tok r.cluster (bitsOf r.word 103 96) = w.tok r.cluster (bitsOf r.word 103 96) + 1) ∧
      Near (fun off => off = Reg.MOV_CHUNK_CNT ∨ off = Reg.MOV_XFER_CNT ∨ off = Reg.MOV_STATE m ∨ off = Reg.MOV_DONE m ∨ off = Reg.MOV_FP m ∨
        off = Reg.SEQ_TOKEN r.cluster (bitsOf r.word 103 96)) { w.stackMoved r with movers := t.movers, clu := t.clu } t))) ∧
  (∀ (s : State) (m : Fin 32) (r : MovRec) (n a b : Nat), s.regsWf = true → s.stopped = false → s.mover m = some r → r.state = 1 → r.kind = 0 →
    r.done = 0 → r.total = n → 0 < n → n ≤ 65536 → r.srcD.chunkPieces 0 n = [(a, n)] → r.dstD.chunkPieces 0 n = [(b, n)] →
    (∃ c, c < 64 ∧ inStage c a n = true) → (∃ c, c < 64 ∧ inStage c b n = true) → s.badStage = [] → s.moverRefused r n = none →
    s.heldOff [(a, n), (b, n)] = false → s.fld Reg.MEM_BANK_LEN Fld.MEM_BANK_LEN_LEN = 0 →
    Completes (.moverChunk m .none) s (fun t => storedAt b (s.bytes a n) s t)) ∧
  (∀ (s : State) (m : Fin 32) (r : MovRec) (e : MemErr) (a : Nat), s.regsWf = true → s.stopped = false → s.mover m = some r → r.state = 1 →
    (r.kind = 2 → (s.stkPart r.slot r.cluster).reading = 0) →
    s.moverRefused r (min 65536 (r.total - r.done)) = some a → r.cluster < 64 → Completes (.moverChunk m e) s (fun t =>
      t.mover m = some { r with state := 3 } ∧ raised Reg.MOV_STATUS Fld.MOV_STATUS_REGION Reg.MOV_RSTOP_CNT s t ∧
      t.seqState r.cluster = 4 ∧
      (t.rd (Reg.SEQ_FAULT_REC r.cluster (s.fld (Reg.SEQ_FAULT_CNT r.cluster) Fld.COUNT % 4) 0)).toNat % 256 = 0x0C ∧ t.mem = s.mem ∧
      t.movReqs = s.movReqs)) ∧
  (∀ (s u : State) (m : Fin 32) (err : MemErr) (r : MovRec) (n a : Nat) (h : Bool), s.stopped = false → s.mover m = some r →
    r.state = 1 → (r.kind = 2 → (s.stkPart r.slot r.cluster).reading = 0) → n = min 65536 (r.total - r.done) → s.moverRefused r n = none →
    s.heldOff (r.srcD.chunkPieces r.done n ++ r.dstD.chunkPieces r.done n) = false → s.moverHostDown r = false →
    (((s.meet err r.tenant).spend 6 n).readPieces (r.srcD.chunkPieces r.done n) = (.detected h a, u) ∨
      ∃ v bs, ((s.meet err r.tenant).spend 6 n).readPieces (r.srcD.chunkPieces r.done n) = (.ok bs, v) ∧
        v.moverPieces r (r.dstD.chunkPieces r.done n) bs = (some (h, a), u)) → u.regsWf = true →
    Completes (.moverChunk m err) s (fun t => t.mover m = some { r with state := 4 } ∧
      raised Reg.MOV_STATUS Fld.MOV_STATUS_DET Reg.MOV_DET_CNT u t ∧ counted Reg.GLB_DETECT_CNT 1 u t)) ∧
  (∀ (s : State) (m : Fin 32) (err : MemErr) (r : MovRec) (n : Nat), s.regsWf = true → s.stopped = false → s.mover m = some r →
    r.state = 1 → (r.kind = 2 → (s.stkPart r.slot r.cluster).reading = 0) → n = min 65536 (r.total - r.done) → s.moverRefused r n = none →
    s.heldOff (r.srcD.chunkPieces r.done n ++ r.dstD.chunkPieces r.done n) = false → s.moverHostDown r = true →
    Completes (.moverChunk m err) s (fun t => t.mover m = some { r with state := 4 } ∧
      raised Reg.MOV_STATUS Fld.MOV_STATUS_DET Reg.MOV_DET_CNT s t ∧ t.mem = s.mem ∧ t.clu = s.clu)) ∧
  (∀ (s : State) (m : Fin 32) (err : MemErr), s.mover m = none ∨ s.stopped = true ∨ (∃ r, s.mover m = some r ∧ r.state ≠ 1) →
    exec (.moverChunk m err) s = .next s)

/-- MOVER_ASSIGN gives a free mover to the request whose turn it is, a prefetch only after all others and above PREF_FLOOR, and starts it
RUNNING, a port head leaving its queue as it does; MOV_REDRIVE by T0 lets a DETECTED mover go on, from another requester nothing;
PREF_ENTRY_START takes the first entry of the prefetch table, if it is ready, and asks for a mover (R191, R197, R255, R272, R273, R276). -/
def Obligations.MoverControl : Prop :=
  (∀ (s : State) (r : MovReq) (m : Nat) (rest : List Nat), s.regsWf = true → s.freeMovers = m :: rest →
    s.pickReq false = some r ∨ (s.pickReq false = none ∧ s.fld Reg.MOV_CTL Fld.MOV_CTL_PREF_FLOOR < s.freeMovers.length ∧ s.pickReq true = some r) →
    r.mrec.state < 3 →
    (r.head = false → Completes .moverAssign s (fun t => t.mover m = some { r.mrec with state := 1 } ∧ t.movReqs = s.movReqs.erase r ∧
      t.lastTenant = r.mrec.tenant ∧ t.rd (Reg.MOV_STATE m) = BitVec.ofNat 64 ({ r.mrec with state := 1 } : MovRec).word80 ∧
      (∀ off, off ≠ Reg.MOV_STATE m → off ≠ Reg.MOV_DONE m → off ≠ Reg.MOV_FP m → t.rd off = s.rd off) ∧ t.mem = s.mem ∧ t.clu = s.clu)) ∧
    (∀ e q, r.head = true → (s.cl r.mrec.cluster).movQ = e :: q → Completes .moverAssign s (fun t =>
      t.mover m = some { r.mrec with state := 1 } ∧ t.movReqs = s.movReqs.erase r ∧ t.lastTenant = r.mrec.tenant ∧
      (t.cl r.mrec.cluster).movQ = q ∧ clustersKept r.mrec.cluster s t ∧ t.mem = s.mem ∧
      (e.wait ≠ 0 → e.wait < 256 → t.tok r.mrec.cluster e.wait = s.tok r.mrec.cluster e.wait - s.quantum r.mrec.cluster e.wait) ∧
      (r.mrec.kind ≠ 2 → r.mrec.kind ≠ 3 → t.stk = s.stk) ∧
      (r.mrec.kind = 2 → (t.stkPart r.mrec.slot r.mrec.cluster).writing = (s.stkPart r.mrec.slot r.mrec.cluster).writing + 1) ∧
      (r.mrec.kind = 3 → (t.stkPart r.mrec.slot r.mrec.cluster).reading = (s.stkPart r.mrec.slot r.mrec.cluster).reading + 1)))) ∧
  (∀ s : State, (s.freeMovers = [] ∨ s.movReqs = []) → exec .moverAssign s = .next s) ∧
  (∀ (s : State) (m : Fin 32) (r : MovRec), s.regsWf = true → s.mover m = some r → r.state = 4 → Completes (.movRedrive 0 m) s (fun t =>
      t.mover m = some { r with state := 1 } ∧
      Near (fun off => off = Reg.MOV_STATE m ∨ off = Reg.MOV_DONE m ∨ off = Reg.MOV_FP m) { s with movers := t.movers } t)) ∧
  (∀ (s : State) (b : Fin 4) (m : Fin 32), b ≠ 0 → exec (.movRedrive b m) s = .next s) ∧
  (∀ (s : State) (c : Fin 64) (e : PrefEntry) (rest : List PrefEntry), s.regsWf = true → (s.cl c).pref = e :: rest →
    ((s.cl c).prefReady e = true → Completes (.prefEntryStart c) s (fun t => (t.cl c).pref = rest ∧
      t.movReqs = s.movReqs ++ [MovReq.mk e.mrec true false] ∧ counted Reg.MOV_PREF_CNT 1 s t ∧
      Near (· = Reg.MOV_PREF_CNT) { s.setCl c { s.cl c with pref := rest } with movReqs := t.movReqs } t)) ∧
    ((s.cl c).prefReady e = false → exec (.prefEntryStart c) s = .next s))

/-! ### Transfers between chips (spec/06_askeb_reference.md R198 to R203) -/

/-- The sending end of a SEND or MCAST. A GRANT packet goes to its sink by KIND whatever brought it, a reserved KIND is discarded and counted. A
grant of the transfer's length opens its destination, one of another length ends it with a length notice, one that comes before its SEND is
kept, and one that comes while the fault barrier is being entered is dropped; a granted chunk, the next one or one sent again, leaves as
packets of up to 4 KiB, in order; a chunk that its region check refuses stops the transfer and faults the stream, a detected error of its read
is charged; a landed notice of the last open destination completes the transfer with its completion word; an UNREACH has the chunk it names
sent again, and one of a reserved TYPE counts as BADPKT (R198, R199, R201, R217, R228, R320, R329, R399). -/
def Obligations.TransferSender : Prop :=
  (∀ (s : State) (p : Packet), exec (.grantRx p) s = .next ((s.take p).grantSink p) ∧
    exec (.landedNoticeRx p) s = .next ((s.take p).grantSink p) ∧ exec (.lengthNoticeRx p) s = .next ((s.take p).grantSink p) ∧
    exec (.collCreditRx p) s = .next ((s.take p).grantSink p)) ∧
  (∀ (s : State) (p : Packet), s.regsWf = true → (leNat (p.body.take 1) = 0 ∨ 4 < leNat (p.body.take 1)) → Completes (.grantRx p) s (fun t =>
      raised Reg.FAB_STATUS Fld.FAB_STATUS_BADPKT Reg.FAB_BADPKT_CNT s t ∧
      Near (fun off => off = Reg.FAB_STATUS ∨ off = Reg.FAB_BADPKT_CNT) (s.take p) t)) ∧
  (∀ (s : State) (p : Packet) (x : Tx), s.regsWf = true → leNat (p.body.take 1) = 1 → s.barrier ≠ 1 →
    s.txFor p.dclu p.src p.sclu p.tag [0] = some x → leNat ((p.body.drop 8).take 5) = x.total → Completes (.grantRx p) s (fun t =>
      t.txs = s.txs.map (fun y => if y = x then x.setDest p.src (fun d => { d with state := 1 }) else y) ∧
      Near (fun _ => False) { s.take p with txs := t.txs } t)) ∧
  (∀ (s : State) (p : Packet) (x : Tx), s.regsWf = true → leNat (p.body.take 1) = 1 → s.barrier ≠ 1 →
    s.txFor p.dclu p.src p.sclu p.tag [0] = some x → leNat ((p.body.drop 8).take 5) ≠ x.total → Completes (.grantRx p) s (fun t =>
      (∃ q rest, t.rt.rin = s.rt.rin ++ ({ p := q } : RPkt) :: rest ∧ q.type = 3 ∧ q.dst = p.src ∧ q.tc = 2 ∧ q.dclu = x.dclu ∧
        q.sclu = x.cluster ∧ q.tag = x.tag ∧ q.body = leBytes 1 3 ++ leBytes 7 0 ++ leBytes 8 x.total) ∧
      ((∃ d ∈ x.dests, d.chip ≠ p.src ∧ d.state < 2) →
        t.txs = s.txs.map (fun y => if y = x then x.setDest p.src (fun d => { d with state := 3 }) else y)))) ∧
  (∀ (s : State) (p : Packet), s.regsWf = true → leNat (p.body.take 1) = 1 → s.barrier ≠ 1 → s.txFor p.dclu p.src p.sclu p.tag [0] = none →
    Completes (.grantRx p) s (fun t =>
      t.grants = s.grants ++ [Grant.mk p.src p.sclu p.dclu p.tag (leNat ((p.body.drop 8).take 5))] ∧
      Near (fun _ => False) { s.take p with grants := t.grants } t)) ∧
  (∀ (s : State) (p : Packet), leNat (p.body.take 1) = 1 → s.barrier = 1 → exec (.grantRx p) s = .next (s.take p)) ∧
  (∀ (s u : State) (i k : Nat) (err : MemErr) (x : Tx) (ts : List (Bool × Nat)) (bs : List Byte), s.txs[i]? = some x → x.stop = false →
    k ≤ x.next → chunkLen x.total k ≠ 0 → x.targets k = some ts →
    (∀ r ∈ (Desc.mk x.src 0).chunkRanges (k * 65536) (chunkLen x.total k), s.regionOk x.tenant r.1 r.2 .rd = true) →
    (s.meet err x.tenant).readPieces ((Desc.mk x.src 0).chunkPieces (k * 65536) (chunkLen x.total k)) = (.ok bs, u) →
    Completes (.transferChunkSend i k err) s (fun t =>
      t.rt.rin = u.rt.rin ++ ts.flatMap (fun d => (packetsOf { dst := if d.1 then 0 else d.2, src := u.chip, tc := x.tc, type := 0
                                                               dclu := x.dclu, sclu := x.cluster, tag := x.tag, chunk := k, mc := d.1
                                                               mask := if d.1 then x.mask else 0 } 16 0 bs).map (fun q => ({ p := q } : RPkt))) ∧
      t.txs = u.txs.map (fun z => if z = x then { x with
        next := max x.next (k + 1), dests := x.dests.map (fun e => { e with resend := e.resend.filter (· ≠ k) }) } else z) ∧
      Near (fun _ => False) { u with txs := t.txs, rt := { u.rt with rin := t.rt.rin } } t)) ∧
  (∀ (s u : State) (i k : Nat) (err : MemErr) (x : Tx) (ts : List (Bool × Nat)) (h : Bool) (a : Nat), s.txs[i]? = some x → x.stop = false →
    k ≤ x.next → chunkLen x.total k ≠ 0 → x.targets k = some ts →
    (∀ r ∈ (Desc.mk x.src 0).chunkRanges (k * 65536) (chunkLen x.total k), s.regionOk x.tenant r.1 r.2 .rd = true) →
    (s.meet err x.tenant).readPieces ((Desc.mk x.src 0).chunkPieces (k * 65536) (chunkLen x.total k)) = (.detected h a, u) →
    u.regsWf = true → Completes (.transferChunkSend i k err) s (fun t => counted Reg.GLB_DETECT_CNT 1 u t ∧ t.txs = s.txs)) ∧
  (∀ (s : State) (i k : Nat) (err : MemErr) (x : Tx) (ts : List (Bool × Nat)) (r : Nat × Nat), s.regsWf = true → s.txs[i]? = some x →
    x.stop = false → k ≤ x.next → chunkLen x.total k ≠ 0 → x.targets k = some ts → x.cluster < 64 →
    ((Desc.mk x.src 0).chunkRanges (k * 65536) (chunkLen x.total k)).find? (fun r => !s.regionOk x.tenant r.1 r.2 .rd) = some r →
    Completes (.transferChunkSend i k err) s (fun t => t.seqState x.cluster = 4 ∧
      (t.rd (Reg.SEQ_FAULT_REC x.cluster (s.fld (Reg.SEQ_FAULT_CNT x.cluster) Fld.COUNT % 4) 0)).toNat % 256 = 0x0C ∧
      t.txs = s.txs.map (fun y => if y = x then { x with stop := true } else y) ∧ t.mem = s.mem ∧ t.rt.rin = s.rt.rin)) ∧
  (∀ (s : State) (p : Packet) (x y : Tx), s.regsWf = true → leNat (p.body.take 1) = 4 →
    s.txFor p.dclu p.src p.sclu p.tag [1] = some x → y = x.setDest p.src (fun d => { d with state := 2 }) →
    ((∃ d ∈ y.dests, d.state < 2) → Completes (.landedNoticeRx p) s (fun t => t.txs = s.txs.map (fun z => if z = x then y else z) ∧
      Near (fun _ => False) { s.take p with txs := t.txs } t)) ∧
    ((∀ d ∈ y.dests, 2 ≤ d.state) → Completes (.landedNoticeRx p) s (fun t =>
      t.txs = (s.txs.map (fun z => if z = x then y else z)).erase y ∧
      t.txSeq.get 0 (xferKey s.chip x.cluster x.dclu x.tag) = s.txSeq.get 0 (xferKey s.chip x.cluster x.dclu x.tag) + 1 ∧
      (x.creg = 0 → t.mem = s.mem) ∧
      (x.creg ≠ 0 → (∃ c, c < 64 ∧ inStage c x.creg 8 = true) → s.badStage = [] →
        storedAt x.creg (leBytes 8 ((if y.dests.any (fun d => d.state == 3) then 2 else if (y.dests.filter (fun d => d.state == 4)).length = 0
          then 0 else 1) + (y.dests.filter (fun d => d.state == 4)).length % 2 ^ 24 * 2 ^ 8)) s t)))) ∧
  (∀ (s : State) (p : Packet) (x : Tx), leNat ((p.body.drop 3).take 1) = 0 →
    s.txFor p.dclu (leNat (p.body.take 2)) p.sclu p.tag [1] = some x →
    exec (.unreachRx p) s = .next { s.take p with txs := s.txs.map (fun y => if y = x then x.setDest (leNat (p.body.take 2)) (fun d =>
      { d with resend := if d.resend.contains (leNat ((p.body.drop 8).take 4)) then d.resend
                         else d.resend ++ [leNat ((p.body.drop 8).take 4)] }) else y) }) ∧
  (∀ (s : State) (p : Packet), s.regsWf = true → 3 ≤ leNat ((p.body.drop 3).take 1) → Completes (.unreachRx p) s (fun t =>
    raised Reg.FAB_STATUS Fld.FAB_STATUS_BADPKT Reg.FAB_BADPKT_CNT s t ∧
    Near (fun off => off = Reg.FAB_STATUS ∨ off = Reg.FAB_BADPKT_CNT) (s.take p) t))

/-- The receiving end of a RECV, and remote signals. A data packet lands its bytes at its offset and counts once; the last byte sends the
landed notice and completes the RECV; a chunk that its region check refuses is discarded whole and the stream faults; a landing in HBM waits
while a commit pass runs; a length notice completes the RECV with status LENGTH in its completion word; a signal packet raises its token, or
is held for a context that is not resident (R199, R201, R203, R221, R228, R232, R261, R268). -/
def Obligations.TransferReceiver : Prop :=
  (∀ (s : State) (p : Packet) (x : Rx) (b : Nat), s.regsWf = true → p.malformed = false → s.rxFor p.dclu p.src p.sclu p.tag = some x →
    (p.chunk, p.offset) ∉ x.got → p.chunk * 65536 + p.offset + p.body.length ≤ x.total → x.stop = false →
    (∀ r ∈ (Desc.mk x.dst 0).chunkRanges (p.chunk * 65536) (chunkLen x.total p.chunk), s.regionOk x.tenant r.1 r.2 .fl = true) →
    (Desc.mk x.dst 0).chunkPieces (p.chunk * 65536 + p.offset) p.body.length = [(b, p.body.length)] →
    ((∃ c, c < 64 ∧ inStage c b p.body.length = true) ∧ s.badStage = [] ∨ plainHbm s b p.body.length ∧ s.commitPc = none) →
    0 < p.body.length → Completes (.dataPacketRx p) s (fun t =>
      (x.landed + p.body.length < x.total → storedAt b p.body s t ∧ t.rxs = s.rxs.map (fun y => if y = x then
        { x with got := x.got ++ [(p.chunk, p.offset)], landed := x.landed + p.body.length } else y)) ∧
      (x.total ≤ x.landed + p.body.length → (x.creg = 0 → storedAt b p.body s t) ∧ t.rxs.length + 1 = s.rxs.length ∧
        t.rxSeq.get 0 (xferKey x.src x.sclu x.cluster x.tag) = s.rxSeq.get 0 (xferKey x.src x.sclu x.cluster x.tag) + 1 ∧
        ∃ q rest, t.rt.rin = s.rt.rin ++ ({ p := q } : RPkt) :: rest ∧
          q.type = 3 ∧ q.dst = x.src ∧ q.dclu = x.sclu ∧ q.sclu = x.cluster ∧ q.tag = x.tag ∧ q.body = leBytes 1 4 ++ leBytes 7 0 ++ leBytes 8 0))) ∧
  (∀ (s : State) (p : Packet) (x : Rx), s.rxFor p.dclu p.src p.sclu p.tag = some x → p.malformed = false →
    ((p.chunk, p.offset) ∈ x.got ∨ x.total < p.chunk * 65536 + p.offset + p.body.length ∨ x.stop = true) →
    exec (.dataPacketRx p) s = .next (s.take p)) ∧
  (∀ (s : State) (p : Packet), s.rxFor p.dclu p.src p.sclu p.tag = none → p.malformed = false → exec (.dataPacketRx p) s = .next (s.take p)) ∧
  (∀ (s : State) (p : Packet) (x : Rx) (r : Nat × Nat), s.regsWf = true → p.malformed = false → x.cluster < 64 →
    s.rxFor p.dclu p.src p.sclu p.tag = some x → (p.chunk, p.offset) ∉ x.got → p.chunk * 65536 + p.offset + p.body.length ≤ x.total →
    x.stop = false → ((Desc.mk x.dst 0).chunkRanges (p.chunk * 65536) (chunkLen x.total p.chunk)).find?
      (fun r => !s.regionOk x.tenant r.1 r.2 .fl) = some r → Completes (.dataPacketRx p) s (fun t => t.seqState x.cluster = 4 ∧ t.mem = s.mem ∧
      (t.rd (Reg.SEQ_FAULT_REC x.cluster (s.fld (Reg.SEQ_FAULT_CNT x.cluster) Fld.COUNT % 4) 0)).toNat % 256 = 0x0C ∧
      ∀ y ∈ t.rxs, y ∉ s.rxs → y.stop = true ∧ ∀ g ∈ y.got, g.1 ≠ p.chunk)) ∧
  (∀ (s : State) (p : Packet) (x : Rx), s.regsWf = true → leNat (p.body.take 1) = 3 → s.rxFor p.dclu p.src p.sclu p.tag = some x →
    (x.creg = 0 ∨ (∃ c, c < 64 ∧ inStage c x.creg 8 = true) ∧ s.badStage = []) →
    Completes (.lengthNoticeRx p) s (fun t => t.rxs = s.rxs.erase x ∧
      (x.creg = 0 → t.mem = s.mem) ∧ (x.creg ≠ 0 → storedAt x.creg (leBytes 8 2) s t))) ∧
  (∀ (s : State) (p : Packet) (k n : Nat), s.regsWf = true → p.type = 4 → p.malformed = false → k = leNat (p.body.take 1) →
    n = leNat ((p.body.drop 4).take 3) → p.dclu < 64 → k ≠ 0 → s.ctxState 1 p.dclu ≠ 2 → s.ctxState 1 p.dclu ≠ 3 → s.ctxState 1 p.dclu ≠ 5 →
    (s.seqState p.dclu = 0 ∨ s.seqTenant p.dclu = 1) → (s.cl p.dclu).keepsHold → s.tok p.dclu k + n < 2 ^ 24 →
    s.fld (Reg.SEQ_TOKEN p.dclu k) Fld.SEQ_TOKEN_FWD = 0 → Completes (.signalPacketRx p) s (fun t => t.tok p.dclu k = s.tok p.dclu k + n ∧
      Near (· = Reg.SEQ_TOKEN p.dclu k) ((s.take p).modCl p.dclu (fun c => { c with prod := c.prod.set 0 k (peerWord p.src p.sclu 7 0 0) })) t)) ∧
  (∀ (s : State) (p : Packet) (k n : Nat), s.regsWf = true → p.type = 4 → p.malformed = false → k = leNat (p.body.take 1) →
    n = leNat ((p.body.drop 4).take 3) → (s.ctxState 1 p.dclu = 2 ∨ s.ctxState 1 p.dclu = 3 ∨ s.ctxState 1 p.dclu = 5) →
    Completes (.signalPacketRx p) s (fun t =>
      t.heldSig.get 0 (heldKey 1 p.dclu k) = s.heldSig.get 0 (heldKey 1 p.dclu k) + n ∧ counted Reg.MOV_HELD_SIG_CNT 1 s t ∧
      Near (· = Reg.MOV_HELD_SIG_CNT) { s.take p with heldSig := t.heldSig } t)) ∧
  (∀ (s : State) (p : Packet), s.regsWf = true → (p.type ≠ 4 ∨ p.malformed = true) → Completes (.signalPacketRx p) s (fun t =>
      raised Reg.FAB_STATUS Fld.FAB_STATUS_BADPKT Reg.FAB_BADPKT_CNT s t ∧
      Near (fun off => off = Reg.FAB_STATUS ∨ off = Reg.FAB_BADPKT_CNT) (s.take p) t))


/-! ### Collectives (spec/11_collectives.md) -/

/-- Packets of the collective engine; what is kept early is looked at again after each. A credit of the current pass raises the stream's LIMIT,
never lowers it, and frees the hold entries it covers; one for a collective not yet issued is kept. A partial of a lower attempt or pass, or of
a chunk that has been counted, is discarded and counts; a current one lands at its offset in its slot, and the last of a chunk counts the
chunk. A DONE is noted; a RESTART of a higher attempt is joined and multicast, and the attempt starts at once where enough chips are fenced; a
RESEND marks the hold entry it names (R364 to R368, R370, R371). -/
def Obligations.CollectivePackets : Prop :=
  (∀ (s : State) (p : Packet) (i : Nat) (c : Coll) (k : Nat), leNat (p.body.take 1) = 2 → s.collFor p = some (i, c) →
    c.age p = 1 → k = ckey (leNat ((p.body.drop 1).take 1)) p.src →
    exec (.collCreditRx p) s = .next (((s.take p).setColl i { c with
      limit := c.limit.set 0 k (max (leNat ((p.body.drop 4).take 4)) (c.limit.get 0 k))
      hold := (c.hold.map (fun (h : CHold) => if h.stream = leNat ((p.body.drop 1).take 1) ∧
          h.seq + c.plan.slots < max (leNat ((p.body.drop 4).take 4)) (c.limit.get 0 k) then
        { h with dests := h.dests.filter (· ≠ p.src) } else h)).filter (fun (h : CHold) => !h.dests.isEmpty) }).advance i).replayEarly) ∧
  (∀ (s : State) (p : Packet), s.early = [] → leNat (p.body.take 1) = 2 → p.type = 3 → s.collFor p = none → s.collPast p = false →
    exec (.collCreditRx p) s = .next { s.take p with early := [(p, false)] }) ∧
  (∀ (s : State) (p : Packet) (i : Nat) (c : Coll), s.regsWf = true → s.early = [] → p.type = 1 → p.offset ≠ 0xFF00 → p.malformed = false →
    s.commitPc = none → s.collFor p = some (i, c) →
    (c.age p = 0 ∨ c.age p = 1 ∧ ((p.stream, p.src, p.chunk % 2 ^ 18) ∈ c.counted ∨ ∀ e ∈ s.recvs c p.stream p.src, e.1 ≠ p.chunk % 2 ^ 18)) →
    Completes (.partialPacketRx p) s (fun t => raised Reg.COL_STATUS (bitField 3) Reg.COL_DUP_CNT s t ∧ t.mem = s.mem ∧ t.colls = s.colls)) ∧
  (∀ (s : State) (p : Packet) (i seq ix slot need : Nat) (c : Coll) (x : CItem) (got : List (Nat × Nat × Nat × Nat)),
    s.regsWf = true → i < 16 → s.early = [] → p.type = 1 → p.offset ≠ 0xFF00 → p.malformed = false → s.commitPc = none →
    s.collFor p = some (i, c) → c.age p = 1 →
    seq = p.chunk % 2 ^ 18 → (s.recvs c p.stream p.src).zipIdx.find? (fun e => e.1.1 == seq) = some ((seq, x), ix) →
    c.eaten.get 0 (ckey p.stream p.src) ≤ ix → (p.stream, p.src, seq) ∉ c.counted → slot = s.landSlot c p.stream p.src seq →
    s.regionOk 1 slot 65536 .fl = true → plainHbm s (slot + p.offset) p.body.length →
    got = (if (p.stream, p.src, seq, p.offset) ∈ c.got then c.got else c.got ++ [(p.stream, p.src, seq, p.offset)]) →
    need = (s.itemBytes c x + 4095) / 4096 + (if x.kind = 2 then 1 else 0) →
    Completes (.partialPacketRx p) s (fun t => storedAt (slot + p.offset) p.body s t ∧
      ((got.filter (fun g => g.1 == p.stream && g.2.1 == p.src && g.2.2.1 == seq)).length < need →
        t.coll i = some { c with got := got } ∧ t.rd Reg.COL_CHUNK_RX_CNT = s.rd Reg.COL_CHUNK_RX_CNT) ∧
      (need ≤ (got.filter (fun g => g.1 == p.stream && g.2.1 == p.src && g.2.2.1 == seq)).length →
        t.coll i = some { c with
          got := got.filter (fun g => !(g.1 == p.stream && g.2.1 == p.src && g.2.2.1 == seq))
          counted := c.counted ++ [(p.stream, p.src, seq)] } ∧ counted Reg.COL_CHUNK_RX_CNT 1 s t))) ∧
  (∀ (s : State) (p : Packet) (i : Nat) (c : Coll), s.collFor p = some (i, c) → c.running = true →
    leNat ((p.body.drop 4).take 4) = c.attempt → (∀ d ∈ c.dones, d.1 ≠ p.src ∧ d.2 = leNat ((p.body.drop 2).take 2)) →
    exec (.collDoneRx p) s = .next (((s.take p).setColl i { c with
      dones := c.dones ++ [(p.src, leNat ((p.body.drop 2).take 2))] }).advance i).replayEarly) ∧
  (∀ (s : State) (p : Packet) (i : Nat) (c : Coll), s.regsWf = true → s.early = [] → s.collFor p = some (i, c) →
    leNat ((p.body.drop 4).take 4) < c.attempt → Completes (.collDoneRx p) s (fun t =>
      raised Reg.COL_STATUS (bitField 3) Reg.COL_DUP_CNT s t ∧ t.mem = s.mem ∧ t.colls = s.colls)) ∧
  (∀ (s : State) (p : Packet) (i a : Nat) (c : Coll), s.regsWf = true → s.early = [] → i < 16 → s.collFor p = some (i, c) →
    a = leNat ((p.body.drop 4).take 4) → c.attempt < a →
    (s.fencedIn c < max (leNat ((p.body.drop 2).take 2)) c.wait → Completes (.collRestartRx p) s (fun t =>
      t.coll i = some { c with
        wait := max (leNat ((p.body.drop 2).take 2)) c.wait
        attempt := a, highest := max a c.highest, running := false } ∧
      raised Reg.COL_STATUS (bitField 5) Reg.COL_RESTART_CNT s t ∧ t.mem = s.mem ∧
      ∃ q rest, t.rt.rin = s.rt.rin ++ ({ p := q } : RPkt) :: rest ∧ q.mc = true ∧ q.type = 1 ∧ q.offset = 0xFF00 ∧
        q.body.take 1 = [2] ∧ leNat ((q.body.drop 4).take 4) = a % 2 ^ 32)) ∧
    (max (leNat ((p.body.drop 2).take 2)) c.wait ≤ s.fencedIn c → c.unread = false → Completes (.collRestartRx p) s (fun t =>
      raised Reg.COL_STATUS (bitField 5) Reg.COL_RESTART_CNT s t ∧ t.mem = s.mem ∧
      ∃ d, t.coll i = some d ∧ d.attempt = a ∧ d.running = true ∧ d.hold = [] ∧ d.parts = [] ∧ d.got = [] ∧ d.counted = [] ∧
        d.members = (s.group c).filter (fun n => !s.fenced n)))) ∧
  (∀ (s : State) (p : Packet) (i : Nat) (c : Coll), s.early = [] → s.collFor p = some (i, c) → c.age p = 1 →
    exec (.collResendRx p) s = .next ((s.take p).setColl i { c with
      hold := c.hold.map (fun (h : CHold) => if h.stream = leNat ((p.body.drop 1).take 1) ∧ h.seq = leNat ((p.body.drop 8).take 8) ∧
          p.src ∈ h.dests ∧ p.src ∉ h.again then { h with again := h.again ++ [p.src] } else h) }))

/-- The engine's own work. A chunk that is ready and under credit is written to its hold entry, leaves as packets of 4 KiB in sequence to each
receiver, or as one multicast, and the stream's count goes on; a chunk due again is read from its hold entry; a partial that has landed is
added to this member's own, a gathered chunk stored in DST, and its credit returned; COL_REDRIVE by T0 clears the streams that a detected error
stopped, and reads the scale table again where that met it (R355, R360, R361, R364, R366, R368, R375, R380). -/
def Obligations.CollectiveEngine : Prop :=
  (∀ (s v u w : State) (i : Fin 16) (st : Fin 4) (err : MemErr) (c c' d : Coll) (x : CItem) (bs : List Byte) (ovf seq : Nat) (r : Coll × State),
    v = s.meet err 1 → s.coll i = some c → c.running = true → c.stop = false → st.val ∉ c.det → st.val ∉ c.stalled →
    c.hold.find? (fun (h : CHold) => h.stream == st && !h.again.isEmpty) = none → seq = c.sent.get 0 st →
    (v.sends c v.chip st)[seq]? = some x → (∀ n ∈ x.dests, seq < c.limit.get 0 (ckey st n)) → c.holdFree st seq = true →
    v.chunkBody c x = some (.ok (bs, ovf, c', u)) → (u.onBehalf 1).write (c'.slotAt c'.plan.hold st seq) bs = (none, w) →
    d = { c' with sent := c'.sent.set 0 st (seq + 1), hold := c'.hold ++ [CHold.mk st seq bs.length (x.kind == 2) ovf x.dests []] } →
    r = w.tellLimits d st →
    (x.kind ≠ 5 → exec (.collChunkSend i st err) s = .next ((x.dests.foldl (fun z n =>
      z.emitChunk r.1 st seq (x.kind == 2) ovf n false bs) (r.2.setColl i r.1)).advance i).replayEarly) ∧
    (x.kind = 5 → exec (.collChunkSend i st err) s = .next (((x.dests.filter (fun n => (r.1.fbTo st n).isSome)).foldl (fun z n =>
      z.emitChunk r.1 st seq false ovf n false bs) ((r.2.setColl i r.1).emitChunk r.1 st seq false 0 0 true bs)).advance i).replayEarly)) ∧
  (∀ (s : State) (c : Coll) (st seq ovf n : Nat) (trailer : Bool) (bs : List Byte), s.regsWf = true → c.fbTo st n = none →
    ∃ u : State, u = s.emitChunk c st seq trailer ovf n false bs ∧ counted Reg.COL_CHUNK_TX_CNT 1 s u ∧
      u.rt.rin = s.rt.rin ++ ((packetsOf (s.collPacket c n st seq 0 []) 16 0 bs) ++ (if trailer then
        [{ s.collPacket c n st seq 0xC000 [] with body := leBytes 32 ovf ++ leBytes 32 0 }] else [])).map (fun q => ({ p := q } : RPkt)) ∧
      Near (· = Reg.COL_CHUNK_TX_CNT) { s with rt := { s.rt with rin := u.rt.rin } } u) ∧
  (∀ (s v u : State) (i : Fin 16) (st : Fin 4) (err : MemErr) (c : Coll) (h : CHold) (bs : List Byte), v = s.meet err 1 → s.coll i = some c →
    c.running = true → c.stop = false → st.val ∉ c.det → st.val ∉ c.stalled →
    c.hold.find? (fun (h : CHold) => h.stream == st && !h.again.isEmpty) = some h →
    (v.onBehalf 1).readMem (c.slotAt c.plan.hold h.stream h.seq) h.len = (.ok bs, u) →
    exec (.collChunkSend i st err) s = .next (h.again.foldl (fun v n => v.emitChunk c h.stream h.seq h.trailer h.ovf n false bs)
      (u.setColl i { c with hold := c.hold.map (fun (g : CHold) => if g = h then { g with again := [] } else g) })).replayEarly) ∧
  (∀ (s v u w : State) (i : Fin 16) (st : Fin 4) (err : MemErr) (c d : Coll) (x : CItem) (own : CPart) (n seq len : Nat) (bs : List Byte),
    v = s.meet err 1 → s.coll i = some c → c.running = true → c.stop = false → st.val ∉ c.det →
    v.nextChunk c st = some (n, seq, x) → x.kind = 0 ∨ x.kind = 2 ∨ x.kind = 6 → len = v.itemBytes c x →
    (v.onBehalf 1).readPieces ((v.landSlot c st n seq, len) :: (if x.kind = 2 then [(v.landSlot c st n seq + 0xC000, 64)] else [])) =
      (.ok bs, u) → u.partOf c x.kind x.shard x.chunk = .ok (own, d, w) →
    exec (.collChunkReduce i st err) s = .next (w.chunkDone i (d.setPart (CPart.mk x.kind x.shard x.chunk
      (combine x.kind (decodeCodes x.kind (len / kindBytes x.kind) bs) own.codes) (w.levelAt d x.stage + 1)
      (if x.kind = 2 then leNat ((bs.drop len).take 32) ||| own.ovf else 0))) st n seq).replayEarly) ∧
  (∀ (s v u w : State) (i : Fin 16) (st : Fin 4) (err : MemErr) (c : Coll) (x : CItem) (n seq len : Nat) (bs : List Byte),
    v = s.meet err 1 → s.coll i = some c → c.running = true → c.stop = false → st.val ∉ c.det →
    v.nextChunk c st = some (n, seq, x) → len = v.itemBytes c x →
    (v.onBehalf 1).readPieces [(v.landSlot c st n seq, len)] = (.ok bs, u) →
    (x.kind = 3 → u.shardWrite c x.shard (x.chunk * 65536) bs = (none, w) → exec (.collChunkReduce i st err) s =
      .next (w.chunkDone i (c.setPart (CPart.mk 3 x.shard x.chunk [] 0 0)) st n seq).replayEarly) ∧
    (x.kind = 5 → u.resultWrite (c.dstDesc.chunkPieces (x.chunk * 65536) len) bs = (none, w) → exec (.collChunkReduce i st err) s =
      .next (w.chunkDone i c st n seq).replayEarly)) ∧
  (∀ (s : State) (c : Coll) (st n : Nat), s.upstream c st = [n] → s.recvs c st n ≠ [] →
    s.limitFor c st n ≠ c.told.get 0 (ckey st n) → c.qpBack st n = none →
    (s.tellLimits c st).1 = { c with told := c.told.set 0 (ckey st n) (s.limitFor c st n) } ∧
    ∃ q, (s.tellLimits c st).2 = s.inject q ∧ q.dst = n ∧ q.tc = 2 ∧ q.type = 3 ∧
      q.body = leBytes 1 2 ++ leBytes 1 st ++ leBytes 2 0 ++ leBytes 4 (s.limitFor c st n) ++ leBytes 8 0) ∧
  (∀ (s : State) (i : Fin 16) (c : Coll), s.regsWf = true → s.early = [] → s.coll i = some c → c.unread = false →
    (c.running = false ∨ c.stop = true ∨ c.ready = false ∧ s.reduceOver c = false) →
    Completes (.collRedrive 0 i) s (fun t => t.coll i = some { c with det := [] } ∧ t.mem = s.mem ∧
      Near (· = Reg.COL_CTX_STAT i) { s with colls := t.colls } t)) ∧
  (∀ (s : State) (i : Fin 16) (c : Coll), s.coll i = some c → c.unread = true →
    exec (.collRedrive 0 i) s = .next (s.openColl i c).replayEarly) ∧
  (∀ (s : State) (b : Fin 4) (i : Fin 16), b ≠ 0 → exec (.collRedrive b i) s = .next s)

/-! ### Routing and fences (spec/10_routing.md, spec/14_faults_and_selftest.md R461 to R469) -/

/-- PACKET_ROUTE of a waiting unicast packet. A packet whose TYPE does not travel on its class is discarded with BADPKT; one for a
fenced chip with FDROP; one that is at its destination is delivered; one whose HOPS reaches 256 is UNROUTABLE and, where its class has
one, an UNREACH goes to its source; with adaptive routing on, the least occupied productive port with room for the whole packet takes it on
channel 0 or 1, and where none has room it escapes in dimension order; without adaptive routing it goes in dimension order on its plane's
channel; where no link of its direction may carry it, it goes round by the plane and the hop that FAB_DETOUR names, or is UNROUTABLE. A
packet that has no credit yet waits, and a multicast packet is not touched (R319, R324 to R329, R336). A router counts once in HOPS. -/
def Obligations.PacketsRouted : Prop :=
  (∀ (s : State) (i : Nat) (q : RPkt), s.regsWf = true → s.stopped = false → s.rt.rin[i]? = some q → q.p.mc = false → q.p.malformed = true →
    Completes (.packetRoute i) s (fun t => raised Reg.FAB_STATUS Fld.FAB_STATUS_BADPKT Reg.FAB_BADPKT_CNT s t ∧
      t.rt = { s.rt.release q with rin := s.rt.rin.erase q } ∧
      Near (fun off => off = Reg.FAB_STATUS ∨ off = Reg.FAB_BADPKT_CNT) { s with rt := t.rt } t)) ∧
  (∀ (s : State) (i : Nat) (q : RPkt), s.regsWf = true → s.stopped = false → s.rt.rin[i]? = some q → q.p.mc = false → q.p.malformed = false →
    s.fenced q.p.dst = true → Completes (.packetRoute i) s (fun t => raised Reg.FAB_STATUS Fld.FAB_STATUS_FDROP Reg.FAB_FDROP_CNT s t ∧
      t.rt = { s.rt.release q with rin := s.rt.rin.erase q } ∧
      Near (fun off => off = Reg.FAB_STATUS ∨ off = Reg.FAB_FDROP_CNT) { s with rt := t.rt } t)) ∧
  (∀ (s : State) (i : Nat) (q : RPkt), s.stopped = false → s.rt.rin[i]? = some q → q.p.mc = false → q.p.malformed = false →
    s.fenced q.p.dst = false → (∀ a, a < 3 → s.productive s.chip q.p.dst a = []) → Completes (.packetRoute i) s (fun t =>
      t.rt = { s.rt.release q with rin := s.rt.rin.erase q, arrived := s.rt.arrived ++ [q.p] } ∧
      t = ({ s with rt := t.rt }).spendBy 1 7 q.p.flits)) ∧
  (∀ (s : State) (i a : Nat) (q : RPkt), s.regsWf = true → s.stopped = false → s.rt.rin[i]? = some q → q.p.mc = false →
    q.p.malformed = false → s.fenced q.p.dst = false → a < 3 → s.productive s.chip q.p.dst a ≠ [] → 256 ≤ q.hops →
    Completes (.packetRoute i) s (fun t => raised Reg.FAB_STATUS Fld.FAB_STATUS_UNROUTE Reg.FAB_UNROUTE_CNT s t ∧
      t.rt = { s.rt.release q with rin := s.rt.rin.erase q ++ (if q.p.tc = 2 ∨ q.p.tc = 4 then [] else
        [({ p := { dst := q.p.src, src := s.chip, tc := 2, type := 9, dclu := q.p.sclu, sclu := q.p.dclu, tag := q.p.tag, stream := q.p.stream
                   body := leBytes 2 q.p.dst ++ leBytes 1 q.p.tc ++ leBytes 1 q.p.type ++ leBytes 2 q.p.offset ++ leBytes 1 2
                     ++ leBytes 1 0 ++ leBytes 4 q.p.chunk ++ leBytes 4 0 } } : RPkt)]) } ∧
      Near (fun off => off = Reg.FAB_STATUS ∨ off = Reg.FAB_UNROUTE_CNT) { s with rt := t.rt } t)) ∧
  (∀ (s : State) (i port : Nat) (q : RPkt), Routable s i q → s.adaptive q → s.towards q ≠ [] →
    s.rt.pick (s.roomy q) = some port → Completes (.packetRoute i) s (fun t =>
      t.rt.queue port = s.rt.queue port ++ [{ q with
        p := { q.p with hops := q.hops }, outChan := if q.p.flits ≤ s.rt.creditLeft port q.p.tc 0 then 0 else 1, sent := 0, back := none }] ∧
      (∀ p, p ≠ port → t.rt.queue p = s.rt.queue p) ∧ port ∈ s.towards q ∧ (∀ p ∈ s.roomy q, s.rt.occupancy port ≤ s.rt.occupancy p) ∧
      t.rt = { s.rt.release q with rin := s.rt.rin.erase q, rout := t.rt.rout, lastPort := port } ∧
      t = ({ s with rt := t.rt }).spendBy 1 7 q.p.flits)) ∧
  (∀ (s : State) (i d port : Nat) (q : RPkt), s.regsWf = true → Routable s i q → s.adaptive q → s.towards q ≠ [] →
    s.rt.pick (s.roomy q) = none → s.orderDir s.chip q.p.dst [0, 1, 2] = some d → s.orderPort q d = some port →
    Completes (.packetRoute i) s (fun t =>
      t.rt.queue port = s.rt.queue port ++ [{ q with p := { q.p with hops := q.hops }, outChan := s.orderChan q d, sent := 0, back := none }] ∧
      (∀ p, p ≠ port → t.rt.queue p = s.rt.queue p) ∧ port ∈ s.cands d ∧ counted Reg.FAB_ESCAPE_CNT 1 s t ∧
      t.rt = { s.rt.release q with rin := s.rt.rin.erase q, rout := t.rt.rout } ∧
      Near (· = Reg.FAB_ESCAPE_CNT) { s with rt := t.rt } t)) ∧
  (∀ (s : State) (i d port : Nat) (q : RPkt), Routable s i q → ¬ s.adaptive q →
    s.orderDir s.chip q.p.dst (if q.p.plane = 2 then [2, 1, 0] else [0, 1, 2]) = some d → s.orderPort q d = some port →
    Completes (.packetRoute i) s (fun t =>
      t.rt.queue port = s.rt.queue port ++ [{ q with p := { q.p with hops := q.hops }, outChan := s.orderChan q d, sent := 0, back := none }] ∧
      (∀ p, p ≠ port → t.rt.queue p = s.rt.queue p) ∧ port ∈ s.cands d ∧
      t.rt = { s.rt.release q with rin := s.rt.rin.erase q, rout := t.rt.rout } ∧ t = ({ s with rt := t.rt }).spendBy 1 7 q.p.flits)) ∧
  (∀ (s : State) (i d hop plane port : Nat) (q : RPkt), s.regsWf = true → Routable s i q →
    (s.adaptive q ∧ s.towards q = [] ∨ ¬ s.adaptive q ∧ s.cands d = []) →
    s.orderDir s.chip q.p.dst (if q.p.plane = 2 then [2, 1, 0] else [0, 1, 2]) = some d →
    hop = s.fld (Reg.FAB_DETOUR d) Fld.FAB_DETOUR_HOP → plane = s.fld (Reg.FAB_DETOUR d) Fld.FAB_DETOUR_PLANE →
    s.fld Reg.FAB_CTL Fld.FAB_CTL_DETOUR_EN ≠ 0 → plane ≠ 3 → q.p.plane < plane →
    (s.cands hop).find? (fun p => decide (0 < s.rt.creditLeft p q.p.tc (if plane = 1 then 4 else 7))) = some port →
    Completes (.packetRoute i) s (fun t => raised Reg.FAB_STATUS Fld.FAB_STATUS_DETOUR Reg.FAB_DETOUR_CNT s t ∧
      t.rt.queue port = s.rt.queue port ++ [{ q with
        p := { q.p with plane := plane, hops := q.hops }, outChan := if plane = 1 then 4 else 7, sent := 0, back := none }] ∧
      (∀ p, p ≠ port → t.rt.queue p = s.rt.queue p) ∧ t.rt = { s.rt.release q with rin := s.rt.rin.erase q, rout := t.rt.rout } ∧
      Near (fun off => off = Reg.FAB_STATUS ∨ off = Reg.FAB_DETOUR_CNT) { s with rt := t.rt } t)) ∧
  (∀ (s : State) (i d : Nat) (q : RPkt), s.regsWf = true → Routable s i q →
    (s.adaptive q ∧ s.towards q = [] ∨ ¬ s.adaptive q ∧ s.cands d = []) →
    s.orderDir s.chip q.p.dst (if q.p.plane = 2 then [2, 1, 0] else [0, 1, 2]) = some d →
    (s.fld Reg.FAB_CTL Fld.FAB_CTL_DETOUR_EN = 0 ∨ s.fld (Reg.FAB_DETOUR d) Fld.FAB_DETOUR_PLANE = 3 ∨
      s.fld (Reg.FAB_DETOUR d) Fld.FAB_DETOUR_PLANE ≤ q.p.plane ∨ s.cands (s.fld (Reg.FAB_DETOUR d) Fld.FAB_DETOUR_HOP) = []) →
    Completes (.packetRoute i) s (fun t => raised Reg.FAB_STATUS Fld.FAB_STATUS_UNROUTE Reg.FAB_UNROUTE_CNT s t ∧
      t.rt = { s.rt.release q with rin := s.rt.rin.erase q ++ (if q.p.tc = 2 ∨ q.p.tc = 4 then [] else
        [({ p := unreachFor s.chip q.p 1 } : RPkt)]) } ∧
      Near (fun off => off = Reg.FAB_STATUS ∨ off = Reg.FAB_UNROUTE_CNT) { s with rt := t.rt } t)) ∧
  (∀ (s : State) (i d : Nat) (q : RPkt), Routable s i q →
    s.orderDir s.chip q.p.dst (if q.p.plane = 2 then [2, 1, 0] else [0, 1, 2]) = some d → s.orderPort q d = none →
    (s.adaptive q ∧ s.towards q ≠ [] ∧ s.rt.pick (s.roomy q) = none ∨ ¬ s.adaptive q ∧ s.cands d ≠ []) →
    exec (.packetRoute i) s = .next s) ∧
  (∀ (s : State) (i : Nat) (q : RPkt), s.rt.rin[i]? = some q → q.p.mc = true → exec (.packetRoute i) s = .next s)

/-- MC_REPLICATE makes one copy for each branch, delivers the packet here where this chip is of its box, and keeps it in the store until its
last copy has left; with its store full it waits. A branch with a port takes one copy, its mask the least box of the branch's chips that no
fence covers; one with no such chip is pruned; one without a port leaves as unicast copies on the escape channel. PACKET_REROUTE puts the
oldest packet of a port that is no longer ACTIVE at the head of those waiting for route selection, behind those returned before it.
CREDIT_RX returns the credits its entries name; CREDIT_RETURN_TIMER sends those due, up to 48 entries (R322, R329, R330, R333, R334, R336). -/
def Obligations.RouterKeeps : Prop :=
  (∀ (s u v : State) (i : Nat) (q : RPkt) (branches : List (Nat × BitVec 96)), s.regsWf = true → s.rt.rin[i]? = some q → q.p.mc = true →
    q.p.malformed = false →
    (s.rt.store.filter (fun (e : McEntry) => e.tc == q.p.tc)).foldl (fun a (e : McEntry) => a + e.flits) 0 + q.p.flits ≤ 256 →
    branches = (match q.back with
      | some port => [(s.role (port / 2), q.p.mask)]
      | none => s.mcBranches q) → branches = [] ∨ q.hops < 256 →
    u = { s with rt := { s.rt with rin := s.rt.rin.erase q, nextId := s.rt.nextId + 1,
                                   store := s.rt.store ++ [{ id := s.rt.nextId, tc := q.p.tc, flits := q.p.flits, left := 0 }] } } →
    v = branches.foldl (fun (w : State) b => w.mcBranch q s.rt.nextId b) u → Completes (.mcReplicate i) s (fun t =>
      t.rt.rin = v.rt.rin ∧ t.rt.rout = v.rt.rout ∧ (q.back = none → q.p.src ≠ s.chip →
        (∀ a, a < 3 → (maskAxis q.p.mask a).testBit (chipAxis s.chip a) = true) →
        t.rt.arrived = v.rt.arrived ++ [q.p] ∧ counted Reg.FAB_MC_COPY_CNT 1 v t) ∧
      (q.back ≠ none ∨ q.p.src = s.chip ∨ (∃ a, a < 3 ∧ (maskAxis q.p.mask a).testBit (chipAxis s.chip a) = false) →
        t.rt.arrived = v.rt.arrived ∧ t = { v with rt := t.rt }) ∧
      t.rt.store = (v.rt.freeCopy q).store.filter (fun (e : McEntry) => !(e.id == s.rt.nextId && e.left == 0)))) ∧
  (∀ (s : State) (q : RPkt) (id d port : Nat) (m : BitVec 96) (live : List Nat), s.regsWf = true → q.back = none →
    live = (s.boxChips m).filter (fun n => !s.fenced n && n != q.p.src) → live ≠ [] → s.mcPort q d = some port →
    ∃ t : State, t = s.mcBranch q id (d, m) ∧ t.rt.queue port = s.rt.queue port ++ [{ q with
        p := { q.p with mask := boxOf live, hops := q.hops }, copyOf := some id, outChan := s.orderChan q d, sent := 0, back := none }] ∧
      (∀ p, p ≠ port → t.rt.queue p = s.rt.queue p) ∧ port ∈ s.cands d ∧ counted Reg.FAB_MC_COPY_CNT 1 s t ∧
      t.rt = { s.rt with rout := t.rt.rout,
                         store := s.rt.store.map (fun (e : McEntry) => if e.id = id then { e with left := e.left + 1 } else e) } ∧
      Near (· = Reg.FAB_MC_COPY_CNT) { s with rt := t.rt } t) ∧
  (∀ (s : State) (q : RPkt) (id d : Nat) (m : BitVec 96), s.regsWf = true →
    (s.boxChips m).filter (fun n => !s.fenced n && n != q.p.src) = [] →
    ∃ t : State, t = s.mcBranch q id (d, m) ∧ raised Reg.FAB_STATUS Fld.FAB_STATUS_FDROP Reg.FAB_FDROP_CNT s t ∧
      Near (fun off => off = Reg.FAB_STATUS ∨ off = Reg.FAB_FDROP_CNT) s t) ∧
  (∀ (s : State) (q : RPkt) (id d : Nat) (m : BitVec 96) (live : List Nat), s.regsWf = true →
    live = (s.boxChips m).filter (fun n => !s.fenced n && n != q.p.src) → live ≠ [] → s.cands d = [] →
    ∃ t : State, t = s.mcBranch q id (d, m) ∧ counted Reg.FAB_MC_COPY_CNT live.length s t ∧
      t.rt = { s.rt with rin := s.rt.rin ++ live.map (fun n => { q with
        p := { q.p with mc := false, mask := 0, dst := n, plane := 0 }, inPort := 12, chan := if q.chan = 3 then 3 else 2, copyOf := none }) } ∧
      (s.fenced (s.neighbour s.chip d) = true → raised Reg.FAB_STATUS Fld.FAB_STATUS_FDROP Reg.FAB_FDROP_CNT s t) ∧
      Near (fun off => off = Reg.FAB_MC_COPY_CNT ∨ s.fenced (s.neighbour s.chip d) = true ∧ (off = Reg.FAB_STATUS ∨ off = Reg.FAB_FDROP_CNT))
        { s with rt := t.rt } t) ∧
  (∀ (s : State) (i : Nat) (q : RPkt), s.rt.rin[i]? = some q → q.p.mc = true → q.p.malformed = false →
    256 < (s.rt.store.filter (fun (e : McEntry) => e.tc == q.p.tc)).foldl (fun a (e : McEntry) => a + e.flits) 0 + q.p.flits →
    exec (.mcReplicate i) s = .next s) ∧
  (∀ (s : State) (port : Fin 12) (q : RPkt) (rest : List RPkt), s.regsWf = true → s.linkState port ≠ 5 → s.linkState port ≠ 6 →
    s.rt.queue port = q :: rest → Completes (.packetReroute port) s (fun t =>
      t.rt.rin = s.rt.rin.takeWhile (fun x => x.back.isSome) ++
        { q with inPort := 12, chan := q.outChan, outChan := 16, sent := 0, axis := s.role (port.val / 2) / 2, back := some port.val } ::
        s.rt.rin.drop (s.rt.rin.takeWhile (fun x => x.back.isSome)).length ∧
      t.rt.queue port = rest ∧ (∀ p, p ≠ port.val → t.rt.queue p = s.rt.queue p) ∧ counted Reg.FAB_REROUTE_CNT 1 s t ∧
      t.rt = { s.rt with rin := t.rt.rin, rout := t.rt.rout } ∧ Near (· = Reg.FAB_REROUTE_CNT) { s with rt := t.rt } t)) ∧
  (∀ (s : State) (port : Fin 12), (s.linkState port = 5 ∨ s.linkState port = 6) → exec (.packetReroute port) s = .next s) ∧
  (∀ (s : State) (port : Fin 12) (p : Packet) (es : List (Nat × Nat × Nat × Nat)), p.type = 10 → p.tc = 2 → es.length ≤ 48 →
    (∀ e ∈ es, e.1 < 8 ∧ e.2.1 < 16 ∧ e.2.2.1 < 2 ∧ e.2.2.2 < 2 ^ 24) →
    p.body = es.flatMap (fun e => leBytes 4 (e.1 + e.2.1 * 8 + e.2.2.1 * 128 + e.2.2.2 * 256)) → Completes (.creditRx port p) s (fun t =>
      t = { s with rt := { es.foldl (fun r e => r.refund port e) s.rt with arrived := s.rt.arrived.erase p } })) ∧
  (∀ (r : Router) (port tc ch bit n : Nat), (bit = 1 → n ≤ r.usedPool.get 0 (port * 128 + tc * 16 + ch)) →
    (bit ≠ 1 → n ≤ r.usedRes.get 0 (port * 128 + tc * 16 + ch)) → tc < 8 → ch < 16 →
    (r.refund port (tc, ch, bit, n)).usedPool.get 0 (port * 128 + tc * 16 + ch) + (if bit = 1 then n else 0) =
      r.usedPool.get 0 (port * 128 + tc * 16 + ch) ∧
    (r.refund port (tc, ch, bit, n)).usedRes.get 0 (port * 128 + tc * 16 + ch) + (if bit = 1 then 0 else n) =
      r.usedRes.get 0 (port * 128 + tc * 16 + ch)) ∧
  (∀ (s : State) (port : Fin 12) (mine : List (Nat × Nat)), s.linkState port = 5 →
    mine = (s.rt.due.filter (fun e => e.1 / 256 == port.val)).take 48 → mine ≠ [] →
    Completes (.creditReturnTimer port) s (fun t => (∀ e ∈ mine, t.rt.due.get 0 e.1 = 0) ∧
      (∀ k, (∀ e ∈ mine, e.1 ≠ k) → t.rt.due.get 0 k = s.rt.due.get 0 k) ∧
      (∃ before after, s.rt.queue port = before ++ after ∧ (∀ q ∈ after.take 1, q.sent = 0 ∧ q.p.tc = 2 ∧ q.outChan = 2 ∧ q.p.type ≠ 10) ∧
        (∀ q ∈ before, ¬ (q.sent = 0 ∧ q.p.tc = 2 ∧ q.outChan = 2 ∧ q.p.type ≠ 10)) ∧
        t.rt.queue port = before ++ ({ p := { dst := s.fld (Reg.PRT_PEER port) Fld.PRT_PEER_CHIP, src := s.chip, tc := 2, type := 10
                                              body := mine.flatMap (fun e => leBytes 4 (e.1 % 256 + e.2 % 2 ^ 24 * 256)) }, outChan := 2 } : RPkt)
          :: after) ∧ (∀ p, p ≠ port.val → t.rt.queue p = s.rt.queue p) ∧
      t = { s with rt := { s.rt with due := t.rt.due, rout := t.rt.rout } })) ∧
  (∀ (s : State) (port : Fin 12), (s.linkState port ≠ 5 ∨ ∀ e ∈ s.rt.due, e.1 / 256 ≠ port.val) →
    exec (.creditReturnTimer port) s = .next s)

/-- Fences. A FENCE whose EPOCH is not below the highest heard from its chip sets the chip's bit, and FAB_FENCE_COUNT follows; what waits
for the chip ends: its packets are dropped and counted, a push, transfers and collectives learn of it, and with AUTO a chip of the job
raises the barrier. Where nothing waits for it, nothing else changes. A stale FENCE counts in GLB_STALE_CNT and sets nothing;
GLB_FENCE_ISSUE applies it here and multicasts it; FENCE_SET, FENCE_CLEAR and FENCE_CLEAR_ALL change the bitmap; each only by T0 (R335,
R336, R344, R399, R464). -/
def Obligations.FencesApplied : Prop :=
  (∀ (s : State) (chip : BitVec 15), chip.toNat < 24576 → s.fenced chip.toNat = false →
    ∃ u : State, u.fenced chip.toNat = true ∧ (∀ n, n < 24576 → n ≠ chip.toNat → u.fenced n = s.fenced n) ∧
      u.fld Reg.FAB_FENCE_COUNT Fld.FAB_FENCE_COUNT_COUNT =
        (s.fld Reg.FAB_FENCE_COUNT Fld.FAB_FENCE_COUNT_COUNT + 1) % 2 ^ Fld.FAB_FENCE_COUNT_COUNT.width ∧
      Near (fun off => off = Reg.FAB_FENCE (chip.toNat / 64) ∨ off = Reg.FAB_FENCE_COUNT) s u ∧
      exec (.fenceSet 0 chip) s = .next (u.fenceReaches chip.toNat)) ∧
  (∀ (s : State) (chip : Nat), s.regsWf = true → (s.dropFenced chip).rt.rin = s.rt.rin.filter (fun (q : RPkt) => q.p.mc || q.p.dst != chip) ∧
    counted Reg.FAB_FDROP_CNT (s.rt.rin.filter (fun (q : RPkt) => !q.p.mc && q.p.dst == chip)).length s (s.dropFenced chip) ∧
    (s.dropFenced chip).rt.rout = s.rt.rout ∧ (s.dropFenced chip).rt.arrived = s.rt.arrived ∧
    Near (fun off => off = Reg.FAB_STATUS ∨ off = Reg.FAB_FDROP_CNT) { s with rt := (s.dropFenced chip).rt } (s.dropFenced chip)) ∧
  (∀ (s : State) (chip : BitVec 15), chip.toNat < 24576 → s.fenced chip.toNat = false → FenceAlone s chip.toNat →
    Completes (.fenceSet 0 chip) s (fun t => t.fenced chip.toNat = true ∧
      t.fld Reg.FAB_FENCE_COUNT Fld.FAB_FENCE_COUNT_COUNT =
        (s.fld Reg.FAB_FENCE_COUNT Fld.FAB_FENCE_COUNT_COUNT + 1) % 2 ^ Fld.FAB_FENCE_COUNT_COUNT.width ∧
      (∀ n, n < 24576 → n ≠ chip.toNat → t.fenced n = s.fenced n) ∧
      Near (fun off => off = Reg.FAB_FENCE (chip.toNat / 64) ∨ off = Reg.FAB_FENCE_COUNT) s t)) ∧
  (∀ (s : State) (chip : BitVec 15), 24576 ≤ chip.toNat ∨ s.fenced chip.toNat = true → exec (.fenceSet 0 chip) s = .next s) ∧
  (∀ (s : State) (p : Packet) (n e : Nat), s.regsWf = true → p.type = 6 → p.malformed = false → n = leNat (p.body.take 2) →
    e = leNat ((p.body.drop 4).take 4) → e < s.peerEpoch.get 0 n → Completes (.fencePacketRx p) s (fun t =>
      raised Reg.GLB_RAS_STATUS (bitField 7) Reg.GLB_STALE_CNT s t ∧ Near (fun off => off = Reg.GLB_RAS_STATUS ∨ off = Reg.GLB_STALE_CNT)
        (s.take p) t)) ∧
  (∀ (s : State) (p : Packet) (n : Nat), p.type = 6 → p.malformed = false → n = leNat (p.body.take 2) → n < 24576 →
    s.peerEpoch.get 0 n ≤ leNat ((p.body.drop 4).take 4) → s.fenced n = false → FenceAlone (s.take p) n →
    Completes (.fencePacketRx p) s (fun t => t.fenced n = true ∧ (∀ m, m < 24576 → m ≠ n → t.fenced m = s.fenced m) ∧
      Near (fun off => off = Reg.FAB_FENCE (n / 64) ∨ off = Reg.FAB_FENCE_COUNT) (s.take p) t)) ∧
  (∀ (s : State) (p : Packet), p.type = 6 → p.malformed = false →
    s.peerEpoch.get 0 (leNat (p.body.take 2)) ≤ leNat ((p.body.drop 4).take 4) → exec (.fencePacketRx p) s =
      .next ((s.take p).applyFence (leNat (p.body.take 2)) (leNat ((p.body.drop 8).take 2)))) ∧
  (∀ (s : State) (p : Packet), s.regsWf = true → p.type ≠ 6 ∨ p.malformed = true → Completes (.fencePacketRx p) s (fun t =>
    raised Reg.FAB_STATUS Fld.FAB_STATUS_BADPKT Reg.FAB_BADPKT_CNT s t ∧
      Near (fun off => off = Reg.FAB_STATUS ∨ off = Reg.FAB_BADPKT_CNT) (s.take p) t)) ∧
  (∀ (s : State) (v : BitVec 64) (n : Nat), n = v.toNat % 2 ^ 15 → s.peerEpoch.get 0 n ≤ v.toNat / 2 ^ 32 →
    ∃ u : State, u = s.applyFence n s.chip ∧ (24576 ≤ n ∨ s.fenced n = true → u = s) ∧ Completes (.glbFenceIssue 0 v) s (fun t =>
      t.rt.rin = u.rt.rin ++ [({ p := { src := u.chip, tc := 2, type := 6, mc := true
                                        mask := maskOf (2 ^ u.dim 0 - 1) (2 ^ u.dim 1 - 1) (2 ^ u.dim 2 - 1)
                                        body := leBytes 2 n ++ leBytes 1 1 ++ leBytes 1 0 ++ leBytes 4 (v.toNat / 2 ^ 32)
                                          ++ leBytes 2 u.chip ++ leBytes 6 0 } } : RPkt)] ∧ t = { u with rt := { u.rt with rin := t.rt.rin } })) ∧
  (∀ (s : State) (chip : BitVec 15), chip.toNat < 24576 → s.fenced chip.toNat = true → (∀ e ∈ s.colls, e.1 < 16) →
    Completes (.fenceClear 0 chip) s (fun t => t.fenced chip.toNat = false ∧ (∀ n, n < 24576 → n ≠ chip.toNat → t.fenced n = s.fenced n) ∧
      t.fld Reg.FAB_FENCE_COUNT Fld.FAB_FENCE_COUNT_COUNT =
        (s.fld Reg.FAB_FENCE_COUNT Fld.FAB_FENCE_COUNT_COUNT - 1) % 2 ^ Fld.FAB_FENCE_COUNT_COUNT.width ∧
      Near (fun off => off = Reg.FAB_FENCE (chip.toNat / 64) ∨ off = Reg.FAB_FENCE_COUNT ∨ ∃ i, i < 16 ∧ off = Reg.COL_CTX_STAT i) s t)) ∧
  (∀ s : State, (∀ e ∈ s.colls, e.1 < 16) → Completes (.fenceClearAll 0) s (fun t => (∀ n, n < 24576 → t.fenced n = false) ∧
      t.fld Reg.FAB_FENCE_COUNT Fld.FAB_FENCE_COUNT_COUNT = 0 ∧
      Near (fun off => off = Reg.FAB_FENCE_COUNT ∨ (∃ w, w < 384 ∧ off = Reg.FAB_FENCE w) ∨ ∃ i, i < 16 ∧ off = Reg.COL_CTX_STAT i) s t)) ∧
  (∀ (s : State) (b : Fin 4) (chip : BitVec 15) (v : BitVec 64), b ≠ 0 → exec (.fenceSet b chip) s = .next s ∧
    exec (.fenceClear b chip) s = .next s ∧ exec (.fenceClearAll b) s = .next s ∧ exec (.glbFenceIssue b v) s = .next s)

/-- Unit-state records and the writes beside them. A record with a right CRC raises the epoch heard from its chip, and a peer's or the
twin's is kept; a peer's that says OFFLINE is fenced; one with a wrong CRC changes nothing. UNITSTATE_PUBLISH_TIMER publishes this chip's
record; GLB_UNIT_EPOCH takes only a greater value; DECLARE_OFFLINE sets its bit and gives the chip the state OFFLINE; a REPORTED error is
charged to its unit: counted, and the unit's test queued. FAB_DETOUR takes an entry whose hop comes later in the plane's order, and sets
DET_ERR for another (R345, R445, R461 to R464, R469). -/
def Obligations.UnitRecords : Prop :=
  (∀ (s u : State) (p : Packet) (n e : Nat), p.type = 8 → p.malformed = false → p.body.length = 64 →
    leNat (p.body.drop 60) = (crc32c (p.body.take 60)).toNat → n = leNat ((p.body.drop 4).take 2) → e = leNat (p.body.take 4) →
    u = { s.take p with
          peerEpoch := s.peerEpoch.set 0 n (max e (s.peerEpoch.get 0 n))
          peerRec := if (s.isPeer n || n == s.twin) && Nat.ble (leNat ((s.peerRec.get [] n).take 4)) e then s.peerRec.set [] n p.body
            else s.peerRec } →
    (s.isPeer n = false ∨ leNat ((p.body.drop 6).take 1) ≠ 5 → exec (.unitstateRx p) s = .next u) ∧
    (s.isPeer n = true → leNat ((p.body.drop 6).take 1) = 5 → exec (.unitstateRx p) s = .next (u.issueFence n 0 e))) ∧
  (∀ (s : State) (p : Packet), p.type = 8 → p.malformed = false → leNat (p.body.drop 60) ≠ (crc32c (p.body.take 60)).toNat →
    exec (.unitstateRx p) s = .next (s.take p)) ∧
  (∀ (s : State) (p : Packet), s.regsWf = true → p.type ≠ 8 ∨ p.malformed = true → Completes (.unitstateRx p) s (fun t =>
    raised Reg.FAB_STATUS Fld.FAB_STATUS_BADPKT Reg.FAB_BADPKT_CNT s t ∧
      Near (fun off => off = Reg.FAB_STATUS ∨ off = Reg.FAB_BADPKT_CNT) (s.take p) t)) ∧
  (∀ s : State, s.regsWf = true → Completes .unitstatePublishTimer s (fun t => counted Reg.GLB_RECORD_TX_CNT 1 s t ∧
      (∀ n, (n = s.twin ∨ ∃ p, p < 12 ∧ s.linkState p = 5 ∧ n = s.fld (Reg.PRT_PEER p) Fld.PRT_PEER_CHIP) →
        ∃ q ∈ t.rt.rin, q.p.dst = n ∧ q.p.tc = 2 ∧ q.p.type = 8 ∧ q.p.body = s.unitRecord) ∧
      Noted (· = Reg.GLB_RECORD_TX_CNT) s t)) ∧
  (∀ (s : State) (v : BitVec 32), s.fld Reg.GLB_UNIT_EPOCH Fld.GLB_UNIT_EPOCH_EPOCH < v.toNat → Completes (.glbUnitEpochWrite 0 v) s (fun t =>
      t.fld Reg.GLB_UNIT_EPOCH Fld.GLB_UNIT_EPOCH_EPOCH = v.toNat ∧ Near (· = Reg.GLB_UNIT_EPOCH) s t)) ∧
  (∀ (s : State) (v : BitVec 32), v.toNat ≤ s.fld Reg.GLB_UNIT_EPOCH Fld.GLB_UNIT_EPOCH_EPOCH → exec (.glbUnitEpochWrite 0 v) s = .next s) ∧
  (∀ s : State, Completes (.declareOffline 0) s (fun t => t.unitState 0 = 5 ∧ t.fld Reg.GLB_UNIT_CTL (bitField 0) = 1 ∧
      (∀ u, u ≠ 0 → t.unitOf u = s.unitOf u) ∧ (s.unitState 0 ≠ 5 → t.fld Reg.GLB_UNIT_EPOCH Fld.GLB_UNIT_EPOCH_EPOCH =
        (s.fld Reg.GLB_UNIT_EPOCH Fld.GLB_UNIT_EPOCH_EPOCH + 1) % 2 ^ 32) ∧
      Noted (· = Reg.GLB_UNIT_CTL) { s with units := t.units, lastChange := t.lastChange } t)) ∧
  (∀ (s : State) (v : BitVec 32), s.regsWf = true → Completes (.errReport 0 v) s (fun t => counted Reg.GLB_DETECT_CNT 1 s t ∧
      counted (Reg.GLB_CLASS_CNT 7) 1 s t ∧ t.fld Reg.GLB_RAS_STATUS (bitField 0) = 1 ∧
      (s.fld Reg.GLB_ERR_LOG_CTL Fld.GLB_ERR_LOG_CTL_EN = 0 → t.mem = s.mem))) ∧
  (∀ (s : State) (v : BitVec 32), s.unitState v.toNat ≠ 2 → s.unitState v.toNat ≠ 3 →
    (∀ k ∈ [0, 8, 9, 10], v.toNat / 2 ^ 28 ≠ k) →
    (unitCluster v.toNat = none ∨ ((s.testsFor v.toNat).filter (fun (x : TestReq) => !x.running)).length < 4) →
    Completes (.errReport 0 v) s (fun t => t.testsFor v.toNat = s.testsFor v.toNat ++ [{
        unit := v.toNat, cls := 8, tenant := 0, dpa := 0, cpos := s.rd Reg.CAD_POS, tsc := s.now }] ∧
      t.unitState v.toNat = 2 ∧ (∀ u, u ≠ v.toNat → t.unitOf u = s.unitOf u) ∧ t.mem = s.mem)) ∧
  (∀ (s : State) (k : Fin 6) (hop plane : Nat), 0 < plane → plane < 4 → hop < 8 → detourAllowed k hop plane = true →
    Completes (.fabDetourWrite 0 k (BitVec.ofNat 32 (hop + plane * 8))) s (fun t => t.fld (Reg.FAB_DETOUR k) Fld.FAB_DETOUR_HOP = hop ∧
      t.fld (Reg.FAB_DETOUR k) Fld.FAB_DETOUR_PLANE = plane ∧ Near (· = Reg.FAB_DETOUR k) s t)) ∧
  (∀ (s : State) (k : Fin 6) (hop plane : Nat), s.regsWf = true → 0 < plane → plane < 4 → hop < 8 → detourAllowed k hop plane = false →
    Completes (.fabDetourWrite 0 k (BitVec.ofNat 32 (hop + plane * 8))) s (fun t =>
      raised Reg.FAB_STATUS Fld.FAB_STATUS_DET_ERR Reg.FAB_DET_ERR_CNT s t ∧
      Near (fun off => off = Reg.FAB_STATUS ∨ off = Reg.FAB_DET_ERR_CNT) s t)) ∧
  (∀ (s : State) (k : Fin 6) (hop : Nat), hop < 8 → Completes (.fabDetourWrite 0 k (BitVec.ofNat 32 hop)) s (fun t =>
      t.fld (Reg.FAB_DETOUR k) Fld.FAB_DETOUR_PLANE = 0 ∧ Near (· = Reg.FAB_DETOUR k) s t)) ∧
  (∀ (s : State) (b : Fin 4) (k : Fin 6) (v : BitVec 32), b ≠ 0 → exec (.fabDetourWrite b k v) s = .next s ∧
    exec (.glbUnitEpochWrite b v) s = .next s ∧ exec (.declareOffline b) s = .next s ∧ exec (.errReport b v) s = .next s)

/-! ### Torus links (spec/09_ploveus_links.md) -/

/-- Training. PORT_ENABLE_WRITE by T0 sets EN and, with a module present, starts DETECT; EN cleared takes the port DOWN; a module that
appears is read, and on an enabled port in DOWN or HELD starts DETECT; one that goes takes the port DOWN; DETECT_DONE holds the port with
cause AXIS, MODULE or LABEL or goes to EQUALISE; EQUALISE_DONE takes the lanes that locked each way, of eleven the first ten, the eleventh
the spare, or holds with cause LANES; ALIGN_DONE goes on with the lanes that aligned and sends this chip's CAPS; CAPS of the right neighbour
and a common version, CAPS_ACK, PING and PONG pass NEGOTIATE; another version, another neighbour, too long a round trip and a state's time
limit hold the port, or take it DOWN in a retrain; DETECT starts again by the retry timer; PRT_AXIS_MAP takes a permutation while the ports
it moves are idle (R282, R291 to R301, R306, R308). -/
def Obligations.LinkTraining : Prop :=
  (∀ (s u : State) (p : Fin 12) (v : BitVec 32), s.portsBarred = false → u = s.writeCodes (Reg.PRT_CTL p) (v.setWidth 64) →
    (s.portEn p = false → u.portEn p = true → (s.linkState p = 0 ∨ s.linkState p = 7) → (s.link p).module = true → s.bootDead = false →
      Completes (.portEnableWrite 0 p v) s (fun t => t.linkState p = 1 ∧ t.fld (Reg.PRT_STATUS p) Fld.PRT_STATUS_HOLD = 0 ∧
        t.rd (Reg.PRT_CTL p) = u.rd (Reg.PRT_CTL p) ∧ Near (· = Reg.PRT_STATUS p) u t)) ∧
    (u.portEn p = true → (s.portEn p = true ∨ (s.link p).module = false ∨ s.linkState p ≠ 0 ∧ s.linkState p ≠ 7) →
      exec (.portEnableWrite 0 p v) s = .next u) ∧
    (s.portEn p = true → u.portEn p = false → s.linkState p ≠ 0 → s.linkState p ≠ 7 → s.regsWf = true →
      Completes (.portEnableWrite 0 p v) s (fun t => wentDown (fun _ => False) p u t)) ∧
    (u.portEn p = false → (s.portEn p = false ∨ s.linkState p = 0 ∨ s.linkState p = 7) → exec (.portEnableWrite 0 p v) s = .next u)) ∧
  (∀ (s : State) (b : Fin 4) (p : Fin 12) (v : BitVec 32), b ≠ 0 → exec (.portEnableWrite b p v) s = .next s ∧
    exec (.prtAxisMapWrite b v) s = .next s) ∧
  (∀ (s : State) (p : Fin 12) (m : Cmis) (media length : Nat), 1 ≤ media → media ≤ 3 → m.readable = true → m.cmis = true → 5 ≤ m.revision →
    m.media = media → length = (if media = 3 then 255 else min 255 m.length) → Completes (.modulePresenceChange p (some m)) s (fun t =>
      (t.link p) = { s.link p with module := true } ∧ t.fld (Reg.PRT_MODULE p) Fld.PRT_MODULE_MEDIA = media ∧
      t.fld (Reg.PRT_MODULE p) Fld.PRT_MODULE_LENGTH = length ∧ t.fld (Reg.PRT_MODULE p) Fld.PRT_MODULE_LABEL = m.label.toNat ∧
      (s.portEn p = true → (s.linkState p = 0 ∨ s.linkState p = 7) → s.bootDead = false → t.linkState p = 1 ∧
        Near (fun off => off = Reg.PRT_MODULE p ∨ off = Reg.PRT_STATUS p) { s with links := t.links } t) ∧
      (s.portEn p = false ∨ s.linkState p ≠ 0 ∧ s.linkState p ≠ 7 ∨ s.bootDead = true →
        t = { s with links := t.links, regs := t.regs } ∧ ∀ off, off ≠ Reg.PRT_MODULE p → t.rd off = s.rd off))) ∧
  (∀ (s : State) (p : Fin 12), s.linkState p = 0 → Completes (.modulePresenceChange p none) s (fun t =>
      (t.link p).module = false ∧ t.linkState p = 0 ∧ t.rd (Reg.PRT_MODULE p) = 0 ∧ t.fld (Reg.PRT_STATUS p) Fld.PRT_STATUS_LC = 3 ∧
      Near (fun off => off = Reg.PRT_MODULE p ∨ off = Reg.PRT_STATUS p) { s with links := t.links } t)) ∧
  (∀ (s : State) (p : Fin 12), s.regsWf = true → s.linkState p ≠ 0 → Completes (.modulePresenceChange p none) s (fun t =>
      t.rd (Reg.PRT_MODULE p) = 0 ∧ t.fld (Reg.PRT_STATUS p) Fld.PRT_STATUS_LC = 3 ∧
      wentDown (· = Reg.PRT_MODULE p) p (s.modLink p (fun l => { l with module := false })) t)) ∧
  (∀ (s : State) (p : Fin 12) (m : Cmis) (lc preset : Nat), s.linkState p = 1 → 1 < s.dim (s.role (p.val / 2) / 2) →
    presetOf m = some (preset, lc) → (m.label.toNat / 16 = 10 → m.label.toNat =
      0xA0 + p.val % 2 * 8 + s.role (p.val / 2) % 2 * 4 + s.role (p.val / 2) / 2) →
    (m.label.toNat / 16 ≠ 10 → s.fld (Reg.PRT_CTL p) Fld.PRT_CTL_REQ_LABEL = 0) →
    Completes (.detectDone p m) s (fun t => t.linkState p = 2 ∧ t.fld (Reg.PRT_STATUS p) Fld.PRT_STATUS_LC = lc ∧
      t.fld (Reg.PRT_MODULE p) Fld.PRT_MODULE_MEDIA = m.media ∧ t.fld (Reg.PRT_MODULE p) Fld.PRT_MODULE_PRESET = preset ∧
      t.link p = { s.link p with laneEn := 2047 - laneMask (s.txRetired p) } ∧
      Near (fun off => off = Reg.PRT_MODULE p ∨ off = Reg.PRT_STATUS p) { s with links := t.links } t)) ∧
  (∀ (s : State) (p : Fin 12) (m : Cmis), s.regsWf = true → s.linkState p = 1 →
    (s.dim (s.role (p.val / 2) / 2) ≤ 1 → Completes (.detectDone p m) s (fun t => heldWith (· = Reg.PRT_MODULE p) p 7 s t)) ∧
    (1 < s.dim (s.role (p.val / 2) / 2) → presetOf m = none →
      Completes (.detectDone p m) s (fun t => heldWith (· = Reg.PRT_MODULE p) p 1 s t)) ∧
    (1 < s.dim (s.role (p.val / 2) / 2) → presetOf m ≠ none →
      (m.label.toNat / 16 = 10 ∧ m.label.toNat ≠ 0xA0 + p.val % 2 * 8 + s.role (p.val / 2) % 2 * 4 + s.role (p.val / 2) / 2 ∨
        m.label.toNat / 16 ≠ 10 ∧ s.fld (Reg.PRT_CTL p) Fld.PRT_CTL_REQ_LABEL = 1) →
      Completes (.detectDone p m) s (fun t => heldWith (· = Reg.PRT_MODULE p) p 2 s t))) ∧
  (∀ (s : State) (p : Fin 12) (rx tx : BitVec 11) (r x : List Nat), s.linkState p = 2 →
    r = (laneBits rx.toNat).filter (fun i => !(s.rxRetired p).contains i) → x = (laneBits tx.toNat).filter (fun i => !(s.txRetired p).contains i) →
    (s.minLanes p ≤ r.length → s.minLanes p ≤ x.length → Completes (.equaliseDone p rx tx) s (fun t => t.linkState p = 3 ∧
      t.rxLanes p = r.take 10 ∧ t.txLanes p = x.take 10 ∧ (t.link p).rxPos = r.take 10 ∧ (t.link p).txPos = x.take 10 ∧
      t.spareBit p false = (r.length == 11) ∧ t.spareBit p true = (x.length == 11) ∧
      t.out = s.out ++ ((List.range 11).filter (fun i => !(s.txRetired p).contains i)).map (fun i => .link p (.lane (s.link p).head i)) ∧
      Near (fun off => off = Reg.PRT_LANES p ∨ off = Reg.PRT_STATUS p) { s with links := t.links, out := t.out } t)) ∧
    (s.regsWf = true → r.length < s.minLanes p ∨ x.length < s.minLanes p →
      Completes (.equaliseDone p rx tx) s (fun t => heldWith (fun _ => False) p 3 s t))) ∧
  (∀ (s : State) (p : Fin 12) (rx tx : BitVec 11) (r x : List Nat), s.linkState p = 3 ∨ s.linkState p = 6 → s.stopped = false →
    r = alignedLanes (s.link p).rxPos (s.rxRetired p) rx.toNat (s.spareLane p false) →
    x = alignedLanes (s.link p).txPos (s.txRetired p) tx.toNat (s.spareLane p true) →
    (s.minLanes p ≤ r.length → s.minLanes p ≤ x.length → Completes (.alignDone p rx tx) s (fun t =>
      t.linkState p = (if s.linkState p = 3 then 4 else 6) ∧ (t.link p).aligned = true ∧ (t.link p).rxPos = r ∧ (t.link p).txPos = x ∧
      t.rxLanes p = laneBits (laneMask r) ∧ t.txLanes p = laneBits (laneMask x) ∧ (t.link p).rxSym = 0 ∧
      (s.boardRead = true → (s.link p).capsSent = false → (t.link p).capsSent = true ∧
        t.out = s.out ++ [.link p (.train (s.link p).head {
          type := 1, stamp := 0
          caps := { vmin := (1, 0), vmax := (1, 0), role := 2 * s.role (p.val / 2) + p.val % 2, chip := s.chip
                    dims := (s.dim 0, s.dim 1, s.dim 2), txl := BitVec.ofNat 11 (laneMask x) } })]) ∧
      (s.boardRead = false ∨ (s.link p).capsSent = true → t.out = s.out) ∧
      Near (fun off => off = Reg.PRT_LANES p ∨ off = Reg.PRT_STATUS p) { s with links := t.links, out := t.out } t)) ∧
    (r.length < s.minLanes p ∨ x.length < s.minLanes p → exec (.alignDone p rx tx) s = .next s)) ∧
  (∀ (s : State) (p type : Nat) (stamp : BitVec 64) (f : LinkFlit), s.stopped = false →
    f = .train (s.link p).head { type := type, caps := s.ownCaps p, stamp := stamp } →
    s.sendTrain p type stamp = (s.modLink p (fun l => l.push f)).say (.link p f)) ∧
  (∀ (s u : State) (p : Fin 12) (r : CapsRec) (a : LinkAck), u = s.hearAck p a → u.negotiating p = true → u.stopped = false →
    verLe r.vmin (1, 0) = true → verLe (1, 0) r.vmax = true → r.dims = (u.dim 0, u.dim 1, u.dim 2) →
    r.chip = u.neighbour u.chip (u.role (p.val / 2)) → r.role = 2 * (u.role (p.val / 2) ^^^ 1) + p.val % 2 →
    Completes (.capsRx p r a) s (fun t => (t.link p).capsOk = true ∧
      t.linkState p = (if u.linkState p = 4 ∧ (u.link p).aligned = true ∧ (u.link p).acked = true ∧ (u.link p).measured = true then 5
        else u.linkState p) ∧
      t.fld (Reg.PRT_PEER p) Fld.PRT_PEER_CHIP = r.chip % 2 ^ 15 ∧ t.fld (Reg.PRT_PEER p) Fld.PRT_PEER_ROLE = r.role % 16 ∧
      t.fld (Reg.PRT_PEER p) Fld.PRT_PEER_VMAJOR = 1 ∧ t.fld (Reg.PRT_PEER p) Fld.PRT_PEER_VMINOR = 0 ∧
      (∃ l, t.out = u.out ++ .link p (.train (u.link p).head { type := 2, caps := u.ownCaps p, stamp := 0 }) :: l) ∧
      Noted (fun off => off = Reg.PRT_PEER p ∨ off = Reg.PRT_STATUS p) { u with links := t.links, units := t.units, lastChange := t.lastChange } t)) ∧
  (∀ (s u : State) (p : Fin 12) (r : CapsRec) (a : LinkAck), u = s.hearAck p a → u.negotiating p = true → u.regsWf = true →
    (verLe (verMax (1, 0) r.vmin) (verMin (1, 0) r.vmax) = false →
      (u.linkState p = 4 → Completes (.capsRx p r a) s (fun t => heldWith (· = Reg.PRT_PEER p) p 4 u t)) ∧
      (u.linkState p = 6 → Completes (.capsRx p r a) s (fun t => wentDown (· = Reg.PRT_PEER p) p u t))) ∧
    (verLe (verMax (1, 0) r.vmin) (verMin (1, 0) r.vmax) = true → u.neighbourOk p r = false →
      (u.linkState p = 4 → Completes (.capsRx p r a) s (fun t => heldWith (· = Reg.PRT_PEER p) p 5 u t)) ∧
      (u.linkState p = 6 → Completes (.capsRx p r a) s (fun t => wentDown (· = Reg.PRT_PEER p) p u t)))) ∧
  (∀ (s u v : State) (p : Fin 12) (a : LinkAck), u = s.hearAck p a → u.negotiating p = true → (u.link p).capsSent = true →
    (u.link p).measured = false ∨ (u.link p).capsOk = false ∨ (u.link p).aligned = false ∨ u.linkState p = 6 →
    v = u.modLink p (fun l => { l with acked := true, ping := some (u.rd Reg.CAD_TSC) }) →
    exec (.capsAckRx p a) s = .next (v.sendTrain p 3 (u.rd Reg.CAD_TSC))) ∧
  (∀ (s u : State) (p : Fin 12) (stamp : BitVec 64) (a : LinkAck), u = s.hearAck p a → u.negotiating p = true →
    exec (.pingRx p stamp a) s = .next (u.sendTrain p 4 stamp)) ∧
  (∀ (s u : State) (p : Fin 12) (stamp : BitVec 64) (rtt : BitVec 16) (a : LinkAck), u = s.hearAck p a → u.negotiating p = true →
    (u.link p).ping = some stamp →
    (rtt.toNat ≤ 3500 → Completes (.pongRx p stamp rtt a) s (fun t => t.link p = { u.link p with measured := true, ping := none } ∧
      t.linkState p = (if u.linkState p = 4 ∧ (u.link p).aligned = true ∧ (u.link p).acked = true ∧ (u.link p).capsOk = true then 5
        else u.linkState p) ∧
      t.fld (Reg.PRT_RTT p) Fld.PRT_RTT_RTT = rtt.toNat ∧ t.fld (Reg.PRT_RTT p) Fld.PRT_RTT_TIMEOUT = rtt.toNat + 500 ∧
      Noted (fun off => off = Reg.PRT_RTT p ∨ off = Reg.PRT_STATUS p) { u with links := t.links, units := t.units, lastChange := t.lastChange } t)) ∧
    (3500 < rtt.toNat → u.regsWf = true →
      (u.linkState p = 4 → Completes (.pongRx p stamp rtt a) s (fun t => heldWith (· = Reg.PRT_RTT p) p 6 u t)) ∧
      (u.linkState p = 6 → Completes (.pongRx p stamp rtt a) s (fun t => wentDown (· = Reg.PRT_RTT p) p u t)))) ∧
  (∀ (s : State) (p : Fin 12), s.regsWf = true →
    (1 ≤ s.linkState p → s.linkState p ≤ 4 → Completes (.trainStateTimeout p) s (fun t => heldWith (fun _ => False) p 8 s t)) ∧
    (s.linkState p = 6 → Completes (.trainStateTimeout p) s (fun t => wentDown (fun _ => False) p s t))) ∧
  (∀ (s : State) (p : Fin 12), s.linkState p = 0 → s.portEn p = true → (s.link p).module = true → s.bootDead = false →
    Completes (.detectRetryTimer p) s (fun t => t.linkState p = 1 ∧ Near (· = Reg.PRT_STATUS p) s t)) ∧
  (∀ (s : State) (v : BitVec 32),
    ((∀ d, d < 6 → d ∈ mapRoles (v.toNat % 2 ^ 18)) → (∀ p, p < 12 → v.toNat / 8 ^ (p / 2) % 8 = s.role (p / 2) ∨
        s.portEn p = false ∧ (s.linkState p = 0 ∨ s.linkState p = 7)) → Completes (.prtAxisMapWrite 0 v) s (fun t =>
      (∀ k, k < 6 → t.role k = v.toNat / 8 ^ k % 8) ∧ Near (· = Reg.PRT_AXIS_MAP) s t)) ∧
    (((∃ d, d < 6 ∧ d ∉ mapRoles (v.toNat % 2 ^ 18)) ∨ ∃ p, p < 12 ∧ v.toNat / 8 ^ (p / 2) % 8 ≠ s.role (p / 2) ∧
        (s.portEn p = true ∨ s.linkState p ≠ 0 ∧ s.linkState p ≠ 7)) → Completes (.prtAxisMapWrite 0 v) s (fun t =>
      t.fld Reg.PRT_AXIS_MAP Fld.PRT_AXIS_MAP_MAP_ERR = 1 ∧ counted Reg.PRT_MAP_ERR_CNT 1 s t ∧ (∀ k, k < 6 → t.role k = s.role k) ∧
      Near (fun off => off = Reg.PRT_AXIS_MAP ∨ off = Reg.PRT_MAP_ERR_CNT) s t)))

/-- Flits of an ACTIVE port. A codeword counts its corrected symbols, or as uncorrectable. A DATA flit next in sequence is accepted and its
packet put together; one seen before counts as a duplicate; one with a wrong CRC or a reserved KIND, or ahead, opens an episode with one
NAK; an ACK frees the buffered flits up to it, and the packets that end there; a NAK and the replay timeout send the buffer again from its
oldest, and the eighth time in a row start a retrain; a slot fills TC4's bucket, and replays, or sends the flit arbitration picks with its
SEQ and takes its credit, or sends NULL (R285 to R290, R302, R317, R323, R339). -/
def Obligations.LinkFlits : Prop :=
  (∀ (s : State) (p : Fin 12) (errs : List (Fin 272)), s.regsWf = true → (∀ i ∈ (s.link p).rxPos, i < 11) →
    (correctable errs = true → counted (Reg.PRT_FEC_CORR_CNT p) errs.eraseDups.length s (s.codeword p errs) ∧
      (s.codeword p errs).rd (Reg.PRT_STATUS p) = s.rd (Reg.PRT_STATUS p)) ∧
    (correctable errs = false → counted (Reg.PRT_FEC_UNCORR_CNT p) 1 s (s.codeword p errs) ∧
      (s.codeword p errs).fld (Reg.PRT_STATUS p) Fld.PRT_STATUS_UNCORR = 1) ∧
    ((s.codeword p errs).link p).rxSym = (s.link p).rxSym + 272 ∧ (s.codeword p errs).rt = s.rt ∧ (s.codeword p errs).out = s.out) ∧
  (∀ (s u v : State) (p : Fin 12) (f : Flit) (crc : BitVec 32) (fec : FecReport) (q g : Packet) (len : Nat) (r : Router), s.regsWf = true →
    s.linkState p = 5 → u = s.fecReport p fec → (∀ e ∈ (u.link p).winCorr, e.2 ≤ u.fld (Reg.PRT_LANE_CTL p) Fld.PRT_LANE_CTL_THRESH) →
    crc = f.crc → f.kind = 0 → v = u.takeAck p f.ack f.ackv → f.seq = (v.link p).last + 1 →
    (f.hdr = some (q, len) ∧ g = { q with body := f.bytes } ∨ f.hdr = none ∧ (∃ e ∈ (v.link p).parts, e.1 = f.tc * 16 + f.ch) ∧
      (v.link p).parts.get ({}, 0) (f.tc * 16 + f.ch) = (q, len) ∧ g = { q with body := q.body ++ f.bytes }) →
    r = (if g.type = 10 then v.rt else v.rt.hold p f.tc f.ch) → Completes (.dataFlitRx p f crc fec) s (fun t =>
      t.link p = { v.link p with
        last := f.seq, heard := true, episode := false
        parts := if g.body.length < len then (v.link p).parts.put (f.tc * 16 + f.ch) (g, len) else (v.link p).parts.erase (f.tc * 16 + f.ch) } ∧
      t.rt = (if g.body.length < len then r else if g.type = 10 then { r with arrived := r.arrived ++ [g] }
        else { r with rin := r.rin ++ [{ p := g, inPort := p, chan := f.ch, axis := v.role (p.val / 2) / 2 }] }) ∧
      counted (Reg.PRT_FLIT_RX_CNT p) 1 v t ∧ Near (· = Reg.PRT_FLIT_RX_CNT p) { v with links := t.links, rt := t.rt } t)) ∧
  (∀ (s u v : State) (p : Fin 12) (f : Flit) (crc : BitVec 32) (fec : FecReport) (ahead : Nat), s.regsWf = true → s.stopped = false →
    s.linkState p = 5 → u = s.fecReport p fec → (∀ e ∈ (u.link p).winCorr, e.2 ≤ u.fld (Reg.PRT_LANE_CTL p) Fld.PRT_LANE_CTL_THRESH) →
    crc = f.crc → f.kind = 0 → v = u.takeAck p f.ack f.ackv → ahead = (f.seq - ((v.link p).last + 1)).toNat → ahead ≠ 0 →
    (2 ^ 15 ≤ ahead → (v.link p).heard = true → Completes (.dataFlitRx p f crc fec) s (fun t => counted (Reg.PRT_DUP_CNT p) 1 v t ∧
      Near (· = Reg.PRT_DUP_CNT p) v t)) ∧
    (ahead < 2 ^ 15 ∨ (v.link p).heard = false → (v.link p).episode = false → Completes (.dataFlitRx p f crc fec) s (fun t =>
      counted (Reg.PRT_NAK_TX_CNT p) 1 v t ∧ t.out = v.out ++ [.link p (.nak (v.link p).head)] ∧
      t.link p = ({ v.link p with episode := true } : Link).push (.nak (v.link p).head) ∧
      Near (· = Reg.PRT_NAK_TX_CNT p) { v with links := t.links, out := t.out } t)) ∧
    (ahead < 2 ^ 15 ∨ (v.link p).heard = false → (v.link p).episode = true → exec (.dataFlitRx p f crc fec) s = .next v)) ∧
  (∀ (s u : State) (p : Fin 12) (f : Flit) (crc : BitVec 32) (fec : FecReport), s.regsWf = true → s.stopped = false → s.linkState p = 5 →
    u = s.fecReport p fec → (∀ e ∈ (u.link p).winCorr, e.2 ≤ u.fld (Reg.PRT_LANE_CTL p) Fld.PRT_LANE_CTL_THRESH) →
    crc ≠ f.crc ∨ f.kind ≠ 0 → Completes (.dataFlitRx p f crc fec) s (fun t => t.fld (Reg.PRT_STATUS p) Fld.PRT_STATUS_CRC = 1 ∧
      counted (Reg.PRT_CRC_ERR_CNT p) 1 u t ∧ t.rt = u.rt ∧
      ((u.link p).episode = false → counted (Reg.PRT_NAK_TX_CNT p) 1 u t ∧ t.out = u.out ++ [.link p (.nak (u.link p).head)] ∧
        t.link p = ({ u.link p with episode := true } : Link).push (.nak (u.link p).head)) ∧
      ((u.link p).episode = true → t.out = u.out ∧ t.links = u.links))) ∧
  (∀ (s : State) (p : Fin 12) (lane n : Nat),
    (s.link p).winCorr.find? (fun e => decide (s.fld (Reg.PRT_LANE_CTL p) Fld.PRT_LANE_CTL_THRESH < e.2)) = some (lane, n) →
    s.threshFail p = (s.modLink p (fun l => { l with winCorr := l.winCorr.erase lane })).laneFail p lane) ∧
  (∀ (s : State) (p : Fin 12) (ack : BitVec 16) (ackv : Bool), s.linkState p = 5 →
    exec (.nullFlitRx p ack ackv) s = .next (s.takeAck p ack ackv)) ∧
  (∀ (s : State) (p : Nat) (ack : BitVec 16) (n : Nat), (s.link p).ackedUpTo ack = some n → ∃ t : State, t = s.takeAck p ack true ∧
    t.link p = { s.link p with buf := (s.link p).buf.drop n, esc := 0, replay := (s.link p).replay.map (· - n) } ∧
    ((∀ e ∈ (s.link p).buf.take n, e.2 = false) → t.rt = s.rt) ∧
    (∀ (before after : List (Flit × Bool)) (e : Flit × Bool) (q : RPkt), (s.link p).buf.take n = before ++ e :: after → e.2 = true →
      (∀ x ∈ before ++ after, x.2 = false) →
      (s.rt.queue p).find? (fun q => q.p.tc == e.1.tc && q.outChan == e.1.ch && q.sent == q.p.flits) = some q →
      t.rt.queue p = (s.rt.queue p).erase q) ∧ (∀ q, q ≠ p → t.rt.queue q = s.rt.queue q) ∧ t = { s with links := t.links, rt := t.rt }) ∧
  (∀ (s : State) (p : Nat) (ack : BitVec 16) (ackv : Bool), (ackv = false ∨ (s.link p).ackedUpTo ack = none) → s.takeAck p ack ackv = s) ∧
  (∀ (s u : State) (p : Fin 12) (ack : BitVec 16) (ackv : Bool), s.regsWf = true → s.linkState p = 5 → u = s.takeAck p ack ackv →
    ((u.link p).buf ≠ [] → (u.link p).esc < 7 → Completes (.nakRx p ack ackv) s (fun t =>
      t.link p = { u.link p with replay := some 0, esc := (u.link p).esc + 1 } ∧ counted (Reg.PRT_REPLAY_CNT p) 1 u t ∧
      Near (· = Reg.PRT_REPLAY_CNT p) { u with links := t.links } t)) ∧
    ((u.link p).buf ≠ [] → 7 ≤ (u.link p).esc → ((u.link p).txSwitch ≠ none ∨ (u.link p).rxSwitch ≠ none) →
      Completes (.nakRx p ack ackv) s (fun t => t.link p = { u.link p with replay := some 0, esc := 0 } ∧
      counted (Reg.PRT_REPLAY_CNT p) 1 u t ∧ Near (· = Reg.PRT_REPLAY_CNT p) { u with links := t.links } t)) ∧
    ((u.link p).buf ≠ [] → 7 ≤ (u.link p).esc → (u.link p).txSwitch = none → (u.link p).rxSwitch = none →
      ∃ v : State, v.link p = { u.link p with replay := some 0, esc := (u.link p).esc + 1 } ∧ counted (Reg.PRT_REPLAY_CNT p) 1 u v ∧
      Near (· = Reg.PRT_REPLAY_CNT p) { u with links := v.links } v ∧ exec (.nakRx p ack ackv) s = .next (v.startRetrain p)) ∧
    ((u.link p).buf = [] → exec (.nakRx p ack ackv) s = .next u)) ∧
  (∀ (s : State) (p : Fin 12) (k : Nat), s.regsWf = true → k = ((s.link p).retrains.filter (fun x => decide (s.now - x ≤ 1000000000))).length →
    (k < 2 → ∃ t : State, t = s.startRetrain p ∧ t.linkState p = 6 ∧ counted (Reg.PRT_RETRAIN_CNT p) 1 s t ∧
      (t.link p).aligned = false ∧ (t.link p).buf = (s.link p).buf ∧ (t.link p).next = (s.link p).next ∧ (t.link p).last = (s.link p).last ∧
      (t.link p).retrains.length = k + 1 ∧
      t.out = s.out ++ ((List.range 11).filter (fun i => !(s.txRetired p).contains i)).map (fun i => .link p (.lane (s.link p).head i)) ∧
      Near (fun off => off = Reg.PRT_STATUS p ∨ off = Reg.PRT_RETRAIN_CNT p) { s with links := t.links, out := t.out } t) ∧
    (2 ≤ k → (s.startRetrain p).linkState p = 0 ∧ counted (Reg.PRT_RETRAIN_CNT p) 1 s (s.startRetrain p) ∧
      counted (Reg.PRT_DOWN_CNT p) 1 s (s.startRetrain p))) ∧
  (∀ (s : State) (p : Fin 12), s.regsWf = true → s.linkState p = 5 → (s.link p).buf ≠ [] → (s.link p).esc < 7 →
    Completes (.replayTimeout p) s (fun t => t.link p = { s.link p with replay := some 0, esc := (s.link p).esc + 1 } ∧
      counted (Reg.PRT_REPLAY_TO_CNT p) 1 s t ∧ counted (Reg.PRT_REPLAY_CNT p) 1 s t ∧
      Near (fun off => off = Reg.PRT_REPLAY_CNT p ∨ off = Reg.PRT_REPLAY_TO_CNT p) { s with links := t.links } t)) ∧
  (∀ (s : State) (p : Fin 12), s.linkState p = 5 → (s.link p).buf ≠ [] → 7 ≤ (s.link p).esc →
    exec (.replayTimeout p) s = .next ((s.cnt (Reg.PRT_REPLAY_TO_CNT p)).startReplay p)) ∧
  (∀ (s : State) (p : Fin 12), s.linkState p ≠ 5 ∨ (s.link p).buf = [] → exec (.replayTimeout p) s = .next s) ∧
  (∀ (s : State) (p : Fin 12) (cycles : Nat), ∃ u : State, u = s.slotTick p cycles ∧
    u.rt.tc4.get 0 p = min (max 1 (s.fld Reg.FAB_TC4_CTL Fld.FAB_TC4_CTL_BURST) * 200)
      (s.rt.tc4.get 0 p + min 10 (max 1 (s.fld Reg.FAB_TC4_CTL Fld.FAB_TC4_CTL_SHARE))) ∧
    u.link p = { s.link p with slot := (s.link p).slot + 1 } ∧
    (∀ tc, tc < 5 → u.rt.cong.stall.get 0 (p.val * 5 + tc) = s.rt.cong.stall.get 0 (p.val * 5 + tc) + (if s.stalls p tc then cycles else 0)) ∧
    u.rt.rin = s.rt.rin ∧ u.rt.rout = s.rt.rout ∧ Near (fun _ => False) { s with links := u.links, rt := u.rt } u) ∧
  (∀ (s u : State) (p : Fin 12) (cycles : Nat), s.stopped = false → s.linkState p = 5 → u = s.slotTick p cycles →
    (u.fld Reg.PWR_ACTIVE Fld.PWR_ACTIVE_LDUTY ≤ (s.link p).slot % 16 ∨
      (u.link p).replay = none ∧ (8192 ≤ (u.link p).buf.length ∨ u.pickClass p = none)) → Completes (.flitSlot p cycles) s (fun t =>
      t.out = u.out ++ [.link p (.null (u.link p).head)] ∧ t.link p = (u.link p).push (.null (u.link p).head) ∧
      Near (fun _ => False) { u with links := t.links, out := t.out } t)) ∧
  (∀ (s u : State) (p : Fin 12) (cycles k : Nat) (f : Flit) (tail : Bool), s.regsWf = true → s.stopped = false → s.linkState p = 5 →
    u = s.slotTick p cycles → (s.link p).slot % 16 < u.fld Reg.PWR_ACTIVE Fld.PWR_ACTIVE_LDUTY → (u.link p).replay = some k →
    (u.link p).buf[k]? = some (f, tail) → Completes (.flitSlot p cycles) s (fun t =>
      t.out = u.out ++ [.link p (.data { f with ack := (u.link p).last, ackv := (u.link p).heard })] ∧
      (t.link p).replay = (if k + 1 < (u.link p).buf.length then some (k + 1) else none) ∧ (t.link p).buf = (u.link p).buf ∧
      counted (Reg.PRT_FLIT_TX_CNT p) 1 u t ∧ t.rt.rout = u.rt.rout ∧
      Near (· = Reg.PRT_FLIT_TX_CNT p) { u with links := t.links, out := t.out, rt := t.rt } t)) ∧
  (∀ (s u : State) (p : Fin 12) (cycles tc ch : Nat) (q : RPkt) (a : Arb), s.regsWf = true → s.stopped = false → s.linkState p = 5 →
    u = s.slotTick p cycles → (s.link p).slot % 16 < u.fld Reg.PWR_ACTIVE Fld.PWR_ACTIVE_LDUTY → (u.link p).replay = none →
    (u.link p).buf.length < 8192 → u.pickClass p = some (tc, ch, q, a) → Completes (.flitSlot p cycles) s (fun t =>
      ∃ f : Flit, f = q.p.flit ch q.sent (u.link p).next (u.link p).last (u.link p).heard ∧
      t.out = u.out ++ [.link p (.data f)] ∧ (t.link p).next = (u.link p).next + 1 ∧
      (t.link p).buf = (u.link p).buf ++ [(f, q.sent + 1 == q.p.flits)] ∧ counted (Reg.PRT_FLIT_TX_CNT p) 1 u t ∧
      t.rt.queue p = (u.rt.queue p).replace q { q with
        sent := q.sent + 1, copyOf := if q.sent + 1 = q.p.flits then none else q.copyOf } ∧ (∀ x, x ≠ p.val → t.rt.queue x = u.rt.queue x) ∧
      (q.p.type = 10 → t.rt.usedRes = u.rt.usedRes ∧ t.rt.usedPool = u.rt.usedPool) ∧
      (q.p.type ≠ 10 → u.rt.usedRes.get 0 (chanKey p tc ch) < reserveOf tc ch →
        t.rt.usedRes.get 0 (chanKey p tc ch) = u.rt.usedRes.get 0 (chanKey p tc ch) + 1 ∧ t.rt.usedPool = u.rt.usedPool) ∧
      (q.p.type ≠ 10 → reserveOf tc ch ≤ u.rt.usedRes.get 0 (chanKey p tc ch) →
        t.rt.usedPool.get 0 (chanKey p tc ch) = u.rt.usedPool.get 0 (chanKey p tc ch) + 1 ∧ t.rt.usedRes = u.rt.usedRes) ∧
      Near (· = Reg.PRT_FLIT_TX_CNT p) { u with links := t.links, out := t.out, rt := t.rt } t))

/-- Link management and lanes. LMF_SLOT sends every message not yet acknowledged, and starts a retrain after the sixty-fourth time; an
acknowledgement ends a message's repetition; a receive lane that fails is retired and charged, and in ACTIVE asks for the spare, or the port
goes on without it in a retrain, or DOWN below MIN_LANES; SPARE_REQ is answered by a switch 1,024 codewords ahead, SPARE_SWITCH names it, at
it the spare takes the lane's place in each direction, SPARE_ACK retires the transmit lane; loss of signal and a DOWN_NOTICE take the port
DOWN; a retrain that has passed again is ACTIVE (R282, R294, R302 to R307, R453). -/
def Obligations.LinkManagement : Prop :=
  (∀ (s u : State) (p : Fin 12) (cycles : Nat), s.linkState p = 5 → u = s.slotTick p cycles →
    ((∀ n ∈ (u.link p).notes, n.sent < 64) → s.stopped = false → Completes (.lmfSlot p cycles) s (fun t =>
      ∃ f : LinkFlit, f = .lmf (u.link p).head (u.link p).notes (u.link p).acks ∧ t.out = u.out ++ [.link p f] ∧
      t.link p = { (u.link p).push f with
        notes := (u.link p).notes.map (fun (n : LinkNote) => { n with sent := n.sent + 1 }), acks := [] } ∧
      Near (fun _ => False) { u with links := t.links, out := t.out } t)) ∧
    ((∃ n ∈ (u.link p).notes, 64 ≤ n.sent) → s.stopped = false → exec (.lmfSlot p cycles) s = .next (u.startRetrain p))) ∧
  (∀ (s u : State) (p : Fin 12) (n : BitVec 16) (a : LinkAck), u = s.hearAck p a → exec (.lmfAckRx p n a) s = .next (u.setLink p { u.link p with
    notes := (u.link p).notes.filter (fun (m : LinkNote) => m.num != n) })) ∧
  (∀ (s u : State) (p : Fin 12) (n : BitVec 16) (lane : Fin 11) (cw : BitVec 64) (a : LinkAck), u = s.hearAck p a → u.linkState p = 5 →
    (∀ sp, u.spareLane p true = some sp → (u.link p).txSwitch = none → lane.val ∈ u.txLanes p →
      Completes (.spareReqRx p n lane cw a) s (fun t => t.link p = { u.link p with
        acks := if n ∈ (u.link p).acks then (u.link p).acks else (u.link p).acks ++ [n]
        txSwitch := some (Switch.mk lane sp (some (cw + 1024)) false)
        notes := (u.link p).notes ++ [{ num := (u.link p).nextNote, msg := .spareSwitch lane (cw + 1024) }]
        nextNote := (u.link p).nextNote + 1 } ∧ t = { u with links := t.links })) ∧
    (u.spareLane p true = none ∨ (u.link p).txSwitch ≠ none ∨ lane.val ∉ u.txLanes p →
      exec (.spareReqRx p n lane cw a) s = .next (u.ackNote p n))) ∧
  (∀ (s u : State) (p : Fin 12) (n : BitVec 16) (lane : Fin 11) (cw : BitVec 64) (w : Switch) (a : LinkAck), u = s.hearAck p a →
    u.linkState p = 5 → (u.link p).rxSwitch = some w → w.lane = lane → Completes (.spareSwitchRx p n lane cw a) s (fun t =>
      t.link p = { u.link p with
        acks := if n ∈ (u.link p).acks then (u.link p).acks else (u.link p).acks ++ [n]
        rxSwitch := some { w with codeword := some cw } } ∧ t = { u with links := t.links })) ∧
  (∀ (s : State) (p : Fin 12) (w : Switch) (cw : BitVec 64), s.regsWf = true → s.linkState p = 5 → (s.link p).txSwitch = some w →
    w.done = false → w.codeword = some cw → Completes (.spareSwitchApply p true) s (fun t =>
      (t.link p).txPos = (s.link p).txPos.map (fun i => if i = w.lane then w.spare else i) ∧
      t.txLanes p = laneBits (laneMask ((s.link p).txPos.map (fun i => if i = w.lane then w.spare else i))) ∧
      t.fld (Reg.PRT_STATUS p) Fld.PRT_STATUS_SPARED = 1 ∧ counted (Reg.PRT_SPARE_CNT p) 1 s t ∧ t.spareLane p true = none ∧
      (t.link p).txSwitch = some { w with done := true } ∧ t.linkState p = 5 ∧
      Noted (fun off => off = Reg.PRT_LANES p ∨ off = Reg.PRT_STATUS p ∨ off = Reg.PRT_SPARE_CNT p)
        { s with links := t.links, units := t.units, lastChange := t.lastChange } t)) ∧
  (∀ (s : State) (p : Fin 12) (w : Switch) (cw : BitVec 64), s.regsWf = true → s.linkState p = 5 → (s.link p).rxSwitch = some w →
    w.codeword = some cw → (s.link p).failed = [] → Completes (.spareSwitchApply p false) s (fun t =>
      (t.link p).rxPos = (s.link p).rxPos.map (fun i => if i = w.lane then w.spare else i) ∧
      t.rxLanes p = laneBits (laneMask ((s.link p).rxPos.map (fun i => if i = w.lane then w.spare else i))) ∧
      t.fld (Reg.PRT_STATUS p) Fld.PRT_STATUS_SPARED = 1 ∧ counted (Reg.PRT_SPARE_CNT p) 1 s t ∧ t.spareLane p false = none ∧
      (t.link p).rxSwitch = none ∧ (t.link p).notes = (s.link p).notes ++ [{ num := (s.link p).nextNote, msg := .spareAck }] ∧
      t.linkState p = 5 ∧ Noted (fun off => off = Reg.PRT_LANES p ∨ off = Reg.PRT_STATUS p ∨ off = Reg.PRT_SPARE_CNT p)
        { s with links := t.links, units := t.units, lastChange := t.lastChange } t)) ∧
  (∀ (s u : State) (p : Fin 12) (n : BitVec 16) (w : Switch) (a : LinkAck), u = s.hearAck p a → u.linkState p = 5 →
    (u.link p).txSwitch = some w → w.done = true → Completes (.spareAckRx p n a) s (fun t =>
      t.txRetired p = laneBits (laneMask (u.txRetired p ++ [w.lane])) ∧ (t.link p).txSwitch = none ∧ n ∈ (t.link p).acks ∧
      (t.link p).laneEn = 2047 - laneMask (u.txRetired p ++ [w.lane]) ∧ Near (· = Reg.PRT_LANES p) { u with links := t.links } t)) ∧
  (∀ (s : State) (p : Fin 12) (lane : Fin 11), s.regsWf = true → ∃ t : State, t = s.chargeLane p lane ∧ counted Reg.GLB_DETECT_CNT 1 s t ∧
    counted (Reg.GLB_CLASS_CNT 6) 1 s t ∧ t.unitState (unitId 9 (p.val * 32 + 16 + lane.val)) = 3 ∧
    (∀ x, (s.unitOf (unitId 9 (p.val * 32 + 16 + lane.val))).last = some x → s.now - x ≤ s.condWindow → counted Reg.GLB_PERMANENT_CNT 1 s t) ∧
    ((s.unitOf (unitId 9 (p.val * 32 + 16 + lane.val))).last = none → counted Reg.GLB_TRANSIENT_CNT 1 s t) ∧
    t.links = s.links ∧ (∀ q, t.rd (Reg.PRT_STATUS q) = s.rd (Reg.PRT_STATUS q) ∨ 12 ≤ q) ∧ t.rt.rout = s.rt.rout) ∧
  (∀ (s u : State) (p : Fin 12) (lane : Fin 11), 1 ≤ s.linkState p → s.linkState p ≤ 6 → lane.val ∉ s.rxRetired p →
    u = (s.chargeLane p lane).retireRx p [lane] →
    (∀ sp, s.linkState p = 5 → lane.val ∈ s.rxLanes p → s.spareLane p false = some sp → (s.link p).rxSwitch = none →
      exec (.laneFail p lane) s = .next (u.setLink p { u.link p with
        rxSwitch := some (Switch.mk lane sp none false)
        notes := (u.link p).notes ++ [{ num := (u.link p).nextNote, msg := .spareReq lane }], nextNote := (u.link p).nextNote + 1 })) ∧
    (s.linkState p = 5 → lane.val ∈ s.rxLanes p → s.spareLane p false = none → (s.link p).rxSwitch = none →
      exec (.laneFail p lane) s = .next (u.shrinkRx p [lane])) ∧
    (∀ w, s.linkState p = 5 → (s.link p).rxSwitch = some w → lane.val = w.spare →
      exec (.laneFail p lane) s = .next (u.shrinkRx p (w.lane :: lane.val :: (s.link p).failed))) ∧
    (∀ w, s.linkState p = 5 → (s.link p).rxSwitch = some w → lane.val ≠ w.spare → lane.val ∈ s.rxLanes p →
      exec (.laneFail p lane) s = .next (u.modLink p (fun l => { l with failed := l.failed ++ [lane.val] }))) ∧
    (s.linkState p = 6 → lane.val ∈ s.rxLanes p → exec (.laneFail p lane) s = .next (u.shrinkRx p [lane])) ∧
    (∀ sp, s.linkState p ≤ 4 → lane.val ∈ s.rxLanes p → s.spareLane p false = some sp → Completes (.laneFail p lane) s (fun t =>
      (t.link p).rxPos = (s.link p).rxPos.map (fun i => if i = lane.val then sp else i) ∧ t.spareLane p false = none ∧
      t.linkState p = s.linkState p)) ∧
    (s.linkState p ≤ 4 → lane.val ∈ s.rxLanes p → s.spareLane p false = none → Completes (.laneFail p lane) s (fun t =>
      (t.link p).rxPos = (s.link p).rxPos.filter (fun i => i != lane.val) ∧ t.linkState p = s.linkState p)) ∧
    (lane.val ∉ s.rxLanes p → (s.link p).rxSwitch = none → s.linkState p ≠ 5 → exec (.laneFail p lane) s = .next (u.setSpare p false false))) ∧
  (∀ (s : State) (p : Fin 12) (lost l : List Nat), l = (s.link p).rxPos.filter (fun i => !lost.contains i) →
    (s.minLanes p ≤ l.length → s.linkState p ≠ 6 → s.shrinkRx p lost = ((s.setRxLanes p l).setSpare p false false).startRetrain p) ∧
    (s.minLanes p ≤ l.length → s.linkState p = 6 → s.shrinkRx p lost = (s.setRxLanes p l).setSpare p false false) ∧
    (s.regsWf = true → l.length < s.minLanes p → wentDown (fun _ => False) p s (s.shrinkRx p lost))) ∧
  (∀ (s : State) (p : Fin 12) (lane : Fin 11), s.linkState p = 0 ∨ s.linkState p = 7 ∨ lane.val ∈ s.rxRetired p →
    exec (.laneFail p lane) s = .next s) ∧
  (∀ (s : State) (p : Fin 12), s.regsWf = true → s.linkState p ≠ 0 → Completes (.lossOfSignal p) s (fun t => wentDown (fun _ => False) p s t)) ∧
  (∀ (s u : State) (p : Fin 12) (a : LinkAck), s.regsWf = true → u = s.hearAck p a → 3 ≤ u.linkState p → u.linkState p ≤ 6 →
    u.stopped = false → Completes (.downNoticeRx p a) s (fun t => wentDown (fun _ => False) p u t ∧
      ∃ l, t.out = u.out ++ .link p (.lmf (u.link p).head [{ num := (u.link p).nextNote, msg := .downNotice }] (u.link p).acks) :: l)) ∧
  (∀ (s : State) (p : Fin 12), s.linkState p = 6 → (s.link p).aligned = true → (s.link p).capsOk = true → (s.link p).acked = true →
    (s.link p).measured = true → Completes (.retrainDone p) s (fun t => t.linkState p = 5 ∧ t.links = s.links ∧ t.rt.rout = s.rt.rout ∧
      Noted (· = Reg.PRT_STATUS p) { s with units := t.units, lastChange := t.lastChange } t))

/-! ### Pre-emption, tenants and slots (spec/08_movers_tenants_preemption.md) -/

/-- Pre-emption of the clusters the mask names. SAVE and PARK ask each resident stream and mark its context REQUESTED, a request that is
not permitted sets RESULT 4 and counts; at a yield point the capture makes it SAVING or PARKED and the sequencer YIELDED, its transfers HELD;
UNPARK lets a parked stream go on, a YIELD it stands at being complete; a save writes slot A, or B where A meets a detected error, as R268
lays it out, and ends with the context SAVED and the sequencer IDLE, or fails; RESTORE of a saved context on an IDLE sequencer begins, reads
the slot whose VALID is 1, and brings registers, tokens, descriptors and partitions back, or fails with a wrong header or CRC; DISCARD drops
it (R264 to R270, R272). -/
def Obligations.Preemption : Prop :=
  (∀ (s : State) (t : Fin 4), s.regsWf = true → s.ctxRegionOk t = true → Completes (.preemptSave 0 t) s (fun u => requested false t s u)) ∧
  (∀ (s : State) (t : Fin 4), s.regsWf = true → Completes (.preemptPark 0 t) s (fun u => requested true t s u)) ∧
  (∀ (s : State) (t : Fin 4), s.regsWf = true → s.ctxRegionOk t = false → Completes (.preemptSave 0 t) s (fun u =>
      counted Reg.MOV_PREEMPT_IGN_CNT 1 s u ∧ Near (· = Reg.MOV_PREEMPT_IGN_CNT) s u) ∧
    Completes (.preemptRestore 0 t) s (fun u => counted Reg.MOV_PREEMPT_IGN_CNT 1 s u ∧ Near (· = Reg.MOV_PREEMPT_IGN_CNT) s u)) ∧
  (∀ (s v : State) (c : Fin 64), s.captureReady c = true → (s.cl c).reqTenant < 4 → v = s.holdMovers c → Completes (.clusterCapture c) s (fun u =>
      u.seqState c = 3 ∧ u.ctxState (s.cl c).reqTenant c = (if (s.cl c).parkReq = true then 4 else 2) ∧
      u.cl c = { v.cl c with before := s.seqState c, requested := false, capturedAt := v.now, capturedPos := v.rd Reg.CAD_POS } ∧
      clustersKept c s u ∧ Near (fun off => off = Reg.SEQ_STATUS c ∨ off = Reg.MOV_CTX_STATUS (s.cl c).reqTenant c) { v with clu := u.clu } u)) ∧
  (∀ (s : State) (c : Nat), ∃ v : State, v = s.holdMovers c ∧ v.movReqs = s.movReqs.filter (fun (r : MovReq) => r.mrec.cluster != c) ∧
    v.cl c = { s.cl c with
      heldRecs := (s.cl c).heldRecs ++ ((s.movers.filter (fun e => e.2.cluster == c && e.2.state == 1)).map (·.2) ++
                    (s.movReqs.filter (fun (r : MovReq) => r.mrec.cluster == c && !r.head)).map (·.mrec)).map
                    (fun (r : MovRec) => { r with state := max r.state 2 }) } ∧
    (∀ e ∈ v.movers, e ∈ s.movers ∧ ¬ (e.2.cluster = c ∧ e.2.state = 1)) ∧ clustersKept c s v ∧ v.mem = s.mem ∧ v.out = s.out) ∧
  (∀ (s : State) (c : Fin 64), s.captureReady c = false → exec (.clusterCapture c) s = .next s) ∧
  (∀ (s : State) (t : Fin 4), exec (.preemptUnpark 0 t) s = .next (s.preemptMask.foldl (fun (u : State) c => u.unpark t c) s)) ∧
  (∀ (s : State) (c t : Nat), c < 64 → t < 4 → s.ctxState t c = 4 → s.preemptBarred t = false → s.seqState c ≠ 4 → ∃ u : State, u = s.unpark t c ∧
    u.ctxState t c = 0 ∧ u.fld (Reg.MOV_CTX_STATUS t c) Fld.MOV_CTX_STATUS_RESULT = 0 ∧ u.mem = s.mem ∧ u.movers = s.movers ∧
    u.seqState c = (s.cl c).before % 8 ∧
    u.movReqs = s.movReqs ++ (s.cl c).heldRecs.map (fun (r : MovRec) =>
      MovReq.mk { r with state := if 3 ≤ r.state then r.state else 0 } (r.kind == 1) false) ∧ (u.cl c).heldRecs = [] ∧
    (∀ h, (s.cl c).hold = some h → h.kind = .yield → (s.cl c).before = 1 → (s.cl c).requested = false →
      (u.cl c).hold = none ∧ ((s.cl c).loops = [] → u.seqPc c = (h.entry.pc + 1) % 2 ^ Fld.SEQ_PC_PC.width)) ∧
    ((s.cl c).before ≠ 1 → (u.cl c).hold = (s.cl c).hold)) ∧
  (∀ (s : State) (c t : Nat), s.regsWf = true → c < 64 → t < 4 → s.ctxState t c ≠ 4 ∨ s.preemptBarred t = true →
    ∃ u : State, u = s.unpark t c ∧ refused t c s u) ∧
  (∀ (s v w u : State) (c : Fin 64) (t : Fin 4) (badA badB : Bool) (err : MemErr) (bs body : List Byte) (seq : Nat), s.ctxState t c = 2 →
    v = s.meet err t → v.readPieces ((v.liveRanges t c).map (fun r => (stageBase c + r.1, r.2 - r.1))) = (.ok bs, w) →
    seq = (w.cl c).saveSeqs.get 0 t + 1 → body = w.ctxBody t c (v.liveRanges t c) bs →
    (∀ sl, w.slice = some sl → (c.val, t.val) ∉ sl.saved) →
    (w.writeSlotImage t c 0 badA body seq = (false, u) → w.slice = u.slice → u.regsWf = true →
      Completes (.contextSaveDone c t badA badB err) s (fun x => savedAs t c 0 seq u x)) ∧
    (∀ a, w.writeSlotImage t c 0 badA body seq = (true, a) → (a.cnt Reg.MOV_SAVE_RETRY_CNT).writeSlotImage t c 1 badB body seq = (false, u) →
      w.slice = u.slice → u.regsWf = true → Completes (.contextSaveDone c t badA badB err) s (fun x => savedAs t c 1 seq u x)) ∧
    (∀ a, w.writeSlotImage t c 0 badA body seq = (true, a) → (a.cnt Reg.MOV_SAVE_RETRY_CNT).writeSlotImage t c 1 badB body seq = (true, u) →
      exec (.contextSaveDone c t badA badB err) s = .next (u.saveFailed t c))) ∧
  (∀ (s v w : State) (c : Fin 64) (t : Fin 4) (badA badB : Bool) (err : MemErr) (h : Bool) (a : Nat), s.ctxState t c = 2 → v = s.meet err t →
    v.readPieces ((v.liveRanges t c).map (fun r => (stageBase c + r.1, r.2 - r.1))) = (.detected h a, w) →
    exec (.contextSaveDone c t badA badB err) s = .next ((w.chargeMem h a t).saveFailed t c)) ∧
  (∀ (s : State) (c : Fin 64) (t : Fin 4) (badA badB : Bool) (err : MemErr), s.ctxState t c ≠ 2 →
    exec (.contextSaveDone c t badA badB err) s = .next s) ∧
  (∀ (s : State) (t c k seq a other : Nat) (body : List Byte), a = s.ctxSlot t c k → other = s.ctxSlot t c (1 - k) →
    plainHbm s a (256 + body.length) → plainHbm s other 64 → other + 64 ≤ a ∨ a + 256 + body.length ≤ other → (∀ b, s.burstBad b = false) →
    ∃ u : State, s.writeSlotImage t c k false body seq = (false, u) ∧
      u.bytes a 256 = s.ctxHeader t c seq (256 + body.length) (crc64 body) true ∧ u.bytes (a + 256) body.length = body ∧
      u.byte (other + 0x28) = 0 ∧ ∀ b, (b < a ∨ a + 256 + body.length ≤ b) → b ≠ other + 0x28 → u.byte b = s.byte b) ∧
  (∀ (s : State) (t : Fin 4), s.regsWf = true → s.ctxRegionOk t = true → Completes (.preemptRestore 0 t) s (fun u =>
      (∀ c, c < 64 → c ∈ s.preemptMask → s.ctxState t c = 3 → s.seqState c = 0 → s.preemptBarred t = false → u.ctxState t c = 5) ∧
      (∀ c, c < 64 → c ∈ s.preemptMask → (s.ctxState t c ≠ 3 ∨ s.seqState c ≠ 0 ∨ s.preemptBarred t = true) →
        u.fld (Reg.MOV_CTX_STATUS t c) Fld.MOV_CTX_STATUS_RESULT = 4 ∧ u.ctxState t c = s.ctxState t c) ∧
      (∀ c, c < 64 → c ∉ s.preemptMask → u.rd (Reg.MOV_CTX_STATUS t c) = s.rd (Reg.MOV_CTX_STATUS t c)) ∧
      Near (fun off => off = Reg.MOV_PREEMPT_IGN_CNT ∨ ∃ c, c < 64 ∧ off = Reg.MOV_CTX_STATUS t c) s u)) ∧
  (∀ (s u v : State) (c : Fin 64) (t : Fin 4) (err : MemErr) (b0 hdr body : List Byte) (a len crc : Nat), s.ctxState t c = 5 →
    ((s.strike err).onBehalf t).readMem (s.ctxSlot t c 0 + 0x28) 1 = (.ok b0, u) → a = u.ctxSlot t c (if leNat b0 = 1 then 0 else 1) →
    u.readMem a 256 = (.ok hdr, v) →
    (ctxHeaderOf t c hdr = none ∨ (∀ e ∈ v.saved, e.1 ≠ t.val * 64 + c.val) →
      exec (.contextRestoreDone c t err) s = .next (v.restoreFailed t c)) ∧
    (∀ w x, ctxHeaderOf t c hdr = some (len, crc) → v.saved.find? (fun e => e.1 == t.val * 64 + c.val) = some (t.val * 64 + c.val, x) →
      v.readMem (a + 256) (len - 256) = (.ok body, w) →
      ((crc64 body).toNat ≠ crc → exec (.contextRestoreDone c t err) s = .next (w.restoreFailed t c)) ∧
      ((crc64 body).toNat = crc → (x.clu.before ≠ 4 ∨ w.preemptBarred t = true) → exec (.contextRestoreDone c t err) s = .next
        (((((((w.reload t c x body).setCtx t c 0).setResult t c 0).cnt Reg.MOV_RESTORE_CNT).evq t 3 c 0).applyHeld t c).continueAfter c t)) ∧
      ((crc64 body).toNat = crc → x.clu.before = 4 → w.preemptBarred t = false → exec (.contextRestoreDone c t err) s = .next
        ((((((((w.reload t c x body).setCtx t c 0).setResult t c 0).cnt Reg.MOV_RESTORE_CNT).evq t 3 c 0).applyHeld t c).continueAfter c t).reraise c
          (ctxFault body))))) ∧
  (∀ (s : State) (t c : Nat) (x : SavedCtx) (body : List Byte), c < 64 → ∃ u : State, u = s.reload t c x body ∧
    (∀ i, i < 32 → (u.cl c).s i = BitVec.ofNat 64 (leNat ((body.drop (8 * i)).take 8))) ∧
    (∀ i, i < 256 → (u.cl c).d i = BitVec.ofNat 512 (leNat ((body.drop (0x3F00 + 64 * i)).take 64))) ∧
    (∀ i, i < 256 → u.rd (Reg.SEQ_TOKEN c i) = BitVec.ofNat 64 (leNat ((body.drop (0x200 + 8 * i)).take 8))) ∧
    (u.cl c).loops = x.clu.loops ∧ (u.cl c).ret = x.clu.ret ∧ (u.cl c).hold = x.clu.hold ∧ (u.cl c).preds = x.clu.preds ∧
    (s.preemptBarred t = true → (u.cl c).before = 2 ∧ (u.cl c).heldRecs = [] ∧ (u.cl c).pref = []) ∧
    (s.preemptBarred t = false → (u.cl c).before = x.clu.before) ∧ clustersKept c s u ∧ u.saved = s.saved.erase (t * 64 + c)) ∧
  (∀ (s : State) (t c : Nat), s.regsWf = true → c < 64 → t < 4 → t ≠ 1 → ∃ u : State, u = s.restoreFailed t c ∧ u.ctxState t c = 0 ∧
    u.fld (Reg.MOV_CTX_STATUS t c) Fld.MOV_CTX_STATUS_RESULT = 3 ∧ counted Reg.MOV_RESTORE_FAIL_CNT 1 s u ∧
    u.fld Reg.MOV_STATUS Fld.MOV_STATUS_RESTORE_FAIL = 1 ∧ u.saved = s.saved.erase (t * 64 + c) ∧ u.mem = s.mem ∧ u.clu = s.clu) ∧
  (∀ (s : State) (t : Fin 4), exec (.preemptDiscard 0 t) s = .next (s.preemptMask.foldl (fun (u : State) c =>
    if u.preemptBarred t then u.ctxIgnored t c else u.discard t c) s)) ∧
  (∀ (s : State) (t c : Nat), s.regsWf = true → c < 64 → t < 4 →
    (s.ctxState t c = 3 → (s.discard t c).ctxState t c = 0 ∧ (s.discard t c).fld (Reg.MOV_CTX_STATUS t c) Fld.MOV_CTX_STATUS_RESULT = 0 ∧
      (∀ e ∈ (s.discard t c).saved, e.1 ≠ t * 64 + c) ∧ ∀ e ∈ (s.discard t c).heldSig, e.1 / 256 ≠ t * 64 + c) ∧
    (s.ctxState t c ≠ 3 → refused t c s (s.discard t c)) ∧ refused t c s (s.ctxIgnored t c)) ∧
  (∀ (s : State) (b t : Fin 4), b ≠ 0 → exec (.preemptSave b t) s = .next s ∧ exec (.preemptPark b t) s = .next s ∧
    exec (.preemptUnpark b t) s = .next s ∧ exec (.preemptRestore b t) s = .next s ∧ exec (.preemptDiscard b t) s = .next s)

/-- Tenant, slot and stack registers. A write that would take a path or EN from a tenant that holds a cluster is ignored and counts, any other
change of them disables the tenant's rings; a slot in use keeps its owner; another change of owner empties the slot and zeroes its key,
indexes and data position; the key and the indexes are ignored while a stream runs in the slot; STK_DPOS latches the next-draw index; base
and size are ignored while a partition holds anything or off 4 KiB; a write clears the high-water mark. With the trailer read, a POP of form
DISCARD takes its entry off the partition, one of a KEEP entry asks for its mover, one of a RECOMPUTE entry takes it off and runs its
segment; a trailer that traps, or a detected error, stops it there (R236, R252, R253, R262, R263, R267, R277, R280, R391). -/
def Obligations.TenantsAndStacks : Prop :=
  (∀ (s v u : State) (c : Fin 64) (err : MemErr) (e : QEntry) (rest : List QEntry) (depth a : Nat) (tr : BitVec 512), PopReady s c e rest →
    depth = (if e.fld 87 86 = 1 then e.fld 85 72 else 0) → depth < s.stkEntries e.slot c → v = s.meet err (s.seqTenant c) →
    v.trailerAt (v.slotOwner e.slot) depth (v.stkBase e.slot c + v.stkTop e.slot c) = (.found a tr, u) →
    (e.fld 87 86 = 2 → Completes (.stackEntryReport c err) s (fun t => t.stkTop e.slot c = u.stkTop e.slot c - trailerLen tr ∧
      t.stkEntries e.slot c = u.stkEntries e.slot c - 1 ∧ (t.cl c).movQ = (u.cl c).movQ.drop 1 ∧ t.mem = u.mem ∧
      t = (((u.takeHead c portMover e).popEntry c e.slot (trailerLen tr)).popKnown c e).signalHeader c portMover e 1)) ∧
    (e.fld 87 86 ≠ 2 → trailerKind tr = 0 → (u.descOf c e (e.fld 95 88)).valid = true →
      trailerMatches tr (u.descOf c e (e.fld 95 88)) = true → u.regionOk (u.slotOwner e.slot) (a + 64 - trailerLen tr) (trailerLen tr) .rd = true →
      u.rangesOk (u.seqTenant c) .wr (u.descOf c e (e.fld 95 88)).ranges = true →
      exec (.stackEntryReport c err) s = .next ((u.popCopy c e (u.descOf c e (e.fld 95 88)) a tr).popKnown c e)) ∧
    (e.fld 87 86 = 0 → trailerKind tr ≠ 0 → (u.cl c).ret = none → Completes (.stackEntryReport c err) s (fun t =>
      t.stkTop e.slot c = u.stkTop e.slot c - trailerLen tr ∧ t.stkEntries e.slot c = u.stkEntries e.slot c - 1 ∧
      t = ((u.takeHead c portMover e).popEntry c e.slot (trailerLen tr)).divert c e (tr.toNat / 2 ^ 384 % 2 ^ 40) (tr.toNat / 2 ^ 448 % 2 ^ 32)))) ∧
  (∀ (s : State) (c : Nat) (e : QEntry) (segment arg : Nat), c < 64 → (s.cl c).keepsHold → e.sig = 0 → ∃ u : State, u = s.divert c e segment arg ∧
    u.seqPc c = segment % 2 ^ Fld.SEQ_PC_PC.width ∧ (u.cl c).ret = some (e.pc + 1, (s.cl c).loops.length) ∧
    (u.cl c).loops = (s.cl c).loops.map (fun (l : LoopEntry) => { l with suspended := true }) ∧ (u.cl c).s 28 = BitVec.ofNat 64 arg ∧
    (u.cl c).hold = none) ∧
  (∀ (s v u : State) (c : Fin 64) (err : MemErr) (e : QEntry) (rest : List QEntry) (depth : Nat), PopReady s c e rest →
    depth = (if e.fld 87 86 = 1 then e.fld 85 72 else 0) → depth < s.stkEntries e.slot c → v = s.meet err (s.seqTenant c) →
    (∀ code, v.trailerAt (v.slotOwner e.slot) depth (v.stkBase e.slot c + v.stkTop e.slot c) = (.trap code, u) →
      exec (.stackEntryReport c err) s = .next (u.trap c portMover code 0 e)) ∧
    (∀ h a, v.trailerAt (v.slotOwner e.slot) depth (v.stkBase e.slot c + v.stkTop e.slot c) = (.detected h a, u) →
      exec (.stackEntryReport c err) s = .next (u.chargeMem h a (u.seqTenant c)))) ∧
  (∀ (s : State) (c : Fin 64) (err : MemErr) (e : QEntry) (rest : List QEntry), PopReady s c e rest → s.popDstBad c e = none →
    s.stkEntries e.slot c ≤ (if e.fld 87 86 = 1 then e.fld 85 72 else 0) →
    exec (.stackEntryReport c err) s = .next (s.trap c portMover 0x13 0 e)) ∧
  (∀ (s : State) (v : BitVec 64), getField v Fld.MOV_TEN_CTL_EN = 1 → s.fld (Reg.MOV_TEN_CTL 0) Fld.MOV_TEN_CTL_PATH = 0 →
    Completes (.movTenCtlWrite 0 0 v) s (fun u => u.fld (Reg.MOV_TEN_CTL 0) Fld.MOV_TEN_CTL_PATH = 0 ∧
      u.fld (Reg.MOV_TEN_CTL 0) Fld.MOV_TEN_CTL_WEIGHT = getField v Fld.MOV_TEN_CTL_WEIGHT ∧ Near (· = Reg.MOV_TEN_CTL 0) s u)) ∧
  (∀ (s : State) (t : Fin 4) (v : BitVec 64), t ≠ 0 → s.holdsAny t = false →
    (getField v Fld.MOV_TEN_CTL_PATH ≠ s.fld (Reg.MOV_TEN_CTL t) Fld.MOV_TEN_CTL_PATH ∨
      s.fld (Reg.MOV_TEN_CTL t) Fld.MOV_TEN_CTL_EN = 1 ∧ getField v Fld.MOV_TEN_CTL_EN = 0) → Completes (.movTenCtlWrite 0 t v) s (fun u =>
      (∀ f ∈ [Fld.MOV_TEN_CTL_PATH, Fld.MOV_TEN_CTL_EN, Fld.MOV_TEN_CTL_WEIGHT, Fld.MOV_TEN_CTL_QUOTA],
        u.fld (Reg.MOV_TEN_CTL t) f = getField v f) ∧
      (∀ r, r < 64 → s.fld (Reg.HIF_RING_OWN r) Fld.HIF_RING_OWN_TEN = t.val → u.fld (Reg.HIF_RING_CTL r) Fld.HIF_RING_CTL_EN = 0) ∧
      (∀ r, r < 64 → s.fld (Reg.HIF_RING_OWN r) Fld.HIF_RING_OWN_TEN ≠ t.val → u.rd (Reg.HIF_RING_CTL r) = s.rd (Reg.HIF_RING_CTL r)) ∧
      Near (fun off => off = Reg.MOV_TEN_CTL t ∨ ∃ r, r < 64 ∧ off = Reg.HIF_RING_CTL r) s u)) ∧
  (∀ (s : State) (t : Fin 4) (v : BitVec 64), s.regsWf = true → t ≠ 0 → s.holdsAny t = true →
    (getField v Fld.MOV_TEN_CTL_PATH ≠ s.fld (Reg.MOV_TEN_CTL t) Fld.MOV_TEN_CTL_PATH ∨
      s.fld (Reg.MOV_TEN_CTL t) Fld.MOV_TEN_CTL_EN = 1 ∧ getField v Fld.MOV_TEN_CTL_EN = 0) →
    Completes (.movTenCtlWrite 0 t v) s (fun u => raised Reg.MOV_STATUS Fld.MOV_STATUS_TEN_WR_IGN Reg.MOV_TEN_IGN_CNT s u ∧
      Near (fun off => off = Reg.MOV_STATUS ∨ off = Reg.MOV_TEN_IGN_CNT) s u)) ∧
  (∀ (s : State) (t : Fin 4) (v : BitVec 64), t ≠ 0 → getField v Fld.MOV_TEN_CTL_PATH = s.fld (Reg.MOV_TEN_CTL t) Fld.MOV_TEN_CTL_PATH →
    (getField v Fld.MOV_TEN_CTL_EN = 1 ∨ s.fld (Reg.MOV_TEN_CTL t) Fld.MOV_TEN_CTL_EN = 0) →
    Completes (.movTenCtlWrite 0 t v) s (fun u => u.fld (Reg.MOV_TEN_CTL t) Fld.MOV_TEN_CTL_EN = getField v Fld.MOV_TEN_CTL_EN ∧
      u.fld (Reg.MOV_TEN_CTL t) Fld.MOV_TEN_CTL_WEIGHT = getField v Fld.MOV_TEN_CTL_WEIGHT ∧
      u.fld (Reg.MOV_TEN_CTL t) Fld.MOV_TEN_CTL_QUOTA = getField v Fld.MOV_TEN_CTL_QUOTA ∧ Near (· = Reg.MOV_TEN_CTL t) s u)) ∧
  (∀ (s : State) (t : Fin 4) (v : BitVec 64), (∀ c, c < 64 → s.ctxState t c = 0) → Completes (.movCtxRegionWrite 0 t false v) s (fun u =>
      u.fld (Reg.MOV_CTX_BASE t) Fld.MOV_CTX_BASE_BASE = getField v Fld.MOV_CTX_BASE_BASE ∧ Near (· = Reg.MOV_CTX_BASE t) s u)) ∧
  (∀ (s : State) (t : Fin 4) (v : BitVec 64) (c : Nat), c < 64 → s.ctxState t c = 3 → Completes (.movCtxRegionWrite 0 t true v) s (fun u =>
      raised Reg.MOV_STATUS Fld.MOV_STATUS_TEN_WR_IGN Reg.MOV_TEN_IGN_CNT s u ∧ u.rd (Reg.MOV_CTX_SLOT t) = s.rd (Reg.MOV_CTX_SLOT t))) ∧
  (∀ (s : State) (sl : Fin 16) (v : BitVec 64), s.slotInUse (s.slotOwner sl) sl = true → Completes (.stkSlotWrite 0 sl v) s (fun u =>
      raised Reg.MOV_STATUS Fld.MOV_STATUS_SLOT_WR_IGN Reg.MOV_SLOT_IGN_CNT s u ∧ u.slotOwner sl = s.slotOwner sl)) ∧
  (∀ (s : State) (sl : Fin 16) (v : BitVec 64), s.slotInUse (s.slotOwner sl) sl = false → s.slotInUse (getField v Fld.STK_SLOT_OWNER) sl = false →
    getField v Fld.STK_SLOT_OWNER ≠ s.slotOwner sl → Completes (.stkSlotWrite 0 sl v) s (fun u =>
      u.slotOwner sl = getField v Fld.STK_SLOT_OWNER ∧ u.rd (Reg.STK_KEY_LO sl) = 0 ∧ u.rd (Reg.STK_KEY_HI sl) = 0 ∧ u.rd (Reg.STK_NDI sl) = 0 ∧
      u.rd (Reg.STK_DPOS sl) = 0 ∧ u.rd (Reg.MEM_SLOT_NDIPOS sl) = 0 ∧ (∀ c, c < 64 → u.rd (Reg.STK_TOP sl c) = 0) ∧ u.mem = s.mem)) ∧
  (∀ (s : State) (sl : Fin 16) (v : BitVec 64), (∀ c, c < 64 → s.seqState c ≠ 1) → Completes (.stkKeyNdiWrite 0 sl 2 v) s (fun u =>
      u.fld (Reg.STK_NDI sl) Fld.STK_NDI_NDI = getField v Fld.STK_NDI_NDI ∧ Near (· = Reg.STK_NDI sl) s u)) ∧
  (∀ (s : State) (sl : Fin 16) (r : Fin 3) (v : BitVec 64) (c : Nat), c < 64 → s.seqState c = 1 → s.seqTenant c = s.slotOwner sl →
    s.seqSlot c = sl.val → Completes (.stkKeyNdiWrite 0 sl r v) s (fun u =>
      raised Reg.MOV_STATUS Fld.MOV_STATUS_SLOT_WR_IGN Reg.MOV_SLOT_IGN_CNT s u ∧ u.rd (Reg.STK_NDI sl) = s.rd (Reg.STK_NDI sl))) ∧
  (∀ (s : State) (sl : Fin 16) (v : BitVec 64), Completes (.stkDposWrite 0 sl v) s (fun u => u.rd (Reg.STK_DPOS sl) = v ∧
      u.fld (Reg.MEM_SLOT_NDIPOS sl) Fld.MEM_SLOT_NDIPOS_NDIPOS = s.fld (Reg.STK_NDI sl) Fld.STK_NDI_NDI ∧
      Near (fun off => off = Reg.STK_DPOS sl ∨ off = Reg.MEM_SLOT_NDIPOS sl) s u)) ∧
  (∀ (s : State) (sl : Fin 16) (v : BitVec 64), (∀ c, c < 64 → s.stkTop sl c = 0) → getField v Fld.STK_BASE_BASE % 4096 = 0 →
    Completes (.stkBasePartWrite 0 sl false v) s (fun u => u.fld (Reg.STK_BASE sl) Fld.STK_BASE_BASE = getField v Fld.STK_BASE_BASE ∧
      Near (· = Reg.STK_BASE sl) s u)) ∧
  (∀ (s : State) (sl : Fin 16) (v : BitVec 64) (c : Nat), c < 64 → s.stkTop sl c ≠ 0 → exec (.stkBasePartWrite 0 sl true v) s = .next s) ∧
  (∀ (s : State) (sl : Fin 16) (v : BitVec 64), Completes (.stkHwmWrite 0 sl v) s (fun u => u.rd (Reg.STK_HWM sl) = 0 ∧
      Near (· = Reg.STK_HWM sl) s u)) ∧
  (∀ (s : State) (b t : Fin 4) (sl : Fin 16) (x : Bool) (v : BitVec 64), b ≠ 0 → exec (.movTenCtlWrite b t v) s = .next s ∧
    exec (.movCtxRegionWrite b t x v) s = .next s ∧ exec (.stkSlotWrite b sl v) s = .next s ∧ exec (.stkBasePartWrite b sl x v) s = .next s ∧
    exec (.stkHwmWrite b sl v) s = .next s ∧ (b.val ≠ s.slotOwner sl → exec (.stkDposWrite b sl v) s = .next s))

/-! ### Memory and its recovery (spec/07_memory.md, spec/14_faults_and_selftest.md) -/

/-- Region tables, the reserve, withholding and commits. A W0 write with VALID = 0 is held unchecked and one with VALID = 1 only where R230
allows the entry; a W1 write is checked while its entry is valid; a rejected one sets RGN_ERR and counts. The reserve is not raised over a
region, and a locked one keeps its count. A withheld pseudo-channel's accesses are detected errors; a commit that R221 allows makes the
pass run, every other is rejected, and one of the repair data that a region bars raises the fault barrier; the end of the pass adds the
pseudo-channel to the retired ones, lowers MEM_TOP by 1.5 GiB, counts the lost granules, and every burst of one reads as a detected error. A
refresh keeps all (R212, R219 to R222, R230, R244 to R248, R251, R458). -/
def Obligations.MemoryTables : Prop :=
  (∀ (s : State) (t : Fin 4) (i : Fin 256) (v : BitVec 64), getField v Fld.MEM_RGN_W0_VALID = 0 ∨ s.entryOk t v (s.rd (Reg.MEM_RGN_W1 t i)) = true →
    Completes (.memRgnW0Write 0 t i v) s (fun u => Near (· = Reg.MEM_RGN_W0 t i) s u ∧
      ∀ f ∈ [Fld.MEM_RGN_W0_BASE, Fld.MEM_RGN_W0_RD, Fld.MEM_RGN_W0_WR, Fld.MEM_RGN_W0_XS, Fld.MEM_RGN_W0_FL, Fld.MEM_RGN_W0_OWNER,
        Fld.MEM_RGN_W0_VALID], u.fld (Reg.MEM_RGN_W0 t i) f = getField v f)) ∧
  (∀ (s : State) (t : Fin 4) (i : Fin 256) (v : BitVec 64), s.regsWf = true → getField v Fld.MEM_RGN_W0_VALID = 1 →
    s.entryOk t v (s.rd (Reg.MEM_RGN_W1 t i)) = false →
    Completes (.memRgnW0Write 0 t i v) s (fun u => raised Reg.MEM_RGN_STATUS Fld.MEM_RGN_STATUS_RGN_ERR Reg.MEM_RGN_ERR_CNT s u ∧
      Near (fun off => off = Reg.MEM_RGN_STATUS ∨ off = Reg.MEM_RGN_ERR_CNT) s u)) ∧
  (∀ (s : State) (t : Fin 4) (i : Fin 256) (v : BitVec 64), s.fld (Reg.MEM_RGN_W0 t i) Fld.MEM_RGN_W0_VALID = 0 ∨
    s.entryOk t (s.rd (Reg.MEM_RGN_W0 t i)) v = true → Completes (.memRgnW1Write 0 t i v) s (fun u => Near (· = Reg.MEM_RGN_W1 t i) s u ∧
      u.fld (Reg.MEM_RGN_W1 t i) Fld.MEM_RGN_W1_LIMIT = getField v Fld.MEM_RGN_W1_LIMIT)) ∧
  (∀ (s : State) (t : Fin 4) (i : Fin 256) (v : BitVec 64), s.regsWf = true → s.fld (Reg.MEM_RGN_W0 t i) Fld.MEM_RGN_W0_VALID = 1 →
    s.entryOk t (s.rd (Reg.MEM_RGN_W0 t i)) v = false → Completes (.memRgnW1Write 0 t i v) s (fun u =>
      raised Reg.MEM_RGN_STATUS Fld.MEM_RGN_STATUS_RGN_ERR Reg.MEM_RGN_ERR_CNT s u ∧ u.rd (Reg.MEM_RGN_W1 t i) = s.rd (Reg.MEM_RGN_W1 t i) ∧
      Near (fun off => off = Reg.MEM_RGN_STATUS ∨ off = Reg.MEM_RGN_ERR_CNT) s u)) ∧
  (∀ (s : State) (v : BitVec 32) (n : Nat), s.regsWf = true → n = (if s.fld Reg.MEM_RSV Fld.MEM_RSV_LOCK = 1
      then s.fld Reg.MEM_RSV Fld.MEM_RSV_COUNT else getField (v.setWidth 64) Fld.MEM_RSV_COUNT) →
    (s.regionAbove (ceilingOf n (s.fld Reg.MEM_REMAP_STATUS Fld.MEM_REMAP_STATUS_J)) = false → Completes (.memRsvWrite 0 v) s (fun u =>
      u.fld Reg.MEM_RSV Fld.MEM_RSV_COUNT = n ∧ Near (· = Reg.MEM_RSV) s u)) ∧
    (s.regionAbove (ceilingOf n (s.fld Reg.MEM_REMAP_STATUS Fld.MEM_REMAP_STATUS_J)) = true → Completes (.memRsvWrite 0 v) s (fun u =>
      raised Reg.MEM_RGN_STATUS Fld.MEM_RGN_STATUS_RGN_ERR Reg.MEM_RGN_ERR_CNT s u ∧
      Near (fun off => off = Reg.MEM_RGN_STATUS ∨ off = Reg.MEM_RGN_ERR_CNT) s u))) ∧
  (∀ (s : State) (p : Fin 512), s.pcRetired p = false → Completes (.memWithhold 0 p) s (fun u => u.withheld p = true ∧
      (∀ q, q < 512 → q ≠ p.val → u.withheld q = s.withheld q) ∧
      (∀ b, (hbmLocate s.retired (b * 64)).1 = p.val → u.burstFails b = true) ∧
      Near (fun off => off = Reg.MEM_REMAP_CTL ∨ off = Reg.MEM_PC_WITHHELD (p.val % 8)) s u)) ∧
  (∀ (s : State) (p : Fin 512), s.pcRetired p = true → Completes (.memWithhold 0 p) s (fun u =>
      u.fld Reg.MEM_REMAP_CTL Fld.MEM_REMAP_CTL_PC = p.val ∧ Near (· = Reg.MEM_REMAP_CTL) s u)) ∧
  (∀ (s : State) (p : Fin 512), s.commitOk p = true → Completes (.memCommit 0 p false) s (fun u => u.commitPc = some p.val ∧
      u.fld Reg.MEM_REMAP_STATUS Fld.MEM_REMAP_STATUS_BUSY = 1 ∧ u.fld Reg.MEM_REMAP_CTL Fld.MEM_REMAP_CTL_PC = p.val ∧
      Near (fun off => off = Reg.MEM_REMAP_CTL ∨ off = Reg.MEM_REMAP_STATUS) { s with commitPc := some p.val } u)) ∧
  (∀ (s : State) (p : Fin 512) (both barred : Bool), s.regsWf = true → both = true ∨ s.commitOk p = false →
    barred = s.regionAbove (ceilingOf (s.fld Reg.MEM_RSV Fld.MEM_RSV_COUNT) (s.fld Reg.MEM_REMAP_STATUS Fld.MEM_REMAP_STATUS_J + 1)) →
    (barred = false ∨ s.withheld p = false ∨ s.repairState (unitId 7 p) ≠ repairWithheld → Completes (.memCommit 0 p both) s (fun u =>
      raised Reg.MEM_REMAP_STATUS Fld.MEM_REMAP_STATUS_REJECT Reg.MEM_REMAP_REJ_CNT s u ∧
      Near (fun off => off = Reg.MEM_REMAP_CTL ∨ off = Reg.MEM_REMAP_STATUS ∨ off = Reg.MEM_REMAP_REJ_CNT) s u)) ∧
    (barred = true → s.withheld p = true → s.repairState (unitId 7 p) = repairWithheld → Completes (.memCommit 0 p both) s (fun u =>
      u = (s.commit p both).raiseBarrier 1 0 ∧ u.barrier = 1 ∧ u.commitPc = s.commitPc ∧ u.mem = s.mem ∧
      raised Reg.MEM_REMAP_STATUS Fld.MEM_REMAP_STATUS_REJECT Reg.MEM_REMAP_REJ_CNT s u))) ∧
  (∀ (s : State) (p : Nat), s.regsWf = true → s.commitPc = some p → p < 512 → s.retired.length < 64 → Completes .commitPassEnd s (fun u =>
      u.commitPc = none ∧ u.mem = s.mem ∧ u.clu = s.clu ∧ u.commits = s.commits ++ [Commit.mk p s.retired []] ∧
      u.fld Reg.MEM_TOP Fld.MEM_TOP_TOP = (511 - s.retired.length) * 0x60000000 ∧
      u.fld Reg.MEM_REMAP_STATUS Fld.MEM_REMAP_STATUS_J = s.retired.length + 1 ∧ u.fld Reg.MEM_REMAP_STATUS Fld.MEM_REMAP_STATUS_BUSY = 0 ∧
      u.pcRetired p = true ∧ u.withheld p = false ∧ counted Reg.MEM_LOST_CNT (lostGranules s.retired p) s u ∧
      ∀ b, (hbmLocate s.retired (b * 64)).1 = p → u.burstFails b = true)) ∧
  (∀ s : State, s.commitPc = none → exec .commitPassEnd s = .next s) ∧
  (∀ (s : State) (p : Fin 512) (bank : Nat), exec (.hbmRefresh p bank) s = .next s) ∧
  (∀ (s : State) (b t : Fin 4) (i : Fin 256) (p : Fin 512) (x : Bool) (v : BitVec 64) (w : BitVec 32), b ≠ 0 →
    exec (.memRgnW0Write b t i v) s = .next s ∧ exec (.memRgnW1Write b t i v) s = .next s ∧ exec (.memRsvWrite b w) s = .next s ∧
    exec (.memWithhold b p) s = .next s ∧ exec (.memCommit b p x) s = .next s)

/-- Recovery and self-test. A burst that a re-read of the keeper reads with a right code is written again so and its readers go on; one that
none does is lost data, as is a page that cannot be rebuilt: T1 raises the fault barrier and another tenant's running streams halt. A page
whose journalled source still has the record's fingerprint is written again from it. A targeted test runs when its engine is free and it is
the next one there; a PASS is TRANSIENT, one soon after another CONDITIONAL, a FAIL or a third confirmation PERMANENT and retires the unit, an
HBM pseudo-channel being withheld at once. A slice's cluster becomes IDLE at the end of its test stream, and the tenant saved for it is
restored (R448 to R450, R453, R456 to R459). -/
def Obligations.RecoveryAndSelfTest : Prop :=
  (∀ (s : State) (dpa b : Nat) (data : BitVec 512) (code : BitVec 32) (t : Fin 4), b = dpa / 64 →
    (s.burstFails b = false → exec (.hbmDetectRecovery dpa data code t) s = .next s) ∧
    (s.burstFails b = true → s.reread b data code = none → exec (.hbmDetectRecovery dpa data code t) s = .next (s.burstLost (b * 64) t)) ∧
    (∀ bs, s.burstFails b = true → s.reread b data code = some bs → exec (.hbmDetectRecovery dpa data code t) s =
      .next ((((s.poke (b * 64) bs).healBurst b).redriveAt (b * 64) 64).redriveColls))) ∧
  (∀ (s : State) (b : Nat) (data : BitVec 512) (code : BitVec 32) (bs : List Byte), s.reread b data code = some bs →
    ∃ u : State, u = (s.poke (b * 64) bs).healBurst b ∧ u.burstFails b = false ∧ storedAt (b * 64) bs s u ∧ bs.length = 64 ∧
      (∀ x, x ≠ b → u.burstFails x = s.burstFails x) ∧ u.regs = s.regs ∧
      ((∀ e ∈ u.movers, e.2.state ≠ 4) → (∀ e ∈ u.colls, e.2.det = []) → (u.redriveAt (b * 64) 64).redriveColls = u)) ∧
  (∀ (s : State) (a : Nat) (t : Fin 4), s.bankLen = 0 → s.mirrorState ≠ 2 →
    (t ≠ 1 → ∃ u : State, u = s.burstLost a t ∧ u.mem = s.mem ∧ u.out = s.out ++ [.keeper 9 t 0] ∧ u.clu = s.clu ∧
      ∀ c, c < 64 → u.seqState c = (if s.seqTenant c = t.val ∧ (s.seqState c = 1 ∨ s.seqState c = 3) then 2 else s.seqState c)) ∧
    (t = 1 → ∃ u : State, u = s.burstLost a t ∧ u.barrier = 1 ∧ u.mem = s.mem ∧ u.colls = [] ∧
      ∀ c, c < 64 → s.resident 1 c = true → u.seqState c = 2 ∧ (u.cl c).pref = [])) ∧
  (∀ (s : State) (c : Fin 64) (dpa : Nat) (t : Fin 4), dpa / 4 ∉ s.badStage ∨ inStage c dpa 1 = false ∨ s.testing (stageBankUnit dpa) = true →
    exec (.stageParityRecovery c dpa t) s = .next s) ∧
  (∀ (s : State) (c : Fin 64) (dpa : Nat) (t : Fin 4), dpa / 4 ∈ s.badStage → inStage c dpa 1 = true → s.testing (stageBankUnit dpa) = false →
    (∀ v, s.rebuildPage c dpa t = (true, v) → exec (.stageParityRecovery c dpa t) s = .next (v.redriveAt (dpa / 4 * 4) 4)) ∧
    (∀ v, s.rebuildPage c dpa t = (false, v) → exec (.stageParityRecovery c dpa t) s = .next ((v.lineLost dpa).lostData t))) ∧
  (∀ (s u : State) (c : Fin 64) (dpa t : Nat) (r : MovRec) (bs : List Byte),
    (s.cl c).journalOf ((dpa - stageBase c) / 4096) = some r → (s.onBehalf t).readPieces (r.srcD.chunkPieces 0 r.total) = (.ok bs, u) →
    (crc64 bs = r.fp → inStage c dpa 1 = true → ∃ v : State, s.rebuildPage c dpa t = (true, v) ∧ dpa / 4 ∉ v.badStage ∧
      storedAt (stageBase c + (dpa - stageBase c) / 4096 * 4096)
        (pageFrom (r.dstD.chunkPieces 0 r.total) bs (stageBase c + (dpa - stageBase c) / 4096 * 4096)) u v ∧
      Near (fun _ => False) { u with mem := v.mem, badStage := v.badStage } v) ∧
    (crc64 bs ≠ r.fp → s.rebuildPage c dpa t = (false, u))) ∧
  (∀ (s : State) (c : Fin 64) (dpa t : Nat), (s.cl c).journalOf ((dpa - stageBase c) / 4096) = none → s.rebuildPage c dpa t = (false, s)) ∧
  (∀ (s : State) (unit : BitVec 32) (q : TestReq),
    (s.testsFor unit.toNat).find? (fun (x : TestReq) => !x.running && testEngine x.unit == testEngine unit.toNat) = some q →
    (q.unit = unit.toNat → (∀ x ∈ s.testsFor unit.toNat, x.running = true → testEngine x.unit ≠ testEngine unit.toNat) →
      Completes (.targetedTestStart unit) s (fun u =>
        u.testsFor unit.toNat = (s.testsFor unit.toNat).map (fun (x : TestReq) => if x = q then { x with running := true } else x) ∧
        Near (fun _ => False) { s with clu := u.clu, hbmTests := u.hbmTests } u)) ∧
    ((q.unit ≠ unit.toNat ∨ ∃ x ∈ s.testsFor unit.toNat, x.running = true ∧ testEngine x.unit = testEngine unit.toNat) →
      exec (.targetedTestStart unit) s = .next s)) ∧
  (∀ (s : State) (unit : BitVec 32),
    (s.testsFor unit.toNat).find? (fun (x : TestReq) => !x.running && testEngine x.unit == testEngine unit.toNat) = none →
    exec (.targetedTestStart unit) s = .next s) ∧
  (∀ (s : State) (unit : BitVec 32) (res : TestResult),
    (∀ q, (s.testsFor unit.toNat).find? (fun (x : TestReq) => x.running && x.unit == unit.toNat) = some q →
      exec (.targetedTestEnd unit res) s = .next ((((s.setTestsFor unit.toNat ((s.testsFor unit.toNat).erase q)).testPattern q).classify q
        res).unquiesce unit.toNat)) ∧
    ((s.testsFor unit.toNat).find? (fun (x : TestReq) => x.running && x.unit == unit.toNat) = none →
      exec (.targetedTestEnd unit res) s = .next s)) ∧
  (∀ (s : State) (q : TestReq) (res : TestResult), s.regsWf = true → res.fail = false → (s.unitOf q.unit).conf < 3 →
    ((∀ x, (s.unitOf q.unit).last = some x → s.condWindow < s.now - x) → (s.unitOf q.unit).cond = false → ∃ u : State, u = s.classify q res ∧
      u.unitState q.unit = s.inService q.unit ∧ (u.unitOf q.unit).last = some s.now ∧ (u.unitOf q.unit).untested = false ∧
      raised Reg.GLB_RAS_STATUS ⟨1, 1⟩ Reg.GLB_TRANSIENT_CNT s u) ∧
    (((∃ x, (s.unitOf q.unit).last = some x ∧ s.now - x ≤ s.condWindow) ∨ (s.unitOf q.unit).cond = true) → ∃ u : State, u = s.classify q res ∧
      u.unitState q.unit = 1 ∧ (u.unitOf q.unit).cond = true ∧ (u.unitOf q.unit).last = some s.now ∧ (u.unitOf q.unit).temp = res.dieTemp.toNat ∧
      (u.unitOf q.unit).freq = s.fld Reg.PWR_ACTIVE Fld.PWR_ACTIVE_FLEVEL ∧ raised Reg.GLB_RAS_STATUS ⟨3, 1⟩ Reg.GLB_CONDITIONAL_CNT s u)) ∧
  (∀ (s : State) (p : Fin 512) (q : TestReq) (res : TestResult), s.regsWf = true → q.unit = unitId 7 p →
    (res.fail = true ∨ 3 ≤ (s.unitOf q.unit).conf) → s.pcRetired p = false → ∃ u : State, u = s.classify q res ∧
      u.unitState (unitId 7 p) = 3 ∧ u.withheld p = true ∧ raised Reg.GLB_RAS_STATUS ⟨2, 1⟩ Reg.GLB_PERMANENT_CNT s u) ∧
  (∀ (s v : State) (c : Fin 64) (l : List (BitVec 32 × TestResult)) (sl : Slice), s.slice = some sl → c.val ∈ sl.left →
    (s.cl c).testStream = true → s.portsDone c 15 = true →
    v = (l.foldl (State.sliceTest (s.fld (Reg.GLB_SLICE_CTL sl.k) Fld.GLB_SLICE_CTL_ROTATE == 1)) s).sliceState c false →
    (sl.saved.find? (fun e => e.1 == c.val) = none → Completes (.sliceClusterEnd c l) s (fun u => u.seqState c = 0 ∧
      u.cl c = (v.cl c).vacated ∧ clustersKept c v u ∧
      u.slice = (if sl.left.filter (· ≠ c.val) = [] then none else some { sl with left := sl.left.filter (· ≠ c.val) }) ∧
      Near (· = Reg.SEQ_STATUS c) { v with clu := u.clu, slice := u.slice } u)) ∧
    (∀ t : Fin 4, sl.saved.find? (fun e => e.1 == c.val) = some (c.val, t.val) → v.ctxState t c = 3 → v.preemptBarred t = false →
      Completes (.sliceClusterEnd c l) s (fun u => u.seqState c = 0 ∧ u.ctxState t c = 5 ∧ u.cl c = (v.cl c).vacated ∧ clustersKept c v u ∧
        Near (fun off => off = Reg.SEQ_STATUS c ∨ off = Reg.MOV_CTX_STATUS t c) { v with clu := u.clu, slice := u.slice } u))) ∧
  (∀ (s : State) (c : Fin 64) (l : List (BitVec 32 × TestResult)),
    s.slice = none ∨ (s.cl c).testStream = false ∨ s.portsDone c 15 = false ∨ (∃ sl, s.slice = some sl ∧ c.val ∉ sl.left) →
    exec (.sliceClusterEnd c l) s = .next s)

/-! ### Checkpoint banks and the twin (spec/12_training_state_and_restart.md) -/

/-- Seals and the sending end of a push. A seal ends with bytes 0x008 on of the header written as R387 lays them out, every FP computed where
FPEN is 1, SEAL last, and the bank SEALED; a detected error ends in SEAL_ERR; a push that waited for another seal is SKIPPED_STALE. A push
whose seal is there sends BEGIN; ACCEPT starts the chunks, in order, at most 64 of them unacknowledged; an ACK takes its chunk off and the
window moves; COMPLETE ends it DONE, or ABORTED where the fingerprint is wrong; REFUSE NOREGION, ABORT NOREGION, the timeout and CANCEL end it
ABORTED with their reasons, DRAINING sends BEGIN again each 1 ms; an UNREACH stalls it and sends the chunk again, as the timer does with an
unacknowledged one; with SIGEN its end signals the token (R386 to R388, R392, R393, R395, R396). -/
def Obligations.SealsAndPushes : Prop :=
  (∀ (s u : State) (b : Fin 2) (j : SealJob) (bank head : List Byte) (crc : Nat), s.seals.find? (fun (x : SealJob) => x.bank == b.val) = some j →
    j.slots.length = 16 → s.bankBase b + 4096 ≤ s.memTop → s.bankBase b % 64 = 0 → 4096 ≤ s.bankLen →
    (s.onBehalf 1).readMem (s.bankBase b) (if j.fpen = true then s.bankLen else 4096) = (.ok bank, u) → leNat ((bank.drop 0x400).take 2) ≤ 94 →
    head = leBytes 4 0x4B4E4142 ++ leBytes 2 1 ++ leBytes 1 b ++ leBytes 1 0 ++ leBytes 2 s.chip ++ leBytes 6 0
      ++ leBytes 8 (s.image 1).jobId.toNat ++ leBytes 8 j.pos.toNat ++ leBytes 8 s.bankLen
      ++ leBytes 8 (if j.fpen = true then (crc64 (bank.drop 4096)).toNat else 0) →
    crc = (crc64 (head ++ leBytes 8 0 ++ j.slots.flatMap SlotSnap.bytes ++ leBytes 192 0 ++ sealedTable j.fpen bank)).toNat →
    ∃ w : State, exec (.sealComplete b) s = .next ((((w.setBank b 2).cnt Reg.MEM_SEAL_CNT).staleCheck j).signalSeal) ∧
      storedAt (s.bankBase b) (leBytes 8 (j.step + (if j.fpen = true then 2 ^ 62 else 0) + 2 ^ 63) ++ head ++ leBytes 8 crc
        ++ j.slots.flatMap SlotSnap.bytes ++ leBytes 192 0 ++ sealedTable j.fpen bank) s w ∧
      w.seals = s.seals.filter (fun (x : SealJob) => x.bank != b.val) ∧ w.push = s.push ∧ w.clu = s.clu ∧ w.rt = s.rt ∧
      w.rd Reg.MEM_SEAL_CNT = s.rd Reg.MEM_SEAL_CNT) ∧
  (∀ (s u : State) (b : Fin 2) (j : SealJob) (h : Bool) (a : Nat), s.seals.find? (fun (x : SealJob) => x.bank == b.val) = some j →
    (s.onBehalf 1).readMem (s.bankBase b) (if j.fpen = true then s.bankLen else 4096) = (.detected h a, u) →
    exec (.sealComplete b) s = .next ((u.sealError b).chargeMem h a 1)) ∧
  (∀ (s : State) (b : Fin 2), s.seals.find? (fun (x : SealJob) => x.bank == b.val) = none → exec (.sealComplete b) s = .next s) ∧
  (∀ (s : State) (b : Fin 2), s.regsWf = true → s.fld Reg.MEM_BANK_CTL Fld.MEM_BANK_CTL_SIGEN = 0 → ∃ t : State, t = s.sealError b ∧
    t.bankState b = 3 ∧ t.seals = s.seals.filter (fun (x : SealJob) => x.bank != b.val) ∧ t.mem = s.mem ∧
    raised Reg.MEM_TS_STATUS ⟨0, 1⟩ Reg.MEM_SEAL_ERR_CNT s t) ∧
  (∀ (s : State) (j : SealJob) (p : Push), s.regsWf = true → s.push = some p →
    (p.bank = j.bank → s.pushState = 1 → (p.step ≠ j.step ∨ j.fpen = false) → s.fld Reg.MEM_TWIN_CTL Fld.MEM_TWIN_CTL_SIGEN = 0 →
      ∃ t : State, t = s.staleCheck j ∧ t.push = none ∧ t.pushState = 0 ∧ t.fld Reg.MEM_TWIN_STATUS Fld.MEM_TWIN_STATUS_RESULT = 2 ∧
        raised Reg.MEM_TS_STATUS ⟨2, 1⟩ Reg.MEM_PUSH_SKIP_CNT s t) ∧
    ((p.bank ≠ j.bank ∨ s.pushState ≠ 1 ∨ p.step = j.step ∧ j.fpen = true) → s.staleCheck j = s)) ∧
  (∀ (s : State) (p : Push), s.push = some p → p.bank < 2 → s.pushState = 1 → s.bankState p.bank = 2 → s.bankStep p.bank = p.step →
    s.bankFpen p.bank = true → Completes .pushStart s (fun t => t.pushState = 2 ∧ t.fld (Reg.MEM_BANK_STATE p.bank) Fld.MEM_BANK_STATE_PUSH = 1 ∧
      handed (mirrorCtl s s.twin p.step 1 0 s.bankLen) s t ∧
      Near (fun off => off = Reg.MEM_TWIN_STATUS ∨ off = Reg.MEM_BANK_STATE p.bank) { s with rt := t.rt } t)) ∧
  (∀ (s : State) (p : Push), s.push = some p →
    (s.pushState ≠ 1 ∨ s.bankState p.bank ≠ 2 ∨ s.bankStep p.bank ≠ p.step ∨ s.bankFpen p.bank = false) → exec .pushStart s = .next s) ∧
  (∀ (s : State) (p : Packet), (s.pushReply p = true → s.pushState = 2 →
      exec (.acceptRx p) s = .next (State.pushWindow 64 ((s.take p).setPush 3))) ∧
    ((s.pushReply p = false ∨ s.pushState ≠ 2) → exec (.acceptRx p) s = .next (s.take p))) ∧
  (∀ (s : State) (q : Push) (n m : Nat), s.push = some q → s.pushState = 3 → n = s.pushChunks → m = min (64 - q.unacked.length) (n - q.next) →
    (∀ i, i < n → s.place (s.bankBase q.bank + seqChunk n i * 65536) = .hbm ∧ s.badBursts (s.bankBase q.bank + seqChunk n i * 65536) 65536 = []) →
    ∃ t : State, t = State.pushWindow 64 s ∧
      t.push = some { q with next := q.next + m, unacked := q.unacked ++ (List.range m).map (· + q.next) } ∧
      t.rt.rin = s.rt.rin ++ ((List.range m).flatMap (fun i =>
        packetsOf { dst := s.twin, src := s.chip, tc := 3, type := 2, tag := q.step % 2 ^ 16, chunk := q.next + i } 16 0
          (s.bytes (s.bankBase q.bank + seqChunk n (q.next + i) * 65536) 65536))).map (fun x => ({ p := x } : RPkt)) ∧
      Near (fun _ => False) { s with rt := t.rt, push := t.push } t) ∧
  (∀ (s : State) (p : Packet), (∀ q, s.push = some q → q.unacked.length ≤ 64) → Completes (.acceptRx p) s (fun t =>
      ∀ q, t.push = some q → q.unacked.length ≤ 64)) ∧
  (∀ (s : State) (p : Packet) (q : Push) (i : Nat), s.push = some q → i = leNat ((p.body.drop 8).take 8) →
    (s.pushReply p = true → 3 ≤ s.pushState → i ∈ q.unacked → exec (.pushAckRx p) s = .next (State.pushWindow 64
      ((({ s.take p with push := some { q with unacked := q.unacked.filter (· ≠ i) } }.setFld Reg.MEM_TWIN_DONE Fld.MEM_TWIN_DONE_CHUNKS
        (s.fld Reg.MEM_TWIN_DONE Fld.MEM_TWIN_DONE_CHUNKS + 1))).setPush 3))) ∧
    ((s.pushReply p = false ∨ s.pushState < 3 ∨ i ∉ q.unacked) → exec (.pushAckRx p) s = .next (s.take p))) ∧
  (∀ (s : State) (p : Packet), (s.pushReply p = true → 3 ≤ s.pushState →
      exec (.completeRx p) s = .next ((s.take p).endPush (if leNat ((p.body.drop 1).take 1) = 3 then 9 else 1))) ∧
    ((s.pushReply p = false ∨ s.pushState < 3) → exec (.completeRx p) s = .next (s.take p)) ∧
    (leNat ((p.body.drop 1).take 1) = 2 → s.pushReply p = true → exec (.abortRx p) s = .next ((s.take p).endPush 8)) ∧
    (leNat ((p.body.drop 1).take 1) = 2 → s.pushReply p = false → exec (.abortRx p) s = .next (s.take p))) ∧
  (∀ (s : State) (q : Push) (res : Nat), s.regsWf = true → s.push = some q → q.bank < 2 → res < 16 →
    (s.fld Reg.MEM_TWIN_CTL Fld.MEM_TWIN_CTL_SIGEN = 0 → ∃ t : State, t = s.endPush res ∧ t.push = none ∧ t.pushState = 0 ∧
      t.fld Reg.MEM_TWIN_STATUS Fld.MEM_TWIN_STATUS_RESULT = res ∧ t.fld (Reg.MEM_BANK_STATE q.bank) Fld.MEM_BANK_STATE_PUSH = 0 ∧
      (res = 1 → counted Reg.MEM_PUSH_CNT 1 s t ∧
        Near (fun off => off = Reg.MEM_TWIN_STATUS ∨ off = Reg.MEM_BANK_STATE q.bank ∨ off = Reg.MEM_PUSH_CNT) { s with push := none } t) ∧
      (res ≠ 1 → raised Reg.MEM_TS_STATUS ⟨1, 1⟩ Reg.MEM_PUSH_FAIL_CNT s t ∧ Near (fun off => off = Reg.MEM_TWIN_STATUS ∨
        off = Reg.MEM_BANK_STATE q.bank ∨ off = Reg.MEM_TS_STATUS ∨ off = Reg.MEM_PUSH_FAIL_CNT) { s with push := none } t)) ∧
    (∀ c k, s.fld Reg.MEM_TWIN_CTL Fld.MEM_TWIN_CTL_SIGEN = 1 → c = s.fld Reg.MEM_TWIN_CTL Fld.MEM_TWIN_CTL_SIGCLU →
      k = s.fld Reg.MEM_TWIN_CTL Fld.MEM_TWIN_CTL_SIGTOK → k ≠ 0 → signalPlain s c k → ∃ t : State, t = s.endPush res ∧ t.push = none ∧
        t.tok c k = s.tok c k + 1 ∧ t.fld Reg.MEM_TWIN_STATUS Fld.MEM_TWIN_STATUS_RESULT = res)) ∧
  (∀ (s : State) (reason res : Nat), (s.pushState = 1 ∨ s.push = none → s.abortPush reason res = s.endPush res) ∧
    (∀ q, s.push = some q → s.pushState ≠ 1 → ∃ u : State, u = { s with rt := u.rt } ∧ handed (mirrorCtl s s.twin q.step 6 reason 0) s u ∧
      s.abortPush reason res = u.endPush res)) ∧
  (∀ (s : State) (p : Packet) (q : Push), s.push = some q →
    (s.pushReply p = true → s.pushState = 2 →
      (leNat ((p.body.drop 1).take 1) = 2 → exec (.refuseRx p) s = .next ((s.take p).endPush 8)) ∧
      (leNat ((p.body.drop 1).take 1) = 1 → exec (.refuseRx p) s = .next { s.take p with push := some { q with draining := true } })) ∧
    ((s.pushReply p = false ∨ s.pushState ≠ 2) → exec (.refuseRx p) s = .next (s.take p)) ∧
    (s.pushState = 2 → q.draining = true → Completes .pushBeginRetryTimer s (fun t =>
      handed (mirrorCtl s s.twin q.step 1 0 s.bankLen) s t ∧ t = { s with rt := t.rt })) ∧
    ((s.pushState ≠ 2 ∨ q.draining = false) → exec .pushBeginRetryTimer s = .next s)) ∧
  (∀ (s : State) (q : Push) (i : Nat), s.push = some q →
    (3 ≤ s.pushState → i ∈ q.unacked → exec (.pushChunkResendTimer i) s = .next (s.sendPushChunk i)) ∧
    ((s.pushState < 3 ∨ i ∉ q.unacked) → exec (.pushChunkResendTimer i) s = .next s)) ∧
  (∀ (s : State) (q : Push) (i a : Nat), s.push = some q → a = s.bankBase q.bank + seqChunk s.pushChunks i * 65536 → s.place a = .hbm →
    (s.badBursts a 65536 = [] → ∃ t : State, t = s.sendPushChunk i ∧
      t.rt.rin = s.rt.rin ++ (packetsOf { dst := s.twin, src := s.chip, tc := 3, type := 2, tag := q.step % 2 ^ 16, chunk := i } 16 0
        (s.bytes a 65536)).map (fun x => ({ p := x } : RPkt)) ∧ Near (fun _ => False) { s with rt := t.rt } t) ∧
    (s.badBursts a 65536 ≠ [] → ∃ (u : State) (h : Bool) (x : Nat), (s.onBehalf 1).readMem a 65536 = (.detected h x, u) ∧
      s.sendPushChunk i = (u.abortPush 5 10).chargeMem h x 1)) ∧
  (∀ (s : State) (p : Packet) (q : Push) (chunk : Nat), s.push = some q → leNat ((p.body.drop 3).take 1) = 2 →
    chunk = leNat ((p.body.drop 8).take 4) → p.tag = q.step % 2 ^ 16 → leNat ((p.body.drop 4).take 2) ≠ 0xFF00 →
    (s.pushState = 3 → chunk ∈ q.unacked → exec (.unreachRx p) s = .next (((s.take p).setPush 4).sendPushChunk chunk)) ∧
    ((s.pushState ≠ 3 ∨ chunk ∉ q.unacked) → exec (.unreachRx p) s = .next (s.take p))) ∧
  (∀ s : State, ((s.pushState = 2 ∨ s.pushState = 3) → s.fenced s.twin = false → exec .pushTimeout s = .next (s.abortPush 6 11)) ∧
    ((s.pushState ≠ 2 ∧ s.pushState ≠ 3 ∨ s.fenced s.twin = true) → exec .pushTimeout s = .next s) ∧
    exec (.twinCancel 0) s = .next (s.abortPush 7 12) ∧ (s.push = none → exec (.twinCancel 0) s = .next s)) ∧
  (∀ (s : State) (b : Fin 4), b ≠ 0 → exec (.twinCancel b) s = .next s)

/-- The mirror. A BEGIN without room or region, or while the mirror drains, is refused; any other makes the mirror invalid and FILLING, with
its SEAL word 0, and sends ACCEPT. A packet of a chunk lands at its place once, the bank's header being held, and is counted with its CRC
as it was received; a chunk without its region ends the fill and sends ABORT; a complete chunk is acknowledged; with the last one, where the
body's fingerprint is the header's, the header is written and the mirror is VALID; an ABORT of the sender leaves it EMPTY. A landing in HBM waits
while a commit pass runs (R221, R232, R394, R396). -/
def Obligations.MirrorFills : Prop :=
  (∀ (s : State) (p : Packet), s.landsLater s.mirrorBase = true → exec (.beginRx p) s = .next s ∧ exec (.mirrorChunkRx p) s = .next s) ∧
  (∀ (s : State) (p : Packet) (len : Nat), s.landsLater s.mirrorBase = false → len = leNat ((p.body.drop 8).take 8) →
    (s.mirrorLen < len ∨ s.regionOk 1 s.mirrorBase s.mirrorLen .fl = false →
      Completes (.beginRx p) s (fun t => handed (mirrorCtl s p.src p.tag 3 2 0) (s.take p) t ∧ t = { s.take p with rt := t.rt })) ∧
    (len ≤ s.mirrorLen → s.regionOk 1 s.mirrorBase s.mirrorLen .fl = true → s.mirrorState = 3 →
      Completes (.beginRx p) s (fun t => handed (mirrorCtl s p.src p.tag 3 1 0) (s.take p) t ∧ t = { s.take p with rt := t.rt })) ∧
    (∀ w, len ≤ s.mirrorLen → s.regionOk 1 s.mirrorBase s.mirrorLen .fl = true → s.mirrorState ≠ 3 → p.src < 2 ^ 15 →
      w = ((s.take p).onBehalf 1).write s.mirrorBase (leBytes 8 0) → Completes (.beginRx p) s (fun t =>
        handed (mirrorCtl s p.src p.tag 2 0 0) (w.2.chargeWrite w.1 1) t ∧ t.fill = some { sender := p.src, tag := p.tag, len := len } ∧
        t.mirrorState = 1 ∧ t.fld Reg.MEM_MIRROR_STATE Fld.MEM_MIRROR_STATE_OWNER = p.src ∧ t.mem = (w.2.chargeWrite w.1 1).mem ∧
        (w.1 = none → Near (· = Reg.MEM_MIRROR_STATE) { w.2 with rt := t.rt, fill := t.fill } t)) ∧
      (plainHbm s s.mirrorBase 64 → s.burstFails (s.mirrorBase / 64) = false →
        w.1 = none ∧ w.2.rt = (s.take p).rt ∧ storedAt s.mirrorBase (leBytes 8 0) s w.2))) ∧
  (∀ (s : State) (p : Packet) (f : Fill) (at' pos : Nat) (held rest : List Byte) (w : WrErr × State), s.landsLater s.mirrorBase = false →
    s.fill = some f → p.src = f.sender → p.tag = f.tag → p.chunk < f.len / 65536 → p.chunk ∉ f.landed → (p.chunk, p.offset) ∉ f.got →
    at' = seqChunk (f.len / 65536) p.chunk * 65536 → pos = at' + p.offset → held = (if pos < 4096 then p.body.take (4096 - pos) else []) →
    rest = p.body.drop held.length → w = ((s.take p).onBehalf 1).write (s.mirrorBase + pos + held.length) rest →
    (s.regsWf = true → s.regionOk 1 (s.mirrorBase + at') 65536 .fl = false → Completes (.mirrorChunkRx p) s (fun t =>
      raised Reg.MEM_RGN_STATUS Fld.MEM_RGN_STATUS_LAND_ERR Reg.MEM_LAND_ERR_CNT s t ∧ t.fill = none ∧
      t.mirrorState = 0 ∧ handed (mirrorCtl s f.sender f.tag 6 2 0) (s.take p) t ∧ t.mem = s.mem)) ∧
    (s.regionOk 1 (s.mirrorBase + at') 65536 .fl = true →
      (∀ e, w.1 = some e → exec (.mirrorChunkRx p) s = .next (w.2.chargeMem e.1 e.2 1)) ∧
      (w.1 = none → exec (.mirrorChunkRx p) s = .next (w.2.mirrorLanded { f with
        header := if held.isEmpty then f.header else patch f.header pos held
        got := f.got ++ [(p.chunk, p.offset)]
        crcs := if rest.isEmpty then f.crcs else f.crcs.set (0, 0) (pos + held.length) (rest.length, crc64 rest) } p.chunk)) ∧
      (plainHbm s (s.mirrorBase + pos + held.length) rest.length → w.1 = none ∧ w.2.rt = (s.take p).rt ∧ w.2.fill = s.fill ∧
        storedAt (s.mirrorBase + pos + held.length) rest s w.2))) ∧
  (∀ (s : State) (f : Fill) (chunk : Nat),
    ((f.got.filter (fun g => g.1 == chunk)).length < 16 → s.mirrorLanded f chunk = { s with fill := some f }) ∧
    (16 ≤ (f.got.filter (fun g => g.1 == chunk)).length → ∃ u : State, u = { s with rt := u.rt, fill := u.fill } ∧
      u.fill = some { f with landed := f.landed ++ [chunk] } ∧ handed (mirrorCtl s f.sender f.tag 4 0 chunk) s u ∧
      s.mirrorLanded f chunk = (if f.landed.length + 1 = f.len / 65536 then u.mirrorFinish { f with landed := f.landed ++ [chunk] } else u))) ∧
  (∀ (s : State) (f : Fill), s.regsWf = true → f.bodyCrc.toNat = leNat ((f.header.drop 0x30).take 8) → f.header.length = 4096 →
    plainHbm s s.mirrorBase 4096 → s.badBursts s.mirrorBase 4096 = [] → ∃ t : State, t = s.mirrorFinish f ∧ storedAt s.mirrorBase f.header s t ∧
      t.fill = none ∧ t.mirrorState = 2 ∧ counted Reg.MEM_MIRROR_RX_CNT 1 s t ∧ handed (mirrorCtl s f.sender f.tag 5 0 0) s t ∧
      t.fld Reg.MEM_MIRROR_STATE Fld.MEM_MIRROR_STATE_STEP = leNat (f.header.take 5) ∧ t.clu = s.clu ∧ t.out = s.out) ∧
  (∀ (s : State) (f : Fill), f.bodyCrc.toNat ≠ leNat ((f.header.drop 0x30).take 8) → ∃ t : State, t = s.mirrorFinish f ∧ t.mirrorState = 0 ∧
    handed (mirrorCtl s f.sender f.tag 5 3 0) s t ∧ Near (· = Reg.MEM_MIRROR_STATE) { s with fill := none, rt := t.rt } t) ∧
  (∀ (f : Fill) (ps : List (Nat × List Byte)), f.crcs = ps.map (fun e => (e.1, (e.2.length, crc64 e.2))) → f.bodyCrc = crc64 (ps.flatMap (·.2))) ∧
  (∀ (s : State) (p : Packet) (f : Fill), s.landsLater s.mirrorBase = false → s.fill = some f →
    (p.src ≠ f.sender ∨ p.tag ≠ f.tag ∨ f.len / 65536 ≤ p.chunk ∨ p.chunk ∈ f.landed ∨ (p.chunk, p.offset) ∈ f.got) →
    exec (.mirrorChunkRx p) s = .next (s.take p)) ∧
  (∀ (s : State) (p : Packet) (f : Fill), s.fill = some f → leNat ((p.body.drop 1).take 1) ≠ 2 →
    (p.src = f.sender → p.tag = f.tag → Completes (.abortRx p) s (fun t => t.fill = none ∧ t.mirrorState = 0 ∧
      Near (· = Reg.MEM_MIRROR_STATE) { s.take p with fill := none } t)) ∧
    ((p.src ≠ f.sender ∨ p.tag ≠ f.tag) → exec (.abortRx p) s = .next (s.take p))) ∧
  (∀ (s : State) (p : Packet), s.landsLater s.mirrorBase = false → s.fill = none → exec (.mirrorChunkRx p) s = .next (s.take p))

/-! ### Storage drains, the fault barrier, the restore agent (spec/12_training_state_and_restart.md) -/

/-- Storage drains and loads. GO on a descriptor that does not run starts it, from a valid mirror, which then shows DRAINING, or from a
SEALED bank; a drain with neither ends SRC_INVALID; a load posts its READs; a running descriptor takes no write. A drain writes its source in 64
KiB chunks to the remote address, and the trailer with the digest after them; a load lands the object and ends OK only where MAGIC, FMT, LEN
and DIGEST are right; a failed queue pair ends it QP_ERROR, a detected error DETECTED; at the end of the last drain of it the mirror is VALID
again (R397, R398, R417, R519). -/
def Obligations.StorageDrains : Prop :=
  (∀ (s : State) (k : Fin 8) (v : BitVec 64), s.drainState k ≠ 1 → v.getLsbD 2 = false → Completes (.drainGo 0 k v) s (fun t =>
      (∀ f ∈ [Fld.MEM_DRAIN_CTL_DIR, Fld.MEM_DRAIN_CTL_PORT, Fld.MEM_DRAIN_CTL_QP, Fld.MEM_DRAIN_CTL_RKEY],
        t.fld (Reg.MEM_DRAIN_CTL k) f = getField v f) ∧ Near (· = Reg.MEM_DRAIN_CTL k) s t)) ∧
  (∀ (s : State) (k : Fin 8) (v : BitVec 64), s.drainState k ≠ 1 → v.getLsbD 2 = true → v.getLsbD 0 = true → ∃ t : State,
    exec (.drainGo 0 k v) s = .next (t.postLoad k) ∧ t.drainState k = 1 ∧ t.fld (Reg.MEM_DRAIN_DONE k) Fld.MEM_DRAIN_DONE_BYTES = 0 ∧
      (∀ f ∈ [Fld.MEM_DRAIN_CTL_DIR, Fld.MEM_DRAIN_CTL_PORT, Fld.MEM_DRAIN_CTL_QP, Fld.MEM_DRAIN_CTL_RKEY],
        t.fld (Reg.MEM_DRAIN_CTL k) f = getField v f) ∧
      Near (fun off => off = Reg.MEM_DRAIN_CTL k ∨ off = Reg.MEM_DRAIN_STATUS k ∨ off = Reg.MEM_DRAIN_DONE k) s t) ∧
  (∀ (s : State) (k : Fin 8) (n : Nat), n = s.drainLen k →
    (∀ q, qpn 0 ≤ s.drainQp k → s.drainQp k < qpn 4096 → s.liveQp (s.drainQp k - qpn 0) = some q → ∃ t : State, t = s.postLoad k ∧
      t.out = s.out ++ (List.range ((n + 2 ^ 30 - 1) / 2 ^ 30)).map (fun i =>
          Msg.svcRead (s.drainQp k) (s.drainKey k) (s.drainRemote k + i * 2 ^ 30) (min (2 ^ 30) (n - i * 2 ^ 30)))
        ++ [.svcRead (s.drainQp k) (s.drainKey k) (s.drainRemote k + n) 128] ∧ t = { s with out := t.out, qps := t.qps }) ∧
    (s.drainQp k < qpn 0 ∨ qpn 4096 ≤ s.drainQp k ∨ s.liveQp (s.drainQp k - qpn 0) = none → s.postLoad k = s)) ∧
  (∀ (s : State) (k : Fin 8) (v : BitVec 64), s.regsWf = true → s.drainState k ≠ 1 → v.getLsbD 2 = true → v.getLsbD 0 = false →
    (s.drainSource k = none → Completes (.drainGo 0 k v) s (fun t => t.drainState k = 2 ∧
      t.fld (Reg.MEM_DRAIN_STATUS k) Fld.MEM_DRAIN_STATUS_RESULT = 3 ∧ raised Reg.MEM_TS_STATUS ⟨6, 1⟩ Reg.MEM_DRAIN_FAIL_CNT s t ∧
      Near (fun off => off = Reg.MEM_DRAIN_CTL k ∨ off = Reg.MEM_DRAIN_STATUS k ∨ off = Reg.MEM_DRAIN_DONE k ∨ off = Reg.MEM_MIRROR_STATE ∨
        off = Reg.MEM_TS_STATUS ∨ off = Reg.MEM_DRAIN_FAIL_CNT) s t)) ∧
    (s.drainSource k = some 2 → Completes (.drainGo 0 k v) s (fun t => t.drainState k = 1 ∧ t.mirrorState = 3 ∧
      t.fld (Reg.MEM_DRAIN_STATUS k) Fld.MEM_DRAIN_STATUS_STEP = s.fld Reg.MEM_MIRROR_STATE Fld.MEM_MIRROR_STATE_STEP ∧
      t.fld (Reg.MEM_DRAIN_STATUS k) Fld.MEM_DRAIN_STATUS_RESULT = 0 ∧ Near (fun off => off = Reg.MEM_DRAIN_CTL k ∨
        off = Reg.MEM_DRAIN_STATUS k ∨ off = Reg.MEM_DRAIN_DONE k ∨ off = Reg.MEM_MIRROR_STATE) s t)) ∧
    (∀ b, b < 2 → s.drainSource k = some b → Completes (.drainGo 0 k v) s (fun t => t.drainState k = 1 ∧ t.mirrorState = s.mirrorState ∧
      t.fld (Reg.MEM_DRAIN_STATUS k) Fld.MEM_DRAIN_STATUS_STEP = s.bankStep b ∧
      Near (fun off => off = Reg.MEM_DRAIN_CTL k ∨ off = Reg.MEM_DRAIN_STATUS k ∨ off = Reg.MEM_DRAIN_DONE k) s t))) ∧
  (∀ (s : State) (k : Fin 8) (v : BitVec 64), s.drainState k = 1 → exec (.drainGo 0 k v) s = .next s) ∧
  (∀ (s : State) (b : Fin 4) (k : Fin 8) (v : BitVec 64), b ≠ 0 → exec (.drainGo b k v) s = .next s) ∧
  (∀ (s u : State) (k : Fin 8) (qpError : Bool) (err : MemErr) (obj : List Byte), u = s.strike err →
    (s.drainState k ≠ 1 → exec (.storageDrainEnd k qpError err obj) s = .next s) ∧
    (s.drainState k = 1 → (qpError = true ∨ u.drainQpOk k = false) → exec (.storageDrainEnd k qpError err obj) s = .next (u.drainEnd k 5)) ∧
    (s.drainState k = 1 → qpError = false → u.drainQpOk k = true →
      (s.fld (Reg.MEM_DRAIN_CTL k) Fld.MEM_DRAIN_CTL_DIR = 1 → exec (.storageDrainEnd k qpError err obj) s = .next (u.runLoad k obj)) ∧
      (s.fld (Reg.MEM_DRAIN_CTL k) Fld.MEM_DRAIN_CTL_DIR = 0 → u.drainSource k = none →
        exec (.storageDrainEnd k qpError err obj) s = .next (u.drainEnd k 3)) ∧
      (s.fld (Reg.MEM_DRAIN_CTL k) Fld.MEM_DRAIN_CTL_DIR = 0 → u.drainSource k ≠ none →
        exec (.storageDrainEnd k qpError err obj) s = .next (u.runDrain k)))) ∧
  (∀ (s : State) (k : Fin 8) (r : Nat), s.regsWf = true → r < 8 → ∃ t : State, t = s.drainEnd k r ∧ t.drainState k = 2 ∧
    t.fld (Reg.MEM_DRAIN_STATUS k) Fld.MEM_DRAIN_STATUS_RESULT = r ∧
    (s.mirrorState = 3 → (∀ j, j < 8 → j ≠ k.val → s.drainState j = 1 → s.fld (Reg.MEM_DRAIN_CTL j) Fld.MEM_DRAIN_CTL_DIR = 0 →
      s.drainSource j ≠ some 2) → t.mirrorState = 2) ∧
    (∀ j, j < 8 → j ≠ k.val → s.drainState j = 1 → s.fld (Reg.MEM_DRAIN_CTL j) Fld.MEM_DRAIN_CTL_DIR = 0 → s.drainSource j = some 2 →
      t.mirrorState = s.mirrorState) ∧
    (r = 0 → counted Reg.MEM_DRAIN_CNT 1 s t) ∧ (r ≠ 0 → raised Reg.MEM_TS_STATUS ⟨6, 1⟩ Reg.MEM_DRAIN_FAIL_CNT s t) ∧
    Near (fun off => off = Reg.MEM_DRAIN_STATUS k ∨ off = Reg.MEM_MIRROR_STATE ∨ off = Reg.MEM_TS_STATUS ∨ off = Reg.MEM_DRAIN_FAIL_CNT ∨
      off = Reg.MEM_DRAIN_CNT) s t) ∧
  (∀ (s u : State) (k : Fin 8) (n : Nat), n = s.drainLen k →
    (∀ bs q, (s.onBehalf 0).readMem (s.drainLocal k) n = (.ok bs, u) → bs.length = n → qpn 0 ≤ s.drainQp k → s.drainQp k < qpn 4096 →
      s.liveQp (s.drainQp k - qpn 0) = some q → ∃ t : State, s.runDrain k = t.drainEnd k 0 ∧
      t.out = u.out ++ ((List.range (chunks64k (n / 65536 + 1) bs).length).zip (chunks64k (n / 65536 + 1) bs)).map
        (fun c => Msg.svcWrite (s.drainQp k) (s.drainKey k) (s.drainRemote k + c.1 * 65536) c.2)
        ++ [.svcWrite (s.drainQp k) (s.drainKey k) (s.drainRemote k + n) (objectTrailer bs (objectDigest bs))] ∧
      t.fld (Reg.MEM_DRAIN_DONE k) Fld.MEM_DRAIN_DONE_BYTES = n % 2 ^ Fld.MEM_DRAIN_DONE_BYTES.width ∧
      t.rd (Reg.MEM_DRAIN_DIG_LO k) = BitVec.ofNat 64 (leNat ((objectDigest bs).take 8)) ∧
      t.rd (Reg.MEM_DRAIN_DIG_HI k) = BitVec.ofNat 64 (leNat (((objectDigest bs).drop 8).take 8)) ∧
      t.rd (Reg.MEM_DRAIN_DIG_X0 k) = BitVec.ofNat 64 (leNat (((objectDigest bs).drop 16).take 8)) ∧
      t.rd (Reg.MEM_DRAIN_DIG_X1 k) = BitVec.ofNat 64 (leNat (((objectDigest bs).drop 24).take 8)) ∧
      Near (fun off => off = Reg.MEM_DRAIN_DONE k ∨ off = Reg.MEM_DRAIN_DIG_LO k ∨ off = Reg.MEM_DRAIN_DIG_HI k ∨
        off = Reg.MEM_DRAIN_DIG_X0 k ∨ off = Reg.MEM_DRAIN_DIG_X1 k) { u with out := t.out, qps := t.qps } t) ∧
    (∀ h a, (s.onBehalf 0).readMem (s.drainLocal k) n = (.detected h a, u) → s.runDrain k = (u.chargeMem h a 0).drainEnd k 4)) ∧
  (∀ (s : State) (k : Fin 8) (obj bs tr : List Byte) (n : Nat) (w : WrErr × State), n = s.drainLen k → bs = obj.take n → tr = obj.drop n →
    w = (s.onBehalf 0).write (s.drainLocal k) bs → ∃ v : State, s.runLoad k obj = v.drainEnd k
      (if w.1 ≠ none then 4 else if leNat (tr.take 4) = 0x54534B43 ∧ leNat ((tr.drop 4).take 2) = 1 ∧ leNat ((tr.drop 0x18).take 8) = n ∧
          (tr.drop 0x20).take 32 = objectDigest bs then 0 else 6) ∧
      v.fld (Reg.MEM_DRAIN_DONE k) Fld.MEM_DRAIN_DONE_BYTES = bs.length % 2 ^ Fld.MEM_DRAIN_DONE_BYTES.width ∧
      v.fld (Reg.MEM_DRAIN_STATUS k) Fld.MEM_DRAIN_STATUS_STEP = leNat ((tr.drop 8).take 8) % 2 ^ Fld.MEM_DRAIN_STATUS_STEP.width ∧
      v.mem = w.2.mem ∧ v.out = w.2.out ∧ (plainHbm s (s.drainLocal k) bs.length → w.1 = none ∧ storedAt (s.drainLocal k) bs s w.2))

/-- The fault barrier and the restore agent. RAISE halts every T1 stream, empties T1's prefetch lists, drops its transfers and collectives with
MEM_ABANDON_CNT, and leaves memory and the other tenants alone; when issued work has completed the barrier is REACHED, flagged, counted, and
told to the keeper; CLEAR takes it down while no T1 stream is resident, and is ignored at any other time. GO runs the restore list unless one
is BUSY: its entries in order up to the first that fails; a POSITION entry writes the cadence position, and stops the list with
BEATS_ENABLED while beats run; a SLOT entry writes its slot where the record's indexes agree, writes the position's index and counts where they
differ by one, and stops with DRAW_MISMATCH otherwise, or with SLOT_BUSY where T1 does not own the slot or runs in it; a VERIFY entry stops
with FP_MISMATCH where the range has another CRC, and a FINGERPRINT entry stores it; END and the end of the list end it DONE (R399, R401 to
R405, R412, R416). -/
def Obligations.RestartAgents : Prop :=
  (∀ s : State, s.regsWf = true → (∀ e ∈ s.movers, e.1 < 32) → (∀ e ∈ s.colls, e.1 < 16) → Completes (.barrierRaise 0) s (fun t => t.barrier = 1 ∧
      t.fld Reg.MEM_BARRIER_STATUS Fld.MEM_BARRIER_STATUS_CAUSE = 1 ∧
      (∀ c, c < 64 → s.resident 1 c = true → t.seqState c = 2 ∧ (t.cl c).pref = [] ∧ (t.cl c).heldRecs = []) ∧
      (∀ c, c < 64 → s.resident 1 c = false → t.seqState c = s.seqState c ∧ t.cl c = s.cl c) ∧
      (∀ e ∈ t.movers, e ∈ s.movers ∧ e.2.tenant ≠ 1) ∧ t.movReqs = s.movReqs.filter (fun (r : MovReq) => r.mrec.tenant != 1) ∧
      t.txs = s.txs.filter (fun x => x.tenant != 1) ∧ t.rxs = s.rxs.filter (fun x => x.tenant != 1) ∧ t.colls = [] ∧ t.grants = [] ∧
      counted Reg.MEM_ABANDON_CNT ((s.txs.filter (fun x => x.tenant == 1)).length + (s.rxs.filter (fun x => x.tenant == 1)).length
        + s.colls.length) s t ∧ t.mem = s.mem ∧ t.seals = s.seals ∧ t.push = s.push)) ∧
  (∀ s : State, s.regsWf = true → s.barrier = 1 → (∀ c ∈ s.t1Clusters, s.issuedDone c = true) →
    Completes .barrierReached s (fun t => t.barrier = 2 ∧ raised Reg.MEM_TS_STATUS ⟨5, 1⟩ Reg.MEM_BARRIER_CNT s t ∧ .keeper 2 0 0 ∈ t.out ∧
      Noted (fun off => off = Reg.MEM_BARRIER_STATUS ∨ off = Reg.MEM_TS_STATUS ∨ off = Reg.MEM_BARRIER_CNT) s t)) ∧
  (∀ s : State, s.barrier ≠ 1 → exec .barrierReached s = .next s) ∧
  (∀ (s : State) (c : Nat), c ∈ s.t1Clusters → s.issuedDone c = false → exec .barrierReached s = .next s) ∧
  (∀ s : State, s.barrier ≠ 0 → s.t1Clusters = [] → Completes (.barrierClear 0) s (fun t => t.barrier = 0 ∧
      (∀ sl c, sl < 16 → c < 64 → s.slotOwner sl = 1 → t.stkTop sl c = 0 ∧ t.stkPart sl c = {}) ∧ (∀ sl c, s.slotOwner sl ≠ 1 → sl < 16 → c < 64 →
        t.stkTop sl c = s.stkTop sl c ∧ t.stkPart sl c = s.stkPart sl c) ∧ t.mem = s.mem ∧ t.clu = s.clu)) ∧
  (∀ (s : State) (c : Nat), c < 64 → s.resident 1 c = true → exec (.barrierClear 0) s = .next s) ∧
  (∀ (s : State) (b : Fin 4), b ≠ 0 → exec (.barrierRaise b) s = .next s ∧ exec (.barrierClear b) s = .next s) ∧
  (∀ (s : State) (v : BitVec 64), s.rstState ≠ 1 → v.getLsbD 16 = true → Completes (.restoreListGo 0 v) s (fun t => t.rstState = 1 ∧
      t.fld Reg.MEM_RST_STATUS Fld.MEM_RST_STATUS_REALIGNED = 0 ∧ t.fld Reg.MEM_RST_CTL Fld.MEM_RST_CTL_COUNT = getField v Fld.MEM_RST_CTL_COUNT ∧
      Near (fun off => off = Reg.MEM_RST_CTL ∨ off = Reg.MEM_RST_STATUS) s t)) ∧
  (∀ (s : State) (v : BitVec 64), s.rstState = 1 ∨ v.getLsbD 16 = false → Completes (.restoreListGo 0 v) s (fun t =>
      t.rd Reg.MEM_RST_STATUS = s.rd Reg.MEM_RST_STATUS ∧ Near (· = Reg.MEM_RST_CTL) s t)) ∧
  (∀ (s : State) (b : Fin 4) (v : BitVec 64), b ≠ 0 → exec (.restoreListGo b v) s = .next s) ∧
  (∀ (s : State) (err : MemErr), (s.rstState ≠ 1 → exec (.restoreListEnd err) s = .next s) ∧
    (s.rstState = 1 → exec (.restoreListEnd err) s = .next (State.runList (s.fld Reg.MEM_RST_CTL Fld.MEM_RST_CTL_COUNT) (s.strike err)
      (s.fld Reg.MEM_RST_LIST Fld.MEM_RST_LIST_DPA) 0))) ∧
  (∀ (s u : State) (n base ix : Nat) (e : List Byte), (s.onBehalf 0).readMem (base + 64 * ix) 64 = (.ok e, u) →
    (leNat (e.take 1) = 0 → State.runList (n + 1) s base ix = if leNat e = 0 then u.rstDone ix else u.rstReject ix 4) ∧
    (leNat (e.take 1) ≠ 0 → (u.rstEntry (base + 64 * ix) e).1 = 0 →
      State.runList (n + 1) s base ix = State.runList n (u.rstEntry (base + 64 * ix) e).2 base (ix + 1)) ∧
    (leNat (e.take 1) ≠ 0 → (u.rstEntry (base + 64 * ix) e).1 ≠ 0 →
      State.runList (n + 1) s base ix = (u.rstEntry (base + 64 * ix) e).2.rstReject ix (u.rstEntry (base + 64 * ix) e).1)) ∧
  (∀ (s u : State) (n base ix a : Nat) (h : Bool), (s.onBehalf 0).readMem (base + 64 * ix) 64 = (.detected h a, u) →
    State.runList (n + 1) s base ix = (u.chargeMem h a 0).rstReject ix 3) ∧
  (∀ (s : State) (base ix r : Nat), s.regsWf = true → ix < 2 ^ 16 → r < 16 →
    (∃ t : State, t = State.runList 0 s base ix ∧ t.rstState = 2 ∧ t.fld Reg.MEM_RST_STATUS Fld.MEM_RST_STATUS_RESULT = 0 ∧
      t.fld Reg.MEM_RST_STATUS Fld.MEM_RST_STATUS_INDEX = ix ∧ Near (· = Reg.MEM_RST_STATUS) s t) ∧
    (∃ t : State, t = s.rstReject ix r ∧ t.rstState = 3 ∧ t.fld Reg.MEM_RST_STATUS Fld.MEM_RST_STATUS_RESULT = r ∧
      t.fld Reg.MEM_RST_STATUS Fld.MEM_RST_STATUS_INDEX = ix ∧ raised Reg.MEM_TS_STATUS ⟨4, 1⟩ Reg.MEM_RST_REJ_CNT s t ∧
      Near (fun off => off = Reg.MEM_RST_STATUS ∨ off = Reg.MEM_TS_STATUS ∨ off = Reg.MEM_RST_REJ_CNT) s t)) ∧
  (∀ (s : State) (a : Nat) (e : List Byte), e.length = 64 →
    (rstReservedOk e (leNat (e.take 1)) = false → s.rstEntry a e = (4, s)) ∧
    (leNat (e.take 1) = 2 → rstReservedOk e 2 = true → s.rstEntry a e = (if s.fld Reg.CAD_CTL Fld.CAD_CTL_EN = 1 then (5, s)
      else (0, s.wr Reg.CAD_POS (BitVec.ofNat 64 (leNat ((e.drop 8).take 8)))))) ∧
    (leNat (e.take 1) = 1 → rstReservedOk e 1 = true → s.rstEntry a e = s.rstSlot e)) ∧
  (∀ (s : State) (e : List Byte) (sl ndi pos : Nat), s.regsWf = true → sl < 16 → sl = leNat ((e.drop 1).take 1) →
    ndi = leNat ((e.drop 0x18).take 8) → pos = leNat ((e.drop 0x20).take 8) → ndi < 2 ^ 40 → pos < 2 ^ 40 →
    (s.slotOwner sl ≠ 1 ∨ (∃ c, c < 64 ∧ s.seqState c = 1 ∧ s.seqTenant c = 1 ∧ s.seqSlot c = sl) → s.rstSlot e = (6, s)) ∧
    (s.slotOwner sl = 1 → (∀ c, c < 64 → s.seqState c = 1 → s.seqTenant c = 1 → s.seqSlot c ≠ sl) →
      (ndi = pos ∨ (ndi + 2 ^ 40 - pos) % 2 ^ 40 = 1 ∨ (ndi + 2 ^ 40 - pos) % 2 ^ 40 = 2 ^ 40 - 1 → ∃ t : State, s.rstSlot e = (0, t) ∧
        t.fld (Reg.STK_NDI sl) Fld.STK_NDI_NDI = pos ∧ t.rd (Reg.STK_KEY_LO sl) = BitVec.ofNat 64 (leNat ((e.drop 8).take 8)) ∧
        t.rd (Reg.STK_KEY_HI sl) = BitVec.ofNat 64 (leNat ((e.drop 0x10).take 8)) ∧
        t.rd (Reg.STK_DPOS sl) = BitVec.ofNat 64 (leNat ((e.drop 0x28).take 8)) ∧
        t.fld (Reg.MEM_SLOT_NDIPOS sl) Fld.MEM_SLOT_NDIPOS_NDIPOS = pos ∧
        (ndi = pos → Near (fun off => off = Reg.STK_KEY_LO sl ∨ off = Reg.STK_KEY_HI sl ∨ off = Reg.STK_NDI sl ∨ off = Reg.STK_DPOS sl ∨
          off = Reg.MEM_SLOT_NDIPOS sl) s t) ∧
        (ndi ≠ pos → raised Reg.MEM_TS_STATUS ⟨3, 1⟩ Reg.MEM_REALIGN_CNT s t ∧ .keeper 5 sl 0 ∈ t.out ∧ t.mem = s.mem ∧
          t.fld Reg.MEM_RST_STATUS Fld.MEM_RST_STATUS_REALIGNED = (s.fld Reg.MEM_RST_STATUS Fld.MEM_RST_STATUS_REALIGNED + 1) % 2 ^ 16)) ∧
      (1 < (ndi + 2 ^ 40 - pos) % 2 ^ 40 → (ndi + 2 ^ 40 - pos) % 2 ^ 40 < 2 ^ 40 - 1 → s.rstSlot e = (1, s)))) ∧
  (∀ (s u : State) (a dpa len : Nat) (e bs : List Byte), 3 ≤ leNat (e.take 1) → rstReservedOk e (leNat (e.take 1)) = true →
    dpa = leNat ((e.drop 8).take 8) → len = leNat ((e.drop 0x10).take 8) →
    (dpa % 64 ≠ 0 ∨ len % 64 ≠ 0 ∨ s.memTop < dpa + len → s.rstEntry a e = (4, s)) ∧
    (dpa % 64 = 0 → len % 64 = 0 → dpa + len ≤ s.memTop → (s.onBehalf 0).readMem dpa len = (.ok bs, u) →
      (leNat (e.take 1) = 3 → s.rstEntry a e = (if (crc64 bs).toNat = leNat ((e.drop 0x18).take 8) then 0 else 2, u)) ∧
      (leNat (e.take 1) = 4 → (u.write (a + 0x18) (leBytes 8 (crc64 bs).toNat)).1 = none →
        s.rstEntry a e = (0, (u.write (a + 0x18) (leBytes 8 (crc64 bs).toNat)).2))) ∧
    (dpa % 64 = 0 → len % 64 = 0 → dpa + len ≤ s.memTop → ∀ h x, (s.onBehalf 0).readMem dpa len = (.detected h x, u) →
      s.rstEntry a e = (3, u.chargeMem h x 0)))

/-! ### Power, droop and thermal control (spec/13_power_thermal.md) -/

/-- The estimator and the governor. A telemetry read shows each rail's power and voltage, keeps the sample, and begins the next one, a regulator
that answers nothing counting toward its sensor's failure; a period adds its activity to every rail, shows the domains and their total, makes
a selected profile active, sets the effective cap to the least of its terms, and moves the clock's target and the duties up by at most one step;
the energy of a period goes to its tenants, and a newly applied alert cap is told to the board manager; a refit of a rail with fewer than 20
samples keeps its gain and offset and is flagged, one whose samples have no spread keeps its gain, and any other moves both by a quarter
(R419 to R424, R427, R433, R437). -/
def Obligations.PowerEstimates : Prop :=
  (∀ (s : State) (rails : List (Option AvsRead)) (alerts : List Nat), s.regsWf = true → Completes (.avsTelemetryRead rails alerts) s (fun t =>
      (∀ r x, r < 5 → rails.getD r none = some x → x.mv < 65536 → t.fld (Reg.PWR_RAIL r) Fld.PWR_RAIL_MV = x.mv ∧
        t.fld (Reg.PWR_RAIL r) Fld.PWR_RAIL_MEAS = min 65535 (x.mv * x.ma / 100000) ∧
        t.fld (Reg.THM_TEMP (98 + r)) Fld.THM_TEMP_TEMP = x.temp.toNat ∧ t.fld (Reg.THM_TEMP (98 + r)) Fld.THM_TEMP_FAIL = 0 ∧
        t.pw.fails.get 0 (98 + r) = 0 ∧ (s.pw.samples.length = 5 → t.pw.samples.getD r [] = s.pw.samples.getD r [] ++
          [((s.pw.dsum.getD r ⟨0, 1⟩).div (fracN (max 1 s.pw.periods)), ⟨x.mv * x.ma, 1000000⟩)])) ∧
      (∀ r, r < 5 → rails.getD r none = none → t.rd (Reg.PWR_RAIL r) = s.rd (Reg.PWR_RAIL r) ∧
        t.pw.fails.get 0 (98 + r) = s.pw.fails.get 0 (98 + r) + 1 ∧ t.pw.samples.getD r [] = s.pw.samples.getD r []) ∧
      counted Reg.THM_SENSOR_FAIL_CNT ((List.range 5).filter (fun r => (rails.getD r none).isNone && s.pw.fails.get 0 (98 + r) == 2)).length s t ∧
      t.pw.dsum = List.replicate 5 ⟨0, 1⟩ ∧ t.pw.periods = 0 ∧ t.pw.railAlert = alerts ∧ t.pw.gain = s.pw.gain ∧ t.pw.offset = s.pw.offset ∧
      Near (fun off => off = Reg.THM_STATUS ∨ off = Reg.THM_SENSOR_FAIL_CNT ∨ ∃ r, r < 5 ∧ (off = Reg.PWR_RAIL r ∨ off = Reg.THM_TEMP (98 + r)))
        { s with pw := t.pw } t)) ∧
  (∀ (s : State) (more counts : List (List Nat)), counts = s.periodCounts more → s.fld Reg.PWR_ACTIVE Fld.PWR_ACTIVE_CDUTY ≤ 16 →
    Completes (.estimatorPeriod more) s (fun t => t.pw.periods = s.pw.periods + 1 ∧ t.pw.acts = [] ∧
      t.fld Reg.PWR_EST Fld.PWR_EST_COMPUTE = showFrac (s.domainP counts 0) 10 16 ∧ t.fld Reg.PWR_EST Fld.PWR_EST_MEMORY = showFrac (s.domainP counts 1) 10 16 ∧
      t.fld Reg.PWR_EST Fld.PWR_EST_LINK = showFrac (s.domainP counts 2) 10 16 ∧
      t.fld Reg.PWR_EST Fld.PWR_EST_TOTAL = showFrac (sumFrac ((List.range 4).map (s.domainP counts))) 10 16 ∧
      t.fld Reg.PWR_ACTIVE Fld.PWR_ACTIVE_CAP_EFF = t.capEff % 4096 ∧
      (∀ k, k < 16 → s.pw.nextProfile = some k → t.profile = k ∧ t.fld Reg.PWR_CTL Fld.PWR_CTL_PROFILE = k) ∧ t.pw.nextProfile = none ∧
      (s.pw.nextProfile = none → t.profile = s.profile) ∧
      t.fld Reg.PWR_FREQ Fld.PWR_FREQ_TARGET ≤ s.fld Reg.PWR_FREQ Fld.PWR_FREQ_TARGET + 1 ∧
      t.fld Reg.PWR_ACTIVE Fld.PWR_ACTIVE_CDUTY ≤ 16 ∧ t.fld Reg.PWR_FREQ Fld.PWR_FREQ_CURRENT = s.fld Reg.PWR_FREQ Fld.PWR_FREQ_CURRENT ∧
      t.fld Reg.PWR_ACTIVE Fld.PWR_ACTIVE_MDUTY ≤ s.fld Reg.PWR_ACTIVE Fld.PWR_ACTIVE_MDUTY + 1 ∧
      t.fld Reg.PWR_ACTIVE Fld.PWR_ACTIVE_LDUTY ≤ s.fld Reg.PWR_ACTIVE Fld.PWR_ACTIVE_LDUTY + 1 ∧
      (∀ i, i < 5 → t.pw.energy.getD i ⟨0, 1⟩ = (s.pw.energy.getD i ⟨0, 1⟩).add (s.energyOf counts i)) ∧ t.pw.alerted = s.alert ∧
      t.out = (if s.alert = true ∧ s.pw.alerted = false then s.out ++ [.ibi 3] else s.out) ∧ t.mem = s.mem ∧ t.clu = s.clu)) ∧
  (∀ s : State, ∃ u : State, u = (List.range 5).foldl State.refitRail s ∧
    exec .estimatorRefit s = .next { u with pw := { u.pw with samples := List.replicate 5 [] } } ∧ u.mem = s.mem ∧ u.clu = s.clu ∧ u.out = s.out) ∧
  (∀ (s : State) (r : Nat), s.regsWf = true → (s.pw.samples.getD r []).length < 20 → ∃ t : State, t = s.refitRail r ∧
    raised Reg.PWR_STATUS Fld.PWR_STATUS_TELEM Reg.PWR_TELEM_LOSS_CNT s t ∧
    Near (fun off => off = Reg.PWR_STATUS ∨ off = Reg.PWR_TELEM_LOSS_CNT) s t) ∧
  (∀ (s : State) (r : Nat) (xs : List (Frac × Frac)) (md mm sdd sdm : Frac), r < 5 → s.pw.gain.length = 5 → s.pw.offset.length = 5 →
    20 ≤ (s.pw.samples.getD r []).length → xs = (s.pw.samples.getD r []).drop ((s.pw.samples.getD r []).length - 20) →
    md = (sumFrac (xs.map (·.1))).div (fracN 20) → mm = (sumFrac (xs.map (·.2))).div (fracN 20) →
    sdd = sumFrac (xs.map (fun x => (x.1.sub md).mul (x.1.sub md))) → sdm = sumFrac (xs.map (fun x => (x.1.sub md).mul (x.2.sub mm))) →
    ∃ t : State, t = s.refitRail r ∧ t.pw.samples = s.pw.samples ∧
      (((md.mul md).mul ⟨20, 2500⟩).le sdd = false → t.pw.g r = s.pw.g r) ∧
      (((md.mul md).mul ⟨20, 2500⟩).le sdd = true → sdd.isZero = false →
        t.pw.g r = clampFrac ((s.pw.g r).add (((sdm.div sdd).sub (s.pw.g r)).mul ⟨1, 4⟩)) ⟨1, 2⟩ ⟨2, 1⟩) ∧
      t.pw.o r = (s.pw.o r).add (((mm.sub ((t.pw.g r).mul md)).sub (s.pw.o r)).mul ⟨1, 4⟩) ∧
      t.fld (Reg.PWR_RAIL r) Fld.PWR_RAIL_GAIN = showFrac (t.pw.g r) 4096 16 ∧ ∀ q, q ≠ r → t.pw.g q = s.pw.g q ∧ t.pw.o q = s.pw.o q)

/-- Profiles and pooling. A write of PWR_CTL selects a profile and reads the active one; pooling starts where its conditions hold, is flagged
with the grant at PWR_CAP otherwise, and ends with POOL_EN; a round falls at once to its target or rises by at most its share of the headroom,
stays between 900 W and the cap, and tells every other member; a BUDGET of a member is heard, another's is not (R427 to R429, R438). -/
def Obligations.PowerSharing : Prop :=
  (∀ (s : State) (v : BitVec 32), s.fld Reg.PWR_CTL Fld.PWR_CTL_LOCK = 0 → v.getLsbD 5 = s.poolEn → Completes (.pwrProfileSelect 0 v) s (fun t =>
      t.pw = { s.pw with nextProfile := some (v.toNat % 16) } ∧ t.fld Reg.PWR_CTL Fld.PWR_CTL_PROFILE = s.profile ∧
      t.fld Reg.PWR_CTL Fld.PWR_CTL_PHASE_MAP_EN = (v.getLsbD 4).toNat ∧ t.fld Reg.PWR_CTL Fld.PWR_CTL_ALERT_EN = (v.getLsbD 6).toNat ∧
      Near (· = Reg.PWR_CTL) { s with pw := t.pw } t)) ∧
  (∀ (s : State) (v : BitVec 32), s.fld Reg.PWR_CTL Fld.PWR_CTL_LOCK = 0 → s.poolEn = false → v.getLsbD 5 = true → 2 ≤ s.poolN → s.poolN ≤ 8 →
    s.poolN * 900 ≤ s.poolL → s.chip ∈ s.poolMembers → Completes (.pwrProfileSelect 0 v) s (fun t => t.pw.pooling = true ∧ t.poolEn = true ∧
      t.pw = { s.pw with nextProfile := some (v.toNat % 16), pooling := true } ∧
      t.grantW = min (s.poolL / s.poolN) s.pwrCap ∧ Near (fun off => off = Reg.PWR_CTL ∨ off = Reg.PWR_ACTIVE) { s with pw := t.pw } t)) ∧
  (∀ (s : State) (v : BitVec 32), s.regsWf = true → s.fld Reg.PWR_CTL Fld.PWR_CTL_LOCK = 0 → s.poolEn = false → v.getLsbD 5 = true →
    (s.poolN < 2 ∨ 8 < s.poolN ∨ s.poolL < s.poolN * 900 ∨ s.chip ∉ s.poolMembers) → Completes (.pwrProfileSelect 0 v) s (fun t =>
      t.pw.pooling = false ∧ t.poolEn = true ∧ t.grantW = s.pwrCap ∧ raised Reg.PWR_STATUS Fld.PWR_STATUS_POOL_ERR Reg.PWR_POOL_ERR_CNT s t ∧
      Near (fun off => off = Reg.PWR_CTL ∨ off = Reg.PWR_ACTIVE ∨ off = Reg.PWR_STATUS ∨ off = Reg.PWR_POOL_ERR_CNT) { s with pw := t.pw } t)) ∧
  (∀ (s : State) (v : BitVec 32), s.fld Reg.PWR_CTL Fld.PWR_CTL_LOCK = 0 → s.poolEn = true → v.getLsbD 5 = false →
    Completes (.pwrProfileSelect 0 v) s (fun t => t.poolEn = false ∧ t.grantW = 0 ∧
      t.pw = { s.pw with nextProfile := some (v.toNat % 16), pooling := false, heard := [] } ∧
      Near (fun off => off = Reg.PWR_CTL ∨ off = Reg.PWR_ACTIVE) { s with pw := t.pw } t)) ∧
  (∀ (s : State) (b : Fin 4) (v : BitVec 32), b ≠ 0 → exec (.pwrProfileSelect b v) s = .next s) ∧
  (∀ s : State, s.poolEn = false ∨ s.pw.pooling = false → exec .poolBudgetRound s = .next s) ∧
  (∀ (s : State) (others : List Nat) (lost : Bool) (sumG own excess room target g' g'' : Nat), s.regsWf = true → s.poolEn = true →
    s.pw.pooling = true → others = s.poolMembers.filter (· ≠ s.chip) → lost = others.any (fun j => (s.heardFrom j).isNone) →
    sumG = others.foldl (fun a j => a + ((s.heardFrom j).map (·.1)).getD 2400) 0 → own = s.pw.demand - 900 →
    excess = own + others.foldl (fun a j => a + ((s.heardFrom j).map (fun h => h.2 - 900)).getD 1500) 0 → room = s.poolL - s.poolN * 900 →
    target = (if excess ≤ room then s.pw.demand else 900 + room * own / excess) →
    g' = (if target < s.grantW then target else min target (s.grantW + (s.poolL - (sumG + s.grantW)) / s.poolN)) →
    g'' = min (min (max g' 900) 2400) s.pwrCap → Completes .poolBudgetRound s (fun t => t.grantW = g'' ∧
      t.pw = { s.pw with seq := (s.pw.seq + 1) % 65536 } ∧
      (lost = true → raised Reg.PWR_STATUS Fld.PWR_STATUS_POOL_LOSS Reg.PWR_POOL_LOSS_CNT s t) ∧
      t.rt = { s.rt with rin := s.rt.rin ++ others.map (fun j => ({ p := { dst := j, src := s.chip, tc := 2, type := 7
                                                                           body := leBytes 2 s.pw.seq ++ leBytes 2 g'' ++
                                                                             leBytes 2 (min s.pw.demand 65535) ++ leBytes 2 s.pwrCap ++ leBytes 8 0 } } : RPkt)) } ∧
      Near (fun off => off = Reg.PWR_ACTIVE ∨ lost = true ∧ (off = Reg.PWR_STATUS ∨ off = Reg.PWR_POOL_LOSS_CNT))
        { s with pw := t.pw, rt := t.rt } t)) ∧
  (∀ (s : State) (p : Packet), p.type = 7 → p.malformed = false → p.src ∈ s.poolMembers → Completes (.budgetRx p) s (fun t =>
      t.heardFrom p.src = some (leNat ((p.body.drop 2).take 2), leNat ((p.body.drop 4).take 2)) ∧ t = { s.take p with pw := t.pw } ∧
      t.pw = { s.pw with heard := t.pw.heard } ∧ ∀ j, j ≠ p.src → t.heardFrom j = s.heardFrom j)) ∧
  (∀ (s : State) (p : Packet), p.type = 7 → p.malformed = false → p.src ∉ s.poolMembers → exec (.budgetRx p) s = .next (s.take p)) ∧
  (∀ (s : State) (p : Packet), s.regsWf = true → p.type ≠ 7 ∨ p.malformed = true → Completes (.budgetRx p) s (fun t =>
      raised Reg.FAB_STATUS Fld.FAB_STATUS_BADPKT Reg.FAB_BADPKT_CNT s t ∧
      Near (fun off => off = Reg.FAB_STATUS ∨ off = Reg.FAB_BADPKT_CNT) (s.take p) t))

/-- Droop, the clock and the sensors. A trip stretches the clock and puts DROOP in force, unless a change under way completes first; the
stretch ends when no detector is tripped, and its time is counted; a pending change waits out the stretch and the 64 cycles after it, a
downward one not beyond 10 µs, and an upward one writes its voltage and waits for it; a reading is shown with the hottest of its class, and the
third invalid one in a row fails the sensor at its class's threshold as it stands; a die at its trip point asserts THERMTRIP_N; the cap falls by
25 W while a sensor is hot, rises by 25 W on the tenth cool step, and holds otherwise (R430, R431, R433 to R436). -/
def Obligations.DroopAndHeat : Prop :=
  (∀ (s : State) (low : Bool), exec (.brdAlertNChange low) s = .next { s with pw := { s.pw with brdAlert := low } }) ∧
  (∀ (s : State) (d : Fin 64), s.regsWf = true → s.stretched = false → s.changing = false → s.pw.tripped = [] → 8 ∉ s.pw.inForce →
    Completes (.droopTrip d) s (fun t => t.stretched = true ∧
      t.pw = { s.pw with tripped := [d.val], droopSince := s.now, inForce := s.pw.inForce ++ [8] } ∧
      raised Reg.PWR_STATUS ⟨2, 1⟩ (Reg.PWR_THR_CNT 2) s t ∧ (t.fld Reg.PWR_ACTIVE Fld.PWR_ACTIVE_REASONS).testBit 2 = true ∧
      Near (fun off => off = Reg.PWR_FREQ ∨ off = Reg.PWR_STATUS ∨ off = Reg.PWR_THR_CNT 2 ∨ off = Reg.PWR_ACTIVE) { s with pw := t.pw } t)) ∧
  (∀ (s : State) (d : Fin 64), s.stretched = true ∨ s.changing = true ∨ s.pw.tripped ≠ [] → exec (.droopTrip d) s =
    .next { s with pw := { s.pw with tripped := (s.pw.tripped ++ [d.val]).eraseDups } }) ∧
  (∀ (s : State) (d : Fin 64), exec (.droopClear d) s = .next { s with pw := { s.pw with tripped := s.pw.tripped.filter (· ≠ d.val) } }) ∧
  (∀ s : State, s.regsWf = true → s.stretched = true → s.pw.tripped = [] → Completes .stretchEnd s (fun t => t.stretched = false ∧
      t.pw = { s.pw with stretchEnded := s.now, inForce := s.pw.inForce.filter (· ≠ 8) } ∧
      counted (Reg.PWR_THR_NS 2 0) (s.now - s.pw.droopSince) s t ∧
      Near (fun off => off = Reg.PWR_FREQ ∨ off = Reg.PWR_THR_NS 2 0 ∨ off = Reg.PWR_ACTIVE) { s with pw := t.pw } t)) ∧
  (∀ s : State, s.stretched = false ∨ s.pw.tripped ≠ [] → exec .stretchEnd s = .next s) ∧
  (∀ s : State, exec .voltageReached s = .next { s with pw := { s.pw with voltage := s.pw.asked } }) ∧
  (∀ (s : State) (k : Nat) (held : Bool), k = s.fld Reg.PWR_FREQ Fld.PWR_FREQ_TARGET → s.fld Reg.PWR_FREQ Fld.PWR_FREQ_PENDING = 1 →
    held = (s.stretched || (s.pw.tripped.isEmpty && s.droopWait)) →
    (k ≤ s.flevel → (held = false ∨ s.stretched = true ∧ 10000 ≤ s.now - s.pw.droopSince) → exec .frequencyChange s = .next (s.takeLevel k)) ∧
    (k ≤ s.flevel → held = true → (s.stretched = false ∨ s.now - s.pw.droopSince < 10000) → exec .frequencyChange s = .next s) ∧
    (s.flevel < k → held = true → exec .frequencyChange s = .next s) ∧
    (s.flevel < k → held = false → s.pw.voltage = k → s.pw.asked = k → exec .frequencyChange s = .next (s.takeLevel k)) ∧
    (s.flevel < k → s.droopWait = false → ¬ (s.pw.voltage = k ∧ s.pw.asked = k) → exec .frequencyChange s =
      .next { s with pw := { s.pw with asked := k } })) ∧
  (∀ s : State, s.fld Reg.PWR_FREQ Fld.PWR_FREQ_PENDING = 0 → exec .frequencyChange s = .next s) ∧
  (∀ (s : State) (k : Nat), s.regsWf = true → k ≤ 26 → (s.stretched = true ∨ s.pw.tripped = []) → ∃ t : State, t = s.takeLevel k ∧ t.flevel = k ∧
    t.fld Reg.PWR_FREQ Fld.PWR_FREQ_PENDING = 0 ∧ t.fld Reg.PWR_ACTIVE Fld.PWR_ACTIVE_FLEVEL = k ∧ t.stretched = s.stretched ∧
    t.pw = (if k < s.flevel then { s.pw with asked := k, voltage := k } else s.pw) ∧
    Near (fun off => off = Reg.PWR_FREQ ∨ off = Reg.PWR_ACTIVE) { s with pw := t.pw } t) ∧
  (∀ (s : State) (k : Nat), k ≤ 26 → s.stretched = false → s.pw.tripped ≠ [] → ∃ t : State, t = s.takeLevel k ∧ t.flevel = k ∧
    t.stretched = true ∧ t.pw.droopSince = s.now ∧ 8 ∈ t.pw.inForce) ∧
  (∀ (s : State) (i : Fin 103) (v : BitVec 16), Completes (.thermalSensorRead i (some v)) s (fun t => t.fld (Reg.THM_TEMP i) Fld.THM_TEMP_TEMP = v.toNat ∧
      t.fld (Reg.THM_TEMP i) Fld.THM_TEMP_FAIL = 0 ∧ t.pw.fails.get 0 i = 0 ∧
      (i.val < 90 → v.toInt ≤ toSigned 16 (t.fld Reg.THM_HOT Fld.THM_HOT_DIE_MAX)) ∧
      (i.val < 90 → 16 * ((min 115 (s.fld Reg.THM_LIMITS Fld.THM_LIMITS_DIE_TRIP) : Nat) : Int) ≤ v.toInt → t.pw.tripOut = true) ∧
      Near (fun off => off = Reg.THM_TEMP i ∨ off = Reg.THM_HOT) { s with pw := t.pw } t)) ∧
  (∀ (s : State) (i : Fin 103), s.pw.fails.get 0 i ≠ 2 → exec (.thermalSensorRead i none) s =
    .next (({ s with pw := { s.pw with fails := s.pw.fails.set 0 i (s.pw.fails.get 0 i + 1) } }.failedRead).thermTrip)) ∧
  (∀ (s : State) (i : Fin 103), s.regsWf = true → s.pw.fails.get 0 i = 2 → Completes (.thermalSensorRead i none) s (fun t =>
      t.fld (Reg.THM_TEMP i) Fld.THM_TEMP_FAIL = 1 ∧ t.pw.fails.get 0 i = 3 ∧
      (i.val < 90 → t.fld (Reg.THM_TEMP i) Fld.THM_TEMP_TEMP = 16 * s.fld Reg.THM_LIMITS Fld.THM_LIMITS_DIE_THROT) ∧
      (90 ≤ i.val → i.val < 98 → t.fld (Reg.THM_TEMP i) Fld.THM_TEMP_TEMP = 16 * s.fld Reg.THM_LIMITS Fld.THM_LIMITS_HBM_THROT) ∧
      (98 ≤ i.val → t.fld (Reg.THM_TEMP i) Fld.THM_TEMP_TEMP = s.fld (Reg.THM_TEMP i) Fld.THM_TEMP_TEMP) ∧
      raised Reg.THM_STATUS Fld.THM_STATUS_SENSOR_FAIL Reg.THM_SENSOR_FAIL_CNT s t ∧ t.mem = s.mem ∧ t.clu = s.clu)) ∧
  (∀ s : State, ∃ t : State, t = s.failedRead ∧ (∀ i, i < 98 → s.fld (Reg.THM_TEMP i) Fld.THM_TEMP_FAIL = 0 →
      t.rd (Reg.THM_TEMP i) = s.rd (Reg.THM_TEMP i)) ∧
    (∀ i l, i < 98 → s.fld (Reg.THM_TEMP i) Fld.THM_TEMP_FAIL = 1 → s.classLimit i = some l → t.temp i = l) ∧
    Near (fun off => off = Reg.THM_HOT ∨ ∃ i, i < 98 ∧ off = Reg.THM_TEMP i) s t) ∧
  (∀ s : State, s.dieHot = true ∨ s.hbmHot = true → Completes .thermalCapStep s (fun t => t.thermCap = max 900 (s.thermCap - 25) ∧
      Near (· = Reg.THM_CAP) { s with pw := { s.pw with cool := 0 } } t)) ∧
  (∀ s : State, s.dieHot = false → s.hbmHot = false → (∀ i, i < 98 → ∀ l, s.classLimit i = some l → s.temp i ≤ l - 48) →
    (s.pw.cool < 9 → exec .thermalCapStep s = .next { s with pw := { s.pw with cool := s.pw.cool + 1 } }) ∧
    (9 ≤ s.pw.cool → Completes .thermalCapStep s (fun t => t.thermCap = min 2400 (s.thermCap + 25) ∧
      Near (· = Reg.THM_CAP) { s with pw := { s.pw with cool := 0 } } t))) ∧
  (∀ (s : State) (i : Nat) (l : Int), s.dieHot = false → s.hbmHot = false → i < 98 → s.classLimit i = some l → l - 48 < s.temp i →
    exec .thermalCapStep s = .next { s with pw := { s.pw with cool := 0 } })

/-! ### Host ports, rings and host commands (spec/16_host_service_identity.md) -/

/-- Host ports and rings. A link that starts training waits for its width; up, HIF_CFG shows its lanes; down, its rings are disabled, its
commands no longer complete to the host, LINKDOWN counts, and every mover whose next chunk reads that host stops in DETECTED; a port reset resets
its tenants besides; a read that times out sets CTO and ends its reader. BAR2 reads and writes HBM under the region table of its tenant, meets
the detected errors there, and refuses what fails. A ring is enabled where every condition of R505 holds, starting empty, and otherwise ERR names
the first that fails; an event queue that has space again reports what was lost (R500, R502 to R505, R512). -/
def Obligations.HostPortsAndRings : Prop :=
  (∀ (s : State) (p : Fin 2), (s.tr.powered = true → s.hostPresent p = true → s.hostLink.get 0 p = 0 →
    exec (.hostLinkTrainStart p) s = .next { s with hostLink := s.hostLink.set 0 p 1 }) ∧
    (s.tr.powered = false ∨ s.hostPresent p = false ∨ s.hostLink.get 0 p ≠ 0 → exec (.hostLinkTrainStart p) s = .next s)) ∧
  (∀ (s : State) (p : Fin 2) (w : Fin 17), (s.hostPresent p = true → Completes (.hostLinkUp p w) s (fun t =>
    t.hostLink.get 0 p = 2 ∧ t.fld Reg.HIF_CFG (hostWidth p) = w ∧
    Near (· = Reg.HIF_CFG) { s with hostLink := s.hostLink.set 0 p 2 } t)) ∧
    (s.hostPresent p = false → exec (.hostLinkUp p w) s = .next s)) ∧
  (∀ s : State, s.hostPresent 0 = true ∧ (s.hostPresent 1 = true ↔ s.fld Reg.HIF_CFG Fld.HIF_CFG_SPLIT = 1)) ∧
  (∀ (s : State) (p : Fin 2), s.regsWf = true → ∃ u : State,
    exec (.hostLinkDown p) s = .next (((u.movers.filter (fun e => e.2.readsHost u p)).map (·.1)).foldl State.hostReadFails u) ∧
    u.hostLink.get 0 p = 0 ∧ raised Reg.HIF_STATUS Fld.HIF_STATUS_LINKDOWN Reg.HIF_LINKDOWN_CNT s u ∧ u.fld Reg.HIF_CFG (hostWidth p) = 0 ∧
    (∀ r, r < 64 → s.ringAssigned r = true → s.ringPort r = p → u.ringEn r = false) ∧
    (∀ r, r < 64 → s.ringAssigned r = false ∨ s.ringPort r ≠ p → u.rd (Reg.HIF_RING_CTL r) = s.rd (Reg.HIF_RING_CTL r)) ∧
    (∀ r, r < 64 → s.ringPort r = p → ∀ c ∈ u.hostCmds, c.ring = r → c.mute = true) ∧
    u.hostCmds.length = s.hostCmds.length ∧
    Near (fun o => o = Reg.HIF_STATUS ∨ o = Reg.HIF_LINKDOWN_CNT ∨ o = Reg.HIF_CFG ∨ ∃ r, r < 64 ∧ o = Reg.HIF_RING_CTL r)
      { s with hostLink := s.hostLink.set 0 p 0, hostCmds := u.hostCmds } u) ∧
  (∀ (s : State) (m : Nat) (r : MovRec), s.regsWf = true → s.mover m = some r →
    (r.state ≠ 1 → s.hostReadFails m = s) ∧
    (r.state = 1 → ∃ t : State, t = s.hostReadFails m ∧ t.mover m = some { r with state := 4 } ∧ (∀ k, k ≠ m → t.mover k = s.mover k) ∧
      raised Reg.MOV_STATUS Fld.MOV_STATUS_DET Reg.MOV_DET_CNT s t ∧
      Noted (fun o => o = Reg.MOV_STATUS ∨ o = Reg.MOV_DET_CNT ∨ o = Reg.HIF_STATUS ∨ o = Reg.HIF_EVQ_LOST_CNT ∨
        o = Reg.HIF_EVQ_IDX (r.tenant - 1)) { s with movers := t.movers } t)) ∧
  (∀ (s u : State) (p : Fin 2), exec (.hostLinkDown p) s = .next u → exec (.hostPortReset p) s =
    .next (([1, 2, 3].filter (fun t => s.hostPort t == some p.val)).foldl (fun (v : State) t => v.requestReset (ResetReq.mk 6 t)) u)) ∧
  (∀ (s : State) (p : Fin 2) (t : Nat), s.regsWf = true → (∀ e ∈ s.movers, e.2.state ≠ 1) → s.stopped = false → s.reset_ = none → 1 ≤ t → t ≤ 3 →
    s.hostPort t = some p → (∀ u, 1 ≤ u → u ≤ 3 → u ≠ t → s.hostPort u ≠ some p) → Completes (.hostPortReset p) s (fun v =>
      v.hostLink.get 0 p = 0 ∧ v.reset_ = some (ResetReq.mk 6 t) ∧ v.fld Reg.GLB_RESET_STATUS Fld.GLB_RESET_STATUS_BUSY = 1 ∧
      v.images = s.images.erase t ∧ (∀ x ∈ v.txs, x.tenant ≠ t) ∧ (∀ x ∈ v.rxs, x.tenant ≠ t))) ∧
  (∀ (s : State) (p : Fin 2), s.regsWf = true → ∃ u : State, raised Reg.HIF_STATUS Fld.HIF_STATUS_CTO Reg.HIF_CTO_CNT s u ∧
    Near (fun o => o = Reg.HIF_STATUS ∨ o = Reg.HIF_CTO_CNT) s u ∧
    (∀ m : Fin 32, exec (.hostReadTimeout p (.mover m)) s = .next (u.hostReadFails m)) ∧
    (∀ (r : Fin 64) (cid : BitVec 16), (∀ c, s.hostCmd r cid.toNat = some c → c.started = false ∨ c.result ≠ none) →
      exec (.hostReadTimeout p (.command r cid)) s = .next u) ∧
    (∀ (r : Fin 64) (cid : BitVec 16) (c : HostCmd), s.hostCmd r cid.toNat = some c → c.started = true → c.result = none →
      Completes (.hostReadTimeout p (.command r cid)) s (fun t => cmdEnded r cid.toNat c 8 c.done s t ∧ t = { u with hostCmds := t.hostCmds }))) ∧
  (∀ (s : State) (p : Fin 2) (off : BitVec 40) (n : Fin 4097) (err : MemErr) (bs : List Byte), (s.stopped = true →
      exec (.bar2Read p off n err) s = .next s ∧ exec (.bar2Write p off bs err) s = .next s) ∧
    (s.stopped = false → exec (.bar2Read p off 0 err) s = .next { s with out := s.out ++ [Msg.hostRead p (some [])] }) ∧
    exec (.bar2Write p off [] err) s = .next s) ∧
  (∀ (s u : State) (p : Fin 2) (off : BitVec 40) (n : Fin 4097) (err : MemErr) (a : Nat), s.stopped = false → n ≠ 0 → a = s.bar2Dpa p off.toNat →
    s.bar2Ok p a n .rd = true →
    (∀ bs, ((s.meet err (s.bar2Ten p)).spend 11 n).readMem a n = (.ok bs, u) →
      exec (.bar2Read p off n err) s = .next { u with out := u.out ++ [Msg.hostRead p (some bs)] }) ∧
    (∀ h x, ((s.meet err (s.bar2Ten p)).spend 11 n).readMem a n = (.detected h x, u) → ∃ v : State, v = u.chargeMem h x (s.bar2Ten p) ∧
      exec (.bar2Read p off n err) s = .next { v with out := v.out ++ [Msg.hostRead p none] }) ∧
    (s.badBursts a n = [] → Completes (.bar2Read p off n .none) s (fun t =>
      Near (fun _ => False) { s with out := s.out ++ [Msg.hostRead p (some (s.bytes a n))] } t))) ∧
  (∀ (s : State) (p : Fin 2) (off : BitVec 40) (n : Fin 4097) (err : MemErr), s.regsWf = true → s.stopped = false → n ≠ 0 →
    s.bar2Ok p (s.bar2Dpa p off.toNat) n .rd = false →
    Completes (.bar2Read p off n err) s (fun t => raised Reg.HIF_STATUS Fld.HIF_STATUS_BAR2_REJ Reg.HIF_BAR2_REJ_CNT s t ∧
      Near (fun o => o = Reg.HIF_STATUS ∨ o = Reg.HIF_BAR2_REJ_CNT) { s with out := s.out ++ [Msg.hostRead p none] } t)) ∧
  (∀ (s : State) (p : Fin 2) (off : BitVec 40) (bs : List Byte) (err : MemErr) (a : Nat), s.stopped = false → bs ≠ [] → a = s.bar2Dpa p off.toNat →
    s.bar2Ok p a bs.length .wr = true →
    (∀ (e : WrErr) (u : State), ((s.meet err (s.bar2Ten p)).spend 11 bs.length).write a bs = (e, u) →
      exec (.bar2Write p off bs err) s = .next (u.chargeWrite e (s.bar2Ten p))) ∧
    (plainHbm s a bs.length → Completes (.bar2Write p off bs .none) s (fun t =>
      storedAt a bs s t ∧ Near (fun _ => False) { s with mem := t.mem, codeErr := t.codeErr } t))) ∧
  (∀ (s : State) (p : Fin 2) (off : BitVec 40) (bs : List Byte) (err : MemErr), s.regsWf = true → s.stopped = false → bs ≠ [] →
    s.bar2Ok p (s.bar2Dpa p off.toNat) bs.length .wr = false → Completes (.bar2Write p off bs err) s (fun t =>
      raised Reg.HIF_STATUS Fld.HIF_STATUS_BAR2_REJ Reg.HIF_BAR2_REJ_CNT s t ∧
      Near (fun o => o = Reg.HIF_STATUS ∨ o = Reg.HIF_BAR2_REJ_CNT) s t)) ∧
  (∀ (s : State) (r : Fin 64) (v : BitVec 64), getField v Fld.HIF_RING_CTL_EN = 1 →
    (s.ringFault r v = 0 → s.ringEn r = false → Completes (.hostRingEnable .keeper r v) s (fun t => t.ringEn r = true ∧
      t.ringN r = getField v Fld.HIF_RING_CTL_N ∧ t.rd (Reg.HIF_RING_STAT r) = 0 ∧ t.sqTail.get 0 r = 0 ∧ t.cqHead.get 0 r = 0 ∧
      t.cqUsed.get 0 r = 0 ∧ Near (fun o => o = Reg.HIF_RING_CTL r ∨ o = Reg.HIF_RING_STAT r)
        { s with sqTail := t.sqTail, cqHead := t.cqHead, cqCount := t.cqCount, cqUsed := t.cqUsed } t)) ∧
    (s.ringFault r v = 0 → s.ringEn r = true → Completes (.hostRingEnable .keeper r v) s (fun t => t.ringEn r = true ∧
      t.ringN r = getField v Fld.HIF_RING_CTL_N ∧ Near (· = Reg.HIF_RING_CTL r) s t)) ∧
    (s.ringFault r v ≠ 0 → Completes (.hostRingEnable .keeper r v) s (fun t => t.ringEn r = false ∧
      t.fld (Reg.HIF_RING_STAT r) Fld.HIF_RING_STAT_ERR = s.ringFault r v ∧
      Near (fun o => o = Reg.HIF_RING_CTL r ∨ o = Reg.HIF_RING_STAT r) s t))) ∧
  (∀ (s : State) (r : Fin 64) (v : BitVec 64), getField v Fld.HIF_RING_CTL_EN = 0 → Completes (.hostRingEnable .keeper r v) s (fun t =>
    t.ringEn r = false ∧ Near (· = Reg.HIF_RING_CTL r) s t)) ∧
  (∀ (s : State) (r : Fin 64) (v : BitVec 64), s.ringFault r v = (if s.ringBound r = false then 1
    else if ¬ 64 ∣ (s.rd (Reg.HIF_RING_SQ r)).toNat ∨ ¬ 64 ∣ (s.rd (Reg.HIF_RING_CQ r)).toNat then 2
    else if getField v Fld.HIF_RING_CTL_N < 4 ∨ 12 < getField v Fld.HIF_RING_CTL_N then 3
    else if getField v Fld.HIF_RING_CTL_VMAJOR = 1 ∧ getField v Fld.HIF_RING_CTL_VMINOR = 0 then 0 else 4)) ∧
  (∀ (s : State) (p : Fin 2) (r : Fin 64) (v : BitVec 64),
    (s.ringAssigned r = false ∨ s.ringPort r ≠ p → exec (.hostRingEnable (.host p) r v) s = .next s) ∧
    (s.ringAssigned r = true → s.ringPort r = p → exec (.hostRingEnable (.host p) r v) s = exec (.hostRingEnable .keeper r v) s)) ∧
  (∀ (s : State) (t : Fin 4) (space p : Nat), t ≠ 0 → s.evqLost.get 0 t ≠ 0 → s.fld (Reg.HIF_EVQ_CTL (t - 1)) Fld.HIF_EVQ_CTL_EN = 1 →
    s.hostPort t = some p → s.evqUsed.get 0 t - space < 2 ^ s.fld (Reg.HIF_EVQ_CTL (t - 1)) Fld.HIF_EVQ_CTL_N →
    Completes (.evqLostEntry t space) s (fun u => u.evqLost.get 0 t = 0 ∧ u.evqUsed.get 0 t = s.evqUsed.get 0 t - space + 1 ∧
      (∃ a b v, u.out = s.out ++ [Msg.hostWrite p a (8 :: b), Msg.msix p v] ∧ b.length = 15 ∧
        (b.drop 3).take 4 = leBytes 4 (s.evqLost.get 0 t)) ∧
      Near (fun o => o = Reg.HIF_EVQ_IDX (t - 1)) { s with out := u.out, evqUsed := u.evqUsed, evqLost := u.evqLost } u)) ∧
  (∀ (s : State) (t : Fin 4) (space : Nat), t ≠ 0 →
    s.evqLost.get 0 t = 0 ∨ 2 ^ s.fld (Reg.HIF_EVQ_CTL (t - 1)) Fld.HIF_EVQ_CTL_N ≤ s.evqUsed.get 0 t - space →
    exec (.evqLostEntry t space) s = .next { s with evqUsed := s.evqUsed.set 0 t (s.evqUsed.get 0 t - space) }) ∧
  (∀ (s : State) (space : Nat), exec (.evqLostEntry 0 space) s = .next s)

/-- Doorbells. An index below 2^N that arrives on the ring's port becomes SQ_TAIL or CQ_HEAD, which releases the completions before it; one on
another port is rejected under R260, which counts it there, one for a ring that is not enabled is ignored, and both set DB_REJ; another
width is ignored; an index of 2^N or more clears EN and sets ERR to INDEX (R506). -/
def Obligations.Doorbells : Prop :=
  (∀ (s : State) (p : Fin 2) (r : Fin 64) (v : BitVec 32),
    exec (.sqTailDoorbell p r v false) s = .next s ∧ exec (.cqHeadDoorbell p r v false) s = .next s) ∧
  (∀ (s : State) (p : Fin 2) (r : Fin 64) (v : BitVec 32), s.ringPort r = p → s.ringBound r = true → s.ringEn r = true → v.toNat < 2 ^ s.ringN r →
    exec (.sqTailDoorbell p r v true) s = .next { s with sqTail := s.sqTail.set 0 r v.toNat } ∧
    Completes (.cqHeadDoorbell p r v true) s (fun t => t.cqHead = s.cqHead.set 0 r v.toNat ∧
      t.cqUsed.get 0 r = s.cqUsed.get 0 r - (v.toNat + 2 ^ s.ringN r - s.cqHead.get 0 r) % 2 ^ s.ringN r ∧
      t = { s with cqHead := t.cqHead, cqUsed := t.cqUsed })) ∧
  (∀ (s : State) (p : Fin 2) (r : Fin 64) (v : BitVec 32), s.ringPort r = p → s.ringBound r = true → s.ringEn r = true → 2 ^ s.ringN r ≤ v.toNat →
    Completes (.sqTailDoorbell p r v true) s (fun t => t.ringEn r = false ∧ t.fld (Reg.HIF_RING_STAT r) Fld.HIF_RING_STAT_ERR = 5 ∧
      t.sqTail = s.sqTail ∧ exec (.cqHeadDoorbell p r v true) s = .next t ∧
      Near (fun o => o = Reg.HIF_RING_CTL r ∨ o = Reg.HIF_RING_STAT r) s t)) ∧
  (∀ (s : State) (p : Fin 2) (r : Fin 64) (v : BitVec 32), s.regsWf = true → s.ringPort r ≠ p ∨ s.ringBound r = false ∨ s.ringEn r = false →
    Completes (.sqTailDoorbell p r v true) s (fun t => raised Reg.HIF_STATUS Fld.HIF_STATUS_DB_REJ Reg.HIF_DB_REJ_CNT s t ∧
      exec (.cqHeadDoorbell p r v true) s = .next t ∧
      (s.ringPort r ≠ p ∨ s.ringBound r = false → counted Reg.MOV_PATH_REJ_CNT 1 s t) ∧
      Near (fun o => o = Reg.HIF_STATUS ∨ o = Reg.HIF_DB_REJ_CNT ∨ o = Reg.MOV_PATH_REJ_CNT) s t))

/-- Host commands of a ring. A fetch takes the next entry, 16 at most; a command starts once the ones before it have, with FENCE once they are
done, and one of a reserved opcode is then done; a completion writes its entry with its phase, in the order the commands ended, and raises the
vector unless NOINT, waits while the CQ is full, and is dropped for a port that went down. A command that may not start yet waits; one whose
tenant is not bound ends with PATH. NOP ends OK; a copy takes one of four engines and moves 64 KiB chunks under the region table, its fingerprint
the detail; LOAD_IMAGE loads, waits for the tenant's ports, or reports the check that failed; START starts its clusters; SIGNAL raises a token;
QP_CREATE, QP_DESTROY, QP_POST, MKEY and ATTEST do as R520, R521, R523 and R554 say (R162, R202, R261, R507 to R511, R520, R521, R523,
R554). -/
def Obligations.HostCommands : Prop :=
  (∀ (s : State) (r : Fin 64) (e : BitVec 512) (k cid : Nat) (c : HostCmd), s.stopped = false → s.ringEn r = true →
    k = s.fld (Reg.HIF_RING_STAT r) Fld.HIF_RING_STAT_SQ_HEAD → k ≠ s.sqTail.get 0 r →
    (s.hostCmds.filter (fun c => c.ring == r.val)).length < 16 → cid = entryNum e 2 2 →
    c = { ring := r, cid := cid, opcode := entryNum e 0 1, flags := entryNum e 1 1
          args := (List.range 4).map (fun i => BitVec.ofNat 64 (entryNum e (8 + 8 * i) 8))
          result := if entryNum e 0 1 = 0 ∨ 11 < entryNum e 0 1 then some (1, 0) else none } →
    ∃ u : State, u.hostCmds = s.hostCmds ++ [c] ∧ u.fld (Reg.HIF_RING_STAT r) Fld.HIF_RING_STAT_SQ_HEAD = (k + 1) % 2 ^ s.ringN r ∧
      Near (· = Reg.HIF_RING_STAT r) { s with hostCmds := u.hostCmds } u ∧
      (s.hostCmds.filter (fun c => c.ring == r.val) = [] → u.mayStart r cid = true) ∧
      (u.mayStart r cid = false → exec (.hostCmdFetch r e) s = .next u) ∧
      (u.mayStart r cid = true → c.result = none → exec (.hostCmdFetch r e) s = .next (u.cmdBegun r cid)) ∧
      (u.mayStart r cid = true → c.result ≠ none → exec (.hostCmdFetch r e) s = .next (u.cmdEnd r cid 1 0))) ∧
  (∀ (s : State) (r : Fin 64) (e : BitVec 512), s.stopped = true ∨ s.ringEn r = false ∨
    s.fld (Reg.HIF_RING_STAT r) Fld.HIF_RING_STAT_SQ_HEAD = s.sqTail.get 0 r ∨ 16 ≤ (s.hostCmds.filter (fun c => c.ring == r.val)).length →
    exec (.hostCmdFetch r e) s = .next s) ∧
  (∀ (s : State) (r cid : Nat) (c : HostCmd), s.hostCmd r cid = some c →
    (s.mayStart r cid = true ↔ (∀ x ∈ s.earlier r cid, x.started = true) ∧ (c.flags % 2 = 0 ∨ s.earlier r cid = [])) ∧
    (∀ st d, cmdDone r cid c st d s (s.cmdEnd r cid st d)) ∧
    (s.completesNext r c = true ↔ ∀ x ∈ s.hostCmds, x.ring = r → x.order = 0 ∨ c.order ≠ 0 ∧ c.order ≤ x.order)) ∧
  (∀ (s : State) (r : Fin 64) (cid : BitVec 16) (c : HostCmd) (status detail k n : Nat), s.regsWf = true → s.hostCmd r cid.toNat = some c →
    c.result = some (status, detail) → c.started = true ∨ s.mayStart r cid.toNat = true → c.mute = false → s.ringEn r = true →
    s.completesNext r c = true → n = 2 ^ s.ringN r →
    s.cqUsed.get 0 r < n → k = s.cqCount.get 0 r → Completes (.hostCmdComplete r cid) s (fun t =>
      t.hostCmds = s.hostCmds.erase c ∧ counted Reg.HIF_CMD_CNT 1 s t ∧ t.cqUsed.get 0 r = s.cqUsed.get 0 r + 1 ∧ t.cqCount.get 0 r = k + 1 ∧
      t.fld (Reg.HIF_RING_STAT r) Fld.HIF_RING_STAT_CQ_TAIL = (k % n + 1) % n ∧
      t.out = s.out ++ Msg.hostWrite (s.ringPort r) ((s.rd (Reg.HIF_RING_CQ r)).toNat + 16 * (k % n))
          (leBytes 2 cid.toNat ++ leBytes 1 status ++ leBytes 1 (1 - k / n % 2) ++ leBytes 4 0 ++ leBytes 8 detail) ::
        (if c.flags / 2 % 2 = 1 then [] else [Msg.msix (s.ringPort r) (s.fld (Reg.HIF_RING_CTL r) Fld.HIF_RING_CTL_VECTOR)]) ∧
      Near (fun o => o = Reg.HIF_CMD_CNT ∨ o = Reg.HIF_RING_STAT r)
        { s with hostCmds := t.hostCmds, out := t.out, cqUsed := t.cqUsed, cqCount := t.cqCount } t)) ∧
  (∀ (s : State) (r : Fin 64) (cid : BitVec 16), (s.hostCmd r cid.toNat = none → exec (.hostCmdComplete r cid) s = .next s) ∧
    ∀ c : HostCmd, s.hostCmd r cid.toNat = some c →
      (c.result = none ∨ c.started = false ∧ s.mayStart r cid.toNat = false → exec (.hostCmdComplete r cid) s = .next s) ∧
      (c.result ≠ none → c.started = true ∨ s.mayStart r cid.toNat = true →
        (s.regsWf = true → c.mute = true ∨ s.ringEn r = false → Completes (.hostCmdComplete r cid) s (fun t => counted Reg.HIF_CMD_CNT 1 s t ∧
          Near (· = Reg.HIF_CMD_CNT) { s with hostCmds := s.hostCmds.erase c } t)) ∧
        (c.mute = false → s.ringEn r = true → s.completesNext r c = false ∨ 2 ^ s.ringN r ≤ s.cqUsed.get 0 r →
          exec (.hostCmdComplete r cid) s = .next s))) ∧
  (∀ (s : State) (r : Fin 64) (cid : BitVec 16) (c : HostCmd) (op : Nat) (i : Instr), (∃ (img : List Byte) (d : BitVec 512) (nonce : BitVec 256),
      (op, i) ∈ [(1, .hostNop r cid), (4, .hostLoadImage r cid img), (5, .hostStart r cid), (6, .hostSignal r cid), (7, .hostQpCreate r cid d),
        (8, .hostQpDestroy r cid), (10, .hostMkey r cid), (11, .hostAttest r cid nonce)]) → s.hostCmd r cid.toNat = some c →
    (c.opcode ≠ op ∨ c.result ≠ none ∨ s.mayStart r cid.toNat = false → exec i s = .next s) ∧
    (s.regsWf = true → c.opcode = op → c.result = none → s.mayStart r cid.toNat = true → s.ringBound r = false →
      Completes i s (fun t => cmdEnded r cid.toNat c 2 0 s t ∧
        counted Reg.MOV_PATH_REJ_CNT 1 s t ∧ Near (· = Reg.MOV_PATH_REJ_CNT) { s with hostCmds := t.hostCmds } t))) ∧
  (∀ (s : State) (r : Fin 64) (cid : BitVec 16) (c : HostCmd), CmdReady s r cid.toNat 1 c → Completes (.hostNop r cid) s
    (cmdDone r cid.toNat c 0 0 s)) ∧
  (∀ (s : State) (r : Fin 64) (cid : BitVec 16) (c : HostCmd) (op : Nat) (i : Instr),
    (op, i) ∈ [(2, .hostCopyIn r cid), (3, .hostCopyOut r cid)] → CmdReady s r cid.toNat op c →
    (s.copiesOn (s.ringPort r) < 4 → c.copying = false → c.arg 2 ≠ 0 → Completes i s (fun t =>
      t.hostCmd r cid.toNat = some { c with started := true, copying := true } ∧
      (∀ q k, ¬ (q = r ∧ k = cid.toNat) → t.hostCmd q k = s.hostCmd q k) ∧ t = { s with hostCmds := t.hostCmds })) ∧
    (s.copiesOn (s.ringPort r) < 4 → c.copying = false → c.arg 2 = 0 → Completes i s (cmdDone r cid.toNat c 0 (crc64 []).toNat s)) ∧
    (4 ≤ s.copiesOn (s.ringPort r) → exec i s = .next s)) ∧
  (∀ (s : State) (r : Fin 64) (cid : BitVec 16) (data : List Byte) (err : MemErr),
    (∀ c, s.hostCmd r cid.toNat = some c → c.copying = false ∨ c.result ≠ none) → exec (.hostCopyChunk r cid data err) s = .next s) ∧
  (∀ (s : State) (r : Fin 64) (cid : BitVec 16) (c : HostCmd) (data bs : List Byte) (err : MemErr) (n a : Nat) (u : State),
    s.hostCmd r cid.toNat = some c → c.copying = true → c.result = none → n = min 65536 (c.arg 2 - c.done) →
    a = c.arg (if c.opcode = 2 then 1 else 0) + c.done → u = (s.meet err (s.ringTen r)).spend 11 n →
    bs = (data ++ List.replicate n 0).take n →
    (s.heldOff [(a, n)] = true → exec (.hostCopyChunk r cid data err) s = .next s) ∧
    (s.heldOff [(a, n)] = false →
      (u.regionOk (s.ringTen r) a n (if c.opcode = 2 then .wr else .rd) = false →
        exec (.hostCopyChunk r cid data err) s = .next (u.cmdEnd r cid.toNat 3 c.done)) ∧
      (c.opcode = 2 → u.regionOk (s.ringTen r) a n .wr = true →
        (∀ h x v, u.write a bs = (some (h, x), v) →
          exec (.hostCopyChunk r cid data err) s = .next ((v.chargeMem h x (v.ringTen r)).cmdEnd r cid.toNat 4 c.done)) ∧
        (∀ v, u.write a bs = (none, v) →
          (c.done + n < c.arg 2 → exec (.hostCopyChunk r cid data err) s = .next (v.cmdMoved r cid.toNat (c.done + n) (crc64From c.fp bs))) ∧
          (c.arg 2 ≤ c.done + n → exec (.hostCopyChunk r cid data err) s =
            .next ((v.cmdMoved r cid.toNat (c.done + n) (crc64From c.fp bs)).cmdEnd r cid.toNat 0 (crc64From c.fp bs).toNat))) ∧
        (err = .none → plainHbm s a n → Completes (.hostCopyChunk r cid data err) s (fun t => storedAt a bs s t ∧
          Near (fun _ => False) { s with mem := t.mem, codeErr := t.codeErr, hostCmds := t.hostCmds } t))) ∧
      (c.opcode ≠ 2 → u.regionOk (s.ringTen r) a n .rd = true →
        (∀ h x v, u.readMem a n = (.detected h x, v) →
          exec (.hostCopyChunk r cid data err) s = .next ((v.chargeMem h x (v.ringTen r)).cmdEnd r cid.toNat 4 c.done)) ∧
        (∀ v l w, u.readMem a n = (.ok l, v) →
          w = { v with out := v.out ++ [Msg.hostWrite (v.ringPort r) ((c.arg 1 + c.done) % 2 ^ 64) l] } →
          (c.done + l.length < c.arg 2 → exec (.hostCopyChunk r cid data err) s =
            .next (w.cmdMoved r cid.toNat (c.done + l.length) (crc64From c.fp l))) ∧
          (c.arg 2 ≤ c.done + l.length → exec (.hostCopyChunk r cid data err) s =
            .next ((w.cmdMoved r cid.toNat (c.done + l.length) (crc64From c.fp l)).cmdEnd r cid.toNat 0 (crc64From c.fp l).toNat))) ∧
        (err = .none → s.place a = .hbm → s.badBursts a n = [] → 0 < n → Completes (.hostCopyChunk r cid data err) s (fun t =>
          Near (fun _ => False) { s with hostCmds := t.hostCmds
                                         out := s.out ++ [Msg.hostWrite (s.ringPort r) ((c.arg 1 + c.done) % 2 ^ 64) (s.bytes a n)] } t))))) ∧
  (∀ (s u : State) (r : Fin 64) (cid : BitVec 16) (c : HostCmd) (img : List Byte), CmdReady s r cid.toNat 4 c → u = s.cmdBegun r cid.toNat →
    (u.loadImage (s.ringTen r) (img.take (c.arg 1)) (c.arg 2) = none → exec (.hostLoadImage r cid img) s = .next u) ∧
    (∀ e v, u.loadImage (s.ringTen r) (img.take (c.arg 1)) (c.arg 2) = some (e, v) →
      exec (.hostLoadImage r cid img) s = .next (v.cmdEnd r cid.toNat (if e = 0 then 0 else 5) e)) ∧
    (u.loadImage (s.ringTen r) (img.take (c.arg 1)) (c.arg 2) = none ↔ s.imageStatus (s.ringTen r) (img.take (c.arg 1)) (c.arg 2) = 0 ∧
      ∃ k, k < 64 ∧ s.drained (s.ringTen r) k = false)) ∧
  (∀ (s : State) (r : Fin 64) (cid : BitVec 16) (c : HostCmd) (img : List Byte) (n : Nat) (l : List Section), CmdReady s r cid.toNat 4 c →
    n = s.ringTen r → l = programSections (img.take (c.arg 1)) (chipProgramOf (img.take (c.arg 1)) s.chip) →
    s.imageStatus n (img.take (c.arg 1)) (c.arg 2) = 0 → (∀ k, k < 64 → s.drained n k = true) → (∀ x ∈ l, x.type ∉ [6, 7, 10]) →
    Completes (.hostLoadImage r cid img) s (fun t => cmdEnded r cid.toNat c 0 0 s t ∧ t.image n = imageRecord (img.take (c.arg 1)) l ∧
      (∀ x, streamPlaces (c.arg 2) l = [(x, c.arg 2)] → n ≠ 0 → x.cluster < 64 → x.ctx = 1 → plainHbm s (c.arg 2) x.length →
        t.fld (Reg.SEQ_STREAM_BASE x.cluster (n - 1) 0) Fld.SEQ_STREAM_BASE_BASE = c.arg 2 ∧
        t.fld (Reg.SEQ_STREAM_LEN x.cluster (n - 1) 0) Fld.SEQ_STREAM_LEN_LEN = x.length / 16 ∧
        ∀ i, i < x.length → t.byte (c.arg 2 + i) = ((x.bytes (img.take (c.arg 1)))[i]?).getD 0))) ∧
  (∀ (s : State) (r : Fin 64) (cid : BitVec 16) (c : HostCmd) (img : List Byte) (e : Nat), s.regsWf = true → CmdReady s r cid.toNat 4 c →
    e = s.imageStatus (s.ringTen r) (img.take (c.arg 1)) (c.arg 2) → e ≠ 0 → Completes (.hostLoadImage r cid img) s (fun t =>
      cmdEnded r cid.toNat c 5 e s t ∧ (e = 5 → raised Reg.SEC_STATUS Fld.SEC_STATUS_SIG_FAIL Reg.SEC_SIG_FAIL_CNT s t) ∧
      Near (fun o => e = 5 ∧ (o = Reg.SEC_STATUS ∨ o = Reg.SEC_SIG_FAIL_CNT)) { s with hostCmds := t.hostCmds } t)) ∧
  (∀ (s u : State) (r : Fin 64) (cid : BitVec 16) (c : HostCmd), CmdReady s r cid.toNat 5 c →
    u = ((List.range 64).filter (fun k => (c.arg 0).testBit k)).foldl (fun (v : State) k => v.seqStart (s.ringTen r) k)
      (s.cmdBegun r cid.toNat) → exec (.hostStart r cid) s = .next (u.cmdEnd r cid.toNat 0 0)) ∧
  (∀ (s : State) (r k : Fin 64) (cid : BitVec 16) (c : HostCmd) (n : Nat), s.regsWf = true → CmdReady s r cid.toNat 5 c → n = s.ringTen r →
    c.arg 0 = 2 ^ k.val → s.seqState k = 0 → (n = 1 → (s.rd Reg.GLB_START_CTX).getLsbD 1 = false → s.barrier = 0) → s.bootDead = false →
    s.unitState (unitId 1 k) ≠ 3 → (∀ u, u < 4 → s.ctxState u k ≠ 5) →
    s.fld (Reg.SEQ_STREAM_LEN k (n - 1) ((s.rd Reg.GLB_START_CTX).getLsbD n).toNat) Fld.SEQ_STREAM_LEN_LEN ≠ 0 →
    Completes (.hostStart r cid) s (fun t => cmdEnded r cid.toNat c 0 0 s t ∧ t.seqState k = 1 ∧ t.seqPc k = 0 ∧ t.seqTenant k = n ∧
      clustersKept k s t ∧ (∀ off, ¬ seqRegs k off → t.rd off = s.rd off) ∧
      { t with regs := s.regs, clu := s.clu, hostCmds := s.hostCmds } = s)) ∧
  (∀ (s : State) (r : Fin 64) (cid : BitVec 16) (c : HostCmd) (d k n : Nat), CmdReady s r cid.toNat 6 c → d = c.arg 0 % 64 →
    k = c.arg 0 / 2 ^ 8 % 256 → n = c.arg 0 / 2 ^ 16 % 2 ^ 24 →
    (n = 0 → Completes (.hostSignal r cid) s (cmdDone r cid.toNat c 1 0 s)) ∧
    (n ≠ 0 → s.seqState d ≠ 0 → s.seqTenant d ≠ s.ringTen r → s.ctxState (s.ringTen r) d ∉ [2, 3, 5] →
      Completes (.hostSignal r cid) s (cmdDone r cid.toNat c 7 0 s)) ∧
    (n ≠ 0 → s.seqState d = 0 ∨ s.seqTenant d = s.ringTen r ∨ s.ctxState (s.ringTen r) d ∈ [2, 3, 5] →
      exec (.hostSignal r cid) s =
        .next (((s.cmdBegun r cid.toNat).signalTo (s.ringTen r) d k n (peerWord 0 0 0 0 0)).cmdEnd r cid.toNat 0 0)) ∧
    (s.regsWf = true → n ≠ 0 → s.ctxState (s.ringTen r) d ∈ [2, 3, 5] → Completes (.hostSignal r cid) s (fun t => cmdEnded r cid.toNat c 0 0 s t ∧
      t.heldSig = s.heldSig.set 0 (heldKey (s.ringTen r) d k) (s.heldSig.get 0 (heldKey (s.ringTen r) d k) + n) ∧
      counted Reg.MOV_HELD_SIG_CNT 1 s t ∧ Near (· = Reg.MOV_HELD_SIG_CNT) { s with hostCmds := t.hostCmds, heldSig := t.heldSig } t)) ∧
    (n ≠ 0 → k ≠ 0 → s.ctxState (s.ringTen r) d ∉ [2, 3, 5] → s.seqState d = 0 ∨ s.seqTenant d = s.ringTen r → (s.cl d).keepsHold →
      s.tok d k + n < 2 ^ 24 → s.fld (Reg.SEQ_TOKEN d k) Fld.SEQ_TOKEN_FWD = 0 → Completes (.hostSignal r cid) s (fun t => t.tok d k = s.tok d k + n ∧
        cmdEnded r cid.toNat c 0 0 s t ∧ clustersKept d s t ∧ Near (· = Reg.SEQ_TOKEN d k) { s with hostCmds := t.hostCmds, clu := t.clu } t))) ∧
  (∀ (s : State) (r : Fin 64) (cid : BitVec 16) (c : HostCmd) (d : BitVec 512), CmdReady s r cid.toNat 7 c →
    ((∀ k, k < 4096 → s.qp k ≠ none) → Completes (.hostQpCreate r cid d) s (cmdDone r cid.toNat c 9 0 s)) ∧
    (qpFieldsOk d = false ∨ entryNum d 2 1 = 0 ∨ 2 ^ 48 ≤ entryNum d 0x28 8 ∨
      s.regionOk (s.ringTen r) (entryNum d 0x28 6) (entryNum d 0x30 4 * entryNum d 0x34 4) .fl = false →
      Completes (.hostQpCreate r cid d) s (cmdDone r cid.toNat c 9 0 s)) ∧
    (∀ n, n < 4096 → s.qp n = none → (∀ k, k < n → s.qp k ≠ none) → qpFieldsOk d = true → entryNum d 2 1 ≠ 0 → entryNum d 0x28 8 < 2 ^ 48 →
      s.regionOk (s.ringTen r) (entryNum d 0x28 8) (entryNum d 0x30 4 * entryNum d 0x34 4) .fl = true → Completes (.hostQpCreate r cid d) s (fun t =>
        cmdEnded r cid.toNat c 0 (0x10000 + n) s t ∧ t.qp n = some (qpOf (s.ringTen r) d) ∧ (∀ k, k ≠ n → t.qp k = s.qp k) ∧
        t.fld (Reg.SVC_QP_STAT n) Fld.SVC_QP_STAT_STATE = 1 ∧ t.fld (Reg.SVC_QP_STAT n) Fld.SVC_QP_STAT_PORT = entryNum d 0 1 ∧
        t.fld (Reg.SVC_QP_STAT n) Fld.SVC_QP_STAT_TEN = s.ringTen r ∧
        Near (· = Reg.SVC_QP_STAT n) { s with hostCmds := t.hostCmds, qps := t.qps } t))) ∧
  (∀ (s : State) (r : Fin 64) (cid : BitVec 16) (c : HostCmd), CmdReady s r cid.toNat 8 c →
    (s.qpArg (c.arg 0) = none → Completes (.hostQpDestroy r cid) s (cmdDone r cid.toNat c 9 0 s)) ∧
    (∀ n q, s.qpArg (c.arg 0) = some (n, q) → q.tenant ≠ s.ringTen r → Completes (.hostQpDestroy r cid) s (cmdDone r cid.toNat c 7 0 s)) ∧
    (∀ n q, s.qpArg (c.arg 0) = some (n, q) → q.tenant = s.ringTen r → ∃ u : State, u.rd (Reg.SVC_QP_STAT n) = 0 ∧
      Near (· = Reg.SVC_QP_STAT n) { s.cmdBegun r cid.toNat with qps := s.qps.erase n } u ∧ exec (.hostQpDestroy r cid) s =
        .next ((q.posts.foldl (fun (v : State) p => v.cmdEnd p.ring p.cid 9 p.moved) u).cmdEnd r cid.toNat 0 0)) ∧
    (∀ n q, s.qpArg (c.arg 0) = some (n, q) → q.tenant = s.ringTen r → q.posts = [] → Completes (.hostQpDestroy r cid) s (fun t =>
      cmdEnded r cid.toNat c 0 0 s t ∧ t.qps = s.qps.erase n ∧ t.rd (Reg.SVC_QP_STAT n) = 0 ∧
      Near (· = Reg.SVC_QP_STAT n) { s with hostCmds := t.hostCmds, qps := t.qps } t)) ∧
    (∀ v n q, s.qpArg v = some (n, q) ↔ v = 0x10000 + n ∧ n < 4096 ∧ s.qp n = some q)) ∧
  (∀ (s : State) (r : Fin 64) (cid : BitVec 16) (c : HostCmd) (err : MemErr), CmdReady s r cid.toNat 9 c → s.qpArg (c.arg 0 % 2 ^ 24) = none →
    Completes (.hostQpPost r cid err) s (cmdDone r cid.toNat c 9 0 s)) ∧
  (∀ (s u : State) (r : Fin 64) (cid : BitVec 16) (c : HostCmd) (err : MemErr) (n a len op : Nat) (q : Qp) (x : QpPost),
    CmdReady s r cid.toNat 9 c → s.qpArg (c.arg 0 % 2 ^ 24) = some (n, q) → op = c.arg 0 / 2 ^ 24 % 256 → a = c.arg 1 % 2 ^ 48 →
    len = c.arg 2 % 2 ^ 32 → x = { ring := r, cid := cid.toNat, op := op, dpa := a, bytes := len, rkey := c.arg 2 / 2 ^ 32, remote := c.arg 3
                                   psn := q.psn, packets := q.packetsOf len } →
    u = ((s.cmdBegun r cid.toNat).meet err q.tenant).spend 11 len →
    (q.holds r cid.toNat = true ∨ op = 2 ∧ q.readRoom = false → exec (.hostQpPost r cid err) s = .next s) ∧
    (q.holds r cid.toNat = false → (op = 2 → q.readRoom = true) →
      (q.tenant ≠ s.ringTen r → Completes (.hostQpPost r cid err) s (cmdDone r cid.toNat c 7 0 s)) ∧
      (q.tenant = s.ringTen r → q.error = true → Completes (.hostQpPost r cid err) s (cmdDone r cid.toNat c 9 0 s)) ∧
      (q.tenant = s.ringTen r → q.error = false → 2 < op ∨ 2 ^ 30 < len → Completes (.hostQpPost r cid err) s (cmdDone r cid.toNat c 1 0 s)) ∧
      (q.tenant = s.ringTen r → q.error = false → op ≤ 2 → len ≤ 2 ^ 30 →
        (len ≠ 0 → s.regionOk q.tenant a len (if op = 2 then .wr else .rd) = false →
          Completes (.hostQpPost r cid err) s (cmdDone r cid.toNat c 3 0 s)) ∧
        (len = 0 ∨ s.regionOk q.tenant a len (if op = 2 then .wr else .rd) = true →
          (op = 2 → Completes (.hostQpPost r cid err) s (fun t => t.hostCmds = (s.cmdBegun r cid.toNat).hostCmds ∧
            t.out = s.out ++ [Msg.svcRead (0x10000 + n) (c.arg 2 / 2 ^ 32) (c.arg 3) len] ∧
            t.qp n = some { q with psn := (q.psn + q.packetsOf len) % 2 ^ 24, posts := q.posts ++ [x] } ∧ (∀ k, k ≠ n → t.qp k = s.qp k) ∧
            t = { s with out := t.out, hostCmds := t.hostCmds, qps := t.qps })) ∧
          (∀ v bs, op < 2 → u.readMem a len = (.ok bs, v) → Completes (.hostQpPost r cid err) s (fun t =>
            t.out = v.out ++ [if op = 0 then Msg.svcSend (0x10000 + n) bs
              else Msg.svcWrite (0x10000 + n) (c.arg 2 / 2 ^ 32) (c.arg 3) bs] ∧
            t.qp n = some { q with psn := (q.psn + q.packetsOf len) % 2 ^ 24, posts := q.posts ++ [x] } ∧ (∀ k, k ≠ n → t.qp k = v.qp k) ∧
            t = { v with out := t.out, qps := t.qps })) ∧
          (∀ v h y, op < 2 → u.readMem a len = (.detected h y, v) →
            exec (.hostQpPost r cid err) s = .next ((v.chargeMem h y q.tenant).cmdEnd r cid.toNat 4 0)))))) ∧
  (∀ (s : State) (r : Fin 64) (cid : BitVec 16) (c : HostCmd), CmdReady s r cid.toNat 10 c →
    (2 ^ 48 ≤ c.arg 0 ∨ 2 ^ 40 ≤ c.arg 1 ∨ c.arg 3 = 0 ∧ c.arg 1 = 0 ∨ c.arg 3 ≠ 0 ∧ s.keyOf (c.arg 3) = none →
      Completes (.hostMkey r cid) s (cmdDone r cid.toNat c 1 0 s)) ∧
    (c.arg 0 < 2 ^ 48 → c.arg 1 < 2 ^ 40 → c.arg 3 = 0 → c.arg 1 ≠ 0 → (∀ k, k < 1024 → s.keyLen k ≠ 0) →
      Completes (.hostMkey r cid) s (cmdDone r cid.toNat c 6 0 s)) ∧
    (∀ k, c.arg 0 < 2 ^ 48 → c.arg 1 < 2 ^ 40 → c.arg 1 ≠ 0 → (c.arg 3 = 0 ∧ k < 1024 ∧ s.keyLen k = 0 ∧ (∀ j, j < k → s.keyLen j ≠ 0) ∨
      c.arg 3 ≠ 0 ∧ s.keyOf (c.arg 3) = some k ∧ s.keyTen k = s.ringTen r) → Completes (.hostMkey r cid) s (fun t =>
        cmdEnded r cid.toNat c 0 ((s.keyGen k + 1) % 2 ^ 20 * 1024 + k) s t ∧ t.keyBase k = c.arg 0 ∧ t.keyLen k = c.arg 1 ∧
        t.keyTen k = s.ringTen r ∧ t.keyGen k = (s.keyGen k + 1) % 2 ^ 20 ∧ (c.arg 3 ≠ 0 → t.keyOf (c.arg 3) = none) ∧
        t.fld (Reg.SVC_MKEY_LEN k) Fld.SVC_MKEY_LEN_RD = c.arg 2 % 2 ∧ t.fld (Reg.SVC_MKEY_LEN k) Fld.SVC_MKEY_LEN_WR = c.arg 2 / 2 % 2 ∧
        Near (fun o => o = Reg.SVC_MKEY k ∨ o = Reg.SVC_MKEY_LEN k) { s with hostCmds := t.hostCmds } t)) ∧
    (∀ k, c.arg 0 < 2 ^ 48 → s.keyOf (c.arg 3) = some k → c.arg 3 ≠ 0 → c.arg 1 = 0 → s.keyTen k = s.ringTen r →
      Completes (.hostMkey r cid) s (fun t =>
        cmdEnded r cid.toNat c 0 (c.arg 3) s t ∧ t.keyOf (c.arg 3) = none ∧ Near (· = Reg.SVC_MKEY_LEN k) { s with hostCmds := t.hostCmds } t)) ∧
    (∀ k, c.arg 0 < 2 ^ 48 → c.arg 1 < 2 ^ 40 → s.keyOf (c.arg 3) = some k → c.arg 3 ≠ 0 → s.keyTen k ≠ s.ringTen r →
      Completes (.hostMkey r cid) s (cmdDone r cid.toNat c 7 0 s))) ∧
  (∀ (s : State) (r : Fin 64) (cid : BitVec 16) (c : HostCmd) (nonce : BitVec 256), CmdReady s r cid.toNat 11 c →
    Completes (.hostAttest r cid nonce) s (fun t => cmdEnded r cid.toNat c 0 0 s t ∧
      (∃ x : List Byte, t.out = s.out ++ [Msg.hostWrite (s.ringPort r) ((c.arg 0 + 0x40) % 2 ^ 64) x] ∧ x.length = 0x300 ∧
        x.take 8 = leBytes 4 0x5454414B ++ leBytes 2 1 ++ leBytes 2 (s.fld Reg.SEC_STATUS Fld.SEC_STATUS_PUF_FAIL +
          s.fld Reg.GLB_DEBUG_CTL Fld.GLB_DEBUG_CTL_DEBUG_EVER * 2 + s.fld Reg.SEC_STATUS Fld.SEC_STATUS_REPAIR_SIG * 4) ∧
        (x.drop 0x10).take 32 = leBytes 32 nonce.toNat ∧ (x.drop 0x80).take 512 = (List.range 16).flatMap s.measurement ∧
        (s.fld Reg.SEC_STATUS Fld.SEC_STATUS_PUF_FAIL = 1 → x.drop 0x2C0 = List.replicate 64 0)) ∧
      t = { s with out := t.out, hostCmds := t.hostCmds, freeIx := t.freeIx }))

/-! ### The keeper mailbox, the I3C target and the test access port -/

/-- The mailbox and the management buses. A private write lands in channel 0's request buffer, and with GO it makes the channel busy, is ignored
while it is busy, and is answered BAD_OPCODE for an opcode not listed. A request whose turn has come is answered as R517 says: identity, unit
state, energy, the cap, a register read or written as T0, the attestation report, the versions, the board reread; one whose payload is too short
is answered BAD_ARG, a read of a cluster held in reset waits, and one refused on its channel is answered DENIED. SETDASA and ENTDAA give the
target its address once. The test access port has four instructions, EXTEST only under a warm reset (R514 to R517, R526, R529, R554, R564,
R580). -/
def Obligations.ManagementBuses : Prop :=
  (∀ (s : State) (off : BitVec 16) (bs : List Byte), ∃ u : State,
    (∀ i (h : i < bs.length), off.toNat + i < 0x400 → bufByte u (Reg.KPR_REQ 0) (off.toNat + i) = bs[i].toNat) ∧
    (∀ i, i < 0x400 → i < off.toNat ∨ off.toNat + bs.length ≤ i → bufByte u (Reg.KPR_REQ 0) i = bufByte s (Reg.KPR_REQ 0) i) ∧
    Near (fun o => ∃ i, i < 128 ∧ o = Reg.KPR_REQ 0 i) { s with i3c := { s.i3c with offset := off.toNat } } u ∧
    (off.toNat + bs.length ≤ 0x800 ∨ 0x800 < off.toNat → exec (.i3cPrivateWrite off bs) s = .next u) ∧
    (off.toNat ≤ 0x800 → 0x800 < off.toNat + bs.length → exec (.i3cPrivateWrite off bs) s =
      .next (u.writeKprCh 0 (BitVec.ofNat 64 (leNat ((bs.drop (0x800 - off.toNat)).take 4)))))) ∧
  (∀ (s : State) (v : BitVec 64), v.getLsbD 0 = false → ∃ t : State, t = s.writeKprCh 0 v ∧ t.kprBusy 0 = s.kprBusy 0 ∧
    t.fld (Reg.KPR_CH 0) Fld.KPR_CH_VECTOR = getField v Fld.KPR_CH_VECTOR ∧ Near (· = Reg.KPR_CH 0) s t) ∧
  (∀ (s : State) (v : BitVec 64), s.regsWf = true → v.getLsbD 0 = true → ∃ t : State, t = s.writeKprCh 0 v ∧
    (s.kprBusy 0 = false → s.kprOp 0 ∈ [1, 2, 3, 4, 0x10, 0x11, 0x20, 0x21, 0x30, 0x31] →
      t.kprBusy 0 = true ∧ t.fld (Reg.KPR_CH 0) Fld.KPR_CH_DONE = 0 ∧ Near (· = Reg.KPR_CH 0) s t) ∧
    (s.kprBusy 0 = true → t.kprBusy 0 = true ∧ raised Reg.KPR_STATUS Fld.KPR_STATUS_GO_IGN Reg.KPR_GO_IGN_CNT s t ∧
      Near (fun o => o = Reg.KPR_STATUS ∨ o = Reg.KPR_GO_IGN_CNT ∨ o = Reg.KPR_CH 0) s t) ∧
    (s.kprBusy 0 = false → s.kprOp 0 ∉ [1, 2, 3, 4, 0x10, 0x11, 0x20, 0x21, 0x30, 0x31] → answered (fun _ => False) 0 1 [] s t)) ∧
  (∀ (s : State) (sa da : BitVec 7) (pid : BitVec 48), s.i3c.dyn = none →
    (sa.toNat = 0x30 + s.straps → exec (.i3cSetdasa sa da) s = .next { s with i3c := { s.i3c with dyn := some da.toNat } }) ∧
    (sa.toNat ≠ 0x30 + s.straps → exec (.i3cSetdasa sa da) s = .next s) ∧
    (pid = s.provisionalId → exec (.i3cEntdaa pid da) s = .next { s with i3c := { s.i3c with dyn := some da.toNat } }) ∧
    (pid ≠ s.provisionalId → exec (.i3cEntdaa pid da) s = .next s)) ∧
  (∀ (s : State) (sa da : BitVec 7) (pid : BitVec 48), s.i3c.dyn ≠ none →
    exec (.i3cSetdasa sa da) s = .next s ∧ exec (.i3cEntdaa pid da) s = .next s) ∧
  (∀ (s : State) (ch : Fin 4), s.regsWf = true → Asked s ch 1 → Completes (.getIdentity ch) s
    (answered (fun _ => False) ch 0 (leBytes 8 (s.rd Reg.IDM_STATUS).toNat ++ leBytes 8 (s.rd Reg.IDM_BOARD0).toNat ++
      leBytes 8 (s.rd Reg.IDM_BOARD1).toNat ++ leBytes 8 (s.rd Reg.IDM_PKG_SERIAL).toNat) s)) ∧
  (∀ (s : State) (ch : Fin 4), s.regsWf = true → Asked s ch 2 → Completes (.getUnitstate ch) s (answered (fun _ => False) ch 0 s.unitRecord s)) ∧
  (∀ (s : State) (ch : Fin 4), s.regsWf = true → Asked s ch 3 → Completes (.getEnergy ch) s (answered (fun _ => False) ch 0
    (leBytes 8 (s.rd (Reg.PWR_ENERGY 0)).toNat ++ leBytes 8 (s.rd (Reg.PWR_ENERGY 1)).toNat ++ leBytes 8 (s.rd (Reg.PWR_ENERGY 2)).toNat ++
      leBytes 8 (s.rd (Reg.PWR_ENERGY 3)).toNat ++ leBytes 8 (s.rd Reg.PWR_ENERGY_UNATTR).toNat) s)) ∧
  (∀ (s : State) (ch : Fin 4), s.regsWf = true → Asked s ch 4 → 2 ≤ (s.kprPayload ch).length → Completes (.setCap ch) s (fun t =>
    t.fld Reg.PWR_CAP Fld.PWR_CAP_CAP = leNat ((s.kprPayload ch).take 2) % 2 ^ 12 ∧
    (s.poolEn = true → s.pw.pooling = false → t.grantW = t.pwrCap) ∧
    (s.poolEn = false ∨ s.pw.pooling = true → t.rd Reg.PWR_ACTIVE = s.rd Reg.PWR_ACTIVE) ∧
    answered (fun o => o = Reg.PWR_CAP ∨ o = Reg.PWR_ACTIVE) ch 0 [] s t)) ∧
  (∀ (s : State) (ch : Fin 4) (off : Nat), s.regsWf = true → Asked s ch 0x10 → 8 ≤ (s.kprPayload ch).length →
    off = leNat ((s.kprPayload ch).take 8) → off % 8 = 0 →
    ((clusterOfReg off = none ∨ clusterOfReg off ≠ s.clusterHeld) →
      ((regAt off).isSome = true → Completes (.regRead ch) s (answered (fun _ => False) ch 0 (leBytes 8 (s.rd off).toNat) s)) ∧
      (regAt off = none → off < 0x2000000 ∨ 0x4000000 ≤ off ∨ s.fld Reg.GLB_DEBUG_CTL Fld.GLB_DEBUG_CTL_DBG_WIN ≠ 1 →
        Completes (.regRead ch) s (answered (fun _ => False) ch 0 (leBytes 8 0) s)) ∧
      (regAt off = none → 0x2000000 ≤ off → off < 0x4000000 → s.fld Reg.GLB_DEBUG_CTL Fld.GLB_DEBUG_CTL_DBG_WIN = 1 →
        ∃ v : BitVec 64, Completes (.regRead ch) s (answered (fun _ => False) ch 0 (leBytes 8 v.toNat) { s with freeIx := s.freeIx + 1 }))) ∧
    (∀ k, clusterOfReg off = some k → s.clusterHeld = some k → exec (.regRead ch) s =
      .next { s with tr := { s.tr with held := s.tr.held ++ [(0x10 + k, Held.regRead ch)] } })) ∧
  (∀ (s : State) (ch : Fin 4) (off : Nat), s.regsWf = true → Asked s ch 0x11 → 16 ≤ (s.kprPayload ch).length →
    off = leNat ((s.kprPayload ch).take 8) → off % 8 = 0 →
    (2 ^ 26 ≤ off → Completes (.regWrite ch) s (answered (fun _ => False) ch 0 [] s)) ∧
    (∀ u, off < 2 ^ 26 → exec (.registerWrite .mailbox (BitVec.ofNat 26 off) true
        (BitVec.ofNat 64 (leNat (((s.kprPayload ch).drop 8).take 8)))) s = .next u →
      (u.kprBusy ch = true → u.regsWf = true → Completes (.regWrite ch) s (answered (fun _ => False) ch 0 [] u)) ∧
      (u.kprBusy ch = false → exec (.regWrite ch) s = .next u))) ∧
  (∀ (s : State) (ch : Fin 4), s.regsWf = true → Asked s ch 0x20 → (s.kprPayload ch).length = 32 → Completes (.attest ch) s (fun t =>
    ∃ x : List Byte,
    x.length = 0x300 ∧ (x.drop 0x10).take 32 = s.kprPayload ch ∧ (x.drop 0x80).take 512 = (List.range 16).flatMap s.measurement ∧
    answered (fun _ => False) ch 0 x { s with freeIx := t.freeIx } t)) ∧
  (∀ (s : State) (ch : Fin 4) (p : Nat → Nat), s.regsWf = true → Asked s ch 0x30 → 4 ≤ (s.kprPayload ch).length →
    p = (fun i => leNat (((s.kprPayload ch).drop i).take 1)) →
    (p 0 * 256 + p 1 ≤ 256 ∧ 256 ≤ p 2 * 256 + p 3 → Completes (.versions ch) s (fun t => t.telemetryOff = false ∧
      answered (fun _ => False) ch 0 (leBytes 4 0x00010001) { s with telemetryOff := false } t)) ∧
    (256 < p 0 * 256 + p 1 ∨ p 2 * 256 + p 3 < 256 → Completes (.versions ch) s (fun t => t.telemetryOff = true ∧
      answered (fun _ => False) ch 3 (leBytes 4 0x00010001) { s with telemetryOff := true } t))) ∧
  (∀ (s : State) (ch : Fin 4) (op : Nat) (i : Instr), s.regsWf = true → Asked s ch op →
    (op, i) = (4, .setCap ch) ∧ (s.kprPayload ch).length < 2 ∨
    (op, i) = (0x10, .regRead ch) ∧ ((s.kprPayload ch).length < 8 ∨ leNat ((s.kprPayload ch).take 8) % 8 ≠ 0) ∨
    (op, i) = (0x11, .regWrite ch) ∧ ((s.kprPayload ch).length < 16 ∨ leNat ((s.kprPayload ch).take 8) % 8 ≠ 0) ∨
    (op, i) = (0x20, .attest ch) ∧ (s.kprPayload ch).length ≠ 32 ∨ (op, i) = (0x30, .versions ch) ∧ (s.kprPayload ch).length < 4 →
    Completes i s (answered (fun _ => False) ch 3 [] s)) ∧
  (∀ (s : State) (ch : Fin 4) (board : Option (List Byte)), s.regsWf = true → Asked s ch 0x31 →
    ((∃ p, p < 12 ∧ s.portEn p = true) → Completes (.rereadBoard ch board) s (answered (fun _ => False) ch 2 [] s)) ∧
    ((∀ p, p < 12 → s.portEn p = false) → ∃ u : State, u = s.checkBoard board ∧ (u.regsWf = true →
      Completes (.rereadBoard ch board) s (answered (fun _ => False) ch 0 (leBytes 8 (u.rd Reg.IDM_STATUS).toNat) u)) ∧
      u.i3c = s.i3c ∧ u.mem = s.mem ∧ u.clu = s.clu ∧
      (board = none → u.fld Reg.IDM_STATUS Fld.IDM_STATUS_VALID = 0 ∧ u.fld Reg.IDM_STATUS Fld.IDM_STATUS_BID % 2 = 1))) ∧
  (∀ (s : State) (ch : Fin 4) (op : Nat) (i : Instr), (∃ b, (op, i) ∈ [(1, .getIdentity ch), (2, .getUnitstate ch), (3, .getEnergy ch), (4, .setCap ch),
      (0x10, .regRead ch), (0x11, .regWrite ch), (0x20, .attest ch), (0x30, .versions ch), (0x31, .rereadBoard ch b)]) →
    (s.kprTurn ch op = false → exec i s = .next s) ∧
    (s.regsWf = true → s.kprTurn ch op = true → s.kprAllowed ch op = false → Completes i s (answered (fun _ => False) ch 2 [] s))) ∧
  (∀ (s : State) (ch op : Nat), (s.kprAllowed ch op = true ↔ op ∈ [1, 2, 0x20] ∨ (op ∈ [3, 4] ∧ ch = 0) ∨ (s.rd Reg.KPR_CTL).getLsbD ch = true) ∧
    (s.kprTurn ch op = true ↔ s.stopped = false ∧ s.romDead = false ∧ s.kprBusy ch = true ∧ s.kprOp ch = op ∧ s.kprWaits ch = false ∧
      ∀ c, c < ch → s.kprBusy c = false ∨ s.kprWaits c = true)) ∧
  (∀ (s : State) (drive pins : Nat),
    (∃ m : BitVec 11, exec (.testAccessPortInstruction .idcode drive pins) s =
      .next { s with tap := .idcode, tapDrive := none, out := s.out ++ [Msg.tap (0x12400001 + m.toNat * 2)] }) ∧
    exec (.testAccessPortInstruction .sample drive pins) s = .next { s with tap := .sample, tapDrive := none, out := s.out ++ [Msg.tap pins] } ∧
    exec (.testAccessPortInstruction .bypass drive pins) s = .next { s with tap := .bypass, tapDrive := none, out := s.out ++ [Msg.tap 0] } ∧
    exec (.testAccessPortInstruction .other drive pins) s = .next { s with tap := .bypass, tapDrive := none, out := s.out ++ [Msg.tap 0] } ∧
    (s.tr.warmHeld = true → exec (.testAccessPortInstruction .extest drive pins) s =
      .next { s with tap := .extest, tapDrive := some drive, out := s.out ++ [Msg.tap pins] }) ∧
    (s.tr.warmHeld = false → exec (.testAccessPortInstruction .extest drive pins) s =
      .next { s with tap := .sample, tapDrive := none, out := s.out ++ [Msg.tap pins] }))

/-! ### Service ports (spec/16_host_service_identity.md R518 to R523, R533) -/

/-- The service network. A packet ahead of the expected one is asked for again, one seen before is acknowledged again. A SEND fills the next
receive buffer, is acknowledged and told to the event queue, or is answered with the NAK of its case; on a T0 queue pair it becomes a mailbox
request; a notice of the collective engine's goes to its collective. A WRITE and a READ pass their key, its range, its permission and the region
table of its tenant, or are refused and counted; a landing waits for a commit pass. A READ response lands in the local range and completes its
command; an ACK completes the posts it covers; a NAK and the retry timeout send again from the oldest packet until the retry count is spent,
which, as a fatal NAK, puts the queue pair in ERROR and fails its posts. A CNP cuts the rate at most once in 50 µs; the rate timer adds AI,
after five additions HAI, up to the line rate. Pause frames are dropped and counted; a link comes up on an enabled port only (R515, R518 to
R523, R533; the retry rules of InfiniBand are the model's, log entry 80). -/
def Obligations.ServiceNetwork : Prop :=
  (∀ (s : State) (n : Fin 4096) (i : Instr), s.liveQp n = none → (∃ bs psn kind rkey a len st room ecn err, i ∈ [.svcSendRx n psn bs st room ecn,
      .svcRdmaWriteRx n psn rkey a bs ecn err, .svcRdmaReadRx n psn rkey a len err, .svcReadResponseRx n bs err, .svcAckRx n psn,
      .svcNakRx n psn kind, .svcRetryTimeout n]) → exec i s = .next s) ∧
  (∀ (q : Qp) (psn d : Nat), d = (psn + 2 ^ 24 - q.rpsn) % 2 ^ 24 →
    (q.turn psn = 0 ↔ d = 0) ∧ (q.turn psn = 1 ↔ 0 < d ∧ d < 2 ^ 23) ∧ (q.turn psn = 2 ↔ 2 ^ 23 ≤ d)) ∧
  (∀ (s : State) (n : Fin 4096) (q : Qp) (psn : BitVec 24) (bs : List Byte) (st : Fin 4) (room ecn : Bool) (rkey : BitVec 32) (a : BitVec 64)
    (len : BitVec 32) (err : MemErr), s.liveQp n = some q →
    (q.turn psn.toNat = 1 → (s.sendLandsLater n = false →
        exec (.svcSendRx n psn bs st room ecn) s = .next { s with out := s.out ++ [Msg.svcNak (0x10000 + n) 4] }) ∧
      exec (.svcRdmaWriteRx n psn rkey a bs ecn err) s = .next { s with out := s.out ++ [Msg.svcNak (0x10000 + n) 4] } ∧
      exec (.svcRdmaReadRx n psn rkey a len err) s = .next { s with out := s.out ++ [Msg.svcNak (0x10000 + n) 4] }) ∧
    (q.turn psn.toNat = 2 → (s.sendLandsLater n = false →
        exec (.svcSendRx n psn bs st room ecn) s = .next { s with out := s.out ++ [Msg.svcAck (0x10000 + n)] }) ∧
      exec (.svcRdmaWriteRx n psn rkey a bs ecn err) s = .next { s with out := s.out ++ [Msg.svcAck (0x10000 + n)] })) ∧
  (∀ (s : State) (n : Fin 4096) (q : Qp) (len : Nat) (ecn : Bool), ∃ t : State, t = s.received n q len ecn ∧
    ((ecn = true ∧ ∀ x, q.cnpAt = some x → x + 50000 ≤ s.now) → t.out = s.out ++ [Msg.svcCnp (0x10000 + n)] ∧
      t.qp n = some { q with rpsn := (q.rpsn + q.packetsOf len) % 2 ^ 24, cnpAt := some s.now }) ∧
    ((ecn = false ∨ ∃ x, q.cnpAt = some x ∧ s.now < x + 50000) → t.out = s.out ∧
      t.qp n = some { q with rpsn := (q.rpsn + q.packetsOf len) % 2 ^ 24 }) ∧
    (∀ k, k ≠ n.val → t.qp k = s.qp k) ∧ t = { s with out := t.out, qps := t.qps }) ∧
  (∀ (s : State) (n : Fin 4096) (q : Qp) (psn : BitVec 24) (bs : List Byte) (st : Fin 4) (room ecn : Bool) (a : Nat), s.liveQp n = some q →
    q.tenant ≠ 0 → a = q.rqDpa + q.received % q.rqEntries * q.rqSize →
    (s.landsLater a = true → exec (.svcSendRx n psn bs st room ecn) s = .next s) ∧
    (s.landsLater a = false → q.turn psn.toNat = 0 →
      (q.rqSize < bs.length → exec (.svcSendRx n psn bs st room ecn) s = .next { s with out := s.out ++ [Msg.svcNak (0x10000 + n) 1] }) ∧
      (bs.length ≤ q.rqSize → exec (.svcSendRx n psn bs st false ecn) s = .next { s with out := s.out ++ [Msg.svcNak (0x10000 + n) 0] }) ∧
      (bs.length ≤ q.rqSize → s.regionOk q.tenant a q.rqSize .fl = false →
        exec (.svcSendRx n psn bs st true ecn) s = .next { s with out := s.out ++ [Msg.svcNak (0x10000 + n) 3] }) ∧
      (bs.length ≤ q.rqSize → s.regionOk q.tenant a q.rqSize .fl = true →
        (∀ h x v, ((s.onBehalf q.tenant).spend 11 bs.length).write a bs = (some (h, x), v) → ∃ w : State, w = v.chargeMem h x q.tenant ∧
          exec (.svcSendRx n psn bs st true ecn) s = .next { w with out := w.out ++ [Msg.svcNak (0x10000 + n) 3] }) ∧
        (∀ v w u, ((s.onBehalf q.tenant).spend 11 bs.length).write a bs = (none, v) →
          w = (v.received n { q with received := q.received + 1 } bs.length ecn).evq q.tenant 7 0 (0x10000 + n) →
          u = { w with out := w.out ++ [Msg.svcAck (0x10000 + n)] } →
          (q.tenant ≠ 1 ∨ bs.length ≠ 128 ∨ (noticeOf bs st).1.type ∉ [1, 3] → exec (.svcSendRx n psn bs st true ecn) s = .next u) ∧
          (q.tenant = 1 → bs.length = 128 → (noticeOf bs st).1.type ∈ [1, 3] →
            (∀ x, u.engineQp n (noticeOf bs st).1 = (false, x) → exec (.svcSendRx n psn bs st true ecn) s = .next x) ∧
            (∀ x, u.engineQp n (noticeOf bs st).1 = (true, x) → exec (.svcSendRx n psn bs st true ecn) s =
              .next (x.fallbackNotice n (noticeOf bs st).2 (noticeOf bs st).1)))))) ∧
    (s.commitPc = none → q.turn psn.toNat = 0 → bs.length ≤ q.rqSize → s.regionOk q.tenant a q.rqSize .fl = true → plainHbm s a bs.length →
      s.fld (Reg.HIF_EVQ_CTL (q.tenant - 1)) Fld.HIF_EVQ_CTL_EN = 0 → q.tenant ≠ 1 ∨ bs.length ≠ 128 →
      Completes (.svcSendRx n psn bs st true false) s (fun t =>
        storedAt a bs s t ∧ t.qp n = some { q with received := q.received + 1, rpsn := (q.rpsn + q.packetsOf bs.length) % 2 ^ 24 } ∧
        Near (fun _ => False) { s with mem := t.mem, codeErr := t.codeErr, qps := t.qps, out := s.out ++ [Msg.svcAck (0x10000 + n)] } t))) ∧
  (∀ (s u : State) (n : Fin 4096) (q : Qp) (psn : BitVec 24) (bs : List Byte) (st : Fin 4) (room ecn : Bool), s.liveQp n = some q →
    q.tenant = 0 → q.turn psn.toNat = 0 → u = s.received n q bs.length ecn →
    exec (.svcSendRx n psn bs st room ecn) s = .next (u.kprSend n bs) ∧
    (1024 < bs.length → u.kprSend n bs = { u with out := u.out ++ [Msg.svcNak (0x10000 + n) 1] }) ∧
    (s.regsWf = true → bs.length ≤ 1024 → s.kprBusy 3 = true → ∃ t : State, t = u.kprSend n bs ∧
      raised Reg.KPR_STATUS Fld.KPR_STATUS_GO_IGN Reg.KPR_GO_IGN_CNT u t ∧
      Near (fun o => o = Reg.KPR_STATUS ∨ o = Reg.KPR_GO_IGN_CNT) { u with out := u.out ++ [Msg.svcAck (0x10000 + n)] } t) ∧
    (bs.length ≤ 1024 → s.kprBusy 3 = false → 2 ≤ bs.length → leNat (bs.take 2) ∈ [1, 2, 3, 4, 0x10, 0x11, 0x20, 0x21, 0x30, 0x31] →
      ∃ t : State, t = u.kprSend n bs ∧ (∀ i (h : i < bs.length), bufByte t (Reg.KPR_REQ 3) i = bs[i].toNat) ∧ t.kprBusy 3 = true ∧
      t.kprQp = n ∧ Near (fun o => o = Reg.KPR_CH 3 ∨ ∃ i, i < 128 ∧ o = Reg.KPR_REQ 3 i)
        { u with kprQp := n, out := u.out ++ [Msg.svcAck (0x10000 + n)] } t)) ∧
  (∀ (s : State) (n : Nat), s.regsWf = true → ∃ t : State, t = s.keyReject n ∧ raised Reg.SVC_STATUS Fld.SVC_STATUS_KEY_REJ Reg.SVC_KEY_REJ_CNT s t ∧
    Near (fun o => o = Reg.SVC_STATUS ∨ o = Reg.SVC_KEY_REJ_CNT) { s with out := s.out ++ [Msg.svcNak (0x10000 + n) 2] } t) ∧
  (∀ (s : State) (n : Fin 4096) (q : Qp) (psn : BitVec 24) (rkey : BitVec 32) (a : BitVec 64) (bs : List Byte) (ecn : Bool) (err : MemErr),
    s.liveQp n = some q → q.turn psn.toNat = 0 →
    (s.keyAccess rkey.toNat a.toNat bs.length true = none →
      (s.inLanding a.toNat bs.length = false ∨ bs = [] ∨ s.regionOk 1 a.toNat bs.length .fl = true →
        exec (.svcRdmaWriteRx n psn rkey a bs ecn err) s = .next (s.keyReject n)) ∧
      (s.inLanding a.toNat bs.length = true → bs ≠ [] → s.regionOk 1 a.toNat bs.length .fl = false →
        exec (.svcRdmaWriteRx n psn rkey a bs ecn err) s = .next (s.landError.keyReject n))) ∧
    (∀ k, s.keyAccess rkey.toNat a.toNat bs.length true = some k →
      (s.landsLater a.toNat = true → exec (.svcRdmaWriteRx n psn rkey a bs ecn err) s = .next s) ∧
      (s.landsLater a.toNat = false →
        (∀ h x v, (((s.received n q bs.length ecn).meet err k).spend 11 bs.length).write a.toNat bs = (some (h, x), v) → ∃ w : State,
          w = v.chargeMem h x k ∧
          exec (.svcRdmaWriteRx n psn rkey a bs ecn err) s = .next { w with out := w.out ++ [Msg.svcNak (0x10000 + n) 3] }) ∧
        (∀ v, (((s.received n q bs.length ecn).meet err k).spend 11 bs.length).write a.toNat bs = (none, v) →
          exec (.svcRdmaWriteRx n psn rkey a bs ecn err) s = .next { v with out := v.out ++ [Msg.svcAck (0x10000 + n)] })) ∧
      (s.commitPc = none → plainHbm s a.toNat bs.length →
        Completes (.svcRdmaWriteRx n psn rkey a bs false .none) s (fun t => storedAt a.toNat bs s t ∧ t.out = s.out ++ [Msg.svcAck (0x10000 + n)] ∧
          t.qp n = some { q with rpsn := (q.rpsn + q.packetsOf bs.length) % 2 ^ 24 } ∧
          Near (fun _ => False) { s with mem := t.mem, codeErr := t.codeErr, out := t.out, qps := t.qps } t)))) ∧
  (∀ (s : State) (rkey a n k : Nat) (w : Bool), k = rkey % 1024 → 0 < n →
    (s.keyAccess rkey a n w = some (s.keyTen k) ↔ rkey < 2 ^ 30 ∧ rkey / 1024 = s.keyGen k ∧ s.keyLen k ≠ 0 ∧ s.keyBase k ≤ a ∧
      a + n ≤ s.keyBase k + s.keyLen k ∧ s.fld (Reg.SVC_MKEY_LEN k) (if w then Fld.SVC_MKEY_LEN_WR else Fld.SVC_MKEY_LEN_RD) = 1 ∧
      s.regionOk (s.keyTen k) a n (if w then .fl else .rd) = true) ∧
    (s.keyAccess rkey a n w ≠ some (s.keyTen k) → s.keyAccess rkey a n w = none)) ∧
  (∀ (s u : State) (n : Fin 4096) (q : Qp) (psn : BitVec 24) (rkey : BitVec 32) (a : BitVec 64) (len : BitVec 32) (err : MemErr),
    s.liveQp n = some q → q.turn psn.toNat ≠ 1 →
    u = (if q.turn psn.toNat = 0 then { s with qps := s.qps.put n { q with rpsn := (q.rpsn + q.packetsOf len.toNat) % 2 ^ 24 } } else s) →
    (2 ^ 30 < len.toNat → exec (.svcRdmaReadRx n psn rkey a len err) s = .next { s with out := s.out ++ [Msg.svcNak (0x10000 + n) 1] }) ∧
    (len.toNat ≤ 2 ^ 30 → s.keyAccess rkey.toNat a.toNat len.toNat false = none →
      exec (.svcRdmaReadRx n psn rkey a len err) s = .next (s.keyReject n)) ∧
    (∀ k, len.toNat ≤ 2 ^ 30 → s.keyAccess rkey.toNat a.toNat len.toNat false = some k →
      (∀ bs v, ((u.meet err k).spend 11 len.toNat).readMem a.toNat len.toNat = (.ok bs, v) →
        exec (.svcRdmaReadRx n psn rkey a len err) s = .next { v with out := v.out ++ [Msg.svcReadData (0x10000 + n) bs] }) ∧
      (∀ h x v, ((u.meet err k).spend 11 len.toNat).readMem a.toNat len.toNat = (.detected h x, v) → ∃ w : State, w = v.chargeMem h x k ∧
        exec (.svcRdmaReadRx n psn rkey a len err) s = .next { w with out := w.out ++ [Msg.svcNak (0x10000 + n) 3] }) ∧
      (0 < len.toNat → s.place a.toNat = .hbm → s.badBursts a.toNat len.toNat = [] → Completes (.svcRdmaReadRx n psn rkey a len .none) s (fun t =>
        Near (fun _ => False) { u with out := s.out ++ [Msg.svcReadData (0x10000 + n) (s.bytes a.toNat len.toNat)] } t)))) ∧
  (∀ (s : State) (n : Fin 4096) (q : Qp) (bs : List Byte) (err : MemErr), s.liveQp n = some q → (∀ p ∈ q.posts, p.op ≠ 2) →
    exec (.svcReadResponseRx n bs err) s = .next s) ∧
  (∀ (s u : State) (n : Fin 4096) (q : Qp) (p : QpPost) (before rest : List QpPost) (bs l : List Byte) (err : MemErr), s.liveQp n = some q →
    q.posts = before ++ p :: rest → (∀ x ∈ before, x.op ≠ 2) → p.op = 2 → l = bs.take (p.bytes - p.moved) →
    u = { before.foldl (fun (v : State) x => v.cmdEnd x.ring x.cid 0 x.bytes) s with
      qps := s.qps.put n { q with posts := rest, tries := 0, rnrTries := 0 } } →
    (s.landsLater p.dpa = true → exec (.svcReadResponseRx n bs err) s = .next s) ∧
    (s.landsLater p.dpa = false →
      (p.ring = 64 → p.bytes ≤ p.moved + l.length → exec (.svcReadResponseRx n bs err) s = .next u) ∧
      (p.ring = 64 → p.moved + l.length < p.bytes → exec (.svcReadResponseRx n bs err) s = .next { u with
        qps := u.qps.put n { q with posts := { p with moved := p.moved + l.length } :: rest, tries := 0, rnrTries := 0 } }) ∧
      (p.ring ≠ 64 → l ≠ [] → s.regionOk q.tenant (p.dpa + p.moved) l.length .wr = false →
        exec (.svcReadResponseRx n bs err) s = .next (u.cmdEnd p.ring p.cid 3 p.moved)) ∧
      (p.ring ≠ 64 → l = [] ∨ s.regionOk q.tenant (p.dpa + p.moved) l.length .wr = true →
        (∀ h x v, ((u.meet err q.tenant).spend 11 l.length).write (p.dpa + p.moved) l = (some (h, x), v) →
          exec (.svcReadResponseRx n bs err) s = .next ((v.chargeMem h x q.tenant).cmdEnd p.ring p.cid 4 p.moved)) ∧
        (∀ v, ((u.meet err q.tenant).spend 11 l.length).write (p.dpa + p.moved) l = (none, v) →
          (p.bytes ≤ p.moved + l.length → exec (.svcReadResponseRx n bs err) s = .next (v.cmdEnd p.ring p.cid 0 p.bytes)) ∧
          (p.moved + l.length < p.bytes → exec (.svcReadResponseRx n bs err) s = .next { v with
            qps := v.qps.put n { q with posts := { p with moved := p.moved + l.length } :: rest, tries := 0, rnrTries := 0 } })) ∧
        (err = .none → plainHbm s (p.dpa + p.moved) l.length → Completes (.svcReadResponseRx n bs err) s (fun t =>
          storedAt (p.dpa + p.moved) l s t ∧
          Near (fun _ => False) { s with mem := t.mem, codeErr := t.codeErr, qps := t.qps, hostCmds := t.hostCmds } t))))) ∧
  (∀ (s : State) (n : Fin 4096) (q : Qp) (psn : BitVec 24), s.liveQp n = some q →
    (q.posts = [] → exec (.svcAckRx n psn) s = .next s) ∧
    (∀ l m, q.posts ≠ [] → ackPosts q.posts q.mtu psn.toNat = (l, m) → exec (.svcAckRx n psn) s =
      .next (l.foldl (fun (v : State) p => v.cmdEnd p.ring p.cid 0 p.bytes)
        { s with qps := s.qps.put n { q with posts := m, tries := 0, rnrTries := 0 } }))) ∧
  (∀ (posts : List QpPost) (mtu psn : Nat), ∃ k, (ackPosts posts mtu psn).1 = posts.take k ∧
    (∀ p ∈ posts.take k, p.op ≠ 2 ∧ p.packets ≤ p.acked psn) ∧ (posts.length ≤ k → (ackPosts posts mtu psn).2 = []) ∧
    (∀ p, posts[k]? = some p → p.op = 2 ∧ (ackPosts posts mtu psn).2 = posts.drop k ∨ p.op ≠ 2 ∧ p.acked psn < p.packets ∧
      (ackPosts posts mtu psn).2 = { p with moved := max p.moved (min p.bytes (p.acked psn * mtu)) } :: posts.drop (k + 1))) ∧
  (∀ (p : QpPost) (k : Nat), p.psn < 2 ^ 24 → k < 2 ^ 23 → p.acked ((p.psn + k) % 2 ^ 24) = k + 1 ∧ p.acked ((p.psn + 2 ^ 24 - 1 - k) % 2 ^ 24) = 0) ∧
  (∀ (s : State) (n : Fin 4096) (q : Qp) (p : QpPost) (c : HostCmd) (psn : BitVec 24), s.liveQp n = some q → q.posts = [p] → p.op < 2 →
    p.psn < 2 ^ 24 → 0 < p.packets → p.packets ≤ 2 ^ 23 → s.hostCmd p.ring p.cid = some c →
    psn.toNat = (p.psn + p.packets - 1) % 2 ^ 24 → Completes (.svcAckRx n psn) s (fun t => cmdEnded p.ring p.cid c 0 p.bytes s t ∧
      t.qp n = some { q with posts := [], tries := 0, rnrTries := 0 } ∧ t = { s with hostCmds := t.hostCmds, qps := t.qps })) ∧
  (∀ (s : State) (n : Fin 4096) (q : Qp), s.liveQp n = some q → (q.posts = [] → exec (.svcRetryTimeout n) s = .next s) ∧
    (∀ p rest, q.posts = p :: rest → (q.tries < q.retry → exec (.svcRetryTimeout n) s = .next { s with
        qps := s.qps.put n { q with tries := q.tries + 1 }, out := s.out ++ [Msg.svcAgain (0x10000 + n) ((p.psn + p.moved / q.mtu) % 2 ^ 24)] }) ∧
      (q.retry ≤ q.tries → exec (.svcRetryTimeout n) s = .next (s.qpError n q)))) ∧
  (∀ (s : State) (n : Fin 4096) (q : Qp) (psn : BitVec 24) (kind : NakKind), s.liveQp n = some q → ∃ u : State,
    (q.posts = [] ∨ (∃ p, q.posts.head? = some p ∧ p.acked ((psn.toNat + 2 ^ 24 - 1) % 2 ^ 24) = 0) → u = s) ∧
    (∀ p, q.posts.head? = some p → p.acked ((psn.toNat + 2 ^ 24 - 1) % 2 ^ 24) ≠ 0 → exec (.svcAckRx n (psn - 1)) s = .next u) ∧
    (∀ x, u.liveQp n = some x →
      exec (.svcNakRx n psn .sequence) s = exec (.svcRetryTimeout n) u ∧ exec (.svcNakRx n psn .fatal) s = .next (u.qpError n x) ∧
      (x.posts = [] → exec (.svcNakRx n psn .rnr) s = .next u) ∧
      (∀ p rest, x.posts = p :: rest →
        (x.rnr = 7 ∨ x.rnrTries < x.rnr → exec (.svcNakRx n psn .rnr) s = .next { u with
          qps := u.qps.put n { x with rnrTries := x.rnrTries + 1 }
          out := u.out ++ [Msg.svcAgain (0x10000 + n) ((p.psn + p.moved / x.mtu) % 2 ^ 24)] }) ∧
        (x.rnr ≠ 7 → x.rnr ≤ x.rnrTries → exec (.svcNakRx n psn .rnr) s = .next (u.qpError n x))))) ∧
  (∀ (s : State) (n : Nat) (q : Qp), s.regsWf = true → q.port < 2 → n < 4096 → ∃ u : State, u.qp n = some { q with error := true, posts := [] } ∧
    (∀ k, k ≠ n → u.qp k = s.qp k) ∧
    u.fld (Reg.SVC_QP_STAT n) Fld.SVC_QP_STAT_STATE = 2 ∧ raised (Reg.SVC_STATUS_P q.port) Fld.SVC_STATUS_P_QP_ERR (Reg.SVC_QP_ERR_CNT q.port) s u ∧
    Near (fun o => o = Reg.SVC_QP_STAT n ∨ o = Reg.SVC_STATUS_P q.port ∨ o = Reg.SVC_QP_ERR_CNT q.port) { s with qps := u.qps } u ∧
    s.qpError n q = q.posts.foldl (fun (v : State) p => v.cmdEnd p.ring p.cid 9 p.moved) u) ∧
  (∀ (s : State) (n : Fin 4096), s.regsWf = true → (s.qp n = none → Completes (.svcCnpRx n) s (fun t => counted Reg.SVC_CNP_RX_CNT 1 s t ∧
      Near (· = Reg.SVC_CNP_RX_CNT) s t)) ∧ (s.qp n = none → exec (.svcRateTimer n) s = .next s)) ∧
  (∀ (s : State) (n : Fin 4096) (q : Qp), s.regsWf = true → s.qp n = some q →
    ((∀ x, q.cutAt = some x → x + 50000 ≤ s.now) → Completes (.svcCnpRx n) s (fun t => counted Reg.SVC_CNP_RX_CNT 1 s t ∧
      t.qp n = some { q with rate := max (s.fld Reg.SVC_RC Fld.SVC_RC_MIN) (q.rate * s.fld Reg.SVC_RC Fld.SVC_RC_CUT / 256), adds := 0, cutAt := some s.now } ∧
      Near (· = Reg.SVC_CNP_RX_CNT) { s with qps := t.qps } t)) ∧
    ((∃ x, q.cutAt = some x ∧ s.now < x + 50000) → Completes (.svcCnpRx n) s (fun t => counted Reg.SVC_CNP_RX_CNT 1 s t ∧
      t.qp n = some { q with adds := 0 } ∧ Near (· = Reg.SVC_CNP_RX_CNT) { s with qps := t.qps } t)) ∧
    Completes (.svcRateTimer n) s (fun t => t.qp n = some { q with
      rate := min 800000 (q.rate + s.fld Reg.SVC_RC (if q.adds < 5 then Fld.SVC_RC_AI else Fld.SVC_RC_HAI)), adds := q.adds + 1 } ∧
      t = { s with qps := t.qps })) ∧
  (∀ (s : State) (p : Fin 2), s.regsWf = true → Completes (.svcPauseRx p) s (fun t =>
    raised (Reg.SVC_STATUS_P p) Fld.SVC_STATUS_P_PAUSE_DROP (Reg.SVC_PAUSE_DROP_CNT p) s t ∧
    Near (fun o => o = Reg.SVC_STATUS_P p ∨ o = Reg.SVC_PAUSE_DROP_CNT p) s t)) ∧
  (∀ (s : State) (p : Fin 2) (up : Bool), Completes (.svcLinkUpDown p up) s (fun t => t.fld (Reg.SVC_STATUS_P p) Fld.SVC_STATUS_P_LINK =
    (if up = true ∧ s.fld (Reg.SVC_CTL p) Fld.SVC_CTL_EN = 1 then 1 else 0) ∧ Near (· = Reg.SVC_STATUS_P p) s t))

/-! ### Numbers (spec/02_numerics_and_sterling.md) -/

/-- An MXINT8 element is an 8-bit two's complement integer n with value n × 2^−6, every code from −128 to 127 accepted; a conversion never
produces −128, whatever the values, the rounding and the draws (R41). -/
def Obligations.Mxint8Elements : Prop :=
  (∀ n : Int, -128 ≤ n → n ≤ 127 → ElemFmt.int8.value (n % 256).toNat = .fin ⟨n, 64⟩) ∧
  (∀ (vs : List Sys2Proof.Num) (mode : Round) (us : List Nat), ∀ code ∈ (encodeBlock .int8 vs mode us).2, code < 256 ∧ code ≠ 128)

/-- AQ48 addition: NaN with anything is NaN, +infinity with −infinity NaN, infinity with a finite value that infinity, finite operands add
exactly; the sum of up to 65,536 finite AQ32 values stays in the finite range of AQ48, is exact, and is the same in every order (R65). -/
def Obligations.Aq48Addition : Prop :=
  (∀ x : Sys2Proof.Num, aqAdd .nan x = .nan ∧ aqAdd x .nan = .nan) ∧ (∀ b, aqAdd (.inf b) (.inf (!b)) = .nan) ∧
  (∀ (b : Bool) (q : Frac), aqAdd (.inf b) (.fin q) = .inf b ∧ aqAdd (.fin q) (.inf b) = .inf b) ∧
  (∀ a b : Int, aqAdd (.fin ⟨a, 1⟩) (.fin ⟨b, 1⟩) = .fin ⟨a + b, 1⟩) ∧
  (∀ l p : List Int, l.length ≤ 65536 → (∀ q ∈ l, -(2 ^ 31 - 2) ≤ q ∧ q ≤ 2 ^ 31 - 2) → l.Perm p →
    (p.map (fun q => Sys2Proof.Num.fin ⟨q, 1⟩)).foldl aqAdd (.fin ⟨0, 1⟩) = .fin ⟨l.sum, 1⟩ ∧ -(2 ^ 47 - 2) ≤ l.sum ∧ l.sum ≤ 2 ^ 47 - 2 ∧
    aqValue 48 (aqCode 48 (.fin ⟨l.sum, 1⟩)) = .fin ⟨l.sum, 1⟩)
end

