-- ==== Sys2Proof/Laws/Tab.lean ====
section
/-!
SUPPORT. The sparse tables: what reading after a write gives, and that every operation keeps the canonical form.
-/
namespace Sys2Proof

variable {α : Type}

theorem Tab.get_put (d : α) (t : Tab α) (i : Nat) (x : α) (j : Nat) :
    Tab.get d (Tab.put t i x) j = if j = i then x else Tab.get d t j := by
  induction t with
  | nil => simp [Tab.put, Tab.get]
  | cons e rest ih =>
    obtain ⟨k, v⟩ := e
    simp only [Tab.put]
    split
    · subst_vars; simp only [Tab.get]; split <;> simp_all
    · split
      · simp only [Tab.get]
      · rename_i hik _
        simp only [Tab.get, ih]
        split
        · rename_i hj; subst hj; rw [if_neg (fun h => hik h.symm)]
        · rfl

/-- A lower bound that holds for a larger key holds below it. -/
theorem Tab.get_below (d : α) [DecidableEq α] (f : Nat → α) (t : Tab α) (lo i : Nat) (hw : Tab.wfFrom f (some lo) t = true)
    (hi : i ≤ lo) : Tab.get d t i = d := by
  induction t generalizing lo with
  | nil => rfl
  | cons e rest ih =>
    obtain ⟨k, v⟩ := e
    simp only [Tab.wfFrom, Bool.and_eq_true, decide_eq_true_eq] at hw
    have hne : i ≠ k := by omega
    simp only [Tab.get, hne, if_false]
    exact ih k hw.2 (by omega)

theorem Tab.wfFrom_none [DecidableEq α] (f : Nat → α) (lo : Option Nat) (t : Tab α) (hw : Tab.wfFrom f lo t = true) :
    Tab.wfFrom f none t = true := by
  cases t with
  | nil => rfl
  | cons e rest => simp_all [Tab.wfFrom]

theorem Tab.get_erase (d : α) (t : Tab α) (i j : Nat) : Tab.get d (Tab.erase t i) j = if j = i then d else Tab.get d t j := by
  induction t with
  | nil => simp [Tab.erase, Tab.get]
  | cons e rest ih =>
    obtain ⟨k, v⟩ := e
    simp only [Tab.erase]
    split
    · rename_i hk
      subst hk
      rw [ih]
      simp only [Tab.get]
      split <;> rfl
    · rename_i hik
      simp only [Tab.get, ih]
      by_cases hj : j = i
      · subst hj; simp [hik]
      · simp [hj]

/-- Reading any key after a write, whatever the form of the table. -/
theorem Tab.get_set [DecidableEq α] (d : α) (t : Tab α) (i : Nat) (x : α) (j : Nat) :
    Tab.get d (Tab.set d t i x) j = if j = i then x else Tab.get d t j := by
  unfold Tab.set
  split
  · rename_i hx; rw [Tab.get_erase d t i j, hx]
  · exact Tab.get_put d t i x j

/-- A write leaves every other key alone, whatever the form of the table. -/
theorem Tab.get_erase_ne (d : α) (t : Tab α) (i j : Nat) (h : j ≠ i) : Tab.get d (Tab.erase t i) j = Tab.get d t j := by
  induction t with
  | nil => rfl
  | cons e rest ih =>
    obtain ⟨k, v⟩ := e
    simp only [Tab.erase]
    split
    · subst_vars; rw [ih]; simp [Tab.get, h]
    · simp only [Tab.get, ih]

theorem Tab.get_set_ne [DecidableEq α] (d : α) (t : Tab α) (i : Nat) (x : α) (j : Nat) (h : j ≠ i) :
    Tab.get d (Tab.set d t i x) j = Tab.get d t j := by
  unfold Tab.set
  split
  · exact Tab.get_erase_ne d t i j h
  · rw [Tab.get_put]; simp [h]

theorem Tab.wfFrom_mono [DecidableEq α] (f : Nat → α) (t : Tab α) (a b : Nat) (hw : Tab.wfFrom f (some b) t = true) (h : a ≤ b) :
    Tab.wfFrom f (some a) t = true := by
  cases t with
  | nil => rfl
  | cons e rest =>
    simp only [Tab.wfFrom, Bool.and_eq_true, decide_eq_true_eq] at hw ⊢
    exact ⟨⟨by omega, hw.1.2⟩, hw.2⟩

theorem Tab.wfFrom_erase [DecidableEq α] (f : Nat → α) (t : Tab α) (lo : Option Nat) (i : Nat) (hw : Tab.wfFrom f lo t = true) :
    Tab.wfFrom f lo (Tab.erase t i) = true := by
  induction t generalizing lo with
  | nil => exact hw
  | cons e rest ih =>
    obtain ⟨k, v⟩ := e
    simp only [Tab.wfFrom, Bool.and_eq_true] at hw
    simp only [Tab.erase]
    split
    · have h := ih (some k) hw.2
      cases lo with
      | none => exact Tab.wfFrom_none f (some k) _ h
      | some l =>
        have h1 := hw.1.1
        simp only [decide_eq_true_eq] at h1
        exact Tab.wfFrom_mono f _ l k h (by omega)
    · simp only [Tab.wfFrom, Bool.and_eq_true]
      exact ⟨hw.1, ih (some k) hw.2⟩

theorem Tab.wfFrom_put [DecidableEq α] (f : Nat → α) (t : Tab α) (lo : Option Nat) (i : Nat) (x : α)
    (hw : Tab.wfFrom f lo t = true) (hx : x ≠ f i) (hlo : ∀ l, lo = some l → l < i) : Tab.wfFrom f lo (Tab.put t i x) = true := by
  induction t generalizing lo with
  | nil =>
    simp only [Tab.put, Tab.wfFrom, Bool.and_eq_true, decide_eq_true_eq]
    refine ⟨⟨?_, hx⟩, trivial⟩
    cases lo with
    | none => rfl
    | some l => simp only [decide_eq_true_eq]; exact hlo l rfl
  | cons e rest ih =>
    obtain ⟨k, v⟩ := e
    simp only [Tab.wfFrom, Bool.and_eq_true, decide_eq_true_eq] at hw
    simp only [Tab.put]
    split
    · rename_i hik; subst hik
      simp only [Tab.wfFrom, Bool.and_eq_true, decide_eq_true_eq]
      exact ⟨⟨hw.1.1, hx⟩, hw.2⟩
    · split
      · rename_i hlt
        simp only [Tab.wfFrom, Bool.and_eq_true, decide_eq_true_eq]
        refine ⟨⟨?_, hx⟩, ⟨hlt, hw.1.2⟩, hw.2⟩
        cases lo with
        | none => rfl
        | some l => simp only [decide_eq_true_eq]; exact hlo l rfl
      · simp only [Tab.wfFrom, Bool.and_eq_true, decide_eq_true_eq]
        refine ⟨hw.1, ih (some k) hw.2 ?_⟩
        intro l hl
        cases hl
        omega

/-- A write keeps the canonical form, when the table's default at the key is the one the form is stated for. -/
theorem Tab.wf_set [DecidableEq α] (f : Nat → α) (t : Tab α) (i : Nat) (x : α) (hw : Tab.wf f t = true) :
    Tab.wf f (Tab.set (f i) t i x) = true := by
  unfold Tab.set Tab.wf at *
  split
  · exact Tab.wfFrom_erase f t none i hw
  · rename_i hx; exact Tab.wfFrom_put f t none i x hw hx (by intro l hl; cases hl)

theorem Tab.wfFrom_filter [DecidableEq α] (f : Nat → α) (p : Nat × α → Bool) (t : Tab α) (lo : Option Nat)
    (hw : Tab.wfFrom f lo t = true) : Tab.wfFrom f lo (t.filter p : Tab α) = true := by
  induction t generalizing lo with
  | nil => exact hw
  | cons e rest ih =>
    obtain ⟨k, v⟩ := e
    simp only [Tab.wfFrom, Bool.and_eq_true] at hw
    rw [List.filter_cons]
    split
    · simp only [Tab.wfFrom, Bool.and_eq_true]; exact ⟨hw.1, ih (some k) hw.2⟩
    · have h := ih (some k) hw.2
      cases lo with
      | none => exact Tab.wfFrom_none f _ _ h
      | some l =>
        have h1 := hw.1.1
        simp only [decide_eq_true_eq] at h1
        exact Tab.wfFrom_mono f _ l k h (by omega)

/-- Removing entries keeps the canonical form. -/
theorem Tab.wf_filter [DecidableEq α] (f : Nat → α) (p : Nat × α → Bool) (t : Tab α) (hw : Tab.wf f t = true) :
    Tab.wf f (t.filter p : Tab α) = true := Tab.wfFrom_filter f p t none hw

end Sys2Proof
end

