-- ==== Sys2Proof/Laws/Kept.lean ====
section
/-!
SUPPORT. What every operation keeps: the queue of waiting commands, the canonical form of memory and registers, and the order in which
free values are taken. `Kept q n s`: the queue is `q`, both tables are canonical, at least `n` free values have been taken. The files
Laws/Kept<Module>.lean hold one lemma per operation; a statement about every command cites those and unfolds nothing.
-/
namespace Sys2Proof.Machine

structure Kept (q : List Instr) (n : Nat) (s : State) : Prop where
  pend : s.pending = q
  mem : s.memWf = true
  regs : s.regsWf = true
  free : n ≤ s.freeIx

/-- An outcome whose next state, if it is one, is kept. -/
structure OutKept (q : List Instr) (n : Nat) (o : Host.Outcome State Fault Refusal) : Prop where
  kept : ∀ t, o = .next t → Kept q n t

variable {q : List Instr} {n : Nat}

theorem OutKept.next {s : State} (h : Kept q n s) : OutKept q n (.next s) := by
  constructor; intro t ht; cases ht; exact h

/-- A state written out field by field. -/
theorem kept_mk {p m r x f3 f4 f5 f6 f7 f8 f9 f10 f11 f12 f13 f14 f15 f16 f17 f18 f19 f20 f21 f22 f23 f24 f25 f26 f27 f28 f29 f30 f31 f32 f33 f34 f35 f36 f37 f38 f39 f40 f41 f42 f43 f44 f45 f46 f47 f48 f49 f50 f51 f52 f53 f54 f55 f56 f57 f58 f59 f60 f61 f62} :
    Kept q n (State.mk p r m f3 f4 f5 f6 f7 f8 f9 f10 f11 f12 f13 f14 f15 f16 f17 f18 f19 f20 f21 f22 f23 f24 f25 f26 f27 f28 f29 f30 f31 f32 f33 f34 f35 f36 f37 f38 f39 f40 f41 f42 f43 f44 f45 f46 f47 f48 f49 f50 f51 f52 f53 f54 f55 f56 f57 f58 f59 f60 f61 f62 x) ↔
      (p = q ∧ Tab.wf (fun _ => (0 : Byte)) m = true ∧ Tab.wf regReset r = true ∧ n ≤ x) :=
  ⟨fun h => ⟨h.pend, h.mem, h.regs, h.free⟩, fun h => ⟨h.1, h.2.1, h.2.2.1, h.2.2.2⟩⟩

theorem Kept.conj {s : State} (h : Kept q n s) :
    s.pending = q ∧ Tab.wf (fun _ => (0 : Byte)) s.mem = true ∧ Tab.wf regReset s.regs = true ∧ n ≤ s.freeIx :=
  ⟨h.pend, h.mem, h.regs, h.free⟩

theorem Kept.upd {s : State} (h : Kept q n s) {f3 f4 f5 f6 f7 f8 f9 f10 f11 f12 f13 f14 f15 f16 f17 f18 f19 f20 f21 f22 f23 f24 f25 f26 f27 f28 f29 f30 f31 f32 f33 f34 f35 f36 f37 f38 f39 f40 f41 f42 f43 f44 f45 f46 f47 f48 f49 f50 f51 f52 f53 f54 f55 f56 f57 f58 f59 f60 f61 f62} :
    Kept q n (State.mk s.pending s.regs s.mem f3 f4 f5 f6 f7 f8 f9 f10 f11 f12 f13 f14 f15 f16 f17 f18 f19 f20 f21 f22 f23 f24 f25 f26 f27 f28 f29 f30 f31 f32 f33 f34 f35 f36 f37 f38 f39 f40 f41 f42 f43 f44 f45 f46 f47 f48 f49 f50 f51 f52 f53 f54 f55 f56 f57 f58 f59 f60 f61 f62 s.freeIx) :=
  ⟨h.pend, h.mem, h.regs, h.free⟩

/-- An update that also writes registers, memory or the count of free values. -/
theorem Kept.upd4 {s : State} (h : Kept q n s) {m r x} {f3 f4 f5 f6 f7 f8 f9 f10 f11 f12 f13 f14 f15 f16 f17 f18 f19 f20 f21 f22 f23 f24 f25 f26 f27 f28 f29 f30 f31 f32 f33 f34 f35 f36 f37 f38 f39 f40 f41 f42 f43 f44 f45 f46 f47 f48 f49 f50 f51 f52 f53 f54 f55 f56 f57 f58 f59 f60 f61 f62}
    (hm : Tab.wf (fun _ => (0 : Byte)) m = true) (hr : Tab.wf regReset r = true) (hx : s.freeIx ≤ x) :
    Kept q n (State.mk s.pending r m f3 f4 f5 f6 f7 f8 f9 f10 f11 f12 f13 f14 f15 f16 f17 f18 f19 f20 f21 f22 f23 f24 f25 f26 f27 f28 f29 f30 f31 f32 f33 f34 f35 f36 f37 f38 f39 f40 f41 f42 f43 f44 f45 f46 f47 f48 f49 f50 f51 f52 f53 f54 f55 f56 f57 f58 f59 f60 f61 f62 x) :=
  ⟨h.pend, hm, hr, Nat.le_trans h.free hx⟩

theorem Kept.cut {P : Prop} {x : State} (h : Kept q n x) (k : Kept q n x → P) : P := k h
theorem Kept.cut2 {α : Type} {P : Prop} {x : α × State} (h : Kept q n x.2) (k : Kept q n x.2 → P) : P := k h
theorem Kept.cutFn {α : Sort _} {P : Prop} {x : α → State} (h : ∀ a, Kept q n (x a)) (k : (∀ a, Kept q n (x a)) → P) : P := k h
theorem Kept.cutOp {P : Prop} {x : State → State} (h : ∀ s, Kept q n s → Kept q n (x s)) (k : (∀ s, Kept q n s → Kept q n (x s)) → P) :
    P := k h

theorem Kept.cutOp2 {β : Type} {P : Prop} {x : State → β → State} (h : ∀ s b, Kept q n s → Kept q n (x s b))
    (k : (∀ s b, Kept q n s → Kept q n (x s b)) → P) : P := k h

theorem Kept.ite {c : Prop} [Decidable c] {a b : State} (ha : Kept q n a) (hb : Kept q n b) : Kept q n (if c then a else b) := by
  split <;> assumption
theorem Kept.ite2 {α : Type} {c : Prop} [Decidable c] {a b : α × State} (ha : Kept q n a.2) (hb : Kept q n b.2) :
    Kept q n (if c then a else b).2 := by
  split <;> assumption
theorem OutKept.ite {c : Prop} [Decidable c] {a b : Host.Outcome State Fault Refusal} (ha : OutKept q n a) (hb : OutKept q n b) :
    OutKept q n (if c then a else b) := by
  split <;> assumption
theorem Kept.snd {α : Type} {x : α × State} {a : α} {s : State} (e : x = (a, s)) (h : Kept q n x.2) : Kept q n s := by
  rw [e] at h; exact h
theorem Kept.snd2 {α β : Type} {x : α × β × State} {a : α} {b : β} {s : State} (e : x = (a, b, s)) (h : Kept q n x.2.2) : Kept q n s := by
  rw [e] at h; exact h

/-- A loop whose body keeps the state keeps it. -/
theorem Kept.foldl {β : Type} {f : State → β → State} {l : List β} {s : State} (h : Kept q n s)
    (hf : ∀ s b, Kept q n s → Kept q n (f s b)) : Kept q n (l.foldl f s) := by
  induction l generalizing s with
  | nil => exact h
  | cons b l ih => exact ih (hf s b h)

theorem Kept.foldl2 {α β : Type} {f : α × State → β → α × State} {l : List β} {x : α × State} (h : Kept q n x.2)
    (hf : ∀ x b, Kept q n x.2 → Kept q n (f x b).2) : Kept q n (l.foldl f x).2 := by
  induction l generalizing x with
  | nil => exact h
  | cons b l ih => exact ih (hf x b h)

theorem Kept.foldl1 {α β : Type} {f : State × α → β → State × α} {l : List β} {x : State × α} (h : Kept q n x.1)
    (hf : ∀ x b, Kept q n x.1 → Kept q n (f x b).1) : Kept q n (l.foldl f x).1 := by
  induction l generalizing x with
  | nil => exact h
  | cons b l ih => exact ih (hf x b h)

theorem Kept.ite1 {α : Type} {c : Prop} [Decidable c] {a b : State × α} (ha : Kept q n a.1) (hb : Kept q n b.1) :
    Kept q n (if c then a else b).1 := by
  split <;> assumption

end Sys2Proof.Machine
end

