-- ==== Sys2Proof/Laws/KeptOps.lean ====
section
/-!
SUPPORT. What the operations of Machine/Ops.lean keep (see Laws/Kept.lean).
-/
namespace Sys2Proof
namespace Machine

variable {q : List Instr} {n : Nat}

theorem State.wr_kept {s : State} {off : Nat} {v : BitVec 64} (h_s : Kept q n s) : Kept q n (s.wr off v) := by
  delta State.wr
  exact Kept.upd4 h_s h_s.mem (Tab.wf_set regReset s.regs off v h_s.regs) (Nat.le_refl _)

theorem State.setFld_kept {s : State} {off : Nat} {f : Field} {n_ : Nat} (h_s : Kept q n s) : Kept q n (State.setFld s off f n_) := by
  delta State.setFld
  repeat' first
    | with_reducible assumption
    | (intro _; beta_reduce)
    | with_reducible apply OutKept.next
    | with_reducible refine Kept.snd (by assumption) ?_
    | with_reducible refine Kept.snd2 (by assumption) ?_
    | with_reducible apply State.wr_kept

theorem State.cntBy_kept {s : State} {off : Nat} {n_ : Nat} (h_s : Kept q n s) : Kept q n (State.cntBy s off n_) := by
  delta State.cntBy
  repeat' first
    | with_reducible assumption
    | (intro _; beta_reduce)
    | with_reducible apply OutKept.next
    | with_reducible refine Kept.snd (by assumption) ?_
    | with_reducible refine Kept.snd2 (by assumption) ?_
    | with_reducible apply State.setFld_kept

theorem State.cnt_kept {s : State} {off : Nat} (h_s : Kept q n s) : Kept q n (State.cnt s off) := by
  delta State.cnt
  repeat' first
    | with_reducible assumption
    | (intro _; beta_reduce)
    | with_reducible apply OutKept.next
    | with_reducible refine Kept.snd (by assumption) ?_
    | with_reducible refine Kept.snd2 (by assumption) ?_
    | with_reducible apply State.cntBy_kept

theorem State.event_kept {s : State} {stat : Nat} {f : Field} {ctr : Nat} (h_s : Kept q n s) : Kept q n (State.event s stat f ctr) := by
  delta State.event
  repeat' first
    | with_reducible assumption
    | (intro _; beta_reduce)
    | with_reducible apply OutKept.next
    | with_reducible refine Kept.snd (by assumption) ?_
    | with_reducible refine Kept.snd2 (by assumption) ?_
    | with_reducible apply State.cnt_kept
    | with_reducible apply State.setFld_kept

theorem State.countOne_kept {s : State} {sel : Nat} {cntr : Nat} {src : Nat} {filt : Nat} {n_ : Nat} (h_s : Kept q n s) : Kept q n (State.countOne s sel cntr src filt n_) := by
  delta State.countOne
  repeat' first
    | with_reducible assumption
    | (intro _; beta_reduce)
    | with_reducible apply OutKept.next
    | with_reducible refine Kept.snd (by assumption) ?_
    | with_reducible refine Kept.snd2 (by assumption) ?_
    | with_reducible apply State.setFld_kept
    | with_reducible apply Kept.ite

theorem State.bumpGlb_kept {s : State} {src : Nat} {filt : Nat} {n_ : Nat} (h_s : Kept q n s) : Kept q n (State.bumpGlb s src filt n_) := by
  delta State.bumpGlb
  repeat' first
    | with_reducible assumption
    | (intro _; beta_reduce)
    | with_reducible apply OutKept.next
    | with_reducible refine Kept.snd (by assumption) ?_
    | with_reducible refine Kept.snd2 (by assumption) ?_
    | with_reducible apply State.countOne_kept
    | with_reducible apply Kept.ite
    | with_reducible apply Kept.ite2
    | with_reducible apply OutKept.ite
    | with_reducible apply Kept.foldl

theorem State.bumpClu_kept {s : State} {c : Nat} {src : Nat} {filt : Nat} {n_ : Nat} (h_s : Kept q n s) : Kept q n (State.bumpClu s c src filt n_) := by
  delta State.bumpClu
  repeat' first
    | with_reducible assumption
    | (intro _; beta_reduce)
    | with_reducible apply OutKept.next
    | with_reducible refine Kept.snd (by assumption) ?_
    | with_reducible refine Kept.snd2 (by assumption) ?_
    | with_reducible apply State.countOne_kept
    | with_reducible apply Kept.ite
    | with_reducible apply Kept.ite2
    | with_reducible apply OutKept.ite
    | with_reducible apply Kept.foldl

theorem State.bumpPrt_kept {s : State} {p : Nat} {src : Nat} {filt : Nat} {n_ : Nat} (h_s : Kept q n s) : Kept q n (State.bumpPrt s p src filt n_) := by
  delta State.bumpPrt
  repeat' first
    | with_reducible assumption
    | (intro _; beta_reduce)
    | with_reducible apply OutKept.next
    | with_reducible refine Kept.snd (by assumption) ?_
    | with_reducible refine Kept.snd2 (by assumption) ?_
    | with_reducible apply State.countOne_kept
    | with_reducible apply Kept.ite
    | with_reducible apply Kept.ite2
    | with_reducible apply OutKept.ite
    | with_reducible apply Kept.foldl

theorem State.spendBy_kept {s : State} {t : Nat} {i : Nat} {n_ : Nat} (h_s : Kept q n s) : Kept q n (State.spendBy s t i n_) := by
  delta State.spendBy
  repeat' first
    | with_reducible assumption
    | (intro _; beta_reduce)
    | with_reducible apply OutKept.next
    | with_reducible refine Kept.snd (by assumption) ?_
    | with_reducible refine Kept.snd2 (by assumption) ?_
    | with_reducible apply Kept.ite
    | with_reducible apply Kept.ite2
    | with_reducible apply Kept.ite1
    | (extract_lets +onlyGivenNames x; refine Kept.cut (x := x) (q := q) (n := n) ?_ ?_; (on_goal 1 => subst x); (on_goal 2 => (intro hx; clear_value x)))
    | (extract_lets +onlyGivenNames x; refine Kept.cut2 (x := x) (q := q) (n := n) ?_ ?_; (on_goal 1 => subst x); (on_goal 2 => (intro hx; clear_value x)))
    | (extract_lets +onlyGivenNames x; refine Kept.cutOp (x := x) (q := q) (n := n) ?_ ?_; (on_goal 1 => subst x); (on_goal 2 => (intro hop; clear_value x)))
    | (extract_lets +onlyGivenNames x; refine Kept.cutOp2 (x := x) (q := q) (n := n) ?_ ?_; (on_goal 1 => subst x); (on_goal 2 => (intro hop; clear_value x)))
    | (extract_lets +onlyGivenNames x; refine Kept.cutFn (x := x) (q := q) (n := n) ?_ ?_; (on_goal 1 => subst x); (on_goal 2 => (intro hfn; clear_value x)))
    | (extract_lets +onlyGivenNames x; clear_value x)
    | (simp -zeta only [kept_mk]; with_reducible refine Kept.conj ?_)
    | dsimp only
    | split

theorem State.onBehalf_kept {s : State} {t : Nat} (h_s : Kept q n s) : Kept q n (State.onBehalf s t) := by
  delta State.onBehalf
  repeat' first
    | with_reducible assumption
    | (intro _; beta_reduce)
    | with_reducible apply OutKept.next
    | with_reducible refine Kept.snd (by assumption) ?_
    | with_reducible refine Kept.snd2 (by assumption) ?_
    | with_reducible apply Kept.ite
    | with_reducible apply Kept.ite2
    | with_reducible apply Kept.ite1
    | (extract_lets +onlyGivenNames x; refine Kept.cut (x := x) (q := q) (n := n) ?_ ?_; (on_goal 1 => subst x); (on_goal 2 => (intro hx; clear_value x)))
    | (extract_lets +onlyGivenNames x; refine Kept.cut2 (x := x) (q := q) (n := n) ?_ ?_; (on_goal 1 => subst x); (on_goal 2 => (intro hx; clear_value x)))
    | (extract_lets +onlyGivenNames x; refine Kept.cutOp (x := x) (q := q) (n := n) ?_ ?_; (on_goal 1 => subst x); (on_goal 2 => (intro hop; clear_value x)))
    | (extract_lets +onlyGivenNames x; refine Kept.cutOp2 (x := x) (q := q) (n := n) ?_ ?_; (on_goal 1 => subst x); (on_goal 2 => (intro hop; clear_value x)))
    | (extract_lets +onlyGivenNames x; refine Kept.cutFn (x := x) (q := q) (n := n) ?_ ?_; (on_goal 1 => subst x); (on_goal 2 => (intro hfn; clear_value x)))
    | (extract_lets +onlyGivenNames x; clear_value x)
    | (simp -zeta only [kept_mk]; with_reducible refine Kept.conj ?_)
    | dsimp only
    | split

theorem State.spend_kept {s : State} {i : Nat} {n_ : Nat} (h_s : Kept q n s) : Kept q n (State.spend s i n_) := by
  delta State.spend
  repeat' first
    | with_reducible assumption
    | (intro _; beta_reduce)
    | with_reducible apply OutKept.next
    | with_reducible refine Kept.snd (by assumption) ?_
    | with_reducible refine Kept.snd2 (by assumption) ?_
    | with_reducible apply State.spendBy_kept
    | with_reducible apply Kept.ite
    | with_reducible apply Kept.ite2
    | with_reducible apply Kept.ite1
    | (extract_lets +onlyGivenNames x; refine Kept.cut (x := x) (q := q) (n := n) ?_ ?_; (on_goal 1 => subst x); (on_goal 2 => (intro hx; clear_value x)))
    | (extract_lets +onlyGivenNames x; refine Kept.cut2 (x := x) (q := q) (n := n) ?_ ?_; (on_goal 1 => subst x); (on_goal 2 => (intro hx; clear_value x)))
    | (extract_lets +onlyGivenNames x; refine Kept.cutOp (x := x) (q := q) (n := n) ?_ ?_; (on_goal 1 => subst x); (on_goal 2 => (intro hop; clear_value x)))
    | (extract_lets +onlyGivenNames x; refine Kept.cutOp2 (x := x) (q := q) (n := n) ?_ ?_; (on_goal 1 => subst x); (on_goal 2 => (intro hop; clear_value x)))
    | (extract_lets +onlyGivenNames x; refine Kept.cutFn (x := x) (q := q) (n := n) ?_ ?_; (on_goal 1 => subst x); (on_goal 2 => (intro hfn; clear_value x)))
    | (extract_lets +onlyGivenNames x; clear_value x)
    | dsimp only
    | split

theorem State.setCl_kept {s : State} {c : Nat} {x : Cluster} (h_s : Kept q n s) : Kept q n (State.setCl s c x) := by
  delta State.setCl
  repeat' first
    | with_reducible assumption
    | (intro _; beta_reduce)
    | with_reducible apply OutKept.next
    | with_reducible refine Kept.snd (by assumption) ?_
    | with_reducible refine Kept.snd2 (by assumption) ?_
    | with_reducible apply Kept.ite
    | with_reducible apply Kept.ite2
    | with_reducible apply OutKept.ite
    | with_reducible apply Kept.foldl
    | with_reducible apply Kept.foldl2
    | with_reducible apply Kept.foldl1
    | with_reducible apply Kept.ite1
    | (simp -zeta only [kept_mk]; with_reducible refine Kept.conj ?_)

theorem State.modCl_kept {s : State} {c : Nat} {f : Cluster → Cluster} (h_s : Kept q n s) : Kept q n (State.modCl s c f) := by
  delta State.modCl
  repeat' first
    | with_reducible assumption
    | (intro _; beta_reduce)
    | with_reducible apply OutKept.next
    | with_reducible refine Kept.snd (by assumption) ?_
    | with_reducible refine Kept.snd2 (by assumption) ?_
    | with_reducible apply State.setCl_kept

theorem State.setRk_kept {s : State} {c : Nat} {r : Nat} {x : Rank} (h_s : Kept q n s) : Kept q n (State.setRk s c r x) := by
  delta State.setRk
  repeat' first
    | with_reducible assumption
    | (intro _; beta_reduce)
    | with_reducible apply OutKept.next
    | with_reducible refine Kept.snd (by assumption) ?_
    | with_reducible refine Kept.snd2 (by assumption) ?_
    | with_reducible apply Kept.ite
    | with_reducible apply Kept.ite2
    | with_reducible apply OutKept.ite
    | with_reducible apply Kept.foldl
    | with_reducible apply Kept.foldl2
    | with_reducible apply Kept.foldl1
    | with_reducible apply Kept.ite1
    | (simp -zeta only [kept_mk]; with_reducible refine Kept.conj ?_)

theorem State.say_kept {s : State} {m : Msg} (h_s : Kept q n s) : Kept q n (State.say s m) := by
  delta State.say
  repeat' first
    | with_reducible assumption
    | (intro _; beta_reduce)
    | with_reducible apply OutKept.next
    | with_reducible refine Kept.snd (by assumption) ?_
    | with_reducible refine Kept.snd2 (by assumption) ?_
    | with_reducible apply Kept.ite
    | with_reducible apply Kept.ite2
    | with_reducible apply OutKept.ite
    | with_reducible apply Kept.foldl
    | with_reducible apply Kept.foldl2
    | with_reducible apply Kept.foldl1
    | with_reducible apply Kept.ite1
    | (simp -zeta only [kept_mk]; with_reducible refine Kept.conj ?_)

theorem State.free_kept {s : State} (h_s : Kept q n s) : Kept q n s.free.2 :=
  Kept.upd4 h_s h_s.mem h_s.regs (Nat.le_succ _)

theorem State.healBurst_kept {s : State} {burst : Nat} (h_s : Kept q n s) : Kept q n (State.healBurst s burst) := by
  delta State.healBurst
  repeat' first
    | with_reducible assumption
    | (intro _; beta_reduce)
    | with_reducible apply OutKept.next
    | with_reducible refine Kept.snd (by assumption) ?_
    | with_reducible refine Kept.snd2 (by assumption) ?_
    | with_reducible apply Kept.ite
    | with_reducible apply Kept.ite2
    | with_reducible apply Kept.ite1
    | (extract_lets +onlyGivenNames x; refine Kept.cut (x := x) (q := q) (n := n) ?_ ?_; (on_goal 1 => subst x); (on_goal 2 => (intro hx; clear_value x)))
    | (extract_lets +onlyGivenNames x; refine Kept.cut2 (x := x) (q := q) (n := n) ?_ ?_; (on_goal 1 => subst x); (on_goal 2 => (intro hx; clear_value x)))
    | (extract_lets +onlyGivenNames x; refine Kept.cutOp (x := x) (q := q) (n := n) ?_ ?_; (on_goal 1 => subst x); (on_goal 2 => (intro hop; clear_value x)))
    | (extract_lets +onlyGivenNames x; refine Kept.cutOp2 (x := x) (q := q) (n := n) ?_ ?_; (on_goal 1 => subst x); (on_goal 2 => (intro hop; clear_value x)))
    | (extract_lets +onlyGivenNames x; refine Kept.cutFn (x := x) (q := q) (n := n) ?_ ?_; (on_goal 1 => subst x); (on_goal 2 => (intro hfn; clear_value x)))
    | (extract_lets +onlyGivenNames x; clear_value x)
    | (simp -zeta only [kept_mk]; with_reducible refine Kept.conj ?_)
    | dsimp only
    | split

theorem State.setRing_kept {s : State} {u : Nat} {r : Ring} (h_s : Kept q n s) : Kept q n (State.setRing s u r) := by
  delta State.setRing
  repeat' first
    | with_reducible assumption
    | (intro _; beta_reduce)
    | with_reducible apply OutKept.next
    | with_reducible refine Kept.snd (by assumption) ?_
    | with_reducible refine Kept.snd2 (by assumption) ?_
    | with_reducible apply Kept.ite
    | with_reducible apply Kept.ite2
    | with_reducible apply OutKept.ite
    | with_reducible apply Kept.foldl
    | with_reducible apply Kept.foldl2
    | with_reducible apply Kept.foldl1
    | with_reducible apply Kept.ite1
    | (simp -zeta only [kept_mk]; with_reducible refine Kept.conj ?_)

theorem State.ringLose_kept {s : State} {u : Nat} {tsc : BitVec 64} {cpos : BitVec 64} (h_s : Kept q n s) : Kept q n (State.ringLose s u tsc cpos) := by
  delta State.ringLose
  repeat' first
    | with_reducible assumption
    | (intro _; beta_reduce)
    | with_reducible apply OutKept.next
    | with_reducible refine Kept.snd (by assumption) ?_
    | with_reducible refine Kept.snd2 (by assumption) ?_
    | with_reducible apply State.bumpGlb_kept
    | with_reducible apply State.event_kept
    | with_reducible apply State.setFld_kept
    | with_reducible apply State.setRing_kept

theorem State.ringPut_kept {s : State} {rec : TraceRec} (h_s : Kept q n s) : Kept q n (State.ringPut s rec) := by
  delta State.ringPut
  repeat' first
    | with_reducible assumption
    | (intro _; beta_reduce)
    | with_reducible apply OutKept.next
    | with_reducible refine Kept.snd (by assumption) ?_
    | with_reducible refine Kept.snd2 (by assumption) ?_
    | with_reducible apply State.bumpClu_kept
    | with_reducible apply State.ringLose_kept
    | with_reducible apply State.setFld_kept
    | with_reducible apply State.setRing_kept
    | with_reducible apply Kept.ite
    | with_reducible apply Kept.ite2
    | with_reducible apply OutKept.ite
    | with_reducible apply Kept.foldl
    | with_reducible apply Kept.foldl2
    | with_reducible apply Kept.foldl1
    | with_reducible apply Kept.ite1
    | (extract_lets +onlyGivenNames x; refine Kept.cut (x := x) (q := q) (n := n) ?_ ?_; (on_goal 1 => subst x); (on_goal 2 => (intro hx; clear_value x)))
    | (extract_lets +onlyGivenNames x; refine Kept.cut2 (x := x) (q := q) (n := n) ?_ ?_; (on_goal 1 => subst x); (on_goal 2 => (intro hx; clear_value x)))
    | (extract_lets +onlyGivenNames x; refine Kept.cutOp (x := x) (q := q) (n := n) ?_ ?_; (on_goal 1 => subst x); (on_goal 2 => (intro hop; clear_value x)))
    | (extract_lets +onlyGivenNames x; refine Kept.cutOp2 (x := x) (q := q) (n := n) ?_ ?_; (on_goal 1 => subst x); (on_goal 2 => (intro hop; clear_value x)))
    | (extract_lets +onlyGivenNames x; refine Kept.cutFn (x := x) (q := q) (n := n) ?_ ?_; (on_goal 1 => subst x); (on_goal 2 => (intro hfn; clear_value x)))
    | (extract_lets +onlyGivenNames x; clear_value x)
    | dsimp only
    | split

theorem State.trace_kept {s : State} {u : Nat} {ev : Nat} {obj : Nat} {dur : Nat} {peer : BitVec 64} (h_s : Kept q n s) : Kept q n (State.trace s u ev obj dur peer) := by
  delta State.trace
  repeat' first
    | with_reducible assumption
    | (intro _; beta_reduce)
    | with_reducible apply OutKept.next
    | with_reducible refine Kept.snd (by assumption) ?_
    | with_reducible refine Kept.snd2 (by assumption) ?_
    | with_reducible apply State.event_kept
    | with_reducible apply State.ringPut_kept

theorem State.triggerRing_kept {s : State} {u : Nat} {source : Nat} (h_s : Kept q n s) : Kept q n (State.triggerRing s u source) := by
  delta State.triggerRing
  repeat' first
    | with_reducible assumption
    | (intro _; beta_reduce)
    | with_reducible apply OutKept.next
    | with_reducible refine Kept.snd (by assumption) ?_
    | with_reducible refine Kept.snd2 (by assumption) ?_
    | with_reducible apply State.setFld_kept
    | with_reducible apply State.setRing_kept
    | with_reducible apply State.trace_kept
    | with_reducible apply Kept.ite

theorem State.trigger_kept {s : State} {u : Nat} {source : Nat} (h_s : Kept q n s) : Kept q n (State.trigger s u source) := by
  delta State.trigger
  repeat' first
    | with_reducible assumption
    | (intro _; beta_reduce)
    | with_reducible apply OutKept.next
    | with_reducible refine Kept.snd (by assumption) ?_
    | with_reducible refine Kept.snd2 (by assumption) ?_
    | with_reducible apply State.event_kept
    | with_reducible apply State.triggerRing_kept
    | with_reducible apply Kept.ite
    | with_reducible apply Kept.ite2
    | with_reducible apply OutKept.ite
    | with_reducible apply Kept.foldl

theorem State.evq_kept {s : State} {t : Nat} {type : Nat} {cluster : Nat} {info : Nat} (h_s : Kept q n s) : Kept q n (State.evq s t type cluster info) := by
  delta State.evq
  repeat' first
    | with_reducible assumption
    | (intro _; beta_reduce)
    | with_reducible apply OutKept.next
    | with_reducible refine Kept.snd (by assumption) ?_
    | with_reducible refine Kept.snd2 (by assumption) ?_
    | with_reducible apply State.event_kept
    | with_reducible apply State.say_kept
    | with_reducible apply State.setFld_kept
    | with_reducible apply Kept.ite
    | with_reducible apply Kept.ite2
    | with_reducible apply OutKept.ite
    | with_reducible apply Kept.foldl
    | with_reducible apply Kept.foldl2
    | with_reducible apply Kept.foldl1
    | with_reducible apply Kept.ite1
    | (extract_lets +onlyGivenNames x; refine Kept.cut (x := x) (q := q) (n := n) ?_ ?_; (on_goal 1 => subst x); (on_goal 2 => (intro hx; clear_value x)))
    | (extract_lets +onlyGivenNames x; refine Kept.cut2 (x := x) (q := q) (n := n) ?_ ?_; (on_goal 1 => subst x); (on_goal 2 => (intro hx; clear_value x)))
    | (extract_lets +onlyGivenNames x; refine Kept.cutOp (x := x) (q := q) (n := n) ?_ ?_; (on_goal 1 => subst x); (on_goal 2 => (intro hop; clear_value x)))
    | (extract_lets +onlyGivenNames x; refine Kept.cutOp2 (x := x) (q := q) (n := n) ?_ ?_; (on_goal 1 => subst x); (on_goal 2 => (intro hop; clear_value x)))
    | (extract_lets +onlyGivenNames x; refine Kept.cutFn (x := x) (q := q) (n := n) ?_ ?_; (on_goal 1 => subst x); (on_goal 2 => (intro hfn; clear_value x)))
    | (extract_lets +onlyGivenNames x; clear_value x)
    | (simp -zeta only [kept_mk]; with_reducible refine Kept.conj ?_)
    | dsimp only
    | split

theorem State.tellKeeper_kept {s : State} {code : Nat} {a : Nat} {b : Nat} (h_s : Kept q n s) : Kept q n (State.tellKeeper s code a b) := by
  delta State.tellKeeper
  repeat' first
    | with_reducible assumption
    | (intro _; beta_reduce)
    | with_reducible apply OutKept.next
    | with_reducible refine Kept.snd (by assumption) ?_
    | with_reducible refine Kept.snd2 (by assumption) ?_
    | with_reducible apply State.say_kept

theorem State.setUnit_kept {s : State} {u : Nat} {r : UnitRec} (h_s : Kept q n s) : Kept q n (State.setUnit s u r) := by
  delta State.setUnit
  repeat' first
    | with_reducible assumption
    | (intro _; beta_reduce)
    | with_reducible apply OutKept.next
    | with_reducible refine Kept.snd (by assumption) ?_
    | with_reducible refine Kept.snd2 (by assumption) ?_
    | with_reducible apply Kept.ite
    | with_reducible apply Kept.ite2
    | with_reducible apply OutKept.ite
    | with_reducible apply Kept.foldl
    | with_reducible apply Kept.foldl2
    | with_reducible apply Kept.foldl1
    | with_reducible apply Kept.ite1
    | (simp -zeta only [kept_mk]; with_reducible refine Kept.conj ?_)

theorem State.hbmDetect_kept {s : State} {dpa : Nat} (h_s : Kept q n s) : Kept q n (State.hbmDetect s dpa) := by
  delta State.hbmDetect
  repeat' first
    | with_reducible assumption
    | (intro _; beta_reduce)
    | with_reducible apply OutKept.next
    | with_reducible refine Kept.snd (by assumption) ?_
    | with_reducible refine Kept.snd2 (by assumption) ?_
    | with_reducible apply State.bumpGlb_kept
    | with_reducible apply State.event_kept
    | with_reducible apply State.wr_kept
    | with_reducible apply Kept.ite

theorem State.countBursts_kept {s : State} {src : Nat} {a : Nat} {n_ : Nat} (h_s : Kept q n s) : Kept q n (State.countBursts s src a n_) := by
  delta State.countBursts
  repeat' first
    | with_reducible assumption
    | (intro _; beta_reduce)
    | with_reducible apply OutKept.next
    | with_reducible refine Kept.snd (by assumption) ?_
    | with_reducible refine Kept.snd2 (by assumption) ?_
    | with_reducible apply State.bumpGlb_kept
    | with_reducible apply Kept.ite
    | with_reducible apply Kept.ite2
    | with_reducible apply Kept.foldl
    | with_reducible apply Kept.foldl2
    | with_reducible apply Kept.foldl1
    | with_reducible apply Kept.ite1
    | (extract_lets +onlyGivenNames x; refine Kept.cut (x := x) (q := q) (n := n) ?_ ?_; (on_goal 1 => subst x); (on_goal 2 => (intro hx; clear_value x)))
    | (extract_lets +onlyGivenNames x; refine Kept.cut2 (x := x) (q := q) (n := n) ?_ ?_; (on_goal 1 => subst x); (on_goal 2 => (intro hx; clear_value x)))
    | (extract_lets +onlyGivenNames x; refine Kept.cutOp (x := x) (q := q) (n := n) ?_ ?_; (on_goal 1 => subst x); (on_goal 2 => (intro hop; clear_value x)))
    | (extract_lets +onlyGivenNames x; refine Kept.cutOp2 (x := x) (q := q) (n := n) ?_ ?_; (on_goal 1 => subst x); (on_goal 2 => (intro hop; clear_value x)))
    | (extract_lets +onlyGivenNames x; refine Kept.cutFn (x := x) (q := q) (n := n) ?_ ?_; (on_goal 1 => subst x); (on_goal 2 => (intro hfn; clear_value x)))
    | (extract_lets +onlyGivenNames x; clear_value x)
    | dsimp only
    | split

theorem State.poke_kept {bs : List Byte} {s : State} {a : Nat} (h_s : Kept q n s) : Kept q n (s.poke a bs) := by
  induction bs generalizing s a with
  | nil => exact h_s
  | cons b rest ih =>
    exact ih (Kept.upd4 h_s (Tab.wf_set (fun _ => (0 : Byte)) s.mem a b h_s.mem) h_s.regs (Nat.le_refl _))

theorem State.pokeNat_kept {s : State} {a : Nat} {n_ : Nat} {v : Nat} (h_s : Kept q n s) : Kept q n (State.pokeNat s a n_ v) := by
  delta State.pokeNat
  repeat' first
    | with_reducible assumption
    | (intro _; beta_reduce)
    | with_reducible apply OutKept.next
    | with_reducible refine Kept.snd (by assumption) ?_
    | with_reducible refine Kept.snd2 (by assumption) ?_
    | with_reducible apply State.poke_kept

theorem State.skipFree_kept {s : State} {n_ : Nat} (h_s : Kept q n s) : Kept q n (State.skipFree s n_) :=
  Kept.upd4 h_s h_s.mem h_s.regs (Nat.le_add_right _ _)

theorem State.readMem_kept {s : State} {a : Nat} {n_ : Nat} (h_s : Kept q n s) : Kept q n (State.readMem s a n_).2 := by
  delta State.readMem
  repeat' first
    | with_reducible assumption
    | (intro _; beta_reduce)
    | with_reducible apply OutKept.next
    | with_reducible refine Kept.snd (by assumption) ?_
    | with_reducible refine Kept.snd2 (by assumption) ?_
    | with_reducible apply State.bumpClu_kept
    | with_reducible apply State.countBursts_kept
    | with_reducible apply State.hbmDetect_kept
    | with_reducible apply State.skipFree_kept
    | with_reducible apply State.spend_kept
    | with_reducible apply Kept.ite
    | with_reducible apply Kept.ite2
    | with_reducible apply Kept.foldl
    | with_reducible apply Kept.foldl2
    | with_reducible apply Kept.foldl1
    | with_reducible apply Kept.ite1
    | (extract_lets +onlyGivenNames x; refine Kept.cut (x := x) (q := q) (n := n) ?_ ?_; (on_goal 1 => subst x); (on_goal 2 => (intro hx; clear_value x)))
    | (extract_lets +onlyGivenNames x; refine Kept.cut2 (x := x) (q := q) (n := n) ?_ ?_; (on_goal 1 => subst x); (on_goal 2 => (intro hx; clear_value x)))
    | (extract_lets +onlyGivenNames x; refine Kept.cutOp (x := x) (q := q) (n := n) ?_ ?_; (on_goal 1 => subst x); (on_goal 2 => (intro hop; clear_value x)))
    | (extract_lets +onlyGivenNames x; refine Kept.cutOp2 (x := x) (q := q) (n := n) ?_ ?_; (on_goal 1 => subst x); (on_goal 2 => (intro hop; clear_value x)))
    | (extract_lets +onlyGivenNames x; refine Kept.cutFn (x := x) (q := q) (n := n) ?_ ?_; (on_goal 1 => subst x); (on_goal 2 => (intro hfn; clear_value x)))
    | (extract_lets +onlyGivenNames x; clear_value x)
    | (simp -zeta only [kept_mk]; with_reducible refine Kept.conj ?_)
    | dsimp only
    | split

theorem State.writeBurst_kept {s : State} {a : Nat} {bs : List Byte} (h_s : Kept q n s) : Kept q n (State.writeBurst s a bs).2 := by
  delta State.writeBurst
  repeat' first
    | with_reducible assumption
    | (intro _; beta_reduce)
    | with_reducible apply OutKept.next
    | with_reducible refine Kept.snd (by assumption) ?_
    | with_reducible refine Kept.snd2 (by assumption) ?_
    | with_reducible apply State.cnt_kept
    | with_reducible apply State.hbmDetect_kept
    | with_reducible apply State.healBurst_kept
    | with_reducible apply State.poke_kept
    | with_reducible apply Kept.ite
    | with_reducible apply Kept.ite2
    | with_reducible apply Kept.ite1
    | (extract_lets +onlyGivenNames x; refine Kept.cut (x := x) (q := q) (n := n) ?_ ?_; (on_goal 1 => subst x); (on_goal 2 => (intro hx; clear_value x)))
    | (extract_lets +onlyGivenNames x; refine Kept.cut2 (x := x) (q := q) (n := n) ?_ ?_; (on_goal 1 => subst x); (on_goal 2 => (intro hx; clear_value x)))
    | (extract_lets +onlyGivenNames x; refine Kept.cutOp (x := x) (q := q) (n := n) ?_ ?_; (on_goal 1 => subst x); (on_goal 2 => (intro hop; clear_value x)))
    | (extract_lets +onlyGivenNames x; refine Kept.cutOp2 (x := x) (q := q) (n := n) ?_ ?_; (on_goal 1 => subst x); (on_goal 2 => (intro hop; clear_value x)))
    | (extract_lets +onlyGivenNames x; refine Kept.cutFn (x := x) (q := q) (n := n) ?_ ?_; (on_goal 1 => subst x); (on_goal 2 => (intro hfn; clear_value x)))
    | (extract_lets +onlyGivenNames x; clear_value x)
    | dsimp only
    | split

theorem State.writeStage_kept {s : State} {c : Nat} {a : Nat} {bs : List Byte} (h_s : Kept q n s) : Kept q n (State.writeStage s c a bs).2 := by
  delta State.writeStage
  repeat' first
    | with_reducible assumption
    | (intro _; beta_reduce)
    | with_reducible apply OutKept.next
    | with_reducible refine Kept.snd (by assumption) ?_
    | with_reducible refine Kept.snd2 (by assumption) ?_
    | with_reducible apply State.bumpClu_kept
    | with_reducible apply State.modCl_kept
    | with_reducible apply State.poke_kept
    | with_reducible apply State.spend_kept
    | with_reducible apply Kept.ite
    | with_reducible apply Kept.ite2
    | with_reducible apply Kept.foldl
    | with_reducible apply Kept.foldl2
    | with_reducible apply Kept.foldl1
    | with_reducible apply Kept.ite1
    | (extract_lets +onlyGivenNames x; refine Kept.cut (x := x) (q := q) (n := n) ?_ ?_; (on_goal 1 => subst x); (on_goal 2 => (intro hx; clear_value x)))
    | (extract_lets +onlyGivenNames x; refine Kept.cut2 (x := x) (q := q) (n := n) ?_ ?_; (on_goal 1 => subst x); (on_goal 2 => (intro hx; clear_value x)))
    | (extract_lets +onlyGivenNames x; refine Kept.cutOp (x := x) (q := q) (n := n) ?_ ?_; (on_goal 1 => subst x); (on_goal 2 => (intro hop; clear_value x)))
    | (extract_lets +onlyGivenNames x; refine Kept.cutOp2 (x := x) (q := q) (n := n) ?_ ?_; (on_goal 1 => subst x); (on_goal 2 => (intro hop; clear_value x)))
    | (extract_lets +onlyGivenNames x; refine Kept.cutFn (x := x) (q := q) (n := n) ?_ ?_; (on_goal 1 => subst x); (on_goal 2 => (intro hfn; clear_value x)))
    | (extract_lets +onlyGivenNames x; clear_value x)
    | (simp -zeta only [kept_mk]; with_reducible refine Kept.conj ?_)
    | dsimp only
    | split

theorem State.writeMem_kept {s : State} {a : Nat} {bs : List Byte} (h_s : Kept q n s) : Kept q n (State.writeMem s a bs).2 := by
  delta State.writeMem
  repeat' first
    | with_reducible assumption
    | (intro _; beta_reduce)
    | with_reducible apply OutKept.next
    | with_reducible refine Kept.snd (by assumption) ?_
    | with_reducible refine Kept.snd2 (by assumption) ?_
    | with_reducible apply State.countBursts_kept
    | with_reducible apply State.say_kept
    | with_reducible apply State.spend_kept
    | with_reducible apply State.writeBurst_kept
    | with_reducible apply State.writeStage_kept
    | with_reducible apply Kept.ite
    | with_reducible apply Kept.ite2
    | with_reducible apply Kept.foldl
    | with_reducible apply Kept.foldl2
    | with_reducible apply Kept.foldl1
    | with_reducible apply Kept.ite1
    | (extract_lets +onlyGivenNames x; refine Kept.cut (x := x) (q := q) (n := n) ?_ ?_; (on_goal 1 => subst x); (on_goal 2 => (intro hx; clear_value x)))
    | (extract_lets +onlyGivenNames x; refine Kept.cut2 (x := x) (q := q) (n := n) ?_ ?_; (on_goal 1 => subst x); (on_goal 2 => (intro hx; clear_value x)))
    | (extract_lets +onlyGivenNames x; refine Kept.cutOp (x := x) (q := q) (n := n) ?_ ?_; (on_goal 1 => subst x); (on_goal 2 => (intro hop; clear_value x)))
    | (extract_lets +onlyGivenNames x; refine Kept.cutOp2 (x := x) (q := q) (n := n) ?_ ?_; (on_goal 1 => subst x); (on_goal 2 => (intro hop; clear_value x)))
    | (extract_lets +onlyGivenNames x; refine Kept.cutFn (x := x) (q := q) (n := n) ?_ ?_; (on_goal 1 => subst x); (on_goal 2 => (intro hfn; clear_value x)))
    | (extract_lets +onlyGivenNames x; clear_value x)
    | (simp -zeta only [kept_mk]; with_reducible refine Kept.conj ?_)
    | dsimp only
    | split

theorem State.strike_kept {s : State} {e : MemErr} (h_s : Kept q n s) : Kept q n (s.strike e) := by
  cases e with
  | none => exact h_s
  | hbm dpa data code => exact Kept.upd (State.poke_kept h_s)
  | stage dpa bits again =>
    exact Kept.ite (State.poke_kept h_s) (Kept.ite (Kept.upd (State.poke_kept h_s)) (Kept.upd (State.poke_kept h_s)))

theorem State.setSeqState_kept {s : State} {c : Nat} {v : Nat} (h_s : Kept q n s) : Kept q n (State.setSeqState s c v) := by
  delta State.setSeqState
  repeat' first
    | with_reducible assumption
    | (intro _; beta_reduce)
    | with_reducible apply OutKept.next
    | with_reducible refine Kept.snd (by assumption) ?_
    | with_reducible refine Kept.snd2 (by assumption) ?_
    | with_reducible apply State.setFld_kept

end Machine
end Sys2Proof
end

