-- ==== Sys2Proof/Laws/KeptFabric.lean ====
section
/-!
SUPPORT. What the operations of Machine/Fabric.lean keep (see Laws/Kept.lean).
-/
namespace Sys2Proof
namespace Machine

variable {q : List Instr} {n : Nat}

theorem State.inject_kept {s : State} {p : Packet} (h_s : Kept q n s) : Kept q n (State.inject s p) := by
  delta State.inject
  repeat' first
    | with_reducible assumption
    | (intro _; beta_reduce)
    | with_reducible apply OutKept.next
    | with_reducible refine Kept.snd (by assumption) ?_
    | with_reducible refine Kept.snd2 (by assumption) ?_
    | with_reducible apply Kept.ite
    | with_reducible apply Kept.ite2
    | with_reducible apply OutKept.ite
    | with_reducible apply Kept.foldl
    | with_reducible apply Kept.foldl2
    | with_reducible apply Kept.foldl1
    | with_reducible apply Kept.ite1
    | (extract_lets +onlyGivenNames x; refine Kept.cut (x := x) (q := q) (n := n) ?_ ?_; (on_goal 1 => subst x); (on_goal 2 => (intro hx; clear_value x)))
    | (extract_lets +onlyGivenNames x; refine Kept.cut2 (x := x) (q := q) (n := n) ?_ ?_; (on_goal 1 => subst x); (on_goal 2 => (intro hx; clear_value x)))
    | (extract_lets +onlyGivenNames x; refine Kept.cutOp (x := x) (q := q) (n := n) ?_ ?_; (on_goal 1 => subst x); (on_goal 2 => (intro hop; clear_value x)))
    | (extract_lets +onlyGivenNames x; refine Kept.cutOp2 (x := x) (q := q) (n := n) ?_ ?_; (on_goal 1 => subst x); (on_goal 2 => (intro hop; clear_value x)))
    | (extract_lets +onlyGivenNames x; refine Kept.cutFn (x := x) (q := q) (n := n) ?_ ?_; (on_goal 1 => subst x); (on_goal 2 => (intro hfn; clear_value x)))
    | (extract_lets +onlyGivenNames x; clear_value x)
    | (simp -zeta only [kept_mk]; with_reducible refine Kept.conj ?_)

theorem State.enqueue_kept {s : State} {q_ : RPkt} {port : Nat} {ch : Nat} (h_s : Kept q n s) : Kept q n (State.enqueue s q_ port ch) := by
  delta State.enqueue
  repeat' first
    | with_reducible assumption
    | (intro _; beta_reduce)
    | with_reducible apply OutKept.next
    | with_reducible refine Kept.snd (by assumption) ?_
    | with_reducible refine Kept.snd2 (by assumption) ?_
    | with_reducible apply State.spendBy_kept
    | with_reducible apply Kept.ite
    | with_reducible apply Kept.ite2
    | with_reducible apply Kept.ite1
    | (extract_lets +onlyGivenNames x; refine Kept.cut (x := x) (q := q) (n := n) ?_ ?_; (on_goal 1 => subst x); (on_goal 2 => (intro hx; clear_value x)))
    | (extract_lets +onlyGivenNames x; refine Kept.cut2 (x := x) (q := q) (n := n) ?_ ?_; (on_goal 1 => subst x); (on_goal 2 => (intro hx; clear_value x)))
    | (extract_lets +onlyGivenNames x; refine Kept.cutOp (x := x) (q := q) (n := n) ?_ ?_; (on_goal 1 => subst x); (on_goal 2 => (intro hop; clear_value x)))
    | (extract_lets +onlyGivenNames x; refine Kept.cutOp2 (x := x) (q := q) (n := n) ?_ ?_; (on_goal 1 => subst x); (on_goal 2 => (intro hop; clear_value x)))
    | (extract_lets +onlyGivenNames x; refine Kept.cutFn (x := x) (q := q) (n := n) ?_ ?_; (on_goal 1 => subst x); (on_goal 2 => (intro hfn; clear_value x)))
    | (extract_lets +onlyGivenNames x; clear_value x)
    | (simp -zeta only [kept_mk]; with_reducible refine Kept.conj ?_)
    | dsimp only
    | split

theorem State.deliver_kept {s : State} {q_ : RPkt} (h_s : Kept q n s) : Kept q n (State.deliver s q_) := by
  delta State.deliver
  repeat' first
    | with_reducible assumption
    | (intro _; beta_reduce)
    | with_reducible apply OutKept.next
    | with_reducible refine Kept.snd (by assumption) ?_
    | with_reducible refine Kept.snd2 (by assumption) ?_
    | with_reducible apply State.spendBy_kept
    | with_reducible apply Kept.ite
    | with_reducible apply Kept.ite2
    | with_reducible apply Kept.ite1
    | (extract_lets +onlyGivenNames x; refine Kept.cut (x := x) (q := q) (n := n) ?_ ?_; (on_goal 1 => subst x); (on_goal 2 => (intro hx; clear_value x)))
    | (extract_lets +onlyGivenNames x; refine Kept.cut2 (x := x) (q := q) (n := n) ?_ ?_; (on_goal 1 => subst x); (on_goal 2 => (intro hx; clear_value x)))
    | (extract_lets +onlyGivenNames x; refine Kept.cutOp (x := x) (q := q) (n := n) ?_ ?_; (on_goal 1 => subst x); (on_goal 2 => (intro hop; clear_value x)))
    | (extract_lets +onlyGivenNames x; refine Kept.cutOp2 (x := x) (q := q) (n := n) ?_ ?_; (on_goal 1 => subst x); (on_goal 2 => (intro hop; clear_value x)))
    | (extract_lets +onlyGivenNames x; refine Kept.cutFn (x := x) (q := q) (n := n) ?_ ?_; (on_goal 1 => subst x); (on_goal 2 => (intro hfn; clear_value x)))
    | (extract_lets +onlyGivenNames x; clear_value x)
    | (simp -zeta only [kept_mk]; with_reducible refine Kept.conj ?_)
    | dsimp only
    | split

theorem State.dropPkt_kept {s : State} {q_ : RPkt} (h_s : Kept q n s) : Kept q n (State.dropPkt s q_) := by
  delta State.dropPkt
  repeat' first
    | with_reducible assumption
    | (intro _; beta_reduce)
    | with_reducible apply OutKept.next
    | with_reducible refine Kept.snd (by assumption) ?_
    | with_reducible refine Kept.snd2 (by assumption) ?_
    | with_reducible apply Kept.ite
    | with_reducible apply Kept.ite2
    | with_reducible apply OutKept.ite
    | with_reducible apply Kept.foldl
    | with_reducible apply Kept.foldl2
    | with_reducible apply Kept.foldl1
    | with_reducible apply Kept.ite1
    | (simp -zeta only [kept_mk]; with_reducible refine Kept.conj ?_)

theorem State.take_kept {s : State} {p : Packet} (h_s : Kept q n s) : Kept q n (State.take s p) := by
  delta State.take
  repeat' first
    | with_reducible assumption
    | (intro _; beta_reduce)
    | with_reducible apply OutKept.next
    | with_reducible refine Kept.snd (by assumption) ?_
    | with_reducible refine Kept.snd2 (by assumption) ?_
    | with_reducible apply Kept.ite
    | with_reducible apply Kept.ite2
    | with_reducible apply OutKept.ite
    | with_reducible apply Kept.foldl
    | with_reducible apply Kept.foldl2
    | with_reducible apply Kept.foldl1
    | with_reducible apply Kept.ite1
    | (extract_lets +onlyGivenNames x; refine Kept.cut (x := x) (q := q) (n := n) ?_ ?_; (on_goal 1 => subst x); (on_goal 2 => (intro hx; clear_value x)))
    | (extract_lets +onlyGivenNames x; refine Kept.cut2 (x := x) (q := q) (n := n) ?_ ?_; (on_goal 1 => subst x); (on_goal 2 => (intro hx; clear_value x)))
    | (extract_lets +onlyGivenNames x; refine Kept.cutOp (x := x) (q := q) (n := n) ?_ ?_; (on_goal 1 => subst x); (on_goal 2 => (intro hop; clear_value x)))
    | (extract_lets +onlyGivenNames x; refine Kept.cutOp2 (x := x) (q := q) (n := n) ?_ ?_; (on_goal 1 => subst x); (on_goal 2 => (intro hop; clear_value x)))
    | (extract_lets +onlyGivenNames x; refine Kept.cutFn (x := x) (q := q) (n := n) ?_ ?_; (on_goal 1 => subst x); (on_goal 2 => (intro hfn; clear_value x)))
    | (extract_lets +onlyGivenNames x; clear_value x)
    | (simp -zeta only [kept_mk]; with_reducible refine Kept.conj ?_)

theorem State.badPacket_kept {s : State} (h_s : Kept q n s) : Kept q n (State.badPacket s) := by
  delta State.badPacket
  repeat' first
    | with_reducible assumption
    | (intro _; beta_reduce)
    | with_reducible apply OutKept.next
    | with_reducible refine Kept.snd (by assumption) ?_
    | with_reducible refine Kept.snd2 (by assumption) ?_
    | with_reducible apply State.event_kept

theorem State.fencedDrop_kept {s : State} (h_s : Kept q n s) : Kept q n (State.fencedDrop s) := by
  delta State.fencedDrop
  repeat' first
    | with_reducible assumption
    | (intro _; beta_reduce)
    | with_reducible apply OutKept.next
    | with_reducible refine Kept.snd (by assumption) ?_
    | with_reducible refine Kept.snd2 (by assumption) ?_
    | with_reducible apply State.bumpGlb_kept
    | with_reducible apply State.event_kept

theorem State.unroutable_kept {s : State} {q_ : RPkt} {reason : Nat} (h_s : Kept q n s) : Kept q n (State.unroutable s q_ reason) := by
  delta State.unroutable
  repeat' first
    | with_reducible assumption
    | (intro _; beta_reduce)
    | with_reducible apply OutKept.next
    | with_reducible refine Kept.snd (by assumption) ?_
    | with_reducible refine Kept.snd2 (by assumption) ?_
    | with_reducible apply State.dropPkt_kept
    | with_reducible apply State.event_kept
    | with_reducible apply State.inject_kept
    | with_reducible apply State.trace_kept
    | with_reducible apply Kept.ite

theorem State.unwait_kept {s : State} {q_ : RPkt} (h_s : Kept q n s) : Kept q n (State.unwait s q_) := by
  delta State.unwait
  repeat' first
    | with_reducible assumption
    | (intro _; beta_reduce)
    | with_reducible apply OutKept.next
    | with_reducible refine Kept.snd (by assumption) ?_
    | with_reducible refine Kept.snd2 (by assumption) ?_
    | with_reducible apply Kept.ite
    | with_reducible apply Kept.ite2
    | with_reducible apply OutKept.ite
    | with_reducible apply Kept.foldl
    | with_reducible apply Kept.foldl2
    | with_reducible apply Kept.foldl1
    | with_reducible apply Kept.ite1
    | (extract_lets +onlyGivenNames x; refine Kept.cut (x := x) (q := q) (n := n) ?_ ?_; (on_goal 1 => subst x); (on_goal 2 => (intro hx; clear_value x)))
    | (extract_lets +onlyGivenNames x; refine Kept.cut2 (x := x) (q := q) (n := n) ?_ ?_; (on_goal 1 => subst x); (on_goal 2 => (intro hx; clear_value x)))
    | (extract_lets +onlyGivenNames x; refine Kept.cutOp (x := x) (q := q) (n := n) ?_ ?_; (on_goal 1 => subst x); (on_goal 2 => (intro hop; clear_value x)))
    | (extract_lets +onlyGivenNames x; refine Kept.cutOp2 (x := x) (q := q) (n := n) ?_ ?_; (on_goal 1 => subst x); (on_goal 2 => (intro hop; clear_value x)))
    | (extract_lets +onlyGivenNames x; refine Kept.cutFn (x := x) (q := q) (n := n) ?_ ?_; (on_goal 1 => subst x); (on_goal 2 => (intro hfn; clear_value x)))
    | (extract_lets +onlyGivenNames x; clear_value x)
    | (simp -zeta only [kept_mk]; with_reducible refine Kept.conj ?_)

theorem State.detour_kept {s : State} {q_ : RPkt} {d : Nat} (h_s : Kept q n s) : Kept q n (State.detour s q_ d) := by
  delta State.detour
  repeat' first
    | with_reducible assumption
    | (intro _; beta_reduce)
    | with_reducible apply OutKept.next
    | with_reducible refine Kept.snd (by assumption) ?_
    | with_reducible refine Kept.snd2 (by assumption) ?_
    | with_reducible apply State.bumpPrt_kept
    | with_reducible apply State.enqueue_kept
    | with_reducible apply State.event_kept
    | with_reducible apply State.unroutable_kept
    | with_reducible apply State.unwait_kept
    | with_reducible apply Kept.ite
    | with_reducible apply Kept.ite2
    | with_reducible apply Kept.ite1
    | (extract_lets +onlyGivenNames x; refine Kept.cut (x := x) (q := q) (n := n) ?_ ?_; (on_goal 1 => subst x); (on_goal 2 => (intro hx; clear_value x)))
    | (extract_lets +onlyGivenNames x; refine Kept.cut2 (x := x) (q := q) (n := n) ?_ ?_; (on_goal 1 => subst x); (on_goal 2 => (intro hx; clear_value x)))
    | (extract_lets +onlyGivenNames x; refine Kept.cutOp (x := x) (q := q) (n := n) ?_ ?_; (on_goal 1 => subst x); (on_goal 2 => (intro hop; clear_value x)))
    | (extract_lets +onlyGivenNames x; refine Kept.cutOp2 (x := x) (q := q) (n := n) ?_ ?_; (on_goal 1 => subst x); (on_goal 2 => (intro hop; clear_value x)))
    | (extract_lets +onlyGivenNames x; refine Kept.cutFn (x := x) (q := q) (n := n) ?_ ?_; (on_goal 1 => subst x); (on_goal 2 => (intro hfn; clear_value x)))
    | (extract_lets +onlyGivenNames x; clear_value x)
    | (simp -zeta only [kept_mk]; with_reducible refine Kept.conj ?_)
    | dsimp only
    | split

theorem State.routeOrder_kept {s : State} {q_ : RPkt} {fromAdaptive : Bool} (h_s : Kept q n s) : Kept q n (State.routeOrder s q_ fromAdaptive) := by
  delta State.routeOrder
  repeat' first
    | with_reducible assumption
    | (intro _; beta_reduce)
    | with_reducible apply OutKept.next
    | with_reducible refine Kept.snd (by assumption) ?_
    | with_reducible refine Kept.snd2 (by assumption) ?_
    | with_reducible apply State.bumpPrt_kept
    | with_reducible apply State.cnt_kept
    | with_reducible apply State.deliver_kept
    | with_reducible apply State.detour_kept
    | with_reducible apply State.enqueue_kept
    | with_reducible apply State.unwait_kept
    | with_reducible apply Kept.ite
    | with_reducible apply Kept.ite2
    | with_reducible apply Kept.ite1
    | (extract_lets +onlyGivenNames x; refine Kept.cut (x := x) (q := q) (n := n) ?_ ?_; (on_goal 1 => subst x); (on_goal 2 => (intro hx; clear_value x)))
    | (extract_lets +onlyGivenNames x; refine Kept.cut2 (x := x) (q := q) (n := n) ?_ ?_; (on_goal 1 => subst x); (on_goal 2 => (intro hx; clear_value x)))
    | (extract_lets +onlyGivenNames x; refine Kept.cutOp (x := x) (q := q) (n := n) ?_ ?_; (on_goal 1 => subst x); (on_goal 2 => (intro hop; clear_value x)))
    | (extract_lets +onlyGivenNames x; refine Kept.cutOp2 (x := x) (q := q) (n := n) ?_ ?_; (on_goal 1 => subst x); (on_goal 2 => (intro hop; clear_value x)))
    | (extract_lets +onlyGivenNames x; refine Kept.cutFn (x := x) (q := q) (n := n) ?_ ?_; (on_goal 1 => subst x); (on_goal 2 => (intro hfn; clear_value x)))
    | (extract_lets +onlyGivenNames x; clear_value x)
    | (simp -zeta only [kept_mk]; with_reducible refine Kept.conj ?_)
    | dsimp only
    | split

theorem State.routeAdaptive_kept {s : State} {q_ : RPkt} (h_s : Kept q n s) : Kept q n (State.routeAdaptive s q_) := by
  delta State.routeAdaptive
  repeat' first
    | with_reducible assumption
    | (intro _; beta_reduce)
    | with_reducible apply OutKept.next
    | with_reducible refine Kept.snd (by assumption) ?_
    | with_reducible refine Kept.snd2 (by assumption) ?_
    | with_reducible apply State.detour_kept
    | with_reducible apply State.enqueue_kept
    | with_reducible apply State.routeOrder_kept
    | with_reducible apply State.unwait_kept
    | with_reducible apply Kept.ite
    | with_reducible apply Kept.ite2
    | with_reducible apply Kept.ite1
    | (extract_lets +onlyGivenNames x; refine Kept.cut (x := x) (q := q) (n := n) ?_ ?_; (on_goal 1 => subst x); (on_goal 2 => (intro hx; clear_value x)))
    | (extract_lets +onlyGivenNames x; refine Kept.cut2 (x := x) (q := q) (n := n) ?_ ?_; (on_goal 1 => subst x); (on_goal 2 => (intro hx; clear_value x)))
    | (extract_lets +onlyGivenNames x; refine Kept.cutOp (x := x) (q := q) (n := n) ?_ ?_; (on_goal 1 => subst x); (on_goal 2 => (intro hop; clear_value x)))
    | (extract_lets +onlyGivenNames x; refine Kept.cutOp2 (x := x) (q := q) (n := n) ?_ ?_; (on_goal 1 => subst x); (on_goal 2 => (intro hop; clear_value x)))
    | (extract_lets +onlyGivenNames x; refine Kept.cutFn (x := x) (q := q) (n := n) ?_ ?_; (on_goal 1 => subst x); (on_goal 2 => (intro hfn; clear_value x)))
    | (extract_lets +onlyGivenNames x; clear_value x)
    | (simp -zeta only [kept_mk]; with_reducible refine Kept.conj ?_)
    | dsimp only
    | split

theorem State.route_kept {s : State} {q_ : RPkt} (h_s : Kept q n s) : Kept q n (State.route s q_) := by
  delta State.route
  repeat' first
    | with_reducible assumption
    | (intro _; beta_reduce)
    | with_reducible apply OutKept.next
    | with_reducible refine Kept.snd (by assumption) ?_
    | with_reducible refine Kept.snd2 (by assumption) ?_
    | with_reducible apply State.badPacket_kept
    | with_reducible apply State.deliver_kept
    | with_reducible apply State.dropPkt_kept
    | with_reducible apply State.fencedDrop_kept
    | with_reducible apply State.routeAdaptive_kept
    | with_reducible apply State.routeOrder_kept
    | with_reducible apply State.unroutable_kept
    | with_reducible apply State.unwait_kept
    | with_reducible apply Kept.ite
    | with_reducible apply Kept.ite2
    | with_reducible apply Kept.ite1
    | (extract_lets +onlyGivenNames x; refine Kept.cut (x := x) (q := q) (n := n) ?_ ?_; (on_goal 1 => subst x); (on_goal 2 => (intro hx; clear_value x)))
    | (extract_lets +onlyGivenNames x; refine Kept.cut2 (x := x) (q := q) (n := n) ?_ ?_; (on_goal 1 => subst x); (on_goal 2 => (intro hx; clear_value x)))
    | (extract_lets +onlyGivenNames x; refine Kept.cutOp (x := x) (q := q) (n := n) ?_ ?_; (on_goal 1 => subst x); (on_goal 2 => (intro hop; clear_value x)))
    | (extract_lets +onlyGivenNames x; refine Kept.cutOp2 (x := x) (q := q) (n := n) ?_ ?_; (on_goal 1 => subst x); (on_goal 2 => (intro hop; clear_value x)))
    | (extract_lets +onlyGivenNames x; refine Kept.cutFn (x := x) (q := q) (n := n) ?_ ?_; (on_goal 1 => subst x); (on_goal 2 => (intro hfn; clear_value x)))
    | (extract_lets +onlyGivenNames x; clear_value x)
    | dsimp only
    | split

theorem execPacketRoute_kept {i : Nat} {s : State} (h_s : Kept q n s) : OutKept q n (execPacketRoute i s) := by
  delta execPacketRoute
  repeat' first
    | with_reducible assumption
    | (intro _; beta_reduce)
    | with_reducible apply OutKept.next
    | with_reducible refine Kept.snd (by assumption) ?_
    | with_reducible refine Kept.snd2 (by assumption) ?_
    | with_reducible apply State.route_kept
    | with_reducible apply Kept.ite
    | with_reducible apply Kept.ite2
    | with_reducible apply OutKept.ite
    | with_reducible apply Kept.ite1
    | (extract_lets +onlyGivenNames x; refine Kept.cut (x := x) (q := q) (n := n) ?_ ?_; (on_goal 1 => subst x); (on_goal 2 => (intro hx; clear_value x)))
    | (extract_lets +onlyGivenNames x; refine Kept.cut2 (x := x) (q := q) (n := n) ?_ ?_; (on_goal 1 => subst x); (on_goal 2 => (intro hx; clear_value x)))
    | (extract_lets +onlyGivenNames x; refine Kept.cutOp (x := x) (q := q) (n := n) ?_ ?_; (on_goal 1 => subst x); (on_goal 2 => (intro hop; clear_value x)))
    | (extract_lets +onlyGivenNames x; refine Kept.cutOp2 (x := x) (q := q) (n := n) ?_ ?_; (on_goal 1 => subst x); (on_goal 2 => (intro hop; clear_value x)))
    | (extract_lets +onlyGivenNames x; refine Kept.cutFn (x := x) (q := q) (n := n) ?_ ?_; (on_goal 1 => subst x); (on_goal 2 => (intro hfn; clear_value x)))
    | (extract_lets +onlyGivenNames x; clear_value x)
    | (simp -zeta only [kept_mk]; with_reducible refine Kept.conj ?_)
    | dsimp only
    | split

theorem State.mcBranch_kept {s : State} {q_ : RPkt} {id : Nat} {b : Nat × BitVec 96} (h_s : Kept q n s) : Kept q n (State.mcBranch s q_ id b) := by
  delta State.mcBranch
  repeat' first
    | with_reducible assumption
    | (intro _; beta_reduce)
    | with_reducible apply OutKept.next
    | with_reducible refine Kept.snd (by assumption) ?_
    | with_reducible refine Kept.snd2 (by assumption) ?_
    | with_reducible apply State.bumpPrt_kept
    | with_reducible apply State.cnt_kept
    | with_reducible apply State.fencedDrop_kept
    | with_reducible apply State.spendBy_kept
    | with_reducible apply Kept.ite
    | with_reducible apply Kept.ite2
    | with_reducible apply Kept.foldl
    | with_reducible apply Kept.foldl2
    | with_reducible apply Kept.foldl1
    | with_reducible apply Kept.ite1
    | (extract_lets +onlyGivenNames x; refine Kept.cut (x := x) (q := q) (n := n) ?_ ?_; (on_goal 1 => subst x); (on_goal 2 => (intro hx; clear_value x)))
    | (extract_lets +onlyGivenNames x; refine Kept.cut2 (x := x) (q := q) (n := n) ?_ ?_; (on_goal 1 => subst x); (on_goal 2 => (intro hx; clear_value x)))
    | (extract_lets +onlyGivenNames x; refine Kept.cutOp (x := x) (q := q) (n := n) ?_ ?_; (on_goal 1 => subst x); (on_goal 2 => (intro hop; clear_value x)))
    | (extract_lets +onlyGivenNames x; refine Kept.cutOp2 (x := x) (q := q) (n := n) ?_ ?_; (on_goal 1 => subst x); (on_goal 2 => (intro hop; clear_value x)))
    | (extract_lets +onlyGivenNames x; refine Kept.cutFn (x := x) (q := q) (n := n) ?_ ?_; (on_goal 1 => subst x); (on_goal 2 => (intro hfn; clear_value x)))
    | (extract_lets +onlyGivenNames x; clear_value x)
    | (simp -zeta only [kept_mk]; with_reducible refine Kept.conj ?_)
    | dsimp only
    | split

theorem State.replicate_kept {s : State} {q_ : RPkt} (h_s : Kept q n s) : Kept q n (State.replicate s q_) := by
  delta State.replicate
  repeat' first
    | with_reducible assumption
    | (intro _; beta_reduce)
    | with_reducible apply OutKept.next
    | with_reducible refine Kept.snd (by assumption) ?_
    | with_reducible refine Kept.snd2 (by assumption) ?_
    | with_reducible apply State.badPacket_kept
    | with_reducible apply State.cnt_kept
    | with_reducible apply State.dropPkt_kept
    | with_reducible apply State.mcBranch_kept
    | with_reducible apply State.unroutable_kept
    | with_reducible apply State.unwait_kept
    | with_reducible apply Kept.ite
    | with_reducible apply Kept.ite2
    | with_reducible apply Kept.foldl
    | with_reducible apply Kept.foldl2
    | with_reducible apply Kept.foldl1
    | with_reducible apply Kept.ite1
    | (extract_lets +onlyGivenNames x; refine Kept.cut (x := x) (q := q) (n := n) ?_ ?_; (on_goal 1 => subst x); (on_goal 2 => (intro hx; clear_value x)))
    | (extract_lets +onlyGivenNames x; refine Kept.cut2 (x := x) (q := q) (n := n) ?_ ?_; (on_goal 1 => subst x); (on_goal 2 => (intro hx; clear_value x)))
    | (extract_lets +onlyGivenNames x; refine Kept.cutOp (x := x) (q := q) (n := n) ?_ ?_; (on_goal 1 => subst x); (on_goal 2 => (intro hop; clear_value x)))
    | (extract_lets +onlyGivenNames x; refine Kept.cutOp2 (x := x) (q := q) (n := n) ?_ ?_; (on_goal 1 => subst x); (on_goal 2 => (intro hop; clear_value x)))
    | (extract_lets +onlyGivenNames x; refine Kept.cutFn (x := x) (q := q) (n := n) ?_ ?_; (on_goal 1 => subst x); (on_goal 2 => (intro hfn; clear_value x)))
    | (extract_lets +onlyGivenNames x; clear_value x)
    | (simp -zeta only [kept_mk]; with_reducible refine Kept.conj ?_)
    | dsimp only
    | split

theorem execMcReplicate_kept {i : Nat} {s : State} (h_s : Kept q n s) : OutKept q n (execMcReplicate i s) := by
  delta execMcReplicate
  repeat' first
    | with_reducible assumption
    | (intro _; beta_reduce)
    | with_reducible apply OutKept.next
    | with_reducible refine Kept.snd (by assumption) ?_
    | with_reducible refine Kept.snd2 (by assumption) ?_
    | with_reducible apply State.replicate_kept
    | with_reducible apply Kept.ite
    | with_reducible apply Kept.ite2
    | with_reducible apply OutKept.ite
    | with_reducible apply Kept.foldl
    | with_reducible apply Kept.foldl2
    | with_reducible apply Kept.foldl1
    | with_reducible apply Kept.ite1
    | (extract_lets +onlyGivenNames x; refine Kept.cut (x := x) (q := q) (n := n) ?_ ?_; (on_goal 1 => subst x); (on_goal 2 => (intro hx; clear_value x)))
    | (extract_lets +onlyGivenNames x; refine Kept.cut2 (x := x) (q := q) (n := n) ?_ ?_; (on_goal 1 => subst x); (on_goal 2 => (intro hx; clear_value x)))
    | (extract_lets +onlyGivenNames x; refine Kept.cutOp (x := x) (q := q) (n := n) ?_ ?_; (on_goal 1 => subst x); (on_goal 2 => (intro hop; clear_value x)))
    | (extract_lets +onlyGivenNames x; refine Kept.cutOp2 (x := x) (q := q) (n := n) ?_ ?_; (on_goal 1 => subst x); (on_goal 2 => (intro hop; clear_value x)))
    | (extract_lets +onlyGivenNames x; refine Kept.cutFn (x := x) (q := q) (n := n) ?_ ?_; (on_goal 1 => subst x); (on_goal 2 => (intro hfn; clear_value x)))
    | (extract_lets +onlyGivenNames x; clear_value x)
    | dsimp only
    | split

theorem State.reroute_kept {s : State} {port : Nat} (h_s : Kept q n s) : Kept q n (State.reroute s port) := by
  delta State.reroute
  repeat' first
    | with_reducible assumption
    | (intro _; beta_reduce)
    | with_reducible apply OutKept.next
    | with_reducible refine Kept.snd (by assumption) ?_
    | with_reducible refine Kept.snd2 (by assumption) ?_
    | with_reducible apply State.cnt_kept
    | with_reducible apply Kept.ite
    | with_reducible apply Kept.ite2
    | with_reducible apply Kept.ite1
    | (extract_lets +onlyGivenNames x; refine Kept.cut (x := x) (q := q) (n := n) ?_ ?_; (on_goal 1 => subst x); (on_goal 2 => (intro hx; clear_value x)))
    | (extract_lets +onlyGivenNames x; refine Kept.cut2 (x := x) (q := q) (n := n) ?_ ?_; (on_goal 1 => subst x); (on_goal 2 => (intro hx; clear_value x)))
    | (extract_lets +onlyGivenNames x; refine Kept.cutOp (x := x) (q := q) (n := n) ?_ ?_; (on_goal 1 => subst x); (on_goal 2 => (intro hop; clear_value x)))
    | (extract_lets +onlyGivenNames x; refine Kept.cutOp2 (x := x) (q := q) (n := n) ?_ ?_; (on_goal 1 => subst x); (on_goal 2 => (intro hop; clear_value x)))
    | (extract_lets +onlyGivenNames x; refine Kept.cutFn (x := x) (q := q) (n := n) ?_ ?_; (on_goal 1 => subst x); (on_goal 2 => (intro hfn; clear_value x)))
    | (extract_lets +onlyGivenNames x; clear_value x)
    | (simp -zeta only [kept_mk]; with_reducible refine Kept.conj ?_)
    | dsimp only
    | split

theorem execPacketReroute_kept {port : Fin 12} {s : State} (h_s : Kept q n s) : OutKept q n (execPacketReroute port s) := by
  delta execPacketReroute
  repeat' first
    | with_reducible assumption
    | (intro _; beta_reduce)
    | with_reducible apply OutKept.next
    | with_reducible refine Kept.snd (by assumption) ?_
    | with_reducible refine Kept.snd2 (by assumption) ?_
    | with_reducible apply State.reroute_kept
    | with_reducible apply Kept.ite
    | with_reducible apply Kept.ite2
    | with_reducible apply OutKept.ite
    | with_reducible apply Kept.ite1
    | (extract_lets +onlyGivenNames x; refine Kept.cut (x := x) (q := q) (n := n) ?_ ?_; (on_goal 1 => subst x); (on_goal 2 => (intro hx; clear_value x)))
    | (extract_lets +onlyGivenNames x; refine Kept.cut2 (x := x) (q := q) (n := n) ?_ ?_; (on_goal 1 => subst x); (on_goal 2 => (intro hx; clear_value x)))
    | (extract_lets +onlyGivenNames x; refine Kept.cutOp (x := x) (q := q) (n := n) ?_ ?_; (on_goal 1 => subst x); (on_goal 2 => (intro hop; clear_value x)))
    | (extract_lets +onlyGivenNames x; refine Kept.cutOp2 (x := x) (q := q) (n := n) ?_ ?_; (on_goal 1 => subst x); (on_goal 2 => (intro hop; clear_value x)))
    | (extract_lets +onlyGivenNames x; refine Kept.cutFn (x := x) (q := q) (n := n) ?_ ?_; (on_goal 1 => subst x); (on_goal 2 => (intro hfn; clear_value x)))
    | (extract_lets +onlyGivenNames x; clear_value x)
    | dsimp only
    | split

theorem execCreditRx_kept {port : Fin 12} {p : Packet} {s : State} (h_s : Kept q n s) : OutKept q n (execCreditRx port p s) := by
  delta execCreditRx
  repeat' first
    | with_reducible assumption
    | (intro _; beta_reduce)
    | with_reducible apply OutKept.next
    | with_reducible refine Kept.snd (by assumption) ?_
    | with_reducible refine Kept.snd2 (by assumption) ?_
    | with_reducible apply State.badPacket_kept
    | with_reducible apply State.take_kept
    | with_reducible apply Kept.ite
    | with_reducible apply Kept.ite2
    | with_reducible apply OutKept.ite
    | with_reducible apply Kept.foldl
    | with_reducible apply Kept.foldl2
    | with_reducible apply Kept.foldl1
    | with_reducible apply Kept.ite1
    | (extract_lets +onlyGivenNames x; refine Kept.cut (x := x) (q := q) (n := n) ?_ ?_; (on_goal 1 => subst x); (on_goal 2 => (intro hx; clear_value x)))
    | (simp -zeta only [kept_mk]; with_reducible refine Kept.conj ?_)

theorem execCreditReturnTimer_kept {port : Fin 12} {s : State} (h_s : Kept q n s) : OutKept q n (execCreditReturnTimer port s) := by
  delta execCreditReturnTimer
  repeat' first
    | with_reducible assumption
    | (intro _; beta_reduce)
    | with_reducible apply OutKept.next
    | with_reducible refine Kept.snd (by assumption) ?_
    | with_reducible refine Kept.snd2 (by assumption) ?_
    | with_reducible apply State.take_kept
    | with_reducible apply Kept.ite
    | with_reducible apply Kept.ite2
    | with_reducible apply OutKept.ite
    | with_reducible apply Kept.foldl
    | with_reducible apply Kept.foldl2
    | with_reducible apply Kept.foldl1
    | with_reducible apply Kept.ite1
    | (extract_lets +onlyGivenNames x; refine Kept.cut (x := x) (q := q) (n := n) ?_ ?_; (on_goal 1 => subst x); (on_goal 2 => (intro hx; clear_value x)))
    | (extract_lets +onlyGivenNames x; refine Kept.cut2 (x := x) (q := q) (n := n) ?_ ?_; (on_goal 1 => subst x); (on_goal 2 => (intro hx; clear_value x)))
    | (extract_lets +onlyGivenNames x; refine Kept.cutOp (x := x) (q := q) (n := n) ?_ ?_; (on_goal 1 => subst x); (on_goal 2 => (intro hop; clear_value x)))
    | (extract_lets +onlyGivenNames x; refine Kept.cutOp2 (x := x) (q := q) (n := n) ?_ ?_; (on_goal 1 => subst x); (on_goal 2 => (intro hop; clear_value x)))
    | (extract_lets +onlyGivenNames x; refine Kept.cutFn (x := x) (q := q) (n := n) ?_ ?_; (on_goal 1 => subst x); (on_goal 2 => (intro hfn; clear_value x)))
    | (extract_lets +onlyGivenNames x; clear_value x)
    | (simp -zeta only [kept_mk]; with_reducible refine Kept.conj ?_)
    | dsimp only
    | split

theorem State.setFence_kept {s : State} {n_ : Nat} {v : Bool} (h_s : Kept q n s) : Kept q n (State.setFence s n_ v) := by
  delta State.setFence
  repeat' first
    | with_reducible assumption
    | (intro _; beta_reduce)
    | with_reducible apply OutKept.next
    | with_reducible refine Kept.snd (by assumption) ?_
    | with_reducible refine Kept.snd2 (by assumption) ?_
    | with_reducible apply State.setFld_kept
    | with_reducible apply Kept.ite

theorem State.clearFences_kept {s : State} (h_s : Kept q n s) : Kept q n (State.clearFences s) := by
  delta State.clearFences
  repeat' first
    | with_reducible assumption
    | (intro _; beta_reduce)
    | with_reducible apply OutKept.next
    | with_reducible refine Kept.snd (by assumption) ?_
    | with_reducible refine Kept.snd2 (by assumption) ?_
    | with_reducible apply State.setFld_kept
    | with_reducible apply State.wr_kept
    | with_reducible apply Kept.ite
    | with_reducible apply Kept.ite2
    | with_reducible apply OutKept.ite
    | with_reducible apply Kept.foldl

theorem State.writeDetour_kept {s : State} {k : Nat} {v : BitVec 32} (h_s : Kept q n s) : Kept q n (State.writeDetour s k v) := by
  delta State.writeDetour
  repeat' first
    | with_reducible assumption
    | (intro _; beta_reduce)
    | with_reducible apply OutKept.next
    | with_reducible refine Kept.snd (by assumption) ?_
    | with_reducible refine Kept.snd2 (by assumption) ?_
    | with_reducible apply State.event_kept
    | with_reducible apply State.setFld_kept
    | with_reducible apply State.wr_kept
    | with_reducible apply Kept.ite

theorem execFabDetourWrite_kept {by_ : Fin 4} {k : Fin 6} {v : BitVec 32} {s : State} (h_s : Kept q n s) : OutKept q n (execFabDetourWrite by_ k v s) := by
  delta execFabDetourWrite
  repeat' first
    | with_reducible assumption
    | (intro _; beta_reduce)
    | with_reducible apply OutKept.next
    | with_reducible refine Kept.snd (by assumption) ?_
    | with_reducible refine Kept.snd2 (by assumption) ?_
    | with_reducible apply State.writeDetour_kept
    | with_reducible apply Kept.ite

end Machine
end Sys2Proof
end

