-- ==== Sys2Proof/Laws/KeptTokens.lean ====
section
/-!
SUPPORT. What the operations of Machine/Tokens.lean keep (see Laws/Kept.lean).
-/
namespace Sys2Proof
namespace Machine

variable {q : List Instr} {n : Nat}

theorem State.setPc_kept {s : State} {c : Nat} {pc : Nat} (h_s : Kept q n s) : Kept q n (State.setPc s c pc) := by
  delta State.setPc
  repeat' first
    | with_reducible assumption
    | (intro _; beta_reduce)
    | with_reducible apply OutKept.next
    | with_reducible refine Kept.snd (by assumption) ?_
    | with_reducible refine Kept.snd2 (by assumption) ?_
    | with_reducible apply State.wr_kept

theorem State.showLoops_kept {s : State} {c : Nat} (h_s : Kept q n s) : Kept q n (State.showLoops s c) := by
  delta State.showLoops
  repeat' first
    | with_reducible assumption
    | (intro _; beta_reduce)
    | with_reducible apply OutKept.next
    | with_reducible refine Kept.snd (by assumption) ?_
    | with_reducible refine Kept.snd2 (by assumption) ?_
    | with_reducible apply State.setFld_kept

theorem State.recordFault_kept {s : State} {c : Nat} {f : FaultRec} {stay : Bool} (h_s : Kept q n s) : Kept q n (State.recordFault s c f stay) := by
  delta State.recordFault
  repeat' first
    | with_reducible assumption
    | (intro _; beta_reduce)
    | with_reducible apply OutKept.next
    | with_reducible apply hop
    | with_reducible refine Kept.snd (by assumption) ?_
    | with_reducible refine Kept.snd2 (by assumption) ?_
    | with_reducible apply State.event_kept
    | with_reducible apply State.evq_kept
    | with_reducible apply State.modCl_kept
    | with_reducible apply State.setSeqState_kept
    | with_reducible apply State.tellKeeper_kept
    | with_reducible apply State.trace_kept
    | with_reducible apply State.trigger_kept
    | with_reducible apply State.wr_kept
    | with_reducible apply Kept.ite

theorem State.fault_kept {s : State} {c : Nat} {f : FaultRec} (h_s : Kept q n s) : Kept q n (State.fault s c f) := by
  delta State.fault
  repeat' first
    | with_reducible assumption
    | (intro _; beta_reduce)
    | with_reducible apply OutKept.next
    | with_reducible refine Kept.snd (by assumption) ?_
    | with_reducible refine Kept.snd2 (by assumption) ?_
    | with_reducible apply State.recordFault_kept

theorem State.trap_kept {s : State} {c : Nat} {port : Nat} {code : Nat} {aux0 : Nat} {e : QEntry} (h_s : Kept q n s) : Kept q n (State.trap s c port code aux0 e) := by
  delta State.trap
  repeat' first
    | with_reducible assumption
    | (intro _; beta_reduce)
    | with_reducible apply OutKept.next
    | with_reducible refine Kept.snd (by assumption) ?_
    | with_reducible refine Kept.snd2 (by assumption) ?_
    | with_reducible apply State.fault_kept

theorem State.tokenOverflow_kept {s : State} {c : Nat} {t : Nat} (h_s : Kept q n s) : Kept q n (State.tokenOverflow s c t) := by
  delta State.tokenOverflow
  repeat' first
    | with_reducible assumption
    | (intro _; beta_reduce)
    | with_reducible apply OutKept.next
    | with_reducible refine Kept.snd (by assumption) ?_
    | with_reducible refine Kept.snd2 (by assumption) ?_
    | with_reducible apply State.recordFault_kept

theorem State.addOne_kept {s : State} {c : Nat} {t : Nat} {n_ : Nat} {peer : BitVec 64} (h_s : Kept q n s) : Kept q n (State.addOne s c t n_ peer) := by
  delta State.addOne
  repeat' first
    | with_reducible assumption
    | (intro _; beta_reduce)
    | with_reducible apply OutKept.next
    | with_reducible refine Kept.snd (by assumption) ?_
    | with_reducible refine Kept.snd2 (by assumption) ?_
    | with_reducible apply State.bumpClu_kept
    | with_reducible apply State.modCl_kept
    | with_reducible apply State.setFld_kept
    | with_reducible apply State.tokenOverflow_kept
    | with_reducible apply State.trigger_kept
    | with_reducible apply Kept.ite

theorem State.addToken_kept {s : State} {c : Nat} {t : Nat} {n_ : Nat} {peer : BitVec 64} (h_s : Kept q n s) : Kept q n (State.addToken s c t n_ peer) := by
  delta State.addToken
  repeat' first
    | with_reducible assumption
    | (intro _; beta_reduce)
    | with_reducible apply OutKept.next
    | with_reducible refine Kept.snd (by assumption) ?_
    | with_reducible refine Kept.snd2 (by assumption) ?_
    | with_reducible apply State.addOne_kept
    | with_reducible apply Kept.ite

theorem State.takeQuantum_kept {s : State} {c : Nat} {t : Nat} (h_s : Kept q n s) : Kept q n (State.takeQuantum s c t) := by
  delta State.takeQuantum
  repeat' first
    | with_reducible assumption
    | (intro _; beta_reduce)
    | with_reducible apply OutKept.next
    | with_reducible refine Kept.snd (by assumption) ?_
    | with_reducible refine Kept.snd2 (by assumption) ?_
    | with_reducible apply State.setFld_kept
    | with_reducible apply Kept.ite

theorem State.goto_kept {s : State} {c : Nat} {pc : Nat} (h_s : Kept q n s) : Kept q n (State.goto s c pc) := by
  delta State.goto
  repeat' first
    | with_reducible assumption
    | (intro _; beta_reduce)
    | with_reducible apply OutKept.next
    | with_reducible refine Kept.snd (by assumption) ?_
    | with_reducible refine Kept.snd2 (by assumption) ?_
    | with_reducible apply State.setCl_kept
    | with_reducible apply State.setPc_kept
    | with_reducible apply State.showLoops_kept

theorem State.seqDone_kept {s : State} {c : Nat} {e : QEntry} {pc : Nat} (h_s : Kept q n s) : Kept q n (State.seqDone s c e pc) := by
  delta State.seqDone
  repeat' first
    | with_reducible assumption
    | (intro _; beta_reduce)
    | with_reducible apply OutKept.next
    | with_reducible refine Kept.snd (by assumption) ?_
    | with_reducible refine Kept.snd2 (by assumption) ?_
    | with_reducible apply State.addToken_kept
    | with_reducible apply State.goto_kept
    | with_reducible apply State.modCl_kept

theorem State.traceWait_kept {s : State} {c : Nat} {t : Nat} {dur : Nat} (h_s : Kept q n s) : Kept q n (State.traceWait s c t dur) := by
  delta State.traceWait
  repeat' first
    | with_reducible assumption
    | (intro _; beta_reduce)
    | with_reducible apply OutKept.next
    | with_reducible refine Kept.snd (by assumption) ?_
    | with_reducible refine Kept.snd2 (by assumption) ?_
    | with_reducible apply State.trace_kept

theorem State.addHeld_kept {s : State} {c : Nat} {dur : Nat} (h_s : Kept q n s) : Kept q n (State.addHeld s c dur) := by
  delta State.addHeld
  repeat' first
    | with_reducible assumption
    | (intro _; beta_reduce)
    | with_reducible apply OutKept.next
    | with_reducible refine Kept.snd (by assumption) ?_
    | with_reducible refine Kept.snd2 (by assumption) ?_
    | with_reducible apply State.modCl_kept

theorem State.gapFromNow_kept {s : State} {c : Nat} (h_s : Kept q n s) : Kept q n (State.gapFromNow s c) := by
  delta State.gapFromNow
  repeat' first
    | with_reducible assumption
    | (intro _; beta_reduce)
    | with_reducible apply OutKept.next
    | with_reducible refine Kept.snd (by assumption) ?_
    | with_reducible refine Kept.snd2 (by assumption) ?_
    | with_reducible apply State.modCl_kept

theorem State.yieldPoint_kept {s : State} {c : Nat} (h_s : Kept q n s) : Kept q n (State.yieldPoint s c) := by
  delta State.yieldPoint
  repeat' first
    | with_reducible assumption
    | (intro _; beta_reduce)
    | with_reducible apply OutKept.next
    | with_reducible refine Kept.snd (by assumption) ?_
    | with_reducible refine Kept.snd2 (by assumption) ?_
    | with_reducible apply State.cnt_kept
    | with_reducible apply State.event_kept
    | with_reducible apply State.gapFromNow_kept
    | with_reducible apply State.setFld_kept
    | with_reducible apply Kept.ite

theorem State.releaseHold_kept {s : State} {c : Nat} (h_s : Kept q n s) : Kept q n (State.releaseHold s c) := by
  delta State.releaseHold
  repeat' first
    | with_reducible assumption
    | (intro _; beta_reduce)
    | with_reducible apply OutKept.next
    | with_reducible refine Kept.snd (by assumption) ?_
    | with_reducible refine Kept.snd2 (by assumption) ?_
    | with_reducible apply State.addHeld_kept
    | with_reducible apply State.gapFromNow_kept
    | with_reducible apply State.seqDone_kept
    | with_reducible apply State.setFld_kept
    | with_reducible apply State.trace_kept
    | with_reducible apply State.traceWait_kept
    | with_reducible apply Kept.ite
    | with_reducible apply Kept.ite2
    | with_reducible apply Kept.ite1
    | (extract_lets +onlyGivenNames x; refine Kept.cut (x := x) (q := q) (n := n) ?_ ?_; (on_goal 1 => subst x); (on_goal 2 => (intro hx; clear_value x)))
    | (extract_lets +onlyGivenNames x; refine Kept.cut2 (x := x) (q := q) (n := n) ?_ ?_; (on_goal 1 => subst x); (on_goal 2 => (intro hx; clear_value x)))
    | (extract_lets +onlyGivenNames x; refine Kept.cutOp (x := x) (q := q) (n := n) ?_ ?_; (on_goal 1 => subst x); (on_goal 2 => (intro hop; clear_value x)))
    | (extract_lets +onlyGivenNames x; refine Kept.cutOp2 (x := x) (q := q) (n := n) ?_ ?_; (on_goal 1 => subst x); (on_goal 2 => (intro hop; clear_value x)))
    | (extract_lets +onlyGivenNames x; refine Kept.cutFn (x := x) (q := q) (n := n) ?_ ?_; (on_goal 1 => subst x); (on_goal 2 => (intro hfn; clear_value x)))
    | (extract_lets +onlyGivenNames x; clear_value x)
    | (simp -zeta only [kept_mk]; with_reducible refine Kept.conj ?_)
    | dsimp only
    | split

theorem State.signal_kept {s : State} {c : Nat} {t : Nat} {n_ : Nat} {peer : BitVec 64} (h_s : Kept q n s) : Kept q n (State.signal s c t n_ peer) := by
  delta State.signal
  repeat' first
    | with_reducible assumption
    | (intro _; beta_reduce)
    | with_reducible apply OutKept.next
    | with_reducible refine Kept.snd (by assumption) ?_
    | with_reducible refine Kept.snd2 (by assumption) ?_
    | with_reducible apply State.addToken_kept
    | with_reducible apply State.releaseHold_kept

theorem State.signalHeader_kept {s : State} {c : Nat} {port : Nat} {e : QEntry} {n_ : Nat} (h_s : Kept q n s) : Kept q n (State.signalHeader s c port e n_) := by
  delta State.signalHeader
  repeat' first
    | with_reducible assumption
    | (intro _; beta_reduce)
    | with_reducible apply OutKept.next
    | with_reducible refine Kept.snd (by assumption) ?_
    | with_reducible refine Kept.snd2 (by assumption) ?_
    | with_reducible apply State.signal_kept
    | with_reducible apply Kept.ite

end Machine
end Sys2Proof
end

