-- ==== Sys2Proof/Laws/KeptBanks.lean ====
section
/-!
SUPPORT. What the operations of Machine/Banks.lean keep (see Laws/Kept.lean).
-/
namespace Sys2Proof
namespace Machine

variable {q : List Instr} {n : Nat}

theorem State.setBank_kept {s : State} {b : Nat} {v : Nat} (h_s : Kept q n s) : Kept q n (State.setBank s b v) := by
  delta State.setBank
  repeat' first
    | with_reducible assumption
    | (intro _; beta_reduce)
    | with_reducible apply OutKept.next
    | with_reducible refine Kept.snd (by assumption) ?_
    | with_reducible refine Kept.snd2 (by assumption) ?_
    | with_reducible apply State.setFld_kept

theorem State.setPush_kept {s : State} {v : Nat} (h_s : Kept q n s) : Kept q n (State.setPush s v) := by
  delta State.setPush
  repeat' first
    | with_reducible assumption
    | (intro _; beta_reduce)
    | with_reducible apply OutKept.next
    | with_reducible refine Kept.snd (by assumption) ?_
    | with_reducible refine Kept.snd2 (by assumption) ?_
    | with_reducible apply State.setFld_kept

theorem State.sendMirrorCtl_kept {s : State} {dst : Nat} {tag : Nat} {kind : Nat} {reason : Nat} {value : Nat} (h_s : Kept q n s) : Kept q n (State.sendMirrorCtl s dst tag kind reason value) := by
  delta State.sendMirrorCtl
  repeat' first
    | with_reducible assumption
    | (intro _; beta_reduce)
    | with_reducible apply OutKept.next
    | with_reducible refine Kept.snd (by assumption) ?_
    | with_reducible refine Kept.snd2 (by assumption) ?_
    | with_reducible apply State.inject_kept

theorem State.signalPush_kept {s : State} (h_s : Kept q n s) : Kept q n (State.signalPush s) := by
  delta State.signalPush
  repeat' first
    | with_reducible assumption
    | (intro _; beta_reduce)
    | with_reducible apply OutKept.next
    | with_reducible refine Kept.snd (by assumption) ?_
    | with_reducible refine Kept.snd2 (by assumption) ?_
    | with_reducible apply State.signal_kept
    | with_reducible apply Kept.ite
    | with_reducible apply Kept.ite2
    | with_reducible apply Kept.ite1
    | (extract_lets +onlyGivenNames x; refine Kept.cut (x := x) (q := q) (n := n) ?_ ?_; (on_goal 1 => subst x); (on_goal 2 => (intro hx; clear_value x)))
    | (extract_lets +onlyGivenNames x; refine Kept.cut2 (x := x) (q := q) (n := n) ?_ ?_; (on_goal 1 => subst x); (on_goal 2 => (intro hx; clear_value x)))
    | (extract_lets +onlyGivenNames x; refine Kept.cutOp (x := x) (q := q) (n := n) ?_ ?_; (on_goal 1 => subst x); (on_goal 2 => (intro hop; clear_value x)))
    | (extract_lets +onlyGivenNames x; refine Kept.cutOp2 (x := x) (q := q) (n := n) ?_ ?_; (on_goal 1 => subst x); (on_goal 2 => (intro hop; clear_value x)))
    | (extract_lets +onlyGivenNames x; refine Kept.cutFn (x := x) (q := q) (n := n) ?_ ?_; (on_goal 1 => subst x); (on_goal 2 => (intro hfn; clear_value x)))
    | (extract_lets +onlyGivenNames x; clear_value x)
    | dsimp only
    | split

theorem State.skipPush_kept {s : State} {result : Nat} (h_s : Kept q n s) : Kept q n (State.skipPush s result) := by
  delta State.skipPush
  repeat' first
    | with_reducible assumption
    | (intro _; beta_reduce)
    | with_reducible apply OutKept.next
    | with_reducible refine Kept.snd (by assumption) ?_
    | with_reducible refine Kept.snd2 (by assumption) ?_
    | with_reducible apply State.event_kept
    | with_reducible apply State.setFld_kept
    | with_reducible apply State.signalPush_kept
    | with_reducible apply Kept.ite
    | with_reducible apply Kept.ite2
    | with_reducible apply Kept.ite1
    | (extract_lets +onlyGivenNames x; refine Kept.cut (x := x) (q := q) (n := n) ?_ ?_; (on_goal 1 => subst x); (on_goal 2 => (intro hx; clear_value x)))
    | (extract_lets +onlyGivenNames x; refine Kept.cut2 (x := x) (q := q) (n := n) ?_ ?_; (on_goal 1 => subst x); (on_goal 2 => (intro hx; clear_value x)))
    | (extract_lets +onlyGivenNames x; refine Kept.cutOp (x := x) (q := q) (n := n) ?_ ?_; (on_goal 1 => subst x); (on_goal 2 => (intro hop; clear_value x)))
    | (extract_lets +onlyGivenNames x; refine Kept.cutOp2 (x := x) (q := q) (n := n) ?_ ?_; (on_goal 1 => subst x); (on_goal 2 => (intro hop; clear_value x)))
    | (extract_lets +onlyGivenNames x; refine Kept.cutFn (x := x) (q := q) (n := n) ?_ ?_; (on_goal 1 => subst x); (on_goal 2 => (intro hfn; clear_value x)))
    | (extract_lets +onlyGivenNames x; clear_value x)
    | dsimp only
    | split

theorem State.endPush_kept {s : State} {result : Nat} (h_s : Kept q n s) : Kept q n (State.endPush s result) := by
  delta State.endPush
  repeat' first
    | with_reducible assumption
    | (intro _; beta_reduce)
    | with_reducible apply OutKept.next
    | with_reducible refine Kept.snd (by assumption) ?_
    | with_reducible refine Kept.snd2 (by assumption) ?_
    | with_reducible apply State.cnt_kept
    | with_reducible apply State.event_kept
    | with_reducible apply State.setFld_kept
    | with_reducible apply State.setPush_kept
    | with_reducible apply State.signalPush_kept
    | with_reducible apply Kept.ite
    | with_reducible apply Kept.ite2
    | with_reducible apply Kept.ite1
    | (extract_lets +onlyGivenNames x; refine Kept.cut (x := x) (q := q) (n := n) ?_ ?_; (on_goal 1 => subst x); (on_goal 2 => (intro hx; clear_value x)))
    | (extract_lets +onlyGivenNames x; refine Kept.cut2 (x := x) (q := q) (n := n) ?_ ?_; (on_goal 1 => subst x); (on_goal 2 => (intro hx; clear_value x)))
    | (extract_lets +onlyGivenNames x; refine Kept.cutOp (x := x) (q := q) (n := n) ?_ ?_; (on_goal 1 => subst x); (on_goal 2 => (intro hop; clear_value x)))
    | (extract_lets +onlyGivenNames x; refine Kept.cutOp2 (x := x) (q := q) (n := n) ?_ ?_; (on_goal 1 => subst x); (on_goal 2 => (intro hop; clear_value x)))
    | (extract_lets +onlyGivenNames x; refine Kept.cutFn (x := x) (q := q) (n := n) ?_ ?_; (on_goal 1 => subst x); (on_goal 2 => (intro hfn; clear_value x)))
    | (extract_lets +onlyGivenNames x; clear_value x)
    | (simp -zeta only [kept_mk]; with_reducible refine Kept.conj ?_)
    | dsimp only
    | split

theorem State.abortPush_kept {s : State} {reason : Nat} {result : Nat} (h_s : Kept q n s) : Kept q n (State.abortPush s reason result) := by
  delta State.abortPush
  repeat' first
    | with_reducible assumption
    | (intro _; beta_reduce)
    | with_reducible apply OutKept.next
    | with_reducible refine Kept.snd (by assumption) ?_
    | with_reducible refine Kept.snd2 (by assumption) ?_
    | with_reducible apply State.endPush_kept
    | with_reducible apply State.sendMirrorCtl_kept
    | with_reducible apply Kept.ite
    | with_reducible apply Kept.ite2
    | with_reducible apply OutKept.ite
    | with_reducible apply Kept.foldl
    | with_reducible apply Kept.foldl2
    | with_reducible apply Kept.foldl1
    | with_reducible apply Kept.ite1
    | dsimp only
    | split

theorem State.unsealBank_kept {s : State} {b : Nat} (h_s : Kept q n s) : Kept q n (State.unsealBank s b) := by
  delta State.unsealBank
  repeat' first
    | with_reducible assumption
    | (intro _; beta_reduce)
    | with_reducible apply OutKept.next
    | with_reducible refine Kept.snd (by assumption) ?_
    | with_reducible refine Kept.snd2 (by assumption) ?_
    | with_reducible apply State.abortPush_kept
    | with_reducible apply State.setBank_kept
    | with_reducible apply State.writeMem_kept
    | with_reducible apply Kept.ite
    | with_reducible apply Kept.ite2
    | with_reducible apply OutKept.ite
    | with_reducible apply Kept.foldl
    | with_reducible apply Kept.foldl2
    | with_reducible apply Kept.foldl1
    | with_reducible apply Kept.ite1
    | (extract_lets +onlyGivenNames x; refine Kept.cut (x := x) (q := q) (n := n) ?_ ?_; (on_goal 1 => subst x); (on_goal 2 => (intro hx; clear_value x)))
    | (simp -zeta only [kept_mk]; with_reducible refine Kept.conj ?_)
    | dsimp only
    | split

theorem State.unseal_kept {s : State} {a : Nat} {n_ : Nat} (h_s : Kept q n s) : Kept q n (State.unseal s a n_) := by
  delta State.unseal
  repeat' first
    | with_reducible assumption
    | (intro _; beta_reduce)
    | with_reducible apply OutKept.next
    | with_reducible refine Kept.snd (by assumption) ?_
    | with_reducible refine Kept.snd2 (by assumption) ?_
    | with_reducible apply State.unsealBank_kept
    | with_reducible apply Kept.ite
    | with_reducible apply Kept.ite2
    | with_reducible apply OutKept.ite
    | with_reducible apply Kept.foldl

theorem State.write_kept {s : State} {a : Nat} {bs : List Byte} (h_s : Kept q n s) : Kept q n (State.write s a bs).2 := by
  delta State.write
  repeat' first
    | with_reducible assumption
    | (intro _; beta_reduce)
    | with_reducible apply OutKept.next
    | with_reducible refine Kept.snd (by assumption) ?_
    | with_reducible refine Kept.snd2 (by assumption) ?_
    | with_reducible apply State.unseal_kept
    | with_reducible apply State.writeMem_kept
    | with_reducible apply Kept.ite
    | with_reducible apply Kept.ite2
    | with_reducible apply Kept.ite1
    | (extract_lets +onlyGivenNames x; refine Kept.cut (x := x) (q := q) (n := n) ?_ ?_; (on_goal 1 => subst x); (on_goal 2 => (intro hx; clear_value x)))
    | (extract_lets +onlyGivenNames x; refine Kept.cut2 (x := x) (q := q) (n := n) ?_ ?_; (on_goal 1 => subst x); (on_goal 2 => (intro hx; clear_value x)))
    | (extract_lets +onlyGivenNames x; refine Kept.cutOp (x := x) (q := q) (n := n) ?_ ?_; (on_goal 1 => subst x); (on_goal 2 => (intro hop; clear_value x)))
    | (extract_lets +onlyGivenNames x; refine Kept.cutOp2 (x := x) (q := q) (n := n) ?_ ?_; (on_goal 1 => subst x); (on_goal 2 => (intro hop; clear_value x)))
    | (extract_lets +onlyGivenNames x; refine Kept.cutFn (x := x) (q := q) (n := n) ?_ ?_; (on_goal 1 => subst x); (on_goal 2 => (intro hfn; clear_value x)))
    | (extract_lets +onlyGivenNames x; clear_value x)
    | dsimp only
    | split

theorem State.storeOwn_kept {s : State} {err : Bool} {a : Nat} {bs : List Byte} (h_s : Kept q n s) : Kept q n (State.storeOwn s err a bs).2 := by
  delta State.storeOwn
  repeat' first
    | with_reducible assumption
    | (intro _; beta_reduce)
    | with_reducible apply OutKept.next
    | with_reducible refine Kept.snd (by assumption) ?_
    | with_reducible refine Kept.snd2 (by assumption) ?_
    | with_reducible apply State.hbmDetect_kept
    | with_reducible apply State.write_kept
    | with_reducible apply Kept.ite
    | with_reducible apply Kept.ite2
    | with_reducible apply Kept.ite1
    | (extract_lets +onlyGivenNames x; refine Kept.cut (x := x) (q := q) (n := n) ?_ ?_; (on_goal 1 => subst x); (on_goal 2 => (intro hx; clear_value x)))
    | (extract_lets +onlyGivenNames x; refine Kept.cut2 (x := x) (q := q) (n := n) ?_ ?_; (on_goal 1 => subst x); (on_goal 2 => (intro hx; clear_value x)))
    | (extract_lets +onlyGivenNames x; refine Kept.cutOp (x := x) (q := q) (n := n) ?_ ?_; (on_goal 1 => subst x); (on_goal 2 => (intro hop; clear_value x)))
    | (extract_lets +onlyGivenNames x; refine Kept.cutOp2 (x := x) (q := q) (n := n) ?_ ?_; (on_goal 1 => subst x); (on_goal 2 => (intro hop; clear_value x)))
    | (extract_lets +onlyGivenNames x; refine Kept.cutFn (x := x) (q := q) (n := n) ?_ ?_; (on_goal 1 => subst x); (on_goal 2 => (intro hfn; clear_value x)))
    | (extract_lets +onlyGivenNames x; clear_value x)
    | dsimp only
    | split

theorem State.signalSeal_kept {s : State} (h_s : Kept q n s) : Kept q n (State.signalSeal s) := by
  delta State.signalSeal
  repeat' first
    | with_reducible assumption
    | (intro _; beta_reduce)
    | with_reducible apply OutKept.next
    | with_reducible refine Kept.snd (by assumption) ?_
    | with_reducible refine Kept.snd2 (by assumption) ?_
    | with_reducible apply State.signal_kept
    | with_reducible apply Kept.ite

theorem State.sealError_kept {s : State} {b : Nat} (h_s : Kept q n s) : Kept q n (State.sealError s b) := by
  delta State.sealError
  repeat' first
    | with_reducible assumption
    | (intro _; beta_reduce)
    | with_reducible apply OutKept.next
    | with_reducible refine Kept.snd (by assumption) ?_
    | with_reducible refine Kept.snd2 (by assumption) ?_
    | with_reducible apply State.event_kept
    | with_reducible apply State.setBank_kept
    | with_reducible apply State.signalSeal_kept
    | with_reducible apply Kept.ite
    | with_reducible apply Kept.ite2
    | with_reducible apply OutKept.ite
    | with_reducible apply Kept.foldl
    | with_reducible apply Kept.foldl2
    | with_reducible apply Kept.foldl1
    | with_reducible apply Kept.ite1
    | (extract_lets +onlyGivenNames x; refine Kept.cut (x := x) (q := q) (n := n) ?_ ?_; (on_goal 1 => subst x); (on_goal 2 => (intro hx; clear_value x)))
    | (simp -zeta only [kept_mk]; with_reducible refine Kept.conj ?_)

theorem State.sealRequest_kept {s : State} {b : Nat} {value : Nat} (h_s : Kept q n s) : Kept q n (State.sealRequest s b value) := by
  delta State.sealRequest
  repeat' first
    | with_reducible assumption
    | (intro _; beta_reduce)
    | with_reducible apply OutKept.next
    | with_reducible refine Kept.snd (by assumption) ?_
    | with_reducible refine Kept.snd2 (by assumption) ?_
    | with_reducible apply State.sealError_kept
    | with_reducible apply State.setBank_kept
    | with_reducible apply State.setFld_kept
    | with_reducible apply State.unsealBank_kept
    | with_reducible apply Kept.ite
    | with_reducible apply Kept.ite2
    | with_reducible apply OutKept.ite
    | with_reducible apply Kept.foldl
    | with_reducible apply Kept.foldl2
    | with_reducible apply Kept.foldl1
    | with_reducible apply Kept.ite1
    | (extract_lets +onlyGivenNames x; refine Kept.cut (x := x) (q := q) (n := n) ?_ ?_; (on_goal 1 => subst x); (on_goal 2 => (intro hx; clear_value x)))
    | (simp -zeta only [kept_mk]; with_reducible refine Kept.conj ?_)

end Machine
end Sys2Proof
end

