-- ==== Sys2Proof/Laws/KeptOperands.lean ====
section
/-!
SUPPORT. What the operations of Machine/Operands.lean keep (see Laws/Kept.lean).
-/
namespace Sys2Proof
namespace Machine

variable {q : List Instr} {n : Nat}

theorem State.readPieces_kept {l : List (Nat × Nat)} {s : State} (h_s : Kept q n s) : Kept q n (s.readPieces l).2 := by
  induction l generalizing s with
  | nil => exact h_s
  | cons p rest ih =>
    simp only [State.readPieces]
    split
    · rename_i e; exact Kept.snd e (State.readMem_kept h_s)
    · rename_i e
      have h1 := ih (Kept.snd e (State.readMem_kept h_s))
      split
      · rename_i e2; exact Kept.snd e2 h1
      · exact h1

theorem State.writePieces_kept {l : List (Nat × Nat)} {bs : List Byte} {s : State} (h_s : Kept q n s) :
    Kept q n (s.writePieces l bs).2 := by
  induction l generalizing s bs with
  | nil => exact h_s
  | cons p rest ih => exact ih (State.write_kept h_s)

theorem State.putItem_kept {s : State} {x : BitItem} (h_s : Kept q n s) : Kept q n (State.putItem s x).2 := by
  delta State.putItem
  repeat' first
    | with_reducible assumption
    | (intro _; beta_reduce)
    | with_reducible apply OutKept.next
    | with_reducible refine Kept.snd (by assumption) ?_
    | with_reducible refine Kept.snd2 (by assumption) ?_
    | with_reducible apply State.write_kept
    | with_reducible apply Kept.ite
    | with_reducible apply Kept.ite2
    | with_reducible apply Kept.ite1
    | (extract_lets +onlyGivenNames x; refine Kept.cut (x := x) (q := q) (n := n) ?_ ?_; (on_goal 1 => subst x); (on_goal 2 => (intro hx; clear_value x)))
    | (extract_lets +onlyGivenNames x; refine Kept.cut2 (x := x) (q := q) (n := n) ?_ ?_; (on_goal 1 => subst x); (on_goal 2 => (intro hx; clear_value x)))
    | (extract_lets +onlyGivenNames x; refine Kept.cutOp (x := x) (q := q) (n := n) ?_ ?_; (on_goal 1 => subst x); (on_goal 2 => (intro hop; clear_value x)))
    | (extract_lets +onlyGivenNames x; refine Kept.cutOp2 (x := x) (q := q) (n := n) ?_ ?_; (on_goal 1 => subst x); (on_goal 2 => (intro hop; clear_value x)))
    | (extract_lets +onlyGivenNames x; refine Kept.cutFn (x := x) (q := q) (n := n) ?_ ?_; (on_goal 1 => subst x); (on_goal 2 => (intro hfn; clear_value x)))
    | (extract_lets +onlyGivenNames x; clear_value x)
    | dsimp only
    | split

theorem State.wholeWords_kept {s : State} {xs : List BitItem} (h_s : Kept q n s) : Kept q n (State.wholeWords s xs) := by
  delta State.wholeWords
  repeat' first
    | with_reducible assumption
    | (intro _; beta_reduce)
    | with_reducible apply OutKept.next
    | with_reducible refine Kept.snd (by assumption) ?_
    | with_reducible refine Kept.snd2 (by assumption) ?_
    | with_reducible apply Kept.ite
    | with_reducible apply Kept.ite2
    | with_reducible apply Kept.ite1
    | (extract_lets +onlyGivenNames x; refine Kept.cut (x := x) (q := q) (n := n) ?_ ?_; (on_goal 1 => subst x); (on_goal 2 => (intro hx; clear_value x)))
    | (extract_lets +onlyGivenNames x; refine Kept.cut2 (x := x) (q := q) (n := n) ?_ ?_; (on_goal 1 => subst x); (on_goal 2 => (intro hx; clear_value x)))
    | (extract_lets +onlyGivenNames x; refine Kept.cutOp (x := x) (q := q) (n := n) ?_ ?_; (on_goal 1 => subst x); (on_goal 2 => (intro hop; clear_value x)))
    | (extract_lets +onlyGivenNames x; refine Kept.cutOp2 (x := x) (q := q) (n := n) ?_ ?_; (on_goal 1 => subst x); (on_goal 2 => (intro hop; clear_value x)))
    | (extract_lets +onlyGivenNames x; refine Kept.cutFn (x := x) (q := q) (n := n) ?_ ?_; (on_goal 1 => subst x); (on_goal 2 => (intro hfn; clear_value x)))
    | (extract_lets +onlyGivenNames x; clear_value x)
    | (simp -zeta only [kept_mk]; with_reducible refine Kept.conj ?_)
    | dsimp only
    | split

theorem State.putItems_kept {s : State} {xs : List BitItem} (h_s : Kept q n s) : Kept q n (State.putItems s xs).2 := by
  delta State.putItems
  repeat' first
    | with_reducible assumption
    | (intro _; beta_reduce)
    | with_reducible apply OutKept.next
    | with_reducible refine Kept.snd (by assumption) ?_
    | with_reducible refine Kept.snd2 (by assumption) ?_
    | with_reducible apply State.putItem_kept
    | with_reducible apply State.wholeWords_kept
    | with_reducible apply Kept.ite
    | with_reducible apply Kept.ite2
    | with_reducible apply Kept.foldl
    | with_reducible apply Kept.foldl2
    | with_reducible apply Kept.foldl1
    | with_reducible apply Kept.ite1
    | (extract_lets +onlyGivenNames x; refine Kept.cut (x := x) (q := q) (n := n) ?_ ?_; (on_goal 1 => subst x); (on_goal 2 => (intro hx; clear_value x)))
    | (extract_lets +onlyGivenNames x; refine Kept.cut2 (x := x) (q := q) (n := n) ?_ ?_; (on_goal 1 => subst x); (on_goal 2 => (intro hx; clear_value x)))
    | (extract_lets +onlyGivenNames x; refine Kept.cutOp (x := x) (q := q) (n := n) ?_ ?_; (on_goal 1 => subst x); (on_goal 2 => (intro hop; clear_value x)))
    | (extract_lets +onlyGivenNames x; refine Kept.cutOp2 (x := x) (q := q) (n := n) ?_ ?_; (on_goal 1 => subst x); (on_goal 2 => (intro hop; clear_value x)))
    | (extract_lets +onlyGivenNames x; refine Kept.cutFn (x := x) (q := q) (n := n) ?_ ?_; (on_goal 1 => subst x); (on_goal 2 => (intro hfn; clear_value x)))
    | (extract_lets +onlyGivenNames x; clear_value x)
    | dsimp only
    | split

end Machine
end Sys2Proof
end

