-- ==== Sys2Proof/Laws/KeptFlags.lean ====
section
/-!
SUPPORT. What the operations of Machine/Flags.lean keep (see Laws/Kept.lean).
-/
namespace Sys2Proof
namespace Machine

variable {q : List Instr} {n : Nat}

theorem State.writeCodes_kept {s : State} {off : Nat} {v : BitVec 64} (h_s : Kept q n s) : Kept q n (State.writeCodes s off v) := by
  delta State.writeCodes
  repeat' first
    | with_reducible assumption
    | (intro _; beta_reduce)
    | with_reducible apply OutKept.next
    | with_reducible refine Kept.snd (by assumption) ?_
    | with_reducible refine Kept.snd2 (by assumption) ?_
    | with_reducible apply State.wr_kept
    | with_reducible apply Kept.ite
    | with_reducible apply Kept.ite2
    | with_reducible apply OutKept.ite
    | with_reducible apply Kept.foldl
    | with_reducible apply Kept.foldl2
    | with_reducible apply Kept.foldl1
    | with_reducible apply Kept.ite1
    | dsimp only
    | split

end Machine
end Sys2Proof
end

