-- ==== Sys2Proof/Laws/KeptMovers.lean ====
section
/-!
SUPPORT. What the operations of Machine/Movers.lean keep (see Laws/Kept.lean).
-/
namespace Sys2Proof
namespace Machine

variable {q : List Instr} {n : Nat}

theorem State.setCtx_kept {s : State} {t : Nat} {c : Nat} {v : Nat} (h_s : Kept q n s) : Kept q n (State.setCtx s t c v) := by
  delta State.setCtx
  repeat' first
    | with_reducible assumption
    | (intro _; beta_reduce)
    | with_reducible apply OutKept.next
    | with_reducible refine Kept.snd (by assumption) ?_
    | with_reducible refine Kept.snd2 (by assumption) ?_
    | with_reducible apply State.setFld_kept

theorem State.setMover_kept {s : State} {m : Nat} {r : MovRec} (h_s : Kept q n s) : Kept q n (State.setMover s m r) := by
  delta State.setMover
  repeat' first
    | with_reducible assumption
    | (intro _; beta_reduce)
    | with_reducible apply OutKept.next
    | with_reducible refine Kept.snd (by assumption) ?_
    | with_reducible refine Kept.snd2 (by assumption) ?_
    | with_reducible apply State.setFld_kept
    | with_reducible apply State.wr_kept
    | with_reducible apply Kept.ite
    | with_reducible apply Kept.ite2
    | with_reducible apply OutKept.ite
    | with_reducible apply Kept.foldl
    | with_reducible apply Kept.foldl2
    | with_reducible apply Kept.foldl1
    | with_reducible apply Kept.ite1
    | (extract_lets +onlyGivenNames x; refine Kept.cut (x := x) (q := q) (n := n) ?_ ?_; (on_goal 1 => subst x); (on_goal 2 => (intro hx; clear_value x)))
    | (extract_lets +onlyGivenNames x; refine Kept.cut2 (x := x) (q := q) (n := n) ?_ ?_; (on_goal 1 => subst x); (on_goal 2 => (intro hx; clear_value x)))
    | (extract_lets +onlyGivenNames x; refine Kept.cutOp (x := x) (q := q) (n := n) ?_ ?_; (on_goal 1 => subst x); (on_goal 2 => (intro hop; clear_value x)))
    | (extract_lets +onlyGivenNames x; refine Kept.cutOp2 (x := x) (q := q) (n := n) ?_ ?_; (on_goal 1 => subst x); (on_goal 2 => (intro hop; clear_value x)))
    | (extract_lets +onlyGivenNames x; refine Kept.cutFn (x := x) (q := q) (n := n) ?_ ?_; (on_goal 1 => subst x); (on_goal 2 => (intro hfn; clear_value x)))
    | (extract_lets +onlyGivenNames x; clear_value x)
    | (simp -zeta only [kept_mk]; with_reducible refine Kept.conj ?_)

theorem State.freeMover_kept {s : State} {m : Nat} (h_s : Kept q n s) : Kept q n (State.freeMover s m) := by
  delta State.freeMover
  repeat' first
    | with_reducible assumption
    | (intro _; beta_reduce)
    | with_reducible apply OutKept.next
    | with_reducible refine Kept.snd (by assumption) ?_
    | with_reducible refine Kept.snd2 (by assumption) ?_
    | with_reducible apply State.setFld_kept
    | with_reducible apply Kept.ite
    | with_reducible apply Kept.ite2
    | with_reducible apply OutKept.ite
    | with_reducible apply Kept.foldl
    | with_reducible apply Kept.foldl2
    | with_reducible apply Kept.foldl1
    | with_reducible apply Kept.ite1
    | (extract_lets +onlyGivenNames x; refine Kept.cut (x := x) (q := q) (n := n) ?_ ?_; (on_goal 1 => subst x); (on_goal 2 => (intro hx; clear_value x)))
    | (extract_lets +onlyGivenNames x; refine Kept.cut2 (x := x) (q := q) (n := n) ?_ ?_; (on_goal 1 => subst x); (on_goal 2 => (intro hx; clear_value x)))
    | (extract_lets +onlyGivenNames x; refine Kept.cutOp (x := x) (q := q) (n := n) ?_ ?_; (on_goal 1 => subst x); (on_goal 2 => (intro hop; clear_value x)))
    | (extract_lets +onlyGivenNames x; refine Kept.cutOp2 (x := x) (q := q) (n := n) ?_ ?_; (on_goal 1 => subst x); (on_goal 2 => (intro hop; clear_value x)))
    | (extract_lets +onlyGivenNames x; refine Kept.cutFn (x := x) (q := q) (n := n) ?_ ?_; (on_goal 1 => subst x); (on_goal 2 => (intro hfn; clear_value x)))
    | (extract_lets +onlyGivenNames x; clear_value x)
    | (simp -zeta only [kept_mk]; with_reducible refine Kept.conj ?_)

theorem State.redrive_kept {s : State} {m : Nat} (h_s : Kept q n s) : Kept q n (State.redrive s m) := by
  delta State.redrive
  repeat' first
    | with_reducible assumption
    | (intro _; beta_reduce)
    | with_reducible apply OutKept.next
    | with_reducible refine Kept.snd (by assumption) ?_
    | with_reducible refine Kept.snd2 (by assumption) ?_
    | with_reducible apply State.setMover_kept
    | with_reducible apply Kept.ite
    | with_reducible apply Kept.ite2
    | with_reducible apply OutKept.ite
    | with_reducible apply Kept.foldl
    | with_reducible apply Kept.foldl2
    | with_reducible apply Kept.foldl1
    | with_reducible apply Kept.ite1
    | dsimp only
    | split

theorem execMovRedrive_kept {by_ : Fin 4} {m : Fin 32} {s : State} (h_s : Kept q n s) : OutKept q n (execMovRedrive by_ m s) := by
  delta execMovRedrive
  repeat' first
    | with_reducible assumption
    | (intro _; beta_reduce)
    | with_reducible apply OutKept.next
    | with_reducible refine Kept.snd (by assumption) ?_
    | with_reducible refine Kept.snd2 (by assumption) ?_
    | with_reducible apply State.redrive_kept
    | with_reducible apply Kept.ite

theorem State.startPref_kept {s : State} {c : Nat} (h_s : Kept q n s) : Kept q n (State.startPref s c) := by
  delta State.startPref
  repeat' first
    | with_reducible assumption
    | (intro _; beta_reduce)
    | with_reducible apply OutKept.next
    | with_reducible refine Kept.snd (by assumption) ?_
    | with_reducible refine Kept.snd2 (by assumption) ?_
    | with_reducible apply State.bumpClu_kept
    | with_reducible apply State.cnt_kept
    | with_reducible apply State.setCl_kept
    | with_reducible apply Kept.ite
    | with_reducible apply Kept.ite2
    | with_reducible apply Kept.ite1
    | (extract_lets +onlyGivenNames x; refine Kept.cut (x := x) (q := q) (n := n) ?_ ?_; (on_goal 1 => subst x); (on_goal 2 => (intro hx; clear_value x)))
    | (extract_lets +onlyGivenNames x; refine Kept.cut2 (x := x) (q := q) (n := n) ?_ ?_; (on_goal 1 => subst x); (on_goal 2 => (intro hx; clear_value x)))
    | (extract_lets +onlyGivenNames x; refine Kept.cutOp (x := x) (q := q) (n := n) ?_ ?_; (on_goal 1 => subst x); (on_goal 2 => (intro hop; clear_value x)))
    | (extract_lets +onlyGivenNames x; refine Kept.cutOp2 (x := x) (q := q) (n := n) ?_ ?_; (on_goal 1 => subst x); (on_goal 2 => (intro hop; clear_value x)))
    | (extract_lets +onlyGivenNames x; refine Kept.cutFn (x := x) (q := q) (n := n) ?_ ?_; (on_goal 1 => subst x); (on_goal 2 => (intro hfn; clear_value x)))
    | (extract_lets +onlyGivenNames x; clear_value x)
    | (simp -zeta only [kept_mk]; with_reducible refine Kept.conj ?_)
    | dsimp only
    | split

theorem execPrefEntryStart_kept {c : Fin 64} {s : State} (h_s : Kept q n s) : OutKept q n (execPrefEntryStart c s) := by
  delta execPrefEntryStart
  repeat' first
    | with_reducible assumption
    | (intro _; beta_reduce)
    | with_reducible apply OutKept.next
    | with_reducible refine Kept.snd (by assumption) ?_
    | with_reducible refine Kept.snd2 (by assumption) ?_
    | with_reducible apply State.startPref_kept

theorem State.duePrefs_kept {s : State} {c : Nat} (h_s : Kept q n s) : Kept q n (State.duePrefs s c) := by
  delta State.duePrefs
  repeat' first
    | with_reducible assumption
    | (intro _; beta_reduce)
    | with_reducible apply OutKept.next
    | with_reducible refine Kept.snd (by assumption) ?_
    | with_reducible refine Kept.snd2 (by assumption) ?_
    | with_reducible apply State.modCl_kept

theorem State.tenIgnored_kept {s : State} (h_s : Kept q n s) : Kept q n (State.tenIgnored s) := by
  delta State.tenIgnored
  repeat' first
    | with_reducible assumption
    | (intro _; beta_reduce)
    | with_reducible apply OutKept.next
    | with_reducible refine Kept.snd (by assumption) ?_
    | with_reducible refine Kept.snd2 (by assumption) ?_
    | with_reducible apply State.event_kept

theorem State.slotIgnored_kept {s : State} (h_s : Kept q n s) : Kept q n (State.slotIgnored s) := by
  delta State.slotIgnored
  repeat' first
    | with_reducible assumption
    | (intro _; beta_reduce)
    | with_reducible apply OutKept.next
    | with_reducible refine Kept.snd (by assumption) ?_
    | with_reducible refine Kept.snd2 (by assumption) ?_
    | with_reducible apply State.event_kept

theorem State.disableRings_kept {s : State} {t : Nat} (h_s : Kept q n s) : Kept q n (State.disableRings s t) := by
  delta State.disableRings
  repeat' first
    | with_reducible assumption
    | (intro _; beta_reduce)
    | with_reducible apply OutKept.next
    | with_reducible refine Kept.snd (by assumption) ?_
    | with_reducible refine Kept.snd2 (by assumption) ?_
    | with_reducible apply State.setFld_kept
    | with_reducible apply Kept.ite
    | with_reducible apply Kept.ite2
    | with_reducible apply OutKept.ite
    | with_reducible apply Kept.foldl

theorem State.writeTenCtl_kept {s : State} {t : Nat} {v : BitVec 64} (h_s : Kept q n s) : Kept q n (State.writeTenCtl s t v) := by
  delta State.writeTenCtl
  repeat' first
    | with_reducible assumption
    | (intro _; beta_reduce)
    | with_reducible apply OutKept.next
    | with_reducible refine Kept.snd (by assumption) ?_
    | with_reducible refine Kept.snd2 (by assumption) ?_
    | with_reducible apply State.disableRings_kept
    | with_reducible apply State.tenIgnored_kept
    | with_reducible apply State.writeCodes_kept
    | with_reducible apply Kept.ite

theorem execMovTenCtlWrite_kept {by_ : Fin 4} {t : Fin 4} {v : BitVec 64} {s : State} (h_s : Kept q n s) : OutKept q n (execMovTenCtlWrite by_ t v s) := by
  delta execMovTenCtlWrite
  repeat' first
    | with_reducible assumption
    | (intro _; beta_reduce)
    | with_reducible apply OutKept.next
    | with_reducible refine Kept.snd (by assumption) ?_
    | with_reducible refine Kept.snd2 (by assumption) ?_
    | with_reducible apply State.writeTenCtl_kept
    | with_reducible apply Kept.ite

theorem State.writeCtxRegion_kept {s : State} {t : Nat} {isSlot : Bool} {v : BitVec 64} (h_s : Kept q n s) : Kept q n (State.writeCtxRegion s t isSlot v) := by
  delta State.writeCtxRegion
  repeat' first
    | with_reducible assumption
    | (intro _; beta_reduce)
    | with_reducible apply OutKept.next
    | with_reducible refine Kept.snd (by assumption) ?_
    | with_reducible refine Kept.snd2 (by assumption) ?_
    | with_reducible apply State.tenIgnored_kept
    | with_reducible apply State.writeCodes_kept
    | with_reducible apply Kept.ite

theorem execMovCtxRegionWrite_kept {by_ : Fin 4} {t : Fin 4} {isSlot : Bool} {v : BitVec 64} {s : State} (h_s : Kept q n s) : OutKept q n (execMovCtxRegionWrite by_ t isSlot v s) := by
  delta execMovCtxRegionWrite
  repeat' first
    | with_reducible assumption
    | (intro _; beta_reduce)
    | with_reducible apply OutKept.next
    | with_reducible refine Kept.snd (by assumption) ?_
    | with_reducible refine Kept.snd2 (by assumption) ?_
    | with_reducible apply State.writeCtxRegion_kept
    | with_reducible apply Kept.ite

theorem State.setStkPart_kept {s : State} {sl : Nat} {c : Nat} {x : StkPart} (h_s : Kept q n s) : Kept q n (State.setStkPart s sl c x) := by
  delta State.setStkPart
  repeat' first
    | with_reducible assumption
    | (intro _; beta_reduce)
    | with_reducible apply OutKept.next
    | with_reducible refine Kept.snd (by assumption) ?_
    | with_reducible refine Kept.snd2 (by assumption) ?_
    | with_reducible apply Kept.ite
    | with_reducible apply Kept.ite2
    | with_reducible apply OutKept.ite
    | with_reducible apply Kept.foldl
    | with_reducible apply Kept.foldl2
    | with_reducible apply Kept.foldl1
    | with_reducible apply Kept.ite1
    | (simp -zeta only [kept_mk]; with_reducible refine Kept.conj ?_)

theorem State.settleStacks_kept {s : State} {t : Nat} {c : Nat} (h_s : Kept q n s) : Kept q n (State.settleStacks s t c) := by
  delta State.settleStacks
  repeat' first
    | with_reducible assumption
    | (intro _; beta_reduce)
    | with_reducible apply OutKept.next
    | with_reducible refine Kept.snd (by assumption) ?_
    | with_reducible refine Kept.snd2 (by assumption) ?_
    | with_reducible apply State.setStkPart_kept
    | with_reducible apply Kept.ite
    | with_reducible apply Kept.ite2
    | with_reducible apply OutKept.ite
    | with_reducible apply Kept.foldl

theorem State.setStkTop_kept {s : State} {sl : Nat} {c : Nat} {top : Nat} {entries : Nat} (h_s : Kept q n s) : Kept q n (State.setStkTop s sl c top entries) := by
  delta State.setStkTop
  repeat' first
    | with_reducible assumption
    | (intro _; beta_reduce)
    | with_reducible apply OutKept.next
    | with_reducible refine Kept.snd (by assumption) ?_
    | with_reducible refine Kept.snd2 (by assumption) ?_
    | with_reducible apply State.setFld_kept

theorem State.emptySlot_kept {s : State} {sl : Nat} (h_s : Kept q n s) : Kept q n (State.emptySlot s sl) := by
  delta State.emptySlot
  repeat' first
    | with_reducible assumption
    | (intro _; beta_reduce)
    | with_reducible apply OutKept.next
    | with_reducible refine Kept.snd (by assumption) ?_
    | with_reducible refine Kept.snd2 (by assumption) ?_
    | with_reducible apply State.setStkPart_kept
    | with_reducible apply State.wr_kept
    | with_reducible apply Kept.ite
    | with_reducible apply Kept.ite2
    | with_reducible apply OutKept.ite
    | with_reducible apply Kept.foldl

theorem State.writeSlot_kept {s : State} {sl : Nat} {v : BitVec 64} (h_s : Kept q n s) : Kept q n (State.writeSlot s sl v) := by
  delta State.writeSlot
  repeat' first
    | with_reducible assumption
    | (intro _; beta_reduce)
    | with_reducible apply OutKept.next
    | with_reducible refine Kept.snd (by assumption) ?_
    | with_reducible refine Kept.snd2 (by assumption) ?_
    | with_reducible apply State.emptySlot_kept
    | with_reducible apply State.setFld_kept
    | with_reducible apply State.slotIgnored_kept
    | with_reducible apply State.wr_kept
    | with_reducible apply Kept.ite

theorem execStkSlotWrite_kept {by_ : Fin 4} {sl : Fin 16} {v : BitVec 64} {s : State} (h_s : Kept q n s) : OutKept q n (execStkSlotWrite by_ sl v s) := by
  delta execStkSlotWrite
  repeat' first
    | with_reducible assumption
    | (intro _; beta_reduce)
    | with_reducible apply OutKept.next
    | with_reducible refine Kept.snd (by assumption) ?_
    | with_reducible refine Kept.snd2 (by assumption) ?_
    | with_reducible apply State.writeSlot_kept
    | with_reducible apply Kept.ite

theorem State.writeKeyNdi_kept {s : State} {sl : Nat} {reg : Nat} {v : BitVec 64} (h_s : Kept q n s) : Kept q n (State.writeKeyNdi s sl reg v) := by
  delta State.writeKeyNdi
  repeat' first
    | with_reducible assumption
    | (intro _; beta_reduce)
    | with_reducible apply OutKept.next
    | with_reducible refine Kept.snd (by assumption) ?_
    | with_reducible refine Kept.snd2 (by assumption) ?_
    | with_reducible apply State.slotIgnored_kept
    | with_reducible apply State.writeCodes_kept
    | with_reducible apply Kept.ite

theorem execStkKeyNdiWrite_kept {by_ : Fin 4} {sl : Fin 16} {reg : Fin 3} {v : BitVec 64} {s : State} (h_s : Kept q n s) : OutKept q n (execStkKeyNdiWrite by_ sl reg v s) := by
  delta execStkKeyNdiWrite
  repeat' first
    | with_reducible assumption
    | (intro _; beta_reduce)
    | with_reducible apply OutKept.next
    | with_reducible refine Kept.snd (by assumption) ?_
    | with_reducible refine Kept.snd2 (by assumption) ?_
    | with_reducible apply State.writeKeyNdi_kept
    | with_reducible apply Kept.ite

theorem State.writeDpos_kept {s : State} {sl : Nat} {v : BitVec 64} (h_s : Kept q n s) : Kept q n (State.writeDpos s sl v) := by
  delta State.writeDpos
  repeat' first
    | with_reducible assumption
    | (intro _; beta_reduce)
    | with_reducible apply OutKept.next
    | with_reducible refine Kept.snd (by assumption) ?_
    | with_reducible refine Kept.snd2 (by assumption) ?_
    | with_reducible apply State.setFld_kept
    | with_reducible apply State.wr_kept

theorem execStkDposWrite_kept {by_ : Fin 4} {sl : Fin 16} {v : BitVec 64} {s : State} (h_s : Kept q n s) : OutKept q n (execStkDposWrite by_ sl v s) := by
  delta execStkDposWrite
  repeat' first
    | with_reducible assumption
    | (intro _; beta_reduce)
    | with_reducible apply OutKept.next
    | with_reducible refine Kept.snd (by assumption) ?_
    | with_reducible refine Kept.snd2 (by assumption) ?_
    | with_reducible apply State.writeDpos_kept
    | with_reducible apply Kept.ite

theorem State.writeBasePart_kept {s : State} {sl : Nat} {isPart : Bool} {v : BitVec 64} (h_s : Kept q n s) : Kept q n (State.writeBasePart s sl isPart v) := by
  delta State.writeBasePart
  repeat' first
    | with_reducible assumption
    | (intro _; beta_reduce)
    | with_reducible apply OutKept.next
    | with_reducible refine Kept.snd (by assumption) ?_
    | with_reducible refine Kept.snd2 (by assumption) ?_
    | with_reducible apply State.writeCodes_kept
    | with_reducible apply Kept.ite

theorem execStkBasePartWrite_kept {by_ : Fin 4} {sl : Fin 16} {isPart : Bool} {v : BitVec 64} {s : State} (h_s : Kept q n s) : OutKept q n (execStkBasePartWrite by_ sl isPart v s) := by
  delta execStkBasePartWrite
  repeat' first
    | with_reducible assumption
    | (intro _; beta_reduce)
    | with_reducible apply OutKept.next
    | with_reducible refine Kept.snd (by assumption) ?_
    | with_reducible refine Kept.snd2 (by assumption) ?_
    | with_reducible apply State.writeBasePart_kept
    | with_reducible apply Kept.ite

theorem execStkHwmWrite_kept {by_ : Fin 4} {sl : Fin 16} {_v : BitVec 64} {s : State} (h_s : Kept q n s) : OutKept q n (execStkHwmWrite by_ sl _v s) := by
  delta execStkHwmWrite
  repeat' first
    | with_reducible assumption
    | (intro _; beta_reduce)
    | with_reducible apply OutKept.next
    | with_reducible refine Kept.snd (by assumption) ?_
    | with_reducible refine Kept.snd2 (by assumption) ?_
    | with_reducible apply State.wr_kept
    | with_reducible apply Kept.ite

theorem State.raiseHwm_kept {s : State} {sl : Nat} {top : Nat} (h_s : Kept q n s) : Kept q n (State.raiseHwm s sl top) := by
  delta State.raiseHwm
  repeat' first
    | with_reducible assumption
    | (intro _; beta_reduce)
    | with_reducible apply OutKept.next
    | with_reducible refine Kept.snd (by assumption) ?_
    | with_reducible refine Kept.snd2 (by assumption) ?_
    | with_reducible apply State.setFld_kept

theorem State.journalize_kept {s : State} {r : MovRec} (h_s : Kept q n s) : Kept q n (State.journalize s r) := by
  delta State.journalize
  repeat' first
    | with_reducible assumption
    | (intro _; beta_reduce)
    | with_reducible apply OutKept.next
    | with_reducible refine Kept.snd (by assumption) ?_
    | with_reducible refine Kept.snd2 (by assumption) ?_
    | with_reducible apply State.modCl_kept
    | with_reducible apply Kept.ite
    | with_reducible apply Kept.ite2
    | with_reducible apply Kept.foldl
    | with_reducible apply Kept.foldl2
    | with_reducible apply Kept.foldl1
    | with_reducible apply Kept.ite1
    | (extract_lets +onlyGivenNames x; refine Kept.cut (x := x) (q := q) (n := n) ?_ ?_; (on_goal 1 => subst x); (on_goal 2 => (intro hx; clear_value x)))
    | (extract_lets +onlyGivenNames x; refine Kept.cut2 (x := x) (q := q) (n := n) ?_ ?_; (on_goal 1 => subst x); (on_goal 2 => (intro hx; clear_value x)))
    | (extract_lets +onlyGivenNames x; refine Kept.cutOp (x := x) (q := q) (n := n) ?_ ?_; (on_goal 1 => subst x); (on_goal 2 => (intro hop; clear_value x)))
    | (extract_lets +onlyGivenNames x; refine Kept.cutOp2 (x := x) (q := q) (n := n) ?_ ?_; (on_goal 1 => subst x); (on_goal 2 => (intro hop; clear_value x)))
    | (extract_lets +onlyGivenNames x; refine Kept.cutFn (x := x) (q := q) (n := n) ?_ ?_; (on_goal 1 => subst x); (on_goal 2 => (intro hfn; clear_value x)))
    | (extract_lets +onlyGivenNames x; clear_value x)
    | (simp -zeta only [kept_mk]; with_reducible refine Kept.conj ?_)
    | dsimp only
    | split

end Machine
end Sys2Proof
end

