-- ==== Sys2Proof/Laws/KeptMemory.lean ====
section
/-!
SUPPORT. What the operations of Machine/Memory.lean keep (see Laws/Kept.lean).
-/
namespace Sys2Proof
namespace Machine

variable {q : List Instr} {n : Nat}

theorem State.regionError_kept {s : State} (h_s : Kept q n s) : Kept q n (State.regionError s) := by
  delta State.regionError
  repeat' first
    | with_reducible assumption
    | (intro _; beta_reduce)
    | with_reducible apply OutKept.next
    | with_reducible refine Kept.snd (by assumption) ?_
    | with_reducible refine Kept.snd2 (by assumption) ?_
    | with_reducible apply State.event_kept

theorem State.writeRgnW0_kept {s : State} {t : Nat} {i : Nat} {v : BitVec 64} (h_s : Kept q n s) : Kept q n (State.writeRgnW0 s t i v) := by
  delta State.writeRgnW0
  repeat' first
    | with_reducible assumption
    | (intro _; beta_reduce)
    | with_reducible apply OutKept.next
    | with_reducible refine Kept.snd (by assumption) ?_
    | with_reducible refine Kept.snd2 (by assumption) ?_
    | with_reducible apply State.regionError_kept
    | with_reducible apply State.writeCodes_kept
    | with_reducible apply Kept.ite

theorem State.writeRgnW1_kept {s : State} {t : Nat} {i : Nat} {v : BitVec 64} (h_s : Kept q n s) : Kept q n (State.writeRgnW1 s t i v) := by
  delta State.writeRgnW1
  repeat' first
    | with_reducible assumption
    | (intro _; beta_reduce)
    | with_reducible apply OutKept.next
    | with_reducible refine Kept.snd (by assumption) ?_
    | with_reducible refine Kept.snd2 (by assumption) ?_
    | with_reducible apply State.regionError_kept
    | with_reducible apply State.writeCodes_kept
    | with_reducible apply Kept.ite

theorem execMemRgnW0Write_kept {by_ : Fin 4} {t : Fin 4} {i : Fin 256} {v : BitVec 64} {s : State} (h_s : Kept q n s) : OutKept q n (execMemRgnW0Write by_ t i v s) := by
  delta execMemRgnW0Write
  repeat' first
    | with_reducible assumption
    | (intro _; beta_reduce)
    | with_reducible apply OutKept.next
    | with_reducible refine Kept.snd (by assumption) ?_
    | with_reducible refine Kept.snd2 (by assumption) ?_
    | with_reducible apply State.writeRgnW0_kept
    | with_reducible apply Kept.ite

theorem execMemRgnW1Write_kept {by_ : Fin 4} {t : Fin 4} {i : Fin 256} {v : BitVec 64} {s : State} (h_s : Kept q n s) : OutKept q n (execMemRgnW1Write by_ t i v s) := by
  delta execMemRgnW1Write
  repeat' first
    | with_reducible assumption
    | (intro _; beta_reduce)
    | with_reducible apply OutKept.next
    | with_reducible refine Kept.snd (by assumption) ?_
    | with_reducible refine Kept.snd2 (by assumption) ?_
    | with_reducible apply State.writeRgnW1_kept
    | with_reducible apply Kept.ite

theorem State.writeRsv_kept {s : State} {v : BitVec 64} (h_s : Kept q n s) : Kept q n (State.writeRsv s v) := by
  delta State.writeRsv
  repeat' first
    | with_reducible assumption
    | (intro _; beta_reduce)
    | with_reducible apply OutKept.next
    | with_reducible refine Kept.snd (by assumption) ?_
    | with_reducible refine Kept.snd2 (by assumption) ?_
    | with_reducible apply State.regionError_kept
    | with_reducible apply State.writeCodes_kept
    | with_reducible apply Kept.ite

theorem execMemRsvWrite_kept {by_ : Fin 4} {v : BitVec 32} {s : State} (h_s : Kept q n s) : OutKept q n (execMemRsvWrite by_ v s) := by
  delta execMemRsvWrite
  repeat' first
    | with_reducible assumption
    | (intro _; beta_reduce)
    | with_reducible apply OutKept.next
    | with_reducible refine Kept.snd (by assumption) ?_
    | with_reducible refine Kept.snd2 (by assumption) ?_
    | with_reducible apply State.writeRsv_kept
    | with_reducible apply Kept.ite

theorem State.withhold_kept {s : State} {p : Nat} (h_s : Kept q n s) : Kept q n (State.withhold s p) := by
  delta State.withhold
  repeat' first
    | with_reducible assumption
    | (intro _; beta_reduce)
    | with_reducible apply OutKept.next
    | with_reducible refine Kept.snd (by assumption) ?_
    | with_reducible refine Kept.snd2 (by assumption) ?_
    | with_reducible apply State.setFld_kept
    | with_reducible apply Kept.ite

theorem execMemWithhold_kept {by_ : Fin 4} {p : Fin 512} {s : State} (h_s : Kept q n s) : OutKept q n (execMemWithhold by_ p s) := by
  delta execMemWithhold
  repeat' first
    | with_reducible assumption
    | (intro _; beta_reduce)
    | with_reducible apply OutKept.next
    | with_reducible refine Kept.snd (by assumption) ?_
    | with_reducible refine Kept.snd2 (by assumption) ?_
    | with_reducible apply State.setFld_kept
    | with_reducible apply State.withhold_kept
    | with_reducible apply Kept.ite

theorem State.commit_kept {s : State} {p : Nat} {alsoWithhold : Bool} (h_s : Kept q n s) : Kept q n (State.commit s p alsoWithhold) := by
  delta State.commit
  repeat' first
    | with_reducible assumption
    | (intro _; beta_reduce)
    | with_reducible apply OutKept.next
    | with_reducible refine Kept.snd (by assumption) ?_
    | with_reducible refine Kept.snd2 (by assumption) ?_
    | with_reducible apply State.event_kept
    | with_reducible apply State.setFld_kept
    | with_reducible apply Kept.ite
    | with_reducible apply Kept.ite2
    | with_reducible apply OutKept.ite
    | with_reducible apply Kept.foldl
    | with_reducible apply Kept.foldl2
    | with_reducible apply Kept.foldl1
    | with_reducible apply Kept.ite1
    | (extract_lets +onlyGivenNames x; refine Kept.cut (x := x) (q := q) (n := n) ?_ ?_; (on_goal 1 => subst x); (on_goal 2 => (intro hx; clear_value x)))
    | (extract_lets +onlyGivenNames x; refine Kept.cut2 (x := x) (q := q) (n := n) ?_ ?_; (on_goal 1 => subst x); (on_goal 2 => (intro hx; clear_value x)))
    | (extract_lets +onlyGivenNames x; refine Kept.cutOp (x := x) (q := q) (n := n) ?_ ?_; (on_goal 1 => subst x); (on_goal 2 => (intro hop; clear_value x)))
    | (extract_lets +onlyGivenNames x; refine Kept.cutOp2 (x := x) (q := q) (n := n) ?_ ?_; (on_goal 1 => subst x); (on_goal 2 => (intro hop; clear_value x)))
    | (extract_lets +onlyGivenNames x; refine Kept.cutFn (x := x) (q := q) (n := n) ?_ ?_; (on_goal 1 => subst x); (on_goal 2 => (intro hfn; clear_value x)))
    | (extract_lets +onlyGivenNames x; clear_value x)
    | (simp -zeta only [kept_mk]; with_reducible refine Kept.conj ?_)

theorem State.commitEnd_kept {s : State} (h_s : Kept q n s) : Kept q n (State.commitEnd s) := by
  delta State.commitEnd
  repeat' first
    | with_reducible assumption
    | (intro _; beta_reduce)
    | with_reducible apply OutKept.next
    | with_reducible refine Kept.snd (by assumption) ?_
    | with_reducible refine Kept.snd2 (by assumption) ?_
    | with_reducible apply State.cntBy_kept
    | with_reducible apply State.setFld_kept
    | with_reducible apply Kept.ite
    | with_reducible apply Kept.ite2
    | with_reducible apply OutKept.ite
    | with_reducible apply Kept.foldl
    | with_reducible apply Kept.foldl2
    | with_reducible apply Kept.foldl1
    | with_reducible apply Kept.ite1
    | (extract_lets +onlyGivenNames x; refine Kept.cut (x := x) (q := q) (n := n) ?_ ?_; (on_goal 1 => subst x); (on_goal 2 => (intro hx; clear_value x)))
    | (extract_lets +onlyGivenNames x; refine Kept.cut2 (x := x) (q := q) (n := n) ?_ ?_; (on_goal 1 => subst x); (on_goal 2 => (intro hx; clear_value x)))
    | (extract_lets +onlyGivenNames x; refine Kept.cutOp (x := x) (q := q) (n := n) ?_ ?_; (on_goal 1 => subst x); (on_goal 2 => (intro hop; clear_value x)))
    | (extract_lets +onlyGivenNames x; refine Kept.cutOp2 (x := x) (q := q) (n := n) ?_ ?_; (on_goal 1 => subst x); (on_goal 2 => (intro hop; clear_value x)))
    | (extract_lets +onlyGivenNames x; refine Kept.cutFn (x := x) (q := q) (n := n) ?_ ?_; (on_goal 1 => subst x); (on_goal 2 => (intro hfn; clear_value x)))
    | (extract_lets +onlyGivenNames x; clear_value x)
    | (simp -zeta only [kept_mk]; with_reducible refine Kept.conj ?_)
    | dsimp only
    | split

theorem execHbmRefresh_kept {_p : Fin 512} {_bank : Nat} {s : State} (h_s : Kept q n s) : OutKept q n (execHbmRefresh _p _bank s) := by
  delta execHbmRefresh
  repeat' first
    | with_reducible assumption
    | (intro _; beta_reduce)
    | with_reducible apply OutKept.next

end Machine
end Sys2Proof
end

