-- ==== Sys2Proof/Laws/KeptTrust.lean ====
section
/-!
SUPPORT. What the operations of Machine/Trust.lean keep (see Laws/Kept.lean).
-/
namespace Sys2Proof
namespace Machine

variable {q : List Instr} {n : Nat}

theorem State.putWords_kept {s : State} {reg : Nat → Nat} {n_ : Nat} {bs : List Byte} (h_s : Kept q n s) : Kept q n (State.putWords s reg n_ bs) := by
  delta State.putWords
  repeat' first
    | with_reducible assumption
    | (intro _; beta_reduce)
    | with_reducible apply OutKept.next
    | with_reducible refine Kept.snd (by assumption) ?_
    | with_reducible refine Kept.snd2 (by assumption) ?_
    | with_reducible apply State.take_kept
    | with_reducible apply State.wr_kept
    | with_reducible apply Kept.ite
    | with_reducible apply Kept.ite2
    | with_reducible apply OutKept.ite
    | with_reducible apply Kept.foldl

theorem State.extend_kept {s : State} {i : Nat} {kind : Nat} {tenant : Nat} {c : Component} {d : List Byte} (h_s : Kept q n s) : Kept q n (State.extend s i kind tenant c d) := by
  delta State.extend
  repeat' first
    | with_reducible assumption
    | (intro _; beta_reduce)
    | with_reducible apply OutKept.next
    | with_reducible refine Kept.snd (by assumption) ?_
    | with_reducible refine Kept.snd2 (by assumption) ?_
    | with_reducible apply State.putWords_kept
    | with_reducible apply State.setFld_kept

theorem State.secExtend_kept {s : State} {ix : Nat} (h_s : Kept q n s) : Kept q n (State.secExtend s ix) := by
  delta State.secExtend
  repeat' first
    | with_reducible assumption
    | (intro _; beta_reduce)
    | with_reducible apply OutKept.next
    | with_reducible refine Kept.snd (by assumption) ?_
    | with_reducible refine Kept.snd2 (by assumption) ?_
    | with_reducible apply State.extend_kept

theorem execSecExtend_kept {by_ : Fin 4} {ix : Fin 4} {s : State} (h_s : Kept q n s) : OutKept q n (execSecExtend by_ ix s) := by
  delta execSecExtend
  repeat' first
    | with_reducible assumption
    | (intro _; beta_reduce)
    | with_reducible apply OutKept.next
    | with_reducible refine Kept.snd (by assumption) ?_
    | with_reducible refine Kept.snd2 (by assumption) ?_
    | with_reducible apply State.secExtend_kept
    | with_reducible apply Kept.ite

theorem State.nonce_kept {s : State} (h_s : Kept q n s) : Kept q n (State.nonce s).2 := by
  delta State.nonce
  repeat' first
    | with_reducible assumption
    | (intro _; beta_reduce)
    | with_reducible apply OutKept.next
    | with_reducible refine Kept.snd (by assumption) ?_
    | with_reducible refine Kept.snd2 (by assumption) ?_
    | with_reducible apply State.free_kept

theorem State.sign_kept {s : State} {msg : List Byte} (h_s : Kept q n s) : Kept q n (State.sign s msg).2 := by
  delta State.sign
  repeat' first
    | with_reducible assumption
    | (intro _; beta_reduce)
    | with_reducible apply OutKept.next
    | with_reducible refine Kept.snd (by assumption) ?_
    | with_reducible refine Kept.snd2 (by assumption) ?_
    | with_reducible apply State.nonce_kept

theorem State.resignRepair_kept {s : State} (h_s : Kept q n s) : Kept q n (State.resignRepair s) := by
  delta State.resignRepair
  repeat' first
    | with_reducible assumption
    | (intro _; beta_reduce)
    | with_reducible apply OutKept.next
    | with_reducible refine Kept.snd (by assumption) ?_
    | with_reducible refine Kept.snd2 (by assumption) ?_
    | with_reducible apply State.extend_kept
    | with_reducible apply State.sign_kept
    | with_reducible apply Kept.ite
    | with_reducible apply Kept.ite2
    | with_reducible apply OutKept.ite
    | with_reducible apply Kept.foldl
    | with_reducible apply Kept.foldl2
    | with_reducible apply Kept.foldl1
    | with_reducible apply Kept.ite1
    | (extract_lets +onlyGivenNames x; refine Kept.cut (x := x) (q := q) (n := n) ?_ ?_; (on_goal 1 => subst x); (on_goal 2 => (intro hx; clear_value x)))
    | (extract_lets +onlyGivenNames x; refine Kept.cut2 (x := x) (q := q) (n := n) ?_ ?_; (on_goal 1 => subst x); (on_goal 2 => (intro hx; clear_value x)))
    | (extract_lets +onlyGivenNames x; refine Kept.cutOp (x := x) (q := q) (n := n) ?_ ?_; (on_goal 1 => subst x); (on_goal 2 => (intro hop; clear_value x)))
    | (extract_lets +onlyGivenNames x; refine Kept.cutOp2 (x := x) (q := q) (n := n) ?_ ?_; (on_goal 1 => subst x); (on_goal 2 => (intro hop; clear_value x)))
    | (extract_lets +onlyGivenNames x; refine Kept.cutFn (x := x) (q := q) (n := n) ?_ ?_; (on_goal 1 => subst x); (on_goal 2 => (intro hfn; clear_value x)))
    | (extract_lets +onlyGivenNames x; clear_value x)
    | (simp -zeta only [kept_mk]; with_reducible refine Kept.conj ?_)

theorem State.repairPut_kept {s : State} {u : Nat} {v : Nat} (h_s : Kept q n s) : Kept q n (State.repairPut s u v) := by
  delta State.repairPut
  repeat' first
    | with_reducible assumption
    | (intro _; beta_reduce)
    | with_reducible apply OutKept.next
    | with_reducible refine Kept.snd (by assumption) ?_
    | with_reducible refine Kept.snd2 (by assumption) ?_
    | with_reducible apply State.resignRepair_kept
    | with_reducible apply State.setFld_kept
    | with_reducible apply Kept.ite
    | with_reducible apply Kept.ite2
    | with_reducible apply OutKept.ite
    | with_reducible apply Kept.foldl
    | with_reducible apply Kept.foldl2
    | with_reducible apply Kept.foldl1
    | with_reducible apply Kept.ite1
    | (extract_lets +onlyGivenNames x; refine Kept.cut (x := x) (q := q) (n := n) ?_ ?_; (on_goal 1 => subst x); (on_goal 2 => (intro hx; clear_value x)))
    | (extract_lets +onlyGivenNames x; refine Kept.cut2 (x := x) (q := q) (n := n) ?_ ?_; (on_goal 1 => subst x); (on_goal 2 => (intro hx; clear_value x)))
    | (extract_lets +onlyGivenNames x; refine Kept.cutOp (x := x) (q := q) (n := n) ?_ ?_; (on_goal 1 => subst x); (on_goal 2 => (intro hop; clear_value x)))
    | (extract_lets +onlyGivenNames x; refine Kept.cutOp2 (x := x) (q := q) (n := n) ?_ ?_; (on_goal 1 => subst x); (on_goal 2 => (intro hop; clear_value x)))
    | (extract_lets +onlyGivenNames x; refine Kept.cutFn (x := x) (q := q) (n := n) ?_ ?_; (on_goal 1 => subst x); (on_goal 2 => (intro hfn; clear_value x)))
    | (extract_lets +onlyGivenNames x; clear_value x)
    | (simp -zeta only [kept_mk]; with_reducible refine Kept.conj ?_)

theorem State.writeOwnerKey_kept {s : State} {k : Nat} {w : Nat} {v : BitVec 64} (h_s : Kept q n s) : Kept q n (State.writeOwnerKey s k w v) := by
  delta State.writeOwnerKey
  repeat' first
    | with_reducible assumption
    | (intro _; beta_reduce)
    | with_reducible apply OutKept.next
    | with_reducible refine Kept.snd (by assumption) ?_
    | with_reducible refine Kept.snd2 (by assumption) ?_
    | with_reducible apply State.putWords_kept
    | with_reducible apply State.writeCodes_kept
    | with_reducible apply Kept.ite

theorem execSecOwnerKeyWrite_kept {by_ : Fin 4} {k : Fin 16} {w : Fin 9} {v : BitVec 64} {s : State} (h_s : Kept q n s) : OutKept q n (execSecOwnerKeyWrite by_ k w v s) := by
  delta execSecOwnerKeyWrite
  repeat' first
    | with_reducible assumption
    | (intro _; beta_reduce)
    | with_reducible apply OutKept.next
    | with_reducible refine Kept.snd (by assumption) ?_
    | with_reducible refine Kept.snd2 (by assumption) ?_
    | with_reducible apply State.writeOwnerKey_kept
    | with_reducible apply Kept.ite

theorem State.writeSecCtl_kept {s : State} {v : BitVec 64} (h_s : Kept q n s) : Kept q n (State.writeSecCtl s v) := by
  delta State.writeSecCtl
  repeat' first
    | with_reducible assumption
    | (intro _; beta_reduce)
    | with_reducible apply OutKept.next
    | with_reducible refine Kept.snd (by assumption) ?_
    | with_reducible refine Kept.snd2 (by assumption) ?_
    | with_reducible apply State.extend_kept
    | with_reducible apply State.writeCodes_kept
    | with_reducible apply Kept.ite

theorem execSecLockWrite_kept {by_ : Fin 4} {v : BitVec 32} {s : State} (h_s : Kept q n s) : OutKept q n (execSecLockWrite by_ v s) := by
  delta execSecLockWrite
  repeat' first
    | with_reducible assumption
    | (intro _; beta_reduce)
    | with_reducible apply OutKept.next
    | with_reducible refine Kept.snd (by assumption) ?_
    | with_reducible refine Kept.snd2 (by assumption) ?_
    | with_reducible apply State.writeSecCtl_kept
    | with_reducible apply Kept.ite

theorem State.writeDebugCtl_kept {s : State} {v : BitVec 64} (h_s : Kept q n s) : Kept q n (State.writeDebugCtl s v) := by
  delta State.writeDebugCtl
  repeat' first
    | with_reducible assumption
    | (intro _; beta_reduce)
    | with_reducible apply OutKept.next
    | with_reducible refine Kept.snd (by assumption) ?_
    | with_reducible refine Kept.snd2 (by assumption) ?_
    | with_reducible apply State.setFld_kept
    | with_reducible apply State.writeCodes_kept
    | with_reducible apply Kept.ite

theorem execDebugCtlWrite_kept {by_ : Fin 4} {v : BitVec 32} {s : State} (h_s : Kept q n s) : OutKept q n (execDebugCtlWrite by_ v s) := by
  delta execDebugCtlWrite
  repeat' first
    | with_reducible assumption
    | (intro _; beta_reduce)
    | with_reducible apply OutKept.next
    | with_reducible refine Kept.snd (by assumption) ?_
    | with_reducible refine Kept.snd2 (by assumption) ?_
    | with_reducible apply State.writeDebugCtl_kept
    | with_reducible apply Kept.ite

theorem State.attest_kept {s : State} {nonce : List Byte} (h_s : Kept q n s) : Kept q n (State.attest s nonce).2 := by
  delta State.attest
  repeat' first
    | with_reducible assumption
    | (intro _; beta_reduce)
    | with_reducible apply OutKept.next
    | with_reducible refine Kept.snd (by assumption) ?_
    | with_reducible refine Kept.snd2 (by assumption) ?_
    | with_reducible apply State.nonce_kept
    | with_reducible apply State.replicate_kept
    | with_reducible apply State.sign_kept
    | with_reducible apply State.take_kept
    | with_reducible apply Kept.ite
    | with_reducible apply Kept.ite2

end Machine
end Sys2Proof
end

