-- ==== Sys2Proof/Laws/KeptCadence.lean ====
section
/-!
SUPPORT. What the operations of Machine/Cadence.lean keep (see Laws/Kept.lean).
-/
namespace Sys2Proof
namespace Machine

variable {q : List Instr} {n : Nat}

theorem State.armSignal_kept {s : State} {c : Nat} {j : Nat} {tok : Nat} (h_s : Kept q n s) : Kept q n (State.armSignal s c j tok) := by
  delta State.armSignal
  repeat' first
    | with_reducible assumption
    | (intro _; beta_reduce)
    | with_reducible apply OutKept.next
    | with_reducible refine Kept.snd (by assumption) ?_
    | with_reducible refine Kept.snd2 (by assumption) ?_
    | with_reducible apply State.signal_kept
    | with_reducible apply State.signalTo_kept
    | with_reducible apply Kept.ite

theorem State.armAction_kept {s : State} {a : ArmId} {step : Nat} {action : Nat} {arg : Nat} (h_s : Kept q n s) : Kept q n (State.armAction s a step action arg) := by
  delta State.armAction
  repeat' first
    | with_reducible assumption
    | (intro _; beta_reduce)
    | with_reducible apply OutKept.next
    | with_reducible refine Kept.snd (by assumption) ?_
    | with_reducible refine Kept.snd2 (by assumption) ?_
    | with_reducible apply State.armSignal_kept
    | with_reducible apply State.selectProfile_kept
    | with_reducible apply State.setWindow_kept
    | with_reducible apply State.snapshot_kept
    | with_reducible apply State.startDrain_kept
    | with_reducible apply State.startSlice_kept
    | with_reducible apply State.twinPush_kept
    | with_reducible apply Kept.ite
    | with_reducible apply Kept.ite2
    | with_reducible apply OutKept.ite
    | with_reducible apply Kept.foldl
    | with_reducible apply Kept.foldl2
    | with_reducible apply Kept.foldl1
    | with_reducible apply Kept.ite1
    | dsimp only
    | split

theorem State.armFire_kept {s : State} {a : ArmId} {late : Bool} (h_s : Kept q n s) : Kept q n (State.armFire s a late) := by
  delta State.armFire
  repeat' first
    | with_reducible assumption
    | (intro _; beta_reduce)
    | with_reducible apply OutKept.next
    | with_reducible refine Kept.snd (by assumption) ?_
    | with_reducible refine Kept.snd2 (by assumption) ?_
    | with_reducible apply State.armAction_kept
    | with_reducible apply State.event_kept
    | with_reducible apply State.setFld_kept
    | with_reducible apply State.wr_kept
    | with_reducible apply Kept.ite

theorem State.armRun_kept {k : Nat} {s : State} {a : ArmId} {late : Bool} (h_s : Kept q n s) :
    Kept q n (State.armRun k s a late) := by
  induction k generalizing s with
  | zero => exact h_s
  | succ k ih =>
    simp only [State.armRun]
    exact Kept.ite (ih (State.armFire_kept h_s)) h_s

theorem State.fireArm_kept {s : State} {late : Bool} {a : ArmId} (h_s : Kept q n s) : Kept q n (State.fireArm s late a) := by
  delta State.fireArm
  repeat' first
    | with_reducible assumption
    | (intro _; beta_reduce)
    | with_reducible apply OutKept.next
    | with_reducible refine Kept.snd (by assumption) ?_
    | with_reducible refine Kept.snd2 (by assumption) ?_
    | with_reducible apply State.armRun_kept

theorem State.acceptBeat_kept {s : State} {pos : BitVec 64} {master : Nat} {send : Bool} (h_s : Kept q n s) : Kept q n (State.acceptBeat s pos master send) := by
  delta State.acceptBeat
  repeat' first
    | with_reducible assumption
    | (intro _; beta_reduce)
    | with_reducible apply OutKept.next
    | with_reducible refine Kept.snd (by assumption) ?_
    | with_reducible refine Kept.snd2 (by assumption) ?_
    | with_reducible apply State.bumpGlb_kept
    | with_reducible apply State.cnt_kept
    | with_reducible apply State.congClose_kept
    | with_reducible apply State.fireArm_kept
    | with_reducible apply State.inject_kept
    | with_reducible apply State.releaseHold_kept
    | with_reducible apply State.selectProfile_kept
    | with_reducible apply State.setFld_kept
    | with_reducible apply State.trace_kept
    | with_reducible apply State.wr_kept
    | with_reducible apply Kept.ite
    | with_reducible apply Kept.ite2
    | with_reducible apply Kept.foldl
    | with_reducible apply Kept.foldl2
    | with_reducible apply Kept.foldl1
    | with_reducible apply Kept.ite1
    | (extract_lets +onlyGivenNames x; refine Kept.cut (x := x) (q := q) (n := n) ?_ ?_; (on_goal 1 => subst x); (on_goal 2 => (intro hx; clear_value x)))
    | (extract_lets +onlyGivenNames x; refine Kept.cut2 (x := x) (q := q) (n := n) ?_ ?_; (on_goal 1 => subst x); (on_goal 2 => (intro hx; clear_value x)))
    | (extract_lets +onlyGivenNames x; refine Kept.cutOp (x := x) (q := q) (n := n) ?_ ?_; (on_goal 1 => subst x); (on_goal 2 => (intro hop; clear_value x)))
    | (extract_lets +onlyGivenNames x; refine Kept.cutOp2 (x := x) (q := q) (n := n) ?_ ?_; (on_goal 1 => subst x); (on_goal 2 => (intro hop; clear_value x)))
    | (extract_lets +onlyGivenNames x; refine Kept.cutFn (x := x) (q := q) (n := n) ?_ ?_; (on_goal 1 => subst x); (on_goal 2 => (intro hfn; clear_value x)))
    | (extract_lets +onlyGivenNames x; clear_value x)
    | (simp -zeta only [kept_mk]; with_reducible refine Kept.conj ?_)
    | dsimp only
    | split

theorem State.offerBeat_kept {s : State} {src : Nat} {pos : BitVec 64} {master : Nat} (h_s : Kept q n s) : Kept q n (State.offerBeat s src pos master) := by
  delta State.offerBeat
  repeat' first
    | with_reducible assumption
    | (intro _; beta_reduce)
    | with_reducible apply OutKept.next
    | with_reducible refine Kept.snd (by assumption) ?_
    | with_reducible refine Kept.snd2 (by assumption) ?_
    | with_reducible apply State.acceptBeat_kept
    | with_reducible apply State.event_kept
    | with_reducible apply Kept.ite

theorem execBeatPacketRx_kept {p : Packet} {s : State} (h_s : Kept q n s) : OutKept q n (execBeatPacketRx p s) := by
  delta execBeatPacketRx
  repeat' first
    | with_reducible assumption
    | (intro _; beta_reduce)
    | with_reducible apply OutKept.next
    | with_reducible refine Kept.snd (by assumption) ?_
    | with_reducible refine Kept.snd2 (by assumption) ?_
    | with_reducible apply State.badPacket_kept
    | with_reducible apply State.offerBeat_kept
    | with_reducible apply State.take_kept
    | with_reducible apply Kept.ite

theorem State.pinError_kept {s : State} (h_s : Kept q n s) : Kept q n (State.pinError s) := by
  delta State.pinError
  repeat' first
    | with_reducible assumption
    | (intro _; beta_reduce)
    | with_reducible apply OutKept.next
    | with_reducible refine Kept.snd (by assumption) ?_
    | with_reducible refine Kept.snd2 (by assumption) ?_
    | with_reducible apply State.event_kept

theorem execCadenceFrameRx_kept {pos : BitVec 64} {check : BitVec 8} {s : State} (h_s : Kept q n s) : OutKept q n (execCadenceFrameRx pos check s) := by
  delta execCadenceFrameRx
  repeat' first
    | with_reducible assumption
    | (intro _; beta_reduce)
    | with_reducible apply OutKept.next
    | with_reducible refine Kept.snd (by assumption) ?_
    | with_reducible refine Kept.snd2 (by assumption) ?_
    | with_reducible apply State.offerBeat_kept
    | with_reducible apply State.pinError_kept
    | with_reducible apply Kept.ite

theorem execCadenceInMissingTransition_kept {synced : Bool} {s : State} (h_s : Kept q n s) : OutKept q n (execCadenceInMissingTransition synced s) := by
  delta execCadenceInMissingTransition
  repeat' first
    | with_reducible assumption
    | (intro _; beta_reduce)
    | with_reducible apply OutKept.next
    | with_reducible refine Kept.snd (by assumption) ?_
    | with_reducible refine Kept.snd2 (by assumption) ?_
    | with_reducible apply State.pinError_kept
    | with_reducible apply Kept.ite

theorem State.armError_kept {s : State} (h_s : Kept q n s) : Kept q n (State.armError s) := by
  delta State.armError
  repeat' first
    | with_reducible assumption
    | (intro _; beta_reduce)
    | with_reducible apply OutKept.next
    | with_reducible refine Kept.snd (by assumption) ?_
    | with_reducible refine Kept.snd2 (by assumption) ?_
    | with_reducible apply State.event_kept

theorem State.writeArmPos_kept {s : State} {by_ : Nat} {a : ArmId} {v : BitVec 64} (h_s : Kept q n s) : Kept q n (State.writeArmPos s by_ a v) := by
  delta State.writeArmPos
  repeat' first
    | with_reducible assumption
    | (intro _; beta_reduce)
    | with_reducible apply OutKept.next
    | with_reducible refine Kept.snd (by assumption) ?_
    | with_reducible refine Kept.snd2 (by assumption) ?_
    | with_reducible apply State.armError_kept
    | with_reducible apply State.fireArm_kept
    | with_reducible apply State.wr_kept
    | with_reducible apply Kept.ite

theorem State.writeArmCtl_kept {s : State} {by_ : Nat} {a : ArmId} {v : BitVec 64} (h_s : Kept q n s) : Kept q n (State.writeArmCtl s by_ a v) := by
  delta State.writeArmCtl
  repeat' first
    | with_reducible assumption
    | (intro _; beta_reduce)
    | with_reducible apply OutKept.next
    | with_reducible refine Kept.snd (by assumption) ?_
    | with_reducible refine Kept.snd2 (by assumption) ?_
    | with_reducible apply State.armError_kept
    | with_reducible apply State.fireArm_kept
    | with_reducible apply State.wr_kept
    | with_reducible apply Kept.ite

theorem execArmPosWrite_kept {by_ : Fin 4} {a : ArmId} {v : BitVec 64} {s : State} (h_s : Kept q n s) : OutKept q n (execArmPosWrite by_ a v s) := by
  delta execArmPosWrite
  repeat' first
    | with_reducible assumption
    | (intro _; beta_reduce)
    | with_reducible apply OutKept.next
    | with_reducible refine Kept.snd (by assumption) ?_
    | with_reducible refine Kept.snd2 (by assumption) ?_
    | with_reducible apply State.writeArmPos_kept
    | with_reducible apply Kept.ite

theorem execArmCtlWrite_kept {by_ : Fin 4} {a : ArmId} {v : BitVec 64} {s : State} (h_s : Kept q n s) : OutKept q n (execArmCtlWrite by_ a v s) := by
  delta execArmCtlWrite
  repeat' first
    | with_reducible assumption
    | (intro _; beta_reduce)
    | with_reducible apply OutKept.next
    | with_reducible refine Kept.snd (by assumption) ?_
    | with_reducible refine Kept.snd2 (by assumption) ?_
    | with_reducible apply State.writeArmCtl_kept
    | with_reducible apply Kept.ite

theorem State.loadArm_kept {s : State} {a : ArmId} {pos : BitVec 64} {ctl : BitVec 64} (h_s : Kept q n s) : Kept q n (State.loadArm s a pos ctl) := by
  delta State.loadArm
  repeat' first
    | with_reducible assumption
    | (intro _; beta_reduce)
    | with_reducible apply OutKept.next
    | with_reducible refine Kept.snd (by assumption) ?_
    | with_reducible refine Kept.snd2 (by assumption) ?_
    | with_reducible apply State.writeArmCtl_kept
    | with_reducible apply State.writeArmPos_kept

end Machine
end Sys2Proof
end

