-- ==== Sys2Proof/Laws/KeptMailbox.lean ====
section
/-!
SUPPORT. What the operations of Machine/Mailbox.lean keep (see Laws/Kept.lean).
-/
namespace Sys2Proof
namespace Machine

variable {q : List Instr} {n : Nat}

theorem State.kprGo_kept {s : State} {ch : Nat} (h_s : Kept q n s) : Kept q n (State.kprGo s ch) := by
  delta State.kprGo
  repeat' first
    | with_reducible assumption
    | (intro _; beta_reduce)
    | with_reducible apply OutKept.next
    | with_reducible refine Kept.snd (by assumption) ?_
    | with_reducible refine Kept.snd2 (by assumption) ?_
    | with_reducible apply State.event_kept
    | with_reducible apply State.kprRespond_kept
    | with_reducible apply State.setFld_kept
    | with_reducible apply Kept.ite

end Machine
end Sys2Proof
end

