-- ==== Sys2Proof/Laws/KeptRegisters.lean ====
section
/-!
SUPPORT. What the operations of Machine/Registers.lean keep (see Laws/Kept.lean).
-/
namespace Sys2Proof
namespace Machine

variable {q : List Instr} {n : Nat}

theorem State.writeFenceCmd_kept {s : State} {v : BitVec 64} (h_s : Kept q n s) : Kept q n (State.writeFenceCmd s v) := by
  delta State.writeFenceCmd
  repeat' first
    | with_reducible assumption
    | (intro _; beta_reduce)
    | with_reducible apply OutKept.next
    | with_reducible refine Kept.snd (by assumption) ?_
    | with_reducible refine Kept.snd2 (by assumption) ?_
    | with_reducible apply State.applyFence_kept
    | with_reducible apply State.clearFences_kept
    | with_reducible apply State.setFence_kept
    | with_reducible apply State.showColls_kept
    | with_reducible apply Kept.ite
    | with_reducible apply Kept.ite2
    | with_reducible apply Kept.ite1
    | (extract_lets +onlyGivenNames x; refine Kept.cut (x := x) (q := q) (n := n) ?_ ?_; (on_goal 1 => subst x); (on_goal 2 => (intro hx; clear_value x)))
    | (extract_lets +onlyGivenNames x; refine Kept.cut2 (x := x) (q := q) (n := n) ?_ ?_; (on_goal 1 => subst x); (on_goal 2 => (intro hx; clear_value x)))
    | (extract_lets +onlyGivenNames x; refine Kept.cutOp (x := x) (q := q) (n := n) ?_ ?_; (on_goal 1 => subst x); (on_goal 2 => (intro hop; clear_value x)))
    | (extract_lets +onlyGivenNames x; refine Kept.cutOp2 (x := x) (q := q) (n := n) ?_ ?_; (on_goal 1 => subst x); (on_goal 2 => (intro hop; clear_value x)))
    | (extract_lets +onlyGivenNames x; refine Kept.cutFn (x := x) (q := q) (n := n) ?_ ?_; (on_goal 1 => subst x); (on_goal 2 => (intro hfn; clear_value x)))
    | (extract_lets +onlyGivenNames x; clear_value x)
    | (simp -zeta only [kept_mk]; with_reducible refine Kept.conj ?_)
    | dsimp only
    | split

theorem State.preemptCmd_kept {s : State} {v : BitVec 64} (h_s : Kept q n s) : Kept q n (State.preemptCmd s v) := by
  delta State.preemptCmd
  repeat' first
    | with_reducible assumption
    | (intro _; beta_reduce)
    | with_reducible apply OutKept.next
    | with_reducible refine Kept.snd (by assumption) ?_
    | with_reducible refine Kept.snd2 (by assumption) ?_
    | with_reducible apply State.preemptDiscard_kept
    | with_reducible apply State.preemptPark_kept
    | with_reducible apply State.preemptRestore_kept
    | with_reducible apply State.preemptSave_kept
    | with_reducible apply State.preemptUnpark_kept
    | with_reducible apply Kept.ite
    | with_reducible apply Kept.ite2
    | with_reducible apply OutKept.ite
    | with_reducible apply Kept.foldl
    | with_reducible apply Kept.foldl2
    | with_reducible apply Kept.foldl1
    | with_reducible apply Kept.ite1
    | (extract_lets +onlyGivenNames x; refine Kept.cut (x := x) (q := q) (n := n) ?_ ?_; (on_goal 1 => subst x); (on_goal 2 => (intro hx; clear_value x)))
    | (extract_lets +onlyGivenNames x; refine Kept.cut2 (x := x) (q := q) (n := n) ?_ ?_; (on_goal 1 => subst x); (on_goal 2 => (intro hx; clear_value x)))
    | (extract_lets +onlyGivenNames x; refine Kept.cutOp (x := x) (q := q) (n := n) ?_ ?_; (on_goal 1 => subst x); (on_goal 2 => (intro hop; clear_value x)))
    | (extract_lets +onlyGivenNames x; refine Kept.cutOp2 (x := x) (q := q) (n := n) ?_ ?_; (on_goal 1 => subst x); (on_goal 2 => (intro hop; clear_value x)))
    | (extract_lets +onlyGivenNames x; refine Kept.cutFn (x := x) (q := q) (n := n) ?_ ?_; (on_goal 1 => subst x); (on_goal 2 => (intro hfn; clear_value x)))
    | (extract_lets +onlyGivenNames x; clear_value x)
    | dsimp only
    | split

theorem State.writeRemap_kept {s : State} {v : BitVec 64} (h_s : Kept q n s) : Kept q n (State.writeRemap s v) := by
  delta State.writeRemap
  repeat' first
    | with_reducible assumption
    | (intro _; beta_reduce)
    | with_reducible apply OutKept.next
    | with_reducible refine Kept.snd (by assumption) ?_
    | with_reducible refine Kept.snd2 (by assumption) ?_
    | with_reducible apply State.memCommit_kept
    | with_reducible apply State.setFld_kept
    | with_reducible apply State.withhold_kept
    | with_reducible apply Kept.ite
    | with_reducible apply Kept.ite2
    | with_reducible apply Kept.ite1
    | (extract_lets +onlyGivenNames x; refine Kept.cut (x := x) (q := q) (n := n) ?_ ?_; (on_goal 1 => subst x); (on_goal 2 => (intro hx; clear_value x)))
    | (extract_lets +onlyGivenNames x; refine Kept.cut2 (x := x) (q := q) (n := n) ?_ ?_; (on_goal 1 => subst x); (on_goal 2 => (intro hx; clear_value x)))
    | (extract_lets +onlyGivenNames x; refine Kept.cutOp (x := x) (q := q) (n := n) ?_ ?_; (on_goal 1 => subst x); (on_goal 2 => (intro hop; clear_value x)))
    | (extract_lets +onlyGivenNames x; refine Kept.cutOp2 (x := x) (q := q) (n := n) ?_ ?_; (on_goal 1 => subst x); (on_goal 2 => (intro hop; clear_value x)))
    | (extract_lets +onlyGivenNames x; refine Kept.cutFn (x := x) (q := q) (n := n) ?_ ?_; (on_goal 1 => subst x); (on_goal 2 => (intro hfn; clear_value x)))
    | (extract_lets +onlyGivenNames x; clear_value x)
    | dsimp only
    | split

theorem State.writeBarrierCtl_kept {s : State} {v : BitVec 64} (h_s : Kept q n s) : Kept q n (State.writeBarrierCtl s v) := by
  delta State.writeBarrierCtl
  repeat' first
    | with_reducible assumption
    | (intro _; beta_reduce)
    | with_reducible apply OutKept.next
    | with_reducible refine Kept.snd (by assumption) ?_
    | with_reducible refine Kept.snd2 (by assumption) ?_
    | with_reducible apply State.clearBarrier_kept
    | with_reducible apply State.raiseBarrier_kept
    | with_reducible apply State.setFld_kept
    | with_reducible apply Kept.ite

theorem State.writeKprCh_kept {s : State} {c : Nat} {v : BitVec 64} (h_s : Kept q n s) : Kept q n (State.writeKprCh s c v) := by
  delta State.writeKprCh
  repeat' first
    | with_reducible assumption
    | (intro _; beta_reduce)
    | with_reducible apply OutKept.next
    | with_reducible refine Kept.snd (by assumption) ?_
    | with_reducible refine Kept.snd2 (by assumption) ?_
    | with_reducible apply State.kprGo_kept
    | with_reducible apply State.setFld_kept
    | with_reducible apply Kept.ite

theorem State.writeBank_kept {s : State} {off : Nat} {v : BitVec 64} (h_s : Kept q n s) : Kept q n (State.writeBank s off v) := by
  delta State.writeBank
  repeat' first
    | with_reducible assumption
    | (intro _; beta_reduce)
    | with_reducible apply OutKept.next
    | with_reducible refine Kept.snd (by assumption) ?_
    | with_reducible refine Kept.snd2 (by assumption) ?_
    | with_reducible apply State.writeCodes_kept
    | with_reducible apply Kept.ite

theorem specialWrites_keeps : ∀ e ∈ specialWrites, ∀ i v s, Kept q n s → Kept q n (e.2 i v s) := by
  unfold specialWrites
  simp only [List.forall_mem_cons]
  repeat' first
    | with_reducible assumption
    | with_reducible apply And.intro
    | (intro _ h; cases h; done)
    | (intro _; beta_reduce)
    | with_reducible apply State.cancelPush_kept
    | with_reducible apply State.charge_kept
    | with_reducible apply State.collRedrive_kept
    | with_reducible apply State.declareOffline_kept
    | with_reducible apply State.powerDown_kept
    | with_reducible apply State.preemptCmd_kept
    | with_reducible apply State.redrive_kept
    | with_reducible apply State.requestReset_kept
    | with_reducible apply State.ringRelease_kept
    | with_reducible apply State.secExtend_kept
    | with_reducible apply State.selectCounter_kept
    | with_reducible apply State.showQuery_kept
    | with_reducible apply State.snapshot_kept
    | with_reducible apply State.wr_kept
    | with_reducible apply State.writeArmCtl_kept
    | with_reducible apply State.writeCap_kept
    | with_reducible apply State.writeDrain_kept
    | with_reducible apply State.writeLimits_kept
    | with_reducible apply State.writeArmPos_kept
    | with_reducible apply State.writeAxisMap_kept
    | with_reducible apply State.writeBank_kept
    | with_reducible apply State.writeBarrierCtl_kept
    | with_reducible apply State.writeBasePart_kept
    | with_reducible apply State.writeCodes_kept
    | with_reducible apply State.writeCtxRegion_kept
    | with_reducible apply State.writeDebugCtl_kept
    | with_reducible apply State.writeDetour_kept
    | with_reducible apply State.writeDpos_kept
    | with_reducible apply State.writeDrainCtl_kept
    | with_reducible apply State.writeEpoch_kept
    | with_reducible apply State.writeFenceCmd_kept
    | with_reducible apply State.writeKeyNdi_kept
    | with_reducible apply State.writeKprCh_kept
    | with_reducible apply State.writeOwnerKey_kept
    | with_reducible apply State.writePrtCtl_kept
    | with_reducible apply State.writePwrCtl_kept
    | with_reducible apply State.writeRankMap_kept
    | with_reducible apply State.writeRemap_kept
    | with_reducible apply State.writeRgnW0_kept
    | with_reducible apply State.writeRgnW1_kept
    | with_reducible apply State.writeRingCtl_kept
    | with_reducible apply State.writeRnkCtl_kept
    | with_reducible apply State.writeRstCtl_kept
    | with_reducible apply State.writeRsv_kept
    | with_reducible apply State.writeSecCtl_kept
    | with_reducible apply State.writeSeqCtl_kept
    | with_reducible apply State.writeSkew_kept
    | with_reducible apply State.writeSlot_kept
    | with_reducible apply State.writeTenCtl_kept
    | with_reducible apply State.writeTrcCtl_kept
    | with_reducible apply State.writeTrcTrig_kept
    | with_reducible apply Kept.ite

theorem State.keeperWrite_kept {s : State} {d : RegDesc} {slot : Nat} {v : BitVec 64} (h_s : Kept q n s) :
    Kept q n (s.keeperWrite d slot v) := by
  unfold State.keeperWrite
  split
  · rename_i e; exact specialWrites_keeps _ (List.mem_of_find?_eq_some e) _ _ _ h_s
  · exact State.writeCodes_kept h_s

theorem State.tenantWrite_kept {s : State} {t : Nat} {d : RegDesc} {slot : Nat} {v : BitVec 64} (h_s : Kept q n s) : Kept q n (State.tenantWrite s t d slot v) := by
  delta State.tenantWrite
  repeat' first
    | with_reducible assumption
    | (intro _; beta_reduce)
    | with_reducible apply OutKept.next
    | with_reducible refine Kept.snd (by assumption) ?_
    | with_reducible refine Kept.snd2 (by assumption) ?_
    | with_reducible apply State.wr_kept
    | with_reducible apply State.writeArmCtl_kept
    | with_reducible apply State.writeArmPos_kept
    | with_reducible apply State.writeDpos_kept
    | with_reducible apply State.writeKeyNdi_kept
    | with_reducible apply State.writeSeqCtl_kept
    | with_reducible apply Kept.ite

theorem State.hostWrite_kept {s : State} {p : Nat} {d : RegDesc} {slot : Nat} {v : BitVec 64} (h_s : Kept q n s) : Kept q n (State.hostWrite s p d slot v) := by
  delta State.hostWrite
  repeat' first
    | with_reducible assumption
    | (intro _; beta_reduce)
    | with_reducible apply OutKept.next
    | with_reducible refine Kept.snd (by assumption) ?_
    | with_reducible refine Kept.snd2 (by assumption) ?_
    | with_reducible apply State.keeperWrite_kept
    | with_reducible apply State.pathReject_kept
    | with_reducible apply State.tenantWrite_kept
    | with_reducible apply Kept.ite

theorem State.regWrite_kept {s : State} {req : Requester} {off : Nat} {wide : Bool} {v : BitVec 64} (h_s : Kept q n s) : Kept q n (State.regWrite s req off wide v) := by
  delta State.regWrite
  repeat' first
    | with_reducible assumption
    | (intro _; beta_reduce)
    | with_reducible apply OutKept.next
    | with_reducible refine Kept.snd (by assumption) ?_
    | with_reducible refine Kept.snd2 (by assumption) ?_
    | with_reducible apply State.hostWrite_kept
    | with_reducible apply State.issueFence_kept
    | with_reducible apply State.keeperWrite_kept
    | with_reducible apply Kept.ite
    | with_reducible apply Kept.ite2
    | with_reducible apply Kept.ite1
    | (extract_lets +onlyGivenNames x; refine Kept.cut (x := x) (q := q) (n := n) ?_ ?_; (on_goal 1 => subst x); (on_goal 2 => (intro hx; clear_value x)))
    | (extract_lets +onlyGivenNames x; refine Kept.cut2 (x := x) (q := q) (n := n) ?_ ?_; (on_goal 1 => subst x); (on_goal 2 => (intro hx; clear_value x)))
    | (extract_lets +onlyGivenNames x; refine Kept.cutOp (x := x) (q := q) (n := n) ?_ ?_; (on_goal 1 => subst x); (on_goal 2 => (intro hop; clear_value x)))
    | (extract_lets +onlyGivenNames x; refine Kept.cutOp2 (x := x) (q := q) (n := n) ?_ ?_; (on_goal 1 => subst x); (on_goal 2 => (intro hop; clear_value x)))
    | (extract_lets +onlyGivenNames x; refine Kept.cutFn (x := x) (q := q) (n := n) ?_ ?_; (on_goal 1 => subst x); (on_goal 2 => (intro hfn; clear_value x)))
    | (extract_lets +onlyGivenNames x; clear_value x)
    | (simp -zeta only [kept_mk]; with_reducible refine Kept.conj ?_)
    | dsimp only
    | split

theorem State.writeAccess_kept {s : State} {req : Requester} {off : BitVec 26} {wide : Bool} {v : BitVec 64} (h_s : Kept q n s) : Kept q n (State.writeAccess s req off wide v) := by
  delta State.writeAccess
  repeat' first
    | with_reducible assumption
    | (intro _; beta_reduce)
    | with_reducible apply OutKept.next
    | with_reducible refine Kept.snd (by assumption) ?_
    | with_reducible refine Kept.snd2 (by assumption) ?_
    | with_reducible apply State.hold_kept
    | with_reducible apply State.regWrite_kept
    | with_reducible apply Kept.ite
    | with_reducible apply Kept.ite2
    | with_reducible apply Kept.ite1
    | (extract_lets +onlyGivenNames x; refine Kept.cut (x := x) (q := q) (n := n) ?_ ?_; (on_goal 1 => subst x); (on_goal 2 => (intro hx; clear_value x)))
    | (extract_lets +onlyGivenNames x; refine Kept.cut2 (x := x) (q := q) (n := n) ?_ ?_; (on_goal 1 => subst x); (on_goal 2 => (intro hx; clear_value x)))
    | (extract_lets +onlyGivenNames x; refine Kept.cutOp (x := x) (q := q) (n := n) ?_ ?_; (on_goal 1 => subst x); (on_goal 2 => (intro hop; clear_value x)))
    | (extract_lets +onlyGivenNames x; refine Kept.cutOp2 (x := x) (q := q) (n := n) ?_ ?_; (on_goal 1 => subst x); (on_goal 2 => (intro hop; clear_value x)))
    | (extract_lets +onlyGivenNames x; refine Kept.cutFn (x := x) (q := q) (n := n) ?_ ?_; (on_goal 1 => subst x); (on_goal 2 => (intro hfn; clear_value x)))
    | (extract_lets +onlyGivenNames x; clear_value x)
    | dsimp only
    | split

theorem execRegisterWrite_kept {req : Requester} {off : BitVec 26} {wide : Bool} {v : BitVec 64} {s : State} (h_s : Kept q n s) : OutKept q n (execRegisterWrite req off wide v s) := by
  delta execRegisterWrite
  repeat' first
    | with_reducible assumption
    | (intro _; beta_reduce)
    | with_reducible apply OutKept.next
    | with_reducible refine Kept.snd (by assumption) ?_
    | with_reducible refine Kept.snd2 (by assumption) ?_
    | with_reducible apply State.writeAccess_kept
    | with_reducible apply Kept.ite
    | with_reducible apply Kept.ite2
    | with_reducible apply OutKept.ite
    | with_reducible apply Kept.ite1
    | (extract_lets +onlyGivenNames x; refine Kept.cut (x := x) (q := q) (n := n) ?_ ?_; (on_goal 1 => subst x); (on_goal 2 => (intro hx; clear_value x)))
    | (extract_lets +onlyGivenNames x; refine Kept.cut2 (x := x) (q := q) (n := n) ?_ ?_; (on_goal 1 => subst x); (on_goal 2 => (intro hx; clear_value x)))
    | (extract_lets +onlyGivenNames x; refine Kept.cutOp (x := x) (q := q) (n := n) ?_ ?_; (on_goal 1 => subst x); (on_goal 2 => (intro hop; clear_value x)))
    | (extract_lets +onlyGivenNames x; refine Kept.cutOp2 (x := x) (q := q) (n := n) ?_ ?_; (on_goal 1 => subst x); (on_goal 2 => (intro hop; clear_value x)))
    | (extract_lets +onlyGivenNames x; refine Kept.cutFn (x := x) (q := q) (n := n) ?_ ?_; (on_goal 1 => subst x); (on_goal 2 => (intro hfn; clear_value x)))
    | (extract_lets +onlyGivenNames x; clear_value x)
    | dsimp only
    | split

end Machine
end Sys2Proof
end

