-- ==== Sys2Proof/Laws/KeptAskeb.lean ====
section
/-!
SUPPORT. What the operations of Machine/Askeb.lean keep (see Laws/Kept.lean).
-/
namespace Sys2Proof
namespace Machine

variable {q : List Instr} {n : Nat}

theorem State.runMover_kept {k : Nat} {s : State} {m : Nat} (h_s : Kept q n s) : Kept q n (State.runMover k s m) := by
  induction k generalizing s with
  | zero => exact h_s
  | succ k ih => exact ih (State.moverChunk_kept h_s)

theorem State.runMovers_kept {s : State} {c : Nat} (h_s : Kept q n s) : Kept q n (State.runMovers s c) := by
  delta State.runMovers
  repeat' first
    | with_reducible assumption
    | (intro _; beta_reduce)
    | with_reducible apply OutKept.next
    | with_reducible refine Kept.snd (by assumption) ?_
    | with_reducible refine Kept.snd2 (by assumption) ?_
    | with_reducible apply State.assignMover_kept
    | with_reducible apply State.runMover_kept
    | with_reducible apply Kept.ite
    | with_reducible apply Kept.ite2
    | with_reducible apply OutKept.ite
    | with_reducible apply Kept.foldl

theorem State.runUnit_kept {s : State} {c : Nat} {port : Nat} {e : QEntry} (h_s : Kept q n s) : Kept q n (State.runUnit s c port e) := by
  delta State.runUnit
  repeat' first
    | with_reducible assumption
    | (intro _; beta_reduce)
    | with_reducible apply OutKept.next
    | with_reducible refine Kept.snd (by assumption) ?_
    | with_reducible refine Kept.snd2 (by assumption) ?_
    | with_reducible apply State.condEnd_kept
    | with_reducible apply State.runMovers_kept
    | with_reducible apply State.runRank_kept
    | with_reducible apply State.vecRunAll_kept
    | with_reducible apply Kept.ite
    | with_reducible apply Kept.ite2
    | with_reducible apply OutKept.ite
    | with_reducible apply Kept.foldl
    | with_reducible apply Kept.foldl2
    | with_reducible apply Kept.foldl1
    | with_reducible apply Kept.ite1
    | (extract_lets +onlyGivenNames x; refine Kept.cut (x := x) (q := q) (n := n) ?_ ?_; (on_goal 1 => subst x); (on_goal 2 => (intro hx; clear_value x)))
    | (extract_lets +onlyGivenNames x; refine Kept.cut2 (x := x) (q := q) (n := n) ?_ ?_; (on_goal 1 => subst x); (on_goal 2 => (intro hx; clear_value x)))
    | (extract_lets +onlyGivenNames x; refine Kept.cutOp (x := x) (q := q) (n := n) ?_ ?_; (on_goal 1 => subst x); (on_goal 2 => (intro hop; clear_value x)))
    | (extract_lets +onlyGivenNames x; refine Kept.cutOp2 (x := x) (q := q) (n := n) ?_ ?_; (on_goal 1 => subst x); (on_goal 2 => (intro hop; clear_value x)))
    | (extract_lets +onlyGivenNames x; refine Kept.cutFn (x := x) (q := q) (n := n) ?_ ?_; (on_goal 1 => subst x); (on_goal 2 => (intro hfn; clear_value x)))
    | (extract_lets +onlyGivenNames x; clear_value x)
    | dsimp only
    | split

theorem State.portTurn_kept {s : State} {c : Nat} {port : Nat} (h_s : Kept q n s) : Kept q n (State.portTurn s c port) := by
  delta State.portTurn
  repeat' first
    | with_reducible assumption
    | (intro _; beta_reduce)
    | with_reducible apply OutKept.next
    | with_reducible refine Kept.snd (by assumption) ?_
    | with_reducible refine Kept.snd2 (by assumption) ?_
    | with_reducible apply State.issueHead_kept
    | with_reducible apply State.runUnit_kept
    | with_reducible apply State.stackReport_kept
    | with_reducible apply Kept.ite
    | with_reducible apply Kept.ite2
    | with_reducible apply Kept.ite1
    | (extract_lets +onlyGivenNames x; refine Kept.cut (x := x) (q := q) (n := n) ?_ ?_; (on_goal 1 => subst x); (on_goal 2 => (intro hx; clear_value x)))
    | (extract_lets +onlyGivenNames x; refine Kept.cut2 (x := x) (q := q) (n := n) ?_ ?_; (on_goal 1 => subst x); (on_goal 2 => (intro hx; clear_value x)))
    | (extract_lets +onlyGivenNames x; refine Kept.cutOp (x := x) (q := q) (n := n) ?_ ?_; (on_goal 1 => subst x); (on_goal 2 => (intro hop; clear_value x)))
    | (extract_lets +onlyGivenNames x; refine Kept.cutOp2 (x := x) (q := q) (n := n) ?_ ?_; (on_goal 1 => subst x); (on_goal 2 => (intro hop; clear_value x)))
    | (extract_lets +onlyGivenNames x; refine Kept.cutFn (x := x) (q := q) (n := n) ?_ ?_; (on_goal 1 => subst x); (on_goal 2 => (intro hfn; clear_value x)))
    | (extract_lets +onlyGivenNames x; clear_value x)
    | (simp -zeta only [kept_mk]; with_reducible refine Kept.conj ?_)
    | dsimp only
    | split

theorem State.portTurns_kept {k : Nat} {s : State} {c port : Nat} (h_s : Kept q n s) : Kept q n (State.portTurns k s c port) := by
  induction k generalizing s with
  | zero => exact h_s
  | succ k ih => exact ih (State.portTurn_kept h_s)

theorem State.portInsn_kept {s : State} {c : Nat} {w : BitVec 128} {go : Bool} {op : Nat} (h_s : Kept q n s) : Kept q n (State.portInsn s c w go op) := by
  delta State.portInsn
  repeat' first
    | with_reducible assumption
    | (intro _; beta_reduce)
    | with_reducible apply OutKept.next
    | with_reducible refine Kept.snd (by assumption) ?_
    | with_reducible refine Kept.snd2 (by assumption) ?_
    | with_reducible apply State.enqueueInsn_kept
    | with_reducible apply State.portTurns_kept
    | with_reducible apply Kept.ite

theorem execMmaF_kept {c : Fin 64} {w : BitVec 128} {go : Bool} {s : State} (h_s : Kept q n s) : OutKept q n (execMmaF c w go s) := by
  delta execMmaF
  repeat' first
    | with_reducible assumption
    | (intro _; beta_reduce)
    | with_reducible apply OutKept.next
    | with_reducible refine Kept.snd (by assumption) ?_
    | with_reducible refine Kept.snd2 (by assumption) ?_
    | with_reducible apply State.portInsn_kept

theorem execMmaDx_kept {c : Fin 64} {w : BitVec 128} {go : Bool} {s : State} (h_s : Kept q n s) : OutKept q n (execMmaDx c w go s) := by
  delta execMmaDx
  repeat' first
    | with_reducible assumption
    | (intro _; beta_reduce)
    | with_reducible apply OutKept.next
    | with_reducible refine Kept.snd (by assumption) ?_
    | with_reducible refine Kept.snd2 (by assumption) ?_
    | with_reducible apply State.portInsn_kept

theorem execMmaDw_kept {c : Fin 64} {w : BitVec 128} {go : Bool} {s : State} (h_s : Kept q n s) : OutKept q n (execMmaDw c w go s) := by
  delta execMmaDw
  repeat' first
    | with_reducible assumption
    | (intro _; beta_reduce)
    | with_reducible apply OutKept.next
    | with_reducible refine Kept.snd (by assumption) ?_
    | with_reducible refine Kept.snd2 (by assumption) ?_
    | with_reducible apply State.portInsn_kept

theorem execAccrd_kept {c : Fin 64} {w : BitVec 128} {go : Bool} {s : State} (h_s : Kept q n s) : OutKept q n (execAccrd c w go s) := by
  delta execAccrd
  repeat' first
    | with_reducible assumption
    | (intro _; beta_reduce)
    | with_reducible apply OutKept.next
    | with_reducible refine Kept.snd (by assumption) ?_
    | with_reducible refine Kept.snd2 (by assumption) ?_
    | with_reducible apply State.portInsn_kept

theorem execVew_kept {c : Fin 64} {w : BitVec 128} {go : Bool} {s : State} (h_s : Kept q n s) : OutKept q n (execVew c w go s) := by
  delta execVew
  repeat' first
    | with_reducible assumption
    | (intro _; beta_reduce)
    | with_reducible apply OutKept.next
    | with_reducible refine Kept.snd (by assumption) ?_
    | with_reducible refine Kept.snd2 (by assumption) ?_
    | with_reducible apply State.portInsn_kept

theorem execVact_kept {c : Fin 64} {w : BitVec 128} {go : Bool} {s : State} (h_s : Kept q n s) : OutKept q n (execVact c w go s) := by
  delta execVact
  repeat' first
    | with_reducible assumption
    | (intro _; beta_reduce)
    | with_reducible apply OutKept.next
    | with_reducible refine Kept.snd (by assumption) ?_
    | with_reducible refine Kept.snd2 (by assumption) ?_
    | with_reducible apply State.portInsn_kept

theorem execVdact_kept {c : Fin 64} {w : BitVec 128} {go : Bool} {s : State} (h_s : Kept q n s) : OutKept q n (execVdact c w go s) := by
  delta execVdact
  repeat' first
    | with_reducible assumption
    | (intro _; beta_reduce)
    | with_reducible apply OutKept.next
    | with_reducible refine Kept.snd (by assumption) ?_
    | with_reducible refine Kept.snd2 (by assumption) ?_
    | with_reducible apply State.portInsn_kept

theorem execVnorm_kept {c : Fin 64} {w : BitVec 128} {go : Bool} {s : State} (h_s : Kept q n s) : OutKept q n (execVnorm c w go s) := by
  delta execVnorm
  repeat' first
    | with_reducible assumption
    | (intro _; beta_reduce)
    | with_reducible apply OutKept.next
    | with_reducible refine Kept.snd (by assumption) ?_
    | with_reducible refine Kept.snd2 (by assumption) ?_
    | with_reducible apply State.portInsn_kept

theorem execVnormb_kept {c : Fin 64} {w : BitVec 128} {go : Bool} {s : State} (h_s : Kept q n s) : OutKept q n (execVnormb c w go s) := by
  delta execVnormb
  repeat' first
    | with_reducible assumption
    | (intro _; beta_reduce)
    | with_reducible apply OutKept.next
    | with_reducible refine Kept.snd (by assumption) ?_
    | with_reducible refine Kept.snd2 (by assumption) ?_
    | with_reducible apply State.portInsn_kept

theorem execVsmax_kept {c : Fin 64} {w : BitVec 128} {go : Bool} {s : State} (h_s : Kept q n s) : OutKept q n (execVsmax c w go s) := by
  delta execVsmax
  repeat' first
    | with_reducible assumption
    | (intro _; beta_reduce)
    | with_reducible apply OutKept.next
    | with_reducible refine Kept.snd (by assumption) ?_
    | with_reducible refine Kept.snd2 (by assumption) ?_
    | with_reducible apply State.portInsn_kept

theorem execVsmaxb_kept {c : Fin 64} {w : BitVec 128} {go : Bool} {s : State} (h_s : Kept q n s) : OutKept q n (execVsmaxb c w go s) := by
  delta execVsmaxb
  repeat' first
    | with_reducible assumption
    | (intro _; beta_reduce)
    | with_reducible apply OutKept.next
    | with_reducible refine Kept.snd (by assumption) ?_
    | with_reducible refine Kept.snd2 (by assumption) ?_
    | with_reducible apply State.portInsn_kept

theorem execVred_kept {c : Fin 64} {w : BitVec 128} {go : Bool} {s : State} (h_s : Kept q n s) : OutKept q n (execVred c w go s) := by
  delta execVred
  repeat' first
    | with_reducible assumption
    | (intro _; beta_reduce)
    | with_reducible apply OutKept.next
    | with_reducible refine Kept.snd (by assumption) ?_
    | with_reducible refine Kept.snd2 (by assumption) ?_
    | with_reducible apply State.portInsn_kept

theorem execVopt_kept {c : Fin 64} {w : BitVec 128} {go : Bool} {s : State} (h_s : Kept q n s) : OutKept q n (execVopt c w go s) := by
  delta execVopt
  repeat' first
    | with_reducible assumption
    | (intro _; beta_reduce)
    | with_reducible apply OutKept.next
    | with_reducible refine Kept.snd (by assumption) ?_
    | with_reducible refine Kept.snd2 (by assumption) ?_
    | with_reducible apply State.portInsn_kept

theorem execVconv_kept {c : Fin 64} {w : BitVec 128} {go : Bool} {s : State} (h_s : Kept q n s) : OutKept q n (execVconv c w go s) := by
  delta execVconv
  repeat' first
    | with_reducible assumption
    | (intro _; beta_reduce)
    | with_reducible apply OutKept.next
    | with_reducible refine Kept.snd (by assumption) ?_
    | with_reducible refine Kept.snd2 (by assumption) ?_
    | with_reducible apply State.portInsn_kept

theorem execVrng_kept {c : Fin 64} {w : BitVec 128} {go : Bool} {s : State} (h_s : Kept q n s) : OutKept q n (execVrng c w go s) := by
  delta execVrng
  repeat' first
    | with_reducible assumption
    | (intro _; beta_reduce)
    | with_reducible apply OutKept.next
    | with_reducible refine Kept.snd (by assumption) ?_
    | with_reducible refine Kept.snd2 (by assumption) ?_
    | with_reducible apply State.portInsn_kept

theorem execArgmax_kept {c : Fin 64} {w : BitVec 128} {go : Bool} {s : State} (h_s : Kept q n s) : OutKept q n (execArgmax c w go s) := by
  delta execArgmax
  repeat' first
    | with_reducible assumption
    | (intro _; beta_reduce)
    | with_reducible apply OutKept.next
    | with_reducible refine Kept.snd (by assumption) ?_
    | with_reducible refine Kept.snd2 (by assumption) ?_
    | with_reducible apply State.portInsn_kept

theorem execArgmin_kept {c : Fin 64} {w : BitVec 128} {go : Bool} {s : State} (h_s : Kept q n s) : OutKept q n (execArgmin c w go s) := by
  delta execArgmin
  repeat' first
    | with_reducible assumption
    | (intro _; beta_reduce)
    | with_reducible apply OutKept.next
    | with_reducible refine Kept.snd (by assumption) ?_
    | with_reducible refine Kept.snd2 (by assumption) ?_
    | with_reducible apply State.portInsn_kept

theorem execMov_kept {c : Fin 64} {w : BitVec 128} {go : Bool} {s : State} (h_s : Kept q n s) : OutKept q n (execMov c w go s) := by
  delta execMov
  repeat' first
    | with_reducible assumption
    | (intro _; beta_reduce)
    | with_reducible apply OutKept.next
    | with_reducible refine Kept.snd (by assumption) ?_
    | with_reducible refine Kept.snd2 (by assumption) ?_
    | with_reducible apply State.portInsn_kept

theorem execMovC_kept {c : Fin 64} {w : BitVec 128} {go : Bool} {s : State} (h_s : Kept q n s) : OutKept q n (execMovC c w go s) := by
  delta execMovC
  repeat' first
    | with_reducible assumption
    | (intro _; beta_reduce)
    | with_reducible apply OutKept.next
    | with_reducible refine Kept.snd (by assumption) ?_
    | with_reducible refine Kept.snd2 (by assumption) ?_
    | with_reducible apply State.portInsn_kept

theorem execMovD_kept {c : Fin 64} {w : BitVec 128} {go : Bool} {s : State} (h_s : Kept q n s) : OutKept q n (execMovD c w go s) := by
  delta execMovD
  repeat' first
    | with_reducible assumption
    | (intro _; beta_reduce)
    | with_reducible apply OutKept.next
    | with_reducible refine Kept.snd (by assumption) ?_
    | with_reducible refine Kept.snd2 (by assumption) ?_
    | with_reducible apply State.portInsn_kept

theorem execPush_kept {c : Fin 64} {w : BitVec 128} {go : Bool} {s : State} (h_s : Kept q n s) : OutKept q n (execPush c w go s) := by
  delta execPush
  repeat' first
    | with_reducible assumption
    | (intro _; beta_reduce)
    | with_reducible apply OutKept.next
    | with_reducible refine Kept.snd (by assumption) ?_
    | with_reducible refine Kept.snd2 (by assumption) ?_
    | with_reducible apply State.portInsn_kept

theorem execPop_kept {c : Fin 64} {w : BitVec 128} {go : Bool} {s : State} (h_s : Kept q n s) : OutKept q n (execPop c w go s) := by
  delta execPop
  repeat' first
    | with_reducible assumption
    | (intro _; beta_reduce)
    | with_reducible apply OutKept.next
    | with_reducible refine Kept.snd (by assumption) ?_
    | with_reducible refine Kept.snd2 (by assumption) ?_
    | with_reducible apply State.portInsn_kept

theorem execPref_kept {c : Fin 64} {w : BitVec 128} {go : Bool} {s : State} (h_s : Kept q n s) : OutKept q n (execPref c w go s) := by
  delta execPref
  repeat' first
    | with_reducible assumption
    | (intro _; beta_reduce)
    | with_reducible apply OutKept.next
    | with_reducible refine Kept.snd (by assumption) ?_
    | with_reducible refine Kept.snd2 (by assumption) ?_
    | with_reducible apply State.portInsn_kept

theorem execSend_kept {c : Fin 64} {w : BitVec 128} {go : Bool} {s : State} (h_s : Kept q n s) : OutKept q n (execSend c w go s) := by
  delta execSend
  repeat' first
    | with_reducible assumption
    | (intro _; beta_reduce)
    | with_reducible apply OutKept.next
    | with_reducible refine Kept.snd (by assumption) ?_
    | with_reducible refine Kept.snd2 (by assumption) ?_
    | with_reducible apply State.portInsn_kept

theorem execRecv_kept {c : Fin 64} {w : BitVec 128} {go : Bool} {s : State} (h_s : Kept q n s) : OutKept q n (execRecv c w go s) := by
  delta execRecv
  repeat' first
    | with_reducible assumption
    | (intro _; beta_reduce)
    | with_reducible apply OutKept.next
    | with_reducible refine Kept.snd (by assumption) ?_
    | with_reducible refine Kept.snd2 (by assumption) ?_
    | with_reducible apply State.portInsn_kept

theorem execMcast_kept {c : Fin 64} {w : BitVec 128} {go : Bool} {s : State} (h_s : Kept q n s) : OutKept q n (execMcast c w go s) := by
  delta execMcast
  repeat' first
    | with_reducible assumption
    | (intro _; beta_reduce)
    | with_reducible apply OutKept.next
    | with_reducible refine Kept.snd (by assumption) ?_
    | with_reducible refine Kept.snd2 (by assumption) ?_
    | with_reducible apply State.portInsn_kept

theorem execColl_kept {c : Fin 64} {w : BitVec 128} {go : Bool} {s : State} (h_s : Kept q n s) : OutKept q n (execColl c w go s) := by
  delta execColl
  repeat' first
    | with_reducible assumption
    | (intro _; beta_reduce)
    | with_reducible apply OutKept.next
    | with_reducible refine Kept.snd (by assumption) ?_
    | with_reducible refine Kept.snd2 (by assumption) ?_
    | with_reducible apply State.portInsn_kept

end Machine
end Sys2Proof
end

