-- ==== Sys2Proof/Laws/Memory.lean ====
section
/-!
SUPPORT. Memory: a byte written reads back, every other byte and everything but memory is as it was.
-/
namespace Sys2Proof.Machine

/-- Storing bytes changes memory and nothing else. -/
theorem poke_eq (s : State) (a : Nat) (bs : List Byte) : s.poke a bs = { s with mem := (s.poke a bs).mem } := by
  induction bs generalizing s a with
  | nil => rfl
  | cons b rest ih => exact ih { s with mem := s.mem.set 0 a b } (a + 1)

/-- A byte outside what is stored reads as before. -/
theorem byte_poke_out (s : State) (a b : Nat) (bs : List Byte) (h : b < a ∨ a + bs.length ≤ b) : (s.poke a bs).byte b = s.byte b := by
  induction bs generalizing s a with
  | nil => rfl
  | cons x rest ih =>
    rw [List.length_cons] at h
    exact (ih _ _ (by omega)).trans (Tab.get_set_ne 0 s.mem a x b (by omega))

/-- A byte that is stored reads back. -/
theorem byte_poke_in (s : State) (a i : Nat) (bs : List Byte) (h : i < bs.length) : (s.poke a bs).byte (a + i) = bs[i] := by
  induction bs generalizing s a i with
  | nil => cases h
  | cons x rest ih =>
    cases i with
    | zero =>
      refine (byte_poke_out _ (a + 1) (a + 0) rest (by omega)).trans ?_
      exact (Tab.get_set 0 s.mem a x a).trans (if_pos rfl)
    | succ i =>
      rw [List.length_cons] at h
      rw [show a + (i + 1) = a + 1 + i by omega]
      exact ih _ (a + 1) i (by omega)

/-- Bytes that are stored read back. -/
theorem bytes_poke (s : State) (a : Nat) (bs : List Byte) : (s.poke a bs).bytes a bs.length = bs := by
  induction bs generalizing s a with
  | nil => rfl
  | cons x rest ih =>
    have h : (s.poke a (x :: rest)).byte a = x := byte_poke_in s a 0 (x :: rest) (by simp)
    show (s.poke a (x :: rest)).byte a :: State.bytes ({ s with mem := s.mem.set 0 a x }.poke (a + 1) rest) (a + 1) rest.length = x :: rest
    rw [h, ih]

end Sys2Proof.Machine
end

