-- ==== Sys2Proof/Laws/Regs.lean ====
section
/-!
SUPPORT. Registers: what a read gives after a write, whole or by field, and that the operations which write registers alone change
nothing else. A statement about a register after a command cites these and unfolds no table.
-/
namespace Sys2Proof.Machine

/-! ### One word -/

theorem fld_def (s : State) (off : Nat) (f : Field) : s.fld off f = getField (s.rd off) f := rfl

theorem rd_def (s : State) (off : Nat) : s.rd off = s.regs.get (regReset off) off := rfl

/-- A register just written reads as what was written. -/
theorem rd_wr_self {s : State} (off : Nat) (v : BitVec 64) (h : s.regsWf = true) : (s.wr off v).rd off = v := by
  unfold State.rd State.wr
  rw [Tab.get_set (regReset off) s.regs off v off, if_pos rfl]

/-- A write leaves every other register alone. -/
theorem rd_wr_ne {s : State} {off off' : Nat} (v : BitVec 64) (h : off' ≠ off) : (s.wr off v).rd off' = s.rd off' := by
  unfold State.rd State.wr
  by_cases hd : regReset off' = regReset off
  · rw [hd]; exact Tab.get_set_ne _ _ _ _ _ h
  · unfold Tab.set
    split
    · exact Tab.get_erase_ne _ _ _ _ h
    · rw [Tab.get_put, if_neg h]

theorem regsWf_wr {s : State} (off : Nat) (v : BitVec 64) (h : s.regsWf = true) : (s.wr off v).regsWf = true :=
  Tab.wf_set regReset s.regs off v h

/-! ### One field -/

theorem getField_lt (w : BitVec 64) (f : Field) : getField w f < 2 ^ f.width := Nat.mod_lt _ (Nat.two_pow_pos _)

/-- Bit `i` of a word whose field `f` was replaced: the new value within the field, the old word outside. -/
theorem putField_testBit (w : BitVec 64) (f : Field) (n i : Nat) (hf : f.lo + f.width ≤ 64) :
    (putField w f n).toNat.testBit i =
      if f.lo ≤ i ∧ i < f.lo + f.width then n.testBit (i - f.lo) else w.toNat.testBit i := by
  have hw : w.toNat < 2 ^ 64 := w.isLt
  by_cases hi : i < 64
  · unfold putField
    simp only [BitVec.toNat_or, BitVec.toNat_and, BitVec.toNat_not, BitVec.toNat_ofNat, Nat.testBit_or, Nat.testBit_and]
    have h1 : ((2 ^ f.width - 1) * 2 ^ f.lo) % 2 ^ 64 = (2 ^ f.width - 1) * 2 ^ f.lo := by
      apply Nat.mod_eq_of_lt
      calc (2 ^ f.width - 1) * 2 ^ f.lo < 2 ^ f.width * 2 ^ f.lo :=
            Nat.mul_lt_mul_of_pos_right (Nat.sub_lt (Nat.two_pow_pos _) Nat.one_pos) (Nat.two_pow_pos _)
        _ = 2 ^ (f.lo + f.width) := by rw [← Nat.pow_add, Nat.add_comm]
        _ ≤ 2 ^ 64 := Nat.pow_le_pow_right (by decide) hf
    have h2 : (n % 2 ^ f.width * 2 ^ f.lo) % 2 ^ 64 = n % 2 ^ f.width * 2 ^ f.lo := by
      apply Nat.mod_eq_of_lt
      calc n % 2 ^ f.width * 2 ^ f.lo < 2 ^ f.width * 2 ^ f.lo :=
            Nat.mul_lt_mul_of_pos_right (Nat.mod_lt _ (Nat.two_pow_pos _)) (Nat.two_pow_pos _)
        _ = 2 ^ (f.lo + f.width) := by rw [← Nat.pow_add, Nat.add_comm]
        _ ≤ 2 ^ 64 := Nat.pow_le_pow_right (by decide) hf
    rw [h1, h2]
    have h3 : (2 ^ 64 - 1 - (2 ^ f.width - 1) * 2 ^ f.lo).testBit i = !((2 ^ f.width - 1) * 2 ^ f.lo).testBit i := by
      rw [show 2 ^ 64 - 1 - (2 ^ f.width - 1) * 2 ^ f.lo = 2 ^ 64 - ((2 ^ f.width - 1) * 2 ^ f.lo + 1) from by omega]
      rw [Nat.testBit_two_pow_sub_succ (by rw [← h1]; exact Nat.mod_lt _ (by decide))]
      simp [hi]
    rw [h3, Nat.testBit_mul_two_pow, Nat.testBit_mul_two_pow, Nat.testBit_two_pow_sub_one, Nat.testBit_mod_two_pow]
    by_cases hlo : f.lo ≤ i
    · by_cases hhi : i < f.lo + f.width
      · have : i - f.lo < f.width := by omega
        simp [hlo, hhi, this]
      · have : ¬ i - f.lo < f.width := by omega
        simp [hlo, hhi, this]
    · simp [hlo]
  · have hge : 64 ≤ i := Nat.le_of_not_lt hi
    rw [if_neg (by omega)]
    rw [Nat.testBit_lt_two_pow (Nat.lt_of_lt_of_le (putField w f n).isLt (Nat.pow_le_pow_right (by decide) hge)),
      Nat.testBit_lt_two_pow (Nat.lt_of_lt_of_le hw (Nat.pow_le_pow_right (by decide) hge))]

theorem getField_testBit (w : BitVec 64) (f : Field) (i : Nat) :
    (getField w f).testBit i = (decide (i < f.width) && w.toNat.testBit (f.lo + i)) := by
  unfold getField
  rw [Nat.testBit_mod_two_pow, Nat.testBit_div_two_pow, Nat.add_comm]

/-- A field just written reads as what was written, cut to the field's width. -/
theorem getField_putField (w : BitVec 64) (f : Field) (n : Nat) (hf : f.lo + f.width ≤ 64) :
    getField (putField w f n) f = n % 2 ^ f.width := by
  apply Nat.eq_of_testBit_eq
  intro i
  rw [getField_testBit, putField_testBit w f n _ hf, Nat.testBit_mod_two_pow]
  by_cases h : i < f.width
  · rw [if_pos ⟨by omega, by omega⟩]; simp
  · simp [h]

/-- Fields that share no bit do not disturb each other. -/
theorem getField_putField_ne (w : BitVec 64) (f g : Field) (n : Nat) (hf : f.lo + f.width ≤ 64)
    (hd : g.lo + g.width ≤ f.lo ∨ f.lo + f.width ≤ g.lo) : getField (putField w f n) g = getField w g := by
  apply Nat.eq_of_testBit_eq
  intro i
  rw [getField_testBit, putField_testBit w f n _ hf, getField_testBit]
  by_cases h : i < g.width
  · rw [if_neg (by omega)]
  · simp [h]

/-! ### A field of a register -/

theorem rd_setFld_self {s : State} (off : Nat) (f : Field) (n : Nat) (h : s.regsWf = true) :
    (s.setFld off f n).rd off = putField (s.rd off) f n := rd_wr_self off _ h

theorem rd_setFld_ne {s : State} {off off' : Nat} (f : Field) (n : Nat) (h : off' ≠ off) :
    (s.setFld off f n).rd off' = s.rd off' := rd_wr_ne _ h

theorem regsWf_setFld {s : State} (off : Nat) (f : Field) (n : Nat) (h : s.regsWf = true) : (s.setFld off f n).regsWf = true :=
  regsWf_wr off _ h

theorem fld_setFld_self {s : State} (off : Nat) (f : Field) (n : Nat) (h : s.regsWf = true) (hf : f.lo + f.width ≤ 64) :
    (s.setFld off f n).fld off f = n % 2 ^ f.width := by
  rw [fld_def, rd_setFld_self off f n h, getField_putField _ _ _ hf]

theorem fld_setFld_ne {s : State} {off off' : Nat} (f g : Field) (n : Nat) (h : off' ≠ off) :
    (s.setFld off f n).fld off' g = s.fld off' g := by
  rw [fld_def, rd_setFld_ne f n h]; rfl

theorem fld_setFld_apart {s : State} (off : Nat) (f g : Field) (n : Nat) (h : s.regsWf = true) (hf : f.lo + f.width ≤ 64)
    (hd : g.lo + g.width ≤ f.lo ∨ f.lo + f.width ≤ g.lo) : (s.setFld off f n).fld off g = s.fld off g := by
  rw [fld_def, rd_setFld_self off f n h, getField_putField_ne _ _ _ _ hf hd]; rfl

theorem fld_wr_self {s : State} (off : Nat) (v : BitVec 64) (f : Field) (h : s.regsWf = true) :
    (s.wr off v).fld off f = getField v f := by rw [fld_def, rd_wr_self off v h]

theorem fld_wr_ne {s : State} {off off' : Nat} (v : BitVec 64) (f : Field) (h : off' ≠ off) :
    (s.wr off v).fld off' f = s.fld off' f := by rw [fld_def, rd_wr_ne v h]; rfl

/-! ### Counters and flags (R6) -/

theorem rd_cntBy_ne {s : State} {off off' : Nat} (n : Nat) (h : off' ≠ off) : (s.cntBy off n).rd off' = s.rd off' := rd_setFld_ne _ _ h

theorem fld_cntBy_ne {s : State} {off off' : Nat} (n : Nat) (f : Field) (h : off' ≠ off) :
    (s.cntBy off n).fld off' f = s.fld off' f := fld_setFld_ne _ _ _ h

theorem fld_cntBy_self {s : State} (off n : Nat) (h : s.regsWf = true) :
    (s.cntBy off n).fld off Fld.COUNT = (s.fld off Fld.COUNT + n) % 2 ^ 48 := fld_setFld_self off _ _ h (by decide)

theorem regsWf_cntBy {s : State} (off n : Nat) (h : s.regsWf = true) : (s.cntBy off n).regsWf = true := regsWf_setFld _ _ _ h

theorem rd_cnt_ne {s : State} {off off' : Nat} (h : off' ≠ off) : (s.cnt off).rd off' = s.rd off' := rd_cntBy_ne 1 h

theorem fld_cnt_ne {s : State} {off off' : Nat} (f : Field) (h : off' ≠ off) : (s.cnt off).fld off' f = s.fld off' f :=
  fld_cntBy_ne 1 f h

theorem fld_cnt_self {s : State} (off : Nat) (h : s.regsWf = true) :
    (s.cnt off).fld off Fld.COUNT = (s.fld off Fld.COUNT + 1) % 2 ^ 48 := fld_cntBy_self off 1 h

theorem regsWf_cnt {s : State} (off : Nat) (h : s.regsWf = true) : (s.cnt off).regsWf = true := regsWf_cntBy _ _ h

theorem rd_event_ne {s : State} {st ct off : Nat} (f : Field) (h1 : off ≠ st) (h2 : off ≠ ct) :
    (s.event st f ct).rd off = s.rd off := by
  unfold State.event; rw [rd_cnt_ne h2, rd_setFld_ne f 1 h1]

theorem fld_event_ne {s : State} {st ct off : Nat} (f g : Field) (h1 : off ≠ st) (h2 : off ≠ ct) :
    (s.event st f ct).fld off g = s.fld off g := by
  rw [fld_def, rd_event_ne f h1 h2]; rfl

/-- A status flag that is set reads 1. -/
theorem fld_event_flag {s : State} {st ct : Nat} (f : Field) (h : s.regsWf = true) (hf : f.lo + f.width ≤ 64) (hw : 0 < f.width)
    (hd : st ≠ ct) : (s.event st f ct).fld st f = 1 := by
  unfold State.event
  rw [fld_cnt_ne f hd, fld_setFld_self st f 1 h hf, Nat.mod_eq_of_lt]
  exact Nat.one_lt_two_pow (by omega)

/-- The other fields of the status register stay. -/
theorem fld_event_apart {s : State} {st ct : Nat} (f g : Field) (h : s.regsWf = true) (hf : f.lo + f.width ≤ 64)
    (hg : g.lo + g.width ≤ f.lo ∨ f.lo + f.width ≤ g.lo) (hd : st ≠ ct) : (s.event st f ct).fld st g = s.fld st g := by
  unfold State.event
  rw [fld_cnt_ne g hd, fld_setFld_apart st f g 1 h hf hg]

/-- Its companion counter rises by one. -/
theorem fld_event_count {s : State} {st ct : Nat} (f : Field) (h : s.regsWf = true) (hd : ct ≠ st) :
    (s.event st f ct).fld ct Fld.COUNT = (s.fld ct Fld.COUNT + 1) % 2 ^ 48 := by
  unfold State.event
  rw [fld_cnt_self ct (regsWf_setFld st f 1 h), fld_setFld_ne f _ 1 hd]

theorem regsWf_event {s : State} (st : Nat) (f : Field) (ct : Nat) (h : s.regsWf = true) : (s.event st f ct).regsWf = true :=
  regsWf_cnt _ (regsWf_setFld _ _ _ h)

end Sys2Proof.Machine
end

