-- ==== Sys2Proof/Laws/Near.lean ====
section
/-!
SUPPORT. The frames of the shared operations, in the form `Near` (Sys2Proof/Safety.lean): writing a register, raising a flag, counting,
recording an event in a trace ring. A statement of what a command leaves alone is put together from these.
-/
namespace Sys2Proof.Machine

variable {e : Nat → Prop} {s t u : State}

theorem Near.refl (e : Nat → Prop) (s : State) : Near e s s := ⟨fun _ _ _ => rfl, rfl⟩

theorem Near.mk' (h : ∀ off, ¬ e off → observes off = false → t.rd off = s.rd off) (R : List (Nat × BitVec 64)) (G : Tab Ring)
    (ht : t = { s with regs := R, rings := G }) : Near e s t := ⟨h, by subst ht; rfl⟩

theorem Near.eq (h : Near e s t) :
    t = { s with regs := t.regs, rings := t.rings, pw := { s.pw with acts := t.pw.acts, who := t.pw.who } } := by
  obtain ⟨_, h⟩ := h
  rw [← h]
  rfl

theorem Near.trans (h : Near e s t) (k : Near e t u) : Near e s u := by
  refine ⟨fun off he ho => (k.regs off he ho).trans (h.regs off he ho), ?_⟩
  rw [k.eq, h.eq]
  rfl

theorem Near.mono {e' : Nat → Prop} (h : Near e s t) (hs : ∀ off, e off → e' off) : Near e' s t :=
  ⟨fun off he ho => h.regs off (fun x => he (hs off x)) ho, h.rest⟩

theorem near_wr (off : Nat) (v : BitVec 64) (h : e off ∨ observes off = true) : Near e s (s.wr off v) :=
  ⟨fun o he ho => rd_wr_ne v (by rintro rfl; rcases h with h | h <;> simp_all), rfl⟩

theorem Near.wr (h : Near e s t) (off : Nat) (v : BitVec 64) (he : e off ∨ observes off = true) : Near e s (t.wr off v) :=
  h.trans (near_wr off v he)

theorem Near.setFld (h : Near e s t) (off : Nat) (f : Field) (n : Nat) (he : e off ∨ observes off = true) :
    Near e s (t.setFld off f n) := h.wr off _ he

theorem Near.cntBy (h : Near e s t) (off n : Nat) (he : e off ∨ observes off = true) : Near e s (t.cntBy off n) := h.setFld off _ _ he

theorem Near.cnt (h : Near e s t) (off : Nat) (he : e off ∨ observes off = true) : Near e s (t.cnt off) := h.cntBy off 1 he

theorem Near.event (h : Near e s t) (st : Nat) (f : Field) (ct : Nat) (h1 : e st ∨ observes st = true)
    (h2 : e ct ∨ observes ct = true) : Near e s (t.event st f ct) := (h.setFld st f 1 h1).cnt ct h2

theorem Near.ite {c : Prop} [Decidable c] (h1 : c → Near e s t) (h2 : ¬ c → Near e s u) : Near e s (if c then t else u) := by
  split
  · exact h1 ‹_›
  · exact h2 ‹_›

theorem Near.foldl {β : Type} {f : State → β → State} {l : List β} (h : Near e s t) (hf : ∀ x b, b ∈ l → Near e x (f x b)) :
    Near e s (l.foldl f t) := by
  induction l generalizing t with
  | nil => exact h
  | cons b l ih => exact ih (h.trans (hf t b (by simp))) (fun x b hb => hf x b (by simp [hb]))

theorem Near.setRing (h : Near e s t) (v : Nat) (r : Ring) : Near e s (t.setRing v r) := h.trans ⟨fun _ _ _ => rfl, rfl⟩

theorem Near.countOne (h : Near e s t) (sel cntr src filt n : Nat) (he : e cntr ∨ observes cntr = true) :
    Near e s (t.countOne sel cntr src filt n) := by
  unfold State.countOne
  split
  · exact (h.setFld _ _ _ he).setFld _ _ _ he
  · exact h

theorem observes_cntGlb {g : Nat} (h : g < 32) : observes (Reg.CNT_GLB g) = true := by
  simp only [Reg.CNT_GLB, observes, Bool.or_eq_true, Bool.and_eq_true, beq_iff_eq, Nat.ble_eq, Nat.blt_eq]
  omega

theorem observes_cntClu (c : Nat) {j : Nat} (h : j < 8) : observes (Reg.CNT_CLU c j) = true := by
  simp only [Reg.CNT_CLU, observes, Bool.or_eq_true, Bool.and_eq_true, beq_iff_eq, Nat.ble_eq, Nat.blt_eq]
  omega

theorem observes_cntPrt {p j : Nat} (hp : p < 12) (h : j < 16) : observes (Reg.CNT_PRT p j) = true := by
  simp only [Reg.CNT_PRT, observes, Bool.or_eq_true, Bool.and_eq_true, beq_iff_eq, Nat.ble_eq, Nat.blt_eq]
  omega

theorem observes_ringStat {u : Nat} (h : u < 80) : observes (Reg.TRC_RING_STAT u) = true := by
  simp only [Reg.TRC_RING_STAT, observes, Bool.or_eq_true, Bool.and_eq_true, beq_iff_eq, Nat.ble_eq, Nat.blt_eq]
  omega

/-- An event of a global counter touches counters alone. -/
theorem Near.bumpGlb (h : Near e s t) (src filt n : Nat) : Near e s (t.bumpGlb src filt n) :=
  h.foldl (fun x g hg => (Near.refl e x).countOne _ _ _ _ _ (Or.inr (observes_cntGlb (by simpa using hg))))

theorem Near.bumpClu (h : Near e s t) (c src filt n : Nat) : Near e s (t.bumpClu c src filt n) :=
  h.foldl (fun x g hg => (Near.refl e x).countOne _ _ _ _ _ (Or.inr (observes_cntClu c (by simpa using hg))))

theorem Near.bumpPrt (h : Near e s t) {p : Nat} (hp : p < 12) (src filt n : Nat) : Near e s (t.bumpPrt p src filt n) :=
  h.foldl (fun x g hg => (Near.refl e x).countOne _ _ _ _ _ (Or.inr (observes_cntPrt hp (by simpa using hg))))

theorem Near.ringLose (h : Near e s t) {v : Nat} (hv : v < 80) (a b : BitVec 64) : Near e s (t.ringLose v a b) := by
  unfold State.ringLose
  refine Near.bumpGlb (Near.event (Near.setFld (Near.setRing h _ _) _ _ _ (Or.inr (observes_ringStat hv))) _ _ _
    (Or.inr (by decide)) (Or.inr (by decide))) _ _ _

theorem Near.ringPut (h : Near e s t) (r : TraceRec) (hr : r.unit < 80) : Near e s (t.ringPut r) := by
  unfold State.ringPut
  dsimp only
  repeat' first
    | exact h
    | (with_reducible apply Near.bumpClu)
    | (with_reducible apply Near.setFld _ _ _ _ (Or.inr (observes_ringStat hr)))
    | (with_reducible apply Near.setRing)
    | (with_reducible apply Near.ringLose _ hr)
    | split

/-- Recording an event touches the unit's ring and the registers of `observes`, nothing else (R473 to R479). -/
theorem Near.trace (h : Near e s t) {v : Nat} (hv : v < 80) (ev obj dur : Nat) (peer : BitVec 64) :
    Near e s (t.trace v ev obj dur peer) := h.ringPut _ hv

theorem Near.triggerRing (h : Near e s t) {v : Nat} (hv : v < 80) (source : Nat) : Near e s (t.triggerRing v source) := by
  unfold State.triggerRing
  dsimp only
  repeat' first
    | exact h
    | (with_reducible apply Near.setFld _ _ _ _ (Or.inr (observes_ringStat hv)))
    | (with_reducible apply Near.setRing)
    | (with_reducible apply Near.trace _ hv)
    | split

theorem Near.trigger (h : Near e s t) {v : Nat} (hv : v < 80) (source : Nat) : Near e s (t.trigger v source) := by
  unfold State.trigger
  dsimp only
  split
  · refine Near.foldl (Near.event h _ _ _ (Or.inr (by decide)) (Or.inr (by decide))) ?_
    intro x b hb
    exact (Near.refl e x).triggerRing (by simpa using hb) source
  · exact (Near.event h _ _ _ (Or.inr (by decide)) (Or.inr (by decide))).triggerRing hv source

/-! ### The same change on both sides -/

theorem Near.setCl (h : Near e s t) (c : Nat) (x : Cluster) : Near e (s.setCl c x) (t.setCl c x) := by
  refine ⟨h.regs, ?_⟩
  have := h.eq
  unfold State.setCl
  rw [this]
  rfl

theorem Near.cl (h : Near e s t) (c : Nat) : t.cl c = s.cl c := by
  have := congrArg State.clu h.eq
  unfold State.cl
  rw [this]

theorem Near.modCl (h : Near e s t) (c : Nat) (f : Cluster → Cluster) : Near e (s.modCl c f) (t.modCl c f) := by
  unfold State.modCl
  rw [h.cl]
  exact h.setCl _ _

theorem Near.rk (h : Near e s t) (c r : Nat) : t.rk c r = s.rk c r := by
  have := congrArg State.rank h.eq
  unfold State.rk
  rw [this]

theorem Near.setRk (h : Near e s t) (c r : Nat) (x : Rank) : Near e (s.setRk c r x) (t.setRk c r x) := by
  refine ⟨h.regs, ?_⟩
  have := h.eq
  unfold State.setRk
  rw [this]
  rfl

theorem Near.say (h : Near e s t) (m : Msg) : Near e (s.say m) (t.say m) := by
  refine ⟨h.regs, ?_⟩
  have := h.eq
  unfold State.say
  rw [this]
  rfl

theorem Near.fld (h : Near e s t) {off : Nat} (f : Field) (he : ¬ e off) (ho : observes off = false) : t.fld off f = s.fld off f := by
  unfold State.fld
  rw [h.regs off he ho]

end Sys2Proof.Machine
end

