-- ==== Sys2Proof/Laws/Noted.lean ====
section
/-!
SUPPORT. The frames of the operations that tell the outside something, in the form `Noted` (Sys2Proof/Safety.lean): event queues, notices to
the keeper, unit-state records.
-/
namespace Sys2Proof.Machine

variable {e : Nat → Prop} {s t u : State}

theorem notices_of_observes {off : Nat} (h : observes off = true) : notices off = true := by
  unfold notices; simp [h]

theorem Noted.refl (e : Nat → Prop) (s : State) : Noted e s s :=
  ⟨fun _ _ _ => rfl, rfl, ⟨[], by simp⟩, ⟨[], by simp⟩⟩

theorem Noted.eq (h : Noted e s t) :
    t = { s with
      regs := t.regs, rings := t.rings, pw := { s.pw with acts := t.pw.acts, who := t.pw.who }
      out := t.out, rt := t.rt, evqUsed := t.evqUsed, evqLost := t.evqLost } := by
  have := h.rest
  rw [← this]
  rfl

theorem Noted.trans (h : Noted e s t) (k : Noted e t u) : Noted e s u := by
  refine ⟨fun off he ho => (k.regs off he ho).trans (h.regs off he ho), ?_, ?_, ?_⟩
  · rw [k.eq, h.eq]; rfl
  · obtain ⟨l, hl⟩ := h.said
    obtain ⟨m, hm⟩ := k.said
    exact ⟨l ++ m, by rw [hm, hl, List.append_assoc]⟩
  · obtain ⟨l, hl⟩ := h.sent
    obtain ⟨m, hm⟩ := k.sent
    exact ⟨l ++ m, by rw [hm, hl]; simp⟩

theorem Near.noted (h : Near e s t) : Noted e s t := by
  refine ⟨fun off he ho => h.regs off he ?_, ?_, ⟨[], ?_⟩, ⟨[], ?_⟩⟩
  · cases hb : observes off
    · rfl
    · rw [notices_of_observes hb] at ho; cases ho
  · rw [h.eq]; rfl
  · rw [h.eq]; simp
  · rw [h.eq]; simp

theorem Noted.mono {e' : Nat → Prop} (h : Noted e s t) (hs : ∀ off, e off → e' off) : Noted e' s t :=
  ⟨fun off he ho => h.regs off (fun x => he (hs off x)) ho, h.rest, h.said, h.sent⟩

theorem noted_wr (off : Nat) (v : BitVec 64) (h : e off ∨ notices off = true) : Noted e s (s.wr off v) :=
  ⟨fun o he ho => rd_wr_ne v (by rintro rfl; rcases h with h | h <;> simp_all), rfl, ⟨[], by simp [State.wr]⟩, ⟨[], by simp [State.wr]⟩⟩

theorem Noted.wr (h : Noted e s t) (off : Nat) (v : BitVec 64) (he : e off ∨ notices off = true) : Noted e s (t.wr off v) :=
  h.trans (noted_wr off v he)

theorem Noted.setFld (h : Noted e s t) (off : Nat) (f : Field) (n : Nat) (he : e off ∨ notices off = true) :
    Noted e s (t.setFld off f n) := h.wr off _ he

theorem Noted.cntBy (h : Noted e s t) (off n : Nat) (he : e off ∨ notices off = true) : Noted e s (t.cntBy off n) := h.setFld off _ _ he

theorem Noted.cnt (h : Noted e s t) (off : Nat) (he : e off ∨ notices off = true) : Noted e s (t.cnt off) := h.cntBy off 1 he

theorem Noted.event (h : Noted e s t) (st : Nat) (f : Field) (ct : Nat) (h1 : e st ∨ notices st = true)
    (h2 : e ct ∨ notices ct = true) : Noted e s (t.event st f ct) := (h.setFld st f 1 h1).cnt ct h2

theorem Noted.say (h : Noted e s t) (m : Msg) : Noted e s (t.say m) :=
  h.trans ⟨fun _ _ _ => rfl, rfl, ⟨[m], rfl⟩, ⟨[], by simp [State.say]⟩⟩

theorem Noted.tellKeeper (h : Noted e s t) (code a b : Nat) : Noted e s (t.tellKeeper code a b) := h.say _

theorem Noted.inject (h : Noted e s t) (p : Packet) : Noted e s (t.inject p) :=
  h.trans ⟨fun _ _ _ => rfl, rfl, ⟨[], by simp [State.inject]⟩, ⟨[{ p := p }], rfl⟩⟩

theorem Noted.bumpGlb (h : Noted e s t) (src filt n : Nat) : Noted e s (t.bumpGlb src filt n) :=
  h.trans (((Near.refl e t).bumpGlb src filt n).noted)

theorem Noted.bumpClu (h : Noted e s t) (c src filt n : Nat) : Noted e s (t.bumpClu c src filt n) :=
  h.trans (((Near.refl e t).bumpClu c src filt n).noted)

theorem Noted.trace (h : Noted e s t) {v : Nat} (hv : v < 80) (ev obj dur : Nat) (peer : BitVec 64) :
    Noted e s (t.trace v ev obj dur peer) := h.trans (((Near.refl e t).trace hv ev obj dur peer).noted)

theorem Noted.trigger (h : Noted e s t) {v : Nat} (hv : v < 80) (source : Nat) : Noted e s (t.trigger v source) :=
  h.trans (((Near.refl e t).trigger hv source).noted)

theorem Noted.foldl {β : Type} {f : State → β → State} {l : List β} (h : Noted e s t) (hf : ∀ x b, b ∈ l → Noted e x (f x b)) :
    Noted e s (l.foldl f t) := by
  induction l generalizing t with
  | nil => exact h
  | cons b l ih => exact ih (h.trans (hf t b (by simp))) (fun x b hb => hf x b (by simp [hb]))

theorem notices_evqIdx {t : Nat} (h : t ≤ 3) (h0 : t ≠ 0) : notices (Reg.HIF_EVQ_IDX (t - 1)) = true := by
  have : t = 1 ∨ t = 2 ∨ t = 3 := by omega
  rcases this with rfl | rfl | rfl <;> decide

/-- An entry of a tenant's event queue touches the queue, the lost count and the messages (R512). -/
theorem Noted.evq (h : Noted e s t) {v : Nat} (hv : v ≤ 3) (type cluster info : Nat) : Noted e s (t.evq v type cluster info) := by
  refine h.trans ?_
  unfold State.evq
  split
  · exact (Noted.refl e t).say _
  · rename_i h0
    split
    · exact Noted.refl e t
    · split
      · exact Noted.refl e t
      · dsimp only
        split
        · refine Noted.event ?_ _ _ _ (Or.inr (by decide)) (Or.inr (by decide))
          exact ⟨fun _ _ _ => rfl, rfl, ⟨[], by simp⟩, ⟨[], by simp⟩⟩
        · refine Noted.say (Noted.say (Noted.setFld ?_ _ _ _ (Or.inr (notices_evqIdx hv h0))) _) _
          exact ⟨fun _ _ _ => rfl, rfl, ⟨[], by simp⟩, ⟨[], by simp⟩⟩

theorem Noted.showQuery (h : Noted e s t) : Noted e s t.showQuery :=
  ((h.setFld _ _ _ (Or.inr (by decide))).setFld _ _ _ (Or.inr (by decide))).setFld _ _ _ (Or.inr (by decide))

/-- Publishing a record touches the router's injection queue, the messages and the count of records (R462). -/
theorem Noted.publish (h : Noted e s t) : Noted e s t.publish := by
  unfold State.publish
  exact ((((h.foldl (fun x b _ => (Noted.refl e x).inject _)).tellKeeper _ _ _).say _).cnt _ (Or.inr (by decide))).bumpGlb _ _ _

theorem Noted.epochUp (h : Noted e s t) : Noted e s t.epochUp := by
  unfold State.epochUp
  refine Noted.foldl ((h.setFld _ _ _ (Or.inr (by decide))).showQuery.publish) ?_
  intro x b hb
  exact (Noted.refl e x).evq (by simp at hb; omega) _ _ _

/-- A unit's record changes; when its state or its condition flag does, the epoch rises and a record is published (R462). -/
theorem noted_unitChange (e : Nat → Prop) (s : State) (u : Nat) (r : UnitRec) (outcome cause : Nat) :
    Noted e { s.setUnit u r with lastChange := (u, r.state, outcome, cause) } (s.unitChange u r outcome cause) := by
  unfold State.unitChange
  dsimp only
  split
  · exact (Noted.refl e _).showQuery
  · exact (Noted.refl e _).epochUp

theorem Noted.fld (h : Noted e s t) {off : Nat} (f : Field) (he : ¬ e off) (ho : notices off = false) : t.fld off f = s.fld off f := by
  unfold State.fld
  rw [h.regs off he ho]

end Sys2Proof.Machine
end

