-- ==== Sys2Proof/Laws/State.lean ====
section
/-!
SUPPORT. What each elementary update of the state leaves in each field: one lemma per field per update, so that no proof
unfolds a record update.
-/
namespace Sys2Proof.Machine

variable (s : State)

/-! `State.wr` -/

@[simp] theorem State.wr_pending (off : Nat) (v : BitVec 64) : (s.wr off v).pending = s.pending := rfl
@[simp] theorem State.wr_regs (off : Nat) (v : BitVec 64) : (s.wr off v).regs = s.regs.set (regReset off) off v := rfl
@[simp] theorem State.wr_mem (off : Nat) (v : BitVec 64) : (s.wr off v).mem = s.mem := rfl
@[simp] theorem State.wr_codeErr (off : Nat) (v : BitVec 64) : (s.wr off v).codeErr = s.codeErr := rfl
@[simp] theorem State.wr_badStage (off : Nat) (v : BitVec 64) : (s.wr off v).badStage = s.badStage := rfl
@[simp] theorem State.wr_commits (off : Nat) (v : BitVec 64) : (s.wr off v).commits = s.commits := rfl
@[simp] theorem State.wr_clu (off : Nat) (v : BitVec 64) : (s.wr off v).clu = s.clu := rfl
@[simp] theorem State.wr_rank (off : Nat) (v : BitVec 64) : (s.wr off v).rank = s.rank := rfl
@[simp] theorem State.wr_movers (off : Nat) (v : BitVec 64) : (s.wr off v).movers = s.movers := rfl
@[simp] theorem State.wr_movReqs (off : Nat) (v : BitVec 64) : (s.wr off v).movReqs = s.movReqs := rfl
@[simp] theorem State.wr_lastTenant (off : Nat) (v : BitVec 64) : (s.wr off v).lastTenant = s.lastTenant := rfl
@[simp] theorem State.wr_turnLeft (off : Nat) (v : BitVec 64) : (s.wr off v).turnLeft = s.turnLeft := rfl
@[simp] theorem State.wr_lastCluster (off : Nat) (v : BitVec 64) : (s.wr off v).lastCluster = s.lastCluster := rfl
@[simp] theorem State.wr_images (off : Nat) (v : BitVec 64) : (s.wr off v).images = s.images := rfl
@[simp] theorem State.wr_txs (off : Nat) (v : BitVec 64) : (s.wr off v).txs = s.txs := rfl
@[simp] theorem State.wr_rxs (off : Nat) (v : BitVec 64) : (s.wr off v).rxs = s.rxs := rfl
@[simp] theorem State.wr_grants (off : Nat) (v : BitVec 64) : (s.wr off v).grants = s.grants := rfl
@[simp] theorem State.wr_txSeq (off : Nat) (v : BitVec 64) : (s.wr off v).txSeq = s.txSeq := rfl
@[simp] theorem State.wr_rxSeq (off : Nat) (v : BitVec 64) : (s.wr off v).rxSeq = s.rxSeq := rfl
@[simp] theorem State.wr_colls (off : Nat) (v : BitVec 64) : (s.wr off v).colls = s.colls := rfl
@[simp] theorem State.wr_collN (off : Nat) (v : BitVec 64) : (s.wr off v).collN = s.collN := rfl
@[simp] theorem State.wr_early (off : Nat) (v : BitVec 64) : (s.wr off v).early = s.early := rfl
@[simp] theorem State.wr_seals (off : Nat) (v : BitVec 64) : (s.wr off v).seals = s.seals := rfl
@[simp] theorem State.wr_push (off : Nat) (v : BitVec 64) : (s.wr off v).push = s.push := rfl
@[simp] theorem State.wr_fill (off : Nat) (v : BitVec 64) : (s.wr off v).fill = s.fill := rfl
@[simp] theorem State.wr_commitPc (off : Nat) (v : BitVec 64) : (s.wr off v).commitPc = s.commitPc := rfl
@[simp] theorem State.wr_stk (off : Nat) (v : BitVec 64) : (s.wr off v).stk = s.stk := rfl
@[simp] theorem State.wr_saved (off : Nat) (v : BitVec 64) : (s.wr off v).saved = s.saved := rfl
@[simp] theorem State.wr_heldSig (off : Nat) (v : BitVec 64) : (s.wr off v).heldSig = s.heldSig := rfl
@[simp] theorem State.wr_rings (off : Nat) (v : BitVec 64) : (s.wr off v).rings = s.rings := rfl
@[simp] theorem State.wr_block (off : Nat) (v : BitVec 64) : (s.wr off v).block = s.block := rfl
@[simp] theorem State.wr_drainNext (off : Nat) (v : BitVec 64) : (s.wr off v).drainNext = s.drainNext := rfl
@[simp] theorem State.wr_units (off : Nat) (v : BitVec 64) : (s.wr off v).units = s.units := rfl
@[simp] theorem State.wr_hbmTests (off : Nat) (v : BitVec 64) : (s.wr off v).hbmTests = s.hbmTests := rfl
@[simp] theorem State.wr_act (off : Nat) (v : BitVec 64) : (s.wr off v).act = s.act := rfl
@[simp] theorem State.wr_slice (off : Nat) (v : BitVec 64) : (s.wr off v).slice = s.slice := rfl
@[simp] theorem State.wr_tr (off : Nat) (v : BitVec 64) : (s.wr off v).tr = s.tr := rfl
@[simp] theorem State.wr_straps (off : Nat) (v : BitVec 64) : (s.wr off v).straps = s.straps := rfl
@[simp] theorem State.wr_i3c (off : Nat) (v : BitVec 64) : (s.wr off v).i3c = s.i3c := rfl
@[simp] theorem State.wr_hostLink (off : Nat) (v : BitVec 64) : (s.wr off v).hostLink = s.hostLink := rfl
@[simp] theorem State.wr_hostCmds (off : Nat) (v : BitVec 64) : (s.wr off v).hostCmds = s.hostCmds := rfl
@[simp] theorem State.wr_sqTail (off : Nat) (v : BitVec 64) : (s.wr off v).sqTail = s.sqTail := rfl
@[simp] theorem State.wr_cqHead (off : Nat) (v : BitVec 64) : (s.wr off v).cqHead = s.cqHead := rfl
@[simp] theorem State.wr_cqCount (off : Nat) (v : BitVec 64) : (s.wr off v).cqCount = s.cqCount := rfl
@[simp] theorem State.wr_cqUsed (off : Nat) (v : BitVec 64) : (s.wr off v).cqUsed = s.cqUsed := rfl
@[simp] theorem State.wr_qps (off : Nat) (v : BitVec 64) : (s.wr off v).qps = s.qps := rfl
@[simp] theorem State.wr_kprQp (off : Nat) (v : BitVec 64) : (s.wr off v).kprQp = s.kprQp := rfl
@[simp] theorem State.wr_tap (off : Nat) (v : BitVec 64) : (s.wr off v).tap = s.tap := rfl
@[simp] theorem State.wr_tapDrive (off : Nat) (v : BitVec 64) : (s.wr off v).tapDrive = s.tapDrive := rfl
@[simp] theorem State.wr_telemetryOff (off : Nat) (v : BitVec 64) : (s.wr off v).telemetryOff = s.telemetryOff := rfl
@[simp] theorem State.wr_reset_ (off : Nat) (v : BitVec 64) : (s.wr off v).reset_ = s.reset_ := rfl
@[simp] theorem State.wr_resetQ (off : Nat) (v : BitVec 64) : (s.wr off v).resetQ = s.resetQ := rfl
@[simp] theorem State.wr_pw (off : Nat) (v : BitVec 64) : (s.wr off v).pw = s.pw := rfl
@[simp] theorem State.wr_fwBeat (off : Nat) (v : BitVec 64) : (s.wr off v).fwBeat = s.fwBeat := rfl
@[simp] theorem State.wr_peerRec (off : Nat) (v : BitVec 64) : (s.wr off v).peerRec = s.peerRec := rfl
@[simp] theorem State.wr_peerEpoch (off : Nat) (v : BitVec 64) : (s.wr off v).peerEpoch = s.peerEpoch := rfl
@[simp] theorem State.wr_lastChange (off : Nat) (v : BitVec 64) : (s.wr off v).lastChange = s.lastChange := rfl
@[simp] theorem State.wr_rt (off : Nat) (v : BitVec 64) : (s.wr off v).rt = s.rt := rfl
@[simp] theorem State.wr_links (off : Nat) (v : BitVec 64) : (s.wr off v).links = s.links := rfl
@[simp] theorem State.wr_boardRead (off : Nat) (v : BitVec 64) : (s.wr off v).boardRead = s.boardRead := rfl
@[simp] theorem State.wr_evqUsed (off : Nat) (v : BitVec 64) : (s.wr off v).evqUsed = s.evqUsed := rfl
@[simp] theorem State.wr_evqLost (off : Nat) (v : BitVec 64) : (s.wr off v).evqLost = s.evqLost := rfl
@[simp] theorem State.wr_out (off : Nat) (v : BitVec 64) : (s.wr off v).out = s.out := rfl
@[simp] theorem State.wr_freeIx (off : Nat) (v : BitVec 64) : (s.wr off v).freeIx = s.freeIx := rfl

/-! `State.setFld` -/

@[simp] theorem State.setFld_pending (off : Nat) (f : Field) (n : Nat) : (s.setFld off f n).pending = s.pending := rfl
@[simp] theorem State.setFld_regs (off : Nat) (f : Field) (n : Nat) : (s.setFld off f n).regs = s.regs.set (regReset off) off (putField (s.rd off) f n) := rfl
@[simp] theorem State.setFld_mem (off : Nat) (f : Field) (n : Nat) : (s.setFld off f n).mem = s.mem := rfl
@[simp] theorem State.setFld_codeErr (off : Nat) (f : Field) (n : Nat) : (s.setFld off f n).codeErr = s.codeErr := rfl
@[simp] theorem State.setFld_badStage (off : Nat) (f : Field) (n : Nat) : (s.setFld off f n).badStage = s.badStage := rfl
@[simp] theorem State.setFld_commits (off : Nat) (f : Field) (n : Nat) : (s.setFld off f n).commits = s.commits := rfl
@[simp] theorem State.setFld_clu (off : Nat) (f : Field) (n : Nat) : (s.setFld off f n).clu = s.clu := rfl
@[simp] theorem State.setFld_rank (off : Nat) (f : Field) (n : Nat) : (s.setFld off f n).rank = s.rank := rfl
@[simp] theorem State.setFld_movers (off : Nat) (f : Field) (n : Nat) : (s.setFld off f n).movers = s.movers := rfl
@[simp] theorem State.setFld_movReqs (off : Nat) (f : Field) (n : Nat) : (s.setFld off f n).movReqs = s.movReqs := rfl
@[simp] theorem State.setFld_lastTenant (off : Nat) (f : Field) (n : Nat) : (s.setFld off f n).lastTenant = s.lastTenant := rfl
@[simp] theorem State.setFld_turnLeft (off : Nat) (f : Field) (n : Nat) : (s.setFld off f n).turnLeft = s.turnLeft := rfl
@[simp] theorem State.setFld_lastCluster (off : Nat) (f : Field) (n : Nat) : (s.setFld off f n).lastCluster = s.lastCluster := rfl
@[simp] theorem State.setFld_images (off : Nat) (f : Field) (n : Nat) : (s.setFld off f n).images = s.images := rfl
@[simp] theorem State.setFld_txs (off : Nat) (f : Field) (n : Nat) : (s.setFld off f n).txs = s.txs := rfl
@[simp] theorem State.setFld_rxs (off : Nat) (f : Field) (n : Nat) : (s.setFld off f n).rxs = s.rxs := rfl
@[simp] theorem State.setFld_grants (off : Nat) (f : Field) (n : Nat) : (s.setFld off f n).grants = s.grants := rfl
@[simp] theorem State.setFld_txSeq (off : Nat) (f : Field) (n : Nat) : (s.setFld off f n).txSeq = s.txSeq := rfl
@[simp] theorem State.setFld_rxSeq (off : Nat) (f : Field) (n : Nat) : (s.setFld off f n).rxSeq = s.rxSeq := rfl
@[simp] theorem State.setFld_colls (off : Nat) (f : Field) (n : Nat) : (s.setFld off f n).colls = s.colls := rfl
@[simp] theorem State.setFld_collN (off : Nat) (f : Field) (n : Nat) : (s.setFld off f n).collN = s.collN := rfl
@[simp] theorem State.setFld_early (off : Nat) (f : Field) (n : Nat) : (s.setFld off f n).early = s.early := rfl
@[simp] theorem State.setFld_seals (off : Nat) (f : Field) (n : Nat) : (s.setFld off f n).seals = s.seals := rfl
@[simp] theorem State.setFld_push (off : Nat) (f : Field) (n : Nat) : (s.setFld off f n).push = s.push := rfl
@[simp] theorem State.setFld_fill (off : Nat) (f : Field) (n : Nat) : (s.setFld off f n).fill = s.fill := rfl
@[simp] theorem State.setFld_commitPc (off : Nat) (f : Field) (n : Nat) : (s.setFld off f n).commitPc = s.commitPc := rfl
@[simp] theorem State.setFld_stk (off : Nat) (f : Field) (n : Nat) : (s.setFld off f n).stk = s.stk := rfl
@[simp] theorem State.setFld_saved (off : Nat) (f : Field) (n : Nat) : (s.setFld off f n).saved = s.saved := rfl
@[simp] theorem State.setFld_heldSig (off : Nat) (f : Field) (n : Nat) : (s.setFld off f n).heldSig = s.heldSig := rfl
@[simp] theorem State.setFld_rings (off : Nat) (f : Field) (n : Nat) : (s.setFld off f n).rings = s.rings := rfl
@[simp] theorem State.setFld_block (off : Nat) (f : Field) (n : Nat) : (s.setFld off f n).block = s.block := rfl
@[simp] theorem State.setFld_drainNext (off : Nat) (f : Field) (n : Nat) : (s.setFld off f n).drainNext = s.drainNext := rfl
@[simp] theorem State.setFld_units (off : Nat) (f : Field) (n : Nat) : (s.setFld off f n).units = s.units := rfl
@[simp] theorem State.setFld_hbmTests (off : Nat) (f : Field) (n : Nat) : (s.setFld off f n).hbmTests = s.hbmTests := rfl
@[simp] theorem State.setFld_act (off : Nat) (f : Field) (n : Nat) : (s.setFld off f n).act = s.act := rfl
@[simp] theorem State.setFld_slice (off : Nat) (f : Field) (n : Nat) : (s.setFld off f n).slice = s.slice := rfl
@[simp] theorem State.setFld_tr (off : Nat) (f : Field) (n : Nat) : (s.setFld off f n).tr = s.tr := rfl
@[simp] theorem State.setFld_straps (off : Nat) (f : Field) (n : Nat) : (s.setFld off f n).straps = s.straps := rfl
@[simp] theorem State.setFld_i3c (off : Nat) (f : Field) (n : Nat) : (s.setFld off f n).i3c = s.i3c := rfl
@[simp] theorem State.setFld_hostLink (off : Nat) (f : Field) (n : Nat) : (s.setFld off f n).hostLink = s.hostLink := rfl
@[simp] theorem State.setFld_hostCmds (off : Nat) (f : Field) (n : Nat) : (s.setFld off f n).hostCmds = s.hostCmds := rfl
@[simp] theorem State.setFld_sqTail (off : Nat) (f : Field) (n : Nat) : (s.setFld off f n).sqTail = s.sqTail := rfl
@[simp] theorem State.setFld_cqHead (off : Nat) (f : Field) (n : Nat) : (s.setFld off f n).cqHead = s.cqHead := rfl
@[simp] theorem State.setFld_cqCount (off : Nat) (f : Field) (n : Nat) : (s.setFld off f n).cqCount = s.cqCount := rfl
@[simp] theorem State.setFld_cqUsed (off : Nat) (f : Field) (n : Nat) : (s.setFld off f n).cqUsed = s.cqUsed := rfl
@[simp] theorem State.setFld_qps (off : Nat) (f : Field) (n : Nat) : (s.setFld off f n).qps = s.qps := rfl
@[simp] theorem State.setFld_kprQp (off : Nat) (f : Field) (n : Nat) : (s.setFld off f n).kprQp = s.kprQp := rfl
@[simp] theorem State.setFld_tap (off : Nat) (f : Field) (n : Nat) : (s.setFld off f n).tap = s.tap := rfl
@[simp] theorem State.setFld_tapDrive (off : Nat) (f : Field) (n : Nat) : (s.setFld off f n).tapDrive = s.tapDrive := rfl
@[simp] theorem State.setFld_telemetryOff (off : Nat) (f : Field) (n : Nat) : (s.setFld off f n).telemetryOff = s.telemetryOff := rfl
@[simp] theorem State.setFld_reset_ (off : Nat) (f : Field) (n : Nat) : (s.setFld off f n).reset_ = s.reset_ := rfl
@[simp] theorem State.setFld_resetQ (off : Nat) (f : Field) (n : Nat) : (s.setFld off f n).resetQ = s.resetQ := rfl
@[simp] theorem State.setFld_pw (off : Nat) (f : Field) (n : Nat) : (s.setFld off f n).pw = s.pw := rfl
@[simp] theorem State.setFld_fwBeat (off : Nat) (f : Field) (n : Nat) : (s.setFld off f n).fwBeat = s.fwBeat := rfl
@[simp] theorem State.setFld_peerRec (off : Nat) (f : Field) (n : Nat) : (s.setFld off f n).peerRec = s.peerRec := rfl
@[simp] theorem State.setFld_peerEpoch (off : Nat) (f : Field) (n : Nat) : (s.setFld off f n).peerEpoch = s.peerEpoch := rfl
@[simp] theorem State.setFld_lastChange (off : Nat) (f : Field) (n : Nat) : (s.setFld off f n).lastChange = s.lastChange := rfl
@[simp] theorem State.setFld_rt (off : Nat) (f : Field) (n : Nat) : (s.setFld off f n).rt = s.rt := rfl
@[simp] theorem State.setFld_links (off : Nat) (f : Field) (n : Nat) : (s.setFld off f n).links = s.links := rfl
@[simp] theorem State.setFld_boardRead (off : Nat) (f : Field) (n : Nat) : (s.setFld off f n).boardRead = s.boardRead := rfl
@[simp] theorem State.setFld_evqUsed (off : Nat) (f : Field) (n : Nat) : (s.setFld off f n).evqUsed = s.evqUsed := rfl
@[simp] theorem State.setFld_evqLost (off : Nat) (f : Field) (n : Nat) : (s.setFld off f n).evqLost = s.evqLost := rfl
@[simp] theorem State.setFld_out (off : Nat) (f : Field) (n : Nat) : (s.setFld off f n).out = s.out := rfl
@[simp] theorem State.setFld_freeIx (off : Nat) (f : Field) (n : Nat) : (s.setFld off f n).freeIx = s.freeIx := rfl

/-! `State.setCl` -/

@[simp] theorem State.setCl_pending (c : Nat) (x : Cluster) : (s.setCl c x).pending = s.pending := rfl
@[simp] theorem State.setCl_regs (c : Nat) (x : Cluster) : (s.setCl c x).regs = s.regs := rfl
@[simp] theorem State.setCl_mem (c : Nat) (x : Cluster) : (s.setCl c x).mem = s.mem := rfl
@[simp] theorem State.setCl_codeErr (c : Nat) (x : Cluster) : (s.setCl c x).codeErr = s.codeErr := rfl
@[simp] theorem State.setCl_badStage (c : Nat) (x : Cluster) : (s.setCl c x).badStage = s.badStage := rfl
@[simp] theorem State.setCl_commits (c : Nat) (x : Cluster) : (s.setCl c x).commits = s.commits := rfl
@[simp] theorem State.setCl_clu (c : Nat) (x : Cluster) : (s.setCl c x).clu = s.clu.set {} c x := rfl
@[simp] theorem State.setCl_rank (c : Nat) (x : Cluster) : (s.setCl c x).rank = s.rank := rfl
@[simp] theorem State.setCl_movers (c : Nat) (x : Cluster) : (s.setCl c x).movers = s.movers := rfl
@[simp] theorem State.setCl_movReqs (c : Nat) (x : Cluster) : (s.setCl c x).movReqs = s.movReqs := rfl
@[simp] theorem State.setCl_lastTenant (c : Nat) (x : Cluster) : (s.setCl c x).lastTenant = s.lastTenant := rfl
@[simp] theorem State.setCl_turnLeft (c : Nat) (x : Cluster) : (s.setCl c x).turnLeft = s.turnLeft := rfl
@[simp] theorem State.setCl_lastCluster (c : Nat) (x : Cluster) : (s.setCl c x).lastCluster = s.lastCluster := rfl
@[simp] theorem State.setCl_images (c : Nat) (x : Cluster) : (s.setCl c x).images = s.images := rfl
@[simp] theorem State.setCl_txs (c : Nat) (x : Cluster) : (s.setCl c x).txs = s.txs := rfl
@[simp] theorem State.setCl_rxs (c : Nat) (x : Cluster) : (s.setCl c x).rxs = s.rxs := rfl
@[simp] theorem State.setCl_grants (c : Nat) (x : Cluster) : (s.setCl c x).grants = s.grants := rfl
@[simp] theorem State.setCl_txSeq (c : Nat) (x : Cluster) : (s.setCl c x).txSeq = s.txSeq := rfl
@[simp] theorem State.setCl_rxSeq (c : Nat) (x : Cluster) : (s.setCl c x).rxSeq = s.rxSeq := rfl
@[simp] theorem State.setCl_colls (c : Nat) (x : Cluster) : (s.setCl c x).colls = s.colls := rfl
@[simp] theorem State.setCl_collN (c : Nat) (x : Cluster) : (s.setCl c x).collN = s.collN := rfl
@[simp] theorem State.setCl_early (c : Nat) (x : Cluster) : (s.setCl c x).early = s.early := rfl
@[simp] theorem State.setCl_seals (c : Nat) (x : Cluster) : (s.setCl c x).seals = s.seals := rfl
@[simp] theorem State.setCl_push (c : Nat) (x : Cluster) : (s.setCl c x).push = s.push := rfl
@[simp] theorem State.setCl_fill (c : Nat) (x : Cluster) : (s.setCl c x).fill = s.fill := rfl
@[simp] theorem State.setCl_commitPc (c : Nat) (x : Cluster) : (s.setCl c x).commitPc = s.commitPc := rfl
@[simp] theorem State.setCl_stk (c : Nat) (x : Cluster) : (s.setCl c x).stk = s.stk := rfl
@[simp] theorem State.setCl_saved (c : Nat) (x : Cluster) : (s.setCl c x).saved = s.saved := rfl
@[simp] theorem State.setCl_heldSig (c : Nat) (x : Cluster) : (s.setCl c x).heldSig = s.heldSig := rfl
@[simp] theorem State.setCl_rings (c : Nat) (x : Cluster) : (s.setCl c x).rings = s.rings := rfl
@[simp] theorem State.setCl_block (c : Nat) (x : Cluster) : (s.setCl c x).block = s.block := rfl
@[simp] theorem State.setCl_drainNext (c : Nat) (x : Cluster) : (s.setCl c x).drainNext = s.drainNext := rfl
@[simp] theorem State.setCl_units (c : Nat) (x : Cluster) : (s.setCl c x).units = s.units := rfl
@[simp] theorem State.setCl_hbmTests (c : Nat) (x : Cluster) : (s.setCl c x).hbmTests = s.hbmTests := rfl
@[simp] theorem State.setCl_act (c : Nat) (x : Cluster) : (s.setCl c x).act = s.act := rfl
@[simp] theorem State.setCl_slice (c : Nat) (x : Cluster) : (s.setCl c x).slice = s.slice := rfl
@[simp] theorem State.setCl_tr (c : Nat) (x : Cluster) : (s.setCl c x).tr = s.tr := rfl
@[simp] theorem State.setCl_straps (c : Nat) (x : Cluster) : (s.setCl c x).straps = s.straps := rfl
@[simp] theorem State.setCl_i3c (c : Nat) (x : Cluster) : (s.setCl c x).i3c = s.i3c := rfl
@[simp] theorem State.setCl_hostLink (c : Nat) (x : Cluster) : (s.setCl c x).hostLink = s.hostLink := rfl
@[simp] theorem State.setCl_hostCmds (c : Nat) (x : Cluster) : (s.setCl c x).hostCmds = s.hostCmds := rfl
@[simp] theorem State.setCl_sqTail (c : Nat) (x : Cluster) : (s.setCl c x).sqTail = s.sqTail := rfl
@[simp] theorem State.setCl_cqHead (c : Nat) (x : Cluster) : (s.setCl c x).cqHead = s.cqHead := rfl
@[simp] theorem State.setCl_cqCount (c : Nat) (x : Cluster) : (s.setCl c x).cqCount = s.cqCount := rfl
@[simp] theorem State.setCl_cqUsed (c : Nat) (x : Cluster) : (s.setCl c x).cqUsed = s.cqUsed := rfl
@[simp] theorem State.setCl_qps (c : Nat) (x : Cluster) : (s.setCl c x).qps = s.qps := rfl
@[simp] theorem State.setCl_kprQp (c : Nat) (x : Cluster) : (s.setCl c x).kprQp = s.kprQp := rfl
@[simp] theorem State.setCl_tap (c : Nat) (x : Cluster) : (s.setCl c x).tap = s.tap := rfl
@[simp] theorem State.setCl_tapDrive (c : Nat) (x : Cluster) : (s.setCl c x).tapDrive = s.tapDrive := rfl
@[simp] theorem State.setCl_telemetryOff (c : Nat) (x : Cluster) : (s.setCl c x).telemetryOff = s.telemetryOff := rfl
@[simp] theorem State.setCl_reset_ (c : Nat) (x : Cluster) : (s.setCl c x).reset_ = s.reset_ := rfl
@[simp] theorem State.setCl_resetQ (c : Nat) (x : Cluster) : (s.setCl c x).resetQ = s.resetQ := rfl
@[simp] theorem State.setCl_pw (c : Nat) (x : Cluster) : (s.setCl c x).pw = s.pw := rfl
@[simp] theorem State.setCl_fwBeat (c : Nat) (x : Cluster) : (s.setCl c x).fwBeat = s.fwBeat := rfl
@[simp] theorem State.setCl_peerRec (c : Nat) (x : Cluster) : (s.setCl c x).peerRec = s.peerRec := rfl
@[simp] theorem State.setCl_peerEpoch (c : Nat) (x : Cluster) : (s.setCl c x).peerEpoch = s.peerEpoch := rfl
@[simp] theorem State.setCl_lastChange (c : Nat) (x : Cluster) : (s.setCl c x).lastChange = s.lastChange := rfl
@[simp] theorem State.setCl_rt (c : Nat) (x : Cluster) : (s.setCl c x).rt = s.rt := rfl
@[simp] theorem State.setCl_links (c : Nat) (x : Cluster) : (s.setCl c x).links = s.links := rfl
@[simp] theorem State.setCl_boardRead (c : Nat) (x : Cluster) : (s.setCl c x).boardRead = s.boardRead := rfl
@[simp] theorem State.setCl_evqUsed (c : Nat) (x : Cluster) : (s.setCl c x).evqUsed = s.evqUsed := rfl
@[simp] theorem State.setCl_evqLost (c : Nat) (x : Cluster) : (s.setCl c x).evqLost = s.evqLost := rfl
@[simp] theorem State.setCl_out (c : Nat) (x : Cluster) : (s.setCl c x).out = s.out := rfl
@[simp] theorem State.setCl_freeIx (c : Nat) (x : Cluster) : (s.setCl c x).freeIx = s.freeIx := rfl

/-! `State.modCl` -/

@[simp] theorem State.modCl_pending (c : Nat) (f : Cluster → Cluster) : (s.modCl c f).pending = s.pending := rfl
@[simp] theorem State.modCl_regs (c : Nat) (f : Cluster → Cluster) : (s.modCl c f).regs = s.regs := rfl
@[simp] theorem State.modCl_mem (c : Nat) (f : Cluster → Cluster) : (s.modCl c f).mem = s.mem := rfl
@[simp] theorem State.modCl_codeErr (c : Nat) (f : Cluster → Cluster) : (s.modCl c f).codeErr = s.codeErr := rfl
@[simp] theorem State.modCl_badStage (c : Nat) (f : Cluster → Cluster) : (s.modCl c f).badStage = s.badStage := rfl
@[simp] theorem State.modCl_commits (c : Nat) (f : Cluster → Cluster) : (s.modCl c f).commits = s.commits := rfl
@[simp] theorem State.modCl_clu (c : Nat) (f : Cluster → Cluster) : (s.modCl c f).clu = s.clu.set {} c (f (s.cl c)) := rfl
@[simp] theorem State.modCl_rank (c : Nat) (f : Cluster → Cluster) : (s.modCl c f).rank = s.rank := rfl
@[simp] theorem State.modCl_movers (c : Nat) (f : Cluster → Cluster) : (s.modCl c f).movers = s.movers := rfl
@[simp] theorem State.modCl_movReqs (c : Nat) (f : Cluster → Cluster) : (s.modCl c f).movReqs = s.movReqs := rfl
@[simp] theorem State.modCl_lastTenant (c : Nat) (f : Cluster → Cluster) : (s.modCl c f).lastTenant = s.lastTenant := rfl
@[simp] theorem State.modCl_turnLeft (c : Nat) (f : Cluster → Cluster) : (s.modCl c f).turnLeft = s.turnLeft := rfl
@[simp] theorem State.modCl_lastCluster (c : Nat) (f : Cluster → Cluster) : (s.modCl c f).lastCluster = s.lastCluster := rfl
@[simp] theorem State.modCl_images (c : Nat) (f : Cluster → Cluster) : (s.modCl c f).images = s.images := rfl
@[simp] theorem State.modCl_txs (c : Nat) (f : Cluster → Cluster) : (s.modCl c f).txs = s.txs := rfl
@[simp] theorem State.modCl_rxs (c : Nat) (f : Cluster → Cluster) : (s.modCl c f).rxs = s.rxs := rfl
@[simp] theorem State.modCl_grants (c : Nat) (f : Cluster → Cluster) : (s.modCl c f).grants = s.grants := rfl
@[simp] theorem State.modCl_txSeq (c : Nat) (f : Cluster → Cluster) : (s.modCl c f).txSeq = s.txSeq := rfl
@[simp] theorem State.modCl_rxSeq (c : Nat) (f : Cluster → Cluster) : (s.modCl c f).rxSeq = s.rxSeq := rfl
@[simp] theorem State.modCl_colls (c : Nat) (f : Cluster → Cluster) : (s.modCl c f).colls = s.colls := rfl
@[simp] theorem State.modCl_collN (c : Nat) (f : Cluster → Cluster) : (s.modCl c f).collN = s.collN := rfl
@[simp] theorem State.modCl_early (c : Nat) (f : Cluster → Cluster) : (s.modCl c f).early = s.early := rfl
@[simp] theorem State.modCl_seals (c : Nat) (f : Cluster → Cluster) : (s.modCl c f).seals = s.seals := rfl
@[simp] theorem State.modCl_push (c : Nat) (f : Cluster → Cluster) : (s.modCl c f).push = s.push := rfl
@[simp] theorem State.modCl_fill (c : Nat) (f : Cluster → Cluster) : (s.modCl c f).fill = s.fill := rfl
@[simp] theorem State.modCl_commitPc (c : Nat) (f : Cluster → Cluster) : (s.modCl c f).commitPc = s.commitPc := rfl
@[simp] theorem State.modCl_stk (c : Nat) (f : Cluster → Cluster) : (s.modCl c f).stk = s.stk := rfl
@[simp] theorem State.modCl_saved (c : Nat) (f : Cluster → Cluster) : (s.modCl c f).saved = s.saved := rfl
@[simp] theorem State.modCl_heldSig (c : Nat) (f : Cluster → Cluster) : (s.modCl c f).heldSig = s.heldSig := rfl
@[simp] theorem State.modCl_rings (c : Nat) (f : Cluster → Cluster) : (s.modCl c f).rings = s.rings := rfl
@[simp] theorem State.modCl_block (c : Nat) (f : Cluster → Cluster) : (s.modCl c f).block = s.block := rfl
@[simp] theorem State.modCl_drainNext (c : Nat) (f : Cluster → Cluster) : (s.modCl c f).drainNext = s.drainNext := rfl
@[simp] theorem State.modCl_units (c : Nat) (f : Cluster → Cluster) : (s.modCl c f).units = s.units := rfl
@[simp] theorem State.modCl_hbmTests (c : Nat) (f : Cluster → Cluster) : (s.modCl c f).hbmTests = s.hbmTests := rfl
@[simp] theorem State.modCl_act (c : Nat) (f : Cluster → Cluster) : (s.modCl c f).act = s.act := rfl
@[simp] theorem State.modCl_slice (c : Nat) (f : Cluster → Cluster) : (s.modCl c f).slice = s.slice := rfl
@[simp] theorem State.modCl_tr (c : Nat) (f : Cluster → Cluster) : (s.modCl c f).tr = s.tr := rfl
@[simp] theorem State.modCl_straps (c : Nat) (f : Cluster → Cluster) : (s.modCl c f).straps = s.straps := rfl
@[simp] theorem State.modCl_i3c (c : Nat) (f : Cluster → Cluster) : (s.modCl c f).i3c = s.i3c := rfl
@[simp] theorem State.modCl_hostLink (c : Nat) (f : Cluster → Cluster) : (s.modCl c f).hostLink = s.hostLink := rfl
@[simp] theorem State.modCl_hostCmds (c : Nat) (f : Cluster → Cluster) : (s.modCl c f).hostCmds = s.hostCmds := rfl
@[simp] theorem State.modCl_sqTail (c : Nat) (f : Cluster → Cluster) : (s.modCl c f).sqTail = s.sqTail := rfl
@[simp] theorem State.modCl_cqHead (c : Nat) (f : Cluster → Cluster) : (s.modCl c f).cqHead = s.cqHead := rfl
@[simp] theorem State.modCl_cqCount (c : Nat) (f : Cluster → Cluster) : (s.modCl c f).cqCount = s.cqCount := rfl
@[simp] theorem State.modCl_cqUsed (c : Nat) (f : Cluster → Cluster) : (s.modCl c f).cqUsed = s.cqUsed := rfl
@[simp] theorem State.modCl_qps (c : Nat) (f : Cluster → Cluster) : (s.modCl c f).qps = s.qps := rfl
@[simp] theorem State.modCl_kprQp (c : Nat) (f : Cluster → Cluster) : (s.modCl c f).kprQp = s.kprQp := rfl
@[simp] theorem State.modCl_tap (c : Nat) (f : Cluster → Cluster) : (s.modCl c f).tap = s.tap := rfl
@[simp] theorem State.modCl_tapDrive (c : Nat) (f : Cluster → Cluster) : (s.modCl c f).tapDrive = s.tapDrive := rfl
@[simp] theorem State.modCl_telemetryOff (c : Nat) (f : Cluster → Cluster) : (s.modCl c f).telemetryOff = s.telemetryOff := rfl
@[simp] theorem State.modCl_reset_ (c : Nat) (f : Cluster → Cluster) : (s.modCl c f).reset_ = s.reset_ := rfl
@[simp] theorem State.modCl_resetQ (c : Nat) (f : Cluster → Cluster) : (s.modCl c f).resetQ = s.resetQ := rfl
@[simp] theorem State.modCl_pw (c : Nat) (f : Cluster → Cluster) : (s.modCl c f).pw = s.pw := rfl
@[simp] theorem State.modCl_fwBeat (c : Nat) (f : Cluster → Cluster) : (s.modCl c f).fwBeat = s.fwBeat := rfl
@[simp] theorem State.modCl_peerRec (c : Nat) (f : Cluster → Cluster) : (s.modCl c f).peerRec = s.peerRec := rfl
@[simp] theorem State.modCl_peerEpoch (c : Nat) (f : Cluster → Cluster) : (s.modCl c f).peerEpoch = s.peerEpoch := rfl
@[simp] theorem State.modCl_lastChange (c : Nat) (f : Cluster → Cluster) : (s.modCl c f).lastChange = s.lastChange := rfl
@[simp] theorem State.modCl_rt (c : Nat) (f : Cluster → Cluster) : (s.modCl c f).rt = s.rt := rfl
@[simp] theorem State.modCl_links (c : Nat) (f : Cluster → Cluster) : (s.modCl c f).links = s.links := rfl
@[simp] theorem State.modCl_boardRead (c : Nat) (f : Cluster → Cluster) : (s.modCl c f).boardRead = s.boardRead := rfl
@[simp] theorem State.modCl_evqUsed (c : Nat) (f : Cluster → Cluster) : (s.modCl c f).evqUsed = s.evqUsed := rfl
@[simp] theorem State.modCl_evqLost (c : Nat) (f : Cluster → Cluster) : (s.modCl c f).evqLost = s.evqLost := rfl
@[simp] theorem State.modCl_out (c : Nat) (f : Cluster → Cluster) : (s.modCl c f).out = s.out := rfl
@[simp] theorem State.modCl_freeIx (c : Nat) (f : Cluster → Cluster) : (s.modCl c f).freeIx = s.freeIx := rfl

/-! `State.setRk` -/

@[simp] theorem State.setRk_pending (c r : Nat) (x : Rank) : (s.setRk c r x).pending = s.pending := rfl
@[simp] theorem State.setRk_regs (c r : Nat) (x : Rank) : (s.setRk c r x).regs = s.regs := rfl
@[simp] theorem State.setRk_mem (c r : Nat) (x : Rank) : (s.setRk c r x).mem = s.mem := rfl
@[simp] theorem State.setRk_codeErr (c r : Nat) (x : Rank) : (s.setRk c r x).codeErr = s.codeErr := rfl
@[simp] theorem State.setRk_badStage (c r : Nat) (x : Rank) : (s.setRk c r x).badStage = s.badStage := rfl
@[simp] theorem State.setRk_commits (c r : Nat) (x : Rank) : (s.setRk c r x).commits = s.commits := rfl
@[simp] theorem State.setRk_clu (c r : Nat) (x : Rank) : (s.setRk c r x).clu = s.clu := rfl
@[simp] theorem State.setRk_rank (c r : Nat) (x : Rank) : (s.setRk c r x).rank = s.rank.set {} (c * 16 + r) x := rfl
@[simp] theorem State.setRk_movers (c r : Nat) (x : Rank) : (s.setRk c r x).movers = s.movers := rfl
@[simp] theorem State.setRk_movReqs (c r : Nat) (x : Rank) : (s.setRk c r x).movReqs = s.movReqs := rfl
@[simp] theorem State.setRk_lastTenant (c r : Nat) (x : Rank) : (s.setRk c r x).lastTenant = s.lastTenant := rfl
@[simp] theorem State.setRk_turnLeft (c r : Nat) (x : Rank) : (s.setRk c r x).turnLeft = s.turnLeft := rfl
@[simp] theorem State.setRk_lastCluster (c r : Nat) (x : Rank) : (s.setRk c r x).lastCluster = s.lastCluster := rfl
@[simp] theorem State.setRk_images (c r : Nat) (x : Rank) : (s.setRk c r x).images = s.images := rfl
@[simp] theorem State.setRk_txs (c r : Nat) (x : Rank) : (s.setRk c r x).txs = s.txs := rfl
@[simp] theorem State.setRk_rxs (c r : Nat) (x : Rank) : (s.setRk c r x).rxs = s.rxs := rfl
@[simp] theorem State.setRk_grants (c r : Nat) (x : Rank) : (s.setRk c r x).grants = s.grants := rfl
@[simp] theorem State.setRk_txSeq (c r : Nat) (x : Rank) : (s.setRk c r x).txSeq = s.txSeq := rfl
@[simp] theorem State.setRk_rxSeq (c r : Nat) (x : Rank) : (s.setRk c r x).rxSeq = s.rxSeq := rfl
@[simp] theorem State.setRk_colls (c r : Nat) (x : Rank) : (s.setRk c r x).colls = s.colls := rfl
@[simp] theorem State.setRk_collN (c r : Nat) (x : Rank) : (s.setRk c r x).collN = s.collN := rfl
@[simp] theorem State.setRk_early (c r : Nat) (x : Rank) : (s.setRk c r x).early = s.early := rfl
@[simp] theorem State.setRk_seals (c r : Nat) (x : Rank) : (s.setRk c r x).seals = s.seals := rfl
@[simp] theorem State.setRk_push (c r : Nat) (x : Rank) : (s.setRk c r x).push = s.push := rfl
@[simp] theorem State.setRk_fill (c r : Nat) (x : Rank) : (s.setRk c r x).fill = s.fill := rfl
@[simp] theorem State.setRk_commitPc (c r : Nat) (x : Rank) : (s.setRk c r x).commitPc = s.commitPc := rfl
@[simp] theorem State.setRk_stk (c r : Nat) (x : Rank) : (s.setRk c r x).stk = s.stk := rfl
@[simp] theorem State.setRk_saved (c r : Nat) (x : Rank) : (s.setRk c r x).saved = s.saved := rfl
@[simp] theorem State.setRk_heldSig (c r : Nat) (x : Rank) : (s.setRk c r x).heldSig = s.heldSig := rfl
@[simp] theorem State.setRk_rings (c r : Nat) (x : Rank) : (s.setRk c r x).rings = s.rings := rfl
@[simp] theorem State.setRk_block (c r : Nat) (x : Rank) : (s.setRk c r x).block = s.block := rfl
@[simp] theorem State.setRk_drainNext (c r : Nat) (x : Rank) : (s.setRk c r x).drainNext = s.drainNext := rfl
@[simp] theorem State.setRk_units (c r : Nat) (x : Rank) : (s.setRk c r x).units = s.units := rfl
@[simp] theorem State.setRk_hbmTests (c r : Nat) (x : Rank) : (s.setRk c r x).hbmTests = s.hbmTests := rfl
@[simp] theorem State.setRk_act (c r : Nat) (x : Rank) : (s.setRk c r x).act = s.act := rfl
@[simp] theorem State.setRk_slice (c r : Nat) (x : Rank) : (s.setRk c r x).slice = s.slice := rfl
@[simp] theorem State.setRk_tr (c r : Nat) (x : Rank) : (s.setRk c r x).tr = s.tr := rfl
@[simp] theorem State.setRk_straps (c r : Nat) (x : Rank) : (s.setRk c r x).straps = s.straps := rfl
@[simp] theorem State.setRk_i3c (c r : Nat) (x : Rank) : (s.setRk c r x).i3c = s.i3c := rfl
@[simp] theorem State.setRk_hostLink (c r : Nat) (x : Rank) : (s.setRk c r x).hostLink = s.hostLink := rfl
@[simp] theorem State.setRk_hostCmds (c r : Nat) (x : Rank) : (s.setRk c r x).hostCmds = s.hostCmds := rfl
@[simp] theorem State.setRk_sqTail (c r : Nat) (x : Rank) : (s.setRk c r x).sqTail = s.sqTail := rfl
@[simp] theorem State.setRk_cqHead (c r : Nat) (x : Rank) : (s.setRk c r x).cqHead = s.cqHead := rfl
@[simp] theorem State.setRk_cqCount (c r : Nat) (x : Rank) : (s.setRk c r x).cqCount = s.cqCount := rfl
@[simp] theorem State.setRk_cqUsed (c r : Nat) (x : Rank) : (s.setRk c r x).cqUsed = s.cqUsed := rfl
@[simp] theorem State.setRk_qps (c r : Nat) (x : Rank) : (s.setRk c r x).qps = s.qps := rfl
@[simp] theorem State.setRk_kprQp (c r : Nat) (x : Rank) : (s.setRk c r x).kprQp = s.kprQp := rfl
@[simp] theorem State.setRk_tap (c r : Nat) (x : Rank) : (s.setRk c r x).tap = s.tap := rfl
@[simp] theorem State.setRk_tapDrive (c r : Nat) (x : Rank) : (s.setRk c r x).tapDrive = s.tapDrive := rfl
@[simp] theorem State.setRk_telemetryOff (c r : Nat) (x : Rank) : (s.setRk c r x).telemetryOff = s.telemetryOff := rfl
@[simp] theorem State.setRk_reset_ (c r : Nat) (x : Rank) : (s.setRk c r x).reset_ = s.reset_ := rfl
@[simp] theorem State.setRk_resetQ (c r : Nat) (x : Rank) : (s.setRk c r x).resetQ = s.resetQ := rfl
@[simp] theorem State.setRk_pw (c r : Nat) (x : Rank) : (s.setRk c r x).pw = s.pw := rfl
@[simp] theorem State.setRk_fwBeat (c r : Nat) (x : Rank) : (s.setRk c r x).fwBeat = s.fwBeat := rfl
@[simp] theorem State.setRk_peerRec (c r : Nat) (x : Rank) : (s.setRk c r x).peerRec = s.peerRec := rfl
@[simp] theorem State.setRk_peerEpoch (c r : Nat) (x : Rank) : (s.setRk c r x).peerEpoch = s.peerEpoch := rfl
@[simp] theorem State.setRk_lastChange (c r : Nat) (x : Rank) : (s.setRk c r x).lastChange = s.lastChange := rfl
@[simp] theorem State.setRk_rt (c r : Nat) (x : Rank) : (s.setRk c r x).rt = s.rt := rfl
@[simp] theorem State.setRk_links (c r : Nat) (x : Rank) : (s.setRk c r x).links = s.links := rfl
@[simp] theorem State.setRk_boardRead (c r : Nat) (x : Rank) : (s.setRk c r x).boardRead = s.boardRead := rfl
@[simp] theorem State.setRk_evqUsed (c r : Nat) (x : Rank) : (s.setRk c r x).evqUsed = s.evqUsed := rfl
@[simp] theorem State.setRk_evqLost (c r : Nat) (x : Rank) : (s.setRk c r x).evqLost = s.evqLost := rfl
@[simp] theorem State.setRk_out (c r : Nat) (x : Rank) : (s.setRk c r x).out = s.out := rfl
@[simp] theorem State.setRk_freeIx (c r : Nat) (x : Rank) : (s.setRk c r x).freeIx = s.freeIx := rfl

/-! `State.modRk` -/

@[simp] theorem State.modRk_pending (c r : Nat) (f : Rank → Rank) : (s.modRk c r f).pending = s.pending := rfl
@[simp] theorem State.modRk_regs (c r : Nat) (f : Rank → Rank) : (s.modRk c r f).regs = s.regs := rfl
@[simp] theorem State.modRk_mem (c r : Nat) (f : Rank → Rank) : (s.modRk c r f).mem = s.mem := rfl
@[simp] theorem State.modRk_codeErr (c r : Nat) (f : Rank → Rank) : (s.modRk c r f).codeErr = s.codeErr := rfl
@[simp] theorem State.modRk_badStage (c r : Nat) (f : Rank → Rank) : (s.modRk c r f).badStage = s.badStage := rfl
@[simp] theorem State.modRk_commits (c r : Nat) (f : Rank → Rank) : (s.modRk c r f).commits = s.commits := rfl
@[simp] theorem State.modRk_clu (c r : Nat) (f : Rank → Rank) : (s.modRk c r f).clu = s.clu := rfl
@[simp] theorem State.modRk_rank (c r : Nat) (f : Rank → Rank) : (s.modRk c r f).rank = s.rank.set {} (c * 16 + r) (f (s.rk c r)) := rfl
@[simp] theorem State.modRk_movers (c r : Nat) (f : Rank → Rank) : (s.modRk c r f).movers = s.movers := rfl
@[simp] theorem State.modRk_movReqs (c r : Nat) (f : Rank → Rank) : (s.modRk c r f).movReqs = s.movReqs := rfl
@[simp] theorem State.modRk_lastTenant (c r : Nat) (f : Rank → Rank) : (s.modRk c r f).lastTenant = s.lastTenant := rfl
@[simp] theorem State.modRk_turnLeft (c r : Nat) (f : Rank → Rank) : (s.modRk c r f).turnLeft = s.turnLeft := rfl
@[simp] theorem State.modRk_lastCluster (c r : Nat) (f : Rank → Rank) : (s.modRk c r f).lastCluster = s.lastCluster := rfl
@[simp] theorem State.modRk_images (c r : Nat) (f : Rank → Rank) : (s.modRk c r f).images = s.images := rfl
@[simp] theorem State.modRk_txs (c r : Nat) (f : Rank → Rank) : (s.modRk c r f).txs = s.txs := rfl
@[simp] theorem State.modRk_rxs (c r : Nat) (f : Rank → Rank) : (s.modRk c r f).rxs = s.rxs := rfl
@[simp] theorem State.modRk_grants (c r : Nat) (f : Rank → Rank) : (s.modRk c r f).grants = s.grants := rfl
@[simp] theorem State.modRk_txSeq (c r : Nat) (f : Rank → Rank) : (s.modRk c r f).txSeq = s.txSeq := rfl
@[simp] theorem State.modRk_rxSeq (c r : Nat) (f : Rank → Rank) : (s.modRk c r f).rxSeq = s.rxSeq := rfl
@[simp] theorem State.modRk_colls (c r : Nat) (f : Rank → Rank) : (s.modRk c r f).colls = s.colls := rfl
@[simp] theorem State.modRk_collN (c r : Nat) (f : Rank → Rank) : (s.modRk c r f).collN = s.collN := rfl
@[simp] theorem State.modRk_early (c r : Nat) (f : Rank → Rank) : (s.modRk c r f).early = s.early := rfl
@[simp] theorem State.modRk_seals (c r : Nat) (f : Rank → Rank) : (s.modRk c r f).seals = s.seals := rfl
@[simp] theorem State.modRk_push (c r : Nat) (f : Rank → Rank) : (s.modRk c r f).push = s.push := rfl
@[simp] theorem State.modRk_fill (c r : Nat) (f : Rank → Rank) : (s.modRk c r f).fill = s.fill := rfl
@[simp] theorem State.modRk_commitPc (c r : Nat) (f : Rank → Rank) : (s.modRk c r f).commitPc = s.commitPc := rfl
@[simp] theorem State.modRk_stk (c r : Nat) (f : Rank → Rank) : (s.modRk c r f).stk = s.stk := rfl
@[simp] theorem State.modRk_saved (c r : Nat) (f : Rank → Rank) : (s.modRk c r f).saved = s.saved := rfl
@[simp] theorem State.modRk_heldSig (c r : Nat) (f : Rank → Rank) : (s.modRk c r f).heldSig = s.heldSig := rfl
@[simp] theorem State.modRk_rings (c r : Nat) (f : Rank → Rank) : (s.modRk c r f).rings = s.rings := rfl
@[simp] theorem State.modRk_block (c r : Nat) (f : Rank → Rank) : (s.modRk c r f).block = s.block := rfl
@[simp] theorem State.modRk_drainNext (c r : Nat) (f : Rank → Rank) : (s.modRk c r f).drainNext = s.drainNext := rfl
@[simp] theorem State.modRk_units (c r : Nat) (f : Rank → Rank) : (s.modRk c r f).units = s.units := rfl
@[simp] theorem State.modRk_hbmTests (c r : Nat) (f : Rank → Rank) : (s.modRk c r f).hbmTests = s.hbmTests := rfl
@[simp] theorem State.modRk_act (c r : Nat) (f : Rank → Rank) : (s.modRk c r f).act = s.act := rfl
@[simp] theorem State.modRk_slice (c r : Nat) (f : Rank → Rank) : (s.modRk c r f).slice = s.slice := rfl
@[simp] theorem State.modRk_tr (c r : Nat) (f : Rank → Rank) : (s.modRk c r f).tr = s.tr := rfl
@[simp] theorem State.modRk_straps (c r : Nat) (f : Rank → Rank) : (s.modRk c r f).straps = s.straps := rfl
@[simp] theorem State.modRk_i3c (c r : Nat) (f : Rank → Rank) : (s.modRk c r f).i3c = s.i3c := rfl
@[simp] theorem State.modRk_hostLink (c r : Nat) (f : Rank → Rank) : (s.modRk c r f).hostLink = s.hostLink := rfl
@[simp] theorem State.modRk_hostCmds (c r : Nat) (f : Rank → Rank) : (s.modRk c r f).hostCmds = s.hostCmds := rfl
@[simp] theorem State.modRk_sqTail (c r : Nat) (f : Rank → Rank) : (s.modRk c r f).sqTail = s.sqTail := rfl
@[simp] theorem State.modRk_cqHead (c r : Nat) (f : Rank → Rank) : (s.modRk c r f).cqHead = s.cqHead := rfl
@[simp] theorem State.modRk_cqCount (c r : Nat) (f : Rank → Rank) : (s.modRk c r f).cqCount = s.cqCount := rfl
@[simp] theorem State.modRk_cqUsed (c r : Nat) (f : Rank → Rank) : (s.modRk c r f).cqUsed = s.cqUsed := rfl
@[simp] theorem State.modRk_qps (c r : Nat) (f : Rank → Rank) : (s.modRk c r f).qps = s.qps := rfl
@[simp] theorem State.modRk_kprQp (c r : Nat) (f : Rank → Rank) : (s.modRk c r f).kprQp = s.kprQp := rfl
@[simp] theorem State.modRk_tap (c r : Nat) (f : Rank → Rank) : (s.modRk c r f).tap = s.tap := rfl
@[simp] theorem State.modRk_tapDrive (c r : Nat) (f : Rank → Rank) : (s.modRk c r f).tapDrive = s.tapDrive := rfl
@[simp] theorem State.modRk_telemetryOff (c r : Nat) (f : Rank → Rank) : (s.modRk c r f).telemetryOff = s.telemetryOff := rfl
@[simp] theorem State.modRk_reset_ (c r : Nat) (f : Rank → Rank) : (s.modRk c r f).reset_ = s.reset_ := rfl
@[simp] theorem State.modRk_resetQ (c r : Nat) (f : Rank → Rank) : (s.modRk c r f).resetQ = s.resetQ := rfl
@[simp] theorem State.modRk_pw (c r : Nat) (f : Rank → Rank) : (s.modRk c r f).pw = s.pw := rfl
@[simp] theorem State.modRk_fwBeat (c r : Nat) (f : Rank → Rank) : (s.modRk c r f).fwBeat = s.fwBeat := rfl
@[simp] theorem State.modRk_peerRec (c r : Nat) (f : Rank → Rank) : (s.modRk c r f).peerRec = s.peerRec := rfl
@[simp] theorem State.modRk_peerEpoch (c r : Nat) (f : Rank → Rank) : (s.modRk c r f).peerEpoch = s.peerEpoch := rfl
@[simp] theorem State.modRk_lastChange (c r : Nat) (f : Rank → Rank) : (s.modRk c r f).lastChange = s.lastChange := rfl
@[simp] theorem State.modRk_rt (c r : Nat) (f : Rank → Rank) : (s.modRk c r f).rt = s.rt := rfl
@[simp] theorem State.modRk_links (c r : Nat) (f : Rank → Rank) : (s.modRk c r f).links = s.links := rfl
@[simp] theorem State.modRk_boardRead (c r : Nat) (f : Rank → Rank) : (s.modRk c r f).boardRead = s.boardRead := rfl
@[simp] theorem State.modRk_evqUsed (c r : Nat) (f : Rank → Rank) : (s.modRk c r f).evqUsed = s.evqUsed := rfl
@[simp] theorem State.modRk_evqLost (c r : Nat) (f : Rank → Rank) : (s.modRk c r f).evqLost = s.evqLost := rfl
@[simp] theorem State.modRk_out (c r : Nat) (f : Rank → Rank) : (s.modRk c r f).out = s.out := rfl
@[simp] theorem State.modRk_freeIx (c r : Nat) (f : Rank → Rank) : (s.modRk c r f).freeIx = s.freeIx := rfl

/-! `State.say` -/

@[simp] theorem State.say_pending (m : Msg) : (s.say m).pending = s.pending := rfl
@[simp] theorem State.say_regs (m : Msg) : (s.say m).regs = s.regs := rfl
@[simp] theorem State.say_mem (m : Msg) : (s.say m).mem = s.mem := rfl
@[simp] theorem State.say_codeErr (m : Msg) : (s.say m).codeErr = s.codeErr := rfl
@[simp] theorem State.say_badStage (m : Msg) : (s.say m).badStage = s.badStage := rfl
@[simp] theorem State.say_commits (m : Msg) : (s.say m).commits = s.commits := rfl
@[simp] theorem State.say_clu (m : Msg) : (s.say m).clu = s.clu := rfl
@[simp] theorem State.say_rank (m : Msg) : (s.say m).rank = s.rank := rfl
@[simp] theorem State.say_movers (m : Msg) : (s.say m).movers = s.movers := rfl
@[simp] theorem State.say_movReqs (m : Msg) : (s.say m).movReqs = s.movReqs := rfl
@[simp] theorem State.say_lastTenant (m : Msg) : (s.say m).lastTenant = s.lastTenant := rfl
@[simp] theorem State.say_turnLeft (m : Msg) : (s.say m).turnLeft = s.turnLeft := rfl
@[simp] theorem State.say_lastCluster (m : Msg) : (s.say m).lastCluster = s.lastCluster := rfl
@[simp] theorem State.say_images (m : Msg) : (s.say m).images = s.images := rfl
@[simp] theorem State.say_txs (m : Msg) : (s.say m).txs = s.txs := rfl
@[simp] theorem State.say_rxs (m : Msg) : (s.say m).rxs = s.rxs := rfl
@[simp] theorem State.say_grants (m : Msg) : (s.say m).grants = s.grants := rfl
@[simp] theorem State.say_txSeq (m : Msg) : (s.say m).txSeq = s.txSeq := rfl
@[simp] theorem State.say_rxSeq (m : Msg) : (s.say m).rxSeq = s.rxSeq := rfl
@[simp] theorem State.say_colls (m : Msg) : (s.say m).colls = s.colls := rfl
@[simp] theorem State.say_collN (m : Msg) : (s.say m).collN = s.collN := rfl
@[simp] theorem State.say_early (m : Msg) : (s.say m).early = s.early := rfl
@[simp] theorem State.say_seals (m : Msg) : (s.say m).seals = s.seals := rfl
@[simp] theorem State.say_push (m : Msg) : (s.say m).push = s.push := rfl
@[simp] theorem State.say_fill (m : Msg) : (s.say m).fill = s.fill := rfl
@[simp] theorem State.say_commitPc (m : Msg) : (s.say m).commitPc = s.commitPc := rfl
@[simp] theorem State.say_stk (m : Msg) : (s.say m).stk = s.stk := rfl
@[simp] theorem State.say_saved (m : Msg) : (s.say m).saved = s.saved := rfl
@[simp] theorem State.say_heldSig (m : Msg) : (s.say m).heldSig = s.heldSig := rfl
@[simp] theorem State.say_rings (m : Msg) : (s.say m).rings = s.rings := rfl
@[simp] theorem State.say_block (m : Msg) : (s.say m).block = s.block := rfl
@[simp] theorem State.say_drainNext (m : Msg) : (s.say m).drainNext = s.drainNext := rfl
@[simp] theorem State.say_units (m : Msg) : (s.say m).units = s.units := rfl
@[simp] theorem State.say_hbmTests (m : Msg) : (s.say m).hbmTests = s.hbmTests := rfl
@[simp] theorem State.say_act (m : Msg) : (s.say m).act = s.act := rfl
@[simp] theorem State.say_slice (m : Msg) : (s.say m).slice = s.slice := rfl
@[simp] theorem State.say_tr (m : Msg) : (s.say m).tr = s.tr := rfl
@[simp] theorem State.say_straps (m : Msg) : (s.say m).straps = s.straps := rfl
@[simp] theorem State.say_i3c (m : Msg) : (s.say m).i3c = s.i3c := rfl
@[simp] theorem State.say_hostLink (m : Msg) : (s.say m).hostLink = s.hostLink := rfl
@[simp] theorem State.say_hostCmds (m : Msg) : (s.say m).hostCmds = s.hostCmds := rfl
@[simp] theorem State.say_sqTail (m : Msg) : (s.say m).sqTail = s.sqTail := rfl
@[simp] theorem State.say_cqHead (m : Msg) : (s.say m).cqHead = s.cqHead := rfl
@[simp] theorem State.say_cqCount (m : Msg) : (s.say m).cqCount = s.cqCount := rfl
@[simp] theorem State.say_cqUsed (m : Msg) : (s.say m).cqUsed = s.cqUsed := rfl
@[simp] theorem State.say_qps (m : Msg) : (s.say m).qps = s.qps := rfl
@[simp] theorem State.say_kprQp (m : Msg) : (s.say m).kprQp = s.kprQp := rfl
@[simp] theorem State.say_tap (m : Msg) : (s.say m).tap = s.tap := rfl
@[simp] theorem State.say_tapDrive (m : Msg) : (s.say m).tapDrive = s.tapDrive := rfl
@[simp] theorem State.say_telemetryOff (m : Msg) : (s.say m).telemetryOff = s.telemetryOff := rfl
@[simp] theorem State.say_reset_ (m : Msg) : (s.say m).reset_ = s.reset_ := rfl
@[simp] theorem State.say_resetQ (m : Msg) : (s.say m).resetQ = s.resetQ := rfl
@[simp] theorem State.say_pw (m : Msg) : (s.say m).pw = s.pw := rfl
@[simp] theorem State.say_fwBeat (m : Msg) : (s.say m).fwBeat = s.fwBeat := rfl
@[simp] theorem State.say_peerRec (m : Msg) : (s.say m).peerRec = s.peerRec := rfl
@[simp] theorem State.say_peerEpoch (m : Msg) : (s.say m).peerEpoch = s.peerEpoch := rfl
@[simp] theorem State.say_lastChange (m : Msg) : (s.say m).lastChange = s.lastChange := rfl
@[simp] theorem State.say_rt (m : Msg) : (s.say m).rt = s.rt := rfl
@[simp] theorem State.say_links (m : Msg) : (s.say m).links = s.links := rfl
@[simp] theorem State.say_boardRead (m : Msg) : (s.say m).boardRead = s.boardRead := rfl
@[simp] theorem State.say_evqUsed (m : Msg) : (s.say m).evqUsed = s.evqUsed := rfl
@[simp] theorem State.say_evqLost (m : Msg) : (s.say m).evqLost = s.evqLost := rfl
@[simp] theorem State.say_out (m : Msg) : (s.say m).out = s.out ++ [m] := rfl
@[simp] theorem State.say_freeIx (m : Msg) : (s.say m).freeIx = s.freeIx := rfl

/-! `State.setRing` -/

@[simp] theorem State.setRing_pending (u : Nat) (r : Ring) : (s.setRing u r).pending = s.pending := rfl
@[simp] theorem State.setRing_regs (u : Nat) (r : Ring) : (s.setRing u r).regs = s.regs := rfl
@[simp] theorem State.setRing_mem (u : Nat) (r : Ring) : (s.setRing u r).mem = s.mem := rfl
@[simp] theorem State.setRing_codeErr (u : Nat) (r : Ring) : (s.setRing u r).codeErr = s.codeErr := rfl
@[simp] theorem State.setRing_badStage (u : Nat) (r : Ring) : (s.setRing u r).badStage = s.badStage := rfl
@[simp] theorem State.setRing_commits (u : Nat) (r : Ring) : (s.setRing u r).commits = s.commits := rfl
@[simp] theorem State.setRing_clu (u : Nat) (r : Ring) : (s.setRing u r).clu = s.clu := rfl
@[simp] theorem State.setRing_rank (u : Nat) (r : Ring) : (s.setRing u r).rank = s.rank := rfl
@[simp] theorem State.setRing_movers (u : Nat) (r : Ring) : (s.setRing u r).movers = s.movers := rfl
@[simp] theorem State.setRing_movReqs (u : Nat) (r : Ring) : (s.setRing u r).movReqs = s.movReqs := rfl
@[simp] theorem State.setRing_lastTenant (u : Nat) (r : Ring) : (s.setRing u r).lastTenant = s.lastTenant := rfl
@[simp] theorem State.setRing_turnLeft (u : Nat) (r : Ring) : (s.setRing u r).turnLeft = s.turnLeft := rfl
@[simp] theorem State.setRing_lastCluster (u : Nat) (r : Ring) : (s.setRing u r).lastCluster = s.lastCluster := rfl
@[simp] theorem State.setRing_images (u : Nat) (r : Ring) : (s.setRing u r).images = s.images := rfl
@[simp] theorem State.setRing_txs (u : Nat) (r : Ring) : (s.setRing u r).txs = s.txs := rfl
@[simp] theorem State.setRing_rxs (u : Nat) (r : Ring) : (s.setRing u r).rxs = s.rxs := rfl
@[simp] theorem State.setRing_grants (u : Nat) (r : Ring) : (s.setRing u r).grants = s.grants := rfl
@[simp] theorem State.setRing_txSeq (u : Nat) (r : Ring) : (s.setRing u r).txSeq = s.txSeq := rfl
@[simp] theorem State.setRing_rxSeq (u : Nat) (r : Ring) : (s.setRing u r).rxSeq = s.rxSeq := rfl
@[simp] theorem State.setRing_colls (u : Nat) (r : Ring) : (s.setRing u r).colls = s.colls := rfl
@[simp] theorem State.setRing_collN (u : Nat) (r : Ring) : (s.setRing u r).collN = s.collN := rfl
@[simp] theorem State.setRing_early (u : Nat) (r : Ring) : (s.setRing u r).early = s.early := rfl
@[simp] theorem State.setRing_seals (u : Nat) (r : Ring) : (s.setRing u r).seals = s.seals := rfl
@[simp] theorem State.setRing_push (u : Nat) (r : Ring) : (s.setRing u r).push = s.push := rfl
@[simp] theorem State.setRing_fill (u : Nat) (r : Ring) : (s.setRing u r).fill = s.fill := rfl
@[simp] theorem State.setRing_commitPc (u : Nat) (r : Ring) : (s.setRing u r).commitPc = s.commitPc := rfl
@[simp] theorem State.setRing_stk (u : Nat) (r : Ring) : (s.setRing u r).stk = s.stk := rfl
@[simp] theorem State.setRing_saved (u : Nat) (r : Ring) : (s.setRing u r).saved = s.saved := rfl
@[simp] theorem State.setRing_heldSig (u : Nat) (r : Ring) : (s.setRing u r).heldSig = s.heldSig := rfl
@[simp] theorem State.setRing_rings (u : Nat) (r : Ring) : (s.setRing u r).rings = s.rings.set {} u r := rfl
@[simp] theorem State.setRing_block (u : Nat) (r : Ring) : (s.setRing u r).block = s.block := rfl
@[simp] theorem State.setRing_drainNext (u : Nat) (r : Ring) : (s.setRing u r).drainNext = s.drainNext := rfl
@[simp] theorem State.setRing_units (u : Nat) (r : Ring) : (s.setRing u r).units = s.units := rfl
@[simp] theorem State.setRing_hbmTests (u : Nat) (r : Ring) : (s.setRing u r).hbmTests = s.hbmTests := rfl
@[simp] theorem State.setRing_act (u : Nat) (r : Ring) : (s.setRing u r).act = s.act := rfl
@[simp] theorem State.setRing_slice (u : Nat) (r : Ring) : (s.setRing u r).slice = s.slice := rfl
@[simp] theorem State.setRing_tr (u : Nat) (r : Ring) : (s.setRing u r).tr = s.tr := rfl
@[simp] theorem State.setRing_straps (u : Nat) (r : Ring) : (s.setRing u r).straps = s.straps := rfl
@[simp] theorem State.setRing_i3c (u : Nat) (r : Ring) : (s.setRing u r).i3c = s.i3c := rfl
@[simp] theorem State.setRing_hostLink (u : Nat) (r : Ring) : (s.setRing u r).hostLink = s.hostLink := rfl
@[simp] theorem State.setRing_hostCmds (u : Nat) (r : Ring) : (s.setRing u r).hostCmds = s.hostCmds := rfl
@[simp] theorem State.setRing_sqTail (u : Nat) (r : Ring) : (s.setRing u r).sqTail = s.sqTail := rfl
@[simp] theorem State.setRing_cqHead (u : Nat) (r : Ring) : (s.setRing u r).cqHead = s.cqHead := rfl
@[simp] theorem State.setRing_cqCount (u : Nat) (r : Ring) : (s.setRing u r).cqCount = s.cqCount := rfl
@[simp] theorem State.setRing_cqUsed (u : Nat) (r : Ring) : (s.setRing u r).cqUsed = s.cqUsed := rfl
@[simp] theorem State.setRing_qps (u : Nat) (r : Ring) : (s.setRing u r).qps = s.qps := rfl
@[simp] theorem State.setRing_kprQp (u : Nat) (r : Ring) : (s.setRing u r).kprQp = s.kprQp := rfl
@[simp] theorem State.setRing_tap (u : Nat) (r : Ring) : (s.setRing u r).tap = s.tap := rfl
@[simp] theorem State.setRing_tapDrive (u : Nat) (r : Ring) : (s.setRing u r).tapDrive = s.tapDrive := rfl
@[simp] theorem State.setRing_telemetryOff (u : Nat) (r : Ring) : (s.setRing u r).telemetryOff = s.telemetryOff := rfl
@[simp] theorem State.setRing_reset_ (u : Nat) (r : Ring) : (s.setRing u r).reset_ = s.reset_ := rfl
@[simp] theorem State.setRing_resetQ (u : Nat) (r : Ring) : (s.setRing u r).resetQ = s.resetQ := rfl
@[simp] theorem State.setRing_pw (u : Nat) (r : Ring) : (s.setRing u r).pw = s.pw := rfl
@[simp] theorem State.setRing_fwBeat (u : Nat) (r : Ring) : (s.setRing u r).fwBeat = s.fwBeat := rfl
@[simp] theorem State.setRing_peerRec (u : Nat) (r : Ring) : (s.setRing u r).peerRec = s.peerRec := rfl
@[simp] theorem State.setRing_peerEpoch (u : Nat) (r : Ring) : (s.setRing u r).peerEpoch = s.peerEpoch := rfl
@[simp] theorem State.setRing_lastChange (u : Nat) (r : Ring) : (s.setRing u r).lastChange = s.lastChange := rfl
@[simp] theorem State.setRing_rt (u : Nat) (r : Ring) : (s.setRing u r).rt = s.rt := rfl
@[simp] theorem State.setRing_links (u : Nat) (r : Ring) : (s.setRing u r).links = s.links := rfl
@[simp] theorem State.setRing_boardRead (u : Nat) (r : Ring) : (s.setRing u r).boardRead = s.boardRead := rfl
@[simp] theorem State.setRing_evqUsed (u : Nat) (r : Ring) : (s.setRing u r).evqUsed = s.evqUsed := rfl
@[simp] theorem State.setRing_evqLost (u : Nat) (r : Ring) : (s.setRing u r).evqLost = s.evqLost := rfl
@[simp] theorem State.setRing_out (u : Nat) (r : Ring) : (s.setRing u r).out = s.out := rfl
@[simp] theorem State.setRing_freeIx (u : Nat) (r : Ring) : (s.setRing u r).freeIx = s.freeIx := rfl

/-! `State.setUnit` -/

@[simp] theorem State.setUnit_pending (u : Nat) (r : UnitRec) : (s.setUnit u r).pending = s.pending := rfl
@[simp] theorem State.setUnit_regs (u : Nat) (r : UnitRec) : (s.setUnit u r).regs = s.regs := rfl
@[simp] theorem State.setUnit_mem (u : Nat) (r : UnitRec) : (s.setUnit u r).mem = s.mem := rfl
@[simp] theorem State.setUnit_codeErr (u : Nat) (r : UnitRec) : (s.setUnit u r).codeErr = s.codeErr := rfl
@[simp] theorem State.setUnit_badStage (u : Nat) (r : UnitRec) : (s.setUnit u r).badStage = s.badStage := rfl
@[simp] theorem State.setUnit_commits (u : Nat) (r : UnitRec) : (s.setUnit u r).commits = s.commits := rfl
@[simp] theorem State.setUnit_clu (u : Nat) (r : UnitRec) : (s.setUnit u r).clu = s.clu := rfl
@[simp] theorem State.setUnit_rank (u : Nat) (r : UnitRec) : (s.setUnit u r).rank = s.rank := rfl
@[simp] theorem State.setUnit_movers (u : Nat) (r : UnitRec) : (s.setUnit u r).movers = s.movers := rfl
@[simp] theorem State.setUnit_movReqs (u : Nat) (r : UnitRec) : (s.setUnit u r).movReqs = s.movReqs := rfl
@[simp] theorem State.setUnit_lastTenant (u : Nat) (r : UnitRec) : (s.setUnit u r).lastTenant = s.lastTenant := rfl
@[simp] theorem State.setUnit_turnLeft (u : Nat) (r : UnitRec) : (s.setUnit u r).turnLeft = s.turnLeft := rfl
@[simp] theorem State.setUnit_lastCluster (u : Nat) (r : UnitRec) : (s.setUnit u r).lastCluster = s.lastCluster := rfl
@[simp] theorem State.setUnit_images (u : Nat) (r : UnitRec) : (s.setUnit u r).images = s.images := rfl
@[simp] theorem State.setUnit_txs (u : Nat) (r : UnitRec) : (s.setUnit u r).txs = s.txs := rfl
@[simp] theorem State.setUnit_rxs (u : Nat) (r : UnitRec) : (s.setUnit u r).rxs = s.rxs := rfl
@[simp] theorem State.setUnit_grants (u : Nat) (r : UnitRec) : (s.setUnit u r).grants = s.grants := rfl
@[simp] theorem State.setUnit_txSeq (u : Nat) (r : UnitRec) : (s.setUnit u r).txSeq = s.txSeq := rfl
@[simp] theorem State.setUnit_rxSeq (u : Nat) (r : UnitRec) : (s.setUnit u r).rxSeq = s.rxSeq := rfl
@[simp] theorem State.setUnit_colls (u : Nat) (r : UnitRec) : (s.setUnit u r).colls = s.colls := rfl
@[simp] theorem State.setUnit_collN (u : Nat) (r : UnitRec) : (s.setUnit u r).collN = s.collN := rfl
@[simp] theorem State.setUnit_early (u : Nat) (r : UnitRec) : (s.setUnit u r).early = s.early := rfl
@[simp] theorem State.setUnit_seals (u : Nat) (r : UnitRec) : (s.setUnit u r).seals = s.seals := rfl
@[simp] theorem State.setUnit_push (u : Nat) (r : UnitRec) : (s.setUnit u r).push = s.push := rfl
@[simp] theorem State.setUnit_fill (u : Nat) (r : UnitRec) : (s.setUnit u r).fill = s.fill := rfl
@[simp] theorem State.setUnit_commitPc (u : Nat) (r : UnitRec) : (s.setUnit u r).commitPc = s.commitPc := rfl
@[simp] theorem State.setUnit_stk (u : Nat) (r : UnitRec) : (s.setUnit u r).stk = s.stk := rfl
@[simp] theorem State.setUnit_saved (u : Nat) (r : UnitRec) : (s.setUnit u r).saved = s.saved := rfl
@[simp] theorem State.setUnit_heldSig (u : Nat) (r : UnitRec) : (s.setUnit u r).heldSig = s.heldSig := rfl
@[simp] theorem State.setUnit_rings (u : Nat) (r : UnitRec) : (s.setUnit u r).rings = s.rings := rfl
@[simp] theorem State.setUnit_block (u : Nat) (r : UnitRec) : (s.setUnit u r).block = s.block := rfl
@[simp] theorem State.setUnit_drainNext (u : Nat) (r : UnitRec) : (s.setUnit u r).drainNext = s.drainNext := rfl
@[simp] theorem State.setUnit_units (u : Nat) (r : UnitRec) : (s.setUnit u r).units = s.units.set {} u r := rfl
@[simp] theorem State.setUnit_hbmTests (u : Nat) (r : UnitRec) : (s.setUnit u r).hbmTests = s.hbmTests := rfl
@[simp] theorem State.setUnit_act (u : Nat) (r : UnitRec) : (s.setUnit u r).act = s.act := rfl
@[simp] theorem State.setUnit_slice (u : Nat) (r : UnitRec) : (s.setUnit u r).slice = s.slice := rfl
@[simp] theorem State.setUnit_tr (u : Nat) (r : UnitRec) : (s.setUnit u r).tr = s.tr := rfl
@[simp] theorem State.setUnit_straps (u : Nat) (r : UnitRec) : (s.setUnit u r).straps = s.straps := rfl
@[simp] theorem State.setUnit_i3c (u : Nat) (r : UnitRec) : (s.setUnit u r).i3c = s.i3c := rfl
@[simp] theorem State.setUnit_hostLink (u : Nat) (r : UnitRec) : (s.setUnit u r).hostLink = s.hostLink := rfl
@[simp] theorem State.setUnit_hostCmds (u : Nat) (r : UnitRec) : (s.setUnit u r).hostCmds = s.hostCmds := rfl
@[simp] theorem State.setUnit_sqTail (u : Nat) (r : UnitRec) : (s.setUnit u r).sqTail = s.sqTail := rfl
@[simp] theorem State.setUnit_cqHead (u : Nat) (r : UnitRec) : (s.setUnit u r).cqHead = s.cqHead := rfl
@[simp] theorem State.setUnit_cqCount (u : Nat) (r : UnitRec) : (s.setUnit u r).cqCount = s.cqCount := rfl
@[simp] theorem State.setUnit_cqUsed (u : Nat) (r : UnitRec) : (s.setUnit u r).cqUsed = s.cqUsed := rfl
@[simp] theorem State.setUnit_qps (u : Nat) (r : UnitRec) : (s.setUnit u r).qps = s.qps := rfl
@[simp] theorem State.setUnit_kprQp (u : Nat) (r : UnitRec) : (s.setUnit u r).kprQp = s.kprQp := rfl
@[simp] theorem State.setUnit_tap (u : Nat) (r : UnitRec) : (s.setUnit u r).tap = s.tap := rfl
@[simp] theorem State.setUnit_tapDrive (u : Nat) (r : UnitRec) : (s.setUnit u r).tapDrive = s.tapDrive := rfl
@[simp] theorem State.setUnit_telemetryOff (u : Nat) (r : UnitRec) : (s.setUnit u r).telemetryOff = s.telemetryOff := rfl
@[simp] theorem State.setUnit_reset_ (u : Nat) (r : UnitRec) : (s.setUnit u r).reset_ = s.reset_ := rfl
@[simp] theorem State.setUnit_resetQ (u : Nat) (r : UnitRec) : (s.setUnit u r).resetQ = s.resetQ := rfl
@[simp] theorem State.setUnit_pw (u : Nat) (r : UnitRec) : (s.setUnit u r).pw = s.pw := rfl
@[simp] theorem State.setUnit_fwBeat (u : Nat) (r : UnitRec) : (s.setUnit u r).fwBeat = s.fwBeat := rfl
@[simp] theorem State.setUnit_peerRec (u : Nat) (r : UnitRec) : (s.setUnit u r).peerRec = s.peerRec := rfl
@[simp] theorem State.setUnit_peerEpoch (u : Nat) (r : UnitRec) : (s.setUnit u r).peerEpoch = s.peerEpoch := rfl
@[simp] theorem State.setUnit_lastChange (u : Nat) (r : UnitRec) : (s.setUnit u r).lastChange = s.lastChange := rfl
@[simp] theorem State.setUnit_rt (u : Nat) (r : UnitRec) : (s.setUnit u r).rt = s.rt := rfl
@[simp] theorem State.setUnit_links (u : Nat) (r : UnitRec) : (s.setUnit u r).links = s.links := rfl
@[simp] theorem State.setUnit_boardRead (u : Nat) (r : UnitRec) : (s.setUnit u r).boardRead = s.boardRead := rfl
@[simp] theorem State.setUnit_evqUsed (u : Nat) (r : UnitRec) : (s.setUnit u r).evqUsed = s.evqUsed := rfl
@[simp] theorem State.setUnit_evqLost (u : Nat) (r : UnitRec) : (s.setUnit u r).evqLost = s.evqLost := rfl
@[simp] theorem State.setUnit_out (u : Nat) (r : UnitRec) : (s.setUnit u r).out = s.out := rfl
@[simp] theorem State.setUnit_freeIx (u : Nat) (r : UnitRec) : (s.setUnit u r).freeIx = s.freeIx := rfl

/-! `State.setLink` -/

@[simp] theorem State.setLink_pending (p : Nat) (l : Link) : (s.setLink p l).pending = s.pending := rfl
@[simp] theorem State.setLink_regs (p : Nat) (l : Link) : (s.setLink p l).regs = s.regs := rfl
@[simp] theorem State.setLink_mem (p : Nat) (l : Link) : (s.setLink p l).mem = s.mem := rfl
@[simp] theorem State.setLink_codeErr (p : Nat) (l : Link) : (s.setLink p l).codeErr = s.codeErr := rfl
@[simp] theorem State.setLink_badStage (p : Nat) (l : Link) : (s.setLink p l).badStage = s.badStage := rfl
@[simp] theorem State.setLink_commits (p : Nat) (l : Link) : (s.setLink p l).commits = s.commits := rfl
@[simp] theorem State.setLink_clu (p : Nat) (l : Link) : (s.setLink p l).clu = s.clu := rfl
@[simp] theorem State.setLink_rank (p : Nat) (l : Link) : (s.setLink p l).rank = s.rank := rfl
@[simp] theorem State.setLink_movers (p : Nat) (l : Link) : (s.setLink p l).movers = s.movers := rfl
@[simp] theorem State.setLink_movReqs (p : Nat) (l : Link) : (s.setLink p l).movReqs = s.movReqs := rfl
@[simp] theorem State.setLink_lastTenant (p : Nat) (l : Link) : (s.setLink p l).lastTenant = s.lastTenant := rfl
@[simp] theorem State.setLink_turnLeft (p : Nat) (l : Link) : (s.setLink p l).turnLeft = s.turnLeft := rfl
@[simp] theorem State.setLink_lastCluster (p : Nat) (l : Link) : (s.setLink p l).lastCluster = s.lastCluster := rfl
@[simp] theorem State.setLink_images (p : Nat) (l : Link) : (s.setLink p l).images = s.images := rfl
@[simp] theorem State.setLink_txs (p : Nat) (l : Link) : (s.setLink p l).txs = s.txs := rfl
@[simp] theorem State.setLink_rxs (p : Nat) (l : Link) : (s.setLink p l).rxs = s.rxs := rfl
@[simp] theorem State.setLink_grants (p : Nat) (l : Link) : (s.setLink p l).grants = s.grants := rfl
@[simp] theorem State.setLink_txSeq (p : Nat) (l : Link) : (s.setLink p l).txSeq = s.txSeq := rfl
@[simp] theorem State.setLink_rxSeq (p : Nat) (l : Link) : (s.setLink p l).rxSeq = s.rxSeq := rfl
@[simp] theorem State.setLink_colls (p : Nat) (l : Link) : (s.setLink p l).colls = s.colls := rfl
@[simp] theorem State.setLink_collN (p : Nat) (l : Link) : (s.setLink p l).collN = s.collN := rfl
@[simp] theorem State.setLink_early (p : Nat) (l : Link) : (s.setLink p l).early = s.early := rfl
@[simp] theorem State.setLink_seals (p : Nat) (l : Link) : (s.setLink p l).seals = s.seals := rfl
@[simp] theorem State.setLink_push (p : Nat) (l : Link) : (s.setLink p l).push = s.push := rfl
@[simp] theorem State.setLink_fill (p : Nat) (l : Link) : (s.setLink p l).fill = s.fill := rfl
@[simp] theorem State.setLink_commitPc (p : Nat) (l : Link) : (s.setLink p l).commitPc = s.commitPc := rfl
@[simp] theorem State.setLink_stk (p : Nat) (l : Link) : (s.setLink p l).stk = s.stk := rfl
@[simp] theorem State.setLink_saved (p : Nat) (l : Link) : (s.setLink p l).saved = s.saved := rfl
@[simp] theorem State.setLink_heldSig (p : Nat) (l : Link) : (s.setLink p l).heldSig = s.heldSig := rfl
@[simp] theorem State.setLink_rings (p : Nat) (l : Link) : (s.setLink p l).rings = s.rings := rfl
@[simp] theorem State.setLink_block (p : Nat) (l : Link) : (s.setLink p l).block = s.block := rfl
@[simp] theorem State.setLink_drainNext (p : Nat) (l : Link) : (s.setLink p l).drainNext = s.drainNext := rfl
@[simp] theorem State.setLink_units (p : Nat) (l : Link) : (s.setLink p l).units = s.units := rfl
@[simp] theorem State.setLink_hbmTests (p : Nat) (l : Link) : (s.setLink p l).hbmTests = s.hbmTests := rfl
@[simp] theorem State.setLink_act (p : Nat) (l : Link) : (s.setLink p l).act = s.act := rfl
@[simp] theorem State.setLink_slice (p : Nat) (l : Link) : (s.setLink p l).slice = s.slice := rfl
@[simp] theorem State.setLink_tr (p : Nat) (l : Link) : (s.setLink p l).tr = s.tr := rfl
@[simp] theorem State.setLink_straps (p : Nat) (l : Link) : (s.setLink p l).straps = s.straps := rfl
@[simp] theorem State.setLink_i3c (p : Nat) (l : Link) : (s.setLink p l).i3c = s.i3c := rfl
@[simp] theorem State.setLink_hostLink (p : Nat) (l : Link) : (s.setLink p l).hostLink = s.hostLink := rfl
@[simp] theorem State.setLink_hostCmds (p : Nat) (l : Link) : (s.setLink p l).hostCmds = s.hostCmds := rfl
@[simp] theorem State.setLink_sqTail (p : Nat) (l : Link) : (s.setLink p l).sqTail = s.sqTail := rfl
@[simp] theorem State.setLink_cqHead (p : Nat) (l : Link) : (s.setLink p l).cqHead = s.cqHead := rfl
@[simp] theorem State.setLink_cqCount (p : Nat) (l : Link) : (s.setLink p l).cqCount = s.cqCount := rfl
@[simp] theorem State.setLink_cqUsed (p : Nat) (l : Link) : (s.setLink p l).cqUsed = s.cqUsed := rfl
@[simp] theorem State.setLink_qps (p : Nat) (l : Link) : (s.setLink p l).qps = s.qps := rfl
@[simp] theorem State.setLink_kprQp (p : Nat) (l : Link) : (s.setLink p l).kprQp = s.kprQp := rfl
@[simp] theorem State.setLink_tap (p : Nat) (l : Link) : (s.setLink p l).tap = s.tap := rfl
@[simp] theorem State.setLink_tapDrive (p : Nat) (l : Link) : (s.setLink p l).tapDrive = s.tapDrive := rfl
@[simp] theorem State.setLink_telemetryOff (p : Nat) (l : Link) : (s.setLink p l).telemetryOff = s.telemetryOff := rfl
@[simp] theorem State.setLink_reset_ (p : Nat) (l : Link) : (s.setLink p l).reset_ = s.reset_ := rfl
@[simp] theorem State.setLink_resetQ (p : Nat) (l : Link) : (s.setLink p l).resetQ = s.resetQ := rfl
@[simp] theorem State.setLink_pw (p : Nat) (l : Link) : (s.setLink p l).pw = s.pw := rfl
@[simp] theorem State.setLink_fwBeat (p : Nat) (l : Link) : (s.setLink p l).fwBeat = s.fwBeat := rfl
@[simp] theorem State.setLink_peerRec (p : Nat) (l : Link) : (s.setLink p l).peerRec = s.peerRec := rfl
@[simp] theorem State.setLink_peerEpoch (p : Nat) (l : Link) : (s.setLink p l).peerEpoch = s.peerEpoch := rfl
@[simp] theorem State.setLink_lastChange (p : Nat) (l : Link) : (s.setLink p l).lastChange = s.lastChange := rfl
@[simp] theorem State.setLink_rt (p : Nat) (l : Link) : (s.setLink p l).rt = s.rt := rfl
@[simp] theorem State.setLink_links (p : Nat) (l : Link) : (s.setLink p l).links = s.links.set {} p l := rfl
@[simp] theorem State.setLink_boardRead (p : Nat) (l : Link) : (s.setLink p l).boardRead = s.boardRead := rfl
@[simp] theorem State.setLink_evqUsed (p : Nat) (l : Link) : (s.setLink p l).evqUsed = s.evqUsed := rfl
@[simp] theorem State.setLink_evqLost (p : Nat) (l : Link) : (s.setLink p l).evqLost = s.evqLost := rfl
@[simp] theorem State.setLink_out (p : Nat) (l : Link) : (s.setLink p l).out = s.out := rfl
@[simp] theorem State.setLink_freeIx (p : Nat) (l : Link) : (s.setLink p l).freeIx = s.freeIx := rfl

/-! `State.setQp` -/

@[simp] theorem State.setQp_pending (n : Nat) (q : Qp) : (s.setQp n q).pending = s.pending := rfl
@[simp] theorem State.setQp_regs (n : Nat) (q : Qp) : (s.setQp n q).regs = s.regs := rfl
@[simp] theorem State.setQp_mem (n : Nat) (q : Qp) : (s.setQp n q).mem = s.mem := rfl
@[simp] theorem State.setQp_codeErr (n : Nat) (q : Qp) : (s.setQp n q).codeErr = s.codeErr := rfl
@[simp] theorem State.setQp_badStage (n : Nat) (q : Qp) : (s.setQp n q).badStage = s.badStage := rfl
@[simp] theorem State.setQp_commits (n : Nat) (q : Qp) : (s.setQp n q).commits = s.commits := rfl
@[simp] theorem State.setQp_clu (n : Nat) (q : Qp) : (s.setQp n q).clu = s.clu := rfl
@[simp] theorem State.setQp_rank (n : Nat) (q : Qp) : (s.setQp n q).rank = s.rank := rfl
@[simp] theorem State.setQp_movers (n : Nat) (q : Qp) : (s.setQp n q).movers = s.movers := rfl
@[simp] theorem State.setQp_movReqs (n : Nat) (q : Qp) : (s.setQp n q).movReqs = s.movReqs := rfl
@[simp] theorem State.setQp_lastTenant (n : Nat) (q : Qp) : (s.setQp n q).lastTenant = s.lastTenant := rfl
@[simp] theorem State.setQp_turnLeft (n : Nat) (q : Qp) : (s.setQp n q).turnLeft = s.turnLeft := rfl
@[simp] theorem State.setQp_lastCluster (n : Nat) (q : Qp) : (s.setQp n q).lastCluster = s.lastCluster := rfl
@[simp] theorem State.setQp_images (n : Nat) (q : Qp) : (s.setQp n q).images = s.images := rfl
@[simp] theorem State.setQp_txs (n : Nat) (q : Qp) : (s.setQp n q).txs = s.txs := rfl
@[simp] theorem State.setQp_rxs (n : Nat) (q : Qp) : (s.setQp n q).rxs = s.rxs := rfl
@[simp] theorem State.setQp_grants (n : Nat) (q : Qp) : (s.setQp n q).grants = s.grants := rfl
@[simp] theorem State.setQp_txSeq (n : Nat) (q : Qp) : (s.setQp n q).txSeq = s.txSeq := rfl
@[simp] theorem State.setQp_rxSeq (n : Nat) (q : Qp) : (s.setQp n q).rxSeq = s.rxSeq := rfl
@[simp] theorem State.setQp_colls (n : Nat) (q : Qp) : (s.setQp n q).colls = s.colls := rfl
@[simp] theorem State.setQp_collN (n : Nat) (q : Qp) : (s.setQp n q).collN = s.collN := rfl
@[simp] theorem State.setQp_early (n : Nat) (q : Qp) : (s.setQp n q).early = s.early := rfl
@[simp] theorem State.setQp_seals (n : Nat) (q : Qp) : (s.setQp n q).seals = s.seals := rfl
@[simp] theorem State.setQp_push (n : Nat) (q : Qp) : (s.setQp n q).push = s.push := rfl
@[simp] theorem State.setQp_fill (n : Nat) (q : Qp) : (s.setQp n q).fill = s.fill := rfl
@[simp] theorem State.setQp_commitPc (n : Nat) (q : Qp) : (s.setQp n q).commitPc = s.commitPc := rfl
@[simp] theorem State.setQp_stk (n : Nat) (q : Qp) : (s.setQp n q).stk = s.stk := rfl
@[simp] theorem State.setQp_saved (n : Nat) (q : Qp) : (s.setQp n q).saved = s.saved := rfl
@[simp] theorem State.setQp_heldSig (n : Nat) (q : Qp) : (s.setQp n q).heldSig = s.heldSig := rfl
@[simp] theorem State.setQp_rings (n : Nat) (q : Qp) : (s.setQp n q).rings = s.rings := rfl
@[simp] theorem State.setQp_block (n : Nat) (q : Qp) : (s.setQp n q).block = s.block := rfl
@[simp] theorem State.setQp_drainNext (n : Nat) (q : Qp) : (s.setQp n q).drainNext = s.drainNext := rfl
@[simp] theorem State.setQp_units (n : Nat) (q : Qp) : (s.setQp n q).units = s.units := rfl
@[simp] theorem State.setQp_hbmTests (n : Nat) (q : Qp) : (s.setQp n q).hbmTests = s.hbmTests := rfl
@[simp] theorem State.setQp_act (n : Nat) (q : Qp) : (s.setQp n q).act = s.act := rfl
@[simp] theorem State.setQp_slice (n : Nat) (q : Qp) : (s.setQp n q).slice = s.slice := rfl
@[simp] theorem State.setQp_tr (n : Nat) (q : Qp) : (s.setQp n q).tr = s.tr := rfl
@[simp] theorem State.setQp_straps (n : Nat) (q : Qp) : (s.setQp n q).straps = s.straps := rfl
@[simp] theorem State.setQp_i3c (n : Nat) (q : Qp) : (s.setQp n q).i3c = s.i3c := rfl
@[simp] theorem State.setQp_hostLink (n : Nat) (q : Qp) : (s.setQp n q).hostLink = s.hostLink := rfl
@[simp] theorem State.setQp_hostCmds (n : Nat) (q : Qp) : (s.setQp n q).hostCmds = s.hostCmds := rfl
@[simp] theorem State.setQp_sqTail (n : Nat) (q : Qp) : (s.setQp n q).sqTail = s.sqTail := rfl
@[simp] theorem State.setQp_cqHead (n : Nat) (q : Qp) : (s.setQp n q).cqHead = s.cqHead := rfl
@[simp] theorem State.setQp_cqCount (n : Nat) (q : Qp) : (s.setQp n q).cqCount = s.cqCount := rfl
@[simp] theorem State.setQp_cqUsed (n : Nat) (q : Qp) : (s.setQp n q).cqUsed = s.cqUsed := rfl
@[simp] theorem State.setQp_qps (n : Nat) (q : Qp) : (s.setQp n q).qps = s.qps.put n q := rfl
@[simp] theorem State.setQp_kprQp (n : Nat) (q : Qp) : (s.setQp n q).kprQp = s.kprQp := rfl
@[simp] theorem State.setQp_tap (n : Nat) (q : Qp) : (s.setQp n q).tap = s.tap := rfl
@[simp] theorem State.setQp_tapDrive (n : Nat) (q : Qp) : (s.setQp n q).tapDrive = s.tapDrive := rfl
@[simp] theorem State.setQp_telemetryOff (n : Nat) (q : Qp) : (s.setQp n q).telemetryOff = s.telemetryOff := rfl
@[simp] theorem State.setQp_reset_ (n : Nat) (q : Qp) : (s.setQp n q).reset_ = s.reset_ := rfl
@[simp] theorem State.setQp_resetQ (n : Nat) (q : Qp) : (s.setQp n q).resetQ = s.resetQ := rfl
@[simp] theorem State.setQp_pw (n : Nat) (q : Qp) : (s.setQp n q).pw = s.pw := rfl
@[simp] theorem State.setQp_fwBeat (n : Nat) (q : Qp) : (s.setQp n q).fwBeat = s.fwBeat := rfl
@[simp] theorem State.setQp_peerRec (n : Nat) (q : Qp) : (s.setQp n q).peerRec = s.peerRec := rfl
@[simp] theorem State.setQp_peerEpoch (n : Nat) (q : Qp) : (s.setQp n q).peerEpoch = s.peerEpoch := rfl
@[simp] theorem State.setQp_lastChange (n : Nat) (q : Qp) : (s.setQp n q).lastChange = s.lastChange := rfl
@[simp] theorem State.setQp_rt (n : Nat) (q : Qp) : (s.setQp n q).rt = s.rt := rfl
@[simp] theorem State.setQp_links (n : Nat) (q : Qp) : (s.setQp n q).links = s.links := rfl
@[simp] theorem State.setQp_boardRead (n : Nat) (q : Qp) : (s.setQp n q).boardRead = s.boardRead := rfl
@[simp] theorem State.setQp_evqUsed (n : Nat) (q : Qp) : (s.setQp n q).evqUsed = s.evqUsed := rfl
@[simp] theorem State.setQp_evqLost (n : Nat) (q : Qp) : (s.setQp n q).evqLost = s.evqLost := rfl
@[simp] theorem State.setQp_out (n : Nat) (q : Qp) : (s.setQp n q).out = s.out := rfl
@[simp] theorem State.setQp_freeIx (n : Nat) (q : Qp) : (s.setQp n q).freeIx = s.freeIx := rfl

/-! `State.spendBy` -/

@[simp] theorem State.spendBy_pending (t i n : Nat) : (s.spendBy t i n).pending = s.pending := rfl
@[simp] theorem State.spendBy_regs (t i n : Nat) : (s.spendBy t i n).regs = s.regs := rfl
@[simp] theorem State.spendBy_mem (t i n : Nat) : (s.spendBy t i n).mem = s.mem := rfl
@[simp] theorem State.spendBy_codeErr (t i n : Nat) : (s.spendBy t i n).codeErr = s.codeErr := rfl
@[simp] theorem State.spendBy_badStage (t i n : Nat) : (s.spendBy t i n).badStage = s.badStage := rfl
@[simp] theorem State.spendBy_commits (t i n : Nat) : (s.spendBy t i n).commits = s.commits := rfl
@[simp] theorem State.spendBy_clu (t i n : Nat) : (s.spendBy t i n).clu = s.clu := rfl
@[simp] theorem State.spendBy_rank (t i n : Nat) : (s.spendBy t i n).rank = s.rank := rfl
@[simp] theorem State.spendBy_movers (t i n : Nat) : (s.spendBy t i n).movers = s.movers := rfl
@[simp] theorem State.spendBy_movReqs (t i n : Nat) : (s.spendBy t i n).movReqs = s.movReqs := rfl
@[simp] theorem State.spendBy_lastTenant (t i n : Nat) : (s.spendBy t i n).lastTenant = s.lastTenant := rfl
@[simp] theorem State.spendBy_turnLeft (t i n : Nat) : (s.spendBy t i n).turnLeft = s.turnLeft := rfl
@[simp] theorem State.spendBy_lastCluster (t i n : Nat) : (s.spendBy t i n).lastCluster = s.lastCluster := rfl
@[simp] theorem State.spendBy_images (t i n : Nat) : (s.spendBy t i n).images = s.images := rfl
@[simp] theorem State.spendBy_txs (t i n : Nat) : (s.spendBy t i n).txs = s.txs := rfl
@[simp] theorem State.spendBy_rxs (t i n : Nat) : (s.spendBy t i n).rxs = s.rxs := rfl
@[simp] theorem State.spendBy_grants (t i n : Nat) : (s.spendBy t i n).grants = s.grants := rfl
@[simp] theorem State.spendBy_txSeq (t i n : Nat) : (s.spendBy t i n).txSeq = s.txSeq := rfl
@[simp] theorem State.spendBy_rxSeq (t i n : Nat) : (s.spendBy t i n).rxSeq = s.rxSeq := rfl
@[simp] theorem State.spendBy_colls (t i n : Nat) : (s.spendBy t i n).colls = s.colls := rfl
@[simp] theorem State.spendBy_collN (t i n : Nat) : (s.spendBy t i n).collN = s.collN := rfl
@[simp] theorem State.spendBy_early (t i n : Nat) : (s.spendBy t i n).early = s.early := rfl
@[simp] theorem State.spendBy_seals (t i n : Nat) : (s.spendBy t i n).seals = s.seals := rfl
@[simp] theorem State.spendBy_push (t i n : Nat) : (s.spendBy t i n).push = s.push := rfl
@[simp] theorem State.spendBy_fill (t i n : Nat) : (s.spendBy t i n).fill = s.fill := rfl
@[simp] theorem State.spendBy_commitPc (t i n : Nat) : (s.spendBy t i n).commitPc = s.commitPc := rfl
@[simp] theorem State.spendBy_stk (t i n : Nat) : (s.spendBy t i n).stk = s.stk := rfl
@[simp] theorem State.spendBy_saved (t i n : Nat) : (s.spendBy t i n).saved = s.saved := rfl
@[simp] theorem State.spendBy_heldSig (t i n : Nat) : (s.spendBy t i n).heldSig = s.heldSig := rfl
@[simp] theorem State.spendBy_rings (t i n : Nat) : (s.spendBy t i n).rings = s.rings := rfl
@[simp] theorem State.spendBy_block (t i n : Nat) : (s.spendBy t i n).block = s.block := rfl
@[simp] theorem State.spendBy_drainNext (t i n : Nat) : (s.spendBy t i n).drainNext = s.drainNext := rfl
@[simp] theorem State.spendBy_units (t i n : Nat) : (s.spendBy t i n).units = s.units := rfl
@[simp] theorem State.spendBy_hbmTests (t i n : Nat) : (s.spendBy t i n).hbmTests = s.hbmTests := rfl
@[simp] theorem State.spendBy_act (t i n : Nat) : (s.spendBy t i n).act = s.act := rfl
@[simp] theorem State.spendBy_slice (t i n : Nat) : (s.spendBy t i n).slice = s.slice := rfl
@[simp] theorem State.spendBy_tr (t i n : Nat) : (s.spendBy t i n).tr = s.tr := rfl
@[simp] theorem State.spendBy_straps (t i n : Nat) : (s.spendBy t i n).straps = s.straps := rfl
@[simp] theorem State.spendBy_i3c (t i n : Nat) : (s.spendBy t i n).i3c = s.i3c := rfl
@[simp] theorem State.spendBy_hostLink (t i n : Nat) : (s.spendBy t i n).hostLink = s.hostLink := rfl
@[simp] theorem State.spendBy_hostCmds (t i n : Nat) : (s.spendBy t i n).hostCmds = s.hostCmds := rfl
@[simp] theorem State.spendBy_sqTail (t i n : Nat) : (s.spendBy t i n).sqTail = s.sqTail := rfl
@[simp] theorem State.spendBy_cqHead (t i n : Nat) : (s.spendBy t i n).cqHead = s.cqHead := rfl
@[simp] theorem State.spendBy_cqCount (t i n : Nat) : (s.spendBy t i n).cqCount = s.cqCount := rfl
@[simp] theorem State.spendBy_cqUsed (t i n : Nat) : (s.spendBy t i n).cqUsed = s.cqUsed := rfl
@[simp] theorem State.spendBy_qps (t i n : Nat) : (s.spendBy t i n).qps = s.qps := rfl
@[simp] theorem State.spendBy_kprQp (t i n : Nat) : (s.spendBy t i n).kprQp = s.kprQp := rfl
@[simp] theorem State.spendBy_tap (t i n : Nat) : (s.spendBy t i n).tap = s.tap := rfl
@[simp] theorem State.spendBy_tapDrive (t i n : Nat) : (s.spendBy t i n).tapDrive = s.tapDrive := rfl
@[simp] theorem State.spendBy_telemetryOff (t i n : Nat) : (s.spendBy t i n).telemetryOff = s.telemetryOff := rfl
@[simp] theorem State.spendBy_reset_ (t i n : Nat) : (s.spendBy t i n).reset_ = s.reset_ := rfl
@[simp] theorem State.spendBy_resetQ (t i n : Nat) : (s.spendBy t i n).resetQ = s.resetQ := rfl
@[simp] theorem State.spendBy_pw (t i n : Nat) : (s.spendBy t i n).pw = { s.pw with acts := s.pw.acts.set 0 (t * 16 + i) (s.pw.acts.get 0 (t * 16 + i) + n) } := rfl
@[simp] theorem State.spendBy_fwBeat (t i n : Nat) : (s.spendBy t i n).fwBeat = s.fwBeat := rfl
@[simp] theorem State.spendBy_peerRec (t i n : Nat) : (s.spendBy t i n).peerRec = s.peerRec := rfl
@[simp] theorem State.spendBy_peerEpoch (t i n : Nat) : (s.spendBy t i n).peerEpoch = s.peerEpoch := rfl
@[simp] theorem State.spendBy_lastChange (t i n : Nat) : (s.spendBy t i n).lastChange = s.lastChange := rfl
@[simp] theorem State.spendBy_rt (t i n : Nat) : (s.spendBy t i n).rt = s.rt := rfl
@[simp] theorem State.spendBy_links (t i n : Nat) : (s.spendBy t i n).links = s.links := rfl
@[simp] theorem State.spendBy_boardRead (t i n : Nat) : (s.spendBy t i n).boardRead = s.boardRead := rfl
@[simp] theorem State.spendBy_evqUsed (t i n : Nat) : (s.spendBy t i n).evqUsed = s.evqUsed := rfl
@[simp] theorem State.spendBy_evqLost (t i n : Nat) : (s.spendBy t i n).evqLost = s.evqLost := rfl
@[simp] theorem State.spendBy_out (t i n : Nat) : (s.spendBy t i n).out = s.out := rfl
@[simp] theorem State.spendBy_freeIx (t i n : Nat) : (s.spendBy t i n).freeIx = s.freeIx := rfl

/-! `State.onBehalf` -/

@[simp] theorem State.onBehalf_pending (t : Nat) : (s.onBehalf t).pending = s.pending := rfl
@[simp] theorem State.onBehalf_regs (t : Nat) : (s.onBehalf t).regs = s.regs := rfl
@[simp] theorem State.onBehalf_mem (t : Nat) : (s.onBehalf t).mem = s.mem := rfl
@[simp] theorem State.onBehalf_codeErr (t : Nat) : (s.onBehalf t).codeErr = s.codeErr := rfl
@[simp] theorem State.onBehalf_badStage (t : Nat) : (s.onBehalf t).badStage = s.badStage := rfl
@[simp] theorem State.onBehalf_commits (t : Nat) : (s.onBehalf t).commits = s.commits := rfl
@[simp] theorem State.onBehalf_clu (t : Nat) : (s.onBehalf t).clu = s.clu := rfl
@[simp] theorem State.onBehalf_rank (t : Nat) : (s.onBehalf t).rank = s.rank := rfl
@[simp] theorem State.onBehalf_movers (t : Nat) : (s.onBehalf t).movers = s.movers := rfl
@[simp] theorem State.onBehalf_movReqs (t : Nat) : (s.onBehalf t).movReqs = s.movReqs := rfl
@[simp] theorem State.onBehalf_lastTenant (t : Nat) : (s.onBehalf t).lastTenant = s.lastTenant := rfl
@[simp] theorem State.onBehalf_turnLeft (t : Nat) : (s.onBehalf t).turnLeft = s.turnLeft := rfl
@[simp] theorem State.onBehalf_lastCluster (t : Nat) : (s.onBehalf t).lastCluster = s.lastCluster := rfl
@[simp] theorem State.onBehalf_images (t : Nat) : (s.onBehalf t).images = s.images := rfl
@[simp] theorem State.onBehalf_txs (t : Nat) : (s.onBehalf t).txs = s.txs := rfl
@[simp] theorem State.onBehalf_rxs (t : Nat) : (s.onBehalf t).rxs = s.rxs := rfl
@[simp] theorem State.onBehalf_grants (t : Nat) : (s.onBehalf t).grants = s.grants := rfl
@[simp] theorem State.onBehalf_txSeq (t : Nat) : (s.onBehalf t).txSeq = s.txSeq := rfl
@[simp] theorem State.onBehalf_rxSeq (t : Nat) : (s.onBehalf t).rxSeq = s.rxSeq := rfl
@[simp] theorem State.onBehalf_colls (t : Nat) : (s.onBehalf t).colls = s.colls := rfl
@[simp] theorem State.onBehalf_collN (t : Nat) : (s.onBehalf t).collN = s.collN := rfl
@[simp] theorem State.onBehalf_early (t : Nat) : (s.onBehalf t).early = s.early := rfl
@[simp] theorem State.onBehalf_seals (t : Nat) : (s.onBehalf t).seals = s.seals := rfl
@[simp] theorem State.onBehalf_push (t : Nat) : (s.onBehalf t).push = s.push := rfl
@[simp] theorem State.onBehalf_fill (t : Nat) : (s.onBehalf t).fill = s.fill := rfl
@[simp] theorem State.onBehalf_commitPc (t : Nat) : (s.onBehalf t).commitPc = s.commitPc := rfl
@[simp] theorem State.onBehalf_stk (t : Nat) : (s.onBehalf t).stk = s.stk := rfl
@[simp] theorem State.onBehalf_saved (t : Nat) : (s.onBehalf t).saved = s.saved := rfl
@[simp] theorem State.onBehalf_heldSig (t : Nat) : (s.onBehalf t).heldSig = s.heldSig := rfl
@[simp] theorem State.onBehalf_rings (t : Nat) : (s.onBehalf t).rings = s.rings := rfl
@[simp] theorem State.onBehalf_block (t : Nat) : (s.onBehalf t).block = s.block := rfl
@[simp] theorem State.onBehalf_drainNext (t : Nat) : (s.onBehalf t).drainNext = s.drainNext := rfl
@[simp] theorem State.onBehalf_units (t : Nat) : (s.onBehalf t).units = s.units := rfl
@[simp] theorem State.onBehalf_hbmTests (t : Nat) : (s.onBehalf t).hbmTests = s.hbmTests := rfl
@[simp] theorem State.onBehalf_act (t : Nat) : (s.onBehalf t).act = s.act := rfl
@[simp] theorem State.onBehalf_slice (t : Nat) : (s.onBehalf t).slice = s.slice := rfl
@[simp] theorem State.onBehalf_tr (t : Nat) : (s.onBehalf t).tr = s.tr := rfl
@[simp] theorem State.onBehalf_straps (t : Nat) : (s.onBehalf t).straps = s.straps := rfl
@[simp] theorem State.onBehalf_i3c (t : Nat) : (s.onBehalf t).i3c = s.i3c := rfl
@[simp] theorem State.onBehalf_hostLink (t : Nat) : (s.onBehalf t).hostLink = s.hostLink := rfl
@[simp] theorem State.onBehalf_hostCmds (t : Nat) : (s.onBehalf t).hostCmds = s.hostCmds := rfl
@[simp] theorem State.onBehalf_sqTail (t : Nat) : (s.onBehalf t).sqTail = s.sqTail := rfl
@[simp] theorem State.onBehalf_cqHead (t : Nat) : (s.onBehalf t).cqHead = s.cqHead := rfl
@[simp] theorem State.onBehalf_cqCount (t : Nat) : (s.onBehalf t).cqCount = s.cqCount := rfl
@[simp] theorem State.onBehalf_cqUsed (t : Nat) : (s.onBehalf t).cqUsed = s.cqUsed := rfl
@[simp] theorem State.onBehalf_qps (t : Nat) : (s.onBehalf t).qps = s.qps := rfl
@[simp] theorem State.onBehalf_kprQp (t : Nat) : (s.onBehalf t).kprQp = s.kprQp := rfl
@[simp] theorem State.onBehalf_tap (t : Nat) : (s.onBehalf t).tap = s.tap := rfl
@[simp] theorem State.onBehalf_tapDrive (t : Nat) : (s.onBehalf t).tapDrive = s.tapDrive := rfl
@[simp] theorem State.onBehalf_telemetryOff (t : Nat) : (s.onBehalf t).telemetryOff = s.telemetryOff := rfl
@[simp] theorem State.onBehalf_reset_ (t : Nat) : (s.onBehalf t).reset_ = s.reset_ := rfl
@[simp] theorem State.onBehalf_resetQ (t : Nat) : (s.onBehalf t).resetQ = s.resetQ := rfl
@[simp] theorem State.onBehalf_pw (t : Nat) : (s.onBehalf t).pw = { s.pw with who := t } := rfl
@[simp] theorem State.onBehalf_fwBeat (t : Nat) : (s.onBehalf t).fwBeat = s.fwBeat := rfl
@[simp] theorem State.onBehalf_peerRec (t : Nat) : (s.onBehalf t).peerRec = s.peerRec := rfl
@[simp] theorem State.onBehalf_peerEpoch (t : Nat) : (s.onBehalf t).peerEpoch = s.peerEpoch := rfl
@[simp] theorem State.onBehalf_lastChange (t : Nat) : (s.onBehalf t).lastChange = s.lastChange := rfl
@[simp] theorem State.onBehalf_rt (t : Nat) : (s.onBehalf t).rt = s.rt := rfl
@[simp] theorem State.onBehalf_links (t : Nat) : (s.onBehalf t).links = s.links := rfl
@[simp] theorem State.onBehalf_boardRead (t : Nat) : (s.onBehalf t).boardRead = s.boardRead := rfl
@[simp] theorem State.onBehalf_evqUsed (t : Nat) : (s.onBehalf t).evqUsed = s.evqUsed := rfl
@[simp] theorem State.onBehalf_evqLost (t : Nat) : (s.onBehalf t).evqLost = s.evqLost := rfl
@[simp] theorem State.onBehalf_out (t : Nat) : (s.onBehalf t).out = s.out := rfl
@[simp] theorem State.onBehalf_freeIx (t : Nat) : (s.onBehalf t).freeIx = s.freeIx := rfl

end Sys2Proof.Machine
end

