-- ==== Sys2Proof/Tests/Slice0.lean ====
section
/-!
SUPPORT. Tests: each check of WellFormed refuses an ill-formed term; worked values of the spec; and for every statement with hypotheses a
concrete state and operands that meet them.
-/
namespace Sys2Proof
namespace Machine

set_option Elab.async false

/-! ### Small states -/

/-- Write registers one after the other. -/
def State.wrs (s : State) (l : List (Nat × BitVec 64)) : State := l.foldl (fun s e => s.wr e.1 e.2) s

/-- Write fields one after the other. -/
def State.flds (s : State) (l : List (Nat × Field × Nat)) : State := l.foldl (fun s e => s.setFld e.1 e.2.1 e.2.2) s

/-- Everything that Ready says, as one test. -/
def readyB (s : State) (c : Nat) (w : BitVec 128) (op : Nat) : Bool :=
  s.regsWf && s.canDecode c w && decide ((s.cl c).hold = none) && decide (bitsOf w 127 120 = op) && decide (s.decodeCheck c w = none) &&
    (s.capture_ c w).pred && s.headerOk c (bitsOf w 111 104)

theorem ready_of {s : State} {c : Nat} {w : BitVec 128} {op : Nat} (h : readyB s c w op = true) : Ready s c w op := by
  simp only [readyB, Bool.and_eq_true, decide_eq_true_eq] at h
  exact ⟨h.1.1.1.1.1.1, h.1.1.1.1.1.2, h.1.1.1.1.2, h.1.1.1.2, h.1.1.2, h.1.2, h.2⟩

/-- Everything that HeadReady says, as one test. -/
def headB (s : State) (c port : Nat) (e : QEntry) (rest : List QEntry) : Bool :=
  s.regsWf && decide (s.stopped = false) && decide ((s.cl c).queue port = e :: rest) && decide (s.seqState c = 1) && s.headerOk c e.wait && e.pred &&
    decide (s.headCheck c e = none)

theorem head_of {s : State} {c port : Nat} {e : QEntry} {rest : List QEntry} (h : headB s c port e rest = true) :
    HeadReady s c port e rest := by
  simp only [headB, Bool.and_eq_true, decide_eq_true_eq] at h
  exact ⟨h.1.1.1.1.1.1, h.1.1.1.1.1.2, h.1.1.1.1.2, h.1.1.1.2, h.1.1.2, h.1.2, h.2⟩

/-! ### Boot: a flash image and an identity block signed by hand with the private key 12345 -/

def rootX : Nat := 38727246918524287817675252557580304404936648459501436719726631157738212329281
def rootY : Nat := 57092301728283181192692236992853279245933015664357431515485648696685545762925

/-- A component header without payload (R547). -/
def bundleHead (kind svn r s : Nat) : List Byte :=
  leBytes 4 0x504D434B ++ leBytes 2 kind ++ leBytes 2 svn ++ leBytes 4 0x01000000 ++ leBytes 4 0 ++ leBytes 8 0 ++ leBytes 8 0
    ++ beBytes 32 rootX ++ beBytes 32 rootY ++ beBytes 32 r ++ beBytes 32 s ++ List.replicate 96 0

def keeperHead : List Byte := bundleHead 1 1 86531117262480604529249493652545100430621172520562088637264720101855242735404
  16465761300307703278848761676210445378916597712410660041508172759116740854910
def ucodeHead : List Byte := bundleHead 2 1 2883159915003786786187362737925824972412691284175027117556124058497729023790
  108660514160703476314970368753495558754441618099609731603688326030474923519721
def linkHead : List Byte := bundleHead 3 1 62794819102840485958303845161783441294606640462599773510664949670104664433701
  112727289458775396085565314418675717191167847876078489215411489115197905060049

def pad4k (b : List Byte) : List Byte := b ++ List.replicate (4096 - b.length) 0
def testBundle : List Byte := pad4k keeperHead ++ pad4k ucodeHead ++ pad4k linkHead ++ bundleHead 0 0 0 0

/-- A directory copy with GEN 7 and ACTIVE A (R546). -/
def testDir : List Byte :=
  leBytes 4 0x5249444B ++ leBytes 4 7 ++ leBytes 1 0 ++ List.replicate 47 0 ++ leBytes 8 4280419894096744634

def testFlash : FlashImage := { readable := true, dir0 := testDir, dir1 := testDir, slotA := testBundle, slotB := [] }

def testId : IdentityBlock :=
  { bytes := [1, 2, 3], r := 13347665663662775425914151180279773430677448770606740114579744667728741124593
    s := 87317314180855066845111725972908831933940248045264155656259570540902816466612
    serial := 42, pubX := 0, pubY := 0, weights := [], volts := [], offsets := [] }

/-- Just after PWROK, with the root key's digest in the ROM. -/
def coldState : State :=
  { State.reset with tr := { rootDigest := 51924848653631535059338542917988841348469347075629256184676126090367472723868 } }

def atStage (n : Nat) : State := coldState.toStage n

def keeperEntry : BundleEntry :=
  { kind := 1, svn := 1, version := 0x01000000, signer := (rootX, rootY)
    r := 86531117262480604529249493652545100430621172520562088637264720101855242735404
    s := 16465761300307703278848761676210445378916597712410660041508172759116740854910
    message := bundleHead 1 1 0 0, image := keeperHead }

/-- 64 bytes of board identity: chip (0, 0, 0) of a 4 × 1 × 2 torus, a pool of two chips, six axis pairs. -/
def testBoard : List Byte :=
  let b := leBytes 4 0x4449424B ++ leBytes 1 1 ++ leBytes 1 0 ++ leBytes 2 5 ++ leBytes 1 0 ++ leBytes 1 0 ++ [0, 0, 0, 4, 1, 2]
    ++ [0, 0, 0, 0] ++ leBytes 2 2000 ++ [2, 0] ++ leBytes 2 0 ++ leBytes 2 1 ++ leBytes 12 0
    ++ [0xA0, 0xA8, 0xA4, 0xAC, 0xA1, 0xA9, 0xA5, 0xAD, 0xA2, 0xAA, 0xA6, 0xAE] ++ leBytes 8 0
  b ++ leBytes 4 (crc32c b).toNat

theorem witness_powerCommands : State.reset.regsWf = true ∧ State.reset.memWf = true ∧ State.reset.tr.powered = true := by decide +kernel

theorem witness_bootRom : (atStage 0).regsWf = true ∧ (atStage 0).bootRuns 0 = true ∧ testFlash.readable = true ∧
    pickDirectory testFlash.dir0 testFlash.dir1 = some (7, 0) ∧
    (match (atStage 0).romPick (testFlash.order 0) with | .ok x => x == (0, keeperEntry) | .error _ => false) = true ∧
    sm2Verify keeperEntry.signer.1 keeperEntry.signer.2 testId.bytes testId.r testId.s = true := by decide +kernel

/-- The keeper component of a bundle passes its checks; so do the other two. -/
def firstPass (s : State) (bs : List Byte) : Bool := match bundleOf 8 bs with
  | some [k, _, _] => s.componentCheck 1 k == 0
  | _ => false
def laterPass (s : State) (bs : List Byte) : Bool := match bundleOf 8 bs with
  | some [_, u, l] => s.componentCheck 2 u == 0 && s.componentCheck 3 l == 0
  | _ => false

theorem witness_bootKeeper : (atStage 1).regsWf = true ∧ (atStage 1).bootRuns 1 = true ∧
    laterPass (atStage 1) testBundle = true := by decide +kernel

theorem witness_bootLater : (atStage 2).regsWf = true ∧ (atStage 2).memWf = true ∧ (atStage 2).bootRuns 2 = true ∧
    (atStage 3).regsWf = true ∧ (atStage 3).bootRuns 3 = true ∧
    (atStage 3).fld Reg.SEC_STATUS Fld.SEC_STATUS_REPAIR_SIG = 0 ∧
    (atStage 4).regsWf = true ∧ (atStage 4).bootRuns 4 = true ∧ boardFaults testBoard = [] := by decide +kernel

theorem witness_bootFailures : (atStage 0).bootRuns 0 = true ∧ { testFlash with readable := false }.readable = false ∧
    pickDirectory [] [] = none ∧ bundleOf 8 [] = none ∧ (atStage 2).bootRuns 2 = true ∧ (0xFE : BitVec 8) ≠ 0xFF ∧
    boardFormatOk [] = false := by decide +kernel

/-! ### Resets -/

/-- A reset of pseudo-channel 3 runs. -/
def resetting : State := { State.reset with reset_ := some (ResetReq.mk 5 3) }

theorem witness_scopedResets : State.reset.regsWf = true ∧ State.reset.memWf = true ∧ State.reset.reset_ = none ∧
    State.reset.resetBarred (ResetReq.mk 2 63) = false ∧ (ResetReq.mk 3 12).indexOk = true ∧
    State.reset.resetBarred (ResetReq.mk 3 12) = false ∧ State.reset.linkState 11 = 0 ∧
    State.reset.fld Reg.MEM_REMAP_STATUS Fld.MEM_REMAP_STATUS_BUSY ≠ 1 := by decide +kernel

theorem witness_resetRequests : resetting.regsWf = true ∧ resetting.reset_ = some (ResetReq.mk 5 3) ∧
    (ResetReq.mk 2 7).indexOk = true ∧ (ResetReq.mk 2 7).within (ResetReq.mk 2 7) = true ∧ (ResetReq.mk 4 11).indexOk = true ∧
    (ResetReq.mk 4 11).within (ResetReq.mk 5 3) = false ∧ resetting.resetQ.length < 4 ∧
    (State.reset.setCtx 2 63 4).regsWf = true ∧ (State.reset.setCtx 2 63 4).ctxState 2 63 ≠ 0 ∧
    (State.reset.setCtx 2 63 4).reset_ = none ∧
    { State.reset with resetQ := [ResetReq.mk 5 511] }.resetBarred (ResetReq.mk 5 511) = false := by decide +kernel

/-! ### The keeper -/

/-- A request on channel 1, which is admin, with GO given: its opcode and payload. -/
def asked (op : Nat) (payload : List Byte) : State :=
  ((State.reset.setFld Reg.KPR_CTL Fld.KPR_CTL_ADMIN 2).bufPut (Reg.KPR_REQ 1) 0
    (leBytes 2 op ++ leBytes 2 7 ++ leBytes 2 payload.length ++ leBytes 2 0 ++ payload)).kprGo 1

def stagedOn (ready : Bool) : State :=
  { State.reset with tr := { staged := some (Staged.mk 1 [{ version := 2, svn := 3, digest := [] }] 1 ready), handover := if ready then some 1 else none } }

theorem witness_keeperUpdate : (asked 0x21 (leBytes 24 3)).regsWf = true ∧ (asked 0x21 (leBytes 24 3)).kprTurn 1 0x21 = true ∧
    (asked 0x21 (leBytes 24 3)).kprAllowed 1 0x21 = true ∧ 24 ≤ ((asked 0x21 (leBytes 24 3)).kprPayload 1).length ∧
    leNat (((asked 0x21 (leBytes 24 3)).kprPayload 1).take 1) = 3 ∧ (stagedOn false).bootDead = false ∧ (stagedOn false).regsWf = true ∧
    (stagedOn false).tr.staged.map (·.ready) = some false ∧ (stagedOn true).tr.staged.map (·.ready) = some true ∧
    (stagedOn true).tr.handover = some 1 ∧ (stagedOn true).fld Reg.CAD_CTL Fld.CAD_CTL_EN = 0 ∧ (stagedOn true).slice = none ∧
    (stagedOn true).rstState ≠ 1 ∧ State.reset.tr.standby = true ∧ State.reset.tr.staged = none ∧ State.reset.tr.handover = none ∧
    { State.reset with tr := { standby := false } }.tr.standby = false := by decide +kernel

/-- SEC_CTL with LOCK and DEBUG_PERMIT. -/
def lockedSec : State := State.reset.wr Reg.SEC_CTL 0x80000001

theorem witness_securityWrites : State.reset.regsWf = true ∧ State.reset.secLocked = false ∧ lockedSec.regsWf = true ∧
    lockedSec.secLocked = true ∧ lockedSec.fld Reg.SEC_CTL Fld.SEC_CTL_DEBUG_PERMIT = 1 ∧
    State.reset.fld Reg.SEC_CTL Fld.SEC_CTL_DEBUG_PERMIT = 0 := by decide +kernel

/-! ### Registers, cadence and observation -/

theorem witness_registerWrites : State.reset.regsWf = true ∧ State.reset.romDead = false ∧ regAt 0x3FFFFF8 = none ∧
    (0x31 : BitVec 26).toNat % 8 ≠ 0 ∧ ((State.reset.toStage 6).setBoot Fld.GLB_BOOT_STATUS_FAIL 4).romDead = true ∧
    State.reset.fld (Reg.HIF_BAR_TEN 1) Fld.HIF_BAR_TEN_VALID = 0 := by decide +kernel

/-- Beats are taken from `src`. -/
def beating (src : Nat) : State := State.reset.flds [(Reg.CAD_CTL, Fld.CAD_CTL_EN, 1), (Reg.CAD_CTL, Fld.CAD_CTL_SRC, src)]

/-- The position of step 4,117, phase BWD, tick 3: the worked encoding of R19. -/
def beatPos : BitVec 64 := 0x0000001015200003

def beatPacket : Packet := { tc := 2, type := 5, src := 9, mc := true, body := leBytes 8 0x1015200003 }

theorem reset_arms : ∀ a ∈ allArms, State.reset.fld a.ctl Fld.CAD_GARM_CTL_ACTION = 0 := by
  unfold allArms
  simp only [List.forall_mem_append, List.forall_mem_map, List.forall_mem_flatMap, List.mem_finRange, forall_const]
  decide +kernel

theorem arm_ne (a : ArmId) : a.ctl ≠ Reg.CAD_CTL := by
  cases a <;> simp only [ArmId.ctl, Reg.CAD_GARM_CTL, Reg.CLU_ARM_CTL, Reg.CAD_CTL] <;> omega

theorem witness_calm (src : Nat) : calm (beating src) := by
  refine ⟨fun a h => ?_, fun c _ => rfl, ?_, ?_⟩
  · simpa only [beating, State.flds, List.foldl, fld_setFld_ne _ _ _ (arm_ne a)] using reset_arms a h
  · simp only [beating, State.flds, List.foldl]
    rw [fld_setFld_ne _ _ _ (by decide +kernel), fld_setFld_ne _ _ _ (by decide +kernel)]; decide +kernel
  · simp only [beating, State.flds, List.foldl]
    rw [fld_setFld_ne _ _ _ (by decide +kernel), fld_setFld_ne _ _ _ (by decide +kernel)]; decide +kernel

theorem witness_beats : (beating 1).regsWf = true ∧ beatPacket.type = 5 ∧ beatPacket.malformed = false ∧
    (beating 1).fld Reg.CAD_CTL Fld.CAD_CTL_EN = 1 ∧ (beating 1).fld Reg.CAD_CTL Fld.CAD_CTL_SRC = 1 ∧
    (beating 1).rd Reg.CAD_POS < BitVec.ofNat 64 (leNat (beatPacket.body.take 8)) ∧
    phaseOf (BitVec.ofNat 64 (leNat (beatPacket.body.take 8))) = 2 ∧ (beating 3).regsWf = true ∧
    (beating 3).fld Reg.CAD_CTL Fld.CAD_CTL_EN = 1 ∧ (beating 3).fld Reg.CAD_CTL Fld.CAD_CTL_SRC = 3 ∧
    (0 : BitVec 64) ≤ (beating 3).rd Reg.CAD_POS ∧ (0 : BitVec 8) ≠ crc8 beatPos ∧
    State.reset.fld Reg.CAD_CTL Fld.CAD_CTL_EN = 0 := by decide +kernel

/-- The worked encoding of R19, and the reference value of the CRC of R21. -/
theorem test_position : stepOf beatPos = 4117 ∧ phaseOf beatPos = 2 ∧ beatPos.toNat % 2 ^ 20 = 3 := by decide +kernel

theorem test_crc8 : crcMsb 8 0x07 0 [0x31, 0x32, 0x33, 0x34, 0x35, 0x36, 0x37, 0x38, 0x39] = 0xF4 := by decide +kernel

theorem witness_armWrites : armRejected 1 (.clu 63 63) beatPos ((State.reset).rd (ArmId.clu 63 63).ctl) = false ∧
    State.reset.rd Reg.CAD_POS < beatPos ∧ armRejected 0 (.glob 0) 0 (0 &&& 0xFFFFFFFF000F) = false ∧
    (State.reset.wr (Reg.CAD_GARM_POS 0) beatPos).rd Reg.CAD_POS < (State.reset.wr (Reg.CAD_GARM_POS 0) beatPos).rd (ArmId.glob 0).pos ∧
    (State.reset.wr (Reg.CAD_GARM_CTL 5) 6).regsWf = true ∧
    armRejected 0 (.glob 5) 0 ((State.reset.wr (Reg.CAD_GARM_CTL 5) 6).rd (ArmId.glob 5).ctl) = true ∧
    State.reset.rd (Reg.CAD_GARM_POS 63) ≤ State.reset.rd Reg.CAD_POS := by decide +kernel

/-- One trace record in ring 0, and the same in an open block. -/
def someRec : TraceRec := { tsc := 5, cpos := 6, event := 1, unit := 0, obj := 2, dur := 3, peer := 4 }
def tracing : State :=
  { (State.reset.flds [(Reg.TRC_CTL, Fld.TRC_CTL_MODE, 2)]).setRing 0 { recs := [someRec], undrained := 1 } with
    block := { recs := [someRec] } }
def collecting : State := State.reset.flds [(Reg.TRC_CTL, Fld.TRC_CTL_COLLECT, 1)]
def blockPacket : Packet := { tc := 4, type := 11, body := List.replicate 4096 7 }
def waitingClu : State := (State.reset.flds [(Reg.TRC_WDOG, Fld.TRC_WDOG_LIMIT, 9)]).setCl 63
  { hold := some (Hold.mk (.wait 3 1) {} 0) }
def ringAt (st : Nat) : State := (State.reset.flds [(Reg.TRC_RING_STAT 79, Fld.TRC_RING_STAT_STATE, st), (Reg.TRC_RING_CTL 79, Fld.TRC_RING_CTL_AUTO_RELEASE, 0),
  (Reg.TRC_FREEZE_BASE, Fld.TRC_FREEZE_BASE_BASE, 0x10000)]).setRing 79 { recs := List.replicate 256 someRec }

theorem witness_plainHbm : plainHbm tracing (tracing.fld Reg.TRC_BASE Fld.TRC_BASE_BASE +
      (tracing.rd Reg.TRC_BIDX).toNat % 2 ^ min 20 (tracing.fld Reg.TRC_SIZE Fld.TRC_SIZE_LOG2N) * 4096) 4096 ∧
    plainHbm (ringAt 2) ((ringAt 2).fld Reg.TRC_FREEZE_BASE Fld.TRC_FREEZE_BASE_BASE + 79 * 8192) 8192 := by
  unfold plainHbm; decide +kernel

theorem witness_trace : tracing.regsWf = true ∧ tracing.memWf = true ∧ tracing.fld Reg.TRC_CTL Fld.TRC_CTL_MODE = 2 ∧
    tracing.block.recs.length < 126 ∧ tracing.drainNext = 0 ∧ (tracing.ring 0).recs = [someRec] ∧
    (tracing.ring 0).undrained = [someRec].length ∧ (tracing.ring 0).lost = 0 ∧ tracing.block.recs ≠ [] ∧
    tracing.fld Reg.TRC_DEST Fld.TRC_DEST_REMOTE = 0 ∧ blockPacket.type = 11 ∧ blockPacket.malformed = false ∧
    State.reset.fld Reg.TRC_CTL Fld.TRC_CTL_COLLECT ≠ 1 ∧ collecting.fld Reg.TRC_CTL Fld.TRC_CTL_COLLECT = 1 ∧
    waitingClu.fld Reg.TRC_WDOG Fld.TRC_WDOG_LIMIT ≠ 0 ∧ (waitingClu.cl 63).waits = true ∧ (waitingClu.cl 63).wdogFired = false ∧
    (ringAt 1).ringState 79 = 1 ∧ ((ringAt 1).ring 79).post = 0 ∧ (ringAt 2).ringState 79 = 2 ∧
    (ringAt 2).fld Reg.TRC_FREEZE_BASE Fld.TRC_FREEZE_BASE_BASE ≠ 0 ∧
    (ringAt 2).fld (Reg.TRC_RING_CTL 79) Fld.TRC_RING_CTL_AUTO_RELEASE = 0 ∧
    (State.reset.flds [(Reg.TRC_RING_CTL 0, Fld.TRC_RING_CTL_EN, 1)]).ringState 0 = 0 ∧
    (State.reset.flds [(Reg.TRC_RING_CTL 0, Fld.TRC_RING_CTL_EN, 1)]).fld (Reg.TRC_RING_CTL 0) Fld.TRC_RING_CTL_EN = 1 ∧
    State.reset.fld Reg.TRC_CTL Fld.TRC_CTL_SCOPE = 0 := by decide +kernel

theorem witness_trace256 : ((ringAt 2).ring 79).recs.length = 256 ∧ blockPacket.body.length = 4096 := by decide +kernel

def snapping : State := State.reset.flds [(Reg.CNT_SNAP_CTL, Fld.CNT_SNAP_CTL_EN, 1), (Reg.FAB_CPAGE_CTL, Fld.FAB_CPAGE_CTL_EN, 1)]

theorem witness_counters : snapping.regsWf = true ∧ snapping.memWf = true ∧ snapping.fld Reg.CNT_SNAP_CTL Fld.CNT_SNAP_CTL_EN = 1 ∧
    snapping.telemetryOff = false ∧ snapping.fld Reg.FAB_CPAGE_CTL Fld.FAB_CPAGE_CTL_EN = 1 ∧
    State.reset.fld Reg.FAB_CPAGE_CTL Fld.FAB_CPAGE_CTL_EN = 0 ∧ State.reset.block.recs = [] := by decide +kernel

theorem witness_pages : plainHbm snapping (snapping.fld Reg.CNT_SNAP_BASE Fld.CNT_SNAP_BASE_BASE +
      snapping.fld Reg.CNT_SNAP_IDX Fld.CNT_SNAP_IDX_IDX % 2 ^ min 12 (snapping.fld Reg.CNT_SNAP_CTL Fld.CNT_SNAP_CTL_LOG2N) * 8192) 8192 ∧
    plainHbm snapping (snapping.fld Reg.FAB_CPAGE_BASE Fld.FAB_CPAGE_BASE_BASE +
      snapping.fld Reg.FAB_CPAGE_IDX Fld.FAB_CPAGE_IDX_IDX % 2 ^ min 12 (snapping.fld Reg.FAB_CPAGE_CTL Fld.FAB_CPAGE_CTL_LOG2N) * 1024) 1024 := by
  unfold plainHbm; decide +kernel

/-! ### Streams, ports, ranks and the sequencer -/

/-- A word of opcode `op` with the given fields, each by its low bit. -/
def word (op : Nat) (fs : List (Nat × Nat)) : BitVec 128 :=
  BitVec.ofNat 128 (op * 2 ^ 120 + op / 16 * 2 ^ 116 + fs.foldl (fun n f => n + f.2 * 2 ^ f.1) 0)

/-- Cluster 63 runs a T1 stream of 300 words at 0x10000, with the fields and the record given. -/
def runsWith (fs : List (Nat × Field × Nat)) (k : Cluster) : State :=
  (State.reset.flds ([(Reg.SEQ_STATUS 63, Fld.SEQ_STATUS_STATE, 1), (Reg.SEQ_STATUS 63, Fld.SEQ_STATUS_TENANT, 1),
    (Reg.SEQ_STATUS 63, Fld.SEQ_STATUS_CTX, 1), (Reg.SEQ_STREAM_LEN 63 0 0, Fld.SEQ_STREAM_LEN_LEN, 300),
    (Reg.SEQ_STREAM_BASE 63 0 0, Fld.SEQ_STREAM_BASE_BASE, 0x10000), (Reg.STK_SLOT 5, Fld.STK_SLOT_OWNER, 1)] ++ fs)).setCl 63 k

/-- Cluster 63 runs with `w` fetched at PC 0. -/
def runs (w : BitVec 128) : State := runsWith [] { fetched := [(0, w)], sreg := [(3, 0x30000000000), (4, 77)] }

/-- A region of T1 over all of device memory with every permission. -/
def openRegion (s : State) : State :=
  (s.wr (Reg.MEM_RGN_W0 1 0) (putField (putField (putField (putField (putField 0 Fld.MEM_RGN_W0_VALID 1) Fld.MEM_RGN_W0_RD 1)
    Fld.MEM_RGN_W0_WR 1) Fld.MEM_RGN_W0_XS 1) Fld.MEM_RGN_W0_FL 1)).wr (Reg.MEM_RGN_W1 1 0) (putField 0 Fld.MEM_RGN_W1_LIMIT 0xFFFFFFFFFF)

/-- A region of T1 over every stage. -/
def openStage (s : State) : State :=
  (s.wr (Reg.MEM_RGN_W0 1 0) (putField (putField (putField (putField (putField 0x10000000000 Fld.MEM_RGN_W0_VALID 1) Fld.MEM_RGN_W0_RD 1)
    Fld.MEM_RGN_W0_WR 1) Fld.MEM_RGN_W0_FL 1) Fld.MEM_RGN_W0_BASE 0x10000000000)).wr (Reg.MEM_RGN_W1 1 0)
    (putField 0 Fld.MEM_RGN_W1_LIMIT 0x1FFFFFFFFFF)

def loaded : State := State.reset.flds [(Reg.SEQ_STREAM_LEN 63 0 0, Fld.SEQ_STREAM_LEN_LEN, 1)]

theorem witness_streamControl : loaded.regsWf = true ∧ loaded.seqState (63 : Fin 64) = 0 ∧ loaded.barrier = 0 ∧ loaded.bootDead = false ∧
    loaded.unitState (unitId 1 63) ≠ 3 ∧
    loaded.fld (Reg.SEQ_STREAM_LEN 63 (1 - 1) ((loaded.rd Reg.GLB_START_CTX).getLsbD 1).toNat) Fld.SEQ_STREAM_LEN_LEN ≠ 0 ∧
    (runs 0).regsWf = true ∧ (runs 0).mayControl 1 63 = true ∧ (runs 0).mayControl 2 63 = false ∧ (runs 0).seqState 63 = 1 ∧
    (runsWith [(Reg.SEQ_STATUS 63, Fld.SEQ_STATUS_STATE, 2)] {}).mayControl 0 63 = true ∧
    (runsWith [(Reg.SEQ_STATUS 63, Fld.SEQ_STATUS_STATE, 2)] {}).seqState 63 = 2 ∧
    ((runsWith [(Reg.SEQ_STATUS 63, Fld.SEQ_STATUS_STATE, 2)] {}).cl 63).hold = none ∧
    (runsWith [(Reg.SEQ_STATUS 63, Fld.SEQ_STATUS_STATE, 4)] { hard := true }).seqState 63 = 4 ∧
    ((runsWith [(Reg.SEQ_STATUS 63, Fld.SEQ_STATUS_STATE, 4)] { hard := true }).cl 63).hard = true := by decide +kernel

/-- The stream has ended. -/
def ended : State := (runs 0).wr (Reg.SEQ_PC 63) 300

theorem witness_streamEnd : ended.regsWf = true ∧ ended.seqState 63 = 1 ∧ (ended.cl 63).testStream = false ∧
    ended.streamLen 63 ≤ ended.seqPc 63 ∧ (ended.cl 63).hold = none ∧ ended.portsDone 63 15 = true ∧ ended.slice = none := by decide +kernel

theorem witness_streamFetch : (openRegion (runs 0)).regsWf = true ∧ (openRegion (runs 0)).seqState 63 = 1 ∧
    ((openRegion (runs 0)).cl 63).testStream = false ∧ (openRegion (runs 0)).seqPc 63 < (openRegion (runs 0)).streamLen 63 ∧
    ((openRegion (runs 0)).cl 63).loops = [] ∧
    256 = min 256 ((openRegion (runs 0)).streamLen 63 - (openRegion (runs 0)).seqPc 63) ∧
    (∀ p ∈ pages 3 ((openRegion (runs 0)).streamBase 63 + 16 * (openRegion (runs 0)).seqPc 63) (16 * 256),
      (openRegion (runs 0)).regionOk ((openRegion (runs 0)).seqTenant 63) p.1 p.2 .xs = true) ∧
    (openRegion (runs 0)).place ((openRegion (runs 0)).streamBase 63 + 16 * (openRegion (runs 0)).seqPc 63) = .hbm ∧
    (openRegion (runs 0)).badBursts ((openRegion (runs 0)).streamBase 63 + 16 * (openRegion (runs 0)).seqPc 63) (16 * 256) = [] ∧
    (runs 0).fetchStart 63 = (runs 0).seqPc 63 := by decide +kernel

theorem witness_fetchFault : ∀ a n, (runs 0).regionOk ((runs 0).seqTenant 63) a n .xs = false := by
  intro a n
  have h : (runs 0).regions ((runs 0).seqTenant 63) = [] := by decide +kernel
  unfold State.regionOk
  rw [h]; rfl

/-- A descriptor of `n` elements in one dimension, of element format `fmt`, at `a`. -/
def desc1 (fmt a n : Nat) : BitVec 512 := BitVec.ofNat 512 (a + fmt * 2 ^ 48 + n * 2 ^ 128)

/-- The stage of cluster 63. -/
def stage63 : Nat := stageBase 63

/-- Cluster 63 with `w` queued at `port`, descriptors 1 (source) and 2 (destination) of 64 elements of `fmt` in its stage. -/
def queued (port : Nat) (w : BitVec 128) (fmt : Nat) : State :=
  openStage (runsWith [] (({ desc := [(1, desc1 fmt stage63 64), (2, desc1 fmt (stage63 + 0x1000) 64)] } : Cluster).setQueue port
    [{ word := w, pc := 0, pred := true, slot := 5, scal := [(3, 0x80)] }]))
def entryOf (w : BitVec 128) : QEntry := { word := w, pc := 0, pred := true, slot := 5, scal := [(3, 0x80)] }

/-- A matrix descriptor: `s0` by `s1` elements of `fmt`, dense, with scales at `sa`. -/
def desc2 (fmt orient a sa s0 s1 : Nat) : BitVec 512 :=
  BitVec.ofNat 512 (a + fmt * 2 ^ 48 + orient * 2 ^ 56 + 2 ^ 58 + sa * 2 ^ 64 + (s0 + s1 * 2 ^ 24) * 2 ^ 128 +
    s0 * fmtBits fmt / 8 * 2 ^ 256)

/-- A product of one row and one column of 32 elements in MXFP8 (E4M3), to FP32. -/
def mmaWord : BitVec 128 := word 0x10 [(88, 1), (80, 2), (72, 3), (63, 1), (0, 1)]
def mmaState (q : List QEntry) : State :=
  (openStage (runsWith [(Reg.RNK_CTL 63 0, Fld.RNK_CTL_UNGATED, 4)]
    { fetched := [(0, mmaWord)]
      rankQ := q
      desc := [(1, desc2 4 1 stage63 (stage63 + 0x800) 32 1), (2, desc2 4 1 (stage63 + 0x1000) (stage63 + 0x1800) 32 1),
        (3, desc2 0 0 (stage63 + 0x2000) 0 1 1)] })).poke stage63 (List.replicate 32 0x38) |>.poke (stage63 + 0x800) [127]
    |>.poke (stage63 + 0x1000) (List.replicate 32 0x38) |>.poke (stage63 + 0x1800) [127]

/-- A word of each opcode that passes checks 1 to 5 in a T1 stream of cluster 63; ACCRD, ARGMAX and ARGMIN in a stream of T0. -/
def portWords : List (BitVec 128) :=
  [mmaWord, word 0x11 [(88, 1), (80, 2), (72, 3), (63, 1), (0, 1)], word 0x12 [(88, 1), (80, 2), (72, 3), (63, 1), (0, 1)],
   word 0x20 [(88, 1), (80, 2), (64, 3)], word 0x21 [(88, 1), (64, 2)], word 0x22 [(88, 1), (80, 2), (64, 3)], word 0x23 [(88, 1)],
   word 0x24 [(88, 1)], word 0x25 [(88, 1), (64, 2)], word 0x26 [(88, 1), (80, 2), (64, 3)], word 0x27 [(88, 1), (64, 2)],
   word 0x28 [(88, 1)], word 0x29 [(88, 1), (64, 2)], word 0x2A [(64, 2)], word 0x30 [(88, 1), (80, 2)],
   word 0x31 [(88, 1), (80, 2), (71, 1)], word 0x32 [(80, 4), (75, 3)], word 0x34 [(88, 1)], word 0x35 [(86, 2)],
   word 0x36 [(88, 1), (80, 2)], word 0x40 [(88, 1)], word 0x41 [(88, 1)], word 0x42 [(88, 1), (80, 2)], word 0x43 [(88, 1)]]
def keeperWords : List (BitVec 128) :=
  [word 0x73 [(88, 1), (80, 2), (72, 3), (63, 1), (34, 1)], word 0x71 [(88, 1), (64, 2)], word 0x72 [(88, 1), (64, 2)]]

def runsSlot5 (w : BitVec 128) : State := (runs w).setFld (Reg.SEQ_STATUS 63) Fld.SEQ_STATUS_SLOT 5
def keeperRuns (w : BitVec 128) : State :=
  runsWith [(Reg.SEQ_STATUS 63, Fld.SEQ_STATUS_TENANT, 0), (Reg.SEQ_STATUS 63, Fld.SEQ_STATUS_CTX, 2),
    (Reg.GLB_DEBUG_CTL, Fld.GLB_DEBUG_CTL_ACC_VIS, 1)] { fetched := [(0, w)] }

theorem witness_portsQueue : (portWords.all fun w => readyB (runsSlot5 w) 63 w (bitsOf w 127 120)) = true ∧
    (keeperWords.all fun w => readyB (keeperRuns w) 63 w (bitsOf w 127 120)) = true ∧
    portRows.map (·.1) = ((portWords.take 3 ++ keeperWords.take 1 ++ (portWords.drop 3).take 11 ++ keeperWords.drop 1
      ++ portWords.drop 14).map (fun w => bitsOf w 127 120)).take 23 ++ [0x40, 0x41, 0x42, 0x43] ∧
    ((runs 0).cl 63).queue 0 = [] := by decide +kernel

theorem witness_portsRun : Ready (mmaState []) 63 mmaWord 0x10 ∧ ((mmaState []).cl 63).queue (portOf 0x10) = [] ∧
    ((mmaState []).enqueueInsn 63 mmaWord 0x10).headCheck 63 ((mmaState []).capture_ 63 mmaWord) = none ∧
    (((mmaState []).enqueueInsn 63 mmaWord 0x10).headRoom 63 ((mmaState []).capture_ 63 mmaWord) 0).1 = true ∧
    Ready (runsSlot5 (word 0x35 [(86, 2)])) 63 (word 0x35 [(86, 2)]) 0x35 ∧
    ((runsSlot5 (word 0x35 [(86, 2)])).cl 63).movQ = [] := by
  refine ⟨ready_of ?_, ?_, ?_, ?_, ready_of ?_, ?_⟩ <;> decide +kernel

def vecWord : BitVec 128 := word 0x21 [(88, 1), (64, 2)]
def condWord : BitVec 128 := word 0x31 [(88, 1), (80, 2), (71, 1)]
def condState : State := (queued 2 condWord 0).modCl 63 (fun k =>
  { k with desc := k.desc.set 0 2 (desc2 9 1 (stage63 + 0x1000) (stage63 + 0x1800) 64 1) })
def movWord : BitVec 128 := word 0x30 [(88, 1), (80, 2)]
def prefWord : BitVec 128 := word 0x36 [(88, 1), (80, 2)]

theorem witness_portHeads : HeadReady (queued 1 vecWord 0) 63 1 (entryOf vecWord) [] ∧ opPort (entryOf vecWord).op = some 1 ∧
    ((queued 1 vecWord 0).cl 63).vec = none ∧ (queued 1 vecWord 0).testing (unitId 4 63) = false ∧
    HeadReady condState 63 2 (entryOf condWord) [] ∧ (entryOf condWord).op = 0x31 ∧ condState.condRoom 63 = true ∧
    HeadReady (queued 2 movWord 0) 63 2 (entryOf movWord) [] ∧ (entryOf movWord).op = 0x30 ∧
    (queued 2 movWord 0).headReqWaits 63 = false ∧
    HeadReady (queued 2 prefWord 0) 63 2 (entryOf prefWord) [] ∧ (entryOf prefWord).op = 0x36 ∧
    ((queued 2 prefWord 0).cl 63).pref.length < 8 ∧
    HeadReady (mmaState [entryOf mmaWord]) 63 0 (entryOf mmaWord) [] ∧ opPort (entryOf mmaWord).op = some 0 ∧
    ((mmaState [entryOf mmaWord]).mmaRoom 63 ((mmaState [entryOf mmaWord]).mmaOf 63 (entryOf mmaWord)) 0) =
      (true, mmaState [entryOf mmaWord]) := by
  refine ⟨head_of ?_, ?_, ?_, ?_, head_of ?_, ?_, ?_, head_of ?_, ?_, ?_, head_of ?_, ?_, ?_, head_of ?_, ?_, ?_⟩ <;> decide +kernel

def waitWord : BitVec 128 := word 0x30 [(88, 1), (80, 2), (104, 7)]
def badWord : BitVec 128 := word 0x30 [(88, 9), (80, 2)]
def offEntry : QEntry := { entryOf movWord with pred := false }

theorem witness_portHeads2 : ((queued 2 waitWord 0).cl 63).queue 2 = [entryOf waitWord] ∧ (queued 2 waitWord 0).seqState 63 = 1 ∧
    (queued 2 waitWord 0).headerOk 63 (entryOf waitWord).wait = false ∧
    (queued 2 badWord 0).regsWf = true ∧ ((queued 2 badWord 0).cl 63).queue 2 = [entryOf badWord] ∧
    (queued 2 badWord 0).headerOk 63 (entryOf badWord).wait = true ∧ (queued 2 badWord 0).headCheck 63 (entryOf badWord) = some (5, 9) ∧
    ((runs 0).modCl 63 (fun k => k.setQueue 2 [offEntry])).regsWf = true ∧
    (((runs 0).modCl 63 (fun k => k.setQueue 2 [offEntry])).cl 63).queue 2 = [offEntry] ∧
    offEntry.pred = false ∧ offEntry.op ≠ 0x35 ∧ offEntry.op ≠ 0x42 ∧ offEntry.sig = 0 := by decide +kernel

/-- The product of `mmaWord` active on rank 0, and one of its tiles started. -/
def mmaA : ActiveMma := (mmaState []).mmaOf 63 (entryOf mmaWord)
def ranked (ungated : Nat) (tiles : List Tile) (done : Nat) : State :=
  ((mmaState []).setFld (Reg.RNK_CTL 63 0) Fld.RNK_CTL_UNGATED ungated).setRk 63 0
    { active := [{ mmaA with next := tiles.length, done := done }], tiles := tiles, nextId := 1 }
def aTile : Tile := { mma := 0, index := 0, fmt := .acc2, anchor := 0, groupLen := 1 }
def fullTile : Tile := { aTile with lanes := (List.range 128).map (fun l => (l, 1)), blocks := [0, 1, 2, 3] }
def missTile : Tile := { aTile with anchor := 2000 }
def a1 : ActiveMma := { mmaA with next := 1 }

/-- 64 ramps have just started. -/
def crowded : State := { ranked 0 [] 0 with pw := { rampStarts := List.replicate 64 0 } }

theorem witness_rankAdmits : (ranked 3 [] 0).regsWf = true ∧ 3 = (ranked 3 [] 0).fld (Reg.RNK_CTL 63 0) Fld.RNK_CTL_UNGATED ∧
    ((ranked 3 [] 0).rk 63 0).active ≠ [] ∧
    (ranked 3 [] 0).rampsNow.length < max 1 ((ranked 3 [] 0).fld Reg.PWR_RAMP_CTL Fld.PWR_RAMP_CTL_MAXRANKS) ∧ 16 ∉ (ranked 3 [] 0).pw.inForce ∧
    crowded.fld (Reg.RNK_CTL 63 0) Fld.RNK_CTL_UNGATED < 4 ∧ (crowded.rk 63 0).active ≠ [] ∧ (crowded.rk 63 0).ramping = false ∧
    max 1 (crowded.fld Reg.PWR_RAMP_CTL Fld.PWR_RAMP_CTL_MAXRANKS) ≤ crowded.rampsNow.length ∧ crowded.pw.rampWaits = [] ∧
    1 = (State.reset.setFld (Reg.RNK_CTL 63 12) Fld.RNK_CTL_UNGATED 1).fld (Reg.RNK_CTL 63 12) Fld.RNK_CTL_UNGATED ∧
    ((State.reset.setFld (Reg.RNK_CTL 63 12) Fld.RNK_CTL_UNGATED 1).rk 63 12).active = [] ∧
    (ranked 4 [] 0).quiesce 63 0 = false ∧ (ranked 4 [] 0).fld (Reg.RNK_CTL 63 0) Fld.RNK_CTL_UNGATED = 4 ∧
    (∀ x ∈ ((ranked 4 [] 0).rk 63 0).tiles, x.replay = none ∧ x.waiting = false) ∧
    ((ranked 4 [] 0).rk 63 0).active.find? (fun b => decide (b.next < b.f.tiles)) = some mmaA ∧
    ((State.reset.setRk 63 0 { stopped := true, tap := [(0, 15)] }).rk 63 0).stopped = true ∧
    (∀ e ∈ ((State.reset.setRk 63 0 { stopped := true, tap := [(0, 15)] }).rk 63 0).tap, e.2 < 16) ∧
    (State.reset.setFld (Reg.RNK_CTL 63 0) Fld.RNK_CTL_QUIESCE 1).quiesce 63 0 = true := by decide +kernel

theorem witness_rankLanes : (ranked 4 [aTile] 0).regsWf = true ∧ ((ranked 4 [aTile] 0).rk 63 0).tiles = [aTile] ∧
    ((ranked 4 [aTile] 0).rk 63 0).mmaOf aTile = some a1 ∧ aTile.waiting = false ∧ aTile.replay = none ∧
    aTile.laneCount 127 < a1.total aTile.groupLen ∧ (ranked 4 [aTile] 0).badStage = [] ∧
    ((ranked 4 [aTile] 0).rk 63 0).stopped = false ∧ ((ranked 4 [aTile] 0).rk 63 0).tap = [] ∧
    (((ranked 4 [aTile] 0).laneStep a1 aTile 0).isSome = true) ∧ (((ranked 4 [missTile] 0).laneStep a1 missTile 0).isNone = true) ∧
    ((ranked 4 [missTile] 0).rk 63 0).mmaOf missTile = some a1 := by decide +kernel

/-- A rank whose lane 0 has slipped behind by one K-step. -/
def slipped (stopped : Bool) : State :=
  (ranked 4 [aTile] 0).setRk 63 0 { (ranked 4 [aTile] 0).rk 63 0 with tap := [(0, 1)], stopped := stopped }

theorem witness_rankSlips : ((slipped false).rk 63 0).stopped = false ∧ ((slipped true).rk 63 0).stopped = true ∧
    (slipped true).regsWf = true ∧ ((slipped true).rk 63 0).tiles = [aTile] ∧ ((slipped true).rk 63 0).mmaOf aTile = some a1 ∧
    aTile.laneCount 0 < a1.total aTile.groupLen ∧ (slipped true).badStage = [] ∧ ((slipped true).rk 63 0).tap.get 0 0 = 1 ∧
    ((slipped true).rk 63 0).tap.get 0 127 = 0 ∧ ((slipped true).laneStep a1 aTile 0).isSome = true ∧
    ((slipped false).laneStep a1 aTile 0).isSome = true := by decide +kernel

def replayTile : Tile := { aTile with replay := some .acc10 }
def drainTile : Tile := { fullTile with blocks := [0] }

theorem witness_rankDrain : ((ranked 4 [replayTile] 0).rk 63 0).mmaOf replayTile = some a1 ∧ replayTile.replay = some .acc10 ∧
    min 40 (min a1.f.n AccFmt.acc10.slots * AccFmt.acc10.limbs) ≤ ((ranked 4 [replayTile] 0).rk 63 0).limbsFree ∧
    ((ranked 4 [drainTile] 0).rk 63 0).mmaOf drainTile = some a1 ∧ drainTile.nextBlock a1 = some (0, 1) ∧
    ((ranked 4 [fullTile] 0).rk 63 0).active = [a1] ∧ a1.id = fullTile.mma ∧ fullTile.outputDone a1 = true ∧ a1.fp8 = false ∧
    a1.f.accrd = false ∧ a1.entry.sig = 0 ∧ ((ranked 4 [fullTile] 0).cl 63).hold = none := by decide +kernel

/-- The same product to FP8 with a sidecar. -/
def fp8A : ActiveMma := { a1 with o := { raw := desc2 2 0 (stage63 + 0x2000) (stage63 + 0x3000) 1 1 } }
def fp8State : State := (ranked 4 [fullTile] 0).setRk 63 0 { active := [fp8A], tiles := [fullTile], nextId := 1 }
def auditTile : Tile := { fullTile with audited := true }

theorem witness_rankEmission : fp8State.regsWf = true ∧ (fp8State.rk 63 0).tiles = [fullTile] ∧ (fp8State.rk 63 0).mmaOf fullTile = some fp8A ∧
    fp8A.fp8 = true ∧ fullTile.final fp8A = true ∧ fullTile.emitted = false ∧ fullTile.audited = false ∧
    (∀ q, q < 13 → q ≠ 0 → ((ranked 4 [auditTile] 0).rk 63 q).tiles = []) ∧ ((ranked 4 [auditTile] 0).rk 63 0).mmaOf auditTile = some a1 ∧
    auditTile.audited = true ∧ auditTile.auditDone = false ∧ auditTile.full a1 = true := by decide +kernel

def allQuiesced : State := (List.range 13).foldl (fun s p => s.setFld (Reg.RNK_CTL 63 p) Fld.RNK_CTL_QUIESCED 1) State.reset

theorem witness_rankMaps : allQuiesced.regsWf = true ∧ skewLanes 0x0183 = some [0x83] ∧
    allQuiesced.fld (Reg.RNK_CTL 63 12) Fld.RNK_CTL_QUIESCED = 1 ∧ skewLanes 0x0184 = none ∧
    State.reset.fld (Reg.RNK_CTL 63 12) Fld.RNK_CTL_QUIESCED = 0 ∧
    (∀ i, i < 12 → (0xCA9876543210 : BitVec 64).toNat / 2 ^ (4 * i) % 16 < 13) ∧
    (∀ j, j < 12 → ∀ i, i < j → (0xCA9876543210 : BitVec 64).toNat / 2 ^ (4 * i) % 16 ≠ (0xCA9876543210 : BitVec 64).toNat / 2 ^ (4 * j) % 16) ∧
    (∀ p, p < 13 → allQuiesced.fld (Reg.RNK_CTL 63 p) Fld.RNK_CTL_QUIESCED = 1) ∧
    (0 : BitVec 64).toNat / 2 ^ (4 * 10) % 16 = (0 : BitVec 64).toNat / 2 ^ (4 * 11) % 16 := by decide +kernel

def movsWord : BitVec 128 := word 0x33 [(88, 7), (0, 5)]
def loadWord : BitVec 128 := word 0x33 [(93, 2), (88, 7), (82, 5)]
def slotWord : BitVec 128 := word 0x33 [(87, 1), (0, 5)]
def loadState : State := openStage (runsWith [] { fetched := [(0, loadWord)], sreg := [(5, BitVec.ofNat 64 (stage63 + 0x1000))] })
def aLoop : LoopEntry := { ireg := 7, start := 5, stride := 2, trip := 3, iter := 1, bodyStart := 0, bodyLen := 1, suspended := false }
def loopState (w : BitVec 128) (l : LoopEntry) : State := runsWith [] { fetched := [(0, w)], loops := [l] }

theorem fits_of {s : State} {c : Nat} {w : BitVec 128} (h : (decide (s.tok c (bitsOf w 103 96) + 2 < 2 ^ 24) &&
    decide (s.tok c (s.fld (Reg.SEQ_TOKEN c (bitsOf w 103 96)) Fld.SEQ_TOKEN_FWD) + 2 < 2 ^ 24)) = true) : signalFits s c w := by
  simpa [signalFits] using h

theorem witness_movScalar : Ready (runs movsWord) 63 movsWord 0x33 ∧ signalFits (runs movsWord) 63 movsWord ∧ bitsOf movsWord 95 93 ≠ 2 ∧
    bitsOf movsWord 87 87 = 0 ∧ ((runs movsWord).cl 63).loops = [] ∧
    Ready loadState 63 loadWord 0x33 ∧ signalFits loadState 63 loadWord ∧ (bitsOf loadWord 95 93 = 2 ∧ bitsOf loadWord 87 87 = 0 ∧
    (loadState.capture_ 63 loadWord).movsAddr % 8 = 0 ∧ inStage 63 (loadState.capture_ 63 loadWord).movsAddr 8 = true ∧
    loadState.regionOk (loadState.seqTenant 63) (loadState.capture_ 63 loadWord).movsAddr 8 .rd = true ∧ loadState.badStage = [] ∧
    (loadState.cl 63).loops = []) ∧
    Ready (runs slotWord) 63 slotWord 0x33 ∧ signalFits (runs slotWord) 63 slotWord ∧ (bitsOf slotWord 87 87 = 1 ∧
    ((runs slotWord).movsValue 63 ((runs slotWord).capture_ 63 slotWord)).toNat < 16 ∧
    (runs slotWord).slotOwner ((runs slotWord).movsValue 63 ((runs slotWord).capture_ 63 slotWord)).toNat = (runs slotWord).seqTenant 63) ∧
    Ready (loopState movsWord aLoop) 63 movsWord 0x33 ∧ signalFits (loopState movsWord aLoop) 63 movsWord ∧
    (((loopState movsWord aLoop).cl 63).loops = [aLoop] ∧ aLoop.suspended = false ∧
    (loopState movsWord aLoop).seqPc 63 + 1 = aLoop.bodyStart + aLoop.bodyLen ∧ aLoop.iter + 1 < aLoop.trip) := by
  refine ⟨ready_of ?_, fits_of ?_, ?_, ?_, ?_, ready_of ?_, fits_of ?_, ?_, ready_of ?_, fits_of ?_, ?_, ready_of ?_, fits_of ?_, ?_⟩ <;>
    decide +kernel

def waitWord2 : BitVec 128 := word 0x50 [(88, 9), (64, 3)]
def waitState (n : Nat) : State := (runs waitWord2).setFld (Reg.SEQ_TOKEN 63 9) Fld.SEQ_TOKEN_COUNT n
def signalWord : BitVec 128 := word 0x51 [(88, 255), (64, 3), (58, 2)]
def remoteWord : BitVec 128 := word 0x51 [(88, 255), (64, 3), (58, 2), (57, 1), (52, 6)]
def remoteState : State := (runs remoteWord).flds [(Reg.IDM_BOARD0, Fld.IDM_BOARD0_DX, 4), (Reg.IDM_BOARD0, Fld.IDM_BOARD0_DY, 1),
  (Reg.IDM_BOARD0, Fld.IDM_BOARD0_DZ, 1)]

theorem witness_tokens : Ready (waitState 3) 63 waitWord2 0x50 ∧ signalFits (waitState 3) 63 waitWord2 ∧ (9 = bitsOf waitWord2 95 88 ∧
    3 = bitsOf waitWord2 87 64 ∧ 3 ≤ (waitState 3).tok 63 9 ∧ bitsOf waitWord2 111 104 ≠ 9 ∧ bitsOf waitWord2 103 96 ≠ 9 ∧
    (waitState 3).fld (Reg.SEQ_TOKEN 63 (bitsOf waitWord2 103 96)) Fld.SEQ_TOKEN_FWD ≠ 9 ∧ ((waitState 3).cl 63).loops = []) ∧
    Ready (waitState 2) 63 waitWord2 0x50 ∧ (waitState 2).tok 63 9 < 3 ∧
    Ready (runs signalWord) 63 signalWord 0x51 ∧ signalFits (runs signalWord) 63 signalWord ∧ (bitsOf signalWord 57 57 = 0 ∧
    2 = bitsOf signalWord 63 58 ∧ 255 = bitsOf signalWord 95 88 ∧ 3 = bitsOf signalWord 87 64 ∧
    (runs signalWord).ctxState 1 2 ≠ 2 ∧ (runs signalWord).ctxState 1 2 ≠ 3 ∧ (runs signalWord).ctxState 1 2 ≠ 5 ∧
    (runs signalWord).seqTenant 63 = 1 ∧ (runs signalWord).seqState 2 = 0 ∧ ((runs signalWord).cl 2).hold = none ∧
    (runs signalWord).tok 2 255 + 3 < 2 ^ 24 ∧ (runs signalWord).fld (Reg.SEQ_TOKEN 2 255) Fld.SEQ_TOKEN_FWD = 0) ∧
    Ready remoteState 63 remoteWord 0x51 ∧ signalFits remoteState 63 remoteWord ∧ (bitsOf remoteWord 57 57 = 1 ∧
    bitsOf remoteWord 87 64 ≠ 0 ∧ remoteState.inTorus (remoteState.capture_ 63 remoteWord).signalChip = true ∧
    remoteState.fenced (remoteState.capture_ 63 remoteWord).signalChip = false) := by
  refine ⟨ready_of ?_, fits_of ?_, ?_, ready_of ?_, ?_, ready_of ?_, fits_of ?_, ?_, ready_of ?_, fits_of ?_, ?_⟩ <;> decide +kernel

def cwaitWord (r : Nat) : BitVec 128 := word 0x52 [(91, r)]
def beatWord : BitVec 128 := word 0x53 [(91, 4)]
def beatState : State := ((runs beatWord).flds [(Reg.CAD_CTL, Fld.CAD_CTL_EN, 1), (Reg.CAD_CTL, Fld.CAD_CTL_SRC, 2)])
def beatImaged : State := { beatState with images := [(1, { (beatState.image 1) with cadMaster := beatState.chip, beatCluster := 63 })] }
def yieldWord : BitVec 128 := word 0x54 []
def fenceWord : BitVec 128 := word 0x55 [(92, 15)]
def fenceBusy : State := runsWith [] { fetched := [(0, fenceWord)], rankQ := [entryOf mmaWord] }
def fenceHeld (q : List QEntry) : State := runsWith [] { fetched := [(0, fenceWord)], hold := some ⟨.fence 15, entryOf fenceWord, 0⟩, rankQ := q }
def fencePref : State := runsWith [] { fetched := [(0, fenceWord)], pref := [⟨{}, false⟩] }

theorem witness_positions : Ready (runs (cwaitWord 0)) 63 (cwaitWord 0) 0x52 ∧ signalFits (runs (cwaitWord 0)) 63 (cwaitWord 0) ∧
    ((runs (cwaitWord 0)).capture_ 63 (cwaitWord 0)).scal.get 0 (bitsOf (cwaitWord 0) 95 91) ≤ (runs (cwaitWord 0)).rd Reg.CAD_POS ∧
    Ready (runs (cwaitWord 4)) 63 (cwaitWord 4) 0x52 ∧ (bitsOf (cwaitWord 4) 90 90 = 0 ∧ (runs (cwaitWord 4)).rd Reg.CAD_POS <
      ((runs (cwaitWord 4)).capture_ 63 (cwaitWord 4)).scal.get 0 (bitsOf (cwaitWord 4) 95 91)) ∧
    Ready (runs yieldWord) 63 yieldWord 0x54 ∧ signalFits (runs yieldWord) 63 yieldWord ∧ ((runs yieldWord).cl 63).requested = false ∧
    Ready (runs fenceWord) 63 fenceWord 0x55 ∧ signalFits (runs fenceWord) 63 fenceWord ∧ (((runs fenceWord).cl 63).pref = [] ∧
    (runs fenceWord).portsDone 63 (bitsOf fenceWord 95 92) = true) ∧
    Ready fenceBusy 63 fenceWord 0x55 ∧ (fenceBusy.portsDone 63 (bitsOf fenceWord 95 92) = false ∧ (fenceBusy.cl 63).pref = []) ∧
    Ready fencePref 63 fenceWord 0x55 ∧ ((bitsOf fenceWord 95 92).testBit 2 = true ∧ (fencePref.cl 63).pref ≠ []) ∧
    ((fenceHeld []).regsWf = true ∧ (fenceHeld []).seqState 63 = 1 ∧
    ((fenceHeld []).cl 63).hold = some ⟨.fence 15, entryOf fenceWord, 0⟩ ∧ (fenceHeld []).portsDone 63 15 = true ∧
    (fenceHeld [entryOf mmaWord]).portsDone 63 15 = false) ∧ signalFits (fenceHeld []) 63 (entryOf fenceWord).word := by
  refine ⟨ready_of ?_, fits_of ?_, ?_, ready_of ?_, ?_, ready_of ?_, fits_of ?_, ?_, ready_of ?_, fits_of ?_, ?_, ready_of ?_, ?_,
    ready_of ?_, ?_, ?_, fits_of ?_⟩ <;> decide +kernel

theorem witness_beat : Ready beatImaged 63 beatWord 0x53 ∧ signalFits beatImaged 63 beatWord ∧ (beatImaged.fld Reg.CAD_CTL Fld.CAD_CTL_SRC = 2 ∧
    beatImaged.fld Reg.CAD_CTL Fld.CAD_CTL_EN = 1 ∧ beatImaged.seqTenant 63 = 1 ∧ (beatImaged.image 1).cadMaster = beatImaged.chip ∧
    (beatImaged.image 1).beatCluster = 63 ∧
    beatImaged.rd Reg.CAD_POS < (beatImaged.capture_ 63 beatWord).scal.get 0 (bitsOf beatWord 95 91) ∧
    phaseOf ((beatImaged.capture_ 63 beatWord).scal.get 0 (bitsOf beatWord 95 91)) ≠ 6 ∧
    phaseOf ((beatImaged.capture_ 63 beatWord).scal.get 0 (bitsOf beatWord 95 91)) ≠ 7) := by
  refine ⟨ready_of ?_, fits_of ?_, ?_⟩ <;> decide +kernel

def loopWord (trip : Nat) : BitVec 128 := word 0x60 [(91, 7), (65, 4), (41, trip), (17, 9), (1, 2)]
def brWord (form off : Nat) : BitVec 128 := word 0x61 [(92, form), (89, 3), (80, 4), (50, off)]
def jumpWord : BitVec 128 := word 0x61 [(50, 299)]
def takenWord : BitVec 128 := word 0x61 [(92, 2), (89, 3), (85, 1), (80, 4), (50, 7)]
def retWord : BitVec 128 := word 0x61 [(92, 3)]
def retState : State := runsWith [] { fetched := [(0, retWord)], ret := some (6, 1), loops := [{ aLoop with suspended := true }] }
def offWords : List (BitVec 128) :=
  [word 0x33 [(115, 1), (88, 7), (0, 5)], word 0x52 [(115, 1)], word 0x53 [(115, 1)], word 0x55 [(115, 1), (92, 15)], word 0x61 [(115, 1)]]
def offLoop : BitVec 128 := word 0x60 [(115, 1), (91, 7), (65, 4), (41, 9)]

/-- Everything but the predicate of readyB, the predicate off. -/
def offB (s : State) (c : Nat) (w : BitVec 128) (op : Nat) : Bool :=
  s.regsWf && s.canDecode c w && decide ((s.cl c).hold = none) && decide (bitsOf w 127 120 = op) && decide (s.decodeCheck c w = none) &&
    !(s.capture_ c w).pred && s.headerOk c (bitsOf w 111 104)

theorem witness_controlFlow : Ready (runs (loopWord 5)) 63 (loopWord 5) 0x60 ∧ signalFits (runs (loopWord 5)) 63 (loopWord 5) ∧
    (bitsOf (loopWord 5) 84 65 ≠ 0 ∧ ((runs (loopWord 5)).cl 63).loops.length < 8 ∧
    (runs (loopWord 5)).seqPc 63 + 1 + bitsOf (loopWord 5) 84 65 ≤ (runs (loopWord 5)).streamLen 63 ∧
    bitsOf (loopWord 5) 90 90 ≠ 1 ∧ bitsOf (loopWord 5) 64 41 = 5 ∧ bitsOf (loopWord 0) 64 41 = 0) ∧
    Ready (runs (loopWord 0)) 63 (loopWord 0) 0x60 ∧
    Ready (runs jumpWord) 63 jumpWord 0x61 ∧ signalFits (runs jumpWord) 63 jumpWord ∧ (((runs jumpWord).capture_ 63 jumpWord).brTaken = true ∧
    ((299 : Nat) : Int) = ((runs jumpWord).capture_ 63 jumpWord).brTarget ∧ 299 < (runs jumpWord).streamLen 63 ∧
    ((runs jumpWord).cl 63).loops = [] ∧ (runs jumpWord).inIdleBody 63 299 = false) ∧
    Ready (runs takenWord) 63 takenWord 0x61 ∧ (((runs takenWord).capture_ 63 takenWord).brTaken = true ∧
    ((7 : Nat) : Int) = ((runs takenWord).capture_ 63 takenWord).brTarget ∧ (runs takenWord).inIdleBody 63 7 = false) ∧
    Ready (runs (brWord 2 1)) 63 (brWord 2 1) 0x61 ∧ ((runs (brWord 2 1)).capture_ 63 (brWord 2 1)).brTaken = false ∧
    Ready (runs (brWord 1 0)) 63 (brWord 1 0) 0x61 ∧ ((runs (brWord 1 0)).capture_ 63 (brWord 1 0)).brTaken = false ∧
    Ready retState 63 retWord 0x61 ∧ signalFits retState 63 retWord ∧ ((retState.cl 63).ret = some (6, 1) ∧
    (retState.cl 63).loops.length = 1 ∧ ∀ l ∈ (retState.cl 63).loops, 6 ≠ l.bodyStart + l.bodyLen) ∧
    (offWords.all fun w => offB (runs w) 63 w (bitsOf w 127 120)) = true ∧ offB (runs offLoop) 63 offLoop 0x60 = true := by
  refine ⟨ready_of ?_, fits_of ?_, ?_, ready_of ?_, ready_of ?_, fits_of ?_, ?_, ready_of ?_, ?_, ready_of ?_, ?_, ready_of ?_, ?_,
    ready_of ?_, fits_of ?_, ?_, ?_, ?_⟩ <;> decide +kernel

/-! ### The vector engine, the conditioner, STEST, the movers -/

def vecJob : VecJob := { entry := entryOf vecWord, ds := [desc1 0 stage63 64, 0, 0, desc1 0 (stage63 + 0x1000) 64, 0].map (fun r => ({ raw := r } : Desc)) }
def vecState (j : VecJob) : State := State.reset.setCl 63 { vec := some j }
def condJob : CondJob :=
  { entry := entryOf condWord, src := { raw := desc1 0 stage63 64 }, row := { raw := desc2 9 1 (stage63 + 0x1000) (stage63 + 0x1800) 64 1 }
    col := { raw := 0 } }

/-- A read meets no error. -/
def readsOk (s : State) (ps : List (Nat × Nat)) : Bool := match s.readPieces ps with
  | (.ok _, _) => true
  | _ => false

theorem witness_unitPasses : vecJob.waiting = false ∧ readsOk (vecState vecJob) (vecJob.granuleReads 0) = true ∧ vecJob.granules = 1 ∧
    readsOk ((vecState vecJob).cntBy (Reg.VEC_PORT_WAIT_CNT 63) 5) (vecJob.granuleReads 0) = true ∧
    vecJob.fails < 2 ∧ (vecState vecJob).testing (unitId 4 63) = false ∧
    readsOk ((vecState { vecJob with waiting := true }).cnt (Reg.VEC_GRANULE_REEXEC_CNT 63)) (vecJob.granuleReads 0) = true ∧
    ((vecState { vecJob with waiting := true }).setUnit (unitId 4 63) { state := 2 }).testing (unitId 4 63) = true ∧
    condJob.waiting = false ∧ readsOk State.reset (condJob.src.chunkPieces 0 condJob.src.total) = true := by decide +kernel

/-- A region of T0 over every stage. -/
def keeperStage (s : State) : State :=
  (s.wr (Reg.MEM_RGN_W0 0 0) (putField (putField (putField (putField (putField 0x10000000000 Fld.MEM_RGN_W0_VALID 1) Fld.MEM_RGN_W0_RD 1)
    Fld.MEM_RGN_W0_WR 1) Fld.MEM_RGN_W0_FL 1) Fld.MEM_RGN_W0_BASE 0x10000000000)).wr (Reg.MEM_RGN_W1 0 0)
    (putField 0 Fld.MEM_RGN_W1_LIMIT 0x1FFFFFFFFFF)

def stestWord : BitVec 128 := word 0x70 [(92, 0), (80, 12), (72, 1), (56, 1)]
def stestState : State := keeperStage (runsWith [(Reg.SEQ_STATUS 63, Fld.SEQ_STATUS_TENANT, 0), (Reg.SEQ_STATUS 63, Fld.SEQ_STATUS_CTX, 2)] {
  fetched := [(0, stestWord)], desc := [(1, desc1 15 stage63 64)] })
def stestD : Desc := stestState.descOf 63 (stestState.capture_ 63 stestWord) (bitsOf stestWord 79 72)

theorem witness_stest : Ready stestState 63 stestWord 0x70 ∧ signalFits stestState 63 stestWord ∧ (stestD.valid = true ∧ stestD.fmt = 0x0F ∧
    stestD.count = 64 ∧ stestD.ndim = 0 ∧ bitsOf stestWord 95 92 ≠ 2 ∧ bitsOf stestWord 91 80 < 13 ∧
    patternOk (bitsOf stestWord 95 92) (bitsOf stestWord 71 56) = true ∧ rangesInStage 63 stestD.ranges = true ∧
    stestState.rangesOk (stestState.seqTenant 63) .wr stestD.ranges = true ∧ stestState.fld Reg.MEM_BANK_LEN Fld.MEM_BANK_LEN_LEN = 0) := by
  refine ⟨ready_of ?_, fits_of ?_, ?_⟩ <;> decide +kernel

/-- Mover 31 copies 256 bytes of cluster 63's stage to another place of it. -/
def moverRec : MovRec :=
  { src := desc1 15 stage63 256, dst := desc1 15 (stage63 + 0x1000) 256, state := 1, cluster := 63, tenant := 1, total := 256, word := movWord }
def moving (r : MovRec) : State := openStage (State.reset.setMover 31 r)
def bigRec : MovRec := { moverRec with src := desc1 15 stage63 0x11000, dst := desc1 15 (stage63 + 0x20000) 0x11000, total := 0x11000 }

theorem witness_moverCopies : (moving moverRec).regsWf = true ∧ (moving moverRec).mover 31 = some moverRec ∧
    (moving moverRec).moverRefused moverRec 256 = none ∧ (moving moverRec).moverHostDown moverRec = false ∧
    (moving bigRec).moverRefused bigRec 65536 = none ∧ (moving bigRec).mover 31 = some bigRec ∧ bitsOf movWord 103 96 = 0 ∧
    (Desc.mk moverRec.src 0).chunkPieces 0 256 = [(stage63, 256)] ∧ (Desc.mk moverRec.dst 0).chunkPieces 0 256 = [(stage63 + 0x1000, 256)] ∧
    inStage 63 stage63 256 = true ∧ inStage 63 (stage63 + 0x1000) 256 = true ∧ (moving moverRec).badStage = [] ∧
    (State.reset.setMover 31 moverRec).moverRefused moverRec 256 ≠ none := by decide +kernel

/-- A chunk is read and written without a stop, and decode of the mover's cluster is free after it. -/
def copiesOk (s : State) (r : MovRec) (n : Nat) : Bool :=
  match s.readPieces ((Desc.mk r.src 0).chunkPieces r.done n) with
  | (.ok bs, u) => match u.moverPieces r ((Desc.mk r.dst 0).chunkPieces r.done n) bs with
    | (none, v) => decide ((v.cl r.cluster).hold = none)
    | _ => false
  | _ => false

theorem witness_chunkCopies : copiesOk (moving moverRec) moverRec 256 = true ∧ 256 = min 65536 (moverRec.total - moverRec.done) := by
  decide +kernel

def asking : State := { State.reset with movReqs := [⟨moverRec, false, false⟩] }
def prefEntry : PrefEntry := { mrec := moverRec, due := true }

theorem witness_moverControl : asking.regsWf = true ∧ asking.freeMovers = List.range 32 ∧ asking.pickReq false = some ⟨moverRec, false, false⟩ ∧
    (moving { moverRec with state := 4 }).mover 31 = some { moverRec with state := 4 } ∧
    ({ State.reset with movers := (List.range 32).map (fun m => (m, moverRec)) } : State).freeMovers = [] ∧
    ((State.reset.setCl 63 { pref := [prefEntry] }).cl 63).prefReady prefEntry = true := by decide +kernel

/-! ### Transfers -/

def txHere : Tx := { cluster := 63, tenant := 1, entry := entryOf (word 0x40 [(88, 1)]), dests := [{ chip := 9 }], src := desc1 15 stage63 4096
                     total := 4096, tag := 3, tc := 1, dclu := 62 }
def sending (st : Nat) : State := openStage { State.reset with txs := [{ txHere with dests := [{ chip := 9, state := st }] }] }
def grantOf (kind len : Nat) : Packet :=
  { src := 9, tc := 2, type := 3, dclu := 63, sclu := 62, tag := 3, body := leBytes 1 kind ++ leBytes 7 0 ++ leBytes 8 len }
def unreachOf (reason : Nat) : Packet :=
  { tc := 2, type := 9, dclu := 63, sclu := 62, tag := 3, body := leBytes 2 9 ++ leBytes 1 0 ++ leBytes 1 reason ++ leBytes 4 0 ++ leBytes 8 0 }

theorem witness_sender : (sending 0).regsWf = true ∧ leNat ((grantOf 1 4096).body.take 1) = 1 ∧
    (sending 0).txFor 63 9 62 3 [0] = some txHere ∧ leNat (((grantOf 1 4096).body.drop 8).take 5) = 4096 ∧
    leNat (((grantOf 1 64).body.drop 8).take 5) ≠ 4096 ∧ State.reset.txFor 63 9 62 3 [0] = none ∧
    leNat ((grantOf 2 64).body.take 1) ≠ 1 ∧ ((sending 1).txs[0]?).isSome = true ∧ chunkLen 4096 0 ≠ 0 ∧
    (∀ r ∈ (Desc.mk txHere.src 0).chunkRanges 0 4096, (sending 1).regionOk 1 r.1 r.2 .rd = true) ∧
    readsOk (sending 1) ((Desc.mk txHere.src 0).chunkPieces 0 4096) = true ∧
    leNat ((grantOf 4 0).body.take 1) = 4 ∧ ((sending 1).txFor 63 9 62 3 [1]).isSome = true ∧
    leNat (((unreachOf 0).body.drop 3).take 1) = 0 ∧ leNat ((unreachOf 0).body.take 2) = 9 ∧
    leNat (((unreachOf 0).body.drop 8).take 4) ∉ ([] : List Nat) ∧ leNat (((unreachOf 2).body.drop 3).take 1) = 2 := by decide +kernel

def rxHere : Rx := { cluster := 63, tenant := 1, entry := entryOf (word 0x41 [(88, 1)]), src := 9, sclu := 62, dst := desc1 15 stage63 256, total := 256
                     tag := 3 }
def receiving (x : Rx) : State := openStage { State.reset with rxs := [x] }
def dataOf (off n : Nat) : Packet :=
  { src := 9, tc := 1, type := 0, dclu := 63, sclu := 62, tag := 3, offset := off, body := List.replicate n 7 }
def signalOf : Packet := { src := 9, tc := 2, type := 4, dclu := 63, sclu := 62, body := leBytes 4 255 ++ leBytes 4 5 }

theorem witness_receiver : (receiving rxHere).regsWf = true ∧ (dataOf 0 64).malformed = false ∧ (dataOf 0 256).malformed = false ∧
    (receiving rxHere).rxFor 63 9 62 3 = some rxHere ∧ (∀ r ∈ (Desc.mk rxHere.dst 0).chunkRanges 0 (chunkLen 256 0),
      (receiving rxHere).regionOk 1 r.1 r.2 .fl = true) ∧
    (Desc.mk rxHere.dst 0).chunkPieces 0 64 = [(stage63, 64)] ∧ (Desc.mk rxHere.dst 0).chunkPieces 0 256 = [(stage63, 256)] ∧
    inStage 63 stage63 256 = true ∧ inStage 63 stage63 64 = true ∧ (receiving rxHere).fld Reg.MEM_BANK_LEN Fld.MEM_BANK_LEN_LEN = 0 ∧
    (0, 0) ∈ ({ rxHere with got := [(0, 0)] } : Rx).got ∧ leNat ((grantOf 3 0).body.take 1) = 3 ∧
    (receiving { rxHere with creg := stage63 + 0x2000 }).rxFor 63 9 62 3 = some { rxHere with creg := stage63 + 0x2000 } ∧
    inStage 63 (stage63 + 0x2000) 8 = true ∧ signalOf.malformed = false ∧ leNat (signalOf.body.take 1) = 255 ∧
    leNat ((signalOf.body.drop 4).take 3) = 5 ∧ State.reset.ctxState 1 63 = 0 ∧ State.reset.seqState 63 = 0 ∧
    (State.reset.cl 63).hold = none ∧ State.reset.tok 63 255 + 5 < 2 ^ 24 ∧
    State.reset.fld (Reg.SEQ_TOKEN 63 255) Fld.SEQ_TOKEN_FWD = 0 ∧ (State.reset.setCtx 1 63 3).ctxState 1 63 = 3 := by decide +kernel
/-! ### Collectives -/

/-- A torus of two chips along X; this is chip 0. -/
def pairOfChips : State := State.reset.flds [(Reg.IDM_BOARD0, Fld.IDM_BOARD0_DX, 2), (Reg.IDM_BOARD0, Fld.IDM_BOARD0_DY, 1),
  (Reg.IDM_BOARD0, Fld.IDM_BOARD0_DZ, 1)]

/-- A sum of 64 elements over both chips, one stream, one shard of a block each. -/
def aColl : Coll :=
  { entry := entryOf (word 0x42 [(88, 1), (80, 2)]), op := 2, n := 5
    plan := { id := 3, ops := 4, axes := 1, issuer := 63, streams := 1, slots := 4, total := 64, scaleTab := 0x100000, land := 0x200000
              hold := 0x300000, counts := [32, 32] }
    src := desc1 0 0x10000 64, dst := desc1 0 0x20000 64, stats := 0, staten := false, creg := 0, atIssue := [127, 127], uses := 0
    running := true, members := [0, 1], codes := [127, 127] }
def collState (c : Coll) : State := (openRegion pairOfChips).setColl 0 c

/-- A packet of the engine from chip 1. -/
def collPkt (type offset chunk : Nat) (body : List Byte) : Packet :=
  { src := 1, tc := if type = 3 then 2 else 1, type := type, dclu := 63, sclu := 63, tag := 5, chunk := chunk + 2 ^ 18 + 3 * 2 ^ 24
    offset := offset, body := body }
def creditPkt : Packet := collPkt 3 0 0 (leBytes 1 2 ++ leBytes 1 0 ++ leBytes 2 0 ++ leBytes 4 4 ++ leBytes 8 0)
def ctlPkt (kind fenced attempt : Nat) : Packet := collPkt 1 0xFF00 0 (leBytes 1 kind ++ leBytes 1 0 ++ leBytes 2 fenced ++ leBytes 4 attempt ++ leBytes 8 0)
def partPkt : Packet := collPkt 1 0 0 (List.replicate 192 0)
def trailPkt : Packet := collPkt 1 0xC000 0 (List.replicate 64 0)
def heldChunk : CHold := CHold.mk 0 0 192 true 0 [1] []

theorem witness_collPackets : (collState aColl).collFor creditPkt = some (0, aColl) ∧ aColl.age creditPkt = 1 ∧
    leNat (creditPkt.body.take 1) = 2 ∧ State.reset.collFor creditPkt = none ∧ State.reset.collPast creditPkt = false ∧
    aColl.age { partPkt with chunk := 3 * 2 ^ 24 } = 0 ∧ partPkt.malformed = false ∧ (collState aColl).collFor partPkt = some (0, aColl) ∧
    (((collState aColl).recvs aColl 0 1).zipIdx.find? (fun e => e.1.1 == 0)).isSome = true ∧ aColl.age partPkt = 1 ∧
    aColl.slotAt aColl.plan.land 0 0 = 0x200000 ∧ (collState aColl).regionOk 1 0x200000 65536 .fl = true ∧
    leNat (((ctlPkt 1 0 0).body.drop 4).take 4) = aColl.attempt ∧ leNat (((ctlPkt 2 1 1).body.drop 4).take 4) = 1 ∧
    (collState aColl).fencedIn aColl < max (leNat (((ctlPkt 2 1 1).body.drop 2).take 2)) aColl.wait ∧ aColl.age (ctlPkt 3 0 0) = 1 := by
  decide +kernel

theorem witness_collLands : plainHbm (collState aColl) (0x200000 + partPkt.offset) partPkt.body.length ∧
    plainHbm (collState aColl) (0x200000 + trailPkt.offset) trailPkt.body.length ∧
    ((collState aColl).recvs aColl 0 1).map (fun e => ((collState aColl).itemBytes aColl e.2, e.2.kind)) = [(192, 2), (128, 3), (17, 4)] := by
  unfold plainHbm; decide +kernel

def credited : Coll := { aColl with limit := [(1, 4)] }
def landedColl : Coll := { aColl with counted := [(0, 1, 0)], parts := [CPart.mk 2 0 0 (List.replicate 32 0) 0 0] }

theorem witness_collEngine : (collState credited).coll 0 = some credited ∧
    (((collState credited).sends credited 0 0)[0]?).map (fun x => (x.kind, x.dests, x.first)) = some (2, [1], true) ∧
    0 < credited.limit.get 0 (ckey 0 1) ∧ credited.holdFree 0 0 = true ∧
    (match (collState credited).chunkBody credited { kind := 2, stage := 0, shard := 1, chunk := 0, dests := [1], first := true, final := true } with
      | some (.ok r) => r.1.length == 192 && (r.2.2.2.badRange .rd r.2.2.1.srcDesc.ranges).isNone && r.2.2.2.early.isEmpty
      | _ => false) = true ∧
    ({ aColl with hold := [{ heldChunk with again := [1] }] } : Coll).hold.find? (fun (h : CHold) => h.stream == 0 && !h.again.isEmpty) =
      some { heldChunk with again := [1] } ∧
    readsOk (collState aColl) [(0x300000, 192)] = true ∧
    (collState landedColl).upstream landedColl 0 = [1] ∧
    (((collState landedColl).recvs landedColl 0 1)[0]?).map (fun e => (e.1, e.2.kind, e.2.shard, e.2.chunk)) = some (0, 2, 0, 0) ∧
    (landedColl.part 2 0 0).map (·.level) = some ((collState landedColl).levelAt landedColl 0) ∧
    readsOk (collState landedColl) [(0x200000, 0xC040)] = true ∧
    aColl.ready = false ∧ (collState aColl).reduceOver aColl = false := by decide +kernel

/-! ### Routing and fences -/

/-- A torus of 4 × 4 × 2 with ports 0 (XP A) and 4 (YP A) ACTIVE; the packets given wait for route selection. -/
def torus (l : List RPkt) : State :=
  { (State.reset.flds [(Reg.IDM_BOARD0, Fld.IDM_BOARD0_DX, 4), (Reg.IDM_BOARD0, Fld.IDM_BOARD0_DY, 4), (Reg.IDM_BOARD0, Fld.IDM_BOARD0_DZ, 2),
      (Reg.IDM_BOARD0, Fld.IDM_BOARD0_TWIN, 5), (Reg.PRT_STATUS 0, Fld.PRT_STATUS_STATE, 5), (Reg.PRT_STATUS 4, Fld.PRT_STATUS_STATE, 5),
      (Reg.PRT_PEER 0, Fld.PRT_PEER_CHIP, 1), (Reg.PRT_PEER 4, Fld.PRT_PEER_CHIP, 32)]) with rt := { rin := l } }
def unicast (dst tc type : Nat) : RPkt := { p := { dst := dst, src := 2, tc := tc, type := type, body := List.replicate 64 1 } }
def multicast (m : BitVec 96) : RPkt := { p := { src := 2, tc := 1, type := 0, mc := true, mask := m }, inPort := 0, chan := 2 }

theorem witness_routing : (unicast 1 2 0).p.malformed = true ∧ (unicast 1 1 0).p.malformed = false ∧
    ((torus [unicast 1 1 0]).setFence 1 true).fenced 1 = true ∧ (torus []).fenced 1 = false ∧ (torus []).fenced 0 = false ∧
    (∀ a, a < 3 → (torus []).productive (torus []).chip 0 a = []) ∧ (torus []).productive (torus []).chip 1 0 = [0] ∧
    (torus []).fld Reg.FAB_CTL Fld.FAB_CTL_ADAPT_EN = 1 ∧ (unicast 33 1 0).chan = 16 ∧
    ([0, 1, 2].flatMap ((torus []).productive (torus []).chip 33)).flatMap (torus []).cands = [0, 4] ∧
    ((torus []).rt.pick ([0, 4].filter (fun p => decide ((unicast 33 1 0).p.flits ≤ (torus []).rt.creditLeft p 1 0)
      || decide ((unicast 33 1 0).p.flits ≤ (torus []).rt.creditLeft p 1 1)))) = some 0 ∧
    (torus []).orderDir (torus []).chip 33 [2, 1, 0] = some 2 ∧
    (torus []).orderPort { unicast 33 1 0 with p := { (unicast 33 1 0).p with plane := 2 } } 2 = some 4 := by decide +kernel

theorem witness_router : (torus []).mcBranches (multicast (maskOf 1 1 1)) = [] ∧ (torus []).mcLocal (multicast (maskOf 1 1 1)) = true ∧
    (torus []).mcBranches { multicast (maskOf 2 1 1) with inPort := 12, chan := 16 } = [(0, maskOf 2 1 1)] ∧
    (torus []).mcLocal { multicast (maskOf 2 1 1) with inPort := 12 } = false ∧ (torus []).cands 0 = [0] ∧
    (((torus []).boxChips (maskOf 2 1 1)).filter (fun n => !(torus []).fenced n && n != 2)) = [1] ∧
    (multicast (maskOf 1 1 1)).p.malformed = false ∧ (torus []).linkState 2 = 0 ∧ (torus []).linkState 0 = 5 ∧
    256 < ([({ id := 0, tc := 1, flits := 256, left := 1 } : McEntry)].filter (fun (e : McEntry) => e.tc == 1)).foldl
      (fun a (e : McEntry) => a + e.flits) 0 + (multicast 0).p.flits ∧
    ([(0 * 256 + 255, 7)] : Tab Nat).filter (fun e => e.1 / 256 == 0) = [(0 * 256 + 255, 7)] := by decide +kernel

def fenceBody (n epoch : Nat) : Packet := { tc := 2, type := 6, src := 9, body := leBytes 2 n ++ leBytes 2 0 ++ leBytes 4 epoch ++ leBytes 2 9 ++ leBytes 6 0 }

theorem witness_fences : (torus []).fenced 24575 = false ∧ (torus []).chip = 0 ∧ (torus []).twin = 5 ∧ (torus []).push = none ∧
    (torus []).fill = none ∧ (torus []).images = [] ∧ (torus []).colls = [] ∧ leNat ((fenceBody 24575 3).body.take 2) = 24575 ∧
    (fenceBody 24575 3).malformed = false ∧ (torus []).peerEpoch.get 0 24575 ≤ leNat (((fenceBody 24575 3).body.drop 4).take 4) ∧
    leNat (((fenceBody 24575 3).body.drop 4).take 4) < ({ torus [] with peerEpoch := [(24575, 4)] } : State).peerEpoch.get 0 24575 ∧
    ((torus []).setFence 24575 true).fenced 24575 = true ∧ (24575 : BitVec 15).toNat < 24576 := by decide +kernel

/-- A unit-state record of chip 1, epoch 7, state 0. -/
def recordBytes : List Byte :=
  let b := leBytes 4 7 ++ leBytes 2 1 ++ List.replicate 54 0
  b ++ leBytes 4 (crc32c b).toNat
def recordPkt : Packet := { src := 1, tc := 2, type := 8, body := recordBytes }

theorem witness_records : recordPkt.malformed = false ∧ recordPkt.body.length = 64 ∧
    leNat (recordPkt.body.drop 60) = (crc32c (recordPkt.body.take 60)).toNat ∧ leNat ((recordPkt.body.drop 6).take 1) ≠ 5 ∧
    (torus []).isPeer 1 = true ∧ leNat (((torus []).peerRec.get [] 1).take 4) ≤ leNat (recordPkt.body.take 4) ∧
    leNat (List.drop 60 (leBytes 64 1)) ≠ (crc32c ((leBytes 64 1).take 60)).toNat ∧
    State.reset.fld Reg.GLB_UNIT_EPOCH Fld.GLB_UNIT_EPOCH_EPOCH < (9 : BitVec 32).toNat ∧ detourAllowed 0 2 1 = true ∧
    detourAllowed 5 2 1 = false ∧ detourAllowed 0 2 3 = false := by decide +kernel

/-! ### Links -/

/-- Port 11 in link state `st` with the record and fields given. -/
def port11 (st : Nat) (l : Link) (fs : List (Nat × Field × Nat)) : State :=
  ((torus []).flds ([(Reg.PRT_STATUS 11, Fld.PRT_STATUS_STATE, st), (Reg.PRT_LANES 11, Fld.PRT_LANES_TX_ACTIVE, 0x3FF),
    (Reg.PRT_LANES 11, Fld.PRT_LANES_RX_ACTIVE, 0x3FF), (Reg.PRT_STATUS 11, Fld.PRT_STATUS_TX_SPARE, 1),
    (Reg.PRT_STATUS 11, Fld.PRT_STATUS_RX_SPARE, 1)] ++ fs)).setLink 11 l
def optics : Cmis := ⟨true, true, 5, 3, 500, 0xAE, true⟩
def capsIn : CapsRec := CapsRec.mk (1, 0) (1, 3) (2 * (5 ^^^ 1) + 1) 1024 (4, 4, 2) 0x7FF

theorem witness_training : (port11 0 { module := true } []).portEn 11 = false ∧ (port11 0 { module := true } []).portsBarred = false ∧
    (port11 0 { module := true } []).bootDead = false ∧
    ((port11 0 { module := true } []).writeCodes (Reg.PRT_CTL 11) ((1 : BitVec 32).setWidth 64)).portEn 11 = true ∧
    (port11 0 {} [(Reg.PRT_CTL 11, Fld.PRT_CTL_EN, 1)]).portEn 11 = true ∧ (port11 1 {} []).linkState 11 = 1 ∧
    1 < (port11 1 {} []).dim ((port11 1 {} []).role (11 / 2) / 2) ∧ presetOf optics = some (8, 2) ∧
    optics.label.toNat = 0xA0 + 11 % 2 * 8 + (port11 1 {} []).role (11 / 2) % 2 * 4 + (port11 1 {} []).role (11 / 2) / 2 ∧
    (port11 1 {} []).role (11 / 2) < 6 ∧ ((port11 1 {} []).setFld Reg.IDM_BOARD0 Fld.IDM_BOARD0_DZ 1).dim 2 ≤ 1 ∧
    (port11 2 {} []).rxRetired 11 = [] ∧ (port11 2 {} []).txRetired 11 = [] ∧ 0 < (port11 2 {} []).minLanes 11 ∧
    (port11 3 {} []).rxLanes 11 = List.range 10 ∧ (port11 3 {} []).txLanes 11 = List.range 10 ∧
    ({ port11 3 {} [] with boardRead := true } : State).boardRead = true ∧ (port11 3 {} []).dim 2 = 2 ∧
    capsIn.chip = (port11 4 {} []).neighbour (port11 4 {} []).chip ((port11 4 {} []).role (11 / 2)) ∧
    capsIn.dims = ((port11 4 {} []).dim 0, (port11 4 {} []).dim 1, (port11 4 {} []).dim 2) ∧
    capsIn.role = 2 * ((port11 4 {} []).role (11 / 2) ^^^ 1) + 11 % 2 ∧
    (∀ d, d < 6 → d ∈ mapRoles ((0o543210 : BitVec 32).toNat % 2 ^ 18)) ∧ (1 : Nat) ∉ mapRoles ((0 : BitVec 32).toNat % 2 ^ 18) ∧
    (∀ p, p < 12 → State.reset.portEn p = false ∧ State.reset.linkState p = 0) := by decide +kernel

def aFlit : Flit := { seq := 0, ack := 0, ackv := false, tc := 1, ch := 2, hdr := some ({ tc := 1, type := 0 }, 3), bytes := [1, 2, 3] }
def outPkt : RPkt := { p := { dst := 1024, tc := 2, type := 4, body := List.replicate 8 0 }, outChan := 2 }

theorem witness_flits : (port11 5 {} []).linkState 11 = 5 ∧ aFlit.seq = ((port11 5 {} []).link 11).last + 1 ∧
    aFlit.hdr = some ({ tc := 1, type := 0 }, aFlit.bytes.length) ∧
    { aFlit with seq := 0xFFFF }.seq = ((port11 5 { heard := true } []).link 11).last ∧ aFlit.crc ≠ 0 ∧
    ((port11 5 { buf := [(aFlit, false)] } []).link 11).buf = [(aFlit, false)] ∧ ((port11 5 {} []).link 11).replay = none := by decide +kernel

def sendingPort : State := { port11 5 {} [] with rt := { rout := [(11, [outPkt])] } }

theorem witness_slotSends : sendingPort.linkState 11 = 5 ∧ (sendingPort.link 11).replay = none ∧
    (∀ n, ({ sendingPort with rt := { sendingPort.rt with tc4 := n } } : State).pickClass 11 = some (2, 2, outPkt, {})) ∧
    (port11 5 {} []).rt.queue 11 = [] := by
  refine ⟨?_, ?_, fun n => ?_, ?_⟩
  · decide +kernel
  · decide +kernel
  · have h : ({ sendingPort with rt := { sendingPort.rt with tc4 := n } } : State).pickChan 11 2 = some (2, outPkt) := by
      rw [State.pickChan, if_neg (fun h => absurd h.1 (by decide))]; rfl
    rw [State.pickClass, h]; rfl
  · decide +kernel

def switching (done : Bool) : Link := { txSwitch := some (Switch.mk 9 10 (some 5000) done), rxSwitch := some (Switch.mk 9 10 none false) }

theorem witness_management : (∀ n ∈ [({ num := 0, msg := .spareAck } : LinkNote)], n.sent < 64) ∧ (port11 5 {} []).spareLane 11 true = some 10 ∧
    (port11 5 {} []).spareLane 11 false = some 10 ∧ (9 : Fin 11).val ∈ (port11 5 {} []).txLanes 11 ∧ (9 : Fin 11).val ∈ (port11 5 {} []).rxLanes 11 ∧
    (9 : Fin 11).val ∉ (port11 5 {} []).rxRetired 11 ∧ ((port11 5 (switching false) []).link 11).rxSwitch = some (Switch.mk 9 10 none false) ∧
    ((port11 5 (switching true) []).link 11).txSwitch = some (Switch.mk 9 10 (some 5000) true) ∧ 10 ∉ (port11 5 {} []).txLanes 11 ∧
    (port11 6 { aligned := true, capsOk := true, acked := true, measured := true } []).linkState 11 = 6 := by decide +kernel


/-! ### Pre-emption, tenants and stacks -/

/-- Context storage of T1 at 0x100000, slots of 0x10000 bytes, cluster 63 in the mask. -/
def ctxFields : List (Nat × Field × Nat) :=
  [(Reg.MOV_CTX_BASE 1, Fld.MOV_CTX_BASE_BASE, 0x100000), (Reg.MOV_CTX_SLOT 1, Fld.MOV_CTX_SLOT_SLOT, 0x10000)]
def only63 (s : State) : State := s.wr Reg.MOV_PREEMPT_MASK (1#64 <<< 63)

/-- The stream of cluster 63 with the fields and the record given, T1's context storage set up. -/
def preState (fs : List (Nat × Field × Nat)) (k : Cluster) : State := only63 (runsWith (ctxFields ++ fs) k)
def yieldEntry : QEntry := { word := word 0x07 [], pc := 7, pred := true, slot := 5, scal := [] }
def yielding : Cluster := { requested := true, reqTenant := 1, hold := some ⟨.yield, yieldEntry, 0⟩ }
def ctxIn (n : Nat) (fs : List (Nat × Field × Nat)) (k : Cluster) : State :=
  preState ((Reg.MOV_CTX_STATUS 1 63, Fld.MOV_CTX_STATUS_STATE, n) :: fs) k

theorem witness_preemptRequests : (preState [] {}).preemptMask = [(63 : Fin 64).val] ∧ (preState [] {}).ctxRegionOk (1 : Fin 4) = true ∧
    (preState [] {}).requestOk (1 : Fin 4) (63 : Fin 64) = true ∧ (preState [] {}).requestOk (2 : Fin 4) (63 : Fin 64) = false ∧
    (preState [] {}).ctxRegionOk (2 : Fin 4) = false ∧ (preState [] yielding).captureReady 63 = true ∧
    ((preState [] yielding).cl 63).reqTenant < 4 ∧ (∀ e ∈ (preState [] yielding).movers, e.2.cluster ≠ 63) ∧
    (preState [] yielding).movReqs = [] ∧ (preState [] {}).captureReady 63 = false := by decide +kernel

theorem witness_preemptStates : (ctxIn 4 [] { before := 2 }).preemptMask = [(63 : Fin 64).val] ∧
    (ctxIn 4 [] { before := 2 }).ctxState (1 : Fin 4) (63 : Fin 64) = 4 ∧ (ctxIn 4 [] { before := 2 }).preemptBarred (1 : Fin 4) = false ∧
    ((ctxIn 4 [] { before := 2 }).cl 63).before = 2 ∧ ((ctxIn 4 [] { before := 2 }).cl 63).hold = none ∧
    ((ctxIn 4 [] { before := 2 }).cl 63).heldRecs = [] ∧ (ctxIn 2 [] {}).ctxState (1 : Fin 4) (63 : Fin 64) = 2 ∧ (ctxIn 2 [] {}).slice = none ∧
    (ctxIn 3 [(Reg.SEQ_STATUS 63, Fld.SEQ_STATUS_STATE, 0)] {}).ctxState (1 : Fin 4) (63 : Fin 64) = 3 ∧
    (ctxIn 3 [(Reg.SEQ_STATUS 63, Fld.SEQ_STATUS_STATE, 0)] {}).seqState (63 : Fin 64) = 0 ∧
    (ctxIn 3 [(Reg.SEQ_STATUS 63, Fld.SEQ_STATUS_STATE, 0)] {}).ctxRegionOk (1 : Fin 4) = true ∧
    (ctxIn 3 [(Reg.SEQ_STATUS 63, Fld.SEQ_STATUS_STATE, 0)] {}).preemptBarred (1 : Fin 4) = false := by decide +kernel

/-- No live ranges: the save reads no stage memory. -/
theorem witness_contextSave : (ctxIn 2 [] {}).readPieces (((ctxIn 2 [] {}).liveRanges (1 : Fin 4) (63 : Fin 64)).map
    (fun r => (stageBase (63 : Fin 64) + r.1, r.2 - r.1))) = (.ok [], ctxIn 2 [] {}) := by
  have h : (ctxIn 2 [] {}).liveRanges (1 : Fin 4) (63 : Fin 64) = [] := by decide +kernel
  rw [h]; rfl

theorem witness_tenants : (runs 0).fld (Reg.MOV_TEN_CTL 1) Fld.MOV_TEN_CTL_EN = 0 ∧
    (runsWith [(Reg.MOV_TEN_CTL 1, Fld.MOV_TEN_CTL_EN, 1)] {}).fld (Reg.MOV_TEN_CTL (1 : Fin 4)) Fld.MOV_TEN_CTL_EN = 1 ∧
    getField 0 Fld.MOV_TEN_CTL_EN = 0 ∧ (runsWith [(Reg.MOV_TEN_CTL 1, Fld.MOV_TEN_CTL_EN, 1)] {}).holdsAny (1 : Fin 4) = true ∧
    getField (putField 0 Fld.MOV_TEN_CTL_EN 1) Fld.MOV_TEN_CTL_PATH = (runs 0).fld (Reg.MOV_TEN_CTL (1 : Fin 4)) Fld.MOV_TEN_CTL_PATH ∧
    getField (putField 0 Fld.MOV_TEN_CTL_EN 1) Fld.MOV_TEN_CTL_EN = 1 ∧ (∀ c, c < 64 → (runs 0).ctxState (1 : Fin 4) c = 0) ∧
    (ctxIn 3 [] {}).ctxState (1 : Fin 4) 63 = 3 ∧
    (runsSlot5 0).slotInUse ((runsSlot5 0).slotOwner (5 : Fin 16)) (5 : Fin 16) = true ∧
    State.reset.slotInUse (State.reset.slotOwner (5 : Fin 16)) (5 : Fin 16) = false ∧
    State.reset.slotInUse (getField (putField 0 Fld.STK_SLOT_OWNER 2) Fld.STK_SLOT_OWNER) (5 : Fin 16) = false ∧
    getField (putField 0 Fld.STK_SLOT_OWNER 2) Fld.STK_SLOT_OWNER ≠ State.reset.slotOwner (5 : Fin 16) ∧
    (∀ c, c < 64 → State.reset.seqState c ≠ 1) ∧ (runsSlot5 0).seqState 63 = 1 ∧
    (runsSlot5 0).seqTenant 63 = (runsSlot5 0).slotOwner (5 : Fin 16) ∧ (runsSlot5 0).seqSlot 63 = (5 : Fin 16).val ∧
    (∀ c, c < 64 → State.reset.stkTop (5 : Fin 16) c = 0) ∧ getField 0 Fld.STK_BASE_BASE % 4096 = 0 ∧
    (runsWith [(Reg.STK_TOP 5 63, Fld.STK_TOP_TOP, 64)] {}).stkTop (5 : Fin 16) 63 ≠ 0 := by decide +kernel

/-- A header of tenant `t` on cluster 63 for an empty body with the CRC given, in slot A. -/
def slotHeader (t crc : Nat) : List Byte :=
  leBytes 4 0x5843544B ++ leBytes 2 1 ++ leBytes 1 t ++ leBytes 1 63 ++ leBytes 16 0 ++ leBytes 8 256 ++ leBytes 8 crc ++ leBytes 1 1 ++
    List.replicate 215 0
def restoring (t crc : Nat) : State :=
  let s := runsWith [(Reg.MOV_CTX_STATUS t 63, Fld.MOV_CTX_STATUS_STATE, 5), (Reg.MOV_CTX_BASE t, Fld.MOV_CTX_BASE_BASE, 0x100000),
    (Reg.MOV_CTX_SLOT t, Fld.MOV_CTX_SLOT_SLOT, 0x10000)] {}
  let regs := (runs 0).ctxRegs 63
  { s.poke (0x100000 + 126 * 0x10000) (slotHeader t crc) with saved := [(t * 64 + 63, SavedCtx.mk { before := 2 } regs [] [])] }

/-- What the two clauses of a restore assume of its slot, with the body's CRC right or wrong. -/
def slotReads (t : Nat) (right : Bool) (s : State) : Bool :=
  match s.readMem (s.ctxSlot t 63 0) 256 with
  | (.ok hdr, u) => match ctxHeaderOf t 63 hdr with
    | some (len, crc) => u.saved.find? (fun e => e.1 == t * 64 + 63) == some (t * 64 + 63, SavedCtx.mk { before := 2 } ((runs 0).ctxRegs 63) [] []) &&
      match u.readMem (s.ctxSlot t 63 0 + 256) (len - 256) with
      | (.ok body, _) => ((crc64 body).toNat == crc) == right
      | _ => false
    | none => false
  | _ => false

theorem witness_contextRestore : (restoring 2 7).ctxState (2 : Fin 4) (63 : Fin 64) = 5 ∧ (2 : Fin 4).val ≠ 1 ∧
    (restoring 2 7).byte ((restoring 2 7).ctxSlot (2 : Fin 4) (63 : Fin 64) 0 + 0x28) = 1 ∧ slotReads 2 false (restoring 2 7) = true ∧
    (restoring 1 (crc64 []).toNat).ctxState (1 : Fin 4) (63 : Fin 64) = 5 ∧
    (restoring 1 (crc64 []).toNat).byte ((restoring 1 (crc64 []).toNat).ctxSlot (1 : Fin 4) (63 : Fin 64) 0 + 0x28) = 1 ∧
    slotReads 1 true (restoring 1 (crc64 []).toNat) = true ∧ (restoring 1 (crc64 []).toNat).heldSig = [] := by decide +kernel

/-- A POP of form DISCARD at the head of the mover port, one entry of 64 bytes on the partition. -/
def popEntry63 : QEntry := entryOf (word 0x35 [(86, 2)])
def popping : State :=
  (openRegion (runsWith [(Reg.STK_TOP 5 63, Fld.STK_TOP_TOP, 64), (Reg.STK_TOP 5 63, Fld.STK_TOP_ENTRIES, 1)] { movQ := [popEntry63] })).poke
    0 (leBytes 64 (64 * 2 ^ 64))

theorem witness_stackDiscard : (popping.cl 63).movQ = popEntry63 :: [] ∧ popEntry63.op = 0x35 ∧ popEntry63.pred = true ∧ popping.seqState 63 = 1 ∧
    (popping.stkPart popEntry63.slot 63).writing = 0 ∧ popping.headerOk 63 popEntry63.wait = true ∧ popEntry63.fld 87 86 = 2 ∧
    0 < popping.stkEntries popEntry63.slot 63 ∧ popEntry63.slot < 16 ∧ (popping.cl 63).loops = [] ∧
    (match popping.trailerAt (popping.slotOwner popEntry63.slot) 0 (popping.stkBase popEntry63.slot 63 + popping.stkTop popEntry63.slot 63) with
      | (.found _ t, _) => trailerLen t | _ => 0) = 64 := by decide +kernel

/-! ### Memory and its recovery -/

/-- W0 and W1 of a valid region of T1 in HBM, reading. -/
def goodW0 : BitVec 64 := putField (putField 0 Fld.MEM_RGN_W0_VALID 1) Fld.MEM_RGN_W0_RD 1
def withW1 (v : Nat) : State := State.reset.wr (Reg.MEM_RGN_W1 1 255) (BitVec.ofNat 64 v)
def regionAt (limit : Nat) : State := (withW1 limit).wr (Reg.MEM_RGN_W0 1 255) goodW0

theorem witness_regions : getField goodW0 Fld.MEM_RGN_W0_VALID = 1 ∧ getField 0 Fld.MEM_RGN_W0_VALID = 0 ∧
    (withW1 63).entryOk (1 : Fin 4) goodW0 ((withW1 63).rd (Reg.MEM_RGN_W1 (1 : Fin 4) (255 : Fin 256))) = true ∧
    (withW1 62).entryOk (1 : Fin 4) goodW0 ((withW1 62).rd (Reg.MEM_RGN_W1 (1 : Fin 4) (255 : Fin 256))) = false ∧
    (withW1 63).fld (Reg.MEM_RGN_W0 (1 : Fin 4) (255 : Fin 256)) Fld.MEM_RGN_W0_VALID = 0 ∧
    (regionAt 63).fld (Reg.MEM_RGN_W0 (1 : Fin 4) (255 : Fin 256)) Fld.MEM_RGN_W0_VALID = 1 ∧
    (regionAt 63).entryOk (1 : Fin 4) ((regionAt 63).rd (Reg.MEM_RGN_W0 (1 : Fin 4) (255 : Fin 256))) 127 = true ∧
    (regionAt 63).entryOk (1 : Fin 4) ((regionAt 63).rd (Reg.MEM_RGN_W0 (1 : Fin 4) (255 : Fin 256))) 126 = false ∧
    (16 : Nat) = getField ((16 : BitVec 32).setWidth 64) Fld.MEM_RSV_COUNT ∧ (regionAt 63).fld Reg.MEM_RSV Fld.MEM_RSV_LOCK = 0 ∧
    (regionAt 63).fld Reg.MEM_REMAP_STATUS Fld.MEM_REMAP_STATUS_J = 0 ∧
    (regionAt 63).regionAbove ((512 - min 16 16) * 0x60000000) = false ∧
    (regionAt (496 * 0x60000000 + 63)).regionAbove ((512 - min 16 16) * 0x60000000) = true := by decide +kernel

def held511 : State := State.reset.setFld (Reg.MEM_PC_WITHHELD (511 % 8)) (bitField (511 / 8)) 1

theorem witness_commits : State.reset.pcRetired (511 : Fin 512) = false ∧ (hbmLocate State.reset.retired (511 * 64 * 64)).1 = (511 : Fin 512).val ∧
    held511.commitOk (511 : Fin 512) = true ∧ State.reset.commitOk (511 : Fin 512) = false ∧
    State.reset.repairState (unitId 7 (511 : Fin 512)) ≠ repairWithheld ∧ ({ held511 with commitPc := some 511 } : State).commitPc = some 511 ∧
    ({ held511 with commitPc := some 511 } : State).retired.length < 64 := by decide +kernel

/-- Burst 9 fails; a T2 stream runs on cluster 3. -/
def badNine : State := { State.reset.flds [(Reg.SEQ_STATUS 3, Fld.SEQ_STATUS_STATE, 1), (Reg.SEQ_STATUS 3, Fld.SEQ_STATUS_TENANT, 2)] with codeErr := [(9, 1)] }
def journalRec : MovRec := { moverRec with src := desc1 15 stage63 16, dst := desc1 15 (stage63 + 0x1000) 16, total := 16, fp := crc64 (List.replicate 16 0) }
/-- The first word of page 1 of cluster 63's stage fails; the page has a record where `journal` says so. -/
def badPage (journal : Bool) : State :=
  { State.reset.setCl 63 (if journal then { journal := [journalRec], journalNext := 1, pageTag := [(1, 1)] } else {}) with
    badStage := [(stage63 + 0x1000) / 4] }
def heldBurst : State := held511
def sourceOk (s : State) (r : MovRec) : Bool := match s.readPieces ((Desc.mk r.src 0).chunkPieces 0 r.total) with
  | (.ok bs, u) => decide (crc64 bs = r.fp) && u.movers.isEmpty
  | _ => false

theorem witness_recovery : State.reset.burstFails (576 / 64) = false ∧ badNine.burstFails (576 / 64) = true ∧
    badNine.withheld (hbmLocate badNine.retired (576 / 64 * 64)).1 = false ∧ (∀ e ∈ badNine.movers, e.2.state ≠ 4) ∧
    (∀ e ∈ badNine.colls, e.2.det = []) ∧ badNine.fld Reg.MEM_BANK_LEN Fld.MEM_BANK_LEN_LEN = 0 ∧ badNine.mirrorState ≠ 2 ∧
    badNine.seqTenant 3 = (2 : Fin 4).val ∧ badNine.seqState 3 = 1 ∧ heldBurst.burstFails (511 * 64) = true ∧
    heldBurst.withheld (hbmLocate heldBurst.retired (511 * 64 * 64)).1 = true ∧ heldBurst.mirrorState ≠ 2 ∧
    (stage63 + 0x1000) / 4 ∉ State.reset.badStage ∧ (stage63 + 0x1000) / 4 ∈ (badPage true).badStage ∧
    inStage (63 : Fin 64) (stage63 + 0x1000) 1 = true ∧
    ((badPage true).cl (63 : Fin 64)).journalOf ((stage63 + 0x1000 - stageBase (63 : Fin 64)) / 4096) = some journalRec ∧
    sourceOk (badPage true) journalRec = true ∧
    ((badPage false).cl (63 : Fin 64)).journalOf ((stage63 + 0x1000 - stageBase (63 : Fin 64)) / 4096) = none := by decide +kernel

def hbmTest (running : Bool) : TestReq := { unit := unitId 7 511, cls := 1, tenant := 1, dpa := 0, cpos := 0, tsc := 0, running := running }
def testing511 (running : Bool) : State := { State.reset with hbmTests := [hbmTest running] }
def passed : TestResult := { fail := false, failIndex := 0, failCount := 0, failMap := 0, durationNs := 0, dieTemp := 0, railMv := 0 }
def slicing (saved : List (Nat × Nat)) : State :=
  { (State.reset.flds [(Reg.SEQ_STATUS 63, Fld.SEQ_STATUS_STATE, 1), (Reg.MOV_CTX_STATUS 1 63, Fld.MOV_CTX_STATUS_STATE, 3)]).setCl 63
    { testStream := true } with slice := some { k := 15, left := [63], saved := saved } }

theorem witness_tests : (testing511 false).testsFor (BitVec.ofNat 32 (unitId 7 511)).toNat = [hbmTest false] ∧
    (hbmTest false).unit = (BitVec.ofNat 32 (unitId 7 511)).toNat ∧ (hbmTest false).running = false ∧ (hbmTest true).running = true ∧
    (testing511 true).testsFor (BitVec.ofNat 32 (unitId 7 511)).toNat = [hbmTest true] ∧ passed.fail = false ∧
    ((testing511 true).unitOf (BitVec.ofNat 32 (unitId 7 511)).toNat).conf < 3 ∧
    ((testing511 true).unitOf (BitVec.ofNat 32 (unitId 7 511)).toNat).last = none ∧
    ((testing511 true).unitOf (BitVec.ofNat 32 (unitId 7 511)).toNat).cond = false ∧ (testing511 true).hbmTests = [hbmTest true] ∧
    (hbmTest true).unit = unitId 7 (511 : Fin 512) ∧ ({ passed with fail := true } : TestResult).fail = true ∧
    (testing511 true).pcRetired (511 : Fin 512) = false ∧ ((slicing []).slice.map (·.left)) = some [(63 : Fin 64).val] ∧
    ((slicing []).cl 63).testStream = true ∧ ((slicing [(63, 1)]).slice.map (·.saved)) = some [((63 : Fin 64).val, (1 : Fin 4).val)] ∧
    (slicing [(63, 1)]).ctxState (1 : Fin 4) 63 = 3 ∧ (slicing [(63, 1)]).preemptBarred (1 : Fin 4) = false := by decide +kernel

/-! ### Checkpoint banks and the twin -/

/-- Bank A at 0x100000 and B at 0x110000, of 64 KiB each, the mirror at 0x200000; the twin is chip 5. -/
def bankState0 (fs : List (Nat × Field × Nat)) : State :=
  (torus []).flds ([(Reg.MEM_BANK_A, Fld.MEM_BANK_A_BASE, 0x100000), (Reg.MEM_BANK_B, Fld.MEM_BANK_B_BASE, 0x110000),
    (Reg.MEM_BANK_LEN, Fld.MEM_BANK_LEN_LEN, 65536)] ++ fs)
def sealJob : SealJob := { bank := 1, step := 77, fpen := false, pos := 0x1234, slots := List.replicate 16 {} }
def sealing (j : SealJob) : State := { bankState0 [(Reg.MEM_BANK_STATE 1, Fld.MEM_BANK_STATE_STATE, 1)] with seals := [j] }
def readOkAt (s : State) (a n : Nat) : Bool := match s.readMem a n with
  | (.ok _, _) => true
  | _ => false

theorem witness_seals : (sealing sealJob).seals = [sealJob] ∧ sealJob.bank = (1 : Fin 2) ∧ sealJob.fpen = false ∧ sealJob.slots.length = 16 ∧
    (sealing sealJob).push = none ∧ (sealing sealJob).fld Reg.MEM_BANK_CTL Fld.MEM_BANK_CTL_SIGEN = 0 ∧
    (sealing sealJob).bankBase (1 : Fin 2) % 65536 = 0 ∧ (sealing sealJob).bankBase (1 : Fin 2) + 4096 ≤ (sealing sealJob).memTop ∧
    (sealing sealJob).peekNat ((sealing sealJob).bankBase (1 : Fin 2) + 0x400) 2 = 0 ∧ readOkAt (sealing sealJob) 0x110000 4096 = true ∧
    (sealing sealJob).bankBase (1 : Fin 2) = 0x110000 ∧ (bankState0 []).seals = [] ∧
    readOkAt { sealing sealJob with codeErr := [(0x110000 / 64, 1)] } 0x110000 4096 = false := by decide +kernel

/-- A push of bank B at step 77 in the state given. -/
def pushing (st : Nat) (q : Push) : State :=
  { bankState0 [(Reg.MEM_TWIN_STATUS, Fld.MEM_TWIN_STATUS_STATE, st), (Reg.MEM_BANK_STATE 1, Fld.MEM_BANK_STATE_STATE, 2),
      (Reg.MEM_BANK_STATE 1, Fld.MEM_BANK_STATE_FPEN, 1), (Reg.MEM_BANK_STATE 1, Fld.MEM_BANK_STATE_STEP, 77)] with push := some q }
def aPush : Push := { bank := 1, step := 77 }
def sentPush : Push := { bank := 1, step := 77, next := 1, unacked := [0] }
def pushPkt (kind reason value : Nat) : Packet := mirrorCtl State.reset 0 77 kind reason value
def fromTwin (kind reason value : Nat) : Packet := { pushPkt kind reason value with src := 5 }

theorem witness_pushes : aPush.bank < 2 ∧ (pushing 1 aPush).pushState = 1 ∧ (pushing 1 aPush).bankState aPush.bank = 2 ∧
    (pushing 1 aPush).bankStep aPush.bank = aPush.step ∧ (pushing 1 aPush).bankFpen aPush.bank = true ∧
    (pushing 1 { aPush with step := 76 }).bankStep aPush.bank ≠ 76 ∧ (fromTwin 2 0 0).src = (pushing 2 aPush).twin ∧
    (fromTwin 2 0 0).tag = aPush.step % 2 ^ 16 ∧ (pushing 2 aPush).pushState = 2 ∧ (pushing 2 aPush).bankLen = 65536 ∧
    (pushing 2 aPush).place ((pushing 2 aPush).bankBase aPush.bank) = .hbm ∧ sentPush.unacked.length ≤ 64 ∧
    3 ≤ (pushing 3 sentPush).pushState ∧ (0 : Nat) = leNat (((fromTwin 4 0 0).body.drop 8).take 8) ∧ sentPush.unacked = [0] ∧
    (pushing 3 sentPush).pushChunks ≤ sentPush.next ∧ (pushing 3 sentPush).fld Reg.MEM_TWIN_CTL Fld.MEM_TWIN_CTL_SIGEN = 0 ∧
    leNat (((fromTwin 5 0 0).body.drop 1).take 1) = 0 ∧ leNat (((fromTwin 5 3 0).body.drop 1).take 1) = 3 ∧
    leNat (((fromTwin 6 2 0).body.drop 1).take 1) = 2 ∧ leNat (((fromTwin 3 1 0).body.drop 1).take 1) = 1 ∧ 0 ∈ sentPush.unacked ∧
    (pushing 3 sentPush).place ((pushing 3 sentPush).bankBase 1 + seqChunk (pushing 3 sentPush).pushChunks 0 * 65536) = .hbm ∧
    (pushing 3 sentPush).fenced (pushing 3 sentPush).twin = false ∧ (pushing 4 sentPush).pushState = 4 := by decide +kernel

theorem witness_pushReads : (pushing 2 aPush).badBursts ((pushing 2 aPush).bankBase aPush.bank) 65536 = [] ∧
    (pushing 3 sentPush).badBursts ((pushing 3 sentPush).bankBase 1 + seqChunk (pushing 3 sentPush).pushChunks 0 * 65536) 65536 = [] := by
  decide +kernel

def signalling : State := (pushing 3 sentPush).flds [(Reg.MEM_TWIN_CTL, Fld.MEM_TWIN_CTL_SIGEN, 1), (Reg.MEM_TWIN_CTL, Fld.MEM_TWIN_CTL_SIGCLU, 63),
  (Reg.MEM_TWIN_CTL, Fld.MEM_TWIN_CTL_SIGTOK, 255)]

theorem witness_pushToken : signalling.fld Reg.MEM_TWIN_CTL Fld.MEM_TWIN_CTL_SIGEN = 1 ∧
    63 = signalling.fld Reg.MEM_TWIN_CTL Fld.MEM_TWIN_CTL_SIGCLU ∧ 255 = signalling.fld Reg.MEM_TWIN_CTL Fld.MEM_TWIN_CTL_SIGTOK ∧
    signalling.fld (Reg.SEQ_TOKEN 63 255) Fld.SEQ_TOKEN_FWD = 0 ∧ (signalling.cl 63).hold = none ∧ signalling.tok 63 255 + 1 < 2 ^ 24 := by
  decide +kernel

/-- The mirror at 0x200000, of `len` bytes, in state `st`, T1 holding a region over it. -/
def mirrored (st len : Nat) (f : Option Fill) : State :=
  { openRegion ((torus []).flds [(Reg.MEM_MIRROR, Fld.MEM_MIRROR_BASE, 0x200000), (Reg.MEM_MIRROR_LEN, Fld.MEM_MIRROR_LEN_LEN, len),
      (Reg.MEM_MIRROR_STATE, Fld.MEM_MIRROR_STATE_STATE, st)]) with fill := f }
def unmapped (f : Option Fill) : State := (mirrored 1 131072 f).wr (Reg.MEM_RGN_W0 1 0) 0
def beginPkt : Packet := fromTwin 1 0 131072
def aFill : Fill := { sender := 5, tag := 77, len := 131072 }
def mirrorPkt (chunk offset : Nat) (bs : List Byte) : Packet := { src := 5, tc := 3, type := 2, tag := 77, chunk := chunk, offset := offset, body := bs }
def lastFill : Fill := { aFill with got := (List.range 15).map (fun i => (1, 4096 * (i + 1))), landed := [0] }

theorem witness_mirror : (mirrored 0 131071 none).mirrorLen < leNat ((beginPkt.body.drop 8).take 8) ∧
    (unmapped none).regionOk 1 (unmapped none).mirrorBase (unmapped none).mirrorLen .fl = false ∧
    leNat ((beginPkt.body.drop 8).take 8) ≤ (mirrored 3 131072 none).mirrorLen ∧
    (mirrored 3 131072 none).regionOk 1 (mirrored 3 131072 none).mirrorBase (mirrored 3 131072 none).mirrorLen .fl = true ∧
    (mirrored 3 131072 none).mirrorState = 3 ∧ (mirrored 2 131072 none).mirrorState ≠ 3 ∧
    (mirrored 2 131072 none).regionOk 1 (mirrored 2 131072 none).mirrorBase (mirrored 2 131072 none).mirrorLen .fl = true ∧
    (mirrored 2 131072 none).burstFails ((mirrored 2 131072 none).mirrorBase / 64) = false ∧ beginPkt.src < 2 ^ 15 ∧
    (mirrorPkt 0 0 (List.replicate 64 1)).src = aFill.sender ∧ (mirrorPkt 0 0 []).tag = aFill.tag ∧ 0 < aFill.len / 65536 ∧
    (mirrored 1 131072 (some aFill)).regionOk 1 ((mirrored 1 131072 (some aFill)).mirrorBase + seqChunk (aFill.len / 65536) 0 * 65536) 65536 .fl = true ∧
    4096 ≤ seqChunk (aFill.len / 65536) 0 * 65536 + 0 ∧ (aFill.got.filter (fun g => g.1 == 0)).length < 15 ∧
    (unmapped (some aFill)).regionOk 1 ((unmapped (some aFill)).mirrorBase + seqChunk (aFill.len / 65536) 0 * 65536) 65536 .fl = false ∧
    (0 : Nat) ∈ lastFill.landed ∧ ((1, 4096 * 15) : Nat × Nat) ∈ lastFill.got ∧ 1 + 1 = lastFill.len / 65536 ∧ (1 : Nat) ∉ lastFill.landed ∧
    lastFill.landed.length = 1 ∧ ((1, 0) : Nat × Nat) ∉ lastFill.got ∧ (lastFill.got.filter (fun g => g.1 == 1)).length = 15 ∧
    lastFill.header = [] ∧ (mirrorPkt 1 0 (List.replicate 4096 0)).body.length = 4096 ∧
    (mirrored 1 131072 (some lastFill)).regionOk 1 (mirrored 1 131072 (some lastFill)).mirrorBase 65536 .fl = true ∧
    (mirrored 1 131072 (some lastFill)).badBursts (mirrored 1 131072 (some lastFill)).mirrorBase 4096 = [] ∧
    leNat (((fromTwin 6 7 0).body.drop 1).take 1) ≠ 2 := by decide +kernel

theorem witness_mirrorPlain : plainHbm (mirrored 2 131072 none) (mirrored 2 131072 none).mirrorBase 64 ∧
    plainHbm (mirrored 1 131072 (some lastFill)) (mirrored 1 131072 (some lastFill)).mirrorBase 4096 ∧
    plainHbm (mirrored 1 131072 (some aFill)) ((mirrored 1 131072 (some aFill)).mirrorBase + (seqChunk (aFill.len / 65536) 0 * 65536 + 0))
      (mirrorPkt 0 0 (List.replicate 64 1)).body.length := by
  unfold plainHbm; decide +kernel

/-- A header whose BODY_FP is `fp`: right for one value of it, wrong for every other. -/
def mirrorHeader (fp : Nat) : List Byte := List.replicate 0x30 0 ++ (leBytes 8 fp ++ List.replicate 4040 0)

theorem witness_mirrorHeader (fp : BitVec 64) : leNat (((mirrorPkt 1 0 (mirrorHeader fp.toNat)).body.drop 0x30).take 8) = fp.toNat := by
  have h : ((mirrorHeader fp.toNat).drop 0x30).take 8 = leBytes 8 fp.toNat := by
    unfold mirrorHeader
    rw [List.drop_left' (by decide), List.take_left' (by simp [leBytes])]
  have h2 := fp.isLt
  show leNat (((mirrorHeader fp.toNat).drop 0x30).take 8) = fp.toNat
  rw [h]
  simp only [leBytes, leNat, BitVec.toNat_ofNat]
  omega

/-! ### Drains, the fault barrier, the restore agent -/

/-- Descriptor 7 with the fields given, the mirror VALID over its range. -/
def draining (fs : List (Nat × Field × Nat)) : State :=
  (mirrored 2 4096 none).flds ([(Reg.MEM_DRAIN_LOCAL 7, Fld.MEM_DRAIN_LOCAL_DPA, 0x200000), (Reg.MEM_DRAIN_LEN 7, Fld.MEM_DRAIN_LEN_LEN, 4096),
    (Reg.MEM_DRAIN_REMOTE 7, ⟨0, 64⟩, 0x1234)] ++ fs)
def drainRuns (dir : Nat) : State := draining [(Reg.MEM_DRAIN_STATUS 7, Fld.MEM_DRAIN_STATUS_STATE, 1), (Reg.MEM_DRAIN_CTL 7, Fld.MEM_DRAIN_CTL_DIR, dir)]
def bankDrain : State := (bankState0 [(Reg.MEM_BANK_STATE 1, Fld.MEM_BANK_STATE_STATE, 2)]).flds
  [(Reg.MEM_DRAIN_LOCAL 7, Fld.MEM_DRAIN_LOCAL_DPA, 0x110000), (Reg.MEM_DRAIN_LEN 7, Fld.MEM_DRAIN_LEN_LEN, 65536)]

theorem witness_drains : (draining []).drainState (7 : Fin 8) ≠ 1 ∧ (4 : BitVec 64).getLsbD 2 = true ∧ (4 : BitVec 64).getLsbD 0 = false ∧
    (5 : BitVec 64).getLsbD 0 = true ∧ (draining []).drainSource (7 : Fin 8) = some 2 ∧ State.reset.drainSource (7 : Fin 8) = none ∧
    State.reset.mirrorState ≠ 3 ∧ bankDrain.drainSource (7 : Fin 8) = some 1 ∧ (drainRuns 0).drainState (7 : Fin 8) = 1 ∧
    (drainRuns 0).fld (Reg.MEM_DRAIN_CTL (7 : Fin 8)) Fld.MEM_DRAIN_CTL_DIR = 0 ∧ ((drainRuns 0).drainSource (7 : Fin 8)).isSome = true ∧
    readOkAt (drainRuns 0) ((drainRuns 0).drainLocal (7 : Fin 8)) 4096 = true ∧ 4096 = (drainRuns 1).drainLen (7 : Fin 8) ∧
    (drainRuns 1).fld (Reg.MEM_DRAIN_CTL (7 : Fin 8)) Fld.MEM_DRAIN_CTL_DIR = 1 := by decide +kernel

theorem witness_drainPlain : plainHbm (drainRuns 1) ((drainRuns 1).drainLocal (7 : Fin 8)) 4096 ∧ (List.replicate 4096 (0 : Byte)).length = 4096 := by
  unfold plainHbm; decide +kernel

def raisedBarrier (fs : List (Nat × Field × Nat)) : State := State.reset.flds ((Reg.MEM_BARRIER_STATUS, Fld.MEM_BARRIER_STATUS_STATE, 1) :: fs)
def t1On63 : List (Nat × Field × Nat) := [(Reg.SEQ_STATUS 63, Fld.SEQ_STATUS_STATE, 1), (Reg.SEQ_STATUS 63, Fld.SEQ_STATUS_TENANT, 1)]

theorem witness_barrier : (∀ e ∈ (State.reset.flds t1On63).movers, e.1 < 32) ∧ (∀ e ∈ (State.reset.flds t1On63).colls, e.1 < 16) ∧
    (State.reset.flds t1On63).colls = [] ∧ (State.reset.flds t1On63).txs = [] ∧ (State.reset.flds t1On63).resident 1 63 = true ∧
    (State.reset.flds t1On63).seqState 63 ≠ 4 ∧ (raisedBarrier t1On63).barrier = 1 ∧
    (∀ c ∈ (raisedBarrier t1On63).t1Clusters, (raisedBarrier t1On63).issuedDone c = true) ∧
    (raisedBarrier t1On63).fld (Reg.HIF_EVQ_CTL 0) Fld.HIF_EVQ_CTL_EN = 0 ∧ State.reset.barrier ≠ 1 ∧
    63 ∈ (vecState vecJob |>.flds t1On63).t1Clusters ∧ (vecState vecJob |>.flds t1On63).issuedDone 63 = false ∧ (raisedBarrier []).barrier ≠ 0 ∧
    (raisedBarrier []).t1Clusters = [] ∧ State.reset.slotOwner 0 = 1 := by decide +kernel

/-- A restore list of one entry at 0x5000. -/
def listOf (e : List Byte) : State :=
  (State.reset.flds [(Reg.MEM_RST_STATUS, Fld.MEM_RST_STATUS_STATE, 1), (Reg.MEM_RST_LIST, Fld.MEM_RST_LIST_DPA, 0x5000),
    (Reg.MEM_RST_CTL, Fld.MEM_RST_CTL_COUNT, 1)]).poke 0x5000 e
def positionEntry : List Byte := leBytes 8 2 ++ leBytes 56 0x77
def slotEntry (sl ndi pos : Nat) : List Byte :=
  leBytes 1 1 ++ leBytes 7 sl ++ leBytes 8 0x11 ++ leBytes 8 0x22 ++ leBytes 8 ndi ++ leBytes 8 pos ++ leBytes 24 0x33
def verifyEntry (fp : Nat) : List Byte := leBytes 8 3 ++ leBytes 8 0x6000 ++ leBytes 8 64 ++ leBytes 8 fp ++ leBytes 32 0

/-- The list's entry is read whole. -/
def entryReads (e : List Byte) : Bool := match (listOf e).readMem ((listOf e).fld Reg.MEM_RST_LIST Fld.MEM_RST_LIST_DPA) 64 with
  | (.ok x, _) => x == e
  | _ => false

theorem witness_restoreLists : State.reset.rstState ≠ 1 ∧ (0x10001 : BitVec 64).getLsbD 16 = true ∧ (listOf []).rstState = 1 ∧
    (State.reset.setFld Reg.MEM_RST_STATUS Fld.MEM_RST_STATUS_STATE 1).fld Reg.MEM_RST_CTL Fld.MEM_RST_CTL_COUNT = 0 ∧
    (listOf positionEntry).rstState = 1 ∧ (listOf positionEntry).fld Reg.MEM_RST_CTL Fld.MEM_RST_CTL_COUNT = 1 ∧
    leNat (leBytes 64 0) = 0 ∧ leNat (positionEntry.take 1) = 2 ∧ rstReservedOk positionEntry 2 = true ∧
    (listOf positionEntry).fld Reg.CAD_CTL Fld.CAD_CTL_EN = 0 ∧
    ((listOf positionEntry).setFld Reg.CAD_CTL Fld.CAD_CTL_EN 1).fld Reg.CAD_CTL Fld.CAD_CTL_EN = 1 ∧
    (∀ d ∈ [(7, 7), (8, 7), (7, 8), (9, 7)], leNat ((slotEntry 0 d.1 d.2).take 1) = 1 ∧ rstReservedOk (slotEntry 0 d.1 d.2) 1 = true ∧
      leNat (((slotEntry 0 d.1 d.2).drop 1).take 1) = 0 ∧ leNat (((slotEntry 0 d.1 d.2).drop 0x18).take 8) = d.1 ∧
      leNat (((slotEntry 0 d.1 d.2).drop 0x20).take 8) = d.2) ∧ (∀ c, c < 64 → (listOf (slotEntry 0 7 7)).seqState c ≠ 1) ∧
    (listOf (slotEntry 0 7 7)).slotOwner 0 = 1 ∧ ((listOf (slotEntry 15 7 7)).setFld (Reg.STK_SLOT 15) Fld.STK_SLOT_OWNER 2).slotOwner 15 ≠ 1 ∧ leNat ((verifyEntry 5).take 1) = 3 ∧
    rstReservedOk (verifyEntry 5) 3 = true ∧ 0x6000 + 64 ≤ (listOf (verifyEntry 5)).memTop ∧ readOkAt (listOf (verifyEntry 5)) 0x6000 64 = true := by
  decide +kernel

theorem witness_restoreReads : entryReads (leBytes 64 0) = true ∧ entryReads positionEntry = true ∧ entryReads (slotEntry 15 7 7) = true ∧
    entryReads (verifyEntry 5) = true := by decide +kernel

/-! ### Power -/

def railRead : AvsRead := ⟨800, 500000, 720⟩
def sampled (p : Power) : State := { State.reset with pw := p }
def steady : Power := { samples := [List.replicate 20 (⟨700, 1⟩, ⟨710, 1⟩), [], [], [], []] }

theorem witness_power : [none, none, none, none, some railRead].getD 4 none = some railRead ∧ railRead.mv < 65536 ∧
    [some railRead].getD 4 none = none ∧ State.reset.pw.nextProfile = none ∧
    State.reset.fld Reg.PWR_ACTIVE Fld.PWR_ACTIVE_CDUTY ≤ 16 ∧ (sampled { nextProfile := some 15 }).pw.nextProfile = some 15 ∧
    (∀ r, r < 5 → (State.reset.pw.samples.getD r []).length < 20) ∧ steady.gain.length = 5 ∧ steady.samples.length = 5 ∧
    steady.samples.getD 0 [] = List.replicate 20 (⟨700, 1⟩, ⟨710, 1⟩) := by decide +kernel

/-- Boards of two chips, 0 and 1, with a limit of `l` W. -/
def pooled (l : Nat) (fs : List (Nat × Field × Nat)) (p : Power) : State :=
  { State.reset.flds ([(Reg.PWR_POOL, Fld.PWR_POOL_LIMIT, l), (Reg.PWR_POOL, Fld.PWR_POOL_N, 2), (Reg.PWR_POOL_MBR 0, ⟨16, 15⟩, 1)] ++ fs) with pw := p }
def poolOn : List (Nat × Field × Nat) := [(Reg.PWR_CTL, Fld.PWR_CTL_POOL_EN, 1), (Reg.PWR_ACTIVE, Fld.PWR_ACTIVE_GRANT, 2000)]
def budgetPkt (src : Nat) : Packet := { src := src, tc := 2, type := 7, body := leBytes 2 0 ++ leBytes 2 2000 ++ leBytes 2 2100 ++ leBytes 2 2400 ++ leBytes 8 0 }
def hears : Power := { pooling := true, demand := 2300, heard := [(1, 2000, 2100, 0)] }

theorem witness_pool : (pooled 4000 [] {}).fld Reg.PWR_CTL Fld.PWR_CTL_LOCK = 0 ∧ (3 : BitVec 32).getLsbD 5 = (pooled 4000 [] {}).poolEn ∧
    (0x20 : BitVec 32).getLsbD 5 = true ∧ 2 ≤ (pooled 1800 [] {}).poolN ∧ (pooled 1800 [] {}).poolN ≤ 8 ∧
    (pooled 1800 [] {}).poolN * 900 ≤ (pooled 1800 [] {}).poolL ∧ (pooled 1800 [] {}).chip ∈ (pooled 1800 [] {}).poolMembers ∧
    (pooled 1799 [] {}).poolL < (pooled 1799 [] {}).poolN * 900 ∧ (State.reset.pw).pooling = false ∧ (pooled 4000 poolOn hears).poolEn = true ∧
    (pooled 4000 poolOn hears).pw.pooling = true ∧ (pooled 4000 poolOn hears).poolN = 2 ∧
    (pooled 4000 poolOn hears).poolMembers.filter (· ≠ (pooled 4000 poolOn hears).chip) = [1] ∧
    (pooled 4000 poolOn hears).heardFrom 1 = some (2000, 2100) ∧ (pooled 4000 poolOn { hears with heard := [] }).heardFrom 1 = none ∧
    1 ∈ (pooled 4000 poolOn hears).poolMembers ∧ 1 ≠ (pooled 4000 poolOn hears).chip ∧ (budgetPkt 1).type = 7 ∧ (budgetPkt 1).malformed = false ∧
    (budgetPkt 1).src ∈ (pooled 4000 poolOn hears).poolMembers ∧ (budgetPkt 2).src ∉ (pooled 4000 poolOn hears).poolMembers := by decide +kernel

/-- The clock with the fields and the record given. -/
def clocked (fs : List (Nat × Field × Nat)) (p : Power) : State := { State.reset.flds fs with pw := p }
def pendingAt (k : Nat) (p : Power) : State := clocked [(Reg.PWR_FREQ, Fld.PWR_FREQ_TARGET, k), (Reg.PWR_FREQ, Fld.PWR_FREQ_CURRENT, 25),
  (Reg.PWR_FREQ, Fld.PWR_FREQ_PENDING, 1)] p
def drooping (p : Power) : State := clocked [(Reg.PWR_FREQ, Fld.PWR_FREQ_STRETCH, 1)] p
def hot (i deg : Nat) (p : Power) : State := clocked [(Reg.THM_TEMP i, Fld.THM_TEMP_TEMP, deg * 16)] p

theorem witness_droop : State.reset.stretched = false ∧ State.reset.pw.inForce = [] ∧ (drooping { tripped := [63] }).stretched = true ∧
    (drooping { inForce := [8] }).pw.tripped = [] ∧ (drooping { inForce := [8] }).pw.inForce = [8] ∧ (drooping { tripped := [63] }).pw.tripped ≠ [] ∧
    26 = (pendingAt 26 {}).fld Reg.PWR_FREQ Fld.PWR_FREQ_TARGET ∧ (pendingAt 26 {}).fld Reg.PWR_FREQ Fld.PWR_FREQ_PENDING = 1 ∧
    (pendingAt 26 {}).stretched = false ∧ ((pendingAt 26 {}).flevel < 26 → 26 ≤ (pendingAt 26 {}).pw.voltage) ∧ (pendingAt 26 {}).flevel < 26 ∧
    (pendingAt 26 { voltage := 25 }).pw.voltage < 26 ∧ (pendingAt 0 {}).fld Reg.PWR_FREQ Fld.PWR_FREQ_TARGET < (pendingAt 0 {}).flevel ∧
    State.reset.fld Reg.PWR_FREQ Fld.PWR_FREQ_PENDING = 0 := by decide +kernel

theorem witness_heat : (16 * ((min 115 (State.reset.fld Reg.THM_LIMITS Fld.THM_LIMITS_DIE_TRIP) : Nat) : Int) ≤ (1840 : BitVec 16).toInt) ∧
    (sampled { fails := [(89, 1)] }).pw.fails.get 0 (89 : Fin 103) ≠ 2 ∧ (sampled { fails := [(89, 2)] }).pw.fails.get 0 (89 : Fin 103) = 2 ∧
    (hot 89 100 {}).dieHot = true ∧ (hot 97 92 {}).hbmHot = true ∧ (hot 97 89 {}).dieHot = false ∧ (hot 97 89 {}).hbmHot = false ∧
    (List.range 98).all (fun i => match (hot 97 89 {}).classLimit i with | some l => decide ((hot 97 89 {}).temp i ≤ l - 48) | none => true) = true ∧
    (hot 97 89 { cool := 9 }).pw.cool = 9 ∧ (hot 97 90 {}).classLimit 97 = some (92 * 16) ∧ (92 * 16 : Int) - 48 < (hot 97 90 {}).temp 97 ∧
    (hot 97 90 {}).hbmHot = false ∧ (hot 97 90 {}).dieHot = false := by decide +kernel

/-! The worked example of spec/13: profile 3 with a cap of 1,700 W, fixed 470 W. -/

theorem test_divide : divide (orderOf 0) [fracN 300, fracN 100, fracN 150] [fracN 980, fracN 280, fracN 190] (fracN 1230) =
    [(2, fracN 190), (1, fracN 280), (0, fracN 760)] := by decide +kernel

/-- Levels 18, 19 and 26 with the voltages of the example. -/
def vfTable : State := State.reset.flds [(Reg.PWR_VF 18, Fld.PWR_VF_MV, 738), (Reg.PWR_VF 19, Fld.PWR_VF_MV, 746), (Reg.PWR_VF 26, Fld.PWR_VF_MV, 800)]

theorem test_powerAt : (vfTable.powerAt (fracN 730) (fracN 250) 18).le (fracN 760) = true ∧
    (vfTable.powerAt (fracN 730) (fracN 250) 19).le (fracN 760) = false ∧ (vfTable.powerAt (fracN 730) (fracN 250) 26).eqv (fracN 980) = true := by
  decide +kernel

/-! ### Host ports and rings -/

/-- Ring 63 of T1 on host port 1, with its queues at 0x40000 and 0x80000 of the host, 2^4 entries, vector 9; a split port. -/
def hosted (fs : List (Nat × Field × Nat)) : State :=
  openRegion (State.reset.flds ([(Reg.HIF_CFG, Fld.HIF_CFG_SPLIT, 1), (Reg.MOV_TEN_CTL 1, Fld.MOV_TEN_CTL_PATH, 2), (Reg.MOV_TEN_CTL 1, Fld.MOV_TEN_CTL_EN, 1),
    (Reg.HIF_RING_OWN 63, Fld.HIF_RING_OWN_TEN, 1), (Reg.HIF_RING_OWN 63, Fld.HIF_RING_OWN_PORT, 1), (Reg.HIF_RING_OWN 63, Fld.HIF_RING_OWN_ASSIGNED, 1),
    (Reg.HIF_RING_SQ 63, Fld.HIF_RING_SQ_BASE, 0x1000), (Reg.HIF_RING_CQ 63, Fld.HIF_RING_CQ_BASE, 0x2000),
    (Reg.HIF_BAR_TEN 1, Fld.HIF_BAR_TEN_BAR2_TEN, 1), (Reg.HIF_BAR_TEN 1, Fld.HIF_BAR_TEN_BAR2_VALID, 1),
    (Reg.HIF_RING_CTL 63, Fld.HIF_RING_CTL_VECTOR, 9), (Reg.HIF_RING_CTL 63, Fld.HIF_RING_CTL_N, 4)] ++ fs))
def ringOn : List (Nat × Field × Nat) := [(Reg.HIF_RING_CTL 63, Fld.HIF_RING_CTL_EN, 1)]
def ringValue (n maj min : Nat) : BitVec 64 := BitVec.ofNat 64 (n + maj * 2 ^ 16 + min * 2 ^ 24 + 2 ^ 32)
/-- A mover that reads host port 1. -/
def hostMover : MovRec := { moverRec with src := desc1 15 0x50000000000 256 }
def hostCmd0 : HostCmd := { ring := 63, cid := 0xFFFF, opcode := 2, flags := 0, args := [0, 0x10000, 128, 0], started := true, copying := true }
def fullEvq : List (Nat × Field × Nat) :=
  [(Reg.HIF_EVQ_CTL 0, Fld.HIF_EVQ_CTL_EN, 1), (Reg.HIF_EVQ_CTL 0, Fld.HIF_EVQ_CTL_N, 4), (Reg.HIF_EVQ_CTL 0, Fld.HIF_EVQ_CTL_VECTOR, 3),
   (Reg.HIF_EVQ_BASE 0, Fld.HIF_EVQ_BASE_BASE, 0x100)]
def lostEvents : State := { hosted fullEvq with evqUsed := [(1, 16)], evqLost := [(1, 5)] }

theorem witness_hostLinks : State.reset.tr.powered = true ∧ (hosted []).hostPresent 1 = true ∧ (hosted []).hostLink.get 0 1 = 0 ∧
    State.reset.fld Reg.HIF_CFG Fld.HIF_CFG_SPLIT = 0 ∧ (hosted []).ringAssigned 63 = true ∧ (hosted []).ringPort 63 = 1 ∧
    (hosted []).ringAssigned 62 = false ∧ hostMover.state = 1 ∧
    hostMover.readsHost { hosted [] with movers := [(31, hostMover)] } 1 = true ∧ State.reset.regsWf = true ∧ (hosted []).regsWf = true ∧
    (hosted []).reset_ = none ∧ (hosted []).hostPort 1 = some 1 ∧ (hosted []).hostPort 2 = none ∧ (hosted []).hostPort 3 = none ∧
    ({ hosted [] with movers := [(31, hostMover)] } : State).mover 31 = some hostMover ∧
    ({ hosted [] with hostCmds := [hostCmd0] } : State).hostCmd 63 0xFFFF = some hostCmd0 ∧ hostCmd0.started = true ∧
    hostCmd0.result = none ∧ (∀ t, t < 4 → 1 ≤ t → State.reset.hostPort t ≠ some 0) := by decide +kernel

theorem witness_bar2 : (4096 : Fin 4097) ≠ 0 ∧ (hosted []).bar2Ok 1 ((hosted []).bar2Dpa 1 64) 4096 .rd = true ∧
    (hosted []).badBursts ((hosted []).bar2Dpa 1 64) 4096 = [] ∧ (hosted []).bar2Ok 0 ((hosted []).bar2Dpa 0 64) 4096 .rd = false ∧
    (hosted []).bar2Ok 1 ((hosted []).bar2Dpa 1 64) (List.replicate 64 (1 : Byte)).length .wr = true ∧
    (hosted []).bar2Ok 0 ((hosted []).bar2Dpa 0 64) 64 .wr = false ∧ List.replicate 64 (1 : Byte) ≠ [] := by decide +kernel

theorem witness_bar2Plain : plainHbm (hosted []) ((hosted []).bar2Dpa 1 64) (List.replicate 64 (1 : Byte)).length := by
  unfold plainHbm; decide +kernel

theorem witness_rings : getField (ringValue 12 1 0) Fld.HIF_RING_CTL_EN = 1 ∧ (hosted []).ringFault 63 (ringValue 12 1 0) = 0 ∧
    (hosted []).ringEn 63 = false ∧ (hosted []).ringFault 63 (ringValue 13 1 0) = 3 ∧ (hosted []).ringFault 63 (ringValue 4 1 1) = 4 ∧
    (hosted []).ringFault 63 (ringValue 4 1 0) = 0 ∧ (hosted []).ringFault 62 (ringValue 4 1 0) = 1 ∧ (hosted []).ringFault 63 (ringValue 3 1 0) = 3 ∧
    ((hosted []).wr (Reg.HIF_RING_CQ 63) 0x20).ringFault 63 (ringValue 4 1 0) = 2 ∧
    (hosted ringOn).ringPort 63 = 1 ∧ (hosted ringOn).ringBound 63 = true ∧ (hosted ringOn).ringEn 63 = true ∧ 15 < 2 ^ (hosted ringOn).ringN 63 ∧
    2 ^ (hosted ringOn).ringN 63 ≤ 16 ∧ (hosted ringOn).ringPort 63 ≠ 0 ∧ ((hosted ringOn).setFld (Reg.MOV_TEN_CTL 1) Fld.MOV_TEN_CTL_EN 0).ringBound 63 = false := by
  decide +kernel

theorem witness_events : lostEvents.evqLost.get 0 1 ≠ 0 ∧ lostEvents.fld (Reg.HIF_EVQ_CTL (1 - 1)) Fld.HIF_EVQ_CTL_EN = 1 ∧
    lostEvents.hostPort 1 = some 1 ∧ lostEvents.evqUsed.get 0 1 - 1 < 2 ^ lostEvents.fld (Reg.HIF_EVQ_CTL (1 - 1)) Fld.HIF_EVQ_CTL_N := by decide +kernel

/-! ### Host commands -/

def ringOf (l : List HostCmd) (s : State) : State := { s with hostCmds := l }
def cmdOf (op : Nat) (args : List (BitVec 64)) : HostCmd := { ring := 63, cid := 0xFFFF, opcode := op, flags := 0, args := args }
/-- Everything that CmdReady says, as one test. -/
def cmdB (s : State) (r cid op : Nat) (c : HostCmd) : Bool :=
  decide (s.hostCmd r cid = some c) && decide (c.opcode = op) && decide (c.result = none) && s.mayStart r cid && s.ringBound r

theorem cmd_of {s : State} {r cid op : Nat} {c : HostCmd} (h : cmdB s r cid op c = true) : CmdReady s r cid op c := by
  simp only [cmdB, Bool.and_eq_true, decide_eq_true_eq] at h
  exact ⟨h.1.1.1.1, h.1.1.1.2, h.1.1.2, h.1.2, h.2⟩

def waitingCmd : State := ringOf [{ cmdOf 5 [0, 0, 0, 0] with cid := 1 }, cmdOf 1 [0, 0, 0, 0]] (hosted ringOn)
def entry63 : BitVec 512 := BitVec.ofNat 512 (12 + 3 * 2 ^ 8 + 0xFFFF * 2 ^ 16 + 0x77 * 2 ^ 64)
def doneCmd (flags : Nat) : HostCmd := { cmdOf 1 [0, 0, 0, 0] with flags := flags, started := true, result := some (3, 0x1234) }
def cqState (used : Nat) (c : HostCmd) : State := { hosted ringOn with hostCmds := [c], cqUsed := [(63, used)], cqCount := [(63, 31)] }

theorem witness_cmdFetch : (hosted ringOn).ringEn 63 = true ∧ (0 : Nat) ≠ ({ hosted ringOn with sqTail := [(63, 1)] } : State).sqTail.get 0 63 ∧
    0 = (hosted ringOn).fld (Reg.HIF_RING_STAT 63) Fld.HIF_RING_STAT_SQ_HEAD ∧ (hosted ringOn).hostCmd 63 (entryNum entry63 2 2) = none ∧
    (hosted ringOn).hostCmds = [] ∧ (hosted []).ringEn 63 = false ∧
    (cqState 15 (doneCmd 0)).hostCmd 63 0xFFFF = some (doneCmd 0) ∧ (cqState 15 (doneCmd 0)).cqUsed.get 0 63 < 2 ^ (cqState 15 (doneCmd 0)).ringN 63 ∧
    (cqState 15 (doneCmd 2)).hostCmd 63 0xFFFF = some (doneCmd 2) ∧ 2 ^ (cqState 16 (doneCmd 0)).ringN 63 ≤ (cqState 16 (doneCmd 0)).cqUsed.get 0 63 ∧
    (doneCmd 0).mute = false ∧ (cqState 15 { doneCmd 0 with mute := true }).hostCmd 63 0xFFFF = some { doneCmd 0 with mute := true } ∧
    waitingCmd.hostCmd 63 0xFFFF = some (cmdOf 1 [0, 0, 0, 0]) ∧ waitingCmd.mayStart 63 0xFFFF = false ∧
    (ringOf [cmdOf 1 [0, 0, 0, 0]] State.reset).mayStart 63 0xFFFF = true ∧ (ringOf [cmdOf 1 [0, 0, 0, 0]] State.reset).ringBound 63 = false := by
  decide +kernel

def copying (c : HostCmd) : State := ringOf [{ c with started := true, copying := true }] (hosted ringOn)
def copyIn : HostCmd := cmdOf 2 [0, 0x10000, 128, 0]
def copyOut : HostCmd := cmdOf 3 [0x10000, 0x70, 128, 0]
def busyCopies : State :=
  ringOf ([1, 2, 3, 4].map (fun i => { copyIn with cid := i, started := true, copying := true }) ++ [copyIn]) (hosted ringOn)

theorem witness_copies : cmdB (ringOf [copyIn] (hosted ringOn)) 63 0xFFFF 2 copyIn = true ∧ cmdB (ringOf [copyOut] (hosted ringOn)) 63 0xFFFF 3 copyOut = true ∧
    (ringOf [copyIn] (hosted ringOn)).copiesOn ((hosted ringOn).ringPort 63) < 4 ∧ copyIn.arg 2 ≠ 0 ∧ copyIn.copying = false ∧
    (cmdOf 2 [0, 0, 0, 0]).arg 2 = 0 ∧ cmdB busyCopies 63 0xFFFF 2 copyIn = true ∧ 4 ≤ busyCopies.copiesOn (busyCopies.ringPort 63) ∧
    (copying copyIn).hostCmd 63 0xFFFF = some { copyIn with started := true, copying := true } ∧
    128 = min 65536 (copyIn.arg 2 - copyIn.done) ∧ (List.replicate 128 (7 : Byte)).length = 128 ∧
    (copying copyIn).regionOk ((copying copyIn).ringTen 63) (copyIn.arg 1 + copyIn.done) 128 .wr = true ∧
    (copying copyOut).regionOk ((copying copyOut).ringTen 63) (copyOut.arg 0 + copyOut.done) 128 .rd = true ∧
    readOkAt (copying copyOut) 0x10000 128 = true ∧
    (copying { copyIn with args := [0, 0x10000000000, 128, 0] }).regionOk 1 0x10000000000 128 .wr = false := by decide +kernel

theorem witness_copyPlain : plainHbm (copying copyIn) (copyIn.arg 1 + copyIn.done) 128 := by unfold plainHbm; decide +kernel

/-- An image of one program with one STREAM section of four words for cluster 63; `bad` spoils its MAGIC. -/
def imageFile (bad : Nat) : List Byte :=
  leBytes 4 (0x424B5341 + bad) ++ leBytes 2 1 ++ leBytes 2 0 ++ leBytes 2 1 ++ leBytes 2 0 ++ leBytes 2 0xFFFF ++ leBytes 2 0 ++ leBytes 8 0x100 ++
  leBytes 8 0x99 ++ leBytes 3 0x020404 ++ leBytes 5 0 ++ leBytes 2 1 ++ leBytes 6 0 ++ leBytes 2 0 ++ leBytes 1 2 ++ leBytes 1 63 ++ leBytes 4 200000 ++
  leBytes 4 1 ++ leBytes 4 0 ++ leBytes 8 0x80 ++ leBytes 56 0 ++
  leBytes 2 1 ++ leBytes 2 0xFFFF ++ leBytes 1 63 ++ leBytes 1 1 ++ leBytes 2 0 ++ leBytes 8 0xC0 ++ leBytes 8 64 ++ leBytes 8 0 ++ leBytes 32 0 ++
  leBytes 64 0x5A
def loadCmd : HostCmd := cmdOf 4 [0, 0x100, 0x30000, 0]
def loader : State := ringOf [loadCmd] (hosted (ringOn ++ [(Reg.IDM_STATUS, Fld.IDM_STATUS_VALID, 1), (Reg.IDM_BOARD0, Fld.IDM_BOARD0_DX, 4),
  (Reg.IDM_BOARD0, Fld.IDM_BOARD0_DY, 4), (Reg.IDM_BOARD0, Fld.IDM_BOARD0_DZ, 2)]))

theorem witness_loadImage : cmdB loader 63 0xFFFF 4 loadCmd = true ∧ loader.ringTen 63 = 1 ∧
    loader.imageStatus 1 ((imageFile 0).take (loadCmd.arg 1)) (loadCmd.arg 2) = 0 ∧ (∀ k, k < 64 → loader.drained 1 k = true) ∧
    streamPlaces (loadCmd.arg 2) (programSections ((imageFile 0).take (loadCmd.arg 1)) (chipProgramOf ((imageFile 0).take (loadCmd.arg 1)) loader.chip)) =
      [({ type := 1, program := 0xFFFF, cluster := 63, ctx := 1, offset := 0xC0, length := 64 }, loadCmd.arg 2)] ∧
    (∀ x ∈ programSections ((imageFile 0).take (loadCmd.arg 1)) (chipProgramOf ((imageFile 0).take (loadCmd.arg 1)) loader.chip), x.type ∉ [6, 7, 10]) ∧
    loader.imageStatus 1 ((imageFile 1).take (loadCmd.arg 1)) (loadCmd.arg 2) = 1 ∧
    (loader.setFld Reg.SEC_POLICY (bitField 1) 1).imageStatus 1 ((imageFile 0).take (loadCmd.arg 1)) (loadCmd.arg 2) = 5 := by decide +kernel

theorem witness_loadPlain : plainHbm loader (loadCmd.arg 2) 64 := by unfold plainHbm; decide +kernel

def startCmd : HostCmd := cmdOf 5 [2 ^ 63, 0, 0, 0]
def starter : State := ringOf [startCmd] (hosted (ringOn ++ [(Reg.SEQ_STREAM_LEN 63 0 0, Fld.SEQ_STREAM_LEN_LEN, 4)]))
def signalCmd : HostCmd := cmdOf 6 [BitVec.ofNat 64 (63 + 255 * 2 ^ 8 + 5 * 2 ^ 16), 0, 0, 0]
def signaller : State := ringOf [signalCmd] (hosted ringOn)

theorem witness_startSignal : cmdB starter 63 0xFFFF 5 startCmd = true ∧ startCmd.arg 0 = 2 ^ (63 : Fin 64).val ∧ starter.seqState 63 = 0 ∧ starter.barrier = 0 ∧
    starter.bootDead = false ∧ starter.unitState (unitId 1 63) ≠ 3 ∧
    starter.fld (Reg.SEQ_STREAM_LEN 63 (starter.ringTen 63 - 1) ((starter.rd Reg.GLB_START_CTX).getLsbD 1).toNat) Fld.SEQ_STREAM_LEN_LEN ≠ 0 ∧
    (cmdOf 5 [0, 0, 0, 0]).arg 0 = 0 ∧
    cmdB signaller 63 0xFFFF 6 signalCmd = true ∧ signalCmd.arg 0 = 63 + 255 * 2 ^ 8 + 5 * 2 ^ 16 ∧ signaller.ctxState (signaller.ringTen 63) 63 = 0 ∧
    signaller.seqState 63 = 0 ∧ (signaller.cl 63).hold = none ∧ signaller.tok 63 255 + 5 < 2 ^ 24 ∧
    signaller.fld (Reg.SEQ_TOKEN 63 255) Fld.SEQ_TOKEN_FWD = 0 ∧
    ((signaller.setFld (Reg.SEQ_STATUS 63) Fld.SEQ_STATUS_STATE 1).setFld (Reg.SEQ_STATUS 63) Fld.SEQ_STATUS_TENANT 2).seqState 63 ≠ 0 ∧
    ((signaller.setFld (Reg.SEQ_STATUS 63) Fld.SEQ_STATUS_STATE 1).setFld (Reg.SEQ_STATUS 63) Fld.SEQ_STATUS_TENANT 2).seqTenant 63 ≠
      signaller.ringTen 63 := by decide +kernel

/-- A descriptor of a queue pair on SVC1 with PMTU `pmtu`, 16 receive buffers of 64 bytes at 0x20000, PSN 0xFFFFFF. -/
def qpDesc (pmtu : Nat) : BitVec 512 := BitVec.ofNat 512 (1 + pmtu * 2 ^ 8 + 1 * 2 ^ 16 + 5 * 2 ^ 32 + 0xFFFFFF * 2 ^ 64 + 9 * 2 ^ 96 + 7 * 2 ^ 264 + 0x20000 * 2 ^ 320 +
  16 * 2 ^ 384 + 64 * 2 ^ 416)
def qpState (c : HostCmd) (n : Nat) (q : Qp) : State := { ringOf [c] (hosted ringOn) with qps := [(n, q)] }
def aQp : Qp := qpOf 1 (qpDesc 3)
def createCmd : HostCmd := cmdOf 7 [0, 0, 0, 0]
def destroyCmd : HostCmd := cmdOf 8 [0x10FFF, 0, 0, 0]
def postCmd (op : Nat) : HostCmd := cmdOf 9 [BitVec.ofNat 64 (0x10FFF + op * 2 ^ 24), 0x40000, BitVec.ofNat 64 (1025 + 0x55 * 2 ^ 32), 0x777]
def fullQp : Qp := { aQp with posts := (List.range 16).map (fun i => ({ ring := 62, cid := i, op := 2, dpa := 0, bytes := 64, rkey := 0, remote := 0, psn := i, packets := 1 } : QpPost)) }

theorem witness_queuePairs : cmdB (ringOf [createCmd] (hosted ringOn)) 63 0xFFFF 7 createCmd = true ∧ (hosted ringOn).qp 0 = none ∧
    qpFieldsOk (qpDesc 3) = true ∧ qpFieldsOk (qpDesc 2) = false ∧ entryNum (qpDesc 3) 2 1 ≠ 0 ∧ entryNum (qpDesc 3) 0x28 8 < 2 ^ 48 ∧
    (hosted ringOn).regionOk ((hosted ringOn).ringTen 63) (entryNum (qpDesc 3) 0x28 8) (entryNum (qpDesc 3) 0x30 4 * entryNum (qpDesc 3) 0x34 4) .fl = true ∧
    cmdB (qpState destroyCmd 4095 aQp) 63 0xFFFF 8 destroyCmd = true ∧ destroyCmd.arg 0 = 0x10000 + 4095 ∧
    (qpState destroyCmd 4095 aQp).qp 4095 = some aQp ∧ aQp.tenant = (hosted ringOn).ringTen 63 ∧ aQp.posts = [] ∧
    ({ aQp with tenant := 2 } : Qp).tenant ≠ (hosted ringOn).ringTen 63 := by decide +kernel

theorem witness_posts : (∀ op, op < 3 → cmdB (qpState (postCmd op) 4095 aQp) 63 0xFFFF 9 (postCmd op) = true ∧
      (postCmd op).arg 0 % 2 ^ 24 = 0x10000 + 4095 ∧ (postCmd op).arg 0 / 2 ^ 24 % 256 = op ∧ (postCmd op).arg 1 % 2 ^ 48 = 0x40000 ∧
      (postCmd op).arg 2 % 2 ^ 32 = 1025) ∧ aQp.error = false ∧ aQp.holds 63 0xFFFF = false ∧
    (hosted ringOn).regionOk 1 0x40000 1025 .rd = true ∧ (hosted ringOn).regionOk 1 0x40000 1025 .wr = true ∧ readOkAt (hosted ringOn) 0x40000 1025 = true ∧
    aQp.readRoom = true ∧ fullQp.readRoom = false ∧ fullQp.holds 63 0xFFFF = false ∧ fullQp.tenant = 1 ∧ fullQp.error = false ∧
    ({ hosted ringOn with regs := State.reset.regs } : State).regionOk 1 0x40000 1025 .rd = false ∧ (postCmd 0).arg 0 = 0x10000 + 4095 ∧
    ({ aQp with error := true } : Qp).error = true := by decide +kernel

def keyCmd (len rkey : Nat) : HostCmd := cmdOf 10 [0x50000, BitVec.ofNat 64 len, 3, BitVec.ofNat 64 rkey]
/-- Key 1023 holds 64 bytes at 0x50000 for T1 with the last generation. -/
def keyed (c : HostCmd) : State := ringOf [c] (((hosted ringOn).wr (Reg.SVC_MKEY 1023) 0x50000).wr (Reg.SVC_MKEY_LEN 1023)
  (BitVec.ofNat 64 (64 + 3 * 2 ^ 40 + 2 ^ 42 + 0xFFFFF * 2 ^ 44)))
def rkey1023 : Nat := 0xFFFFF * 1024 + 1023

theorem witness_keys : cmdB (ringOf [keyCmd 64 0] (hosted ringOn)) 63 0xFFFF 10 (keyCmd 64 0) = true ∧ (keyCmd 64 0).arg 3 = 0 ∧ (keyCmd 64 0).arg 1 = 64 ∧
    (keyCmd 64 0).arg 0 < 2 ^ 48 ∧ (hosted ringOn).keyLen 0 = 0 ∧
    cmdB (keyed (keyCmd 0 rkey1023)) 63 0xFFFF 10 (keyCmd 0 rkey1023) = true ∧ (keyCmd 0 rkey1023).arg 3 = rkey1023 ∧ rkey1023 ≠ 0 ∧
    (keyed (keyCmd 0 rkey1023)).keyOf rkey1023 = some 1023 ∧ (keyed (keyCmd 0 rkey1023)).keyTen 1023 = 1 ∧ (hosted ringOn).ringTen 63 = 1 ∧
    cmdB (keyed (keyCmd 4096 rkey1023)) 63 0xFFFF 10 (keyCmd 4096 rkey1023) = true ∧
    ((keyed (keyCmd 4096 rkey1023)).setFld (Reg.SVC_MKEY_LEN 1023) Fld.SVC_MKEY_LEN_TEN 2).keyTen 1023 ≠ 1 ∧
    ((keyed (keyCmd 4096 rkey1023)).setFld (Reg.SVC_MKEY_LEN 1023) Fld.SVC_MKEY_LEN_TEN 2).keyOf rkey1023 = some 1023 := by decide +kernel

theorem witness_attest : cmdB (ringOf [cmdOf 11 [0x2000, 0, 0, 0]] (hosted ringOn)) 63 0xFFFF 11 (cmdOf 11 [0x2000, 0, 0, 0]) = true ∧
    (State.reset.setFld Reg.SEC_STATUS Fld.SEC_STATUS_PUF_FAIL 1).fld Reg.SEC_STATUS Fld.SEC_STATUS_PUF_FAIL = 1 := by decide +kernel

/-! ### The mailbox, the I3C target and the test access port -/

/-- Channel `ch`, an admin one, holds a request of opcode `op` and payload `bs`. -/
def reqOn (ch op : Nat) (bs : List Byte) : State :=
  (((State.reset.bufPut (Reg.KPR_REQ ch) 0 (leBytes 2 op ++ leBytes 2 0x5A5A ++ leBytes 2 bs.length ++ leBytes 2 0 ++ bs)).setFld (Reg.KPR_CH ch) Fld.KPR_CH_BUSY 1).setFld
    (Reg.KPR_CH ch) Fld.KPR_CH_VECTOR 7).setFld Reg.KPR_CTL Fld.KPR_CTL_ADMIN 15
def askedB (s : State) (ch op : Nat) : Bool := s.kprTurn ch op && s.kprAllowed ch op

theorem asked_of {s : State} {ch op : Nat} (h : askedB s ch op = true) : Asked s ch op := by
  simp only [askedB, Bool.and_eq_true] at h
  exact ⟨h.1, h.2⟩

theorem witness_mailbox : (∀ op ∈ [1, 2, 3], askedB (reqOn 2 op []) 2 op = true) ∧ askedB (reqOn 3 4 (leBytes 2 0x1FFF)) 3 4 = true ∧
    ((reqOn 3 4 (leBytes 2 0x1FFF)).kprPayload 3).length = 2 ∧
    askedB (reqOn 1 0x10 (leBytes 8 Reg.GLB_ID)) 1 0x10 = true ∧ Reg.GLB_ID = leNat (((reqOn 1 0x10 (leBytes 8 Reg.GLB_ID)).kprPayload 1).take 8) ∧
    (regAt Reg.GLB_ID).isSome = true ∧ 0x1FFFFF8 = leNat (((reqOn 1 0x10 (leBytes 8 0x1FFFFF8)).kprPayload 1).take 8) ∧ regAt 0x1FFFFF8 = none ∧
    askedB (reqOn 0 0x11 (leBytes 8 0x30 ++ leBytes 8 3)) 0 0x11 = true ∧ ((reqOn 0 0x11 (leBytes 8 0x30 ++ leBytes 8 3)).kprPayload 0).length = 16 ∧
    (0x30 : BitVec 26).toNat = leNat (((reqOn 0 0x11 (leBytes 8 0x30 ++ leBytes 8 3)).kprPayload 0).take 8) ∧
    ((reqOn 0 0x11 (leBytes 8 0x30 ++ leBytes 8 3)).regWrite .mailbox 0x30 true 3).kprBusy 0 = true ∧
    ((reqOn 0 0x11 (leBytes 8 Reg.GLB_RESET_CMD ++ leBytes 8 1)).regWrite .mailbox Reg.GLB_RESET_CMD true 1).kprBusy 0 = false ∧
    askedB (reqOn 2 0x20 (leBytes 32 0x77)) 2 0x20 = true ∧ ((reqOn 2 0x20 (leBytes 32 0x77)).kprPayload 2).length = 32 := by decide +kernel

theorem witness_versions : askedB (reqOn 1 0x30 [1, 0, 1, 0]) 1 0x30 = true ∧ (reqOn 1 0x30 [1, 0, 1, 0]).kprPayload 1 = [1, 0, 1, 0] ∧
    (reqOn 1 0x30 [1, 1, 2, 0]).kprPayload 1 = [1, 1, 2, 0] ∧ askedB (reqOn 3 0x31 []) 3 0x31 = true ∧
    (∀ p, p < 12 → (reqOn 3 0x31 []).portEn p = false) ∧ ((reqOn 3 0x31 []).setFld (Reg.PRT_CTL 11) Fld.PRT_CTL_EN 1).portEn 11 = true ∧
    (reqOn 2 0x10 []).kprTurn 1 0x10 = false ∧ (reqOn 2 0x10 []).kprTurn 2 0x10 = true ∧
    ((reqOn 2 0x10 []).setFld Reg.KPR_CTL Fld.KPR_CTL_ADMIN 1).kprAllowed 2 0x10 = false := by decide +kernel

theorem witness_i3c : (0x3F8 : BitVec 16).toNat + ([1, 2, 3, 4, 5, 6, 7, 8] : List Byte).length ≤ 0x400 ∧ (1 : Byte).getLsbD 0 = true ∧
    (({ reqOn 0 1 [] with i3c := {} } : State).setFld (Reg.KPR_CH 0) Fld.KPR_CH_BUSY 0).kprBusy 0 = false ∧
    ((reqOn 0 1 []).setFld (Reg.KPR_CH 0) Fld.KPR_CH_BUSY 0).kprOp 0 ∈ [1, 2, 3, 4, 0x10, 0x11, 0x20, 0x21, 0x30, 0x31] ∧
    (reqOn 0 1 []).kprBusy 0 = true ∧ State.reset.kprBusy 0 = false ∧ State.reset.kprOp 0 ∉ [1, 2, 3, 4, 0x10, 0x11, 0x20, 0x21, 0x30, 0x31] ∧
    State.reset.i3c.dyn = none ∧ (0x30 : BitVec 7).toNat = 0x30 + State.reset.straps ∧
    ({ State.reset with i3c := { dyn := some 9 } } : State).i3c.dyn ≠ none ∧ State.reset.tr.warmHeld = false ∧
    ({ State.reset with tr := { State.reset.tr with warmHeld := true } } : State).tr.warmHeld = true := by decide +kernel

/-! ### Service ports -/

def serving (q : Qp) (c : HostCmd) : State := { (qpState c 4095 q).setFld (Reg.SVC_CTL 1) Fld.SVC_CTL_EN 1 with out := [] }
def sendPost (op psn : Nat) : QpPost := { ring := 63, cid := 0xFFFF, op := op, dpa := 0x40000, bytes := 128, rkey := 1, remote := 2, psn := psn, packets := 3 }
def postedQp (op psn : Nat) : Qp := { aQp with posts := [sendPost op psn] }
def posted (op psn : Nat) : State := serving (postedQp op psn) (cmdOf 9 [0, 0, 0, 0])
/-- Key 1023 of T1 allows both over 64 bytes at 0x50000. -/
def keyedQp : State := ((serving aQp (cmdOf 1 [])).wr (Reg.SVC_MKEY 1023) 0x50000).wr (Reg.SVC_MKEY_LEN 1023) (BitVec.ofNat 64 (64 + 3 * 2 ^ 40 + 2 ^ 42 + 0xFFFFF * 2 ^ 44))

theorem witness_receives : (serving aQp (cmdOf 1 [])).liveQp 4095 = some aQp ∧ aQp.tenant = 1 ∧ (List.replicate 64 (3 : Byte)).length ≤ aQp.rqSize ∧
    (serving aQp (cmdOf 1 [])).regionOk 1 (aQp.rqDpa + aQp.received % aQp.rqEntries * aQp.rqSize) aQp.rqSize .fl = true ∧
    (serving aQp (cmdOf 1 [])).fld (Reg.HIF_EVQ_CTL (1 - 1)) Fld.HIF_EVQ_CTL_EN = 0 ∧ aQp.rqSize < (List.replicate 65 (3 : Byte)).length ∧
    (serving { aQp with tenant := 0 } (cmdOf 1 [])).liveQp 4095 = some { aQp with tenant := 0 } ∧
    leNat (([0x31, 0, 9, 9] : List Byte).take 2) ∈ [1, 2, 3, 4, 0x10, 0x11, 0x20, 0x21, 0x30, 0x31] ∧
    (serving { aQp with tenant := 0 } (cmdOf 1 [])).kprBusy 3 = false ∧ State.reset.liveQp 4095 = none ∧
    (keyedQp.keyAccess rkey1023 0x50000 64 true).isSome = true ∧ (keyedQp.keyAccess rkey1023 0x50000 64 false).isSome = true ∧
    keyedQp.keyAccess (rkey1023 - 1024) 0x50000 64 true = none ∧ keyedQp.keyAccess rkey1023 0x50040 64 false = none ∧
    keyedQp.liveQp 4095 = some aQp ∧ rkey1023 % 1024 = 1023 ∧ rkey1023 < 2 ^ 32 ∧ readOkAt keyedQp 0x50000 64 = true ∧ aQp.cnpAt = none ∧
    keyedQp.now < 0 + 50000 := by decide +kernel

theorem witness_servicePlain : plainHbm (serving aQp (cmdOf 1 [])) (aQp.rqDpa + aQp.received % aQp.rqEntries * aQp.rqSize) (List.replicate 64 (3 : Byte)).length ∧
    plainHbm keyedQp 0x50000 64 ∧ plainHbm (posted 2 5) ((sendPost 2 5).dpa + (sendPost 2 5).moved) 128 := by unfold plainHbm; decide +kernel

theorem witness_answers : (posted 2 5).liveQp 4095 = some (postedQp 2 5) ∧ (postedQp 2 5).posts = sendPost 2 5 :: [] ∧
    (posted 2 5).regionOk 1 ((sendPost 2 5).dpa + (sendPost 2 5).moved) 128 .wr = true ∧ (sendPost 2 5).bytes = (sendPost 2 5).moved + 128 ∧
    (sendPost 2 5).moved + 64 < (sendPost 2 5).bytes ∧ (posted 2 5).hostCmd 63 0xFFFF = some (cmdOf 9 [0, 0, 0, 0]) ∧
    (posted 0 0xFFFFFF).liveQp 4095 = some (postedQp 0 0xFFFFFF) ∧ (sendPost 0 0xFFFFFF).psn < 2 ^ 24 ∧ (sendPost 0 0xFFFFFF).packets ≤ 2 ^ 23 ∧
    (1 : BitVec 24).toNat = ((sendPost 0 0xFFFFFF).psn + (sendPost 0 0xFFFFFF).packets - 1) % 2 ^ 24 ∧
    (0xFFFFFE : BitVec 24).toNat = ((sendPost 0 0xFFFFFF).psn + 2 ^ 24 - 1) % 2 ^ 24 ∧ (postedQp 0 5).tries < (postedQp 0 5).retry ∧
    (sendPost 0 5).moved = 0 ∧ ({ postedQp 0 5 with tries := 7 } : Qp).retry ≤ 7 ∧ (postedQp 0 5).port < 2 ∧
    (serving aQp (cmdOf 1 [])).qp 4095 = some aQp ∧ aQp.cutAt = none ∧ (serving { aQp with cutAt := some 0 } (cmdOf 1 [])).now < 0 + 50000 := by decide +kernel

/-! ### Numbers -/

theorem witness_numbers : (-128 : Int) ≤ -128 ∧ (-128 : Int) ≤ 127 ∧ (128 : Nat) ∉ (encodeBlock .int8 [.fin ⟨-2, 1⟩, .fin ⟨127, 64⟩] .rne [0, 0]).2 ∧
    (encodeBlock .int8 [.fin ⟨-2, 1⟩, .fin ⟨127, 64⟩] .rne [0, 0]).2.length = 2 ∧
    ([2 ^ 31 - 2, -(2 ^ 31 - 2), 5] : List Int).length ≤ 65536 ∧ ([2 ^ 31 - 2, -(2 ^ 31 - 2), 5] : List Int).Perm [5, 2 ^ 31 - 2, -(2 ^ 31 - 2)] ∧
    ∀ q ∈ ([2 ^ 31 - 2, -(2 ^ 31 - 2), 5] : List Int), -(2 ^ 31 - 2) ≤ q ∧ q ≤ 2 ^ 31 - 2 := by decide +kernel

/-! ### Time, traces and wide commands -/

def tripped : State := { State.reset with pw := { State.reset.pw with tripOut := true } }

theorem witness_idleTick : State.reset.pending = [] ∧ State.reset.regsWf = true ∧ State.reset.tr.powered = true ∧ State.reset.pw.tripOut = false ∧
    (State.reset.setFld (Reg.CNT_GLB_SEL 31) Fld.CNT_GLB_SEL_SRC 2).fld (Reg.CNT_GLB_SEL 31) Fld.CNT_GLB_SEL_SRC = 2 ∧
    tripped.tr.powered = true ∧ tripped.pw.tripOut = true ∧ ({ State.reset with tr := { powered := false } } : State).tr.powered = false ∧
    ({ State.reset with tr := { powered := false } } : State).regsWf = true := by decide +kernel

theorem witness_powerDown : State.reset.stopped = false ∧
    ((State.reset.setFld (Reg.PRT_STATUS 11) Fld.PRT_STATUS_STATE 5).linkState 11 = 5) ∧ (1 : Fin 4) ≠ 0 := by decide +kernel

/-- The same board with a pool and a cable that fail their checks. -/
def poorBoard : List Byte :=
  let b := (testBoard.take 0x16 ++ [9] ++ (testBoard.drop 0x17).take 17 ++ List.replicate 12 0 ++ leBytes 8 0)
  b ++ leBytes 4 (crc32c b).toNat

theorem witness_bootBoards : boardFaults testBoard = [] ∧ (∀ e ∈ boardFaults poorBoard, 3 ≤ e) ∧ 3 ∈ boardFaults poorBoard ∧
    4 ∈ boardFaults poorBoard ∧ (atStage 4).bootRuns 4 = true ∧ (∀ c, c < 64 → (atStage 3).resident 0 c = false) ∧
    ([] : List (BitVec 32 × TestResult)) = [] ∧ (atStage 1).bootRuns 1 = true ∧ (atStage 2).regsWf = true := by decide +kernel

theorem witness_resetFlush : resetting.stopped = false ∧ (511 : BitVec 12).toNat < 512 ∧
    ({ State.reset with reset_ := some (ResetReq.mk 1 0) } : State).bootStage < 5 ∧
    ({ State.reset.setCtx 3 63 2 with reset_ := some (ResetReq.mk 6 3) } : State).ctxState 3 63 = 2 ∧
    ({ (State.reset.toStage 5) with reset_ := some (ResetReq.mk 1 0) } : State).bootStage = 5 ∧ (∀ c, c < 64 → State.reset.ctxState 3 c ≠ 2) ∧
    (∀ e ∈ ({ resetting with tr := { held := [(clusterDomain 63, Held.regRead 0)] } } : State).tr.held, (ResetReq.mk 5 3).stops e.1 = false) ∧
    ({ State.reset with resetQ := [ResetReq.mk 5 511] } : State).resetQ = ResetReq.mk 5 511 :: [] ∧
    (64 : BitVec 12).toNat = 64 ∧ (ResetReq.mk 2 63).within (ResetReq.mk 2 63) = true := by decide +kernel

/-- A write into cluster 63 waits for its domain; mover 31 waits for memory controller 7. -/
def waitingWrite : State :=
  { State.reset with reset_ := some (ResetReq.mk 2 63), tr := { held := [(clusterDomain 63, .regWrite .mailbox 0x30 true 0xFF)] } }
def waitingMover : State :=
  { State.reset.setMover 31 moverRec with tr := { held := [(0x60 + (511 : BitVec 12).toNat % 8, Held.mover 31)] } }

theorem witness_heldAccess : waitingWrite.regsWf = true ∧ waitingWrite.romDead = false ∧ waitingWrite.reset_ = some (ResetReq.mk 2 (63 : Fin 64)) ∧
    waitingWrite.tr.held = [(clusterDomain (63 : Fin 64), .regWrite .mailbox 0x30 true 0xFF)] ∧ waitingMover.regsWf = true ∧ waitingMover.stopped = false ∧
    waitingMover.reset_ = none ∧ waitingMover.fld Reg.MEM_REMAP_STATUS Fld.MEM_REMAP_STATUS_BUSY ≠ 1 ∧
    (0x60 + (511 : BitVec 12).toNat % 8, Held.mover 31) ∈ waitingMover.tr.held ∧ waitingMover.mover 31 = some moverRec ∧ moverRec.state = 1 ∧
    clusterOfReg (0x13FFFF8 : BitVec 26).toNat = some 63 ∧
    (clusterDomain 63, Held.regWrite .keeper 0x13FFFF8 true 5) ∉ waitingWrite.tr.held ∧ waitingWrite.clusterHeld = some 63 ∧
    clusterOfReg (0x3FFFF8 : BitVec 26).toNat = none ∧ tripped.stopped = true := by decide +kernel

/-- A region of T0 over all of device memory. -/
def keeperRegion (s : State) : State :=
  (s.wr (Reg.MEM_RGN_W0 0 0) (putField (putField 0 Fld.MEM_RGN_W0_VALID 1) Fld.MEM_RGN_W0_RD 1)).wr (Reg.MEM_RGN_W1 0 0)
    (putField 0 Fld.MEM_RGN_W1_LIMIT 0xFFFFFFFFFF)

/-- STAGE asked for on channel 1, of `len` bytes at 0x40000. -/
def staging (len : Nat) : State :=
  { keeperRegion (asked 0x21 (leBytes 8 1 ++ leBytes 8 0x40000 ++ leBytes 8 len)) with tr := coldState.tr }
def bundled : State := (staging testBundle.length).poke 0x40000 testBundle
def firmware (n : Nat) (st : Option Staged) (h : Option Nat) : State :=
  { asked 0x21 (leBytes 24 n) with tr := { staged := st, handover := h } }
def someStaged (ready : Bool) : Staged := { slot := 1, comps := [{ version := 2, svn := 3 }], chan := 3, ready := ready }

theorem witness_fwStage : (staging 12544).regsWf = true ∧ (staging 12544).kprTurn 1 0x21 = true ∧
    (staging 12544).kprAllowed 1 0x21 = true ∧ 24 ≤ ((staging 12544).kprPayload 1).length ∧
    leNat (((staging 12544).kprPayload 1).take 1) = 1 ∧
    leNat ((((staging 12544).kprPayload 1).drop 8).take 8) = 0x40000 ∧ leNat ((((staging 12544).kprPayload 1).drop 16).take 8) = 12544 ∧
    (staging 12544).tr.staged = none ∧ (staging 12544).tr.standby = true ∧ (staging 12544).regionOk 0 0x40000 12544 .rd = true ∧
    (staging 12544).place 0x40000 = .hbm ∧ (staging 64).regionOk 0 0x40000 64 .rd = true ∧
    leNat ((((staging 64).kprPayload 1).drop 16).take 8) = 64 ∧ (staging 64).kprTurn 1 0x21 = true := by decide +kernel

theorem witness_fwStageReads : testBundle.length = 12544 ∧ (staging 12544).badBursts 0x40000 12544 = [] := by decide +kernel

/-- The checks look at nothing of the state but the root key's digest and the minimum versions. -/
theorem stagingChecks (k : Nat) (e : BundleEntry) : (staging 12544).componentCheck k e = (atStage 1).componentCheck k e := by
  have h1 : (staging 12544).tr.rootDigest = (atStage 1).tr.rootDigest := by decide +kernel
  have h2 : (staging 12544).rd Reg.SEC_SVN = (atStage 1).rd Reg.SEC_SVN := by decide +kernel
  unfold State.componentCheck State.signedByRoot State.minSvn
  rw [h1, h2]

theorem keeperPasses : firstPass (atStage 1) testBundle = true := by decide +kernel

theorem stage_ok {s r : State} {bs : List Byte} (h : ∀ k e, s.componentCheck k e = r.componentCheck k e) (h0 : firstPass r bs = true)
    (h1 : laterPass r bs = true) : ∃ cs, s.stageBundle bs = .ok cs := by
  unfold firstPass at h0
  unfold laterPass at h1
  unfold State.stageBundle
  split at h0
  · next k u l hb =>
    rw [hb] at h1
    simp only [Bool.and_eq_true, beq_iff_eq] at h0 h1
    simp [hb, h, h0, h1.1, h1.2]
  · cases h0

theorem witness_fwStageChecks : ∃ cs, (staging 12544).stageBundle testBundle = .ok cs :=
  stage_ok stagingChecks keeperPasses witness_bootKeeper.2.2

theorem witness_fwStageFails : (match (staging 64).stageBundle ((staging 64).bytes 0x40000 64) with | .ok _ => false | .error e => e == 1) = true := by
  decide +kernel

/-- The bundle stands in memory where STAGE reads it. -/
theorem witness_bundle : bundled.bytes 0x40000 testBundle.length = testBundle ∧ bundled = { staging testBundle.length with mem := bundled.mem } :=
  ⟨bytes_poke _ _ _, poke_eq _ _ _⟩

theorem witness_firmware : (firmware 2 none none).kprTurn 1 0x21 = true ∧ (firmware 2 none none).regsWf = true ∧ (firmware 2 none none).tr.handover = none ∧
    leNat (((firmware 2 none none).kprPayload 1).take 1) = 2 ∧ (firmware 2 (some (someStaged true)) none).tr.staged = some (someStaged true) ∧
    (firmware 2 (some (someStaged true)) none).kprTurn 1 0x21 = true ∧ (firmware 4 (some (someStaged false)) none).kprTurn 1 0x21 = true ∧
    leNat (((firmware 4 (some (someStaged false)) none).kprPayload 1).take 1) = 4 ∧
    leNat (((firmware 5 none none).kprPayload 1).take 1) = 5 ∧ leNat (((firmware 0 none none).kprPayload 1).take 1) = 0 ∧
    (asked 0x21 (leBytes 23 1)).kprTurn 1 0x21 = true ∧ ((asked 0x21 (leBytes 23 1)).kprPayload 1).length = 23 ∧
    (firmware 0 (some (someStaged false)) none).tr.staged = some (someStaged false) ∧ (someStaged false).chan < 4 ∧ (someStaged false).ready = false ∧
    (firmware 0 (some (someStaged false)) none).bootDead = false ∧
    ({ (State.reset.toStage 6) with tr := { staged := some (someStaged false) } } : State).bootDead = true ∧
    (firmware 0 (some (someStaged true)) (some 3)).tr.handover = some 3 ∧
    (firmware 0 none none).fld Reg.CAD_CTL Fld.CAD_CTL_EN = 0 ∧ ({ firmware 0 none none with fwBeat := true } : State).fwBeat = true ∧
    ((firmware 0 none none).setFld Reg.CAD_CTL Fld.CAD_CTL_EN 1).fwBeat = false ∧ (firmware 0 none none).tr.standby = true ∧
    ({ State.reset with tr := { standby := false } } : State).tr.standby = false := by decide +kernel

theorem witness_securityWrites2 : (7 : Fin 9).val < 8 ∧ (1 : Fin 4) ≠ 0 := by decide +kernel

/-- Trace blocks near full, for this chip's ring and for chip 1. -/
def fullBlock (n : Nat) : State := { tracing with block := { recs := List.replicate n someRec } }
def remoteTrace : State := { (State.reset.flds [(Reg.TRC_DEST, Fld.TRC_DEST_REMOTE, 1), (Reg.TRC_DEST, Fld.TRC_DEST_CHIP, 1)]) with block := { recs := [someRec] } }

theorem witness_traceEdges : tracing.draining = true ∧ (fullBlock 125).block.recs.length < 126 ∧ ((fullBlock 125).ring 0).lost = 0 ∧
    (fullBlock 124).block.recs.length < 125 ∧ ({ tracing with drainNext := 1 } : State).drainNext = 1 ∧
    (({ tracing with drainNext := 1 } : State).drainNext + 79) % 80 = 0 ∧
    (∀ j, j < 79 → (({ tracing with drainNext := 1 } : State).ring ((1 + j) % 80)).undrained = 0) ∧ 0 < (tracing.ring 0).undrained ∧
    (tracing.ring 0).recs[(tracing.ring 0).recs.length - (tracing.ring 0).undrained]? = some someRec ∧
    (fullBlock 126).block.recs.length = 126 ∧ (fullBlock 126).block.recs ≠ [] ∧ remoteTrace.regsWf = true ∧ remoteTrace.block.recs ≠ [] ∧
    remoteTrace.fld Reg.TRC_DEST Fld.TRC_DEST_REMOTE = 1 ∧ remoteTrace.fenced (remoteTrace.fld Reg.TRC_DEST Fld.TRC_DEST_CHIP) = false ∧
    2 ≤ (ringAt 3).ringState 79 ∧ 2 ≤ (ringAt 2).ringState 79 ∧ (ringAt 2).regsWf = true := by decide +kernel

/-! ### Streams, ports, ranks and tokens: clause by clause -/

/-- Cluster 63 in sequencer state `st`, T1's context on it in state `x`. -/
def inState (st x : Nat) (k : Cluster) : State :=
  runsWith [(Reg.SEQ_STATUS 63, Fld.SEQ_STATUS_STATE, st), (Reg.MOV_CTX_STATUS 1 63, Fld.MOV_CTX_STATUS_STATE, x)] k
def stoppedRec : MovRec := { moverRec with state := 3 }
/-- A fault that can be resumed, with a mover and a transfer stopped. -/
def softFault : State := { inState 4 0 {} with movers := [(31, stoppedRec)], txs := [{ txHere with stop := true }] }

theorem witness_streamStates : (∀ u, u < 4 → loaded.ctxState u 63 ≠ 5) ∧ (inState 3 4 { before := 1 }).mayControl 1 63 = true ∧
    (inState 3 4 { before := 1 }).seqState 63 = 3 ∧ ((inState 3 4 { before := 1 }).cl 63).before ≠ 4 ∧
    (inState 2 0 {}).captured 63 = false ∧ (inState 2 4 {}).captured 63 = true ∧ (inState 2 0 {}).barrier = 0 ∧
    softFault.regsWf = true ∧ softFault.mayControl 1 63 = true ∧ softFault.seqState 63 = 4 ∧ (softFault.cl 63).hard = false ∧
    softFault.captured 63 = false ∧ softFault.barrier = 0 ∧ softFault.colls = [] ∧ (softFault.movers.map (·.1)).Nodup ∧
    softFault.mover 31 = some stoppedRec ∧ (softFault.cl 63).hold = none ∧
    ended.seqTenant 63 ≠ 0 ∧ (ended.setCtx 1 63 1).ctxState 1 63 = 1 ∧ (ended.setCtx 1 63 1).slice = none ∧
    (runs 0).mayControl 1 63 = true ∧ (openRegion (runs 0)).stopped = false ∧
    256 = min 256 ((openRegion (runs 0)).streamLen 63 - (openRegion (runs 0)).fetchStart 63) ∧
    (openRegion (runs 0)).fetchStart 63 = 0 ∧ State.reset.seqTenant 63 = 0 ∧ State.reset.seqState 63 ≠ 1 := by decide +kernel

theorem keepsHold_none {k : Cluster} (h : k.hold = none) : k.keepsHold := fun _ e => by rw [h] at e; cases e

theorem witness_keepsHold : (softFault.cl 63).keepsHold ∧ ((inState 2 0 {}).cl 63).keepsHold ∧ ((queued 2 movWord 0).cl 63).keepsHold :=
  ⟨keepsHold_none (by decide +kernel), keepsHold_none (by decide +kernel), keepsHold_none (by decide +kernel)⟩

def movdEntry : QEntry := { entryOf (word 0x32 [(80, 4), (75, 3)]) with scal := [(3, BitVec.ofNat 64 stage63)] }
def movdState : State := openStage (runsWith [] { movQ := [movdEntry] })
def pushWord : BitVec 128 := word 0x34 [(88, 1)]
/-- A PUSH that keeps stands at the head; slot 5's partition lies at 0x20000. -/
def pushState : State :=
  (((queued 2 pushWord 0).flds [(Reg.STK_BASE 5, Fld.STK_BASE_BASE, 0x20000), (Reg.STK_PART 5, Fld.STK_PART_PART, 0x1000000)]).wr (Reg.MEM_RGN_W0 1 1)
    (putField (putField 0 Fld.MEM_RGN_W0_VALID 1) Fld.MEM_RGN_W0_WR 1)).wr (Reg.MEM_RGN_W1 1 1) (putField 0 Fld.MEM_RGN_W1_LIMIT 0xFFFFFFFFFF)

theorem witness_moverHeads : HeadReady movdState 63 2 movdEntry [] ∧ movdEntry.op = 0x32 ∧ movdEntry.sig = 0 ∧
    movdState.place movdEntry.movdAddr = .stage 63 0 ∧ movdState.firstBadWord movdEntry.movdAddr 64 = none ∧ (movdState.cl 63).keepsHold ∧
    HeadReady pushState 63 2 (entryOf pushWord) [] ∧ (entryOf pushWord).op = 0x34 ∧ (entryOf pushWord).pushKeep = true ∧
    pushState.headReqWaits 63 = false := by
  refine ⟨head_of ?_, ?_, ?_, ?_, ?_, keepsHold_none ?_, head_of ?_, ?_, ?_, ?_⟩ <;> decide +kernel

theorem witness_popIssue : (0x35 : Nat) ∈ portRows.map (·.1) ∧ ((runsSlot5 (word 0x35 [(86, 2)])).cl 63).queue (portOf 0x35) = [] ∧
    (queued 2 waitWord 0).stopped = false ∧ (queued 2 badWord 0).stopped = false ∧ (entryOf badWord).op ≠ 0x35 ∧
    ((runs 0).modCl 63 (fun k => k.setQueue 2 [offEntry])).stopped = false := by decide +kernel

/-! ### Ranks -/

theorem witness_rankRamps : (ranked 3 [] 0).rankIdle 63 0 = false ∧ (ranked 4 [] 0).rankIdle 63 0 = false ∧
    (State.reset.setFld (Reg.RNK_CTL 63 12) Fld.RNK_CTL_UNGATED 1).rankIdle 63 12 = true ∧ crowded.rankIdle 63 0 = false ∧ 16 ∉ crowded.pw.inForce ∧
    ((((ranked 0 [] 0).setRk 63 0 { (ranked 0 [] 0).rk 63 0 with ramping := true }).rk 63 0).ramping = true) := by decide +kernel

def auditing : State := (ranked 4 [] 0).setFld Reg.GLB_RAS_CTL Fld.GLB_RAS_CTL_AUDIT_FRAC 1
def auditBusy : State := auditing.setRk 63 5 { tiles := [{ aTile with audited := true }] }
def waitTile : Tile := { aTile with waiting := true, errors := 1 }
/-- Logical lanes 3 and 131 of a quiesced rank are to be switched out. -/
def switchTo (lanes : List Nat) : State :=
  (State.reset.setFld (Reg.RNK_CTL 63 12) Fld.RNK_CTL_QUIESCE 1).setRk 63 12 { tiles := [], switch := some { lanes := lanes, cause := 1 } }

theorem witness_tileStarts : auditing.regsWf = true ∧ auditing.quiesce 63 0 = false ∧ auditing.fld (Reg.RNK_CTL 63 0) Fld.RNK_CTL_UNGATED = 4 ∧
    ((auditing.rk 63 0).active.find? (fun b => decide (b.next < b.f.tiles)) = some mmaA) ∧ mmaA.f.accrd = false ∧
    mmaA.f.n * (accFmt mmaA.f.acc).limbs ≤ (auditing.rk 63 0).limbsFree ∧ auditing.fld Reg.GLB_RAS_CTL Fld.GLB_RAS_CTL_AUDIT_FRAC ≠ 0 ∧
    auditing.auditFree 63 = true ∧ auditBusy.auditFree 63 = false ∧ (∀ x ∈ (auditing.rk 63 0).tiles, x.replay = none ∧ x.waiting = false) ∧
    (ranked 4 [waitTile] 0).quiesce 63 0 = false ∧ (∀ y ∈ ((ranked 4 [waitTile] 0).rk 63 0).tiles, y.replay = none) ∧
    ((ranked 4 [waitTile] 0).rk 63 0).tiles.find? (fun y => y.waiting) = some waitTile ∧ ((ranked 4 [waitTile] 0).rk 63 0).mmaOf waitTile = some a1 ∧
    a1.f.opmode = 0 ∧ a1.f.n * (accFmt a1.f.acc).limbs ≤ ((ranked 4 [waitTile] 0).rk 63 0).limbsFree ∧
    (switchTo [131, 3, 7, 9]).regsWf = true ∧ (switchTo [131, 3, 7, 9]).quiesce 63 12 = true ∧ (∀ x ∈ ((switchTo []).rk 63 12).tiles, x.waiting = true) ∧
    ((switchTo [131, 3, 7, 9]).rk 63 12).switch = some { lanes := [131, 3, 7, 9], cause := 1 } ∧
    ((switchTo [131, 3, 7, 9]).lanesWith 63 12 [131, 3, 7, 9]).length ≤ 4 ∧
    ((State.reset.setFld (Reg.RNK_CTL 63 0) Fld.RNK_CTL_QUIESCE 1).rk 63 0).switch = none ∧
    (∀ x ∈ ((State.reset.setFld (Reg.RNK_CTL 63 0) Fld.RNK_CTL_QUIESCE 1).rk 63 0).tiles, x.waiting = true) := by decide +kernel

/-- Lane 127 of a rank with a tile; the feeders have read a K-step for it. -/
def fed127 (n : Nat) : State := (ranked 4 [aTile] 0).fed 63 0 127 1 n
def fed0 (shared : Nat) : State := (ranked 4 [aTile] 0).fed 63 0 0 shared 1

theorem laneFirst_of {s : State} {c r l : Nat} {x : Tile} {a : ActiveMma} (h : s.stopped = false ∧
    (s.rk c r).tiles.find? (fun y => decide (0 < (s.rk c r).owed y l)) = some x ∧ (s.rk c r).mmaOf x = some a) : LaneFirst s c r l x a :=
  ⟨h.1, h.2.1, h.2.2⟩

theorem witness_laneFirst : LaneFirst (ranked 4 [aTile] 0) 63 0 127 aTile a1 ∧ LaneFirst (ranked 4 [aTile] 0) 63 0 0 aTile a1 ∧
    LaneFirst (ranked 4 [missTile] 0) 63 0 0 missTile a1 ∧ LaneFirst (slipped true) 63 0 0 aTile a1 ∧ aTile.errors < 2 ∧
    (ranked 4 [aTile] 0).regsWf = true ∧ (ranked 4 [aTile] 0).badStage = [] := by
  refine ⟨laneFirst_of ?_, laneFirst_of ?_, laneFirst_of ?_, laneFirst_of ?_, ?_⟩ <;> decide +kernel

theorem witness_laneSteps : ((fed127 1).rk 63 0).stopped = false ∧ 0 < ((fed127 1).rk 63 0).priv.get 0 127 ∧ ((fed127 0).rk 63 0).priv.get 0 127 = 0 ∧
    ((fed0 1).rk 63 0).stopped = false ∧ 0 < ((fed0 1).rk 63 0).shared ∧ (ranked 4 [aTile] 0).slotClosed ((ranked 4 [aTile] 0).rk 63 0) = false ∧
    ((fed0 0).rk 63 0).shared = 0 ∧ ((ranked 4 [aTile] 0).laneStep a1 aTile 0).isSome = true ∧ ((ranked 4 [aTile] 0).laneStep a1 aTile 127).isSome = true ∧
    (((slipped true).fed 63 0 0 1 1).rk 63 0).stopped = true ∧ 0 < (((slipped true).fed 63 0 0 1 1).rk 63 0).tap.get 0 0 ∧
    0 < (((slipped true).fed 63 0 0 1 1).rk 63 0).priv.get 0 0 ∧
    ((ranked 4 [fullTile] 0).rk 63 0).tiles.find? (fun y => decide (0 < ((ranked 4 [fullTile] 0).rk 63 0).owed y 127)) = none ∧
    a1.f.opmode = 0 := by decide +kernel

/-- The same product with its operands conditioned. -/
def condA : ActiveMma := { a1 with entry := { a1.entry with word := mmaWord ||| (1#128 <<< 59) } }
def condRank : State := (ranked 4 [aTile] 0).setRk 63 0 { active := [condA], tiles := [aTile], nextId := 1 }
def badLane : State := { ranked 4 [aTile] 0 with badStage := [stage63 / 4] }
def badLane2 : State := badLane.setRk 63 0 { active := [a1], tiles := [{ aTile with stopAt := some (stage63 / 4) }], nextId := 1 }

theorem witness_laneErrors : LaneFirst condRank 63 0 0 aTile condA ∧ condA.f.opmode ≠ 0 ∧ LaneFirst badLane 63 0 0 aTile a1 ∧
    (badLane.kBad a1 aTile 0 = some (stage63 / 4) ∧ ((badLane.fed 63 0 0 1 1).rk 63 0).stopped = false ∧
    0 < ((badLane.fed 63 0 0 1 1).rk 63 0).priv.get 0 0 ∧ 0 < ((badLane.fed 63 0 0 1 1).rk 63 0).shared ∧
    badLane.slotClosed (badLane.rk 63 0) = false ∧ aTile.stopAt ≠ some (stage63 / 4)) ∧
    LaneFirst badLane2 63 0 0 { aTile with stopAt := some (stage63 / 4) } a1 ∧
    badLane2.kBad a1 { aTile with stopAt := some (stage63 / 4) } 0 = some (stage63 / 4) := by
  refine ⟨laneFirst_of ?_, ?_, laneFirst_of ?_, ?_, laneFirst_of ?_, ?_⟩ <;> decide +kernel

/-- A product of two columns, replayed one column at a time. -/
def twoA : ActiveMma := { a1 with entry := { a1.entry with word := mmaWord + (1#128 <<< 63) } }
def twoRank : State := (ranked 4 [fullTile] 0).setRk 63 0 { active := [twoA], tiles := [fullTile], nextId := 1 }
def fullOut : State := (ranked 4 [drainTile] 0).setRk 63 0 { (ranked 4 [drainTile] 0).rk 63 0 with out := List.replicate 4 { mma := 0, index := 0, els := [] } }

theorem witness_rankOutputs : ((ranked 4 [replayTile] 0).rk 63 0).tiles.find? (fun y => y.replay.isSome) = some replayTile ∧
    replayTile.replay = some .acc10 ∧ (∀ y ∈ (twoRank.rk 63 0).tiles, y.replay = none) ∧
    (twoRank.rk 63 0).tiles.find? (twoRank.rk 63 0).groupDone = some fullTile ∧ (twoRank.rk 63 0).mmaOf fullTile = some twoA ∧
    ((ranked 4 [fullTile] 0).rk 63 0).tiles.find? ((ranked 4 [fullTile] 0).rk 63 0).groupDone = none ∧ (fullOut.rk 63 0).out ≠ [] ∧
    ((ranked 4 [drainTile] 0).rk 63 0).out = [] ∧ ((ranked 4 [drainTile] 0).rk 63 0).nextOut = some (drainTile, a1, 0, 1) ∧
    ((ranked 4 [fullTile] 0).rk 63 0).nextOut = none ∧ (fp8State.rk 63 0).nextPass = some (fullTile, fp8A) ∧
    ((ranked 4 [fullTile] 0).rk 63 0).nextPass = none ∧ ((ranked 4 [fullTile] 0).flushOut 63 0).regsWf = true ∧
    ((ranked 4 [fullTile] 0).rk 63 0).nextDone = some (fullTile, a1) ∧
    (((ranked 4 [fullTile] 0).flushOut 63 0).rk 63 0).tiles = ((ranked 4 [fullTile] 0).rk 63 0).tiles ∧
    (((ranked 4 [fullTile] 0).flushOut 63 0).rk 63 0).active = ((ranked 4 [fullTile] 0).rk 63 0).active ∧
    ((ranked 4 [aTile] 0).rk 63 0).nextDone = none ∧ (ranked 4 [auditTile] 0).auditAt 63 = some ((0 : Fin 13).val, a1, auditTile) ∧
    auditTile.errors < 2 ∧ (ranked 4 [fullTile] 0).auditAt 63 = none := by decide +kernel

theorem witness_tileSignal : signalPlain ((ranked 4 [fullTile] 0).flushOut 63 0) 63 a1.entry.sig := by
  refine ⟨by decide +kernel, keepsHold_none (by decide +kernel), Or.inl (by decide +kernel)⟩

/-! ### Tokens, positions -/

/-- A transfer whose header waits on token 9 stands at the mover port's head. -/
def claimed : State := (waitState 3).modCl 63 (fun k => { k with movQ := [entryOf (word 0x30 [(104, 9)])] })

theorem witness_claims : Ready claimed 63 waitWord2 0x50 ∧ claimed.tok 63 9 < 3 + claimed.claims 63 9 ∧ (waitState 3).claims 63 9 = 0 ∧
    3 + (waitState 3).claims 63 9 ≤ (waitState 3).tok 63 9 ∧ (2 : Fin 64) ≠ 63 := by
  refine ⟨ready_of ?_, ?_⟩ <;> decide +kernel

theorem arm_apart (a : ArmId) (off : Nat) (h : off ∈ [Reg.CAD_CTL, Reg.SEQ_STATUS 63, Reg.SEQ_STREAM_LEN 63 0 0, Reg.SEQ_STREAM_BASE 63 0 0, Reg.STK_SLOT 5]) :
    a.ctl ≠ off := by
  cases a <;> simp only [ArmId.ctl, Reg.CAD_GARM_CTL, Reg.CLU_ARM_CTL, Reg.CAD_CTL, Reg.SEQ_STATUS, Reg.SEQ_STREAM_LEN, Reg.SEQ_STREAM_BASE, Reg.STK_SLOT,
    List.mem_cons, List.not_mem_nil, or_false] at * <;> omega

theorem witness_beatCalm : calm beatImaged := by
  refine ⟨fun a h => ?_, by decide +kernel, by decide +kernel, by decide +kernel⟩
  have e : beatImaged.fld a.ctl Fld.CAD_GARM_CTL_ACTION = State.reset.fld a.ctl Fld.CAD_GARM_CTL_ACTION := by
    show (State.reset.flds [(Reg.SEQ_STATUS 63, Fld.SEQ_STATUS_STATE, 1), (Reg.SEQ_STATUS 63, Fld.SEQ_STATUS_TENANT, 1),
      (Reg.SEQ_STATUS 63, Fld.SEQ_STATUS_CTX, 1), (Reg.SEQ_STREAM_LEN 63 0 0, Fld.SEQ_STREAM_LEN_LEN, 300),
      (Reg.SEQ_STREAM_BASE 63 0 0, Fld.SEQ_STREAM_BASE_BASE, 0x10000), (Reg.STK_SLOT 5, Fld.STK_SLOT_OWNER, 1),
      (Reg.CAD_CTL, Fld.CAD_CTL_EN, 1), (Reg.CAD_CTL, Fld.CAD_CTL_SRC, 2)]).fld a.ctl Fld.CAD_GARM_CTL_ACTION = _
    simp only [State.flds, List.foldl]
    rw [fld_setFld_ne _ _ _ (arm_apart a _ (by simp)), fld_setFld_ne _ _ _ (arm_apart a _ (by simp)), fld_setFld_ne _ _ _ (arm_apart a _ (by simp)),
      fld_setFld_ne _ _ _ (arm_apart a _ (by simp)), fld_setFld_ne _ _ _ (arm_apart a _ (by simp)), fld_setFld_ne _ _ _ (arm_apart a _ (by simp)),
      fld_setFld_ne _ _ _ (arm_apart a _ (by simp)), fld_setFld_ne _ _ _ (arm_apart a _ (by simp))]
  rw [e]; exact reset_arms a h

/-! ### Units, movers and senders: clause by clause -/

/-- A read meets a detected error. -/
def readsBad (s : State) (ps : List (Nat × Nat)) : Bool := match s.readPieces ps with
  | (.detected _ _, u) => u.regsWf
  | _ => false
def readsWf (s : State) (ps : List (Nat × Nat)) : Bool := match s.readPieces ps with
  | (.ok _, u) => u.regsWf
  | _ => false

/-- A row-wise job of two rows of one element. -/
def rowWord : BitVec 128 := word 0x25 [(88, 1), (64, 2)]
def rowJob : VecJob := { entry := entryOf rowWord, ds := [desc2 0 0 stage63 0 1 2, 0, 0, desc2 0 0 (stage63 + 0x1000) 0 1 2, 0].map (fun r => ({ raw := r } : Desc)) }
def waited3 : State := ((vecState vecJob).cntBy (Reg.VEC_PORT_WAIT_CNT 63) 3).bumpClu 63 0x0D 0 3
def badVec : State := { vecState vecJob with badStage := [stage63 / 4] }
def reexec : State := (vecState { vecJob with waiting := true }).cnt (Reg.VEC_GRANULE_REEXEC_CNT 63)
def condAt (bad : List Nat) : State := { State.reset.setCl 63 { cond := some condJob } with badStage := bad }

theorem witness_vecGranules : (vecState vecJob).stopped = false ∧ ((vecState vecJob).cl 63).vec = some vecJob ∧
    readsWf (waited3.meet .none (waited3.seqTenant 63)) (vecJob.granuleReads 0) = true ∧
    readsWf ((vecState vecJob).meet (.stage stage63 1 false) 0) (vecJob.granuleReads 0) = true ∧
    readsBad (badVec.meet .none 0) (vecJob.granuleReads 0) = true ∧ readsBad ((vecState vecJob).meet (.stage stage63 1 true) 0) (vecJob.granuleReads 0) = true ∧
    ((vecState vecJob).vecEffect 63 vecJob 0).regsWf = true ∧ vecJob.granules ≤ 0 + 1 ∧ rowJob.granules = 2 ∧ 0 + 1 < rowJob.granules ∧
    ((vecState rowJob).vecEffect 63 rowJob 0).regsWf = true ∧ (reexec.cl 63).vec = some { vecJob with waiting := true } ∧
    readsWf (reexec.meet .none (reexec.seqTenant 63)) (vecJob.granuleReads 0) = true ∧ ({ vecJob with fails := 1 } : VecJob).fails < 2 ∧
    ((condAt []).cl 63).cond = some condJob ∧ (condAt []).testing (unitId 5 63) = false ∧ condJob.fails < 2 ∧
    readsWf ((condAt []).meet .none 0) (condJob.src.chunkPieces 0 condJob.src.total) = true ∧
    readsBad ((condAt [stage63 / 4]).meet .none 0) (condJob.src.chunkPieces 0 condJob.src.total) = true := by decide +kernel

def condWrites (u : State) : State := condJob.dests.foldl (fun v x => v.condWrite 63 condJob x.1 x.2.2.2) (u.spend 4 (condJob.src.count * condJob.dests.length))

theorem witness_condWrites : (condWrites ((condAt []).meet .none 0)).regsWf = true ∧ ((condWrites ((condAt []).meet .none 0)).cl 63).hold = none ∧
    condJob.entry.sig = 0 ∧ vecJob.entry.sig = 0 ∧ (((vecState vecJob).vecEffect 63 vecJob 0).cl 63).hold = none := by decide +kernel

theorem witness_unitSignals : signalPlain (condWrites ((condAt []).meet .none 0)) 63 condJob.entry.sig ∧
    signalPlain ((vecState vecJob).vecEffect 63 vecJob 0) 63 vecJob.entry.sig :=
  ⟨⟨by decide +kernel, keepsHold_none witness_condWrites.2.1, Or.inl witness_condWrites.2.2.1⟩,
    ⟨by decide +kernel, keepsHold_none witness_condWrites.2.2.2.2, Or.inl witness_condWrites.2.2.2.1⟩⟩

theorem witness_stestRead : stestState.badStage = [] ∧ stestD.ndim = 0 ∧ bitsOf stestWord 95 92 = 0 ∧ bitsOf stestWord 91 80 = 12 := by decide +kernel

/-! ### Movers -/

/-- A chunk of `n` bytes is read and written without a stop. -/
def chunkOk (s : State) (r : MovRec) (n : Nat) (tenant : Nat) : Bool :=
  match ((s.meet .none tenant).spend 6 n).readPieces (r.srcD.chunkPieces r.done n) with
  | (.ok bs, u) => match u.moverPieces r (r.dstD.chunkPieces r.done n) bs with
    | (none, z) => let v := z.flushHosts (r.dstD.chunkPieces r.done n)
      v.regsWf && decide ((v.cl r.cluster).hold = none)
    | _ => false
  | _ => false
def chunkBad (s : State) (r : MovRec) (n : Nat) (tenant : Nat) : Bool := readsBad ((s.meet .none tenant).spend 6 n) (r.srcD.chunkPieces r.done n)
def badMove : State := { moving moverRec with badStage := [stage63 / 4] }
/-- A source on host port 1 whose link is down. -/
def hostRec : MovRec := { moverRec with src := desc1 15 0x50000000000 256 }
def hostRegion (s : State) : State :=
  (((openStage s).wr (Reg.MEM_RGN_W0 1 1) (putField (putField (putField 0 Fld.MEM_RGN_W0_VALID 1) Fld.MEM_RGN_W0_RD 1) Fld.MEM_RGN_W0_BASE 0x40000000000)).wr
    (Reg.MEM_RGN_W1 1 1) (putField 0 Fld.MEM_RGN_W1_LIMIT 0x5FFFFFFFFFF))
def hostDown : State := { (hostRegion (State.reset.flds [(Reg.HIF_CFG, Fld.HIF_CFG_SPLIT, 1), (Reg.MOV_TEN_CTL 1, Fld.MOV_TEN_CTL_PATH, 2)])) with movers := [(31, hostRec)] }

theorem witness_moverChunks : (moving moverRec).stopped = false ∧ (moving moverRec).heldOff (moverRec.srcD.chunkPieces 0 256 ++ moverRec.dstD.chunkPieces 0 256) = false ∧
    chunkOk (moving moverRec) moverRec 256 1 = true ∧ moverRec.total ≤ moverRec.done + 256 ∧ 256 = min 65536 (moverRec.total - moverRec.done) ∧
    moverRec.kind ≠ 2 ∧ (bigRec.total : Nat) = 0x11000 ∧ bigRec.done + 65536 < bigRec.total ∧
    (moving bigRec).heldOff (bigRec.srcD.chunkPieces 0 65536 ++ bigRec.dstD.chunkPieces 0 65536) = false ∧ (moving bigRec).moverHostDown bigRec = false ∧
    chunkBad badMove moverRec 256 1 = true ∧ badMove.moverRefused moverRec 256 = none ∧ badMove.mover 31 = some moverRec ∧ moverRec.cluster < 64 ∧
    (State.reset.setMover 31 moverRec).moverRefused moverRec (min 65536 (moverRec.total - moverRec.done)) ≠ none ∧
    State.reset.mover 31 = none ∧ stoppedRec.state ≠ 1 ∧ (badMove).moverHostDown moverRec = false := by decide +kernel

theorem witness_moverHosts : hostDown.regsWf = true ∧ hostDown.mover 31 = some hostRec ∧ hostRec.state = 1 ∧
    hostDown.moverRefused hostRec 256 = none ∧ hostDown.heldOff (hostRec.srcD.chunkPieces 0 256 ++ hostRec.dstD.chunkPieces 0 256) = false ∧
    hostDown.moverHostDown hostRec = true ∧ 256 = min 65536 (hostRec.total - hostRec.done) := by decide +kernel

/-- A chunk of 65,536 bytes of a larger transfer is read whole: no stage word fails. -/
theorem witness_bigChunk : (moving bigRec).badStage = [] ∧ bigRec.srcD.chunkPieces 0 65536 = [(stage63, 65536)] ∧
    bigRec.dstD.chunkPieces 0 65536 = [(stage63 + 0x20000, 65536)] := by decide +kernel

def headReq : MovReq := ⟨moverRec, false, true⟩
def askingHead : State := { (runs 0).setCl 63 { movQ := [entryOf movWord] } with movReqs := [headReq] }
def askingPref : State := { State.reset with movReqs := [⟨{ moverRec with kind := 1 }, true, false⟩] }

theorem witness_moverAssign : askingHead.regsWf = true ∧ askingHead.freeMovers = 0 :: (List.range 31).map (· + 1) ∧ askingHead.pickReq false = some headReq ∧
    headReq.mrec.state < 3 ∧ headReq.head = true ∧ (askingHead.cl headReq.mrec.cluster).movQ = entryOf movWord :: [] ∧
    askingPref.pickReq false = none ∧ askingPref.fld Reg.MOV_CTL Fld.MOV_CTL_PREF_FLOOR < askingPref.freeMovers.length ∧
    askingPref.pickReq true = some ⟨{ moverRec with kind := 1 }, true, false⟩ ∧ State.reset.movReqs = [] ∧
    ((State.reset.setCl 63 { pref := [prefEntry] }).cl 63).pref = [prefEntry] ∧
    ((State.reset.setCl 63 { pref := [⟨moverRec, false⟩] }).cl 63).prefReady ⟨moverRec, false⟩ = false := by decide +kernel

/-! ### Transfers -/

def pastGrant : State := { sending 1 with badStage := [stage63 / 4] }
def lastTx : Tx := { txHere with dests := [{ chip := 9, state := 1 }, { chip := 8, state := 2 }], creg := stage63 + 0x2000 }
/-- Two destinations still open. -/
def openTx : Tx := { txHere with dests := [{ chip := 9, state := 0 }, { chip := 8, state := 1 }] }
def closedTx : Tx := { txHere with dests := [{ chip := 9, state := 1 }, { chip := 8, state := 0 }] }
def withTx (x : Tx) : State := openStage { State.reset with txs := [x] }

theorem witness_senderEnds : leNat ((grantOf 0 0).body.take 1) = 0 ∧ 4 < leNat ((grantOf 5 0).body.take 1) ∧ State.reset.barrier ≠ 1 ∧
    (withTx openTx).txFor 63 9 62 3 [0] = some openTx ∧ (∃ d ∈ openTx.dests, d.chip ≠ 9 ∧ d.state < 2) ∧
    (State.reset.flds [(Reg.MEM_BARRIER_STATUS, Fld.MEM_BARRIER_STATUS_STATE, 1)]).barrier = 1 ∧
    (sending 1).txs[0]? = some { txHere with dests := [{ chip := 9, state := 1 }] } ∧
    ({ txHere with dests := [{ chip := 9, state := 1 }] } : Tx).targets 0 = some [(false, 9)] ∧ txHere.stop = false ∧ 0 ≤ txHere.next ∧
    readsBad (pastGrant.meet .none 1) ((Desc.mk txHere.src 0).chunkPieces 0 4096) = true ∧
    readsOk ((sending 1).meet .none 1) ((Desc.mk txHere.src 0).chunkPieces 0 4096) = true ∧ txHere.cluster < 64 ∧
    (((Desc.mk txHere.src 0).chunkRanges 0 4096).find? (fun r => !State.reset.regionOk 1 r.1 r.2 .rd)).isSome = true ∧
    (withTx lastTx).txFor 63 9 62 3 [1] = some lastTx ∧ (∀ d ∈ (lastTx.setDest 9 (fun d => { d with state := 2 })).dests, 2 ≤ d.state) ∧
    lastTx.creg ≠ 0 ∧ inStage 63 lastTx.creg 8 = true ∧ (withTx lastTx).badStage = [] ∧
    (withTx closedTx).txFor 63 9 62 3 [1] = some closedTx ∧ (∃ d ∈ (closedTx.setDest 9 (fun d => { d with state := 2 })).dests, d.state < 2) ∧
    3 ≤ leNat (((unreachOf 3).body.drop 3).take 1) := by decide +kernel

/-! ### Receivers and collectives: clause by clause -/

def hbmRx : Rx := { rxHere with dst := desc1 15 0x40000 256 }

theorem witness_receiverEnds : rxHere.stop = false ∧ (receiving rxHere).badStage = [] ∧ 0 < (dataOf 0 64).body.length ∧
    (0, 0) ∉ rxHere.got ∧ 0 * 65536 + 0 + 256 ≤ rxHere.total ∧ rxHere.landed + 64 < rxHere.total ∧ rxHere.total ≤ rxHere.landed + 256 ∧
    (openRegion { State.reset with rxs := [hbmRx] }).rxFor 63 9 62 3 = some hbmRx ∧
    (Desc.mk hbmRx.dst 0).chunkPieces 0 256 = [(0x40000, 256)] ∧ (openRegion { State.reset with rxs := [hbmRx] }).commitPc = none ∧
    ((Desc.mk hbmRx.dst 0).chunkRanges 0 (chunkLen 256 0)).all (fun r => (openRegion { State.reset with rxs := [hbmRx] }).regionOk 1 r.1 r.2 .fl) ∧
    rxHere.total < 0 * 65536 + (dataOf 256 64).offset + (dataOf 256 64).body.length ∧ ({ rxHere with stop := true } : Rx).stop = true ∧
    State.reset.rxFor 63 9 62 3 = none ∧ (dataOf 0 64).malformed = false ∧ rxHere.cluster < 64 ∧
    (((Desc.mk rxHere.dst 0).chunkRanges 0 (chunkLen 256 0)).find? (fun r => !({ State.reset with rxs := [rxHere] } : State).regionOk 1 r.1 r.2 .fl)).isSome = true ∧
    signalOf.dclu < 64 ∧ signalOf.type = 4 ∧ (dataOf 0 64).type ≠ 4 ∧ (255 : Nat) ≠ 0 := by decide +kernel

theorem witness_receiverPlain : plainHbm (openRegion { State.reset with rxs := [hbmRx] }) 0x40000 256 ∧ (State.reset.cl 63).keepsHold := by
  refine ⟨?_, keepsHold_none rfl⟩
  unfold plainHbm; decide +kernel

/-! ### Collectives -/

def countedColl : Coll := { aColl with counted := [(0, 1, 0)] }
def laterColl : Coll := { aColl with attempt := 1 }

theorem witness_collPackets2 : State.reset.early = [] ∧ creditPkt.type = 3 ∧ partPkt.type = 1 ∧ partPkt.offset ≠ 0xFF00 ∧ (collState aColl).commitPc = none ∧
    countedColl.age partPkt = 1 ∧ (collState countedColl).collFor partPkt = some (0, countedColl) ∧
    (partPkt.stream, partPkt.src, partPkt.chunk % 2 ^ 18) ∈ countedColl.counted ∧
    ((collState aColl).recvs aColl partPkt.stream partPkt.src).zipIdx.find? (fun e => e.1.1 == partPkt.chunk % 2 ^ 18) =
      some ((0, { kind := 2, stage := 0, shard := 0, chunk := 0, dests := [0], first := true, final := true }), 0) ∧
    aColl.eaten.get 0 (ckey 0 1) ≤ 0 ∧ (collState aColl).landSlot aColl 0 1 0 = 0x200000 ∧ aColl.running = true ∧
    (collState aColl).collFor (ctlPkt 1 0 0) = some (0, aColl) ∧ (∀ d ∈ aColl.dones, d.1 ≠ 1 ∧ d.2 = 0) ∧
    (collState laterColl).collFor (ctlPkt 1 0 0) = some (0, laterColl) ∧ leNat (((ctlPkt 1 0 0).body.drop 4).take 4) < laterColl.attempt ∧
    (collState aColl).collFor (ctlPkt 2 1 1) = some (0, aColl) ∧ aColl.attempt < leNat (((ctlPkt 2 1 1).body.drop 4).take 4) ∧
    (collState aColl).collFor (ctlPkt 2 0 1) = some (0, aColl) ∧
    max (leNat (((ctlPkt 2 0 1).body.drop 2).take 2)) aColl.wait ≤ (collState aColl).fencedIn aColl ∧ aColl.unread = false ∧
    (collState aColl).collFor (ctlPkt 3 0 0) = some (0, aColl) ∧ aColl.age (ctlPkt 3 0 0) = 1 := by decide +kernel

/-- The next chunk of stream 0 is `kind`, and is encoded and written to its hold entry. -/
def sendsNext (s : State) (c : Coll) (kind : Nat) : Bool :=
  let v := s.meet .none 1
  match (v.sends c v.chip 0)[c.sent.get 0 0]? with
  | none => false
  | some x => x.kind == kind && x.dests.all (fun n => decide (c.sent.get 0 0 < c.limit.get 0 (ckey 0 n))) && c.holdFree 0 (c.sent.get 0 0) &&
    match v.chunkBody c x with
    | some (.ok (bs, _, c', u)) => match (u.onBehalf 1).write (c'.slotAt c'.plan.hold 0 (c.sent.get 0 0)) bs with
      | (none, _) => true
      | _ => false
    | _ => false

/-- A broadcast: this chip is its root, or chip 1 is. -/
def sendCast : Coll := { credited with op := 3, ready := true }
def recvCast : Coll := { aColl with op := 3, plan := { aColl.plan with root := 1 }, counted := [(0, 1, 0)] }
def gatherColl : Coll := { aColl with counted := [(0, 1, 1)], eaten := [(ckey 0 1, 1)] }

/-- The next counted chunk of stream 0 is `kind`, read whole; what it makes is stored. -/
def reduces (s : State) (c : Coll) (kind : Nat) : Bool :=
  let v := s.meet .none 1
  match v.nextChunk c 0 with
  | none => false
  | some (n, seq, x) => x.kind == kind &&
    match (v.onBehalf 1).readPieces ((v.landSlot c 0 n seq, v.itemBytes c x) :: (if x.kind = 2 then [(v.landSlot c 0 n seq + 0xC000, 64)] else [])) with
    | (.ok bs, u) =>
      if kind = 3 then (match u.shardWrite c x.shard (x.chunk * 65536) bs with | (none, _) => true | _ => false)
      else if kind = 5 then (match u.resultWrite (c.dstDesc.chunkPieces (x.chunk * 65536) (v.itemBytes c x)) bs with | (none, _) => true | _ => false)
      else (match u.partOf c x.kind x.shard x.chunk with | .ok _ => true | .error _ => false)
    | _ => false

def partsColl : Coll := { aColl with counted := [(0, 1, 0)] }

theorem witness_collSends : sendsNext (collState credited) credited 2 = true ∧ (collState credited).coll 0 = some credited ∧ credited.running = true ∧
    credited.stop = false ∧ 0 ∉ credited.det ∧ 0 ∉ credited.stalled ∧
    credited.hold.find? (fun (h : CHold) => h.stream == 0 && !h.again.isEmpty) = none ∧ sendsNext (collState sendCast) sendCast 5 = true ∧
    (collState sendCast).coll 0 = some sendCast ∧ aColl.fbTo 0 1 = none ∧
    (collState { aColl with hold := [{ heldChunk with again := [1] }] }).coll 0 = some { aColl with hold := [{ heldChunk with again := [1] }] } ∧
    readOkAt (((collState aColl).meet .none 1).onBehalf 1) (aColl.slotAt aColl.plan.hold 0 0) 192 = true := by decide +kernel

theorem witness_collReduces : reduces (collState partsColl) partsColl 2 = true ∧ reduces (collState gatherColl) gatherColl 3 = true ∧
    reduces (collState recvCast) recvCast 5 = true ∧ (collState gatherColl).coll 0 = some gatherColl := by decide +kernel

theorem witness_collLimits : (collState aColl).upstream aColl 0 = [1] ∧ (collState aColl).recvs aColl 0 1 ≠ [] ∧
    (collState aColl).limitFor aColl 0 1 ≠ aColl.told.get 0 (ckey 0 1) ∧ aColl.qpBack 0 1 = none ∧
    (collState { aColl with running := false, det := [3] }).coll 0 = some { aColl with running := false, det := [3] } ∧
    (collState { aColl with stop := true }).coll 0 = some { aColl with stop := true } ∧ (collState aColl).coll 0 = some aColl ∧
    aColl.ready = false ∧ (collState aColl).reduceOver aColl = false ∧
    (collState { aColl with unread := true }).coll 0 = some { aColl with unread := true } := by decide +kernel

/-! ### Routing, fences and unit records: clause by clause -/

theorem routable_of {s : State} {i : Nat} {q : RPkt} (h : (decide (s.stopped = false) && decide (s.rt.rin[i]? = some q) && decide (q.p.mc = false) &&
    decide (q.p.malformed = false) && decide (s.fenced q.p.dst = false) && decide (q.hops < 256) &&
    decide (([0, 1, 2].flatMap (s.productive s.chip q.p.dst)) ≠ [])) = true) : Routable s i q := by
  simp only [Bool.and_eq_true, decide_eq_true_eq] at h
  exact ⟨h.1.1.1.1.1.1, h.1.1.1.1.1.2, h.1.1.1.1.2, h.1.1.1.2, h.1.1.2, h.1.2, h.2⟩

/-- The pools of ports 0 and 4 are used up, and the reserve of port 0 on TC1 channel 2 where `all`. -/
def drained (all : Bool) (l : List RPkt) : State :=
  { torus l with rt := { rin := l, usedPool := [(16, 100000), (4 * 128 + 16, 100000)], usedRes := if all then [(18, 4)] else [] } }
/-- Detours of direction 4 go by direction 0 on plane 1. -/
def detoured (l : List RPkt) : State :=
  (torus l).flds [(Reg.FAB_CTL, Fld.FAB_CTL_DETOUR_EN, 1), (Reg.FAB_DETOUR 4, Fld.FAB_DETOUR_HOP, 0), (Reg.FAB_DETOUR 4, Fld.FAB_DETOUR_PLANE, 1)]
def far : RPkt := unicast 1024 1 0
def ordered : RPkt := { unicast 33 1 0 with p := { (unicast 33 1 0).p with plane := 2 } }

def lastHop : RPkt := { ordered with p := { ordered.p with hops := 254 } }
def farthest : RPkt := { far with p := { far.p with hops := 256 } }

theorem witness_routable : Routable (torus [unicast 33 1 0]) 0 (unicast 33 1 0) ∧ Routable (drained false [unicast 33 1 0]) 0 (unicast 33 1 0) ∧
    Routable (drained true [unicast 33 1 0]) 0 (unicast 33 1 0) ∧ Routable (torus [ordered]) 0 ordered ∧ Routable (detoured [far]) 0 far ∧
    Routable (torus [far]) 0 far ∧ Routable (torus [unicast 1 1 0, lastHop]) 1 lastHop := by
  refine ⟨routable_of ?_, routable_of ?_, routable_of ?_, routable_of ?_, routable_of ?_, routable_of ?_, routable_of ?_⟩ <;> decide +kernel

theorem witness_routes : (torus [unicast 33 1 0]).adaptive (unicast 33 1 0) ∧ (torus [unicast 33 1 0]).towards (unicast 33 1 0) ≠ [] ∧
    (torus [unicast 33 1 0]).rt.pick ((torus [unicast 33 1 0]).roomy (unicast 33 1 0)) = some 0 ∧
    (drained false [unicast 33 1 0]).rt.pick ((drained false [unicast 33 1 0]).roomy (unicast 33 1 0)) = none ∧
    (drained false [unicast 33 1 0]).orderDir 0 33 [0, 1, 2] = some 0 ∧ (drained false []).orderPort (unicast 33 1 0) 0 = some 0 ∧
    (drained true [unicast 33 1 0]).rt.pick ((drained true [unicast 33 1 0]).roomy (unicast 33 1 0)) = none ∧
    (drained true []).orderPort (unicast 33 1 0) 0 = none ∧ ¬ (torus [ordered]).adaptive ordered ∧
    (torus [ordered]).orderDir (torus [ordered]).chip 33 [2, 1, 0] = some 2 ∧ (torus [ordered]).orderPort ordered 2 = some 4 ∧
    (detoured [far]).towards far = [] ∧ (detoured [far]).orderDir 0 1024 [0, 1, 2] = some 4 ∧
    (detoured [far]).fld (Reg.FAB_DETOUR 4) Fld.FAB_DETOUR_HOP = 0 ∧ (detoured [far]).fld (Reg.FAB_DETOUR 4) Fld.FAB_DETOUR_PLANE = 1 ∧
    (detoured [far]).fld Reg.FAB_CTL Fld.FAB_CTL_DETOUR_EN ≠ 0 ∧
    ((detoured [far]).cands 0).find? (fun p => decide (0 < (detoured [far]).rt.creditLeft p 1 4)) = some 0 ∧
    (torus [far]).fld (Reg.FAB_DETOUR 4) Fld.FAB_DETOUR_PLANE ≤ far.p.plane ∧ (torus [far]).towards far = [] ∧
    (torus [farthest]).rt.rin[0]? = some farthest ∧ (torus []).productive 0 1024 2 ≠ [] ∧
    (torus [unicast 0 1 0]).rt.rin[0]? = some (unicast 0 1 0) ∧ (torus [unicast 1 2 0]).rt.rin[0]? = some (unicast 1 2 0) ∧
    (torus []).stopped = false := by unfold State.adaptive; decide +kernel

theorem witness_replicas : (torus [multicast (maskOf 3 1 1)]).rt.rin[0]? = some (multicast (maskOf 3 1 1)) ∧ (multicast (maskOf 3 1 1)).back = none ∧
    (torus []).mcBranches { multicast (maskOf 3 1 1) with inPort := 12 } = [(0, maskOf 2 1 1)] ∧
    (∀ a, a < 3 → (maskAxis (maskOf 3 1 1) a).testBit (chipAxis (torus []).chip a) = true) ∧
    (∃ a, a < 3 ∧ (maskAxis (maskOf 2 1 1) a).testBit (chipAxis (torus []).chip a) = false) ∧
    ((torus []).boxChips (maskOf 2 1 1)).filter (fun n => !(torus []).fenced n && n != 2) = [1] ∧
    (torus []).mcPort (multicast (maskOf 2 1 1)) 0 = some 0 ∧
    (((torus []).setFence 1 true).boxChips (maskOf 2 1 1)).filter (fun n => !((torus []).setFence 1 true).fenced n && n != 2) = [] ∧
    (torus []).cands 4 = [] ∧ ((torus []).setFence 1024 true).fenced (((torus []).setFence 1024 true).neighbour 0 4) = true := by decide +kernel

/-- Packets queued for port 11, which is not ACTIVE, and one that was returned before. -/
def returning : State :=
  { torus [{ unicast 1 1 0 with back := some 10 }, unicast 2 1 0] with
    rt := { rin := [{ unicast 1 1 0 with back := some 10 }, unicast 2 1 0], rout := [(11, [unicast 3 1 0])] } }
def creditBody (es : List (Nat × Nat × Nat × Nat)) : List Byte := es.flatMap (fun e => leBytes 4 (e.1 + e.2.1 * 8 + e.2.2.1 * 128 + e.2.2.2 * 256))
def creditPacket : Packet := { tc := 2, type := 10, body := creditBody [(7, 15, 1, 0xFFFFFF), (0, 0, 0, 3)] }
def dueCredits : State :=
  { port11 5 {} [] with rt := { due := (List.range 49).map (fun i => (11 * 256 + i, i + 1)), rout := [(11, [{ unicast 1 2 1 with outChan := 2, sent := 1 },
    { unicast 1 2 1 with outChan := 2 }])] } }

theorem witness_returns : returning.linkState 11 ≠ 5 ∧ returning.linkState 11 ≠ 6 ∧ returning.rt.queue 11 = [unicast 3 1 0] ∧ returning.regsWf = true ∧
    creditPacket.type = 10 ∧ creditPacket.tc = 2 ∧ ([(7, 15, 1, 0xFFFFFF), (0, 0, 0, 3)] : List (Nat × Nat × Nat × Nat)).length ≤ 48 ∧
    (∀ e ∈ ([(7, 15, 1, 0xFFFFFF), (0, 0, 0, 3)] : List (Nat × Nat × Nat × Nat)), e.1 < 8 ∧ e.2.1 < 16 ∧ e.2.2.1 < 2 ∧ e.2.2.2 < 2 ^ 24) ∧
    3 ≤ ({ usedPool := [(11 * 128 + 18, 3)] } : Router).usedPool.get 0 (11 * 128 + 1 * 16 + 2) ∧
    2 ≤ ({ usedRes := [(11 * 128 + 18, 2)] } : Router).usedRes.get 0 (11 * 128 + 1 * 16 + 2) ∧ dueCredits.linkState 11 = 5 ∧
    (dueCredits.rt.due.filter (fun e => e.1 / 256 == 11)).take 48 = (List.range 48).map (fun i => (11 * 256 + i, i + 1)) ∧
    (∀ e ∈ (torus []).rt.due, e.1 / 256 ≠ 11) := by decide +kernel

/-- Nothing waits for chip 24575, or for chip 1; no job runs. -/
theorem witness_fenceAlone : FenceAlone (torus []) 24575 ∧ FenceAlone ((torus []).take (fenceBody 24575 3)) 24575 := by
  refine ⟨⟨by decide +kernel, by decide +kernel, by decide +kernel, ?_, by decide +kernel, by decide +kernel, ?_, Or.inr (by decide +kernel)⟩,
    ⟨by decide +kernel, by decide +kernel, by decide +kernel, ?_, by decide +kernel, by decide +kernel, ?_, Or.inr (by decide +kernel)⟩⟩
  · intro f h; cases h
  · intro i c h; cases h
  · intro f h; cases h
  · intro i c h; cases h

theorem witness_fencesClear : ((torus []).setFence 24575 true).fenced 24575 = true ∧ (∀ e ∈ (torus []).colls, e.1 < 16) ∧
    24576 ≤ (24576 : BitVec 15).toNat ∧ (fenceBody 24575 3).type = 6 ∧ (dataOf 0 64).type ≠ 6 ∧
    (0x300005FFF : BitVec 64).toNat % 2 ^ 15 = 24575 ∧ (torus []).peerEpoch.get 0 24575 ≤ (0x300005FFF : BitVec 64).toNat / 2 ^ 32 := by decide +kernel

/-- A record of chip 1, a peer, in state OFFLINE. -/
def offlineBytes : List Byte :=
  let b := leBytes 4 7 ++ leBytes 2 1 ++ leBytes 1 5 ++ List.replicate 53 0
  b ++ leBytes 4 (crc32c b).toNat

theorem witness_unitRecords : leNat (offlineBytes.drop 60) = (crc32c (offlineBytes.take 60)).toNat ∧ offlineBytes.length = 64 ∧
    ({ recordPkt with body := offlineBytes } : Packet).malformed = false ∧ leNat ((offlineBytes.drop 6).take 1) = 5 ∧ (torus []).isPeer 1 = true ∧
    (torus []).isPeer 9 = false ∧ recordPkt.type = 8 ∧ (dataOf 0 64).type ≠ 8 ∧ (0 : BitVec 32).toNat ≤ State.reset.fld Reg.GLB_UNIT_EPOCH Fld.GLB_UNIT_EPOCH_EPOCH ∧
    State.reset.unitState (BitVec.ofNat 32 (unitId 7 511)).toNat ≠ 2 ∧ State.reset.unitState (BitVec.ofNat 32 (unitId 7 511)).toNat ≠ 3 ∧
    (∀ k ∈ [0, 8, 9, 10], (BitVec.ofNat 32 (unitId 7 511)).toNat / 2 ^ 28 ≠ k) ∧ unitCluster (BitVec.ofNat 32 (unitId 7 511)).toNat = none ∧
    ((State.reset.testsFor (BitVec.ofNat 32 (unitId 4 63)).toNat).filter (fun (x : TestReq) => !x.running)).length < 4 ∧
    State.reset.fld Reg.GLB_ERR_LOG_CTL Fld.GLB_ERR_LOG_CTL_EN = 0 ∧ detourAllowed 0 2 1 = true ∧ detourAllowed 5 2 1 = false := by decide +kernel

/-! ### Links: clause by clause -/

/-- Lanes 0 to 9 in use each way, lane 10 the spare. -/
def tenLanes : Link := { module := true, rxPos := List.range 10, txPos := List.range 10 }
def noAck : LinkAck := ⟨0, false⟩
/-- What a passed NEGOTIATE leaves, but for the round trip. -/
def nearlyUp : Link := { tenLanes with aligned := true, capsSent := true, capsOk := true, acked := true, ping := some 7 }
def negotiates (st : Nat) (l : Link) : State := { port11 st l [] with boardRead := true }
def foreignCaps : CapsRec := { capsIn with chip := 1 }
def newCaps : CapsRec := { capsIn with vmin := (1, 1) }

theorem witness_module : optics.readable = true ∧ optics.cmis = true ∧ 5 ≤ optics.revision ∧ optics.media = 3 ∧
    (port11 7 {} [(Reg.PRT_CTL 11, Fld.PRT_CTL_EN, 1)]).portEn 11 = true ∧ (port11 7 {} [(Reg.PRT_CTL 11, Fld.PRT_CTL_EN, 1)]).linkState 11 = 7 ∧
    (port11 7 {} []).bootDead = false ∧ (port11 7 {} []).portEn 11 = false ∧ (port11 0 { module := true } []).linkState 11 = 0 ∧
    (port11 5 tenLanes []).linkState 11 ≠ 0 ∧ presetOf { optics with readable := false } = none ∧ presetOf { optics with media := 1, length := 21 } = none ∧
    presetOf { optics with media := 1, length := 20 } = some (1, 0) ∧ { optics with label := 0x35 }.label.toNat / 16 ≠ 10 ∧
    (port11 1 {} [(Reg.PRT_CTL 11, Fld.PRT_CTL_REQ_LABEL, 0)]).fld (Reg.PRT_CTL 11) Fld.PRT_CTL_REQ_LABEL = 0 ∧
    (port11 1 {} [(Reg.PRT_CTL 11, Fld.PRT_CTL_REQ_LABEL, 1)]).fld (Reg.PRT_CTL 11) Fld.PRT_CTL_REQ_LABEL = 1 ∧
    (0xA0 : BitVec 8).toNat ≠ 0xA0 + 11 % 2 * 8 + (port11 1 {} []).role (11 / 2) % 2 * 4 + (port11 1 {} []).role (11 / 2) / 2 ∧
    (port11 5 {} [(Reg.PRT_CTL 11, Fld.PRT_CTL_EN, 1)]).linkState 11 ≠ 7 := by decide +kernel

theorem witness_lanes : (port11 2 {} []).minLanes 11 ≤ (laneBits (0x7FF : BitVec 11).toNat).length ∧ (laneBits (0x7FF : BitVec 11).toNat).length = 11 ∧
    (laneBits (0x3FF : BitVec 11).toNat).length = 10 ∧ (laneBits (0xF : BitVec 11).toNat).length < (port11 2 {} []).minLanes 11 ∧
    alignedLanes (negotiates 3 tenLanes |>.link 11).rxPos ((negotiates 3 tenLanes).rxRetired 11) 0x3FF none = List.range 10 ∧
    alignedLanes (negotiates 6 tenLanes |>.link 11).txPos ((negotiates 6 tenLanes).txRetired 11) 0x7FE ((negotiates 6 tenLanes).spareLane 11 true) =
      [1, 2, 3, 4, 5, 6, 7, 8, 9, 10] ∧ (negotiates 3 tenLanes).boardRead = true ∧ ((negotiates 3 tenLanes).link 11).capsSent = false ∧
    (alignedLanes ((negotiates 3 tenLanes).link 11).rxPos [] 0xF none).length < (negotiates 3 tenLanes).minLanes 11 ∧
    (negotiates 3 tenLanes).stopped = false ∧ (negotiates 6 nearlyUp).regsWf = true := by decide +kernel

theorem witness_negotiates : ((negotiates 4 nearlyUp).hearAck 11 noAck).negotiating 11 = true ∧ ((negotiates 4 nearlyUp).hearAck 11 noAck).linkState 11 = 4 ∧
    ((negotiates 6 nearlyUp).hearAck 11 noAck).negotiating 11 = true ∧ ((negotiates 6 nearlyUp).hearAck 11 noAck).linkState 11 = 6 ∧
    ((negotiates 4 nearlyUp).hearAck 11 noAck).stopped = false ∧ verLe capsIn.vmin (1, 0) = true ∧ verLe (1, 0) capsIn.vmax = true ∧
    verLe (verMax (1, 0) newCaps.vmin) (verMin (1, 0) newCaps.vmax) = false ∧ verLe (verMax (1, 0) foreignCaps.vmin) (verMin (1, 0) foreignCaps.vmax) = true ∧
    (negotiates 4 nearlyUp).neighbourOk 11 foreignCaps = false ∧ (negotiates 4 nearlyUp).neighbourOk 11 capsIn = true ∧
    ((negotiates 4 nearlyUp).link 11).capsSent = true ∧ ((negotiates 4 nearlyUp).link 11).measured = false ∧
    ((negotiates 4 nearlyUp).link 11).ping = some (7 : BitVec 64) ∧ (3500 : BitVec 16).toNat ≤ 3500 ∧ 3500 < (3501 : BitVec 16).toNat ∧
    1 ≤ (negotiates 4 nearlyUp).linkState 11 ∧ (negotiates 6 nearlyUp).linkState 11 = 6 ∧
    (port11 0 tenLanes [(Reg.PRT_CTL 11, Fld.PRT_CTL_EN, 1)]).portEn 11 = true ∧ ((port11 0 tenLanes []).link 11).module = true := by decide +kernel

/-- One codeword with a symbol in error, one with nine. -/
def oneError : List (Fin 272) := [271]
def nineErrors : List (Fin 272) := [0, 1, 2, 3, 4, 5, 6, 7, 8]
def nextFlit : Flit := { aFlit with seq := 0, hdr := none, bytes := [9] }
def midPacket : Link := { tenLanes with parts := [(1 * 16 + 2, ({ tc := 1, type := 0, body := [1] }, 3))] }
def repeats : Link := { tenLanes with heard := true, last := 0 }
def resends (n : Nat) : Link := { tenLanes with buf := [(aFlit, false), ({ aFlit with seq := 1 }, true)], esc := n }

theorem witness_codewords : correctable oneError = true ∧ correctable nineErrors = false ∧ (∀ i ∈ ((port11 5 tenLanes []).link 11).rxPos, i < 11) ∧
    (∀ e ∈ (((port11 5 tenLanes []).fecReport 11 [oneError]).link 11).winCorr,
      e.2 ≤ ((port11 5 tenLanes []).fecReport 11 [oneError]).fld (Reg.PRT_LANE_CTL 11) Fld.PRT_LANE_CTL_THRESH) ∧
    (((port11 5 { tenLanes with winCorr := [(10, 2 ^ 24)] } []).link 11).winCorr.find? (fun e =>
      decide ((port11 5 tenLanes []).fld (Reg.PRT_LANE_CTL 11) Fld.PRT_LANE_CTL_THRESH < e.2))) = some (10, 2 ^ 24) ∧
    aFlit.kind = 0 ∧ aFlit.seq = (((port11 5 tenLanes []).takeAck 11 aFlit.ack aFlit.ackv).link 11).last + 1 ∧ nextFlit.hdr = none ∧
    ((port11 5 midPacket []).link 11).parts.get ({}, 0) (nextFlit.tc * 16 + nextFlit.ch) = ({ tc := 1, type := 0, body := [1] }, 3) ∧
    (∃ e ∈ ((port11 5 midPacket []).link 11).parts, e.1 = nextFlit.tc * 16 + nextFlit.ch) := by decide +kernel

theorem witness_sequence : ((0 : BitVec 16) - (((port11 5 repeats []).link 11).last + 1)).toNat = 2 ^ 16 - 1 ∧ ((port11 5 repeats []).link 11).heard = true ∧
    ((3 : BitVec 16) - (((port11 5 repeats []).link 11).last + 1)).toNat = 2 ∧ ((port11 5 repeats []).link 11).episode = false ∧
    ((port11 5 { repeats with episode := true } []).link 11).episode = true ∧ aFlit.crc + 1 ≠ aFlit.crc ∧ ({ aFlit with kind := 7 } : Flit).kind ≠ 0 ∧
    ((port11 5 (resends 0) []).link 11).ackedUpTo 1 = some 2 ∧ ((port11 5 (resends 0) []).link 11).ackedUpTo 2 = none ∧
    ((port11 5 (resends 6) []).link 11).buf ≠ [] ∧ ((port11 5 (resends 6) []).link 11).esc < 7 ∧ 7 ≤ ((port11 5 (resends 7) []).link 11).esc ∧
    ((port11 5 (resends 7) []).link 11).txSwitch = none ∧ ((port11 5 (resends 7) []).link 11).rxSwitch = none ∧
    ({ resends 7 with txSwitch := some (Switch.mk 9 10 none false) } : Link).txSwitch ≠ none ∧
    (((port11 5 (resends 0) []).link 11).retrains.filter (fun x => decide ((port11 5 (resends 0) []).now - x ≤ 1000000000))).length < 2 ∧
    2 ≤ (((port11 5 { tenLanes with retrains := [0, 0] } []).link 11).retrains.filter (fun x =>
      decide ((port11 5 tenLanes []).now - x ≤ 1000000000))).length := by decide +kernel

theorem witness_slots : (port11 5 tenLanes []).fld Reg.PWR_ACTIVE Fld.PWR_ACTIVE_LDUTY ≤ ({ tenLanes with slot := 31 } : Link).slot % 16 ∨
    (({ tenLanes with slot := 31 } : Link).slot % 16 < ((sendingPort.setLink 11 tenLanes).slotTick 11 45).fld Reg.PWR_ACTIVE Fld.PWR_ACTIVE_LDUTY) := by decide +kernel

theorem witness_slotKinds : ((port11 5 tenLanes []).slotTick 11 45).pickClass 11 = none ∧ (((port11 5 tenLanes []).slotTick 11 45).link 11).replay = none ∧
    (tenLanes.slot % 16 < ((sendingPort.setLink 11 tenLanes).slotTick 11 45).fld Reg.PWR_ACTIVE Fld.PWR_ACTIVE_LDUTY) ∧
    ((port11 5 { tenLanes with slot := 15 } [(Reg.PWR_ACTIVE, Fld.PWR_ACTIVE_LDUTY, 15)]).slotTick 11 45).fld Reg.PWR_ACTIVE Fld.PWR_ACTIVE_LDUTY ≤ 15 % 16 ∧
    (((port11 5 { resends 0 with replay := some 1 } []).slotTick 11 45).link 11).buf[1]? = some ({ aFlit with seq := 1 }, true) ∧
    ((sendingPort.setLink 11 tenLanes).slotTick 11 45).pickClass 11 = some (2, 2, outPkt, {}) ∧ outPkt.p.type ≠ 10 ∧
    sendingPort.rt.usedRes.get 0 (chanKey 11 2 2) < reserveOf 2 2 := by decide +kernel

theorem witness_lmf : (∀ n ∈ (((port11 5 { tenLanes with notes := [{ num := 0, msg := .spareAck, sent := 63 }] } []).slotTick 11 45).link 11).notes, n.sent < 64) ∧
    (∃ n ∈ (((port11 5 { tenLanes with notes := [{ num := 0, msg := .spareAck, sent := 64 }] } []).slotTick 11 45).link 11).notes, 64 ≤ n.sent) ∧
    ((port11 5 tenLanes []).hearAck 11 noAck).spareLane 11 true = some 10 ∧ (0 : Fin 11).val ∈ ((port11 5 tenLanes []).hearAck 11 noAck).txLanes 11 ∧
    (10 : Fin 11).val ∉ (port11 5 tenLanes []).txLanes 11 ∧
    (((port11 5 { tenLanes with txSwitch := some (Switch.mk 9 10 (some 5000) false) } []).link 11).txSwitch) = some (Switch.mk 9 10 (some 5000) false) ∧
    ((port11 5 { tenLanes with rxSwitch := some (Switch.mk 9 10 (some 5000) false) } []).link 11).failed = [] ∧
    ((State.reset.unitOf (unitId 9 (11 * 32 + 16 + 10))).last) = none ∧ 1 ≤ (port11 3 tenLanes []).linkState 11 ∧
    (port11 3 tenLanes []).spareLane 11 false = some 10 ∧ (port11 4 tenLanes [(Reg.PRT_STATUS 11, Fld.PRT_STATUS_RX_SPARE, 0)]).spareLane 11 false = none ∧
    (10 : Fin 11).val ∉ (port11 3 tenLanes []).rxLanes 11 ∧
    (port11 5 tenLanes []).minLanes 11 ≤ ((((port11 5 tenLanes []).link 11).rxPos.filter (fun i => !([9] : List Nat).contains i))).length ∧
    (((port11 5 tenLanes []).link 11).rxPos.filter (fun i => !(List.range 6).contains i)).length < (port11 5 tenLanes []).minLanes 11 ∧
    3 ≤ ((port11 3 tenLanes []).hearAck 11 noAck).linkState 11 ∧ ((port11 6 { nearlyUp with measured := true } []).link 11).measured = true := by decide +kernel

/-! ### Pre-emption, stacks and recovery: clause by clause -/

/-- A parked stream that yielded; one that was FAULTED when it was saved. -/
def parkedYield : Cluster := { before := 1, hold := some ⟨.yield, yieldEntry, 0⟩, heldRecs := [moverRec] }
def faultedCtx : SavedCtx := SavedCtx.mk { before := 4 } ((runs 0).ctxRegs 63) [] []
def slotFound (s : State) (t : Nat) (x : SavedCtx) : Bool :=
  match (s.strike .none |>.onBehalf t).readMem (s.ctxSlot t 63 0 + 0x28) 1 with
  | (.ok b0, u) => leNat b0 == 1 && match u.readMem (u.ctxSlot t 63 0) 256 with
    | (.ok hdr, v) => (ctxHeaderOf t 63 hdr).isSome && v.saved.find? (fun e => e.1 == t * 64 + 63) == some (t * 64 + 63, x)
    | _ => false
  | _ => false
/-- The slot of an image that was never written: VALID is not 1 in slot A, and B has no header. -/
def emptySlots (s : State) (t : Nat) : Bool :=
  match (s.strike .none |>.onBehalf t).readMem (s.ctxSlot t 63 0 + 0x28) 1 with
  | (.ok b0, u) => leNat b0 != 1 && match u.readMem (u.ctxSlot t 63 1) 256 with
    | (.ok hdr, _) => (ctxHeaderOf t 63 hdr).isNone
    | _ => false
  | _ => false

theorem witness_unpark : (ctxIn 4 [(Reg.SEQ_STATUS 63, Fld.SEQ_STATUS_STATE, 3)] parkedYield).ctxState 1 63 = 4 ∧
    (ctxIn 4 [(Reg.SEQ_STATUS 63, Fld.SEQ_STATUS_STATE, 3)] parkedYield).preemptBarred 1 = false ∧
    (ctxIn 4 [(Reg.SEQ_STATUS 63, Fld.SEQ_STATUS_STATE, 3)] parkedYield).seqState 63 ≠ 4 ∧ parkedYield.requested = false ∧ parkedYield.loops = [] ∧
    ({ parkedYield with before := 2 } : Cluster).before ≠ 1 ∧ (ctxIn 4 [(Reg.MEM_BARRIER_STATUS, Fld.MEM_BARRIER_STATUS_STATE, 1)] {}).preemptBarred 1 = true ∧
    (ctxIn 3 [] {}).ctxState 1 63 ≠ 4 ∧ (ctxIn 3 [] {}).ctxState (1 : Fin 4) 63 ≠ 2 := by decide +kernel

/-- A save whose slots lie above the populated memory, which takes every write: slot A whole, or a detected error there. -/
def savingHigh : State := ((ctxIn 2 [] {}).setFld (Reg.MOV_CTX_BASE 1) Fld.MOV_CTX_BASE_BASE 0xD000000000).onBehalf 1

theorem high_store {s : State} {a : Nat} {bs : List Byte} (hw : s.onBehalf 1 = s) (h0 : s.bankLen = 0) (h : s.place a = .none) :
    s.storeCharged false a bs 1 = (false, s) := by
  have hu : s.unseal a bs.length = s := by unfold State.unseal; rw [if_pos h0]
  have hm : s.writeMem a bs = (none, s) := by unfold State.writeMem; rw [h]; split <;> rfl
  simp [State.storeCharged, State.storeOwn, State.write, State.chargeWrite, hw, hu, hm]

theorem high_writes {s : State} {body : List Byte} (hw : s.onBehalf 1 = s) (h0 : s.bankLen = 0)
    (h : s.place (s.ctxSlot 1 63 0) = .none ∧ s.place (s.ctxSlot 1 63 0 + 0x28) = .none ∧ s.place (s.ctxSlot 1 63 0 + 256) = .none ∧
      s.place (s.ctxSlot 1 63 1 + 0x28) = .none) :
    (s.writeSlotImage 1 63 0 false body 1).1 = false ∧ (s.writeSlotImage 1 63 0 true body 1).1 = true := by
  constructor
  · simp [State.writeSlotImage, State.storeAll, high_store hw h0 h.1, high_store hw h0 h.2.1, high_store hw h0 h.2.2.1, high_store hw h0 h.2.2.2]
  · simp only [State.writeSlotImage, State.storeAll, high_store hw h0 h.2.1]
    rfl

theorem onBehalf_self {s : State} : (s.onBehalf 1).onBehalf 1 = s.onBehalf 1 := rfl

theorem witness_slotWrites (body : List Byte) : (savingHigh.writeSlotImage 1 63 0 false body 1).1 = false ∧
    (savingHigh.writeSlotImage 1 63 0 true body 1).1 = true ∧ savingHigh.ctxState 1 63 = 2 := by
  have h := high_writes (s := savingHigh) (body := body) (by unfold savingHigh; exact onBehalf_self) (by decide +kernel) (by decide +kernel)
  exact ⟨h.1, h.2, by decide +kernel⟩

theorem witness_restores : slotFound (restoring 2 7) 2 (SavedCtx.mk { before := 2 } ((runs 0).ctxRegs 63) [] []) = true ∧
    slotFound { restoring 2 (crc64 []).toNat with saved := [(2 * 64 + 63, faultedCtx)] } 2 faultedCtx = true ∧
    emptySlots { restoring 2 7 with mem := [] } 2 = true ∧ faultedCtx.clu.before = 4 ∧ (restoring 2 7).preemptBarred 2 = false ∧
    ((restoring 1 7).setFld Reg.MEM_BARRIER_STATUS Fld.MEM_BARRIER_STATUS_STATE 1).preemptBarred 1 = true ∧ (restoring 2 7).ctxState 2 62 ≠ 3 := by decide +kernel

theorem witness_slotPlain : plainHbm (ctxIn 2 [] {}) ((ctxIn 2 [] {}).ctxSlot 1 63 0) (256 + (List.replicate 64 (7 : Byte)).length) ∧
    plainHbm (ctxIn 2 [] {}) ((ctxIn 2 [] {}).ctxSlot 1 63 1) 64 ∧ (∀ b, (ctxIn 2 [] {}).burstBad b = false) ∧
    (ctxIn 2 [] {}).ctxSlot 1 63 0 + 256 + (List.replicate 64 (7 : Byte)).length ≤ (ctxIn 2 [] {}).ctxSlot 1 63 1 := by
  refine ⟨by unfold plainHbm; decide +kernel, by unfold plainHbm; decide +kernel, fun b => ?_, by decide +kernel⟩
  have h : (ctxIn 2 [] {}).codeErr = [] ∧ (ctxIn 2 [] {}).commits = [] := by decide +kernel
  rw [State.burstBad, h.1, h.2]; rfl

/-- A POP of form `f` into descriptor 6, naming entry `depth`; one entry of 128 bytes lies on the partition, of the kind given. -/
def popForm (f depth : Nat) : QEntry := entryOf (word 0x35 [(86, f), (72, depth), (88, 6)])
def wholeRegion (s : State) : State := (openRegion s).wr (Reg.MEM_RGN_W1 1 0) (putField 0 Fld.MEM_RGN_W1_LIMIT 0x1FFFFFFFFFF)
def popDesc : BitVec 512 := desc1 15 stage63 16
def popHead (e : QEntry) (kind : Nat) : State :=
  (wholeRegion (runsWith [(Reg.STK_TOP 5 63, Fld.STK_TOP_TOP, 128), (Reg.STK_TOP 5 63, Fld.STK_TOP_ENTRIES, 1)] { movQ := [e], desc := [(6, popDesc)] })).poke
    64 (leBytes 64 (trailerOf kind { raw := popDesc } 128 64 0 0x77 9 1).toNat)
/-- What reading the trailer at the top of the partition gives: 0 to 3 for a KEEP or RECOMPUTE entry, a trap, a detected error. -/
def trailerGives (s : State) : Nat :=
  match (s.trailerAt (s.slotOwner 5) 0 (s.stkBase 5 63 + s.stkTop 5 63)).1 with
  | .found _ t => trailerKind t
  | .trap _ => 2
  | .detected _ _ => 3
/-- A KEEP entry that the destination of the POP fits. -/
def keepFits (s : State) (e : QEntry) : Bool :=
  match s.trailerAt (s.slotOwner 5) 0 (s.stkBase 5 63 + s.stkTop 5 63) with
  | (.found a t, u) => trailerKind t == 0 && (u.descOf 63 e (e.fld 95 88)).valid && trailerMatches t (u.descOf 63 e (e.fld 95 88)) &&
      u.regionOk (u.slotOwner e.slot) (a + 64 - trailerLen t) (trailerLen t) .rd && u.rangesOk (u.seqTenant 63) .wr (u.descOf 63 e (e.fld 95 88)).ranges
  | _ => false
def popB (s : State) (e : QEntry) : Bool := decide ((s.cl 63).movQ = e :: []) && e.op == 0x35 && e.pred && s.seqState 63 == 1 &&
  (s.stkPart e.slot 63).writing == 0 && !s.headReqWaits 63 && s.headerOk 63 e.wait
theorem pop_of {s : State} {e : QEntry} (h : popB s e = true) : PopReady s 63 e [] := by
  simp only [popB, Bool.and_eq_true, decide_eq_true_eq, beq_iff_eq, Bool.not_eq_true'] at h
  exact ⟨h.1.1.1.1.1.1, h.1.1.1.1.1.2, h.1.1.1.1.2, h.1.1.1.2, h.1.1.2, h.1.2, h.2⟩

theorem witness_pops : PopReady popping 63 popEntry63 [] ∧ PopReady (popHead (popForm 1 1) 0) 63 (popForm 1 1) [] ∧
    PopReady (popHead (popForm 2 0) 0) 63 (popForm 2 0) [] := by
  refine ⟨pop_of ?_, pop_of ?_, pop_of ?_⟩ <;> decide +kernel

theorem witness_popReads : keepFits (popHead (popForm 0 0) 0) (popForm 0 0) = true ∧ trailerGives (popHead (popForm 0 0) 1) = 1 ∧
    ((popHead (popForm 0 0) 1).cl 63).ret = none ∧ trailerGives ((popHead (popForm 0 0) 1).wr (Reg.MEM_RGN_W0 1 0) 0) = 2 ∧
    trailerGives { popHead (popForm 0 0) 1 with codeErr := [(1, 1)] } = 3 ∧ (popHead (popForm 1 1) 0).stkEntries 5 63 ≤ (popForm 1 1).fld 85 72 ∧
    (popHead (popForm 1 1) 0).popDstBad 63 (popForm 1 1) = none ∧ (popForm 1 1).fld 87 86 = 1 ∧ (popForm 0 0).fld 87 86 = 0 ∧
    (popForm 0 0).sig = 0 ∧ ((popHead (popForm 0 0) 1).cl 63).hold = none := by decide +kernel

theorem witness_reserves : State.reset.regionAbove (ceilingOf 16 0) = false ∧
    (({ held511 with commitPc := some 511 } : State).commitOk 511) = false ∧ held511.withheld 511 = true ∧
    (((regionAt (511 * 0x60000000 - 1)).setFld Reg.MEM_RSV Fld.MEM_RSV_COUNT 0).regionAbove (ceilingOf 0 1)) = false ∧
    (((regionAt 63).setFld Reg.MEM_RSV Fld.MEM_RSV_LOCK 1).fld Reg.MEM_RSV Fld.MEM_RSV_LOCK) = 1 := by decide +kernel

theorem witness_rereads : badNine.reread 9 0 1 = some (List.replicate 64 0) ∧ badNine.reread 9 0 0 = none ∧ badNine.bankLen = 0 ∧
    badNine.mirrorState ≠ 2 ∧ (preState [] {}).resident 1 63 = true ∧ (badPage true).testing (stageBankUnit (stage63 + 0x1000)) = false ∧
    ((testing511 true).testsFor (unitId 7 511)).find? (fun (x : TestReq) => !x.running && testEngine x.unit == testEngine (unitId 7 511)) = none ∧
    ((testing511 false).testsFor (unitId 7 511)).find? (fun (x : TestReq) => x.running && x.unit == unitId 7 511) = none ∧
    ((testing511 true).setUnit (unitId 7 511) { conf := 3, cond := true, last := some 0 }).unitOf (unitId 7 511) =
      { conf := 3, cond := true, last := some 0 } ∧ (testing511 true).now - 0 ≤ (testing511 true).condWindow ∧ (slicing []).portsDone 63 15 = true ∧
    (slicing []).slice.isSome = true ∧ ((slicing [(63, 1)]).sliceState 63 false).ctxState 1 63 = 3 := by decide +kernel

/-! ### Banks, pushes, the mirror, drains and the restore agent: clause by clause -/

def drainingPush : Push := { aPush with draining := true }
def badBank : State := { pushing 3 sentPush with codeErr := [(0x110000 / 64, 1)] }
def chunkUnreach : Packet := { dst := 0, src := 9, tc := 2, type := 9, tag := 77, body := leBytes 3 0 ++ leBytes 1 2 ++ leBytes 2 0 ++ leBytes 2 0 ++ leBytes 8 0 }

theorem witness_pushEnds : (fromTwin 2 0 0).tc = 3 ∧ (pushing 2 aPush).pushReply (fromTwin 2 0 0) = true ∧
    (pushing 2 aPush).pushReply { fromTwin 2 0 0 with src := 6 } = false ∧ (pushing 3 sentPush).pushReply (fromTwin 4 0 0) = true ∧
    (pushing 3 sentPush).push = some sentPush ∧ drainingPush.draining = true ∧ (pushing 2 drainingPush).pushState = 2 ∧
    aPush.bank = sealJob.bank ∧ (pushing 1 { aPush with step := 76 }).pushState = 1 ∧ ({ aPush with step := 76 } : Push).step ≠ sealJob.step ∧
    badBank.badBursts (badBank.bankBase 1) 65536 ≠ [] ∧ leNat ((chunkUnreach.body.drop 3).take 1) = 2 ∧ leNat ((chunkUnreach.body.drop 8).take 4) ∈ sentPush.unacked ∧
    chunkUnreach.tag = sentPush.step % 2 ^ 16 ∧ leNat ((chunkUnreach.body.drop 4).take 2) ≠ 0xFF00 ∧ (pushing 3 sentPush).pushState = 3 ∧
    ((pushing 3 sentPush).setFence 5 true).fenced ((pushing 3 sentPush).setFence 5 true).twin = true ∧ (pushing 2 aPush).pushState = 2 ∧
    readOkAt ((sealing sealJob).onBehalf 1) 0x110000 4096 = true ∧ (pushing 3 { sentPush with unacked := [] }).pushChunks = 1 := by decide +kernel

/-- A fill whose last chunk's body bytes are counted, its header held, right or wrong. -/
def wholeFill (right : Bool) : Fill :=
  { aFill with header := mirrorHeader ((crc64 []).toNat + if right then 0 else 1), landed := [0, 1] }
theorem witness_mirrorEnds : (wholeFill true).bodyCrc.toNat = leNat (((wholeFill true).header.drop 0x30).take 8) ∧
    (wholeFill false).bodyCrc.toNat ≠ leNat (((wholeFill false).header.drop 0x30).take 8) ∧ (wholeFill true).header.length = 4096 := by decide +kernel

theorem witness_landings : ({ mirrored 1 131072 none with commitPc := some 5 } : State).landsLater 0x200000 = true ∧
    (mirrored 1 131072 none).landsLater 0x200000 = false ∧ (mirrored 1 131072 none).mirrorBase = 0x200000 ∧ (0 : Nat) ∉ aFill.landed ∧
    ((0, 0) : Nat × Nat) ∉ aFill.got ∧ 16 ≤ (({ lastFill with got := lastFill.got ++ [(1, 0)] } : Fill).got.filter (fun g => g.1 == 1)).length ∧
    (fromTwin 6 7 0).src = aFill.sender ∧ (fromTwin 6 7 0).tag = aFill.tag ∧ ({ fromTwin 6 7 0 with tag := 78 } : Packet).tag ≠ aFill.tag := by decide +kernel

/-- Queue pair 4095 lives on SVC1, and descriptor 7 names both. -/
def drainsBy (s : State) : State :=
  { s.flds [(Reg.MEM_DRAIN_CTL 7, Fld.MEM_DRAIN_CTL_QP, qpn 4095), (Reg.MEM_DRAIN_CTL 7, Fld.MEM_DRAIN_CTL_PORT, 1), (Reg.SVC_CTL 1, Fld.SVC_CTL_EN, 1)] with
    qps := [(4095, aQp)] }

theorem witness_drainPairs : qpn 0 ≤ (drainsBy (drainRuns 1)).drainQp 7 ∧ (drainsBy (drainRuns 1)).drainQp 7 < qpn 4096 ∧
    (drainsBy (drainRuns 1)).liveQp ((drainsBy (drainRuns 1)).drainQp 7 - qpn 0) = some aQp ∧ (drainsBy (drainRuns 1)).drainQpOk 7 = true ∧
    (drainRuns 1).drainQpOk 7 = false ∧ (drainsBy (drainRuns 0)).drainState 7 = 1 ∧ (drainRuns 0).mirrorState ≠ 3 ∧
    ((drainRuns 0).setFld Reg.MEM_MIRROR_STATE Fld.MEM_MIRROR_STATE_STATE 3).mirrorState = 3 ∧
    (∀ j : Fin 8, j.val ≠ 7 → (drainRuns 0).drainState j ≠ 1) ∧ readOkAt ((drainRuns 0).onBehalf 0) 0x200000 4096 = true ∧
    readOkAt ({ drainRuns 0 with codeErr := [(0x200000 / 64, 1)] } : State) 0x200000 4096 = false := by decide +kernel

def storeEntry : List Byte := leBytes 8 4 ++ leBytes 8 0x6000 ++ leBytes 8 64 ++ leBytes 8 0 ++ leBytes 32 0

theorem witness_restoreEntries : storeEntry.length = 64 ∧ leNat (storeEntry.take 1) = 4 ∧ rstReservedOk storeEntry 4 = true ∧
    rstReservedOk (leBytes 8 5 ++ leBytes 56 0) 5 = false ∧ 3 ≤ leNat (storeEntry.take 1) ∧
    readOkAt { listOf storeEntry with codeErr := [(0x6000 / 64, 1)] } 0x6000 64 = false ∧ (0x6020 : Nat) % 64 ≠ 0 ∧
    ((listOf storeEntry).write (0x5000 + 0x18) (leBytes 8 5)).1 = none ∧ leNat ((slotEntry 0 7 7).take 1) = 1 ∧
    readOkAt { listOf storeEntry with codeErr := [(0x5000 / 64, 1)] } 0x5000 64 = false ∧
    ((listOf []).setFld (Reg.SEQ_STATUS 63) Fld.SEQ_STATUS_STATE 1).seqState 63 = 1 ∧ (0 + 2 ^ 40 - 0xFFFFFFFFFF) % 2 ^ 40 = 1 ∧
    1 < (9 + 2 ^ 40 - 7) % 2 ^ 40 := by decide +kernel

/-! ### Power, the host, the keeper and service ports: clause by clause -/

theorem witness_clockChanges : (pendingAt 26 { tripped := [63] }).droopWait = true ∧ (pendingAt 26 { voltage := 26, asked := 26 }).pw.asked = 26 ∧
    (pendingAt 26 {}).droopWait = false ∧ (pendingAt 25 {}).flevel = 25 ∧ (pendingAt 0 {}).changing = true ∧
    (clocked [(Reg.PWR_FREQ, Fld.PWR_FREQ_TARGET, 0), (Reg.PWR_FREQ, Fld.PWR_FREQ_PENDING, 1), (Reg.PWR_FREQ, Fld.PWR_FREQ_STRETCH, 1), (Reg.CAD_TSC, ⟨0, 64⟩, 10000)]
      { droopSince := 0 }).now - 0 = 10000 ∧ (drooping {}).pw.tripped = [] ∧ State.reset.flevel ≤ 26 ∧ ({ tripped := [63] } : Power).tripped ≠ [] ∧
    (pendingAt 0 { stretchEnded := 1 }).pw.stretchEnded = 1 := by decide +kernel

theorem witness_sensors : ((hot 97 90 {}).setFld (Reg.THM_TEMP 97) Fld.THM_TEMP_FAIL 1).fld (Reg.THM_TEMP 97) Fld.THM_TEMP_FAIL = 1 ∧
    (sampled { fails := [(102, 2)] }).pw.fails.get 0 (102 : Fin 103) = 2 ∧ State.reset.classLimit 102 = none ∧
    ((fracN 700).mul (fracN 700) |>.mul ⟨20, 2500⟩).le ⟨0, 1⟩ = false ∧ (sampled { railAlert := [0] }).pw.railAlert = [0] := by decide +kernel

theorem witness_hostStops : (∀ e ∈ (hosted []).movers, e.2.state ≠ 1) ∧ (hosted []).stopped = false ∧
    ({ hosted [] with movers := [(31, { hostMover with state := 4 })] } : State).mover 31 = some { hostMover with state := 4 } ∧
    readOkAt { hosted [] with codeErr := [(0, 1), (1, 1)] } ((hosted []).bar2Dpa 1 64) 64 = false ∧
    ({ hosted [] with tr := { (hosted []).tr with powered := false } } : State).tr.powered = false ∧
    (cqState 3 (doneCmd 0)).completesNext 63 (doneCmd 0) = true := by decide +kernel

/-- Cluster 63 is held in its own reset. -/
def holds63 (s : State) : State := { s with reset_ := some (ResetReq.mk 2 63) }

theorem witness_crossings : (holds63 (copying copyIn)).clusterHeld = some 63 ∧ (holds63 (copying copyIn)).heldOff [(stageBase 63, 128)] = true ∧
    (holds63 (copying copyIn)).heldOff [(copyIn.arg 1, 128)] = false ∧ clusterOfReg (Reg.SEQ_STATUS 63) = some 63 ∧ Reg.SEQ_STATUS 63 % 8 = 0 ∧
    askedB (holds63 (reqOn 1 0x10 (leBytes 8 (Reg.SEQ_STATUS 63)))) 1 0x10 = true ∧ clusterOfReg Reg.GLB_ID = none ∧ Reg.GLB_ID % 8 = 0 := by decide +kernel

theorem witness_keeperArgs : askedB (reqOn 1 0x10 (leBytes 8 0x2000000)) 1 0x10 = true ∧ regAt 0x2000000 = none ∧
    ((reqOn 1 0x10 (leBytes 8 0x2000000)).setFld Reg.GLB_DEBUG_CTL Fld.GLB_DEBUG_CTL_DBG_WIN 1).fld Reg.GLB_DEBUG_CTL Fld.GLB_DEBUG_CTL_DBG_WIN = 1 ∧
    askedB (reqOn 1 0x11 (leBytes 8 0x4000000 ++ leBytes 8 0)) 1 0x11 = true ∧ ((reqOn 1 0x11 (leBytes 8 4 ++ leBytes 8 0)).kprPayload 1).length = 16 ∧
    ((reqOn 3 4 [1]).kprPayload 3).length < 2 ∧ askedB (reqOn 3 4 [1]) 3 4 = true ∧ ((reqOn 1 0x30 [1, 0, 1]).kprPayload 1).length < 4 ∧
    ((reqOn 1 0x20 [1, 0, 1]).kprPayload 1).length ≠ 32 ∧ (0x7FC : BitVec 16).toNat ≤ 0x800 ∧ 0x800 < (0x7FC : BitVec 16).toNat + 8 := by decide +kernel

/-- A control notice of the collective engine. -/
def aNotice : List Byte := noticeBytes { tc := 1, type := 1, body := leBytes 16 0 } 0

theorem witness_serviceWaits : ({ serving aQp (cmdOf 1 []) with commitPc := some 5 } : State).landsLater 0x20000 = true ∧
    (serving aQp (cmdOf 1 [])).sendLandsLater 4095 = false ∧ (serving aQp (cmdOf 1 [])).commitPc = none ∧
    aQp.turn (aQp.rpsn % 2 ^ 24) = 0 ∧ aQp.turn ((aQp.rpsn + 1) % 2 ^ 24) = 1 ∧ aQp.turn ((aQp.rpsn + 2 ^ 24 - 1) % 2 ^ 24) = 2 ∧
    (serving aQp (cmdOf 1 [])).inLanding 0x50000 64 = false ∧ aNotice.length = 128 ∧ (noticeOf aNotice 3).1.type ∈ [1, 3] ∧
    ((serving aQp (cmdOf 1 [])).engineQp 4095 (noticeOf aNotice 3).1).1 = false ∧ (2 ^ 30 : Nat) < (0x40000001 : BitVec 32).toNat ∧
    (serving { aQp with tenant := 0 } (cmdOf 1 [])).kprBusy 3 = false ∧
    ((serving { aQp with tenant := 0 } (cmdOf 1 [])).setFld (Reg.KPR_CH 3) Fld.KPR_CH_BUSY 1).kprBusy 3 = true ∧
    ackPosts (postedQp 0 5).posts aQp.mtu 7 = ([sendPost 0 5], []) ∧ (sendPost 2 5).ring ≠ 64 ∧ ({ sendPost 2 5 with ring := 64 } : QpPost).ring = 64 := by decide +kernel

/-- T1's image with one plan over X whose fallback table, at 0x7000, lists queue pair 4095 for member 1. -/
def planned : ImageRec := { plans := leBytes 64 1 ++ leBytes 1 4 ++ leBytes 1 1 ++ leBytes 4 0 ++ leBytes 42 1 ++ leBytes 16 0x7000 }
def engineServes : State :=
  let s := (serving aQp (cmdOf 1 [])).poke 0x7010 (leBytes 3 (qpn 4095))
  { s.flds [(Reg.IDM_BOARD0, Fld.IDM_BOARD0_DX, 2), (Reg.IDM_BOARD0, Fld.IDM_BOARD0_DY, 1), (Reg.IDM_BOARD0, Fld.IDM_BOARD0_DZ, 1)] with images := [(1, planned)] }

theorem witness_engineServes : (engineServes.engineQp 4095 (noticeOf aNotice 3).1).1 = true ∧ (engineServes.image 1).plan 0 1 ≠ none ∧
    ({ engineServes with codeErr := [(0x7000 / 64, 1)] }.engineQp 4095 (noticeOf aNotice 3).1).1 = false ∧ engineServes.liveQp 4095 = some aQp := by decide +kernel

/-! ### WellFormed: each check refuses an ill-formed term -/

/-- A packet that passes every check. -/
def goodPkt : Packet := { dst := 5, tc := 2, type := 1, body := [1] }

theorem test_wf_good : (Instr.dataPacketRx goodPkt).wf = true := by decide +kernel

theorem test_wf_packet_fields :
    [{ goodPkt with dst := 2 ^ 15 }, { goodPkt with src := 2 ^ 15 }, { goodPkt with tc := 8 }, { goodPkt with type := 16 },
      { goodPkt with dclu := 64 }, { goodPkt with sclu := 64 }, { goodPkt with plane := 3 }, { goodPkt with hops := 2 ^ 12 },
      { goodPkt with tag := 2 ^ 16 }, { goodPkt with chunk := 2 ^ 32 }, { goodPkt with offset := 2 ^ 16 },
      { goodPkt with body := List.replicate 8192 0 }, { goodPkt with mask := 1 }, { goodPkt with mc := true }].all
      (fun p => !(Instr.dataPacketRx p).wf) = true := by decide +kernel

theorem test_wf_sizes :
    [Instr.bootHbmStage [0] 0, .bootBoardStage (some [0]), .rereadBoard 0 (some []), .hbmRefresh 0 16, .hbmDetectRecovery (2 ^ 48) 0 0 0,
      .moverChunk 0 (.hbm (2 ^ 48) 0 0), .restoreListEnd (.stage (2 ^ 48) 0 false), .bar2Write 0 0 (List.replicate 4097 0) .none].all
      (fun i => !i.wf) = true := by decide +kernel

/-! ### Worked values of the spec -/

/-- spec/01_execution_contract.md: chip (5, 17, 3) is 3,621. -/
theorem test_chip_number : (chipX 3621, chipY 3621, chipZ 3621) = (5, 17, 3) := by decide +kernel

/-- The reference value of R285. -/
theorem test_crc32c : crc32c [0x31, 0x32, 0x33, 0x34, 0x35, 0x36, 0x37, 0x38, 0x39] = 0xE3069283 := by decide +kernel

/-- R215: DPA 0x0023_4567_8000 with no pseudo-channel retired, and its next granule. -/
theorem test_hbm_locate : hbmLocate [] 0x2345678000 = (222, 0x11A2B000) ∧ hbmLocate [] 0x2345679000 = (223, 0x11A2B000) := by
  decide +kernel

/-- The example after R222: pseudo-channel 222 retired. -/
theorem test_hbm_displaced : hbmLocate [222] 0x2345678000 = (184, 0x5FF72000) ∧ hbmLocate [222] 0x2345679000 = (223, 0x11A2B000) := by
  decide +kernel

/-- The example of a window miss (R50, R52): anchor 7, spread 49, replay in ACC4. -/
theorem test_window_miss : anchorOf [(131, 130), (112, 100)] = 7 ∧ maxSpread 7 [(131, 130), (112, 100)] = 49 ∧ replayFmt 49 = .acc4 := by
  decide +kernel

/-- The example of an FP8 tile with a scale step (R61). -/
theorem test_scale_step :
    fp8Overflows .e4m3 [.fin ⟨2017, 10⟩] 3 .rne [0] = true ∧ fp8Overflows .e4m3 [.fin ⟨2017, 10⟩] 2 .rne [0] = true ∧
    fp8Overflows .e4m3 [.fin ⟨2017, 10⟩] 1 .rne [0] = false ∧
    fp8Codes .e4m3 [.fin ⟨2017, 10⟩, .fin ⟨-1171875, 100000000⟩] 1 .rne [0, 0] = [0x7D, 0x8C] ∧ sidecarEntry 1 2 false = 0x201 := by
  decide +kernel

/-- The example of an MXFP4 block: scale 129, codes of 3, 1.5 and +0; under SR with u = 0x2000_0000 the first becomes 4. -/
theorem test_mxfp4_block :
    encodeBlock .e2m1 [.fin ⟨133, 10⟩, .fin ⟨51, 10⟩, .fin ⟨-9, 10⟩] .rne [0, 0, 0] = (129, [5, 3, 0]) ∧
    (encodeBlock .e2m1 [.fin ⟨133, 10⟩] .sr [0x20000000]).2 = [6] := by decide +kernel

/-- The example after R109: a TANH output of 0.75 gives 0.4375. -/
theorem test_tanh_derivative : dActOf 2 false 0 0x3F400000 = 0x3EE00000 := by decide +kernel

/-- The example of a variance (R113): 10,000.625 and 0.078125. -/
theorem test_mean_variance :
    ((meanVar [0x461C4100, 0x461C4200, 0x461C4300, 0x461C4400]).1.rounded false,
      (meanVar [0x461C4100, 0x461C4200, 0x461C4300, 0x461C4400]).2.rounded false) = (0x461C4280, 0x3DA00000) := by decide +kernel

/-- The example of one repeat (R363): 11.25 overflows code 130 and fits code 134. -/
theorem test_aq_repeat : (aq32Quantise 130 (.fin ⟨45, 4⟩)).2 = true ∧ aq32Quantise 130 (.fin ⟨-31, 1000000000⟩) = (.fin ⟨-8, 1⟩, false) ∧
    aq32Quantise 134 (.fin ⟨45, 4⟩) = (.fin ⟨188743680, 1⟩, false) := by decide +kernel

/-- The example of spec/18_register_map.md: three registers. -/
theorem test_register_places : Reg.SEQ_TOKEN 12 40 = 0x711140 ∧ Reg.RNK_SKEW_MAP 12 5 = 0x703808 ∧ Reg.MOV_FP 9 = 0x231130 := by decide +kernel

/-- The example of R503. -/
theorem test_bus_address : (State.reset.wr (Reg.HIF_HWIN_OFF 1) 0x200000000000).busAddr 1 0x2000 = 0x200000002000 := by decide +kernel

/-- The example of one unicast route: from (5, 17, 3) to (29, 2, 20) in 32 × 32 × 24. -/
theorem test_route_directions :
    let s := ((State.reset.setFld Reg.IDM_BOARD0 Fld.IDM_BOARD0_DX 32).setFld Reg.IDM_BOARD0 Fld.IDM_BOARD0_DY 32).setFld Reg.IDM_BOARD0
      Fld.IDM_BOARD0_DZ 24
    [0, 1, 2].map (s.productive 3621 (20 * 1024 + 2 * 32 + 29)) = [[1], [3], [5]] := by decide +kernel

/-- The encoding example of MMA.F (R180): line 5 of the forward skeleton. -/
theorem test_mma_fields :
    let e : QEntry := { word := 0x10100C14030205050000000000000010 }
    (e.mma.kind, e.mma.rank, e.mma.n, e.mma.acc, e.mma.rnd, e.mma.tiles) = (0, 0, 10, 0, false, 16) ∧
      (bitsOf e.word 95 88, bitsOf e.word 87 80, bitsOf e.word 79 72) = (3, 2, 5) ∧
      (bitsOf e.word 111 104, bitsOf e.word 103 96) = (12, 20) := by decide +kernel
end Machine
end Sys2Proof
end

section
/-!
SUPPORT. Reads after a write that need no canonical form, and where the registers of `observes` lie.
-/
namespace Sys2Proof.Machine

variable {s : State}

/-- A register just written reads as what was written, whatever the form of the table. -/
theorem rd_wr_here (s : State) (off : Nat) (v : BitVec 64) : (s.wr off v).rd off = v :=
  (Tab.get_set (regReset off) s.regs off v off).trans (if_pos rfl)

theorem rd_setFld_here (s : State) (off : Nat) (f : Field) (n : Nat) : (s.setFld off f n).rd off = putField (s.rd off) f n :=
  rd_wr_here s off _

theorem fld_setFld_here (s : State) (off : Nat) (f : Field) (n : Nat) (hf : f.lo + f.width ≤ 64) :
    (s.setFld off f n).fld off f = n % 2 ^ f.width := by
  rw [fld_def, rd_setFld_here, getField_putField _ _ _ hf]

theorem fld_setFld_beside (s : State) (off : Nat) (f g : Field) (n : Nat) (hf : f.lo + f.width ≤ 64)
    (hd : g.lo + g.width ≤ f.lo ∨ f.lo + f.width ≤ g.lo) : (s.setFld off f n).fld off g = s.fld off g := by
  rw [fld_def, rd_setFld_here, getField_putField_ne _ _ _ _ hf hd]; rfl

/-- A field of a register is as before where the register is. -/
theorem fld_of_rd {s t : State} {off : Nat} (f : Field) (h : t.rd off = s.rd off) : t.fld off f = s.fld off f := by
  rw [fld_def, h]; rfl

/-- A counter just counted, read whole. -/
theorem rd_cnt_here (s : State) (off : Nat) : (s.cnt off).rd off = putField (s.rd off) Fld.COUNT (s.fld off Fld.COUNT + 1) :=
  rd_setFld_here s off _ _

/-- A flag and its counter, just raised (R6). -/
theorem raised_event (s : State) (st : Nat) (f : Field) (ct : Nat) (h : st ≠ ct) : raised st f ct s (s.event st f ct) := by
  unfold State.event
  refine ⟨?_, ?_⟩
  · rw [rd_cnt_ne h, rd_setFld_here]
  · rw [rd_cnt_here, rd_setFld_ne f 1 h.symm, fld_setFld_ne f _ 1 h.symm]

/-- Raising a flag is a fact about two registers before and after. -/
theorem raised_congr {st ct : Nat} {f : Field} {s t s' t' : State} (h : raised st f ct s t) (h1 : s'.rd st = s.rd st)
    (h2 : s'.rd ct = s.rd ct) (h3 : t'.rd st = t.rd st) (h4 : t'.rd ct = t.rd ct) : raised st f ct s' t' := by
  obtain ⟨hs, hc⟩ := h
  exact ⟨by rw [h3, h1, hs], by rw [h4, h2, fld_of_rd _ h2, hc]⟩

/-- Which registers recording an event leaves alone, in arithmetic. -/
theorem observes_eq_false {off : Nat} : observes off = false ↔ ¬ (off = 0x60008 ∨ off = 0x60600 ∨ off = 0x60608 ∨
    (0x60108 ≤ off ∧ off < 0x60608 ∧ off % 16 = 8) ∨ (0x61008 ≤ off ∧ off < 0x61208 ∧ off % 16 = 8) ∨
    (0x110000 ≤ off ∧ off < 0x1d0000 ∧ 0x908 ≤ (off - 0x110000) % 0x10000 ∧ (off - 0x110000) % 0x10000 < 0xa08 ∧ off % 16 = 8) ∨
    (0x400000 ≤ off ∧ 0x9008 ≤ (off - 0x400000) % 0x40000 ∧ (off - 0x400000) % 0x40000 < 0x9088 ∧ off % 16 = 8)) := by
  rw [← Bool.not_eq_true]
  simp only [observes, Bool.or_eq_true, Bool.and_eq_true, beq_iff_eq, Nat.ble_eq, Nat.blt_eq, or_assoc, and_assoc]

end Sys2Proof.Machine
end

section
/-!
SUPPORT. The counters of clock cycles (R488, R490) and the tick of the clock (spec/01_execution_contract.md, after R24).
-/
namespace Sys2Proof.Machine

variable {s : State}

theorem rd_countOne_ne {sel cntr src filt n off : Nat} (h : off ≠ cntr) : (s.countOne sel cntr src filt n).rd off = s.rd off := by
  unfold State.countOne
  split
  · rw [rd_setFld_ne _ _ h, rd_setFld_ne _ _ h]
  · rfl

/-- A counter takes an event without a filter exactly where its SRC names it. -/
theorem fld_countOne_here (s : State) (sel cntr src n : Nat) : (s.countOne sel cntr src 0 n).fld cntr Fld.CNT_GLB_COUNT =
    if s.fld sel Fld.CNT_GLB_SEL_SRC = src ∧ src ≠ 0 then (s.fld cntr Fld.CNT_GLB_COUNT + n) % 2 ^ 48
    else s.fld cntr Fld.CNT_GLB_COUNT := by
  unfold State.countOne
  simp only [true_or, or_true, and_true]
  split
  · rw [fld_setFld_beside _ _ _ _ _ (by decide) (by decide), fld_setFld_here _ _ _ _ (by decide)]; rfl
  · rfl

/-- Counting in other counters leaves a register alone. -/
theorem rd_countAll_ne {l : List Nat} {sel cntr : Nat → Nat} {src filt n off : Nat} (h : ∀ g ∈ l, off ≠ cntr g) :
    (l.foldl (fun (s : State) g => s.countOne (sel g) (cntr g) src filt n) s).rd off = s.rd off := by
  induction l generalizing s with
  | nil => rfl
  | cons g l ih =>
    exact (ih (fun i hi => h i (List.mem_cons_of_mem g hi))).trans (rd_countOne_ne (h g List.mem_cons_self))

/-- Of several counters each takes an event as it would alone. -/
theorem fld_countAll_mem {l : List Nat} {sel cntr : Nat → Nat} (src n g : Nat) (hl : l.Nodup) (hg : g ∈ l)
    (hs : ∀ i j, sel i ≠ cntr j) (hc : ∀ i j, cntr i = cntr j → i = j) :
    (l.foldl (fun (s : State) i => s.countOne (sel i) (cntr i) src 0 n) s).fld (cntr g) Fld.CNT_GLB_COUNT =
      (s.countOne (sel g) (cntr g) src 0 n).fld (cntr g) Fld.CNT_GLB_COUNT := by
  induction l generalizing s with
  | nil => cases hg
  | cons i l ih =>
    obtain ⟨hi, hl⟩ := List.nodup_cons.mp hl
    by_cases hgi : g = i
    · subst hgi
      rw [List.foldl_cons]
      refine fld_of_rd _ (rd_countAll_ne (fun j hj e => hi ?_))
      rwa [hc g j e]
    · have hg : g ∈ l := (List.mem_cons.mp hg).resolve_left hgi
      have hne : cntr g ≠ cntr i := fun e => hgi (hc _ _ e)
      refine (ih hl hg).trans ?_
      rw [fld_countOne_here, fld_countOne_here, fld_of_rd _ (rd_countOne_ne (hs g i)), fld_of_rd _ (rd_countOne_ne hne)]

/-- A global counter takes an event without a filter exactly where its SRC names it. -/
theorem fld_bumpGlb_count (s : State) (src n : Nat) {g : Nat} (hg : g < 32) :
    (s.bumpGlb src 0 n).fld (Reg.CNT_GLB g) Fld.CNT_GLB_COUNT =
      if s.fld (Reg.CNT_GLB_SEL g) Fld.CNT_GLB_SEL_SRC = src ∧ src ≠ 0 then (s.fld (Reg.CNT_GLB g) Fld.CNT_GLB_COUNT + n) % 2 ^ 48
      else s.fld (Reg.CNT_GLB g) Fld.CNT_GLB_COUNT := by
  refine (fld_countAll_mem src n g List.nodup_range (List.mem_range.mpr hg) ?_ ?_).trans (fld_countOne_here _ _ _ _ _)
  · intro i j; simp only [Reg.CNT_GLB, Reg.CNT_GLB_SEL]; omega
  · intro i j; simp only [Reg.CNT_GLB]; omega

theorem fld_bumpGlb_sel (s : State) (src filt n g : Nat) (f : Field) :
    (s.bumpGlb src filt n).fld (Reg.CNT_GLB_SEL g) f = s.fld (Reg.CNT_GLB_SEL g) f :=
  fld_of_rd f (rd_countAll_ne (fun i _ => by simp only [Reg.CNT_GLB, Reg.CNT_GLB_SEL]; omega))

theorem rd_bumpClu_glb (s : State) (c src filt n : Nat) {g : Nat} (hg : g < 32) :
    (s.bumpClu c src filt n).rd (Reg.CNT_GLB g) = s.rd (Reg.CNT_GLB g) :=
  rd_countAll_ne (fun j _ => by simp only [Reg.CNT_GLB, Reg.CNT_CLU]; omega)

/-- The cycles of a cluster are counted by its own counters alone: those of the core, and those of one further source. -/
theorem cluCycles_eq (s : State) (c n : Nat) :
    s.cluCycles c n = s.bumpClu c 0x01 0 n ∨ ∃ src filt, s.cluCycles c n = (s.bumpClu c 0x01 0 n).bumpClu c src filt n := by
  unfold State.cluCycles
  dsimp only
  split
  · split
    · exact .inr ⟨_, _, rfl⟩
    · exact .inr ⟨_, _, rfl⟩
    · exact .inl rfl
  · split
    · exact .inl rfl
    · split
      · exact .inr ⟨_, _, rfl⟩
      · exact .inl rfl

theorem Near.cluCycles {e : Nat → Prop} {t : State} (h : Near e s t) (c n : Nat) : Near e s (t.cluCycles c n) := by
  rcases cluCycles_eq t c n with hc | ⟨src, filt, hc⟩
  · rw [hc]; exact h.bumpClu c _ _ _
  · rw [hc]; exact (h.bumpClu c _ _ _).bumpClu c _ _ _

theorem rd_cluCycles_glb (s : State) (c n : Nat) {g : Nat} (hg : g < 32) :
    (s.cluCycles c n).rd (Reg.CNT_GLB g) = s.rd (Reg.CNT_GLB g) := by
  rcases cluCycles_eq s c n with hc | ⟨src, filt, hc⟩
  · rw [hc, rd_bumpClu_glb _ _ _ _ _ hg]
  · rw [hc, rd_bumpClu_glb _ _ _ _ _ hg, rd_bumpClu_glb _ _ _ _ _ hg]

theorem rd_foldl_cluCycles_glb (l : List Nat) (n : Nat) {g : Nat} (hg : g < 32) :
    (l.foldl (fun (s : State) c => s.cluCycles c n) s).rd (Reg.CNT_GLB g) = s.rd (Reg.CNT_GLB g) := by
  induction l generalizing s with
  | nil => rfl
  | cons c l ih => exact ih.trans (rd_cluCycles_glb s c n hg)

/-- The state once the part of a core cycle that is left over has been kept. -/
def State.cycleKept (s : State) : State := { s with pw := { s.pw with coreRem := (s.pw.coreRem + s.coreMHz) % 1000 } }

theorem countCycles_near (s : State) : Near (fun _ => False) s.cycleKept s.countCycles :=
  (((Near.refl _ s.cycleKept).bumpGlb _ _ _).bumpGlb _ _ _).foldl (fun x c _ => (Near.refl _ x).cluCycles c _)

/-- A global counter of core cycles takes the whole ones of the nanosecond (R490). -/
theorem fld_countCycles_core (s : State) {g : Nat} (hg : g < 32) (h : s.fld (Reg.CNT_GLB_SEL g) Fld.CNT_GLB_SEL_SRC = 2) :
    s.countCycles.fld (Reg.CNT_GLB g) Fld.CNT_GLB_COUNT =
      (s.fld (Reg.CNT_GLB g) Fld.CNT_GLB_COUNT + (s.pw.coreRem + s.coreMHz) / 1000) % 2 ^ 48 := by
  have hk : ∀ off f, s.cycleKept.fld off f = s.fld off f := fun _ _ => rfl
  refine (fld_of_rd _ (rd_foldl_cluCycles_glb _ _ hg)).trans ?_
  rw [fld_bumpGlb_count _ _ _ hg, fld_bumpGlb_sel, if_pos ⟨(hk _ _).trans h, by decide⟩, fld_bumpGlb_count _ _ _ hg,
    if_neg (fun x => absurd (((hk _ _).trans h).symm.trans x.1) (by decide))]
  rfl

theorem tick_of_running (s : State) (hp : s.tr.powered = true) (ht : s.pw.tripOut = false) :
    s.tick = s.countCycles.wr Reg.CAD_TSC (s.rd Reg.CAD_TSC + 1) := by
  have hn := countCycles_near s
  have htr : s.countCycles.tr = s.tr := by rw [hn.eq]; rfl
  have htsc : s.countCycles.rd Reg.CAD_TSC = s.rd Reg.CAD_TSC := hn.regs _ (fun h => h) (by decide)
  simp only [State.tick, State.stopped, hp, ht, htr, htsc, Bool.not_true, Bool.or_self, Bool.false_eq_true, if_false, if_true]

theorem tick_of_tripped (s : State) (hp : s.tr.powered = true) (ht : s.pw.tripOut = true) :
    s.tick = s.wr Reg.CAD_TSC (s.rd Reg.CAD_TSC + 1) := by
  simp only [State.tick, State.stopped, hp, ht, Bool.true_or, if_true]

theorem tick_of_unpowered (s : State) (hp : s.tr.powered = false) : s.tick = s := by
  simp only [State.tick, State.stopped, hp, Bool.not_false, Bool.or_true, Bool.false_eq_true, if_false, if_true]

theorem step_of_idle (h : s.pending = []) : step s = .next s.tick := by unfold step; rw [h]

/-- Settles O5: the three states of the clocks give the three forms of the tick. -/
theorem idleTick : Obligations.IdleTick := by
  intro s _ hq
  rw [step_of_idle hq]
  refine ⟨fun hp ht => ⟨_, rfl, ?_, fun g hg hsel => ?_, ?_⟩, fun hp ht => ⟨_, rfl, ?_, ?_⟩, fun hp => ?_⟩
  · rw [tick_of_running s hp ht, rd_wr_here]
  · rw [tick_of_running s hp ht, fld_wr_ne _ _ (by simp only [Reg.CNT_GLB, Reg.CAD_TSC]; omega), fld_countCycles_core s hg hsel]
  · rw [tick_of_running s hp ht]
    exact ((countCycles_near s).mono (fun _ h => h.elim)).wr _ _ (.inl rfl)
  · rw [tick_of_tripped s hp ht, rd_wr_here]
  · rw [tick_of_tripped s hp ht]
    exact near_wr _ _ (.inl rfl)
  · rw [tick_of_unpowered s hp]

end Sys2Proof.Machine
end

section
/-!
SUPPORT. Arms (R25 to R27): when an arm is due, what a write of it does, and the one-shot firing of a TRACE_OPEN arm.
-/
namespace Sys2Proof.Machine

variable {s : State} {a : ArmId}

theorem ctl_ne_pos (a : ArmId) : a.ctl ≠ a.pos := by
  cases a <;> simp only [ArmId.ctl, ArmId.pos, Reg.CAD_GARM_CTL, Reg.CAD_GARM_POS, Reg.CLU_ARM_CTL, Reg.CLU_ARM_POS] <;> omega

theorem cadPos_ne_pos (a : ArmId) : Reg.CAD_POS ≠ a.pos := by
  cases a <;> simp only [ArmId.pos, Reg.CAD_POS, Reg.CAD_GARM_POS, Reg.CLU_ARM_POS] <;> omega

theorem cadPos_ne_ctl (a : ArmId) : Reg.CAD_POS ≠ a.ctl := by
  cases a <;> simp only [ArmId.ctl, Reg.CAD_POS, Reg.CAD_GARM_CTL, Reg.CLU_ARM_CTL] <;> omega

theorem armDue_iff : s.armDue a = true ↔ s.fld a.ctl Fld.CAD_GARM_CTL_ACTION ≠ 0 ∧ s.fld a.ctl Fld.CAD_GARM_CTL_FIRED = 0 ∧
    s.rd a.pos ≤ s.rd Reg.CAD_POS := by
  simp [State.armDue, and_assoc]

theorem armDue_of_ahead (h : s.rd Reg.CAD_POS < s.rd a.pos) : s.armDue a = false :=
  Bool.eq_false_iff.mpr (fun hd => absurd (armDue_iff.mp hd).2.2 (BitVec.not_le.mpr h))

theorem armDue_of_fired (h : s.fld a.ctl Fld.CAD_GARM_CTL_FIRED = 1) : s.armDue a = false :=
  Bool.eq_false_iff.mpr (fun hd => absurd (h.symm.trans (armDue_iff.mp hd).2.1) (by decide))

theorem armDue_of_disabled (h : s.fld a.ctl Fld.CAD_GARM_CTL_ACTION = 0) : s.armDue a = false :=
  Bool.eq_false_iff.mpr (fun hd => (armDue_iff.mp hd).1 h)

theorem armRun_of_not_due (n : Nat) (late : Bool) (h : s.armDue a = false) : State.armRun n s a late = s := by
  cases n with
  | zero => rfl
  | succ n => simp [State.armRun, h]

theorem fireArm_of_not_due (late : Bool) (h : s.armDue a = false) : s.fireArm late a = s := armRun_of_not_due _ _ h

/-- An arm that is due and inert after one firing fires once. -/
theorem fireArm_once (late : Bool) (h : s.armDue a = true) (hf : (s.armFire a late).armDue a = false) :
    s.fireArm late a = s.armFire a late := by
  show State.armRun (stepOf (s.rd Reg.CAD_POS) - stepOf (s.rd a.pos) + 1) s a late = _
  rw [State.armRun, if_pos h, armRun_of_not_due _ _ hf]

theorem writeArmPos_accepted {b : Nat} {v : BitVec 64} (h : armRejected b a v (s.rd a.ctl) = false) :
    s.writeArmPos b a v = (s.wr a.pos v).fireArm true a := by
  simp [State.writeArmPos, h]

theorem writeArmPos_rejected {b : Nat} {v : BitVec 64} (h : armRejected b a v (s.rd a.ctl) = true) :
    s.writeArmPos b a v = s.armError := by
  simp [State.writeArmPos, h]

/-- The fields that a write of CTL takes. -/
theorem armCtl_mask : fieldMask Fld.CAD_GARM_CTL_ACTION ||| fieldMask Fld.CAD_GARM_CTL_ARG ||| fieldMask Fld.CAD_GARM_CTL_REPEAT =
    0xFFFFFFFF000F := by decide

theorem writeArmCtl_accepted {b : Nat} {v : BitVec 64} (h : armRejected b a (s.rd a.pos) (v &&& 0xFFFFFFFF000F) = false) :
    s.writeArmCtl b a v = (s.wr a.ctl (v &&& 0xFFFFFFFF000F)).fireArm true a := by
  simp only [State.writeArmCtl, armCtl_mask, h, Bool.false_eq_true, if_false]

theorem exec_armPosWrite {b : Fin 4} {v : BitVec 64} (hb : b.val ≤ 1) : exec (.armPosWrite b a v) s = .next (s.writeArmPos b a v) := by
  show Host.Outcome.next (if b.val ≤ 1 then s.writeArmPos b a v else s) = _
  rw [if_pos hb]

theorem exec_armCtlWrite {b : Fin 4} {v : BitVec 64} (hb : b.val ≤ 1) : exec (.armCtlWrite b a v) s = .next (s.writeArmCtl b a v) := by
  show Host.Outcome.next (if b.val ≤ 1 then s.writeArmCtl b a v else s) = _
  rw [if_pos hb]

theorem exec_armWrites_ignored {b : Fin 4} {v : BitVec 64} (hb : 1 < b.val) :
    exec (.armPosWrite b a v) s = .next s ∧ exec (.armCtlWrite b a v) s = .next s := by
  have h : ¬ b.val ≤ 1 := Nat.not_le.mpr hb
  exact ⟨congrArg Host.Outcome.next (if_neg h), congrArg Host.Outcome.next (if_neg h)⟩

/-- R27 as the words of the rule list it. -/
theorem armRejected_iff {b : Nat} {pos ctl : BitVec 64} (hb : b ≤ 1) :
    armRejected b a pos ctl = true ↔ getField ctl Fld.CAD_GARM_CTL_ACTION ≠ 0 ∧
      (9 ≤ getField ctl Fld.CAD_GARM_CTL_ACTION ∨ (b = 1 ∧ getField ctl Fld.CAD_GARM_CTL_ACTION ∈ [1, 6]) ∨
        (getField ctl Fld.CAD_GARM_CTL_ACTION = 8 ∧ ∃ i, a = .glob i) ∨
        (getField ctl Fld.CAD_GARM_CTL_ACTION = 6 ∧ pos.toNat / 2 ^ 20 % 16 ≠ 4)) := by
  have hb1 : b ≠ 0 ↔ b = 1 := by omega
  have hg : a.isGlobal = true ↔ ∃ i, a = .glob i := by cases a <;> simp [ArmId.isGlobal]
  simp only [armRejected, phaseOf, phaseUpd, Bool.and_eq_true, Bool.or_eq_true, bne_iff_ne, beq_iff_eq, decide_eq_true_eq, hb1, hg,
    Nat.succ_le_iff, List.mem_cons, List.not_mem_nil, or_false, or_assoc]

theorem observes_garmCtl (i : Fin 64) : observes (Reg.CAD_GARM_CTL i) = false :=
  observes_eq_false.mpr (by simp only [Reg.CAD_GARM_CTL]; omega)

/-! ### Trace windows (R480) -/

theorem near_setWindow (s : State) (w : Nat) (v : Bool) : Near (· = Reg.TRC_WINDOW (w / 64)) s (s.setWindow w v) := by
  unfold State.setWindow
  split
  · exact Near.refl _ s
  · exact (near_wr (e := (· = Reg.TRC_WINDOW (w / 64))) _ _ (.inl rfl)).trace (show 78 < 80 by decide) _ _ _ _

theorem windowOpen_setWindow (s : State) {w : Nat} (hw : w < 256) : (s.setWindow w true).windowOpen w = true := by
  unfold State.setWindow
  split
  · assumption
  · have ho : observes (Reg.TRC_WINDOW (w / 64)) = false := by
      have : w / 64 = 0 ∨ w / 64 = 1 ∨ w / 64 = 2 ∨ w / 64 = 3 := by omega
      rcases this with h | h | h | h <;> rw [h] <;> decide
    rw [State.windowOpen, Near.fld ((Near.refl (fun _ => False) _).trace (show 78 < 80 by decide) _ _ _ _) _ id ho,
      fld_setFld_here _ _ _ _ (show w % 64 + 1 ≤ 64 by omega)]
    rfl

/-! ### A one-shot TRACE_OPEN arm written late -/

/-- The fields of the word that enables a one-shot TRACE_OPEN arm of window `w`. -/
theorem traceOpenWord_fields (w : Fin 256) : let v := BitVec.ofNat 64 (4 + w * 2 ^ 16)
    v &&& 0xFFFFFFFF000F = v ∧ getField v Fld.CAD_GARM_CTL_ACTION = 4 ∧ getField v Fld.CAD_GARM_CTL_FIRED = 0 ∧
      getField v Fld.CAD_GARM_CTL_ARG = w ∧ getField v Fld.CAD_GARM_CTL_REPEAT = 0 := by
  revert w; decide +kernel

/-- An arm's register once it has fired late for the last time, with the flag and the count of that (R26). -/
def State.firedLate (s : State) (a : ArmId) : State :=
  ((s.setFld a.ctl Fld.CAD_GARM_CTL_LATE 1).event Reg.CAD_STATUS Fld.CAD_STATUS_ARM_LATE Reg.CAD_LATE_CNT).setFld
    a.ctl Fld.CAD_GARM_CTL_FIRED 1

theorem armFire_late_once (hk : s.fld a.ctl Fld.CAD_GARM_CTL_REPEAT = 0) : s.armFire a true =
    (s.firedLate a).armAction a (stepOf (s.rd a.pos)) (s.fld a.ctl Fld.CAD_GARM_CTL_ACTION) (s.fld a.ctl Fld.CAD_GARM_CTL_ARG) := by
  simp [State.armFire, State.firedLate, hk]

theorem fired_firedLate (s : State) (a : ArmId) : (s.firedLate a).fld a.ctl Fld.CAD_GARM_CTL_FIRED = 1 :=
  fld_setFld_here _ _ _ _ (by decide)

theorem late_firedLate (s : State) {a : ArmId} (h1 : a.ctl ≠ Reg.CAD_STATUS) (h2 : a.ctl ≠ Reg.CAD_LATE_CNT) :
    (s.firedLate a).fld a.ctl Fld.CAD_GARM_CTL_LATE = 1 := by
  rw [State.firedLate, fld_setFld_beside _ _ _ _ _ (by decide) (by decide), fld_event_ne _ _ h1 h2, fld_setFld_here _ _ _ _ (by decide)]
  rfl

theorem raised_firedLate (s : State) {a : ArmId} (h1 : Reg.CAD_STATUS ≠ a.ctl) (h2 : Reg.CAD_LATE_CNT ≠ a.ctl) :
    raised Reg.CAD_STATUS Fld.CAD_STATUS_ARM_LATE Reg.CAD_LATE_CNT s (s.firedLate a) := by
  exact raised_congr (raised_event (s.setFld a.ctl Fld.CAD_GARM_CTL_LATE 1) _ _ _ (by decide)) (rd_setFld_ne _ _ h1).symm
    (rd_setFld_ne _ _ h2).symm (rd_setFld_ne _ _ h1) (rd_setFld_ne _ _ h2)

theorem near_firedLate (s : State) (a : ArmId) :
    Near (fun o => o = a.ctl ∨ o = Reg.CAD_STATUS ∨ o = Reg.CAD_LATE_CNT) s (s.firedLate a) :=
  (((Near.refl _ s).setFld _ _ _ (.inl (.inl rfl))).event _ _ _ (.inl (.inr (.inl rfl))) (.inl (.inr (.inr rfl)))).setFld _ _ _
    (.inl (.inl rfl))

/-- A one-shot TRACE_OPEN arm at or below CAD_POS: it is marked LATE and FIRED, and its window is opened. -/
theorem fireArm_traceOpen {w : Nat} (hw : w < 256) (hd : s.armDue a = true) (ha : s.fld a.ctl Fld.CAD_GARM_CTL_ACTION = 4)
    (hg : s.fld a.ctl Fld.CAD_GARM_CTL_ARG = w) (hk : s.fld a.ctl Fld.CAD_GARM_CTL_REPEAT = 0) (hn : a.ctl ≠ Reg.TRC_WINDOW (w / 64))
    (ho : observes a.ctl = false) : s.fireArm true a = (s.firedLate a).setWindow w true := by
  have hfire : s.armFire a true = (s.firedLate a).setWindow w true := by
    rw [armFire_late_once hk, ha, hg]
    exact congrArg (fun x => (s.firedLate a).setWindow x true) (Nat.mod_eq_of_lt hw)
  rw [fireArm_once true hd, hfire]
  rw [hfire]
  exact armDue_of_fired (((near_setWindow _ w true).fld _ hn ho).trans (fired_firedLate s a))

/-- A write of CTL enables such an arm. -/
theorem armDue_traceOpen (w : Fin 256) (h : s.rd a.pos ≤ s.rd Reg.CAD_POS) :
    (s.wr a.ctl (BitVec.ofNat 64 (4 + w * 2 ^ 16))).armDue a = true := by
  obtain ⟨-, hact, hfired, -⟩ := traceOpenWord_fields w
  rw [armDue_iff, fld_def, fld_def, rd_wr_here, hact, hfired, rd_wr_ne _ (ctl_ne_pos a).symm, rd_wr_ne _ (cadPos_ne_ctl a)]
  exact ⟨by decide, rfl, h⟩

/-- What a one-shot TRACE_OPEN arm leaves that is written at or below CAD_POS (R26, R32, R480). -/
theorem traceOpenArm_fires (s : State) (b : Fin 4) (i : Fin 64) (w : Fin 256) (hb : b.val ≤ 1)
    (hpos : s.rd (Reg.CAD_GARM_POS i) ≤ s.rd Reg.CAD_POS) :
    Completes (.armCtlWrite b (.glob i) (BitVec.ofNat 64 (4 + w * 2 ^ 16))) s (fun t =>
      t.fld (Reg.CAD_GARM_CTL i) Fld.CAD_GARM_CTL_FIRED = 1 ∧ t.fld (Reg.CAD_GARM_CTL i) Fld.CAD_GARM_CTL_LATE = 1 ∧
      raised Reg.CAD_STATUS Fld.CAD_STATUS_ARM_LATE Reg.CAD_LATE_CNT s t ∧ t.windowOpen w = true ∧
      Near (fun o => o = Reg.CAD_GARM_CTL i ∨ o = Reg.CAD_STATUS ∨ o = Reg.CAD_LATE_CNT ∨ o = Reg.TRC_WINDOW (w / 64)) s t) := by
  obtain ⟨hmask, hact, -, harg, hrep⟩ := traceOpenWord_fields w
  generalize hv : BitVec.ofNat 64 (4 + w * 2 ^ 16) = v at hmask hact harg hrep
  have hok : armRejected b (.glob i) (s.rd (ArmId.glob i).pos) (v &&& 0xFFFFFFFF000F) = false := by
    rw [Bool.eq_false_iff, Ne, armRejected_iff hb, hmask, hact]
    simp
  have ho := observes_garmCtl i
  have hst : Reg.CAD_STATUS ≠ Reg.CAD_GARM_CTL i := by simp only [Reg.CAD_STATUS, Reg.CAD_GARM_CTL]; omega
  have hct : Reg.CAD_LATE_CNT ≠ Reg.CAD_GARM_CTL i := by simp only [Reg.CAD_LATE_CNT, Reg.CAD_GARM_CTL]; omega
  have hwin : Reg.CAD_GARM_CTL i ≠ Reg.TRC_WINDOW (w / 64) := by simp only [Reg.TRC_WINDOW, Reg.CAD_GARM_CTL]; omega
  have hstw : Reg.CAD_STATUS ≠ Reg.TRC_WINDOW (w / 64) := by simp only [Reg.TRC_WINDOW, Reg.CAD_STATUS]; omega
  have hctw : Reg.CAD_LATE_CNT ≠ Reg.TRC_WINDOW (w / 64) := by simp only [Reg.TRC_WINDOW, Reg.CAD_LATE_CNT]; omega
  have hfire : (s.wr (Reg.CAD_GARM_CTL i) v).fireArm true (.glob i) =
      ((s.wr (Reg.CAD_GARM_CTL i) v).firedLate (.glob i)).setWindow w true := by
    refine fireArm_traceOpen w.isLt (hv ▸ armDue_traceOpen w hpos) ?_ ?_ ?_ hwin ho
    all_goals rw [fld_def, ArmId.ctl, rd_wr_here]; assumption
  have hnear := near_setWindow ((s.wr (Reg.CAD_GARM_CTL i) v).firedLate (.glob i)) w true
  refine ⟨_, exec_armCtlWrite hb, ?_⟩
  rw [writeArmCtl_accepted hok, hmask, ArmId.ctl, hfire]
  refine ⟨(hnear.fld _ hwin ho).trans (fired_firedLate _ _), (hnear.fld _ hwin ho).trans (late_firedLate _ hst.symm hct.symm), ?_,
    windowOpen_setWindow _ w.isLt, ?_⟩
  · exact raised_congr (raised_firedLate (a := .glob i) _ hst hct) (rd_wr_ne _ hst).symm (rd_wr_ne _ hct).symm (hnear.regs _ hstw (by decide))
      (hnear.regs _ hctw (by decide))
  · refine ((near_wr _ _ (.inl (.inl rfl))).trans ((near_firedLate _ _).mono ?_)).trans (hnear.mono ?_)
    · exact fun o h => h.imp_right (Or.imp_right .inl)
    · exact fun o h => .inr (.inr (.inr h))

/-- Settles O15, by what a write does to an arm that is ahead, rejected, or due at once. -/
theorem armWrites : Obligations.ArmWrites := by
  refine ⟨fun s b a v _ hb hok hpos => ?_, fun s b a v _ hb hok hpos => ?_, fun s b a v _ hb hrej => ?_,
    fun s b i w _ hb hpos => traceOpenArm_fires s b i w hb hpos, fun s b a v hb => exec_armWrites_ignored hb,
    fun b a pos ctl hb => armRejected_iff hb⟩
  · refine ⟨_, exec_armPosWrite hb, ?_⟩
    rw [writeArmPos_accepted hok, fireArm_of_not_due]
    · exact ⟨rd_wr_here _ _ _, near_wr _ _ (.inl rfl)⟩
    · apply armDue_of_ahead
      rwa [rd_wr_here, rd_wr_ne _ (cadPos_ne_pos a)]
  · refine ⟨_, exec_armCtlWrite hb, ?_⟩
    rw [writeArmCtl_accepted hok, fireArm_of_not_due]
    · exact ⟨rd_wr_here _ _ _, near_wr _ _ (.inl rfl)⟩
    · apply armDue_of_ahead
      rwa [rd_wr_ne _ (ctl_ne_pos a).symm, rd_wr_ne _ (cadPos_ne_ctl a)]
  · refine ⟨_, exec_armPosWrite hb, ?_⟩
    rw [writeArmPos_rejected hrej]
    exact ⟨raised_event _ _ _ _ (by decide), (Near.refl _ s).event _ _ _ (.inl (.inl rfl)) (.inl (.inr rfl))⟩

end Sys2Proof.Machine
end

section
/-!
SUPPORT. The sequencer (R132, R135 to R138, R144): the frame of what an instruction does to its own cluster, the way from a word that is
ready to its effect, and what the end of an instruction leaves.
-/
namespace Sys2Proof.Machine

variable {e : Nat → Prop} {c : Nat} {s t u : State}

/-! ### A cluster's record after a write of it -/

theorem cl_setCl_here (s : State) (c : Nat) (x : Cluster) : (s.setCl c x).cl c = x :=
  (Tab.get_set ({} : Cluster) s.clu c x c).trans (if_pos rfl)

theorem cl_setCl_ne (s : State) {c d : Nat} (x : Cluster) (h : d ≠ c) : (s.setCl c x).cl d = s.cl d :=
  (Tab.get_set ({} : Cluster) s.clu c x d).trans (if_neg h)

theorem cl_modCl_here (s : State) (c : Nat) (f : Cluster → Cluster) : (s.modCl c f).cl c = f (s.cl c) := cl_setCl_here s c _

/-! ### Recording events leaves the counts of activity as they are -/

theorem pw_foldl {β : Type} {f : State → β → State} (l : List β) (hf : ∀ x b, (f x b).pw = x.pw) : (l.foldl f s).pw = s.pw := by
  induction l generalizing s with
  | nil => rfl
  | cons b l ih => exact ih.trans (hf s b)

theorem pw_countOne (s : State) (sel cntr src filt n : Nat) : (s.countOne sel cntr src filt n).pw = s.pw := by
  unfold State.countOne; split <;> rfl

theorem pw_bumpGlb (s : State) (src filt n : Nat) : (s.bumpGlb src filt n).pw = s.pw := pw_foldl _ (fun x _ => pw_countOne x _ _ _ _ _)

theorem pw_bumpClu (s : State) (c src filt n : Nat) : (s.bumpClu c src filt n).pw = s.pw := pw_foldl _ (fun x _ => pw_countOne x _ _ _ _ _)

theorem pw_ringLose (s : State) (v : Nat) (a b : BitVec 64) : (s.ringLose v a b).pw = s.pw := pw_bumpGlb _ _ _ _

theorem pw_ringPut (s : State) (r : TraceRec) : (s.ringPut r).pw = s.pw := by
  unfold State.ringPut
  dsimp only
  split
  · rfl
  · split
    · exact pw_ringLose _ _ _ _
    · have hlose (old : TraceRec) (p : Prop) [Decidable p] : (if p then s.ringLose r.unit old.tsc old.cpos else s).pw = s.pw := by
        split
        · exact pw_ringLose _ _ _ _
        · rfl
      split <;> split <;> simp [pw_bumpClu, hlose]

theorem pw_trace (s : State) (v ev obj dur : Nat) (peer : BitVec 64) : (s.trace v ev obj dur peer).pw = s.pw := pw_ringPut _ _

theorem pw_triggerRing (s : State) (v source : Nat) : (s.triggerRing v source).pw = s.pw := by
  unfold State.triggerRing
  split
  · rfl
  · split
    · rfl
    · exact pw_trace _ _ _ _ _ _

theorem pw_trigger (s : State) (v source : Nat) : (s.trigger v source).pw = s.pw := by
  unfold State.trigger
  dsimp only
  split
  · exact pw_foldl _ (fun x b => pw_triggerRing x b source)
  · exact pw_triggerRing _ _ _

/-! ### The frame -/

/-- `t` is `s` but for the registers of `e`, the trace with its registers, and the record of cluster `c`. -/
structure SeqFrame (e : Nat → Prop) (c : Nat) (s t : State) : Prop where
  regs : ∀ off, ¬ e off → observes off = false → t.rd off = s.rd off
  rest : { t with regs := s.regs, rings := s.rings, clu := s.clu } = s
  others : ∀ d, d ≠ c → t.cl d = s.cl d

theorem SeqFrame.eq (h : SeqFrame e c s t) : t = { s with regs := t.regs, rings := t.rings, clu := t.clu } := by
  obtain ⟨_, h, _⟩ := h
  rw [← h]

theorem SeqFrame.refl (e : Nat → Prop) (c : Nat) (s : State) : SeqFrame e c s s := ⟨fun _ _ _ => rfl, rfl, fun _ _ => rfl⟩

theorem SeqFrame.trans (h : SeqFrame e c s t) (k : SeqFrame e c t u) : SeqFrame e c s u := by
  refine ⟨fun off he ho => (k.regs off he ho).trans (h.regs off he ho), ?_, fun d hd => (k.others d hd).trans (h.others d hd)⟩
  rw [k.eq, h.eq]

theorem SeqFrame.mono {e' : Nat → Prop} (h : SeqFrame e c s t) (hs : ∀ off, e off → e' off) : SeqFrame e' c s t :=
  ⟨fun off he ho => h.regs off (fun x => he (hs off x)) ho, h.rest, h.others⟩

/-- What records events but spends nothing keeps the frame. -/
theorem Near.seqFrame (h : Near e s t) (hp : t.pw = s.pw) (c : Nat) : SeqFrame e c s t := by
  refine ⟨h.regs, ?_, fun d _ => h.cl d⟩
  rw [h.eq, hp]

theorem seqFrame_wr (s : State) (c off : Nat) (v : BitVec 64) (he : e off) : SeqFrame e c s (s.wr off v) :=
  (near_wr off v (.inl he)).seqFrame rfl c

theorem seqFrame_setFld (s : State) (c off : Nat) (f : Field) (n : Nat) (he : e off) : SeqFrame e c s (s.setFld off f n) :=
  seqFrame_wr s c off _ he

theorem seqFrame_trace (e : Nat → Prop) (s : State) (c : Nat) {v : Nat} (hv : v < 80) (ev obj dur : Nat) (peer : BitVec 64) :
    SeqFrame e c s (s.trace v ev obj dur peer) :=
  ((Near.refl e s).trace hv ev obj dur peer).seqFrame (pw_trace _ _ _ _ _ _) c

theorem seqFrame_setCl (e : Nat → Prop) (s : State) (c : Nat) (x : Cluster) : SeqFrame e c s (s.setCl c x) :=
  ⟨fun _ _ _ => rfl, rfl, fun _ hd => cl_setCl_ne s x hd⟩

theorem seqFrame_modCl (e : Nat → Prop) (s : State) (c : Nat) (f : Cluster → Cluster) : SeqFrame e c s (s.modCl c f) :=
  seqFrame_setCl e s c _

theorem SeqFrame.fld (h : SeqFrame e c s t) {off : Nat} (f : Field) (he : ¬ e off) (ho : observes off = false) :
    t.fld off f = s.fld off f := fld_of_rd f (h.regs off he ho)

theorem SeqFrame.mem (h : SeqFrame e c s t) : t.mem = s.mem := by rw [h.eq]

theorem SeqFrame.rt (h : SeqFrame e c s t) : t.rt = s.rt := by rw [h.eq]

theorem SeqFrame.images (h : SeqFrame e c s t) : t.images = s.images := by rw [h.eq]

/-- What an instruction may change in its own cluster's record, and the frame, are what running it may touch. -/
theorem SeqFrame.seqRan (h : SeqFrame (seqRegs c) c s t) (hk : { t.cl c with
    sreg := (s.cl c).sreg, preds := (s.cl c).preds, loops := (s.cl c).loops, ret := (s.cl c).ret
    hold := (s.cl c).hold, wdogFired := (s.cl c).wdogFired, prod := (s.cl c).prod } = s.cl c) : SeqRan c s t := by
  refine ⟨h.regs, ?_, h.others, hk⟩
  rw [h.eq]
  rfl

/-! ### The registers of a cluster's sequencer -/

theorem observes_seqRegs (off : Nat) (h : seqRegs c off) : observes off = false := by
  rcases h with rfl | rfl | rfl | ⟨i, hi, rfl⟩ <;> refine observes_eq_false.mpr ?_ <;>
    simp only [Reg.SEQ_INSN_CNT, Reg.SEQ_PC, Reg.SEQ_STATUS, Reg.SEQ_TOKEN] <;> omega

theorem seqRegs_token {i : Nat} (hi : i < 256) : seqRegs c (Reg.SEQ_TOKEN c i) := .inr (.inr (.inr ⟨i, hi, rfl⟩))

theorem observes_token {i : Nat} (hi : i < 256) : observes (Reg.SEQ_TOKEN c i) = false := observes_seqRegs (c := c) _ (seqRegs_token hi)

theorem token_inj {i j : Nat} (h : Reg.SEQ_TOKEN c i = Reg.SEQ_TOKEN c j) : i = j := by
  simp only [Reg.SEQ_TOKEN] at h; omega

theorem bitsOf_lt (w : BitVec 128) (hi lo : Nat) : bitsOf w hi lo < 2 ^ (hi + 1 - lo) := Nat.mod_lt _ (Nat.two_pow_pos _)

theorem fwd_lt (s : State) (off : Nat) : s.fld off Fld.SEQ_TOKEN_FWD < 256 := Nat.mod_lt _ (by decide)

/-- What decode and the header wait of an instruction write: the count of instructions, and tokens. -/
def headRegs (c : Nat) (off : Nat) : Prop := off = Reg.SEQ_INSN_CNT c ∨ ∃ i, i < 256 ∧ off = Reg.SEQ_TOKEN c i

theorem headRegs_seqRegs (off : Nat) (h : headRegs c off) : seqRegs c off :=
  h.imp_right (fun h => .inr (.inr h))

theorem headRegs_token {i : Nat} (hi : i < 256) : headRegs c (Reg.SEQ_TOKEN c i) := .inr ⟨i, hi, rfl⟩

/-- The header signal fits wherever the cluster's tokens read as they did. -/
theorem signalFits_congr {w : BitVec 128} (h : signalFits s c w) (ht : ∀ i, i < 256 → t.tok c i ≤ s.tok c i)
    (hf : ∀ i, i < 256 → t.fld (Reg.SEQ_TOKEN c i) Fld.SEQ_TOKEN_FWD = s.fld (Reg.SEQ_TOKEN c i) Fld.SEQ_TOKEN_FWD) :
    signalFits t c w := by
  have hsig : bitsOf w 103 96 < 256 := bitsOf_lt w 103 96
  have h1 := ht _ hsig
  have h2 := ht _ (fwd_lt s (Reg.SEQ_TOKEN c (bitsOf w 103 96)))
  unfold signalFits at h ⊢
  rw [hf _ hsig]
  omega

/-! ### Decode of a ready word (R132, R135, R176) -/

/-- An instruction more is counted (R166, R488). -/
def State.insnCounted (s : State) (c : Nat) : State := (s.cnt (Reg.SEQ_INSN_CNT c)).bumpClu c 0x02 0 1

theorem near_insnCounted (s : State) (c : Nat) : Near (· = Reg.SEQ_INSN_CNT c) s (s.insnCounted c) :=
  (near_wr (e := (· = Reg.SEQ_INSN_CNT c)) _ _ (.inl rfl)).bumpClu c _ _ _

theorem pw_insnCounted (s : State) (c : Nat) : (s.insnCounted c).pw = s.pw := pw_bumpClu _ _ _ _ _

section
variable (h : Near (· = Reg.SEQ_INSN_CNT c) s u)
include h

theorem Near.rd_status (d : Nat) : u.rd (Reg.SEQ_STATUS d) = s.rd (Reg.SEQ_STATUS d) :=
  h.regs _ (by simp only [Reg.SEQ_STATUS, Reg.SEQ_INSN_CNT]; omega) (observes_seqRegs (c := d) _ (.inr (.inr (.inl rfl))))

theorem Near.slotOwner {sl : Nat} (hs : sl < 16) : u.slotOwner sl = s.slotOwner sl :=
  h.fld _ (by simp only [Reg.STK_SLOT, Reg.SEQ_INSN_CNT]; omega) (observes_eq_false.mpr (by simp only [Reg.STK_SLOT]; omega))

theorem Near.foreign {t d : Nat} (ht : t < 4) (hd : d < 64) : u.foreign t d = s.foreign t d := by
  have hx : u.ctxState t d = s.ctxState t d :=
    h.fld _ (by simp only [Reg.MOV_CTX_STATUS, Reg.SEQ_INSN_CNT]; omega) (observes_eq_false.mpr (by simp only [Reg.MOV_CTX_STATUS]; omega))
  simp only [State.foreign, hx, State.seqState, State.seqTenant, fld_of_rd _ (h.rd_status d)]

theorem Near.capture_ (w : BitVec 128) : u.capture_ c w = s.capture_ c w := by
  have hpc : u.rd (Reg.SEQ_PC c) = s.rd (Reg.SEQ_PC c) :=
    h.regs _ (by simp only [Reg.SEQ_PC, Reg.SEQ_INSN_CNT]; omega) (observes_seqRegs (c := c) _ (.inr (.inl rfl)))
  simp only [State.capture_, State.seqPc, State.seqSlot, hpc, h.cl, fld_of_rd _ (h.rd_status c)]

theorem Near.movsValue (q : QEntry) : u.movsValue c q = s.movsValue c q := by
  have hmem : u.mem = s.mem := by rw [h.eq]
  have hbytes : ∀ n a, u.bytes a n = s.bytes a n := by
    intro n
    induction n with
    | zero => exact fun _ => rfl
    | succ n ih => intro a; simp only [State.bytes, State.byte, hmem, ih]
  have hchip : u.chip = s.chip := h.fld _ (by simp only [Reg.IDM_BOARD0, Reg.SEQ_INSN_CNT]; omega) (by decide)
  have hpos : u.rd Reg.CAD_POS = s.rd Reg.CAD_POS := h.regs _ (by simp only [Reg.CAD_POS, Reg.SEQ_INSN_CNT]; omega) (by decide)
  simp only [State.movsValue, State.peekNat, hbytes, hchip, hpos, State.seqTenant, State.seqCtx, fld_of_rd _ (h.rd_status c)]

theorem Near.toSlotForeign (w : BitVec 128) : u.toSlotForeign c w = s.toSlotForeign c w := by
  have ht : u.seqTenant c = s.seqTenant c := fld_of_rd _ (h.rd_status c)
  simp only [State.toSlotForeign, h.capture_, h.movsValue, ht]
  by_cases hv : (s.movsValue c (s.capture_ c w)).toNat ≤ 15
  · rw [h.slotOwner (Nat.lt_succ_of_le hv)]
  · simp [hv]

/-- Counting the instruction changes nothing that checks 1 to 5 read. -/
theorem Near.decodeCheck (w : BitVec 128) : u.decodeCheck c w = s.decodeCheck c w := by
  have ht : u.seqTenant c = s.seqTenant c := fld_of_rd _ (h.rd_status c)
  have hx : u.seqCtx c = s.seqCtx c := fld_of_rd _ (h.rd_status c)
  have hsl : u.seqSlot c = s.seqSlot c := fld_of_rd _ (h.rd_status c)
  have hdbg : u.fld Reg.GLB_DEBUG_CTL Fld.GLB_DEBUG_CTL_ACC_VIS = s.fld Reg.GLB_DEBUG_CTL Fld.GLB_DEBUG_CTL_ACC_VIS :=
    h.fld _ (by simp only [Reg.GLB_DEBUG_CTL, Reg.SEQ_INSN_CNT]; omega) (by decide)
  have hown : u.slotOwner (s.seqSlot c) = s.slotOwner (s.seqSlot c) := h.slotOwner (Nat.mod_lt _ (by decide))
  have hfor : u.foreign (s.seqTenant c) (bitsOf w 63 58) = s.foreign (s.seqTenant c) (bitsOf w 63 58) :=
    h.foreign (Nat.mod_lt _ (by decide)) (bitsOf_lt w 63 58)
  have hctx : u.contextCheck c w = s.contextCheck c w := by
    simp only [State.contextCheck, ht, hx, hsl, hdbg, hown, hfor, h.toSlotForeign]
  have hcons : ∀ k, k < 256 → u.consumer c k = s.consumer c k := fun k hk =>
    h.fld _ (by simp only [Reg.SEQ_TOKEN, Reg.SEQ_INSN_CNT]; omega) (observes_token hk)
  have htok : u.tokenPortCheck c w = s.tokenPortCheck c w := by
    simp only [State.tokenPortCheck, hcons _ (bitsOf_lt w 111 104), hcons _ (bitsOf_lt w 95 88)]
  simp only [State.decodeCheck, hctx, htok]

end

theorem decodeCheck_legal {w : BitVec 128} (h : s.decodeCheck c w = none) : wordIllegal w = false := by
  cases hw : wordIllegal w with
  | false => rfl
  | true => simp [State.decodeCheck, hw] at h

/-- A ready word of the sequencer's own port is captured and counted. -/
theorem decode_ready {w : BitVec 128} {op : Nat} (h : Ready s c w op) (hop : opPort op = some portSeq) :
    s.decode c w op = .ok (s.capture_ c w, s.insnCounted c) := by
  have hw := decodeCheck_legal h.sound
  have hc : (s.insnCounted c).decodeCheck c w = none := ((near_insnCounted s c).decodeCheck w).trans h.sound
  unfold State.insnCounted at hc
  simp [State.decode, h.can, h.opcode, h.free, hop, portSeq, hc, State.insnCounted]

end Sys2Proof.Machine
end

section
/-!
SUPPORT. From a ready word of the sequencer to its effect, and the end of its instruction.
-/
namespace Sys2Proof.Machine

variable {c : Nat} {s t u v : State}

/-! ### The header wait (R136, R176) -/

/-- `u` is `s` once decode has taken a word whose header wait is satisfied: the instruction is counted, the wait consumed. -/
structure HeaderTaken (c : Nat) (s u : State) : Prop where
  frame : SeqFrame (headRegs c) c s u
  cluster : u.cl c = s.cl c
  tokens : ∀ i, i < 256 → u.tok c i ≤ s.tok c i
  forwards : ∀ i, i < 256 → u.fld (Reg.SEQ_TOKEN c i) Fld.SEQ_TOKEN_FWD = s.fld (Reg.SEQ_TOKEN c i) Fld.SEQ_TOKEN_FWD

theorem HeaderTaken.refl (c : Nat) (s : State) : HeaderTaken c s s := ⟨SeqFrame.refl _ c s, rfl, fun _ _ => le_rfl, fun _ _ => rfl⟩

theorem HeaderTaken.trans (h : HeaderTaken c s t) (k : HeaderTaken c t u) : HeaderTaken c s u :=
  ⟨h.frame.trans k.frame, k.cluster.trans h.cluster, fun i hi => (k.tokens i hi).trans (h.tokens i hi),
    fun i hi => (k.forwards i hi).trans (h.forwards i hi)⟩

/-- What leaves the tokens and the cluster's record alone. -/
theorem headerTaken_of_frame {e : Nat → Prop} (h : SeqFrame e c s u) (he : ∀ off, e off → headRegs c off)
    (ht : ∀ i, i < 256 → ¬ e (Reg.SEQ_TOKEN c i)) (hc : u.cl c = s.cl c) : HeaderTaken c s u :=
  ⟨h.mono he, hc, fun i hi => (h.fld _ (ht i hi) (observes_token hi)).le, fun i hi => h.fld _ (ht i hi) (observes_token hi)⟩

theorem headerTaken_trace (s : State) (c : Nat) {v : Nat} (hv : v < 80) (ev obj dur : Nat) (peer : BitVec 64) :
    HeaderTaken c s (s.trace v ev obj dur peer) :=
  headerTaken_of_frame (seqFrame_trace (fun _ => False) s c hv ev obj dur peer) (fun _ h => h.elim) (fun _ _ => id)
    (((Near.refl (fun _ => False) s).trace hv ev obj dur peer).cl c)

theorem headerTaken_modCl (s : State) (c : Nat) {f : Cluster → Cluster} (hf : f (s.cl c) = s.cl c) : HeaderTaken c s (s.modCl c f) :=
  headerTaken_of_frame (seqFrame_modCl (fun _ => False) s c f) (fun _ h => h.elim) (fun _ _ => id) ((cl_modCl_here s c f).trans hf)

theorem headerTaken_insnCounted (s : State) (c : Nat) : HeaderTaken c s (s.insnCounted c) :=
  headerTaken_of_frame ((near_insnCounted s c).seqFrame (pw_insnCounted s c) c) (fun _ h => .inl h)
    (fun i _ => by simp only [Reg.SEQ_TOKEN, Reg.SEQ_INSN_CNT]; omega) ((near_insnCounted s c).cl c)

theorem headerTaken_takeQuantum (s : State) (c : Nat) {k : Nat} (hk : k < 256) : HeaderTaken c s (s.takeQuantum c k) := by
  unfold State.takeQuantum
  split
  · exact HeaderTaken.refl c s
  · refine ⟨seqFrame_setFld _ _ _ _ _ (headRegs_token hk), rfl, fun i _ => ?_, fun i _ => ?_⟩
    · by_cases hi : i = k
      · subst hi
        rw [State.tok, fld_setFld_here _ _ _ _ (by decide)]
        exact (Nat.mod_le _ _).trans (Nat.sub_le _ _)
      · exact (fld_setFld_ne _ _ _ (fun h => hi (token_inj h))).le
    · by_cases hi : i = k
      · subst hi
        exact fld_setFld_beside _ _ _ _ _ (by decide) (by decide)
      · exact fld_setFld_ne _ _ _ (fun h => hi (token_inj h))

/-- A satisfied header wait is taken where decode was not held. -/
theorem seqHeader_taken {q : QEntry} (hc : c < 64) (hok : s.headerOk c q.wait = true) (hfree : (s.cl c).hold = none) :
    ∃ u, s.seqHeader c q = .ok u ∧ HeaderTaken c s u := by
  have hq : HeaderTaken c s (s.takeQuantum c q.wait) := headerTaken_takeQuantum s c (bitsOf_lt q.word 111 104)
  have hsame (x : State) (hx : x.cl c = s.cl c) :
      HeaderTaken c x (x.modCl c (fun k => { k with hold := none, wdogFired := k.wdogFired })) :=
    headerTaken_modCl x c (by rw [hx, ← hfree])
  simp only [State.seqHeader, hok, hfree, Option.map_none, Option.isSome_none, Option.isNone_none, Bool.true_and, if_true,
    Except.ok.injEq, exists_eq_left']
  split
  · have ht := fun dur peer => hq.trans (headerTaken_trace _ c (show c < 80 by omega) 0x01 q.wait dur peer)
    exact (ht _ _).trans (hsame _ (ht _ _).cluster)
  · exact hq.trans (hsame _ hq.cluster)

/-- A ready word of the sequencer's own port, whose checks pass, comes to its effect. -/
theorem runSeq_ready {w : BitVec 128} {op : Nat} {check : State → QEntry → Option (Nat × Nat)} {effect : State → QEntry → State}
    {off : QEntry → Nat} (hc : c < 64) (h : Ready s c w op) (hop : opPort op = some portSeq)
    (hchk : ∀ u, HeaderTaken c s u → check u (s.capture_ c w) = none) :
    ∃ u, HeaderTaken c s u ∧ s.runSeq c w op check effect off = effect u (s.capture_ c w) := by
  have hi := headerTaken_insnCounted s c
  have hok : (s.insnCounted c).headerOk c (s.capture_ c w).wait = true := by
    have hr : (s.insnCounted c).rd (Reg.SEQ_TOKEN c (bitsOf w 111 104)) = s.rd (Reg.SEQ_TOKEN c (bitsOf w 111 104)) :=
      (near_insnCounted s c).regs _ (by simp only [Reg.SEQ_TOKEN, Reg.SEQ_INSN_CNT]; omega) (observes_token (bitsOf_lt w 111 104))
    refine Eq.trans ?_ h.header
    show (_ == 0 || decide (State.fld _ _ _ ≤ State.fld _ _ _)) = _
    rw [State.headerOk, State.quantum, State.tok, ← fld_of_rd _ hr, ← fld_of_rd _ hr]
    rfl
  obtain ⟨u, hu, hut⟩ := seqHeader_taken (q := s.capture_ c w) hc hok (hi.cluster ▸ h.free)
  refine ⟨u, hi.trans hut, ?_⟩
  simp only [State.runSeq, decode_ready h hop, h.pred, if_true, hchk _ hi, hu]

/-- So does one without checks of its own. -/
theorem runSeq_unchecked {w : BitVec 128} {op : Nat} {effect : State → QEntry → State} {off : QEntry → Nat} (hc : c < 64)
    (h : Ready s c w op) (hop : opPort op = some portSeq) :
    ∃ u, HeaderTaken c s u ∧ s.runSeq c w op noCheck effect off = effect u (s.capture_ c w) :=
  runSeq_ready hc h hop (fun _ _ => rfl)

/-! ### Tokens (R137, R138) -/

/-- Tokens of cluster `c`. -/
def tokenRegs (c : Nat) (off : Nat) : Prop := ∃ i, i < 256 ∧ off = Reg.SEQ_TOKEN c i

/-- Token `k` of cluster `c` is `n` higher, signalled by `peer`. -/
def State.tokenRaised (s : State) (c k n : Nat) (peer : BitVec 64) : State :=
  (s.setFld (Reg.SEQ_TOKEN c k) Fld.SEQ_TOKEN_COUNT (min (s.tok c k + n) (2 ^ 24 - 1))).modCl c
    (fun q => { q with prod := q.prod.set 0 k peer })

theorem tok_tokenRaised_le (s : State) (c k n : Nat) (peer : BitVec 64) (i : Nat) :
    (s.tokenRaised c k n peer).tok c i ≤ s.tok c i + n := by
  by_cases hi : i = k
  · subst hi
    exact (fld_setFld_here s _ _ _ (by decide)).le.trans ((Nat.mod_le _ _).trans (Nat.min_le_left _ _))
  · exact (fld_setFld_ne _ _ _ (fun h => hi (token_inj h))).le.trans (Nat.le_add_right _ _)

/-- A token that has room counts, its event is counted, and a ring may be triggered. -/
theorem addOne_fits {k n : Nat} (peer : BitVec 64) (h0 : k ≠ 0) (hfit : s.tok c k + n < 2 ^ 24) :
    s.addOne c k n peer = (s.tokenRaised c k n peer).bumpClu c 0x13 k 1 ∨
      s.addOne c k n peer = ((s.tokenRaised c k n peer).bumpClu c 0x13 k 1).trigger c 3 := by
  have hno : ¬ 2 ^ 24 - 1 < s.tok c k + n := by omega
  simp only [State.addOne, if_neg h0, if_neg hno]
  split
  · exact .inr rfl
  · exact .inl rfl

/-- A token that has room counts, and nothing else of the cluster changes but who signalled it last. -/
theorem addOne_counted {k n : Nat} (peer : BitVec 64) (hc : c < 64) (hk : k < 256) (hfit : s.tok c k + n < 2 ^ 24) :
    SeqFrame (tokenRegs c) c s (s.addOne c k n peer) ∧
      (∃ pr, (s.addOne c k n peer).cl c = { s.cl c with prod := pr }) ∧
      ∀ i, i < 256 → (s.addOne c k n peer).tok c i ≤ s.tok c i + n := by
  by_cases h0 : k = 0
  · rw [State.addOne, if_pos h0]
    exact ⟨SeqFrame.refl _ _ _, ⟨_, rfl⟩, fun i _ => Nat.le_add_right _ _⟩
  · generalize hx : s.tokenRaised c k n peer = x
    have hsx : SeqFrame (tokenRegs c) c s x :=
      hx ▸ (seqFrame_setFld s c _ _ _ ⟨k, hk, rfl⟩).trans (seqFrame_modCl _ _ _ _)
    have hb := (Near.refl (fun _ => False) x).bumpClu c 0x13 k 1
    have hxy : Near (fun _ => False) x (s.addOne c k n peer) ∧ (s.addOne c k n peer).pw = x.pw := by
      rcases addOne_fits peer h0 hfit with h | h
      · rw [h, hx]; exact ⟨hb, pw_bumpClu _ _ _ _ _⟩
      · rw [h, hx]; exact ⟨hb.trigger (show c < 80 by omega) 3, (pw_trigger _ _ _).trans (pw_bumpClu _ _ _ _ _)⟩
    obtain ⟨hnear, hpw⟩ := hxy
    refine ⟨hsx.trans ((hnear.seqFrame hpw c).mono (fun _ h => h.elim)), ⟨(s.cl c).prod.set 0 k peer, ?_⟩, fun i hi => ?_⟩
    · rw [hnear.cl, ← hx]
      exact cl_modCl_here _ _ _
    · exact (hnear.fld _ id (observes_token hi)).le.trans (hx ▸ tok_tokenRaised_le s c k n peer i)

/-- A signal of one that fits, with its forward. -/
theorem addToken_counted {k : Nat} (peer : BitVec 64) (hc : c < 64) (hk : k < 256) (h1 : s.tok c k + 2 < 2 ^ 24)
    (h2 : s.tok c (s.fld (Reg.SEQ_TOKEN c k) Fld.SEQ_TOKEN_FWD) + 2 < 2 ^ 24) :
    SeqFrame (tokenRegs c) c s (s.addToken c k 1 peer) ∧ ∃ pr, (s.addToken c k 1 peer).cl c = { s.cl c with prod := pr } := by
  unfold State.addToken
  split
  · exact ⟨SeqFrame.refl _ _ _, _, rfl⟩
  · have hf := fwd_lt s (Reg.SEQ_TOKEN c k)
    obtain ⟨hs, ⟨pr, hp⟩, ht⟩ := addOne_counted (s := s) (n := 1) peer hc hk (by omega)
    obtain ⟨hs', ⟨pr', hp'⟩, -⟩ := addOne_counted (s := s.addOne c k 1 peer) (n := 1) peer hc hf
      (by have := ht _ hf; omega)
    exact ⟨hs.trans hs', pr', by rw [hp', hp]⟩

/-! ### Where decode goes on (R144, R205) -/

/-- Back-edges change the loop stack and the scalar registers alone. -/
theorem backEdge_record (fuel : Nat) (k : Cluster) (pc : Nat) :
    ∃ l sr, (Cluster.backEdge fuel k pc).2 = { k with loops := l, sreg := sr } := by
  induction fuel generalizing k with
  | zero => exact ⟨_, _, rfl⟩
  | succ fuel ih =>
    unfold Cluster.backEdge
    split
    · exact ⟨_, _, rfl⟩
    · split
      · exact ⟨_, _, rfl⟩
      · split
        · dsimp only [Cluster.setS]
          split
          · exact ⟨_, _, rfl⟩
          · exact ⟨_, _, rfl⟩
        · obtain ⟨l, sr, h⟩ := ih _
          exact ⟨l, sr, h⟩

theorem backEdge_no_loops (fuel : Nat) {k : Cluster} (pc : Nat) (h : k.loops = []) : Cluster.backEdge (fuel + 1) k pc = (pc, k) := by
  simp only [Cluster.backEdge, h]

theorem seqFrame_showLoops (s : State) (c : Nat) : SeqFrame (· = Reg.SEQ_STATUS c) c s (s.showLoops c) :=
  (seqFrame_setFld (e := (· = Reg.SEQ_STATUS c)) s c _ _ _ rfl).trans (seqFrame_setFld _ c _ _ _ rfl)

theorem goto_record (s : State) (c pc : Nat) : SeqFrame (seqRegs c) c s (s.goto c pc) ∧
    (∃ l sr, (s.goto c pc).cl c = { s.cl c with loops := l, sreg := sr }) ∧
    ((s.cl c).loops = [] → (s.goto c pc).rd (Reg.SEQ_PC c) = BitVec.ofNat 64 pc) := by
  unfold State.goto
  dsimp only
  generalize hr : Cluster.backEdge 9 (s.cl c) pc = r
  refine ⟨?_, ?_, fun hl => ?_⟩
  · exact ((seqFrame_setCl _ s c r.2).trans (seqFrame_wr _ c _ _ (.inr (.inl rfl)))).trans
      ((seqFrame_showLoops _ c).mono (fun _ h => .inr (.inr (.inl h))))
  · obtain ⟨l, sr, h⟩ := backEdge_record 9 (s.cl c) pc
    exact ⟨l, sr, (cl_setCl_here s c r.2).trans (hr ▸ h)⟩
  · rw [(seqFrame_showLoops _ c).regs _ (by simp only [Reg.SEQ_PC, Reg.SEQ_STATUS]; omega)
      (observes_seqRegs (c := c) _ (.inr (.inl rfl))), State.setPc, rd_wr_here, ← hr, backEdge_no_loops 8 pc hl]

/-! ### The end of an instruction -/

/-- `t` is `s` once an instruction of cluster `c`'s sequencer has completed and decode goes on at `pc`. -/
structure SeqFinished (c pc : Nat) (s t : State) : Prop where
  frame : SeqFrame (seqRegs c) c s t
  cluster : ∃ l sr pr, t.cl c = { s.cl c with loops := l, sreg := sr, prod := pr, hold := none, wdogFired := false }
  pc : (s.cl c).loops = [] → t.rd (Reg.SEQ_PC c) = BitVec.ofNat 64 pc

theorem SeqFinished.hold {pc : Nat} (h : SeqFinished c pc s t) : (t.cl c).hold = none := by
  obtain ⟨l, sr, pr, hcl⟩ := h.cluster
  rw [hcl]

/-- An instruction whose header signal fits completes. -/
theorem seqDone_finished (s : State) (q : QEntry) (pc : Nat) (hc : c < 64) (hfit : signalFits s c q.word) :
    SeqFinished c pc s (s.seqDone c q pc) := by
  unfold State.seqDone
  generalize hx : s.modCl c (fun k => { k with hold := none, wdogFired := false }) = x
  have hsx : SeqFrame (seqRegs c) c s x := hx ▸ seqFrame_modCl _ s c _
  have hcx : x.cl c = { s.cl c with hold := none, wdogFired := false } := hx ▸ cl_modCl_here s c _
  have hfx : signalFits x c q.word := hx ▸ hfit
  obtain ⟨hxy, pr, hcy⟩ := addToken_counted (x.localPeer c portSeq q.pc) hc (bitsOf_lt q.word 103 96) hfx.1 hfx.2
  obtain ⟨hyt, ⟨l, sr, hct⟩, hpc⟩ := goto_record (x.addToken c q.sig 1 (x.localPeer c portSeq q.pc)) c pc
  refine ⟨(hsx.trans (hxy.mono (fun _ h => .inr (.inr (.inr h))))).trans hyt, ⟨l, sr, pr, ?_⟩, fun hl => hpc ?_⟩
  · exact hct.trans (by rw [show (x.addToken c q.sig 1 _).cl c = _ from hcy, hcx])
  · rw [show (x.addToken c q.sig 1 _).cl c = _ from hcy, hcx, hl]

end Sys2Proof.Machine
end

section
/-!
SUPPORT. Beats accepted while nothing waits for one (R22, R25, R149), and the instructions that wait for positions, yield or fence.
-/
namespace Sys2Proof.Machine

variable {c : Nat} {s t u : State}

/-! ### An instruction after its header: it completes, or decode holds -/

/-- A 64-bit register that counts up by one. -/
theorem ofNat_toNat_succ (v : BitVec 64) : BitVec.ofNat 64 (v.toNat + 1) = v + 1 := by
  apply BitVec.eq_of_toNat_eq
  simp [BitVec.toNat_add]

theorem HeaderTaken.rd (h : HeaderTaken c s u) {off : Nat} (he : ¬ headRegs c off) (ho : observes off = false) : u.rd off = s.rd off :=
  h.frame.regs off he ho

theorem HeaderTaken.rd_pc (h : HeaderTaken c s u) : u.rd (Reg.SEQ_PC c) = s.rd (Reg.SEQ_PC c) := by
  refine h.rd ?_ (observes_seqRegs (c := c) _ (.inr (.inl rfl)))
  rintro (h | ⟨i, -, h⟩) <;> simp only [Reg.SEQ_PC, Reg.SEQ_INSN_CNT, Reg.SEQ_TOKEN] at h <;> omega

/-- The registers below those of the clusters are not among those of decode. -/
theorem not_headRegs_of_lt {off : Nat} (h : off < 0x410000) : ¬ headRegs c off := by
  rintro (h' | ⟨i, -, h'⟩) <;> simp only [Reg.SEQ_INSN_CNT, Reg.SEQ_TOKEN] at h' <;> omega

theorem HeaderTaken.signalFits {w : BitVec 128} (h : HeaderTaken c s u) (hf : signalFits s c w) : signalFits u c w :=
  signalFits_congr hf h.tokens h.forwards

theorem HeaderTaken.now (h : HeaderTaken c s u) : u.now = s.now :=
  congrArg BitVec.toNat (h.rd (off := Reg.CAD_TSC) (not_headRegs_of_lt (by decide)) (by decide))

/-- An instruction that completes after its header. -/
theorem HeaderTaken.seqRan_done (h : HeaderTaken c s u) {pc : Nat} (k : SeqFinished c pc u t) : SeqRan c s t := by
  refine ((h.frame.mono headRegs_seqRegs).trans k.frame).seqRan ?_
  obtain ⟨l, sr, pr, hcl⟩ := k.cluster
  rw [hcl, h.cluster]

theorem cl_seqHold (s : State) (c : Nat) (q : QEntry) (kind : HoldKind) :
    (s.seqHold c q kind).cl c = { s.cl c with hold := some ⟨kind, q, s.now⟩ } := cl_modCl_here s c _

theorem seqFrame_seqHold (e : Nat → Prop) (s : State) (c : Nat) (q : QEntry) (kind : HoldKind) : SeqFrame e c s (s.seqHold c q kind) :=
  seqFrame_modCl e s c _

/-- An instruction that holds decode after its header. -/
theorem HeaderTaken.seqRan_hold (h : HeaderTaken c s u) (q : QEntry) (kind : HoldKind) : SeqRan c s (u.seqHold c q kind) := by
  refine ((h.frame.mono headRegs_seqRegs).trans (seqFrame_seqHold _ u c q kind)).seqRan ?_
  rw [cl_seqHold, h.cluster]

/-- A completed instruction goes on at the next word. -/
theorem HeaderTaken.done {w : BitVec 128} (h : HeaderTaken c s u) (hc : c < 64) (hf : Machine.signalFits s c w) :
    let t := u.seqDone c (s.capture_ c w) (s.capture_ c w).nextPc
    (t.cl c).hold = none ∧ ((s.cl c).loops = [] → t.rd (Reg.SEQ_PC c) = s.rd (Reg.SEQ_PC c) + 1) ∧ SeqRan c s t := by
  have hfin := seqDone_finished u (s.capture_ c w) (s.capture_ c w).nextPc hc (h.signalFits hf)
  exact ⟨hfin.hold, fun hl => (hfin.pc (h.cluster ▸ hl)).trans (ofNat_toNat_succ _), h.seqRan_done hfin⟩

/-- A held instruction keeps decode at its word. -/
theorem HeaderTaken.held (h : HeaderTaken c s u) (q : QEntry) (kind : HoldKind) :
    let t := u.seqHold c q kind
    (t.cl c).hold = some (Hold.mk kind q s.now) ∧ t.rd (Reg.SEQ_PC c) = s.rd (Reg.SEQ_PC c) ∧ SeqRan c s t := by
  refine ⟨?_, h.rd_pc, h.seqRan_hold q kind⟩
  rw [cl_seqHold, ← h.now]

/-! ### CWAIT (R149, R150) -/

theorem HeaderTaken.rd_cadPos (h : HeaderTaken c s u) : u.rd Reg.CAD_POS = s.rd Reg.CAD_POS :=
  h.rd (not_headRegs_of_lt (by decide)) (by decide)

/-- CWAIT at a position that is reached goes on, and is recorded where every wait is. -/
theorem doCwait_reached (h : HeaderTaken c s u) (hc : c < 64) {q : QEntry} (hp : q.scal.get 0 (q.fld 95 91) ≤ s.rd Reg.CAD_POS) :
    ∃ v, HeaderTaken c s v ∧ State.doCwait c u q = v.seqDone c q q.nextPc := by
  unfold State.doCwait
  dsimp only
  rw [h.rd_cadPos, if_pos hp]
  split
  · exact ⟨_, h.trans (headerTaken_trace _ _ (by omega) _ _ _ _), rfl⟩
  · exact ⟨u, h, rfl⟩

/-- CWAIT without a yield holds decode at a position that is not reached. -/
theorem doCwait_ahead (h : HeaderTaken c s u) {q : QEntry} (hy : q.fld 90 90 = 0) (hp : s.rd Reg.CAD_POS < q.scal.get 0 (q.fld 95 91)) :
    State.doCwait c u q = u.seqHold c q (.cwait (q.scal.get 0 (q.fld 95 91)) false) := by
  have hn : ¬ q.scal.get 0 (q.fld 95 91) ≤ s.rd Reg.CAD_POS := BitVec.not_le.mpr hp
  unfold State.doCwait
  dsimp only
  rw [h.rd_cadPos, if_neg hn, hy]
  rfl

theorem cwait_goes_on (s : State) (c : Fin 64) (w : BitVec 128) (h : Ready s c w 0x52) (hf : signalFits s c w)
    (hp : (s.capture_ c w).scal.get 0 (bitsOf w 95 91) ≤ s.rd Reg.CAD_POS) : Completes (.cwait c w) s (fun t => (t.cl c).hold = none ∧
      ((s.cl c).loops = [] → t.rd (Reg.SEQ_PC c) = s.rd (Reg.SEQ_PC c) + 1) ∧ SeqRan c s t) := by
  obtain ⟨u, hu, hrun⟩ := runSeq_unchecked (effect := State.doCwait c) (off := QEntry.nextPc) c.isLt h (by decide)
  obtain ⟨v, hv, hdone⟩ := doCwait_reached hu c.isLt hp
  exact ⟨_, congrArg Host.Outcome.next (hrun.trans hdone), hv.done c.isLt hf⟩

theorem cwait_holds (s : State) (c : Fin 64) (w : BitVec 128) (h : Ready s c w 0x52) (hy : bitsOf w 90 90 = 0)
    (hp : s.rd Reg.CAD_POS < (s.capture_ c w).scal.get 0 (bitsOf w 95 91)) : Completes (.cwait c w) s (fun t =>
      (t.cl c).hold = some (Hold.mk (.cwait ((s.capture_ c w).scal.get 0 (bitsOf w 95 91)) false) (s.capture_ c w) s.now) ∧
      t.rd (Reg.SEQ_PC c) = s.rd (Reg.SEQ_PC c) ∧ SeqRan c s t) := by
  obtain ⟨u, hu, hrun⟩ := runSeq_unchecked (effect := State.doCwait c) (off := QEntry.nextPc) c.isLt h (by decide)
  exact ⟨_, congrArg Host.Outcome.next (hrun.trans (doCwait_ahead hu hy hp)), hu.held _ _⟩

/-! ### FENCE (R139, R202) -/

/-- Whether ports have drained is not a matter of the registers or the trace. -/
theorem HeaderTaken.portsDone (h : HeaderTaken c s u) (ports : Nat) : u.portsDone c ports = s.portsDone c ports := by
  simp only [State.portsDone, h.cluster]
  rw [h.frame.eq]
  rfl

/-- Where the fence starts no prefetch entry, nothing has become due. -/
theorem headerTaken_duePrefs (s : State) (c : Nat) (h : (s.cl c).pref = []) : HeaderTaken c s (s.duePrefs c) :=
  headerTaken_modCl s c (by rw [h, List.map_nil, ← h])

/-- FENCE with no prefetch entry to start goes on where its ports have drained, and holds decode otherwise. -/
theorem doFence_eq (h : HeaderTaken c s u) {q : QEntry} (hq : (q.fld 95 92).testBit 2 = false ∨ (s.cl c).pref = []) :
    ∃ v, HeaderTaken c s v ∧ State.doFence c u q =
      if s.portsDone c (q.fld 95 92) then v.seqDone c q q.nextPc else v.seqHold c q (.fence (q.fld 95 92)) := by
  have hv : HeaderTaken c s (if (q.fld 95 92).testBit 2 then u.duePrefs c else u) := by
    split
    · next hb => exact h.trans (headerTaken_duePrefs u c (h.cluster ▸ hq.resolve_left (by simp [hb])))
    · exact h
  exact ⟨_, hv, by rw [← hv.portsDone]; rfl⟩

theorem fence_no_prefs (s : State) (c : Fin 64) (w : BitVec 128) (h : Ready s c w 0x55) (hf : signalFits s c w)
    (hq : (bitsOf w 95 92).testBit 2 = false ∨ (s.cl c).pref = []) :
    (s.portsDone c (bitsOf w 95 92) = true → Completes (.fence c w) s (fun t => (t.cl c).hold = none ∧
      ((s.cl c).loops = [] → t.rd (Reg.SEQ_PC c) = s.rd (Reg.SEQ_PC c) + 1) ∧ SeqRan c s t)) ∧
    (s.portsDone c (bitsOf w 95 92) = false → Completes (.fence c w) s (fun t =>
      (t.cl c).hold = some (Hold.mk (.fence (bitsOf w 95 92)) (s.capture_ c w) s.now) ∧
      t.rd (Reg.SEQ_PC c) = s.rd (Reg.SEQ_PC c) ∧ SeqRan c s t)) := by
  obtain ⟨u, hu, hrun⟩ := runSeq_unchecked (effect := State.doFence c) (off := QEntry.nextPc) c.isLt h (by decide)
  obtain ⟨v, hv, heq⟩ := doFence_eq hu (q := s.capture_ c w) hq
  refine ⟨fun hd => ⟨_, congrArg Host.Outcome.next (hrun.trans (heq.trans (if_pos hd))), hv.done c.isLt hf⟩, fun hd => ?_⟩
  exact ⟨_, congrArg Host.Outcome.next (hrun.trans (heq.trans (if_neg (by simp [QEntry.fld, State.capture_, hd])))), hv.held _ _⟩

/-- FENCE of the mover port with prefetch entries makes them due and holds decode for them (R197). -/
theorem doFence_prefs {q : QEntry} (hb : (q.fld 95 92).testBit 2 = true) (hp : (u.cl c).pref ≠ []) :
    State.doFence c u q = (u.duePrefs c).seqHold c q (.fence (q.fld 95 92)) := by
  have hpend : ((u.duePrefs c).cl c).pref.all (fun (e : PrefEntry) => !e.due) = false := by
    rw [State.duePrefs, cl_modCl_here]
    cases hl : (u.cl c).pref with
    | nil => exact absurd hl hp
    | cons e rest => rfl
  have hbusy : (u.duePrefs c).portsDone c (q.fld 95 92) = false := by simp [State.portsDone, hpend, hb]
  simp [State.doFence, hb, hbusy]

theorem fence_with_prefs (s : State) (c : Fin 64) (w : BitVec 128) (h : Ready s c w 0x55) (hb : (bitsOf w 95 92).testBit 2 = true)
    (hp : (s.cl c).pref ≠ []) :
    Completes (.fence c w) s (fun t => (t.cl c).hold = some (Hold.mk (.fence (bitsOf w 95 92)) (s.capture_ c w) s.now) ∧
      (t.cl c).pref.length = (s.cl c).pref.length ∧ (∀ e ∈ (t.cl c).pref, e.due = true) ∧
      t.rd (Reg.SEQ_PC c) = s.rd (Reg.SEQ_PC c) ∧ clustersKept c s t ∧ t.mem = s.mem) := by
  obtain ⟨u, hu, hrun⟩ := runSeq_unchecked (effect := State.doFence c) (off := QEntry.nextPc) c.isLt h (by decide)
  have hfx : SeqFrame (headRegs c) c s ((u.duePrefs c).seqHold c (s.capture_ c w) (.fence (bitsOf w 95 92))) :=
    (hu.frame.trans (seqFrame_modCl _ u c _)).trans (seqFrame_seqHold _ _ c _ _)
  have hcl : ((u.duePrefs c).seqHold c (s.capture_ c w) (.fence (bitsOf w 95 92))).cl c = { s.cl c with
      pref := (s.cl c).pref.map (fun (e : PrefEntry) => { e with due := true })
      hold := some (Hold.mk (.fence (bitsOf w 95 92)) (s.capture_ c w) s.now) } := by
    rw [cl_seqHold, State.duePrefs, cl_modCl_here, hu.cluster, ← hu.now]
    rfl
  refine ⟨_, congrArg Host.Outcome.next (hrun.trans (doFence_prefs hb (hu.cluster ▸ hp))), ?_, ?_, ?_, hu.rd_pc, hfx.others, hfx.mem⟩
  · exact congrArg Cluster.hold hcl
  · exact (congrArg (fun k => k.pref.length) hcl).trans (List.length_map _)
  · intro e he
    obtain ⟨e', -, rfl⟩ := List.mem_map.mp (Eq.mp (congrArg (fun k => e ∈ k.pref) hcl) he)
    rfl

/-- FENCE_RELEASE ends the hold where the ports have drained, and changes nothing before. -/
theorem fenceRelease_eq {ports since : Nat} {q : QEntry} (hr : s.seqState c = 1)
    (hh : (s.cl c).hold = some (Hold.mk (.fence ports) q since)) :
    s.fenceRelease c = if s.portsDone c ports then s.seqDone c q q.nextPc else s := by
  rw [State.fenceRelease, if_neg (by simp [hr, seqRunning]), hh]

theorem fenceRelease_serves (s : State) (c : Fin 64) (ports since : Nat) (q : QEntry) (hr : s.seqState c = 1)
    (hh : (s.cl c).hold = some (Hold.mk (.fence ports) q since)) (hf : signalFits s c q.word) :
    (s.portsDone c ports = true → Completes (.fenceRelease c) s (fun t => (t.cl c).hold = none ∧
      ((s.cl c).loops = [] → t.seqPc c = (q.pc + 1) % 2 ^ 64) ∧ SeqRan c s t)) ∧
    (s.portsDone c ports = false → exec (.fenceRelease c) s = .next s) := by
  have heq := fenceRelease_eq hr hh
  refine ⟨fun hd => ⟨_, congrArg Host.Outcome.next (heq.trans (if_pos hd)), ?_⟩,
    fun hd => congrArg Host.Outcome.next (heq.trans (if_neg (by simp [hd])))⟩
  have hfin := seqDone_finished s q q.nextPc c.isLt hf
  exact ⟨hfin.hold, fun hl => congrArg BitVec.toNat (hfin.pc hl), (HeaderTaken.refl c s).seqRan_done hfin⟩

end Sys2Proof.Machine
end

section
/-!
SUPPORT. YIELD with nothing requested (R147, R148), and a beat that nothing waits for (R22, R25, R149).
-/
namespace Sys2Proof.Machine

variable {c : Nat} {s t u : State}

/-! ### YIELD (R147, R148) -/

/-- The registers that a yield point writes. -/
def yieldRegs (c : Nat) (off : Nat) : Prop :=
  off = Reg.SEQ_YIELD_CNT c ∨ off = Reg.SEQ_YIELD_GAP_MAX c ∨ off = Reg.SEQ_STATUS c ∨ off = Reg.SEQ_YIELD_LATE_CNT c

theorem yieldRegs_not_token (i : Nat) (hi : i < 256) : ¬ yieldRegs c (Reg.SEQ_TOKEN c i) := by
  simp only [yieldRegs, Reg.SEQ_TOKEN, Reg.SEQ_YIELD_CNT, Reg.SEQ_YIELD_GAP_MAX, Reg.SEQ_STATUS, Reg.SEQ_YIELD_LATE_CNT]
  omega

theorem observes_yieldCnt (c : Nat) : observes (Reg.SEQ_YIELD_CNT c) = false :=
  observes_eq_false.mpr (by simp only [Reg.SEQ_YIELD_CNT]; omega)

theorem observes_yieldGap (c : Nat) : observes (Reg.SEQ_YIELD_GAP_MAX c) = false :=
  observes_eq_false.mpr (by simp only [Reg.SEQ_YIELD_GAP_MAX]; omega)

theorem not_seqRegs_yieldCnt (c : Nat) : ¬ seqRegs c (Reg.SEQ_YIELD_CNT c) := by
  rintro (h | h | h | ⟨i, -, h⟩) <;>
    simp only [Reg.SEQ_YIELD_CNT, Reg.SEQ_INSN_CNT, Reg.SEQ_PC, Reg.SEQ_STATUS, Reg.SEQ_TOKEN] at h <;> omega

theorem not_seqRegs_yieldGap (c : Nat) : ¬ seqRegs c (Reg.SEQ_YIELD_GAP_MAX c) := by
  rintro (h | h | h | ⟨i, -, h⟩) <;>
    simp only [Reg.SEQ_YIELD_GAP_MAX, Reg.SEQ_INSN_CNT, Reg.SEQ_PC, Reg.SEQ_STATUS, Reg.SEQ_TOKEN] at h <;> omega

/-- The registers of a yield point whose gap is `gap`: it is counted, and the longest gap kept. -/
def State.gapNoted (s : State) (c gap : Nat) : State :=
  (s.cnt (Reg.SEQ_YIELD_CNT c)).setFld (Reg.SEQ_YIELD_GAP_MAX c) Fld.SEQ_YIELD_GAP_MAX_NS
    (max gap (s.fld (Reg.SEQ_YIELD_GAP_MAX c) Fld.SEQ_YIELD_GAP_MAX_NS))

/-- A gap over the bound raises YIELD_LATE; the next gap is measured from now. -/
theorem yieldPoint_eq (s : State) (c : Nat) : ∃ u : State,
    (u = s.gapNoted c (s.now - (s.cl c).yieldAt - (s.cl c).yieldHeld) ∨
      u = (s.gapNoted c (s.now - (s.cl c).yieldAt - (s.cl c).yieldHeld)).event (Reg.SEQ_STATUS c) Fld.SEQ_STATUS_YIELD_LATE
        (Reg.SEQ_YIELD_LATE_CNT c)) ∧ s.yieldPoint c = u.gapFromNow c := by
  refine ⟨_, ?_, rfl⟩
  split
  · exact .inr rfl
  · exact .inl rfl

/-- `v` is `s` once decode has reached a yield point: it is counted, its gap kept, and the next gap measured from now; of the registers
only those of `e` may differ (R147, R148). -/
structure AtYield (e : Nat → Prop) (c : Nat) (s v : State) : Prop where
  frame : SeqFrame e c s v
  count : counted (Reg.SEQ_YIELD_CNT c) 1 s v
  gap : v.fld (Reg.SEQ_YIELD_GAP_MAX c) Fld.SEQ_YIELD_GAP_MAX_NS =
    max (s.now - (s.cl c).yieldAt - (s.cl c).yieldHeld) (s.fld (Reg.SEQ_YIELD_GAP_MAX c) Fld.SEQ_YIELD_GAP_MAX_NS)
      % 2 ^ Fld.SEQ_YIELD_GAP_MAX_NS.width
  record : ∃ p, v.cl c = { s.cl c with yieldAt := s.now, yieldHeld := 0, pref := p }

/-- A late gap raises a flag apart from the count and the gap. -/
theorem rd_yieldLate (s : State) {off : Nat} (h : off = Reg.SEQ_YIELD_CNT c ∨ off = Reg.SEQ_YIELD_GAP_MAX c) :
    (s.event (Reg.SEQ_STATUS c) Fld.SEQ_STATUS_YIELD_LATE (Reg.SEQ_YIELD_LATE_CNT c)).rd off = s.rd off := by
  apply rd_event_ne <;> rcases h with rfl | rfl <;>
    simp only [Reg.SEQ_YIELD_CNT, Reg.SEQ_YIELD_GAP_MAX, Reg.SEQ_STATUS, Reg.SEQ_YIELD_LATE_CNT] <;> omega

theorem near_gapNoted (s : State) (c gap : Nat) : Near (yieldRegs c) s (s.gapNoted c gap) :=
  ((Near.refl _ s).cnt _ (.inl (.inl rfl))).setFld _ _ _ (.inl (.inr (.inl rfl)))

theorem counted_gapNoted (s : State) (c gap : Nat) : counted (Reg.SEQ_YIELD_CNT c) 1 s (s.gapNoted c gap) := by
  rw [counted, State.gapNoted, rd_setFld_ne _ _ (by simp only [Reg.SEQ_YIELD_CNT, Reg.SEQ_YIELD_GAP_MAX]; omega), rd_cnt_here]

theorem Near.now_yield (h : Near (yieldRegs c) s u) : u.now = s.now :=
  congrArg BitVec.toNat (h.regs Reg.CAD_TSC
    (by simp only [yieldRegs, Reg.CAD_TSC, Reg.SEQ_YIELD_CNT, Reg.SEQ_YIELD_GAP_MAX, Reg.SEQ_STATUS, Reg.SEQ_YIELD_LATE_CNT]; omega)
    (by decide))

theorem yieldPoint_atYield (s : State) (c : Nat) : AtYield (yieldRegs c) c s (s.yieldPoint c) := by
  obtain ⟨u, hu, heq⟩ := yieldPoint_eq s c
  generalize hg : s.now - (s.cl c).yieldAt - (s.cl c).yieldHeld = gap at hu
  have hnu : Near (yieldRegs c) s u ∧ u.pw = s.pw ∧ ∀ off, off = Reg.SEQ_YIELD_CNT c ∨ off = Reg.SEQ_YIELD_GAP_MAX c →
      u.rd off = (s.gapNoted c gap).rd off := by
    rcases hu with rfl | rfl
    · exact ⟨near_gapNoted s c gap, rfl, fun _ _ => rfl⟩
    · exact ⟨(near_gapNoted s c gap).event _ _ _ (.inl (.inr (.inr (.inl rfl)))) (.inl (.inr (.inr (.inr rfl)))), rfl,
        fun _ h => rd_yieldLate _ h⟩
  obtain ⟨hnear, hpw, hrd⟩ := hnu
  rw [heq]
  refine ⟨(hnear.seqFrame hpw c).trans (seqFrame_modCl _ u c _), ?_, ?_, (s.cl c).pref, ?_⟩
  · exact (hrd _ (.inl rfl)).trans (counted_gapNoted s c gap)
  · rw [hg]
    exact (fld_of_rd _ (hrd _ (.inr rfl))).trans (fld_setFld_here _ _ _ _ (by decide))
  · rw [State.gapFromNow, cl_modCl_here, hnear.cl, hnear.now_yield]

/-- A header taken before a yield point changes nothing of it. -/
theorem HeaderTaken.atYield (h : HeaderTaken c s u) {v : State} (k : AtYield (yieldRegs c) c u v) :
    AtYield (fun off => headRegs c off ∨ yieldRegs c off) c s v := by
  have hcnt : u.rd (Reg.SEQ_YIELD_CNT c) = s.rd (Reg.SEQ_YIELD_CNT c) :=
    h.rd (fun x => not_seqRegs_yieldCnt c (headRegs_seqRegs _ x)) (observes_yieldCnt c)
  have hgap : u.rd (Reg.SEQ_YIELD_GAP_MAX c) = s.rd (Reg.SEQ_YIELD_GAP_MAX c) :=
    h.rd (fun x => not_seqRegs_yieldGap c (headRegs_seqRegs _ x)) (observes_yieldGap c)
  obtain ⟨p, hp⟩ := k.record
  refine ⟨(h.frame.mono (fun _ => .inl)).trans (k.frame.mono (fun _ => .inr)), ?_, ?_, p, ?_⟩
  · rw [counted, k.count, hcnt, fld_of_rd _ hcnt]
  · rw [k.gap, h.now, h.cluster, fld_of_rd _ hgap]
  · rw [hp, h.now, h.cluster]

/-- Every prefetch entry of the list becomes due. -/
theorem AtYield.duePrefs {e : Nat → Prop} {v : State} (k : AtYield e c s v) : AtYield e c s (v.duePrefs c) := by
  obtain ⟨p, hp⟩ := k.record
  exact ⟨k.frame.trans (seqFrame_modCl _ v c _), k.count, k.gap, _, (cl_modCl_here v c _).trans (by rw [hp])⟩

theorem duePrefs_due (s : State) (c : Nat) : ∀ e ∈ ((s.duePrefs c).cl c).pref, e.due = true := by
  rw [State.duePrefs, cl_modCl_here]
  intro e he
  obtain ⟨e', -, rfl⟩ := List.mem_map.mp he
  rfl

/-- YIELD with nothing requested completes at its yield point. -/
theorem doYield_completes (q : QEntry) (hq : (s.cl c).requested = false) :
    State.doYield c s q = ((s.yieldPoint c).duePrefs c).seqDone c q q.nextPc := by
  obtain ⟨p, hp⟩ := (yieldPoint_atYield s c).duePrefs.record
  rw [State.doYield, if_neg (by rw [hp]; simp [hq])]

theorem AtYield.signalFits {w : BitVec 128} {v : State} (k : AtYield (yieldRegs c) c u v) (hf : Machine.signalFits u c w) :
    Machine.signalFits v c w :=
  signalFits_congr hf (fun i hi => (k.frame.fld _ (yieldRegs_not_token i hi) (observes_token hi)).le)
    (fun i hi => k.frame.fld _ (yieldRegs_not_token i hi) (observes_token hi))

theorem yield_goes_on (s : State) (c : Fin 64) (w : BitVec 128) (h : Ready s c w 0x54) (hf : signalFits s c w)
    (hq : (s.cl c).requested = false) :
    Completes (.yieldI c w) s (fun t => counted (Reg.SEQ_YIELD_CNT c) 1 s t ∧ (t.cl c).hold = none ∧ (t.cl c).yieldAt = s.now ∧
      (t.cl c).yieldHeld = 0 ∧ (∀ e ∈ (t.cl c).pref, e.due = true) ∧
      t.fld (Reg.SEQ_YIELD_GAP_MAX c) Fld.SEQ_YIELD_GAP_MAX_NS =
        max (s.now - (s.cl c).yieldAt - (s.cl c).yieldHeld) (s.fld (Reg.SEQ_YIELD_GAP_MAX c) Fld.SEQ_YIELD_GAP_MAX_NS)
          % 2 ^ Fld.SEQ_YIELD_GAP_MAX_NS.width ∧
      (∀ off, ¬ seqRegs c off → off ≠ Reg.SEQ_YIELD_CNT c → off ≠ Reg.SEQ_YIELD_GAP_MAX c → off ≠ Reg.SEQ_YIELD_LATE_CNT c →
        observes off = false → t.rd off = s.rd off) ∧
      clustersKept c s t ∧ { t with regs := s.regs, rings := s.rings, clu := s.clu } = s) := by
  obtain ⟨u, hu, hrun⟩ := runSeq_unchecked (effect := State.doYield c) (off := QEntry.nextPc) c.isLt h (by decide)
  have huv := (yieldPoint_atYield u c).duePrefs
  have hdue := duePrefs_due (u.yieldPoint c) c
  have heff := doYield_completes (s.capture_ c w) (hu.cluster ▸ hq)
  generalize (u.yieldPoint c).duePrefs c = v at huv hdue heff
  have hsv := hu.atYield huv
  obtain ⟨p, hv⟩ := hsv.record
  have hfin := seqDone_finished v (s.capture_ c w) (s.capture_ c w).nextPc c.isLt (huv.signalFits (hu.signalFits hf))
  obtain ⟨l, sr, pr, ht⟩ := hfin.cluster
  have hst : SeqFrame (fun off => seqRegs c off ∨ yieldRegs c off) c s (v.seqDone c (s.capture_ c w) (s.capture_ c w).nextPc) :=
    (hsv.frame.mono (fun _ x => x.imp_left (headRegs_seqRegs _))).trans (hfin.frame.mono (fun _ => .inl))
  refine ⟨_, congrArg Host.Outcome.next (hrun.trans heff), ?_, hfin.hold, ?_, ?_, ?_, ?_, ?_, hst.others, hst.rest⟩
  · exact (hfin.frame.regs _ (not_seqRegs_yieldCnt c) (observes_yieldCnt c)).trans hsv.count
  · rw [ht, hv]
  · rw [ht, hv]
  · rw [ht]
    exact hdue
  · exact (hfin.frame.fld _ (not_seqRegs_yieldGap c) (observes_yieldGap c)).trans hsv.gap
  · intro off h1 h2 h3 h4 ho
    refine hst.regs off ?_ ho
    rintro (h | h | h | h | h)
    exacts [h1 h, h2 h, h3 h, h1 (.inr (.inr (.inl h))), h4 h]

/-! ### A beat that nothing waits for (R22, R25) -/

theorem foldl_of_fixed {α β : Type} {f : α → β → α} {a : α} (l : List β) (h : ∀ b ∈ l, f a b = a) : l.foldl f a = a := by
  induction l with
  | nil => rfl
  | cons b l ih =>
    rw [List.foldl_cons, h b List.mem_cons_self]
    exact ih (fun x hx => h x (List.mem_cons_of_mem b hx))

/-- The registers that an accepted beat writes itself. -/
def beatRegs (off : Nat) : Prop := off = Reg.CAD_POS ∨ off = Reg.CAD_BEAT_CNT ∨ off = Reg.CAD_MASTER ∨ off = Reg.CAD_STATUS

/-- The master is known: the first beat names it (R31). -/
def State.masterKnown (s : State) (master : Nat) : State :=
  if s.fld Reg.CAD_STATUS Fld.CAD_STATUS_MASTER_VALID = 1 then s
  else (s.setFld Reg.CAD_MASTER Fld.CAD_MASTER_CHIP master).setFld Reg.CAD_STATUS Fld.CAD_STATUS_MASTER_VALID 1

/-- The position is taken, counted and recorded. -/
def State.beatTaken (s : State) (pos : BitVec 64) (master : Nat) : State :=
  let s := (((s.wr Reg.CAD_POS pos).cnt Reg.CAD_BEAT_CNT).bumpGlb 0x03 0 1).masterKnown master
  s.trace 78 0x0C (phaseOf pos) 0 (peerWord (s.fld Reg.CAD_MASTER Fld.CAD_MASTER_CHIP) 0 0 0 0)

/-- The BEAT packet to every chip (R20). -/
def State.beatPacket (s : State) (pos : BitVec 64) : Packet :=
  { src := s.chip, tc := 2, type := 5, mc := true
    mask := maskOf (2 ^ s.dim 0 - 1) (2 ^ s.dim 1 - 1) (2 ^ s.dim 2 - 1), body := leBytes 8 pos.toNat }

/-- What waits for a beat: the phase map, the arms, the held waits. -/
def State.beatServed (s : State) (old pos : BitVec 64) : State :=
  let s := if s.fld Reg.PWR_CTL Fld.PWR_CTL_PHASE_MAP_EN = 1 ∧ phaseOf pos ≠ phaseOf old then
      s.selectProfile (s.fld Reg.PWR_PHASE_MAP ⟨4 * phaseOf pos, 4⟩)
    else s
  let s := allArms.foldl (fun (s : State) a => s.fireArm false a) s
  (List.range 64).foldl (fun (s : State) c => s.releaseHold c) s

/-- The congestion interval closes, and a waiting handover hears of the beat. -/
def State.beatClosed (s : State) (pos : BitVec 64) : State :=
  let s := s.congClose pos false
  { s with fwBeat := s.fwBeat || (s.slice.isNone && s.rstState != 1) }

theorem acceptBeat_eq (s : State) (pos : BitVec 64) (master : Nat) (send : Bool) : s.acceptBeat pos master send =
    ((if send then (s.beatTaken pos master).inject ((s.beatTaken pos master).beatPacket pos) else s.beatTaken pos master).beatServed
      (s.rd Reg.CAD_POS) pos).beatClosed pos := rfl

theorem near_masterKnown (s : State) (master : Nat) :
    Near (fun o => o = Reg.CAD_MASTER ∨ o = Reg.CAD_STATUS) s (s.masterKnown master) :=
  Near.ite (fun _ => Near.refl _ s) (fun _ => ((Near.refl _ s).setFld _ _ _ (.inl (.inl rfl))).setFld _ _ _ (.inl (.inr rfl)))

/-- After the two registers of the beat itself, only the master's change. -/
theorem near_beatTaken_written (s : State) (pos : BitVec 64) (master : Nat) :
    Near (fun o => o = Reg.CAD_MASTER ∨ o = Reg.CAD_STATUS) ((s.wr Reg.CAD_POS pos).cnt Reg.CAD_BEAT_CNT) (s.beatTaken pos master) :=
  (((Near.refl _ _).bumpGlb _ _ _).trans (near_masterKnown _ master)).trace (show 78 < 80 by decide) _ _ _ _

theorem near_beatTaken (s : State) (pos : BitVec 64) (master : Nat) : Near beatRegs s (s.beatTaken pos master) :=
  ((near_wr _ _ (.inl (.inl rfl))).cnt _ (.inl (.inr (.inl rfl)))).trans
    ((near_beatTaken_written s pos master).mono (fun _ h => .inr (.inr h)))

theorem rd_cadPos_beatTaken (s : State) (pos : BitVec 64) (master : Nat) : (s.beatTaken pos master).rd Reg.CAD_POS = pos := by
  rw [(near_beatTaken_written s pos master).regs _ (by decide) (by decide), rd_cnt_ne (by decide), rd_wr_here]

theorem counted_beatTaken (s : State) (pos : BitVec 64) (master : Nat) : counted Reg.CAD_BEAT_CNT 1 s (s.beatTaken pos master) := by
  rw [counted, (near_beatTaken_written s pos master).regs _ (by decide) (by decide), rd_cnt_here, rd_wr_ne _ (by decide),
    fld_wr_ne _ _ (by decide)]

theorem releaseHold_of_free (h : (s.cl c).hold = none) : s.releaseHold c = s := by
  simp only [State.releaseHold, h, ite_self]

/-- A calm chip: a beat serves nothing. -/
theorem beatServed_calm (h : calm s) (old pos : BitVec 64) : s.beatServed old pos = s := by
  obtain ⟨harms, hholds, -, hmap⟩ := h
  have hphase : ¬ (s.fld Reg.PWR_CTL Fld.PWR_CTL_PHASE_MAP_EN = 1 ∧ phaseOf pos ≠ phaseOf old) := by
    rw [hmap]; exact fun x => absurd x.1 (by decide)
  rw [State.beatServed, if_neg hphase]
  rw [foldl_of_fixed allArms (fun a ha => fireArm_of_not_due false (armDue_of_disabled (harms a ha)))]
  exact foldl_of_fixed _ (fun c hc => releaseHold_of_free (hholds c (List.mem_range.mp hc)))

/-- With the congestion pages off, closing the interval changes only the router's open interval. -/
theorem congClose_off (h : s.fld Reg.FAB_CPAGE_CTL Fld.FAB_CPAGE_CTL_EN = 0) (pos : BitVec 64) (err : Bool) :
    s.congClose pos err = { s with rt := { s.rt with cong := { pos := s.rd Reg.CAD_POS, tsc := s.now } } } := by
  unfold State.congClose
  rw [if_pos (.inl h)]

/-- The registers that say what waits for a beat. -/
def calmRegs (off : Nat) : Prop := off = Reg.FAB_CPAGE_CTL ∨ off = Reg.PWR_CTL ∨ ∃ a : ArmId, off = a.ctl

/-- What waits for a beat is a matter of those registers and of the clusters' holds. -/
theorem calm_congr (h : calm s) (hr : ∀ off, calmRegs off → t.rd off = s.rd off)
    (hc : ∀ d, d < 64 → (t.cl d).hold = (s.cl d).hold) : calm t := by
  obtain ⟨harms, hholds, hpage, hmap⟩ := h
  exact ⟨fun a ha => (fld_of_rd _ (hr _ (.inr (.inr ⟨a, rfl⟩)))).trans (harms a ha), fun d hd => (hc d hd).trans (hholds d hd),
    (fld_of_rd _ (hr _ (.inl rfl))).trans hpage, (fld_of_rd _ (hr _ (.inr (.inl rfl)))).trans hmap⟩

theorem observes_armCtl (a : ArmId) : observes a.ctl = false := by
  cases a <;> refine observes_eq_false.mpr ?_ <;> simp only [ArmId.ctl, Reg.CAD_GARM_CTL, Reg.CLU_ARM_CTL] <;> omega

theorem calmRegs_unobserved (off : Nat) (h : calmRegs off) : observes off = false := by
  rcases h with rfl | rfl | ⟨a, rfl⟩
  exacts [by decide, by decide, observes_armCtl a]

theorem calmRegs_not_beat (off : Nat) (h : calmRegs off) : ¬ beatRegs off := by
  rcases h with rfl | rfl | ⟨a, rfl⟩
  · simp [beatRegs]
  · simp [beatRegs]
  · cases a <;>
      simp only [beatRegs, ArmId.ctl, Reg.CAD_GARM_CTL, Reg.CLU_ARM_CTL, Reg.CAD_POS, Reg.CAD_BEAT_CNT, Reg.CAD_MASTER, Reg.CAD_STATUS] <;>
      omega

theorem calmRegs_not_head (off : Nat) (h : calmRegs off) : ¬ headRegs c off := by
  rcases h with rfl | rfl | ⟨a, rfl⟩
  · exact not_headRegs_of_lt (by decide)
  · exact not_headRegs_of_lt (by decide)
  · cases a <;> rintro (h | ⟨i, hi, h⟩) <;>
      simp only [ArmId.ctl, Reg.CAD_GARM_CTL, Reg.CLU_ARM_CTL, Reg.SEQ_INSN_CNT, Reg.SEQ_TOKEN] at h <;> omega

/-- On a calm chip an accepted beat takes its position, sends its packet, and leaves registers, clusters and memory as they were. -/
theorem acceptBeat_calm (h : calm s) (pos : BitVec 64) (master : Nat) :
    let t := s.acceptBeat pos master true
    Near beatRegs s (s.beatTaken pos master) ∧ t.regs = (s.beatTaken pos master).regs ∧ t.clu = s.clu ∧ t.mem = s.mem ∧
      t.rt.rin = s.rt.rin ++ [{ p := (s.beatTaken pos master).beatPacket pos }] := by
  have hn := near_beatTaken s pos master
  have hcalm : calm ((s.beatTaken pos master).inject ((s.beatTaken pos master).beatPacket pos)) :=
    calm_congr h (fun off ho => hn.regs off (calmRegs_not_beat off ho) (calmRegs_unobserved off ho))
      (fun d _ => congrArg Cluster.hold (hn.cl d))
  rw [acceptBeat_eq, if_pos rfl, beatServed_calm hcalm, State.beatClosed, congClose_off hcalm.2.2.1]
  have hclu : (s.beatTaken pos master).clu = s.clu := by rw [hn.eq]
  have hmem : (s.beatTaken pos master).mem = s.mem := by rw [hn.eq]
  have hrt : (s.beatTaken pos master).rt = s.rt := by rw [hn.eq]
  exact ⟨hn, rfl, hclu, hmem, congrArg (fun (r : Router) => r.rin ++ [({ p := (s.beatTaken pos master).beatPacket pos } : RPkt)]) hrt⟩

/-- A beat ahead of CAD_POS, of a plain phase and from the selected source, is accepted (R22). -/
theorem offerBeat_accepted {src : Nat} {pos : BitVec 64} (master : Nat) (hen : s.fld Reg.CAD_CTL Fld.CAD_CTL_EN = 1)
    (hsrc : s.fld Reg.CAD_CTL Fld.CAD_CTL_SRC = src) (hpos : s.rd Reg.CAD_POS < pos) (h6 : phaseOf pos ≠ 6) (h7 : phaseOf pos ≠ 7) :
    s.offerBeat src pos master = s.acceptBeat pos master (src != 1) := by
  have hahead : ¬ pos ≤ s.rd Reg.CAD_POS := BitVec.not_le.mpr hpos
  rw [State.offerBeat, if_neg (by simp [hen, hsrc]), if_neg (by simp only [hahead, h6, h7, or_self, not_false_eq_true])]

/-! ### BEAT (R22, R149) -/

theorem HeaderTaken.seqTenant (h : HeaderTaken c s u) : u.seqTenant c = s.seqTenant c := by
  refine fld_of_rd _ (h.rd ?_ (observes_seqRegs (c := c) _ (.inr (.inr (.inl rfl)))))
  rintro (h | ⟨i, -, h⟩) <;> simp only [Reg.SEQ_STATUS, Reg.SEQ_INSN_CNT, Reg.SEQ_TOKEN] at h <;> omega

theorem HeaderTaken.fld_low (h : HeaderTaken c s u) {off : Nat} (f : Field) (hl : off < 0x410000) (ho : observes off = false) :
    u.fld off f = s.fld off f := fld_of_rd f (h.rd (not_headRegs_of_lt hl) ho)

theorem HeaderTaken.calm (h : HeaderTaken c s u) (hs : calm s) : Machine.calm u := by
  refine calm_congr hs (fun off ho => h.rd (calmRegs_not_head off ho) (calmRegs_unobserved off ho)) (fun d _ => congrArg Cluster.hold ?_)
  by_cases hd : d = c
  · rw [hd, h.cluster]
  · exact h.frame.others d hd

/-- On the master cluster's chip BEAT passes its check. -/
theorem HeaderTaken.beatCheck_passes (h : HeaderTaken c s u) (q : QEntry) (hsrc : s.fld Reg.CAD_CTL Fld.CAD_CTL_SRC = 2)
    (ht : s.seqTenant c = 1) (hm : (s.image 1).cadMaster = s.chip) (hb : (s.image 1).beatCluster = c) : beatCheck c u q = none := by
  have him : u.image 1 = s.image 1 := by rw [State.image, h.frame.images]; rfl
  have hchip : u.chip = s.chip := h.fld_low _ (by decide) (by decide)
  simp [beatCheck, him, hchip, h.seqTenant, h.fld_low (off := Reg.CAD_CTL) _ (by decide) (by decide), hsrc, ht, hm, hb]

theorem beatRegs_low (off : Nat) (h : beatRegs off) : off < 0x410000 := by
  rcases h with rfl | rfl | rfl | rfl <;> decide

theorem not_seqRegs_of_lt {off : Nat} (h : off < 0x410000) : ¬ seqRegs c off := by
  rintro (h' | h' | h' | ⟨i, -, h'⟩) <;> simp only [Reg.SEQ_INSN_CNT, Reg.SEQ_PC, Reg.SEQ_STATUS, Reg.SEQ_TOKEN] at h' <;> omega

theorem beat_makes_position (s : State) (c : Fin 64) (w : BitVec 128) (p : BitVec 64) (h : Ready s c w 0x53) (hf : signalFits s c w)
    (hcalm : calm s) (hsrc : s.fld Reg.CAD_CTL Fld.CAD_CTL_SRC = 2) (hen : s.fld Reg.CAD_CTL Fld.CAD_CTL_EN = 1)
    (ht : s.seqTenant c = 1) (hm : (s.image 1).cadMaster = s.chip) (hb : (s.image 1).beatCluster = c)
    (hp : p = (s.capture_ c w).scal.get 0 (bitsOf w 95 91)) (hpos : s.rd Reg.CAD_POS < p) (h6 : phaseOf p ≠ 6) (h7 : phaseOf p ≠ 7) :
    Completes (.beat c w) s (fun t => t.rd Reg.CAD_POS = p ∧ counted Reg.CAD_BEAT_CNT 1 s t ∧
      (∃ q, t.rt.rin = s.rt.rin ++ [{ p := q }] ∧ q.type = 5 ∧ q.tc = 2 ∧ q.mc = true ∧ q.body = leBytes 8 p.toNat) ∧
      (t.cl c).hold = none ∧ t.mem = s.mem ∧ clustersKept c s t) := by
  obtain ⟨u, hu, hrun⟩ := runSeq_ready (check := beatCheck c) (effect := State.doBeat c) (off := QEntry.nextPc) c.isLt h (by decide)
    (fun x hx => hx.beatCheck_passes _ hsrc ht hm hb)
  have hoffer : u.offerBeat 2 p u.chip = u.acceptBeat p u.chip true :=
    offerBeat_accepted _ ((hu.fld_low _ (by decide) (by decide)).trans hen) ((hu.fld_low _ (by decide) (by decide)).trans hsrc)
      (hu.rd_cadPos ▸ hpos) h6 h7
  obtain ⟨hnear, hregs, hclu, hmem, hrin⟩ := acceptBeat_calm (hu.calm hcalm) p u.chip
  generalize u.acceptBeat p u.chip true = b at hoffer hregs hclu hmem hrin
  have hrd (off : Nat) : b.rd off = (u.beatTaken p u.chip).rd off := congrArg (fun r : Tab (BitVec 64) => r.get (regReset off) off) hregs
  have htok (i : Nat) (hi : i < 256) : b.rd (Reg.SEQ_TOKEN c i) = u.rd (Reg.SEQ_TOKEN c i) :=
    (hrd _).trans (hnear.regs _ (fun x => by have := beatRegs_low _ x; simp only [Reg.SEQ_TOKEN] at this; omega) (observes_token hi))
  have hfb : signalFits b c w := signalFits_congr (hu.signalFits hf) (fun i hi => (fld_of_rd _ (htok i hi)).le)
    (fun i hi => fld_of_rd _ (htok i hi))
  have hfin := seqDone_finished b (s.capture_ c w) (s.capture_ c w).nextPc c.isLt hfb
  have heff : State.doBeat c u (s.capture_ c w) = b.seqDone c (s.capture_ c w) (s.capture_ c w).nextPc := by
    rw [← hoffer, hp]; rfl
  have hcnt : u.rd Reg.CAD_BEAT_CNT = s.rd Reg.CAD_BEAT_CNT := hu.rd (not_headRegs_of_lt (by decide)) (by decide)
  refine ⟨_, congrArg Host.Outcome.next (hrun.trans heff), ?_, ?_, ⟨(u.beatTaken p u.chip).beatPacket p, ?_, rfl, rfl, rfl, rfl⟩,
    hfin.hold, ?_, fun d hd => ?_⟩
  · rw [hfin.frame.regs _ (not_seqRegs_of_lt (by decide)) (by decide), hrd, rd_cadPos_beatTaken]
  · rw [counted, hfin.frame.regs _ (not_seqRegs_of_lt (by decide)) (by decide), hrd, counted_beatTaken, hcnt, fld_of_rd _ hcnt]
  · rw [hfin.frame.rt, hrin, hu.frame.rt]
  · rw [hfin.frame.mem, hmem, hu.frame.mem]
  · rw [hfin.frame.others d hd, ← hu.frame.others d hd, State.cl, hclu]; rfl

/-- Settles O26: each instruction comes through its header to its effect, which completes it or holds decode. -/
theorem positionInstructions : Obligations.PositionInstructions :=
  ⟨cwait_goes_on, cwait_holds, beat_makes_position, yield_goes_on, fence_no_prefs, fence_with_prefs,
    fun s c ports since e _ hr hh hf => fenceRelease_serves s c ports since e hr hh hf⟩

end Sys2Proof.Machine
end

section
/-!
SUPPORT. Two's complement codes, the codes a block conversion can produce (R41, R46, R62), and sums of AQ values (R65).
-/
namespace Sys2Proof

/-! ### Two's complement -/

theorem ofSigned_lt (w : Nat) (i : Int) : ofSigned w i < 2 ^ w := by
  have hpos : (0 : Int) < 2 ^ w := by positivity
  have hlt := Int.emod_lt_of_pos i hpos
  zify [ofSigned]
  rwa [Int.toNat_of_nonneg (Int.emod_nonneg i hpos.ne')]

/-- The value of a code of `k + 1` bits, in arithmetic. -/
theorem toSigned_of_lt (k n : Nat) (hn : n < 2 ^ (k + 1)) : toSigned (k + 1) n = if (n : Int) < 2 ^ k then (n : Int) else n - 2 * 2 ^ k := by
  have hcast : ((2 ^ k : Nat) : Int) = 2 ^ k := by push_cast; rfl
  simp only [toSigned, Nat.mod_eq_of_lt hn, Nat.add_sub_cancel, pow_succ' (2 : Int), ← hcast, Nat.cast_lt]

/-- A code of `k + 1` bits read back gives the integer it was made of, where that integer has such a code. -/
theorem toSigned_ofSigned (k : Nat) (i : Int) (hlo : -2 ^ k ≤ i) (hhi : i < 2 ^ k) : toSigned (k + 1) (ofSigned (k + 1) i) = i := by
  have hcode : (ofSigned (k + 1) i : Int) = if 0 ≤ i then i else i + 2 * 2 ^ k := by
    rw [ofSigned, pow_succ' (2 : Int), Int.toNat_of_nonneg (Int.emod_nonneg i (by positivity))]
    split
    · exact Int.emod_eq_of_lt ‹_› (by omega)
    · rw [← Int.add_emod_right]; exact Int.emod_eq_of_lt (by omega) (by omega)
  rw [toSigned_of_lt k _ (ofSigned_lt _ i)]
  split at hcode <;> split <;> omega

/-! ### Block conversion -/

/-- The code of one element of a block whose scale exponent is `x`; none marks the block (R62). -/
def ElemFmt.codeAt (f : ElemFmt) (x : Int) (mode : Round) (p : Num × Nat) : Option Nat :=
  match p.1 with
  | .fin q =>
    match f.round (q.shift (-x)) mode p.2 with
    | some w => some (f.encode w)
    | none => f.nonFinite (.inf (decide (q.num < 0)))
  | n => f.nonFinite n

/-- The scale exponent of a block of `f` (R46, R60). -/
def ElemFmt.blockScale (f : ElemFmt) (vs : List Num) : Int :=
  if 127 < blockExponent (maxFinite vs) f.maxval then 127 else blockExponent (maxFinite vs) f.maxval

/-- An element's code is that of a rounded value or of a non-finite result. -/
theorem ElemFmt.codeAt_eq_some {f : ElemFmt} {x : Int} {mode : Round} {p : Num × Nat} {code : Nat} (h : f.codeAt x mode p = some code) :
    (∃ v w, f.round v mode p.2 = some w ∧ f.encode w = code) ∨ ∃ n, f.nonFinite n = some code := by
  unfold ElemFmt.codeAt at h
  split at h
  · split at h
    next w hw => exact .inl ⟨_, w, hw, Option.some.inj h⟩
    · exact .inr ⟨_, h⟩
  · exact .inr ⟨_, h⟩

theorem encodeBlock_eq (f : ElemFmt) (vs : List Num) (mode : Round) (us : List Nat) :
    encodeBlock f vs mode us =
      if ((vs.zip us).map (f.codeAt (f.blockScale vs) mode)).all Option.isSome then
        ((f.blockScale vs + 127).toNat, ((vs.zip us).map (f.codeAt (f.blockScale vs) mode)).map (·.getD 0))
      else nanBlock vs.length := rfl

/-- Every code of a converted block is that of a rounded value, that of a non-finite result, or the 0 of a marked block. -/
theorem mem_encodeBlock {f : ElemFmt} {vs : List Num} {mode : Round} {us : List Nat} {code : Nat}
    (h : code ∈ (encodeBlock f vs mode us).2) :
    (∃ v u w, f.round v mode u = some w ∧ f.encode w = code) ∨ (∃ n, f.nonFinite n = some code) ∨ code = 0 := by
  rw [encodeBlock_eq] at h
  split at h
  next hall =>
    obtain ⟨c, hc, rfl⟩ := List.mem_map.mp h
    obtain ⟨code, rfl⟩ := Option.isSome_iff_exists.mp (List.all_eq_true.mp hall c hc)
    obtain ⟨p, -, hp⟩ := List.mem_map.mp hc
    rcases ElemFmt.codeAt_eq_some hp with ⟨v, w, hw, he⟩ | hn
    · exact .inl ⟨v, p.2, w, hw, he⟩
    · exact .inr (.inl hn)
  next => exact .inr (.inr (List.eq_of_mem_replicate h))

/-! ### MXINT8 (R41) -/

/-- The code of `n` sixty-fourths is `n` in two's complement. -/
theorem encode_int8 (n : Int) : ElemFmt.int8.encode ⟨n, 64⟩ = ofSigned 8 n :=
  congrArg (ofSigned 8) (Int.mul_ediv_cancel n (by decide : (64 : Int) ≠ 0))

/-- A value rounds onto at most 127 sixty-fourths either way, or overflows (R58). -/
theorem round_int8_eq_some {v w : Frac} {mode : Round} {u : Nat} (h : ElemFmt.int8.round v mode u = some w) :
    ∃ n : Int, n.natAbs ≤ 127 ∧ w = ⟨n, 64⟩ := by
  simp only [ElemFmt.round] at h
  split at h
  · cases h
  next hn => exact ⟨_, Nat.le_of_not_lt hn, (Option.some.inj h).symm⟩

theorem ofSigned_eight_ne (n : Int) (hn : n.natAbs ≤ 127) : ofSigned 8 n ≠ 128 := by
  intro h
  have hback := toSigned_ofSigned 7 n (by omega) (by omega)
  have hval : toSigned 8 128 = -128 := by decide
  rw [h, hval] at hback
  omega

/-- Settles O59: a code read back gives its integer, and every code of a block comes from at most 127 sixty-fourths either way. -/
theorem mxint8Elements : Obligations.Mxint8Elements := by
  refine ⟨fun n hlo hhi => ?_, fun vs mode us code hcode => ?_⟩
  · exact congrArg (fun i : Int => Num.fin ⟨i, 64⟩) (toSigned_ofSigned 7 n hlo (Int.lt_of_le_sub_one hhi))
  · rcases mem_encodeBlock hcode with ⟨v, u, w, hw, rfl⟩ | ⟨n, hn⟩ | rfl
    · obtain ⟨n, hn, rfl⟩ := round_int8_eq_some hw
      rw [encode_int8]
      exact ⟨ofSigned_lt 8 n, ofSigned_eight_ne n hn⟩
    · cases hn
    · decide

/-! ### AQ values (R65) -/

/-- The AQ value of an integer number of quanta. -/
def Num.quanta (n : Int) : Num := .fin ⟨n, 1⟩

theorem aqAdd_quanta (a b : Int) : aqAdd (.quanta a) (.quanta b) = .quanta (a + b) := by
  simp [aqAdd, Num.quanta, Frac.add]

/-- Adding finite values one after another adds their integers. -/
theorem foldl_aqAdd_quanta (l : List Int) (a : Int) : (l.map Num.quanta).foldl aqAdd (.quanta a) = .quanta (a + l.sum) := by
  induction l generalizing a with
  | nil => simp
  | cons q l ih => rw [List.map_cons, List.foldl_cons, aqAdd_quanta, ih, List.sum_cons, add_assoc]

/-- A finite integer of AQ, coded and read back: its code is none of the three non-finite ones. -/
theorem aqValue_aqCode_quanta (k : Nat) (i : Int) (hlo : -(2 ^ k - 2) ≤ i) (hhi : i ≤ 2 ^ k - 2) :
    aqValue (k + 1) (aqCode (k + 1) (.quanta i)) = .quanta i := by
  have hcode : aqCode (k + 1) (.quanta i) = ofSigned (k + 1) i := congrArg (ofSigned (k + 1)) (Int.ediv_one i)
  have hback := toSigned_ofSigned k i (by omega) (by omega)
  have hval := toSigned_of_lt k _ (ofSigned_lt (k + 1) i)
  have hcast : ((2 ^ k : Nat) : Int) = 2 ^ k := by push_cast; rfl
  rw [hback] at hval
  have hinf : ofSigned (k + 1) i ≠ 2 ^ k - 1 := by split at hval <;> omega
  have hninf : ofSigned (k + 1) i ≠ 2 ^ k + 1 := by split at hval <;> omega
  have hnan : ofSigned (k + 1) i ≠ 2 ^ k := by split at hval <;> omega
  rw [hcode, aqValue, Nat.add_sub_cancel, if_neg hinf, if_neg hninf, if_neg hnan, hback, Num.quanta]

/-- As many as 65,536 finite AQ32 integers stay in the finite range of AQ48. -/
theorem sum_aq32_bounds (l : List Int) (hlen : l.length ≤ 65536) (hl : ∀ q ∈ l, -(2 ^ 31 - 2) ≤ q ∧ q ≤ 2 ^ 31 - 2) :
    -(2 ^ 47 - 2) ≤ l.sum ∧ l.sum ≤ 2 ^ 47 - 2 := by
  have hlow := List.card_nsmul_le_sum l (-(2 ^ 31 - 2)) (fun q hq => (hl q hq).1)
  have hhigh := List.sum_le_card_nsmul l (2 ^ 31 - 2) (fun q hq => (hl q hq).2)
  rw [nsmul_eq_mul] at hlow hhigh
  constructor <;> omega

/-- Settles O60: finite values add as integers, in any order, and 65,536 of AQ32 stay clear of the non-finite codes of AQ48. -/
theorem aq48Addition : Obligations.Aq48Addition := by
  refine ⟨fun x => ⟨rfl, by cases x <;> rfl⟩, fun b => by cases b <;> rfl, fun b q => ⟨rfl, rfl⟩, aqAdd_quanta,
    fun l p hlen hl hperm => ?_⟩
  obtain ⟨hlo, hhi⟩ := sum_aq32_bounds l hlen hl
  refine ⟨?_, hlo, hhi, aqValue_aqCode_quanta 47 l.sum hlo hhi⟩
  have hfold := foldl_aqAdd_quanta p 0
  rwa [zero_add, ← hperm.sum_eq] at hfold

end Sys2Proof
end

section
/-!
SUPPORT. Ranks: a rank's record after a write of it, the registers of a rank, and the bytes of a register.
-/
namespace Sys2Proof.Machine

variable {s t : State}

/-! ### A rank's record -/

theorem rk_setRk_here (s : State) (c r : Nat) (x : Rank) : (s.setRk c r x).rk c r = x :=
  (Tab.get_set {} s.rank (c * 16 + r) x (c * 16 + r)).trans (if_pos rfl)

theorem rk_setRk_ne (s : State) (c : Nat) {r p : Nat} (x : Rank) (h : p ≠ r) : (s.setRk c r x).rk c p = s.rk c p :=
  Tab.get_set_ne {} s.rank (c * 16 + r) x (c * 16 + p) (by omega)

theorem rk_modRk_here (s : State) (c r : Nat) (f : Rank → Rank) : (s.modRk c r f).rk c r = f (s.rk c r) := rk_setRk_here s c r _

theorem rk_modRk_ne (s : State) (c : Nat) {r p : Nat} (f : Rank → Rank) (h : p ≠ r) : (s.modRk c r f).rk c p = s.rk c p :=
  rk_setRk_ne s c _ h

theorem rk_of_rank (h : t.rank = s.rank) (c r : Nat) : t.rk c r = s.rk c r := by rw [State.rk, h]; rfl

/-- The registers of rank `r` lie in 0x800 bytes of their own, clear of those that recording an event touches (R563). -/
theorem observes_rankReg (c : Nat) {r d : Nat} (hr : r < 16) (hd : d < 0x800) :
    observes (0x401000 + d + 0x40000 * c + 0x800 * r) = false := by
  rw [observes_eq_false]; omega

theorem notices_rankReg (c : Nat) {r d : Nat} (hr : r < 16) (hd : d < 0x800) :
    notices (0x401000 + d + 0x40000 * c + 0x800 * r) = false := by
  simp only [notices, observes_rankReg c hr hd, Bool.or_eq_false_iff, beq_eq_false_iff_ne, true_and]
  omega

/-! ### The bytes of a register -/

theorem leNat_lt (bs : List Byte) : leNat bs < 256 ^ bs.length := by
  induction bs with
  | nil => decide
  | cons b bs ih =>
    have hb := b.isLt
    rw [leNat, List.length_cons, pow_succ]
    omega

/-- Byte `i` of a little-endian number. -/
theorem leNat_byte (bs : List Byte) (i : Nat) : leNat bs / 256 ^ i % 256 = (bs.getD i 0).toNat := by
  induction bs generalizing i with
  | nil => simp [leNat]
  | cons b bs ih =>
    have hb := b.isLt
    cases i with
    | zero => rw [leNat, List.getD_cons_zero]; omega
    | succ i =>
      rw [List.getD_cons_succ, ← ih i, pow_succ', ← Nat.div_div_eq_div_mul, leNat]
      congr 2
      omega

/-- Byte `i` of a register that was written with eight bytes. -/
theorem getField_ofBytes (bs : List Byte) (i : Nat) (h : bs.length = 8) :
    getField (BitVec.ofNat 64 (leNat bs)) ⟨8 * i, 8⟩ = (bs.getD i 0).toNat := by
  have hlt : leNat bs < 2 ^ 64 := by simpa [h] using leNat_lt bs
  rw [getField, BitVec.toNat_ofNat, Nat.mod_eq_of_lt hlt, ← leNat_byte, pow_mul]
  rfl

/-! ### A family of registers written together -/

variable {reg : Nat → Nat} {val : Nat → BitVec 64} {l : List Nat}

theorem rd_foldl_wr_ne {off : Nat} (h : ∀ j ∈ l, off ≠ reg j) : (l.foldl (fun s j => s.wr (reg j) (val j)) s).rd off = s.rd off := by
  induction l generalizing s with
  | nil => rfl
  | cons j l ih => rw [List.foldl_cons, ih (fun i hi => h i (.tail _ hi)), rd_wr_ne _ (h j (.head _))]

theorem rd_foldl_wr_mem {j : Nat} (hreg : ∀ i, reg i = reg j → i = j) (hj : j ∈ l) :
    (l.foldl (fun s j => s.wr (reg j) (val j)) s).rd (reg j) = val j := by
  induction l generalizing s with
  | nil => cases hj
  | cons i l ih =>
    rw [List.foldl_cons]
    by_cases hl : j ∈ l
    · exact ih hl
    · obtain rfl : j = i := (List.mem_cons.mp hj).resolve_right hl
      rw [rd_foldl_wr_ne (fun k hk h => hl (hreg k h.symm ▸ hk)), rd_wr_here]

end Sys2Proof.Machine
end

section
/-!
SUPPORT. The maps of R85 and R88: the lanes a rank's map names, and how the work of logical ranks follows the map of their cluster.
-/
namespace Sys2Proof.Machine

variable {s : State} {c : Nat}

/-! ### The lane map (R85, R87, R95) -/

theorem near_writeCodes (s : State) (off : Nat) (v : BitVec 64) : Near (· = off) s (s.writeCodes off v) := by
  unfold State.writeCodes
  split
  · exact Near.refl _ s
  · exact near_wr _ _ (.inl rfl)

/-- Writing the lane map touches RNK_SKEW_MAP and RNK_LMAP. -/
theorem near_setSkew (s : State) (c r : Nat) (v : BitVec 64) (ls : List Nat) :
    Near (fun off => off = Reg.RNK_SKEW_MAP c r ∨ ∃ j, j < 16 ∧ off = Reg.RNK_LMAP c r j) s (s.setSkew c r v ls) :=
  ((near_writeCodes s _ v).mono (fun _ => .inl)).foldl
    (fun _ j hj => near_wr _ _ (.inl (.inr ⟨j, List.mem_range.mp hj, rfl⟩)))

/-- RNK_LMAP follows the retired lanes. -/
theorem physLane_setSkew (s : State) (c r : Nat) (v : BitVec 64) (ls : List Nat) {l : Nat} (hl : l < 128) :
    (s.setSkew c r v ls).physLane c r l = (laneMap ls).getD l 0 % 256 := by
  have hmem : l / 8 ∈ List.range 16 := List.mem_range.mpr (by omega)
  have hinj : ∀ i, Reg.RNK_LMAP c r i = Reg.RNK_LMAP c r (l / 8) → i = l / 8 := fun i h => by simp only [Reg.RNK_LMAP] at h; omega
  have hlane : l % 8 < 8 := Nat.mod_lt _ (by decide)
  rw [State.physLane, fld_def, State.setSkew, rd_foldl_wr_mem hinj hmem, getField_ofBytes _ _ (by simp)]
  simp [List.getD_eq_getElem?_getD, List.getElem?_map, List.getElem?_range hlane, Nat.div_add_mod]

theorem writeSkew_accepted {r : Nat} {v : BitVec 64} {ls : List Nat} (hv : skewLanes v = some ls)
    (hq : s.fld (Reg.RNK_CTL c r) Fld.RNK_CTL_QUIESCED = 1) : s.writeSkew c r v = s.setSkew c r v ls := by
  simp [State.writeSkew, hv, hq]

theorem writeSkew_rejected {r : Nat} {v : BitVec 64} (h : skewLanes v = none ∨ s.fld (Reg.RNK_CTL c r) Fld.RNK_CTL_QUIESCED = 0) :
    s.writeSkew c r v = s.event (Reg.RNK_STATUS c r) Fld.RNK_STATUS_SKEW_ERR (Reg.RNK_SKEW_ERR_CNT c r) := by
  unfold State.writeSkew
  split
  · next hv => rw [if_neg (by simp_all)]
  · rfl

/-! ### Distinct entries -/

theorem eraseDups_of_nodup {l : List Nat} (h : l.Nodup) : l.eraseDups = l := by
  induction l with
  | nil => rfl
  | cons a l ih =>
    obtain ⟨ha, hl⟩ := List.nodup_cons.mp h
    rw [List.eraseDups_cons, List.filter_eq_self.mpr (fun b hb => by simpa using fun hba : b = a => ha (hba ▸ hb)), ih hl]

theorem length_eraseDups_le (l : List Nat) : l.eraseDups.length ≤ l.length := by
  match l with
  | [] => exact le_rfl
  | a :: l =>
    have hle := List.length_filter_le (fun b => !b == a) l
    rw [List.eraseDups_cons, List.length_cons, List.length_cons]
    exact Nat.succ_le_succ ((length_eraseDups_le _).trans hle)
termination_by l.length
decreasing_by simp only [List.length_cons]; omega

/-- A list that loses nothing to `eraseDups` repeats nothing. -/
theorem nodup_of_length_eraseDups {l : List Nat} (h : l.eraseDups.length = l.length) : l.Nodup := by
  induction l with
  | nil => exact List.nodup_nil
  | cons a l ih =>
    rw [List.eraseDups_cons, List.length_cons, List.length_cons, Nat.succ_inj] at h
    have hle := length_eraseDups_le (l.filter (fun b => !b == a))
    have hall := List.length_filter_eq_length_iff.mp (le_antisymm (List.length_filter_le _ l) (h ▸ hle))
    rw [List.filter_eq_self.mpr hall] at h
    exact List.nodup_cons.mpr ⟨fun ha => by simpa using hall a ha, ih h⟩

/-! ### The rank map (R88, R91) -/

/-- The physical rank that a value of CLU_RANK_MAP gives to logical rank `i`. -/
def rankAt (v : BitVec 64) (i : Nat) : Nat := v.toNat / 2 ^ (4 * i) % 16

/-- No two logical ranks share a physical one. -/
def MapDistinct (v : BitVec 64) : Prop := ∀ i j, i < j → j < 12 → rankAt v i ≠ rankAt v j

theorem physRank_eq (s : State) (c i : Nat) : s.physRank c i = rankAt (s.rd (Reg.CLU_RANK_MAP c)) i := rfl

theorem MapDistinct.inj {v : BitVec 64} (h : MapDistinct v) {i j : Nat} (hi : i < 12) (hj : j < 12)
    (he : rankAt v i = rankAt v j) : i = j := by
  rcases lt_trichotomy i j with hlt | heq | hgt
  · exact absurd he (h i j hlt hj)
  · exact heq
  · exact absurd he.symm (h j i hgt hi)

theorem mapDistinct_iff (v : BitVec 64) : MapDistinct v ↔ ((List.range 12).map (rankAt v)).Nodup := by
  rw [List.nodup_map_iff_inj_on List.nodup_range]
  simp only [List.mem_range]
  exact ⟨fun h i hi j hj => h.inj hi hj, fun h i j hij hj he => hij.ne (h i (hij.trans hj) j hj he)⟩

/-- The map `v` is taken: distinct ranks that exist, and every rank whose assignment changes quiesced (R91). -/
def State.takesMap (s : State) (c : Nat) (v : BitVec 64) : Prop :=
  (∀ i, i < 12 → rankAt v i < 13) ∧ MapDistinct v ∧
    ∀ p, p < 13 → servedBy (s.rd (Reg.CLU_RANK_MAP c)) p = servedBy v p ∨ s.fld (Reg.RNK_CTL c p) Fld.RNK_CTL_QUIESCED = 1

theorem length_eraseDups_map (v : BitVec 64) : ((List.range 12).map (rankAt v)).eraseDups.length = 12 ↔ MapDistinct v := by
  rw [mapDistinct_iff]
  exact ⟨fun h => nodup_of_length_eraseDups (h.trans (by simp)), fun h => by rw [eraseDups_of_nodup h]; simp⟩

theorem takesMap_iff (s : State) (c : Nat) (v : BitVec 64) : s.takesMap c v ↔
    (((List.range 12).map (rankAt v)).all (fun p => decide (p < 13)) && decide (((List.range 12).map (rankAt v)).eraseDups.length = 12)
      && (List.range 13).all (fun p => servedBy (s.rd (Reg.CLU_RANK_MAP c)) p == servedBy v p
        || s.fld (Reg.RNK_CTL c p) Fld.RNK_CTL_QUIESCED == 1)) = true := by
  simp only [State.takesMap, length_eraseDups_map, Bool.and_eq_true, decide_eq_true_eq, List.all_eq_true, List.mem_map, List.mem_range,
    Bool.or_eq_true, beq_iff_eq, and_assoc, forall_exists_index, and_imp, forall_apply_eq_imp_iff₂]

theorem writeRankMap_accepted {v : BitVec 64} (h : s.takesMap c v) : ∃ spare, s.writeRankMap c v =
    ((s.setFld (Reg.CLU_RANK_MAP c) Fld.CLU_RANK_MAP_MAP (v.toNat % 2 ^ 48)).setFld (Reg.CLU_RANK_MAP c) Fld.CLU_RANK_MAP_SPARE
      spare).moveRanks c (s.rd (Reg.CLU_RANK_MAP c)) v := by
  have hok := (takesMap_iff s c v).mp h
  exact ⟨_, if_neg (by rw [Bool.not_eq_true', Bool.not_eq_false]; exact hok)⟩

theorem writeRankMap_rejected {v : BitVec 64} (h : ¬ s.takesMap c v) :
    s.writeRankMap c v = s.event (Reg.CLU_STATUS c) Fld.CLU_STATUS_MAP_ERR (Reg.CLU_MAP_ERR_CNT c) := by
  rw [takesMap_iff, Bool.not_eq_true] at h
  exact if_pos (by rw [Bool.not_eq_true']; exact h)

/-- A field that lies within a field just written. -/
theorem getField_putField_within (w : BitVec 64) (f g : Field) (n : Nat) (hf : f.lo + f.width ≤ 64) (hlo : f.lo ≤ g.lo)
    (hhi : g.lo + g.width ≤ f.lo + f.width) : getField (putField w f n) g = n / 2 ^ (g.lo - f.lo) % 2 ^ g.width := by
  apply Nat.eq_of_testBit_eq
  intro i
  rw [getField_testBit, putField_testBit w f n _ hf, Nat.testBit_mod_two_pow, Nat.testBit_div_two_pow]
  by_cases h : i < g.width
  · rw [if_pos ⟨by omega, by omega⟩, show g.lo + i - f.lo = i + (g.lo - f.lo) by omega]
  · simp [h]

/-- Once MAP is written, logical rank `i` has the physical rank that the value gives it. -/
theorem physRank_written (s : State) (c : Nat) (v : BitVec 64) (spare : Nat) {i : Nat} (hi : i < 12) :
    ((s.setFld (Reg.CLU_RANK_MAP c) Fld.CLU_RANK_MAP_MAP (v.toNat % 2 ^ 48)).setFld (Reg.CLU_RANK_MAP c) Fld.CLU_RANK_MAP_SPARE
      spare).physRank c i = rankAt v i := by
  have hbeside : 4 * i + 4 ≤ 48 := by omega
  rw [State.physRank, fld_setFld_beside _ _ _ _ _ (by decide) (.inl hbeside), fld_def, rd_setFld_here,
    getField_putField_within _ _ _ _ (by decide) (Nat.zero_le _) hbeside]
  apply Nat.eq_of_testBit_eq
  intro k
  rw [rankAt, show 16 = 2 ^ 4 from rfl, Nat.testBit_mod_two_pow, Nat.testBit_mod_two_pow, Nat.testBit_div_two_pow, Nat.testBit_div_two_pow,
    Nat.testBit_mod_two_pow]
  by_cases hk : k < 4
  · simp [Fld.CLU_RANK_MAP_MAP, show k + 4 * i < 48 by omega]
  · simp [hk]

/-! ### The work of the ranks that move (R88) -/

variable {l : List Nat} {at_ : Nat → Nat} {f : Nat → Rank → Rank}

theorem foldl_modRk_frame (s : State) : { l.foldl (fun u i => u.modRk c (at_ i) (f i)) s with rank := s.rank } = s := by
  induction l generalizing s with
  | nil => rfl
  | cons i l ih => exact congrArg (fun u => { u with rank := s.rank }) (ih (s.modRk c (at_ i) (f i)))

theorem rk_foldl_modRk_ne {p : Nat} (h : ∀ i ∈ l, at_ i ≠ p) :
    (l.foldl (fun u i => u.modRk c (at_ i) (f i)) s).rk c p = s.rk c p := by
  induction l generalizing s with
  | nil => rfl
  | cons i l ih => rw [List.foldl_cons, ih (fun j hj => h j (.tail _ hj)), rk_modRk_ne s c _ (h i (.head _)).symm]

theorem rk_foldl_modRk_mem {i : Nat} (hi : i ∈ l) (hl : l.Nodup) (hat : ∀ j ∈ l, at_ j = at_ i → j = i) :
    (l.foldl (fun u i => u.modRk c (at_ i) (f i)) s).rk c (at_ i) = f i (s.rk c (at_ i)) := by
  induction l generalizing s with
  | nil => cases hi
  | cons j l ih =>
    obtain ⟨hj, hl⟩ := List.nodup_cons.mp hl
    rw [List.foldl_cons]
    by_cases hij : j = i
    · subst hij
      rw [rk_foldl_modRk_ne (fun k hk he => hj (hat k (.tail _ hk) he ▸ hk)), rk_modRk_here]
    · have hne : at_ i ≠ at_ j := fun he => hij (hat j (.head _) he.symm)
      rw [ih ((List.mem_cons.mp hi).resolve_left (Ne.symm hij)) hl (fun k hk => hat k (.tail _ hk)), rk_modRk_ne s c _ hne]

/-- The logical ranks that change their physical rank. -/
def movedRanks (old new : BitVec 64) : List Nat := (List.range 12).filter (fun i => rankAt old i != rankAt new i)

/-- A rank whose work has left it. -/
def Rank.emptied (k : Rank) : Rank := { k with active := [], tiles := [], shared := 0, priv := [], tap := [], out := [], stopped := false }

/-- The work that joins a rank comes behind what its own work has left there, under numbers that are free. -/
theorem takeWork_emptied (p : Prop) [Decidable p] (k w : Rank) :
    (Rank.takeWork (if p then k.emptied else k) w).active =
      (if p then [] else k.active) ++ w.active.map (fun a => { a with id := a.id + k.nextId }) ∧
    (Rank.takeWork (if p then k.emptied else k) w).tiles =
      (if p then [] else k.tiles) ++ w.tiles.map (fun x => { x with mma := x.mma + k.nextId }) := by
  split <;> exact ⟨rfl, rfl⟩

variable {old new : BitVec 64} {i : Nat}

theorem mem_movedRanks : i ∈ movedRanks old new ↔ i < 12 ∧ rankAt old i ≠ rankAt new i := by
  simp [movedRanks]

theorem nodup_movedRanks : (movedRanks old new).Nodup := List.nodup_range.filter _

theorem moveRanks_eq (s : State) (c : Nat) (old new : BitVec 64) : s.moveRanks c old new =
    (movedRanks old new).foldl (fun u i => u.modRk c (rankAt new i) (fun k => k.takeWork (s.rk c (rankAt old i))))
      ((movedRanks old new).foldl (fun u i => u.modRk c (rankAt old i) Rank.emptied) s) := by
  unfold State.moveRanks
  dsimp only
  rw [List.foldl_map]
  rfl

theorem moveRanks_frame (s : State) (c : Nat) (old new : BitVec 64) : { s.moveRanks c old new with rank := s.rank } = s := by
  rw [moveRanks_eq]
  exact (congrArg (fun u => { u with rank := s.rank }) (foldl_modRk_frame _)).trans (foldl_modRk_frame s)

theorem rd_moveRanks (s : State) (c : Nat) (old new : BitVec 64) (off : Nat) : (s.moveRanks c old new).rd off = s.rd off :=
  congrArg (fun u => u.rd off) (moveRanks_frame s c old new)

theorem mem_moveRanks (s : State) (c : Nat) (old new : BitVec 64) : (s.moveRanks c old new).mem = s.mem :=
  congrArg (fun u => u.mem) (moveRanks_frame s c old new)

/-- A logical rank that keeps its physical rank keeps what is there. -/
theorem rk_moveRanks_stays (hold : MapDistinct old) (hnew : MapDistinct new) (hi : i < 12) (h : rankAt new i = rankAt old i) :
    (s.moveRanks c old new).rk c (rankAt new i) = s.rk c (rankAt new i) := by
  rw [moveRanks_eq, rk_foldl_modRk_ne, rk_foldl_modRk_ne]
  all_goals
    intro j hj he
    obtain ⟨hj, hne⟩ := mem_movedRanks.mp hj
  · obtain rfl := hold.inj hj hi (he.trans h)
    exact hne h.symm
  · obtain rfl := hnew.inj hj hi he
    exact hne h.symm

/-- The physical rank that a logical rank moves to: what served another logical rank has left it, and the work of the logical rank comes. -/
theorem rk_moveRanks_moves (hold : MapDistinct old) (hnew : MapDistinct new) (hi : i < 12) (h : rankAt new i ≠ rankAt old i) :
    (s.moveRanks c old new).rk c (rankAt new i) = Rank.takeWork (if (List.range 12).any (fun j => rankAt old j == rankAt new i)
      then (s.rk c (rankAt new i)).emptied else s.rk c (rankAt new i)) (s.rk c (rankAt old i)) := by
  have himoved : i ∈ movedRanks old new := mem_movedRanks.mpr ⟨hi, h.symm⟩
  rw [moveRanks_eq, rk_foldl_modRk_mem himoved nodup_movedRanks (fun j hj he => hnew.inj (mem_movedRanks.mp hj).1 hi he)]
  congr 1
  split
  · next hany =>
    obtain ⟨j, hj, he⟩ : ∃ j, j < 12 ∧ rankAt old j = rankAt new i := by simpa using hany
    have hjmoved : j ∈ movedRanks old new := mem_movedRanks.mpr ⟨hj, fun hs => by
      obtain rfl := hnew.inj hj hi (hs.symm.trans he)
      exact h he.symm⟩
    rw [← he, rk_foldl_modRk_mem hjmoved nodup_movedRanks (fun k hk hkj => hold.inj (mem_movedRanks.mp hk).1 hj hkj)]
  · next hany =>
    refine rk_foldl_modRk_ne (fun j hj he => hany ?_)
    simpa using ⟨j, (mem_movedRanks.mp hj).1, he⟩

/-! ### The statement -/

theorem rnkSkewMapWrite_taken (s : State) (c : Fin 64) (r : Fin 13) (v : BitVec 64) (ls : List Nat) (hv : skewLanes v = some ls)
    (hq : s.fld (Reg.RNK_CTL c r) Fld.RNK_CTL_QUIESCED = 1) : Completes (.rnkSkewMapWrite 0 c r v) s (fun t =>
      (∀ l, l < 128 → t.physLane c r l = (laneMap ls).getD l 0 % 256) ∧
      Near (fun off => off = Reg.RNK_SKEW_MAP c r ∨ ∃ j, j < 16 ∧ off = Reg.RNK_LMAP c r j) s t) :=
  ⟨_, congrArg Host.Outcome.next (writeSkew_accepted hv hq), fun _ hl => physLane_setSkew s c r v ls hl, near_setSkew s c r v ls⟩

theorem rnkSkewMapWrite_rejected (s : State) (c : Fin 64) (r : Fin 13) (v : BitVec 64)
    (h : skewLanes v = none ∨ s.fld (Reg.RNK_CTL c r) Fld.RNK_CTL_QUIESCED = 0) : Completes (.rnkSkewMapWrite 0 c r v) s (fun t =>
      raised (Reg.RNK_STATUS c r) Fld.RNK_STATUS_SKEW_ERR (Reg.RNK_SKEW_ERR_CNT c r) s t ∧
      Near (fun off => off = Reg.RNK_STATUS c r ∨ off = Reg.RNK_SKEW_ERR_CNT c r) s t) :=
  ⟨_, congrArg Host.Outcome.next (writeSkew_rejected h),
    raised_event s _ _ _ (by simp only [Reg.RNK_STATUS, Reg.RNK_SKEW_ERR_CNT]; omega),
    (Near.refl _ s).event _ _ _ (.inl (.inl rfl)) (.inl (.inr rfl))⟩

theorem cluRankMapWrite_rejected (s : State) (c : Fin 64) (v : BitVec 64) (h : ¬ s.takesMap c v) :
    Completes (.cluRankMapWrite 0 c v) s (fun t =>
      raised (Reg.CLU_STATUS c) Fld.CLU_STATUS_MAP_ERR (Reg.CLU_MAP_ERR_CNT c) s t ∧
      t.rd (Reg.CLU_RANK_MAP c) = s.rd (Reg.CLU_RANK_MAP c) ∧
      Near (fun off => off = Reg.CLU_STATUS c ∨ off = Reg.CLU_MAP_ERR_CNT c) s t) := by
  refine ⟨_, congrArg Host.Outcome.next (writeRankMap_rejected h), raised_event s _ _ _ ?_, rd_event_ne _ ?_ ?_,
    (Near.refl _ s).event _ _ _ (.inl (.inl rfl)) (.inl (.inr rfl))⟩
  all_goals simp only [Reg.CLU_STATUS, Reg.CLU_MAP_ERR_CNT, Reg.CLU_RANK_MAP]; omega

/-- Settles O23: a map that is taken is the one in force afterwards, and the work of the logical ranks that move comes under it; any other
is counted and changes nothing. -/
theorem rankMaps : Obligations.RankMaps := by
  refine ⟨fun s c r v ls _ => rnkSkewMapWrite_taken s c r v ls, fun s c r v _ => rnkSkewMapWrite_rejected s c r v,
    fun s c v _ hranks hnew hquiet => ?_, fun s c v _ hbad => cluRankMapWrite_rejected s c v ?_⟩
  · obtain ⟨spare, hw⟩ := writeRankMap_accepted (s := s) ⟨hranks, hnew, hquiet⟩
    refine ⟨_, congrArg Host.Outcome.next hw, ?_⟩
    generalize hu : (s.setFld (Reg.CLU_RANK_MAP c) Fld.CLU_RANK_MAP_MAP (v.toNat % 2 ^ 48)).setFld (Reg.CLU_RANK_MAP c)
      Fld.CLU_RANK_MAP_SPARE spare = u
    have hmap : ∀ i, i < 12 → (u.moveRanks c (s.rd (Reg.CLU_RANK_MAP c)) v).physRank c i = rankAt v i := fun i hi => by
      rw [State.physRank, fld_of_rd _ (rd_moveRanks u c _ v _), ← hu]
      exact physRank_written s c v spare hi
    have hrk : ∀ p, u.rk c p = s.rk c p := fun p => rk_of_rank (by rw [← hu]; rfl) c p
    refine ⟨hmap, fun hold i hi => ?_, fun off hoff => ?_, ?_⟩
    · rw [hmap i hi]
      refine ⟨fun hs => ?_, fun hm => ?_⟩
      · exact (rk_moveRanks_stays hold hnew hi hs).trans ((hrk _).trans (by rw [hs]))
      · rw [rk_moveRanks_moves hold hnew hi hm, hrk, hrk]
        exact takeWork_emptied _ _ _
    · rw [rd_moveRanks, ← hu, rd_setFld_ne _ _ hoff, rd_setFld_ne _ _ hoff]
    · rw [mem_moveRanks, ← hu]; rfl
  · rintro ⟨hranks, hnew, hquiet⟩
    rcases hbad with ⟨i, j, hij, hj, he⟩ | ⟨i, hi, hge⟩ | ⟨p, hp, hserved, hq⟩
    · exact hnew i j hij hj he
    · exact absurd (hranks i hi) (Nat.not_lt.mpr hge)
    · rcases hquiet p hp with h | h
      · exact hserved h
      · rw [hq] at h; cases h

end Sys2Proof.Machine
end

section
/-!
SUPPORT. How a rank admits work: the ramp (R80, R81, R432), the start of a tile (R76, R451), the stagger chain (R78).
-/
namespace Sys2Proof.Machine

variable {s : State} {c r : Nat}

/-! ### The ramp (R80, R81) -/

theorem near_setUngated (s : State) (c r n : Nat) : Near (· = Reg.RNK_CTL c r) s (s.setUngated c r n) :=
  ((Near.refl (· = Reg.RNK_CTL c r) s).setFld _ _ _ (.inl rfl)).setFld _ _ _ (.inl rfl)

theorem ungated_setUngated (s : State) (c r n : Nat) :
    (s.setUngated c r n).fld (Reg.RNK_CTL c r) Fld.RNK_CTL_UNGATED = n % 8 := by
  rw [State.setUngated, fld_setFld_beside _ _ _ _ _ (by decide) (by decide), fld_setFld_here _ _ _ _ (by decide)]
  rfl

theorem gated_setUngated (s : State) (c r n : Nat) :
    (s.setUngated c r n).fld (Reg.RNK_CTL c r) Fld.RNK_CTL_GATED = if n = 0 then 1 else 0 := by
  rw [State.setUngated, fld_setFld_here _ _ _ _ (by decide)]
  split <;> rfl

/-- The first lane group of a ramp counts the ramp. -/
def State.rampCounted (s : State) (c r : Nat) : State := if (s.rk c r).ramping then s else s.cnt (Reg.RNK_RAMP_CNT c r)

theorem near_rampCounted (s : State) (c r : Nat) : Near (· = Reg.RNK_RAMP_CNT c r) s (s.rampCounted c r) := by
  unfold State.rampCounted
  split
  · exact Near.refl _ s
  · exact (Near.refl _ s).cnt _ (.inl rfl)

theorem pw_rampCounted (s : State) (c r : Nat) : (s.rampCounted c r).pw = s.pw := by
  unfold State.rampCounted; split <;> rfl

theorem count_rampCounted (s : State) (c r : Nat) : (s.rampCounted c r).fld (Reg.RNK_RAMP_CNT c r) Fld.COUNT =
    if (s.rk c r).ramping then s.fld (Reg.RNK_RAMP_CNT c r) Fld.COUNT else (s.fld (Reg.RNK_RAMP_CNT c r) Fld.COUNT + 1) % 2 ^ 48 := by
  unfold State.rampCounted
  split
  · rfl
  · exact fld_setFld_here s _ _ _ (by decide)

/-- A rank with one lane group more ungated. -/
def State.groupUngated (s : State) (c r n : Nat) : State :=
  ((s.rampCounted c r).setRk c r { s.rk c r with ramping := decide (n + 1 < 4) }).setUngated c r (n + 1)

theorem rampGroup_admitted {n : Nat} (hn : n = s.fld (Reg.RNK_CTL c r) Fld.RNK_CTL_UNGATED) (h4 : n < 4) (hi : s.rankIdle c r = false) :
    s.rampGroup c r = s.groupUngated c r n := by
  subst hn
  exact if_neg (by simpa [hi] using h4)

/-- A ramp that is under way, or for which there is room, goes on: what it changes besides the rank is the record of ramps (R432). -/
theorem rampUp_admitted {n : Nat} (hn : n = s.fld (Reg.RNK_CTL c r) Fld.RNK_CTL_UNGATED) (h4 : n < 4) (hi : s.rankIdle c r = false)
    (hroom : (s.rk c r).ramping = true ∨ s.rampsNow.length < max 1 (s.fld Reg.PWR_RAMP_CTL Fld.PWR_RAMP_CTL_MAXRANKS))
    (hforce : 16 ∉ s.pw.inForce) : ∃ p, s.rampUp c r = ({ s with pw := p } : State).groupUngated c r n := by
  have hgo : ¬ (4 ≤ s.fld (Reg.RNK_CTL c r) Fld.RNK_CTL_UNGATED ∨ s.rankIdle c r = true) := by simpa [hi, ← hn] using h4
  rw [State.rampUp, if_neg hgo]
  by_cases hr : (s.rk c r).ramping = true
  · exact ⟨s.pw, (if_pos hr).trans (rampGroup_admitted hn h4 hi)⟩
  · have hfull := Nat.not_le.mpr (hroom.resolve_left hr)
    rw [if_neg hr, if_neg hfull, State.rampStart, State.rampsFree, if_neg (by simp [hforce])]
    exact ⟨_, rampGroup_admitted hn h4 hi⟩

theorem near_groupUngated (s : State) (c r n : Nat) : Near (fun off => off = Reg.RNK_CTL c r ∨ off = Reg.RNK_RAMP_CNT c r)
    (s.setRk c r { s.rk c r with ramping := decide (n + 1 < 4) }) (s.groupUngated c r n) :=
  (((near_rampCounted s c r).setRk c r _).mono (fun _ => .inr)).trans ((near_setUngated _ c r _).mono (fun _ => .inl))

theorem pw_groupUngated (s : State) (c r n : Nat) : (s.groupUngated c r n).pw = s.pw := pw_rampCounted s c r

theorem count_groupUngated (s : State) (c r n : Nat) : (s.groupUngated c r n).fld (Reg.RNK_RAMP_CNT c r) Fld.COUNT =
    if (s.rk c r).ramping then s.fld (Reg.RNK_RAMP_CNT c r) Fld.COUNT else (s.fld (Reg.RNK_RAMP_CNT c r) Fld.COUNT + 1) % 2 ^ 48 := by
  have hne : Reg.RNK_RAMP_CNT c r ≠ Reg.RNK_CTL c r := by simp only [Reg.RNK_RAMP_CNT, Reg.RNK_CTL]; omega
  rw [State.groupUngated, State.setUngated, fld_setFld_ne _ _ _ hne, fld_setFld_ne _ _ _ hne]
  exact count_rampCounted s c r

theorem rampUp_goes_on (s : State) (c : Fin 64) (r : Fin 13) (n : Nat) (hn : n = s.fld (Reg.RNK_CTL c r) Fld.RNK_CTL_UNGATED) (h4 : n < 4)
    (hi : s.rankIdle c r = false)
    (hroom : (s.rk c r).ramping = true ∨ s.rampsNow.length < max 1 (s.fld Reg.PWR_RAMP_CTL Fld.PWR_RAMP_CTL_MAXRANKS))
    (hforce : 16 ∉ s.pw.inForce) : Completes (.rampUp c r) s (fun t => t.fld (Reg.RNK_CTL c r) Fld.RNK_CTL_UNGATED = n + 1 ∧
      t.fld (Reg.RNK_CTL c r) Fld.RNK_CTL_GATED = 0 ∧ (t.rk c r).ramping = decide (n + 1 < 4) ∧
      t.fld (Reg.RNK_RAMP_CNT c r) Fld.COUNT =
        (if (s.rk c r).ramping then s.fld (Reg.RNK_RAMP_CNT c r) Fld.COUNT else (s.fld (Reg.RNK_RAMP_CNT c r) Fld.COUNT + 1) % 2 ^ 48) ∧
      Near (fun off => off = Reg.RNK_CTL c r ∨ off = Reg.RNK_RAMP_CNT c r)
        { s.setRk c r { s.rk c r with ramping := decide (n + 1 < 4) } with pw := t.pw } t) := by
  obtain ⟨p, hp⟩ := rampUp_admitted hn h4 hi hroom hforce
  refine ⟨_, congrArg Host.Outcome.next hp, (ungated_setUngated _ _ _ _).trans (Nat.mod_eq_of_lt (by omega)),
    gated_setUngated _ _ _ _, ?_, count_groupUngated _ c r n, ?_⟩
  · rw [(near_groupUngated _ c r n).rk, rk_setRk_here]
  · rw [pw_groupUngated]
    exact near_groupUngated { s with pw := p } c r n

/-! ### A ramp that waits (R432, R436) -/

theorem Near.setPw {e : Nat → Prop} {t : State} (h : Near e s t) (p : Power) : Near e { s with pw := p } { t with pw := p } :=
  ⟨h.regs, by rw [h.eq]; rfl⟩

/-- A reason of throttling that starts sets its flag, counts, and is recorded in the ring of power. -/
def State.reasonStarts (s : State) (x : Nat) : State :=
  (s.event Reg.PWR_STATUS (bitField (x / 4)) (Reg.PWR_THR_CNT (x / 4))).trace 79 0x15 (x / 4) 0 0

theorem pw_reasonStarts (s : State) (x : Nat) : (s.reasonStarts x).pw = s.pw := pw_trace _ _ _ _ _ _

theorem near_reasonStarts (s : State) (x : Nat) :
    Near (fun _ => False) (s.event Reg.PWR_STATUS (bitField (x / 4)) (Reg.PWR_THR_CNT (x / 4))) (s.reasonStarts x) :=
  (Near.refl _ _).trace (by decide) _ _ _ _

/-- A reason that starts has joined those in force; PWR_ACTIVE shows `v`. -/
def State.reasonInForce (s : State) (x v : Nat) : State :=
  ({ s.reasonStarts x with pw := { (s.reasonStarts x).pw with inForce := s.pw.inForce ++ [x] } } : State).setFld Reg.PWR_ACTIVE
    Fld.PWR_ACTIVE_REASONS v

theorem pw_reasonInForce (s : State) (x v : Nat) : (s.reasonInForce x v).pw = { s.pw with inForce := s.pw.inForce ++ [x] } := by
  rw [State.reasonInForce, State.setFld_pw, pw_reasonStarts]

theorem setReasons_one_more {x : Nat} (h : x ∉ s.pw.inForce) : ∃ v, s.setReasons (s.pw.inForce ++ [x]) = s.reasonInForce x v := by
  have hfresh : (s.pw.inForce ++ [x]).filter (fun y => !s.pw.inForce.contains y) = [x] := by
    rw [List.filter_append, List.filter_eq_nil_iff.mpr (fun y hy => by simpa using hy), List.nil_append]
    simp [h]
  rw [State.setReasons, hfresh]
  exact ⟨_, rfl⟩

theorem near_reasonInForce (s : State) (x v : Nat) :
    Near (fun off => off = Reg.PWR_STATUS ∨ off = Reg.PWR_THR_CNT (x / 4) ∨ off = Reg.PWR_ACTIVE)
      { s with pw := { s.pw with inForce := s.pw.inForce ++ [x] } } (s.reasonInForce x v) := by
  rw [State.reasonInForce, pw_reasonStarts]
  refine Near.setFld (Near.setPw (Near.trans (Near.event (Near.refl _ s) _ _ _ (.inl (.inl rfl)) (.inl (.inr (.inl rfl))))
    ((near_reasonStarts s x).mono (fun _ => False.elim))) _) _ _ _ (.inl (.inr (.inr rfl)))

theorem raised_reasonInForce (s : State) {x : Nat} (v : Nat) (hx : x < 24) :
    raised Reg.PWR_STATUS (bitField (x / 4)) (Reg.PWR_THR_CNT (x / 4)) s (s.reasonInForce x v) := by
  have hst : Reg.PWR_STATUS ≠ Reg.PWR_THR_CNT (x / 4) := by simp only [Reg.PWR_STATUS, Reg.PWR_THR_CNT]; omega
  have hcnt : Reg.PWR_THR_CNT (x / 4) ≠ Reg.PWR_ACTIVE := by simp only [Reg.PWR_ACTIVE, Reg.PWR_THR_CNT]; omega
  have hobs : observes (Reg.PWR_THR_CNT (x / 4)) = false := by rw [observes_eq_false]; simp only [Reg.PWR_THR_CNT]; omega
  refine raised_congr (raised_event s _ _ _ hst) rfl rfl ?_ ?_
  · exact (rd_setFld_ne _ _ (by decide)).trans ((near_reasonStarts s x).regs _ not_false (by decide))
  · exact (rd_setFld_ne _ _ hcnt).trans ((near_reasonStarts s x).regs _ not_false hobs)

/-- The power record once the first ramp waits. -/
def State.rampHeld (s : State) (key : Nat) : Power := { s.pw with rampWaits := [key], rampSince := s.now }

/-- The first ramp that is one too many waits, and RAMP is in force. -/
theorem rampUp_held (h4 : s.fld (Reg.RNK_CTL c r) Fld.RNK_CTL_UNGATED < 4) (hi : s.rankIdle c r = false) (hr : (s.rk c r).ramping = false)
    (hfull : max 1 (s.fld Reg.PWR_RAMP_CTL Fld.PWR_RAMP_CTL_MAXRANKS) ≤ s.rampsNow.length) (hw : s.pw.rampWaits = [])
    (hforce : 16 ∉ s.pw.inForce) : ∃ v, s.rampUp c r = ({ s with pw := s.rampHeld (c * 16 + r) } : State).reasonInForce 16 v := by
  have hgo : ¬ (4 ≤ s.fld (Reg.RNK_CTL c r) Fld.RNK_CTL_UNGATED ∨ s.rankIdle c r = true) := by simpa [hi] using h4
  have hup : s.rampUp c r = ({ s with pw := s.rampHeld (c * 16 + r) } : State).setReasons (s.pw.inForce ++ [16]) := by
    rw [State.rampUp, if_neg hgo, hr, if_neg Bool.false_ne_true, if_pos hfull, State.rampWait, hw]
    rfl
  rw [hup]
  exact setReasons_one_more (s := { s with pw := s.rampHeld (c * 16 + r) }) hforce

theorem rampUp_waits (s : State) (c : Fin 64) (r : Fin 13) (h4 : s.fld (Reg.RNK_CTL c r) Fld.RNK_CTL_UNGATED < 4)
    (hi : s.rankIdle c r = false) (hr : (s.rk c r).ramping = false)
    (hfull : max 1 (s.fld Reg.PWR_RAMP_CTL Fld.PWR_RAMP_CTL_MAXRANKS) ≤ s.rampsNow.length) (hw : s.pw.rampWaits = [])
    (hforce : 16 ∉ s.pw.inForce) : Completes (.rampUp c r) s (fun t =>
      t.rk c r = s.rk c r ∧ t.rd (Reg.RNK_CTL c r) = s.rd (Reg.RNK_CTL c r) ∧
      t.pw = { s.pw with rampWaits := [c.val * 16 + r.val], rampSince := s.now, inForce := s.pw.inForce ++ [16] } ∧
      raised Reg.PWR_STATUS ⟨4, 1⟩ (Reg.PWR_THR_CNT 4) s t ∧
      Near (fun off => off = Reg.PWR_STATUS ∨ off = Reg.PWR_THR_CNT 4 ∨ off = Reg.PWR_ACTIVE) { s with pw := t.pw } t) := by
  obtain ⟨v, hup⟩ := rampUp_held h4 hi hr hfull hw hforce
  have hnear := near_reasonInForce { s with pw := s.rampHeld (c * 16 + r) } 16 v
  have hobs : observes (Reg.RNK_CTL c r) = false := observes_rankReg c (d := 0) (r.isLt.trans (by decide)) (by decide)
  have hctl : ¬ (Reg.RNK_CTL c r = Reg.PWR_STATUS ∨ Reg.RNK_CTL c r = Reg.PWR_THR_CNT 4 ∨ Reg.RNK_CTL c r = Reg.PWR_ACTIVE) := by
    simp only [Reg.RNK_CTL, Reg.PWR_STATUS, Reg.PWR_THR_CNT, Reg.PWR_ACTIVE]; omega
  refine ⟨_, congrArg Host.Outcome.next hup, hnear.rk c r, hnear.regs _ hctl hobs, pw_reasonInForce _ 16 v,
    raised_reasonInForce { s with pw := s.rampHeld (c * 16 + r) } v (by decide), ?_⟩
  rw [pw_reasonInForce]
  exact hnear

/-! ### The ramp down (R81) -/

theorem rampDown_gates (s : State) (c : Fin 64) (r : Fin 13) (n : Nat) (hn : n = s.fld (Reg.RNK_CTL c r) Fld.RNK_CTL_UNGATED) (h0 : n ≠ 0)
    (hi : s.rankIdle c r = true) : Completes (.rampDown c r) s (fun t => t.fld (Reg.RNK_CTL c r) Fld.RNK_CTL_UNGATED = n - 1 ∧
      t.fld (Reg.RNK_CTL c r) Fld.RNK_CTL_GATED = (if n = 1 then 1 else 0) ∧
      Near (· = Reg.RNK_CTL c r) (s.setRk c r { s.rk c r with ramping := false }) t) := by
  have h8 : n < 8 := hn ▸ Nat.mod_lt _ (by decide)
  have hdown : s.rampDown c r = (s.setRk c r { s.rk c r with ramping := false }).setUngated c r (n - 1) := by
    rw [State.rampDown, if_neg (by rw [hi, ← hn]; simp [h0]), ← hn]
  refine ⟨_, congrArg Host.Outcome.next hdown, ?_, ?_, near_setUngated _ _ _ _⟩
  · rw [ungated_setUngated]; omega
  · rw [gated_setUngated]
    exact if_congr (by omega) rfl rfl

/-! ### What a tile reads as it starts: memory alone (R50) -/

section
variable {t : State} (h : t.mem = s.mem)
include h

theorem bytes_of_mem : t.bytes = s.bytes := by
  funext a n
  induction n generalizing a with
  | zero => rfl
  | succ n ih => rw [State.bytes, State.bytes, ih, State.byte, State.byte, h]

theorem elemCode_of_mem : t.elemCode = s.elemCode := by
  funext d e
  rw [State.elemCode, State.elemCode, State.peekBits, State.peekBits, State.peekNat, State.peekNat, bytes_of_mem h]

theorem elemScale_of_mem : t.elemScale = s.elemScale := by
  funext d e
  rw [State.elemScale, State.elemScale, State.byte, State.byte, h]

theorem elemNum_of_mem : t.elemNum = s.elemNum := by
  funext d e m
  unfold State.elemNum
  rw [elemCode_of_mem h, elemScale_of_mem h]

theorem opBlock_of_mem : t.opBlock = s.opBlock := by
  funext a d orient r b
  unfold State.opBlock
  rw [elemCode_of_mem h, elemScale_of_mem h, elemNum_of_mem h]

theorem newTile_of_mem : t.newTile = s.newTile := by
  funext a i audited
  unfold State.newTile State.scalePairs
  rw [opBlock_of_mem h]

end

/-! ### Tiles start (R76, R80, R451) -/

/-- The rank's record once the next tile of instruction `a` has started. -/
def State.withTile (s : State) (c r : Nat) (a : ActiveMma) (audited : Bool) : Rank :=
  { s.rk c r with
    active := (s.rk c r).active.map (fun b => if b.id = a.id then { b with next := b.next + 1 } else b)
    tiles := (s.rk c r).tiles ++ [s.newTile a a.next audited] }

theorem withTile_cnt (s : State) (c r : Nat) (a : ActiveMma) (audited : Bool) (ct : Nat) :
    (s.cnt ct).withTile c r a audited = s.withTile c r a audited := by
  rw [State.withTile, newTile_of_mem (s := s) (t := s.cnt ct) rfl]
  rfl

/-- The rank accepts tiles: no QUIESCE, every lane group ungated, no replay that waits for limbs. -/
structure AcceptsTiles (s : State) (c r : Nat) : Prop where
  quiesce : s.quiesce c r = false
  ungated : s.fld (Reg.RNK_CTL c r) Fld.RNK_CTL_UNGATED = 4
  replay : ∀ x ∈ (s.rk c r).tiles, x.replay = none

theorem AcceptsTiles.guard (h : AcceptsTiles s c r) : (s.quiesce c r || s.fld (Reg.RNK_CTL c r) Fld.RNK_CTL_UNGATED != 4
    || (s.rk c r).tiles.any (fun x => x.replay.isSome)) = false := by
  simp only [h.quiesce, h.ungated, Bool.false_or, bne_self_eq_false, List.any_eq_false]
  exact fun x hx => by simp [h.replay x hx]

variable {a : ActiveMma} {w : Nat} {sampled : Bool}

/-- The next tile of the oldest instruction waits for its limbs, or starts. -/
theorem startTile_next (h : AcceptsTiles s c r) (hw : (s.rk c r).tiles.find? (fun x => x.waiting) = none)
    (ha : (s.rk c r).active.find? (fun b => decide (b.next < b.f.tiles)) = some a) : s.startTile c r sampled w =
      if (s.rk c r).limbsFree < a.f.n * (accFmt a.f.acc).limbs then s.cntBy (Reg.RNK_LIMB_WAIT_CNT c r) w
      else if (sampled && !a.f.accrd && s.fld Reg.GLB_RAS_CTL Fld.GLB_RAS_CTL_AUDIT_FRAC != 0) = true then
        (s.cnt (if s.auditFree c then Reg.GLB_AUDIT_CNT else Reg.GLB_AUDIT_SKIP_CNT)).setRk c r (s.withTile c r a (s.auditFree c))
      else s.setRk c r (s.withTile c r a false) := by
  unfold State.startTile
  simp only [h.guard, Bool.false_eq_true, if_false, hw, ha, decide_eq_true_eq]
  split
  · rfl
  · cases (sampled && !a.f.accrd && s.fld Reg.GLB_RAS_CTL Fld.GLB_RAS_CTL_AUDIT_FRAC != 0) with
    | false => rfl
    | true =>
      rw [← withTile_cnt s c r a _ (if s.auditFree c then Reg.GLB_AUDIT_CNT else Reg.GLB_AUDIT_SKIP_CNT)]
      cases s.auditFree c <;> rfl

/-- A tile that was abandoned starts again once its limbs are free. -/
theorem startTile_again {x : Tile} (h : AcceptsTiles s c r) (hx : (s.rk c r).tiles.find? (fun y => y.waiting) = some x)
    (ha : (s.rk c r).mmaOf x = some a) (ht : a.f.opmode = 0 ∨ s.testing (unitId 5 c) = false)
    (hl : a.f.n * (accFmt a.f.acc).limbs ≤ (s.rk c r).limbsFree) :
    s.startTile c r sampled w = s.setRk c r ((s.rk c r).setTile x (x.restart a)) := by
  unfold State.startTile
  simp only [h.guard, Bool.false_eq_true, if_false, hx, ha, decide_eq_true_eq]
  rw [if_neg (by rcases ht with ht | ht <;> simp [ht]), if_neg (Nat.not_lt.mpr hl)]

theorem waiting_none (h : ∀ x ∈ (s.rk c r).tiles, x.replay = none ∧ x.waiting = false) :
    (s.rk c r).tiles.find? (fun x => x.waiting) = none := by
  rw [List.find?_eq_none]
  exact fun x hx => by simp [(h x hx).2]

/-- A tile that was asked to be sampled starts with an audit where a rank is free for it, and is counted either way (R451). -/
theorem tileStart_sampled (s : State) (c : Fin 64) (r : Fin 13) (w : Nat) (h : AcceptsTiles s c r)
    (hw : (s.rk c r).tiles.find? (fun x => x.waiting) = none)
    (ha : (s.rk c r).active.find? (fun b => decide (b.next < b.f.tiles)) = some a) (hacc : a.f.accrd = false)
    (hl : a.f.n * (accFmt a.f.acc).limbs ≤ (s.rk c r).limbsFree) (hras : s.fld Reg.GLB_RAS_CTL Fld.GLB_RAS_CTL_AUDIT_FRAC ≠ 0) :
    Completes (.tileStart c r true w) s (fun t =>
      counted (if s.auditFree c then Reg.GLB_AUDIT_CNT else Reg.GLB_AUDIT_SKIP_CNT) 1 s t ∧
      Near (· = if s.auditFree c then Reg.GLB_AUDIT_CNT else Reg.GLB_AUDIT_SKIP_CNT)
        (s.setRk c r (s.withTile c r a (s.auditFree c))) t) := by
  have hwant : (true && !a.f.accrd && s.fld Reg.GLB_RAS_CTL Fld.GLB_RAS_CTL_AUDIT_FRAC != 0) = true := by simp [hacc, hras]
  have hrun := startTile_next (w := w) (sampled := true) h hw ha
  rw [if_neg (Nat.not_lt.mpr hl), if_pos hwant] at hrun
  generalize (if s.auditFree c then Reg.GLB_AUDIT_CNT else Reg.GLB_AUDIT_SKIP_CNT) = ct at hrun ⊢
  exact ⟨_, congrArg Host.Outcome.next hrun, rd_cnt_here s ct, ((Near.refl (· = ct) s).cnt ct (.inl rfl)).setRk c r _⟩

/-! ### The stagger chain (R78) -/

theorem chainRestart_goes_on (s : State) (c : Fin 64) (r : Fin 13) (cycles : Nat) (hs : (s.rk c r).stopped = true)
    (ht : ∀ e ∈ (s.rk c r).tap, e.2 < 16) : Completes (.chainRestart c r cycles) s (fun t => (t.rk c r).stopped = false ∧
      counted (Reg.RNK_CHAIN_STALL_CNT c r) cycles s t ∧
      Near (· = Reg.RNK_CHAIN_STALL_CNT c r) (s.setRk c r { s.rk c r with stopped := false }) t) := by
  have hfree : (s.rk c r).tap.any (fun e => decide (16 ≤ e.2)) = false := by
    rw [List.any_eq_false]
    exact fun e he => by simpa using ht e he
  generalize hv : s.setRk c r { s.rk c r with stopped := false } = v
  have hgo : s.chainRestart c r cycles = (v.cntBy (Reg.RNK_CHAIN_STALL_CNT c r) cycles).bumpClu c 0x0A 0 cycles := by
    rw [State.chainRestart, hs, hfree, ← hv]; rfl
  have hnear := Near.bumpClu (Near.refl (fun _ => False) (v.cntBy (Reg.RNK_CHAIN_STALL_CNT c r) cycles)) c 0x0A 0 cycles
  have hobs : observes (Reg.RNK_CHAIN_STALL_CNT c r) = false := observes_rankReg c (d := 0x78) (r.isLt.trans (by decide)) (by decide)
  refine ⟨_, congrArg Host.Outcome.next hgo, ?_, ?_, ?_⟩
  · rw [hnear.rk, ← hv]
    exact congrArg Rank.stopped (rk_setRk_here s c r _)
  · rw [counted, hnear.regs _ not_false hobs, State.cntBy, rd_setFld_here, ← hv]; rfl
  · exact ((Near.refl (· = Reg.RNK_CHAIN_STALL_CNT c r) v).cntBy _ _ (.inl rfl)).bumpClu _ _ _ _

end Sys2Proof.Machine
end

section
/-!
SUPPORT. The quiesce of a rank and the switch-in that waits for it (R79, R87), and what retiring a unit leaves alone (R458).
-/
namespace Sys2Proof.Machine

variable {s t u : State}

/-! ### Retiring a unit (R458, R527) -/

/-- `t` has the ranks and the units of `s`, and the registers of the clusters but for those that telling the outside touches. -/
structure RanksKept (s t : State) : Prop where
  rank : t.rank = s.rank
  units : t.units = s.units
  regs : ∀ off, 0x400000 ≤ off → notices off = false → t.rd off = s.rd off

/-- `t` has the ranks of `s` and those registers of the clusters, and what is RETIRED in `s` is RETIRED. -/
structure RetiredStay (s t : State) : Prop where
  rank : t.rank = s.rank
  regs : ∀ off, 0x400000 ≤ off → notices off = false → t.rd off = s.rd off
  retired : ∀ v, s.unitState v = 3 → t.unitState v = 3

theorem RanksKept.trans (h : RanksKept s t) (k : RanksKept t u) : RanksKept s u :=
  ⟨k.rank.trans h.rank, k.units.trans h.units, fun off ho hn => (k.regs off ho hn).trans (h.regs off ho hn)⟩

theorem RanksKept.unitState (h : RanksKept s t) (v : Nat) : t.unitState v = s.unitState v := by
  rw [State.unitState, State.unitOf, h.units]; rfl

theorem RetiredStay.refl (s : State) : RetiredStay s s := ⟨rfl, fun _ _ _ => rfl, fun _ h => h⟩

theorem RetiredStay.trans (h : RetiredStay s t) (k : RetiredStay t u) : RetiredStay s u :=
  ⟨k.rank.trans h.rank, fun off ho hn => (k.regs off ho hn).trans (h.regs off ho hn), fun v hv => k.retired v (h.retired v hv)⟩

theorem Noted.ranksKept (h : Noted (fun _ => False) s t) : RanksKept s t := by
  have hrank := congrArg State.rank h.eq
  have hunits := congrArg State.units h.eq
  exact ⟨hrank, hunits, fun off _ hn => h.regs off not_false hn⟩

theorem ranksKept_wr (s : State) {off : Nat} (v : BitVec 64) (h : off < 0x400000) : RanksKept s (s.wr off v) :=
  ⟨rfl, rfl, fun o ho _ => rd_wr_ne v (by omega)⟩

theorem ranksKept_putWords (s : State) {reg : Nat → Nat} {n : Nat} (bs : List Byte) (h : ∀ w, w < n → reg w < 0x400000) :
    RanksKept s (s.putWords reg n bs) := by
  have hfold : ∀ (l : List Nat) (u : State), (∀ w ∈ l, reg w < 0x400000) → RanksKept u
      (l.foldl (fun u w => u.wr (reg w) (BitVec.ofNat 64 (leNat ((bs.drop (8 * w)).take 8)))) u) := by
    intro l
    induction l with
    | nil => exact fun u _ => ⟨rfl, rfl, fun _ _ _ => rfl⟩
    | cons w l ih => exact fun u hl => (ranksKept_wr u _ (hl w (.head _))).trans (ih _ (fun x hx => hl x (.tail _ hx)))
  exact hfold _ s (fun w hw => h w (List.mem_range.mp hw))

/-- Extending a measurement writes the security block (R553). -/
theorem ranksKept_extend (s : State) {i : Nat} (hi : i < 16) (kind tenant : Nat) (x : Component) (d : List Byte) :
    RanksKept s (s.extend i kind tenant x d) := by
  unfold State.extend
  refine ((ranksKept_putWords s _ (fun w hw => ?_)).trans (ranksKept_putWords _ _ (fun w hw => ?_))).trans (ranksKept_wr _ _ (by decide))
  · simp only [Reg.SEC_MEAS]; omega
  · simp only [Reg.SEC_LOG]; omega

/-- A signature uses up free values. -/
theorem sign_state (s : State) (msg : List Byte) : (s.sign msg).2 = { s with freeIx := s.freeIx + 4 } := by
  simp only [State.sign, State.nonce, State.free]

theorem ranksKept_signed (s : State) (msg : List Byte) (x : Trust) : RanksKept s { (s.sign msg).2 with tr := x } := by
  rw [sign_state]
  exact ⟨rfl, rfl, fun _ _ _ => rfl⟩

theorem ranksKept_resignRepair (s : State) : RanksKept s s.resignRepair := by
  unfold State.resignRepair
  exact (ranksKept_signed s _ _).trans (ranksKept_extend _ (by decide) _ _ _ _)

theorem ranksKept_setTr (s : State) (x : Trust) : RanksKept s { s with tr := x } := ⟨rfl, rfl, fun _ _ _ => rfl⟩

/-- A repair record touches the repair data, the security block and IDM_STATUS (R527, R552). -/
theorem ranksKept_repairPut (s : State) (u v : Nat) : RanksKept s (s.repairPut u v) := by
  unfold State.repairPut
  split
  · exact ranksKept_wr s _ (by decide)
  · exact (ranksKept_setTr s _).trans (ranksKept_resignRepair _)

theorem ranksKept_unitChange (s : State) (u : Nat) (r : UnitRec) (outcome cause : Nat) :
    RanksKept (s.setUnit u r) (s.unitChange u r outcome cause) :=
  RanksKept.trans (t := { s.setUnit u r with lastChange := (u, r.state, outcome, cause) }) ⟨rfl, rfl, fun _ _ _ => rfl⟩
    (noted_unitChange _ s u r outcome cause).ranksKept

theorem unitState_setUnit (s : State) (u : Nat) (r : UnitRec) (v : Nat) :
    (s.setUnit u r).unitState v = if v = u then r.state else s.unitState v := by
  rw [State.unitState, State.unitOf, State.setUnit, Tab.get_set, apply_ite UnitRec.state]
  rfl

/-- A unit that enters a state is in it; every other unit is as it was. -/
theorem unitState_unitChange (s : State) (u : Nat) (r : UnitRec) (outcome cause v : Nat) :
    (s.unitChange u r outcome cause).unitState v = if v = u then r.state else s.unitState v :=
  ((ranksKept_unitChange s u r outcome cause).unitState v).trans (unitState_setUnit s u r v)

theorem unitState_retire (s : State) (u cause v : Nat) : (s.retire u cause).unitState v = if v = u then 3 else s.unitState v :=
  ((ranksKept_repairPut _ u 3).unitState v).trans (unitState_unitChange s u _ 2 cause v)

/-- A unit that was not RETIRED changes its state. -/
theorem retiredStay_unitChange (s : State) {u : Nat} (r : UnitRec) (outcome cause : Nat) (h : s.unitState u = 3 → r.state = 3) :
    RetiredStay s (s.unitChange u r outcome cause) := by
  obtain ⟨hrank, -, hregs⟩ := ranksKept_unitChange s u r outcome cause
  refine ⟨hrank, hregs, fun v hv => ?_⟩
  rw [unitState_unitChange]
  split
  · next hvu => exact h (hvu ▸ hv)
  · exact hv

theorem retiredStay_retire (s : State) (u cause : Nat) : RetiredStay s (s.retire u cause) := by
  obtain ⟨hrank, -, hregs⟩ := (ranksKept_unitChange s u _ 2 cause).trans (ranksKept_repairPut _ u 3)
  refine ⟨hrank, hregs, fun v hv => ?_⟩
  rw [unitState_retire, hv, ite_self]

section
variable {ix : Nat → Nat} {cause : Nat} {l : List Nat}

theorem retiredStay_foldl_retire (s : State) : RetiredStay s (l.foldl (fun s x => s.retire (ix x) cause) s) := by
  induction l generalizing s with
  | nil => exact RetiredStay.refl s
  | cons x l ih => exact (retiredStay_retire s _ cause).trans (ih _)

/-- Every unit of a list that is retired one after another is RETIRED. -/
theorem unitState_foldl_retire {x : Nat} (hx : x ∈ l) : (l.foldl (fun s x => s.retire (ix x) cause) s).unitState (ix x) = 3 := by
  induction l generalizing s with
  | nil => cases hx
  | cons y l ih =>
    rw [List.foldl_cons]
    rcases List.mem_cons.mp hx with rfl | hx
    · exact (retiredStay_foldl_retire _).retired _ (by rw [unitState_retire, if_pos rfl])
    · exact ih hx

end

/-! ### The switch-in (R87) -/

/-- The rank's record once its switch-in is made. -/
def Rank.switched (k : Rank) : Rank := { k with switch := none }

/-- The value of RNK_SKEW_MAP that retires `lanes` (R95). -/
def switchMap (lanes : List Nat) : BitVec 64 :=
  BitVec.ofNat 64 (((List.range lanes.length).zip lanes).foldl (fun n p => n + (p.2 + 256) * 2 ^ (16 * p.1)) 0)

/-- The lane map of a switch-in is written. -/
def State.mapSwitched (s : State) (c r : Nat) (w : SwitchIn) : State :=
  (s.modRk c r Rank.switched).setSkew c r (switchMap (s.lanesWith c r w.lanes)) (s.lanesWith c r w.lanes)

/-- The lanes of a switch-in are retired. -/
def State.lanesRetired (s : State) (c r : Nat) (w : SwitchIn) : State :=
  w.lanes.foldl (fun s l => s.retire (unitId 3 ((c * 16 + r) * 256 + l)) w.cause) s

/-- A rank that was TESTING comes into service again unless a test of it is left; any other stays. -/
theorem switchIn_cases (s : State) (c r : Nat) (w : SwitchIn) : s.switchIn c r w = (s.mapSwitched c r w).lanesRetired c r w ∨
    ((s.mapSwitched c r w).lanesRetired c r w).testing (unitId 2 (c * 16 + r)) = true ∧ ∃ x : UnitRec,
      s.switchIn c r w = ((s.mapSwitched c r w).lanesRetired c r w).unitChange (unitId 2 (c * 16 + r)) x 2 w.cause := by
  have heq : s.switchIn c r w = if ((s.mapSwitched c r w).lanesRetired c r w).testing (unitId 2 (c * 16 + r)) &&
        (((s.mapSwitched c r w).lanesRetired c r w).testsFor (unitId 2 (c * 16 + r))).all (fun q => q.unit != unitId 2 (c * 16 + r)) then
      ((s.mapSwitched c r w).lanesRetired c r w).unitChange (unitId 2 (c * 16 + r))
        { ((s.mapSwitched c r w).lanesRetired c r w).unitOf (unitId 2 (c * 16 + r)) with
          state := ((s.mapSwitched c r w).lanesRetired c r w).inService (unitId 2 (c * 16 + r)) } 2 w.cause
      else (s.mapSwitched c r w).lanesRetired c r w := rfl
  generalize (s.mapSwitched c r w).lanesRetired c r w = m at heq
  split at heq
  · next h => exact .inr ⟨((Bool.and_eq_true _ _).mp h).1, _, heq⟩
  · exact .inl heq

/-- The switch-in writes the lane map and retires the lanes; the ranks and the map are then as that left them. -/
theorem switchIn_retires (s : State) (c r : Nat) (w : SwitchIn) : RetiredStay (s.mapSwitched c r w) (s.switchIn c r w) ∧
    ∀ l ∈ w.lanes, (s.switchIn c r w).unitState (unitId 3 ((c * 16 + r) * 256 + l)) = 3 := by
  have hstay : RetiredStay (s.mapSwitched c r w) ((s.mapSwitched c r w).lanesRetired c r w) := retiredStay_foldl_retire _
  have hmem : ∀ l ∈ w.lanes, ((s.mapSwitched c r w).lanesRetired c r w).unitState (unitId 3 ((c * 16 + r) * 256 + l)) = 3 :=
    fun l hl => unitState_foldl_retire (ix := fun l => unitId 3 ((c * 16 + r) * 256 + l)) hl
  rcases switchIn_cases s c r w with he | ⟨htest, x, he⟩ <;> rw [he]
  · exact ⟨hstay, hmem⟩
  · have h2 : ((s.mapSwitched c r w).lanesRetired c r w).unitState (unitId 2 (c * 16 + r)) = 2 := by simpa [State.testing] using htest
    have hstep := retiredStay_unitChange _ x 2 w.cause (fun h3 => absurd (h2.symm.trans h3) (by decide))
    exact ⟨hstay.trans hstep, fun l hl => hstep.retired _ (hmem l hl)⟩

/-! ### QUIESCED (R79, R87) -/

/-- The keeper's own QUIESCE falls, or nothing changes. -/
theorem settleQuiesce_cases (s : State) (c r : Nat) : s.settleQuiesce c r = s ∨ s.settleQuiesce c r =
    ((s.setRk c r { s.rk c r with selfQuiesced := false }).setFld (Reg.RNK_CTL c r) Fld.RNK_CTL_QUIESCE 0).setFld (Reg.RNK_CTL c r)
      Fld.RNK_CTL_QUIESCED 0 := ite_eq_or_eq _ _ _

theorem rd_settleQuiesce (s : State) {c r off : Nat} (h : off ≠ Reg.RNK_CTL c r) : (s.settleQuiesce c r).rd off = s.rd off := by
  rcases settleQuiesce_cases s c r with he | he
  · rw [he]
  · rw [he, rd_setFld_ne _ _ h, rd_setFld_ne _ _ h]; rfl

theorem unitState_settleQuiesce (s : State) (c r v : Nat) : (s.settleQuiesce c r).unitState v = s.unitState v := by
  rcases settleQuiesce_cases s c r with he | he
  · rw [he]
  · rw [he]; rfl

theorem rk_settleQuiesce (s : State) (c r : Nat) : ∃ q, (s.settleQuiesce c r).rk c r = { s.rk c r with selfQuiesced := q } := by
  rcases settleQuiesce_cases s c r with he | he <;> rw [he]
  · exact ⟨(s.rk c r).selfQuiesced, rfl⟩
  · exact ⟨false, rk_setRk_here s c r _⟩

/-- The lane map is read in registers of the rank that no notice touches. -/
theorem notices_lmap (c : Nat) {r j : Nat} (hr : r < 16) (hj : j < 16) : notices (Reg.RNK_LMAP c r j) = false := by
  have h := notices_rankReg c (d := 0x100 + 0x8 * j) hr (by omega)
  rwa [show 0x401000 + (0x100 + 0x8 * j) + 0x40000 * c + 0x800 * r = Reg.RNK_LMAP c r j by simp only [Reg.RNK_LMAP]; omega] at h

theorem RetiredStay.physLane (h : RetiredStay s t) (c : Nat) {r l : Nat} (hr : r < 16) (hl : l < 128) :
    t.physLane c r l = s.physLane c r l :=
  fld_of_rd _ (h.regs _ (by simp only [Reg.RNK_LMAP]; omega) (notices_lmap c hr (by omega)))

theorem physLane_settleQuiesce (s : State) (c r l : Nat) : (s.settleQuiesce c r).physLane c r l = s.physLane c r l :=
  fld_of_rd _ (rd_settleQuiesce s (by simp only [Reg.RNK_LMAP, Reg.RNK_CTL]; omega))

theorem lanesWith_setFld (s : State) (c r : Nat) (f : Field) (n : Nat) (lanes : List Nat) :
    (s.setFld (Reg.RNK_CTL c r) f n).lanesWith c r lanes = s.lanesWith c r lanes := by
  have hmap : Reg.RNK_SKEW_MAP c r ≠ Reg.RNK_CTL c r := by simp only [Reg.RNK_SKEW_MAP, Reg.RNK_CTL]; omega
  rw [State.lanesWith, State.lanesOut, rd_setFld_ne _ _ hmap]
  rfl

variable {c r : Nat}

/-- What QUIESCED does once every started tile has completed or waits outside the rank. -/
theorem rankQuiesced_drained (hq : s.quiesce c r = true) (ht : ∀ x ∈ (s.rk c r).tiles, x.waiting = true) :
    s.rankQuiesced c r = match (s.rk c r).switch with
      | some w => ((s.setFld (Reg.RNK_CTL c r) Fld.RNK_CTL_QUIESCED 1).switchIn c r w).settleQuiesce c r
      | none => s.setFld (Reg.RNK_CTL c r) Fld.RNK_CTL_QUIESCED 1 := by
  have hall : (s.rk c r).tiles.all (fun x => x.waiting) = true := List.all_eq_true.mpr ht
  rw [State.rankQuiesced, hq, hall]
  rfl

theorem rankQuiesced_alone (s : State) (c : Fin 64) (r : Fin 13) (hq : s.quiesce c r = true)
    (ht : ∀ x ∈ (s.rk c r).tiles, x.waiting = true) (hsw : (s.rk c r).switch = none) : Completes (.rankQuiesced c r) s (fun t =>
      t.fld (Reg.RNK_CTL c r) Fld.RNK_CTL_QUIESCED = 1 ∧ Near (· = Reg.RNK_CTL c r) s t) := by
  have hrun := rankQuiesced_drained hq ht
  rw [hsw] at hrun
  exact ⟨_, congrArg Host.Outcome.next hrun, fld_setFld_here s _ _ _ (by decide), (Near.refl _ s).setFld _ _ _ (.inl rfl)⟩

theorem rankQuiesced_switches (s : State) (c : Fin 64) (r : Fin 13) (hq : s.quiesce c r = true)
    (ht : ∀ x ∈ (s.rk c r).tiles, x.waiting = true) (w : SwitchIn) (hsw : (s.rk c r).switch = some w) :
    Completes (.rankQuiesced c r) s (fun t => (t.rk c r).switch = none ∧ (t.rk c r).tiles = (s.rk c r).tiles ∧
      (∀ l, l < 128 → t.physLane c r l = (laneMap (s.lanesWith c r w.lanes)).getD l 0 % 256) ∧
      ∀ l ∈ w.lanes, l < 132 → t.unitState (unitId 3 ((c.val * 16 + r.val) * 256 + l)) = 3) := by
  have hr : r.val < 16 := r.isLt.trans (by decide)
  have hrun := rankQuiesced_drained hq ht
  rw [hsw] at hrun
  refine ⟨_, congrArg Host.Outcome.next hrun, ?_⟩
  generalize hv : s.setFld (Reg.RNK_CTL c r) Fld.RNK_CTL_QUIESCED 1 = v
  have hlanes : v.lanesWith c r w.lanes = s.lanesWith c r w.lanes := by rw [← hv, lanesWith_setFld]
  obtain ⟨hstay, hret⟩ := switchIn_retires v c r w
  rw [State.mapSwitched, hlanes] at hstay
  obtain ⟨q, hk⟩ := rk_settleQuiesce (v.switchIn c r w) c r
  have hrk : ((v.switchIn c r w).settleQuiesce c r).rk c r = { (s.rk c r).switched with selfQuiesced := q } := by
    rw [hk, rk_of_rank hstay.rank, (near_setSkew _ c r _ _).rk, rk_modRk_here, ← hv]
    rfl
  refine ⟨?_, ?_, fun l hl => ?_, fun l hl _ => ?_⟩
  · rw [hrk]; rfl
  · rw [hrk]; rfl
  · rw [physLane_settleQuiesce, hstay.physLane c hr hl]
    exact physLane_setSkew _ c r _ _ hl
  · rw [unitState_settleQuiesce]
    exact hret l hl

/-! ### QUIESCE by T0 (R87) -/

/-- RNK_CTL written by T0, the rank's record beside it: QUIESCED falls with QUIESCE. -/
def State.quiesceWritten (s : State) (c r : Nat) (q : Bool) : State :=
  if q then s.setFld (Reg.RNK_CTL c r) Fld.RNK_CTL_QUIESCE 1
  else (s.setFld (Reg.RNK_CTL c r) Fld.RNK_CTL_QUIESCE 0).setFld (Reg.RNK_CTL c r) Fld.RNK_CTL_QUIESCED 0

theorem writeRnkCtl_eq (s : State) (c r : Nat) (q : Bool) :
    s.writeRnkCtl c r q = (s.setRk c r { s.rk c r with selfQuiesced := false }).quiesceWritten c r q := by
  cases q <;> rfl

theorem quiesce_quiesceWritten (s : State) (c r : Nat) (q : Bool) : (s.quiesceWritten c r q).quiesce c r = q := by
  cases q
  · rw [State.quiesceWritten, if_neg Bool.false_ne_true, State.quiesce, fld_setFld_beside _ _ _ _ _ (by decide) (by decide),
      fld_setFld_here _ _ _ _ (by decide)]
    rfl
  · rw [State.quiesceWritten, if_pos rfl, State.quiesce, fld_setFld_here _ _ _ _ (by decide)]
    rfl

theorem near_quiesceWritten (s : State) (c r : Nat) (q : Bool) : Near (· = Reg.RNK_CTL c r) s (s.quiesceWritten c r q) :=
  Near.ite (fun _ => (Near.refl (· = Reg.RNK_CTL c r) s).setFld _ _ _ (.inl rfl))
    (fun _ => ((Near.refl (· = Reg.RNK_CTL c r) s).setFld _ _ _ (.inl rfl)).setFld _ _ _ (.inl rfl))

theorem rnkCtlWrite_taken (s : State) (c : Fin 64) (r : Fin 13) (v : BitVec 32) : Completes (.rnkCtlWrite 0 c r v) s (fun t =>
    t.quiesce c r = v.getLsbD 0 ∧ (v.getLsbD 0 = false → t.fld (Reg.RNK_CTL c r) Fld.RNK_CTL_QUIESCED = 0) ∧
    Near (· = Reg.RNK_CTL c r) (s.setRk c r { s.rk c r with selfQuiesced := false }) t) := by
  refine ⟨_, congrArg Host.Outcome.next (writeRnkCtl_eq s c r _), quiesce_quiesceWritten _ _ _ _, fun hv => ?_, near_quiesceWritten _ _ _ _⟩
  rw [hv, State.quiesceWritten, if_neg Bool.false_ne_true, fld_setFld_here _ _ _ _ (by decide)]
  rfl

/-- A write of RNK_CTL or of a map by another tenant than T0 is discarded (R87, R91). -/
theorem rankWrites_by_others (s : State) (b : Fin 4) (c : Fin 64) (r : Fin 13) (v : BitVec 32) (x y : BitVec 64) (hb : b ≠ 0) :
    exec (.rnkCtlWrite b c r v) s = .next s ∧ exec (.rnkSkewMapWrite b c r x) s = .next s ∧ exec (.cluRankMapWrite b c y) s = .next s :=
  ⟨congrArg Host.Outcome.next (if_neg hb), congrArg Host.Outcome.next (if_neg hb), congrArg Host.Outcome.next (if_neg hb)⟩

/-! ### The statement -/

/-- Settles O21, one rule for each command that admits work to a rank, stops it or lets it go on. -/
theorem rankAdmits : Obligations.RankAdmits := by
  refine ⟨fun s c r n _ hn h4 hi hroom hforce => rampUp_goes_on s c r n hn h4 hi hroom hforce,
    fun s c r h4 hi hr hfull hw hforce => rampUp_waits s c r h4 hi hr hfull hw hforce,
    fun s c r n _ hn h0 hi => rampDown_gates s c r n hn h0 hi, fun s c r w a hq hu ht ha => ?_,
    fun s c r w a _ hq hu ht ha hacc hl hras => ?_, fun s c r w sampled x a hq hu ht hx ha hop hl => ?_,
    fun s c r cycles _ hs ht => chainRestart_goes_on s c r cycles hs ht, fun s c r _ hq ht =>
      ⟨rankQuiesced_alone s c r hq ht, fun w hw _ => rankQuiesced_switches s c r hq ht w hw⟩,
    fun s c r v _ => rnkCtlWrite_taken s c r v, fun s b c r v x y hb => rankWrites_by_others s b c r v x y hb⟩
  · exact congrArg Host.Outcome.next (startTile_next ⟨hq, hu, fun x hx => (ht x hx).1⟩ (waiting_none ht) ha)
  · exact tileStart_sampled s c r w ⟨hq, hu, fun x hx => (ht x hx).1⟩ (waiting_none ht) ha hacc hl hras
  · exact ⟨congrArg Host.Outcome.next (startTile_again ⟨hq, hu, ht⟩ hx ha hop hl), rfl, rfl, rfl, rfl⟩

end Sys2Proof.Machine
end

section
/-!
SUPPORT. What recording an event, signalling a token and writing memory leave alone among the registers: `regsKept`
(Sys2Proof/Safety.lean) of the operations of Machine/Ops.lean, Tokens.lean and Banks.lean.
-/
namespace Sys2Proof.Machine

variable {e : Nat → Prop} {s t u : State}

/-! ### Composition -/

theorem regsKept.refl (e : Nat → Prop) (s : State) : regsKept e s s := fun _ _ => rfl

theorem regsKept.trans (h : regsKept e s t) (k : regsKept e t u) : regsKept e s u := fun off ho => (k off ho).trans (h off ho)

/-- A change of the state that writes no register. -/
theorem regsKept.of_regs (h : regsKept e s t) (hr : u.regs = t.regs) : regsKept e s u :=
  fun off ho => by rw [State.rd, hr]; exact h off ho

theorem regsKept.wr (h : regsKept e s t) {off : Nat} (v : BitVec 64) (he : e off) : regsKept e s (t.wr off v) :=
  h.trans (fun _ ho => rd_wr_ne v (fun heq => ho (heq ▸ he)))

theorem regsKept.setFld (h : regsKept e s t) {off : Nat} (f : Field) (n : Nat) (he : e off) : regsKept e s (t.setFld off f n) :=
  h.wr _ he

theorem regsKept.cnt (h : regsKept e s t) {off : Nat} (he : e off) : regsKept e s (t.cnt off) := h.setFld _ _ he

theorem regsKept.event (h : regsKept e s t) {st ct : Nat} (f : Field) (h1 : e st) (h2 : e ct) : regsKept e s (t.event st f ct) :=
  (h.setFld f 1 h1).cnt h2

theorem regsKept.modCl (h : regsKept e s t) (c : Nat) (f : Cluster → Cluster) : regsKept e s (t.modCl c f) := h.of_regs rfl

theorem regsKept.tellKeeper (h : regsKept e s t) (code a b : Nat) : regsKept e s (t.tellKeeper code a b) := h.of_regs rfl

theorem regsKept.spend (h : regsKept e s t) (i n : Nat) : regsKept e s (t.spend i n) := h.of_regs rfl

theorem regsKept.sendMirrorCtl (h : regsKept e s t) (dst tag kind reason value : Nat) :
    regsKept e s (t.sendMirrorCtl dst tag kind reason value) := h.of_regs rfl

theorem regsKept.ite {p : Prop} [Decidable p] (h1 : regsKept e s t) (h2 : regsKept e s u) : regsKept e s (if p then t else u) := by
  split <;> assumption

theorem regsKept.foldl {β : Type} {f : State → β → State} {l : List β} (h : regsKept e s t) (hf : ∀ x b, regsKept e x (f x b)) :
    regsKept e s (l.foldl f t) := by
  induction l generalizing t with
  | nil => exact h
  | cons b l ih => exact ih (h.trans (hf t b))

/-- The registers from those of the trace on, and those that telling the outside touches. -/
def farRegs (off : Nat) : Prop := 0x60000 ≤ off ∨ notices off = true

theorem farRegs_of_observes {off : Nat} (h : observes off = true) : farRegs off := .inr (notices_of_observes h)

theorem Noted.farKept (h : Noted farRegs s t) : regsKept farRegs s t :=
  fun off ho => h.regs off ho (Bool.eq_false_iff.mpr (fun hn => ho (.inr hn)))

theorem Near.farKept (h : Near farRegs s t) : regsKept farRegs s t := h.noted.farKept

theorem bumpClu_farKept (s : State) (c src filt n : Nat) : regsKept farRegs s (s.bumpClu c src filt n) :=
  ((Near.refl _ s).bumpClu c src filt n).farKept

theorem bumpGlb_farKept (s : State) (src filt n : Nat) : regsKept farRegs s (s.bumpGlb src filt n) :=
  ((Near.refl _ s).bumpGlb src filt n).farKept

/-! ### Trace rings, whatever the unit (R473 to R479, R484) -/

theorem far_ringStat (v : Nat) : farRegs (Reg.TRC_RING_STAT v) := .inl (by simp only [Reg.TRC_RING_STAT]; omega)

theorem setRing_farKept (s : State) (v : Nat) (r : Ring) : regsKept farRegs s (s.setRing v r) := (regsKept.refl _ s).of_regs rfl

theorem ringLose_farKept (s : State) (v : Nat) (a b : BitVec 64) : regsKept farRegs s (s.ringLose v a b) := by
  unfold State.ringLose
  exact (((setRing_farKept s v _).setFld _ _ (far_ringStat v)).event _ (.inl (by decide)) (.inl (by decide))).trans
    (bumpGlb_farKept _ _ _ _)

/-- A ring that has taken a record, and the count of records of its cluster (R473, R488). -/
theorem ringTaken_farKept (h : regsKept farRegs s t) (v : Nat) (r : Ring) (n : Nat) : regsKept farRegs s
    (if v < 64 then ((t.setRing v r).setFld (Reg.TRC_RING_STAT v) Fld.TRC_RING_STAT_WRITTEN n).bumpClu v 0x14 0 1
      else (t.setRing v r).setFld (Reg.TRC_RING_STAT v) Fld.TRC_RING_STAT_WRITTEN n) :=
  have hput := (h.trans (setRing_farKept t v r)).setFld Fld.TRC_RING_STAT_WRITTEN n (far_ringStat v)
  regsKept.ite (hput.trans (bumpClu_farKept _ _ _ _ _)) hput

theorem ringPut_farKept (s : State) (r : TraceRec) : regsKept farRegs s (s.ringPut r) := by
  have hlose : ∀ old : TraceRec, regsKept farRegs s (s.ringLose r.unit old.tsc old.cpos) := fun old => ringLose_farKept s _ _ _
  unfold State.ringPut
  dsimp only
  refine regsKept.ite (regsKept.refl _ s) (regsKept.ite (hlose r) (ringTaken_farKept ?_ _ _ _))
  split
  · exact regsKept.ite (hlose _) (regsKept.refl _ s)
  · exact regsKept.refl _ s

theorem trace_farKept (s : State) (v ev obj dur : Nat) (peer : BitVec 64) : regsKept farRegs s (s.trace v ev obj dur peer) :=
  ringPut_farKept s _

theorem triggerRing_farKept (s : State) (v source : Nat) : regsKept farRegs s (s.triggerRing v source) := by
  unfold State.triggerRing
  dsimp only
  exact regsKept.ite (regsKept.refl _ s) (regsKept.ite (regsKept.refl _ s)
    (((trace_farKept s _ _ _ _ _).setFld _ _ (far_ringStat v)).trans (setRing_farKept _ _ _)))

theorem trigger_farKept (s : State) (v source : Nat) : regsKept farRegs s (s.trigger v source) := by
  have hev : regsKept farRegs s (s.event Reg.TRC_STATUS Fld.TRC_STATUS_TRIG Reg.TRC_TRIG_CNT) :=
    (regsKept.refl _ s).event _ (.inl (by decide)) (.inl (by decide))
  exact regsKept.ite (hev.foldl (fun x v => triggerRing_farKept x v source)) (hev.trans (triggerRing_farKept _ v source))

/-! ### Signals of tokens (R136 to R138, R204) -/

theorem far_seqStatus (c : Nat) : farRegs (Reg.SEQ_STATUS c) := .inl (by simp only [Reg.SEQ_STATUS]; omega)

theorem far_seqToken (c i : Nat) : farRegs (Reg.SEQ_TOKEN c i) := .inl (by simp only [Reg.SEQ_TOKEN]; omega)

theorem evq_farKept (s : State) {v : Nat} (hv : v ≤ 3) (type cluster info : Nat) : regsKept farRegs s (s.evq v type cluster info) :=
  ((Noted.refl _ s).evq hv type cluster info).farKept

theorem recordFault_farKept (s : State) (c : Nat) (f : FaultRec) (stay : Bool) : regsKept farRegs s (s.recordFault c f stay) := by
  have hten : s.seqTenant c ≤ 3 := Nat.le_of_lt_succ (Nat.mod_lt _ (by decide))
  have hrec : ∀ k w, farRegs (Reg.SEQ_FAULT_REC c k w) := fun k w => .inl (by simp only [Reg.SEQ_FAULT_REC]; omega)
  have hcnt : farRegs (Reg.SEQ_FAULT_CNT c) := .inl (by simp only [Reg.SEQ_FAULT_CNT]; omega)
  unfold State.recordFault
  extract_lets st k ten w0 put s0 s1 s2 s3 s4 s5 s6 s7 s8 s9 s10 s11 s12
  have hput : ∀ (x : State) (w v : Nat), regsKept farRegs s x → regsKept farRegs s (put x w v) := fun x w v hx => hx.wr _ (hrec k w)
  clear_value put
  have h7 : regsKept farRegs s s7 := by
    iterate 8 apply hput
    exact regsKept.refl _ s
  clear_value s7
  have h9 : regsKept farRegs s s9 := (h7.event _ (far_seqStatus c) hcnt).tellKeeper _ _ _
  clear_value s9
  have h10 : regsKept farRegs s s10 := regsKept.ite h9 (h9.trans (evq_farKept _ hten _ _ _))
  clear_value s10
  have h12 : regsKept farRegs s s12 := (h10.trans (trace_farKept _ _ _ _ _ _)).trans (trigger_farKept _ _ _)
  clear_value s12
  exact regsKept.ite h12 ((h12.modCl c _).setFld _ _ (far_seqStatus c))

theorem addOne_farKept (s : State) (c k n : Nat) (peer : BitVec 64) : regsKept farRegs s (s.addOne c k n peer) := by
  have hadd : regsKept farRegs s ((s.tokenRaised c k n peer).bumpClu c 0x13 k 1) :=
    (((regsKept.refl _ s).setFld _ _ (far_seqToken c k)).modCl c _).trans (bumpClu_farKept _ _ _ _ _)
  have htrig := regsKept.ite (p := ((s.tokenRaised c k n peer).bumpClu c 0x13 k 1).fld Reg.TRC_CTL Fld.TRC_CTL_TRIGTOK = k)
    (hadd.trans (trigger_farKept _ c 3)) hadd
  exact regsKept.ite (regsKept.refl _ s) (regsKept.ite (htrig.trans (recordFault_farKept _ _ _ _)) htrig)

theorem addToken_farKept (s : State) (c k n : Nat) (peer : BitVec 64) : regsKept farRegs s (s.addToken c k n peer) :=
  regsKept.ite (regsKept.refl _ s) ((addOne_farKept s _ _ _ _).trans (addOne_farKept _ _ _ _ _))

theorem far_seqRegs {c off : Nat} (h : seqRegs c off) : farRegs off := by
  rcases h with rfl | rfl | rfl | ⟨i, -, rfl⟩
  · exact .inl (by simp only [Reg.SEQ_INSN_CNT]; omega)
  · exact .inl (by simp only [Reg.SEQ_PC]; omega)
  · exact far_seqStatus c
  · exact far_seqToken c i

theorem goto_farKept (s : State) (c pc : Nat) : regsKept farRegs s (s.goto c pc) :=
  fun off ho => (goto_record s c pc).1.regs off (fun h => ho (far_seqRegs h))
    (Bool.eq_false_iff.mpr (fun h => ho (farRegs_of_observes h)))

theorem seqDone_farKept (s : State) (c : Nat) (q : QEntry) (pc : Nat) : regsKept farRegs s (s.seqDone c q pc) :=
  (((regsKept.refl _ s).modCl c _).trans (addToken_farKept _ _ _ _ _)).trans (goto_farKept _ _ _)

theorem releaseHold_farKept (s : State) (c : Nat) : regsKept farRegs s (s.releaseHold c) := by
  unfold State.releaseHold
  refine regsKept.ite (regsKept.refl _ s) ?_
  split
  · have ht := fun k v dur peer => ((regsKept.refl farRegs s).setFld Fld.SEQ_TOKEN_COUNT v (far_seqToken c k)).trans
      (trace_farKept _ c 0x01 k dur peer)
    exact regsKept.ite (((ht _ _ _ _).modCl c _).trans (seqDone_farKept _ _ _ _)) (regsKept.refl _ s)
  · have ht := fun dur => trace_farKept s c 0x02 0 dur (peerWord (s.fld Reg.CAD_MASTER Fld.CAD_MASTER_CHIP) 0 6 0 0)
    exact regsKept.ite ((regsKept.ite ((ht _).modCl c _) ((ht _).modCl c _)).trans (seqDone_farKept _ _ _ _)) (regsKept.refl _ s)
  · exact regsKept.ite (regsKept.refl _ s) (((regsKept.refl _ s).modCl c _).trans (seqDone_farKept _ _ _ _))
  · exact regsKept.refl _ s

theorem signal_farKept (s : State) (c k n : Nat) (peer : BitVec 64) : regsKept farRegs s (s.signal c k n peer) :=
  (addToken_farKept s _ _ _ _).trans (releaseHold_farKept _ c)

/-! ### Writes of memory (R217, R218, R225, R389) -/

theorem hbmDetect_farKept (s : State) (dpa : Nat) : regsKept farRegs s (s.hbmDetect dpa) := by
  have hreg : ∀ i, farRegs (Reg.MEM_ERR_ADDR i) ∧ farRegs (Reg.MEM_STATUS i) ∧ farRegs (Reg.MEM_DET_CNT i) ∧
      farRegs (Reg.MEM_WHELD_CNT i) := by
    intro i
    refine ⟨.inl ?_, .inl ?_, .inl ?_, .inl ?_⟩ <;>
      simp only [Reg.MEM_ERR_ADDR, Reg.MEM_STATUS, Reg.MEM_DET_CNT, Reg.MEM_WHELD_CNT] <;> omega
  obtain ⟨haddr, hstat, hdet, hwheld⟩ := hreg ((hbmLocate s.retired dpa).1 % 8)
  have haddressed := (regsKept.refl _ s).wr (BitVec.ofNat 64 (dpa / 64 * 64 % 2 ^ 48 + (hbmLocate s.retired dpa).1 * 2 ^ 48)) haddr
  have hdetect := (haddressed.event Fld.MEM_STATUS_DET hstat hdet).trans (bumpGlb_farKept _ 0x06 0 1)
  exact regsKept.ite (hdetect.event _ hstat hwheld) hdetect

theorem poke_farKept (s : State) (a : Nat) (bs : List Byte) : regsKept farRegs s (s.poke a bs) :=
  (regsKept.refl _ s).of_regs (by rw [poke_eq])

theorem countBursts_farKept (s : State) (src a n : Nat) : regsKept farRegs s (s.countBursts src a n) :=
  (regsKept.refl _ s).foldl (fun x _ => bumpGlb_farKept x _ _ _)

theorem writeBurst_farKept (s : State) (a : Nat) (bs : List Byte) : regsKept farRegs s (s.writeBurst a bs).2 := by
  have hrmw : ∀ i, farRegs (Reg.MEM_RMW_CNT i) := fun i => .inl (by simp only [Reg.MEM_RMW_CNT]; omega)
  have hcnt := fun i => (regsKept.refl farRegs s).cnt (hrmw i)
  unfold State.writeBurst
  dsimp only
  split
  · split
    · exact hbmDetect_farKept s a
    · exact ((regsKept.refl _ s).of_regs rfl).trans (poke_farKept (s.healBurst (a / 64)) a bs)
  · split
    · exact (hcnt _).trans (hbmDetect_farKept _ a)
    · exact (hcnt _).trans (poke_farKept _ a bs)

theorem writeStage_farKept (s : State) (c a : Nat) (bs : List Byte) : regsKept farRegs s (s.writeStage c a bs).2 := by
  unfold State.writeStage
  extract_lets kept old s1 s2 page s3
  have h1 : regsKept farRegs s s1 := (poke_farKept s a bs).foldl (fun x b => poke_farKept x b.1 b.2)
  have h3 : regsKept farRegs s s3 := (h1.of_regs (u := s2) rfl).modCl c _
  exact (h3.trans (bumpClu_farKept s3 c _ _ _)).spend _ _

theorem writeMem_farKept (s : State) (a : Nat) (bs : List Byte) : regsKept farRegs s (s.writeMem a bs).2 := by
  have hparts : ∀ (l : List (Nat × List Byte)) (x : WrErr × State), regsKept farRegs s x.2 → regsKept farRegs s
      (l.foldl (fun (acc : WrErr × State) p => (acc.1.or (acc.2.writeBurst p.1 p.2).1, (acc.2.writeBurst p.1 p.2).2)) x).2 := by
    intro l
    induction l with
    | nil => exact fun _ hx => hx
    | cons p l ih => exact fun x hx => ih _ (hx.trans (writeBurst_farKept x.2 p.1 p.2))
  unfold State.writeMem
  split
  · exact regsKept.refl _ s
  · split
    · exact ((hparts _ _ (regsKept.refl _ s)).trans (countBursts_farKept _ _ _ _)).of_regs rfl
    · exact writeStage_farKept s _ a bs
    · exact (regsKept.refl _ s).of_regs rfl
    · exact regsKept.refl _ s

theorem signalPush_farKept (s : State) : regsKept farRegs s s.signalPush :=
  regsKept.ite (signal_farKept s _ _ _ _) (regsKept.refl _ s)

theorem endPush_farKept (s : State) (result : Nat) : regsKept farRegs s (s.endPush result) := by
  unfold State.endPush
  split
  · exact regsKept.refl _ s
  · next p _ =>
    have hbank : farRegs (Reg.MEM_BANK_STATE p.bank) := .inl (by simp only [Reg.MEM_BANK_STATE]; omega)
    have hstat : farRegs Reg.MEM_TWIN_STATUS := .inl (by decide)
    have hfree : regsKept farRegs s { s with push := none } := (regsKept.refl _ s).of_regs rfl
    have hend := ((hfree.setFld Fld.MEM_TWIN_STATUS_STATE 0 hstat).setFld Fld.MEM_TWIN_STATUS_RESULT result hstat).setFld
      Fld.MEM_BANK_STATE_PUSH 0 hbank
    exact (regsKept.ite (hend.cnt (.inl (by decide))) (hend.event _ (.inl (by decide)) (.inl (by decide)))).trans (signalPush_farKept _)

theorem abortPush_farKept (s : State) (reason result : Nat) : regsKept farRegs s (s.abortPush reason result) := by
  unfold State.abortPush
  split
  · exact regsKept.refl _ s
  · exact (regsKept.ite (regsKept.refl _ s) ((regsKept.refl _ s).sendMirrorCtl _ _ _ _ _)).trans (endPush_farKept _ _)

theorem unsealBank_farKept (s : State) (b : Nat) : regsKept farRegs s (s.unsealBank b) := by
  have hbank : farRegs (Reg.MEM_BANK_STATE b) := .inl (by simp only [Reg.MEM_BANK_STATE]; omega)
  have hopen := fun seals => ((writeMem_farKept s (s.bankBase b) (leBytes 8 0)).setFld Fld.MEM_BANK_STATE_STATE 0 hbank).of_regs
    (u := { (s.writeMem (s.bankBase b) (leBytes 8 0)).2.setBank b 0 with seals := seals }) rfl
  unfold State.unsealBank
  dsimp only
  split
  · exact regsKept.ite ((hopen _).trans (abortPush_farKept _ _ _)) (hopen _)
  · exact hopen _

theorem unseal_farKept (s : State) (a n : Nat) : regsKept farRegs s (s.unseal a n) :=
  regsKept.ite (regsKept.refl _ s)
    ((regsKept.refl _ s).foldl (fun x b => regsKept.ite (unsealBank_farKept x b) (regsKept.refl _ x)))

/-- A write of memory touches registers from the trace's on, and those that telling the outside touches (R217, R218, R225, R389). -/
theorem write_farKept (s : State) (a : Nat) (bs : List Byte) : regsKept farRegs s (s.write a bs).2 :=
  (unseal_farKept s a bs.length).trans (writeMem_farKept _ a bs)

end Sys2Proof.Machine
end

section
/-!
SUPPORT. A detected error that is charged to a unit is counted and shows DETECT (R445, R453, R466, R468), and the header signal of an
instruction that reaches a plain token (R137, R138).
-/
namespace Sys2Proof.Machine

variable {s t u : State} {c : Nat}

/-! ### Charging a detected error -/

/-- `t` counts one detected error more than `s`, and shows DETECT (R468). -/
def Detected (s t : State) : Prop := counted Reg.GLB_DETECT_CNT 1 s t ∧ t.fld Reg.GLB_RAS_STATUS (bitField 0) = 1

/-- The count of detected errors and DETECT are as they were. -/
structure DetectKept (s t : State) : Prop where
  count : t.rd Reg.GLB_DETECT_CNT = s.rd Reg.GLB_DETECT_CNT
  flag : t.fld Reg.GLB_RAS_STATUS (bitField 0) = s.fld Reg.GLB_RAS_STATUS (bitField 0)

theorem DetectKept.trans (h : DetectKept s t) (k : DetectKept t u) : DetectKept s u :=
  ⟨k.count.trans h.count, k.flag.trans h.flag⟩

theorem Detected.kept (h : Detected s t) (k : DetectKept t u) : Detected s u := ⟨k.count.trans h.1, k.flag.trans h.2⟩

theorem Detected.ite {p : Prop} [Decidable p] (h1 : Detected s t) (h2 : Detected s u) : Detected s (if p then t else u) := by
  split <;> assumption

theorem regsKept.detectKept {e : Nat → Prop} (h : regsKept e s t) (h1 : ¬ e Reg.GLB_DETECT_CNT) (h2 : ¬ e Reg.GLB_RAS_STATUS) :
    DetectKept s t := ⟨h _ h1, fld_of_rd _ (h _ h2)⟩

/-- Writing another register than these two. -/
theorem detectKept_setFld (s : State) {off : Nat} (f : Field) (n : Nat) (h1 : Reg.GLB_DETECT_CNT ≠ off)
    (h2 : Reg.GLB_RAS_STATUS ≠ off) : DetectKept s (s.setFld off f n) :=
  ⟨rd_setFld_ne f n h1, fld_setFld_ne f _ n h2⟩

theorem detectKept_cnt (s : State) {off : Nat} (h1 : Reg.GLB_DETECT_CNT ≠ off) (h2 : Reg.GLB_RAS_STATUS ≠ off) :
    DetectKept s (s.cnt off) := detectKept_setFld s _ _ h1 h2

theorem DetectKept.of_far (h : regsKept farRegs s t) : DetectKept s t :=
  h.detectKept (by unfold farRegs; decide) (by unfold farRegs; decide)

theorem DetectKept.of_regs (h : t.regs = s.regs) : DetectKept s t := .of_far ((regsKept.refl _ s).of_regs h)

/-- A unit's record is written, and stands as the last change (R463). -/
theorem DetectKept.recorded (h : DetectKept s t) (v : Nat) (r : UnitRec) (l : Nat × Nat × Nat × Nat) :
    DetectKept s { t.setUnit v r with lastChange := l } := h.trans (.of_regs rfl)

theorem logError_detectKept (s : State) (x : LogEntry) : DetectKept s (s.logError x) := by
  unfold State.logError
  split
  · exact .of_regs rfl
  · exact (DetectKept.of_far (((regsKept.refl _ s).of_regs rfl).trans (write_farKept (s.onBehalf 0) _ _))).trans
      (detectKept_setFld _ _ _ (by decide) (by decide))

theorem unitChange_detectKept (s : State) (v : Nat) (r : UnitRec) (outcome cause : Nat) :
    DetectKept s (s.unitChange v r outcome cause) :=
  .of_far (((regsKept.refl _ s).of_regs rfl).trans (noted_unitChange farRegs s v r outcome cause).farKept)

theorem confirm_detectKept (s : State) (v cause : Nat) : DetectKept s (s.confirm v cause) := by
  unfold State.confirm
  extract_lets r
  have hset := (detectKept_cnt s (off := Reg.GLB_CONFIRM_CNT) (by decide) (by decide)).recorded v { r with conf := r.conf + 1 }
    (v, r.state, 4, cause)
  exact hset.trans (.of_far (Noted.refl _ _).epochUp.farKept)

/-- UNTESTED sets a flag of its own beside DETECT (R456, R468). -/
theorem untested_detectKept (s : State) (q : TestReq) : DetectKept s (s.untested q) := by
  have hflag : DetectKept s (s.setFld Reg.GLB_RAS_STATUS (bitField 4) 1) :=
    ⟨rd_setFld_ne _ _ (by decide), fld_setFld_beside s _ _ _ _ (by decide) (by decide)⟩
  have hevent : DetectKept s (s.event Reg.GLB_RAS_STATUS (bitField 4) Reg.GLB_UNTESTED_CNT) :=
    hflag.trans (detectKept_cnt _ (by decide) (by decide))
  unfold State.untested
  extract_lets s1 r s2 s3
  have h1 : DetectKept s s1 := hevent
  clear_value s1
  have h3 : DetectKept s s3 := h1.recorded _ _ _
  exact h3.trans (logError_detectKept s3 _)

theorem setTestsFor_detectKept (s : State) (v : Nat) (l : List TestReq) : DetectKept s (s.setTestsFor v l) := by
  unfold State.setTestsFor
  split <;> exact .of_regs rfl

/-- A charged error of one of the classes of R445 is counted once, whatever becomes of its test. -/
theorem charge_detected (s : State) {cls : Nat} (hcls : cls < 10) (unit tenant dpa : Nat) : Detected s (s.charge cls unit tenant dpa) := by
  have hclass : Reg.GLB_DETECT_CNT ≠ Reg.GLB_CLASS_CNT (cls - 1) ∧ Reg.GLB_RAS_STATUS ≠ Reg.GLB_CLASS_CNT (cls - 1) := by
    simp only [Reg.GLB_DETECT_CNT, Reg.GLB_RAS_STATUS, Reg.GLB_CLASS_CNT]; omega
  unfold State.charge
  extract_lets s1 s2 s3 s4 q log r s5 tests s6 rec
  have h1 : Detected s s1 := by
    obtain ⟨hflag, hcount⟩ := raised_event s Reg.GLB_RAS_STATUS (bitField 0) Reg.GLB_DETECT_CNT (by decide)
    exact ⟨hcount, by rw [fld_def, hflag, getField_putField _ _ _ (by decide)]; rfl⟩
  have h4 : Detected s s4 := ((h1.kept (detectKept_cnt s1 hclass.1 hclass.2)).kept (.of_far (trace_farKept s2 _ _ _ _ _))).kept
    (.of_far (trigger_farKept s3 _ _))
  have hlog : Detected s (log s4) := h4.kept (logError_detectKept s4 _)
  clear_value s4
  refine Detected.ite hlog (Detected.ite h4 ?_)
  have h5 : Detected s s5 := Detected.ite (h4.kept (confirm_detectKept s4 _ _)) h4
  clear_value s5
  exact Detected.ite (h5.kept (untested_detectKept s5 q))
    ((h5.kept (setTestsFor_detectKept s5 _ _)).kept (unitChange_detectKept s6 _ _ _ _))

theorem chargeMem_detected (s : State) (hbm : Bool) (dpa tenant : Nat) : Detected s (s.chargeMem hbm dpa tenant) := by
  unfold State.chargeMem
  split
  · exact charge_detected s (by decide) _ _ _
  · exact charge_detected s (by decide) _ _ _

/-! ### The header signal of an instruction that reaches a plain token -/

theorem releaseHold_of_keepsHold (h : (s.cl c).keepsHold) : s.releaseHold c = s := by
  have hno (x : Hold) (hx : (s.cl c).hold = some x) :
      x.kind ≠ .yield ∧ (∀ k n, x.kind ≠ .wait k n) ∧ ∀ p y, x.kind ≠ .cwait p y := by
    rcases h x hx with hk | hk <;> rw [hk] <;> exact ⟨nofun, nofun, nofun⟩
  unfold State.releaseHold
  split
  · rfl
  · split
    · next hx => exact ((hno _ hx).2.1 _ _ rfl).elim
    · next hx => exact ((hno _ hx).2.2 _ _ rfl).elim
    · next hx => exact ((hno _ hx).1 rfl).elim
    · rfl

/-- Token `k` of the cluster's record names `peer` as its last producer. -/
def State.prodSet (s : State) (c k : Nat) (peer : BitVec 64) : State := s.modCl c (fun q => { q with prod := q.prod.set 0 k peer })

theorem hold_prodSet (s : State) (c k : Nat) (peer : BitVec 64) : ((s.prodSet c k peer).cl c).hold = (s.cl c).hold := by
  rw [State.prodSet, cl_modCl_here]

theorem addOne_zero (s : State) (c n : Nat) (peer : BitVec 64) : s.addOne c 0 n peer = s := if_pos rfl

/-- A token that has room counts up by `n`, and nothing but it, its producer and what observes it changes. -/
theorem addOne_near {k n : Nat} (peer : BitVec 64) (hc : c < 64) (hk : k < 256) (h0 : k ≠ 0) (hfit : s.tok c k + n < 2 ^ 24) :
    (s.addOne c k n peer).tok c k = s.tok c k + n ∧ Near (· = Reg.SEQ_TOKEN c k) (s.prodSet c k peer) (s.addOne c k n peer) := by
  have hraise : Near (· = Reg.SEQ_TOKEN c k) (s.prodSet c k peer) (s.tokenRaised c k n peer) :=
    ((Near.refl (· = Reg.SEQ_TOKEN c k) s).setFld _ _ _ (.inl rfl)).modCl c _
  have hcount : (s.tokenRaised c k n peer).tok c k = s.tok c k + n := by
    have hmin : min (s.tok c k + n) (2 ^ 24 - 1) = s.tok c k + n := by omega
    exact (fld_setFld_here s _ _ _ (by decide)).trans (by rw [hmin]; exact Nat.mod_eq_of_lt hfit)
  have hobs : Near (fun _ => False) (s.tokenRaised c k n peer) (s.addOne c k n peer) := by
    have hb := (Near.refl (fun _ => False) (s.tokenRaised c k n peer)).bumpClu c 0x13 k 1
    rcases addOne_fits peer h0 hfit with h | h <;> rw [h]
    · exact hb
    · exact hb.trigger (by omega) 3
  exact ⟨(hobs.fld _ id (observes_token hk)).trans hcount, hraise.trans (hobs.mono (fun _ h => h.elim))⟩

/-- The header signal of an instruction, where nothing waits for it and its token has room and no forward (R137, R138). -/
theorem signalHeader_signalled {q : QEntry} (port : Nat) (hc : c < 64) (h : signalPlain s c q.sig) :
    Signalled (fun _ => False) c q port s (s.signalHeader c port q 1) := by
  obtain ⟨hk, hhold, hroom⟩ := h
  by_cases h0 : q.sig = 0
  · have hnone : s.signalHeader c port q 1 = s := by
      simp only [State.signalHeader, State.signal, State.addToken, h0, if_true, one_ne_zero, if_false, releaseHold_of_keepsHold hhold]
    rw [hnone]
    exact ⟨fun hne => absurd h0 hne, by rw [if_pos h0]; exact Near.refl _ s⟩
  · obtain ⟨hfit, hfwd⟩ := hroom.resolve_left h0
    obtain ⟨htok, hnear⟩ := addOne_near (s.localPeer c port q.pc) hc hk h0 hfit
    have hrun : s.signalHeader c port q 1 = s.addOne c q.sig 1 (s.localPeer c port q.pc) := by
      have hkeeps : ((s.addOne c q.sig 1 (s.localPeer c port q.pc)).cl c).keepsHold := by
        rw [hnear.cl]
        exact fun x hx => hhold x (hold_prodSet s c _ _ ▸ hx)
      rw [State.signalHeader, if_neg one_ne_zero, State.signal, State.addToken, if_neg h0, hfwd, addOne_zero]
      exact releaseHold_of_keepsHold hkeeps
    rw [hrun]
    exact ⟨fun _ => htok, by rw [if_neg h0]; exact hnear.mono (fun _ hoff => .inr ⟨h0, hoff⟩)⟩

/-- The PEER of a local instruction names the chip (R476), whose number is as before where its register is. -/
theorem Near.localPeer {e : Nat → Prop} (h : Near e s t) (he : ¬ e Reg.IDM_BOARD0) (port pc : Nat) :
    t.localPeer c port pc = s.localPeer c port pc := by
  have hchip : t.chip = s.chip := h.fld _ he (by decide)
  rw [State.localPeer, hchip]; rfl

theorem Near.tok {e : Nat → Prop} (h : Near e s t) {k : Nat} (hk : k < 256) (he : ¬ e (Reg.SEQ_TOKEN c k)) : t.tok c k = s.tok c k :=
  h.fld _ he (observes_token hk)

/-- A signal stays plain over what leaves its token alone. -/
theorem signalPlain.near {e : Nat → Prop} {sig : Nat} (h : signalPlain s c sig) (k : Near e s t) (he : ¬ e (Reg.SEQ_TOKEN c sig)) :
    signalPlain t c sig := by
  obtain ⟨hsig, hhold, hroom⟩ := h
  refine ⟨hsig, by rw [k.cl]; exact hhold, hroom.imp_right (fun hr => ?_)⟩
  rw [k.tok hsig he, k.fld _ he (observes_token hsig)]
  exact hr

/-- So it does over a change of the cluster's record that leaves its hold alone. -/
theorem signalPlain.modCl {sig : Nat} (h : signalPlain s c sig) {f : Cluster → Cluster} (hf : (f (s.cl c)).hold = (s.cl c).hold) :
    signalPlain (s.modCl c f) c sig := by
  obtain ⟨hsig, hhold, hroom⟩ := h
  refine ⟨hsig, ?_, hroom⟩
  rw [cl_modCl_here]
  exact fun x hx => hhold x (hf ▸ hx)

/-- What came before the signal joins its frame. -/
theorem Signalled.after {e : Nat → Prop} {q : QEntry} {port : Nat} (h : Signalled (fun _ => False) c q port t u) (k : Near e s t)
    (hsig : q.sig < 256) (ht : ¬ e (Reg.SEQ_TOKEN c q.sig)) (hb : ¬ e Reg.IDM_BOARD0) : Signalled e c q port s u := by
  obtain ⟨htok, hnear⟩ := h
  refine ⟨fun h0 => by rw [htok h0, k.tok hsig ht], ?_⟩
  rw [k.localPeer hb] at hnear
  refine Near.trans ?_ (hnear.mono (fun _ hoff => hoff.imp_left False.elim))
  split
  · exact k.mono (fun _ => .inl)
  · exact (k.modCl c _).mono (fun _ => .inl)

/-- The cluster's record after a signal differs by the token's producer alone. -/
theorem Signalled.cluster {e : Nat → Prop} {q : QEntry} {port : Nat} (h : Signalled e c q port s t) :
    ∃ pr, t.cl c = { s.cl c with prod := pr } := by
  rw [h.2.cl]
  split
  · exact ⟨_, rfl⟩
  · exact ⟨_, cl_modCl_here s c _⟩

/-- The registers outside `e` and the token are as before a signal. -/
theorem Signalled.rd {e : Nat → Prop} {q : QEntry} {port off : Nat} (h : Signalled e c q port s t) (he : ¬ e off)
    (ht : off ≠ Reg.SEQ_TOKEN c q.sig) (ho : observes off = false) : t.rd off = s.rd off := by
  have hrd := h.2.regs off (fun hx => hx.elim he (fun hx => ht hx.2)) ho
  rw [hrd]
  split <;> rfl

end Sys2Proof.Machine
end

section
/-!
SUPPORT. Granules of the vector engine (R104, R105, R446, R447) and passes of the operand conditioner (R192): one rule for each way that an
execution of theirs can end.
-/
namespace Sys2Proof.Machine

variable {s u : State} {c : Nat} {a : Nat} {h : Bool} {bs : List Byte} {err : MemErr}

/-! ### Counters of the vector engine -/

/-- A field written with the value it holds. -/
theorem putField_getField (w : BitVec 64) (f : Field) (hf : f.lo + f.width ≤ 64) : putField w f (getField w f) = w := by
  apply BitVec.eq_of_toNat_eq
  apply Nat.eq_of_testBit_eq
  intro i
  rw [putField_testBit w f _ i hf]
  split
  · next hi =>
    rw [getField_testBit, Nat.add_sub_cancel' hi.1, decide_eq_true (by omega), Bool.true_and]
  · rfl

theorem counted_zero (ct : Nat) (s : State) : counted ct 0 s s := (putField_getField _ _ (by decide)).symm

theorem counted_cntBy (s : State) (ct n : Nat) : counted ct n s (s.cntBy ct n) := rd_setFld_here s ct _ _

/-- A count stands over what leaves its register alone. -/
theorem counted.near {e : Nat → Prop} {t : State} {ct n : Nat} (hc : counted ct n s t) (k : Near e t u) (he : ¬ e ct)
    (ho : observes ct = false) : counted ct n s u := (k.regs _ he ho).trans hc

theorem observes_vecReg (c : Nat) {d : Nat} (hd : d < 0x1000) : observes (0x408000 + d + 0x40000 * c) = false := by
  rw [observes_eq_false]; omega

/-- The cycles that a granule waited for stage memory are counted (R105, R488). -/
def State.portWaited (s : State) (c waited : Nat) : State :=
  if waited = 0 then s else (s.cntBy (Reg.VEC_PORT_WAIT_CNT c) waited).bumpClu c 0x0D 0 waited

theorem portWaited_near (s : State) (c waited : Nat) : Near (· = Reg.VEC_PORT_WAIT_CNT c) s (s.portWaited c waited) :=
  Near.ite (fun _ => Near.refl _ s) (fun _ => ((Near.refl (· = Reg.VEC_PORT_WAIT_CNT c) s).cntBy _ _ (.inl rfl)).bumpClu _ _ _ _)

theorem portWaited_counted (s : State) (c waited : Nat) : counted (Reg.VEC_PORT_WAIT_CNT c) waited s (s.portWaited c waited) := by
  unfold State.portWaited
  split
  · next h0 => rw [h0]; exact counted_zero _ s
  · exact (counted_cntBy s _ _).near ((Near.refl (fun _ => False) _).bumpClu c 0x0D 0 waited) id
      (observes_vecReg c (d := 0x50) (by decide))

/-- The tenant of a cluster is as before where its SEQ_STATUS is. -/
theorem Near.seqTenant {e : Nat → Prop} {t : State} (k : Near e s t) (he : ¬ e (Reg.SEQ_STATUS c)) : t.seqTenant c = s.seqTenant c :=
  k.fld _ he (observes_seqRegs (c := c) _ (.inr (.inr (.inl rfl))))

theorem seqTenant_portWaited (s : State) (c waited : Nat) : (s.portWaited c waited).seqTenant c = s.seqTenant c :=
  (portWaited_near s c waited).seqTenant (by simp only [Reg.SEQ_STATUS, Reg.VEC_PORT_WAIT_CNT]; omega)

theorem seqTenant_reexecCounted (s : State) (c : Nat) : (s.cnt (Reg.VEC_GRANULE_REEXEC_CNT c)).seqTenant c = s.seqTenant c :=
  fld_cnt_ne _ (by simp only [Reg.SEQ_STATUS, Reg.VEC_GRANULE_REEXEC_CNT]; omega)

/-! ### An execution of a granule ends -/

variable {j : VecJob}

/-- The granule that failed runs again, or waits for its unit's test first (R446, R447). -/
def VecJob.failed (j : VecJob) (waiting : Bool) : VecJob := { j with fails := j.fails + 1, waiting := waiting }

theorem vecFail_again (hf : j.fails < 2) (s : State) (c : Nat) (waiting : Bool) :
    s.vecFail c j waiting = s.setVec c (some (j.failed waiting)) := if_neg (by omega)

theorem vec_setVec (s : State) (c : Nat) (x : Option VecJob) : ((s.setVec c x).cl c).vec = x := by
  rw [State.setVec, cl_modCl_here]

theorem Detected.modCl {t : State} (hd : Detected s t) (c : Nat) (f : Cluster → Cluster) : Detected s (t.modCl c f) := hd

/-- A granule whose data is sound and whose residue check passes is written (R104). -/
theorem vecGranule_runs (hr : (s.meet err (s.seqTenant c)).readPieces (j.granuleReads j.granule) = (.ok bs, u)) :
    s.vecGranule c j false err = u.vecRun c j := by
  rw [State.vecGranule, hr]; rfl

/-- A failed residue check is charged, and the granule waits for the test of its unit (R447). -/
theorem vecGranule_residue (hr : (s.meet err (s.seqTenant c)).readPieces (j.granuleReads j.granule) = (.ok bs, u)) (hf : j.fails < 2) :
    ((s.vecGranule c j true err).cl c).vec = some (j.failed true) ∧ Detected u (s.vecGranule c j true err) := by
  have hrun : s.vecGranule c j true err = (u.charge 2 (unitId 4 c) (u.seqTenant c) 0).setVec c (some (j.failed true)) := by
    rw [State.vecGranule, hr, ← vecFail_again hf]; rfl
  rw [hrun]
  exact ⟨vec_setVec _ _ _, (charge_detected u (by decide) _ _ _).modCl c _⟩

/-- A detected error of the data is charged, and the granule runs again (R446). -/
theorem vecGranule_detected (residue : Bool) (hr : (s.meet err (s.seqTenant c)).readPieces (j.granuleReads j.granule) = (.detected h a, u))
    (hf : j.fails < 2) :
    ((s.vecGranule c j residue err).cl c).vec = some (j.failed false) ∧ Detected u (s.vecGranule c j residue err) := by
  have hrun : s.vecGranule c j residue err = (u.chargeMem h a (u.seqTenant c)).setVec c (some (j.failed false)) := by
    rw [State.vecGranule, hr, ← vecFail_again hf]
  rw [hrun]
  exact ⟨vec_setVec _ _ _, (chargeMem_detected u _ _ _).modCl c _⟩

/-! ### VEC_GRANULE and VEC_GRANULE_REEXEC -/

theorem exec_vecGranule {c : Fin 64} (residue : Bool) (waited : Nat) (err : MemErr) (hs : s.stopped = false) (hj : (s.cl c).vec = some j)
    (hw : j.waiting = false) :
    exec (.vecGranule c residue waited err) s = .next ((s.portWaited c waited).vecGranule c j residue err) := by
  show execVecGranule c residue waited err s = _
  rw [execVecGranule, hj]
  simp only [hw, hs, Bool.or_self, Bool.false_eq_true, if_false]
  rfl

theorem exec_vecGranuleReexec {c : Fin 64} (residue : Bool) (err : MemErr) (hs : s.stopped = false) (hj : (s.cl c).vec = some j)
    (hw : j.waiting = true) (ht : s.testing (unitId 4 c) = false) : exec (.vecGranuleReexec c residue err) s =
      .next ((s.cnt (Reg.VEC_GRANULE_REEXEC_CNT c)).vecGranule c { j with waiting := false } residue err) := by
  show execVecGranuleReexec c residue err s = _
  rw [execVecGranuleReexec, hj]
  simp only [hw, hs, ht, Bool.not_true, Bool.or_self, Bool.false_eq_true, if_false]

/-- A granule waits while its unit is TESTING (R453). -/
theorem vecGranuleReexec_testing {c : Fin 64} (residue : Bool) (err : MemErr) (hj : (s.cl c).vec = some j)
    (ht : s.testing (unitId 4 c) = true) : exec (.vecGranuleReexec c residue err) s = .next s := by
  show execVecGranuleReexec c residue err s = _
  rw [execVecGranuleReexec, hj]
  simp only [ht, Bool.or_true, Bool.true_or, if_true]

/-! ### What follows the granule that was written (R104, R137) -/

theorem Near.spendBy {e : Nat → Prop} {t : State} (k : Near e s t) (tenant i n : Nat) : Near e s (t.spendBy tenant i n) :=
  k.trans ⟨fun _ _ _ => rfl, rfl⟩

/-- The current granule is written; it and its lane operations count (R420, R488). -/
def State.granuleWritten (s : State) (c : Nat) (j : VecJob) : State :=
  ((s.vecEffect c j j.granule).bumpClu c 0x0C 0 1).spendBy (s.seqTenant c) 3 (j.laneOps j.granule)

theorem granuleWritten_near (s : State) (c : Nat) (j : VecJob) :
    Near (fun _ => False) (s.vecEffect c j j.granule) (s.granuleWritten c j) :=
  ((Near.refl _ _).bumpClu c _ _ _).spendBy _ _ _

theorem vecRun_next (hn : j.granule + 1 < j.granules) : u.vecRun c j =
    (u.granuleWritten c j).setVec c (some { j with granule := j.granule + 1, fails := 0, waiting := false }) := if_pos hn

theorem vecRun_last (hn : j.granules ≤ j.granule + 1) : u.vecRun c j =
    (((u.granuleWritten c j).setVec c none).cnt (Reg.VEC_OP_CNT c)).signalHeader c portVector j.entry 1 := if_neg (Nat.not_lt.mpr hn)

theorem vecRun_more (hn : j.granule + 1 < j.granules) : Near (fun _ => False)
    ((u.vecEffect c j j.granule).setVec c (some { j with granule := j.granule + 1, fails := 0, waiting := false })) (u.vecRun c j) := by
  rw [vecRun_next hn]
  exact (granuleWritten_near u c j).modCl c _

/-- After its last granule the instruction is counted and signals. -/
theorem vecRun_completes (hc : c < 64) (hn : j.granules ≤ j.granule + 1) (hp : signalPlain (u.vecEffect c j j.granule) c j.entry.sig) :
    counted (Reg.VEC_OP_CNT c) 1 (u.vecEffect c j j.granule) (u.vecRun c j) ∧
      Signalled (· = Reg.VEC_OP_CNT c) c j.entry portVector ((u.vecEffect c j j.granule).setVec c none) (u.vecRun c j) := by
  have hobs : observes (Reg.VEC_OP_CNT c) = false := observes_vecReg c (d := 0x40) (by decide)
  have htok : Reg.SEQ_TOKEN c j.entry.sig ≠ Reg.VEC_OP_CNT c := by simp only [Reg.SEQ_TOKEN, Reg.VEC_OP_CNT]; omega
  have hchip : Reg.IDM_BOARD0 ≠ Reg.VEC_OP_CNT c := by simp only [Reg.IDM_BOARD0, Reg.VEC_OP_CNT]; omega
  rw [vecRun_last hn]
  have hwrote := granuleWritten_near u c j
  generalize u.vecEffect c j j.granule = w at hp hwrote ⊢
  generalize u.granuleWritten c j = v at hwrote ⊢
  have hv : Near (· = Reg.VEC_OP_CNT c) (w.setVec c none) ((v.setVec c none).cnt (Reg.VEC_OP_CNT c)) :=
    ((hwrote.modCl c _).mono (fun _ => False.elim)).cnt _ (.inl rfl)
  have hplain : signalPlain (w.setVec c none) c j.entry.sig := hp.modCl rfl
  have hsig := signalHeader_signalled portVector hc (hplain.near hv htok)
  refine ⟨(hsig.rd id htok.symm hobs).trans ?_, hsig.after hv hp.1 htok hchip⟩
  have hold : (v.setVec c none).rd (Reg.VEC_OP_CNT c) = w.rd (Reg.VEC_OP_CNT c) := hwrote.regs _ id hobs
  rw [rd_cnt_here, hold, fld_of_rd _ hold]

/-! ### The operand conditioner (R192) -/

variable {k : CondJob}

/-- The pass that failed runs again, or waits for its unit's test first (R446, R447). -/
def CondJob.failed (k : CondJob) (waiting : Bool) : CondJob := { k with fails := k.fails + 1, waiting := waiting }

/-- The cluster's conditioner holds `x`. -/
def State.setCond (s : State) (c : Nat) (x : Option CondJob) : State := s.modCl c (fun q => { q with cond := x })

theorem cond_setCond (s : State) (c : Nat) (x : Option CondJob) : ((s.setCond c x).cl c).cond = x := by
  rw [State.setCond, cl_modCl_here]

theorem exec_conditionerPassEnd {c : Fin 64} (residue : Bool) (err : MemErr) (hk : (s.cl c).cond = some k)
    (ht : k.waiting = false ∨ s.testing (unitId 5 c) = false) :
    exec (.conditionerPassEnd c residue err) s = .next (s.condEnd c k residue err) := by
  have hgo : (k.waiting && s.testing (unitId 5 c)) = false := by rcases ht with ht | ht <;> simp [ht]
  show execConditionerPassEnd c residue err s = _
  rw [execConditionerPassEnd, hk]
  simp only [hgo, Bool.false_eq_true, if_false]

/-- A detected error of the source is charged, and the pass runs again (R446). -/
theorem condEnd_detected (residue : Bool)
    (hr : (s.meet err (s.seqTenant c)).readPieces (k.src.chunkPieces 0 k.src.total) = (.detected h a, u)) (hf : k.fails < 2) :
    s.condEnd c k residue err = (u.chargeMem h a (s.seqTenant c)).setCond c (some (k.failed false)) := by
  unfold State.condEnd
  simp only [hr, if_neg (show ¬ 3 ≤ k.fails + 1 by omega)]
  rfl

/-- A failed residue check is charged, and the pass waits for the test of its unit (R447). -/
theorem condEnd_residue (hr : (s.meet err (s.seqTenant c)).readPieces (k.src.chunkPieces 0 k.src.total) = (.ok bs, u)) (hf : k.fails < 2) :
    s.condEnd c k true err = (u.charge 3 (unitId 5 c) (s.seqTenant c) 0).setCond c (some (k.failed true)) := by
  unfold State.condEnd
  simp only [hr, if_neg (show ¬ 3 ≤ k.fails + 1 by omega)]
  rfl

/-- The destinations of a pass are written (R46, R48, R82). -/
def State.condWritten (s : State) (c : Nat) (k : CondJob) : State :=
  k.dests.foldl (fun v x => v.condWrite c k x.1 x.2.2.2) (s.spend 4 (k.src.count * k.dests.length))

theorem condEnd_writes (hr : (s.meet err (s.seqTenant c)).readPieces (k.src.chunkPieces 0 k.src.total) = (.ok bs, u)) :
    s.condEnd c k false err = ((u.condWritten c k).setCond c none).signalHeader c portMover k.entry 1 := by
  unfold State.condEnd
  simp only [hr]
  rfl

/-- A pass whose destinations are written leaves the conditioner free, and signals (R137). -/
theorem condDone_signalled {w : State} (hc : c < 64) (hp : signalPlain w c k.entry.sig) :
    (((w.setCond c none).signalHeader c portMover k.entry 1).cl c).cond = none ∧
      Signalled (fun _ => False) c k.entry portMover (w.setCond c none) ((w.setCond c none).signalHeader c portMover k.entry 1) := by
  have hplain : signalPlain (w.setCond c none) c k.entry.sig := hp.modCl rfl
  have hsig := signalHeader_signalled portMover hc hplain
  obtain ⟨pr, hcl⟩ := hsig.cluster
  exact ⟨by rw [hcl]; exact cond_setCond w c none, hsig⟩

/-! ### The statement -/

/-- Settles O28, one rule for each way in which a granule or a pass ends. -/
theorem unitPasses : Obligations.UnitPasses := by
  refine ⟨?_, ?_, ?_, ?_, ?_, ?_, ?_, ?_, ?_⟩
  · rintro s v u c waited err j bs - hs hj hw rfl hr
    rw [← seqTenant_portWaited s c waited] at hr
    exact ⟨portWaited_counted s c waited, portWaited_near s c waited,
      (exec_vecGranule false waited err hs hj hw).trans (congrArg _ (vecGranule_runs hr))⟩
  · rintro s v u c waited err j bs hs hj hw rfl hr - hf
    rw [← seqTenant_portWaited s c waited] at hr
    exact ⟨_, exec_vecGranule true waited err hs hj hw, vecGranule_residue hr hf⟩
  · rintro s v u c residue waited err j h a hs hj hw rfl hr - hf
    rw [← seqTenant_portWaited s c waited] at hr
    exact ⟨_, exec_vecGranule residue waited err hs hj hw, vecGranule_detected residue hr hf⟩
  · rintro u w c j rfl -
    exact ⟨vecRun_more, vecRun_completes c.isLt⟩
  · rintro s u c err j bs - hs hj hw ht hr
    rw [← seqTenant_reexecCounted s c] at hr
    have hexec := fun residue => exec_vecGranuleReexec (c := c) residue err hs hj hw ht
    have hrun := vecGranule_runs (j := { j with waiting := false }) hr
    refine ⟨counted_cntBy s _ 1, (hexec false).trans (congrArg _ hrun), fun _ hf => ?_⟩
    obtain ⟨hvec, hcount, -⟩ := vecGranule_residue (j := { j with waiting := false }) hr hf
    exact ⟨_, hexec true, hvec, hcount⟩
  · exact fun s c residue err j hj _ ht => vecGranuleReexec_testing residue err hj ht
  · rintro s u w c err k bs hk ht hr rfl - hp
    exact ⟨_, (exec_conditionerPassEnd false err hk ht).trans (congrArg _ (condEnd_writes hr)), condDone_signalled c.isLt hp⟩
  · rintro s u c err k bs hk ht hr - hf
    exact ⟨_, (exec_conditionerPassEnd true err hk ht).trans (congrArg _ (condEnd_residue hr hf)), cond_setCond _ _ _,
      (charge_detected u (by decide) _ _ _).modCl c _⟩
  · rintro s u c residue err k h a hk ht hr - hf
    exact ⟨_, (exec_conditionerPassEnd residue err hk ht).trans (congrArg _ (condEnd_detected residue hr hf)), cond_setCond _ _ _,
      ((chargeMem_detected u h a _).modCl c _).1⟩

end Sys2Proof.Machine
end

section
/-!
SUPPORT. What running an instruction may touch, step by step; a sound word of the sequencer up to its effect, with the registers its decode
and its header wait write; what the end of an instruction leaves in the PC, in SEQ_STATUS, in the tokens and in the cluster's record.
-/
namespace Sys2Proof.Machine

variable {e : Nat → Prop} {c : Nat} {s t u v : State}

/-! ### What an instruction may touch, in steps -/

theorem SeqRan.refl (c : Nat) (s : State) : SeqRan c s s := ⟨fun _ _ _ => rfl, rfl, fun _ _ => rfl, rfl⟩

theorem SeqRan.eq (h : SeqRan c s t) :
    t = { s with regs := t.regs, rings := t.rings, clu := t.clu, pw := { s.pw with acts := t.pw.acts, who := t.pw.who } } := by
  have hrest := h.rest
  rw [← hrest]
  rfl

/-- The record of the cluster after an instruction differs in what instructions change alone. -/
theorem SeqRan.record (h : SeqRan c s t) : t.cl c = { s.cl c with
    sreg := (t.cl c).sreg, preds := (t.cl c).preds, loops := (t.cl c).loops, ret := (t.cl c).ret
    hold := (t.cl c).hold, wdogFired := (t.cl c).wdogFired, prod := (t.cl c).prod } := by
  have hk := h.cluster
  rw [← hk]

theorem SeqRan.trans (h : SeqRan c s t) (k : SeqRan c t u) : SeqRan c s u := by
  refine ⟨fun off he ho => (k.regs off he ho).trans (h.regs off he ho), ?_, fun d hd => (k.others d hd).trans (h.others d hd), ?_⟩
  · rw [k.eq, h.eq]; rfl
  · rw [k.record, h.record]

theorem HeaderTaken.seqRan (h : HeaderTaken c s u) : SeqRan c s u :=
  (h.frame.mono headRegs_seqRegs).seqRan (by rw [h.cluster])

theorem SeqFinished.seqRan {pc : Nat} (h : SeqFinished c pc s t) : SeqRan c s t :=
  (HeaderTaken.refl c s).seqRan_done h

/-- Recording events, and writing registers of the sequencer. -/
theorem Near.seqRan (h : Near e s t) (he : ∀ off, e off → seqRegs c off) : SeqRan c s t := by
  refine ⟨fun off hs ho => h.regs off (fun x => hs (he off x)) ho, ?_, fun d _ => h.cl d, ?_⟩
  · rw [h.eq]; rfl
  · rw [h.cl]

/-- A change of the cluster's record in what instructions change. -/
theorem seqRan_modCl {f : Cluster → Cluster} (hf : { f (s.cl c) with
    sreg := (s.cl c).sreg, preds := (s.cl c).preds, loops := (s.cl c).loops, ret := (s.cl c).ret
    hold := (s.cl c).hold, wdogFired := (s.cl c).wdogFired, prod := (s.cl c).prod } = s.cl c) : SeqRan c s (s.modCl c f) :=
  (seqFrame_modCl _ s c f).seqRan (by rw [cl_modCl_here, hf])

/-! ### A sound word up to its effect (R132, R135, R136, R143, R176) -/

/-- Decode is free to take the word `w`, of opcode `op`; it passes checks 1 to 5 and its header wait is satisfied, whatever its
predicate. -/
structure WordSound (s : State) (c : Nat) (w : BitVec 128) (op : Nat) : Prop where
  can : s.canDecode c w = true
  free : (s.cl c).hold = none
  opcode : bitsOf w 127 120 = op
  sound : s.decodeCheck c w = none
  header : s.headerOk c (bitsOf w 111 104) = true

theorem Ready.wordSound {w : BitVec 128} {op : Nat} (h : Ready s c w op) : WordSound s c w op :=
  ⟨h.can, h.free, h.opcode, h.sound, h.header⟩

/-- A word that passes its checks is captured and counted, where its port has room. -/
theorem decode_sound {w : BitVec 128} {op port : Nat} (hcan : s.canDecode c w = true) (hfree : (s.cl c).hold = none)
    (hop : bitsOf w 127 120 = op) (hsound : s.decodeCheck c w = none) (hport : opPort op = some port)
    (hroom : port < 4 → ((s.cl c).queue port).length < 16) : s.decode c w op = .ok (s.capture_ c w, s.insnCounted c) := by
  have hw := decodeCheck_legal hsound
  have hc : (s.insnCounted c).decodeCheck c w = none := ((near_insnCounted s c).decodeCheck w).trans hsound
  have hfull : ¬ (wordIllegal w = false ∧ port < 4 ∧ 16 ≤ ((s.cl c).queue port).length) :=
    fun h => absurd (hroom h.2.1) (Nat.not_lt.mpr h.2.2)
  unfold State.insnCounted at hc
  simp only [State.decode, hcan, hop, hfree, hport, Option.getD_some, hfull, hc, State.insnCounted, Bool.true_eq_false, ne_eq,
    not_true_eq_false, and_false, or_false, if_false]

/-- The header wait touches the token it takes and the trace. -/
theorem rd_seqHeader {q : QEntry} {off : Nat} (hc : c < 64) (h : s.seqHeader c q = .ok u) (ht : off ≠ Reg.SEQ_TOKEN c q.wait)
    (ho : observes off = false) : u.rd off = s.rd off := by
  have hq : (s.takeQuantum c q.wait).rd off = s.rd off := by
    unfold State.takeQuantum
    split
    · rfl
    · exact rd_setFld_ne _ _ ht
  unfold State.seqHeader at h
  split at h
  · cases h
    split
    · exact (((Near.refl (fun _ => False) _).trace (show c < 80 by omega) _ _ _ _).regs off id ho).trans hq
    · exact hq
  · cases h

/-- `u` is `s` once decode has taken the word `w` and its header wait: the instruction is counted, of the tokens only the header's may
differ. -/
structure Headed (c : Nat) (w : BitVec 128) (s u : State) : Prop extends HeaderTaken c s u where
  count : counted (Reg.SEQ_INSN_CNT c) 1 s u
  others_rd : ∀ off, off ≠ Reg.SEQ_INSN_CNT c → off ≠ Reg.SEQ_TOKEN c (bitsOf w 111 104) → observes off = false → u.rd off = s.rd off

theorem counted_insnCounted (s : State) (c : Nat) : counted (Reg.SEQ_INSN_CNT c) 1 s (s.insnCounted c) :=
  (((Near.refl (fun _ => False) _).bumpClu c 0x02 0 1).regs _ id (observes_seqRegs (c := c) _ (.inl rfl))).trans (rd_cnt_here s _)

theorem token_ne_insnCnt (c i : Nat) : Reg.SEQ_TOKEN c i ≠ Reg.SEQ_INSN_CNT c := by
  simp only [Reg.SEQ_TOKEN, Reg.SEQ_INSN_CNT]; omega

/-- A sound word of the sequencer's own port comes to its effect where its predicate holds and its own checks pass, and completes where its
predicate is off (R143, R176). -/
theorem runSeq_sound {w : BitVec 128} {op : Nat} (hc : c < 64) (h : WordSound s c w op) (hop : opPort op = some portSeq) :
    ∃ u, Headed c w s u ∧ ∀ check effect off, ((s.capture_ c w).pred = true → check (s.insnCounted c) (s.capture_ c w) = none) →
      s.runSeq c w op check effect off =
        if (s.capture_ c w).pred then effect u (s.capture_ c w) else u.seqDone c (s.capture_ c w) (off (s.capture_ c w)) := by
  have hi := headerTaken_insnCounted s c
  have hok : (s.insnCounted c).headerOk c (s.capture_ c w).wait = true := by
    have hr : (s.insnCounted c).rd (Reg.SEQ_TOKEN c (bitsOf w 111 104)) = s.rd (Reg.SEQ_TOKEN c (bitsOf w 111 104)) :=
      (near_insnCounted s c).regs _ (token_ne_insnCnt c _) (observes_token (bitsOf_lt w 111 104))
    refine Eq.trans ?_ h.header
    show (_ == 0 || decide (State.fld _ _ _ ≤ State.fld _ _ _)) = _
    rw [State.headerOk, State.quantum, State.tok, ← fld_of_rd _ hr, ← fld_of_rd _ hr]
    rfl
  obtain ⟨u, hu, hut⟩ := seqHeader_taken (q := s.capture_ c w) hc hok (hi.cluster ▸ h.free)
  have hdec := decode_sound h.can h.free h.opcode h.sound hop (fun hp => absurd hp (by decide))
  have hrd := fun off (hne : off ≠ Reg.SEQ_TOKEN c (bitsOf w 111 104)) ho => rd_seqHeader (off := off) hc hu hne ho
  refine ⟨u, ⟨hi.trans hut, ?_, fun off h1 h2 ho => ?_⟩, fun check effect off hchk => ?_⟩
  · exact (hrd _ (token_ne_insnCnt c _).symm (observes_seqRegs (c := c) _ (.inl rfl))).trans (counted_insnCounted s c)
  · exact (hrd off h2 ho).trans ((near_insnCounted s c).regs off h1 ho)
  · have hnone : (if (s.capture_ c w).pred then check (s.insnCounted c) (s.capture_ c w) else none) = none := by
      split
      · next hp => exact hchk hp
      · rfl
    simp only [State.runSeq, hdec, hnone, hu]

/-- So does a ready one. -/
theorem runSeq_headed {w : BitVec 128} {op : Nat} (hc : c < 64) (h : Ready s c w op) (hop : opPort op = some portSeq) :
    ∃ u, Headed c w s u ∧ ∀ check effect off, check (s.insnCounted c) (s.capture_ c w) = none →
      s.runSeq c w op check effect off = effect u (s.capture_ c w) := by
  obtain ⟨u, hu, hrun⟩ := runSeq_sound hc h.wordSound hop
  exact ⟨u, hu, fun check effect off hchk => (hrun check effect off (fun _ => hchk)).trans (if_pos h.pred)⟩

/-! ### Signals leave other registers alone (R137, R138) -/

theorem rd_addOne_ne {k n off : Nat} (peer : BitVec 64) (hc : c < 64) (hk : k < 256) (hfit : s.tok c k + n < 2 ^ 24)
    (hne : off ≠ Reg.SEQ_TOKEN c k) (ho : observes off = false) : (s.addOne c k n peer).rd off = s.rd off := by
  by_cases h0 : k = 0
  · rw [State.addOne, if_pos h0]
  · exact (addOne_near peer hc hk h0 hfit).2.regs off hne ho

/-- A signal and its forward touch their two tokens. -/
theorem rd_addToken_ne {k off : Nat} (peer : BitVec 64) (hc : c < 64) (hk : k < 256) (h1 : s.tok c k + 2 < 2 ^ 24)
    (h2 : s.tok c (s.fld (Reg.SEQ_TOKEN c k) Fld.SEQ_TOKEN_FWD) + 2 < 2 ^ 24) (hne : off ≠ Reg.SEQ_TOKEN c k)
    (hfwd : off ≠ Reg.SEQ_TOKEN c (s.fld (Reg.SEQ_TOKEN c k) Fld.SEQ_TOKEN_FWD)) (ho : observes off = false) :
    (s.addToken c k 1 peer).rd off = s.rd off := by
  unfold State.addToken
  split
  · rfl
  · have hf := fwd_lt s (Reg.SEQ_TOKEN c k)
    have ht := (addOne_counted (s := s) (n := 1) peer hc hk (by omega)).2.2 _ hf
    exact (rd_addOne_ne peer hc hf (by omega) hfwd ho).trans (rd_addOne_ne peer hc hk (by omega) hne ho)

/-! ### What the end of an instruction leaves -/

theorem token_ne_status (c d i : Nat) (hi : i < 256) : Reg.SEQ_TOKEN c i ≠ Reg.SEQ_STATUS d := by
  simp only [Reg.SEQ_TOKEN, Reg.SEQ_STATUS]; omega

theorem pc_ne_status (c d : Nat) : Reg.SEQ_PC c ≠ Reg.SEQ_STATUS d := by simp only [Reg.SEQ_PC, Reg.SEQ_STATUS]; omega

/-- Where decode goes on: the innermost loop decides (R144, R205). -/
theorem goto_backEdge (s : State) (c pc : Nat) : (s.goto c pc).cl c = (Cluster.backEdge 9 (s.cl c) pc).2 ∧
    (s.goto c pc).rd (Reg.SEQ_PC c) = BitVec.ofNat 64 (Cluster.backEdge 9 (s.cl c) pc).1 := by
  unfold State.goto
  refine ⟨cl_setCl_here s c _, ?_⟩
  rw [(seqFrame_showLoops _ c).regs _ (pc_ne_status c c) (observes_seqRegs (c := c) _ (.inr (.inl rfl))), State.setPc, rd_wr_here]

/-- A field of SEQ_STATUS beside LOOP_DEPTH and SEGMENT. -/
def besideLoops (f : Field) : Prop :=
  (f.lo + f.width ≤ Fld.SEQ_STATUS_LOOP_DEPTH.lo ∨ Fld.SEQ_STATUS_LOOP_DEPTH.lo + Fld.SEQ_STATUS_LOOP_DEPTH.width ≤ f.lo) ∧
    (f.lo + f.width ≤ Fld.SEQ_STATUS_SEGMENT.lo ∨ Fld.SEQ_STATUS_SEGMENT.lo + Fld.SEQ_STATUS_SEGMENT.width ≤ f.lo)

theorem fld_showLoops (s : State) (c : Nat) {f : Field} (hf : besideLoops f) :
    (s.showLoops c).fld (Reg.SEQ_STATUS c) f = s.fld (Reg.SEQ_STATUS c) f :=
  (fld_setFld_beside _ _ _ _ _ (by decide) hf.2).trans (fld_setFld_beside _ _ _ _ _ (by decide) hf.1)

theorem fld_goto (s : State) (c pc : Nat) {f : Field} (hf : besideLoops f) :
    (s.goto c pc).fld (Reg.SEQ_STATUS c) f = s.fld (Reg.SEQ_STATUS c) f :=
  (fld_showLoops _ c hf).trans (fld_wr_ne _ _ (pc_ne_status c c).symm)

/-- The cluster's record as an instruction ends: nothing is held, and `pr` are the producers of the tokens. -/
def Cluster.ended (k : Cluster) (pr : Tab (BitVec 64)) : Cluster := { k with hold := none, wdogFired := false, prod := pr }

/-- `t` is `s` once an instruction of cluster `c` that signals the token of `w` has completed, and decode goes on at `pc`, or where the
innermost loop sends it. -/
structure SeqEnded (c : Nat) (w : BitVec 128) (pc : Nat) (s t : State) : Prop where
  ended : SeqFinished c pc s t
  jumped : ∃ pr, t.cl c = (Cluster.backEdge 9 ((s.cl c).ended pr) pc).2 ∧
    t.rd (Reg.SEQ_PC c) = BitVec.ofNat 64 (Cluster.backEdge 9 ((s.cl c).ended pr) pc).1
  status : ∀ f, besideLoops f → t.fld (Reg.SEQ_STATUS c) f = s.fld (Reg.SEQ_STATUS c) f
  rd : ∀ off, off ≠ Reg.SEQ_PC c → off ≠ Reg.SEQ_STATUS c → off ≠ Reg.SEQ_TOKEN c (bitsOf w 103 96) →
    off ≠ Reg.SEQ_TOKEN c (s.fld (Reg.SEQ_TOKEN c (bitsOf w 103 96)) Fld.SEQ_TOKEN_FWD) → observes off = false → t.rd off = s.rd off

theorem rd_goto_ne (s : State) (c pc : Nat) {off : Nat} (h1 : off ≠ Reg.SEQ_PC c) (h2 : off ≠ Reg.SEQ_STATUS c)
    (ho : observes off = false) : (s.goto c pc).rd off = s.rd off := by
  unfold State.goto
  exact ((seqFrame_showLoops _ c).regs off h2 ho).trans (rd_wr_ne _ h1)

theorem seqDone_ended (s : State) (q : QEntry) (pc : Nat) (hc : c < 64) (hfit : signalFits s c q.word) :
    SeqEnded c q.word pc s (s.seqDone c q pc) := by
  have hfin := seqDone_finished s q pc hc hfit
  have hsig := bitsOf_lt q.word 103 96
  refine ⟨hfin, ?_, fun f hf => ?_, fun off h1 h2 h3 h4 ho => ?_⟩
  · obtain ⟨-, pr, hadd⟩ := addToken_counted (s := s.modCl c (fun k => { k with hold := none, wdogFired := false }))
      (s.localPeer c portSeq q.pc) hc hsig hfit.1 hfit.2
    obtain ⟨hcl, hpc⟩ := goto_backEdge ((s.modCl c (fun k => { k with hold := none, wdogFired := false })).addToken c q.sig 1
      (s.localPeer c portSeq q.pc)) c pc
    rw [cl_modCl_here] at hadd
    rw [show State.cl (State.addToken _ c q.sig 1 _) c = _ from hadd] at hcl hpc
    exact ⟨pr, hcl, hpc⟩
  · refine (fld_goto _ c pc hf).trans (fld_of_rd _ ?_)
    exact rd_addToken_ne (s := s.modCl c _) _ hc hsig hfit.1 hfit.2 (token_ne_status c c _ hsig).symm
      (token_ne_status c c _ (fwd_lt s _)).symm (observes_seqRegs (c := c) _ (.inr (.inr (.inl rfl))))
  · exact (rd_goto_ne _ c pc h1 h2 ho).trans (rd_addToken_ne (s := s.modCl c _) _ hc hsig hfit.1 hfit.2 h3 h4 ho)

/-- Without a loop decode goes on at `pc`, and of the cluster's record the hold and the producers alone differ. -/
theorem SeqEnded.no_loops {w : BitVec 128} {pc : Nat} (h : SeqEnded c w pc s t) (hl : (s.cl c).loops = []) :
    (∃ pr, t.cl c = (s.cl c).ended pr) ∧ t.rd (Reg.SEQ_PC c) = BitVec.ofNat 64 pc := by
  obtain ⟨pr, hcl, hpc⟩ := h.jumped
  rw [backEdge_no_loops (k := (s.cl c).ended pr) 8 pc hl] at hcl hpc
  exact ⟨⟨pr, hcl⟩, hpc⟩

theorem SeqEnded.seqRan {w : BitVec 128} {pc : Nat} (h : SeqEnded c w pc s t) : SeqRan c s t := h.ended.seqRan

theorem insnCnt_ne_pc_status (c : Nat) : Reg.SEQ_INSN_CNT c ≠ Reg.SEQ_PC c ∧ Reg.SEQ_INSN_CNT c ≠ Reg.SEQ_STATUS c := by
  simp only [Reg.SEQ_INSN_CNT, Reg.SEQ_PC, Reg.SEQ_STATUS]; omega

end Sys2Proof.Machine
end

section
/-!
SUPPORT. Two states of the model that no rule rules out and two statements overlook: device memory that reaches past the start of the stages,
and a commit that lost the granule a host copy rewrites.
-/
namespace Sys2Proof.Machine

/-- The first address of stage memory. -/
def stage0 : Nat := 0x10000000000

/-- MOV.S LOAD of s7 from the address in s5. -/
def stageLoad : BitVec 128 := BitVec.ofNat 128 (0x33 * 2 ^ 120 + 3 * 2 ^ 116 + 2 * 2 ^ 93 + 7 * 2 ^ 88 + 5 * 2 ^ 82)

/-- Cluster 0 runs that LOAD of the first bytes of its stage for T1, while MEM_TOP reaches past the stages: the address lies in device
memory (R210), and the detection code of its burst fails. -/
def loadPastTop : State :=
  let regs : List (Nat × BitVec 64) := [
    (Reg.SEQ_STATUS 0, putField (putField (putField 0 Fld.SEQ_STATUS_STATE 1) Fld.SEQ_STATUS_TENANT 1) Fld.SEQ_STATUS_CTX 1),
    (Reg.SEQ_STREAM_LEN 0 0 0, putField 0 Fld.SEQ_STREAM_LEN_LEN 1), (Reg.SEQ_STREAM_BASE 0 0 0, putField 0 Fld.SEQ_STREAM_BASE_BASE 0x10000),
    (Reg.MEM_RGN_W0 1 0, putField (putField (putField 0 Fld.MEM_RGN_W0_VALID 1) Fld.MEM_RGN_W0_RD 1) Fld.MEM_RGN_W0_BASE stage0),
    (Reg.MEM_RGN_W1 1 0, putField 0 Fld.MEM_RGN_W1_LIMIT (stage0 + 0xFFFFFFFFFF)), (Reg.MEM_TOP, putField 0 Fld.MEM_TOP_TOP (2 * stage0))]
  { (regs.foldl (fun (s : State) x => s.wr x.1 x.2) State.reset).setCl 0
      { fetched := [(0, stageLoad)], sreg := [(5, BitVec.ofNat 64 stage0)] } with
    codeErr := [(stage0 / 64, 1)] }

/-- COPY_IN of 64 bytes to 0x10000, in progress on ring 0 of the tenant 1. -/
def copyOver : HostCmd := { ring := 0, cid := 0, opcode := 2, flags := 0, args := [0, 0x10000, 64, 0], started := true, copying := true }

/-- The chip with that command, a region of T1 over device memory, and a commit of the pseudo-channel of 0x10000 whose granules nothing has
rewritten. -/
def lostGranule : State :=
  let regs : List (Nat × BitVec 64) := [
    (Reg.HIF_RING_OWN 0, putField (putField 0 Fld.HIF_RING_OWN_TEN 1) Fld.HIF_RING_OWN_ASSIGNED 1),
    (Reg.MEM_RGN_W0 1 0, putField (putField 0 Fld.MEM_RGN_W0_VALID 1) Fld.MEM_RGN_W0_WR 1),
    (Reg.MEM_RGN_W1 1 0, putField 0 Fld.MEM_RGN_W1_LIMIT (stage0 - 1))]
  { regs.foldl (fun (s : State) x => s.wr x.1 x.2) State.reset with
    hostCmds := [copyOver]
    commits := [⟨(hbmLocate [] 0x10000).1, [], []⟩] }

theorem loadPastTop_ready : Ready loadPastTop 0 stageLoad 0x33 := by
  constructor <;> decide +kernel

theorem loadPastTop_fits : signalFits loadPastTop 0 stageLoad := by unfold signalFits; decide +kernel

/-- The LOAD meets the failing burst: it is detected and counted (R216). -/
theorem loadPastTop_detects : loadPastTop.rd Reg.GLB_DETECT_CNT = 0 ∧
    (loadPastTop.runSeq 0 stageLoad 0x33 (movsCheck 0) (State.doMovs 0) QEntry.nextPc).rd Reg.GLB_DETECT_CNT = 1 := by decide +kernel

/-- The copy writes the whole burst, which makes its code right again and leaves the commit's record changed (R222). -/
theorem lostGranule_healed : (lostGranule.copyChunk 0 0 [] .none).commits ≠ lostGranule.commits := by decide +kernel

theorem lostGranule_plain : plainHbm lostGranule 0x10000 64 := by unfold plainHbm; decide +kernel

/-- Refutes O24: a LOAD of stage memory is not the read of an intact stage word where MEM_TOP reaches past the stages. The address is then one
of device memory, whose burst may fail its detection code; the error is detected and counted, and decode holds. -/
theorem not_movScalar : ¬ Obligations.MovScalar := by
  unfold Obligations.MovScalar
  rintro ⟨-, hload, -, -⟩
  obtain ⟨t, ht, -, hran⟩ := hload loadPastTop 0 stageLoad loadPastTop_ready loadPastTop_fits (by decide +kernel) (by decide +kernel)
    (by decide +kernel) (by decide +kernel) (by decide +kernel) (by decide +kernel) (by decide +kernel)
  have hcount := hran.regs Reg.GLB_DETECT_CNT (not_seqRegs_of_lt (by decide)) (by decide)
  obtain ⟨hbefore, hafter⟩ := loadPastTop_detects
  obtain rfl := Host.Outcome.next.inj ht
  exact absurd (hafter.symm.trans (hcount.trans hbefore)) (by decide)

/-- Refutes O56: a chunk of COPY_IN that rewrites a whole burst of a granule that a commit lost heals the burst in the commit's record too,
which the frame of the copy does not let differ. -/
theorem not_hostCommands : ¬ Obligations.HostCommands := by
  unfold Obligations.HostCommands
  rintro ⟨-, -, -, -, -, -, -, -, -, hcopy, -⟩
  obtain ⟨-, hheld⟩ := hcopy lostGranule 0 0 copyOver [] (List.replicate 64 0) .none 64 0x10000 _ (by decide +kernel) (by decide +kernel)
    (by decide +kernel) (by decide +kernel) (by decide +kernel) rfl (by decide +kernel)
  obtain ⟨-, hin, -⟩ := hheld (by decide +kernel)
  obtain ⟨-, -, hplain⟩ := hin (by decide +kernel) (by decide +kernel)
  obtain ⟨t, ht, -, hnear⟩ := hplain rfl lostGranule_plain
  have hcommits := congrArg State.commits hnear.rest
  change t.commits = lostGranule.commits at hcommits
  obtain rfl := Host.Outcome.next.inj ht
  exact lostGranule_healed hcommits

end Sys2Proof.Machine
end

section
/-!
SUPPORT. WAIT and SIGNAL (R136 to R138, R202 to R204).
-/
namespace Sys2Proof.Machine

variable {c : Nat} {s t u v : State}

/-! ### WAIT (R136, R204) -/

/-- What the port heads claim of a token is a matter of its register and the cluster's queues. -/
theorem claims_congr {k : Nat} (hc : u.cl c = s.cl c) (hr : u.rd (Reg.SEQ_TOKEN c k) = s.rd (Reg.SEQ_TOKEN c k)) :
    u.claims c k = s.claims c k := by
  have hq : u.quantum c k = s.quantum c k := fld_of_rd _ hr
  have ht : u.tok c k = s.tok c k := fld_of_rd _ hr
  rw [State.claims, hc, hq, ht]
  rfl

theorem tok_of_rd {k : Nat} (hr : u.rd (Reg.SEQ_TOKEN c k) = s.rd (Reg.SEQ_TOKEN c k)) : u.tok c k = s.tok c k := fld_of_rd _ hr

/-- A token that loses `n`, recorded or not: decode goes on as after a header wait. -/
theorem headerTaken_lowered (s : State) (c : Nat) {k : Nat} (n : Nat) (hk : k < 256) :
    HeaderTaken c s (s.setFld (Reg.SEQ_TOKEN c k) Fld.SEQ_TOKEN_COUNT (s.tok c k - n)) := by
  refine ⟨seqFrame_setFld _ _ _ _ _ (headRegs_token hk), rfl, fun i _ => ?_, fun i _ => ?_⟩
  · by_cases hi : i = k
    · subst hi
      rw [State.tok, fld_setFld_here _ _ _ _ (by decide)]
      exact (Nat.mod_le _ _).trans (Nat.sub_le _ _)
    · exact (fld_setFld_ne _ _ _ (fun h => hi (token_inj h))).le
  · by_cases hi : i = k
    · subst hi
      exact fld_setFld_beside _ _ _ _ _ (by decide) (by decide)
    · exact fld_setFld_ne _ _ _ (fun h => hi (token_inj h))

theorem tok_lowered (s : State) (c k n : Nat) :
    (s.setFld (Reg.SEQ_TOKEN c k) Fld.SEQ_TOKEN_COUNT (s.tok c k - n)).tok c k = s.tok c k - n := by
  have hlt : s.tok c k < 2 ^ 24 := Nat.mod_lt _ (by decide)
  exact (fld_setFld_here _ _ _ _ (by decide)).trans (Nat.mod_eq_of_lt (by exact lt_of_le_of_lt (Nat.sub_le _ _) hlt))

/-- WAIT on a token with enough takes its count and completes; every wait is recorded where the ring asks for it. -/
theorem doWait_served {q : QEntry} {k n : Nat} (hc : c < 64) (hk : k = q.fld 95 88) (hn : n = q.fld 87 64) (h0 : k ≠ 0)
    (hfit : n + s.claims c k ≤ s.tok c k) :
    ∃ v, HeaderTaken c s v ∧ v.tok c k = s.tok c k - n ∧ State.doWait c s q = v.seqDone c q q.nextPc := by
  have hk' : k < 256 := hk ▸ bitsOf_lt q.word 95 88
  have hlow := headerTaken_lowered s c n hk'
  have htok := tok_lowered s c k n
  simp only [State.doWait, ← hk, ← hn, if_neg h0, if_pos hfit]
  generalize s.setFld (Reg.SEQ_TOKEN c k) Fld.SEQ_TOKEN_COUNT (s.tok c k - n) = x at hlow htok
  split
  · refine ⟨_, hlow.trans (headerTaken_trace x c (show c < 80 by omega) 0x01 k 0 _), ?_, rfl⟩
    exact (((Near.refl (fun _ => False) x).trace (show c < 80 by omega) _ _ _ _).tok hk' id).trans htok
  · exact ⟨x, hlow, htok, rfl⟩

/-- WAIT on a token with less holds decode. -/
theorem doWait_short {q : QEntry} {k n : Nat} (hk : k = q.fld 95 88) (hn : n = q.fld 87 64) (h0 : k ≠ 0)
    (hless : s.tok c k < n + s.claims c k) : State.doWait c s q = s.seqHold c q (.wait k n) := by
  simp only [State.doWait, ← hk, ← hn, if_neg h0, if_neg (Nat.not_le.mpr hless)]

/-- The port heads claim no more of a token than it has (R204). -/
theorem claims_le_tok (s : State) (c k : Nat) : s.claims c k ≤ s.tok c k := by
  have hfold : ∀ (l : List (List QEntry)) (m : Nat), m ≤ s.tok c k → l.foldl (fun n q =>
      match q with
      | e :: _ => if e.wait = k ∧ n + s.quantum c k ≤ s.tok c k then n + s.quantum c k else n
      | [] => n) m ≤ s.tok c k := by
    intro l
    induction l with
    | nil => exact fun m hm => hm
    | cons q l ih =>
      intro m hm
      refine ih _ ?_
      dsimp only
      split
      · split <;> omega
      · exact hm
  exact hfold _ 0 (Nat.zero_le _)

theorem zeroCount_of_ne {q : QEntry} (s : State) (h : q.fld 87 64 ≠ 0) : zeroCount s q = none := if_neg h

/-- The header of an instruction leaves a token that it does not wait on. -/
theorem Headed.rd_token {w : BitVec 128} (h : Headed c w s u) {k : Nat} (hk : k < 256) (hne : bitsOf w 111 104 ≠ k) :
    u.rd (Reg.SEQ_TOKEN c k) = s.rd (Reg.SEQ_TOKEN c k) :=
  h.others_rd _ (token_ne_insnCnt c k) (fun x => hne (token_inj x).symm) (observes_token hk)

theorem wait_takes (s : State) (c : Fin 64) (w : BitVec 128) (k n : Nat) (h : Ready s c w 0x50) (hf : signalFits s c w)
    (hk : k = bitsOf w 95 88) (hn : n = bitsOf w 87 64) (h0 : k ≠ 0) (hn0 : n ≠ 0) (hfit : n + s.claims c k ≤ s.tok c k)
    (hw : bitsOf w 111 104 ≠ k) : Completes (.wait c w) s (fun t =>
      (bitsOf w 103 96 ≠ k → s.fld (Reg.SEQ_TOKEN c (bitsOf w 103 96)) Fld.SEQ_TOKEN_FWD ≠ k → t.tok c k = s.tok c k - n) ∧
      (t.cl c).hold = none ∧ ((s.cl c).loops = [] → t.rd (Reg.SEQ_PC c) = s.rd (Reg.SEQ_PC c) + 1) ∧ SeqRan c s t) := by
  obtain ⟨u, hu, hrun⟩ := runSeq_headed c.isLt h (by decide)
  have hk' : k < 256 := hk ▸ bitsOf_lt w 95 88
  have hr := hu.rd_token hk' hw
  have htok := tok_of_rd hr
  obtain ⟨v, huv, hv, heff⟩ := doWait_served (q := s.capture_ c w) c.isLt hk hn h0 (by rw [claims_congr hu.cluster hr, htok]; exact hfit)
  have hsv := hu.toHeaderTaken.trans huv
  have hend := seqDone_ended v (s.capture_ c w) (s.capture_ c w).nextPc c.isLt (hsv.signalFits hf)
  have hrun' := (hrun zeroCount (State.doWait c) QEntry.nextPc (zeroCount_of_ne _ (show bitsOf w 87 64 ≠ 0 from hn ▸ hn0))).trans heff
  refine ⟨_, congrArg Host.Outcome.next hrun', fun h1 h2 => ?_, hsv.done c.isLt hf⟩
  have hkeep := hend.rd _ (by simp only [Reg.SEQ_TOKEN, Reg.SEQ_PC]; omega) (token_ne_status c c k hk') (fun x => h1 (token_inj x).symm)
    (fun x => h2 ((hsv.forwards _ (bitsOf_lt w 103 96)).symm.trans (token_inj x).symm)) (observes_token hk')
  rw [tok_of_rd hkeep, hv, htok]

theorem wait_holds (s : State) (c : Fin 64) (w : BitVec 128) (k n : Nat) (h : Ready s c w 0x50) (hk : k = bitsOf w 95 88)
    (hn : n = bitsOf w 87 64) (h0 : k ≠ 0) (hless : s.tok c k < n + s.claims c k) (hw : bitsOf w 111 104 ≠ k) :
    Completes (.wait c w) s (fun t => t.tok c k = s.tok c k ∧
      (t.cl c).hold = some (Hold.mk (.wait k n) (s.capture_ c w) s.now) ∧ t.rd (Reg.SEQ_PC c) = s.rd (Reg.SEQ_PC c) ∧ SeqRan c s t) := by
  obtain ⟨u, hu, hrun⟩ := runSeq_headed c.isLt h (by decide)
  have hr := hu.rd_token (hk ▸ bitsOf_lt w 95 88) hw
  have hn0 : n ≠ 0 := fun h => absurd (claims_le_tok s c k) (by omega)
  have heff := doWait_short (s := u) (q := s.capture_ c w) hk hn h0 (by rw [claims_congr hu.cluster hr, tok_of_rd hr]; exact hless)
  have hrun' := (hrun zeroCount (State.doWait c) QEntry.nextPc (zeroCount_of_ne _ (show bitsOf w 87 64 ≠ 0 from hn ▸ hn0))).trans heff
  exact ⟨_, congrArg Host.Outcome.next hrun', tok_of_rd hr, hu.held _ _⟩

/-! ### SIGNAL (R202, R203) -/

/-- The registers of another cluster's sequencer are not written by this one's header. -/
theorem Headed.rd_other {w : BitVec 128} (h : Headed c w s u) {d off : Nat} (hd : d ≠ c) (ho : seqRegs d off) : u.rd off = s.rd off := by
  refine h.rd ?_ (observes_seqRegs off ho)
  rintro (rfl | ⟨i, hi, rfl⟩) <;> obtain h | h | h | ⟨j, hj, h⟩ := ho <;>
    simp only [Reg.SEQ_INSN_CNT, Reg.SEQ_PC, Reg.SEQ_STATUS, Reg.SEQ_TOKEN] at h <;> omega

/-- A signal that reaches a cluster of the tenant whose decode is not held raises its token (R202). -/
theorem signalTo_raises {ten d k n : Nat} (peer : BitVec 64) (hs : ∀ x ∈ [2, 3, 5], s.ctxState ten d ≠ x)
    (hten : s.seqState d = 0 ∨ s.seqTenant d = ten) (hd : d < 64) (hk : k < 256) (h0 : k ≠ 0) (hfit : s.tok d k + n < 2 ^ 24)
    (hfwd : s.fld (Reg.SEQ_TOKEN d k) Fld.SEQ_TOKEN_FWD = 0) (hfree : (s.cl d).hold = none) :
    s.signalTo ten d k n peer = s.addOne d k n peer := by
  have hcl := (addOne_near peer hd hk h0 hfit).2.cl d
  have hheld : ¬ (s.ctxState ten d = 2 ∨ s.ctxState ten d = 3 ∨ s.ctxState ten d = 5) := by simpa using hs
  simp only [State.signalTo, hheld, if_false, show seqIdle = 0 from rfl, hten, if_true, State.signal, State.addToken, h0, hfwd, addOne_zero]
  refine releaseHold_of_free ?_
  rw [hcl, hold_prodSet, hfree]

/-- The registers of another cluster's sequencer are not this one's. -/
theorem not_seqRegs_other {d off : Nat} (hd : d ≠ c) (ho : seqRegs d off) : ¬ seqRegs c off := by
  rintro (rfl | rfl | rfl | ⟨i, hi, rfl⟩) <;> obtain h | h | h | ⟨j, hj, h⟩ := ho <;>
    simp only [Reg.SEQ_INSN_CNT, Reg.SEQ_PC, Reg.SEQ_STATUS, Reg.SEQ_TOKEN] at h <;> omega

theorem rd_tokenRaised_ne {d k n off : Nat} {peer : BitVec 64} (h : off ≠ Reg.SEQ_TOKEN d k) :
    (s.tokenRaised d k n peer).rd off = s.rd off := rd_setFld_ne _ _ h

theorem rd_tokenRaised_here (s : State) (d k n : Nat) (peer : BitVec 64) : (s.tokenRaised d k n peer).rd (Reg.SEQ_TOKEN d k) =
    putField (s.rd (Reg.SEQ_TOKEN d k)) Fld.SEQ_TOKEN_COUNT (min (s.tok d k + n) (2 ^ 24 - 1)) := rd_setFld_here s _ _ _

theorem cl_tokenRaised_here (s : State) (d k n : Nat) (peer : BitVec 64) :
    (s.tokenRaised d k n peer).cl d = { s.cl d with prod := (s.cl d).prod.set 0 k peer } := cl_modCl_here _ d _

theorem cl_tokenRaised_ne (s : State) {d e : Nat} (k n : Nat) (peer : BitVec 64) (h : e ≠ d) : (s.tokenRaised d k n peer).cl e = s.cl e :=
  cl_setCl_ne _ _ h

/-- Raising a token of another cluster is apart from what running an instruction touches. -/
theorem SeqRan.tokenRaised {d k n : Nat} {peer : BitVec 64} (h : SeqRan c s u) (hd : d ≠ c) (hk : k < 256) :
    SeqRan c (s.tokenRaised d k n peer) (u.tokenRaised d k n peer) := by
  have hr : u.rd (Reg.SEQ_TOKEN d k) = s.rd (Reg.SEQ_TOKEN d k) :=
    h.regs _ (not_seqRegs_other hd (seqRegs_token hk)) (observes_token hk)
  refine ⟨fun off he ho => ?_, ?_, fun d' hd' => ?_, ?_⟩
  · by_cases hoff : off = Reg.SEQ_TOKEN d k
    · rw [hoff, rd_tokenRaised_here, rd_tokenRaised_here, hr, tok_of_rd hr]
    · rw [rd_tokenRaised_ne hoff, rd_tokenRaised_ne hoff, h.regs off he ho]
  · rw [h.eq]; rfl
  · by_cases hdd : d' = d
    · rw [hdd, cl_tokenRaised_here, cl_tokenRaised_here, h.others d hd]
    · rw [cl_tokenRaised_ne _ _ _ _ hdd, cl_tokenRaised_ne _ _ _ _ hdd, h.others d' hd']
  · rw [cl_tokenRaised_ne _ _ _ _ hd.symm, cl_tokenRaised_ne _ _ _ _ hd.symm, h.cluster]

/-- A token that has room is raised, and what else differs records it. -/
theorem addOne_tokenRaised {k n : Nat} (peer : BitVec 64) (hc : c < 64) (h0 : k ≠ 0) (hfit : s.tok c k + n < 2 ^ 24) :
    Near (fun _ => False) (s.tokenRaised c k n peer) (s.addOne c k n peer) := by
  have hb := (Near.refl (fun _ => False) (s.tokenRaised c k n peer)).bumpClu c 0x13 k 1
  rcases addOne_fits peer h0 hfit with h | h <;> rw [h]
  · exact hb
  · exact hb.trigger (by omega) 3

/-- The header signal of cluster `c` fits over what leaves its tokens alone. -/
theorem signalFits_of_rd {w : BitVec 128} (h : signalFits s c w) (hr : ∀ i, i < 256 → t.rd (Reg.SEQ_TOKEN c i) = s.rd (Reg.SEQ_TOKEN c i)) :
    signalFits t c w :=
  signalFits_congr h (fun i hi => (tok_of_rd (hr i hi)).le) (fun i hi => fld_of_rd _ (hr i hi))

theorem HeaderTaken.chip (h : HeaderTaken c s u) : u.chip = s.chip := h.fld_low _ (by decide) (by decide)

theorem HeaderTaken.ctxState (h : HeaderTaken c s u) {ten d : Nat} (hten : ten < 4) (hd : d < 64) : u.ctxState ten d = s.ctxState ten d := by
  refine h.fld_low _ ?_ (observes_eq_false.mpr ?_) <;> simp only [Reg.MOV_CTX_STATUS] <;> omega

theorem signalCheck_passes {q : QEntry} (hn : q.fld 87 64 ≠ 0) (h : q.fld 57 57 = 0 ∨ s.inTorus q.signalChip = true) :
    signalCheck s q = none := by
  refine if_neg ?_
  rintro (h0 | ⟨h1, h2⟩)
  · exact hn h0
  · rcases h with h | h
    · exact absurd (h.symm.trans h1) (by decide)
    · exact absurd (h.symm.trans h2) (by decide)

theorem signal_raises (s : State) (c d : Fin 64) (w : BitVec 128) (k n : Nat) (h : Ready s c w 0x51) (hf : signalFits s c w)
    (hhere : bitsOf w 57 57 = 0) (hd : d.val = bitsOf w 63 58) (hdc : d ≠ c) (hk : k = bitsOf w 95 88) (hn : n = bitsOf w 87 64)
    (h0 : k ≠ 0) (hn0 : n ≠ 0) (h2 : s.ctxState (s.seqTenant c) d ≠ 2) (h3 : s.ctxState (s.seqTenant c) d ≠ 3)
    (h5 : s.ctxState (s.seqTenant c) d ≠ 5) (hten : s.seqState d = 0 ∨ s.seqTenant d = s.seqTenant c) (hfree : (s.cl d).hold = none)
    (hfit : s.tok d k + n < 2 ^ 24) (hfwd : s.fld (Reg.SEQ_TOKEN d k) Fld.SEQ_TOKEN_FWD = 0) : Completes (.signal c w) s (fun t =>
      t.tok d k = s.tok d k + n ∧ (t.cl d).prod.get 0 k = s.localPeer c 4 (s.seqPc c) ∧
      ∃ u, Near (· = Reg.SEQ_TOKEN d k) (s.modCl d (fun x => { x with prod := x.prod.set 0 k (s.localPeer c 4 (s.seqPc c)) })) u ∧
        SeqRan c u t) := by
  obtain ⟨u, hu, hrun⟩ := runSeq_headed c.isLt h (by decide)
  have hdc' : d.val ≠ c.val := fun x => hdc (Fin.ext x)
  have hk' : k < 256 := hk ▸ bitsOf_lt w 95 88
  have hrd := fun {off : Nat} (ho : seqRegs d off) => hu.rd_other hdc' ho
  have htokd := hrd (seqRegs_token hk')
  have hstat := hrd (.inr (.inr (.inl rfl)))
  have hctx := hu.ctxState (ten := s.seqTenant c) (Nat.mod_lt _ (by decide)) d.isLt
  have hpeer : u.localPeer c portSeq (s.seqPc c) = s.localPeer c 4 (s.seqPc c) := by rw [State.localPeer, hu.chip]; rfl
  obtain ⟨htok, hnear⟩ := addOne_near (s := u) (n := n) (s.localPeer c 4 (s.seqPc c)) d.isLt hk' h0 (by rwa [tok_of_rd htokd])
  have hto : u.signalTo (u.seqTenant c) d k n (s.localPeer c 4 (s.seqPc c)) = u.addOne d k n (s.localPeer c 4 (s.seqPc c)) := by
    rw [hu.seqTenant]
    refine signalTo_raises _ (by simp [hctx, h2, h3, h5]) ?_ d.isLt hk' h0 (by rwa [tok_of_rd htokd])
      ((fld_of_rd _ htokd).trans hfwd) (by rw [hu.frame.others d hdc', hfree])
    exact hten.imp (fld_of_rd _ hstat).trans (fld_of_rd _ hstat).trans
  have hran := (hu.seqRan.tokenRaised (n := n) (peer := s.localPeer c 4 (s.seqPc c)) hdc' hk').trans
    ((addOne_tokenRaised _ d.isLt h0 (by rwa [tok_of_rd htokd])).seqRan (fun _ x => x.elim))
  have hfits : signalFits (u.addOne d k n (s.localPeer c 4 (s.seqPc c))) c w := signalFits_of_rd (hu.signalFits hf) (fun i hi =>
    rd_addOne_ne _ d.isLt hk' (by rwa [tok_of_rd htokd]) (by simp only [Reg.SEQ_TOKEN]; omega) (observes_token hi))
  have hend := (seqDone_ended _ (s.capture_ c w) (s.capture_ c w).nextPc c.isLt hfits).seqRan
  have heff : State.doSignal c u (s.capture_ c w) =
      (u.addOne d k n (s.localPeer c 4 (s.seqPc c))).seqDone c (s.capture_ c w) (s.capture_ c w).nextPc := by
    rw [← hto, ← hpeer, hd, hk, hn]
    simp only [State.doSignal, show (s.capture_ c w).fld 57 57 = 0 from hhere, if_true]
    rfl
  have hchk : signalCheck (s.insnCounted c) (s.capture_ c w) = none :=
    signalCheck_passes (show bitsOf w 87 64 ≠ 0 from hn ▸ hn0) (.inl hhere)
  refine ⟨_, congrArg Host.Outcome.next ((hrun signalCheck (State.doSignal c) QEntry.nextPc hchk).trans heff), ?_, ?_, _, ?_, hran.trans hend⟩
  · rw [tok_of_rd (hend.regs _ (not_seqRegs_other hdc' (seqRegs_token hk')) (observes_token hk')), htok, tok_of_rd htokd]
  · rw [hend.others d hdc', hnear.cl, State.prodSet, cl_modCl_here, Tab.get_set, if_pos rfl]
  · exact ((Near.refl (· = Reg.SEQ_TOKEN d k) s).setFld _ _ _ (.inl rfl)).modCl d _

/-- A packet handed to the router is apart from what running an instruction touches. -/
theorem SeqRan.inject (h : SeqRan c s u) (p : Packet) : SeqRan c (s.inject p) (u.inject p) := by
  refine ⟨h.regs, ?_, h.others, h.cluster⟩
  rw [h.eq]; rfl

theorem HeaderTaken.inTorus (h : HeaderTaken c s u) (n : Nat) : u.inTorus n = s.inTorus n := by
  have hdim (a : Nat) : u.dim a = s.dim a := by
    simp only [State.dim, h.fld_low (off := Reg.IDM_BOARD0) _ (by decide) (by decide)]
  simp only [State.inTorus, hdim]

theorem HeaderTaken.fenced (h : HeaderTaken c s u) {n : Nat} (hn : n < 2 ^ 15) : u.fenced n = s.fenced n := by
  have hf := h.fld_low (off := Reg.FAB_FENCE (n / 64)) (bitField (n % 64)) (by simp only [Reg.FAB_FENCE]; omega)
    (observes_eq_false.mpr (by simp only [Reg.FAB_FENCE]; omega))
  rw [State.fenced, hf]
  rfl

/-- The packet of a remote SIGNAL of chip `chip` (R203). -/
def QEntry.signalPacket (q : QEntry) (chip c : Nat) : Packet :=
  { dst := q.signalChip, src := chip, tc := 2, type := 4, dclu := q.fld 63 58, sclu := c
    body := leBytes 4 (q.fld 95 88) ++ leBytes 4 (q.fld 87 64) }

/-- SIGNAL to another chip that no fence covers leaves as a packet (R203). -/
theorem doSignal_away {q : QEntry} (hc : c < 64) (haway : q.fld 57 57 = 1) (hopen : s.fenced q.signalChip = false) :
    ∃ v, HeaderTaken c (s.inject (q.signalPacket s.chip c)) v ∧ State.doSignal c s q = v.seqDone c q q.nextPc := by
  refine ⟨_, headerTaken_trace _ c (show c < 80 by omega) 0x08 (q.fld 95 88) 0 (peerWord q.signalChip (q.fld 63 58) 0 0 0), ?_⟩
  simp only [State.doSignal, haway, one_ne_zero, if_false, hopen, Bool.false_eq_true]
  rfl

theorem signal_leaves (s : State) (c : Fin 64) (w : BitVec 128) (h : Ready s c w 0x51) (hf : signalFits s c w) (haway : bitsOf w 57 57 = 1)
    (hn0 : bitsOf w 87 64 ≠ 0) (htor : s.inTorus (s.capture_ c w).signalChip = true) (hopen : s.fenced (s.capture_ c w).signalChip = false) :
    Completes (.signal c w) s (fun t =>
      SeqRan c (s.inject { dst := (s.capture_ c w).signalChip, src := s.chip, tc := 2, type := 4, dclu := bitsOf w 63 58, sclu := c
                           body := leBytes 4 (bitsOf w 95 88) ++ leBytes 4 (bitsOf w 87 64) }) t) := by
  obtain ⟨u, hu, hrun⟩ := runSeq_headed c.isLt h (by decide)
  have hchk := signalCheck_passes (s := s.insnCounted c) (q := s.capture_ c w) hn0
    (.inr (((headerTaken_insnCounted s c).inTorus _).trans htor))
  obtain ⟨v, huv, heff⟩ := doSignal_away (s := u) (q := s.capture_ c w) c.isLt haway
    ((hu.fenced (Nat.mod_lt _ (by decide))).trans hopen)
  rw [hu.chip] at huv
  have hend := seqDone_ended v (s.capture_ c w) (s.capture_ c w).nextPc c.isLt (huv.signalFits (hu.signalFits hf))
  exact ⟨_, congrArg Host.Outcome.next ((hrun signalCheck (State.doSignal c) QEntry.nextPc hchk).trans heff),
    ((hu.seqRan.inject _).trans huv.seqRan).trans hend.seqRan⟩

/-- Settles O25, by the tokens that each instruction's effect reads and writes. -/
theorem tokenInstructions : Obligations.TokenInstructions :=
  ⟨wait_takes, wait_holds, signal_raises, signal_leaves⟩

end Sys2Proof.Machine
end

section
/-!
SUPPORT. LOOP and BR, and what a false predicate leaves (R143 to R146, R205, R206).
-/
namespace Sys2Proof.Machine

variable {c : Nat} {s t u v : State}

/-! ### Scalars and predicates of a cluster's record -/

theorem Cluster.s_setS_same (k : Cluster) {i : Nat} (hi : i ≠ 0) (v : BitVec 64) : (k.setS i v).s i = v := by
  rw [Cluster.s, if_neg hi, Cluster.setS, if_neg hi, Tab.get_set, if_pos rfl]

theorem Cluster.loops_setS (k : Cluster) (i : Nat) (v : BitVec 64) : (k.setS i v).loops = k.loops := by
  unfold Cluster.setS
  split <;> rfl

theorem getLsbD_ofNat_two_pow {i j : Nat} (hi : i < 8) : (BitVec.ofNat 8 (2 ^ j)).getLsbD i = decide (j = i) := by
  rw [BitVec.getLsbD_ofNat, Nat.testBit_two_pow]
  simp [hi]

/-- A predicate just written reads as what was written; p0 is always true (R143). -/
theorem Cluster.p_setP (k : Cluster) (j : Nat) (v : Bool) {i : Nat} (hi : i < 8) :
    (k.setP j v).p i = if i = 0 then true else if i = j then v else k.p i := by
  by_cases hi0 : i = 0
  · simp [Cluster.p, hi0]
  · by_cases hj0 : j = 0
    · have hij : i ≠ j := hj0 ▸ hi0
      rw [Cluster.setP, if_pos hj0, if_neg hi0, if_neg hij]
    · have hbit : (BitVec.ofNat 8 (if v then 2 ^ j else 0)).getLsbD i = (v && decide (j = i)) := by
        cases v
        · simp
        · simpa using getLsbD_ofNat_two_pow hi
      simp only [Cluster.p, Cluster.setP, hj0, hi0, if_false, BitVec.getLsbD_or, BitVec.getLsbD_and, BitVec.getLsbD_not, hbit,
        getLsbD_ofNat_two_pow hi, beq_eq_false_iff_ne.mpr hi0, Bool.false_or, decide_eq_true hi, Bool.true_and]
      by_cases hij : i = j
      · subst hij; simp
      · simp [hij, Ne.symm hij]

/-! ### Back-edges that a jump does not take -/

/-- Where no loop's body ends, decode goes on. -/
theorem backEdge_elsewhere (fuel : Nat) {k : Cluster} {pc : Nat}
    (h : ∀ l, k.loops.head? = some l → l.suspended = true ∨ pc ≠ l.bodyStart + l.bodyLen) :
    Cluster.backEdge (fuel + 1) k pc = (pc, k) := by
  cases hl : k.loops with
  | nil => exact backEdge_no_loops fuel pc hl
  | cons l rest =>
    have hstay := h l (by rw [hl]; rfl)
    simp only [Cluster.backEdge, hl]
    rw [if_pos hstay]

/-- So an instruction that ends there leaves the loops and the scalar registers. -/
theorem SeqEnded.elsewhere {w : BitVec 128} {pc : Nat} (h : SeqEnded c w pc s t)
    (hl : ∀ l, (s.cl c).loops.head? = some l → l.suspended = true ∨ pc ≠ l.bodyStart + l.bodyLen) :
    (∃ pr, t.cl c = (s.cl c).ended pr) ∧ t.rd (Reg.SEQ_PC c) = BitVec.ofNat 64 pc := by
  obtain ⟨pr, hcl, hpc⟩ := h.jumped
  rw [backEdge_elsewhere (k := (s.cl c).ended pr) 8 hl] at hcl hpc
  exact ⟨⟨pr, hcl⟩, hpc⟩

/-! ### What the checks of LOOP and BR read -/

theorem seqTenant_lt (s : State) (c : Nat) : s.seqTenant c < 4 := Nat.mod_lt _ (by decide)

section
variable (h : Near (· = Reg.SEQ_INSN_CNT c) s u)
include h

theorem Near.streamFld {d i j : Nat} (f : Field) (hi : i < 4) (hj : j < 2) :
    u.fld (Reg.SEQ_STREAM_LEN d i j) f = s.fld (Reg.SEQ_STREAM_LEN d i j) f ∧
      u.fld (Reg.SEQ_STREAM_BASE d i j) f = s.fld (Reg.SEQ_STREAM_BASE d i j) f := by
  constructor <;> refine h.fld _ ?_ (observes_eq_false.mpr ?_) <;>
    simp only [Reg.SEQ_STREAM_LEN, Reg.SEQ_STREAM_BASE, Reg.SEQ_INSN_CNT] <;> omega

theorem Near.stream : u.streamLen c = s.streamLen c ∧ u.streamBase c = s.streamBase c := by
  have ht : u.seqTenant c = s.seqTenant c := fld_of_rd _ (h.rd_status c)
  have hx : u.seqCtx c = s.seqCtx c := fld_of_rd _ (h.rd_status c)
  have hlt : s.seqTenant c - 1 < 4 := Nat.lt_of_le_of_lt (Nat.sub_le _ _) (seqTenant_lt s c)
  have hctx : (if s.seqCtx c = 3 then 1 else 0) < 2 := by split <;> decide
  simp only [State.streamLen, State.streamBase, ht, hx, (h.streamFld _ hlt hctx).1, (h.streamFld _ hlt hctx).2, and_self]

theorem Near.inIdleBody (n : Nat) : u.inIdleBody c n = s.inIdleBody c n := by
  have hmem : u.mem = s.mem := by rw [h.eq]
  have ht : u.seqTenant c = s.seqTenant c := fld_of_rd _ (h.rd_status c)
  have hpeek : ∀ a n, u.peekNat a n = s.peekNat a n := fun a n => by rw [State.peekNat, bytes_of_mem hmem]; rfl
  simp only [State.inIdleBody, h.cl, ht, hpeek, h.stream.2]

theorem Near.brCheck (q : QEntry) : Machine.brCheck c u q = Machine.brCheck c s q := by
  simp only [Machine.brCheck, State.targetCheck, h.cl, h.inIdleBody, h.stream.1]

theorem Near.loopCheck (q : QEntry) : Machine.loopCheck c u q = Machine.loopCheck c s q := by
  simp only [Machine.loopCheck, h.cl, h.stream.1]

end

/-! ### LOOP (R144, R205) -/

/-- The entry of a LOOP whose trip count is `trip`. -/
def QEntry.loopEntry (q : QEntry) (trip : Nat) : LoopEntry :=
  { ireg := q.fld 95 91, start := BitVec.ofInt 64 (toSigned 24 (q.fld 40 17)), stride := BitVec.ofInt 64 (toSigned 16 (q.fld 16 1))
    trip := trip, iter := 0, bodyStart := q.pc + 1, bodyLen := q.fld 84 65, suspended := false }

/-- The trip count of a LOOP. -/
def QEntry.trip (q : QEntry) : Nat := if q.fld 90 90 = 1 then (q.scal.get 0 (q.fld 89 85)).toNat else q.fld 64 41

/-- The cluster's record with a loop more. -/
def Cluster.pushLoop (k : Cluster) (l : LoopEntry) : Cluster := { k with loops := l :: k.loops }.setS l.ireg l.start

theorem loops_pushLoop (k : Cluster) (l : LoopEntry) : (k.pushLoop l).loops = l :: k.loops := Cluster.loops_setS _ _ _

theorem doLoop_eq (q : QEntry) : State.doLoop c s q = if q.trip = 0 then s.seqDone c q q.loopEnd
    else (s.modCl c (·.pushLoop (q.loopEntry q.trip))).seqDone c q q.nextPc := rfl

theorem seqRan_pushLoop (s : State) (c : Nat) (l : LoopEntry) : SeqRan c s (s.modCl c (·.pushLoop l)) := by
  refine seqRan_modCl ?_
  simp only [Cluster.pushLoop, Cluster.setS]
  split <;> rfl

/-- What is done to the cluster's record before an instruction completes leaves its signal fitting. -/
theorem signalFits_modCl {w : BitVec 128} (h : signalFits s c w) (f : Cluster → Cluster) : signalFits (s.modCl c f) c w := h

theorem nextPc_eq (s : State) (c : Nat) (w : BitVec 128) :
    BitVec.ofNat 64 (s.capture_ c w).nextPc = s.rd (Reg.SEQ_PC c) + 1 := ofNat_toNat_succ _

theorem loopEnd_eq (s : State) (c : Nat) (w : BitVec 128) :
    BitVec.ofNat 64 (s.capture_ c w).loopEnd = s.rd (Reg.SEQ_PC c) + 1 + BitVec.ofNat 64 (bitsOf w 84 65) := by
  rw [QEntry.loopEnd, BitVec.ofNat_add]
  exact congrArg (· + _) (nextPc_eq s c w)

theorem loopCheck_passes {q : QEntry} (h0 : q.fld 84 65 ≠ 0) (h8 : (s.cl c).loops.length < 8) (hfit : q.pc + 1 + q.fld 84 65 ≤ s.streamLen c) :
    loopCheck c s q = none := by
  rw [loopCheck, if_neg h0, if_neg (by omega), if_neg (by omega)]

theorem loop_runs (s : State) (c : Fin 64) (w : BitVec 128) (trip : Nat) (h : Ready s c w 0x60) (hf : signalFits s c w)
    (h0 : bitsOf w 84 65 ≠ 0) (h8 : (s.cl c).loops.length < 8) (hlen : s.seqPc c + 1 + bitsOf w 84 65 ≤ s.streamLen c)
    (htrip : trip = (if bitsOf w 90 90 = 1 then ((s.capture_ c w).scal.get 0 (bitsOf w 89 85)).toNat else bitsOf w 64 41)) :
    (trip ≠ 0 → (∀ l ∈ (s.cl c).loops, l.suspended = true) → Completes (.loop c w) s (fun t =>
      (∃ l, (t.cl c).loops = l :: (s.cl c).loops ∧ l.trip = trip ∧ l.iter = 0 ∧ l.bodyStart = s.seqPc c + 1 ∧
        l.bodyLen = bitsOf w 84 65 ∧ l.start = BitVec.ofInt 64 (toSigned 24 (bitsOf w 40 17)) ∧
        l.stride = BitVec.ofInt 64 (toSigned 16 (bitsOf w 16 1)) ∧ (l.ireg ≠ 0 → (t.cl c).s l.ireg = l.start) ∧ l.ireg = bitsOf w 95 91) ∧
      t.rd (Reg.SEQ_PC c) = s.rd (Reg.SEQ_PC c) + 1 ∧ SeqRan c s t)) ∧
    (trip = 0 → (s.cl c).loops = [] → Completes (.loop c w) s (fun t => (t.cl c).loops = [] ∧
      t.rd (Reg.SEQ_PC c) = s.rd (Reg.SEQ_PC c) + 1 + BitVec.ofNat 64 (bitsOf w 84 65) ∧ SeqRan c s t)) := by
  obtain ⟨u, hu, hrun⟩ := runSeq_headed c.isLt h (by decide)
  have hchk : loopCheck c (s.insnCounted c) (s.capture_ c w) = none :=
    ((near_insnCounted s c).loopCheck _).trans (loopCheck_passes h0 h8 hlen)
  have hrun' := (hrun (loopCheck c) (State.doLoop c) QEntry.loopEnd hchk).trans (doLoop_eq _)
  have htrip' : (s.capture_ c w).trip = trip := htrip.symm
  rw [htrip'] at hrun'
  have hfu := hu.signalFits hf
  refine ⟨fun hne _ => ?_, fun hz hl => ?_⟩
  · rw [if_neg hne] at hrun'
    generalize hle : (s.capture_ c w).loopEntry trip = l at hrun'
    have hend := seqDone_ended (u.modCl c (·.pushLoop l)) (s.capture_ c w) (s.capture_ c w).nextPc c.isLt (signalFits_modCl hfu _)
    have hcl : (u.modCl c (·.pushLoop l)).cl c = (s.cl c).pushLoop l := (cl_modCl_here u c _).trans (by rw [hu.cluster])
    obtain ⟨⟨pr, ht⟩, hpc⟩ := hend.elsewhere (by
      rw [hcl, loops_pushLoop, ← hle]
      rintro _ ⟨⟩
      exact .inr (by simp only [QEntry.loopEntry, QEntry.nextPc]; exact fun x => h0 (by simpa [QEntry.fld, State.capture_] using x)))
    rw [hcl] at ht
    refine ⟨_, congrArg Host.Outcome.next hrun', ⟨l, ?_, ?_⟩, hpc.trans (nextPc_eq s c w), (hu.seqRan.trans (seqRan_pushLoop u c l)).trans hend.seqRan⟩
    · rw [ht]; exact loops_pushLoop _ _
    · have hs : l.ireg ≠ 0 → (State.cl _ c).s l.ireg = l.start := fun hi => by rw [ht]; exact Cluster.s_setS_same _ hi _
      subst hle
      exact ⟨rfl, rfl, rfl, rfl, rfl, rfl, hs, rfl⟩
  · rw [if_pos hz] at hrun'
    have hend := seqDone_ended u (s.capture_ c w) (s.capture_ c w).loopEnd c.isLt hfu
    obtain ⟨⟨pr, ht⟩, hpc⟩ := hend.no_loops (hu.cluster ▸ hl)
    refine ⟨_, congrArg Host.Outcome.next hrun', ?_, hpc.trans (loopEnd_eq s c w), hu.seqRan.trans hend.seqRan⟩
    rw [ht, hu.cluster]
    exact hl

/-! ### BR (R145, R146, R206) -/

/-- The cluster's record once a BR has written its predicate. -/
def Cluster.compared (k : Cluster) (q : QEntry) : Cluster := if q.fld 95 92 = 0 then k else k.setP (q.fld 91 89) q.compare

theorem loops_compared (k : Cluster) (q : QEntry) : (k.compared q).loops = k.loops := by
  simp only [Cluster.compared, Cluster.setP]
  split
  · rfl
  · split <;> rfl

/-- A BR that does not return writes its predicate with the comparison, and jumps or goes on. -/
theorem doBr_decided {q : QEntry} (h3 : q.fld 95 92 ≠ 3) : ∃ v, SeqRan c s v ∧ (∀ off, v.rd off = s.rd off) ∧
    v.cl c = (s.cl c).compared q ∧ State.doBr c s q = v.seqDone c q (if q.brTaken then q.brTarget.toNat else q.nextPc) := by
  rw [State.doBr, if_neg h3]
  by_cases h0 : q.fld 95 92 = 0
  · exact ⟨s, SeqRan.refl c s, fun _ => rfl, by rw [Cluster.compared, if_pos h0], by rw [if_pos h0]⟩
  · refine ⟨s.modCl c (fun k => k.setP (q.fld 91 89) q.compare), seqRan_modCl ?_, fun _ => rfl, ?_, by rw [if_neg h0]⟩
    · simp only [Cluster.setP]
      split <;> rfl
    · rw [cl_modCl_here, Cluster.compared, if_neg h0]

/-- The return from a recompute segment (R206). -/
def Cluster.returned (k : Cluster) : Cluster := { k with ret := none, loops := k.loops.map (fun l => { l with suspended := false }) }

theorem doBr_returns {q : QEntry} {back depth : Nat} (h3 : q.fld 95 92 = 3) (hret : (s.cl c).ret = some (back, depth)) :
    State.doBr c s q = (s.modCl c Cluster.returned).seqDone c q back := by
  rw [State.doBr, if_pos h3, hret]
  rfl

theorem brCheck_returns {q : QEntry} {back depth : Nat} (h3 : q.fld 95 92 = 3) (hret : (s.cl c).ret = some (back, depth))
    (hd : (s.cl c).loops.length = depth) : brCheck c s q = none := by
  simp only [brCheck, h3, if_true, hret, hd, ne_eq, not_true_eq_false, if_false]

theorem brCheck_goes_on {q : QEntry} (h3 : q.fld 95 92 ≠ 3) (ht : q.brTaken = false) : brCheck c s q = none := by
  rw [brCheck, if_neg h3, if_neg (by simp [ht])]

theorem brCheck_jumps {q : QEntry} {n : Nat} (h3 : q.fld 95 92 ≠ 3) (hto : (n : Int) = q.brTarget) (hlt : n < s.streamLen c)
    (hl : (s.cl c).loops = []) (hidle : s.inIdleBody c n = false) : brCheck c s q = none := by
  have hin : ¬ ((n : Int) < 0 ∨ (s.streamLen c : Int) ≤ n) := by omega
  rw [brCheck, if_neg h3, ← hto]
  split
  · simp only [State.targetCheck, hl, List.filter_nil, Int.toNat_natCast, hidle, Bool.and_false, Bool.or_false, Bool.false_eq_true,
      if_false, hin]
  · rfl

/-- A BR whose own checks pass and that does not return, without a loop. -/
theorem br_decided {w : BitVec 128} (hc : c < 64) (h : Ready s c w 0x61) (hf : signalFits s c w) (h3 : bitsOf w 95 92 ≠ 3)
    (hl : (s.cl c).loops = []) (hchk : brCheck c s (s.capture_ c w) = none) :
    ∃ t pr, s.runSeq c w 0x61 (brCheck c) (State.doBr c) QEntry.nextPc = t ∧ t.cl c = ((s.cl c).compared (s.capture_ c w)).ended pr ∧
      t.rd (Reg.SEQ_PC c) = BitVec.ofNat 64 (if (s.capture_ c w).brTaken then (s.capture_ c w).brTarget.toNat else (s.capture_ c w).nextPc) ∧
      SeqRan c s t := by
  obtain ⟨u, hu, hrun⟩ := runSeq_headed hc h (by decide)
  obtain ⟨v, huv, hrd, hcl, heff⟩ := doBr_decided (s := u) (c := c) (q := s.capture_ c w) h3
  have hend := seqDone_ended v (s.capture_ c w) (if (s.capture_ c w).brTaken then (s.capture_ c w).brTarget.toNat
    else (s.capture_ c w).nextPc) hc (signalFits_of_rd (hu.signalFits hf) (fun _ _ => hrd _))
  rw [hu.cluster] at hcl
  obtain ⟨⟨pr, ht⟩, hpc⟩ := hend.no_loops (by rw [hcl, loops_compared, hl])
  exact ⟨_, pr, (hrun _ _ _ (((near_insnCounted s c).brCheck _).trans hchk)).trans heff, by rw [ht, hcl], hpc,
    (hu.seqRan.trans huv).trans hend.seqRan⟩

theorem br_jumps (s : State) (c : Fin 64) (w : BitVec 128) (to_ : Nat) (h : Ready s c w 0x61) (hf : signalFits s c w)
    (h3 : bitsOf w 95 92 ≠ 3) (ht : (s.capture_ c w).brTaken = true) (hto : (to_ : Int) = (s.capture_ c w).brTarget)
    (hlt : to_ < s.streamLen c) (hl : (s.cl c).loops = []) (hidle : s.inIdleBody c to_ = false) :
    Completes (.br c w) s (fun t => t.rd (Reg.SEQ_PC c) = BitVec.ofNat 64 to_ ∧
      (bitsOf w 95 92 = 2 → bitsOf w 91 89 ≠ 0 → (t.cl c).p (bitsOf w 91 89) = true) ∧ SeqRan c s t) := by
  obtain ⟨t, pr, hrun, hcl, hpc, hran⟩ := br_decided c.isLt h hf h3 hl (brCheck_jumps h3 hto hlt hl hidle)
  rw [if_pos ht, ← hto, Int.toNat_natCast] at hpc
  refine ⟨t, congrArg Host.Outcome.next hrun, hpc, fun h2 hp => ?_, hran⟩
  have hcmp : (s.capture_ c w).compare = true := by
    have h2' : (s.capture_ c w).fld 95 92 = 2 := h2
    simpa [QEntry.brTaken, h2'] using ht
  have h0 : ¬ (s.capture_ c w).fld 95 92 = 0 := fun x => absurd (h2.symm.trans x) (by decide)
  rw [hcl, Cluster.compared, if_neg h0]
  refine (Cluster.p_setP _ _ _ (bitsOf_lt w 91 89)).trans ?_
  rw [if_neg hp, hcmp]
  exact if_pos rfl

theorem br_goes_on (s : State) (c : Fin 64) (w : BitVec 128) (h : Ready s c w 0x61) (hf : signalFits s c w)
    (h12 : bitsOf w 95 92 = 1 ∨ bitsOf w 95 92 = 2) (ht : (s.capture_ c w).brTaken = false) (hl : (s.cl c).loops = []) :
    Completes (.br c w) s (fun t => t.rd (Reg.SEQ_PC c) = s.rd (Reg.SEQ_PC c) + 1 ∧
      (∀ i, i < 8 → (t.cl c).p i = if i = 0 then true else if i = bitsOf w 91 89 then (s.capture_ c w).compare else (s.cl c).p i) ∧
      SeqRan c s t) := by
  have h3 : bitsOf w 95 92 ≠ 3 := by omega
  have h0 : ¬ (s.capture_ c w).fld 95 92 = 0 := show bitsOf w 95 92 ≠ 0 by omega
  obtain ⟨t, pr, hrun, hcl, hpc, hran⟩ := br_decided c.isLt h hf h3 hl (brCheck_goes_on h3 ht)
  rw [if_neg (by simp [ht])] at hpc
  refine ⟨t, congrArg Host.Outcome.next hrun, hpc.trans (nextPc_eq s c w), fun i hi => ?_, hran⟩
  rw [hcl, Cluster.compared, if_neg h0]
  exact Cluster.p_setP _ _ _ hi

theorem br_returns (s : State) (c : Fin 64) (w : BitVec 128) (back depth : Nat) (h : Ready s c w 0x61) (hf : signalFits s c w)
    (h3 : bitsOf w 95 92 = 3) (hret : (s.cl c).ret = some (back, depth)) (hd : (s.cl c).loops.length = depth)
    (hback : ∀ l ∈ (s.cl c).loops, back ≠ l.bodyStart + l.bodyLen) :
    Completes (.br c w) s (fun t => t.rd (Reg.SEQ_PC c) = BitVec.ofNat 64 back ∧ (t.cl c).ret = none ∧
      (t.cl c).loops = (s.cl c).loops.map (fun l => { l with suspended := false }) ∧ SeqRan c s t) := by
  obtain ⟨u, hu, hrun⟩ := runSeq_headed c.isLt h (by decide)
  have heff := doBr_returns (s := u) (q := s.capture_ c w) h3 (hu.cluster ▸ hret)
  have hend := seqDone_ended (u.modCl c Cluster.returned) (s.capture_ c w) back c.isLt (signalFits_modCl (hu.signalFits hf) _)
  have hcl : (u.modCl c Cluster.returned).cl c = (s.cl c).returned := (cl_modCl_here u c _).trans (by rw [hu.cluster])
  obtain ⟨⟨pr, ht⟩, hpc⟩ := hend.elsewhere (by
    rw [hcl]
    intro l hl
    obtain ⟨l', hl', rfl⟩ := List.mem_map.mp (List.mem_of_head? hl)
    exact .inr (hback l' hl'))
  rw [hcl] at ht
  refine ⟨_, congrArg Host.Outcome.next ((hrun _ _ _ (((near_insnCounted s c).brCheck _).trans
    (brCheck_returns h3 hret hd))).trans heff), hpc, ?_, ?_, (hu.seqRan.trans (seqRan_modCl rfl)).trans hend.seqRan⟩
  · rw [ht]; rfl
  · rw [ht]; rfl

/-! ### A false predicate (R143) -/

/-- A predicated-off instruction of the sequencer, without a loop, only goes on at `off`. -/
theorem runSeq_off {w : BitVec 128} {op : Nat} (check : State → QEntry → Option (Nat × Nat)) (effect : State → QEntry → State)
    (off : QEntry → Nat) (hc : c < 64) (h : WordSound s c w op) (hop : opPort op = some portSeq) (hp : (s.capture_ c w).pred = false)
    (hf : signalFits s c w) (hl : (s.cl c).loops = []) :
    ∃ t pr, s.runSeq c w op check effect off = t ∧ t.cl c = (s.cl c).ended pr ∧
      t.rd (Reg.SEQ_PC c) = BitVec.ofNat 64 (off (s.capture_ c w)) ∧ SeqRan c s t := by
  have hp' : ¬ (s.capture_ c w).pred = true := by simp [hp]
  obtain ⟨u, hu, hrun⟩ := runSeq_sound hc h hop
  have hend := seqDone_ended u (s.capture_ c w) (off (s.capture_ c w)) hc (hu.signalFits hf)
  obtain ⟨⟨pr, ht⟩, hpc⟩ := hend.no_loops (hu.cluster ▸ hl)
  exact ⟨_, pr, (hrun check effect off (fun x => absurd x hp')).trans (if_neg hp'), by rw [ht, hu.cluster], hpc, hu.seqRan.trans hend.seqRan⟩

/-- The rows whose predicated-off instruction goes on at the next word. -/
theorem offRow_exec {x : Nat × (Fin 64 → BitVec 128 → Instr)}
    (hx : x ∈ [((0x33 : Nat), (Instr.movS : Fin 64 → BitVec 128 → Instr)), (0x52, .cwait), (0x53, .beat), (0x55, .fence), (0x61, .br)])
    (s : State) (c : Fin 64) (w : BitVec 128) : opPort x.1 = some portSeq ∧
      ∃ check effect, exec (x.2 c w) s = .next (s.runSeq c w x.1 check effect QEntry.nextPc) := by
  simp only [List.mem_cons, List.not_mem_nil, or_false] at hx
  rcases hx with rfl | rfl | rfl | rfl | rfl <;> exact ⟨rfl, _, _, rfl⟩

/-- Settles O27: the back-edge at the end of each instruction decides where decode goes on. -/
theorem controlFlow : Obligations.ControlFlow := by
  refine ⟨loop_runs, br_jumps, br_goes_on, br_returns, fun s c w _ hcan hfree hop hsound hp hhead hf hl => ?_,
    fun x hx s c w _ hcan hfree hop hsound hp hhead hf hl => ?_⟩
  · obtain ⟨t, pr, hrun, hcl, hpc, hran⟩ := runSeq_off (loopCheck c) (State.doLoop c) QEntry.loopEnd c.isLt
      ⟨hcan, hfree, hop, hsound, hhead⟩ (by decide) hp hf hl
    exact ⟨t, congrArg Host.Outcome.next hrun, hpc.trans (loopEnd_eq s c w), by rw [hcl]; exact hl, hran⟩
  · obtain ⟨hport, check, effect, hexec⟩ := offRow_exec hx s c w
    obtain ⟨t, pr, hrun, hcl, hpc, hran⟩ := runSeq_off check effect QEntry.nextPc c.isLt ⟨hcan, hfree, hop, hsound, hhead⟩ hport hp hf hl
    refine ⟨t, hexec.trans (congrArg Host.Outcome.next hrun), hpc.trans (nextPc_eq s c w), ?_, ?_, ?_, hran⟩ <;> rw [hcl] <;> rfl

end Sys2Proof.Machine
end

section
/-!
SUPPORT. What stands beside a cluster's record while its instructions run, and the head of a port that leaves its queue (R132, R136, R143).
-/
namespace Sys2Proof.Machine

variable {c port : Nat} {s t u v : State} {q : QEntry} {rest : List QEntry}

/-! ### Everything but the cluster's record -/

/-- Beside the record of cluster `c`, `t` is `s` but for what running an instruction of it may touch. -/
structure Beside (c : Nat) (s t : State) : Prop where
  regs : ∀ off, ¬ seqRegs c off → observes off = false → t.rd off = s.rd off
  rest : { t.watchOf s with clu := s.clu } = s
  others : ∀ d, d ≠ c → t.cl d = s.cl d

theorem Beside.eq (h : Beside c s t) :
    t = { s with regs := t.regs, rings := t.rings, clu := t.clu, pw := { s.pw with acts := t.pw.acts, who := t.pw.who } } := by
  have hrest := h.rest
  rw [← hrest]
  rfl

theorem Beside.refl (c : Nat) (s : State) : Beside c s s := ⟨fun _ _ _ => rfl, rfl, fun _ _ => rfl⟩

theorem Beside.trans (h : Beside c s t) (k : Beside c t u) : Beside c s u := by
  refine ⟨fun off he ho => (k.regs off he ho).trans (h.regs off he ho), ?_, fun d hd => (k.others d hd).trans (h.others d hd)⟩
  rw [k.eq, h.eq]; rfl

theorem SeqRan.beside (h : SeqRan c s t) : Beside c s t := ⟨h.regs, h.rest, h.others⟩

theorem beside_modCl (s : State) (c : Nat) (f : Cluster → Cluster) : Beside c s (s.modCl c f) :=
  ⟨fun _ _ _ => rfl, rfl, fun _ hd => cl_setCl_ne s _ hd⟩

theorem Near.beside {e : Nat → Prop} (h : Near e s t) (he : ∀ off, e off → seqRegs c off) : Beside c s t := (h.seqRan he).beside

theorem SeqFrame.beside {e : Nat → Prop} (h : SeqFrame e c s t) (he : ∀ off, e off → seqRegs c off) : Beside c s t := by
  refine ⟨fun off hs ho => h.regs off (fun x => hs (he off x)) ho, ?_, h.others⟩
  rw [h.eq]; rfl

theorem Beside.mem (h : Beside c s t) : t.mem = s.mem := by rw [h.eq]

/-- The cluster's record in `t` is `k`, but for what running an instruction may change. -/
def Cluster.ranFrom (k x : Cluster) : Prop :=
  { x with sreg := k.sreg, preds := k.preds, loops := k.loops, ret := k.ret, hold := k.hold, wdogFired := k.wdogFired, prod := k.prod } = k

/-- Over a changed record of the cluster, the rest is what running an instruction may touch. -/
theorem Beside.seqRan (h : Beside c s t) {f : Cluster → Cluster} (hk : (f (s.cl c)).ranFrom (t.cl c)) : SeqRan c (s.modCl c f) t := by
  refine ⟨h.regs, ?_, fun d hd => (h.others d hd).trans (cl_setCl_ne s _ hd).symm, ?_⟩
  · rw [h.eq]; rfl
  · rw [cl_modCl_here]; exact hk

theorem SeqRan.ranFrom (h : SeqRan c s t) : (s.cl c).ranFrom (t.cl c) := h.cluster

/-! ### A head leaves its queue (R136, R143, R476) -/

theorem queue_setQueue (k : Cluster) (port : Nat) (l : List QEntry) : (k.setQueue port l).queue port = l := by
  match port with
  | 0 | 1 | 2 => rfl
  | _ + 3 => rfl

/-- `t` is `s` once the head `q` has left the port, `rest` behind it: its header wait is consumed. -/
structure HeadTook (c port : Nat) (q : QEntry) (rest : List QEntry) (s t : State) : Prop where
  frame : SeqFrame (· = Reg.SEQ_TOKEN c q.wait) c s t
  record : ∃ b, t.cl c = { (s.cl c).headTaken port s.now rest with wdogFired := b }
  token : q.wait ≠ 0 → t.tok c q.wait = s.tok c q.wait - s.quantum c q.wait

theorem wait_lt (q : QEntry) : q.wait < 256 := bitsOf_lt q.word 111 104

theorem HeadTook.beside (h : HeadTook c port q rest s t) : Beside c s t :=
  h.frame.beside (fun _ ho => ho ▸ seqRegs_token (wait_lt q))

theorem HeadTook.rd (h : HeadTook c port q rest s t) {off : Nat} (hs : ¬ seqRegs c off) (ho : observes off = false) : t.rd off = s.rd off :=
  h.beside.regs off hs ho

/-- The header wait that a head consumes. -/
theorem seqFrame_takeQuantum (s : State) (c : Nat) {k : Nat} : SeqFrame (· = Reg.SEQ_TOKEN c k) c s (s.takeQuantum c k) ∧
    (s.takeQuantum c k).cl c = s.cl c ∧ (k ≠ 0 → (s.takeQuantum c k).tok c k = s.tok c k - s.quantum c k) := by
  unfold State.takeQuantum
  split
  · next h0 => exact ⟨SeqFrame.refl _ c s, rfl, fun h => absurd h0 h⟩
  · exact ⟨seqFrame_setFld (e := (· = Reg.SEQ_TOKEN c k)) s c _ _ _ rfl, rfl, fun _ => tok_lowered s c k _⟩

theorem SeqFrame.now {e : Nat → Prop} (h : SeqFrame e c s t) (he : ¬ e Reg.CAD_TSC) : t.now = s.now :=
  congrArg BitVec.toNat (h.regs _ he (by decide))

theorem tsc_ne_token (c k : Nat) : Reg.CAD_TSC ≠ Reg.SEQ_TOKEN c k := by simp only [Reg.CAD_TSC, Reg.SEQ_TOKEN]; omega

/-- The head leaves, once its wait is consumed. -/
theorem headTook_modCl (hf : SeqFrame (· = Reg.SEQ_TOKEN c q.wait) c s u) (hcl : u.cl c = s.cl c)
    (htok : q.wait ≠ 0 → u.tok c q.wait = s.tok c q.wait - s.quantum c q.wait) (hq : (s.cl c).queue port = q :: rest)
    (b : Cluster → Bool) : HeadTook c port q rest s (u.modCl c (fun k => { k.setQueue port ((k.queue port).drop 1) with
      headSince := k.headSince.set 0 port 0, headAt := k.headAt.set 0 port (u.now + 1), wdogFired := b k })) := by
  refine ⟨hf.trans (seqFrame_modCl _ u c _), ⟨b (s.cl c), ?_⟩, htok⟩
  rw [cl_modCl_here, hcl, hq, hf.now (tsc_ne_token c _)]
  rfl

theorem takeHead_took (hc : c < 64) (hq : (s.cl c).queue port = q :: rest) : HeadTook c port q rest s (s.takeHead c port q) := by
  obtain ⟨hf, hcl, htok⟩ := seqFrame_takeQuantum s c (k := q.wait)
  have htrace (dur : Nat) : Near (fun _ => False) (s.takeQuantum c q.wait) ((s.takeQuantum c q.wait).traceWait c q.wait dur) :=
    (Near.refl _ _).trace (show c < 80 by omega) _ _ _ _
  unfold State.takeHead
  dsimp only
  split
  · exact headTook_modCl (hf.trans (seqFrame_trace _ _ c (show c < 80 by omega) _ _ _ _)) (((htrace _).cl c).trans hcl)
      (fun h => ((htrace _).tok (wait_lt q) id).trans (htok h)) hq _
  · exact headTook_modCl hf hcl htok hq _

end Sys2Proof.Machine
end

section
/-!
SUPPORT. What the issue of a port's head starts (R132, R136, R152, R184, R193, R197, R255).
-/
namespace Sys2Proof.Machine

variable {c port waited : Nat} {s t u v : State} {q : QEntry} {rest : List QEntry}

/-! ### The issue of a head -/

/-- A head whose header wait is satisfied, whose predicate holds and whose checks pass leaves its queue and starts where its unit has
room; where it has none, the head stays. -/
theorem issueHead_eq (hq : (s.cl c).queue port = q :: rest) (hrun : s.stopped = false) (hst : s.seqState c = 1)
    (hh : s.headerOk c q.wait = true) (hp : q.pred = true) (hop : q.op ≠ 0x35) (hsound : s.headCheck c q = none) :
    s.issueHead c port waited = if (s.headRoom c q waited).1 then ((s.headRoom c q waited).2.takeHead c port q).headStart c q
      else (s.headRoom c q waited).2 := by
  simp only [State.issueHead, hq, hrun, hst, hh, hp, hop, hsound, seqRunning, Bool.false_eq_true, Bool.not_true, ne_eq,
    not_true_eq_false, or_self, if_false]
  obtain ⟨b, v⟩ := s.headRoom c q waited
  cases b <;> rfl

theorem issueHead_starts (h : HeadReady s c port q rest) (hop : q.op ≠ 0x35) (hroom : s.headRoom c q waited = (true, v)) :
    s.issueHead c port waited = (v.takeHead c port q).headStart c q := by
  rw [issueHead_eq h.queue h.runs h.running h.header h.pred hop h.sound, hroom, if_pos rfl]

theorem issueHead_stays (h : HeadReady s c port q rest) (hop : q.op ≠ 0x35) (hroom : s.headRoom c q waited = (false, v)) :
    s.issueHead c port waited = v := by
  rw [issueHead_eq h.queue h.runs h.running h.header h.pred hop h.sound, hroom, if_neg Bool.false_ne_true]

/-! ### What a head reads as it issues -/

theorem HeadTook.d (h : HeadTook c port q rest s t) (i : Nat) : (t.cl c).d i = (s.cl c).d i := by
  obtain ⟨b, hb⟩ := h.record
  rw [hb]
  match port with
  | 0 | 1 | 2 => rfl
  | _ + 3 => rfl

theorem descOf_congr (hd : ∀ i, (t.cl c).d i = (s.cl c).d i) (i : Nat) : t.descOf c q i = s.descOf c q i := by
  simp only [State.descOf, hd]

theorem HeadTook.descOf (h : HeadTook c port q rest s t) (i : Nat) : t.descOf c q i = s.descOf c q i := descOf_congr h.d i

theorem HeadTook.seqTenant (h : HeadTook c port q rest s t) : t.seqTenant c = s.seqTenant c :=
  h.frame.fld _ (fun x => token_ne_status c c _ (wait_lt q) x.symm) (observes_seqRegs (c := c) _ (.inr (.inr (.inl rfl))))

theorem HeadTook.movRec (h : HeadTook c port q rest s t) (kind : Nat) (src dst : Desc) :
    t.movRec c q kind src dst = s.movRec c q kind src dst := by
  simp only [State.movRec, h.seqTenant]

/-- The record of the cluster once the head that has left starts. -/
theorem HeadTook.cl_modCl (h : HeadTook c port q rest s t) (g : Cluster → Cluster) :
    ∃ b, (t.modCl c g).cl c = g { (s.cl c).headTaken port s.now rest with wdogFired := b } := by
  obtain ⟨b, hb⟩ := h.record
  exact ⟨b, by rw [cl_modCl_here, hb]⟩

/-- A head that starts by a change of the cluster's record alone. -/
theorem HeadTook.started (h : HeadTook c port q rest s t) {f g : Cluster → Cluster}
    (hf : ∀ b, ((f (s.cl c)).ranFrom (g { (s.cl c).headTaken port s.now rest with wdogFired := b }))) :
    SeqRan c (s.modCl c f) (t.modCl c g) := by
  obtain ⟨b, hb⟩ := h.record
  refine (h.beside.trans (beside_modCl t c g)).seqRan ?_
  rw [cl_modCl_here, hb]
  exact hf b

theorem HeadTook.tok_modCl (h : HeadTook c port q rest s t) (f : Cluster → Cluster) (h0 : q.wait ≠ 0) :
    (t.modCl c f).tok c q.wait = s.tok c q.wait - s.quantum c q.wait := h.token h0

/-! ### Vector, MOV.C, MOV.D, PREF -/

theorem vecOf_congr (hd : ∀ i, t.descOf c q i = s.descOf c q i) : t.vecOf c q = s.vecOf c q := by
  simp only [State.vecOf, hd]

theorem condOf_congr (hd : ∀ i, t.descOf c q i = s.descOf c q i) : t.condOf c q = s.condOf c q := by
  simp only [State.condOf, hd]

theorem mmaOf_congr (hd : ∀ i, t.descOf c q i = s.descOf c q i) : t.mmaOf c q = s.mmaOf c q := by
  simp only [State.mmaOf, hd]

/-- POP stands at the mover port alone. -/
theorem not_pop_of_port {op p : Nat} (h : opPort op = some p) (hp : p ≠ 2) : op ≠ 0x35 := by
  rintro rfl
  exact hp (Option.some.inj h).symm

theorem issue_vector (s : State) (c : Fin 64) (e : QEntry) (rest : List QEntry) (w : Nat) (h : HeadReady s c 1 e rest)
    (hop : opPort e.op = some 1) (hvec : (s.cl c).vec = none) (htest : s.testing (unitId 4 c) = false) :
    Completes (.portHeadIssue c 1 w) s (fun t =>
      (t.cl c).vec = some (s.vecOf c e) ∧ (t.cl c).vecQ = rest ∧ (e.wait ≠ 0 → t.tok c e.wait = s.tok c e.wait - s.quantum c e.wait) ∧
      SeqRan c (s.modCl c (fun k => { k.headTaken 1 s.now rest with vec := some (s.vecOf c e) })) t) := by
  have hroom : s.headRoom c e w = (true, s) := by
    simp only [State.headRoom, hop, hvec, htest, Option.isNone_none, Bool.not_false, Bool.and_self]
  have htook := takeHead_took c.isLt h.queue
  have hstart : (s.takeHead c 1 e).headStart c e = (s.takeHead c 1 e).modCl c (fun k => { k with vec := some (s.vecOf c e) }) := by
    simp only [State.headStart, hop, vecOf_congr htook.descOf, State.setVec]
  obtain ⟨b, hb⟩ := htook.cl_modCl (fun k => { k with vec := some (s.vecOf c e) })
  exact ⟨_, congrArg Host.Outcome.next ((issueHead_starts h (not_pop_of_port hop (by decide)) hroom).trans hstart),
    congrArg Cluster.vec hb, congrArg Cluster.vecQ hb, htook.tok_modCl _, htook.started (fun b => rfl)⟩

theorem issue_movC (s : State) (c : Fin 64) (e : QEntry) (rest : List QEntry) (w : Nat) (h : HeadReady s c 2 e rest)
    (hop : e.op = 0x31) (hroom : s.condRoom c = true) :
    Completes (.portHeadIssue c 2 w) s (fun t => (t.cl c).cond = some (s.condOf c e) ∧ (t.cl c).movQ = rest ∧
      SeqRan c (s.modCl c (fun k => { k.headTaken 2 s.now rest with cond := some (s.condOf c e) })) t) := by
  have hroom' : s.headRoom c e w = (true, s) := by rw [State.headRoom, hop, hroom]; rfl
  have htook := takeHead_took c.isLt h.queue
  have hstart : (s.takeHead c 2 e).headStart c e = (s.takeHead c 2 e).modCl c (fun k => { k with cond := some (s.condOf c e) }) := by
    rw [State.headStart, hop, condOf_congr htook.descOf]; rfl
  obtain ⟨b, hb⟩ := htook.cl_modCl (fun k => { k with cond := some (s.condOf c e) })
  exact ⟨_, congrArg Host.Outcome.next ((issueHead_starts h (by rw [hop]; decide) hroom').trans hstart),
    congrArg Cluster.cond hb, congrArg Cluster.movQ hb, htook.started (fun b => rfl)⟩

theorem issue_pref (s : State) (c : Fin 64) (e : QEntry) (rest : List QEntry) (w : Nat) (h : HeadReady s c 2 e rest)
    (hop : e.op = 0x36) (hroom : (s.cl c).pref.length < 8) : Completes (.portHeadIssue c 2 w) s (fun t =>
      (t.cl c).pref = (s.cl c).pref ++
        [PrefEntry.mk (s.movRec c e 1 (s.descOf c e (e.fld 95 88)) (s.descOf c e (e.fld 87 80))) false] ∧
      SeqRan c (s.modCl c (fun k => { k.headTaken 2 s.now rest with pref := (t.cl c).pref })) t) := by
  have hroom' : s.headRoom c e w = (true, s) := by
    rw [State.headRoom, hop]
    exact congrArg (·, s) (decide_eq_true hroom)
  have htook := takeHead_took c.isLt h.queue
  generalize hp : PrefEntry.mk (s.movRec c e 1 (s.descOf c e (e.fld 95 88)) (s.descOf c e (e.fld 87 80))) false = p
  have hstart : (s.takeHead c 2 e).headStart c e = (s.takeHead c 2 e).modCl c (fun k => { k with pref := k.pref ++ [p] }) := by
    rw [State.headStart, hop, ← hp, ← htook.descOf, ← htook.descOf, ← htook.movRec]; rfl
  obtain ⟨b, hb⟩ := htook.cl_modCl (fun k => { k with pref := k.pref ++ [p] })
  have hpref := congrArg Cluster.pref hb
  refine ⟨_, congrArg Host.Outcome.next ((issueHead_starts h (by rw [hop]; decide) hroom').trans hstart), hpref, ?_⟩
  rw [hpref]
  exact htook.started (fun b => rfl)

/-- A signal of token 0 does nothing where nothing waits for one (R137). -/
theorem signalHeader_zero (port n : Nat) (hsig : q.sig = 0) (hk : (s.cl c).keepsHold) : s.signalHeader c port q n = s := by
  simp only [State.signalHeader, State.signal, State.addToken, hsig, if_true, releaseHold_of_keepsHold hk, ite_self]

/-- A read of intact stage memory gives its bytes, and spends energy alone (R210, R225). -/
theorem readMem_stage {a n d o : Nat} (hn : n ≠ 0) (hp : s.place a = .stage d o) (hb : s.firstBadWord a n = none) :
    ∃ v, s.readMem a n = (.ok (s.bytes a n), v) ∧ Near (fun _ => False) s v := by
  have hread : s.readMem a n = (.ok (s.bytes a n), (s.bumpClu d 0x0E 0 ((a + n - 1) / 128 - a / 128 + 1)).spend 5
      ((a + n - 1) / 128 - a / 128 + 1)) := by
    simp only [State.readMem, hn, if_false, hp, hb]
  exact ⟨_, hread, ((Near.refl _ s).bumpClu d _ _ _).spendBy _ _ _⟩

theorem near_onBehalf (s : State) (t : Nat) : Near (fun _ => False) s (s.onBehalf t) := ⟨fun _ _ _ => rfl, rfl⟩

/-- A head leaves a state that only records of `s`. -/
theorem HeadTook.of_near (hn : Near (fun _ => False) s v) (h : HeadTook c port q rest v t) :
    Beside c s t ∧ ∃ b, t.cl c = { (s.cl c).headTaken port s.now rest with wdogFired := b } := by
  obtain ⟨b, hb⟩ := h.record
  have hnow : v.now = s.now := congrArg BitVec.toNat (hn.regs _ id (by decide))
  exact ⟨(hn.beside (fun _ x => x.elim)).trans h.beside, b, by rw [hb, hn.cl, hnow]⟩

theorem issue_movD (s : State) (c : Fin 64) (e : QEntry) (rest : List QEntry) (w o : Nat) (h : HeadReady s c 2 e rest)
    (hop : e.op = 0x32) (hsig : e.sig = 0) (hk : (s.cl c).keepsHold) (hp : s.place e.movdAddr = .stage c o)
    (hb : s.firstBadWord e.movdAddr 64 = none) : Completes (.portHeadIssue c 2 w) s (fun t =>
      (t.cl c).d (e.fld 87 80) = BitVec.ofNat 512 (s.peekNat e.movdAddr 64) ∧ (t.cl c).movQ = rest ∧
      SeqRan c (s.modCl c (fun k => { k.headTaken 2 s.now rest with desc := (t.cl c).desc })) t) := by
  obtain ⟨v, hread, hv⟩ := readMem_stage (s := s.onBehalf (s.seqTenant c)) (a := e.movdAddr) (n := 64) (by decide) hp hb
  have hroom : s.headRoom c e w = (true, v) := by
    rw [State.headRoom, hop]
    simp only [State.movdRoom, hread]
    rfl
  have hsv := (near_onBehalf s (s.seqTenant c)).trans hv
  have htook := takeHead_took (port := 2) (q := e) (rest := rest) c.isLt (by rw [hsv.cl]; exact h.queue)
  obtain ⟨hbeside, b, hcl⟩ := htook.of_near hsv
  have hpeek : (v.takeHead c 2 e).peekNat e.movdAddr 64 = s.peekNat e.movdAddr 64 := by
    rw [State.peekNat, bytes_of_mem hbeside.mem]; rfl
  generalize hx : BitVec.ofNat 512 (s.peekNat e.movdAddr 64) = x
  obtain ⟨g, hg⟩ : ∃ g : Cluster → Cluster, g = fun k => { k with desc := k.desc.set 0 (e.fld 87 80) x } := ⟨_, rfl⟩
  have hclg : ((v.takeHead c 2 e).modCl c g).cl c = g { (s.cl c).headTaken 2 s.now rest with wdogFired := b } := by
    rw [cl_modCl_here, hcl]
  have hhold : (((v.takeHead c 2 e).modCl c g).cl c).hold = (s.cl c).hold := by rw [hclg, hg]; rfl
  have hstart : (v.takeHead c 2 e).headStart c e = (v.takeHead c 2 e).modCl c g := by
    have hsign := signalHeader_zero (s := (v.takeHead c 2 e).modCl c g) (c := c) portMover 1 hsig (fun y hy => hk y (hhold ▸ hy))
    refine Eq.trans ?_ hsign
    rw [State.headStart, hop, hg, ← hx, ← hpeek]
    rfl
  refine ⟨_, congrArg Host.Outcome.next ((issueHead_starts h (by rw [hop]; decide) hroom).trans hstart), ?_, ?_, ?_⟩
  · rw [hclg, hg]
    exact (Tab.get_set _ _ _ _ _).trans (if_pos rfl)
  · rw [hclg, hg]; rfl
  · refine (hbeside.trans (beside_modCl _ _ _)).seqRan ?_
    rw [hclg, hg]
    rfl

end Sys2Proof.Machine
end

section
/-!
SUPPORT. What recording a fault leaves (R152, R153, R168).
-/
namespace Sys2Proof.Machine

variable {c : Nat} {s t u : State}

/-- The registers that recording a fault of cluster `c` writes: SEQ_STATUS, the count of faults, the records. -/
def faultRegs (c : Nat) (off : Nat) : Prop :=
  off = Reg.SEQ_STATUS c ∨ off = Reg.SEQ_FAULT_CNT c ∨ ∃ k w, k < 4 ∧ w < 8 ∧ off = Reg.SEQ_FAULT_REC c k w

/-- The place of the next fault record. -/
def State.faultSlot (s : State) (c : Nat) : Nat := s.fld (Reg.SEQ_FAULT_CNT c) Fld.COUNT % 4

/-- `t` is `s` once the fault `f` of cluster `c` is recorded, and its sequencer FAULTED. -/
structure Faulted (c : Nat) (f : FaultRec) (s t : State) : Prop where
  state : t.seqState c = 4
  code : (t.rd (Reg.SEQ_FAULT_REC c (s.faultSlot c) 0)).toNat % 256 = f.code % 256
  pc : t.rd (Reg.SEQ_FAULT_REC c (s.faultSlot c) 1) = BitVec.ofNat 64 f.pc
  count : counted (Reg.SEQ_FAULT_CNT c) 1 s t
  noted : Noted (faultRegs c) (s.modCl c (fun k => { k with hard := k.hard || f.code != 0x0C })) t

theorem faultRec_ne (c k w : Nat) (hk : k < 4) (hw : w < 8) :
    Reg.SEQ_FAULT_REC c k w ≠ Reg.SEQ_STATUS c ∧ Reg.SEQ_FAULT_REC c k w ≠ Reg.SEQ_FAULT_CNT c := by
  simp only [Reg.SEQ_FAULT_REC, Reg.SEQ_STATUS, Reg.SEQ_FAULT_CNT]; omega

theorem faultRec_inj {c k w w' : Nat} (h : Reg.SEQ_FAULT_REC c k w = Reg.SEQ_FAULT_REC c k w') : w = w' := by
  simp only [Reg.SEQ_FAULT_REC] at h; omega

theorem faultCnt_ne_status (c : Nat) : Reg.SEQ_FAULT_CNT c ≠ Reg.SEQ_STATUS c := by
  simp only [Reg.SEQ_FAULT_CNT, Reg.SEQ_STATUS]; omega

/-- The registers of a cluster's sequencer lie apart from those of `notices`. -/
theorem notices_sequencer {d : Nat} (hd : d < 0x2000) : notices (0x410000 + 0x40000 * c + d) = false := by
  have ho : observes (0x410000 + 0x40000 * c + d) = false := observes_eq_false.mpr (by omega)
  simp only [notices, ho, Bool.or_eq_false_iff, beq_eq_false_iff_ne, true_and]
  omega

theorem notices_faultRegs {off : Nat} (h : faultRegs c off) : notices off = false := by
  rcases h with rfl | rfl | ⟨k, w, hk, hw, rfl⟩
  · exact (congrArg notices (by simp only [Reg.SEQ_STATUS]; omega)).trans (notices_sequencer (c := c) (d := 8) (by omega))
  · exact (congrArg notices (by simp only [Reg.SEQ_FAULT_CNT]; omega)).trans (notices_sequencer (c := c) (d := 0x18) (by omega))
  · exact (congrArg notices (by simp only [Reg.SEQ_FAULT_REC]; omega)).trans
      (notices_sequencer (c := c) (d := 0x100 + 0x40 * k + 0x8 * w) (by omega))

/-- A change of one cluster's record moves past what tells of an event. -/
theorem Noted.modCl {e : Nat → Prop} (h : Noted e s t) (c : Nat) (f : Cluster → Cluster) : Noted e (s.modCl c f) (t.modCl c f) := by
  have hcl : t.cl c = s.cl c := by rw [h.eq]; rfl
  refine ⟨h.regs, ?_, h.said, h.sent⟩
  rw [State.modCl, State.modCl, hcl, h.eq]
  rfl

/-- The cluster's record after a fault. -/
theorem Faulted.cluster {f : FaultRec} (h : Faulted c f s t) : t.cl c = { s.cl c with hard := (s.cl c).hard || f.code != 0x0C } := by
  have hcl : t.cl c = (s.modCl c (fun k => { k with hard := k.hard || f.code != 0x0C })).cl c := by rw [h.noted.eq]; rfl
  rw [hcl, cl_modCl_here]

theorem Faulted.mem {f : FaultRec} (h : Faulted c f s t) : t.mem = s.mem := by rw [h.noted.eq]; rfl

theorem recordFault_faulted (s : State) (f : FaultRec) (hc : c < 64) : Faulted c f s (s.recordFault c f false) := by
  have hten : s.seqTenant c ≤ 3 := Nat.le_of_lt_succ (Nat.mod_lt _ (by decide))
  have hslot : s.faultSlot c < 4 := Nat.mod_lt _ (by decide)
  have hstat : faultRegs c (Reg.SEQ_STATUS c) := .inl rfl
  have hcnt : faultRegs c (Reg.SEQ_FAULT_CNT c) := .inr (.inl rfl)
  have hrec : ∀ w, w < 8 → faultRegs c (Reg.SEQ_FAULT_REC c (s.faultSlot c) w) := fun w hw => .inr (.inr ⟨_, w, hslot, hw, rfl⟩)
  unfold State.recordFault
  extract_lets st k ten w0 put s0 s1 s2 s3 s4 s5 s6 s7 s8 s9 s10 s11 s12
  have hput : ∀ (x : State) (w v : Nat), w < 8 → Noted (faultRegs c) s x → Noted (faultRegs c) s (put x w v) :=
    fun x w v hw hx => hx.wr _ _ (.inl (hrec w hw))
  have hhere : ∀ (x : State) (w v : Nat), (put x w v).rd (Reg.SEQ_FAULT_REC c k w) = BitVec.ofNat 64 v := fun x w v => rd_wr_here x _ _
  have hne : ∀ (x : State) (w w' v : Nat), w' ≠ w → (put x w v).rd (Reg.SEQ_FAULT_REC c k w') = x.rd (Reg.SEQ_FAULT_REC c k w') :=
    fun x w w' v h => rd_wr_ne _ (fun h' => h (faultRec_inj h'))
  have hputCnt : ∀ (x : State) (w v : Nat), w < 8 → (put x w v).rd (Reg.SEQ_FAULT_CNT c) = x.rd (Reg.SEQ_FAULT_CNT c) :=
    fun x w v h => rd_wr_ne _ (faultRec_ne c k w hslot h).2.symm
  clear_value put
  have hcnt7 : s7.rd (Reg.SEQ_FAULT_CNT c) = s.rd (Reg.SEQ_FAULT_CNT c) := by
    simp (disch := decide) only [s7, s6, s5, s4, s3, s2, s1, s0, hputCnt]
  have hcode : s7.rd (Reg.SEQ_FAULT_REC c k 0) = BitVec.ofNat 64 w0 := by
    simp (disch := decide) only [s7, s6, s5, s4, s3, s2, s1, s0, hhere, hne]
  have hpc : s7.rd (Reg.SEQ_FAULT_REC c k 1) = BitVec.ofNat 64 f.pc := by
    simp (disch := decide) only [s7, s6, s5, s4, s3, s2, s1, s0, hhere, hne]
  have h7 : Noted (faultRegs c) s s7 := by
    iterate 8 refine hput _ _ _ (by decide) ?_
    exact Noted.refl _ s
  clear_value s7
  have hcount8 : s8.rd (Reg.SEQ_FAULT_CNT c) = putField (s.rd (Reg.SEQ_FAULT_CNT c)) Fld.COUNT (s.fld (Reg.SEQ_FAULT_CNT c) Fld.COUNT + 1) := by
    rw [← hcnt7, ← fld_of_rd _ hcnt7]
    exact (raised_event s7 st _ _ (faultCnt_ne_status c).symm).2
  have hrd8 : ∀ w, w < 8 → s8.rd (Reg.SEQ_FAULT_REC c k w) = s7.rd (Reg.SEQ_FAULT_REC c k w) := fun w hw =>
    rd_event_ne _ (faultRec_ne c k w hslot hw).1 (faultRec_ne c k w hslot hw).2
  have h8 : Noted (faultRegs c) s s8 := h7.event _ _ _ (.inl hstat) (.inl hcnt)
  clear_value s8
  have h9 : Noted (fun _ => False) s8 s9 := (Noted.refl _ s8).tellKeeper _ _ _
  have h10 : Noted (fun _ => False) s8 s10 := by
    dsimp only [s10]
    split
    · exact h9
    · exact h9.evq hten _ _ _
  clear_value s9 s10
  have h12 : Noted (fun _ => False) s8 s12 := (h10.trace (show c < 80 by omega) _ _ _ _).trigger (show c < 80 by omega) _
  clear_value s11 s12
  have hfin : ∀ off, faultRegs c off → off ≠ Reg.SEQ_STATUS c →
      ((s12.modCl c (fun k => { k with hard := k.hard || f.code != 0x0C })).setSeqState c seqFaulted).rd off = s8.rd off :=
    fun off hf hn => (rd_setFld_ne _ _ hn).trans (h12.regs off id (notices_faultRegs hf))
  rw [if_neg (by decide)]
  refine ⟨fld_setFld_here _ _ _ _ (by decide), ?_, ?_, ?_, ?_⟩
  · rw [hfin _ (hrec 0 (by decide)) (faultRec_ne c k 0 hslot (by decide)).1]
    refine (congrArg (fun x : BitVec 64 => x.toNat % 256) ((hrd8 0 (by decide)).trans hcode)).trans ?_
    simp only [BitVec.toNat_ofNat, w0]
    omega
  · rw [hfin _ (hrec 1 (by decide)) (faultRec_ne c k 1 hslot (by decide)).1]
    exact (hrd8 1 (by decide)).trans hpc
  · exact (hfin _ hcnt (faultCnt_ne_status c)).trans hcount8
  · exact ((h8.trans (h12.mono (fun _ x => x.elim))).modCl c _).setFld _ _ _ (.inl hstat)

end Sys2Proof.Machine
end

section
/-!
SUPPORT. Heads that ask for a mover, that wait, trap, or are predicated off, and the issue of a matrix instruction (R132, R136, R143, R152, R197,
R234, R255).
-/
namespace Sys2Proof.Machine

variable {c port waited : Nat} {s t u v : State} {q : QEntry} {rest : List QEntry}

/-! ### MOV and PUSH ask for a mover (R255) -/

theorem issue_mov (s : State) (c : Fin 64) (e : QEntry) (rest : List QEntry) (w : Nat) (h : HeadReady s c 2 e rest) (hop : e.op = 0x30) :
    exec (.portHeadIssue c 2 w) s = .next (if s.headReqWaits c then s else { s with
      movReqs := s.movReqs ++ [MovReq.mk (s.movRec c e 0 (s.descOf c e (e.fld 95 88)) (s.descOf c e (e.fld 87 80))) false true] }) := by
  have hroom : s.headRoom c e w = (false, s.movAsk c e) := by rw [State.headRoom, hop]; rfl
  exact congrArg Host.Outcome.next (issueHead_stays h (by rw [hop]; decide) hroom)

/-- The trailer of an entry that keeps its tensor names its length (R234). -/
theorem trailerOf_keep (d : Desc) (len elem scale segment arg seq : Nat) :
    trailerLen (trailerOf 0 d len elem scale segment arg seq) = len % 2 ^ 40 ∧ trailerKind (trailerOf 0 d len elem scale segment arg seq) = 0 := by
  have hfmt : d.fmt < 2 ^ 8 := Nat.mod_lt _ (by decide)
  have hor : d.orient < 2 ^ 2 := Nat.mod_lt _ (by decide)
  have hnd : d.ndim < 2 ^ 2 := Nat.mod_lt _ (by decide)
  simp only [trailerLen, trailerKind, trailerOf, if_true, BitVec.toNat_ofNat]
  generalize d.size 0 + d.size 1 * 2 ^ 24 = a
  generalize d.size 2 + d.size 3 * 2 ^ 24 = b
  omega

theorem issue_push (s : State) (c : Fin 64) (e : QEntry) (rest : List QEntry) (w : Nat) (h : HeadReady s c 2 e rest) (hop : e.op = 0x34)
    (hkeep : e.pushKeep = true) (hask : s.headReqWaits c = false) : Completes (.portHeadIssue c 2 w) s (fun t =>
      (∃ r, t.movReqs = s.movReqs ++ [MovReq.mk r false true] ∧
      r.kind = 2 ∧ r.cluster = c ∧ r.stkAddr = s.stkBase e.slot c + s.stkTop e.slot c ∧
      trailerLen r.trailer = s.pushLen c e % 2 ^ 40 ∧ trailerKind r.trailer = 0) ∧ { t with movReqs := s.movReqs } = s) := by
  obtain ⟨r, hr⟩ : ∃ r, s.pushRoom c e = (false, s.askMover r) ∧ r.kind = 2 ∧ r.cluster = c ∧
      r.stkAddr = s.stkBase e.slot c + s.stkTop e.slot c ∧ trailerLen r.trailer = s.pushLen c e % 2 ^ 40 ∧ trailerKind r.trailer = 0 :=
    ⟨_, by rw [State.pushRoom, if_pos hkeep], rfl, rfl, rfl, trailerOf_keep _ _ _ _ _ _ _⟩
  obtain ⟨hpush, hkind, hclu, hrest⟩ := hr
  have hroom : s.headRoom c e w = (false, s.askMover r) := by rw [State.headRoom, hop]; exact hpush
  have hasked : s.askMover r = { s with movReqs := s.movReqs ++ [MovReq.mk r false true] } := by
    rw [State.askMover, if_neg (by rw [hclu, hask]; decide)]
  exact ⟨_, congrArg Host.Outcome.next ((issueHead_stays h (by rw [hop]; decide) hroom).trans hasked), ⟨r, rfl, hkind, hclu, hrest⟩, rfl⟩

/-! ### A matrix instruction joins its rank (R184, R186) -/

theorem mmaRoom_state (a : ActiveMma) (h : (s.mmaRoom c a waited).1 = true) : s.mmaRoom c a waited = (true, s) := by
  unfold State.mmaRoom at h ⊢
  dsimp only at h ⊢
  split_ifs at h ⊢
  rfl

/-- The instruction is active on its rank, with a new number; the cluster's queues stay. -/
theorem mmaIssue_active (s : State) (c : Nat) (a : ActiveMma) :
    (∃ panel lead, ((s.mmaIssue c a).rk c (a.physical s c)).active = (s.rk c (a.physical s c)).active ++
      [{ a with id := (s.rk c (a.physical s c)).nextId, panel := panel, lead := lead }]) ∧
    ((s.mmaIssue c a).cl c).rankQ = (s.cl c).rankQ := by
  unfold State.mmaIssue
  extract_lets r loss x j group
  have hx : x.rank = s.rank ∧ x.clu = s.clu := by
    dsimp only [x]
    split <;> exact ⟨rfl, rfl⟩
  have hrk : j.2.rk c r = s.rk c r := rk_of_rank hx.1 c r
  have hcl : x.cl c = s.cl c := by rw [State.cl, hx.2]; rfl
  refine ⟨⟨group, !j.1, ?_⟩, ?_⟩
  · rw [rk_modRk_here, hrk]
  · show (j.2.cl c).rankQ = _
    dsimp only [j, State.joinPanel]
    rw [cl_setCl_here, hcl]
    split <;> rfl

theorem issue_mma (s : State) (c : Fin 64) (e : QEntry) (rest : List QEntry) (w : Nat) (h : HeadReady s c 0 e rest)
    (hop : opPort e.op = some 0) (hroom : (s.mmaRoom c (s.mmaOf c e) w).1 = true) : Completes (.portHeadIssue c 0 w) s (fun t =>
      (∃ panel lead, (t.rk c ((s.mmaOf c e).physical s c)).active = (s.rk c ((s.mmaOf c e).physical s c)).active ++
        [{ s.mmaOf c e with id := (s.rk c ((s.mmaOf c e).physical s c)).nextId, panel := panel, lead := lead }]) ∧
      (t.cl c).rankQ = rest) := by
  have hroom' : s.headRoom c e w = (true, s) := by
    simp only [State.headRoom, hop]
    exact mmaRoom_state _ hroom
  have htook := takeHead_took c.isLt h.queue
  have hstart : (s.takeHead c 0 e).headStart c e = (s.takeHead c 0 e).mmaIssue c (s.mmaOf c e) := by
    simp only [State.headStart, hop, mmaOf_congr htook.descOf]
  have hmap : (s.takeHead c 0 e).rd (Reg.CLU_RANK_MAP c) = s.rd (Reg.CLU_RANK_MAP c) := by
    refine htook.rd ?_ (observes_eq_false.mpr (by simp only [Reg.CLU_RANK_MAP]; omega))
    rintro (x | x | x | ⟨i, hi, x⟩) <;>
      simp only [Reg.CLU_RANK_MAP, Reg.SEQ_INSN_CNT, Reg.SEQ_PC, Reg.SEQ_STATUS, Reg.SEQ_TOKEN] at x <;> omega
  have hphys : (s.mmaOf c e).physical (s.takeHead c 0 e) c = (s.mmaOf c e).physical s c := by
    simp only [ActiveMma.physical, State.physRank, fld_of_rd _ hmap]
  have hrank : (s.takeHead c 0 e).rank = s.rank := by rw [htook.frame.eq]
  obtain ⟨hactive, hq⟩ := mmaIssue_active (s.takeHead c 0 e) c (s.mmaOf c e)
  rw [hphys, rk_of_rank hrank] at hactive
  obtain ⟨b, hb⟩ := htook.record
  exact ⟨_, congrArg Host.Outcome.next ((issueHead_starts h (not_pop_of_port hop (by decide)) hroom').trans hstart), hactive,
    hq.trans (congrArg Cluster.rankQ hb)⟩

/-! ### Heads that wait, trap, or are predicated off -/

/-- The queue of a port is one of the four of the record. -/
theorem queue_congr {k x : Cluster} (port : Nat) (h : (x.rankQ, x.vecQ, x.movQ, x.fabQ) = (k.rankQ, k.vecQ, k.movQ, k.fabQ)) :
    x.queue port = k.queue port := by
  simp only [Prod.mk.injEq] at h
  obtain ⟨h0, h1, h2, h3⟩ := h
  match port with
  | 0 => exact h0
  | 1 => exact h1
  | 2 => exact h2
  | _ + 3 => exact h3

theorem issue_waits (s : State) (c : Fin 64) (port : Fin 4) (e : QEntry) (rest : List QEntry) (w : Nat)
    (hq : (s.cl c).queue port = e :: rest) (hrun : s.stopped = false) (hst : s.seqState c = 1) (hh : s.headerOk c e.wait = false) :
    Completes (.portHeadIssue c port w) s (fun t =>
      (t.cl c).queue port = e :: rest ∧ (t.cl c).headSince.get 0 port ≠ 0 ∧ clustersKept c s t ∧ { t with clu := s.clu } = s) := by
  have hissue : s.issueHead c port w = s.headWaits c port := by
    simp only [State.issueHead, hq, hrun, hst, hh, seqRunning, Bool.false_eq_true, ne_eq, not_true_eq_false, or_self, if_false,
      Bool.not_false, if_true]
  refine ⟨_, congrArg Host.Outcome.next hissue, ?_, ?_, fun d hd => cl_setCl_ne s _ hd, rfl⟩
  · rw [State.headWaits, cl_modCl_here]
    split
    · exact (queue_congr _ rfl).trans hq
    · exact hq
  · rw [State.headWaits, cl_modCl_here]
    split
    · rw [Tab.get_set, if_pos rfl]
      exact Nat.succ_ne_zero _
    · next h0 => exact h0

theorem issue_traps (s : State) (c : Fin 64) (port : Fin 4) (e : QEntry) (rest : List QEntry) (w : Nat) (x : Nat × Nat)
    (_ : s.regsWf = true) (hq : (s.cl c).queue port = e :: rest) (hrun : s.stopped = false) (hst : s.seqState c = 1)
    (hh : s.headerOk c e.wait = true) (hp : e.pred = true) (hop : e.op ≠ 0x35) (hx : s.headCheck c e = some x) :
    Completes (.portHeadIssue c port w) s (fun t => t.seqState c = 4 ∧ (t.cl c).queue port = e :: rest ∧
      (t.rd (Reg.SEQ_FAULT_REC c (s.fld (Reg.SEQ_FAULT_CNT c) Fld.COUNT % 4) 0)).toNat % 256 = x.1 % 256 ∧
      counted (Reg.SEQ_FAULT_CNT c) 1 s t ∧ t.mem = s.mem) := by
  have hissue : s.issueHead c port w = s.trap c port x.1 x.2 e := by
    simp only [State.issueHead, hq, hrun, hst, hh, hp, hop, hx, seqRunning, Bool.false_eq_true, ne_eq, not_true_eq_false, or_self, if_false,
      Bool.not_true]
  have hf := recordFault_faulted s { code := x.1, port := port, aux0 := x.2, pc := e.pc, word := e.word } c.isLt
  refine ⟨_, congrArg Host.Outcome.next hissue, hf.state, ?_, hf.code, hf.count, hf.mem⟩
  exact (queue_congr _ (congrArg (fun k : Cluster => (k.rankQ, k.vecQ, k.movQ, k.fabQ)) hf.cluster)).trans hq

/-- A COLL more is apart from what running an instruction touches. -/
theorem Beside.collCounted (h : Beside c s t) (p : Nat) : Beside c (s.collCounted p) (t.collCounted p) := by
  refine ⟨h.regs, ?_, h.others⟩
  rw [h.eq]; rfl

/-- Decode that a POP held goes on; otherwise nothing is done (R132). -/
theorem popKnown_ran (s : State) (c : Nat) (q : QEntry) (hk : (s.cl c).keepsHold) :
    SeqRan c s (s.popKnown c q) ∧ ((s.popKnown c q).cl c).keepsHold := by
  unfold State.popKnown
  split
  · obtain ⟨hf, ⟨l, sr, hcl⟩, -⟩ := goto_record (s.modCl c (fun k => { k with hold := none })) c (q.pc + 1)
    rw [cl_modCl_here] at hcl
    refine ⟨((seqFrame_modCl _ s c _).trans hf).seqRan (by rw [hcl]), fun x hx => ?_⟩
    rw [hcl] at hx
    cases hx
  · exact ⟨SeqRan.refl c s, hk⟩

theorem keepsHold_congr {k x : Cluster} (h : x.hold = k.hold) (hk : k.keepsHold) : x.keepsHold := fun y hy => hk y (h ▸ hy)

/-- A predicated-off head without a signal does nothing but count a COLL and let a POP's decode go on. -/
theorem headOff_ran (h : SeqRan c v (if q.op = 0x42 then t.collCounted (q.fld 79 72) else t)) (hsig : q.sig = 0)
    (hk : (t.cl c).keepsHold) : SeqRan c v (t.headOff c port q) := by
  unfold State.headOff
  generalize hu : (if q.op = 0x42 then t.collCounted (q.fld 79 72) else t) = u at h
  have huk : (u.cl c).keepsHold := by rw [← hu]; split <;> exact hk
  have hpop : SeqRan c u (if q.op = 0x35 then u.popKnown c q else u) ∧ ((if q.op = 0x35 then u.popKnown c q else u).cl c).keepsHold := by
    split
    · exact popKnown_ran u c q huk
    · exact ⟨SeqRan.refl c u, huk⟩
  dsimp only
  rw [signalHeader_zero _ _ hsig hpop.2]
  exact h.trans hpop.1

theorem issue_off (s : State) (c : Fin 64) (port : Fin 4) (e : QEntry) (rest : List QEntry) (w : Nat) (_ : s.regsWf = true)
    (hq : (s.cl c).queue port = e :: rest) (hrun : s.stopped = false) (hst : s.seqState c = 1) (hh : s.headerOk c e.wait = true)
    (hp : e.pred = false) (hsig : e.sig = 0) (hk : (s.cl c).keepsHold) : Completes (.portHeadIssue c port w) s (fun t =>
      SeqRan c ((if e.op = 0x42 then s.collCounted (e.fld 79 72) else s).modCl c (fun k => k.headTaken port s.now rest)) t) := by
  have hissue : s.issueHead c port w = (s.takeHead c port e).headOff c port e := by
    simp only [State.issueHead, hq, hrun, hst, hh, hp, seqRunning, Bool.false_eq_true, ne_eq, not_true_eq_false, or_self, if_false,
      Bool.not_true, Bool.not_false, if_true]
  have htook := takeHead_took c.isLt hq
  obtain ⟨b, hb⟩ := htook.record
  have hhold : ((s.takeHead c port e).cl c).hold = (s.cl c).hold := by
    rw [hb]
    match port with
    | 0 | 1 | 2 | 3 => rfl
  refine ⟨_, congrArg Host.Outcome.next hissue, headOff_ran ?_ hsig (keepsHold_congr hhold hk)⟩
  split
  · have hcl : ((s.takeHead c port e).collCounted (e.fld 79 72)).cl c = (s.takeHead c port e).cl c := rfl
    exact (htook.beside.collCounted _).seqRan (by rw [hcl, hb]; rfl)
  · exact htook.beside.seqRan (by rw [hb]; rfl)

/-- Settles O20, one rule for each way in which a head leaves its port or stays. -/
theorem portHeadsIssue : Obligations.PortHeadsIssue :=
  ⟨issue_vector, issue_movC, issue_movD, issue_mov, issue_push, issue_pref, issue_mma, issue_waits, issue_traps, issue_off⟩

end Sys2Proof.Machine
end

section
/-!
SUPPORT. Port instructions enter their queues, and run at once where they are free to (R132, R135, R136, R176, R255).
-/
namespace Sys2Proof.Machine

variable {c port op : Nat} {s t u v : State} {w : BitVec 128}

/-! ### The rows (R173) -/

/-- Every row has a port of its own queue, and runs by its opcode. -/
theorem portRow_exec : ∀ x ∈ portRows, (opPort x.1 = some (portOf x.1) ∧ portOf x.1 < 4) ∧
    ∀ (s : State) (c : Fin 64) (w : BitVec 128) (go : Bool), exec (x.2 c w go) s = .next (s.portInsn c w go x.1) := by
  intro x hx
  fin_cases hx <;> exact ⟨by decide, fun _ _ _ _ => rfl⟩

/-! ### A word joins its port's queue (R132, R135) -/

/-- The state once the word `w` is counted and has joined its port's queue. -/
def State.wordJoined (s : State) (c port : Nat) (w : BitVec 128) : State :=
  (s.insnCounted c).modCl c (fun k => k.joined port (s.insnCounted c).now (s.capture_ c w))

/-- Decode is held by the POP `w`. -/
def State.popHeld (s : State) (c : Nat) (q : QEntry) : State := s.modCl c (fun k => { k with hold := some ⟨.pop, q, s.now⟩ })

theorem enqueueInsn_sound (hcan : s.canDecode c w = true) (hfree : (s.cl c).hold = none) (hop : bitsOf w 127 120 = op)
    (hsound : s.decodeCheck c w = none) (hport : opPort op = some port) (hroom : ((s.cl c).queue port).length < 16) :
    s.enqueueInsn c w op = if op = 0x35 then (s.wordJoined c port w).popHeld c (s.capture_ c w)
      else (s.wordJoined c port w).goto c (s.seqPc c + 1) := by
  rw [State.enqueueInsn, decode_sound hcan hfree hop hsound hport (fun _ => hroom)]
  dsimp only
  rw [hport]
  rfl

theorem beside_wordJoined (s : State) (c port : Nat) (w : BitVec 128) : Beside c s (s.wordJoined c port w) :=
  ((near_insnCounted s c).beside (fun _ h => .inl h)).trans (beside_modCl _ c _)

theorem now_wordJoined (s : State) (c port : Nat) (w : BitVec 128) : (s.wordJoined c port w).now = s.now :=
  (headerTaken_insnCounted s c).now

theorem cl_wordJoined (s : State) (c port : Nat) (w : BitVec 128) :
    (s.wordJoined c port w).cl c = (s.cl c).joined port s.now (s.capture_ c w) := by
  rw [State.wordJoined, cl_modCl_here, (near_insnCounted s c).cl, (headerTaken_insnCounted s c).now]

theorem rd_wordJoined_ne (s : State) (c port : Nat) (w : BitVec 128) {off : Nat} (h : off ≠ Reg.SEQ_INSN_CNT c) (ho : observes off = false) :
    (s.wordJoined c port w).rd off = s.rd off := (near_insnCounted s c).regs off h ho

/-- `t` is `s` once the instruction `w` is in its port's queue: it is counted, of SEQ_STATUS only LOOP_DEPTH and SEGMENT may differ, and of
the other registers the PC; the cluster's record is that of the word that joined, but for the loops, the scalar registers and the hold. -/
structure Enqueued (c port : Nat) (w : BitVec 128) (s t : State) : Prop where
  beside : Beside c s t
  count : counted (Reg.SEQ_INSN_CNT c) 1 s t
  record : ∃ l sr h, t.cl c = { (s.cl c).joined port s.now (s.capture_ c w) with loops := l, sreg := sr, hold := h }
  status : ∀ f, besideLoops f → t.fld (Reg.SEQ_STATUS c) f = s.fld (Reg.SEQ_STATUS c) f
  token : ∀ i, i < 256 → t.rd (Reg.SEQ_TOKEN c i) = s.rd (Reg.SEQ_TOKEN c i)

theorem counted_wordJoined (s : State) (c port : Nat) (w : BitVec 128) : counted (Reg.SEQ_INSN_CNT c) 1 s (s.wordJoined c port w) :=
  counted_insnCounted s c

theorem insnCnt_unobserved (c : Nat) : observes (Reg.SEQ_INSN_CNT c) = false := observes_seqRegs (c := c) _ (.inl rfl)

theorem enqueued_popHeld (s : State) (c port : Nat) (w : BitVec 128) :
    Enqueued c port w s ((s.wordJoined c port w).popHeld c (s.capture_ c w)) := by
  refine ⟨(beside_wordJoined s c port w).trans (beside_modCl _ c _), counted_wordJoined s c port w,
    ⟨((s.cl c).joined port s.now (s.capture_ c w)).loops, ((s.cl c).joined port s.now (s.capture_ c w)).sreg, _,
      (cl_modCl_here _ c _).trans (by rw [cl_wordJoined])⟩, fun f _ => ?_, fun i hi => ?_⟩
  · exact fld_of_rd f (rd_wordJoined_ne s c port w (insnCnt_ne_pc_status c).2.symm (observes_seqRegs (c := c) _ (.inr (.inr (.inl rfl)))))
  · exact rd_wordJoined_ne s c port w (token_ne_insnCnt c i) (observes_token hi)

theorem enqueued_goto (s : State) (c port : Nat) (w : BitVec 128) (pc : Nat) : Enqueued c port w s ((s.wordJoined c port w).goto c pc) := by
  obtain ⟨hf, ⟨l, sr, hcl⟩, -⟩ := goto_record (s.wordJoined c port w) c pc
  obtain ⟨hpc, hst⟩ := insnCnt_ne_pc_status c
  refine ⟨(beside_wordJoined s c port w).trans (hf.beside (fun _ h => h)), ?_, ⟨l, sr, _, hcl.trans (by rw [cl_wordJoined])⟩,
    fun f hb => (fld_goto _ c pc hb).trans ?_, fun i hi => (rd_goto_ne _ c pc ?_ (token_ne_status c c i hi) (observes_token hi)).trans ?_⟩
  · exact (rd_goto_ne _ c pc hpc hst (insnCnt_unobserved c)).trans (counted_wordJoined s c port w)
  · exact fld_of_rd f (rd_wordJoined_ne s c port w hst.symm (observes_seqRegs (c := c) _ (.inr (.inr (.inl rfl)))))
  · simp only [Reg.SEQ_TOKEN, Reg.SEQ_PC]; omega
  · exact rd_wordJoined_ne s c port w (token_ne_insnCnt c i) (observes_token hi)

theorem enqueueInsn_enqueued (hcan : s.canDecode c w = true) (hfree : (s.cl c).hold = none) (hop : bitsOf w 127 120 = op)
    (hsound : s.decodeCheck c w = none) (hport : opPort op = some port) (hroom : ((s.cl c).queue port).length < 16) :
    Enqueued c port w s (s.enqueueInsn c w op) := by
  rw [enqueueInsn_sound hcan hfree hop hsound hport hroom]
  split
  · exact enqueued_popHeld s c port w
  · exact enqueued_goto s c port w _

/-- A word that joins a queue leaves the loops and the hold. -/
theorem joined_keeps (k : Cluster) (port now : Nat) (q : QEntry) : (k.joined port now q).loops = k.loops ∧ (k.joined port now q).hold = k.hold := by
  match port with
  | 0 | 1 | 2 => exact ⟨rfl, rfl⟩
  | _ + 3 => exact ⟨rfl, rfl⟩

theorem queue_joined (k : Cluster) (port now : Nat) (q : QEntry) : (k.joined port now q).queue port = k.queue port ++ [q] :=
  (queue_congr port rfl).trans (queue_setQueue k port _)

theorem Enqueued.queue (h : Enqueued c port w s t) : (t.cl c).queue port = (s.cl c).queue port ++ [s.capture_ c w] := by
  obtain ⟨l, sr, x, hcl⟩ := h.record
  rw [hcl]
  exact (queue_congr port rfl).trans (queue_joined (s.cl c) port s.now (s.capture_ c w))

theorem Enqueued.seqRan (h : Enqueued c port w s t) : SeqRan c (s.modCl c (fun k => k.joined port s.now (s.capture_ c w))) t := by
  obtain ⟨l, sr, x, hcl⟩ := h.record
  exact h.beside.seqRan (by rw [hcl]; rfl)

/-- What the issue of a head asks of the sequencer is as it was before its word was decoded. -/
theorem Enqueued.headRuns (h : Enqueued c port w s t) (hcan : s.canDecode c w = true) (hh : s.headerOk c (bitsOf w 111 104) = true) :
    t.stopped = false ∧ t.seqState c = 1 ∧ t.headerOk c (bitsOf w 111 104) = true := by
  simp only [State.canDecode, Bool.and_eq_true, Bool.not_eq_true', beq_iff_eq] at hcan
  obtain ⟨⟨⟨⟨hrun, hst⟩, -⟩, -⟩, -⟩ := hcan
  have htok := h.token _ (bitsOf_lt w 111 104)
  refine ⟨?_, (h.status _ (by unfold besideLoops; decide)).trans hst, ?_⟩
  · rw [← hrun, h.beside.eq]; rfl
  · rw [← hh, State.headerOk, State.quantum, State.tok, fld_of_rd _ htok, fld_of_rd _ htok]; rfl

/-! ### The statement -/

/-- Without `go` a row only decodes. -/
theorem portInsn_decodes (s : State) (c : Nat) (w : BitVec 128) (op : Nat) : s.portInsn c w false op = s.enqueueInsn c w op := rfl

/-- A word that joined an empty queue has its turn at once. -/
theorem portInsn_turn (hport : opPort op = some port) (hempty : (s.cl c).queue port = [])
    (hq : ((s.enqueueInsn c w op).cl c).queue port = [s.capture_ c w]) :
    s.portInsn c w true op = (s.enqueueInsn c w op).portTurn c port := by
  simp only [State.portInsn, hport, Option.getD_some, hempty, hq, List.length_nil, List.length_singleton, zero_lt_one, decide_true,
    Bool.and_self, if_true]
  rfl

theorem port_decodes (x : Nat × (Fin 64 → BitVec 128 → Bool → Instr)) (hx : x ∈ portRows) (s : State) (c : Fin 64) (w : BitVec 128)
    (_ : s.regsWf = true) (hcan : s.canDecode c w = true) (hfree : (s.cl c).hold = none) (hop : bitsOf w 127 120 = x.1)
    (hsound : s.decodeCheck c w = none) (hroom : ((s.cl c).queue (portOf x.1)).length < 16) :
    Completes (x.2 c w false) s (fun t =>
      (t.cl c).queue (portOf x.1) = (s.cl c).queue (portOf x.1) ++ [s.capture_ c w] ∧
      counted (Reg.SEQ_INSN_CNT c) 1 s t ∧
      (x.1 ≠ 0x35 → (s.cl c).loops = [] → t.rd (Reg.SEQ_PC c) = s.rd (Reg.SEQ_PC c) + 1 ∧ (t.cl c).hold = none) ∧
      (x.1 = 0x35 → t.rd (Reg.SEQ_PC c) = s.rd (Reg.SEQ_PC c) ∧ (t.cl c).hold = some (Hold.mk .pop (s.capture_ c w) s.now)) ∧
      SeqRan c (s.modCl c (fun k => k.joined (portOf x.1) s.now (s.capture_ c w))) t) := by
  obtain ⟨⟨hport, -⟩, hexec⟩ := portRow_exec x hx
  have henq := enqueueInsn_enqueued hcan hfree hop hsound hport hroom
  have heq := enqueueInsn_sound hcan hfree hop hsound hport hroom
  refine ⟨_, (hexec s c w false).trans (congrArg Host.Outcome.next (portInsn_decodes s c w x.1)), henq.queue, henq.count,
    fun hne hl => ?_, fun hpop => ?_, henq.seqRan⟩
  · rw [heq, if_neg hne]
    obtain ⟨-, ⟨l, sr, hcl⟩, hpc⟩ := goto_record (s.wordJoined c (portOf x.1) w) c (s.seqPc c + 1)
    have hjoin := cl_wordJoined s c (portOf x.1) w
    refine ⟨(hpc (by rw [hjoin]; exact (joined_keeps _ _ _ _).1.trans hl)).trans (ofNat_toNat_succ _), ?_⟩
    rw [hcl, hjoin]
    exact (joined_keeps _ _ s.now _).2.trans hfree
  · rw [heq, if_pos hpop]
    refine ⟨rd_wordJoined_ne s c (portOf x.1) w (insnCnt_ne_pc_status c).1.symm (observes_seqRegs (c := c) _ (.inr (.inl rfl))), ?_⟩
    rw [State.popHeld, cl_modCl_here, now_wordJoined]

theorem port_issues (x : Nat × (Fin 64 → BitVec 128 → Bool → Instr)) (hx : x ∈ portRows) (hne : x.1 ≠ 0x35) (s d : State) (c : Fin 64)
    (w : BitVec 128) (h : Ready s c w x.1) (hempty : (s.cl c).queue (portOf x.1) = []) (hd : d = s.enqueueInsn c w x.1)
    (hsound : d.headCheck c (s.capture_ c w) = none) : (d.cl c).queue (portOf x.1) = [s.capture_ c w] ∧
    exec (x.2 c w true) s = .next ((if (d.headRoom c (s.capture_ c w) 0).1 then
        (((d.headRoom c (s.capture_ c w) 0).2.takeHead c (portOf x.1) (s.capture_ c w)).headStart c (s.capture_ c w))
      else (d.headRoom c (s.capture_ c w) 0).2).runUnit c (portOf x.1) (s.capture_ c w)) := by
  obtain ⟨⟨hport, -⟩, hexec⟩ := portRow_exec x hx
  have henq := enqueueInsn_enqueued h.can h.free h.opcode h.sound hport (by rw [hempty]; decide)
  have hq := henq.queue
  rw [hempty, List.nil_append] at hq
  obtain ⟨hrun, hst, hh⟩ := henq.headRuns h.can h.header
  have hturn := portInsn_turn hport hempty hq
  rw [← hd] at hq hrun hst hh hturn
  have hop : (s.capture_ c w).op ≠ 0x35 := fun e => hne (h.opcode.symm.trans e)
  refine ⟨hq, (hexec s c w true).trans (congrArg Host.Outcome.next (hturn.trans ?_))⟩
  rw [State.portTurn, hq]
  simp only [hop, false_and, if_false]
  rw [issueHead_eq hq hrun hst hh h.pred hop hsound]

theorem pop_reports (s : State) (c : Fin 64) (w : BitVec 128) (h : Ready s c w 0x35) (hempty : (s.cl c).movQ = []) :
    exec (.pop c w true) s = .next (((s.enqueueInsn c w 0x35).stackReport c .none).runUnit c 2 (s.capture_ c w)) := by
  have hport : opPort 0x35 = some 2 := by decide
  have henq := enqueueInsn_enqueued (port := 2) h.can h.free h.opcode h.sound hport (by rw [show (s.cl c).queue 2 = [] from hempty]; decide)
  have hq := henq.queue
  rw [show (s.cl c).queue 2 = [] from hempty, List.nil_append] at hq
  refine congrArg Host.Outcome.next ((portInsn_turn hport hempty hq).trans ?_)
  have hop : (s.capture_ c w).op = 0x35 := h.opcode
  rw [State.portTurn, hq]
  simp only [hop, h.pred, and_self, if_true]

/-- Settles O19: what decode leaves, and the one turn of a port that was empty. -/
theorem portInstructions : Obligations.PortInstructions :=
  ⟨port_decodes, port_issues, pop_reports⟩

end Sys2Proof.Machine
end

section
/-!
SUPPORT. A state that the statement of R164's RESUME does not rule out: its hypotheses bound no mover's number, and the registers of a mover
past the 32 of the chip (R255) reach into those of a sequencer.
-/
namespace Sys2Proof.Machine

/-- The number whose MOV_DONE lies where SEQ_STATUS of cluster 0 does. -/
def strayNumber : Nat := 61312

theorem moverDone_stray : Reg.MOV_DONE strayNumber = Reg.SEQ_STATUS 0 := rfl

/-- Cluster 0 has stopped in a fault that can be resumed, and so has a mover of that number. -/
def strayMover : State := { State.reset.setSeqState 0 seqFaulted with movers := [(strayNumber, { state := 3 })] }

/-- The mover that goes on writes its bytes moved, none yet, over SEQ_STATUS: the cluster it resumes with reads IDLE. -/
theorem strayMover_idles : ((strayMover.strobe 0 Fld.SEQ_CTL_RESUME).seqResume 0).seqState 0 = 0 := by decide +kernel

/-- Refutes O18: RESUME of a FAULTED sequencer does not leave it RUNNING where a stopped mover's registers overlap SEQ_STATUS. The statement
lets a mover bear any number. -/
theorem not_streamControl : ¬ Obligations.StreamControl := by
  unfold Obligations.StreamControl
  rintro ⟨-, -, -, -, hresume, -⟩
  obtain ⟨t, ht, hrunning, -⟩ := hresume strayMover 0 0 (by decide +kernel) (by decide +kernel) (by decide +kernel) (by decide +kernel)
    (by decide +kernel) (by decide +kernel) nofun rfl (by decide +kernel)
  obtain rfl := Host.Outcome.next.inj ht
  exact absurd (strayMover_idles.symm.trans hrunning) (by decide)

end Sys2Proof.Machine
end

section
/-!
SUPPORT. A checkpoint bank over stage memory. R239 lays the banks out in HBM, but nothing holds MEM_BANK_A and MEM_BANK_LEN to it (R250): a
SEALED bank may reach into the stages, and a write there first clears the bank's SEAL word (R389). Three statements say of a write into stage
memory that it changes no other byte, and none of them asks for MEM_BANK_LEN 0.
-/
namespace Sys2Proof.Machine

/-- The base of bank A in device memory, where its SEAL word stands. -/
def sealBase : Nat := 0x40000000

/-- Bank A is SEALED and reaches from device memory past the first stage; its SEAL word has a byte that is not 0. -/
def bankOverStage : State :=
  let regs : List (Nat × BitVec 64) := [
    (Reg.MEM_BANK_A, putField 0 Fld.MEM_BANK_A_BASE sealBase), (Reg.MEM_BANK_LEN, putField 0 Fld.MEM_BANK_LEN_LEN (stage0 - 0x10000)),
    (Reg.MEM_BANK_STATE 0, putField 0 Fld.MEM_BANK_STATE_STATE 2)]
  { regs.foldl (fun (s : State) x => s.wr x.1 x.2) State.reset with mem := [(sealBase, 1)] }

/-- Where the SEAL word has been cleared, a store of bytes above it is not all that memory shows. -/
theorem not_storedAt_of_unsealed {s t : State} {a : Nat} (bs : List Byte) (ha : sealBase < a) (hs : s.byte sealBase = 1)
    (ht : t.byte sealBase = 0) : ¬ storedAt a bs s t := fun h =>
  absurd (ht.symm.trans ((h.2 sealBase (.inl ha)).trans hs)) (by decide)

/-! ### STEST -/

/-- STEST of physical rank 0 with pattern 0, its record through descriptor 1. -/
def stestOfRank : BitVec 128 := BitVec.ofNat 128 (0x70 * 2 ^ 120 + 7 * 2 ^ 116 + 1 * 2 ^ 72)

/-- The result of a test that finds no fault. -/
def soundResult : TestResult :=
  { fail := false, failIndex := 0, failCount := 0, failMap := 0, durationNs := 0, dieTemp := 0, railMv := 0 }

/-- A descriptor of 64 bytes at the start of the first stage. -/
def recordDesc : Desc := { raw := BitVec.ofNat 512 (stage0 + 0x0F * 2 ^ 48 + 64 * 2 ^ 128) }

/-- Cluster 0 runs a keeper stream under that bank, with a region of T0 over the stages. -/
def stestUnderBank : State :=
  let regs : List (Nat × BitVec 64) := [
    (Reg.SEQ_STATUS 0, putField (putField 0 Fld.SEQ_STATUS_STATE 1) Fld.SEQ_STATUS_CTX 2),
    (Reg.MEM_RGN_W0 0 0, putField (putField (putField 0 Fld.MEM_RGN_W0_VALID 1) Fld.MEM_RGN_W0_WR 1) Fld.MEM_RGN_W0_BASE stage0),
    (Reg.MEM_RGN_W1 0 0, putField 0 Fld.MEM_RGN_W1_LIMIT (2 * stage0 - 1))]
  (regs.foldl (fun (s : State) x => s.wr x.1 x.2) bankOverStage).setCl 0 { fetched := [(0, stestOfRank)], desc := [(1, recordDesc.raw)] }

theorem stestUnderBank_ready : Ready stestUnderBank 0 stestOfRank 0x70 := by
  constructor <;> decide +kernel

theorem stestUnderBank_fits : signalFits stestUnderBank 0 stestOfRank := by unfold signalFits; decide +kernel

theorem stestUnderBank_unseals : stestUnderBank.byte sealBase = 1 ∧
    (stestUnderBank.runSeq 0 stestOfRank 0x70 (stestCheck 0) (State.doStest soundResult 0) QEntry.nextPc).byte sealBase = 0 := by decide +kernel

/-- Refutes O29: the record of STEST is written into a stage that lies in a SEALED bank, and the write clears the bank's SEAL word. -/
theorem not_stestRecords : ¬ Obligations.StestRecords := by
  unfold Obligations.StestRecords
  intro hstest
  obtain ⟨t, ht, hstored, -⟩ := hstest stestUnderBank 0 stestOfRank soundResult recordDesc stestUnderBank_ready stestUnderBank_fits
    (by decide +kernel) (by decide +kernel) (by decide +kernel) (by decide +kernel) (by decide +kernel) (by decide +kernel)
    (by decide +kernel) (by decide +kernel) (by decide +kernel) (by decide +kernel) rfl
  obtain rfl := Host.Outcome.next.inj ht
  obtain ⟨hbefore, hafter⟩ := stestUnderBank_unseals
  exact not_storedAt_of_unsealed _ (by decide +kernel) hbefore hafter hstored

/-! ### The ends of a transfer -/

/-- A SEND of cluster 0 to cluster 1 of chip 9, granted; its completion word is the first of the stage. -/
def grantedSend : Tx :=
  { cluster := 0, tenant := 1, entry := {}, dests := [{ chip := 9, state := 1 }], src := 0, total := 4096, tag := 3, tc := 1, dclu := 1
    creg := stage0 }

/-- A RECV of cluster 0 from cluster 1 of chip 9; its completion word is the first of the stage. -/
def awaitedRecv : Rx :=
  { cluster := 0, tenant := 1, entry := {}, src := 9, sclu := 1, dst := 0, total := 4096, tag := 3, creg := stage0 }

/-- A notice of chip 9 for that transfer. -/
def chipNotice (kind : Nat) : Packet :=
  { src := 9, tc := 2, type := 3, dclu := 0, sclu := 1, tag := 3, body := leBytes 1 kind ++ leBytes 15 0 }

def sendUnderBank : State := { bankOverStage with txs := [grantedSend] }
def recvUnderBank : State := { bankOverStage with rxs := [awaitedRecv] }

theorem sendUnderBank_unseals : sendUnderBank.byte sealBase = 1 ∧
    ((sendUnderBank.take (chipNotice 4)).grantSink (chipNotice 4)).byte sealBase = 0 := by decide +kernel

theorem recvUnderBank_unseals : recvUnderBank.byte sealBase = 1 ∧
    ((recvUnderBank.take (chipNotice 3)).grantSink (chipNotice 3)).byte sealBase = 0 := by decide +kernel

theorem stage0_inStage : ∃ c, c < 64 ∧ inStage c stage0 8 = true := ⟨0, by decide, by decide⟩

/-- Refutes O32: the landed notice that completes a SEND has its completion word written into a stage that lies in a SEALED bank, and the
write clears the bank's SEAL word. -/
theorem not_transferSender : ¬ Obligations.TransferSender := by
  unfold Obligations.TransferSender
  rintro ⟨-, -, -, -, -, -, -, -, -, hlanded, -⟩
  obtain ⟨-, hlast⟩ := hlanded sendUnderBank (chipNotice 4) grantedSend _ (by decide +kernel) (by decide +kernel) (by decide +kernel) rfl
  obtain ⟨t, ht, -, -, -, hword⟩ := hlast (by decide +kernel)
  obtain rfl := Host.Outcome.next.inj ht
  obtain ⟨hbefore, hafter⟩ := sendUnderBank_unseals
  exact not_storedAt_of_unsealed _ (by decide) hbefore hafter (hword (by decide) stage0_inStage rfl)

/-- Refutes O33: the length notice that ends a RECV has its completion word written into a stage that lies in a SEALED bank, and the write
clears the bank's SEAL word. -/
theorem not_transferReceiver : ¬ Obligations.TransferReceiver := by
  unfold Obligations.TransferReceiver
  rintro ⟨-, -, -, -, hlength, -⟩
  obtain ⟨t, ht, -, -, hword⟩ := hlength recvUnderBank (chipNotice 3) awaitedRecv (by decide +kernel) (by decide +kernel) (by decide +kernel)
    (.inr ⟨stage0_inStage, rfl⟩)
  obtain rfl := Host.Outcome.next.inj ht
  obtain ⟨hbefore, hafter⟩ := recvUnderBank_unseals
  exact not_storedAt_of_unsealed _ (by decide) hbefore hafter (hword (by decide))

end Sys2Proof.Machine
end

section
/-!
SUPPORT. A request for a mover that the statement of its assignment does not rule out: its hypotheses bound no slot, and the registers of an
activation stack past the 16 of the chip (R233) reach into those of a sequencer.
-/
namespace Sys2Proof.Machine

/-- The slot whose STK_TOP of cluster 0 lies where token 64 of cluster 0 does. -/
def straySlot : Nat := 4033

theorem stkTop_stray : Reg.STK_TOP straySlot 0 = Reg.SEQ_TOKEN 0 64 := rfl

/-- A PUSH of an entry of 64 bytes in that slot asks for a mover. -/
def strayPush : MovReq := ⟨{ kind := 2, slot := straySlot, trailer := BitVec.ofNat 512 (64 * 2 ^ 64) }, false, true⟩

/-- The PUSH at the port's head; its header waits for token 64. -/
def strayHead : QEntry := { word := BitVec.ofNat 128 (0x34 * 2 ^ 120 + 3 * 2 ^ 116 + 64 * 2 ^ 104) }

/-- Cluster 0 runs, token 64 has count and quantum 0, and the head of its mover port has asked. -/
def strayAsking : State :=
  { ((State.reset.setSeqState 0 seqRunning).wr (Reg.SEQ_TOKEN 0 64) 0).setCl 0 { movQ := [strayHead] } with movReqs := [strayPush] }

/-- The new TOP of the partition is written over the token's count. -/
theorem strayAsking_counts : strayAsking.tok 0 64 = 0 ∧ strayAsking.assignMover.tok 0 64 = 64 := by decide +kernel

/-- Refutes O31: a mover assigned to a PUSH does not leave the token of its header wait at its count less the quantum where the registers of
its slot's stack overlap the token's. The statement lets a request name any slot. -/
theorem not_moverControl : ¬ Obligations.MoverControl := by
  unfold Obligations.MoverControl
  rintro ⟨hassign, -⟩
  obtain ⟨-, hhead⟩ := hassign strayAsking strayPush 0 ((List.range 31).map (· + 1)) (by decide +kernel) (by decide +kernel)
    (.inl (by decide +kernel)) (by decide)
  obtain ⟨t, ht, -, -, -, -, -, -, htoken, -⟩ := hhead strayHead [] rfl (by decide +kernel)
  obtain rfl := Host.Outcome.next.inj ht
  obtain ⟨hbefore, hafter⟩ := strayAsking_counts
  have hwait : strayHead.wait = 64 := by decide +kernel
  rw [hwait] at htoken
  have htaken := htoken (by decide) (by decide)
  change strayAsking.assignMover.tok 0 64 = strayAsking.tok 0 64 - _ at htaken
  rw [hbefore, hafter] at htaken
  omega

end Sys2Proof.Machine
end

section
/-!
SUPPORT. The CRC-64 of R257 as a sum: a register carried over bytes is the same carried over zeros, with the CRC of the bytes added (R394).
-/
namespace Sys2Proof

/-- One bit of a CRC of `w` bits. -/
def crcBit (w poly c : Nat) : Nat := if c.testBit (w - 1) then (c * 2 % 2 ^ w) ^^^ poly else c * 2 % 2 ^ w

theorem crcBit_xor (w poly c d : Nat) : crcBit w poly (c ^^^ d) = crcBit w poly c ^^^ crcBit w poly d := by
  have hdouble : (c ^^^ d) * 2 % 2 ^ w = (c * 2 % 2 ^ w) ^^^ (d * 2 % 2 ^ w) := by
    rw [← Nat.xor_mod_two_pow]
    congr 1
    have h := Nat.shiftLeft_xor_distrib (a := c) (b := d) (i := 1)
    simpa [Nat.shiftLeft_eq] using h
  unfold crcBit
  rw [Nat.testBit_xor, hdouble]
  cases c.testBit (w - 1) <;> cases d.testBit (w - 1) <;> simp only [Bool.false_eq_true, Bool.xor_false, Bool.xor_true,
    Bool.not_false, Bool.not_true, if_true, if_false]
  · rw [Nat.xor_assoc]
  · rw [Nat.xor_assoc, Nat.xor_assoc, Nat.xor_comm (d * 2 % 2 ^ w)]
  · rw [Nat.xor_assoc, Nat.xor_comm poly, Nat.xor_assoc, Nat.xor_self, Nat.xor_zero]

theorem crcBit_lt {w poly : Nat} (hp : poly < 2 ^ w) (c : Nat) : crcBit w poly c < 2 ^ w := by
  have hm : c * 2 % 2 ^ w < 2 ^ w := Nat.mod_lt _ (Nat.two_pow_pos _)
  unfold crcBit
  split
  · exact Nat.xor_lt_two_pow hm hp
  · exact hm

theorem crcByteMsb_eq (w poly crc : Nat) (b : Byte) :
    crcByteMsb w poly crc b = (List.range 8).foldl (fun c _ => crcBit w poly c) (crc ^^^ (b.toNat * 2 ^ (w - 8))) := rfl

theorem crcByteMsb_xor (w poly c d : Nat) (b : Byte) :
    crcByteMsb w poly (c ^^^ d) b = crcByteMsb w poly c 0 ^^^ crcByteMsb w poly d b := by
  have hbits : ∀ (l : List Nat) (x y : Nat), l.foldl (fun c _ => crcBit w poly c) (x ^^^ y) =
      l.foldl (fun c _ => crcBit w poly c) x ^^^ l.foldl (fun c _ => crcBit w poly c) y := by
    intro l
    induction l with
    | nil => exact fun _ _ => rfl
    | cons _ l ih => exact fun x y => by simp only [List.foldl_cons, crcBit_xor, ih]
  rw [crcByteMsb_eq, crcByteMsb_eq, crcByteMsb_eq, Nat.xor_assoc, hbits]
  simp

theorem crcByteMsb_lt {w poly : Nat} (hp : poly < 2 ^ w) (c : Nat) (b : Byte) : crcByteMsb w poly c b < 2 ^ w := by
  rw [crcByteMsb_eq, show List.range 8 = List.range 7 ++ [7] from rfl, List.foldl_append]
  exact crcBit_lt hp _

theorem crcMsb_xor (w poly c d : Nat) (bs : List Byte) :
    crcMsb w poly (c ^^^ d) bs = crcMsb w poly c (List.replicate bs.length 0) ^^^ crcMsb w poly d bs := by
  induction bs generalizing c d with
  | nil => rfl
  | cons b bs ih =>
    show crcMsb w poly (crcByteMsb w poly (c ^^^ d) b) bs = _
    rw [crcByteMsb_xor, ih]
    rfl

theorem crcMsb_lt {w poly c : Nat} (hp : poly < 2 ^ w) (hc : c < 2 ^ w) (bs : List Byte) : crcMsb w poly c bs < 2 ^ w := by
  induction bs generalizing c with
  | nil => exact hc
  | cons b bs ih => exact ih (crcByteMsb_lt hp c b)

/-- The CRC of two parts is that of the second, started from that of the first. -/
theorem crc64From_append (c : BitVec 64) (xs ys : List Byte) : crc64From c (xs ++ ys) = crc64From (crc64From c xs) ys := by
  unfold crc64From
  rw [BitVec.toNat_ofNat, Nat.mod_eq_of_lt (crcMsb_lt (by decide) c.isLt xs)]
  simp only [crcMsb, List.foldl_append]

theorem crc64From_eq_zeros_xor (c : BitVec 64) (bs : List Byte) :
    crc64From c bs = crc64From c (List.replicate bs.length 0) ^^^ crc64 bs := by
  have h := crcMsb_xor 64 0x42F0E1EBA9EA3693 c.toNat 0 bs
  rw [Nat.xor_zero] at h
  unfold crc64 crc64From
  rw [h, BitVec.ofNat_xor]
  rfl

namespace Machine

/-- The parts of a body in order, each with its own CRC, give the CRC of the body (R394). -/
theorem bodyCrc_of_parts (f : Fill) (ps : List (Nat × List Byte))
    (h : f.crcs = ps.map (fun e => (e.1, (e.2.length, crc64 e.2)))) : f.bodyCrc = crc64 (ps.flatMap (·.2)) := by
  have hparts : ∀ (l : List (Nat × List Byte)) (c : BitVec 64),
      (l.map (fun e => (e.1, (e.2.length, crc64 e.2)))).foldl (fun c e => crc64From c (List.replicate e.2.1 0) ^^^ e.2.2) c =
        crc64From c (l.flatMap (·.2)) := by
    intro l
    induction l with
    | nil => exact fun c => by simp [crc64From, crcMsb]
    | cons x l ih =>
      intro c
      rw [List.map_cons, List.foldl_cons, List.flatMap_cons, crc64From_append, ← ih, ← crc64From_eq_zeros_xor]
  unfold Fill.bodyCrc
  rw [h, hparts]
  rfl

end Machine
end Sys2Proof
end

section
/-!
SUPPORT. A write of device memory where no pseudo-channel is retired or withheld and no checkpoint bank is laid out: it stores its bytes,
wherever every burst it covers only in part is sound (R216, R218, R220, R389).
-/
namespace Sys2Proof.Machine

variable {s t u : State}

/-! ### What is stored -/

theorem storedAt_nil (a : Nat) (s : State) : storedAt a [] s s := ⟨fun i h => absurd h (by simp), fun _ _ => rfl⟩

theorem storedAt_poke (s : State) (a : Nat) (bs : List Byte) : storedAt a bs s (s.poke a bs) :=
  ⟨fun i h => byte_poke_in s a i bs h, fun b h => byte_poke_out s a b bs h⟩

/-- Only memory counts. -/
theorem storedAt.of_mem {a : Nat} {bs : List Byte} {s' t' : State} (h : storedAt a bs s t) (hs : s'.mem = s.mem) (ht : t'.mem = t.mem) :
    storedAt a bs s' t' := by
  simp only [storedAt, State.byte] at h ⊢
  rw [hs, ht]
  exact h

/-- Two stores side by side are one, in either order. -/
theorem storedAt.append {a : Nat} {xs ys : List Byte} (h : storedAt a xs s t ∧ storedAt (a + xs.length) ys t u ∨
    storedAt (a + xs.length) ys s t ∧ storedAt a xs t u) : storedAt a (xs ++ ys) s u := by
  have hlen := List.length_append (as := xs) (bs := ys)
  rcases h with ⟨⟨hx, hxout⟩, hy, hyout⟩ | ⟨⟨hy, hyout⟩, hx, hxout⟩
  · refine ⟨fun i hi => ?_, fun b hb => (hyout b (by omega)).trans (hxout b (by omega))⟩
    rcases Nat.lt_or_ge i xs.length with hi' | hi'
    · rw [List.getElem_append_left hi', hyout _ (by omega), hx i hi']
    · rw [List.getElem_append_right hi', ← hy _ (by omega), show a + xs.length + (i - xs.length) = a + i by omega]
  · refine ⟨fun i hi => ?_, fun b hb => (hxout b (by omega)).trans (hyout b (by omega))⟩
    rcases Nat.lt_or_ge i xs.length with hi' | hi'
    · rw [List.getElem_append_left hi', hx i hi']
    · rw [List.getElem_append_right hi', hxout _ (by omega), ← hy _ (by omega),
        show a + xs.length + (i - xs.length) = a + i by omega]

/-! ### The map of device memory -/

/-- No pseudo-channel is retired or withheld (R220, R222). -/
def mapPlain (s : State) : Prop :=
  s.fld Reg.MEM_REMAP_STATUS Fld.MEM_REMAP_STATUS_J = 0 ∧ ∀ i, i < 8 → s.rd (Reg.MEM_PC_WITHHELD i) = 0

theorem withheld_of_mapPlain (h : mapPlain s) (p : Nat) : s.withheld p = false := by
  have hword : s.rd (Reg.MEM_PC_WITHHELD (p % 8)) = 0 := h.2 _ (Nat.mod_lt _ (by decide))
  rw [State.withheld, fld_def, hword]
  simp [getField]

theorem burstFails_of_mapPlain (h : mapPlain s) (b : Nat) : s.burstFails b = s.burstBad b := by
  rw [State.burstFails, withheld_of_mapPlain h, Bool.or_false]

/-- Bursts whose code was right have a right code. -/
def burstsKept (s t : State) : Prop := ∀ b, s.burstBad b = false → t.burstBad b = false

/-- A burst made right leaves every other one as it was. -/
theorem burstsKept_healBurst (s : State) (b : Nat) : burstsKept s (s.healBurst b) := by
  intro x hx
  simp only [State.burstBad, Bool.or_eq_false_iff, bne_eq_false_iff_eq, List.any_eq_false] at hx ⊢
  obtain ⟨hcode, hlost⟩ := hx
  refine ⟨?_, fun k hk => ?_⟩
  · show Tab.get 0 (s.codeErr.set 0 b 0) x = 0
    rw [Tab.get_set]
    split
    · rfl
    · exact hcode
  · obtain ⟨k', hk', rfl⟩ := List.mem_map.mp hk
    have hold := hlost k' hk'
    split
    · simp only [Commit.lost, Bool.and_eq_true, Bool.not_eq_true', not_and, Bool.not_eq_false] at hold ⊢
      intro hpc
      have hin := hold hpc
      simp only [List.contains_eq_mem, decide_eq_true_eq, List.mem_append] at hin ⊢
      exact .inl hin
    · exact hold

/-- What a write of device memory may change: the bytes, the codes, the counts of read-modify-writes, and what is observed. -/
structure HbmWritten (s t : State) : Prop where
  regs : ∀ off, (∀ i, i < 8 → off ≠ Reg.MEM_RMW_CNT i) → observes off = false → t.rd off = s.rd off
  rest : t = { s with regs := t.regs, rings := t.rings, mem := t.mem, codeErr := t.codeErr, commits := t.commits
                      pw := { s.pw with acts := t.pw.acts, who := t.pw.who } }
  bursts : burstsKept s t

theorem HbmWritten.refl (s : State) : HbmWritten s s := ⟨fun _ _ _ => rfl, rfl, fun _ h => h⟩

theorem HbmWritten.trans (h : HbmWritten s t) (k : HbmWritten t u) : HbmWritten s u := by
  refine ⟨fun off hr ho => (k.regs off hr ho).trans (h.regs off hr ho), ?_, fun b hb => k.bursts b (h.bursts b hb)⟩
  rw [k.rest, h.rest]

theorem hbmWritten_poke (s : State) (a : Nat) (bs : List Byte) : HbmWritten s (s.poke a bs) := by
  refine ⟨fun _ _ _ => by rw [poke_eq]; rfl, ?_, fun _ h => ?_⟩
  · rw [poke_eq]
  · rw [poke_eq]; exact h

theorem hbmWritten_healBurst (s : State) (b : Nat) : HbmWritten s (s.healBurst b) :=
  ⟨fun _ _ _ => rfl, rfl, burstsKept_healBurst s b⟩

theorem hbmWritten_rmwCnt (s : State) {i : Nat} (hi : i < 8) : HbmWritten s (s.cnt (Reg.MEM_RMW_CNT i)) :=
  ⟨fun _ hr _ => rd_cnt_ne (hr i hi), rfl, fun _ h => h⟩

theorem Near.hbmWritten (h : Near (fun _ => False) s t) : HbmWritten s t := by
  refine ⟨fun off _ ho => h.regs off id ho, ?_, fun b hb => ?_⟩
  · rw [h.eq]
  · rw [h.eq]; exact hb

theorem unobserved_rmw {off : Nat} (h : ∀ i, i < 8 → off ≠ Reg.MEM_RMW_CNT i) (ho : observes off = false) (k : HbmWritten s t) (f : Field) :
    t.fld off f = s.fld off f := fld_of_rd f (k.regs off h ho)

theorem HbmWritten.mapPlain (k : HbmWritten s t) (h : mapPlain s) : mapPlain t := by
  refine ⟨(unobserved_rmw (by decide) (by decide) k _).trans h.1, fun i hi => (k.regs _ (fun j hj => ?_) ?_).trans (h.2 i hi)⟩
  · simp only [Reg.MEM_PC_WITHHELD, Reg.MEM_RMW_CNT]; omega
  · rw [observes_eq_false]; simp only [Reg.MEM_PC_WITHHELD]; omega

/-! ### The write -/

theorem near_spend (s : State) (i n : Nat) : Near (fun _ => False) s (s.spend i n) := ⟨fun _ _ _ => rfl, rfl⟩

theorem near_countBursts (s : State) (src a n : Nat) : Near (fun _ => False) s (s.countBursts src a n) :=
  (Near.refl _ s).foldl (fun x _ _ => (Near.refl _ x).bumpGlb _ _ _)

/-- A whole burst, or a part of one that is sound. -/
theorem writeBurst_plain (a : Nat) (bs : List Byte) (hp : mapPlain s) (h : bs.length = 64 ∨ s.burstBad (a / 64) = false) :
    ∃ t, s.writeBurst a bs = (none, t) ∧ HbmWritten s t ∧ storedAt a bs s t := by
  unfold State.writeBurst
  dsimp only
  split
  · rw [withheld_of_mapPlain hp, if_neg (by decide)]
    exact ⟨_, rfl, (hbmWritten_healBurst s _).trans (hbmWritten_poke _ a bs), (storedAt_poke (s.healBurst (a / 64)) a bs).of_mem rfl rfl⟩
  · next hlen =>
    have hcnt := hbmWritten_rmwCnt s (Nat.mod_lt (hbmLocate s.retired a).1 (by decide : 0 < 8))
    have hsound : (s.cnt (Reg.MEM_RMW_CNT ((hbmLocate s.retired a).1 % 8))).burstFails (a / 64) = false := by
      rw [burstFails_of_mapPlain (hcnt.mapPlain hp)]
      exact hcnt.bursts _ (h.resolve_left hlen)
    rw [hsound, if_neg (by decide)]
    exact ⟨_, rfl, hcnt.trans (hbmWritten_poke _ a bs), (storedAt_poke (s.cnt _) a bs).of_mem rfl rfl⟩

/-- Every burst that the `n` bytes at `a` cover only in part is sound. -/
def partsSound (s : State) (a n : Nat) : Prop :=
  ∀ b, 64 * b < a + n → a < 64 * b + 64 → (64 * b < a ∨ a + n < 64 * b + 64) → s.burstBad b = false

theorem partsSound_of_whole (s : State) {a n : Nat} (ha : a % 64 = 0) (hn : n % 64 = 0) : partsSound s a n :=
  fun b h1 h2 h3 => absurd h3 (by omega)

/-- The bursts of a write, one after another. -/
theorem writeParts_plain (k a : Nat) (bs : List Byte) (hp : mapPlain s) (hk : bs.length + a % 64 ≤ 64 * k)
    (hs : partsSound s a bs.length) : ∃ t, (splitBursts k a bs).foldl (fun (acc : WrErr × State) p =>
      let w := acc.2.writeBurst p.1 p.2
      (acc.1.or w.1, w.2)) (none, s) = (none, t) ∧ HbmWritten s t ∧ storedAt a bs s t := by
  induction k generalizing s a bs with
  | zero =>
    obtain rfl : bs = [] := List.length_eq_zero_iff.mp (by omega)
    exact ⟨s, rfl, .refl s, storedAt_nil a s⟩
  | succ k ih =>
    cases bs with
    | nil => exact ⟨s, rfl, .refl s, storedAt_nil a s⟩
    | cons x xs =>
      obtain ⟨bs, hbs⟩ : ∃ bs, bs = x :: xs := ⟨_, rfl⟩
      obtain ⟨n, hn⟩ : ∃ n, n = 64 - a % 64 := ⟨_, rfl⟩
      rw [show splitBursts (k + 1) a (x :: xs) = (a, (x :: xs).take (64 - a % 64)) :: splitBursts k (a + (64 - a % 64))
        ((x :: xs).drop (64 - a % 64)) from rfl, ← hbs, ← hn, List.foldl_cons]
      rw [← hbs] at hk hs
      have hpos : 0 < bs.length := by rw [hbs]; simp
      obtain ⟨u, hu, hwu, hsu⟩ := writeBurst_plain a (bs.take n) hp (by
        rw [List.length_take]
        rcases Nat.lt_or_ge (min n bs.length) 64 with h | h
        · exact .inr (hs _ (by omega) (by omega) (by omega))
        · exact .inl (by omega))
      have hrest : partsSound u (a + n) (bs.drop n).length := by
        rw [List.length_drop]
        exact fun b h1 h2 h3 => hwu.bursts b (hs b (by omega) (by omega) (by omega))
      obtain ⟨t, ht, hwt, hst⟩ := ih (a + n) (bs.drop n) (hwu.mapPlain hp) (by rw [List.length_drop]; omega) hrest
      refine ⟨t, ?_, hwu.trans hwt, ?_⟩
      · simp only [hu]
        exact ht
      · rw [← List.take_append_drop n bs]
        refine storedAt.append (.inl ⟨hsu, ?_⟩)
        rcases Nat.le_total n bs.length with h | h
        · rwa [List.length_take, Nat.min_eq_left h]
        · rw [List.drop_eq_nil_of_le h] at hst ⊢
          exact ⟨fun i hi => absurd hi (by simp), fun b _ => hst.2 b (by simpa using Nat.lt_or_ge b (a + n))⟩

/-- A write of device memory that is laid out plainly (R218). -/
theorem write_plain (s : State) (a : Nat) (bs : List Byte) (hp : mapPlain s) (hbank : s.bankLen = 0) (hin : a < s.memTop)
    (hs : partsSound s a bs.length) : ∃ t, s.write a bs = (none, t) ∧ HbmWritten s t ∧ storedAt a bs s t := by
  rw [State.write, show s.unseal a bs.length = s from if_pos hbank, State.writeMem]
  cases bs with
  | nil => exact ⟨s, rfl, .refl s, storedAt_nil a s⟩
  | cons x xs =>
    rw [show s.place a = .hbm from if_pos hin]
    obtain ⟨t, ht, hwt, hst⟩ := writeParts_plain ((x :: xs).length / 64 + 2) a (x :: xs) hp (by omega) hs
    have hnear := (near_countBursts t 0x05 a (x :: xs).length).trans (near_spend _ 9 ((a + (x :: xs).length - 1) / 64 - a / 64 + 1))
    refine ⟨_, ?_, hwt.trans hnear.hbmWritten, hst.of_mem rfl (by rw [hnear.eq])⟩
    simp only [List.isEmpty_cons, Bool.false_eq_true, if_false, ht]

/-- The whole bursts of `plainHbm` may be written, whatever their codes. -/
theorem plainHbm.write (h : plainHbm s a n) (bs : List Byte) (hn : bs.length = n) :
    ∃ t, s.write a bs = (none, t) ∧ HbmWritten s t ∧ storedAt a bs s t := by
  obtain ⟨ha, hmod, hpos, htop, hbank, hj, hwithheld⟩ := h
  exact write_plain s a bs ⟨hj, hwithheld⟩ hbank (by omega) (partsSound_of_whole s ha (hn ▸ hmod))

end Sys2Proof.Machine
end

section
/-!
SUPPORT. The mirror (R221, R232, R394, R396): what BEGIN, a packet of a chunk, the last chunk and ABORT leave.
-/
namespace Sys2Proof.Machine

variable {s t u v : State}

/-! ### This chip's number -/

/-- Every register but IDM_BOARD0 may differ: the chip keeps its number (R8). -/
def boardKept (s t : State) : Prop := regsKept (· ≠ Reg.IDM_BOARD0) s t

theorem boardKept.chip (h : boardKept s t) : t.chip = s.chip := fld_of_rd _ (h _ (fun hne => hne rfl))

theorem boardKept.of_far (h : regsKept farRegs s t) : boardKept s t := fun off ho => h off (by
  obtain rfl : off = Reg.IDM_BOARD0 := Decidable.of_not_not ho
  unfold farRegs; decide)

theorem boardKept.of_regs (h : t.regs = s.regs) : boardKept s t := (regsKept.refl _ s).of_regs h

theorem boardKept.trans (h : boardKept s t) (k : boardKept t u) : boardKept s u := regsKept.trans h k

theorem boardKept_setFld (s : State) {off : Nat} (f : Field) (n : Nat) (h : off ≠ Reg.IDM_BOARD0) : boardKept s (s.setFld off f n) :=
  (regsKept.refl _ s).setFld f n h

theorem boardKept_cnt (s : State) {off : Nat} (h : off ≠ Reg.IDM_BOARD0) : boardKept s (s.cnt off) := boardKept_setFld s _ _ h

theorem boardKept_event (s : State) {st ct : Nat} (f : Field) (h1 : st ≠ Reg.IDM_BOARD0) (h2 : ct ≠ Reg.IDM_BOARD0) :
    boardKept s (s.event st f ct) := (regsKept.refl _ s).event f h1 h2

theorem boardKept.ite {p : Prop} [Decidable p] (h1 : boardKept s t) (h2 : boardKept s u) : boardKept s (if p then t else u) :=
  regsKept.ite h1 h2

theorem logError_boardKept (s : State) (x : LogEntry) : boardKept s (s.logError x) := by
  unfold State.logError
  exact .ite (.of_regs rfl) (((boardKept.of_regs rfl).trans (.of_far (write_farKept (s.onBehalf 0) _ _))).trans
    (boardKept_setFld _ _ _ (by decide)))

theorem unitChange_boardKept (s : State) (x : Nat) (r : UnitRec) (outcome cause : Nat) :
    boardKept s (s.unitChange x r outcome cause) :=
  (boardKept.of_regs rfl).trans (.of_far (noted_unitChange farRegs s x r outcome cause).farKept)

/-- A unit's record is written, and stands as the last change (R463). -/
theorem boardKept.recorded (h : boardKept s t) (x : Nat) (r : UnitRec) (l : Nat × Nat × Nat × Nat) :
    boardKept s { t.setUnit x r with lastChange := l } := h.trans (.of_regs rfl)

theorem confirm_boardKept (s : State) (x cause : Nat) : boardKept s (s.confirm x cause) := by
  unfold State.confirm
  extract_lets r
  have hset := (boardKept_cnt s (off := Reg.GLB_CONFIRM_CNT) (by decide)).recorded x { r with conf := r.conf + 1 } (x, r.state, 4, cause)
  exact hset.trans (.of_far (Noted.refl _ _).epochUp.farKept)

theorem untested_boardKept (s : State) (q : TestReq) : boardKept s (s.untested q) := by
  unfold State.untested
  extract_lets s1 r s2 s3
  have h1 : boardKept s s1 := boardKept_event s _ (by decide) (by decide)
  clear_value s1
  have h3 : boardKept s s3 := h1.recorded _ _ _
  exact h3.trans (logError_boardKept s3 _)

theorem setTestsFor_boardKept (s : State) (x : Nat) (l : List TestReq) : boardKept s (s.setTestsFor x l) := by
  unfold State.setTestsFor
  split <;> exact .of_regs rfl

theorem charge_boardKept (s : State) {cls : Nat} (hcls : cls < 10) (unit tenant dpa : Nat) :
    boardKept s (s.charge cls unit tenant dpa) := by
  have hclass : Reg.GLB_CLASS_CNT (cls - 1) ≠ Reg.IDM_BOARD0 := by simp only [Reg.GLB_CLASS_CNT, Reg.IDM_BOARD0]; omega
  unfold State.charge
  extract_lets s1 s2 s3 s4 q log r s5 tests s6 rec
  have h4 : boardKept s s4 := (((boardKept_event s _ (by decide) (by decide)).trans (boardKept_cnt s1 hclass)).trans
    (.of_far (trace_farKept s2 _ _ _ _ _))).trans (.of_far (trigger_farKept s3 _ _))
  have hlog : boardKept s (log s4) := h4.trans (logError_boardKept s4 _)
  clear_value s4
  have h5 : boardKept s s5 := .ite (h4.trans (confirm_boardKept s4 _ _)) h4
  clear_value s5
  exact .ite hlog (.ite h4 (.ite (h5.trans (untested_boardKept s5 q))
    ((h5.trans (setTestsFor_boardKept s5 _ _)).trans (unitChange_boardKept s6 _ _ _ _))))

theorem chargeWrite_boardKept (s : State) (r : WrErr) (tenant : Nat) : boardKept s (s.chargeWrite r tenant) := by
  unfold State.chargeWrite
  split
  · exact .ite (charge_boardKept s (by decide) _ _ _) (charge_boardKept s (by decide) _ _ _)
  · exact .of_regs rfl

theorem write_boardKept (s : State) (tenant a : Nat) (bs : List Byte) : boardKept s ((s.onBehalf tenant).write a bs).2 :=
  (boardKept.of_regs (t := s.onBehalf tenant) rfl).trans (.of_far (write_farKept (s.onBehalf tenant) a bs))

theorem take_boardKept (s : State) (p : Packet) : boardKept s (s.take p) := .of_regs rfl

theorem mirrorEmpty_boardKept (s : State) : boardKept s s.mirrorEmpty :=
  (boardKept.of_regs (t := { s with fill := none }) rfl).trans (boardKept_setFld _ _ _ (by decide))

theorem mirrorEmpty_rd (s : State) {off : Nat} (h : off ≠ Reg.MEM_MIRROR_STATE) : s.mirrorEmpty.rd off = s.rd off :=
  rd_setFld_ne (s := { s with fill := none }) _ _ h

theorem mirrorEmpty_state (s : State) : s.mirrorEmpty.mirrorState = 0 :=
  fld_setFld_here { s with fill := none } _ _ _ (by decide)

theorem mirrorEmpty_near (s : State) : Near (· = Reg.MEM_MIRROR_STATE) { s with fill := none } s.mirrorEmpty :=
  (Near.refl _ _).setFld _ _ _ (.inl rfl)

/-! ### Control packets (R393) -/

theorem handed_sendMirrorCtl (hchip : u.chip = s.chip) (hrt : u.rt = v.rt) (dst tag kind reason value : Nat) :
    handed (mirrorCtl s dst tag kind reason value) v (u.sendMirrorCtl dst tag kind reason value) := by
  unfold handed mirrorCtl
  rw [← hchip, ← hrt]
  rfl

theorem sendMirrorCtl_eq (u : State) (dst tag kind reason value : Nat) : u.sendMirrorCtl dst tag kind reason value =
    { u with rt := (u.sendMirrorCtl dst tag kind reason value).rt } := rfl

theorem Near.sendMirrorCtl {e : Nat → Prop} (h : Near e s u) (dst tag kind reason value : Nat) :
    Near e { s with rt := (u.sendMirrorCtl dst tag kind reason value).rt } (u.sendMirrorCtl dst tag kind reason value) := by
  refine ⟨h.regs, ?_⟩
  rw [sendMirrorCtl_eq, h.eq]
  rfl

theorem mem_sendMirrorCtl (u : State) (dst tag kind reason value : Nat) : (u.sendMirrorCtl dst tag kind reason value).mem = u.mem := rfl

theorem rd_sendMirrorCtl (u : State) (dst tag kind reason value off : Nat) : (u.sendMirrorCtl dst tag kind reason value).rd off = u.rd off := rfl

theorem fld_sendMirrorCtl (u : State) (dst tag kind reason value off : Nat) (f : Field) :
    (u.sendMirrorCtl dst tag kind reason value).fld off f = u.fld off f := rfl

theorem mirrorState_sendMirrorCtl (u : State) (dst tag kind reason value : Nat) :
    (u.sendMirrorCtl dst tag kind reason value).mirrorState = u.mirrorState := rfl

/-! ### BEGIN -/

theorem begin_waits (s : State) (p : Packet) (h : s.landsLater s.mirrorBase = true) :
    exec (.beginRx p) s = .next s ∧ exec (.mirrorChunkRx p) s = .next s :=
  ⟨congrArg Host.Outcome.next (if_pos h), congrArg Host.Outcome.next (if_pos h)⟩

theorem exec_beginRx (p : Packet) (h : s.landsLater s.mirrorBase = false) : exec (.beginRx p) s = .next ((s.take p).mirrorBegin p) :=
  congrArg Host.Outcome.next (if_neg (by rw [h]; decide))

/-- A BEGIN without room or region is refused (R394). -/
theorem begin_refused (p : Packet) (hl : s.landsLater s.mirrorBase = false)
    (h : s.mirrorLen < leNat ((p.body.drop 8).take 8) ∨ s.regionOk 1 s.mirrorBase s.mirrorLen .fl = false) :
    Completes (.beginRx p) s (fun t => handed (mirrorCtl s p.src p.tag 3 2 0) (s.take p) t ∧ t = { s.take p with rt := t.rt }) := by
  have hbegin : (s.take p).mirrorBegin p = (s.take p).sendMirrorCtl p.src p.tag 3 2 0 :=
    if_pos (h.imp id (fun hr => by rw [Bool.not_eq_true']; exact hr))
  exact ⟨_, (exec_beginRx p hl).trans (congrArg Host.Outcome.next hbegin), handed_sendMirrorCtl rfl rfl _ _ _ _ _, sendMirrorCtl_eq _ _ _ _ _ _⟩

theorem mirrorBegin_roomy (p : Packet) (hlen : leNat ((p.body.drop 8).take 8) ≤ s.mirrorLen)
    (hr : s.regionOk 1 s.mirrorBase s.mirrorLen .fl = true) :
    ¬ (s.mirrorLen < leNat ((p.body.drop 8).take 8) ∨ (!s.regionOk 1 s.mirrorBase s.mirrorLen .fl) = true) := by
  rw [hr]
  simpa using hlen

/-- A BEGIN while the mirror drains is refused (R394). -/
theorem begin_drains (p : Packet) (hl : s.landsLater s.mirrorBase = false) (hlen : leNat ((p.body.drop 8).take 8) ≤ s.mirrorLen)
    (hr : s.regionOk 1 s.mirrorBase s.mirrorLen .fl = true) (h3 : s.mirrorState = 3) :
    Completes (.beginRx p) s (fun t => handed (mirrorCtl s p.src p.tag 3 1 0) (s.take p) t ∧ t = { s.take p with rt := t.rt }) := by
  have hbegin : (s.take p).mirrorBegin p = (s.take p).sendMirrorCtl p.src p.tag 3 1 0 :=
    (if_neg (mirrorBegin_roomy p hlen hr)).trans (if_pos h3)
  exact ⟨_, (exec_beginRx p hl).trans (congrArg Host.Outcome.next hbegin), handed_sendMirrorCtl rfl rfl _ _ _ _ _, sendMirrorCtl_eq _ _ _ _ _ _⟩

/-- The mirror fills for the sender of `p`, whose BEGIN asks for `len` bytes. -/
def State.mirrorFilling (s : State) (p : Packet) (len : Nat) : State :=
  ({ s with fill := some { sender := p.src, tag := p.tag, len := len } }.setFld Reg.MEM_MIRROR_STATE Fld.MEM_MIRROR_STATE_STATE 1).setFld
    Reg.MEM_MIRROR_STATE Fld.MEM_MIRROR_STATE_OWNER p.src

theorem mirrorFilling_state (s : State) (p : Packet) (len : Nat) : (s.mirrorFilling p len).mirrorState = 1 :=
  (fld_setFld_beside _ _ _ _ _ (by decide) (by decide)).trans (fld_setFld_here _ _ _ _ (by decide))

theorem mirrorFilling_owner (s : State) (p : Packet) (len : Nat) (h : p.src < 2 ^ 15) :
    (s.mirrorFilling p len).fld Reg.MEM_MIRROR_STATE Fld.MEM_MIRROR_STATE_OWNER = p.src :=
  (fld_setFld_here _ _ _ _ (by decide)).trans (Nat.mod_eq_of_lt h)

theorem mirrorFilling_boardKept (s : State) (p : Packet) (len : Nat) : boardKept s (s.mirrorFilling p len) :=
  ((boardKept.of_regs rfl).trans (boardKept_setFld _ _ _ (by decide))).trans (boardKept_setFld _ _ _ (by decide))

theorem mirrorBegin_fills (p : Packet) (hlen : leNat ((p.body.drop 8).take 8) ≤ s.mirrorLen)
    (hr : s.regionOk 1 s.mirrorBase s.mirrorLen .fl = true) (h3 : s.mirrorState ≠ 3) :
    s.mirrorBegin p = ((((s.onBehalf 1).write s.mirrorBase (leBytes 8 0)).2.chargeWrite
      ((s.onBehalf 1).write s.mirrorBase (leBytes 8 0)).1 1).mirrorFilling p (leNat ((p.body.drop 8).take 8))).sendMirrorCtl p.src p.tag 2 0 0 :=
  (if_neg (mirrorBegin_roomy p hlen hr)).trans (if_neg h3)

theorem mirrorFilling_near (s : State) (p : Packet) (len : Nat) :
    Near (· = Reg.MEM_MIRROR_STATE) { s with fill := some { sender := p.src, tag := p.tag, len := len } } (s.mirrorFilling p len) :=
  ((Near.refl (· = Reg.MEM_MIRROR_STATE) _).setFld _ _ _ (.inl rfl)).setFld _ _ _ (.inl rfl)

/-- Any other BEGIN makes the mirror invalid and FILLING, its SEAL word 0, and answers ACCEPT (R394). -/
theorem begin_accepted (p : Packet) (len : Nat) (w : WrErr × State) (hl : s.landsLater s.mirrorBase = false)
    (hlen : len = leNat ((p.body.drop 8).take 8)) (hroom : len ≤ s.mirrorLen) (hr : s.regionOk 1 s.mirrorBase s.mirrorLen .fl = true)
    (h3 : s.mirrorState ≠ 3) (hsrc : p.src < 2 ^ 15) (hw : w = ((s.take p).onBehalf 1).write s.mirrorBase (leBytes 8 0)) :
    Completes (.beginRx p) s (fun t =>
      handed (mirrorCtl s p.src p.tag 2 0 0) (w.2.chargeWrite w.1 1) t ∧ t.fill = some { sender := p.src, tag := p.tag, len := len } ∧
      t.mirrorState = 1 ∧ t.fld Reg.MEM_MIRROR_STATE Fld.MEM_MIRROR_STATE_OWNER = p.src ∧ t.mem = (w.2.chargeWrite w.1 1).mem ∧
      (w.1 = none → Near (· = Reg.MEM_MIRROR_STATE) { w.2 with rt := t.rt, fill := t.fill } t)) := by
  subst hlen
  have hbegin := mirrorBegin_fills (s := s.take p) p hroom hr h3
  have hwrite : boardKept s w.2 := hw ▸ (take_boardKept s p).trans (write_boardKept (s.take p) 1 s.mirrorBase (leBytes 8 0))
  rw [show (s.take p).mirrorBase = s.mirrorBase from rfl, ← hw] at hbegin
  have hcharge := hwrite.trans (chargeWrite_boardKept w.2 w.1 1)
  have hnone : w.1 = none → w.2.chargeWrite w.1 1 = w.2 := fun h => by rw [h]; rfl
  generalize w.2.chargeWrite w.1 1 = x at hbegin hcharge hnone ⊢
  have hboard := hcharge.trans (mirrorFilling_boardKept x p (leNat ((p.body.drop 8).take 8)))
  refine ⟨_, (exec_beginRx p hl).trans (congrArg Host.Outcome.next hbegin), handed_sendMirrorCtl hboard.chip rfl _ _ _ _ _, rfl,
    (mirrorState_sendMirrorCtl _ _ _ _ _ _).trans (mirrorFilling_state x p _),
    (fld_sendMirrorCtl _ _ _ _ _ _ _ _).trans (mirrorFilling_owner x p _ hsrc), rfl, fun h => ?_⟩
  rw [← hnone h]
  exact (mirrorFilling_near x p _).sendMirrorCtl _ _ _ _ _

/-- The SEAL word is cleared where its burst is sound (R218, R394). -/
theorem begin_seal_cleared (p : Packet) (w : WrErr × State) (hw : w = ((s.take p).onBehalf 1).write s.mirrorBase (leBytes 8 0))
    (hp : plainHbm s s.mirrorBase 64) (hs : s.burstFails (s.mirrorBase / 64) = false) :
    w.1 = none ∧ w.2.rt = (s.take p).rt ∧ storedAt s.mirrorBase (leBytes 8 0) s w.2 := by
  obtain ⟨ha, -, -, htop, hbank, hmap⟩ := hp
  obtain ⟨t, ht, hwt, hst⟩ := write_plain ((s.take p).onBehalf 1) s.mirrorBase (leBytes 8 0) hmap hbank
    (show s.mirrorBase < s.memTop by omega) (fun b h1 h2 _ => by
      obtain rfl : b = s.mirrorBase / 64 := by rw [show (leBytes 8 0).length = 8 from rfl] at h1; omega
      exact (burstFails_of_mapPlain hmap _).symm.trans hs)
  subst hw
  rw [ht]
  exact ⟨rfl, by rw [hwt.rest]; rfl, hst.of_mem rfl rfl⟩

/-! ### The packets of a chunk -/

theorem exec_mirrorChunkRx (p : Packet) (h : s.landsLater s.mirrorBase = false) :
    exec (.mirrorChunkRx p) s = .next ((s.take p).mirrorChunk p) := congrArg Host.Outcome.next (if_neg (by rw [h]; decide))

/-- The packet is of the push that fills the mirror, of a chunk that has not landed, and has not come before (R394). -/
structure ChunkFresh (p : Packet) (f : Fill) : Prop where
  src : p.src = f.sender
  tag : p.tag = f.tag
  chunk : p.chunk < f.len / 65536
  unlanded : p.chunk ∉ f.landed
  ungot : (p.chunk, p.offset) ∉ f.got

theorem ChunkFresh.taken {p : Packet} {f : Fill} (h : ChunkFresh p f) : ¬ (f.sender ≠ p.src ∨ f.tag ≠ p.tag ∨ f.len / 65536 ≤ p.chunk ∨
    f.landed.contains p.chunk ∨ f.got.contains (p.chunk, p.offset)) := by
  obtain ⟨hsrc, htag, hchunk, hland, hgot⟩ := h
  simp only [List.contains_eq_mem, decide_eq_true_eq]
  rintro (h | h | h | h | h)
  · exact h hsrc.symm
  · exact h htag.symm
  · omega
  · exact hland h
  · exact hgot h

/-- A chunk without its region ends the fill (R232, R394). -/
theorem chunk_regionless (p : Packet) (f : Fill) (hl : s.landsLater s.mirrorBase = false) (hf : s.fill = some f) (h : ChunkFresh p f)
    (hr : s.regionOk 1 (s.mirrorBase + seqChunk (f.len / 65536) p.chunk * 65536) 65536 .fl = false) :
    Completes (.mirrorChunkRx p) s (fun t => raised Reg.MEM_RGN_STATUS Fld.MEM_RGN_STATUS_LAND_ERR Reg.MEM_LAND_ERR_CNT s t ∧ t.fill = none ∧
      t.mirrorState = 0 ∧ handed (mirrorCtl s f.sender f.tag 6 2 0) (s.take p) t ∧ t.mem = s.mem) := by
  have hchunk : (s.take p).mirrorChunk p = (s.take p).landError.mirrorEmpty.sendMirrorCtl f.sender f.tag 6 2 0 := by
    unfold State.mirrorChunk
    rw [show (s.take p).fill = some f from hf]
    exact (if_neg h.taken).trans (if_pos (by rw [Bool.not_eq_true']; exact hr))
  have hboard : boardKept s (s.take p).landError.mirrorEmpty :=
    ((take_boardKept s p).trans (boardKept_event _ _ (by decide) (by decide))).trans (mirrorEmpty_boardKept _)
  have hraised : raised Reg.MEM_RGN_STATUS Fld.MEM_RGN_STATUS_LAND_ERR Reg.MEM_LAND_ERR_CNT s (s.take p).landError :=
    raised_event (s.take p) _ _ _ (by decide)
  exact ⟨_, (exec_mirrorChunkRx p hl).trans (congrArg Host.Outcome.next hchunk),
    raised_congr hraised rfl rfl ((rd_sendMirrorCtl _ _ _ _ _ _ _).trans (mirrorEmpty_rd _ (by decide)))
      ((rd_sendMirrorCtl _ _ _ _ _ _ _).trans (mirrorEmpty_rd _ (by decide))), rfl,
    (mirrorState_sendMirrorCtl _ _ _ _ _ _).trans (mirrorEmpty_state _), handed_sendMirrorCtl hboard.chip rfl _ _ _ _ _, rfl⟩

/-- A packet of no push that fills the mirror, or one that has come before, changes nothing (R394). -/
theorem chunk_ignored (p : Packet) (f : Fill) (hl : s.landsLater s.mirrorBase = false) (hf : s.fill = some f)
    (h : p.src ≠ f.sender ∨ p.tag ≠ f.tag ∨ f.len / 65536 ≤ p.chunk ∨ p.chunk ∈ f.landed ∨ (p.chunk, p.offset) ∈ f.got) :
    exec (.mirrorChunkRx p) s = .next (s.take p) := by
  rw [exec_mirrorChunkRx p hl, State.mirrorChunk, show (s.take p).fill = some f from hf]
  refine congrArg Host.Outcome.next (if_pos ?_)
  simp only [List.contains_eq_mem, decide_eq_true_eq]
  exact h.imp Ne.symm (Or.imp_left Ne.symm)

theorem chunk_unfilled (p : Packet) (hl : s.landsLater s.mirrorBase = false) (hf : s.fill = none) :
    exec (.mirrorChunkRx p) s = .next (s.take p) := by
  rw [exec_mirrorChunkRx p hl, State.mirrorChunk, show (s.take p).fill = none from hf]

/-! ### A complete chunk, and the last one -/

/-- A complete chunk is acknowledged, and the last one ends the fill (R394). -/
theorem mirrorLanded_whole (s : State) (f : Fill) (chunk : Nat) (h : 16 ≤ (f.got.filter (fun g => g.1 == chunk)).length) :
    ∃ u : State, u = { s with rt := u.rt, fill := u.fill } ∧ u.fill = some { f with landed := f.landed ++ [chunk] } ∧
      handed (mirrorCtl s f.sender f.tag 4 0 chunk) s u ∧
      s.mirrorLanded f chunk = (if f.landed.length + 1 = f.len / 65536 then u.mirrorFinish { f with landed := f.landed ++ [chunk] } else u) := by
  refine ⟨{ s with fill := some { f with landed := f.landed ++ [chunk] } }.sendMirrorCtl f.sender f.tag 4 0 chunk, rfl, rfl,
    handed_sendMirrorCtl rfl rfl _ _ _ _ _, ?_⟩
  unfold State.mirrorLanded
  rw [if_neg (by omega)]
  simp only [List.length_append, List.length_singleton]

/-- The bytes of a header that reach the memory in two writes, the SEAL word last (R394). -/
theorem header_stored (f : Fill) (hlen : f.header.length = 4096) (hp : plainHbm s s.mirrorBase 4096)
    (hs : s.badBursts s.mirrorBase 4096 = []) : ∃ w v : State, (s.onBehalf 1).write (s.mirrorBase + 8) (f.header.drop 8) = (none, w) ∧
      w.write w.mirrorBase (f.header.take 8) = (none, v) ∧ HbmWritten s v ∧ storedAt s.mirrorBase f.header s v := by
  obtain ⟨ha, -, -, htop, hbank, hmap⟩ := hp
  have hfirst : s.burstBad (s.mirrorBase / 64) = false := by
    have hmem := List.filter_eq_nil_iff.mp hs (s.mirrorBase / 64) (List.mem_map.mpr ⟨0, by simp, by simp⟩)
    rwa [burstFails_of_mapPlain hmap, Bool.not_eq_true] at hmem
  obtain ⟨w, hw, hww, hsw⟩ := write_plain (s.onBehalf 1) (s.mirrorBase + 8) (f.header.drop 8) hmap hbank
    (show s.mirrorBase + 8 < s.memTop by omega) (fun b h1 h2 h3 => by
      rw [List.length_drop, hlen] at h1 h3
      obtain rfl : b = s.mirrorBase / 64 := by omega
      exact hfirst)
  have hsame : ∀ off f, (∀ i, i < 8 → off ≠ Reg.MEM_RMW_CNT i) → observes off = false → w.fld off f = s.fld off f :=
    fun off f h1 h2 => fld_of_rd f (hww.regs off h1 h2)
  have hbase : w.mirrorBase = s.mirrorBase := hsame _ _ (by decide) (by decide)
  obtain ⟨v, hv, hwv, hsv⟩ := write_plain w s.mirrorBase (f.header.take 8) (hww.mapPlain hmap)
    ((hsame _ _ (by decide) (by decide)).trans hbank) (show s.mirrorBase < w.memTop by
      rw [show w.memTop = s.memTop from hsame _ _ (by decide) (by decide)]; omega) (fun b h1 h2 h3 => by
      rw [List.length_take, hlen] at h1
      obtain rfl : b = s.mirrorBase / 64 := by omega
      exact hww.bursts _ hfirst)
  refine ⟨w, v, hw, by rw [hbase]; exact hv, (near_onBehalf s 1).hbmWritten.trans (hww.trans hwv), ?_⟩
  have hboth := storedAt.append (xs := f.header.take 8) (ys := f.header.drop 8) (.inr ⟨by
    rw [List.length_take, hlen]; exact hsw, hsv⟩)
  rw [List.take_append_drop] at hboth
  exact hboth.of_mem rfl rfl

/-- The mirror is VALID, and its last push counted. -/
def State.mirrorValid (s : State) (step : Nat) : State :=
  (({ s with fill := none }.setFld Reg.MEM_MIRROR_STATE Fld.MEM_MIRROR_STATE_STATE 2).setFld Reg.MEM_MIRROR_STATE
    Fld.MEM_MIRROR_STATE_STEP step).cnt Reg.MEM_MIRROR_RX_CNT

theorem mirrorValid_state (s : State) (step : Nat) : (s.mirrorValid step).mirrorState = 2 :=
  (fld_cnt_ne _ (by decide)).trans ((fld_setFld_beside _ _ _ _ _ (by decide) (by decide)).trans (fld_setFld_here _ _ _ _ (by decide)))

theorem mirrorValid_step (s : State) {step : Nat} (h : step < 2 ^ 40) :
    (s.mirrorValid step).fld Reg.MEM_MIRROR_STATE Fld.MEM_MIRROR_STATE_STEP = step :=
  (fld_cnt_ne _ (by decide)).trans ((fld_setFld_here _ _ _ _ (by decide)).trans (Nat.mod_eq_of_lt h))

theorem mirrorValid_count (s : State) (step : Nat) : counted Reg.MEM_MIRROR_RX_CNT 1 s (s.mirrorValid step) := by
  have hkept : ∀ n m, ((({ s with fill := none } : State).setFld Reg.MEM_MIRROR_STATE Fld.MEM_MIRROR_STATE_STATE n).setFld Reg.MEM_MIRROR_STATE
      Fld.MEM_MIRROR_STATE_STEP m).rd Reg.MEM_MIRROR_RX_CNT = s.rd Reg.MEM_MIRROR_RX_CNT :=
    fun n m => (rd_setFld_ne _ _ (by decide)).trans (rd_setFld_ne _ _ (by decide))
  have hcount := counted_cntBy ((({ s with fill := none } : State).setFld Reg.MEM_MIRROR_STATE Fld.MEM_MIRROR_STATE_STATE 2).setFld
    Reg.MEM_MIRROR_STATE Fld.MEM_MIRROR_STATE_STEP step) Reg.MEM_MIRROR_RX_CNT 1
  rw [counted, fld_def, hkept] at hcount
  exact hcount

theorem mirrorValid_mem (s : State) (step : Nat) : (s.mirrorValid step).mem = s.mem := rfl

theorem mirrorValid_sent (s : State) (step dst tag kind reason value : Nat) :
    ((s.mirrorValid step).sendMirrorCtl dst tag kind reason value).clu = s.clu ∧
      ((s.mirrorValid step).sendMirrorCtl dst tag kind reason value).out = s.out := ⟨rfl, rfl⟩

theorem mirrorValid_boardKept (s : State) (step : Nat) : boardKept s (s.mirrorValid step) :=
  (((boardKept.of_regs rfl).trans (boardKept_setFld _ _ _ (by decide))).trans (boardKept_setFld _ _ _ (by decide))).trans
    (boardKept_cnt _ (by decide))

theorem leNat_take_five (bs : List Byte) : leNat (bs.take 5) < 2 ^ 40 :=
  calc leNat (bs.take 5) < 256 ^ (bs.take 5).length := leNat_lt _
    _ ≤ 256 ^ 5 := Nat.pow_le_pow_right (by decide) (List.length_take_le 5 bs)
    _ = 2 ^ 40 := by decide

/-- The body's fingerprint is the header's: the header is written and the mirror is VALID (R394). -/
theorem mirrorFinish_valid (f : Fill) (hcrc : f.bodyCrc.toNat = leNat ((f.header.drop 0x30).take 8)) (hlen : f.header.length = 4096)
    (hp : plainHbm s s.mirrorBase 4096) (hs : s.badBursts s.mirrorBase 4096 = []) : ∃ t : State, t = s.mirrorFinish f ∧
      storedAt s.mirrorBase f.header s t ∧ t.fill = none ∧ t.mirrorState = 2 ∧ counted Reg.MEM_MIRROR_RX_CNT 1 s t ∧
      handed (mirrorCtl s f.sender f.tag 5 0 0) s t ∧
      t.fld Reg.MEM_MIRROR_STATE Fld.MEM_MIRROR_STATE_STEP = leNat (f.header.take 5) ∧ t.clu = s.clu ∧ t.out = s.out := by
  obtain ⟨w, v, hw, hv, hwritten, hstored⟩ := header_stored f hlen hp hs
  have hfinish : s.mirrorFinish f = (v.mirrorValid (leNat (f.header.take 5))).sendMirrorCtl f.sender f.tag 5 0 0 := by
    unfold State.mirrorFinish
    rw [if_pos hcrc]
    simp only [hw, hv]
    rfl
  have hboard : boardKept s v := fun off ho => by
    obtain rfl : off = Reg.IDM_BOARD0 := Decidable.of_not_not ho
    exact hwritten.regs _ (by decide) (by decide)
  have hcount : v.rd Reg.MEM_MIRROR_RX_CNT = s.rd Reg.MEM_MIRROR_RX_CNT := hwritten.regs _ (by decide) (by decide)
  have hstep := leNat_take_five f.header
  rw [hfinish]
  refine ⟨_, rfl, hstored.of_mem rfl ((mem_sendMirrorCtl _ _ _ _ _ _).trans (mirrorValid_mem v _)), rfl,
    (mirrorState_sendMirrorCtl _ _ _ _ _ _).trans (mirrorValid_state v _), ?_, ?_,
    (fld_sendMirrorCtl _ _ _ _ _ _ _ _).trans (mirrorValid_step v hstep), ?_, ?_⟩
  · have h := mirrorValid_count v (leNat (f.header.take 5))
    rw [counted, fld_def, hcount] at h
    exact (rd_sendMirrorCtl _ _ _ _ _ _ _).trans h
  · exact handed_sendMirrorCtl (hboard.trans (mirrorValid_boardKept v _)).chip (show v.rt = s.rt by rw [hwritten.rest]) _ _ _ _ _
  · exact (mirrorValid_sent v _ _ _ _ _ _).1.trans (by rw [hwritten.rest])
  · exact (mirrorValid_sent v _ _ _ _ _ _).2.trans (by rw [hwritten.rest])

/-- The body's fingerprint is another: the mirror is EMPTY, and the sender learns of it (R394). -/
theorem mirrorFinish_mismatch (s : State) (f : Fill) (hcrc : f.bodyCrc.toNat ≠ leNat ((f.header.drop 0x30).take 8)) :
    ∃ t : State, t = s.mirrorFinish f ∧ t.mirrorState = 0 ∧ handed (mirrorCtl s f.sender f.tag 5 3 0) s t ∧
      Near (· = Reg.MEM_MIRROR_STATE) { s with fill := none, rt := t.rt } t := by
  have hfinish : s.mirrorFinish f = s.mirrorEmpty.sendMirrorCtl f.sender f.tag 5 3 0 := if_neg hcrc
  rw [hfinish]
  exact ⟨_, rfl, (mirrorState_sendMirrorCtl _ _ _ _ _ _).trans (mirrorEmpty_state s),
    handed_sendMirrorCtl (mirrorEmpty_boardKept s).chip rfl _ _ _ _ _, (mirrorEmpty_near s).sendMirrorCtl _ _ _ _ _⟩

/-! ### ABORT (R396) -/

theorem abortRx_other (p : Packet) (f : Fill) (hf : s.fill = some f) (h2 : leNat ((p.body.drop 1).take 1) ≠ 2) :
    exec (.abortRx p) s = .next (if f.sender = p.src ∧ f.tag = p.tag then (s.take p).mirrorEmpty else s.take p) := by
  show execAbortRx p s = _
  unfold execAbortRx
  dsimp only
  rw [show (s.take p).fill = some f from hf, if_neg h2]

/-- An ABORT of the push that fills the mirror leaves it EMPTY; one of another changes nothing (R396). -/
theorem abort_empties (s : State) (p : Packet) (f : Fill) (hf : s.fill = some f) (h2 : leNat ((p.body.drop 1).take 1) ≠ 2) :
    (p.src = f.sender → p.tag = f.tag → Completes (.abortRx p) s (fun t => t.fill = none ∧ t.mirrorState = 0 ∧
      Near (· = Reg.MEM_MIRROR_STATE) { s.take p with fill := none } t)) ∧
    ((p.src ≠ f.sender ∨ p.tag ≠ f.tag) → exec (.abortRx p) s = .next (s.take p)) := by
  refine ⟨fun hsrc htag => ?_, fun hne => ?_⟩
  · have hexec := abortRx_other p f hf h2
    rw [if_pos ⟨hsrc.symm, htag.symm⟩] at hexec
    exact ⟨_, hexec, rfl, mirrorEmpty_state _, mirrorEmpty_near _⟩
  · rw [abortRx_other p f hf h2, if_neg]
    rintro ⟨hsrc, htag⟩
    exact hne.elim (· hsrc.symm) (· htag.symm)

end Sys2Proof.Machine
end

section
/-!
SUPPORT. The mirror's statement, put together.
-/
namespace Sys2Proof.Machine

variable {s : State}

/-- A fill once packet `p` has landed at `pos` of the body: the header's bytes are held, the rest is counted with its CRC as it was received
(R394). -/
def Fill.landing (f : Fill) (p : Packet) (pos : Nat) (held rest : List Byte) : Fill :=
  { f with
    header := if held.isEmpty then f.header else patch f.header pos held
    got := f.got ++ [(p.chunk, p.offset)]
    crcs := if rest.isEmpty then f.crcs else f.crcs.set (0, 0) (pos + held.length) (rest.length, crc64 rest) }

/-- A packet of a chunk lands, the header's bytes being held; a detected error of its write is charged and not counted (R218, R394). -/
theorem chunk_lands (p : Packet) (f : Fill) (at' pos : Nat) (held rest : List Byte) (w : WrErr × State)
    (hl : s.landsLater s.mirrorBase = false) (hf : s.fill = some f) (h : ChunkFresh p f)
    (hat : at' = seqChunk (f.len / 65536) p.chunk * 65536) (hpos : pos = at' + p.offset)
    (hheld : held = (if pos < 4096 then p.body.take (4096 - pos) else [])) (hrest : rest = p.body.drop held.length)
    (hw : w = ((s.take p).onBehalf 1).write (s.mirrorBase + pos + held.length) rest)
    (hr : s.regionOk 1 (s.mirrorBase + at') 65536 .fl = true) :
    (∀ e, w.1 = some e → exec (.mirrorChunkRx p) s = .next (w.2.chargeMem e.1 e.2 1)) ∧
    (w.1 = none → exec (.mirrorChunkRx p) s = .next (w.2.mirrorLanded (f.landing p pos held rest) p.chunk)) := by
  have hchunk : (s.take p).mirrorChunk p = (match w.1 with
      | some e => w.2.chargeMem e.1 e.2 1
      | none => w.2.mirrorLanded (f.landing p pos held rest) p.chunk) := by
    subst hw hrest hheld hpos hat
    unfold State.mirrorChunk
    rw [show (s.take p).fill = some f from hf]
    exact (if_neg h.taken).trans (if_neg (by
      rw [show (s.take p).regionOk 1 ((s.take p).mirrorBase + seqChunk (f.len / 65536) p.chunk * 65536) 65536 .fl = true from hr]
      decide))
  rw [exec_mirrorChunkRx p hl, hchunk]
  exact ⟨fun e he => by rw [he], fun hn => by rw [hn]⟩

/-- What lands in plain device memory (R218, R394). -/
theorem chunk_stored (p : Packet) (a : Nat) (bs : List Byte) (w : WrErr × State) (hw : w = ((s.take p).onBehalf 1).write a bs)
    (hp : plainHbm s a bs.length) : w.1 = none ∧ w.2.rt = (s.take p).rt ∧ w.2.fill = s.fill ∧ storedAt a bs s w.2 := by
  obtain ⟨t, ht, hwritten, hstored⟩ := plainHbm.write (s := (s.take p).onBehalf 1) hp bs rfl
  subst hw
  rw [ht]
  exact ⟨rfl, by rw [hwritten.rest]; rfl, by rw [hwritten.rest]; rfl, hstored.of_mem rfl rfl⟩

/-- Settles O48, by the packets of the push protocol that reach the mirror, and by what a plain write of device memory leaves. -/
theorem mirrorFills : Obligations.MirrorFills := by
  refine ⟨begin_waits, fun s p len hl hlen => ⟨fun h => begin_refused p hl (hlen ▸ h), fun hroom hr h3 => begin_drains p hl (hlen ▸ hroom) hr h3,
    fun w hroom hr h3 hsrc hw => ⟨begin_accepted p len w hl hlen hroom hr h3 hsrc hw, begin_seal_cleared p w hw⟩⟩, ?_,
    fun s f chunk => ⟨fun h => if_pos h, mirrorLanded_whole s f chunk⟩,
    fun s f _ hcrc hlen hp hs => mirrorFinish_valid f hcrc hlen hp hs, mirrorFinish_mismatch, bodyCrc_of_parts,
    fun s p f hl hf h => chunk_ignored p f hl hf h, abort_empties, fun s p hl hf => chunk_unfilled p hl hf⟩
  intro s p f at' pos held rest w hl hf hsrc htag hchunk hland hgot hat hpos hheld hrest hw
  have hfresh : ChunkFresh p f := ⟨hsrc, htag, hchunk, hland, hgot⟩
  refine ⟨fun _ hr => chunk_regionless p f hl hf hfresh (hat ▸ hr), fun hr => ?_⟩
  obtain ⟨hfails, hlands⟩ := chunk_lands p f at' pos held rest w hl hf hfresh hat hpos hheld hrest hw hr
  exact ⟨hfails, hlands, chunk_stored p _ rest w hw⟩

end Sys2Proof.Machine
end

section
/-!
SUPPORT. A mover that the statement of a barred commit does not rule out: its hypotheses bound no mover's number, and the registers of a mover
past the 32 of the chip (R255) reach into those of the fault barrier.
-/
namespace Sys2Proof.Machine

/-- The number whose MOV_STATE lies where MEM_BARRIER_STATUS does. -/
def barrierNumber : Nat := 3970

theorem moverState_barrier : Reg.MOV_STATE barrierNumber = Reg.MEM_BARRIER_STATUS := rfl

/-- Pseudo-channel 0 is withheld, the repair data names it, a region of T1 reaches to the top of device memory, and T1 has a mover of that
number. -/
def barredCommit : State :=
  let regs : List (Nat × BitVec 64) := [
    (Reg.MEM_PC_WITHHELD 0, 1), (Reg.MEM_TOP, putField 0 Fld.MEM_TOP_TOP (512 * 0x60000000)),
    (Reg.MEM_RGN_W0 1 0, putField 0 Fld.MEM_RGN_W0_VALID 1), (Reg.MEM_RGN_W1 1 0, putField 0 Fld.MEM_RGN_W1_LIMIT (512 * 0x60000000 - 1))]
  let s := regs.foldl (fun (s : State) x => s.wr x.1 x.2) State.reset
  { s with movers := [(barrierNumber, { tenant := 1 })], tr := { s.tr with repairLog := [(unitId 7 0, repairWithheld)] } }

/-- The mover is freed, and the STATE of its register, which is that of the barrier, reads 0. -/
theorem barredCommit_idles : (barredCommit.memCommit (0 : Fin 512) true).barrier = 0 := by decide +kernel

/-- Refutes O45: a commit that a region bars raises the fault barrier, which frees the movers of T1, and where the registers of one overlap
MEM_BARRIER_STATUS the barrier reads as not raised. The statement lets a mover bear any number. -/
theorem not_memoryTables : ¬ Obligations.MemoryTables := by
  unfold Obligations.MemoryTables
  rintro ⟨-, -, -, -, -, -, -, -, hrejected, -⟩
  obtain ⟨-, hbarred⟩ := hrejected barredCommit 0 true true (by decide +kernel) (.inl rfl) (by decide +kernel)
  obtain ⟨t, ht, -, hraised, -⟩ := hbarred rfl (by decide +kernel) (by decide +kernel)
  have hexec : exec (.memCommit 0 0 true) barredCommit = .next (barredCommit.memCommit (0 : Fin 512) true) := rfl
  obtain rfl := Host.Outcome.next.inj (hexec.symm.trans ht)
  exact absurd (barredCommit_idles.symm.trans hraised) (by decide)

end Sys2Proof.Machine
end

section
/-!
SUPPORT. A POP that the statement of its entry's end does not rule out: its hypotheses bound no slot, and the registers of an activation stack
past the 16 of the chip (R233) reach into the tokens of a sequencer.
-/
namespace Sys2Proof.Machine

/-- POP of form DISCARD from that slot; it signals token 64, whose register is STK_TOP of the slot's partition on cluster 0. -/
def strayPop : QEntry := { word := BitVec.ofNat 128 (0x35 * 2 ^ 120 + 64 * 2 ^ 96 + 2 * 2 ^ 86), slot := straySlot }

/-- The partition holds one entry of 64 bytes, its trailer alone, at the start of device memory, which a region of T0 lets be read; cluster 0
runs with the POP at the head of its mover port. -/
def strayPopping : State :=
  let regs : List (Nat × BitVec 64) := [
    (Reg.SEQ_STATUS 0, putField 0 Fld.SEQ_STATUS_STATE 1), (Reg.MEM_TOP, putField 0 Fld.MEM_TOP_TOP 0x10000),
    (Reg.STK_TOP straySlot 0, putField (putField 0 Fld.STK_TOP_TOP 64) Fld.STK_TOP_ENTRIES 1),
    (Reg.MEM_RGN_W0 0 0, putField (putField 0 Fld.MEM_RGN_W0_VALID 1) Fld.MEM_RGN_W0_RD 1),
    (Reg.MEM_RGN_W1 0 0, putField 0 Fld.MEM_RGN_W1_LIMIT 0xFFFF)]
  { (regs.foldl (fun (s : State) x => s.wr x.1 x.2) State.reset).setCl 0 { movQ := [strayPop] } with mem := [(8, 64)] }

theorem strayPopping_ready : PopReady strayPopping 0 strayPop [] := by
  constructor <;> decide +kernel

/-- The state in which the trailer has been read. -/
def strayReported : State := ((strayPopping.meet .none 0).trailerAt 0 0 64).2

/-- The trailer of an entry of 64 bytes. -/
def strayTrailer : BitVec 512 := BitVec.ofNat 512 (64 * 2 ^ 64)

/-- A trailer in device memory whose bursts are sound is found (R234). -/
theorem trailerEnding_sound {s : State} {owner top : Nat} (hr : s.regionOk owner (top - 64) 64 .rd = true)
    (hp : s.place (top - 64) = .hbm) (hb : s.badBursts (top - 64) 64 = []) :
    (s.trailerEnding owner top).1 = .found (top - 64) (BitVec.ofNat 512 (leNat (s.bytes (top - 64) 64))) := by
  have hread : ((s.onBehalf owner).readMem (top - 64) 64).1 = .ok (s.bytes (top - 64) 64) := by
    unfold State.readMem
    rw [if_neg (by decide), show (s.onBehalf owner).place (top - 64) = .hbm from hp]
    simp only [show (s.onBehalf owner).badBursts (top - 64) 64 = [] from hb]
    rw [bytes_of_mem (s := s) (t := s.onBehalf owner) rfl]
  unfold State.trailerEnding
  rw [hr]
  generalize (s.onBehalf owner).readMem (top - 64) 64 = r at hread ⊢
  obtain ⟨x, u⟩ := r
  obtain rfl : x = _ := hread
  rfl

theorem strayPopping_found : (strayPopping.meet .none 0).trailerAt 0 0 64 = (.found 0 strayTrailer, strayReported) :=
  Prod.ext ((trailerEnding_sound (by decide +kernel) (by decide +kernel) (by decide +kernel)).trans
    (congrArg (Trailer.found 0) (by decide +kernel))) rfl

/-- The entry is taken off, and the signal of the token counts one into the TOP of the emptied partition. -/
theorem strayPopping_counts : strayReported.stkTop strayPop.slot (0 : Fin 64) = trailerLen strayTrailer ∧
    (strayPopping.stackReport (0 : Fin 64) .none).stkTop strayPop.slot (0 : Fin 64) = 1 := by decide +kernel

/-- Refutes O44: a POP of form DISCARD does not leave TOP lower by the entry's length where the registers of its slot's stack overlap the token
that it signals. The statement lets a queue entry name any slot. -/
theorem not_tenantsAndStacks : ¬ Obligations.TenantsAndStacks := by
  unfold Obligations.TenantsAndStacks
  rintro ⟨hpop, -⟩
  obtain ⟨hdiscard, -⟩ := hpop strayPopping _ strayReported 0 .none strayPop [] 0 0 strayTrailer strayPopping_ready (by decide +kernel)
    (by decide +kernel) rfl strayPopping_found
  obtain ⟨t, ht, htop, -⟩ := hdiscard (by decide +kernel)
  have hexec : exec (.stackEntryReport 0 .none) strayPopping = .next (strayPopping.stackReport (0 : Fin 64) .none) := rfl
  obtain rfl := Host.Outcome.next.inj (hexec.symm.trans ht)
  obtain ⟨hbefore, hafter⟩ := strayPopping_counts
  rw [hbefore, hafter, Nat.sub_self] at htop
  exact absurd htop (by decide)

end Sys2Proof.Machine
end

section
/-!
SUPPORT. A mover over stage memory where MEM_TOP reaches past the stages: its source then lies in device memory (R210), where a burst may fail
its detection code.
-/
namespace Sys2Proof.Machine

/-- A descriptor of 64 bytes at `a`. -/
def bytesAt (a : Nat) : BitVec 512 := BitVec.ofNat 512 (a + 0x0F * 2 ^ 48 + 64 * 2 ^ 128)

/-- A MOV of the first 64 bytes of the first stage to the 64 after them. -/
def stageMove : MovRec := { src := bytesAt stage0, dst := bytesAt (stage0 + 64), state := 1, tenant := 1, total := 64 }

/-- That MOV runs on mover 0 under a region of T1 over the stages, while MEM_TOP reaches past them and the burst of the source fails its code. -/
def movePastTop : State :=
  let regs : List (Nat × BitVec 64) := [
    (Reg.MEM_RGN_W0 1 0, putField (putField (putField (putField 0 Fld.MEM_RGN_W0_VALID 1) Fld.MEM_RGN_W0_RD 1) Fld.MEM_RGN_W0_WR 1)
      Fld.MEM_RGN_W0_BASE stage0),
    (Reg.MEM_RGN_W1 1 0, putField 0 Fld.MEM_RGN_W1_LIMIT (stage0 + 0xFFFFFFFFFF)), (Reg.MEM_TOP, putField 0 Fld.MEM_TOP_TOP (2 * stage0))]
  { regs.foldl (fun (s : State) x => s.wr x.1 x.2) State.reset with
    movers := [(0, stageMove)], mem := [(stage0, 1)], codeErr := [(stage0 / 64, 1)] }

/-- The chunk meets the failing burst: the mover stops in DETECTED, and nothing is moved (R216, R272). -/
theorem movePastTop_moves_nothing : (movePastTop.bytes stage0 64)[0]? = some 1 ∧
    (movePastTop.moverChunk (0 : Fin 32) .none).byte (stage0 + 64) = 0 := by decide +kernel

/-- Refutes O30: a chunk between two ranges of stage memory does not store the bytes of its source where MEM_TOP reaches past the stages. The
source is then device memory, whose burst may fail its detection code; the error is detected, and nothing is moved. -/
theorem not_moverCopies : ¬ Obligations.MoverCopies := by
  unfold Obligations.MoverCopies
  rintro ⟨-, hstage, -⟩
  obtain ⟨t, ht, hstored, -⟩ := hstage movePastTop 0 stageMove 64 stage0 (stage0 + 64) (by decide +kernel) (by decide +kernel)
    (by decide +kernel) rfl rfl rfl rfl (by decide) (by decide) (by decide +kernel) (by decide +kernel) ⟨0, by decide, by decide⟩
    ⟨0, by decide, by decide⟩ rfl (by decide +kernel) (by decide +kernel) (by decide +kernel)
  have hexec : exec (.moverChunk 0 .none) movePastTop = .next (movePastTop.moverChunk (0 : Fin 32) .none) := rfl
  obtain rfl := Host.Outcome.next.inj (hexec.symm.trans ht)
  obtain ⟨hbefore, hafter⟩ := movePastTop_moves_nothing
  obtain ⟨hlt, hsource⟩ := List.getElem?_eq_some_iff.mp hbefore
  exact absurd (hafter.symm.trans ((hstored 0 hlt).trans hsource)) (by decide)

end Sys2Proof.Machine
end

section
/-!
SUPPORT. An UNPARK that ends in a fault. The YIELD that a parked stream stands at completes with the UNPARK (R147), and its completion signals
the token of its header (R137); a signal above the highest count raises TOKEN_OVERFLOW, which leaves the sequencer FAULTED (R138, R152). The
statement of UNPARK does not ask that the signal fit.
-/
namespace Sys2Proof.Machine

/-- YIELD that signals token 5. -/
def yieldSignalling : QEntry := { word := BitVec.ofNat 128 (0x54 * 2 ^ 120 + 5 * 2 ^ 96) }

/-- T1's stream on cluster 0 has reached that YIELD with a PARK requested, and token 5 holds the highest count. -/
def yieldingFull : State :=
  let regs : List (Nat × BitVec 64) := [
    (Reg.SEQ_STATUS 0, putField (putField 0 Fld.SEQ_STATUS_STATE seqRunning) Fld.SEQ_STATUS_TENANT 1),
    (Reg.SEQ_TOKEN 0 5, putField 0 Fld.SEQ_TOKEN_COUNT (2 ^ 24 - 1)),
    (Reg.MOV_CTX_STATUS 1 0, putField 0 Fld.MOV_CTX_STATUS_STATE 1)]
  (regs.foldl (fun (s : State) x => s.wr x.1 x.2) State.reset).setCl 0
    { requested := true, parkReq := true, reqTenant := 1, hold := some ⟨.yield, yieldSignalling, 0⟩ }

/-- The capture parks the stream at its yield point (R265). -/
def parkedFull : State := yieldingFull.capture 0

/-- It was RUNNING when it was captured; UNPARK lets it go on, and leaves it FAULTED. -/
theorem parkedFull_faults : (parkedFull.cl 0).before = seqRunning ∧ (parkedFull.unpark 1 0).seqState 0 = seqFaulted := by decide +kernel

/-- Refutes O43: UNPARK does not leave a parked sequencer in the state it was captured in where the YIELD that completes signals a token at its
highest count: the stream takes TOKEN_OVERFLOW and is FAULTED (R137, R138). -/
theorem not_preemption : ¬ Obligations.Preemption := by
  unfold Obligations.Preemption
  rintro ⟨-, -, -, -, -, -, -, hunpark, -⟩
  obtain ⟨u, rfl, -, -, -, -, hstate, -⟩ := hunpark parkedFull 0 1 (by decide) (by decide) (by decide +kernel) (by decide +kernel)
    (by decide +kernel)
  obtain ⟨hbefore, hfaulted⟩ := parkedFull_faults
  rw [hbefore, hfaulted] at hstate
  exact absurd hstate (by decide)

end Sys2Proof.Machine
end

section
/-!
SUPPORT. A waiting packet whose destination is no chip. R335 has a fence bit for each chip number of 15 bits, but the statement of a flit slot
bounds no packet's destination: the fence word of a number past those lies where a selected event counter of a port does (R489). The slot first
counts its cycles there, and the packet that waited for credit is then addressed to a fenced chip and waits no more.
-/
namespace Sys2Proof.Machine

/-- The number whose fence bit is bit 1 of the first selected counter of port 0. -/
def strayChip : Nat := 64 * 7969 + 1

theorem fence_strayChip : Reg.FAB_FENCE (strayChip / 64) = Reg.CNT_PRT 0 0 := rfl

/-- A packet for that number on plane P1, just injected. -/
def strayPacket : RPkt := { p := { dst := strayChip, src := 0, tc := 0, type := 0, plane := 1 } }

/-- A ring of four chips along X. Port 0 is ACTIVE and has no credit left on channel 5 of TC0; its first selected counter counts fabric cycles;
the packet waits for route selection. -/
def strayWaiting : State :=
  let regs : List (Nat × BitVec 64) := [
    (Reg.IDM_BOARD0, putField 0 Fld.IDM_BOARD0_DX 4), (Reg.PRT_STATUS 0, putField 0 Fld.PRT_STATUS_STATE 5),
    (Reg.CNT_PRT_SEL 0 0, putField 0 Fld.CNT_PRT_SEL_SRC 1)]
  { regs.foldl (fun (s : State) x => s.wr x.1 x.2) State.reset with
    rt := { rin := [strayPacket], usedRes := [(chanKey 0 0 5, 4)], usedPool := [(chanKey 0 0 5, 4096)] } }

/-- Before the slot the packet's head waits for credit at port 0; a slot of 2 cycles counts none of them as waited. -/
theorem strayWaiting_uncounted : strayWaiting.stalls 0 0 = true ∧ strayWaiting.rt.cong.stall.get 0 0 = 0 ∧
    (strayWaiting.slotTick 0 2).rt.cong.stall.get 0 0 = 0 := by decide +kernel

/-- Refutes O41: a flit slot does not add its cycles to the stall count of a class whose head flit waits as the slot begins, where the count of
those cycles itself reads as the fence of the packet's destination. -/
theorem not_linkFlits : ¬ Obligations.LinkFlits := by
  unfold Obligations.LinkFlits
  rintro ⟨-, -, -, -, -, -, -, -, -, -, -, -, -, hslot, -⟩
  obtain ⟨u, rfl, -, -, hstall, -⟩ := hslot strayWaiting 0 2
  obtain ⟨hwaits, hbefore, hafter⟩ := strayWaiting_uncounted
  have hcounted := hstall 0 (by decide)
  simp only [Fin.val_zero, Nat.zero_mul, Nat.zero_add, hafter, hbefore, hwaits, if_true] at hcounted
  exact absurd hcounted (by decide)

end Sys2Proof.Machine
end

section
/-!
SUPPORT. The frames of the torus ports: what a command of a port leaves alone beside the port's link record and the messages it sends, in the
forms `Near` and `Noted` (Sys2Proof/Safety.lean), and the rules of the link records.
-/
namespace Sys2Proof.Machine

variable {e : Nat → Prop} {s t u : State} {p : Nat}

/-! ### The link records -/

theorem link_setLink_here (s : State) (p : Nat) (l : Link) : (s.setLink p l).link p = l :=
  (Tab.get_set ({} : Link) s.links p l p).trans (if_pos rfl)

theorem link_modLink_here (s : State) (p : Nat) (f : Link → Link) : (s.modLink p f).link p = f (s.link p) := link_setLink_here s p _

theorem link_of_links (h : t.links = s.links) (p : Nat) : t.link p = s.link p := by rw [State.link, h]; rfl

/-! ### Links and messages beside `Near` -/

/-- `t` is `s` but for the registers of `e`, what recording events touches, the link records and the messages. -/
def Linked (e : Nat → Prop) (s t : State) : Prop := Near e { s with links := t.links, out := t.out } t

theorem Linked.refl (e : Nat → Prop) (s : State) : Linked e s s := Near.refl e s

theorem Linked.trans (h : Linked e s t) (k : Linked e t u) : Linked e s u := by
  refine ⟨fun off he ho => (k.regs off he ho).trans (h.regs off he ho), ?_⟩
  rw [Near.eq k, Near.eq h]
  rfl

theorem Linked.mono {e' : Nat → Prop} (h : Linked e s t) (hs : ∀ off, e off → e' off) : Linked e' s t := Near.mono h hs

theorem Near.linked (h : Near e s t) : Linked e s t := by
  refine ⟨h.regs, ?_⟩
  rw [h.eq]
  rfl

theorem Linked.nearLinks (h : Linked e s t) (ho : t.out = s.out) : Near e { s with links := t.links } t := by
  unfold Linked at h
  rwa [ho] at h

theorem linked_setLink (e : Nat → Prop) (s : State) (p : Nat) (l : Link) : Linked e s (s.setLink p l) := ⟨fun _ _ _ => rfl, rfl⟩

theorem linked_modLink (e : Nat → Prop) (s : State) (p : Nat) (f : Link → Link) : Linked e s (s.modLink p f) := linked_setLink e s p _

theorem linked_say (e : Nat → Prop) (s : State) (m : Msg) : Linked e s (s.say m) := ⟨fun _ _ _ => rfl, rfl⟩

theorem Linked.modLink (h : Linked e s t) (p : Nat) (f : Link → Link) : Linked e s (t.modLink p f) := h.trans (linked_modLink e t p f)

theorem Linked.setFld (h : Linked e s t) {off : Nat} (f : Field) (n : Nat) (he : e off) : Linked e s (t.setFld off f n) :=
  h.trans ((Near.refl e t).setFld off f n (.inl he)).linked

theorem Linked.event (h : Linked e s t) {st ct : Nat} (f : Field) (h1 : e st) (h2 : e ct) : Linked e s (t.event st f ct) :=
  h.trans ((Near.refl e t).event st f ct (.inl h1) (.inl h2)).linked

theorem Linked.rd (h : Linked e s t) {off : Nat} (he : ¬ e off) (ho : observes off = false) : t.rd off = s.rd off := h.regs off he ho

theorem Linked.fld (h : Linked e s t) {off : Nat} (f : Field) (he : ¬ e off) (ho : observes off = false) : t.fld off f = s.fld off f :=
  fld_of_rd f (h.rd he ho)

theorem Linked.rt (h : Linked e s t) : t.rt = s.rt := by
  have hrt := congrArg State.rt (Near.eq h)
  exact hrt

theorem Linked.stopped (h : Linked e s t) : t.stopped = s.stopped := by
  rw [State.stopped, Near.eq h]
  rfl

theorem Linked.boardRead (h : Linked e s t) : t.boardRead = s.boardRead := by
  have hread := congrArg State.boardRead (Near.eq h)
  exact hread

/-! ### Unit states and notices besides -/

/-- `t` is `s` but for the registers of `e`, the link records, the unit states, and what telling the outside touches. -/
def Told (e : Nat → Prop) (s t : State) : Prop := Noted e { s with links := t.links, units := t.units, lastChange := t.lastChange } t

/-- The same but for the router's tables too. -/
def Changed (e : Nat → Prop) (s t : State) : Prop :=
  Noted e { s with links := t.links, rt := t.rt, units := t.units, lastChange := t.lastChange } t

theorem Told.trans (h : Told e s t) (k : Told e t u) : Told e s u := by
  obtain ⟨l, hl⟩ := h.said
  obtain ⟨m, hm⟩ := k.said
  obtain ⟨i, hi⟩ := h.sent
  obtain ⟨j, hj⟩ := k.sent
  refine ⟨fun off he ho => (k.regs off he ho).trans (h.regs off he ho), ?_, ⟨l ++ m, ?_⟩, ⟨i ++ j, ?_⟩⟩
  · rw [Noted.eq k, Noted.eq h]; rfl
  · rw [hm, ← List.append_assoc]; exact congrArg (· ++ m) hl
  · rw [hj, ← List.append_assoc]; exact congrArg (fun r : Router => { r with rin := r.rin ++ j }) hi

theorem Changed.trans (h : Changed e s t) (k : Changed e t u) : Changed e s u := by
  obtain ⟨l, hl⟩ := h.said
  obtain ⟨m, hm⟩ := k.said
  refine ⟨fun off he ho => (k.regs off he ho).trans (h.regs off he ho), ?_, ⟨l ++ m, ?_⟩, ⟨[], by simp⟩⟩
  · rw [Noted.eq k, Noted.eq h]; rfl
  · rw [hm, ← List.append_assoc]; exact congrArg (· ++ m) hl

theorem Linked.told (h : Linked e s t) (ho : ∃ l, t.out = s.out ++ l) : Told e s t := by
  refine ⟨fun off he hn => h.regs off he ?_, ?_, ho, ⟨[], ?_⟩⟩
  · exact Bool.eq_false_iff.mpr (fun hb => Bool.false_ne_true (hn.symm.trans (notices_of_observes hb)))
  · rw [Near.eq h]; rfl
  · rw [Near.eq h]; simp

theorem Told.changed (h : Told e s t) : Changed e s t := by
  refine ⟨h.regs, ?_, h.said, ⟨[], by simp⟩⟩
  rw [Noted.eq h]
  rfl

theorem Told.mono {e' : Nat → Prop} (h : Told e s t) (hs : ∀ off, e off → e' off) : Told e' s t := Noted.mono h hs

theorem Changed.mono {e' : Nat → Prop} (h : Changed e s t) (hs : ∀ off, e off → e' off) : Changed e' s t := Noted.mono h hs

theorem Told.rd (h : Told e s t) {off : Nat} (he : ¬ e off) (hn : notices off = false) : t.rd off = s.rd off := h.regs off he hn

theorem Told.rout (h : Told e s t) : t.rt.rout = s.rt.rout := by
  obtain ⟨l, hl⟩ := h.sent
  have hrout := congrArg Router.rout hl
  exact hrout

theorem Told.arrived (h : Told e s t) : t.rt.arrived = s.rt.arrived := by
  obtain ⟨l, hl⟩ := h.sent
  have harrived := congrArg Router.arrived hl
  exact harrived

theorem Changed.rd (h : Changed e s t) {off : Nat} (he : ¬ e off) (hn : notices off = false) : t.rd off = s.rd off := h.regs off he hn

/-! ### The registers of a port -/

/-- Neither recording events nor telling the outside touches a port's own registers. -/
theorem notices_portReg {p : Nat} (hp : p < 12) {d : Nat} (hd : d < 0x900) : notices (0x110000 + d + 0x10000 * p) = false := by
  have ho : observes (0x110000 + d + 0x10000 * p) = false := observes_eq_false.mpr (by omega)
  simp only [notices, ho, Bool.or_eq_false_iff, beq_eq_false_iff_ne, true_and]
  omega

theorem observes_of_notices {off : Nat} (h : notices off = false) : observes off = false :=
  Bool.eq_false_iff.mpr (fun hb => Bool.false_ne_true (h.symm.trans (notices_of_observes hb)))

theorem notices_prtCtl (hp : p < 12) : notices (Reg.PRT_CTL p) = false := notices_portReg hp (d := 0) (by decide)
theorem notices_prtStatus (hp : p < 12) : notices (Reg.PRT_STATUS p) = false := notices_portReg hp (d := 8) (by decide)
theorem notices_prtPeer (hp : p < 12) : notices (Reg.PRT_PEER p) = false := notices_portReg hp (d := 0x10) (by decide)
theorem notices_prtRtt (hp : p < 12) : notices (Reg.PRT_RTT p) = false := notices_portReg hp (d := 0x18) (by decide)
theorem notices_prtLanes (hp : p < 12) : notices (Reg.PRT_LANES p) = false := notices_portReg hp (d := 0x20) (by decide)
theorem notices_prtModule (hp : p < 12) : notices (Reg.PRT_MODULE p) = false := notices_portReg hp (d := 0x28) (by decide)
theorem notices_prtSpareCnt (hp : p < 12) : notices (Reg.PRT_SPARE_CNT p) = false := notices_portReg hp (d := 0x88) (by decide)
theorem notices_prtDownCnt (hp : p < 12) : notices (Reg.PRT_DOWN_CNT p) = false := notices_portReg hp (d := 0x98) (by decide)
theorem notices_prtHoldCnt (hp : p < 12) : notices (Reg.PRT_HOLD_CNT p) = false := notices_portReg hp (d := 0xA0) (by decide)
theorem notices_prtReturnCnt (hp : p < 12) : notices (Reg.PRT_RETURN_CNT p) = false := notices_portReg hp (d := 0xA8) (by decide)

/-! ### A port enters a link state (R309) -/

/-- The unit state of a port changes units and notices alone. -/
theorem told_unitChange (e : Nat → Prop) (s : State) (v : Nat) (r : UnitRec) (outcome cause : Nat) :
    Told e s (s.unitChange v r outcome cause) ∧ (s.unitChange v r outcome cause).links = s.links := by
  have h := noted_unitChange e s v r outcome cause
  have hlinks := congrArg State.links h.eq
  refine ⟨⟨h.regs, ?_, h.said, h.sent⟩, hlinks⟩
  rw [h.eq]
  rfl

theorem told_portUnit (e : Nat → Prop) (s : State) (p : Nat) : Told e s (s.portUnit p) ∧ (s.portUnit p).links = s.links := by
  have hself : Told e s s ∧ s.links = s.links := ⟨(Linked.refl e s).told ⟨[], by simp⟩, rfl⟩
  unfold State.portUnit
  dsimp only
  split
  · split <;> exact told_unitChange e s _ _ _ _
  · exact told_unitChange e s _ _ _ _
  · exact told_unitChange e s _ _ _ _
  · exact hself

theorem portUnit_quiet {s : State} (h0 : s.linkState p ≠ 0) (h5 : s.linkState p ≠ 5) (h7 : s.linkState p ≠ 7) : s.portUnit p = s := by
  unfold State.portUnit
  split <;> first | rfl | contradiction

end Sys2Proof.Machine
end

section
/-!
SUPPORT. The lanes of a torus port as bit masks (R282, R286): a mask of eleven bits and the list of its lanes say the same.
-/
namespace Sys2Proof.Machine

variable {l : List Nat}

/-- The sum of the powers of two of the numbers below `n` that satisfy `f` has exactly those bits. -/
theorem testBit_powersBelow (f : Nat → Bool) (n : Nat) :
    ((List.range n).filter f).foldl (fun m i => m + 2 ^ i) 0 < 2 ^ n ∧
      ∀ i, (((List.range n).filter f).foldl (fun m i => m + 2 ^ i) 0).testBit i = (decide (i < n) && f i) := by
  induction n with
  | zero => simp
  | succ n ih =>
    obtain ⟨hlt, hbits⟩ := ih
    rw [List.range_succ, List.filter_append, List.foldl_append]
    generalize ((List.range n).filter f).foldl (fun m i => m + 2 ^ i) 0 = v at hlt hbits
    by_cases hf : f n = true
    · have hor : v + 2 ^ n = 2 ^ n ||| v := by simpa [Nat.add_comm] using Nat.two_pow_add_eq_or_of_lt hlt 1
      simp only [List.filter_cons, hf, if_true, List.filter_nil, List.foldl_cons, List.foldl_nil]
      refine ⟨by rw [Nat.pow_succ]; omega, fun i => ?_⟩
      rw [hor, Nat.testBit_or, Nat.testBit_two_pow, hbits i]
      by_cases hi : n = i
      · subst hi; simp [hf]
      · simp [hi, show i < n + 1 ↔ i < n by omega]
    · simp only [List.filter_cons, hf, List.filter_nil]
      refine ⟨by rw [Nat.pow_succ]; exact Nat.lt_of_lt_of_le hlt (by omega), fun i => (hbits i).trans ?_⟩
      by_cases hi : i = n
      · subst hi; simp [hf]
      · simp [show i < n + 1 ↔ i < n by omega]

theorem laneMask_lt (l : List Nat) : laneMask l < 2 ^ 11 := (testBit_powersBelow l.contains 11).1

theorem testBit_laneMask (l : List Nat) (i : Nat) : (laneMask l).testBit i = (decide (i < 11) && l.contains i) :=
  (testBit_powersBelow l.contains 11).2 i

theorem laneMask_mod (l : List Nat) : laneMask l % 2 ^ 11 = laneMask l := Nat.mod_eq_of_lt (laneMask_lt l)

/-- The lanes of a list's mask: those below 11 that it names, in rising order. -/
theorem laneBits_laneMask (l : List Nat) : laneBits (laneMask l) = (List.range 11).filter l.contains :=
  List.filter_congr (fun i hi => by rw [testBit_laneMask, decide_eq_true (List.mem_range.mp hi), Bool.true_and])

theorem laneMask_laneBits (l : List Nat) : laneMask (laneBits (laneMask l)) = laneMask l := by
  apply Nat.eq_of_testBit_eq
  intro i
  rw [testBit_laneMask, testBit_laneMask, laneBits_laneMask, Bool.eq_iff_iff]
  simp only [Bool.and_eq_true, decide_eq_true_eq, List.contains_iff_mem, List.mem_filter, List.mem_range]
  tauto

/-- Filtering a list without repetitions by membership in a part of it gives that part. -/
theorem filter_contains_of_sublist {L : List Nat} (h : l.Sublist L) (hL : L.Nodup) : L.filter l.contains = l := by
  induction h with
  | slnil => rfl
  | @cons l L a h ih =>
    obtain ⟨ha, hL⟩ := List.nodup_cons.mp hL
    have hal : l.contains a = false := by
      rw [Bool.eq_false_iff, ne_eq, List.contains_iff_mem]
      exact fun hm => ha (h.subset hm)
    rw [List.filter_cons_of_neg (by rw [hal]; exact Bool.false_ne_true), ih hL]
  | @cons_cons l L a h ih =>
    obtain ⟨ha, hL⟩ := List.nodup_cons.mp hL
    rw [List.filter_cons_of_pos (by simp)]
    refine congrArg (a :: ·) ((List.filter_congr fun i hi => ?_).trans (ih hL))
    have hne : i ≠ a := fun heq => ha (heq ▸ hi)
    rw [List.contains_cons, beq_eq_false_iff_ne.mpr hne, Bool.false_or]

/-- Lanes taken in rising order are those of their mask. -/
theorem laneBits_of_sublist (h : l.Sublist (List.range 11)) : laneBits (laneMask l) = l :=
  (laneBits_laneMask l).trans (filter_contains_of_sublist h List.nodup_range)

theorem laneBits_sublist (n : Nat) : (laneBits n).Sublist (List.range 11) := List.filter_sublist

theorem laneMask_nil : laneMask [] = 0 := rfl

end Sys2Proof.Machine
end

section
/-!
SUPPORT. The operations on a torus port, one rule each: what they leave in the words of PRT_STATUS and PRT_LANES and in the link record, and
their frames (R282, R291, R306, R309, R311).
-/
namespace Sys2Proof.Machine

variable {e : Nat → Prop} {s t u : State} {p : Nat}

/-! ### What writing a register or the link record leaves alone -/

@[simp] theorem rd_modLink (s : State) (p : Nat) (f : Link → Link) (off : Nat) : (s.modLink p f).rd off = s.rd off := rfl
@[simp] theorem modLink_out (s : State) (p : Nat) (f : Link → Link) : (s.modLink p f).out = s.out := rfl
@[simp] theorem link_setFld (s : State) (off : Nat) (f : Field) (n p : Nat) : (s.setFld off f n).link p = s.link p := rfl
@[simp] theorem link_say (s : State) (m : Msg) (p : Nat) : (s.say m).link p = s.link p := rfl

/-- The link state stands in PRT_STATUS. -/
theorem linkState_def (s : State) (p : Nat) : s.linkState p = getField (s.rd (Reg.PRT_STATUS p)) Fld.PRT_STATUS_STATE := rfl

theorem linkState_of_rd (h : t.rd (Reg.PRT_STATUS p) = s.rd (Reg.PRT_STATUS p)) : t.linkState p = s.linkState p := fld_of_rd _ h

theorem txLanes_def (s : State) (p : Nat) : s.txLanes p = laneBits (getField (s.rd (Reg.PRT_LANES p)) Fld.PRT_LANES_TX_ACTIVE) := rfl
theorem rxLanes_def (s : State) (p : Nat) : s.rxLanes p = laneBits (getField (s.rd (Reg.PRT_LANES p)) Fld.PRT_LANES_RX_ACTIVE) := rfl
theorem txRetired_def (s : State) (p : Nat) : s.txRetired p = laneBits (getField (s.rd (Reg.PRT_LANES p)) Fld.PRT_LANES_TX_RETIRED) := rfl
theorem rxRetired_def (s : State) (p : Nat) : s.rxRetired p = laneBits (getField (s.rd (Reg.PRT_LANES p)) Fld.PRT_LANES_RX_RETIRED) := rfl

theorem status_ne_lanes (p : Nat) : Reg.PRT_STATUS p ≠ Reg.PRT_LANES p := by simp

/-! ### Lanes and spares -/

/-- The registers of a port that its lanes stand in. -/
def laneRegs (p off : Nat) : Prop := off = Reg.PRT_LANES p ∨ off = Reg.PRT_STATUS p

theorem rd_status_setTxLanes (s : State) (p : Nat) (l : List Nat) : (s.setTxLanes p l).rd (Reg.PRT_STATUS p) =
    putField (s.rd (Reg.PRT_STATUS p)) Fld.PRT_STATUS_TX_LANES (laneBits (laneMask l)).length :=
  (rd_setFld_here _ _ _ _).trans (by rw [rd_setFld_ne _ _ (status_ne_lanes p), rd_modLink])

theorem rd_lanes_setTxLanes (s : State) (p : Nat) (l : List Nat) : (s.setTxLanes p l).rd (Reg.PRT_LANES p) =
    putField (s.rd (Reg.PRT_LANES p)) Fld.PRT_LANES_TX_ACTIVE (laneMask l) :=
  (rd_setFld_ne _ _ (status_ne_lanes p).symm).trans (rd_setFld_here _ _ _ _)

theorem link_setTxLanes (s : State) (p : Nat) (l : List Nat) : (s.setTxLanes p l).link p = { s.link p with txPos := l } :=
  link_modLink_here s p (fun k => { k with txPos := l })

theorem linked_setTxLanes (s : State) (p : Nat) (l : List Nat) : Linked (laneRegs p) s (s.setTxLanes p l) :=
  ((linked_modLink _ s p _).setFld _ _ (.inl rfl)).setFld _ _ (.inr rfl)

theorem rd_status_setRxLanes (s : State) (p : Nat) (l : List Nat) : (s.setRxLanes p l).rd (Reg.PRT_STATUS p) =
    putField (s.rd (Reg.PRT_STATUS p)) Fld.PRT_STATUS_RX_LANES (laneBits (laneMask l)).length :=
  (rd_setFld_here _ _ _ _).trans (by rw [rd_setFld_ne _ _ (status_ne_lanes p), rd_modLink])

theorem rd_lanes_setRxLanes (s : State) (p : Nat) (l : List Nat) : (s.setRxLanes p l).rd (Reg.PRT_LANES p) =
    putField (s.rd (Reg.PRT_LANES p)) Fld.PRT_LANES_RX_ACTIVE (laneMask l) :=
  (rd_setFld_ne _ _ (status_ne_lanes p).symm).trans (rd_setFld_here _ _ _ _)

theorem link_setRxLanes (s : State) (p : Nat) (l : List Nat) : (s.setRxLanes p l).link p = { s.link p with rxPos := l } :=
  link_modLink_here s p (fun k => { k with rxPos := l })

theorem linked_setRxLanes (s : State) (p : Nat) (l : List Nat) : Linked (laneRegs p) s (s.setRxLanes p l) :=
  ((linked_modLink _ s p _).setFld _ _ (.inl rfl)).setFld _ _ (.inr rfl)

/-- The flag of PRT_STATUS that shows a direction's spare. -/
def spareField (tx : Bool) : Field := if tx then Fld.PRT_STATUS_TX_SPARE else Fld.PRT_STATUS_RX_SPARE

theorem rd_status_setSpare (s : State) (p : Nat) (tx v : Bool) : (s.setSpare p tx v).rd (Reg.PRT_STATUS p) =
    putField (s.rd (Reg.PRT_STATUS p)) (spareField tx) v.toNat := rd_setFld_here _ _ _ _

theorem rd_lanes_setSpare (s : State) (p : Nat) (tx v : Bool) : (s.setSpare p tx v).rd (Reg.PRT_LANES p) = s.rd (Reg.PRT_LANES p) :=
  rd_setFld_ne _ _ (status_ne_lanes p).symm

@[simp] theorem link_setSpare (s : State) (p : Nat) (tx v : Bool) (q : Nat) : (s.setSpare p tx v).link q = s.link q := rfl

theorem linked_setSpare (s : State) (p : Nat) (tx v : Bool) : Linked (laneRegs p) s (s.setSpare p tx v) :=
  (Linked.refl _ s).setFld _ _ (.inr rfl)

theorem spareBit_def (s : State) (p : Nat) (tx : Bool) : s.spareBit p tx = (getField (s.rd (Reg.PRT_STATUS p)) (spareField tx) == 1) := rfl

theorem toNat_mod_two_beq_one (v : Bool) : (v.toNat % 2 ^ 1 == 1) = v := by cases v <;> rfl

theorem spareField_width (tx : Bool) : (spareField tx).width = 1 := by cases tx <;> rfl

theorem spareField_fits (tx : Bool) : (spareField tx).lo + (spareField tx).width ≤ 64 := by cases tx <;> decide

theorem spareBit_setSpare (s : State) (p : Nat) (tx v : Bool) : (s.setSpare p tx v).spareBit p tx = v := by
  rw [spareBit_def, rd_status_setSpare, getField_putField _ _ _ (spareField_fits tx), spareField_width, toNat_mod_two_beq_one]

/-- Without its flag a direction has no spare. -/
theorem spareLane_none {tx : Bool} (h : s.spareBit p tx = false) : s.spareLane p tx = none := by
  rw [State.spareLane, if_neg (by rw [h]; exact Bool.false_ne_true)]

theorem spareLane_setSpare_false (s : State) (p : Nat) (tx : Bool) : (s.setSpare p tx false).spareLane p tx = none :=
  spareLane_none (spareBit_setSpare s p tx false)

section
variable (hl : t.rd (Reg.PRT_LANES p) = s.rd (Reg.PRT_LANES p))
include hl

theorem txLanes_of_rd : t.txLanes p = s.txLanes p := by rw [txLanes_def, hl]; rfl
theorem rxLanes_of_rd : t.rxLanes p = s.rxLanes p := by rw [rxLanes_def, hl]; rfl
theorem txRetired_of_rd : t.txRetired p = s.txRetired p := by rw [txRetired_def, hl]; rfl
theorem rxRetired_of_rd : t.rxRetired p = s.rxRetired p := by rw [rxRetired_def, hl]; rfl

/-- The spare of a direction is read from PRT_STATUS and PRT_LANES. -/
theorem spareLane_of_rd (hst : t.rd (Reg.PRT_STATUS p) = s.rd (Reg.PRT_STATUS p)) (tx : Bool) : t.spareLane p tx = s.spareLane p tx := by
  have hbit : t.spareBit p tx = s.spareBit p tx := by rw [spareBit_def, hst]; rfl
  rw [State.spareLane, State.spareLane, hbit, txLanes_of_rd hl, rxLanes_of_rd hl, txRetired_of_rd hl, rxRetired_of_rd hl]

end

theorem linked_enableLanes (e : Nat → Prop) (s : State) (p : Nat) (on : Bool) : Linked e s (s.enableLanes p on) := linked_modLink e s p _

theorem link_enableLanes (s : State) (p : Nat) (on : Bool) : (s.enableLanes p on).link p =
    { s.link p with laneEn := if on then 2047 - laneMask (s.txRetired p) else 0 } :=
  link_modLink_here s p (fun l => { l with laneEn := if on then 2047 - laneMask (s.txRetired p) else 0 })

/-! ### Flits -/

/-- A flit that joins its group changes the group, the stream and the wire (R286). -/
theorem push_eq (l : Link) (f : LinkFlit) :
    l.push f = { l with group := (l.push f).group, txSym := (l.push f).txSym, wire := (l.push f).wire } := by
  unfold Link.push
  dsimp only
  split <;> rfl

theorem sendFlit_running (h : s.stopped = false) (p : Nat) (f : LinkFlit) :
    s.sendFlit p f = (s.modLink p (fun l => l.push f)).say (.link p f) := if_neg (by rw [h]; exact Bool.false_ne_true)

theorem linked_sendFlit (e : Nat → Prop) (s : State) (p : Nat) (f : LinkFlit) : Linked e s (s.sendFlit p f) := by
  unfold State.sendFlit
  split
  · exact Linked.refl e s
  · exact (linked_modLink e s p _).trans (linked_say e _ _)

@[simp] theorem rd_sendFlit (s : State) (p : Nat) (f : LinkFlit) (off : Nat) : (s.sendFlit p f).rd off = s.rd off := by
  unfold State.sendFlit
  split <;> rfl

theorem sendFlit_out (s : State) (p : Nat) (f : LinkFlit) : ∃ l, (s.sendFlit p f).out = s.out ++ l := by
  unfold State.sendFlit
  split
  · exact ⟨[], by simp⟩
  · exact ⟨[.link p f], rfl⟩

/-- What sending a flit changes of the link record. -/
theorem link_sendFlit (s : State) (p : Nat) (f : LinkFlit) : ∃ g n w, (s.sendFlit p f).link p = { s.link p with group := g, txSym := n, wire := w } := by
  unfold State.sendFlit
  split
  · exact ⟨_, _, _, rfl⟩
  · exact ⟨_, _, _, (link_modLink_here s p (fun l => l.push f)).trans (push_eq (s.link p) f)⟩

/-- The lane numbers of ALIGN are messages alone (R291). -/
theorem sendLaneIds_eq (s : State) (p : Nat) : s.sendLaneIds p = { s with
    out := s.out ++ ((List.range 11).filter (fun i => !(s.txRetired p).contains i)).map (fun i => .link p (.lane (s.link p).head i)) } := by
  have hfold : ∀ (l : List Nat) (t : State), l.foldl (fun (t : State) i => t.say (.link p (.lane (t.link p).head i))) t =
      { t with out := t.out ++ l.map (fun i => .link p (.lane (t.link p).head i)) } := by
    intro l
    induction l with
    | nil => intro t; simp
    | cons i l ih => intro t; rw [List.foldl_cons, ih]; simp [State.say, State.link]
  exact hfold _ s

/-! ### Link states -/

/-- A port that enters a link state: PRT_STATUS, its unit state, and what telling the outside touches. -/
theorem told_toLink (s : State) (hp : p < 12) (st : Nat) :
    Told (· = Reg.PRT_STATUS p) s (s.toLink p st) ∧ (s.toLink p st).links = s.links := by
  have hn := ((Near.refl (· = Reg.PRT_STATUS p) s).setFld (Reg.PRT_STATUS p) Fld.PRT_STATUS_STATE st (.inl rfl)).trace
    (v := 64 + p) (by omega) 0x11 st 0
      (peerWord ((s.setFld (Reg.PRT_STATUS p) Fld.PRT_STATUS_STATE st).fld (Reg.PRT_PEER p) Fld.PRT_PEER_CHIP) 0 0 0 0)
  have hlinks := congrArg State.links hn.eq
  have hout := congrArg State.out hn.eq
  obtain ⟨hunit, hunitLinks⟩ := told_portUnit (· = Reg.PRT_STATUS p)
    ((s.setFld (Reg.PRT_STATUS p) Fld.PRT_STATUS_STATE st).trace (64 + p) 0x11 st 0
      (peerWord ((s.setFld (Reg.PRT_STATUS p) Fld.PRT_STATUS_STATE st).fld (Reg.PRT_PEER p) Fld.PRT_PEER_CHIP) 0 0 0 0)) p
  exact ⟨(hn.linked.told ⟨[], by rw [hout, List.append_nil]⟩).trans hunit, hunitLinks.trans hlinks⟩

theorem rd_status_toLink (s : State) (hp : p < 12) (st : Nat) :
    (s.toLink p st).rd (Reg.PRT_STATUS p) = putField (s.rd (Reg.PRT_STATUS p)) Fld.PRT_STATUS_STATE st := by
  have hobs := observes_of_notices (notices_prtStatus hp)
  obtain ⟨hunit, -⟩ := told_portUnit (fun _ => False)
    ((s.setFld (Reg.PRT_STATUS p) Fld.PRT_STATUS_STATE st).trace (64 + p) 0x11 st 0
      (peerWord ((s.setFld (Reg.PRT_STATUS p) Fld.PRT_STATUS_STATE st).fld (Reg.PRT_PEER p) Fld.PRT_PEER_CHIP) 0 0 0 0)) p
  have htrace := ((Near.refl (fun _ => False) (s.setFld (Reg.PRT_STATUS p) Fld.PRT_STATUS_STATE st)).trace (v := 64 + p) (by omega) 0x11 st 0
    (peerWord ((s.setFld (Reg.PRT_STATUS p) Fld.PRT_STATUS_STATE st).fld (Reg.PRT_PEER p) Fld.PRT_PEER_CHIP) 0 0 0 0)).regs _ not_false hobs
  exact (hunit.rd not_false (notices_prtStatus hp)).trans (htrace.trans (rd_setFld_here s _ _ _))

theorem rd_toLink_ne (s : State) (hp : p < 12) (st : Nat) {off : Nat} (hne : off ≠ Reg.PRT_STATUS p) (hn : notices off = false) :
    (s.toLink p st).rd off = s.rd off := (told_toLink s hp st).1.rd hne hn

theorem link_toLink (s : State) (hp : p < 12) (st q : Nat) : (s.toLink p st).link q = s.link q := link_of_links (told_toLink s hp st).2 q

theorem linkState_toLink (s : State) (hp : p < 12) {st : Nat} (h : st < 8) : (s.toLink p st).linkState p = st := by
  rw [linkState_def, rd_status_toLink s hp, getField_putField _ _ _ (by decide)]
  exact Nat.mod_eq_of_lt h

/-- A link state that gives its unit no state of its own touches PRT_STATUS and the trace alone (R309). -/
theorem near_toLink (s : State) (hp : p < 12) {st : Nat} (h : st < 8) (hq : st ≠ 0 ∧ st ≠ 5 ∧ st ≠ 7) :
    Near (· = Reg.PRT_STATUS p) s (s.toLink p st) := by
  obtain ⟨h0, h5, h7⟩ := hq
  have hn := ((Near.refl (· = Reg.PRT_STATUS p) s).setFld (Reg.PRT_STATUS p) Fld.PRT_STATUS_STATE st (.inl rfl)).trace
    (v := 64 + p) (by omega) 0x11 st 0
      (peerWord ((s.setFld (Reg.PRT_STATUS p) Fld.PRT_STATUS_STATE st).fld (Reg.PRT_PEER p) Fld.PRT_PEER_CHIP) 0 0 0 0)
  have hstate : ((s.setFld (Reg.PRT_STATUS p) Fld.PRT_STATUS_STATE st).trace (64 + p) 0x11 st 0
      (peerWord ((s.setFld (Reg.PRT_STATUS p) Fld.PRT_STATUS_STATE st).fld (Reg.PRT_PEER p) Fld.PRT_PEER_CHIP) 0 0 0 0)).linkState p = st := by
    refine (((Near.refl (fun _ => False) _).trace (by omega) _ _ _ _).fld _ not_false (observes_of_notices (notices_prtStatus hp))).trans ?_
    rw [fld_setFld_here _ _ _ _ (by decide)]
    exact Nat.mod_eq_of_lt h
  unfold State.toLink
  dsimp only
  rw [portUnit_quiet (by rw [hstate]; exact h0) (by rw [hstate]; exact h5) (by rw [hstate]; exact h7)]
  exact hn

/-- DETECT starts (R291). -/
theorem startDetect_runs (h : s.bootDead = false) (hp : p < 12) : (s.startDetect p).linkState p = 1 ∧
    (s.startDetect p).fld (Reg.PRT_STATUS p) Fld.PRT_STATUS_HOLD = 0 ∧ Near (· = Reg.PRT_STATUS p) s (s.startDetect p) := by
  rw [State.startDetect, if_neg (by rw [h]; exact Bool.false_ne_true)]
  refine ⟨linkState_toLink _ hp (by decide), ?_, ?_⟩
  · rw [fld_def, rd_status_toLink _ hp, getField_putField_ne _ _ _ _ (by decide) (by decide), ← fld_def, fld_setFld_here _ _ _ _ (by decide)]
    rfl
  · exact ((Near.refl (· = Reg.PRT_STATUS p) s).setFld _ _ _ (.inl rfl)).trans (near_toLink _ hp (st := 1) (by decide) (by decide))

end Sys2Proof.Machine
end

section
/-!
SUPPORT. A torus port that ends its link (R293, R306, R330): DOWN and HELD clear the same things, and differ in the cause, the flag, the counter
and the notice that goes first.
-/
namespace Sys2Proof.Machine

variable {e : Nat → Prop} {s t u : State} {p cause : Nat}

/-- A count is a fact about its register before and after. -/
theorem counted.of_rd {ct n : Nat} (h : u.rd ct = s.rd ct) (k : counted ct n u t) : counted ct n s t := by
  unfold counted at k ⊢
  rw [k, h, fld_of_rd _ h]

/-! ### What ends with the link -/

theorem link_endLink (s : State) (p : Nat) : (s.endLink p).link p = { module := (s.link p).module, retrains := (s.link p).retrains } :=
  link_setLink_here _ p _

theorem queue_endLink_here (s : State) (p : Nat) : (s.endLink p).rt.queue p = (s.returned p).map (fun x => { x.2 with sent := 0 }) :=
  (Tab.get_set [] s.rt.rout p _ p).trans (if_pos rfl)

theorem queue_endLink_ne (s : State) {q : Nat} (h : q ≠ p) : (s.endLink p).rt.queue q = s.rt.queue q := Tab.get_set_ne [] s.rt.rout p _ q h

theorem changed_endLink (e : Nat → Prop) (s : State) (p : Nat) : Changed e s (s.endLink p) :=
  ⟨fun _ _ _ => rfl, rfl, ⟨[], (List.append_nil _).symm⟩, ⟨[], by simp⟩⟩

/-- The packets that a port returns are a matter of its replay buffer and its queue. -/
theorem returned_congr (hb : (t.link p).buf = (s.link p).buf) (hq : t.rt = s.rt) : t.returned p = s.returned p := by
  unfold State.returned Link.unacked
  rw [hb, hq]

/-- The link has ended, the lanes are off, and HOLD shows a cause. -/
def State.portCleared (s : State) (p cause : Nat) : State :=
  ((s.endLink p).lanesOff p).setFld (Reg.PRT_STATUS p) Fld.PRT_STATUS_HOLD cause

theorem link_lanesOff (s : State) (p : Nat) : (s.lanesOff p).link p = { s.link p with txPos := [], rxPos := [], laneEn := 0 } := by
  unfold State.lanesOff
  rw [link_enableLanes, link_setSpare, link_setSpare, link_setRxLanes, link_setTxLanes]
  rfl

theorem rd_lanes_lanesOff (s : State) (p : Nat) : (s.lanesOff p).rd (Reg.PRT_LANES p) =
    putField (putField (s.rd (Reg.PRT_LANES p)) Fld.PRT_LANES_TX_ACTIVE 0) Fld.PRT_LANES_RX_ACTIVE 0 := by
  unfold State.lanesOff State.enableLanes
  rw [rd_modLink, rd_lanes_setSpare, rd_lanes_setSpare, rd_lanes_setRxLanes, rd_lanes_setTxLanes, laneMask_nil]

theorem linked_lanesOff (s : State) (p : Nat) : Linked (laneRegs p) s (s.lanesOff p) :=
  ((((linked_setTxLanes s p []).trans (linked_setRxLanes _ p [])).trans (linked_setSpare _ p true false)).trans
    (linked_setSpare _ p false false)).trans (linked_enableLanes _ _ p false)

@[simp] theorem out_setFld (s : State) (off : Nat) (f : Field) (n : Nat) : (s.setFld off f n).out = s.out := rfl

theorem lanesOff_out (s : State) (p : Nat) : (s.lanesOff p).out = s.out := rfl

theorem link_portCleared (s : State) (p cause : Nat) :
    (s.portCleared p cause).link p = { module := (s.link p).module, retrains := (s.link p).retrains } := by
  rw [State.portCleared, link_setFld, link_lanesOff, link_endLink]

/-- Clearing the lanes and showing a cause tells the outside nothing. -/
theorem changed_lanesCleared (u : State) (p cause : Nat) :
    Changed (laneRegs p) u ((u.lanesOff p).setFld (Reg.PRT_STATUS p) Fld.PRT_STATUS_HOLD cause) :=
  (((linked_lanesOff u p).setFld _ _ (.inr rfl)).told ⟨[], by rw [List.append_nil, out_setFld, lanesOff_out]⟩).changed

theorem changed_portCleared (s : State) (p cause : Nat) : Changed (laneRegs p) s (s.portCleared p cause) :=
  (changed_endLink _ s p).trans (changed_lanesCleared (s.endLink p) p cause)

/-- Of the router's tables and the messages, the end of the link is all that clearing a port touches. -/
theorem portCleared_rt (s : State) (p cause : Nat) : (s.portCleared p cause).rt = (s.endLink p).rt :=
  ((linked_lanesOff (s.endLink p) p).setFld (off := Reg.PRT_STATUS p) Fld.PRT_STATUS_HOLD cause (.inr rfl)).rt

theorem lanes_portCleared (s : State) (p cause : Nat) : (s.portCleared p cause).txLanes p = [] ∧ (s.portCleared p cause).rxLanes p = [] := by
  have hword : (s.portCleared p cause).rd (Reg.PRT_LANES p) =
      putField (putField (s.rd (Reg.PRT_LANES p)) Fld.PRT_LANES_TX_ACTIVE 0) Fld.PRT_LANES_RX_ACTIVE 0 :=
    (rd_setFld_ne _ _ (status_ne_lanes p).symm).trans (rd_lanes_lanesOff _ p)
  rw [txLanes_def, rxLanes_def, hword, getField_putField_ne _ _ _ _ (by decide) (by decide), getField_putField _ _ _ (by decide),
    getField_putField _ _ _ (by decide)]
  exact ⟨rfl, rfl⟩

/-! ### DOWN and HELD alike -/

/-- `t` is `s` with port `p` in link state `st`: `cause` in HOLD, the flag `f` set and `ct` counted, the link ended. -/
structure PortClosed (p cause st : Nat) (f : Field) (ct : Nat) (s t : State) : Prop where
  state : t.linkState p = st
  hold : t.fld (Reg.PRT_STATUS p) Fld.PRT_STATUS_HOLD = cause
  flag : t.fld (Reg.PRT_STATUS p) f = 1
  count : counted ct 1 s t
  tx : t.txLanes p = []
  rx : t.rxLanes p = []
  link : t.link p = { module := (s.link p).module, retrains := (s.link p).retrains }
  queue : t.rt.queue p = (s.returned p).map (fun x => { x.2 with sent := 0 })
  others : ∀ q, q ≠ p → t.rt.queue q = s.rt.queue q
  arrived : t.rt.arrived = s.rt.arrived
  frame : Changed (fun off => laneRegs p off ∨ off = ct) s t

/-- A port whose link has ended raises its flag and enters its link state. -/
theorem PortClosed.of_cleared (hp : p < 12) {st ct : Nat} {f : Field} (hcleared : Changed (laneRegs p) s u)
    (hhold : u.fld (Reg.PRT_STATUS p) Fld.PRT_STATUS_HOLD = cause) (hlanes : u.txLanes p = [] ∧ u.rxLanes p = [])
    (hlink : u.link p = { module := (s.link p).module, retrains := (s.link p).retrains }) (hrt : u.rt = (s.endLink p).rt) (hst : st < 8)
    (hf : Fld.PRT_STATUS_RX_SPARE.lo < f.lo ∧ f.lo < 64 ∧ f.width = 1) (hct : ct ≠ Reg.PRT_STATUS p ∧ ct ≠ Reg.PRT_LANES p)
    (hn : notices ct = false) : PortClosed p cause st f ct s ((u.event (Reg.PRT_STATUS p) f ct).toLink p st) := by
  obtain ⟨hlo, hhi, hw⟩ := hf
  obtain ⟨hcs, hcl⟩ := hct
  have hlo' : 18 < f.lo := hlo
  obtain ⟨htx, hrx⟩ := hlanes
  obtain ⟨hflag, hcount⟩ := raised_event u (Reg.PRT_STATUS p) f ct hcs.symm
  have hevent : Linked (fun off => laneRegs p off ∨ off = ct) u (u.event (Reg.PRT_STATUS p) f ct) :=
    (Linked.refl _ u).event f (.inl (.inr rfl)) (.inr rfl)
  have hsaid : ∃ l, (u.event (Reg.PRT_STATUS p) f ct).out = u.out ++ l := ⟨[], (List.append_nil _).symm⟩
  have hlanesEvent : (u.event (Reg.PRT_STATUS p) f ct).rd (Reg.PRT_LANES p) = u.rd (Reg.PRT_LANES p) :=
    rd_event_ne f (status_ne_lanes p).symm hcl.symm
  have hlinkEvent : (u.event (Reg.PRT_STATUS p) f ct).link p = u.link p := rfl
  have hrtEvent := hevent.rt
  have hcleared' : u.rd ct = s.rd ct := hcleared.rd (by rintro (h | h); exacts [hcl h, hcs h]) hn
  have hchanged := (hcleared.mono fun _ => .inl).trans (hevent.told hsaid).changed
  generalize u.event (Reg.PRT_STATUS p) f ct = v at *
  obtain ⟨hto, hlinks⟩ := told_toLink v hp st
  have hword : (v.toLink p st).rd (Reg.PRT_STATUS p) =
      putField (putField (u.rd (Reg.PRT_STATUS p)) f 1) Fld.PRT_STATUS_STATE st := by
    rw [rd_status_toLink _ hp, hflag]
  have hlanes : (v.toLink p st).rd (Reg.PRT_LANES p) = u.rd (Reg.PRT_LANES p) :=
    (rd_toLink_ne _ hp st (status_ne_lanes p).symm (notices_prtLanes hp)).trans hlanesEvent
  have hrout : ∀ q, (v.toLink p st).rt.queue q = (s.endLink p).rt.queue q := by
    intro q
    rw [Router.queue, hto.rout, hrtEvent, hrt]
    rfl
  exact {
    state := linkState_toLink _ hp hst
    hold := by
      rw [fld_def, hword, getField_putField_ne _ _ _ _ (by decide) (by decide),
        getField_putField_ne _ _ _ _ (by omega) (by simp only [Fld.PRT_STATUS_HOLD]; omega), ← fld_def, hhold]
    flag := by
      rw [fld_def, hword, getField_putField_ne _ _ _ _ (by decide) (by simp only [Fld.PRT_STATUS_STATE]; omega),
        getField_putField _ _ _ (by omega), hw]
      rfl
    count := by
      refine (hto.rd hcs hn).trans (hcount.trans ?_)
      rw [hcleared', fld_of_rd _ hcleared']
    tx := (txLanes_of_rd hlanes).trans htx
    rx := (rxLanes_of_rd hlanes).trans hrx
    link := (link_of_links hlinks p).trans (hlinkEvent.trans hlink)
    queue := (hrout p).trans (queue_endLink_here s p)
    others := fun q hq => (hrout q).trans (queue_endLink_ne s hq)
    arrived := by
      rw [hto.arrived, hrtEvent, hrt]
      rfl
    frame := hchanged.trans (hto.changed.mono fun _ h => .inl (.inr h)) }

/-- A port that is cleared, raises its flag and enters its link state. -/
theorem portCleared_closes (s : State) (hp : p < 12) {st ct : Nat} {f : Field} (hcause : cause < 16) (hst : st < 8)
    (hf : Fld.PRT_STATUS_RX_SPARE.lo < f.lo ∧ f.lo < 64 ∧ f.width = 1) (hct : ct ≠ Reg.PRT_STATUS p ∧ ct ≠ Reg.PRT_LANES p)
    (hn : notices ct = false) :
    PortClosed p cause st f ct s (((s.portCleared p cause).event (Reg.PRT_STATUS p) f ct).toLink p st) :=
  PortClosed.of_cleared hp (changed_portCleared s p cause)
    ((fld_setFld_here _ _ _ _ (by decide)).trans (Nat.mod_eq_of_lt hcause)) (lanes_portCleared s p cause)
    (link_portCleared s p cause) (portCleared_rt s p cause) hst hf hct hn

/-! ### HELD (R293) -/

theorem holdPort_holds (s : State) (hp : p < 12) (hcause : cause < 16) : heldWith (fun _ => False) p cause s (s.holdPort p cause) := by
  obtain ⟨hstate, hhold, hflag, hcount, htx, hrx, hlink, -, hothers, harrived, hframe⟩ :=
    portCleared_closes s hp (st := 7) (f := Fld.PRT_STATUS_HELD) (ct := Reg.PRT_HOLD_CNT p) hcause (by decide) (by decide) (by simp)
      (notices_prtHoldCnt hp)
  exact ⟨hstate, hhold, hflag, hcount, htx, hrx, hlink, hothers, harrived, hframe.mono (by unfold laneRegs; tauto)⟩

/-- A port is held after a change of registers that the statement names, of its lanes, and of its link record. -/
theorem heldWith.of_linked (hp : p < 12) (h : Linked (fun off => e off ∨ laneRegs p off) s u) (hout : ∃ l, u.out = s.out ++ l)
    (hmod : (u.link p).module = (s.link p).module) (hret : (u.link p).retrains = (s.link p).retrains) (he : ¬ e (Reg.PRT_HOLD_CNT p))
    (k : heldWith (fun _ => False) p cause u t) : heldWith e p cause s t := by
  obtain ⟨hstate, hhold, hflag, hcount, htx, hrx, hlink, hothers, harrived, hframe⟩ := k
  have hct : u.rd (Reg.PRT_HOLD_CNT p) = s.rd (Reg.PRT_HOLD_CNT p) :=
    h.rd (by unfold laneRegs; simp [he]) (observes_of_notices (notices_prtHoldCnt hp))
  refine ⟨hstate, hhold, hflag, hcount.of_rd hct, htx, hrx, by rw [hlink, hmod, hret], fun q hq => by rw [hothers q hq, h.rt],
    by rw [harrived, h.rt], ?_⟩
  exact ((h.told hout).changed.mono (by unfold laneRegs; tauto)).trans (Noted.mono hframe (by tauto))

/-! ### DOWN (R306) -/

/-- DOWN_NOTICE goes first where the lanes carry flits (R306). -/
def State.downNoticed (s : State) (p : Nat) (notice : Bool) : State :=
  if notice && decide (3 ≤ s.linkState p ∧ s.linkState p ≤ 6) then
    s.sendFlit p (.lmf (s.link p).head [{ num := (s.link p).nextNote, msg := .downNotice }] (s.link p).acks) else s

theorem linked_downNoticed (e : Nat → Prop) (s : State) (p : Nat) (notice : Bool) : Linked e s (s.downNoticed p notice) := by
  unfold State.downNoticed
  split
  · exact linked_sendFlit e s p _
  · exact Linked.refl e s

theorem downNoticed_out (s : State) (p : Nat) (notice : Bool) : ∃ l, (s.downNoticed p notice).out = s.out ++ l := by
  unfold State.downNoticed
  split
  · exact sendFlit_out s p _
  · exact ⟨[], (List.append_nil _).symm⟩

theorem link_downNoticed (s : State) (p : Nat) (notice : Bool) :
    ∃ g n w, (s.downNoticed p notice).link p = { s.link p with group := g, txSym := n, wire := w } := by
  unfold State.downNoticed
  split
  · exact link_sendFlit s p _
  · exact ⟨_, _, _, rfl⟩

/-- DOWN is the notice, the count of the packets returned, and the end of the link. -/
theorem linkDown_eq (s : State) (p : Nat) (notice : Bool) : s.linkDown p notice =
    (((((s.downNoticed p notice).cntBy (Reg.PRT_RETURN_CNT p) (((s.downNoticed p notice).returned p).filter (·.1)).length).portCleared p 0).event
      (Reg.PRT_STATUS p) Fld.PRT_STATUS_DOWN (Reg.PRT_DOWN_CNT p)).toLink p 0) := rfl

theorem linkDown_closes (s : State) (hp : p < 12) (notice : Bool) :
    PortClosed p 0 0 Fld.PRT_STATUS_DOWN (Reg.PRT_DOWN_CNT p)
      ((s.downNoticed p notice).cntBy (Reg.PRT_RETURN_CNT p) (((s.downNoticed p notice).returned p).filter (·.1)).length) (s.linkDown p notice) := by
  rw [linkDown_eq]
  exact portCleared_closes _ hp (by decide) (by decide) (by decide) (by simp) (notices_prtDownCnt hp)

theorem linkDown_down (s : State) (hp : p < 12) (notice : Bool) : wentDown (fun _ => False) p s (s.linkDown p notice) := by
  obtain ⟨hstate, hhold, hflag, hcount, htx, hrx, hlink, hqueue, hothers, harrived, hframe⟩ := linkDown_closes s hp notice
  have hn := linked_downNoticed (fun _ => False) s p notice
  obtain ⟨g, n, w, hl⟩ := link_downNoticed s p notice
  have hret : (s.downNoticed p notice).returned p = s.returned p := returned_congr (by rw [hl]) hn.rt
  have hnrd : ∀ off, observes off = false → (s.downNoticed p notice).rd off = s.rd off := fun off ho => hn.rd not_false ho
  have hdct : ((s.downNoticed p notice).cntBy (Reg.PRT_RETURN_CNT p) (((s.downNoticed p notice).returned p).filter (·.1)).length).rd
      (Reg.PRT_DOWN_CNT p) = s.rd (Reg.PRT_DOWN_CNT p) :=
    (rd_cntBy_ne _ (by simp)).trans (hnrd _ (observes_of_notices (notices_prtDownCnt hp)))
  have hrct := hnrd _ (observes_of_notices (notices_prtReturnCnt hp))
  have hreturned : counted (Reg.PRT_RETURN_CNT p) ((s.returned p).filter (·.1)).length s (s.linkDown p notice) := by
    rw [← hret]
    refine counted.of_rd hrct ?_
    exact (hframe.rd (by unfold laneRegs; simp) (notices_prtReturnCnt hp)).trans (counted_cntBy _ _ _)
  refine ⟨hstate, hhold, hflag, hcount.of_rd hdct, hreturned, htx, hrx, hlink.trans ?_, hqueue.trans ?_, fun q hq => (hothers q hq).trans ?_,
    harrived.trans ?_, ?_⟩
  · show ({ module := ((s.downNoticed p notice).link p).module, retrains := ((s.downNoticed p notice).link p).retrains } : Link) = _
    rw [hl]
  · exact congrArg (List.map _) hret
  · exact congrArg (fun r : Router => r.queue q) hn.rt
  · exact congrArg Router.arrived hn.rt
  · have hcnt : Told (· = Reg.PRT_RETURN_CNT p) (s.downNoticed p notice)
        ((s.downNoticed p notice).cntBy (Reg.PRT_RETURN_CNT p) (((s.downNoticed p notice).returned p).filter (·.1)).length) :=
      ((Linked.refl (· = Reg.PRT_RETURN_CNT p) _).setFld (off := Reg.PRT_RETURN_CNT p) _ _ rfl).told ⟨[], (List.append_nil _).symm⟩
    have hsent := (linked_downNoticed (· = Reg.PRT_RETURN_CNT p) s p notice).told (downNoticed_out s p notice)
    exact ((hsent.trans hcnt).changed.mono (by tauto)).trans (hframe.mono (by unfold laneRegs; tauto))

theorem linkDown_frame (s : State) (hp : p < 12) (notice : Bool) : Changed
    (fun off => False ∨ off = Reg.PRT_STATUS p ∨ off = Reg.PRT_LANES p ∨ off = Reg.PRT_DOWN_CNT p ∨ off = Reg.PRT_RETURN_CNT p)
    s (s.linkDown p notice) := by
  obtain ⟨-, -, -, -, -, -, -, -, -, -, -, hframe⟩ := linkDown_down s hp notice
  exact hframe

/-- The notice stands first among the messages of a port that goes DOWN. -/
theorem linkDown_out (s : State) (hp : p < 12) (notice : Bool) : ∃ l, (s.linkDown p notice).out = (s.downNoticed p notice).out ++ l :=
  (linkDown_closes s hp notice).frame.said

/-- A port goes DOWN after a change of registers that the statement names, of its lanes, and of its link record. -/
theorem wentDown.of_linked (hp : p < 12) (h : Linked (fun off => e off ∨ laneRegs p off) s u) (hout : ∃ l, u.out = s.out ++ l)
    (hbuf : (u.link p).buf = (s.link p).buf) (hmod : (u.link p).module = (s.link p).module)
    (hret : (u.link p).retrains = (s.link p).retrains) (he : ¬ e (Reg.PRT_DOWN_CNT p) ∧ ¬ e (Reg.PRT_RETURN_CNT p))
    (k : wentDown (fun _ => False) p u t) : wentDown e p s t := by
  obtain ⟨hstate, hhold, hflag, hcount, hreturned, htx, hrx, hlink, hqueue, hothers, harrived, hframe⟩ := k
  obtain ⟨hed, her⟩ := he
  have hd : u.rd (Reg.PRT_DOWN_CNT p) = s.rd (Reg.PRT_DOWN_CNT p) :=
    h.rd (by unfold laneRegs; simp [hed]) (observes_of_notices (notices_prtDownCnt hp))
  have hr : u.rd (Reg.PRT_RETURN_CNT p) = s.rd (Reg.PRT_RETURN_CNT p) :=
    h.rd (by unfold laneRegs; simp [her]) (observes_of_notices (notices_prtReturnCnt hp))
  have hpkts : u.returned p = s.returned p := returned_congr hbuf h.rt
  rw [hpkts] at hreturned hqueue
  refine ⟨hstate, hhold, hflag, hcount.of_rd hd, hreturned.of_rd hr, htx, hrx, by rw [hlink, hmod, hret], hqueue,
    fun q hq => by rw [hothers q hq, h.rt], by rw [harrived, h.rt], ?_⟩
  exact ((h.told hout).changed.mono (by unfold laneRegs; tauto)).trans (Noted.mono hframe (by tauto))

/-- A check of NEGOTIATE that fails holds the port, or takes it DOWN in a retrain (R291). -/
theorem failTraining_held (h : s.linkState p = 4) (cause : Nat) : s.failTraining p cause = s.holdPort p cause :=
  if_neg (by rw [h]; decide)

theorem failTraining_down (h : s.linkState p = 6) (cause : Nat) : s.failTraining p cause = s.linkDown p true := if_pos h

end Sys2Proof.Machine
end

section
/-!
SUPPORT. What of the chip's place the training of a port reads (R297, R308, R315), what the module shows (R312), and writes of PRT_CTL.
-/
namespace Sys2Proof.Machine

variable {e : Nat → Prop} {s t u : State} {p cause : Nat}

/-! ### The chip's place -/

theorem bootDead_of_rd (h : t.rd Reg.GLB_BOOT_STATUS = s.rd Reg.GLB_BOOT_STATUS) : t.bootDead = s.bootDead := by
  rw [State.bootDead, fld_of_rd _ h, fld_of_rd _ h]
  rfl

theorem role_of_rd (h : t.rd Reg.PRT_AXIS_MAP = s.rd Reg.PRT_AXIS_MAP) (k : Nat) : t.role k = s.role k := fld_of_rd _ h

theorem portEn_of_rd (h : t.rd (Reg.PRT_CTL p) = s.rd (Reg.PRT_CTL p)) : t.portEn p = s.portEn p := by
  rw [State.portEn, fld_of_rd _ h]
  rfl

theorem minLanes_of_rd (h : t.rd (Reg.PRT_CTL p) = s.rd (Reg.PRT_CTL p)) : t.minLanes p = s.minLanes p := by
  rw [State.minLanes, fld_of_rd _ h]
  rfl

section
variable (h : t.rd Reg.IDM_BOARD0 = s.rd Reg.IDM_BOARD0)
include h

theorem chip_of_rd : t.chip = s.chip := fld_of_rd _ h

theorem dim_of_rd (a : Nat) : t.dim a = s.dim a := by
  rw [State.dim, fld_of_rd _ h, fld_of_rd _ h, fld_of_rd _ h]
  rfl

theorem neighbour_of_rd (n d : Nat) : t.neighbour n d = s.neighbour n d := by
  unfold State.neighbour
  simp only [dim_of_rd h]

end

/-- A port's own registers are neither the board identity nor the axis map. -/
theorem Linked.place (hp : p < 12) (h : Linked e s t) (he : ∀ off, e off → 0x110000 + 0x10000 * p ≤ off ∧ off < 0x110800 + 0x10000 * p) :
    (∀ k, t.role k = s.role k) ∧ (∀ a, t.dim a = s.dim a) ∧ t.chip = s.chip ∧ (∀ n d, t.neighbour n d = s.neighbour n d) ∧
      t.bootDead = s.bootDead := by
  have hout : ∀ off, off < 0x110000 ∨ off = 0x110800 → ¬ e off := fun off hoff hn => by
    have := he off hn
    omega
  have hmap : t.rd Reg.PRT_AXIS_MAP = s.rd Reg.PRT_AXIS_MAP := h.rd (hout _ (.inr rfl)) (by decide)
  have hboard : t.rd Reg.IDM_BOARD0 = s.rd Reg.IDM_BOARD0 := h.rd (hout _ (.inl (by decide))) (by decide)
  have hboot : t.rd Reg.GLB_BOOT_STATUS = s.rd Reg.GLB_BOOT_STATUS := h.rd (hout _ (.inl (by decide))) (by decide)
  exact ⟨role_of_rd hmap, dim_of_rd hboard, chip_of_rd hboard, neighbour_of_rd hboard, bootDead_of_rd hboot⟩

/-! ### The module (R298, R300, R312) -/

/-- What is shown of a module is one word. -/
theorem showModule_wr (s : State) (p : Nat) (m : Cmis) : ∃ w, s.showModule p m = s.wr (Reg.PRT_MODULE p) w := by
  unfold State.showModule
  dsimp only
  split
  · exact ⟨_, rfl⟩
  · exact ⟨_, rfl⟩

theorem linked_showModule (s : State) (p : Nat) (m : Cmis) : Linked (· = Reg.PRT_MODULE p) s (s.showModule p m) := by
  obtain ⟨w, hw⟩ := showModule_wr s p m
  rw [hw]
  exact (near_wr (e := (· = Reg.PRT_MODULE p)) _ _ (.inl rfl)).linked

@[simp] theorem showModule_out (s : State) (p : Nat) (m : Cmis) : (s.showModule p m).out = s.out := by
  obtain ⟨w, hw⟩ := showModule_wr s p m
  rw [hw]
  rfl

@[simp] theorem link_showModule (s : State) (p : Nat) (m : Cmis) (q : Nat) : (s.showModule p m).link q = s.link q := by
  obtain ⟨w, hw⟩ := showModule_wr s p m
  rw [hw]
  rfl

/-- The word of PRT_MODULE, field by field. -/
theorem getField_moduleWord (media len label preset hint : Nat) (hmedia : media < 4) (hlen : len < 256) (hlabel : label < 256)
    (hpreset : preset < 16) (_ : hint < 2) {w : BitVec 64}
    (hw : w = BitVec.ofNat 64 (media + len * 2 ^ 8 + label * 2 ^ 16 + preset * 2 ^ 24 + hint * 2 ^ 28)) :
    getField w Fld.PRT_MODULE_MEDIA = media ∧ getField w Fld.PRT_MODULE_LENGTH = len ∧ getField w Fld.PRT_MODULE_LABEL = label ∧
      getField w Fld.PRT_MODULE_PRESET = preset := by
  subst hw
  simp only [getField, Fld.PRT_MODULE_MEDIA, Fld.PRT_MODULE_LENGTH, Fld.PRT_MODULE_LABEL, Fld.PRT_MODULE_PRESET, BitVec.toNat_ofNat]
  omega

/-- `preset` is what is shown of a module: its preset, or 0 where it has none (R300). -/
def showsPreset (m : Cmis) (preset : Nat) : Prop := presetOf m = none ∧ preset = 0 ∨ ∃ lc, presetOf m = some (preset, lc)

/-- A module of revision 5.0 or later and of a known medium is shown as it is. -/
theorem showModule_fields (s : State) (p : Nat) {m : Cmis} (hread : (m.readable && m.cmis && Nat.ble 5 m.revision) = true)
    (hmedia : m.media ≤ 3) {preset : Nat} (hpreset : showsPreset m preset) (hlt : preset < 16) :
    (s.showModule p m).fld (Reg.PRT_MODULE p) Fld.PRT_MODULE_MEDIA = m.media ∧
      (s.showModule p m).fld (Reg.PRT_MODULE p) Fld.PRT_MODULE_LENGTH = (if m.media = 3 then 255 else min 255 m.length) ∧
      (s.showModule p m).fld (Reg.PRT_MODULE p) Fld.PRT_MODULE_LABEL = m.label.toNat ∧
      (s.showModule p m).fld (Reg.PRT_MODULE p) Fld.PRT_MODULE_PRESET = preset := by
  obtain ⟨w, hshow, hw⟩ : ∃ w, s.showModule p m = s.wr (Reg.PRT_MODULE p) w ∧ w = BitVec.ofNat 64
      (m.media + (if m.media = 3 then 255 else min 255 m.length) * 2 ^ 8 + m.label.toNat * 2 ^ 16 + preset * 2 ^ 24 +
        (s.fld (Reg.PRT_CTL p) Fld.PRT_CTL_USE_HINT == 1 && m.hint).toNat * 2 ^ 28) := by
    refine ⟨_, ?_, rfl⟩
    unfold State.showModule
    rw [if_neg (by rw [hread]; decide), if_pos hmedia]
    rcases hpreset with ⟨hnone, rfl⟩ | ⟨lc, hsome⟩
    · simp only [hnone]
    · simp only [hsome]
  obtain ⟨h1, h2, h3, h4⟩ := getField_moduleWord _ _ _ _ _ (by omega) (by split <;> omega) m.label.isLt hlt (Bool.toNat_lt _) hw
  rw [hshow]
  simp only [fld_def, rd_wr_here]
  exact ⟨h1, h2, h3, h4⟩

/-- A module that has a preset can be read, and its medium is one of three. -/
theorem presetOf_some {m : Cmis} {preset lc : Nat} (h : presetOf m = some (preset, lc)) :
    (m.readable && m.cmis && Nat.ble 5 m.revision) = true ∧ m.media ≤ 3 ∧ preset < 16 ∧ lc < 4 := by
  unfold presetOf at h
  split at h
  · exact absurd h (by simp)
  · next hread =>
    refine ⟨by simpa using hread, ?_⟩
    split at h
    · next hmedia =>
      split at h
      · simp only [Option.some.injEq, Prod.mk.injEq] at h; omega
      · split at h
        · simp only [Option.some.injEq, Prod.mk.injEq] at h; omega
        · exact absurd h (by simp)
    · next hmedia =>
      split at h
      · simp only [Option.some.injEq, Prod.mk.injEq] at h; omega
      · exact absurd h (by simp)
    · next hmedia => simp only [Option.some.injEq, Prod.mk.injEq] at h; omega
    · exact absurd h (by simp)

/-- Every module shows a preset, and it fits its field. -/
theorem exists_showsPreset (m : Cmis) : ∃ preset, preset < 16 ∧ showsPreset m preset := by
  cases h : presetOf m with
  | none => exact ⟨0, by decide, .inl ⟨h, rfl⟩⟩
  | some x =>
    obtain ⟨-, -, hlt, -⟩ := presetOf_some (preset := x.1) (lc := x.2) h
    exact ⟨x.1, hlt, .inr ⟨x.2, h⟩⟩

/-! ### PRT_CTL (R310) -/

/-- Writing PRT_CTL changes neither the link's state nor whether the boot failed. -/
theorem writeCodes_prtCtl (hp : p < 12) {v : BitVec 64} (hu : u = s.writeCodes (Reg.PRT_CTL p) v) :
    u.linkState p = s.linkState p ∧ u.link p = s.link p ∧ u.bootDead = s.bootDead := by
  have h : Near (· = Reg.PRT_CTL p) s u := hu ▸ near_writeCodes s _ v
  have hstatus : u.rd (Reg.PRT_STATUS p) = s.rd (Reg.PRT_STATUS p) := h.regs _ (by simp) (observes_of_notices (notices_prtStatus hp))
  have hboot : u.rd Reg.GLB_BOOT_STATUS = s.rd Reg.GLB_BOOT_STATUS := h.regs _ (fun hn => by have : 0x8 = 0x110000 + 0x10000 * p := hn; omega) (by decide)
  have hlinks := congrArg State.links h.eq
  exact ⟨linkState_of_rd hstatus, link_of_links hlinks p, bootDead_of_rd hboot⟩

section
variable {v : BitVec 64} (hb : s.portsBarred = false) (hu : u = s.writeCodes (Reg.PRT_CTL p) v)
include hb hu

theorem writePrtCtl_enabled (h : u.portEn p = true) : s.writePrtCtl p v =
    if s.portEn p then u else if (u.linkState p = 0 ∨ u.linkState p = 7) ∧ (u.link p).module = true then u.startDetect p else u := by
  have hwrite : s.writeCodes (Reg.PRT_CTL p) (if s.portsBarred then v &&& ~~~1 else v) = u := by
    rw [if_neg (by rw [hb]; exact Bool.false_ne_true), hu]
  unfold State.writePrtCtl
  rw [hwrite]
  exact if_pos h

theorem writePrtCtl_disabled (h : u.portEn p = false) : s.writePrtCtl p v =
    if s.portEn p = true ∧ u.linkState p ≠ 0 ∧ u.linkState p ≠ 7 then u.linkDown p true else u := by
  have hwrite : s.writeCodes (Reg.PRT_CTL p) (if s.portsBarred then v &&& ~~~1 else v) = u := by
    rw [if_neg (by rw [hb]; exact Bool.false_ne_true), hu]
  unfold State.writePrtCtl
  rw [hwrite]
  exact if_neg (by rw [h]; exact Bool.false_ne_true)

end

/-! ### The latency class stays -/

/-- A port that goes DOWN keeps its latency class (R300). -/
theorem fld_lc_linkDown (s : State) (hp : p < 12) (notice : Bool) :
    (s.linkDown p notice).fld (Reg.PRT_STATUS p) Fld.PRT_STATUS_LC = s.fld (Reg.PRT_STATUS p) Fld.PRT_STATUS_LC := by
  have hnotice : (s.downNoticed p notice).rd (Reg.PRT_STATUS p) = s.rd (Reg.PRT_STATUS p) :=
    (linked_downNoticed (fun _ => False) s p notice).rd not_false (observes_of_notices (notices_prtStatus hp))
  have hcount := (rd_cntBy_ne (s := s.downNoticed p notice) (((s.downNoticed p notice).returned p).filter (·.1)).length
    (show Reg.PRT_STATUS p ≠ Reg.PRT_RETURN_CNT p by simp)).trans hnotice
  rw [linkDown_eq]
  generalize (s.downNoticed p notice).cntBy (Reg.PRT_RETURN_CNT p) (((s.downNoticed p notice).returned p).filter (·.1)).length = v at hcount
  have hend : (v.endLink p).rd (Reg.PRT_STATUS p) = v.rd (Reg.PRT_STATUS p) := rfl
  rw [fld_def, rd_status_toLink _ hp, (raised_event _ _ _ _ (by simp)).1, State.portCleared, rd_setFld_here]
  rw [getField_putField_ne _ _ _ _ (by decide) (by decide), getField_putField_ne _ _ _ _ (by decide) (by decide),
    getField_putField_ne _ _ _ _ (by decide) (by decide), State.lanesOff, State.enableLanes, rd_modLink, rd_status_setSpare,
    rd_status_setSpare, rd_status_setRxLanes, rd_status_setTxLanes]
  rw [getField_putField_ne _ _ _ _ (by decide) (by decide), getField_putField_ne _ _ _ _ (by decide) (by decide),
    getField_putField_ne _ _ _ _ (by decide) (by decide), getField_putField_ne _ _ _ _ (by decide) (by decide), hend, hcount, fld_def]

end Sys2Proof.Machine
end

section
/-!
SUPPORT. A port up to EQUALISE (R291, R293, R298 to R300, R306, R310): PORT_ENABLE_WRITE, modules that come and go, DETECT_DONE.
-/
namespace Sys2Proof.Machine

variable {e : Nat → Prop} {s t u : State}

/-! ### PORT_ENABLE_WRITE -/

theorem exec_portEnableWrite (s : State) (p : Fin 12) (v : BitVec 32) :
    exec (.portEnableWrite 0 p v) s = .next (s.writePrtCtl p (v.setWidth 64)) := rfl

section
variable {p : Fin 12} {v : BitVec 32} (hb : s.portsBarred = false) (hu : u = s.writeCodes (Reg.PRT_CTL p) (v.setWidth 64))
include hb hu

theorem portEnableWrite_starts (hwas : s.portEn p = false) (hen : u.portEn p = true) (hst : s.linkState p = 0 ∨ s.linkState p = 7)
    (hmod : (s.link p).module = true) (hboot : s.bootDead = false) : Completes (.portEnableWrite 0 p v) s (fun t =>
      t.linkState p = 1 ∧ t.fld (Reg.PRT_STATUS p) Fld.PRT_STATUS_HOLD = 0 ∧ t.rd (Reg.PRT_CTL p) = u.rd (Reg.PRT_CTL p) ∧
      Near (· = Reg.PRT_STATUS p) u t) := by
  obtain ⟨hls, hlink, hboot'⟩ := writeCodes_prtCtl p.isLt hu
  obtain ⟨hstate, hhold, hnear⟩ := startDetect_runs (s := u) (hboot'.trans hboot) p.isLt
  refine ⟨u.startDetect p, ?_, hstate, hhold, hnear.regs _ (by simp) (observes_of_notices (notices_prtCtl p.isLt)), hnear⟩
  rw [exec_portEnableWrite, writePrtCtl_enabled hb hu hen, if_neg (by rw [hwas]; exact Bool.false_ne_true),
    if_pos ⟨by rwa [hls], by rwa [hlink]⟩]

theorem portEnableWrite_kept (hen : u.portEn p = true)
    (h : s.portEn p = true ∨ (s.link p).module = false ∨ s.linkState p ≠ 0 ∧ s.linkState p ≠ 7) :
    exec (.portEnableWrite 0 p v) s = .next u := by
  obtain ⟨hls, hlink, -⟩ := writeCodes_prtCtl p.isLt hu
  rw [exec_portEnableWrite, writePrtCtl_enabled hb hu hen]
  by_cases hwas : s.portEn p = true
  · rw [if_pos hwas]
  · rw [if_neg hwas, if_neg]
    rw [hls, hlink]
    rintro ⟨hst, hmod⟩
    rcases h with h | h | ⟨h0, h7⟩
    · exact hwas h
    · exact Bool.false_ne_true (h.symm.trans hmod)
    · exact hst.elim h0 h7

theorem portEnableWrite_down (hwas : s.portEn p = true) (hen : u.portEn p = false) (h0 : s.linkState p ≠ 0) (h7 : s.linkState p ≠ 7) :
    Completes (.portEnableWrite 0 p v) s (fun t => wentDown (fun _ => False) p u t) := by
  obtain ⟨hls, -, -⟩ := writeCodes_prtCtl p.isLt hu
  refine ⟨u.linkDown p true, ?_, linkDown_down u p.isLt true⟩
  rw [exec_portEnableWrite, writePrtCtl_disabled hb hu hen, if_pos ⟨hwas, by rwa [hls], by rwa [hls]⟩]

theorem portEnableWrite_idle (hen : u.portEn p = false) (h : s.portEn p = false ∨ s.linkState p = 0 ∨ s.linkState p = 7) :
    exec (.portEnableWrite 0 p v) s = .next u := by
  obtain ⟨hls, -, -⟩ := writeCodes_prtCtl p.isLt hu
  rw [exec_portEnableWrite, writePrtCtl_disabled hb hu hen, if_neg]
  rw [hls]
  rintro ⟨hwas, h0, h7⟩
  rcases h with h | h | h
  · exact Bool.false_ne_true (h.symm.trans hwas)
  · exact h0 h
  · exact h7 h

end

/-! ### Modules that come and go -/

theorem modulePresence_some (s : State) (p : Nat) (m : Cmis) : s.modulePresence p (some m) =
    if ((s.modLink p (fun l => { l with module := true })).showModule p m).portEn p ∧ (s.linkState p = 0 ∨ s.linkState p = 7) then
      ((s.modLink p (fun l => { l with module := true })).showModule p m).startDetect p
    else (s.modLink p (fun l => { l with module := true })).showModule p m := rfl

/-- A module that appears is read, and DETECT starts where the port may train. -/
theorem modulePresenceChange_some {p : Fin 12} {m : Cmis} {media length : Nat} (hmedia : media ≤ 3) (hread : m.readable = true)
    (hcmis : m.cmis = true) (hrev : 5 ≤ m.revision) (hm : m.media = media)
    (hlen : length = (if media = 3 then 255 else min 255 m.length)) : Completes (.modulePresenceChange p (some m)) s (fun t =>
      (t.link p) = { s.link p with module := true } ∧ t.fld (Reg.PRT_MODULE p) Fld.PRT_MODULE_MEDIA = media ∧
      t.fld (Reg.PRT_MODULE p) Fld.PRT_MODULE_LENGTH = length ∧ t.fld (Reg.PRT_MODULE p) Fld.PRT_MODULE_LABEL = m.label.toNat ∧
      (s.portEn p = true → (s.linkState p = 0 ∨ s.linkState p = 7) → s.bootDead = false → t.linkState p = 1 ∧
        Near (fun off => off = Reg.PRT_MODULE p ∨ off = Reg.PRT_STATUS p) { s with links := t.links } t) ∧
      (s.portEn p = false ∨ s.linkState p ≠ 0 ∧ s.linkState p ≠ 7 ∨ s.bootDead = true →
        t = { s with links := t.links, regs := t.regs } ∧ ∀ off, off ≠ Reg.PRT_MODULE p → t.rd off = s.rd off)) := by
  obtain ⟨preset, hpreset, hshows⟩ := exists_showsPreset m
  have hok : (m.readable && m.cmis && Nat.ble 5 m.revision) = true := by simp [hread, hcmis, hrev]
  obtain ⟨hfMedia, hfLen, hfLabel, -⟩ := showModule_fields (s.modLink p (fun l => { l with module := true })) p hok
    (hm.trans_le hmedia) hshows hpreset
  have hlink := (link_showModule (s.modLink p (fun l => { l with module := true })) p m p).trans
    (link_modLink_here s p (fun l => { l with module := true }))
  have hl : Linked (· = Reg.PRT_MODULE p) s ((s.modLink p (fun l => { l with module := true })).showModule p m) :=
    (linked_modLink _ s p _).trans (linked_showModule _ p m)
  obtain ⟨w, hw⟩ := showModule_wr (s.modLink p (fun l => { l with module := true })) p m
  have hexec : exec (.modulePresenceChange p (some m)) s = .next _ := congrArg Host.Outcome.next (modulePresence_some s p m)
  rw [hm] at hfMedia hfLen
  rw [← hlen] at hfLen
  generalize hx : (s.modLink p (fun l => { l with module := true })).showModule p m = x at *
  have hout : x.out = s.out := by rw [hw]; rfl
  have hen : x.portEn p = s.portEn p := portEn_of_rd (hl.rd (by simp) (observes_of_notices (notices_prtCtl p.isLt)))
  obtain ⟨-, -, -, -, hboot⟩ := hl.place p.isLt (by rintro off rfl; simp only [Reg.PRT_MODULE]; omega)
  rw [hen] at hexec
  by_cases hstart : s.portEn p = true ∧ (s.linkState p = 0 ∨ s.linkState p = 7)
  · rw [if_pos hstart] at hexec
    obtain ⟨hen, hst⟩ := hstart
    by_cases hdead : s.bootDead = true
    · have hx' : x.startDetect p = x := if_pos (hboot.trans hdead)
      rw [hx'] at hexec
      refine ⟨x, hexec, hlink, hfMedia, hfLen, hfLabel, fun _ _ hb => ?_, fun _ => ⟨by rw [hw]; rfl, fun off hoff => ?_⟩⟩
      · exact absurd (hb.symm.trans hdead) Bool.false_ne_true
      · rw [hw]; exact rd_wr_ne _ hoff
    · have hdead' : s.bootDead = false := Bool.eq_false_iff.mpr hdead
      obtain ⟨hstate, -, hnear⟩ := startDetect_runs (s := x) (hboot.trans hdead') p.isLt
      have hlinks := congrArg State.links hnear.eq
      have hmod : (x.startDetect p).rd (Reg.PRT_MODULE p) = x.rd (Reg.PRT_MODULE p) :=
        hnear.regs _ (by simp) (observes_of_notices (notices_prtModule p.isLt))
      refine ⟨x.startDetect p, hexec, (link_of_links hlinks p).trans hlink, (fld_of_rd _ hmod).trans hfMedia,
        (fld_of_rd _ hmod).trans hfLen, (fld_of_rd _ hmod).trans hfLabel, fun _ _ _ => ⟨hstate, ?_⟩, fun h => ?_⟩
      · have hall := (hl.mono (e' := fun off => off = Reg.PRT_MODULE p ∨ off = Reg.PRT_STATUS p) fun _ => .inl).trans
          (Near.linked (hnear.mono fun _ => .inr))
        exact hall.nearLinks ((congrArg State.out hnear.eq).trans hout)
      · rcases h with h | ⟨h0, h7⟩ | h
        · exact absurd (h.symm.trans hen) Bool.false_ne_true
        · exact absurd hst (by simp [h0, h7])
        · exact absurd h hdead
  · rw [if_neg hstart] at hexec
    refine ⟨x, hexec, hlink, hfMedia, hfLen, hfLabel, fun h1 h2 => absurd ⟨h1, h2⟩ hstart, fun _ => ⟨by rw [hw]; rfl, fun off hoff => ?_⟩⟩
    rw [hw]
    exact rd_wr_ne _ hoff

/-- The state of a port whose module has gone, before its link ends: PRT_MODULE is 0, the latency class 3. -/
def State.moduleGone (s : State) (p : Nat) : State :=
  ((s.modLink p (fun l => { l with module := false })).wr (Reg.PRT_MODULE p) 0).setFld (Reg.PRT_STATUS p) Fld.PRT_STATUS_LC 3

theorem modulePresence_none (s : State) (p : Nat) :
    s.modulePresence p none = if s.linkState p = 0 then s.moduleGone p else (s.moduleGone p).linkDown p false := rfl

section
variable (s : State) (p : Nat)

theorem rd_module_moduleGone : (s.moduleGone p).rd (Reg.PRT_MODULE p) = 0 :=
  (rd_setFld_ne _ _ (by simp)).trans (rd_wr_here _ _ _)

theorem fld_lc_moduleGone : (s.moduleGone p).fld (Reg.PRT_STATUS p) Fld.PRT_STATUS_LC = 3 := fld_setFld_here _ _ _ _ (by decide)

theorem linkState_moduleGone : (s.moduleGone p).linkState p = s.linkState p := by
  refine (fld_setFld_beside _ _ _ _ _ (by decide) (by decide)).trans (fld_of_rd _ ?_)
  exact (rd_wr_ne _ (by simp)).trans (rd_modLink _ _ _ _)

theorem linked_moduleGone : Linked (fun off => off = Reg.PRT_MODULE p ∨ off = Reg.PRT_STATUS p)
    (s.modLink p (fun l => { l with module := false })) (s.moduleGone p) :=
  (near_wr (e := fun off => off = Reg.PRT_MODULE p ∨ off = Reg.PRT_STATUS p) _ _ (.inl (.inl rfl))).linked.setFld _ _ (.inr rfl)

theorem link_moduleGone : (s.moduleGone p).link p = { s.link p with module := false } :=
  link_modLink_here s p (fun l => { l with module := false })

end

theorem modulePresenceChange_none_idle {p : Fin 12} (h : s.linkState p = 0) : Completes (.modulePresenceChange p none) s (fun t =>
      (t.link p).module = false ∧ t.linkState p = 0 ∧ t.rd (Reg.PRT_MODULE p) = 0 ∧ t.fld (Reg.PRT_STATUS p) Fld.PRT_STATUS_LC = 3 ∧
      Near (fun off => off = Reg.PRT_MODULE p ∨ off = Reg.PRT_STATUS p) { s with links := t.links } t) := by
  refine ⟨s.moduleGone p, congrArg Host.Outcome.next ((modulePresence_none s p).trans (if_pos h)), by rw [link_moduleGone],
    (linkState_moduleGone s p).trans h, rd_module_moduleGone s p, fld_lc_moduleGone s p, ?_⟩
  exact ((linked_modLink _ s p _).trans (linked_moduleGone s p)).nearLinks rfl

theorem modulePresenceChange_none_down {p : Fin 12} (h : s.linkState p ≠ 0) : Completes (.modulePresenceChange p none) s (fun t =>
      t.rd (Reg.PRT_MODULE p) = 0 ∧ t.fld (Reg.PRT_STATUS p) Fld.PRT_STATUS_LC = 3 ∧
      wentDown (· = Reg.PRT_MODULE p) p (s.modLink p (fun l => { l with module := false })) t) := by
  have hdown := linkDown_down (s.moduleGone p) p.isLt false
  have hframe : Changed _ (s.moduleGone p) ((s.moduleGone p).linkDown p false) := (linkDown_frame (s.moduleGone p) p.isLt false)
  refine ⟨(s.moduleGone p).linkDown p false, congrArg Host.Outcome.next ((modulePresence_none s p).trans (if_neg h)), ?_,
    (fld_lc_linkDown _ p.isLt false).trans (fld_lc_moduleGone s p), ?_⟩
  · exact (hframe.rd (by simp) (notices_prtModule p.isLt)).trans (rd_module_moduleGone s p)
  · refine hdown.of_linked p.isLt ((linked_moduleGone s p).mono ?_) ⟨[], (List.append_nil _).symm⟩ rfl rfl rfl (by simp)
    rintro off (h | h)
    · exact .inl h
    · exact .inr (.inr h)

end Sys2Proof.Machine
end

section
/-!
SUPPORT. DETECT_DONE, EQUALISE_DONE and ALIGN_DONE (R282, R286, R291, R293, R299, R300): the port goes on, or is held with its cause.
-/
namespace Sys2Proof.Machine

variable {e : Nat → Prop} {s t u : State}

/-! ### DETECT_DONE -/

/-- The module's latency class is shown, and the lanes that are not retired are enabled (R298, R300). -/
def State.classed (s : State) (p lc : Nat) : State := (s.setFld (Reg.PRT_STATUS p) Fld.PRT_STATUS_LC lc).enableLanes p true

section
variable (s : State) (p lc : Nat)

theorem rd_status_classed : (s.classed p lc).rd (Reg.PRT_STATUS p) = putField (s.rd (Reg.PRT_STATUS p)) Fld.PRT_STATUS_LC lc := by
  rw [State.classed, State.enableLanes, rd_modLink, rd_setFld_here]

theorem rd_module_classed : (s.classed p lc).rd (Reg.PRT_MODULE p) = s.rd (Reg.PRT_MODULE p) := by
  rw [State.classed, State.enableLanes, rd_modLink, rd_setFld_ne _ _ (by simp)]

theorem link_classed : (s.classed p lc).link p = { s.link p with laneEn := 2047 - laneMask (s.txRetired p) } := by
  rw [State.classed, link_enableLanes, link_setFld, txRetired_of_rd (rd_setFld_ne _ _ (status_ne_lanes p).symm)]
  rfl

theorem classed_out : (s.classed p lc).out = s.out := rfl

theorem linked_classed : Linked (· = Reg.PRT_STATUS p) s (s.classed p lc) :=
  ((Linked.refl (· = Reg.PRT_STATUS p) s).setFld _ _ rfl).trans (linked_enableLanes _ _ p true)

end

section
variable {p : Fin 12} {m : Cmis}

/-- What DETECT reads of the chip's place is as it was before the module is shown. -/
theorem showModule_place (s : State) (p : Fin 12) (m : Cmis) : (∀ k, (s.showModule p m).role k = s.role k) ∧
    (∀ a, (s.showModule p m).dim a = s.dim a) ∧
    (s.showModule p m).fld (Reg.PRT_CTL p) Fld.PRT_CTL_REQ_LABEL = s.fld (Reg.PRT_CTL p) Fld.PRT_CTL_REQ_LABEL := by
  have hl := linked_showModule s p m
  obtain ⟨hrole, hdim, -⟩ := hl.place p.isLt (by rintro off rfl; simp only [Reg.PRT_MODULE]; omega)
  exact ⟨hrole, hdim, hl.fld _ (by simp) (observes_of_notices (notices_prtCtl p.isLt))⟩

/-- DETECT reads the label as naming another role of the port, or as missing where one is required (R299). -/
def labelRefused (s : State) (p : Nat) (m : Cmis) : Prop :=
  m.label.toNat / 16 = 10 ∧ m.label.toNat ≠ 0xA0 + p % 2 * 8 + s.role (p / 2) % 2 * 4 + s.role (p / 2) / 2 ∨
    m.label.toNat / 16 ≠ 10 ∧ s.fld (Reg.PRT_CTL p) Fld.PRT_CTL_REQ_LABEL = 1

theorem labelRefused_showModule : labelRefused (s.showModule p m) p m ↔ labelRefused s p m := by
  obtain ⟨hrole, -, hreq⟩ := showModule_place s p m
  rw [labelRefused, labelRefused, hrole, hreq]

/-- The check of the label as DETECT_DONE writes it. -/
theorem labelRefused_iff (s : State) (p : Nat) (m : Cmis) :
    ((m.label.toNat / 16 == 0xA && m.label.toNat != s.labelOf p)
      || (!(m.label.toNat / 16 == 0xA) && s.fld (Reg.PRT_CTL p) Fld.PRT_CTL_REQ_LABEL == 1)) = true ↔ labelRefused s p m := by
  simp [labelRefused, State.labelOf]

section
variable (h : s.linkState p = 1)
include h

theorem detectDone_axis (hdim : s.dim (s.role (p.val / 2) / 2) ≤ 1) : s.detectDone p m = (s.showModule p m).holdPort p 7 := by
  obtain ⟨hrole, hd, -⟩ := showModule_place s p m
  unfold State.detectDone
  rw [if_neg (not_not.mpr h), if_pos (by rw [hd, hrole]; exact hdim)]

variable (hdim : 1 < s.dim (s.role (p.val / 2) / 2))
include hdim

theorem detectDone_module (hnone : presetOf m = none) : s.detectDone p m = (s.showModule p m).holdPort p 1 := by
  obtain ⟨hrole, hd, -⟩ := showModule_place s p m
  unfold State.detectDone
  rw [if_neg (not_not.mpr h), if_neg (by rw [hd, hrole]; omega)]
  simp only [hnone]

theorem detectDone_label (hsome : presetOf m ≠ none) (hlabel : labelRefused s p m) :
    s.detectDone p m = (s.showModule p m).holdPort p 2 := by
  obtain ⟨hrole, hd, -⟩ := showModule_place s p m
  obtain ⟨x, hx⟩ := Option.ne_none_iff_exists'.mp hsome
  have hrefused := (labelRefused_iff _ _ _).mpr (labelRefused_showModule.mpr hlabel)
  unfold State.detectDone
  rw [if_neg (not_not.mpr h), if_neg (by rw [hd, hrole]; omega)]
  simp only [hx]
  rw [if_pos hrefused]

theorem detectDone_passes {preset lc : Nat} (hsome : presetOf m = some (preset, lc)) (hlabel : ¬ labelRefused s p m) :
    s.detectDone p m = ((s.showModule p m).classed p lc).toLink p 2 := by
  obtain ⟨hrole, hd, -⟩ := showModule_place s p m
  have hrefused := fun hr => hlabel (labelRefused_showModule.mp ((labelRefused_iff _ _ _).mp hr))
  unfold State.detectDone
  rw [if_neg (not_not.mpr h), if_neg (by rw [hd, hrole]; omega)]
  simp only [hsome]
  rw [if_neg hrefused, State.classed]

end

/-- A port held in DETECT after its module is shown. -/
theorem heldWith_showModule (s : State) (p : Fin 12) (m : Cmis) {cause : Nat} (hcause : cause < 16) :
    heldWith (· = Reg.PRT_MODULE p) p cause s ((s.showModule p m).holdPort p cause) :=
  (holdPort_holds (s.showModule p m) p.isLt hcause).of_linked p.isLt ((linked_showModule s p m).mono fun _ => .inl)
    ⟨[], by simp⟩ (by rw [link_showModule]) (by rw [link_showModule]) (by simp)

theorem detectDone_held (h : s.linkState p = 1) :
    (s.dim (s.role (p.val / 2) / 2) ≤ 1 → Completes (.detectDone p m) s (fun t => heldWith (· = Reg.PRT_MODULE p) p 7 s t)) ∧
    (1 < s.dim (s.role (p.val / 2) / 2) → presetOf m = none →
      Completes (.detectDone p m) s (fun t => heldWith (· = Reg.PRT_MODULE p) p 1 s t)) ∧
    (1 < s.dim (s.role (p.val / 2) / 2) → presetOf m ≠ none → labelRefused s p m →
      Completes (.detectDone p m) s (fun t => heldWith (· = Reg.PRT_MODULE p) p 2 s t)) := by
  refine ⟨fun hdim => ⟨_, congrArg Host.Outcome.next (detectDone_axis h hdim), heldWith_showModule s p m (by decide)⟩,
    fun hdim hnone => ⟨_, congrArg Host.Outcome.next (detectDone_module h hdim hnone), heldWith_showModule s p m (by decide)⟩,
    fun hdim hsome hlabel => ⟨_, congrArg Host.Outcome.next (detectDone_label h hdim hsome hlabel), heldWith_showModule s p m (by decide)⟩⟩

theorem detectDone_equalise (h : s.linkState p = 1) (hdim : 1 < s.dim (s.role (p.val / 2) / 2)) {preset lc : Nat}
    (hsome : presetOf m = some (preset, lc)) (hlabel : ¬ labelRefused s p m) : Completes (.detectDone p m) s (fun t =>
      t.linkState p = 2 ∧ t.fld (Reg.PRT_STATUS p) Fld.PRT_STATUS_LC = lc ∧
      t.fld (Reg.PRT_MODULE p) Fld.PRT_MODULE_MEDIA = m.media ∧ t.fld (Reg.PRT_MODULE p) Fld.PRT_MODULE_PRESET = preset ∧
      t.link p = { s.link p with laneEn := 2047 - laneMask (s.txRetired p) } ∧
      Near (fun off => off = Reg.PRT_MODULE p ∨ off = Reg.PRT_STATUS p) { s with links := t.links } t) := by
  obtain ⟨hread, hmedia, hpreset, hlc⟩ := presetOf_some hsome
  obtain ⟨hfMedia, -, -, hfPreset⟩ := showModule_fields s p hread hmedia (.inr ⟨lc, hsome⟩) hpreset
  have hl := linked_showModule s p m
  refine ⟨_, congrArg Host.Outcome.next (detectDone_passes h hdim hsome hlabel), ?_⟩
  have hout := showModule_out s p m
  have hlink := link_showModule s p m p
  generalize s.showModule p m = x at *
  have hretired : x.txRetired p = s.txRetired p :=
    txRetired_of_rd (hl.rd (by simp) (observes_of_notices (notices_prtLanes p.isLt)))
  have hy : Linked (fun off => off = Reg.PRT_MODULE p ∨ off = Reg.PRT_STATUS p) s (x.classed p lc) :=
    (hl.mono fun _ => .inl).trans ((linked_classed x p lc).mono fun _ => .inr)
  have hylink := link_classed x p lc
  have hyword := rd_status_classed x p lc
  have hymod := rd_module_classed x p lc
  have hyout := (classed_out x p lc).trans hout
  rw [hretired, hlink] at hylink
  generalize x.classed p lc = y at *
  have hnear := near_toLink y p.isLt (st := 2) (by decide) (by decide)
  have hmod : (y.toLink p 2).rd (Reg.PRT_MODULE p) = x.rd (Reg.PRT_MODULE p) :=
    (rd_toLink_ne _ p.isLt 2 (by simp) (notices_prtModule p.isLt)).trans hymod
  refine ⟨linkState_toLink _ p.isLt (by decide), ?_, (fld_of_rd _ hmod).trans hfMedia, (fld_of_rd _ hmod).trans hfPreset,
    (link_toLink _ p.isLt 2 p).trans hylink, ?_⟩
  · rw [fld_def, rd_status_toLink _ p.isLt, getField_putField_ne _ _ _ _ (by decide) (by decide), hyword,
      getField_putField _ _ _ (by decide)]
    exact Nat.mod_eq_of_lt hlc
  · exact (hy.trans (hnear.mono fun _ => .inr).linked).nearLinks ((congrArg State.out hnear.eq).trans hyout)

end

/-! ### Both directions' lanes at once -/

/-- The receive and the transmit lanes that a port goes on with. -/
def State.setLanes (s : State) (p : Nat) (r x : List Nat) : State := (s.setRxLanes p r).setTxLanes p x

section
variable (s : State) (p : Nat) (r x : List Nat)

theorem link_setLanes : (s.setLanes p r x).link p = { s.link p with rxPos := r, txPos := x } := by
  rw [State.setLanes, link_setTxLanes, link_setRxLanes]

theorem rd_lanes_setLanes : (s.setLanes p r x).rd (Reg.PRT_LANES p) =
    putField (putField (s.rd (Reg.PRT_LANES p)) Fld.PRT_LANES_RX_ACTIVE (laneMask r)) Fld.PRT_LANES_TX_ACTIVE (laneMask x) := by
  rw [State.setLanes, rd_lanes_setTxLanes, rd_lanes_setRxLanes]

theorem rd_status_setLanes : (s.setLanes p r x).rd (Reg.PRT_STATUS p) =
    putField (putField (s.rd (Reg.PRT_STATUS p)) Fld.PRT_STATUS_RX_LANES (laneBits (laneMask r)).length) Fld.PRT_STATUS_TX_LANES
      (laneBits (laneMask x)).length := by
  rw [State.setLanes, rd_status_setTxLanes, rd_status_setRxLanes]

theorem linked_setLanes : Linked (laneRegs p) s (s.setLanes p r x) := (linked_setRxLanes s p r).trans (linked_setTxLanes _ p x)

theorem setSpare_out (s : State) (p : Nat) (tx v : Bool) : (s.setSpare p tx v).out = s.out := rfl

theorem setLanes_out : (s.setLanes p r x).out = s.out := rfl

theorem rxLanes_setLanes : (s.setLanes p r x).rxLanes p = laneBits (laneMask r) := by
  rw [rxLanes_def, rd_lanes_setLanes, getField_putField_ne _ _ _ _ (by decide) (by decide), getField_putField _ _ _ (by decide)]
  exact congrArg laneBits (laneMask_mod r)

theorem txLanes_setLanes : (s.setLanes p r x).txLanes p = laneBits (laneMask x) := by
  rw [txLanes_def, rd_lanes_setLanes, getField_putField _ _ _ (by decide)]
  exact congrArg laneBits (laneMask_mod x)

theorem txRetired_setLanes : (s.setLanes p r x).txRetired p = s.txRetired p := by
  rw [txRetired_def, rd_lanes_setLanes, getField_putField_ne _ _ _ _ (by decide) (by decide),
    getField_putField_ne _ _ _ _ (by decide) (by decide)]
  rfl

theorem linkState_setLanes : (s.setLanes p r x).linkState p = s.linkState p := by
  rw [linkState_def, rd_status_setLanes, getField_putField_ne _ _ _ _ (by decide) (by decide),
    getField_putField_ne _ _ _ _ (by decide) (by decide)]
  rfl

end

/-! ### EQUALISE_DONE -/

/-- The lanes chosen are the first ten. -/
theorem chosenLanes_eq (l : List Nat) : chosenLanes l = l.take 10 := by
  unfold chosenLanes
  split
  · rfl
  · exact (List.take_of_length_le (by omega)).symm

theorem spareBit_setSpare_other (s : State) (p : Nat) (v : Bool) : (s.setSpare p true v).spareBit p false = s.spareBit p false := by
  rw [spareBit_def, rd_status_setSpare]
  exact congrArg (· == 1) (getField_putField_ne _ Fld.PRT_STATUS_TX_SPARE Fld.PRT_STATUS_RX_SPARE _ (by decide) (by decide))

section
variable {p : Fin 12} {rx tx : BitVec 11} {r x : List Nat} (h : s.linkState p = 2)
  (hr : r = (laneBits rx.toNat).filter (fun i => !(s.rxRetired p).contains i))
  (hx : x = (laneBits tx.toNat).filter (fun i => !(s.txRetired p).contains i))
include h hr hx

theorem equaliseDone_aligns (hrm : s.minLanes p ≤ r.length) (hxm : s.minLanes p ≤ x.length) :
    Completes (.equaliseDone p rx tx) s (fun t => t.linkState p = 3 ∧
      t.rxLanes p = r.take 10 ∧ t.txLanes p = x.take 10 ∧ (t.link p).rxPos = r.take 10 ∧ (t.link p).txPos = x.take 10 ∧
      t.spareBit p false = (r.length == 11) ∧ t.spareBit p true = (x.length == 11) ∧
      t.out = s.out ++ ((List.range 11).filter (fun i => !(s.txRetired p).contains i)).map (fun i => .link p (.lane (s.link p).head i)) ∧
      Near (fun off => off = Reg.PRT_LANES p ∨ off = Reg.PRT_STATUS p) { s with links := t.links, out := t.out } t) := by
  have hsub : ∀ {l : List Nat} {n : Nat} {f : Nat → Bool}, l = (laneBits n).filter f → laneBits (laneMask (l.take 10)) = l.take 10 := by
    intro l n f hl
    exact laneBits_of_sublist ((List.take_sublist 10 l).trans (hl ▸ List.filter_sublist.trans (laneBits_sublist n)))
  obtain ⟨y, hy⟩ : ∃ y, y = ((s.setLanes p (r.take 10) (x.take 10)).setSpare p false (r.length == 11)).setSpare p true (x.length == 11) :=
    ⟨_, rfl⟩
  have hexec : exec (.equaliseDone p rx tx) s = .next ((y.toLink p 3).sendLaneIds p) := by
    refine congrArg Host.Outcome.next ?_
    unfold State.equaliseDone
    rw [if_neg (not_not.mpr h), ← hr, ← hx, if_neg (by omega), chosenLanes_eq, chosenLanes_eq, hy]
    rfl
  have hlinked : Linked (laneRegs p) s y := hy ▸ ((linked_setLanes s p _ _).trans (linked_setSpare _ p _ _)).trans (linked_setSpare _ p _ _)
  have hlanes : y.rd (Reg.PRT_LANES p) = (s.setLanes p (r.take 10) (x.take 10)).rd (Reg.PRT_LANES p) := by
    rw [hy, rd_lanes_setSpare, rd_lanes_setSpare]
  have hlink : y.link p = { s.link p with rxPos := r.take 10, txPos := x.take 10 } := by
    rw [hy, link_setSpare, link_setSpare, link_setLanes]
  have hsr : y.spareBit p false = (r.length == 11) := by rw [hy, spareBit_setSpare_other, spareBit_setSpare]
  have hsx : y.spareBit p true = (x.length == 11) := by rw [hy, spareBit_setSpare]
  have hout : y.out = s.out := by rw [hy, setSpare_out, setSpare_out, setLanes_out]
  have hnear := near_toLink y p.isLt (st := 3) (by decide) (by decide)
  have hword := rd_status_toLink y p.isLt 3
  have hlanes3 := (rd_toLink_ne y p.isLt 3 (status_ne_lanes p).symm (notices_prtLanes p.isLt)).trans hlanes
  have hout3 := (congrArg State.out hnear.eq).trans hout
  have hlink3 := (link_toLink y p.isLt 3 p).trans hlink
  have hspare : ∀ tx, (y.toLink p 3).spareBit p tx = y.spareBit p tx := by
    intro tx
    rw [spareBit_def, hword, getField_putField_ne _ _ _ _ (by decide) (by cases tx <;> decide)]
    rfl
  have hretired : (y.toLink p 3).txRetired p = s.txRetired p := (txRetired_of_rd hlanes3).trans (txRetired_setLanes s p _ _)
  refine ⟨_, hexec, ?_⟩
  rw [sendLaneIds_eq]
  refine ⟨linkState_toLink y p.isLt (by decide), (rxLanes_of_rd hlanes3).trans ((rxLanes_setLanes s p _ _).trans (hsub hr)),
    (txLanes_of_rd hlanes3).trans ((txLanes_setLanes s p _ _).trans (hsub hx)), (congrArg Link.rxPos hlink3), (congrArg Link.txPos hlink3),
    (hspare false).trans hsr, (hspare true).trans hsx, ?_, ?_⟩
  · show (y.toLink p 3).out ++ _ = _
    rw [hout3, hretired, hlink3]
    rfl
  · have hall : Linked (fun off => off = Reg.PRT_LANES p ∨ off = Reg.PRT_STATUS p) s (y.toLink p 3) :=
      hlinked.trans (hnear.mono fun _ => .inr).linked
    exact hall.trans ⟨fun _ _ _ => rfl, rfl⟩

theorem equaliseDone_held (hm : r.length < s.minLanes p ∨ x.length < s.minLanes p) :
    Completes (.equaliseDone p rx tx) s (fun t => heldWith (fun _ => False) p 3 s t) := by
  refine ⟨s.holdPort p 3, congrArg Host.Outcome.next ?_, holdPort_holds s p.isLt (by decide)⟩
  unfold State.equaliseDone
  rw [if_neg (not_not.mpr h), ← hr, ← hx, if_pos hm]

end

end Sys2Proof.Machine
end

section
/-!
SUPPORT. ALIGN_DONE and NEGOTIATE (R282, R286, R291, R295 to R297, R301, R305).
-/
namespace Sys2Proof.Machine

variable {e : Nat → Prop} {s t u v : State} {p : Fin 12}

/-! ### TRAIN records -/

@[simp] theorem rd_say (s : State) (m : Msg) (off : Nat) : (s.say m).rd off = s.rd off := rfl

theorem sendTrain_running (h : s.stopped = false) (q type : Nat) (stamp : BitVec 64) {f : LinkFlit}
    (hf : f = .train (s.link q).head { type := type, caps := s.ownCaps q, stamp := stamp }) :
    s.sendTrain q type stamp = (s.modLink q (fun l => l.push f)).say (.link q f) := by
  rw [hf]
  exact sendFlit_running h q _

/-- A CAPS record says where the chip stands and which lanes it sends on (R295). -/
theorem ownCaps_congr {q : Nat} (hrole : ∀ k, t.role k = s.role k) (hdim : ∀ a, t.dim a = s.dim a) (hchip : t.chip = s.chip)
    (hlanes : t.txLanes q = s.txLanes q) : t.ownCaps q = s.ownCaps q := by
  unfold State.ownCaps
  rw [hrole, hdim, hdim, hdim, hchip, hlanes]

/-! ### ALIGN_DONE -/

/-- The transmit spare that alignment has used up or lost; a retrain retires the lanes that the peer lost (R282, R305). -/
def State.txSpareSpent (s : State) (p : Nat) (x : List Nat) : State :=
  let lost := (s.link p).txPos.filter (fun i => !x.contains i)
  if lost ≠ [] then (if s.linkState p = 6 then s.retireTx p lost else s).setSpare p true false else s

/-- The same for both directions. -/
def State.spareSpent (s : State) (p : Nat) (r x : List Nat) : State :=
  if ((s.txSpareSpent p x).link p).rxPos.any (fun i => !r.contains i) then (s.txSpareSpent p x).setSpare p false false
  else s.txSpareSpent p x

section
variable (s : State) (p : Nat)

theorem linkState_setSpare (tx w : Bool) : (s.setSpare p tx w).linkState p = s.linkState p := by
  rw [linkState_def, rd_status_setSpare, getField_putField_ne _ _ _ _ (spareField_fits tx) (by cases tx <;> decide)]
  rfl

/-- A port retires lanes in PRT_LANES alone. -/
theorem linked_retireTx (l : List Nat) : Linked (laneRegs p) s (s.retireTx p l) ∧ (s.retireTx p l).links = s.links ∧
    (s.retireTx p l).out = s.out ∧ (s.retireTx p l).linkState p = s.linkState p :=
  ⟨(Linked.refl (laneRegs p) s).setFld _ _ (.inl rfl), rfl, rfl, linkState_of_rd (rd_setFld_ne _ _ (status_ne_lanes p))⟩

theorem linked_spareSpent (r x : List Nat) : Linked (laneRegs p) s (s.spareSpent p r x) ∧ (s.spareSpent p r x).links = s.links ∧
    (s.spareSpent p r x).out = s.out ∧ (s.spareSpent p r x).linkState p = s.linkState p := by
  have hspare : ∀ (t : State) (tx : Bool), (Linked (laneRegs p) s t ∧ t.links = s.links ∧ t.out = s.out ∧ t.linkState p = s.linkState p) →
      Linked (laneRegs p) s (t.setSpare p tx false) ∧ (t.setSpare p tx false).links = s.links ∧ (t.setSpare p tx false).out = s.out ∧
        (t.setSpare p tx false).linkState p = s.linkState p := fun t tx ⟨hl, hlinks, hout, hst⟩ =>
    ⟨hl.trans (linked_setSpare t p tx false), hlinks, hout, (linkState_setSpare t p tx false).trans hst⟩
  have hself : Linked (laneRegs p) s s ∧ s.links = s.links ∧ s.out = s.out ∧ s.linkState p = s.linkState p :=
    ⟨Linked.refl _ s, rfl, rfl, rfl⟩
  have htx : Linked (laneRegs p) s (s.txSpareSpent p x) ∧ (s.txSpareSpent p x).links = s.links ∧ (s.txSpareSpent p x).out = s.out ∧
      (s.txSpareSpent p x).linkState p = s.linkState p := by
    unfold State.txSpareSpent
    dsimp only
    split
    · refine hspare _ true ?_
      split
      · exact linked_retireTx s p _
      · exact hself
    · exact hself
  unfold State.spareSpent
  split
  · exact hspare _ false htx
  · exact htx

end

/-- The stream of codewords starts anew after alignment (R286). -/
def Link.realigned (l : Link) : Link := { l with aligned := true, group := [], txSym := 0, rxSym := 0, winWords := 0, winCorr := [] }

/-- A port whose lanes have aligned, before it enters NEGOTIATE. -/
def State.realigned (s : State) (p : Nat) (r x : List Nat) : State := ((s.spareSpent p r x).setLanes p r x).modLink p Link.realigned

section
variable (s : State) (p : Nat) (r x : List Nat)

theorem link_realigned : (s.realigned p r x).link p = { s.link p with
    rxPos := r, txPos := x, aligned := true, group := [], txSym := 0, rxSym := 0, winWords := 0, winCorr := [] } := by
  obtain ⟨-, hlinks, -, -⟩ := linked_spareSpent s p r x
  rw [State.realigned, link_modLink_here, link_setLanes, link_of_links hlinks]
  rfl

theorem lanes_realigned : (s.realigned p r x).rxLanes p = laneBits (laneMask r) ∧ (s.realigned p r x).txLanes p = laneBits (laneMask x) :=
  ⟨(rxLanes_of_rd (rd_modLink _ p _ _)).trans (rxLanes_setLanes _ p r x), (txLanes_of_rd (rd_modLink _ p _ _)).trans (txLanes_setLanes _ p r x)⟩

theorem linkState_realigned : (s.realigned p r x).linkState p = s.linkState p := by
  obtain ⟨-, -, -, hst⟩ := linked_spareSpent s p r x
  exact (linkState_of_rd (rd_modLink _ p _ _)).trans ((linkState_setLanes _ p r x).trans hst)

theorem linked_realigned : Linked (laneRegs p) s (s.realigned p r x) := by
  obtain ⟨hl, -, -, -⟩ := linked_spareSpent s p r x
  exact (hl.trans (linked_setLanes _ p r x)).modLink p _

theorem realigned_out : (s.realigned p r x).out = s.out := by
  obtain ⟨-, -, hout, -⟩ := linked_spareSpent s p r x
  rw [State.realigned, modLink_out, setLanes_out, hout]

end

/-- The registers of a port's lanes are its own. -/
theorem laneRegs_range {q off : Nat} (h : laneRegs q off) : 0x110000 + 0x10000 * q ≤ off ∧ off < 0x110800 + 0x10000 * q := by
  rcases h with rfl | rfl
  · simp only [Reg.PRT_LANES]; omega
  · simp only [Reg.PRT_STATUS]; omega

section
variable {rx tx : BitVec 11} {r x : List Nat}
  (hr : r = alignedLanes (s.link p).rxPos (s.rxRetired p) rx.toNat (s.spareLane p false))
  (hx : x = alignedLanes (s.link p).txPos (s.txRetired p) tx.toNat (s.spareLane p true))
include hr hx

theorem alignDone_eq (h : s.linkState p = 3 ∨ s.linkState p = 6) (hrm : s.minLanes p ≤ r.length) (hxm : s.minLanes p ≤ x.length) : exec (.alignDone p rx tx) s =
    .next ((if s.linkState p = 3 then (s.realigned p r x).toLink p 4 else s.realigned p r x).sendCaps p) := by
  refine congrArg Host.Outcome.next ?_
  unfold State.alignDone
  rw [← hr, ← hx, if_neg (by omega)]
  rfl

theorem alignDone_short (hm : r.length < s.minLanes p ∨ x.length < s.minLanes p) : exec (.alignDone p rx tx) s = .next s := by
  refine congrArg Host.Outcome.next ?_
  unfold State.alignDone
  rw [← hr, ← hx, if_pos (.inr hm)]

end

/-- What a port that has aligned holds when it may send its CAPS: the state before `sendCaps`. -/
structure Aligned (p : Fin 12) (r x : List Nat) (s z : State) : Prop where
  state : z.linkState p = if s.linkState p = 3 then 4 else 6
  link : z.link p = { s.link p with rxPos := r, txPos := x, aligned := true, group := [], txSym := 0, rxSym := 0, winWords := 0, winCorr := [] }
  rx : z.rxLanes p = laneBits (laneMask r)
  tx : z.txLanes p = laneBits (laneMask x)
  out : z.out = s.out
  frame : Linked (laneRegs p) s z

theorem aligned_realigned (h : s.linkState p = 3 ∨ s.linkState p = 6) (r x : List Nat) :
    Aligned p r x s (if s.linkState p = 3 then (s.realigned p r x).toLink p 4 else s.realigned p r x) := by
  obtain ⟨hrx, htx⟩ := lanes_realigned s p r x
  have hlink := link_realigned s p r x
  have hl := linked_realigned s p r x
  have hout := realigned_out s p r x
  have hst := linkState_realigned s p r x
  generalize s.realigned p r x = y at *
  by_cases h3 : s.linkState p = 3
  · rw [if_pos h3]
    have hnear := near_toLink y p.isLt (st := 4) (by decide) (by decide)
    have hlanes := rd_toLink_ne y p.isLt 4 (status_ne_lanes p).symm (notices_prtLanes p.isLt)
    exact {
      state := (linkState_toLink y p.isLt (by decide)).trans (if_pos h3).symm
      link := (link_toLink y p.isLt 4 p).trans hlink
      rx := (rxLanes_of_rd hlanes).trans hrx
      tx := (txLanes_of_rd hlanes).trans htx
      out := (congrArg State.out hnear.eq).trans hout
      frame := hl.trans (hnear.mono fun _ => .inr).linked }
  · rw [if_neg h3]
    exact { state := (hst.trans (h.resolve_left h3)).trans (if_neg h3).symm, link := hlink, rx := hrx, tx := htx, out := hout, frame := hl }

/-- This chip's CAPS after alignment. -/
theorem Aligned.ownCaps {r x : List Nat} {z : State} (h : Aligned p r x s z) : z.ownCaps p =
    { vmin := (1, 0), vmax := (1, 0), role := 2 * s.role (p.val / 2) + p.val % 2, chip := s.chip
      dims := (s.dim 0, s.dim 1, s.dim 2), txl := BitVec.ofNat 11 (laneMask x) } := by
  obtain ⟨hrole, hdim, hchip, -⟩ := h.frame.place p.isLt (fun _ => laneRegs_range)
  unfold State.ownCaps
  rw [h.tx, laneMask_laneBits, hrole, hdim, hdim, hdim, hchip]

theorem sendCaps_idle {q : Nat} (h : s.boardRead = false ∨ (s.link q).capsSent = true) : s.sendCaps q = s := by
  refine if_neg ?_
  rintro ⟨hb, hc, -⟩
  rcases h with h | h
  · exact Bool.false_ne_true (h.symm.trans hb)
  · exact Bool.false_ne_true (hc.symm.trans h)

theorem sendCaps_sends {q : Nat} (hb : s.boardRead = true) (hc : (s.link q).capsSent = false)
    (hst : s.linkState q = 4 ∨ s.linkState q = 6 ∧ (s.link q).aligned = true) :
    s.sendCaps q = (s.sendTrain q 1 0).modLink q (fun l => { l with capsSent := true }) := if_pos ⟨hb, hc, hst⟩

/-- CAPS go out once (R292). -/
theorem sendCaps_sent {q : Nat} (hb : s.boardRead = true) (hc : (s.link q).capsSent = false)
    (hst : s.linkState q = 4 ∨ s.linkState q = 6 ∧ (s.link q).aligned = true) (hrun : s.stopped = false) {f : LinkFlit}
    (hf : f = .train (s.link q).head { type := 1, caps := s.ownCaps q, stamp := 0 }) :
    (∃ g n w, (s.sendCaps q).link q = { s.link q with capsSent := true, group := g, txSym := n, wire := w }) ∧
      (s.sendCaps q).out = s.out ++ [.link q f] ∧ Linked e s (s.sendCaps q) ∧ ∀ off, (s.sendCaps q).rd off = s.rd off := by
  rw [sendCaps_sends hb hc hst, sendTrain_running hrun q 1 0 hf]
  refine ⟨⟨((s.link q).push f).group, ((s.link q).push f).txSym, ((s.link q).push f).wire, ?_⟩, ?_,
    ((linked_modLink e s q _).trans (linked_say e _ _)).modLink q _, fun off => ?_⟩
  · rw [link_modLink_here _ q (fun l => { l with capsSent := true }), link_say, link_modLink_here, push_eq]
  · rw [modLink_out, State.say_out, modLink_out]
  · rw [rd_modLink, rd_say, rd_modLink]

/-- The port goes on with the lanes that aligned, and sends its CAPS once the board identity has been read (R291, R292). -/
theorem alignDone_negotiates {rx tx : BitVec 11} {r x : List Nat} (h : s.linkState p = 3 ∨ s.linkState p = 6) (hrun : s.stopped = false)
    (hr : r = alignedLanes (s.link p).rxPos (s.rxRetired p) rx.toNat (s.spareLane p false))
    (hx : x = alignedLanes (s.link p).txPos (s.txRetired p) tx.toNat (s.spareLane p true))
    (hrm : s.minLanes p ≤ r.length) (hxm : s.minLanes p ≤ x.length) : Completes (.alignDone p rx tx) s (fun t =>
      t.linkState p = (if s.linkState p = 3 then 4 else 6) ∧ (t.link p).aligned = true ∧ (t.link p).rxPos = r ∧ (t.link p).txPos = x ∧
      t.rxLanes p = laneBits (laneMask r) ∧ t.txLanes p = laneBits (laneMask x) ∧ (t.link p).rxSym = 0 ∧
      (s.boardRead = true → (s.link p).capsSent = false → (t.link p).capsSent = true ∧
        t.out = s.out ++ [.link p (.train (s.link p).head {
          type := 1, stamp := 0
          caps := { vmin := (1, 0), vmax := (1, 0), role := 2 * s.role (p.val / 2) + p.val % 2, chip := s.chip
                    dims := (s.dim 0, s.dim 1, s.dim 2), txl := BitVec.ofNat 11 (laneMask x) } })]) ∧
      (s.boardRead = false ∨ (s.link p).capsSent = true → t.out = s.out) ∧
      Near (fun off => off = Reg.PRT_LANES p ∨ off = Reg.PRT_STATUS p) { s with links := t.links, out := t.out } t) := by
  have hz := aligned_realigned (p := p) h r x
  refine ⟨_, alignDone_eq hr hx h hrm hxm, ?_⟩
  generalize (if s.linkState p = 3 then (s.realigned p r x).toLink p 4 else s.realigned p r x) = z at hz
  have hcaps := hz.ownCaps
  obtain ⟨hst, hlink, hrx, htx, hout, hl⟩ := hz
  by_cases hsend : s.boardRead = true ∧ (s.link p).capsSent = false
  · obtain ⟨hb, hc⟩ := hsend
    have hmay : z.linkState p = 4 ∨ z.linkState p = 6 ∧ (z.link p).aligned = true := by
      rw [hst, hlink]
      split
      · exact .inl rfl
      · exact .inr ⟨rfl, rfl⟩
    obtain ⟨f, hf⟩ : ∃ f : LinkFlit, f = .train (z.link p).head { type := 1, caps := z.ownCaps p, stamp := 0 } := ⟨_, rfl⟩
    obtain ⟨⟨g, n, w, hlink'⟩, hout', hl', hrd⟩ :=
      sendCaps_sent (e := laneRegs p) (hl.boardRead.trans hb) (by rw [hlink]; exact hc) hmay (hl.stopped.trans hrun) hf
    rw [hlink] at hlink'
    generalize z.sendCaps p = t at *
    refine ⟨(linkState_of_rd (hrd _)).trans hst, by rw [hlink'], by rw [hlink'], by rw [hlink'], (rxLanes_of_rd (hrd _)).trans hrx,
      (txLanes_of_rd (hrd _)).trans htx, by rw [hlink'], fun _ _ => ⟨by rw [hlink'], ?_⟩, fun hno => ?_, hl.trans hl'⟩
    · rw [hout', hout, hf, hcaps, hlink]
      rfl
    · rcases hno with hno | hno
      · exact absurd (hno.symm.trans hb) Bool.false_ne_true
      · exact absurd (hc.symm.trans hno) Bool.false_ne_true
  · have hidle : s.boardRead = false ∨ (s.link p).capsSent = true := by
      by_cases hb : s.boardRead = true
      · exact .inr (by simpa using fun hc => hsend ⟨hb, hc⟩)
      · exact .inl (Bool.eq_false_iff.mpr hb)
    rw [sendCaps_idle (by rw [hl.boardRead, hlink]; exact hidle)]
    exact ⟨hst, by rw [hlink], by rw [hlink], by rw [hlink], hrx, htx, by rw [hlink], fun hb hc => absurd ⟨hb, hc⟩ hsend, fun _ => hout, hl⟩

/-! ### ACTIVE (R291) -/

theorem trained_iff (l : Link) : l.trained = true ↔ l.aligned = true ∧ l.capsOk = true ∧ l.acked = true ∧ l.measured = true := by
  simp only [Link.trained, Bool.and_eq_true]
  tauto

/-- What a port shows after the test whether NEGOTIATE has passed. -/
theorem told_activate (s : State) (p : Fin 12) : Told (· = Reg.PRT_STATUS p) s (s.activate p) ∧ (s.activate p).links = s.links ∧
    (s.activate p).linkState p = if s.linkState p = 4 ∧ (s.link p).trained = true then 5 else s.linkState p := by
  unfold State.activate
  split
  · obtain ⟨ht, hlinks⟩ := told_toLink s p.isLt 5
    exact ⟨ht, hlinks, linkState_toLink s p.isLt (by decide)⟩
  · exact ⟨(Linked.refl _ s).told ⟨[], by simp⟩, rfl, rfl⟩

theorem activate_idle {q : Nat} (h : s.linkState q = 4 → (s.link q).trained = false) : s.activate q = s := by
  refine if_neg ?_
  rintro ⟨h4, ht⟩
  exact Bool.false_ne_true ((h h4).symm.trans ht)

/-! ### A check of NEGOTIATE that fails (R291) -/

theorem failTraining_ends (h : Linked e u v) (hout : v.out = u.out) (hlinks : v.links = u.links) (hst : v.linkState p = u.linkState p)
    (he : ¬ e (Reg.PRT_HOLD_CNT p) ∧ ¬ e (Reg.PRT_DOWN_CNT p) ∧ ¬ e (Reg.PRT_RETURN_CNT p)) {cause : Nat} (hcause : cause < 16) :
    (u.linkState p = 4 → heldWith e p cause u (v.failTraining p cause)) ∧
      (u.linkState p = 6 → wentDown e p u (v.failTraining p cause)) := by
  obtain ⟨heh, hed, her⟩ := he
  have hl : Linked (fun off => e off ∨ laneRegs p off) u v := h.mono fun _ => .inl
  have hsaid : ∃ l, v.out = u.out ++ l := ⟨[], by rw [hout, List.append_nil]⟩
  have hlink := link_of_links hlinks p
  refine ⟨fun h4 => ?_, fun h6 => ?_⟩
  · rw [failTraining_held (hst.trans h4)]
    exact (holdPort_holds v p.isLt hcause).of_linked p.isLt hl hsaid (by rw [hlink]) (by rw [hlink]) heh
  · rw [failTraining_down (hst.trans h6)]
    exact (linkDown_down v p.isLt true).of_linked p.isLt hl hsaid (by rw [hlink]) (by rw [hlink]) (by rw [hlink]) ⟨hed, her⟩

end Sys2Proof.Machine
end

section
/-!
SUPPORT. The records of NEGOTIATE as they arrive (R295 to R297, R301), the timers of training (R291) and the axis map (R308).
-/
namespace Sys2Proof.Machine

variable {e : Nat → Prop} {s t u v : State} {p : Fin 12}

/-! ### CAPS -/

/-- PRT_PEER shows the chip and role that a record names (R297). -/
def State.peerHeard (s : State) (p : Nat) (r : CapsRec) : State :=
  (s.setFld (Reg.PRT_PEER p) Fld.PRT_PEER_CHIP r.chip).setFld (Reg.PRT_PEER p) Fld.PRT_PEER_ROLE r.role

/-- PRT_PEER shows the version agreed (R296). -/
def State.versionAgreed (s : State) (p : Nat) (n : Nat × Nat) : State :=
  (s.setFld (Reg.PRT_PEER p) Fld.PRT_PEER_VMAJOR n.1).setFld (Reg.PRT_PEER p) Fld.PRT_PEER_VMINOR n.2

section
variable (s : State) (p : Fin 12)

theorem linked_peerHeard (r : CapsRec) : Linked (· = Reg.PRT_PEER p) s (s.peerHeard p r) :=
  ((Linked.refl (· = Reg.PRT_PEER p) s).setFld (off := Reg.PRT_PEER p) _ _ rfl).setFld _ _ rfl

theorem linked_versionAgreed (n : Nat × Nat) : Linked (· = Reg.PRT_PEER p) s (s.versionAgreed p n) :=
  ((Linked.refl (· = Reg.PRT_PEER p) s).setFld (off := Reg.PRT_PEER p) _ _ rfl).setFld _ _ rfl

theorem rd_peerHeard (r : CapsRec) : (s.peerHeard p r).rd (Reg.PRT_PEER p) =
    putField (putField (s.rd (Reg.PRT_PEER p)) Fld.PRT_PEER_CHIP r.chip) Fld.PRT_PEER_ROLE r.role := by
  rw [State.peerHeard, rd_setFld_here, rd_setFld_here]

theorem rd_versionAgreed (n : Nat × Nat) : (s.versionAgreed p n).rd (Reg.PRT_PEER p) =
    putField (putField (s.rd (Reg.PRT_PEER p)) Fld.PRT_PEER_VMAJOR n.1) Fld.PRT_PEER_VMINOR n.2 := by
  rw [State.versionAgreed, rd_setFld_here, rd_setFld_here]

/-- PRT_PEER after both. -/
theorem fld_peer (r : CapsRec) : ((s.peerHeard p r).versionAgreed p (1, 0)).fld (Reg.PRT_PEER p) Fld.PRT_PEER_CHIP = r.chip % 2 ^ 15 ∧
    ((s.peerHeard p r).versionAgreed p (1, 0)).fld (Reg.PRT_PEER p) Fld.PRT_PEER_ROLE = r.role % 16 ∧
    ((s.peerHeard p r).versionAgreed p (1, 0)).fld (Reg.PRT_PEER p) Fld.PRT_PEER_VMAJOR = 1 ∧
    ((s.peerHeard p r).versionAgreed p (1, 0)).fld (Reg.PRT_PEER p) Fld.PRT_PEER_VMINOR = 0 := by
  simp only [fld_def, rd_versionAgreed, rd_peerHeard]
  refine ⟨?_, ?_, ?_, ?_⟩
  · rw [getField_putField_ne _ _ _ _ (by decide) (by decide), getField_putField_ne _ _ _ _ (by decide) (by decide),
      getField_putField_ne _ _ _ _ (by decide) (by decide), getField_putField _ _ _ (by decide)]
    rfl
  · rw [getField_putField_ne _ _ _ _ (by decide) (by decide), getField_putField_ne _ _ _ _ (by decide) (by decide),
      getField_putField _ _ _ (by decide)]
    rfl
  · rw [getField_putField_ne _ _ _ _ (by decide) (by decide), getField_putField _ _ _ (by decide)]
    rfl
  · rw [getField_putField _ _ _ (by decide)]
    rfl

end

/-- A register of the port beside PRT_STATUS changes neither its state nor its place. -/
theorem Linked.linkState (h : Linked e u v) (he : ¬ e (Reg.PRT_STATUS p)) : v.linkState p = u.linkState p :=
  linkState_of_rd (h.rd he (observes_of_notices (notices_prtStatus p.isLt)))

theorem peerReg_range {off : Nat} (h : off = Reg.PRT_PEER p) : 0x110000 + 0x10000 * p.val ≤ off ∧ off < 0x110800 + 0x10000 * p.val := by
  subst h
  simp only [Reg.PRT_PEER]
  omega

/-- The neighbour check reads the board identity and the axis map. -/
theorem neighbourOk_of_linked (h : Linked (· = Reg.PRT_PEER p) u v) (r : CapsRec) : v.neighbourOk p r = u.neighbourOk p r := by
  obtain ⟨hrole, hdim, hchip, hneighbour, -⟩ := h.place p.isLt (fun _ => peerReg_range)
  unfold State.neighbourOk
  dsimp only
  rw [hrole, hdim, hdim, hdim, hchip, hneighbour]

/-- Version 1.0 is the one common version of a record that admits it (R296). -/
theorem verMax_one {x : Nat × Nat} (h : verLe x (1, 0) = true) : verMax (1, 0) x = (1, 0) := by
  obtain ⟨a, b⟩ := x
  unfold verMax
  split
  · next hle =>
    simp only [verLe, Bool.or_eq_true, Bool.and_eq_true, Nat.blt_eq, Nat.ble_eq, beq_iff_eq] at h hle
    rw [Prod.mk.injEq]
    omega
  · rfl

theorem verMin_one {x : Nat × Nat} (h : verLe (1, 0) x = true) : verMin (1, 0) x = (1, 0) := if_pos h

section
variable {r : CapsRec} {a : LinkAck} (hu : u = s.hearAck p a) (hneg : u.negotiating p = true)
include hu hneg

theorem capsRx_version (hver : verLe (verMax (1, 0) r.vmin) (verMin (1, 0) r.vmax) = false) :
    exec (.capsRx p r a) s = .next ((u.peerHeard p r).failTraining p 4) := by
  subst hu
  refine congrArg Host.Outcome.next ?_
  unfold State.capsRx
  rw [if_neg (by rw [hneg]; decide), if_pos (by rw [hver]; rfl)]
  rfl

variable (hver : verLe (verMax (1, 0) r.vmin) (verMin (1, 0) r.vmax) = true)
include hver

theorem capsRx_neighbour (hn : u.neighbourOk p r = false) :
    exec (.capsRx p r a) s = .next (((u.peerHeard p r).versionAgreed p (verMin (1, 0) r.vmax)).failTraining p 5) := by
  have hn' := (neighbourOk_of_linked ((linked_peerHeard u p r).trans (linked_versionAgreed _ p (verMin (1, 0) r.vmax))) r).trans hn
  subst hu
  refine congrArg Host.Outcome.next ?_
  unfold State.capsRx
  rw [if_neg (by rw [hneg]; decide), if_neg (by rw [hver]; decide)]
  exact if_pos (by rw [Bool.not_eq_true']; exact hn')

theorem capsRx_taken (hn : u.neighbourOk p r = true) : exec (.capsRx p r a) s = .next
    (((((u.peerHeard p r).versionAgreed p (verMin (1, 0) r.vmax)).modLink p (fun l => { l with capsOk := true })).sendTrain p 2 0).activate p) := by
  have hn' := (neighbourOk_of_linked ((linked_peerHeard u p r).trans (linked_versionAgreed _ p (verMin (1, 0) r.vmax))) r).trans hn
  subst hu
  refine congrArg Host.Outcome.next ?_
  unfold State.capsRx
  rw [if_neg (by rw [hneg]; decide), if_neg (by rw [hver]; decide)]
  exact if_neg (by rw [Bool.not_eq_true, Bool.not_eq_false']; exact hn')

end

/-- A record of the right neighbour and a common version is answered by CAPS_ACK, and may end NEGOTIATE. -/
theorem capsRx_passes {r : CapsRec} {a : LinkAck} (hu : u = s.hearAck p a) (hneg : u.negotiating p = true) (hrun : u.stopped = false)
    (hmin : verLe r.vmin (1, 0) = true) (hmax : verLe (1, 0) r.vmax = true) (hdims : r.dims = (u.dim 0, u.dim 1, u.dim 2))
    (hchip : r.chip = u.neighbour u.chip (u.role (p / 2))) (hrole : r.role = 2 * (u.role (p / 2) ^^^ 1) + p.val % 2) :
    Completes (.capsRx p r a) s (fun t => (t.link p).capsOk = true ∧
      t.linkState p = (if u.linkState p = 4 ∧ (u.link p).aligned = true ∧ (u.link p).acked = true ∧ (u.link p).measured = true then 5
        else u.linkState p) ∧
      t.fld (Reg.PRT_PEER p) Fld.PRT_PEER_CHIP = r.chip % 2 ^ 15 ∧ t.fld (Reg.PRT_PEER p) Fld.PRT_PEER_ROLE = r.role % 16 ∧
      t.fld (Reg.PRT_PEER p) Fld.PRT_PEER_VMAJOR = 1 ∧ t.fld (Reg.PRT_PEER p) Fld.PRT_PEER_VMINOR = 0 ∧
      (∃ l, t.out = u.out ++ .link p (.train (u.link p).head { type := 2, caps := u.ownCaps p, stamp := 0 }) :: l) ∧
      Noted (fun off => off = Reg.PRT_PEER p ∨ off = Reg.PRT_STATUS p) { u with links := t.links, units := t.units, lastChange := t.lastChange } t) := by
  have hnOk : u.neighbourOk p r = true := by simp [State.neighbourOk, hdims, hchip, hrole]
  have hver : verLe (verMax (1, 0) r.vmin) (verMin (1, 0) r.vmax) = true := by rw [verMax_one hmin, verMin_one hmax]; rfl
  refine ⟨_, capsRx_taken hu hneg hver hnOk, ?_⟩
  rw [verMin_one hmax]
  have hw : Linked (· = Reg.PRT_PEER p) u ((u.peerHeard p r).versionAgreed p (1, 0)) :=
    (linked_peerHeard u p r).trans (linked_versionAgreed _ p _)
  have hfld := fld_peer u p r
  have hwlink : ((u.peerHeard p r).versionAgreed p (1, 0)).link p = u.link p := rfl
  have hwout : ((u.peerHeard p r).versionAgreed p (1, 0)).out = u.out := rfl
  generalize (u.peerHeard p r).versionAgreed p (1, 0) = w at *
  have hx : Linked (· = Reg.PRT_PEER p) u (w.modLink p (fun l => { l with capsOk := true })) := hw.modLink p _
  have hxrd : ∀ off, (w.modLink p (fun l => { l with capsOk := true })).rd off = w.rd off := rd_modLink w p _
  have hxout : (w.modLink p (fun l => { l with capsOk := true })).out = u.out := hwout
  have hxlink := link_modLink_here w p (fun l => { l with capsOk := true })
  rw [hwlink] at hxlink
  generalize w.modLink p (fun l => { l with capsOk := true }) = x at *
  obtain ⟨hroles, hdim, hch, -⟩ := hx.place p.isLt (fun _ => peerReg_range)
  have hcaps : x.ownCaps p = u.ownCaps p :=
    ownCaps_congr hroles hdim hch (txLanes_of_rd (hx.rd (by simp) (observes_of_notices (notices_prtLanes p.isLt))))
  obtain ⟨f, hf⟩ : ∃ f : LinkFlit, f = .train (x.link p).head { type := 2, caps := x.ownCaps p, stamp := 0 } := ⟨_, rfl⟩
  rw [sendTrain_running (hx.stopped.trans hrun) p 2 0 hf]
  have hy : Linked (· = Reg.PRT_PEER p) u ((x.modLink p (fun l => l.push f)).say (.link p f)) := (hx.modLink p _).trans (linked_say _ _ _)
  have hyrd : ∀ off, ((x.modLink p (fun l => l.push f)).say (.link p f)).rd off = x.rd off := fun off => by rw [rd_say, rd_modLink]
  have hyout : ((x.modLink p (fun l => l.push f)).say (.link p f)).out = u.out ++ [.link p f] := by
    rw [State.say_out, modLink_out, hxout]
  have hylink : ((x.modLink p (fun l => l.push f)).say (.link p f)).link p = (x.link p).push f := by
    rw [link_say, link_modLink_here]
  rw [push_eq, hxlink] at hylink
  rw [hcaps, hxlink] at hf
  generalize (x.modLink p (fun l => l.push f)).say (.link p f) = y at *
  obtain ⟨hto, hlinks, hst⟩ := told_activate y p
  have hlink := link_of_links hlinks p
  have hpeer : (y.activate p).rd (Reg.PRT_PEER p) = w.rd (Reg.PRT_PEER p) :=
    (hto.rd (by simp) (notices_prtPeer p.isLt)).trans ((hyrd _).trans (hxrd _))
  obtain ⟨hfChip, hfRole, hfMajor, hfMinor⟩ := hfld
  obtain ⟨l, hl⟩ := hto.said
  refine ⟨by rw [hlink, hylink], ?_, (fld_of_rd _ hpeer).trans hfChip, (fld_of_rd _ hpeer).trans hfRole,
    (fld_of_rd _ hpeer).trans hfMajor, (fld_of_rd _ hpeer).trans hfMinor, ⟨l, ?_⟩, ?_⟩
  · rw [hst, hy.linkState (by simp), hylink]
    simp only [trained_iff, true_and]
  · rw [hl]
    show y.out ++ l = _
    rw [hyout, hf, List.append_assoc]
    rfl
  · exact ((hy.told ⟨_, hyout⟩).mono fun _ => .inl).trans (hto.mono fun _ => .inr)

theorem capsRx_fails {r : CapsRec} {a : LinkAck} (hu : u = s.hearAck p a) (hneg : u.negotiating p = true) :
    (verLe (verMax (1, 0) r.vmin) (verMin (1, 0) r.vmax) = false →
      (u.linkState p = 4 → Completes (.capsRx p r a) s (fun t => heldWith (· = Reg.PRT_PEER p) p 4 u t)) ∧
      (u.linkState p = 6 → Completes (.capsRx p r a) s (fun t => wentDown (· = Reg.PRT_PEER p) p u t))) ∧
    (verLe (verMax (1, 0) r.vmin) (verMin (1, 0) r.vmax) = true → u.neighbourOk p r = false →
      (u.linkState p = 4 → Completes (.capsRx p r a) s (fun t => heldWith (· = Reg.PRT_PEER p) p 5 u t)) ∧
      (u.linkState p = 6 → Completes (.capsRx p r a) s (fun t => wentDown (· = Reg.PRT_PEER p) p u t))) := by
  have hends : ∀ v, Linked (· = Reg.PRT_PEER p) u v → v.out = u.out → v.links = u.links → ∀ {cause : Nat}, cause < 16 →
      (u.linkState p = 4 → heldWith (· = Reg.PRT_PEER p) p cause u (v.failTraining p cause)) ∧
      (u.linkState p = 6 → wentDown (· = Reg.PRT_PEER p) p u (v.failTraining p cause)) := fun v hl hout hlinks {_} hc =>
    failTraining_ends hl hout hlinks (hl.linkState (by simp)) (by simp) hc
  refine ⟨fun hver => ?_, fun hver hn => ?_⟩
  · obtain ⟨hheld, hdown⟩ := hends _ (linked_peerHeard u p r) rfl rfl (cause := 4) (by decide)
    exact ⟨fun h4 => ⟨_, capsRx_version hu hneg hver, hheld h4⟩, fun h6 => ⟨_, capsRx_version hu hneg hver, hdown h6⟩⟩
  · obtain ⟨hheld, hdown⟩ := hends _ ((linked_peerHeard u p r).trans (linked_versionAgreed _ p (verMin (1, 0) r.vmax))) rfl rfl
      (cause := 5) (by decide)
    exact ⟨fun h4 => ⟨_, capsRx_neighbour hu hneg hver hn, hheld h4⟩, fun h6 => ⟨_, capsRx_neighbour hu hneg hver hn, hdown h6⟩⟩

/-! ### CAPS_ACK, PING and PONG -/

theorem capsAckRx_pings {a : LinkAck} (hu : u = s.hearAck p a) (hneg : u.negotiating p = true) (hsent : (u.link p).capsSent = true)
    (hwait : (u.link p).measured = false ∨ (u.link p).capsOk = false ∨ (u.link p).aligned = false ∨ u.linkState p = 6)
    (hv : v = u.modLink p (fun l => { l with acked := true, ping := some (u.rd Reg.CAD_TSC) })) :
    exec (.capsAckRx p a) s = .next (v.sendTrain p 3 (u.rd Reg.CAD_TSC)) := by
  have hlink : v.link p = { u.link p with acked := true, ping := some (u.rd Reg.CAD_TSC) } := by rw [hv, link_modLink_here]
  have hstate : v.linkState p = u.linkState p := hv ▸ linkState_of_rd (rd_modLink u p _ _)
  obtain ⟨g, n, w, hsentLink⟩ := link_sendFlit v p (.train (v.link p).head { type := 3, caps := v.ownCaps p, stamp := u.rd Reg.CAD_TSC })
  have hactivate : (v.sendTrain p 3 (u.rd Reg.CAD_TSC)).activate p = v.sendTrain p 3 (u.rd Reg.CAD_TSC) := by
    refine activate_idle (fun h4 => ?_)
    have h4' : u.linkState p = 4 := ((linkState_of_rd (rd_sendFlit v p _ _)).trans hstate).symm.trans h4
    rw [Bool.eq_false_iff, ne_eq, trained_iff, State.sendTrain, hsentLink, hlink]
    rintro ⟨ha, hc, -, hm⟩
    rcases hwait with h | h | h | h
    · exact Bool.false_ne_true (h.symm.trans hm)
    · exact Bool.false_ne_true (h.symm.trans hc)
    · exact Bool.false_ne_true (h.symm.trans ha)
    · omega
  rw [← hactivate, hv]
  subst hu
  refine congrArg Host.Outcome.next ?_
  unfold State.capsAckRx
  rw [if_neg]
  rw [hneg, hsent]
  simp

theorem pingRx_answers {stamp : BitVec 64} {a : LinkAck} (hu : u = s.hearAck p a) (hneg : u.negotiating p = true) :
    exec (.pingRx p stamp a) s = .next (u.sendTrain p 4 stamp) := by
  subst hu
  exact congrArg Host.Outcome.next (if_pos hneg)

/-- PRT_RTT shows the round trip and the replay timeout (R301). -/
def State.measured (s : State) (p rtt : Nat) : State :=
  (s.setFld (Reg.PRT_RTT p) Fld.PRT_RTT_RTT rtt).setFld (Reg.PRT_RTT p) Fld.PRT_RTT_TIMEOUT (min 65535 (rtt + 500))

theorem linked_measured (s : State) (p rtt : Nat) : Linked (· = Reg.PRT_RTT p) s (s.measured p rtt) :=
  ((Linked.refl (· = Reg.PRT_RTT p) s).setFld (off := Reg.PRT_RTT p) _ _ rfl).setFld _ _ rfl

theorem fld_measured (s : State) (p : Nat) {rtt : Nat} (h : rtt ≤ 3500) :
    (s.measured p rtt).fld (Reg.PRT_RTT p) Fld.PRT_RTT_RTT = rtt ∧ (s.measured p rtt).fld (Reg.PRT_RTT p) Fld.PRT_RTT_TIMEOUT = rtt + 500 := by
  unfold State.measured
  rw [fld_setFld_beside _ _ _ _ _ (by decide) (by decide), fld_setFld_here _ _ _ _ (by decide), fld_setFld_here _ _ _ _ (by decide)]
  simp only [Fld.PRT_RTT_RTT, Fld.PRT_RTT_TIMEOUT]
  omega

theorem pongRx_eq {stamp : BitVec 64} {rtt : BitVec 16} {a : LinkAck} (hu : u = s.hearAck p a) (hneg : u.negotiating p = true)
    (hping : (u.link p).ping = some stamp) : exec (.pongRx p stamp rtt a) s = .next (if 3500 < rtt.toNat then (u.measured p rtt.toNat).failTraining p 6
      else ((u.measured p rtt.toNat).modLink p (fun l => { l with measured := true, ping := none })).activate p) := by
  subst hu
  refine congrArg Host.Outcome.next ?_
  unfold State.pongRx
  rw [if_neg (by rw [hneg, hping]; simp)]
  rfl

theorem pongRx_passes {stamp : BitVec 64} {rtt : BitVec 16} {a : LinkAck} (hu : u = s.hearAck p a) (hneg : u.negotiating p = true)
    (hping : (u.link p).ping = some stamp) (hle : rtt.toNat ≤ 3500) : Completes (.pongRx p stamp rtt a) s (fun t =>
      t.link p = { u.link p with measured := true, ping := none } ∧
      t.linkState p = (if u.linkState p = 4 ∧ (u.link p).aligned = true ∧ (u.link p).acked = true ∧ (u.link p).capsOk = true then 5
        else u.linkState p) ∧
      t.fld (Reg.PRT_RTT p) Fld.PRT_RTT_RTT = rtt.toNat ∧ t.fld (Reg.PRT_RTT p) Fld.PRT_RTT_TIMEOUT = rtt.toNat + 500 ∧
      Noted (fun off => off = Reg.PRT_RTT p ∨ off = Reg.PRT_STATUS p) { u with links := t.links, units := t.units, lastChange := t.lastChange } t) := by
  refine ⟨_, (pongRx_eq hu hneg hping).trans (by rw [if_neg (by omega)]), ?_⟩
  obtain ⟨hfRtt, hfTimeout⟩ := fld_measured u p hle
  have hl : Linked (· = Reg.PRT_RTT p) u ((u.measured p rtt.toNat).modLink p (fun l => { l with measured := true, ping := none })) :=
    (linked_measured u p rtt.toNat).modLink p _
  have hrd : ∀ off, ((u.measured p rtt.toNat).modLink p (fun l => { l with measured := true, ping := none })).rd off =
      (u.measured p rtt.toNat).rd off := rd_modLink _ p _
  have hout : ((u.measured p rtt.toNat).modLink p (fun l => { l with measured := true, ping := none })).out = u.out ++ [] :=
    (List.append_nil _).symm
  have hxlink := link_modLink_here (u.measured p rtt.toNat) p (fun l => { l with measured := true, ping := none })
  have hmlink : (u.measured p rtt.toNat).link p = u.link p := rfl
  rw [hmlink] at hxlink
  generalize (u.measured p rtt.toNat).modLink p (fun l => { l with measured := true, ping := none }) = x at *
  obtain ⟨hto, hlinks, hst⟩ := told_activate x p
  have hlink := (link_of_links hlinks p).trans hxlink
  have hword : (x.activate p).rd (Reg.PRT_RTT p) = (u.measured p rtt.toNat).rd (Reg.PRT_RTT p) :=
    (hto.rd (by simp) (notices_prtRtt p.isLt)).trans (hrd _)
  refine ⟨hlink, ?_, (fld_of_rd _ hword).trans hfRtt, (fld_of_rd _ hword).trans hfTimeout, ?_⟩
  · rw [hst, hl.linkState (by simp), hxlink]
    simp only [trained_iff, and_true]
    exact if_congr (by tauto) rfl rfl
  · exact ((hl.told ⟨_, hout⟩).mono fun _ => .inl).trans (hto.mono fun _ => .inr)

theorem pongRx_fails {stamp : BitVec 64} {rtt : BitVec 16} {a : LinkAck} (hu : u = s.hearAck p a) (hneg : u.negotiating p = true)
    (hping : (u.link p).ping = some stamp) (hlt : 3500 < rtt.toNat) :
    (u.linkState p = 4 → Completes (.pongRx p stamp rtt a) s (fun t => heldWith (· = Reg.PRT_RTT p) p 6 u t)) ∧
      (u.linkState p = 6 → Completes (.pongRx p stamp rtt a) s (fun t => wentDown (· = Reg.PRT_RTT p) p u t)) := by
  have hl := linked_measured u p rtt.toNat
  obtain ⟨hheld, hdown⟩ := failTraining_ends (p := p) hl rfl rfl (hl.linkState (p := p) (by simp)) (by simp) (cause := 6) (by decide)
  have hexec := (pongRx_eq (rtt := rtt) hu hneg hping).trans (by rw [if_pos hlt])
  exact ⟨fun h4 => ⟨_, hexec, hheld h4⟩, fun h6 => ⟨_, hexec, hdown h6⟩⟩

/-! ### Timers -/

theorem trainStateTimeout_ends (s : State) (p : Fin 12) :
    (1 ≤ s.linkState p → s.linkState p ≤ 4 → Completes (.trainStateTimeout p) s (fun t => heldWith (fun _ => False) p 8 s t)) ∧
    (s.linkState p = 6 → Completes (.trainStateTimeout p) s (fun t => wentDown (fun _ => False) p s t)) := by
  refine ⟨fun h1 h4 => ⟨s.holdPort p 8, congrArg Host.Outcome.next (if_pos ⟨h1, h4⟩), holdPort_holds s p.isLt (by decide)⟩,
    fun h6 => ⟨s.linkDown p true, congrArg Host.Outcome.next ?_, linkDown_down s p.isLt true⟩⟩
  exact (if_neg (by omega)).trans (if_pos h6)

theorem detectRetryTimer_starts (h0 : s.linkState p = 0) (hen : s.portEn p = true) (hmod : (s.link p).module = true)
    (hboot : s.bootDead = false) :
    Completes (.detectRetryTimer p) s (fun t => t.linkState p = 1 ∧ Near (· = Reg.PRT_STATUS p) s t) := by
  obtain ⟨hstate, -, hnear⟩ := startDetect_runs hboot p.isLt
  exact ⟨s.startDetect p, congrArg Host.Outcome.next (if_pos ⟨h0, hen, hmod⟩), hstate, hnear⟩

end Sys2Proof.Machine
end

section
/-!
SUPPORT. PRT_AXIS_MAP_WRITE (R308): a permutation of the roles is taken while the ports that it moves are idle.
-/
namespace Sys2Proof.Machine

variable {s t : State}

/-- A port that the axis map may move: not enabled, and DOWN or HELD. -/
def mapIdle (s : State) (p : Nat) : Prop := s.portEn p = false ∧ (s.linkState p = 0 ∨ s.linkState p = 7)

/-- A write of PRT_AXIS_MAP that names every role, and moves idle ports alone. -/
def takesAxisMap (s : State) (n : Nat) : Prop :=
  (∀ d, d < 6 → d ∈ mapRoles (n % 2 ^ 18)) ∧ ∀ p, p < 12 → n / 8 ^ (p / 2) % 8 = s.role (p / 2) ∨ mapIdle s p

/-- The state whose MAP_ERR the write has cleared, where its bit 31 is 1. -/
def State.mapErrCleared (s : State) (v : BitVec 64) : State :=
  s.setFld Reg.PRT_AXIS_MAP Fld.PRT_AXIS_MAP_MAP_ERR (if v.getLsbD 31 then 0 else s.fld Reg.PRT_AXIS_MAP Fld.PRT_AXIS_MAP_MAP_ERR)

/-- The roles of the map lie below its error flag. -/
theorem role_of_mapErr {n k : Nat} (hk : k < 6) (h : t.rd Reg.PRT_AXIS_MAP = putField (s.rd Reg.PRT_AXIS_MAP) Fld.PRT_AXIS_MAP_MAP_ERR n) :
    t.role k = s.role k := by
  rw [State.role, fld_def, h, getField_putField_ne _ _ _ _ (by decide) (.inl (by simp only [Fld.PRT_AXIS_MAP_MAP_ERR]; omega))]
  rfl

theorem role_mapErrCleared (s : State) (v : BitVec 64) {k : Nat} (hk : k < 6) : (s.mapErrCleared v).role k = s.role k :=
  role_of_mapErr hk (rd_setFld_here _ _ _ _)

theorem idle_mapErrCleared (s : State) (v : BitVec 64) (p : Nat) :
    (s.mapErrCleared v).portEn p = s.portEn p ∧ (s.mapErrCleared v).linkState p = s.linkState p := by
  refine ⟨portEn_of_rd (rd_setFld_ne _ _ (fun h => ?_)), linkState_of_rd (rd_setFld_ne _ _ (fun h => ?_))⟩
  · have : 0x110000 + 0x10000 * p = 0x110800 := h
    omega
  · have : 0x110008 + 0x10000 * p = 0x110800 := h
    omega

theorem mapRoles_getD (n : Nat) {k : Nat} (hk : k < 6) : (mapRoles n).getD k 0 = n / 8 ^ k % 8 := by
  simp [mapRoles, List.getD, hk]

/-- The role of a pair in the map's eighteen bits. -/
theorem role_digit (n : Nat) {k : Nat} (hk : k < 6) : n % 2 ^ 18 / 8 ^ k % 8 = n / 8 ^ k % 8 := by
  have hsplit : 2 ^ 18 = 8 ^ k * 8 ^ (6 - k) := by rw [← Nat.pow_add, Nat.add_sub_cancel' hk.le]; decide
  rw [hsplit, Nat.mod_mul_right_div_self, Nat.mod_mod_of_dvd _ (dvd_pow_self 8 (by omega))]

/-- The two tests of the write, as the model makes them after MAP_ERR is cleared. -/
theorem takesAxisMap_iff (s : State) (v : BitVec 64) : ((List.range 6).all (mapRoles (v.toNat % 2 ^ 18)).contains &&
    (List.range 6).all (fun k => (mapRoles (v.toNat % 2 ^ 18)).getD k 0 == (s.mapErrCleared v).role k ||
      ((!(s.mapErrCleared v).portEn (2 * k) && ((s.mapErrCleared v).linkState (2 * k) == 0 || (s.mapErrCleared v).linkState (2 * k) == 7)) &&
        (!(s.mapErrCleared v).portEn (2 * k + 1) &&
          ((s.mapErrCleared v).linkState (2 * k + 1) == 0 || (s.mapErrCleared v).linkState (2 * k + 1) == 7))))) = true ↔
      takesAxisMap s v.toNat := by
  have hidle : ∀ p, (!(s.mapErrCleared v).portEn p && ((s.mapErrCleared v).linkState p == 0 || (s.mapErrCleared v).linkState p == 7)) = true
      ↔ mapIdle s p := by
    intro p
    obtain ⟨hen, hst⟩ := idle_mapErrCleared s v p
    simp [mapIdle, hen, hst]
  rw [Bool.and_eq_true, List.all_eq_true, List.all_eq_true, takesAxisMap]
  refine and_congr ⟨fun h d hd => ?_, fun h d hd => ?_⟩ ⟨fun h p hp => ?_, fun h k hk => ?_⟩
  · exact List.contains_iff_mem.mp (h d (List.mem_range.mpr hd))
  · exact List.contains_iff_mem.mpr (h d (List.mem_range.mp hd))
  · have hk : p / 2 < 6 := by omega
    have hmember : 2 * (p / 2) = p ∨ 2 * (p / 2) + 1 = p := by omega
    have hpair := h (p / 2) (List.mem_range.mpr hk)
    rw [Bool.or_eq_true, beq_iff_eq, mapRoles_getD _ hk, role_digit _ hk, role_mapErrCleared s v hk, Bool.and_eq_true, hidle, hidle] at hpair
    rcases hpair with hrole | ⟨hA, hB⟩
    · exact .inl hrole
    · rcases hmember with heq | heq
      · exact .inr (heq ▸ hA)
      · exact .inr (heq ▸ hB)
  · have hk' : k < 6 := List.mem_range.mp hk
    rw [Bool.or_eq_true, beq_iff_eq, mapRoles_getD _ hk', role_digit _ hk', role_mapErrCleared s v hk', Bool.and_eq_true, hidle, hidle]
    have hA := h (2 * k) (by omega)
    have hB := h (2 * k + 1) (by omega)
    rw [show 2 * k / 2 = k by omega] at hA
    rw [show (2 * k + 1) / 2 = k by omega] at hB
    exact hA.elim .inl fun hA => hB.elim .inl fun hB => .inr ⟨hA, hB⟩

section
variable {v : BitVec 64}

theorem writeAxisMap_taken (h : takesAxisMap s v.toNat) :
    s.writeAxisMap v = (s.mapErrCleared v).setFld Reg.PRT_AXIS_MAP Fld.PRT_AXIS_MAP_ROLES (v.toNat % 2 ^ 18) :=
  if_pos ((takesAxisMap_iff s v).mpr h)

theorem writeAxisMap_rejected (h : ¬ takesAxisMap s v.toNat) :
    s.writeAxisMap v = (s.mapErrCleared v).event Reg.PRT_AXIS_MAP Fld.PRT_AXIS_MAP_MAP_ERR Reg.PRT_MAP_ERR_CNT :=
  if_neg (fun hc => h ((takesAxisMap_iff s v).mp hc))

theorem near_mapErrCleared (s : State) (v : BitVec 64) : Near (· = Reg.PRT_AXIS_MAP) s (s.mapErrCleared v) :=
  (Near.refl (· = Reg.PRT_AXIS_MAP) s).setFld _ _ _ (.inl rfl)

end

section
variable {v : BitVec 32}

theorem toNat_setWidth_word (v : BitVec 32) : (v.setWidth 64).toNat = v.toNat := by
  rw [BitVec.toNat_setWidth, Nat.mod_eq_of_lt (by omega)]

theorem exec_prtAxisMapWrite (s : State) (v : BitVec 32) : exec (.prtAxisMapWrite 0 v) s = .next (s.writeAxisMap (v.setWidth 64)) := rfl

theorem prtAxisMapWrite_taken (h : takesAxisMap s v.toNat) : Completes (.prtAxisMapWrite 0 v) s (fun t =>
    (∀ k, k < 6 → t.role k = v.toNat / 8 ^ k % 8) ∧ Near (· = Reg.PRT_AXIS_MAP) s t) := by
  refine ⟨_, (exec_prtAxisMapWrite s v).trans (by rw [writeAxisMap_taken (by rwa [toNat_setWidth_word]), toNat_setWidth_word]), fun k hk => ?_,
    (near_mapErrCleared s _).setFld _ _ _ (.inl rfl)⟩
  rw [State.role, fld_def, rd_setFld_here, getField_putField_within _ _ _ _ (by decide) (Nat.zero_le _)
    (by simp only [Fld.PRT_AXIS_MAP_ROLES]; omega)]
  simp only [Fld.PRT_AXIS_MAP_ROLES, Nat.sub_zero]
  rw [Nat.pow_mul]
  exact role_digit v.toNat hk

theorem prtAxisMapWrite_rejected (h : ¬ takesAxisMap s v.toNat) : Completes (.prtAxisMapWrite 0 v) s (fun t =>
    t.fld Reg.PRT_AXIS_MAP Fld.PRT_AXIS_MAP_MAP_ERR = 1 ∧ counted Reg.PRT_MAP_ERR_CNT 1 s t ∧ (∀ k, k < 6 → t.role k = s.role k) ∧
    Near (fun off => off = Reg.PRT_AXIS_MAP ∨ off = Reg.PRT_MAP_ERR_CNT) s t) := by
  obtain ⟨hflag, hcount⟩ := raised_event (s.mapErrCleared (v.setWidth 64)) Reg.PRT_AXIS_MAP Fld.PRT_AXIS_MAP_MAP_ERR Reg.PRT_MAP_ERR_CNT (by decide)
  have hrd : (s.mapErrCleared (v.setWidth 64)).rd Reg.PRT_MAP_ERR_CNT = s.rd Reg.PRT_MAP_ERR_CNT := rd_setFld_ne _ _ (by decide)
  refine ⟨_, (exec_prtAxisMapWrite s v).trans (by rw [writeAxisMap_rejected (by rwa [toNat_setWidth_word])]), ?_,
    counted.of_rd hrd hcount, fun k hk => (role_of_mapErr hk hflag).trans (role_mapErrCleared s _ hk), ?_⟩
  · rw [fld_def, hflag, getField_putField _ _ _ (by decide)]
    rfl
  · exact ((near_mapErrCleared s _).mono fun _ => .inl).event _ _ _ (.inl (.inl rfl)) (.inl (.inr rfl))

end

end Sys2Proof.Machine
end

section
namespace Sys2Proof.Machine

/-- Settles O40, an event at a time: each lemma gives the state that the event leaves, from the rules of the port's operations. -/
theorem linkTraining : Obligations.LinkTraining := by
  unfold Obligations.LinkTraining
  refine ⟨?enable, ?others, ?appears, ?goneIdle, ?goneDown, ?detected, ?detectHeld, ?equalised, ?aligned, ?train, ?capsPass, ?capsFail,
    ?capsAck, ?ping, ?pong, ?timeout, ?retry, ?axisMap⟩
  case enable =>
    exact fun s u p v hb hu => ⟨portEnableWrite_starts hb hu, portEnableWrite_kept hb hu,
      fun hwas hen h0 h7 _ => portEnableWrite_down hb hu hwas hen h0 h7, portEnableWrite_idle hb hu⟩
  case others =>
    exact fun s b p v hb => ⟨congrArg Host.Outcome.next (if_neg hb), congrArg Host.Outcome.next (if_neg hb)⟩
  case appears =>
    exact fun s p m media length _ hmedia hread hcmis hrev hm hlen => modulePresenceChange_some hmedia hread hcmis hrev hm hlen
  case goneIdle => exact fun s p h => modulePresenceChange_none_idle h
  case goneDown => exact fun s p _ h => modulePresenceChange_none_down h
  case detected =>
    intro s p m lc preset h hdim hsome hnamed hfree
    refine detectDone_equalise h hdim hsome ?_
    rintro (⟨h10, hne⟩ | ⟨h10, hreq⟩)
    · exact hne (hnamed h10)
    · exact absurd ((hfree h10).symm.trans hreq) (by decide)
  case detectHeld => exact fun s p m _ h => detectDone_held h
  case equalised =>
    exact fun s p rx tx r x h hr hx => ⟨equaliseDone_aligns h hr hx, fun _ => equaliseDone_held h hr hx⟩
  case aligned =>
    exact fun s p rx tx r x h hrun hr hx => ⟨alignDone_negotiates h hrun hr hx, alignDone_short hr hx⟩
  case train => exact fun s p type stamp f hrun hf => sendTrain_running hrun p type stamp hf
  case capsPass =>
    exact fun s u p r a hu hneg hrun hmin hmax hdims hchip hrole => capsRx_passes hu hneg hrun hmin hmax hdims hchip hrole
  case capsFail => exact fun s u p r a hu hneg _ => capsRx_fails hu hneg
  case capsAck => exact fun s u v p a hu hneg hsent hwait hv => capsAckRx_pings hu hneg hsent hwait hv
  case ping => exact fun s u p stamp a hu hneg => pingRx_answers hu hneg
  case pong =>
    exact fun s u p stamp rtt a hu hneg hping => ⟨pongRx_passes hu hneg hping, fun hlt _ => pongRx_fails hu hneg hping hlt⟩
  case timeout => exact fun s p _ => trainStateTimeout_ends s p
  case retry => exact fun s p h0 hen hmod hboot => detectRetryTimer_starts h0 hen hmod hboot
  case axisMap =>
    refine fun s v => ⟨fun hperm hfree => prtAxisMapWrite_taken ⟨hperm, hfree⟩, fun hbad => prtAxisMapWrite_rejected ?_⟩
    rintro ⟨hperm, hfree⟩
    rcases hbad with ⟨d, hd, hmem⟩ | ⟨p, hp, hne, hbusy⟩
    · exact hmem (hperm d hd)
    · obtain ⟨hen, hst⟩ := (hfree p hp).resolve_left hne
      rcases hbusy with hen' | ⟨h0, h7⟩
      · exact Bool.false_ne_true (hen.symm.trans hen')
      · exact hst.elim h0 h7

end Sys2Proof.Machine
end

section
/-!
SUPPORT. What writing memory leaves alone of the ports: the link records, the packets at the outputs, the unit states, and the registers below
the memory controllers' (R138, R152, R218, R225, R389, R395).
-/
namespace Sys2Proof.Machine

variable {e : Nat → Prop} {s t u : State} {c : Nat}

/-! ### The frame -/

/-- The registers of the memory controllers and the clusters, and those that telling the outside touches. -/
def farFromPorts (off : Nat) : Prop := 0x200000 ≤ off ∨ notices off = true

/-- `t` has the link records, the packets at the outputs and the unit states of `s`, and its registers but those of `e`, the memory
controllers and the clusters. -/
structure Aside (e : Nat → Prop) (s t : State) : Prop where
  regs : ∀ off, ¬ e off → ¬ farFromPorts off → t.rd off = s.rd off
  links : t.links = s.links
  rout : t.rt.rout = s.rt.rout
  units : t.units = s.units

namespace Aside

theorem refl (e : Nat → Prop) (s : State) : Aside e s s := ⟨fun _ _ _ => rfl, rfl, rfl, rfl⟩

theorem trans (h : Aside e s t) (k : Aside e t u) : Aside e s u :=
  ⟨fun off he hf => (k.regs off he hf).trans (h.regs off he hf), k.links.trans h.links, k.rout.trans h.rout, k.units.trans h.units⟩

theorem mono {e' : Nat → Prop} (h : Aside e s t) (hs : ∀ off, e off → e' off) : Aside e' s t :=
  ⟨fun off he hf => h.regs off (fun x => he (hs off x)) hf, h.links, h.rout, h.units⟩

theorem wr (h : Aside e s t) {off : Nat} (v : BitVec 64) (he : e off ∨ farFromPorts off) : Aside e s (t.wr off v) :=
  h.trans ⟨fun _ ho hf => rd_wr_ne v (fun heq => he.elim (heq ▸ ho) (heq ▸ hf)), rfl, rfl, rfl⟩

theorem setFld (h : Aside e s t) {off : Nat} (f : Field) (n : Nat) (he : e off ∨ farFromPorts off) : Aside e s (t.setFld off f n) :=
  h.wr _ he

theorem cnt (h : Aside e s t) {off : Nat} (he : e off ∨ farFromPorts off) : Aside e s (t.cnt off) := h.setFld _ _ he

theorem event (h : Aside e s t) {st ct : Nat} (f : Field) (h1 : e st ∨ farFromPorts st) (h2 : e ct ∨ farFromPorts ct) :
    Aside e s (t.event st f ct) := (h.setFld f 1 h1).cnt h2

/-- A change of the state in other fields. -/
theorem of_fields (h : Aside e s t) (hregs : u.regs = t.regs) (hlinks : u.links = t.links) (hrt : u.rt = t.rt) (hunits : u.units = t.units) :
    Aside e s u :=
  h.trans ⟨fun off _ _ => by rw [State.rd, hregs]; rfl, hlinks, by rw [hrt], hunits⟩

theorem modCl (h : Aside e s t) (d : Nat) (f : Cluster → Cluster) : Aside e s (t.modCl d f) := h.of_fields rfl rfl rfl rfl

theorem tellKeeper (h : Aside e s t) (code a b : Nat) : Aside e s (t.tellKeeper code a b) := h.of_fields rfl rfl rfl rfl

theorem sendMirrorCtl (h : Aside e s t) (dst tag kind reason value : Nat) : Aside e s (t.sendMirrorCtl dst tag kind reason value) :=
  h.trans ⟨fun _ _ _ => rfl, rfl, rfl, rfl⟩

theorem setTr (h : Aside e s t) (x : Trust) : Aside e s { t with tr := x } := h.of_fields rfl rfl rfl rfl

theorem ite {p : Prop} [Decidable p] (h1 : Aside e s t) (h2 : Aside e s u) : Aside e s (if p then t else u) := by
  split <;> assumption

theorem foldl {β : Type} {f : State → β → State} {l : List β} (h : Aside e s t) (hf : ∀ x b, Aside e x (f x b)) :
    Aside e s (l.foldl f t) := by
  induction l generalizing t with
  | nil => exact h
  | cons b l ih => exact ih (h.trans (hf t b))

end Aside

theorem Noted.aside {e' : Nat → Prop} (h : Noted e' s t) (he : ∀ off, e' off → e off ∨ farFromPorts off) : Aside e s t := by
  obtain ⟨l, hl⟩ := h.sent
  have hlinks := congrArg State.links h.eq
  have hrout := congrArg Router.rout hl
  have hunits := congrArg State.units h.eq
  exact ⟨fun off ho hf => h.regs off (fun hx => (he off hx).elim ho hf) (Bool.eq_false_iff.mpr (fun hn => hf (.inr hn))), hlinks, hrout, hunits⟩

theorem Near.aside {e' : Nat → Prop} (h : Near e' s t) (he : ∀ off, e' off → e off ∨ farFromPorts off) : Aside e s t := h.noted.aside he

theorem SeqFrame.aside {e' : Nat → Prop} {d : Nat} (h : SeqFrame e' d s t) (he : ∀ off, e' off → e off ∨ farFromPorts off) : Aside e s t := by
  have hlinks := congrArg State.links h.eq
  have hrout := congrArg (fun x : State => x.rt.rout) h.eq
  have hunits := congrArg State.units h.eq
  exact ⟨fun off ho hf => h.regs off (fun hx => (he off hx).elim ho hf)
    (Bool.eq_false_iff.mpr (fun hn => hf (.inr (notices_of_observes hn)))), hlinks, hrout, hunits⟩

/-! ### Recording events -/

theorem aside_bumpClu (e : Nat → Prop) (s : State) (c src filt n : Nat) : Aside e s (s.bumpClu c src filt n) :=
  ((Near.refl (fun _ => False) s).bumpClu c src filt n).aside (fun _ => False.elim)

theorem aside_bumpGlb (e : Nat → Prop) (s : State) (src filt n : Nat) : Aside e s (s.bumpGlb src filt n) :=
  ((Near.refl (fun _ => False) s).bumpGlb src filt n).aside (fun _ => False.elim)

theorem aside_trace (e : Nat → Prop) (s : State) {v : Nat} (hv : v < 80) (ev obj dur : Nat) (peer : BitVec 64) :
    Aside e s (s.trace v ev obj dur peer) := ((Near.refl (fun _ => False) s).trace hv ev obj dur peer).aside (fun _ => False.elim)

theorem aside_trigger (e : Nat → Prop) (s : State) {v : Nat} (hv : v < 80) (source : Nat) : Aside e s (s.trigger v source) :=
  ((Near.refl (fun _ => False) s).trigger hv source).aside (fun _ => False.elim)

/-! ### Signals of tokens -/

theorem farFromPorts_seqToken (c i : Nat) : farFromPorts (Reg.SEQ_TOKEN c i) := .inl (by simp only [Reg.SEQ_TOKEN]; omega)

theorem farFromPorts_seqStatus (c : Nat) : farFromPorts (Reg.SEQ_STATUS c) := .inl (by simp only [Reg.SEQ_STATUS]; omega)

theorem farFromPorts_seqRegs {off : Nat} (h : seqRegs c off) : farFromPorts off := by
  rcases h with rfl | rfl | rfl | ⟨i, -, rfl⟩
  · exact .inl (by simp only [Reg.SEQ_INSN_CNT]; omega)
  · exact .inl (by simp only [Reg.SEQ_PC]; omega)
  · exact farFromPorts_seqStatus c
  · exact farFromPorts_seqToken c i

section
variable (e : Nat → Prop) (s : State) (hc : c < 64)
include hc

theorem aside_recordFault (f : FaultRec) (stay : Bool) : Aside e s (s.recordFault c f stay) := by
  have hten : s.seqTenant c ≤ 3 := Nat.le_of_lt_succ (Nat.mod_lt _ (by decide))
  have hrec : ∀ k w, farFromPorts (Reg.SEQ_FAULT_REC c k w) := fun k w => .inl (by simp only [Reg.SEQ_FAULT_REC]; omega)
  have hcnt : farFromPorts (Reg.SEQ_FAULT_CNT c) := .inl (by simp only [Reg.SEQ_FAULT_CNT]; omega)
  unfold State.recordFault
  extract_lets st k ten w0 put s0 s1 s2 s3 s4 s5 s6 s7 s8 s9 s10 s11 s12
  have hput : ∀ (x : State) (w v : Nat), Aside e s x → Aside e s (put x w v) := fun x w v hx => hx.wr _ (.inr (hrec k w))
  clear_value put
  have h7 : Aside e s s7 := by
    iterate 8 apply hput
    exact Aside.refl e s
  clear_value s7
  have h9 : Aside e s s9 := (h7.event _ (.inr (farFromPorts_seqStatus c)) (.inr hcnt)).tellKeeper _ _ _
  clear_value s9
  have h10 : Aside e s s10 :=
    Aside.ite h9 (h9.trans (((Noted.refl (fun _ => False) s9).evq hten _ _ _).aside (fun _ => False.elim)))
  clear_value s10
  have h12 : Aside e s s12 := (h10.trans (aside_trace e _ (by omega) _ _ _ _)).trans (aside_trigger e _ (by omega) _)
  clear_value s12
  exact Aside.ite h12 ((h12.modCl c _).setFld _ _ (.inr (farFromPorts_seqStatus c)))

theorem aside_addOne (k n : Nat) (peer : BitVec 64) : Aside e s (s.addOne c k n peer) := by
  have hadd : Aside e s ((s.tokenRaised c k n peer).bumpClu c 0x13 k 1) :=
    (((Aside.refl e s).setFld _ _ (.inr (farFromPorts_seqToken c k))).modCl c _).trans (aside_bumpClu e _ _ _ _ _)
  have htrig := Aside.ite (p := ((s.tokenRaised c k n peer).bumpClu c 0x13 k 1).fld Reg.TRC_CTL Fld.TRC_CTL_TRIGTOK = k)
    (hadd.trans (aside_trigger e _ (by omega : c < 80) 3)) hadd
  exact Aside.ite (Aside.refl e s) (Aside.ite (htrig.trans (aside_recordFault e _ hc _ _)) htrig)

theorem aside_addToken (k n : Nat) (peer : BitVec 64) : Aside e s (s.addToken c k n peer) :=
  Aside.ite (Aside.refl e s) ((aside_addOne e s hc _ _ _).trans (aside_addOne e _ hc _ _ _))

theorem aside_seqDone (q : QEntry) (pc : Nat) : Aside e s (s.seqDone c q pc) :=
  (((Aside.refl e s).modCl c _).trans (aside_addToken e _ hc _ _ _)).trans
    ((goto_record _ c pc).1.aside (fun _ h => .inr (farFromPorts_seqRegs h)))

theorem aside_releaseHold : Aside e s (s.releaseHold c) := by
  unfold State.releaseHold
  refine Aside.ite (Aside.refl e s) ?_
  split
  · have ht := fun k v dur peer => ((Aside.refl e s).setFld Fld.SEQ_TOKEN_COUNT v (.inr (farFromPorts_seqToken c k))).trans
      (aside_trace e _ (by omega : c < 80) 0x01 k dur peer)
    exact Aside.ite (((ht _ _ _ _).modCl c _).trans (aside_seqDone e _ hc _ _)) (Aside.refl e s)
  · have ht := fun dur => aside_trace e s (by omega : c < 80) 0x02 0 dur (peerWord (s.fld Reg.CAD_MASTER Fld.CAD_MASTER_CHIP) 0 6 0 0)
    exact Aside.ite ((Aside.ite ((ht _).modCl c _) ((ht _).modCl c _)).trans (aside_seqDone e _ hc _ _)) (Aside.refl e s)
  · exact Aside.ite (Aside.refl e s) (((Aside.refl e s).modCl c _).trans (aside_seqDone e _ hc _ _))
  · exact Aside.refl e s

theorem aside_signal (k n : Nat) (peer : BitVec 64) : Aside e s (s.signal c k n peer) :=
  (aside_addToken e s hc _ _ _).trans (aside_releaseHold e _ hc)

end

/-! ### Writes of memory -/

theorem aside_hbmDetect (e : Nat → Prop) (s : State) (dpa : Nat) : Aside e s (s.hbmDetect dpa) := by
  have hreg : ∀ i, farFromPorts (Reg.MEM_ERR_ADDR i) ∧ farFromPorts (Reg.MEM_STATUS i) ∧ farFromPorts (Reg.MEM_DET_CNT i) ∧
      farFromPorts (Reg.MEM_WHELD_CNT i) := by
    intro i
    refine ⟨.inl ?_, .inl ?_, .inl ?_, .inl ?_⟩ <;>
      simp only [Reg.MEM_ERR_ADDR, Reg.MEM_STATUS, Reg.MEM_DET_CNT, Reg.MEM_WHELD_CNT] <;> omega
  obtain ⟨haddr, hstat, hdet, hwheld⟩ := hreg ((hbmLocate s.retired dpa).1 % 8)
  have haddressed := (Aside.refl e s).wr (BitVec.ofNat 64 (dpa / 64 * 64 % 2 ^ 48 + (hbmLocate s.retired dpa).1 * 2 ^ 48)) (.inr haddr)
  have hdetect := (haddressed.event Fld.MEM_STATUS_DET (.inr hstat) (.inr hdet)).trans (aside_bumpGlb e _ 0x06 0 1)
  exact Aside.ite (hdetect.event _ (.inr hstat) (.inr hwheld)) hdetect

theorem aside_poke (e : Nat → Prop) (s : State) (a : Nat) (bs : List Byte) : Aside e s (s.poke a bs) := by
  rw [poke_eq]
  exact (Aside.refl e s).of_fields rfl rfl rfl rfl

theorem aside_writeBurst (e : Nat → Prop) (s : State) (a : Nat) (bs : List Byte) : Aside e s (s.writeBurst a bs).2 := by
  have hcnt : ∀ i, Aside e s (s.cnt (Reg.MEM_RMW_CNT i)) := fun i =>
    (Aside.refl e s).cnt (.inr (.inl (by simp only [Reg.MEM_RMW_CNT]; omega)))
  unfold State.writeBurst
  dsimp only
  split
  · split
    · exact aside_hbmDetect e s a
    · exact ((Aside.refl e s).of_fields (u := s.healBurst (a / 64)) rfl rfl rfl rfl).trans (aside_poke e _ a bs)
  · split
    · exact (hcnt _).trans (aside_hbmDetect e _ a)
    · exact (hcnt _).trans (aside_poke e _ a bs)

theorem aside_writeStage (e : Nat → Prop) (s : State) (c a : Nat) (bs : List Byte) : Aside e s (s.writeStage c a bs).2 := by
  unfold State.writeStage
  extract_lets kept old s1 s2 page s3
  have h1 : Aside e s s1 := (aside_poke e s a bs).foldl (fun x b => aside_poke e x b.1 b.2)
  have h3 : Aside e s s3 := (h1.of_fields (u := s2) rfl rfl rfl rfl).modCl c _
  exact (h3.trans (aside_bumpClu e s3 c _ _ _)).of_fields rfl rfl rfl rfl

theorem aside_writeMem (e : Nat → Prop) (s : State) (a : Nat) (bs : List Byte) : Aside e s (s.writeMem a bs).2 := by
  have hparts : ∀ (l : List (Nat × List Byte)) (x : WrErr × State), Aside e s x.2 → Aside e s
      (l.foldl (fun (acc : WrErr × State) p => (acc.1.or (acc.2.writeBurst p.1 p.2).1, (acc.2.writeBurst p.1 p.2).2)) x).2 := by
    intro l
    induction l with
    | nil => exact fun _ hx => hx
    | cons p l ih => exact fun x hx => ih _ (hx.trans (aside_writeBurst e x.2 p.1 p.2))
  have hbursts : ∀ (x : State) (src a n : Nat), Aside e x (x.countBursts src a n) := fun x _ _ _ =>
    (Aside.refl e x).foldl (fun y _ => aside_bumpGlb e y _ _ _)
  unfold State.writeMem
  split
  · exact Aside.refl e s
  · split
    · exact ((hparts _ _ (Aside.refl e s)).trans (hbursts _ _ _ _)).of_fields rfl rfl rfl rfl
    · exact aside_writeStage e s _ a bs
    · exact (Aside.refl e s).of_fields rfl rfl rfl rfl
    · exact Aside.refl e s

/-- The cluster that a push signals is a field of six bits (R395). -/
theorem aside_signalPush (e : Nat → Prop) (s : State) : Aside e s s.signalPush :=
  Aside.ite (aside_signal e s (Nat.mod_lt _ (by decide)) _ _ _) (Aside.refl e s)

theorem aside_endPush (e : Nat → Prop) (s : State) (result : Nat) : Aside e s (s.endPush result) := by
  unfold State.endPush
  split
  · exact Aside.refl e s
  · next p _ =>
    have hbank : farFromPorts (Reg.MEM_BANK_STATE p.bank) := .inl (by simp only [Reg.MEM_BANK_STATE]; omega)
    have hstat : farFromPorts Reg.MEM_TWIN_STATUS := .inl (by decide)
    have hfree : Aside e s { s with push := none } := (Aside.refl e s).of_fields rfl rfl rfl rfl
    have hend := ((hfree.setFld Fld.MEM_TWIN_STATUS_STATE 0 (.inr hstat)).setFld Fld.MEM_TWIN_STATUS_RESULT result (.inr hstat)).setFld
      Fld.MEM_BANK_STATE_PUSH 0 (.inr hbank)
    exact (Aside.ite (hend.cnt (.inr (.inl (by decide)))) (hend.event _ (.inr (.inl (by decide))) (.inr (.inl (by decide))))).trans
      (aside_signalPush e _)

theorem aside_abortPush (e : Nat → Prop) (s : State) (reason result : Nat) : Aside e s (s.abortPush reason result) := by
  unfold State.abortPush
  split
  · exact Aside.refl e s
  · exact (Aside.ite (Aside.refl e s) ((Aside.refl e s).sendMirrorCtl _ _ _ _ _)).trans (aside_endPush e _ _)

theorem aside_unsealBank (e : Nat → Prop) (s : State) (b : Nat) : Aside e s (s.unsealBank b) := by
  have hbank : farFromPorts (Reg.MEM_BANK_STATE b) := .inl (by simp only [Reg.MEM_BANK_STATE]; omega)
  have hopen := fun seals => ((aside_writeMem e s (s.bankBase b) (leBytes 8 0)).setFld Fld.MEM_BANK_STATE_STATE 0 (.inr hbank)).of_fields
    (u := { (s.writeMem (s.bankBase b) (leBytes 8 0)).2.setBank b 0 with seals := seals }) rfl rfl rfl rfl
  unfold State.unsealBank
  dsimp only
  split
  · exact Aside.ite ((hopen _).trans (aside_abortPush e _ _ _)) (hopen _)
  · exact hopen _

/-- A write of memory leaves the ports alone. -/
theorem aside_write (e : Nat → Prop) (s : State) (a : Nat) (bs : List Byte) : Aside e s (s.write a bs).2 := by
  have hunseal : Aside e s (s.unseal a bs.length) := Aside.ite (Aside.refl e s)
    ((Aside.refl e s).foldl (fun x b => Aside.ite (aside_unsealBank e x b) (Aside.refl e x)))
  exact hunseal.trans (aside_writeMem e _ a bs)

/-- A log entry moves the log's index, and leaves the ports alone (R456, R470). -/
theorem aside_logError (s : State) (x : LogEntry) (h : e Reg.GLB_ERR_LOG_IDX) : Aside e s (s.logError x) := by
  unfold State.logError
  split
  · exact Aside.refl e s
  · exact (((Aside.refl e s).of_fields (u := s.onBehalf 0) rfl rfl rfl rfl).trans (aside_write e _ _ _)).setFld _ _ (.inl h)

/-! ### Repair data -/

/-- The registers of the board identity and of the security block. -/
def idmSecRegs (off : Nat) : Prop := 0x28000 ≤ off ∧ off < 0x60000

theorem aside_putWords (s : State) {reg : Nat → Nat} {n : Nat} (bs : List Byte) (h : ∀ w, w < n → e (reg w)) : Aside e s (s.putWords reg n bs) := by
  have hfold : ∀ (l : List Nat) (u : State), (∀ w ∈ l, e (reg w)) → Aside e u
      (l.foldl (fun u w => u.wr (reg w) (BitVec.ofNat 64 (leNat ((bs.drop (8 * w)).take 8)))) u) := by
    intro l
    induction l with
    | nil => exact fun u _ => Aside.refl e u
    | cons w l ih => exact fun u hl => ((Aside.refl e u).wr _ (.inl (hl w (.head _)))).trans (ih _ (fun x hx => hl x (.tail _ hx)))
  exact hfold _ s (fun w hw => h w (List.mem_range.mp hw))

/-- A repair record touches the repair data, the security block and IDM_STATUS (R527, R552). -/
theorem aside_repairPut (s : State) (v n : Nat) : Aside idmSecRegs s (s.repairPut v n) := by
  have hextend : ∀ x : State, Aside idmSecRegs x (x.extend 4 5 0 {} (sm3 x.repairArea)) := by
    intro x
    unfold State.extend
    refine (((aside_putWords x _ (fun w hw => ?_)).trans (aside_putWords _ _ (fun w hw => ?_))).wr _ (.inl ?_)).of_fields rfl rfl rfl rfl
    · simp only [Reg.SEC_MEAS, idmSecRegs]; omega
    · simp only [Reg.SEC_LOG, idmSecRegs]; omega
    · simp only [Reg.SEC_LOG_IDX, idmSecRegs]; omega
  have hsigned : ∀ (x : State) (bs : List Byte) (y : Trust), Aside idmSecRegs x { (x.sign bs).2 with tr := y } := by
    intro x bs y
    rw [sign_state]
    exact (Aside.refl idmSecRegs x).of_fields rfl rfl rfl rfl
  unfold State.repairPut
  split
  · exact (Aside.refl idmSecRegs s).setFld _ _ (.inl (by simp only [Reg.IDM_STATUS, idmSecRegs]; omega))
  · exact (((Aside.refl idmSecRegs s).setTr _).trans (hsigned _ _ _)).trans (hextend _)

/-- A unit that changes its state (R462, R463). -/
theorem aside_unitChange (e : Nat → Prop) (s : State) (v : Nat) (r : UnitRec) (outcome cause : Nat) :
    Aside e { s with units := (s.unitChange v r outcome cause).units } (s.unitChange v r outcome cause) := by
  obtain ⟨hregs, hlinks, hrout, -⟩ := (noted_unitChange (fun _ => False) s v r outcome cause).aside (e := e) (fun _ => False.elim)
  exact ⟨hregs, hlinks, hrout, rfl⟩

theorem aside_retire (s : State) (v cause : Nat) : Aside idmSecRegs { s with units := (s.retire v cause).units } (s.retire v cause) := by
  have hrepair := aside_repairPut (s.unitChange v { s.unitOf v with state := 3, cond := false, untested := false } 2 cause) v 3
  have hchange := aside_unitChange idmSecRegs s v { s.unitOf v with state := 3, cond := false, untested := false } 2 cause
  obtain ⟨hregs, hlinks, hrout, -⟩ := hchange.trans hrepair
  exact ⟨hregs, hlinks, hrout, rfl⟩

end Sys2Proof.Machine
end

section
/-!
SUPPORT. A receive lane that fails is charged (R445, R453): the error is counted, the lane's unit retired, the port left as it is.
-/
namespace Sys2Proof.Machine

variable {e : Nat → Prop} {s t u : State}

/-- What charging an error to a unit that takes no test writes of the registers of the ports and below. -/
def chargedRegs (cls off : Nat) : Prop :=
  off = Reg.GLB_RAS_STATUS ∨ off = Reg.GLB_DETECT_CNT ∨ off = Reg.GLB_CLASS_CNT (cls - 1) ∨ off = Reg.GLB_ERR_LOG_IDX

/-- The ring of a lane's unit is its port's. -/
theorem unitRing_lane {v : Nat} (h : v / 2 ^ 28 = 9) : unitRing v < 80 := by
  have hcluster : unitCluster v = none := by simp only [unitCluster, h]
  unfold unitRing
  rw [hcluster, h]
  show 64 + v % 2 ^ 28 / 32 % 12 < 80
  omega

/-- Whatever becomes of its log entry, an error of a lane is counted, and its class too. -/
theorem charge_lane (s : State) {v : Nat} (h : v / 2 ^ 28 = 9) :
    counted Reg.GLB_DETECT_CNT 1 s (s.charge 7 v 0 0) ∧ counted (Reg.GLB_CLASS_CNT 6) 1 s (s.charge 7 v 0 0) ∧
      Aside (chargedRegs 7) s (s.charge 7 v 0 0) := by
  unfold State.charge
  extract_lets s1 s2 s3 s4 q log r s5 tests s6 rec
  have h1 : Aside (chargedRegs 7) s s1 := (Aside.refl _ s).event _ (.inl (.inl rfl)) (.inl (.inr (.inl rfl)))
  have hcount1 : counted Reg.GLB_DETECT_CNT 1 s s1 := (raised_event s _ _ _ (by decide)).2
  have hclass1 : s1.rd (Reg.GLB_CLASS_CNT 6) = s.rd (Reg.GLB_CLASS_CNT 6) := rd_event_ne _ (by decide) (by decide)
  clear_value s1
  have h2 : Aside (chargedRegs 7) s s2 := h1.cnt (.inl (.inr (.inr (.inl rfl))))
  have hcount2 : counted Reg.GLB_DETECT_CNT 1 s s2 := (rd_cnt_ne (by decide)).trans hcount1
  have hclass2 : counted (Reg.GLB_CLASS_CNT 6) 1 s s2 := by
    unfold counted
    rw [← hclass1, ← fld_of_rd _ hclass1]
    exact rd_cnt_here s1 _
  clear_value s2
  have h24 : Aside (fun _ => False) s2 s4 := (aside_trace _ s2 (by decide) _ _ _ _).trans (aside_trigger _ s3 (unitRing_lane h) 2)
  clear_value s4
  have hend : ∀ x, Aside (· = Reg.GLB_ERR_LOG_IDX) s4 x →
      counted Reg.GLB_DETECT_CNT 1 s x ∧ counted (Reg.GLB_CLASS_CNT 6) 1 s x ∧ Aside (chargedRegs 7) s x := by
    intro x hx
    have h2x := (h24.mono fun _ => False.elim).trans hx
    exact ⟨(h2x.regs _ (by decide) (by unfold farFromPorts; decide)).trans hcount2,
      (h2x.regs _ (by decide) (by unfold farFromPorts; decide)).trans hclass2, h2.trans (h2x.mono fun _ hoff => .inr (.inr (.inr hoff)))⟩
  split
  · exact hend _ (aside_logError s4 _ rfl)
  · rw [if_pos (.inl h)]
    exact hend _ (Aside.refl _ s4)

/-- An outcome is counted, and leaves the ports alone. -/
theorem outcome_counted (s : State) (q : TestReq) (bit code : Nat) (res : TestResult) {ctr : Nat}
    (h : ctr ≠ Reg.GLB_RAS_STATUS ∧ ctr ≠ Reg.GLB_ERR_LOG_IDX) (hf : ¬ farFromPorts ctr) : counted ctr 1 s (s.outcome q bit ctr code res) ∧
      Aside (fun off => off = Reg.GLB_RAS_STATUS ∨ off = ctr ∨ off = Reg.GLB_ERR_LOG_IDX) s (s.outcome q bit ctr code res) := by
  obtain ⟨hras, hlog⟩ := h
  unfold State.outcome
  extract_lets s1
  have hcount : counted ctr 1 s s1 := (raised_event s _ _ _ hras.symm).2
  have h1 : Aside (fun off => off = Reg.GLB_RAS_STATUS ∨ off = ctr ∨ off = Reg.GLB_ERR_LOG_IDX) s s1 :=
    (Aside.refl _ s).event _ (.inl (.inl rfl)) (.inl (.inr (.inl rfl)))
  clear_value s1
  exact ⟨((aside_logError (e := (· = Reg.GLB_ERR_LOG_IDX)) s1 _ rfl).regs _ hlog hf).trans hcount,
    h1.trans (aside_logError s1 _ (.inr (.inr rfl)))⟩

/-- What a charged lane leaves: the unit retired, one of the two outcomes counted, the ports as they were. -/
structure LaneCharged (v ctr : Nat) (s t : State) : Prop where
  detect : counted Reg.GLB_DETECT_CNT 1 s t
  cls : counted (Reg.GLB_CLASS_CNT 6) 1 s t
  unit : t.unitState v = 3
  outcome : counted ctr 1 s t
  links : t.links = s.links
  rd : ∀ q off, q < 12 → 0x110000 + 0x10000 * q ≤ off → off < 0x110900 + 0x10000 * q → t.rd off = s.rd off
  rout : t.rt.rout = s.rt.rout

theorem laneCharged_outcome {v ctr bit code : Nat} {z : State} (h : v / 2 ^ 28 = 9) (q : TestReq) (res : TestResult)
    (hz : Aside idmSecRegs { s.charge 7 v 0 0 with units := z.units } z) (hunit : z.unitState v = 3)
    (hctr : ctr = Reg.GLB_PERMANENT_CNT ∨ ctr = Reg.GLB_TRANSIENT_CNT) : LaneCharged v ctr s (z.outcome q bit ctr code res) := by
  obtain ⟨hdetect, hclass, hs⟩ := charge_lane s h
  have hctrs : (ctr ≠ Reg.GLB_RAS_STATUS ∧ ctr ≠ Reg.GLB_ERR_LOG_IDX) ∧ ¬ farFromPorts ctr ∧ ¬ idmSecRegs ctr ∧ ¬ chargedRegs 7 ctr ∧
      ctr ≠ Reg.GLB_DETECT_CNT ∧ ctr ≠ Reg.GLB_CLASS_CNT 6 := by
    rcases hctr with rfl | rfl <;> unfold farFromPorts idmSecRegs chargedRegs <;> decide
  obtain ⟨hother, hfar, hidm, hcharged, hneDetect, hneClass⟩ := hctrs
  obtain ⟨hcount, ht⟩ := outcome_counted z q bit code res hother hfar
  have hrd : ∀ off, ¬ idmSecRegs off → ¬ farFromPorts off → z.rd off = (s.charge 7 v 0 0).rd off := fun off h1 h2 => hz.regs off h1 h2
  generalize s.charge 7 v 0 0 = y at *
  generalize z.outcome q bit ctr code res = t at *
  have hkept : ∀ off, off ≠ ctr → ¬ chargedRegs 7 off ∨ off = Reg.GLB_DETECT_CNT ∨ off = Reg.GLB_CLASS_CNT 6 → ¬ idmSecRegs off →
      ¬ farFromPorts off → t.rd off = y.rd off := by
    intro off hne he hi hf
    refine (ht.regs off ?_ hf).trans (hrd off hi hf)
    rintro (rfl | rfl | rfl)
    · exact he.elim (fun hn => hn (.inl rfl)) (by decide)
    · exact hne rfl
    · exact he.elim (fun hn => hn (.inr (.inr (.inr rfl)))) (by decide)
  exact {
    detect := (hkept _ hneDetect.symm (.inr (.inl rfl)) (by unfold idmSecRegs; decide) (by unfold farFromPorts; decide)).trans hdetect
    cls := (hkept _ hneClass.symm (.inr (.inr rfl)) (by unfold idmSecRegs; decide) (by unfold farFromPorts; decide)).trans hclass
    unit := by
      rw [State.unitState, State.unitOf, ht.units]
      exact hunit
    outcome := counted.of_rd ((hrd _ hidm hfar).trans (hs.regs _ hcharged hfar)) hcount
    links := ht.links.trans (hz.links.trans hs.links)
    rd := by
      intro q off hq hlo hhi
      have hn : notices off = false := by
        obtain ⟨d, rfl⟩ := Nat.exists_eq_add_of_le hlo
        have hd := notices_portReg hq (d := d) (by omega)
        rwa [show 0x110000 + 0x10000 * q + d = 0x110000 + d + 0x10000 * q by omega]
      have hfar : ¬ farFromPorts off := by
        rintro (hf | hf)
        · omega
        · exact Bool.false_ne_true (hn.symm.trans hf)
      have hout : ∀ n, n < 0x110000 → off ≠ n := by omega
      have hcharged : ¬ chargedRegs 7 off := by
        rintro (h | h | h | h) <;> exact hout _ (by decide) h
      refine (hkept off ?_ (.inl hcharged) (fun hi => by unfold idmSecRegs at hi; omega) hfar).trans (hs.regs off hcharged hfar)
      rcases hctr with rfl | rfl <;> exact hout _ (by decide)
    rout := ht.rout.trans (hz.rout.trans hs.rout) }

/-- Whether a lane fails again within COND_WINDOW of its last failure (R453). -/
def failsAgain (s : State) (v : Nat) : Bool :=
  match (s.unitOf v).last with
  | some x => decide (s.now - x ≤ s.condWindow)
  | none => false

/-- A lane that fails is charged as TRANSIENT, and as PERMANENT where it fails again. -/
theorem chargeLane_charged (s : State) {p lane : Nat} (hp : p < 12) (hlane : lane < 11) : LaneCharged (unitId 9 (p * 32 + 16 + lane))
    (if failsAgain s (unitId 9 (p * 32 + 16 + lane)) then Reg.GLB_PERMANENT_CNT else Reg.GLB_TRANSIENT_CNT) s (s.chargeLane p lane) := by
  have hunit : unitId 9 (p * 32 + 16 + lane) / 2 ^ 28 = 9 := by unfold unitId; omega
  unfold State.chargeLane
  extract_lets v r again s1 q res
  have hagain : again = failsAgain s (unitId 9 (p * 32 + 16 + lane)) := rfl
  rw [← hagain]
  clear_value again
  split
  · exact laneCharged_outcome hunit q res (aside_retire _ _ _) (by rw [unitState_retire]; exact if_pos rfl) (.inl rfl)
  · exact laneCharged_outcome hunit q res (aside_unitChange _ _ _ _ _ _) (by rw [unitState_unitChange]; exact if_pos rfl) (.inr rfl)

theorem failsAgain_some {v x : Nat} (h : (s.unitOf v).last = some x) (hx : s.now - x ≤ s.condWindow) : failsAgain s v = true := by
  unfold failsAgain
  rw [h]
  exact decide_eq_true hx

theorem failsAgain_none {v : Nat} (h : (s.unitOf v).last = none) : failsAgain s v = false := by
  unfold failsAgain
  rw [h]

end Sys2Proof.Machine
end

section
/-!
SUPPORT. Link-management messages and the spare switch (R287, R294, R303, R304, R307).
-/
namespace Sys2Proof.Machine

variable {e : Nat → Prop} {s t u : State} {p : Fin 12}

/-! ### Flit slots and messages -/

/-- A slot counts, and changes nothing of the port but its slot number (R339, R489). -/
theorem slotTick_runs (s : State) (p : Fin 12) (cycles : Nat) : (s.slotTick p cycles).stopped = s.stopped := by
  have hcount : Near (fun _ => False) s
      (((List.range 5).filter (s.stalls p)).foldl (fun (s : State) tc => s.bumpPrt p 6 (tc + 1) cycles) (s.bumpPrt p 1 0 cycles)) :=
    ((Near.refl (fun _ => False) s).bumpPrt p.isLt 1 0 cycles).foldl (fun x tc _ => (Near.refl _ x).bumpPrt p.isLt 6 (tc + 1) cycles)
  have hstop := hcount.linked.stopped
  exact hstop

/-- An LMF carries every message not yet acknowledged. -/
theorem lmfSlot_sends {cycles : Nat} (h5 : s.linkState p = 5) (hu : u = s.slotTick p cycles) (hfresh : ∀ n ∈ (u.link p).notes, n.sent < 64)
    (hrun : s.stopped = false) : Completes (.lmfSlot p cycles) s (fun t =>
      ∃ f : LinkFlit, f = .lmf (u.link p).head (u.link p).notes (u.link p).acks ∧ t.out = u.out ++ [.link p f] ∧
      t.link p = { (u.link p).push f with
        notes := (u.link p).notes.map (fun (n : LinkNote) => { n with sent := n.sent + 1 }), acks := [] } ∧
      Near (fun _ => False) { u with links := t.links, out := t.out } t) := by
  have hstop : u.stopped = false := (hu ▸ slotTick_runs s p cycles : u.stopped = s.stopped).trans hrun
  have hany : (u.link p).notes.any (fun (n : LinkNote) => Nat.ble 64 n.sent) = false := by
    rw [List.any_eq_false]
    intro n hn
    have := hfresh n hn
    simp only [Nat.ble_eq]
    omega
  obtain ⟨f, hf⟩ : ∃ f : LinkFlit, f = .lmf (u.link p).head (u.link p).notes (u.link p).acks := ⟨_, rfl⟩
  have hexec : exec (.lmfSlot p cycles) s = .next (((u.sendFlit p f).bumpPrt p 5 0 1).modLink p
      (fun l => { l with notes := l.notes.map (fun (n : LinkNote) => { n with sent := n.sent + 1 }), acks := [] })) := by
    refine congrArg Host.Outcome.next ?_
    unfold State.lmfSlot
    rw [if_neg (by rw [hrun]; simp [h5]), ← hu, if_neg (by rw [hany]; exact Bool.false_ne_true), ← hf]
  rw [sendFlit_running hstop] at hexec
  have hsent : Linked (fun _ => False) u ((u.modLink p (fun l => l.push f)).say (.link p f)) := (linked_modLink _ u p _).trans (linked_say _ _ _)
  have hsentOut : ((u.modLink p (fun l => l.push f)).say (.link p f)).out = u.out ++ [.link p f] := by rw [State.say_out, modLink_out]
  have hsentLink : ((u.modLink p (fun l => l.push f)).say (.link p f)).link p = (u.link p).push f := by rw [link_say, link_modLink_here]
  generalize (u.modLink p (fun l => l.push f)).say (.link p f) = x at *
  have hcount := (Near.refl (fun _ => False) x).bumpPrt p.isLt 5 0 1
  have hcountOut := congrArg State.out hcount.eq
  have hcountLinks := congrArg State.links hcount.eq
  have hcountLink : (x.bumpPrt p 5 0 1).link p = (u.link p).push f := (link_of_links hcountLinks p).trans hsentLink
  have hframe := hsent.trans hcount.linked
  generalize x.bumpPrt p 5 0 1 = y at *
  refine ⟨_, hexec, f, hf, ?_, ?_, hframe.modLink p _⟩
  · rw [modLink_out]
    exact hcountOut.trans hsentOut
  · rw [link_modLink_here _ p (fun l => { l with notes := l.notes.map (fun (n : LinkNote) => { n with sent := n.sent + 1 }), acks := [] }),
      hcountLink]
    have hnotes := congrArg Link.notes (push_eq (u.link p) f)
    rw [hnotes]

theorem lmfSlot_retrains {cycles : Nat} (h5 : s.linkState p = 5) (hu : u = s.slotTick p cycles) (hold : ∃ n ∈ (u.link p).notes, 64 ≤ n.sent)
    (hrun : s.stopped = false) : exec (.lmfSlot p cycles) s = .next (u.startRetrain p) := by
  have hany : (u.link p).notes.any (fun (n : LinkNote) => Nat.ble 64 n.sent) = true := by
    obtain ⟨n, hn, hle⟩ := hold
    exact List.any_eq_true.mpr ⟨n, hn, Nat.ble_eq.mpr hle⟩
  refine congrArg Host.Outcome.next ?_
  unfold State.lmfSlot
  rw [if_neg (by rw [hrun]; simp [h5]), ← hu, if_pos hany]

/-- The acknowledgements of the next LMF once a message has arrived. -/
theorem acks_contains (l : List (BitVec 16)) (n : BitVec 16) : (if l.contains n then l else l ++ [n]) = if n ∈ l then l else l ++ [n] :=
  if_congr List.contains_iff_mem rfl rfl

theorem link_ackNote (s : State) (q : Nat) (n : BitVec 16) : (s.ackNote q n).link q = { s.link q with
    acks := if n ∈ (s.link q).acks then (s.link q).acks else (s.link q).acks ++ [n] } := by
  rw [State.ackNote, link_modLink_here s q (fun l => { l with acks := if l.acks.contains n then l.acks else l.acks ++ [n] }), acks_contains]

theorem link_queueNote (s : State) (q : Nat) (m : LinkMsg) : (s.queueNote q m).link q = { s.link q with
    notes := (s.link q).notes ++ [{ num := (s.link q).nextNote, msg := m }], nextNote := (s.link q).nextNote + 1 } :=
  link_modLink_here s q (fun l => { l with notes := l.notes ++ [{ num := l.nextNote, msg := m }], nextNote := l.nextNote + 1 })

/-! ### The spare switch, up to the switch -/

/-- A state that differs in the link records alone, as one more link record changes. -/
theorem modLink_links (h : t = { s with links := t.links }) (q : Nat) (f : Link → Link) :
    t.modLink q f = { s with links := (t.modLink q f).links } := by
  have heq : t.modLink q f = { t with links := (t.modLink q f).links } := rfl
  rw [heq, h]

/-- A message that has arrived changes the link record alone. -/
theorem ackNote_kept (s : State) (q : Nat) (n : BitVec 16) : s.ackNote q n = { s with links := (s.ackNote q n).links } ∧
    (∀ tx, (s.ackNote q n).spareLane q tx = s.spareLane q tx) ∧ (s.ackNote q n).txLanes q = s.txLanes q := by
  have hrd : ∀ off, (s.ackNote q n).rd off = s.rd off := rd_modLink s q _
  exact ⟨rfl, spareLane_of_rd (hrd _) (hrd _), txLanes_of_rd (hrd _)⟩

section
variable {n : BitVec 16} {lane : Fin 11} {cw : BitVec 64} {a : LinkAck} (hu : u = s.hearAck p a) (h5 : u.linkState p = 5)
include hu h5

/-- SPARE_REQ is answered by a switch 1,024 codewords ahead. -/
theorem spareReqRx_switches {sp : Nat} (hsp : u.spareLane p true = some sp) (hfree : (u.link p).txSwitch = none)
    (hlane : lane.val ∈ u.txLanes p) : Completes (.spareReqRx p n lane cw a) s (fun t => t.link p = { u.link p with
        acks := if n ∈ (u.link p).acks then (u.link p).acks else (u.link p).acks ++ [n]
        txSwitch := some (Switch.mk lane sp (some (cw + 1024)) false)
        notes := (u.link p).notes ++ [{ num := (u.link p).nextNote, msg := .spareSwitch lane (cw + 1024) }]
        nextNote := (u.link p).nextNote + 1 } ∧ t = { u with links := t.links }) := by
  subst hu
  generalize hx : s.hearAck p a = x at *
  have hacked := link_ackNote x p n
  obtain ⟨heq, hspare, hlanes⟩ := ackNote_kept x p n
  have hexec : exec (.spareReqRx p n lane cw a) s = .next (((x.ackNote p n).modLink p (fun l => { l with
      txSwitch := some (Switch.mk lane sp (some (cw + 1024)) false) })).queueNote p (.spareSwitch lane (cw + 1024))) := by
    have hswitch : ((x.ackNote p n).link p).txSwitch = none := by rw [hacked]; exact hfree
    refine congrArg Host.Outcome.next ?_
    rw [hx]
    unfold State.spareReqRx
    rw [if_neg (not_not.mpr h5)]
    simp only [hspare, hsp, hswitch]
    rw [if_neg (by rw [hlanes, Bool.not_eq_true', Bool.not_eq_false, List.contains_iff_mem]; exact hlane)]
  generalize x.ackNote p n = y at *
  refine ⟨_, hexec, ?_, modLink_links (modLink_links heq p _) p _⟩
  rw [link_queueNote, link_modLink_here y p (fun l => { l with txSwitch := some (Switch.mk lane sp (some (cw + 1024)) false) }), hacked]

theorem spareReqRx_acks (h : u.spareLane p true = none ∨ (u.link p).txSwitch ≠ none ∨ lane.val ∉ u.txLanes p) :
    exec (.spareReqRx p n lane cw a) s = .next (u.ackNote p n) := by
  subst hu
  have hacked := link_ackNote (s.hearAck p a) p n
  obtain ⟨-, hspare, hlanes⟩ := ackNote_kept (s.hearAck p a) p n
  have hswitch : (((s.hearAck p a).ackNote p n).link p).txSwitch = ((s.hearAck p a).link p).txSwitch := by rw [hacked]
  refine congrArg Host.Outcome.next ?_
  unfold State.spareReqRx
  rw [if_neg (not_not.mpr h5)]
  dsimp only
  rw [hspare, hswitch]
  split
  · next sp hsome hnone =>
    refine if_pos ?_
    rw [hlanes, Bool.not_eq_true', Bool.eq_false_iff, ne_eq, List.contains_iff_mem]
    rcases h with h | h | h
    · exact absurd (h.symm.trans hsome) (by simp)
    · exact absurd hnone h
    · exact h
  · rfl

/-- SPARE_SWITCH names the codeword of the switch that the receiver waits for. -/
theorem spareSwitchRx_names {w : Switch} (hw : (u.link p).rxSwitch = some w) (hlane : w.lane = lane) :
    Completes (.spareSwitchRx p n lane cw a) s (fun t => t.link p = { u.link p with
        acks := if n ∈ (u.link p).acks then (u.link p).acks else (u.link p).acks ++ [n]
        rxSwitch := some { w with codeword := some cw } } ∧ t = { u with links := t.links }) := by
  subst hu
  have hacked := link_ackNote (s.hearAck p a) p n
  refine ⟨(s.hearAck p a).spareSwitchRx p n lane cw, rfl, ?_, ?_⟩
  · unfold State.spareSwitchRx
    rw [if_neg (not_not.mpr h5)]
    dsimp only
    rw [link_modLink_here, hacked, hw]
    dsimp only
    rw [if_pos hlane]
  · unfold State.spareSwitchRx
    rw [if_neg (not_not.mpr h5)]
    rfl

end

/-! ### The switch in each direction -/

/-- The spare of a direction is in use: its flag falls, SPARED is set and counted (R303). -/
def State.spared (s : State) (p : Nat) (tx : Bool) : State :=
  (s.setSpare p tx false).event (Reg.PRT_STATUS p) Fld.PRT_STATUS_SPARED (Reg.PRT_SPARE_CNT p)

/-- What of a port the use of its spare shows. -/
theorem spared_shows (s : State) (p : Fin 12) (tx : Bool) :
    (s.spared p tx).rd (Reg.PRT_STATUS p) = putField (putField (s.rd (Reg.PRT_STATUS p)) (spareField tx) 0) Fld.PRT_STATUS_SPARED 1 ∧
    (s.spared p tx).rd (Reg.PRT_LANES p) = s.rd (Reg.PRT_LANES p) ∧ counted (Reg.PRT_SPARE_CNT p) 1 s (s.spared p tx) ∧
    (s.spared p tx).links = s.links ∧ (s.spared p tx).out = s.out ∧
    Linked (fun off => off = Reg.PRT_LANES p ∨ off = Reg.PRT_STATUS p ∨ off = Reg.PRT_SPARE_CNT p) s (s.spared p tx) := by
  obtain ⟨hflag, hcount⟩ := raised_event (s.setSpare p tx false) (Reg.PRT_STATUS p) Fld.PRT_STATUS_SPARED (Reg.PRT_SPARE_CNT p) (by simp)
  have hcnt : (s.setSpare p tx false).rd (Reg.PRT_SPARE_CNT p) = s.rd (Reg.PRT_SPARE_CNT p) := rd_setFld_ne _ _ (by simp)
  refine ⟨hflag.trans (by rw [rd_status_setSpare]; rfl), (rd_event_ne _ (by simp) (by simp)).trans (rd_lanes_setSpare s p tx false),
    counted.of_rd hcnt hcount, rfl, rfl, ?_⟩
  refine ((linked_setSpare s p tx false).mono ?_).event _ (.inr (.inl rfl)) (.inr (.inr rfl))
  rintro off (h | h)
  · exact .inl h
  · exact .inr (.inl h)

/-- The flags of a port after its spare has come into use. -/
theorem spared_flags {tx : Bool} {w : BitVec 64} (h : t.rd (Reg.PRT_STATUS p) = putField (putField w (spareField tx) 0) Fld.PRT_STATUS_SPARED 1) :
    t.fld (Reg.PRT_STATUS p) Fld.PRT_STATUS_SPARED = 1 ∧ t.spareLane p tx = none ∧ t.linkState p = getField w Fld.PRT_STATUS_STATE := by
  refine ⟨?_, spareLane_none ?_, ?_⟩
  · rw [fld_def, h, getField_putField _ _ _ (by decide)]
    rfl
  · rw [spareBit_def, h, getField_putField_ne _ _ _ _ (by decide) (by cases tx <;> decide), getField_putField _ _ _ (spareField_fits tx),
      spareField_width]
    rfl
  · rw [linkState_def, h, getField_putField_ne _ _ _ _ (by decide) (by decide),
      getField_putField_ne _ _ _ _ (spareField_fits tx) (by cases tx <;> decide)]

/-- The link state lies apart from the lane counts of PRT_STATUS. -/
theorem linkState_setTxLanes (s : State) (q : Nat) (l : List Nat) : (s.setTxLanes q l).linkState q = s.linkState q := by
  rw [linkState_def, rd_status_setTxLanes, getField_putField_ne _ _ _ _ (by decide) (by decide)]
  rfl

theorem linkState_setRxLanes (s : State) (q : Nat) (l : List Nat) : (s.setRxLanes q l).linkState q = s.linkState q := by
  rw [linkState_def, rd_status_setRxLanes, getField_putField_ne _ _ _ _ (by decide) (by decide)]
  rfl

theorem txLanes_setTxLanes (s : State) (q : Nat) (l : List Nat) : (s.setTxLanes q l).txLanes q = laneBits (laneMask l) := by
  rw [txLanes_def, rd_lanes_setTxLanes, getField_putField _ _ _ (by decide)]
  exact congrArg laneBits (laneMask_mod l)

theorem rxLanes_setRxLanes (s : State) (q : Nat) (l : List Nat) : (s.setRxLanes q l).rxLanes q = laneBits (laneMask l) := by
  rw [rxLanes_def, rd_lanes_setRxLanes, getField_putField _ _ _ (by decide)]
  exact congrArg laneBits (laneMask_mod l)

theorem rd_spareCnt_setTxLanes (s : State) (q : Nat) (l : List Nat) : (s.setTxLanes q l).rd (Reg.PRT_SPARE_CNT q) = s.rd (Reg.PRT_SPARE_CNT q) :=
  (rd_setFld_ne _ _ (by simp)).trans ((rd_setFld_ne _ _ (by simp)).trans (rd_modLink _ _ _ _))

theorem rd_spareCnt_setRxLanes (s : State) (q : Nat) (l : List Nat) : (s.setRxLanes q l).rd (Reg.PRT_SPARE_CNT q) = s.rd (Reg.PRT_SPARE_CNT q) :=
  (rd_setFld_ne _ _ (by simp)).trans ((rd_setFld_ne _ _ (by simp)).trans (rd_modLink _ _ _ _))

/-- What stands in a port's own registers is as it was before its unit state follows. -/
theorem portUnit_kept (s : State) (p : Fin 12) : (s.portUnit p).rd (Reg.PRT_STATUS p) = s.rd (Reg.PRT_STATUS p) ∧
    (s.portUnit p).rd (Reg.PRT_LANES p) = s.rd (Reg.PRT_LANES p) ∧ (s.portUnit p).rd (Reg.PRT_SPARE_CNT p) = s.rd (Reg.PRT_SPARE_CNT p) ∧
    (s.portUnit p).links = s.links := by
  obtain ⟨h, hlinks⟩ := told_portUnit (fun _ => False) s p
  exact ⟨h.rd not_false (notices_prtStatus p.isLt), h.rd not_false (notices_prtLanes p.isLt), h.rd not_false (notices_prtSpareCnt p.isLt), hlinks⟩

theorem spareSwitchApply_tx {w : Switch} {cw : BitVec 64} (h5 : s.linkState p = 5) (hw : (s.link p).txSwitch = some w) (hdone : w.done = false)
    (hcw : w.codeword = some cw) : Completes (.spareSwitchApply p true) s (fun t =>
      (t.link p).txPos = (s.link p).txPos.map (fun i => if i = w.lane then w.spare else i) ∧
      t.txLanes p = laneBits (laneMask ((s.link p).txPos.map (fun i => if i = w.lane then w.spare else i))) ∧
      t.fld (Reg.PRT_STATUS p) Fld.PRT_STATUS_SPARED = 1 ∧ counted (Reg.PRT_SPARE_CNT p) 1 s t ∧ t.spareLane p true = none ∧
      (t.link p).txSwitch = some { w with done := true } ∧ t.linkState p = 5 ∧
      Noted (fun off => off = Reg.PRT_LANES p ∨ off = Reg.PRT_STATUS p ∨ off = Reg.PRT_SPARE_CNT p)
        { s with links := t.links, units := t.units, lastChange := t.lastChange } t) := by
  obtain ⟨l, hl⟩ : ∃ l, l = (s.link p).txPos.map (fun i => if i = w.lane then w.spare else i) := ⟨_, rfl⟩
  have hexec : exec (.spareSwitchApply p true) s = .next
      ((((s.setTxLanes p l).modLink p (fun k => { k with txSwitch := some { w with done := true } })).spared p true).portUnit p) := by
    refine congrArg Host.Outcome.next ?_
    unfold State.spareApply
    rw [if_neg (not_not.mpr h5), if_pos rfl]
    simp only [hw]
    rw [if_neg (by rw [hdone, hcw]; simp), hl]
    rfl
  refine ⟨_, hexec, ?_⟩
  rw [← hl]
  have hxlink := link_modLink_here (s.setTxLanes p l) p (fun k => { k with txSwitch := some { w with done := true } })
  rw [link_setTxLanes] at hxlink
  have hxrd := rd_modLink (s.setTxLanes p l) p (fun k => { k with txSwitch := some { w with done := true } })
  have hxframe := (linked_setTxLanes s p l).modLink p (fun k => { k with txSwitch := some { w with done := true } })
  have hxout : ((s.setTxLanes p l).modLink p (fun k => { k with txSwitch := some { w with done := true } })).out = s.out := by
    rw [modLink_out]
    rfl
  generalize (s.setTxLanes p l).modLink p (fun k => { k with txSwitch := some { w with done := true } }) = x at *
  obtain ⟨hyword, hylanes, hycount, hylinks, hyout, hyframe⟩ := spared_shows x p true
  have hylink := (link_of_links hylinks p).trans hxlink
  generalize x.spared p true = y at *
  obtain ⟨htword, htlanes, htcount, htlinks⟩ := portUnit_kept y p
  obtain ⟨htold, -⟩ := told_portUnit (fun off => off = Reg.PRT_LANES p ∨ off = Reg.PRT_STATUS p ∨ off = Reg.PRT_SPARE_CNT p) y p
  have htlink := (link_of_links htlinks p).trans hylink
  obtain ⟨hspared, hspare, hstate⟩ := spared_flags (htword.trans hyword)
  refine ⟨by rw [htlink], (txLanes_of_rd (htlanes.trans (hylanes.trans (hxrd _)))).trans (txLanes_setTxLanes s p l), hspared,
    htcount.trans (counted.of_rd ((hxrd _).trans (rd_spareCnt_setTxLanes s p l)) hycount), hspare, by rw [htlink], ?_, ?_⟩
  · rw [hstate, hxrd, ← linkState_def, linkState_setTxLanes, h5]
  · have hxy := (hxframe.mono (e' := fun off => off = Reg.PRT_LANES p ∨ off = Reg.PRT_STATUS p ∨ off = Reg.PRT_SPARE_CNT p)
      (by rintro off (h | h); exacts [.inl h, .inr (.inl h)])).trans hyframe
    exact (hxy.told ⟨[], by rw [hyout, hxout, List.append_nil]⟩).trans htold

theorem spareSwitchApply_rx {w : Switch} {cw : BitVec 64} (h5 : s.linkState p = 5) (hw : (s.link p).rxSwitch = some w)
    (hcw : w.codeword = some cw) (hfailed : (s.link p).failed = []) : Completes (.spareSwitchApply p false) s (fun t =>
      (t.link p).rxPos = (s.link p).rxPos.map (fun i => if i = w.lane then w.spare else i) ∧
      t.rxLanes p = laneBits (laneMask ((s.link p).rxPos.map (fun i => if i = w.lane then w.spare else i))) ∧
      t.fld (Reg.PRT_STATUS p) Fld.PRT_STATUS_SPARED = 1 ∧ counted (Reg.PRT_SPARE_CNT p) 1 s t ∧ t.spareLane p false = none ∧
      (t.link p).rxSwitch = none ∧ (t.link p).notes = (s.link p).notes ++ [{ num := (s.link p).nextNote, msg := .spareAck }] ∧
      t.linkState p = 5 ∧ Noted (fun off => off = Reg.PRT_LANES p ∨ off = Reg.PRT_STATUS p ∨ off = Reg.PRT_SPARE_CNT p)
        { s with links := t.links, units := t.units, lastChange := t.lastChange } t) := by
  obtain ⟨l, hl⟩ : ∃ l, l = (s.link p).rxPos.map (fun i => if i = w.lane then w.spare else i) := ⟨_, rfl⟩
  have hexec : exec (.spareSwitchApply p false) s = .next
      (((((s.setRxLanes p l).spared p false).modLink p (fun k => { k with rxSwitch := none, failed := [] })).queueNote p .spareAck).portUnit p) := by
    refine congrArg Host.Outcome.next ?_
    unfold State.spareApply
    rw [if_neg (not_not.mpr h5), if_neg Bool.false_ne_true]
    simp only [hw]
    rw [if_neg (by rw [hcw]; simp), if_pos (by rw [hfailed]; rfl), hl]
    rfl
  refine ⟨_, hexec, ?_⟩
  rw [← hl]
  have hxlink := link_setRxLanes s p l
  have hxframe := linked_setRxLanes s p l
  have hxcnt := rd_spareCnt_setRxLanes s p l
  have hxstate := linkState_setRxLanes s p l
  have hxlanes := rxLanes_setRxLanes s p l
  have hxout : (s.setRxLanes p l).out = s.out := rfl
  generalize s.setRxLanes p l = x at *
  obtain ⟨hyword, hylanes, hycount, hylinks, hyout, hyframe⟩ := spared_shows x p false
  have hylink := (link_of_links hylinks p).trans hxlink
  generalize x.spared p false = y at *
  have hzlink := link_queueNote (y.modLink p (fun k => { k with rxSwitch := none, failed := [] })) p .spareAck
  rw [link_modLink_here y p (fun k => { k with rxSwitch := none, failed := [] }), hylink] at hzlink
  have hzrd : ∀ off, ((y.modLink p (fun k => { k with rxSwitch := none, failed := [] })).queueNote p .spareAck).rd off = y.rd off := fun off => by
    rw [State.queueNote, rd_modLink, rd_modLink]
  have hzout : ((y.modLink p (fun k => { k with rxSwitch := none, failed := [] })).queueNote p .spareAck).out = y.out := by
    rw [State.queueNote, modLink_out, modLink_out]
  have hzframe := (hyframe.modLink p (fun k => { k with rxSwitch := none, failed := [] })).modLink p
    (fun k => { k with notes := k.notes ++ [{ num := k.nextNote, msg := .spareAck }], nextNote := k.nextNote + 1 })
  change Linked _ x ((y.modLink p (fun k => { k with rxSwitch := none, failed := [] })).queueNote p .spareAck) at hzframe
  generalize (y.modLink p (fun k => { k with rxSwitch := none, failed := [] })).queueNote p .spareAck = z at *
  obtain ⟨htword, htlanes, htcount, htlinks⟩ := portUnit_kept z p
  obtain ⟨htold, -⟩ := told_portUnit (fun off => off = Reg.PRT_LANES p ∨ off = Reg.PRT_STATUS p ∨ off = Reg.PRT_SPARE_CNT p) z p
  have htlink := (link_of_links htlinks p).trans hzlink
  obtain ⟨hspared, hspare, hstate⟩ := spared_flags (htword.trans ((hzrd _).trans hyword))
  refine ⟨by rw [htlink], (rxLanes_of_rd (htlanes.trans ((hzrd _).trans hylanes))).trans hxlanes, hspared,
    htcount.trans ((hzrd _).trans (counted.of_rd hxcnt hycount)), hspare, by rw [htlink], by rw [htlink], ?_, ?_⟩
  · rw [hstate, ← linkState_def, hxstate, h5]
  · have hxz := (hxframe.mono (e' := fun off => off = Reg.PRT_LANES p ∨ off = Reg.PRT_STATUS p ∨ off = Reg.PRT_SPARE_CNT p)
      (by rintro off (h | h); exacts [.inl h, .inr (.inl h)])).trans hzframe
    exact (hxz.told ⟨[], by rw [hzout, hyout, hxout, List.append_nil]⟩).trans htold

/-! ### SPARE_ACK -/

/-- The transmitter retires its lane and turns it off. -/
theorem spareAckRx_retires {n : BitVec 16} {w : Switch} {a : LinkAck} (hu : u = s.hearAck p a) (h5 : u.linkState p = 5)
    (hw : (u.link p).txSwitch = some w) (hdone : w.done = true) : Completes (.spareAckRx p n a) s (fun t =>
      t.txRetired p = laneBits (laneMask (u.txRetired p ++ [w.lane])) ∧ (t.link p).txSwitch = none ∧ n ∈ (t.link p).acks ∧
      (t.link p).laneEn = 2047 - laneMask (u.txRetired p ++ [w.lane]) ∧ Near (· = Reg.PRT_LANES p) { u with links := t.links } t) := by
  subst hu
  generalize hx : s.hearAck p a = x at *
  have hacked := link_ackNote x p n
  have hexec : exec (.spareAckRx p n a) s = .next
      ((((x.ackNote p n).retireTx p [w.lane]).enableLanes p true).modLink p (fun l => { l with txSwitch := none })) := by
    have hswitch : ((x.ackNote p n).link p).txSwitch = some w := by rw [hacked]; exact hw
    refine congrArg Host.Outcome.next ?_
    rw [hx]
    unfold State.spareAckRx
    rw [if_neg (not_not.mpr h5)]
    simp only [hswitch]
    rw [if_pos hdone]
  have hretired : ((x.ackNote p n).retireTx p [w.lane]).txRetired p = laneBits (laneMask (x.txRetired p ++ [w.lane])) := by
    rw [txRetired_def, State.retireTx, rd_setFld_here, getField_putField _ _ _ (by decide)]
    exact congrArg laneBits (laneMask_mod _)
  have hlink := link_modLink_here (((x.ackNote p n).retireTx p [w.lane]).enableLanes p true) p (fun l => { l with txSwitch := none })
  rw [link_enableLanes, hretired, laneMask_laneBits, State.retireTx, link_setFld, hacked] at hlink
  refine ⟨_, hexec, ?_, ?_, ?_, ?_, ?_⟩
  · refine (txRetired_of_rd ?_).trans hretired
    rw [rd_modLink, State.enableLanes, rd_modLink]
  · rw [State.retireTx, hlink]
  · rw [State.retireTx, hlink]
    show n ∈ (if n ∈ (x.link p).acks then (x.link p).acks else (x.link p).acks ++ [n])
    split
    · assumption
    · simp
  · rw [State.retireTx, hlink]
    rfl
  · have hframe : Linked (· = Reg.PRT_LANES p) x ((x.ackNote p n).retireTx p [w.lane]) := (linked_modLink _ x p _).setFld _ _ rfl
    exact ((hframe.trans (linked_enableLanes _ _ p true)).modLink p _).nearLinks rfl

end Sys2Proof.Machine
end

section
/-!
SUPPORT. A receive lane that fails (R282, R302, R303, R305, R307), loss of signal, DOWN_NOTICE and the end of a retrain (R291, R294, R306).
-/
namespace Sys2Proof.Machine

variable {e : Nat → Prop} {s t u : State} {p : Fin 12}

/-! ### One link record written twice -/

theorem put_put {α : Type} (t : Tab α) (i : Nat) (x y : α) : (t.put i x).put i y = t.put i y := by
  induction t with
  | nil => simp [Tab.put]
  | cons a t ih =>
    obtain ⟨k, v⟩ := a
    by_cases hk : i = k
    · simp only [Tab.put, if_pos hk]
    · by_cases hlt : i < k
      · simp only [Tab.put, if_neg hk, if_pos hlt, if_true]
      · simp only [Tab.put, if_neg hk, if_neg hlt, ih]

/-- Of two records written one after the other, neither of them a fresh one, the second stays. -/
theorem setLink_setLink (s : State) (q : Nat) {k l : Link} (hk : k ≠ {}) (hl : l ≠ {}) : (s.setLink q k).setLink q l = s.setLink q l := by
  have hset : (s.links.set {} q k).set {} q l = s.links.set {} q l := by
    rw [Tab.set, if_neg hl, Tab.set, if_neg hk, put_put, Tab.set, if_neg hl]
  show ({ s with links := (s.links.set {} q k).set {} q l } : State) = _
  rw [hset]
  rfl

/-! ### LANE_FAIL -/

section
variable (s : State) (p : Fin 12) (lane : Fin 11)

/-- The failed lane is charged and retired; the port's link record and its other registers are as they were. -/
theorem laneRetired_kept : ((s.chargeLane p lane).retireRx p [lane.val]).links = s.links ∧
    ((s.chargeLane p lane).retireRx p [lane.val]).rd (Reg.PRT_STATUS p) = s.rd (Reg.PRT_STATUS p) := by
  have h := chargeLane_charged s p.isLt lane.isLt
  refine ⟨h.links, (rd_setFld_ne _ _ (status_ne_lanes p)).trans (h.rd p _ p.isLt ?_ ?_)⟩
  · simp only [Reg.PRT_STATUS]; omega
  · simp only [Reg.PRT_STATUS]; omega

end

section
variable {lane : Fin 11} (h1 : 1 ≤ s.linkState p) (h6 : s.linkState p ≤ 6) (hnew : lane.val ∉ s.rxRetired p)
  (hu : u = (s.chargeLane p lane).retireRx p [lane])
include h1 h6 hnew hu

/-- LANE_FAIL by the state of the port: a running switch, the spare that is asked for, or the lanes that remain. -/
theorem laneFail_eq : exec (.laneFail p lane) s = .next (
    if s.linkState p = 5 then
      match (s.link p).rxSwitch with
      | some w =>
        if lane.val = w.spare then u.shrinkRx p (w.lane :: lane.val :: (s.link p).failed)
        else if (s.rxLanes p).contains lane.val then u.modLink p (fun l => { l with failed := l.failed ++ [lane.val] })
        else u
      | none =>
        if !(s.rxLanes p).contains lane.val then (u.setSpare p false false).portUnit p
        else match s.spareLane p false with
          | some sp =>
            (u.modLink p (fun l => { l with rxSwitch := some (Switch.mk lane sp none false) })).queueNote p (.spareReq lane)
          | none => u.shrinkRx p [lane.val]
    else if s.linkState p = 6 then (if (s.rxLanes p).contains lane.val then u.shrinkRx p [lane.val] else u.setSpare p false false)
    else match (s.rxLanes p).contains lane.val, s.spareLane p false with
      | true, some sp => (u.setRxLanes p (swapLane (u.link p).rxPos lane.val sp)).setSpare p false false
      | true, none => u.setRxLanes p ((u.link p).rxPos.filter (· ≠ lane.val))
      | false, _ => u.setSpare p false false) := by
  obtain ⟨hlinks, -⟩ := laneRetired_kept s p lane
  have hlink : u.link p = s.link p := hu ▸ link_of_links hlinks p
  refine congrArg Host.Outcome.next ?_
  unfold State.laneFail
  rw [if_neg (by rw [List.contains_iff_mem]; exact fun h => h.elim (by omega) (fun h => h.elim (by omega) hnew))]
  dsimp only
  rw [← hu, hlink] <;> rfl

theorem laneFail_asks {sp : Nat} (h5 : s.linkState p = 5) (hlane : lane.val ∈ s.rxLanes p) (hsp : s.spareLane p false = some sp)
    (hfree : (s.link p).rxSwitch = none) : exec (.laneFail p lane) s = .next (u.setLink p { u.link p with
        rxSwitch := some (Switch.mk lane sp none false)
        notes := (u.link p).notes ++ [{ num := (u.link p).nextNote, msg := .spareReq lane }], nextNote := (u.link p).nextNote + 1 }) := by
  rw [laneFail_eq h1 h6 hnew hu, if_pos h5, hfree]
  simp only [List.contains_iff_mem.mpr hlane, Bool.not_true, Bool.false_eq_true, if_false, hsp]
  refine congrArg Host.Outcome.next ?_
  have hne : ∀ l : Link, l.rxSwitch ≠ none → l ≠ {} := fun l h heq => h (congrArg Link.rxSwitch heq)
  obtain ⟨k, hk⟩ : ∃ k : Link, k = { u.link p with rxSwitch := some (Switch.mk lane sp none false) } := ⟨_, rfl⟩
  have hmod : u.modLink p (fun l => { l with rxSwitch := some (Switch.mk lane sp none false) }) = u.setLink p k := by rw [hk]; rfl
  have hnote : (u.setLink p k).queueNote p (.spareReq lane) = (u.setLink p k).setLink p { k with
      notes := k.notes ++ [{ num := k.nextNote, msg := .spareReq lane }], nextNote := k.nextNote + 1 } := by
    rw [State.queueNote, State.modLink, link_setLink_here]
  rw [hmod, hnote, setLink_setLink u p (hne _ (by rw [hk]; simp)) (hne _ (by rw [hk]; simp)), hk]

theorem laneFail_shrinks (h5 : s.linkState p = 5) (hlane : lane.val ∈ s.rxLanes p) (hsp : s.spareLane p false = none)
    (hfree : (s.link p).rxSwitch = none) : exec (.laneFail p lane) s = .next (u.shrinkRx p [lane]) := by
  rw [laneFail_eq h1 h6 hnew hu, if_pos h5, hfree]
  simp only [List.contains_iff_mem.mpr hlane, Bool.not_true, Bool.false_eq_true, if_false, hsp]

theorem laneFail_spareLost {w : Switch} (h5 : s.linkState p = 5) (hw : (s.link p).rxSwitch = some w) (hlane : lane.val = w.spare) :
    exec (.laneFail p lane) s = .next (u.shrinkRx p (w.lane :: lane.val :: (s.link p).failed)) := by
  rw [laneFail_eq h1 h6 hnew hu, if_pos h5, hw]
  dsimp only
  rw [if_pos hlane]

theorem laneFail_waits {w : Switch} (h5 : s.linkState p = 5) (hw : (s.link p).rxSwitch = some w) (hne : lane.val ≠ w.spare)
    (hlane : lane.val ∈ s.rxLanes p) :
    exec (.laneFail p lane) s = .next (u.modLink p (fun l => { l with failed := l.failed ++ [lane.val] })) := by
  rw [laneFail_eq h1 h6 hnew hu, if_pos h5, hw]
  dsimp only
  rw [if_neg hne, if_pos (List.contains_iff_mem.mpr hlane)]

theorem laneFail_retraining (hst : s.linkState p = 6) (hlane : lane.val ∈ s.rxLanes p) :
    exec (.laneFail p lane) s = .next (u.shrinkRx p [lane]) := by
  rw [laneFail_eq h1 h6 hnew hu, if_neg (by omega), if_pos hst, if_pos (List.contains_iff_mem.mpr hlane)]

theorem laneFail_takesSpare {sp : Nat} (h4 : s.linkState p ≤ 4) (hlane : lane.val ∈ s.rxLanes p) (hsp : s.spareLane p false = some sp) :
    Completes (.laneFail p lane) s (fun t => (t.link p).rxPos = (s.link p).rxPos.map (fun i => if i = lane.val then sp else i) ∧
      t.spareLane p false = none ∧ t.linkState p = s.linkState p) := by
  obtain ⟨hlinks, hword⟩ := laneRetired_kept s p lane
  have hlink : u.link p = s.link p := hu ▸ link_of_links hlinks p
  have hstate : u.linkState p = s.linkState p := linkState_of_rd (hu ▸ hword)
  refine ⟨(u.setRxLanes p (swapLane (u.link p).rxPos lane.val sp)).setSpare p false false, ?_, ?_, spareLane_setSpare_false _ p false, ?_⟩
  · rw [laneFail_eq h1 h6 hnew hu, if_neg (by omega), if_neg (by omega), hsp]
    simp only [List.contains_iff_mem.mpr hlane]
  · rw [link_setSpare, link_setRxLanes, hlink]
    rfl
  · rw [linkState_setSpare, linkState_setRxLanes, hstate]

theorem laneFail_drops (h4 : s.linkState p ≤ 4) (hlane : lane.val ∈ s.rxLanes p) (hsp : s.spareLane p false = none) :
    Completes (.laneFail p lane) s (fun t => (t.link p).rxPos = (s.link p).rxPos.filter (fun i => i != lane.val) ∧
      t.linkState p = s.linkState p) := by
  obtain ⟨hlinks, hword⟩ := laneRetired_kept s p lane
  have hlink : u.link p = s.link p := hu ▸ link_of_links hlinks p
  have hstate : u.linkState p = s.linkState p := linkState_of_rd (hu ▸ hword)
  refine ⟨u.setRxLanes p ((u.link p).rxPos.filter (· ≠ lane.val)), ?_, ?_, by rw [linkState_setRxLanes, hstate]⟩
  · rw [laneFail_eq h1 h6 hnew hu, if_neg (by omega), if_neg (by omega), hsp]
    simp only [List.contains_iff_mem.mpr hlane]
  · rw [link_setRxLanes, hlink]
    exact List.filter_congr (fun i _ => by rw [bne, decide_not]; rfl)

theorem laneFail_inactive (hlane : lane.val ∉ s.rxLanes p) (hst : s.linkState p ≠ 5) :
    exec (.laneFail p lane) s = .next (u.setSpare p false false) := by
  have hno : (s.rxLanes p).contains lane.val = false := by rwa [Bool.eq_false_iff, ne_eq, List.contains_iff_mem]
  rw [laneFail_eq h1 h6 hnew hu, if_neg hst, hno]
  split
  · rw [if_neg Bool.false_ne_true]
  · rfl

end

theorem laneFail_ignored {lane : Fin 11} (h : s.linkState p = 0 ∨ s.linkState p = 7 ∨ lane.val ∈ s.rxRetired p) :
    exec (.laneFail p lane) s = .next s :=
  congrArg Host.Outcome.next (if_pos (by rwa [List.contains_iff_mem]))

/-! ### The lanes that remain (R305) -/

section
variable {lost l : List Nat} (hl : l = (s.link p).rxPos.filter (fun i => !lost.contains i))
include hl

/-- The state in which a port goes on with the lanes that remain. -/
theorem shrinkRx_eq : s.shrinkRx p lost = if l.length < s.minLanes p then ((s.setRxLanes p l).setSpare p false false).linkDown p true
    else if s.linkState p = 6 then (s.setRxLanes p l).setSpare p false false
    else ((s.setRxLanes p l).setSpare p false false).startRetrain p := by
  have hframe : Linked (laneRegs p) s ((s.setRxLanes p l).setSpare p false false) := (linked_setRxLanes s p l).trans (linked_setSpare _ p _ _)
  have hmin : ((s.setRxLanes p l).setSpare p false false).minLanes p = s.minLanes p :=
    minLanes_of_rd (hframe.rd (by unfold laneRegs; simp) (observes_of_notices (notices_prtCtl p.isLt)))
  have hstate : ((s.setRxLanes p l).setSpare p false false).linkState p = s.linkState p := by rw [linkState_setSpare, linkState_setRxLanes]
  unfold State.shrinkRx
  dsimp only
  rw [← hl, hmin, hstate]

theorem shrinkRx_down (hshort : l.length < s.minLanes p) : wentDown (fun _ => False) p s (s.shrinkRx p lost) := by
  have hframe : Linked (laneRegs p) s ((s.setRxLanes p l).setSpare p false false) := (linked_setRxLanes s p l).trans (linked_setSpare _ p _ _)
  have hlink : ((s.setRxLanes p l).setSpare p false false).link p = { s.link p with rxPos := l } := by rw [link_setSpare, link_setRxLanes]
  have hout : ((s.setRxLanes p l).setSpare p false false).out = s.out := by rw [setSpare_out]; rfl
  rw [shrinkRx_eq hl, if_pos hshort]
  exact (linkDown_down _ p.isLt true).of_linked p.isLt (hframe.mono fun _ => .inr) ⟨[], by rw [hout, List.append_nil]⟩ (by rw [hlink])
    (by rw [hlink]) (by rw [hlink]) ⟨not_false, not_false⟩

end

/-! ### DOWN and ACTIVE -/

theorem lossOfSignal_down (h : s.linkState p ≠ 0) : Completes (.lossOfSignal p) s (fun t => wentDown (fun _ => False) p s t) :=
  ⟨s.linkDown p false, congrArg Host.Outcome.next (if_neg h), linkDown_down s p.isLt false⟩

/-- A port whose peer goes DOWN sends its own DOWN_NOTICE first. -/
theorem downNoticeRx_down {a : LinkAck} (hu : u = s.hearAck p a) (h3 : 3 ≤ u.linkState p) (h6 : u.linkState p ≤ 6) (hrun : u.stopped = false) :
    Completes (.downNoticeRx p a) s (fun t => wentDown (fun _ => False) p u t ∧
      ∃ l, t.out = u.out ++ .link p (.lmf (u.link p).head [{ num := (u.link p).nextNote, msg := .downNotice }] (u.link p).acks) :: l) := by
  subst hu
  obtain ⟨l, hl⟩ := linkDown_out (s.hearAck p a) p.isLt true
  refine ⟨(s.hearAck p a).linkDown p true, congrArg Host.Outcome.next (if_pos ⟨h3, h6⟩), linkDown_down _ p.isLt true, l, ?_⟩
  rw [hl, State.downNoticed, if_pos (by simp [h3, h6]), sendFlit_running hrun, State.say_out, modLink_out, List.append_assoc]
  rfl

theorem retrainDone_active (h6 : s.linkState p = 6) (halign : (s.link p).aligned = true) (hcaps : (s.link p).capsOk = true)
    (hacked : (s.link p).acked = true) (hmeasured : (s.link p).measured = true) : Completes (.retrainDone p) s (fun t =>
      t.linkState p = 5 ∧ t.links = s.links ∧ t.rt.rout = s.rt.rout ∧
      Noted (· = Reg.PRT_STATUS p) { s with units := t.units, lastChange := t.lastChange } t) := by
  obtain ⟨htold, hlinks⟩ := told_toLink s p.isLt 5
  refine ⟨s.toLink p 5, congrArg Host.Outcome.next (if_pos ⟨h6, (trained_iff _).mpr ⟨halign, hcaps, hacked, hmeasured⟩⟩),
    linkState_toLink s p.isLt (by decide), hlinks, htold.rout, ?_⟩
  unfold Told at htold
  rwa [hlinks] at htold

end Sys2Proof.Machine
end

section
namespace Sys2Proof.Machine

/-- Settles O42, an event at a time: the messages and the switch by what each writes of the link record, a lane's failure by what charging it leaves
of the ports. -/
theorem linkManagement : Obligations.LinkManagement := by
  unfold Obligations.LinkManagement
  refine ⟨?lmf, ?lmfAck, ?spareReq, ?spareSwitch, ?applyTx, ?applyRx, ?spareAck, ?charge, ?laneFail, ?shrink, ?ignored, ?signal, ?notice, ?retrained⟩
  case lmf => exact fun s u p cycles h5 hu => ⟨lmfSlot_sends h5 hu, lmfSlot_retrains h5 hu⟩
  case lmfAck =>
    intro s u p n a hu
    subst hu
    rfl
  case spareReq =>
    exact fun s u p n lane cw a hu h5 => ⟨fun sp hsp hfree hlane => spareReqRx_switches hu h5 hsp hfree hlane, spareReqRx_acks hu h5⟩
  case spareSwitch => exact fun s u p n lane cw w a hu h5 hw hlane => spareSwitchRx_names hu h5 hw hlane
  case applyTx => exact fun s p w cw _ h5 hw hdone hcw => spareSwitchApply_tx h5 hw hdone hcw
  case applyRx => exact fun s p w cw _ h5 hw hcw hfailed => spareSwitchApply_rx h5 hw hcw hfailed
  case spareAck => exact fun s u p n w a hu h5 hw hdone => spareAckRx_retires hu h5 hw hdone
  case charge =>
    intro s p lane _
    have h := chargeLane_charged s p.isLt lane.isLt
    refine ⟨_, rfl, h.detect, h.cls, h.unit, fun x hx hle => ?_, fun hnone => ?_, h.links, fun q => ?_, h.rout⟩
    · have hcount := h.outcome
      rwa [failsAgain_some hx hle] at hcount
    · have hcount := h.outcome
      rwa [failsAgain_none hnone] at hcount
    · rcases Nat.lt_or_ge q 12 with hq | hq
      · exact .inl (h.rd q _ hq (by simp only [Reg.PRT_STATUS]; omega) (by simp only [Reg.PRT_STATUS]; omega))
      · exact .inr hq
  case laneFail =>
    exact fun s u p lane h1 h6 hnew hu => ⟨fun sp => laneFail_asks h1 h6 hnew hu, laneFail_shrinks h1 h6 hnew hu,
      fun w => laneFail_spareLost h1 h6 hnew hu, fun w => laneFail_waits h1 h6 hnew hu, laneFail_retraining h1 h6 hnew hu,
      fun sp => laneFail_takesSpare h1 h6 hnew hu, laneFail_drops h1 h6 hnew hu, fun hlane _ => laneFail_inactive h1 h6 hnew hu hlane⟩
  case shrink =>
    refine fun s p lost l hl => ⟨fun hmin hst => ?_, fun hmin hst => ?_, fun _ => shrinkRx_down hl⟩
    · rw [shrinkRx_eq hl, if_neg (by omega), if_neg hst]
    · rw [shrinkRx_eq hl, if_neg (by omega), if_pos hst]
  case ignored => exact fun s p lane => laneFail_ignored
  case signal => exact fun s p _ => lossOfSignal_down
  case notice => exact fun s u p a _ hu h3 h6 hrun => downNoticeRx_down hu h3 h6 hrun
  case retrained => exact fun s p h6 ha hc hk hm => retrainDone_active h6 ha hc hk hm

end Sys2Proof.Machine
end

section
/-!
SUPPORT. A port past the twelve of the chip (R281). FAB_DETOUR's HOP has three bits and takes six directions only by a write (R345), and the
statements of a detour and of a branch bound no direction: one that no pair of ports bears the role of stands for itself (R308), and its ports
are 14 and 15. The selected event counters of such a port are none that recording an event may touch (R489).
-/
namespace Sys2Proof.Machine

/-- The direction that no pair of ports serves, and its first port. -/
def strayDir : Nat := 7
def strayPort : Nat := 14

/-- A ring of two chips along X and one chip along Y and Z. The stray port alone reads ACTIVE; its first selected counter counts `src`; detours of
direction XP go by the stray direction on plane P1. -/
def strayTorus (src : Nat) : State :=
  let regs : List (Nat × BitVec 64) := [
    (Reg.IDM_BOARD0, putField (putField (putField 0 Fld.IDM_BOARD0_DX 2) Fld.IDM_BOARD0_DY 1) Fld.IDM_BOARD0_DZ 1),
    (Reg.PRT_STATUS strayPort, putField 0 Fld.PRT_STATUS_STATE 5), (Reg.CNT_PRT_SEL strayPort 0, putField 0 Fld.CNT_PRT_SEL_SRC src),
    (Reg.FAB_CTL, putField 0 Fld.FAB_CTL_DETOUR_EN 1),
    (Reg.FAB_DETOUR 0, putField (putField 0 Fld.FAB_DETOUR_HOP strayDir) Fld.FAB_DETOUR_PLANE 1)]
  regs.foldl (fun (s : State) x => s.wr x.1 x.2) State.reset

theorem strayTorus_wf : (strayTorus 0x0C).regsWf = true ∧ (strayTorus 0x0D).regsWf = true := by decide +kernel

/-- Recording an event touches no counter of the stray port. -/
theorem strayCount_of_near {e : Nat → Prop} {s t : State} {r : Router} (h : Near e { s with rt := r } t) (he : ¬ e (Reg.CNT_PRT strayPort 0)) :
    t.rd (Reg.CNT_PRT strayPort 0) = s.rd (Reg.CNT_PRT strayPort 0) := h.regs _ he (by decide)

/-! ### A detour -/

/-- A packet for the other chip of the ring. -/
def ringPacket : RPkt := { p := { dst := 1, src := 0, tc := 1, type := 0 } }

/-- It waits for route selection. -/
def strayDetour : State := { strayTorus 0x0C with rt := { rin := [ringPacket] } }

/-- PACKET_ROUTE of a unicast packet that waits there while the clocks run is its route selection. -/
theorem exec_packetRoute {s : State} {i : Nat} {q : RPkt} (hrun : s.stopped = false) (hq : s.rt.rin[i]? = some q) (hmc : q.p.mc = false) :
    exec (.packetRoute i) s = .next (s.route q) := by
  refine congrArg Host.Outcome.next ?_
  rw [hq]
  exact if_neg (by rw [hmc, hrun]; decide)

theorem strayDetour_routable : Routable strayDetour 0 ringPacket := by constructor <;> decide +kernel

/-- No link of its direction may carry it, and it does not go by adaptive routing. -/
theorem strayDetour_blocked : ¬ strayDetour.adaptive ringPacket ∧ strayDetour.cands 0 = [] := by unfold State.adaptive; decide +kernel

theorem strayDetour_counts : strayDetour.rd (Reg.CNT_PRT strayPort 0) = 0 ∧
    (strayDetour.route ringPacket).rd (Reg.CNT_PRT strayPort 0) = 1 := by decide +kernel

/-- Refutes O36: a packet that goes round by a hop of FAB_DETOUR that is no direction counts in a counter of a port that the chip does not have.
The statement lets HOP hold any of its eight values. -/
theorem not_packetsRouted : ¬ Obligations.PacketsRouted := by
  unfold Obligations.PacketsRouted
  rintro ⟨-, -, -, -, -, -, -, hdetour, -⟩
  obtain ⟨t, ht, -, -, -, -, hnear⟩ := hdetour strayDetour 0 0 strayDir 1 strayPort ringPacket strayTorus_wf.1 strayDetour_routable
    (.inr strayDetour_blocked) (by decide +kernel) (by decide +kernel) (by decide +kernel) (by decide +kernel) (by decide) (by decide)
    (by decide +kernel)
  obtain ⟨hrun, hq, hmc, -⟩ := strayDetour_routable
  obtain rfl := Host.Outcome.next.inj ((exec_packetRoute hrun hq hmc).symm.trans ht)
  obtain ⟨hbefore, hafter⟩ := strayDetour_counts
  exact absurd (hafter.symm.trans ((strayCount_of_near hnear (by decide)).trans hbefore)) (by decide)

/-! ### A branch -/

/-- A multicast packet of the other chip for this one. -/
def boxPacket : RPkt := { p := { dst := 0, src := 1, tc := 1, type := 0, mc := true, mask := maskOf 1 1 1 } }

theorem strayBranch_counts : (strayTorus 0x0D).rd (Reg.CNT_PRT strayPort 0) = 0 ∧
    ((strayTorus 0x0D).mcBranch boxPacket 0 (strayDir, maskOf 1 1 1)).rd (Reg.CNT_PRT strayPort 0) = 1 := by decide +kernel

/-- Refutes O37: a branch of a direction that is none of the six leaves by a port that the chip does not have, and counts in a counter of it. The
statement bounds no branch's direction. -/
theorem not_routerKeeps : ¬ Obligations.RouterKeeps := by
  unfold Obligations.RouterKeeps
  rintro ⟨-, hbranch, -⟩
  obtain ⟨t, rfl, -, -, -, -, -, hnear⟩ := hbranch (strayTorus 0x0D) boxPacket 0 strayDir strayPort (maskOf 1 1 1) [0] strayTorus_wf.2 rfl
    (by decide +kernel) (by decide) (by decide +kernel)
  obtain ⟨hbefore, hafter⟩ := strayBranch_counts
  exact absurd (hafter.symm.trans ((strayCount_of_near hnear (by decide)).trans hbefore)) (by decide)

end Sys2Proof.Machine
end

section
/-!
SUPPORT. Fences (R335, R336, R344, R464): the bitmap and its count, the packets that a new fence bit drops, and what the rest of the chip does
where nothing waits for the fenced chip.
-/
namespace Sys2Proof.Machine

variable {e : Nat → Prop} {s t u : State} {n : Nat}

/-! ### Counts that add up -/

theorem putField_putField (w : BitVec 64) (f : Field) (i j : Nat) (hf : f.lo + f.width ≤ 64) : putField (putField w f i) f j = putField w f j := by
  apply BitVec.eq_of_toNat_eq
  apply Nat.eq_of_testBit_eq
  intro k
  rw [putField_testBit _ f _ _ hf, putField_testBit _ f _ _ hf, putField_testBit _ f _ _ hf]
  split <;> rfl

theorem putField_mod (w : BitVec 64) (f : Field) (i : Nat) : putField w f (i % 2 ^ f.width) = putField w f i := by
  unfold putField
  rw [Nat.mod_mod]

/-- Two counts of one counter are one. -/
theorem counted.add {ct i j : Nat} (h : counted ct i s t) (k : counted ct j t u) : counted ct (i + j) s u := by
  unfold counted at h k ⊢
  rw [k, fld_def, h, putField_putField _ _ _ _ (by decide), getField_putField _ _ _ (by decide), ← putField_mod, Nat.mod_add_mod, putField_mod,
    Nat.add_assoc]

/-! ### The bitmap (R335, R344) -/

theorem fence_ne_count (w : Nat) : Reg.FAB_FENCE w ≠ Reg.FAB_FENCE_COUNT := by simp only [Reg.FAB_FENCE, Reg.FAB_FENCE_COUNT]; omega

theorem observes_fence {w : Nat} (hw : w < 384) : observes (Reg.FAB_FENCE w) = false := by
  rw [observes_eq_false]
  simp only [Reg.FAB_FENCE]
  omega

theorem fenced_of_rd (h : t.rd (Reg.FAB_FENCE (n / 64)) = s.rd (Reg.FAB_FENCE (n / 64))) : t.fenced n = s.fenced n := by
  rw [State.fenced, fld_of_rd _ h]
  rfl

/-- What leaves the word of a chip's fence bit alone leaves the bit alone. -/
theorem Near.fenced (h : Near e s t) (hn : n < 24576) (he : ¬ e (Reg.FAB_FENCE (n / 64))) : t.fenced n = s.fenced n :=
  fenced_of_rd (h.regs _ he (observes_fence (by omega)))

/-- The registers that hold the fence bit of a chip, and the count of fences. -/
def fenceRegs (n off : Nat) : Prop := off = Reg.FAB_FENCE (n / 64) ∨ off = Reg.FAB_FENCE_COUNT

theorem near_setFence (s : State) (n : Nat) (v : Bool) : Near (fenceRegs n) s (s.setFence n v) :=
  Near.ite (fun _ => Near.refl _ s) (fun _ => ((Near.refl _ s).setFld _ _ _ (.inl (.inl rfl))).setFld _ _ _ (.inl (.inr rfl)))

section
variable {v : Bool} (hn : n < 24576) (hv : s.fenced n ≠ v)
include hn hv

theorem setFence_eq : s.setFence n v = (s.setFld (Reg.FAB_FENCE (n / 64)) (bitField (n % 64)) v.toNat).setFld Reg.FAB_FENCE_COUNT
    Fld.FAB_FENCE_COUNT_COUNT (if v then s.fld Reg.FAB_FENCE_COUNT Fld.FAB_FENCE_COUNT_COUNT + 1
      else s.fld Reg.FAB_FENCE_COUNT Fld.FAB_FENCE_COUNT_COUNT - 1) := by
  rw [← fld_setFld_ne (bitField (n % 64)) Fld.FAB_FENCE_COUNT_COUNT v.toNat (fence_ne_count (n / 64)).symm]
  exact if_neg (by rw [not_or]; exact ⟨by omega, hv⟩)

theorem fenced_setFence_here : (s.setFence n v).fenced n = v := by
  rw [setFence_eq hn hv, State.fenced, fld_setFld_ne _ _ _ (fence_ne_count _), fld_setFld_here _ _ _ _ (by simp only [bitField]; omega)]
  cases v <;> rfl

theorem fenced_setFence_ne {m : Nat} (hm : m ≠ n) : (s.setFence n v).fenced m = s.fenced m := by
  rw [setFence_eq hn hv, State.fenced, fld_setFld_ne _ _ _ (fence_ne_count _)]
  by_cases hw : m / 64 = n / 64
  · rw [hw, fld_setFld_beside _ _ _ _ _ (by simp only [bitField]; omega) (by simp only [bitField]; omega), ← hw]
    rfl
  · rw [fld_setFld_ne _ _ _ (by simp only [Reg.FAB_FENCE]; omega)]
    rfl

/-- FAB_FENCE_COUNT follows the bitmap. -/
theorem fenceCount_setFence : (s.setFence n v).fld Reg.FAB_FENCE_COUNT Fld.FAB_FENCE_COUNT_COUNT =
    (if v then s.fld Reg.FAB_FENCE_COUNT Fld.FAB_FENCE_COUNT_COUNT + 1 else s.fld Reg.FAB_FENCE_COUNT Fld.FAB_FENCE_COUNT_COUNT - 1) %
      2 ^ Fld.FAB_FENCE_COUNT_COUNT.width := by
  rw [setFence_eq hn hv]
  exact fld_setFld_here _ _ _ _ (by decide)

end

/-! ### A fence bit newly set -/

/-- The bit is set and the fence recorded in the ring of the router. -/
def State.fenceMarked (s : State) (n issuer : Nat) : State := (s.setFence n true).trace 76 0x12 n 0 (peerWord issuer 0 0 0 0)

theorem applyFence_void (issuer : Nat) (h : 24576 ≤ n ∨ s.fenced n = true) : s.applyFence n issuer = s := if_pos h

section
variable (issuer : Nat) (hn : n < 24576) (hf : s.fenced n = false)
include hn hf

theorem applyFence_new : s.applyFence n issuer = (s.fenceMarked n issuer).fenceReaches n :=
  if_neg (by rw [not_or, hf]; exact ⟨by omega, Bool.false_ne_true⟩)

/-- What marking a fence leaves. -/
theorem fenceMarked_marks : (s.fenceMarked n issuer).fenced n = true ∧
    (∀ m, m < 24576 → m ≠ n → (s.fenceMarked n issuer).fenced m = s.fenced m) ∧
    (s.fenceMarked n issuer).fld Reg.FAB_FENCE_COUNT Fld.FAB_FENCE_COUNT_COUNT =
      (s.fld Reg.FAB_FENCE_COUNT Fld.FAB_FENCE_COUNT_COUNT + 1) % 2 ^ Fld.FAB_FENCE_COUNT_COUNT.width ∧
    Near (fenceRegs n) s (s.fenceMarked n issuer) := by
  have hv : s.fenced n ≠ true := by rw [hf]; exact Bool.false_ne_true
  have htrace : Near (fun _ => False) (s.setFence n true) (s.fenceMarked n issuer) := (Near.refl _ _).trace (by decide) _ _ _ _
  exact ⟨(htrace.fenced hn id).trans (fenced_setFence_here hn hv), fun m hm hne => (htrace.fenced hm id).trans (fenced_setFence_ne hn hv hne),
    (htrace.fld _ id (by decide)).trans (fenceCount_setFence hn hv), (near_setFence s n true).trans (htrace.mono fun _ => False.elim)⟩

end

/-! ### Packets for a fenced chip (R336) -/

/-- `t` is `s` but for the registers of `e`, what recording events touches, and the router's tables. -/
def Routed (e : Nat → Prop) (s t : State) : Prop := Near e { s with rt := t.rt } t

theorem Routed.refl (e : Nat → Prop) (s : State) : Routed e s s := Near.refl e s

theorem Routed.trans (h : Routed e s t) (k : Routed e t u) : Routed e s u := by
  refine ⟨fun off he ho => (k.regs off he ho).trans (h.regs off he ho), ?_⟩
  rw [Near.eq k, Near.eq h]
  rfl

/-- A change of the router's tables alone, and then one beside them. -/
theorem Near.routed {r : Router} (h : Near e { s with rt := r } t) : Routed e s t := by
  have hrt : t.rt = r := congrArg State.rt h.eq
  unfold Routed
  rwa [hrt]

/-- The registers of a discard for a fenced chip. -/
def fdropRegs (off : Nat) : Prop := off = Reg.FAB_STATUS ∨ off = Reg.FAB_FDROP_CNT

theorem near_fencedDrop (s : State) : Near fdropRegs s s.fencedDrop :=
  ((Near.refl _ s).event _ _ _ (.inl (.inl rfl)) (.inl (.inr rfl))).bumpGlb _ _ _

theorem raised_fencedDrop (s : State) : raised Reg.FAB_STATUS Fld.FAB_STATUS_FDROP Reg.FAB_FDROP_CNT s s.fencedDrop := by
  have hglb := (Near.refl (fun _ => False) (s.event Reg.FAB_STATUS Fld.FAB_STATUS_FDROP Reg.FAB_FDROP_CNT)).bumpGlb 0x10 0 1
  exact raised_congr (raised_event s _ _ _ (by decide)) rfl rfl (hglb.regs _ id (by decide)) (hglb.regs _ id (by decide))

theorem rout_release (r : Router) (q : RPkt) : (r.release q).rout = r.rout := by
  unfold Router.release
  split <;> rfl

theorem arrived_release (r : Router) (q : RPkt) : (r.release q).arrived = r.arrived := by
  unfold Router.release
  split <;> rfl

theorem rin_release (r : Router) (q : RPkt) : (r.release q).rin = r.rin := by
  unfold Router.release
  split <;> rfl

/-- One after another, packets that wait leave it, and each is counted as dropped. -/
theorem dropped_foldl (l : List RPkt) (s : State) :
    let t := l.foldl (fun (s : State) q => ((s.unwait q).dropPkt q).fencedDrop) s
    t.rt.rin = l.foldl List.erase s.rt.rin ∧ counted Reg.FAB_FDROP_CNT l.length s t ∧ t.rt.rout = s.rt.rout ∧ t.rt.arrived = s.rt.arrived ∧
      Routed fdropRegs s t := by
  induction l generalizing s with
  | nil => exact ⟨rfl, counted_zero _ s, rfl, rfl, Routed.refl _ s⟩
  | cons q l ih =>
    have hnear := near_fencedDrop ((s.unwait q).dropPkt q)
    have hrt : (((s.unwait q).dropPkt q).fencedDrop).rt = (s.unwait q).rt.release q := congrArg State.rt hnear.eq
    have hcount : counted Reg.FAB_FDROP_CNT 1 s (((s.unwait q).dropPkt q).fencedDrop) := (raised_fencedDrop ((s.unwait q).dropPkt q)).2
    obtain ⟨hrin, hcounted, hrout, harrived, hrest⟩ := ih (((s.unwait q).dropPkt q).fencedDrop)
    refine ⟨?_, ?_, ?_, ?_, hnear.routed.trans hrest⟩
    · rw [List.foldl_cons, hrin, hrt, rin_release]; rfl
    · rw [List.length_cons, Nat.add_comm]; exact hcount.add hcounted
    · rw [List.foldl_cons, hrout, hrt, rout_release]; rfl
    · rw [List.foldl_cons, harrived, hrt, arrived_release]; rfl

/-- Erasing the members of a list that satisfy `p`, one after another, leaves the others. -/
theorem foldl_erase_filter (p : RPkt → Bool) (l : List RPkt) : (l.filter p).foldl List.erase l = l.filter (fun q => !p q) := by
  rw [← List.diff_eq_foldl]
  induction l with
  | nil => rfl
  | cons q l ih =>
    by_cases hq : p q = true
    · rw [List.filter_cons_of_pos hq, List.diff_cons, List.erase_cons_head, ih, List.filter_cons_of_neg (by simp [hq])]
    · have hout : q ∉ l.filter p := fun hmem => hq (List.mem_filter.mp hmem).2
      rw [List.filter_cons_of_neg hq, List.cons_diff_of_not_mem hout, ih, List.filter_cons_of_pos (by simpa using hq)]

/-- The packets that wait for route selection to a fenced chip are dropped and counted; the others wait on. -/
theorem dropFenced_drops (s : State) (n : Nat) :
    (s.dropFenced n).rt.rin = s.rt.rin.filter (fun (q : RPkt) => q.p.mc || q.p.dst != n) ∧
    counted Reg.FAB_FDROP_CNT (s.rt.rin.filter (fun (q : RPkt) => !q.p.mc && q.p.dst == n)).length s (s.dropFenced n) ∧
    (s.dropFenced n).rt.rout = s.rt.rout ∧ (s.dropFenced n).rt.arrived = s.rt.arrived ∧ Routed fdropRegs s (s.dropFenced n) := by
  obtain ⟨hrin, hrest⟩ := dropped_foldl (s.rt.rin.filter (fun (q : RPkt) => !q.p.mc && q.p.dst == n)) s
  refine ⟨hrin.trans ((foldl_erase_filter _ _).trans (List.filter_congr fun q _ => ?_)), hrest⟩
  rw [Bool.not_and, Bool.not_not]
  rfl

/-! ### A fence that nothing waits for -/

/-- The chips of a collective's group are a matter of the board identity and its axes (R350). -/
theorem group_of_rd (h : t.rd Reg.IDM_BOARD0 = s.rd Reg.IDM_BOARD0) (c : Coll) : t.group c = s.group c := by
  have hsize : t.groupSize c.plan.axes = s.groupSize c.plan.axes := by simp only [State.groupSize, dim_of_rd h]
  have hmember : t.memberChip c.plan.axes = s.memberChip c.plan.axes := by
    funext i
    simp only [State.memberChip, dim_of_rd h, chip_of_rd h]
  rw [State.group, State.groupChips, hsize, hmember]
  rfl

/-- What waits for a chip is not changed by its fence bit. -/
theorem FenceAlone.near (h : FenceAlone s n) (k : Near e s t) (hb : ¬ e Reg.IDM_BOARD0) (ha : ¬ e Reg.MEM_BARRIER_CTL) : FenceAlone t n := by
  obtain ⟨hother, hpackets, htwin, hfill, hsends, hreceives, hgroups, hauto⟩ := h
  have hboard : t.rd Reg.IDM_BOARD0 = s.rd Reg.IDM_BOARD0 := k.regs _ hb (by decide)
  have hmode : t.fld Reg.MEM_BARRIER_CTL Fld.MEM_BARRIER_CTL_AUTO = s.fld Reg.MEM_BARRIER_CTL Fld.MEM_BARRIER_CTL_AUTO := k.fld _ ha (by decide)
  rw [← chip_of_rd hboard] at hother
  rw [← hmode] at hauto
  refine ⟨hother, ?_, (fld_of_rd Fld.IDM_BOARD0_TWIN hboard).trans_ne htwin, ?_, ?_, ?_, fun i c hc => ?_, ?_⟩
  · rw [k.eq]; exact hpackets
  · rw [k.eq]; exact hfill
  · rw [k.eq]; exact hsends
  · rw [k.eq]; exact hreceives
  · rw [group_of_rd hboard]
    rw [State.coll, k.eq] at hc
    exact hgroups i c hc
  · rw [State.inJob, k.eq]; rw [k.eq] at hauto; exact hauto

section
variable (h : FenceAlone s n)
include h

theorem dropFenced_alone : s.dropFenced n = s := by
  have hnone : s.rt.rin.filter (fun (q : RPkt) => !q.p.mc && q.p.dst == n) = [] := by
    rw [List.filter_eq_nil_iff]
    intro q hq
    rcases h.packets q hq with hmc | hdst
    · simp [hmc]
    · simp [hdst]
  rw [State.dropFenced, hnone]
  rfl

theorem pushesFenced_alone : s.pushesFenced n = s := by
  unfold State.pushesFenced
  split
  · next f hf => rw [if_neg (h.fill f hf), if_neg h.twin.symm]
  · rw [if_neg h.twin.symm]

theorem xfersFenced_alone : s.xfersFenced n = s := by
  have hsends : s.txs.filter (fun (x : Tx) => x.dests.any (fun (d : TxDest) => d.chip == n && decide (d.state < 2))) = [] := by
    rw [List.filter_eq_nil_iff]
    intro x hx hany
    obtain ⟨d, hd, hdn⟩ := List.any_eq_true.mp hany
    exact h.sends x hx d hd (beq_iff_eq.mp (Bool.and_eq_true_iff.mp hdn).1)
  have hreceives : s.rxs.filter (fun (x : Rx) => x.src == n) = [] := by
    rw [List.filter_eq_nil_iff]
    exact fun x hx hsrc => h.receives x hx (beq_iff_eq.mp hsrc)
  unfold State.xfersFenced
  simp only [hsends, hreceives, List.foldl_nil]

theorem collsFenced_alone : s.collsFenced n = s := by
  refine List.foldl_fixed' (fun i => ?_) _
  split
  · rfl
  · next c hc => rw [if_pos (by simpa using h.groups i c hc)]

theorem fenceReaches_alone : s.fenceReaches n = s := by
  unfold State.fenceReaches
  rw [if_neg h.other, dropFenced_alone h, pushesFenced_alone h, xfersFenced_alone h, collsFenced_alone h]
  refine if_neg (fun hauto => ?_)
  rcases h.auto with h0 | hjob
  · exact absurd (hauto.1.symm.trans h0) (by decide)
  · exact Bool.false_ne_true (hjob.symm.trans hauto.2)

/-- Then the bit and its count are all that changes. -/
theorem applyFence_alone (issuer : Nat) (hn : n < 24576) (hf : s.fenced n = false) : s.applyFence n issuer = s.fenceMarked n issuer := by
  obtain ⟨-, -, -, hnear⟩ := fenceMarked_marks issuer hn hf
  rw [applyFence_new issuer hn hf]
  refine fenceReaches_alone (h.near hnear ?_ ?_) <;> simp only [fenceRegs, Reg.FAB_FENCE, Reg.FAB_FENCE_COUNT, Reg.IDM_BOARD0, Reg.MEM_BARRIER_CTL] <;> omega

end

/-! ### Fences cleared -/

/-- The registers that show the contexts of the collectives. -/
def collRegs (off : Nat) : Prop := ∃ i, i < 16 ∧ off = Reg.COL_CTX_STAT i

theorem near_showColl (s : State) {i : Nat} (hi : i < 16) : Near collRegs s (s.showColl i) := by
  unfold State.showColl
  split <;> exact near_wr _ _ (.inl ⟨i, hi, rfl⟩)

theorem near_showColls (h : ∀ x ∈ s.colls, x.1 < 16) : Near collRegs s s.showColls := by
  refine (Near.refl _ s).foldl fun x i hi => near_showColl x ?_
  obtain ⟨c, hc, rfl⟩ := List.mem_map.mp hi
  exact h c hc

theorem not_collRegs_fence {w : Nat} (hw : w < 384) : ¬ collRegs (Reg.FAB_FENCE w) := by
  rintro ⟨i, -, h⟩
  simp only [Reg.FAB_FENCE, Reg.COL_CTX_STAT] at h
  omega

theorem not_collRegs_count : ¬ collRegs Reg.FAB_FENCE_COUNT := by
  rintro ⟨i, -, h⟩
  simp only [Reg.FAB_FENCE_COUNT, Reg.COL_CTX_STAT] at h
  omega

/-- The registers of the whole bitmap and its count. -/
def allFenceRegs (off : Nat) : Prop := off = Reg.FAB_FENCE_COUNT ∨ ∃ w, w < 384 ∧ off = Reg.FAB_FENCE w

theorem near_clearFences (s : State) : Near allFenceRegs s s.clearFences :=
  ((Near.refl _ s).foldl fun _ w hw => near_wr _ _ (.inl (.inr ⟨w, List.mem_range.mp hw, rfl⟩))).setFld _ _ _ (.inl (.inl rfl))

theorem fenced_clearFences (s : State) (hn : n < 24576) : s.clearFences.fenced n = false := by
  have hword : s.clearFences.rd (Reg.FAB_FENCE (n / 64)) = 0 :=
    (rd_setFld_ne _ _ (fence_ne_count _)).trans (rd_foldl_wr_mem (reg := Reg.FAB_FENCE) (val := fun _ => 0)
      (fun i hi => by simp only [Reg.FAB_FENCE] at hi; omega) (List.mem_range.mpr (by omega)))
  rw [State.fenced, fld_def, hword]
  simp [getField]

theorem fenceCount_clearFences (s : State) : s.clearFences.fld Reg.FAB_FENCE_COUNT Fld.FAB_FENCE_COUNT_COUNT = 0 :=
  fld_setFld_here _ _ _ _ (by decide)

end Sys2Proof.Machine
end

section
/-!
SUPPORT. The commands of a fence (R335, R344, R464): the FENCE packet, the writes of T0, and their statement.
-/
namespace Sys2Proof.Machine

variable {s : State} {p : Packet} {n : Nat}

/-! ### Packets that arrived -/

/-- A packet that a sink refuses is taken and counted (R319). -/
theorem badPacket_raised (s : State) (p : Packet) : raised Reg.FAB_STATUS Fld.FAB_STATUS_BADPKT Reg.FAB_BADPKT_CNT s (s.take p).badPacket ∧
    Near (fun off => off = Reg.FAB_STATUS ∨ off = Reg.FAB_BADPKT_CNT) (s.take p) (s.take p).badPacket :=
  ⟨raised_event (s.take p) _ _ _ (by decide), (Near.refl _ _).event _ _ _ (.inl (.inl rfl)) (.inl (.inr rfl))⟩

theorem fencePacketRx_refused (h : p.type ≠ 6 ∨ p.malformed = true) : exec (.fencePacketRx p) s = .next (s.take p).badPacket :=
  congrArg Host.Outcome.next (if_pos h)

section
variable (h6 : p.type = 6) (hok : p.malformed = false) (hn : n = leNat (p.body.take 2))
include h6 hok hn

theorem fencePacketRx_eq : exec (.fencePacketRx p) s =
    .next ((s.take p).fenceEpoch n (leNat ((p.body.drop 4).take 4)) (leNat ((p.body.drop 8).take 2))) := by
  subst hn
  exact congrArg Host.Outcome.next (if_neg (by rw [h6, hok]; decide))

/-- A FENCE of an epoch below the highest heard is stale (R464). -/
theorem fencePacketRx_stale (he : leNat ((p.body.drop 4).take 4) < s.peerEpoch.get 0 n) : exec (.fencePacketRx p) s =
    .next ((s.take p).event Reg.GLB_RAS_STATUS (bitField 7) Reg.GLB_STALE_CNT) :=
  (fencePacketRx_eq h6 hok hn).trans (congrArg Host.Outcome.next (if_pos he))

theorem fencePacketRx_fresh (he : s.peerEpoch.get 0 n ≤ leNat ((p.body.drop 4).take 4)) : exec (.fencePacketRx p) s =
    .next ((s.take p).applyFence n (leNat ((p.body.drop 8).take 2))) :=
  (fencePacketRx_eq h6 hok hn).trans (congrArg Host.Outcome.next (if_neg (Nat.not_lt.mpr he)))

end

/-! ### Writes of T0 -/

theorem exec_fenceSet (s : State) (chip : BitVec 15) : exec (.fenceSet 0 chip) s = .next (s.applyFence chip.toNat s.chip) := rfl

theorem exec_fenceClear (s : State) (chip : BitVec 15) : exec (.fenceClear 0 chip) s = .next (s.setFence chip.toNat false).showColls := rfl

theorem exec_fenceClearAll (s : State) : exec (.fenceClearAll 0) s = .next s.clearFences.showColls := rfl

/-- A fence of T0 that is not stale is applied here and multicast (R464). -/
theorem exec_glbFenceIssue {v : BitVec 64} (hn : n = v.toNat % 2 ^ 15) (he : s.peerEpoch.get 0 n ≤ v.toNat / 2 ^ 32) :
    exec (.glbFenceIssue 0 v) s = .next ((s.applyFence n s.chip).multicastFence n 1 (v.toNat / 2 ^ 32)) := by
  have happly : s.fenceEpoch n (v.toNat / 2 ^ 32) s.chip = s.applyFence n s.chip := if_neg (Nat.not_lt.mpr he)
  rw [← happly, hn]
  rfl

/-- Tenants other than T0 change no fence. -/
theorem fenceWrites_ignored {b : Fin 4} (hb : b ≠ 0) (chip : BitVec 15) (v : BitVec 64) : exec (.fenceSet b chip) s = .next s ∧
    exec (.fenceClear b chip) s = .next s ∧ exec (.fenceClearAll b) s = .next s ∧ exec (.glbFenceIssue b v) s = .next s :=
  ⟨congrArg Host.Outcome.next (if_neg hb), congrArg Host.Outcome.next (if_neg hb), congrArg Host.Outcome.next (if_neg hb),
    congrArg Host.Outcome.next (if_neg hb)⟩

/-- Clearing a bit leaves the other chips' bits, and the contexts show the fences that are left (R344, R379). -/
theorem fenceClear_clears {chip : BitVec 15} (hn : chip.toNat < 24576) (hf : s.fenced chip.toNat = true) (hcolls : ∀ x ∈ s.colls, x.1 < 16) :
    Completes (.fenceClear 0 chip) s (fun t => t.fenced chip.toNat = false ∧ (∀ m, m < 24576 → m ≠ chip.toNat → t.fenced m = s.fenced m) ∧
      t.fld Reg.FAB_FENCE_COUNT Fld.FAB_FENCE_COUNT_COUNT =
        (s.fld Reg.FAB_FENCE_COUNT Fld.FAB_FENCE_COUNT_COUNT - 1) % 2 ^ Fld.FAB_FENCE_COUNT_COUNT.width ∧
      Near (fun off => off = Reg.FAB_FENCE (chip.toNat / 64) ∨ off = Reg.FAB_FENCE_COUNT ∨ collRegs off) s t) := by
  have hv : s.fenced chip.toNat ≠ false := by rw [hf]; exact Bool.noConfusion
  have hset := near_setFence s chip.toNat false
  have hkept : (s.setFence chip.toNat false).colls = s.colls := by rw [hset.eq]
  have hshow := near_showColls (s := s.setFence chip.toNat false) (by rwa [hkept])
  have hbit : ∀ m, m < 24576 → (s.setFence chip.toNat false).showColls.fenced m = (s.setFence chip.toNat false).fenced m :=
    fun m hm => hshow.fenced hm (not_collRegs_fence (by omega))
  exact ⟨_, exec_fenceClear s chip, (hbit _ hn).trans (fenced_setFence_here hn hv),
    fun m hm hne => (hbit m hm).trans (fenced_setFence_ne hn hv hne),
    (hshow.fld _ not_collRegs_count (by decide)).trans (fenceCount_setFence hn hv),
    (hset.mono fun _ h => h.imp_right .inl).trans (hshow.mono fun _ h => .inr (.inr h))⟩

theorem fenceClearAll_clears (hcolls : ∀ x ∈ s.colls, x.1 < 16) : Completes (.fenceClearAll 0) s (fun t =>
    (∀ m, m < 24576 → t.fenced m = false) ∧ t.fld Reg.FAB_FENCE_COUNT Fld.FAB_FENCE_COUNT_COUNT = 0 ∧
      Near (fun off => off = Reg.FAB_FENCE_COUNT ∨ (∃ w, w < 384 ∧ off = Reg.FAB_FENCE w) ∨ collRegs off) s t) := by
  have hclear := near_clearFences s
  have hkept : s.clearFences.colls = s.colls := by rw [hclear.eq]
  have hshow := near_showColls (s := s.clearFences) (by rwa [hkept])
  exact ⟨_, exec_fenceClearAll s,
    fun m hm => (hshow.fenced hm (not_collRegs_fence (by omega))).trans (fenced_clearFences s hm),
    (hshow.fld _ not_collRegs_count (by decide)).trans (fenceCount_clearFences s),
    (hclear.mono fun _ h => h.imp_right .inl).trans (hshow.mono fun _ h => .inr (.inr h))⟩

/-- Settles O38: a fence bit newly set is marked and then reaches what waits for the chip, clause by clause. -/
theorem fencesApplied : Obligations.FencesApplied := by
  unfold Obligations.FencesApplied
  refine ⟨?set, ?drop, ?alone, ?void, ?stale, ?packet, ?fresh, ?refused, ?issue, ?clear, ?clearAll, ?others⟩
  case set =>
    intro s chip hn hf
    obtain ⟨hbit, hothers, hcount, hnear⟩ := fenceMarked_marks s.chip hn hf
    exact ⟨s.fenceMarked chip.toNat s.chip, hbit, hothers, hcount, hnear, (exec_fenceSet s chip).trans (by rw [applyFence_new s.chip hn hf])⟩
  case drop => exact fun s n _ => dropFenced_drops s n
  case alone =>
    intro s chip hn hf halone
    obtain ⟨hbit, hothers, hcount, hnear⟩ := fenceMarked_marks s.chip hn hf
    exact ⟨s.fenceMarked chip.toNat s.chip, (exec_fenceSet s chip).trans (by rw [applyFence_alone halone s.chip hn hf]), hbit, hcount, hothers, hnear⟩
  case void => exact fun s chip h => (exec_fenceSet s chip).trans (by rw [applyFence_void s.chip h])
  case stale =>
    intro s p n e _ h6 hok hn he hstale
    subst he
    exact ⟨_, fencePacketRx_stale h6 hok hn hstale, raised_event (s.take p) _ _ _ (by decide),
      (Near.refl _ _).event _ _ _ (.inl (.inl rfl)) (.inl (.inr rfl))⟩
  case packet =>
    intro s p n h6 hok hn hlt he hf halone
    obtain ⟨hbit, hothers, -, hnear⟩ := fenceMarked_marks (s := s.take p) (leNat ((p.body.drop 8).take 2)) hlt hf
    exact ⟨_, (fencePacketRx_fresh h6 hok hn he).trans (by rw [applyFence_alone halone _ hlt hf]), hbit, hothers, hnear⟩
  case fresh => exact fun s p h6 hok he => fencePacketRx_fresh h6 hok rfl he
  case refused => exact fun s p _ h => ⟨_, fencePacketRx_refused h, badPacket_raised s p⟩
  case issue => exact fun s v n hn he => ⟨_, rfl, applyFence_void s.chip, _, exec_glbFenceIssue hn he, rfl, rfl⟩
  case clear => exact fun s chip => fenceClear_clears
  case clearAll => exact fun s => fenceClearAll_clears
  case others => exact fun s b chip v hb => fenceWrites_ignored hb chip v

end Sys2Proof.Machine
end

section
/-!
SUPPORT. A detected error that is charged to a unit, whatever the unit (R445, R453, R457, R466): its class is counted, memory is written only by
the error log, and the unit's test joins the queue.
-/
namespace Sys2Proof.Machine

variable {e : Nat → Prop} {s t u : State} {v cls : Nat}

/-! ### Trace rings, whatever the unit, with all that they leave alone (R473 to R479, R484) -/

theorem near_ringLose (s : State) (v : Nat) (a b : BitVec 64) : Near farRegs s (s.ringLose v a b) := by
  unfold State.ringLose
  exact ((((Near.refl _ s).setRing v _).setFld _ _ _ (.inl (far_ringStat v))).event _ _ _ (.inr (by decide)) (.inr (by decide))).bumpGlb _ _ _

theorem near_ringPut (s : State) (r : TraceRec) : Near farRegs s (s.ringPut r) := by
  have hlose : ∀ old : TraceRec, Near farRegs s (s.ringLose r.unit old.tsc old.cpos) := fun old => near_ringLose s _ _ _
  have htaken : ∀ (x : State) (y : Ring) (n : Nat), Near farRegs s x → Near farRegs s
      (if r.unit < 64 then ((x.setRing r.unit y).setFld (Reg.TRC_RING_STAT r.unit) Fld.TRC_RING_STAT_WRITTEN n).bumpClu r.unit 0x14 0 1
        else (x.setRing r.unit y).setFld (Reg.TRC_RING_STAT r.unit) Fld.TRC_RING_STAT_WRITTEN n) := fun x y n hx =>
    have hput := (hx.setRing r.unit y).setFld (Reg.TRC_RING_STAT r.unit) Fld.TRC_RING_STAT_WRITTEN n (.inl (far_ringStat r.unit))
    Near.ite (fun _ => hput.bumpClu _ _ _ _) (fun _ => hput)
  unfold State.ringPut
  dsimp only
  refine Near.ite (fun _ => Near.refl _ s) (fun _ => Near.ite (fun _ => hlose r) (fun _ => htaken _ _ _ ?_))
  split
  · exact Near.ite (fun _ => hlose _) (fun _ => Near.refl _ s)
  · exact Near.refl _ s

theorem near_triggerRing (s : State) (v source : Nat) : Near farRegs s (s.triggerRing v source) := by
  unfold State.triggerRing
  dsimp only
  exact Near.ite (fun _ => Near.refl _ s) (fun _ => Near.ite (fun _ => Near.refl _ s)
    (fun _ => ((near_ringPut s _).setFld _ _ _ (.inl (far_ringStat v))).setRing _ _))

/-- The ring that a unit's error triggers may bear any number: its registers lie from those of the trace on. -/
theorem near_trigger (s : State) (v source : Nat) : Near farRegs s (s.trigger v source) := by
  have hev : Near farRegs s (s.event Reg.TRC_STATUS Fld.TRC_STATUS_TRIG Reg.TRC_TRIG_CNT) :=
    (Near.refl _ s).event _ _ _ (.inr (by decide)) (.inr (by decide))
  exact Near.ite (fun _ => hev.foldl fun x w _ => near_triggerRing x w source) (fun _ => hev.trans (near_triggerRing _ v source))

/-! ### What follows the count of an error -/

/-- The registers that charging an error writes besides the counts of detected errors and of its class. -/
def tailRegs (off : Nat) : Prop :=
  off = Reg.GLB_RAS_STATUS ∨ off = Reg.GLB_CONFIRM_CNT ∨ off = Reg.GLB_UNTESTED_CNT ∨ off = Reg.GLB_ERR_LOG_IDX ∨ farRegs off

/-- `t` is what charging an error may make of `s` once the error is counted: other registers are kept, and memory too while the error log is
off. -/
structure ChargeTail (s t : State) : Prop where
  regs : regsKept tailRegs s t
  mem : s.fld Reg.GLB_ERR_LOG_CTL Fld.GLB_ERR_LOG_CTL_EN = 0 → t.mem = s.mem

theorem not_tailRegs_class (i : Nat) (hi : i < 8) : ¬ tailRegs (Reg.GLB_CLASS_CNT i) := by
  have hc : i = 0 ∨ i = 1 ∨ i = 2 ∨ i = 3 ∨ i = 4 ∨ i = 5 ∨ i = 6 ∨ i = 7 := by omega
  unfold tailRegs farRegs
  rcases hc with rfl | rfl | rfl | rfl | rfl | rfl | rfl | rfl <;> decide

theorem not_tailRegs_logCtl : ¬ tailRegs Reg.GLB_ERR_LOG_CTL := by unfold tailRegs farRegs; decide

namespace ChargeTail

theorem refl (s : State) : ChargeTail s s := ⟨regsKept.refl _ s, fun _ => rfl⟩

theorem trans (h : ChargeTail s t) (k : ChargeTail t u) : ChargeTail s u :=
  ⟨h.regs.trans k.regs, fun hen => (k.mem ((fld_of_rd _ (h.regs _ not_tailRegs_logCtl)).trans hen)).trans (h.mem hen)⟩

theorem ite {p : Prop} [Decidable p] (h : ChargeTail s t) (k : ChargeTail s u) : ChargeTail s (if p then t else u) := by
  split <;> assumption

theorem of_regs (hr : regsKept tailRegs s t) (hm : t.mem = s.mem) : ChargeTail s t := ⟨hr, fun _ => hm⟩

theorem of_noted (h : Noted farRegs s t) : ChargeTail s t :=
  of_regs (fun off ho => h.farKept off (fun hf => ho (.inr (.inr (.inr (.inr hf)))))) (by rw [h.eq])

theorem of_near (h : Near farRegs s t) : ChargeTail s t := of_noted h.noted

/-- A unit's record is written, and stands as the last change (R463). -/
theorem recorded (h : ChargeTail s t) (v : Nat) (r : UnitRec) (l : Nat × Nat × Nat × Nat) :
    ChargeTail s { t.setUnit v r with lastChange := l } := h.trans (of_regs ((regsKept.refl _ t).of_regs rfl) rfl)

end ChargeTail

theorem logError_tail (s : State) (x : LogEntry) : ChargeTail s (s.logError x) := by
  unfold State.logError
  split
  · exact ChargeTail.refl s
  · next hen =>
    have hwrite := fun (a : Nat) (bs : List Byte) =>
      ((regsKept.refl farRegs s).of_regs (u := s.onBehalf 0) rfl).trans (write_farKept (s.onBehalf 0) a bs)
    refine ⟨(?_ : regsKept tailRegs s _).setFld _ _ (.inr (.inr (.inr (.inl rfl)))), fun h0 => absurd h0 hen⟩
    exact fun off ho => hwrite _ _ off (fun hf => ho (.inr (.inr (.inr (.inr hf)))))

theorem unitChange_tail (s : State) (v : Nat) (r : UnitRec) (outcome cause : Nat) : ChargeTail s (s.unitChange v r outcome cause) :=
  ((ChargeTail.refl s).recorded v r _).trans (.of_noted (noted_unitChange farRegs s v r outcome cause))

theorem confirm_tail (s : State) (v cause : Nat) : ChargeTail s (s.confirm v cause) := by
  unfold State.confirm
  extract_lets r
  have hcnt : ChargeTail s (s.cnt Reg.GLB_CONFIRM_CNT) := .of_regs ((regsKept.refl _ s).cnt (.inr (.inl rfl))) rfl
  exact (hcnt.recorded v { r with conf := r.conf + 1 } (v, r.state, 4, cause)).trans (.of_noted (Noted.refl _ _).epochUp)

theorem untested_tail (s : State) (q : TestReq) : ChargeTail s (s.untested q) := by
  unfold State.untested
  extract_lets s1 r s2 s3
  have h1 : ChargeTail s s1 := .of_regs ((regsKept.refl _ s).event _ (.inl rfl) (.inr (.inr (.inl rfl)))) rfl
  clear_value s1
  have h3 : ChargeTail s s3 := h1.recorded _ _ _
  exact h3.trans (logError_tail s3 _)

theorem setTestsFor_tail (s : State) (v : Nat) (l : List TestReq) : ChargeTail s (s.setTestsFor v l) := by
  unfold State.setTestsFor
  split <;> exact .of_regs ((regsKept.refl _ s).of_regs rfl) rfl

/-- The error and its class are counted (R445, R466). -/
def State.chargeCounted (s : State) (cls : Nat) : State :=
  (s.event Reg.GLB_RAS_STATUS (bitField 0) Reg.GLB_DETECT_CNT).cnt (Reg.GLB_CLASS_CNT (cls - 1))

/-- Besides, it is recorded, and triggers the ring of its unit (R478). -/
def State.chargeRecorded (s : State) (cls v : Nat) : State :=
  ((s.chargeCounted cls).trace 79 0x16 cls 0 (peerWord 0 0 0 v 0)).trigger (unitRing v) 2

theorem near_chargeRecorded (s : State) (cls v : Nat) : Near farRegs (s.chargeCounted cls) (s.chargeRecorded cls v) :=
  (near_ringPut _ _).trans (near_trigger _ _ _)

/-- Once it is counted, a charged error touches the trace, the log, the unit's record and its tests. -/
theorem charge_tail (s : State) (cls v tenant dpa : Nat) : ChargeTail (s.chargeCounted cls) (s.charge cls v tenant dpa) := by
  have h4 : ChargeTail (s.chargeCounted cls) (s.chargeRecorded cls v) := .of_near (near_chargeRecorded s cls v)
  unfold State.charge
  extract_lets s1 s2 s3 s4 q log r s5 tests s6 rec
  have hs4 : s4 = s.chargeRecorded cls v := rfl
  have hlog : ChargeTail s4 (log s4) := logError_tail s4 _
  rw [← hs4] at h4
  clear_value s4
  have h5 : ChargeTail (s.chargeCounted cls) s5 := .ite (h4.trans (confirm_tail s4 _ _)) h4
  clear_value s5
  exact .ite (h4.trans hlog) (.ite h4 (.ite (h5.trans (untested_tail s5 q))
    ((h5.trans (setTestsFor_tail s5 _ _)).trans (unitChange_tail s6 _ _ _ _))))

/-- Its class is counted once. -/
theorem charge_class (s : State) {cls : Nat} (h1 : 1 ≤ cls) (h8 : cls ≤ 8) (v tenant dpa : Nat) :
    counted (Reg.GLB_CLASS_CNT (cls - 1)) 1 s (s.charge cls v tenant dpa) := by
  have hevent : (s.event Reg.GLB_RAS_STATUS (bitField 0) Reg.GLB_DETECT_CNT).rd (Reg.GLB_CLASS_CNT (cls - 1)) =
      s.rd (Reg.GLB_CLASS_CNT (cls - 1)) :=
    rd_event_ne _ (by simp only [Reg.GLB_CLASS_CNT, Reg.GLB_RAS_STATUS]; omega) (by simp only [Reg.GLB_CLASS_CNT, Reg.GLB_DETECT_CNT]; omega)
  have hcount : counted (Reg.GLB_CLASS_CNT (cls - 1)) 1 s (s.chargeCounted cls) := .of_rd hevent (rd_cnt_here _ _)
  exact ((charge_tail s cls v tenant dpa).regs _ (not_tailRegs_class _ (by omega))).trans hcount

/-- While the error log is off, memory stays as it was. -/
theorem charge_mem (s : State) (cls v tenant dpa : Nat)
    (hlog : s.fld Reg.GLB_ERR_LOG_CTL Fld.GLB_ERR_LOG_CTL_EN = 0) : (s.charge cls v tenant dpa).mem = s.mem := by
  refine (charge_tail s cls v tenant dpa).mem ?_
  rw [State.chargeCounted, fld_cnt_ne _ (by simp only [Reg.GLB_CLASS_CNT, Reg.GLB_ERR_LOG_CTL]; omega), fld_event_ne _ _ (by decide) (by decide), hlog]

/-! ### The test that is queued -/

/-- `t` has the clusters, the tests, the memory and the unit records of `s` but for the record of unit `v`. -/
structure UnitOnly (v : Nat) (s t : State) : Prop where
  clu : t.clu = s.clu
  hbmTests : t.hbmTests = s.hbmTests
  mem : t.mem = s.mem
  units : ∀ w, w ≠ v → t.unitOf w = s.unitOf w

namespace UnitOnly

theorem refl (v : Nat) (s : State) : UnitOnly v s s := ⟨rfl, rfl, rfl, fun _ _ => rfl⟩

theorem trans (h : UnitOnly v s t) (k : UnitOnly v t u) : UnitOnly v s u :=
  ⟨k.clu.trans h.clu, k.hbmTests.trans h.hbmTests, k.mem.trans h.mem, fun w hw => (k.units w hw).trans (h.units w hw)⟩

theorem of_noted (h : Noted e s t) : UnitOnly v s t := by
  have hunits : t.units = s.units := by rw [h.eq]
  exact ⟨by rw [h.eq], by rw [h.eq], by rw [h.eq], fun w _ => by rw [State.unitOf, hunits]; rfl⟩

theorem recorded (s : State) (v : Nat) (r : UnitRec) (l : Nat × Nat × Nat × Nat) : UnitOnly v s { s.setUnit v r with lastChange := l } :=
  ⟨rfl, rfl, rfl, fun w hw => Tab.get_set_ne ({} : UnitRec) s.units v r w hw⟩

theorem testsFor (h : UnitOnly v s t) (w : Nat) : t.testsFor w = s.testsFor w := by
  unfold State.testsFor State.cl
  rw [h.clu, h.hbmTests]

end UnitOnly

theorem unitOnly_unitChange (s : State) (v : Nat) (r : UnitRec) (outcome cause : Nat) : UnitOnly v s (s.unitChange v r outcome cause) :=
  (UnitOnly.recorded s v r _).trans (.of_noted (noted_unitChange (fun _ => False) s v r outcome cause))

theorem unitOnly_confirm (s : State) (v cause : Nat) : UnitOnly v s (s.confirm v cause) :=
  (UnitOnly.of_noted ((Near.refl (· = Reg.GLB_CONFIRM_CNT) s).cnt _ (.inl rfl)).noted).trans
    ((UnitOnly.recorded _ v _ _).trans (.of_noted (Noted.refl (fun _ => False) _).epochUp))

/-- The tests of a unit's engine, just set. -/
theorem testsFor_setTestsFor (s : State) (v : Nat) (l : List TestReq) : (s.setTestsFor v l).testsFor v = l ∧
    (s.setTestsFor v l).mem = s.mem ∧ (s.setTestsFor v l).units = s.units := by
  unfold State.setTestsFor State.testsFor
  cases unitCluster v with
  | none => exact ⟨rfl, rfl, rfl⟩
  | some c => exact ⟨by dsimp only; rw [cl_modCl_here], rfl, rfl⟩

theorem unitOnly_chargeRecorded (s : State) (cls v w : Nat) : UnitOnly w s (s.chargeRecorded cls v) :=
  (UnitOnly.of_noted (e := fun _ => True) (((Near.refl _ s).event _ _ _ (.inl trivial) (.inl trivial)).cnt _ (.inl trivial)).noted).trans
    (.of_noted (near_chargeRecorded s cls v).noted)

/-- The test of an error charged at the time of `s`. -/
def State.testAsked (s : State) (cls v tenant dpa : Nat) : TestReq :=
  { unit := v, cls := cls, tenant := tenant, dpa := dpa, cpos := s.rd Reg.CAD_POS, tsc := s.now }

/-- The registers of the cadence are not among those of a charge. -/
theorem testAsked_chargeRecorded (s : State) {cls : Nat} (h1 : 1 ≤ cls) (h8 : cls ≤ 8) (v tenant dpa : Nat) :
    (s.chargeRecorded cls v).testAsked cls v tenant dpa = s.testAsked cls v tenant dpa := by
  have hkept : ∀ off, 0x40000 ≤ off → ¬ farRegs off → (s.chargeRecorded cls v).rd off = s.rd off := by
    intro off hlo hfar
    refine ((near_chargeRecorded s cls v).farKept off hfar).trans ?_
    rw [State.chargeCounted, rd_cnt_ne (by simp only [Reg.GLB_CLASS_CNT]; omega),
      rd_event_ne _ (by simp only [Reg.GLB_RAS_STATUS]; omega) (by simp only [Reg.GLB_DETECT_CNT]; omega)]
  rw [State.testAsked, State.now, hkept _ (by decide) (by unfold farRegs; decide), hkept _ (by decide) (by unfold farRegs; decide)]
  rfl

/-- The unit that an error is charged to, its condition confirmed where its record is open (R457). -/
def State.chargeConfirmed (s : State) (cls v : Nat) : State :=
  if (s.unitOf v).cond then (s.chargeRecorded cls v).confirm v cls else s.chargeRecorded cls v

theorem unitOnly_chargeConfirmed (s : State) (cls v : Nat) : UnitOnly v s (s.chargeConfirmed cls v) := by
  have hrec := unitOnly_chargeRecorded s cls v v
  unfold State.chargeConfirmed
  split
  · exact hrec.trans (unitOnly_confirm _ v cls)
  · exact hrec

/-- A test joins the queue of its unit, which enters TESTING (R453). -/
def State.queueTest (s : State) (q : TestReq) : State :=
  let t := s.setTestsFor q.unit (s.testsFor q.unit ++ [q])
  t.unitChange q.unit { t.unitOf q.unit with state := 2 } 0 q.cls

/-- The error of a unit in service, of a kind that takes a test, whose engine has room (R453). -/
theorem charge_queued (s : State) (cls v tenant dpa : Nat) (h1 : 1 ≤ cls) (h8 : cls ≤ 8) (h2 : s.unitState v ≠ 2) (h3 : s.unitState v ≠ 3)
    (hkind : ∀ k ∈ [0, 8, 9, 10], v / 2 ^ 28 ≠ k)
    (hroom : unitCluster v = none ∨ ((s.testsFor v).filter (fun (x : TestReq) => !x.running)).length < 4) :
    s.charge cls v tenant dpa = (s.chargeConfirmed cls v).queueTest (s.testAsked cls v tenant dpa) := by
  have hunit : (s.chargeRecorded cls v).unitOf v = s.unitOf v := (unitOnly_chargeRecorded s cls v (v + 1)).units v (by omega)
  have htests := (unitOnly_chargeConfirmed s cls v).testsFor v
  have hasked := testAsked_chargeRecorded s h1 h8 v tenant dpa
  have hconfirmed : s.chargeConfirmed cls v =
    if ((s.chargeRecorded cls v).unitOf v).cond then (s.chargeRecorded cls v).confirm v cls else s.chargeRecorded cls v := by rw [hunit]; rfl
  simp only [List.mem_cons, List.not_mem_nil, or_false, forall_eq_or_imp, forall_eq] at hkind
  obtain ⟨hk0, hk8, hk9, hk10⟩ := hkind
  have hno : ¬ ((unitCluster v).isSome = true ∧ 4 ≤ (((s.chargeConfirmed cls v).testsFor v).filter (fun (x : TestReq) => !x.running)).length) := by
    rintro ⟨hsome, hfull⟩
    rw [htests] at hfull
    rcases hroom with hnone | hlt
    · rw [hnone] at hsome; exact Bool.false_ne_true hsome
    · exact absurd hlt (Nat.not_lt.mpr hfull)
  have hfree : ¬ (((s.chargeRecorded cls v).unitOf v).state = 2 ∨ ((s.chargeRecorded cls v).unitOf v).state = 3) := by
    rw [hunit, not_or]
    exact ⟨h2, h3⟩
  calc s.charge cls v tenant dpa
    _ = (s.chargeConfirmed cls v).queueTest ((s.chargeRecorded cls v).testAsked cls v tenant dpa) :=
      (if_neg hfree).trans ((if_neg (by tauto)).trans (by rw [hconfirmed] at hno ⊢; exact if_neg hno))
    _ = _ := by rw [hasked]

end Sys2Proof.Machine
end

section
/-!
SUPPORT. Unit-state records, the epoch, DECLARE_OFFLINE, reported errors and FAB_DETOUR (R345, R445, R461 to R464, R469); they settle O39.
-/
namespace Sys2Proof.Machine

variable {e : Nat → Prop} {s t u : State} {p : Packet} {n v hop plane : Nat} {k : Fin 6}

/-! ### A record arrives (R463, R464) -/

/-- What a good record leaves before a peer that is OFFLINE is fenced. -/
def State.heardRecord (s : State) (body : List Byte) : State :=
  let n := leNat ((body.drop 4).take 2)
  let e := leNat (body.take 4)
  { s with
    peerEpoch := s.peerEpoch.set 0 n (max e (s.peerEpoch.get 0 n))
    peerRec := if (s.isPeer n || n == s.twin) && Nat.ble (leNat ((s.peerRec.get [] n).take 4)) e then s.peerRec.set [] n body else s.peerRec }

theorem unitRecordRx_good (s : State) {body : List Byte} (hlen : body.length = 64)
    (hcrc : leNat (body.drop 60) = (crc32c (body.take 60)).toNat) :
    s.unitRecordRx body = if s.isPeer (leNat ((body.drop 4).take 2)) ∧ leNat ((body.drop 6).take 1) = 5 then
      (s.heardRecord body).issueFence (leNat ((body.drop 4).take 2)) 0 (leNat (body.take 4)) else s.heardRecord body := by
  unfold State.unitRecordRx
  extract_lets n e s1 newer s2
  have hs2 : s2 = s.heardRecord body := by
    have hkeep : (((s1.isPeer n || n == s1.twin) && decide newer) = true) =
        (((s.isPeer n || n == s.twin) && Nat.ble (leNat ((s.peerRec.get [] n).take 4)) e) = true) := by
      rw [Bool.and_eq_true, Bool.and_eq_true, decide_eq_true_eq, Nat.ble_eq]
      rfl
    unfold State.heardRecord
    dsimp only [s2]
    simp only [hkeep]
    split <;> rfl
  have hpeer : s2.isPeer n = s.isPeer n := by rw [hs2]; rfl
  refine (if_neg (by rw [not_or, not_ne_iff, not_ne_iff]; exact ⟨hlen, hcrc⟩)).trans ?_
  rw [← hs2, ← hpeer]

theorem exec_unitstateRx (h8 : p.type = 8) (hok : p.malformed = false) :
    exec (.unitstateRx p) s = .next ((s.take p).unitRecordRx p.body) :=
  congrArg Host.Outcome.next (if_neg (by rw [h8, hok]; decide))

theorem unitstateRx_refused (h : p.type ≠ 8 ∨ p.malformed = true) : exec (.unitstateRx p) s = .next (s.take p).badPacket :=
  congrArg Host.Outcome.next (if_pos h)

/-! ### A record is published (R462, R463) -/

/-- A packet that carries a record from chip `chip` to chip `n`. -/
def recordPacket (chip : Nat) (body : List Byte) (n : Nat) : Packet := { dst := n, src := chip, tc := 2, type := 8, body := body }

theorem foldl_recordPacket (s : State) (body : List Byte) (l : List Nat) :
    l.foldl (fun (x : State) n => x.inject (recordPacket x.chip body n)) s =
      { s with rt := { s.rt with rin := s.rt.rin ++ l.map (fun n => { p := recordPacket s.chip body n }) } } := by
  induction l generalizing s with
  | nil => simp
  | cons n l ih =>
    have hchip : (s.inject (recordPacket s.chip body n)).chip = s.chip := rfl
    rw [List.foldl_cons, ih, hchip]
    simp [State.inject]

/-- The chips that a record goes to: the peer of every ACTIVE port, and the twin. -/
def State.recordChips (s : State) : List Nat :=
  (((List.range 12).filter (fun p => s.linkState p == 5)).map (fun p => s.fld (Reg.PRT_PEER p) Fld.PRT_PEER_CHIP) ++ [s.twin]).eraseDups

theorem mem_recordChips (h : n = s.twin ∨ ∃ p, p < 12 ∧ s.linkState p = 5 ∧ n = s.fld (Reg.PRT_PEER p) Fld.PRT_PEER_CHIP) :
    n ∈ s.recordChips := by
  rw [State.recordChips, List.mem_eraseDups, List.mem_append]
  rcases h with rfl | ⟨p, hp, hactive, rfl⟩
  · exact .inr (List.mem_singleton.mpr rfl)
  · exact .inl (List.mem_map.mpr ⟨p, List.mem_filter.mpr ⟨List.mem_range.mpr hp, beq_iff_eq.mpr hactive⟩, rfl⟩)

/-- The records on their way, and the board manager told. -/
def State.recordsSent (s : State) : State :=
  let t : State := { s with rt := { s.rt with rin := s.rt.rin ++ s.recordChips.map (fun n => { p := recordPacket s.chip s.unitRecord n }) } }
  (t.tellKeeper 4 (t.fld Reg.GLB_UNIT_EPOCH Fld.GLB_UNIT_EPOCH_EPOCH) 0).say (.ibi 2)

theorem publish_eq (s : State) : s.publish = (s.recordsSent.cnt Reg.GLB_RECORD_TX_CNT).bumpGlb 0x11 0 1 := by
  have hfold := foldl_recordPacket s s.unitRecord s.recordChips
  unfold State.publish State.recordsSent
  dsimp only
  rw [← hfold]
  rfl

theorem publish_counted (s : State) : counted Reg.GLB_RECORD_TX_CNT 1 s s.publish := by
  rw [publish_eq]
  have hcount : counted Reg.GLB_RECORD_TX_CNT 1 s (s.recordsSent.cnt Reg.GLB_RECORD_TX_CNT) := rd_cnt_here s.recordsSent _
  exact hcount.near ((Near.refl (fun _ => False) _).bumpGlb _ _ _) id (by decide)

theorem publish_rin (s : State) :
    s.publish.rt.rin = s.rt.rin ++ s.recordChips.map (fun n => { p := recordPacket s.chip s.unitRecord n }) := by
  rw [publish_eq, ((Near.refl (fun _ => False) (s.recordsSent.cnt Reg.GLB_RECORD_TX_CNT)).bumpGlb 0x11 0 1).eq]
  rfl

theorem publish_sent (h : n ∈ s.recordChips) :
    ∃ q ∈ s.publish.rt.rin, q.p.dst = n ∧ q.p.tc = 2 ∧ q.p.type = 8 ∧ q.p.body = s.unitRecord := by
  rw [publish_rin]
  exact ⟨{ p := recordPacket s.chip s.unitRecord n }, List.mem_append_right _ (List.mem_map.mpr ⟨n, h, rfl⟩), rfl, rfl, rfl, rfl⟩

theorem publish_noted (s : State) : Noted (· = Reg.GLB_RECORD_TX_CNT) s s.publish := (Noted.refl _ s).publish

/-! ### The epoch (R462) -/

/-- `t` has the state epoch of `s`. -/
def EpochKept (s t : State) : Prop := regsKept (· ≠ Reg.GLB_UNIT_EPOCH) s t

theorem EpochKept.fld (h : EpochKept s t) : t.fld Reg.GLB_UNIT_EPOCH Fld.GLB_UNIT_EPOCH_EPOCH = s.fld Reg.GLB_UNIT_EPOCH Fld.GLB_UNIT_EPOCH_EPOCH :=
  fld_of_rd _ (h _ (not_not.mpr rfl))

theorem evq_epochKept (s : State) (w type cluster info : Nat) : EpochKept s (s.evq w type cluster info) := by
  have hidx : Reg.HIF_EVQ_IDX (w - 1) ≠ Reg.GLB_UNIT_EPOCH := by simp only [Reg.HIF_EVQ_IDX, Reg.GLB_UNIT_EPOCH]; omega
  have hrefl : EpochKept s s := regsKept.refl _ s
  unfold State.evq
  refine regsKept.ite (hrefl.of_regs rfl) (regsKept.ite hrefl ?_)
  split
  · exact hrefl
  · exact regsKept.ite ((hrefl.of_regs rfl).event _ (by decide) (by decide))
      ((((hrefl.of_regs rfl).setFld _ _ hidx).of_regs rfl).of_regs rfl)

theorem publish_epochKept (s : State) : EpochKept s s.publish := by
  rw [publish_eq]
  have hcnt : EpochKept s (s.recordsSent.cnt Reg.GLB_RECORD_TX_CNT) := ((regsKept.refl _ s).of_regs rfl).cnt (by decide)
  exact hcnt.trans fun off ho =>
    ((Near.refl (fun _ => False) _).bumpGlb _ _ _).regs off id (by rw [not_not.mp ho]; decide)

theorem showQuery_epochKept (s : State) : EpochKept s s.showQuery :=
  (((regsKept.refl _ s).setFld _ _ (by decide)).setFld _ _ (by decide)).setFld _ _ (by decide)

theorem epoch_epochUp (s : State) : s.epochUp.fld Reg.GLB_UNIT_EPOCH Fld.GLB_UNIT_EPOCH_EPOCH =
    (s.fld Reg.GLB_UNIT_EPOCH Fld.GLB_UNIT_EPOCH_EPOCH + 1) % 2 ^ 32 := by
  unfold State.epochUp
  extract_lets e s1
  have hkept : EpochKept s1 s1.showQuery.publish := (showQuery_epochKept s1).trans (publish_epochKept _)
  have htold := regsKept.foldl (f := fun (x : State) w => x.evq w 4 0 (e % 2 ^ 32)) (l := [1, 2, 3]) hkept (fun x w => evq_epochKept x w _ _ _)
  exact (EpochKept.fld htold).trans (fld_setFld_here s _ _ _ (by decide))

/-- A unit whose state changes moves the epoch on (R462). -/
theorem epoch_unitChange (s : State) (v : Nat) (r : UnitRec) (outcome cause : Nat) (h : s.unitState v ≠ r.state) :
    (s.unitChange v r outcome cause).fld Reg.GLB_UNIT_EPOCH Fld.GLB_UNIT_EPOCH_EPOCH =
      (s.fld Reg.GLB_UNIT_EPOCH Fld.GLB_UNIT_EPOCH_EPOCH + 1) % 2 ^ 32 := by
  have hchange : s.unitChange v r outcome cause = { s.setUnit v r with lastChange := (v, r.state, outcome, cause) }.epochUp :=
    if_neg (fun heq => h heq.1)
  rw [hchange]
  exact epoch_epochUp _

theorem glbUnitEpochWrite_greater {v : BitVec 32} (h : s.fld Reg.GLB_UNIT_EPOCH Fld.GLB_UNIT_EPOCH_EPOCH < v.toNat) :
    Completes (.glbUnitEpochWrite 0 v) s (fun t =>
      t.fld Reg.GLB_UNIT_EPOCH Fld.GLB_UNIT_EPOCH_EPOCH = v.toNat ∧ Near (· = Reg.GLB_UNIT_EPOCH) s t) := by
  refine ⟨_, congrArg Host.Outcome.next (if_pos h), ?_, (Near.refl _ s).setFld _ _ _ (.inl rfl)⟩
  rw [fld_setFld_here _ _ _ _ (by decide)]
  exact Nat.mod_eq_of_lt v.isLt

/-! ### DECLARE_OFFLINE (R464) -/

theorem declareOffline_declares (s : State) : Completes (.declareOffline 0) s (fun t =>
    t.unitState 0 = 5 ∧ t.fld Reg.GLB_UNIT_CTL (bitField 0) = 1 ∧ (∀ u, u ≠ 0 → t.unitOf u = s.unitOf u) ∧
      (s.unitState 0 ≠ 5 → t.fld Reg.GLB_UNIT_EPOCH Fld.GLB_UNIT_EPOCH_EPOCH =
        (s.fld Reg.GLB_UNIT_EPOCH Fld.GLB_UNIT_EPOCH_EPOCH + 1) % 2 ^ 32) ∧
      Noted (· = Reg.GLB_UNIT_CTL) { s with units := t.units, lastChange := t.lastChange } t) := by
  let s1 := s.setFld Reg.GLB_UNIT_CTL (bitField 0) 1
  have hset : Near (· = Reg.GLB_UNIT_CTL) s s1 := (Near.refl _ s).setFld _ _ _ (.inl rfl)
  have hbit : s1.fld Reg.GLB_UNIT_CTL (bitField 0) = 1 := fld_setFld_here s _ _ _ (by decide)
  have hepoch : s1.fld Reg.GLB_UNIT_EPOCH Fld.GLB_UNIT_EPOCH_EPOCH = s.fld Reg.GLB_UNIT_EPOCH Fld.GLB_UNIT_EPOCH_EPOCH :=
    fld_setFld_ne _ _ _ (by decide)
  have htold := fun e r => told_unitChange e s1 0 r 0 0
  have hunits := fun r => (unitOnly_unitChange s1 0 r 0 0).units
  refine ⟨_, rfl, (unitState_unitChange s1 0 _ 0 0 0).trans (if_pos rfl), ?_, hunits _, fun h => ?_, ?_⟩
  · exact (fld_of_rd _ ((htold (fun _ => False) _).1.rd id (by decide))).trans hbit
  · exact (epoch_unitChange s1 0 { s1.unitOf 0 with state := 5 } 0 0 h).trans (by rw [hepoch])
  · obtain ⟨hchange, hlinks⟩ := htold (· = Reg.GLB_UNIT_CTL) { s1.unitOf 0 with state := 5 }
    have hall := Told.trans (Linked.told (Near.linked hset) ⟨[], by simp [s1]⟩) hchange
    unfold Told at hall
    rwa [hlinks] at hall

/-! ### Reported errors (R445) -/

theorem errReport_counted (s : State) (v : BitVec 32) : Completes (.errReport 0 v) s (fun t =>
    counted Reg.GLB_DETECT_CNT 1 s t ∧ counted (Reg.GLB_CLASS_CNT 7) 1 s t ∧ t.fld Reg.GLB_RAS_STATUS (bitField 0) = 1 ∧
      (s.fld Reg.GLB_ERR_LOG_CTL Fld.GLB_ERR_LOG_CTL_EN = 0 → t.mem = s.mem)) := by
  obtain ⟨hcount, hflag⟩ := charge_detected s (cls := 8) (by decide) v.toNat 0 0
  exact ⟨_, rfl, hcount, charge_class s (by decide) (by decide) _ _ _, hflag, charge_mem s _ _ _ _⟩

/-- What queueing a test leaves. -/
theorem queueTest_queued (s : State) (q : TestReq) : (s.queueTest q).testsFor q.unit = s.testsFor q.unit ++ [q] ∧
    (s.queueTest q).unitState q.unit = 2 ∧ (∀ w, w ≠ q.unit → (s.queueTest q).unitOf w = s.unitOf w) ∧ (s.queueTest q).mem = s.mem := by
  obtain ⟨htests, hmem, hunits⟩ := testsFor_setTestsFor s q.unit (s.testsFor q.unit ++ [q])
  have honly := fun r => unitOnly_unitChange (s.setTestsFor q.unit (s.testsFor q.unit ++ [q])) q.unit r 0 q.cls
  refine ⟨((honly _).testsFor _).trans htests, (unitState_unitChange _ _ _ _ _ _).trans (if_pos rfl), fun w hw => ?_, (honly _).mem.trans hmem⟩
  refine ((honly _).units w hw).trans ?_
  rw [State.unitOf, hunits]
  rfl

theorem errReport_queued {v : BitVec 32} (h2 : s.unitState v.toNat ≠ 2) (h3 : s.unitState v.toNat ≠ 3)
    (hkind : ∀ k ∈ [0, 8, 9, 10], v.toNat / 2 ^ 28 ≠ k)
    (hroom : unitCluster v.toNat = none ∨ ((s.testsFor v.toNat).filter (fun (x : TestReq) => !x.running)).length < 4) :
    Completes (.errReport 0 v) s (fun t => t.testsFor v.toNat = s.testsFor v.toNat ++ [{
        unit := v.toNat, cls := 8, tenant := 0, dpa := 0, cpos := s.rd Reg.CAD_POS, tsc := s.now }] ∧
      t.unitState v.toNat = 2 ∧ (∀ u, u ≠ v.toNat → t.unitOf u = s.unitOf u) ∧ t.mem = s.mem) := by
  have honly := unitOnly_chargeConfirmed s 8 v.toNat
  obtain ⟨htests, hstate, hunits, hmem⟩ := queueTest_queued (s.chargeConfirmed 8 v.toNat) (s.testAsked 8 v.toNat 0 0)
  refine ⟨_, congrArg Host.Outcome.next (charge_queued s 8 v.toNat 0 0 (by decide) (by decide) h2 h3 hkind hroom), ?_, hstate,
    fun w hw => (hunits w hw).trans (honly.units w hw), hmem.trans honly.mem⟩
  exact htests.trans (congrArg (· ++ [s.testAsked 8 v.toNat 0 0]) (honly.testsFor v.toNat))

/-! ### FAB_DETOUR (R345) -/

theorem detour_code (hp : plane < 4) (hh : hop < 8) : (BitVec.ofNat 32 (hop + plane * 8)).toNat % 8 = hop ∧
    (BitVec.ofNat 32 (hop + plane * 8)).toNat / 8 % 4 = plane := by
  rw [BitVec.toNat_ofNat]
  omega

theorem fabDetourWrite_taken (h0 : 0 < plane) (hp : plane < 4) (hh : hop < 8) (ha : detourAllowed k hop plane = true) :
    Completes (.fabDetourWrite 0 k (BitVec.ofNat 32 (hop + plane * 8))) s (fun t =>
      t.fld (Reg.FAB_DETOUR k) Fld.FAB_DETOUR_HOP = hop ∧ t.fld (Reg.FAB_DETOUR k) Fld.FAB_DETOUR_PLANE = plane ∧
        Near (· = Reg.FAB_DETOUR k) s t) := by
  obtain ⟨hhop, hplane⟩ := detour_code hp hh
  have hwrite : s.writeDetour k (BitVec.ofNat 32 (hop + plane * 8)) = s.wr (Reg.FAB_DETOUR k) (BitVec.ofNat 64 (hop + plane * 8)) := by
    unfold State.writeDetour
    rw [hhop, hplane]
    exact (if_neg (by omega)).trans (if_pos ha)
  refine ⟨_, congrArg Host.Outcome.next hwrite, ?_, ?_, near_wr _ _ (.inl rfl)⟩
  · rw [fld_def, rd_wr_here, getField, BitVec.toNat_ofNat]
    simp only [Fld.FAB_DETOUR_HOP]
    omega
  · rw [fld_def, rd_wr_here, getField, BitVec.toNat_ofNat]
    simp only [Fld.FAB_DETOUR_PLANE]
    omega

theorem fabDetourWrite_refused (h0 : 0 < plane) (hp : plane < 4) (hh : hop < 8) (ha : detourAllowed k hop plane = false) :
    Completes (.fabDetourWrite 0 k (BitVec.ofNat 32 (hop + plane * 8))) s (fun t =>
      raised Reg.FAB_STATUS Fld.FAB_STATUS_DET_ERR Reg.FAB_DET_ERR_CNT s t ∧
        Near (fun off => off = Reg.FAB_STATUS ∨ off = Reg.FAB_DET_ERR_CNT) s t) := by
  obtain ⟨hhop, hplane⟩ := detour_code hp hh
  have hwrite : s.writeDetour k (BitVec.ofNat 32 (hop + plane * 8)) =
      s.event Reg.FAB_STATUS Fld.FAB_STATUS_DET_ERR Reg.FAB_DET_ERR_CNT := by
    unfold State.writeDetour
    rw [hhop, hplane]
    exact (if_neg (by omega)).trans (if_neg (by rw [ha]; exact Bool.false_ne_true))
  exact ⟨_, congrArg Host.Outcome.next hwrite, raised_event s _ _ _ (by decide),
    (Near.refl _ s).event _ _ _ (.inl (.inl rfl)) (.inl (.inr rfl))⟩

theorem fabDetourWrite_none (hh : hop < 8) : Completes (.fabDetourWrite 0 k (BitVec.ofNat 32 hop)) s (fun t =>
    t.fld (Reg.FAB_DETOUR k) Fld.FAB_DETOUR_PLANE = 0 ∧ Near (· = Reg.FAB_DETOUR k) s t) := by
  have hplane : (BitVec.ofNat 32 hop).toNat / 8 % 4 = 0 := by rw [BitVec.toNat_ofNat]; omega
  let x : State := if (BitVec.ofNat 32 hop).toNat % 8 < 6 then
    s.setFld (Reg.FAB_DETOUR k) Fld.FAB_DETOUR_HOP ((BitVec.ofNat 32 hop).toNat % 8) else s
  have hwrite : s.writeDetour k (BitVec.ofNat 32 hop) = x.setFld (Reg.FAB_DETOUR k) Fld.FAB_DETOUR_PLANE 0 := if_pos hplane
  have hhop : Near (· = Reg.FAB_DETOUR k) s x := Near.ite (fun _ => (Near.refl _ s).setFld _ _ _ (.inl rfl)) (fun _ => Near.refl _ s)
  exact ⟨_, congrArg Host.Outcome.next hwrite, fld_setFld_here x _ _ _ (by decide), hhop.setFld _ _ _ (.inl rfl)⟩

/-- Each of these writes is T0's alone. -/
theorem recordWrites_ignored {b : Fin 4} (hb : b ≠ 0) (s : State) (k : Fin 6) (v : BitVec 32) : exec (.fabDetourWrite b k v) s = .next s ∧
    exec (.glbUnitEpochWrite b v) s = .next s ∧ exec (.declareOffline b) s = .next s ∧ exec (.errReport b v) s = .next s :=
  ⟨congrArg Host.Outcome.next (if_neg hb), congrArg Host.Outcome.next (if_neg hb), congrArg Host.Outcome.next (if_neg hb),
    congrArg Host.Outcome.next (if_neg hb)⟩

/-- Settles O39: a record heard, published and charged, clause by clause, by what each command writes. -/
theorem unitRecords : Obligations.UnitRecords := by
  unfold Obligations.UnitRecords
  refine ⟨?heard, ?crc, ?refused, ?publish, ?greater, ?notGreater, ?offline, ?reported, ?queued, ?taken, ?detErr, ?noDetour, ?others⟩
  case heard =>
    intro s u p n e h8 hok hlen hcrc hn he hu
    have hrx := (exec_unitstateRx (s := s) h8 hok).trans (congrArg Host.Outcome.next (unitRecordRx_good (s.take p) hlen hcrc))
    have hheard : (s.take p).heardRecord p.body = u := by rw [hu, hn, he]; rfl
    rw [← hn, ← he, hheard] at hrx
    refine ⟨fun hkeep => hrx.trans (congrArg Host.Outcome.next (if_neg ?_)), fun hpeer h5 => hrx.trans (congrArg Host.Outcome.next (if_pos ⟨hpeer, h5⟩))⟩
    rintro ⟨hpeer, h5⟩
    exact hkeep.elim (fun hf => Bool.false_ne_true (hf.symm.trans hpeer)) (fun hne => hne h5)
  case crc => exact fun s p h8 hok hcrc => (exec_unitstateRx h8 hok).trans (congrArg Host.Outcome.next (if_pos (.inr hcrc)))
  case refused => exact fun s p _ h => ⟨_, unitstateRx_refused h, badPacket_raised s p⟩
  case publish =>
    exact fun s _ => ⟨_, rfl, publish_counted s, fun n hn => publish_sent (mem_recordChips hn), publish_noted s⟩
  case greater => exact fun s v h => glbUnitEpochWrite_greater h
  case notGreater => exact fun s v h => congrArg Host.Outcome.next (if_neg (Nat.not_lt.mpr h))
  case offline => exact declareOffline_declares
  case reported => exact fun s v _ => errReport_counted s v
  case queued => exact fun s v h2 h3 hkind hroom => errReport_queued h2 h3 hkind hroom
  case taken => exact fun s k hop plane h0 hp hh ha => fabDetourWrite_taken h0 hp hh ha
  case detErr => exact fun s k hop plane _ h0 hp hh ha => fabDetourWrite_refused h0 hp hh ha
  case noDetour => exact fun s k hop hh => fabDetourWrite_none hh
  case others => exact fun s b k v hb => recordWrites_ignored hb s k v

end Sys2Proof.Machine
end

section
/-!
SUPPORT. Where a register family is found: an offset in element `k` of a family of stride `st` lies in no family whose elements keep to another
part of the stride (R562, R563).
-/
namespace Sys2Proof.Machine

variable {d : RegDesc} {B st n lo hi k x off : Nat}

/-! ### The offsets that a family can reach -/

/-- The offset of the last register of a family from its first. -/
def dimsReach : List (Nat × Nat) → Nat
  | [] => 0
  | (stride, count) :: rest => stride * (count - 1) + dimsReach rest

theorem le_dimsReach (ds : List (Nat × Nat)) (off : Nat) (h : dimsHit ds off = true) : off ≤ dimsReach ds := by
  induction ds generalizing off with
  | nil => exact Nat.le_of_eq (beq_iff_eq.mp h)
  | cons e rest ih =>
    obtain ⟨stride, count⟩ := e
    obtain ⟨hcount, hrest⟩ := Bool.and_eq_true_iff.mp h
    have hlt : off / stride < count := of_decide_eq_true hcount
    have hmul : stride * (off / stride) ≤ stride * (count - 1) := Nat.mul_le_mul_left _ (by omega)
    have hsplit := Nat.div_add_mod off stride
    have hmod := ih _ hrest
    simp only [dimsReach]
    omega

theorem hit_iff : d.hit off = true ↔ d.base ≤ off ∧ dimsHit d.dims (off - d.base) = true := by
  rw [RegDesc.hit, Bool.and_eq_true, decide_eq_true_eq]

/-- The family keeps away from the offsets `lo` to `hi` of every one of the `n` elements of stride `st` from `B` on: it ends before them,
begins after them, or has the same elements and another part of each. -/
def keepsAway (d : RegDesc) (B st n lo hi : Nat) : Bool :=
  decide (d.base + dimsReach d.dims < B + lo) || decide (B + st * n ≤ d.base) ||
    match d.dims with
    | [] => false
    | e :: rest => e.1 == st && decide (B ≤ d.base) && decide (d.base - B + dimsReach rest < st) &&
        (decide (d.base - B + dimsReach rest < lo) || decide (hi < d.base - B))

/-- A hit of a family whose elements have stride `st` lies in the reach of its other indices. -/
theorem reach_of_hit {rest : List (Nat × Nat)} {count y : Nat} (h : dimsHit ((st, count) :: rest) (st * k + y) = true) (hy : y < st) :
    y ≤ dimsReach rest := by
  obtain ⟨-, hrest⟩ := Bool.and_eq_true_iff.mp h
  rw [Nat.mul_add_mod, Nat.mod_eq_of_lt hy] at hrest
  exact le_dimsReach rest y hrest

theorem not_hit_of_keepsAway (haway : keepsAway d B st n lo hi = true) (hk : k < n) (hlo : lo ≤ x) (hhi : x ≤ hi) (hx : x < st) :
    d.hit (B + st * k + x) = false := by
  rw [← Bool.not_eq_true]
  intro hhit
  obtain ⟨hfrom, hdims⟩ := hit_iff.mp hhit
  have hreach := le_dimsReach _ _ hdims
  have hend : st * k + st ≤ st * n := Nat.mul_succ st k ▸ Nat.mul_le_mul_left st hk
  unfold keepsAway at haway
  simp only [Bool.or_eq_true, decide_eq_true_eq] at haway
  rcases haway with (hbefore | hafter) | hpart
  · omega
  · omega
  · split at hpart
    · cases hpart
    · next e rest hd =>
      simp only [Bool.and_eq_true, Bool.or_eq_true, beq_iff_eq, decide_eq_true_eq] at hpart
      obtain ⟨⟨⟨hst, hB⟩, hfits⟩, hapart⟩ := hpart
      obtain ⟨stride, count⟩ := e
      obtain rfl : stride = st := hst
      rw [hd] at hdims
      rcases Nat.lt_or_ge x (d.base - B) with hlt | hge
      · cases k with
        | zero => omega
        | succ k =>
          have hsplit : B + stride * (k + 1) + x - d.base = stride * k + (stride + x - (d.base - B)) := by
            rw [Nat.mul_succ]; omega
          have hin := reach_of_hit (hsplit ▸ hdims) (by omega)
          omega
      · have hsplit : B + stride * k + x - d.base = stride * k + (x - (d.base - B)) := by omega
        have hin := reach_of_hit (hsplit ▸ hdims) (by omega)
        omega

/-- A family of the table is found at an offset that no other one hits. -/
theorem regAt_of_only (hmem : d ∈ regTable) (hhit : d.hit off = true) (honly : ∀ d' ∈ regTable, d'.hit off = true → d' = d) :
    regAt off = some d := by
  obtain ⟨d', hfound⟩ := Option.isSome_iff_exists.mp ((List.find?_isSome (p := fun d => d.hit off)).mpr ⟨d, hmem, hhit⟩)
  rw [← honly d' (List.mem_of_find?_eq_some hfound) (List.find?_some (p := fun (d : RegDesc) => d.hit off) hfound)]
  exact hfound

end Sys2Proof.Machine
end

section
/-!
SUPPORT. The select registers of the counters and TRC_CTL, written (R6, R485, R487).
-/
namespace Sys2Proof.Machine

variable {s t u : State} {off : Nat}

/-! ### The families of the select registers -/

/-- A select register: SRC and FILTER, each RW (R487). -/
def selectDesc (base : Nat) (dims : List (Nat × Nat)) : RegDesc := ⟨base, dims, 32, [(⟨0, 6⟩, .rw), (⟨6, 8⟩, .rw)]⟩

theorem regAt_cntGlbSel (g : Fin 32) : regAt (Reg.CNT_GLB_SEL g) = some (selectDesc 0x61000 [(0x10, 32)]) := by
  have hothers : ∀ d ∈ regTable, keepsAway d 0x61000 0x10 32 0 0 = true ∨ d = selectDesc 0x61000 [(0x10, 32)] := by decide +kernel
  refine regAt_of_only (by decide +kernel) ?_ fun d hd hhit => (hothers d hd).resolve_left fun haway => ?_
  · simp only [hit_iff, selectDesc, dimsHit, Reg.CNT_GLB_SEL, Bool.and_eq_true, decide_eq_true_eq, beq_iff_eq]
    omega
  · exact Bool.false_ne_true ((not_hit_of_keepsAway (x := 0) haway g.isLt (Nat.le_refl 0) (Nat.le_refl 0) (by decide)).symm.trans hhit)

theorem regAt_cntPrtSel (p : Fin 12) (j : Fin 16) :
    regAt (Reg.CNT_PRT_SEL p j) = some (selectDesc 0x110900 [(0x10000, 12), (0x10, 16)]) := by
  have hothers : ∀ d ∈ regTable, keepsAway d 0x110000 0x10000 12 0x900 0x9f0 = true ∨
      d = selectDesc 0x110900 [(0x10000, 12), (0x10, 16)] ∨ d.base = 0x110908 ∧ d.dims = [(0x10000, 12), (0x10, 16)] := by decide +kernel
  have hoff : Reg.CNT_PRT_SEL p j = 0x110000 + 0x10000 * p.val + (0x900 + 0x10 * j.val) := by simp only [Reg.CNT_PRT_SEL]; omega
  refine regAt_of_only (by decide +kernel) ?_ fun d hd hhit => ?_
  · simp only [hit_iff, selectDesc, dimsHit, Reg.CNT_PRT_SEL, Bool.and_eq_true, decide_eq_true_eq, beq_iff_eq]
    omega
  · rcases hothers d hd with haway | hself | ⟨hbase, hdims⟩
    · rw [hoff, not_hit_of_keepsAway haway p.isLt (by omega) (by omega) (by omega)] at hhit
      cases hhit
    · exact hself
    · simp only [hit_iff, hbase, hdims, dimsHit, hoff, Bool.and_eq_true, decide_eq_true_eq, beq_iff_eq] at hhit
      omega

theorem regAt_cntCluSel (c : Fin 64) (j : Fin 8) :
    regAt (Reg.CNT_CLU_SEL c j) = some (selectDesc 0x409000 [(0x40000, 64), (0x10, 8)]) := by
  have hothers : ∀ d ∈ regTable, keepsAway d 0x400000 0x40000 64 0x9000 0x9070 = true ∨
      d = selectDesc 0x409000 [(0x40000, 64), (0x10, 8)] ∨ d.base = 0x409008 ∧ d.dims = [(0x40000, 64), (0x10, 8)] := by decide +kernel
  have hoff : Reg.CNT_CLU_SEL c j = 0x400000 + 0x40000 * c.val + (0x9000 + 0x10 * j.val) := by simp only [Reg.CNT_CLU_SEL]; omega
  refine regAt_of_only (by decide +kernel) ?_ fun d hd hhit => ?_
  · simp only [hit_iff, selectDesc, dimsHit, Reg.CNT_CLU_SEL, Bool.and_eq_true, decide_eq_true_eq, beq_iff_eq]
    omega
  · rcases hothers d hd with haway | hself | ⟨hbase, hdims⟩
    · rw [hoff, not_hit_of_keepsAway haway c.isLt (by omega) (by omega) (by omega)] at hhit
      cases hhit
    · exact hself
    · simp only [hit_iff, hbase, hdims, dimsHit, hoff, Bool.and_eq_true, decide_eq_true_eq, beq_iff_eq] at hhit
      omega

/-! ### A counter selects another source (R487) -/

theorem written_select (base : Nat) (dims : List (Nat × Nat)) (held : Bool) (old v : BitVec 64) :
    (selectDesc base dims).written held old v = v &&& 0x3FFF := by
  have hmask : (0x3FFF : BitVec 64) = fieldMask ⟨0, 6⟩ ||| fieldMask ⟨6, 8⟩ := by decide
  rw [hmask, BitVec.and_or_distrib_left]
  simp only [RegDesc.written, selectDesc, List.foldl_cons, List.foldl_nil, BitVec.ofNat_eq_ofNat, BitVec.zero_or]

/-- A select register takes its value and its counter is cleared. -/
theorem selectCounter_selects (s : State) {sel cntr base : Nat} {dims : List (Nat × Nat)} (hreg : regAt sel = some (selectDesc base dims))
    (hne : sel ≠ cntr) (hobs : observes cntr = true) (v : BitVec 32) :
    (s.selectCounter sel cntr v).rd cntr = 0 ∧ (s.selectCounter sel cntr v).rd sel = v.setWidth 64 &&& 0x3FFF ∧
      Near (· = sel) s (s.selectCounter sel cntr v) := by
  refine ⟨rd_wr_here _ _ _, (rd_wr_ne _ hne).trans ?_, (near_writeCodes s sel _).wr _ _ (.inr hobs)⟩
  rw [State.writeCodes, hreg, rd_wr_here, written_select]

/-! ### TRC_CTL (R485, R494) -/

/-- TRC_CTL: MODE is RW, COLLECT held by LOCK (R494). -/
def trcCtlDesc : RegDesc :=
  ⟨0x60000, [], 32, [(⟨0, 2⟩, .rw), (⟨2, 1⟩, .rw), (⟨3, 1⟩, .rwl), (⟨4, 8⟩, .rw), (⟨12, 8⟩, .rw), (⟨31, 1⟩, .w1s)]⟩

theorem mode_writeCodes_trcCtl (s : State) (v : BitVec 64) :
    (s.writeCodes Reg.TRC_CTL v).fld Reg.TRC_CTL Fld.TRC_CTL_MODE = v.toNat % 4 := by
  have hreg : regAt Reg.TRC_CTL = some trcCtlDesc := by decide +kernel
  have hmask : ∀ i, i < 2 → Nat.testBit 3 i = true ∧ Nat.testBit 4 i = false ∧ Nat.testBit 8 i = false ∧ Nat.testBit 4080 i = false ∧
      Nat.testBit 1044480 i = false ∧ Nat.testBit 2147483648 i = false := by decide
  rw [State.writeCodes, hreg, fld_def, rd_wr_here]
  apply Nat.eq_of_testBit_eq
  intro i
  rw [getField_testBit, show (4 : Nat) = 2 ^ 2 from rfl, Nat.testBit_mod_two_pow]
  rcases Nat.lt_or_ge i 2 with hi | hi
  · obtain ⟨h0, h1, h2, h3, h4, h5⟩ := hmask i hi
    simp [RegDesc.written, trcCtlDesc, fieldMask, Fld.TRC_CTL_MODE, h0, h1, h2, h3, h4, h5]
  · rw [decide_eq_false (show ¬ i < Fld.TRC_CTL_MODE.width from Nat.not_lt.mpr hi), decide_eq_false (Nat.not_lt.mpr hi)]
    rfl

/-- A write that leaves the trace on, or meets no open block, touches TRC_CTL alone. -/
theorem trcCtlWrite_takes {v : BitVec 32} (h : s.block.recs = [] ∨ v.toNat % 4 = 1 ∨ v.toNat % 4 = 2) :
    Completes (.trcCtlWrite 0 v) s (fun t => t.fld Reg.TRC_CTL Fld.TRC_CTL_MODE = v.toNat % 4 ∧ Near (· = Reg.TRC_CTL) s t) := by
  have hnear := near_writeCodes s Reg.TRC_CTL (v.setWidth 64)
  have hmode : (s.writeCodes Reg.TRC_CTL (v.setWidth 64)).fld Reg.TRC_CTL Fld.TRC_CTL_MODE = v.toNat % 4 := by
    rw [mode_writeCodes_trcCtl, BitVec.toNat_setWidth, Nat.mod_mod_of_dvd _ (by decide)]
  have hwrite : s.writeTrcCtl (v.setWidth 64) = s.writeCodes Reg.TRC_CTL (v.setWidth 64) := by
    rcases h with hrecs | hon
    · have hblock : (s.writeCodes Reg.TRC_CTL (v.setWidth 64)).block.recs = [] := by rw [hnear.eq]; exact hrecs
      have hflush : (s.writeCodes Reg.TRC_CTL (v.setWidth 64)).flushBlock false = s.writeCodes Reg.TRC_CTL (v.setWidth 64) :=
        if_pos (by rw [hblock]; rfl)
      unfold State.writeTrcCtl
      dsimp only
      rw [hflush, ite_self]
    · refine if_neg ?_
      simp only [State.traceOff, hmode, Bool.or_eq_true, beq_iff_eq]
      omega
  exact ⟨_, congrArg Host.Outcome.next hwrite, hmode, hnear⟩

/-! ### Pages in memory (R341, R491, R492) -/

/-- A page written without a detected error where memory is laid out plainly. -/
theorem storeCharged_plain {a n : Nat} {bs : List Byte} (hp : plainHbm s a n) (hn : bs.length = n) :
    ∃ t, s.storeCharged false a bs 0 = (false, t) ∧ HbmWritten (s.onBehalf 0) t ∧ storedAt a bs s t := by
  obtain ⟨t, ht, hwritten, hstored⟩ := plainHbm.write (s := s.onBehalf 0) hp bs hn
  refine ⟨t, ?_, hwritten, hstored.of_mem rfl rfl⟩
  have hown : (s.onBehalf 0).storeOwn false a bs = (none, t) := (if_neg Bool.false_ne_true).trans ht
  rw [State.storeCharged, hown]
  rfl

theorem length_leBytes (n v : Nat) : (leBytes n v).length = n := by
  induction n generalizing v with
  | zero => rfl
  | succ n ih => exact congrArg (· + 1) (ih _)

theorem length_snapPage (s : State) (ix : Nat) : (s.snapPage 15 ix).length = 8192 := by
  have hmask : ∀ b, b < 4 → Nat.testBit 15 b = true := by decide
  simp only [State.snapPage, hmask, Nat.reduceLT, if_true, List.length_append, length_leBytes, List.length_flatMap, List.map_const',
    List.length_range, List.sum_replicate, smul_eq_mul, Nat.reduceMul, Nat.reduceAdd]

theorem length_congPage (s : State) (pos : BitVec 64) : (s.congPage pos).length = 1024 := by
  simp only [State.congPage, List.length_append, length_leBytes, List.length_flatMap, List.map_const', List.length_range, List.sum_replicate,
    smul_eq_mul, Nat.reduceMul, Nat.reduceAdd]

/-! ### The snapshot page (R491, R492) -/

theorem cntSnapNow_stored (hen : s.fld Reg.CNT_SNAP_CTL Fld.CNT_SNAP_CTL_EN = 1) (hoff : s.telemetryOff = false)
    (hp : plainHbm s (s.fld Reg.CNT_SNAP_BASE Fld.CNT_SNAP_BASE_BASE +
      s.fld Reg.CNT_SNAP_IDX Fld.CNT_SNAP_IDX_IDX % 2 ^ min 12 (s.fld Reg.CNT_SNAP_CTL Fld.CNT_SNAP_CTL_LOG2N) * 8192) 8192) :
    Completes (.cntSnapNow 0 false) s (fun t => counted Reg.CNT_SNAP_CNT 1 s t ∧
      t.fld Reg.CNT_SNAP_IDX Fld.CNT_SNAP_IDX_IDX = (s.fld Reg.CNT_SNAP_IDX Fld.CNT_SNAP_IDX_IDX + 1) % 2 ^ 32 ∧
      storedAt (s.fld Reg.CNT_SNAP_BASE Fld.CNT_SNAP_BASE_BASE +
        s.fld Reg.CNT_SNAP_IDX Fld.CNT_SNAP_IDX_IDX % 2 ^ min 12 (s.fld Reg.CNT_SNAP_CTL Fld.CNT_SNAP_CTL_LOG2N) * 8192)
        (s.snapPage 15 (s.fld Reg.CNT_SNAP_IDX Fld.CNT_SNAP_IDX_IDX)) s t) := by
  obtain ⟨t, ht, hwritten, hstored⟩ := storeCharged_plain hp (length_snapPage s _)
  have hsnap : s.snapshot 15 false = (t.setFld Reg.CNT_SNAP_IDX Fld.CNT_SNAP_IDX_IDX
      (s.fld Reg.CNT_SNAP_IDX Fld.CNT_SNAP_IDX_IDX + 1)).cnt Reg.CNT_SNAP_CNT := by
    refine (if_neg (by rw [hen, hoff]; decide)).trans ?_
    dsimp only
    rw [ht]
    rfl
  have hcnt : (t.setFld Reg.CNT_SNAP_IDX Fld.CNT_SNAP_IDX_IDX (s.fld Reg.CNT_SNAP_IDX Fld.CNT_SNAP_IDX_IDX + 1)).rd Reg.CNT_SNAP_CNT =
      s.rd Reg.CNT_SNAP_CNT := (rd_setFld_ne _ _ (by decide)).trans (hwritten.regs _ (by decide) (by decide))
  refine ⟨_, congrArg Host.Outcome.next hsnap, .of_rd hcnt (rd_cnt_here _ _), ?_, hstored.of_mem rfl rfl⟩
  rw [fld_cnt_ne _ (by decide), fld_setFld_here _ _ _ _ (by decide)]
  rfl

/-! ### Congestion (R340, R341) -/

/-- `t` is `s` but for the router's open interval, and for what recording events touches. -/
def Sampled (s t : State) : Prop := Near (fun _ => False) { s with rt := { s.rt with cong := t.rt.cong } } t

theorem Sampled.trans (h : Sampled s t) (k : Sampled t u) : Sampled s u := by
  refine ⟨fun off he ho => (k.regs off he ho).trans (h.regs off he ho), ?_⟩
  rw [Near.eq k, Near.eq h]
  rfl

/-- The threshold counters of an output whose queue is `d` flits deep (R489). -/
def State.countDepth (s : State) (p d : Nat) : State :=
  (List.range 16).foldl (fun s j =>
    if s.fld (Reg.CNT_PRT_SEL p j) Fld.CNT_PRT_SEL_SRC = 7 ∧ s.fld (Reg.CNT_PRT_SEL p j) Fld.CNT_PRT_SEL_FILTER * 64 ≤ d then
      let v := s.fld (Reg.CNT_PRT p j) Fld.CNT_PRT_COUNT + 1
      (s.setFld (Reg.CNT_PRT p j) Fld.CNT_PRT_COUNT v).setFld (Reg.CNT_PRT p j) Fld.CNT_PRT_WRAPS
        (s.fld (Reg.CNT_PRT p j) Fld.CNT_PRT_WRAPS + v / 2 ^ 48)
    else s) s

theorem near_countDepth (s : State) {p : Nat} (hp : p < 12) (d : Nat) : Near (fun _ => False) s (s.countDepth p d) := by
  refine (Near.refl _ s).foldl fun x j hj => ?_
  have hobs := observes_cntPrt hp (List.mem_range.mp hj)
  exact Near.ite (fun _ => ((Near.refl _ x).setFld _ _ _ (.inr hobs)).setFld _ _ _ (.inr hobs)) (fun _ => Near.refl _ x)

/-- The depth of an output's queue enters its bin (R340). -/
def State.binDepth (s : State) (p d : Nat) : State :=
  { s with rt := { s.rt with cong := { s.rt.cong with
      bins := s.rt.cong.bins.set 0 (p * 8 + congBin d) (s.rt.cong.bins.get 0 (p * 8 + congBin d) + 1) } } }

/-- One output is sampled. -/
def State.sampleOutput (s : State) (p : Nat) : State := (s.binDepth p (s.rt.queuedFlits p)).countDepth p (s.rt.queuedFlits p)

theorem sampleOutput_sampled (s : State) {p : Nat} (hp : p < 12) :
    (s.sampleOutput p).rt.cong.samples = s.rt.cong.samples ∧ Sampled s (s.sampleOutput p) := by
  have hcount : Near (fun _ => False) (s.binDepth p (s.rt.queuedFlits p)) (s.sampleOutput p) := near_countDepth _ hp _
  have hrt : (s.sampleOutput p).rt = (s.binDepth p (s.rt.queuedFlits p)).rt := by
    have hkept := congrArg State.rt hcount.eq
    exact hkept
  refine ⟨by rw [hrt]; rfl, ?_⟩
  unfold Sampled
  rw [hrt]
  exact hcount

/-- Outputs sampled one after another. -/
theorem foldl_sampleOutput (l : List Nat) (hl : ∀ p ∈ l, p < 12) (s : State) :
    (l.foldl State.sampleOutput s).rt.cong.samples = s.rt.cong.samples ∧ Sampled s (l.foldl State.sampleOutput s) := by
  induction l generalizing s with
  | nil => exact ⟨rfl, Near.refl _ s⟩
  | cons p l ih =>
    obtain ⟨hfirst, hsampled⟩ := sampleOutput_sampled s (hl p List.mem_cons_self)
    obtain ⟨hrest, hothers⟩ := ih (fun q hq => hl q (List.mem_cons_of_mem p hq)) (s.sampleOutput p)
    exact ⟨hrest.trans hfirst, hsampled.trans hothers⟩

/-- A sample is counted once. -/
def State.sampleCounted (s : State) : State :=
  { s with rt := { s.rt with cong := { s.rt.cong with samples := s.rt.cong.samples + 1 } } }

theorem congSample_eq (s : State) : s.congSample = (List.range 12).foldl State.sampleOutput s.sampleCounted := rfl

theorem congSample_samples (s : State) : s.congSample.rt.cong.samples = s.rt.cong.samples + 1 ∧ Sampled s s.congSample := by
  rw [congSample_eq]
  exact foldl_sampleOutput (List.range 12) (fun p hp => List.mem_range.mp hp) s.sampleCounted

theorem congestionIntervalTimeout_stored (hen : s.fld Reg.FAB_CPAGE_CTL Fld.FAB_CPAGE_CTL_EN = 1) (hoff : s.telemetryOff = false)
    (hp : plainHbm s (s.fld Reg.FAB_CPAGE_BASE Fld.FAB_CPAGE_BASE_BASE +
      s.fld Reg.FAB_CPAGE_IDX Fld.FAB_CPAGE_IDX_IDX % 2 ^ min 12 (s.fld Reg.FAB_CPAGE_CTL Fld.FAB_CPAGE_CTL_LOG2N) * 1024) 1024) :
    Completes (.congestionIntervalTimeout false) s (fun t => counted Reg.FAB_CPAGE_CNT 1 s t ∧ t.rt.cong.samples = 0 ∧ t.rt.cong.bins = [] ∧
      storedAt (s.fld Reg.FAB_CPAGE_BASE Fld.FAB_CPAGE_BASE_BASE +
        s.fld Reg.FAB_CPAGE_IDX Fld.FAB_CPAGE_IDX_IDX % 2 ^ min 12 (s.fld Reg.FAB_CPAGE_CTL Fld.FAB_CPAGE_CTL_LOG2N) * 1024)
        (s.congPage 0) s t) := by
  obtain ⟨t, ht, hwritten, hstored⟩ := storeCharged_plain hp (length_congPage s 0)
  obtain ⟨u, hu⟩ : ∃ u, u = (t.setFld Reg.FAB_CPAGE_IDX Fld.FAB_CPAGE_IDX_IDX (s.fld Reg.FAB_CPAGE_IDX Fld.FAB_CPAGE_IDX_IDX + 1)).cnt
    Reg.FAB_CPAGE_CNT := ⟨_, rfl⟩
  have hclose : s.congClose 0 false = { u with rt := { u.rt with cong := { pos := u.rd Reg.CAD_POS, tsc := (u.rd Reg.CAD_TSC).toNat } } } := by
    unfold State.congClose
    rw [if_neg (by rw [hen, hoff]; decide)]
    dsimp only
    rw [ht, hu]
    rfl
  have hcnt : (t.setFld Reg.FAB_CPAGE_IDX Fld.FAB_CPAGE_IDX_IDX (s.fld Reg.FAB_CPAGE_IDX Fld.FAB_CPAGE_IDX_IDX + 1)).rd Reg.FAB_CPAGE_CNT =
      s.rd Reg.FAB_CPAGE_CNT := (rd_setFld_ne _ _ (by decide)).trans (hwritten.regs _ (by decide) (by decide))
  have hcounted : counted Reg.FAB_CPAGE_CNT 1 s u := hu ▸ .of_rd hcnt (rd_cnt_here _ _)
  exact ⟨_, congrArg Host.Outcome.next hclose, hcounted, rfl, rfl, hstored.of_mem rfl (by rw [hu]; rfl)⟩

/-- Settles O17: a select register found in the register table, pages written where memory is plain, and a sample of each output. -/
theorem counterCommands : Obligations.CounterCommands := by
  unfold Obligations.CounterCommands
  refine ⟨?glb, ?clu, ?prt, ?snap, ?trcCtl, ?sample, ?noPage, ?page⟩
  case glb =>
    exact fun s g v _ => ⟨_, rfl, selectCounter_selects s (regAt_cntGlbSel g) (by simp only [Reg.CNT_GLB_SEL, Reg.CNT_GLB]; omega)
      (observes_cntGlb g.isLt) v⟩
  case clu =>
    exact fun s c j v _ => ⟨_, rfl, selectCounter_selects s (regAt_cntCluSel c j) (by simp only [Reg.CNT_CLU_SEL, Reg.CNT_CLU]; omega)
      (observes_cntClu c j.isLt) v⟩
  case prt =>
    exact fun s p j v _ => ⟨_, rfl, selectCounter_selects s (regAt_cntPrtSel p j) (by simp only [Reg.CNT_PRT_SEL, Reg.CNT_PRT]; omega)
      (observes_cntPrt p.isLt j.isLt) v⟩
  case snap => exact fun s _ _ hen hoff hp => cntSnapNow_stored hen hoff hp
  case trcCtl => exact fun s v _ h => trcCtlWrite_takes h
  case sample => exact fun s _ => ⟨_, rfl, congSample_samples s⟩
  case noPage => exact fun s _ hen => congrArg Host.Outcome.next (congClose_off hen 0 false)
  case page => exact fun s _ _ hen hoff hp => congestionIntervalTimeout_stored hen hoff hp

end Sys2Proof.Machine
end

section
/-!
SUPPORT. The packets that the engine of collectives keeps early (R371): a look at them that changes nothing ends the looking.
-/
namespace Sys2Proof.Machine

variable {s : State} {p : Packet} {i : Nat} {c : Coll}

theorem replayEarly_of_fixed (h : s.replayOnce = s) : s.replayEarly = s := by
  have hfold : ∀ l : List Nat, l.foldl (fun (s : State) _ => s.replayOnce) s = s := by
    intro l
    induction l with
    | nil => rfl
    | cons _ l ih => rw [List.foldl_cons, h, ih]
  exact hfold _

theorem emptied_early (h : s.early = []) : ({ s with early := [] } : State) = s := by rw [← h]

theorem replayEarly_of_none (h : s.early = []) : s.replayEarly = s := by
  refine replayEarly_of_fixed ?_
  unfold State.replayOnce
  rw [h]
  exact emptied_early h

/-- A command whose work is known answers with that work, the packets kept early looked at again. -/
theorem next_replayed {u v : State} (h : u = v) :
    (Host.Outcome.next u.replayEarly : Host.Outcome State Fault Refusal) = .next v.replayEarly := by rw [h]

/-- A GRANT for a collective that has not been issued here is kept, and is kept again when it is looked at (R366, R371). -/
theorem collCredit_unissued (hnone : s.collFor p = none) (hpast : s.collPast p = false) : s.collCredit p = s.keepEarly p := by
  unfold State.collCredit
  simp only [hnone, hpast, Bool.false_eq_true, if_false]

theorem replayEarly_keptCredit (hearly : s.early = []) (htype : p.type = 3) (hnone : s.collFor p = none) (hpast : s.collPast p = false) :
    (s.keepEarly p).replayEarly = { s with early := [(p, false)] } := by
  have hkept : s.keepEarly p = { s with early := [(p, false)] } := by rw [State.keepEarly, hearly]; rfl
  have hagain : s.collPacketRx p false = s.keepEarly p := (if_pos htype).trans (collCredit_unissued hnone hpast)
  rw [hkept]
  refine replayEarly_of_fixed ?_
  have honce : State.replayOnce { s with early := [(p, false)] } = ({ s with early := [] } : State).collPacketRx p false := rfl
  rw [honce, emptied_early hearly, hagain, hkept]

end Sys2Proof.Machine
end

section
/-!
SUPPORT. Control packets of a collective that are a matter of its context alone (R366, R368, R370).
-/
namespace Sys2Proof.Machine

variable {s : State} {p : Packet} {i : Nat} {c : Coll}

theorem exec_collCreditRx (hkind : leNat (p.body.take 1) = 2) :
    exec (.collCreditRx p) s = .next ((s.take p).collCredit p).replayEarly := by
  show Host.Outcome.next ((s.take p).grantSink p) = _
  unfold State.grantSink
  simp only [hkind]

/-- The context once a credit of its pass has come: the highest LIMIT stands, and no receiver waits for what it covers (R366). -/
def Coll.credited (c : Coll) (p : Packet) (st limit : Nat) : Coll :=
  { c with
    limit := c.limit.set 0 (ckey st p.src) limit
    hold := (c.hold.map (fun (h : CHold) => if h.stream = st ∧ h.seq + c.plan.slots < limit then
      { h with dests := h.dests.filter (· ≠ p.src) } else h)).filter (fun (h : CHold) => !h.dests.isEmpty) }

theorem collCredit_current (hfor : s.collFor p = some (i, c)) (hage : c.age p = 1) : s.collCredit p =
    (s.setColl i (c.credited p (leNat ((p.body.drop 1).take 1)) (max (leNat ((p.body.drop 4).take 4))
      (c.limit.get 0 (ckey (leNat ((p.body.drop 1).take 1)) p.src))))).advance i := by
  unfold State.collCredit
  simp only [hfor, hage]
  rfl

theorem collDone_noted (hfor : s.collFor p = some (i, c)) (hrun : c.running = true) (hatt : leNat ((p.body.drop 4).take 4) = c.attempt)
    (hdones : ∀ d ∈ c.dones, d.1 ≠ p.src ∧ d.2 = leNat ((p.body.drop 2).take 2)) :
    s.collDone p = (s.setColl i { c with dones := c.dones ++ [(p.src, leNat ((p.body.drop 2).take 2))] }).advance i := by
  have hnew : c.dones.any (fun d => d.1 == p.src) = false := List.any_eq_false.mpr fun d hd => by simpa using (hdones d hd).1
  have hagree : (c.dones ++ [(p.src, leNat ((p.body.drop 2).take 2))]).any (fun d => d.2 != leNat ((p.body.drop 2).take 2)) = false := by
    refine List.any_eq_false.mpr fun d hd => ?_
    rcases List.mem_append.mp hd with hd | hd
    · simpa using (hdones d hd).2
    · rw [List.mem_singleton.mp hd]; simp
  unfold State.collDone
  simp only [hfor, hatt, Nat.lt_irrefl, if_false, hrun, Bool.not_true, Bool.false_eq_true, hnew, hagree]

theorem collDone_stale (hfor : s.collFor p = some (i, c)) (hatt : leNat ((p.body.drop 4).take 4) < c.attempt) : s.collDone p = s.colDup := by
  unfold State.collDone
  simp only [hfor, hatt, if_true]

theorem collRestart_joins (hfor : s.collFor p = some (i, c)) (hatt : c.attempt < leNat ((p.body.drop 4).take 4)) :
    s.collRestart p = s.joinAttempt i c (leNat ((p.body.drop 4).take 4)) (leNat ((p.body.drop 2).take 2)) := by
  unfold State.collRestart
  simp only [hfor, Nat.not_lt.mpr hatt.le, if_false, hatt, if_true]

theorem collResend_current (hfor : s.collFor p = some (i, c)) (hage : c.age p = 1) : s.collResend p =
    s.setColl i (c.dueAgain (leNat ((p.body.drop 1).take 1)) (leNat ((p.body.drop 8).take 8)) p.src) := by
  unfold State.collResend
  simp only [hfor, hage]
  rfl

end Sys2Proof.Machine
end

section
/-!
SUPPORT. What the engine of collectives does with a stream that goes on: its next chunk, one due again, one to be reduced (R360, R366, R368).
-/
namespace Sys2Proof.Machine

/-- Stream `st` of context `i`, whose context is `c`, goes on: the attempt runs and no error stops the stream (R375). -/
structure StreamRuns (s : State) (i st : Nat) (c : Coll) : Prop where
  here : s.coll i = some c
  running : c.running = true
  going : c.stop = false
  sound : st ∉ c.det

variable {s u w : State} {i st : Nat} {c c' own : Coll} {err : MemErr} {x : CItem} {bs : List Byte} {n seq ovf len : Nat}

theorem StreamRuns.unblocked (h : StreamRuns s i st c) : (!c.running || c.stop || c.det.contains st) = false := by
  obtain ⟨-, hrun, hstop, hdet⟩ := h
  simp [hrun, hstop, hdet]

theorem StreamRuns.sendable (h : StreamRuns s i st c) (hstall : st ∉ c.stalled) :
    (!c.running || c.stop || c.det.contains st || c.stalled.contains st) = false := by
  rw [h.unblocked]
  simpa using hstall

section
variable (h : StreamRuns s i st c)
include h

theorem collSend_due (hstall : st ∉ c.stalled) {k : CHold}
    (hk : c.hold.find? (fun (k : CHold) => k.stream == st && !k.again.isEmpty) = some k) :
    s.collSend i st err = (s.meet err 1).resendHeld i c k := by
  unfold State.collSend
  simp only [h.here, h.sendable hstall, hk, Bool.false_eq_true, if_false]

/-- The next chunk, ready and under credit, stands in its hold entry: it leaves (R361, R366). -/
theorem collSend_next (hstall : st ∉ c.stalled)
    (hk : c.hold.find? (fun (k : CHold) => k.stream == st && !k.again.isEmpty) = none) (hseq : seq = c.sent.get 0 st)
    (hx : ((s.meet err 1).sends c (s.meet err 1).chip st)[seq]? = some x) (hcredit : ∀ n ∈ x.dests, seq < c.limit.get 0 (ckey st n))
    (hfree : c.holdFree st seq = true) (hbody : (s.meet err 1).chunkBody c x = some (.ok (bs, ovf, c', u)))
    (hwrite : (u.onBehalf 1).write (c'.slotAt c'.plan.hold st seq) bs = (none, w)) {d : Coll} {r : Coll × State}
    (hd : d = { c' with sent := c'.sent.set 0 st (seq + 1), hold := c'.hold ++ [CHold.mk st seq bs.length (x.kind == 2) ovf x.dests []] })
    (hr : r = w.tellLimits d st) :
    s.collSend i st err = ((if x.kind = 5 then x.dests.filter (fun n => (r.1.fbTo st n).isSome) else x.dests).foldl
      (fun (z : State) n => z.emitChunk r.1 st seq (x.kind == 2) ovf n false bs)
      (if x.kind = 5 then (r.2.setColl i r.1).emitChunk r.1 st seq false 0 0 true bs else r.2.setColl i r.1)).advance i := by
  subst hseq hr hd
  have hall : x.dests.all (fun n => decide (c.sent.get 0 st < c.limit.get 0 (ckey st n))) = true := by simpa using hcredit
  unfold State.collSend
  simp only [h.here, h.sendable hstall, hk, hx, hall, hfree, hbody, hwrite, Bool.not_true, Bool.or_false, Bool.false_eq_true, if_false]

/-- A reduction unit takes the next counted chunk (R360). -/
theorem collReduce_takes (hnext : (s.meet err 1).nextChunk c st = some (n, seq, x)) :
    s.collReduce i st err = (s.meet err 1).consume i c st n seq x := by
  unfold State.nextChunk at hnext
  unfold State.collReduce
  simp only [h.here, h.unblocked, hnext, Bool.false_eq_true, if_false]

end

theorem resendHeld_read {k : CHold} (hread : (s.onBehalf 1).readMem (c.slotAt c.plan.hold k.stream k.seq) k.len = (.ok bs, u)) :
    s.resendHeld i c k = k.again.foldl (fun (v : State) n => v.emitChunk c k.stream k.seq k.trailer k.ovf n false bs)
      (u.setColl i { c with hold := c.hold.map (fun (g : CHold) => if g = k then { g with again := [] } else g) }) := by
  unfold State.resendHeld
  simp only [hread]

/-- A partial is combined with this member's own (R360, R361). -/
theorem consume_partial (hk : x.kind = 0 ∨ x.kind = 2 ∨ x.kind = 6) (hlen : len = s.itemBytes c x) {p : CPart} {d : Coll}
    (hread : (s.onBehalf 1).readPieces ((s.landSlot c st n seq, len) :: (if x.kind = 2 then [(s.landSlot c st n seq + 0xC000, 64)] else [])) =
      (.ok bs, u)) (hpart : u.partOf c x.kind x.shard x.chunk = .ok (p, d, w)) :
    s.consume i c st n seq x = w.chunkDone i (d.setPart (CPart.mk x.kind x.shard x.chunk
      (combine x.kind (decodeCodes x.kind (len / kindBytes x.kind) bs) p.codes) (w.levelAt d x.stage + 1)
      (if x.kind = 2 then leNat ((bs.drop len).take 32) ||| p.ovf else 0))) st n seq := by
  obtain ⟨kind, stage, shard, chunk, dests, first, final⟩ := x
  subst hlen
  unfold State.consume
  simp only [hread]
  rcases hk with rfl | rfl | rfl <;> simp only [hpart]

/-- A gathered chunk is stored in its shard's place in DST (R361). -/
theorem consume_gathered (hk : x.kind = 3) (hlen : len = s.itemBytes c x)
    (hread : (s.onBehalf 1).readPieces [(s.landSlot c st n seq, len)] = (.ok bs, u))
    (hwrite : u.shardWrite c x.shard (x.chunk * 65536) bs = (none, w)) :
    s.consume i c st n seq x = w.chunkDone i (c.setPart (CPart.mk 3 x.shard x.chunk [] 0 0)) st n seq := by
  obtain ⟨kind, stage, shard, chunk, dests, first, final⟩ := x
  subst hlen hk
  unfold State.consume
  simp only [Nat.reduceEqDiff, if_false, hread, hwrite]
  rfl

/-- A broadcast chunk is stored in DST (R361). -/
theorem consume_broadcast (hk : x.kind = 5) (hlen : len = s.itemBytes c x)
    (hread : (s.onBehalf 1).readPieces [(s.landSlot c st n seq, len)] = (.ok bs, u))
    (hwrite : u.resultWrite (c.dstDesc.chunkPieces (x.chunk * 65536) len) bs = (none, w)) :
    s.consume i c st n seq x = w.chunkDone i c st n seq := by
  obtain ⟨kind, stage, shard, chunk, dests, first, final⟩ := x
  subst hlen hk
  unfold State.consume
  simp only [Nat.reduceEqDiff, if_false, hread, hwrite]
  rfl

/-- The one sender of a stream whose LIMIT has changed is told in a GRANT of KIND 2 (R366). -/
theorem tellLimits_one (hup : s.upstream c st = [n]) (hrecvs : s.recvs c st n ≠ []) (hlimit : s.limitFor c st n ≠ c.told.get 0 (ckey st n))
    (hback : c.qpBack st n = none) :
    (s.tellLimits c st).1 = { c with told := c.told.set 0 (ckey st n) (s.limitFor c st n) } ∧
    ∃ q, (s.tellLimits c st).2 = s.inject q ∧ q.dst = n ∧ q.tc = 2 ∧ q.type = 3 ∧
      q.body = leBytes 1 2 ++ leBytes 1 st ++ leBytes 2 0 ++ leBytes 4 (s.limitFor c st n) ++ leBytes 8 0 := by
  have htell : s.tellLimits c st = ({ c with told := c.told.set 0 (ckey st n) (s.limitFor c st n) }, s.sendCredit c st n (s.limitFor c st n)) := by
    unfold State.tellLimits
    rw [hup]
    exact if_neg (by simp [hrecvs, hlimit])
  have hcredit : ∃ q, s.sendCredit c st n (s.limitFor c st n) = s.inject q ∧ q.dst = n ∧ q.tc = 2 ∧ q.type = 3 ∧
      q.body = leBytes 1 2 ++ leBytes 1 st ++ leBytes 2 0 ++ leBytes 4 (s.limitFor c st n) ++ leBytes 8 0 := by
    unfold State.sendCredit
    simp only [hback]
    exact ⟨_, rfl, rfl, rfl, rfl, rfl⟩
  rw [htell]
  exact ⟨rfl, hcredit⟩

/-- COL_REDRIVE of a context whose scale table met an error reads it again (R375, R380). -/
theorem collRedrive_unread (hc : s.coll i = some c) (hunread : c.unread = true) : s.collRedrive i = s.openColl i c := by
  unfold State.collRedrive
  simp only [hc, hunread, if_true]

theorem collRedrive_clears (hc : s.coll i = some c) (hunread : c.unread = false) :
    s.collRedrive i = (s.setColl i { c with det := [] }).advance i := by
  unfold State.collRedrive
  simp only [hc, hunread, Bool.false_eq_true, if_false]

end Sys2Proof.Machine
end

section
/-!
SUPPORT. What the engine of collectives reads of the chip's place and of the fence bitmap (R335, R350): its schedule is a matter of the board
identity, the count of fences one of the words of its members.
-/
namespace Sys2Proof.Machine

variable {s t u : State}

/-! ### The schedule is a matter of the board identity (R350, R355, R360, R361) -/

section
variable (h : t.rd Reg.IDM_BOARD0 = s.rd Reg.IDM_BOARD0)
include h

theorem groupSize_of_rd : t.groupSize = s.groupSize := by
  funext axes
  simp only [State.groupSize, dim_of_rd h]

theorem memberChip_of_rd : t.memberChip = s.memberChip := by
  funext axes i
  simp only [State.memberChip, dim_of_rd h, chip_of_rd h]

theorem memberIx_of_rd : t.memberIx = s.memberIx := by
  funext axes n
  simp only [State.memberIx, dim_of_rd h]

theorem stages_of_rd : t.stages = s.stages := by
  funext c n
  simp only [State.stages, State.wholeRing, groupSize_of_rd h, memberChip_of_rd h, memberIx_of_rd h]

theorem blobLen_of_rd : t.blobLen = s.blobLen := by
  funext c j
  simp only [State.blobLen, State.ownShards, stages_of_rd h, memberChip_of_rd h]

theorem itemBytes_of_rd : t.itemBytes = s.itemBytes := by
  funext c x
  simp only [State.itemBytes, blobLen_of_rd h]

theorem phases_of_rd : t.phases = s.phases := by
  have hsends : t.stageSends = s.stageSends := by
    funext c n st kind k sg
    simp only [State.stageSends, memberChip_of_rd h, blobLen_of_rd h]
  funext c n st
  simp only [State.phases, stages_of_rd h, memberChip_of_rd h, hsends]

theorem upstreamOf_of_rd : t.upstreamOf = s.upstreamOf := by
  funext c me st
  simp only [State.upstreamOf, stages_of_rd h, memberChip_of_rd h]

theorem recvs_of_rd : t.recvs = s.recvs := by
  funext c st n
  simp only [State.recvs, State.sends, phases_of_rd h, chip_of_rd h]

theorem landSlot_of_rd : t.landSlot = s.landSlot := by
  funext c st n seq
  simp only [State.landSlot, State.landIx, State.order, upstreamOf_of_rd h, phases_of_rd h, chip_of_rd h]

theorem reduceOver_of_rd : t.reduceOver = s.reduceOver := by
  funext c
  simp only [State.reduceOver, State.phaseOver, State.upstream, upstreamOf_of_rd h, recvs_of_rd h, chip_of_rd h]

end

/-! ### The fence bits of the members (R335, R350) -/

theorem dim_lt (s : State) (a : Nat) : s.dim a < 64 := by
  unfold State.dim State.fld
  split
  · exact Nat.mod_lt _ (by decide)
  · split <;> exact Nat.mod_lt _ (by decide)

/-- How many coordinates of an axis the group of a plan takes. -/
def State.span (s : State) (axes a : Nat) : Nat := if axes.testBit a then s.dim a else 1

theorem span_lt (s : State) (axes a : Nat) : s.span axes a < 64 := by
  unfold State.span
  split
  · exact dim_lt s a
  · decide

theorem groupSize_eq (s : State) (axes : Nat) : s.groupSize axes = s.span axes 0 * s.span axes 1 * s.span axes 2 := by
  unfold State.groupSize axesOf State.span
  cases h0 : axes.testBit 0 <;> cases h1 : axes.testBit 1 <;> cases h2 : axes.testBit 2 <;> simp [List.filter, h0, h1, h2]

/-- A member's coordinates have 6 bits each, so its fence bit lies in the first 2,048 words from FAB_FENCE on. -/
theorem member_lt {c : Coll} {n : Nat} (hn : n ∈ s.group c) : n < 2 ^ 17 := by
  obtain ⟨k, hk, rfl⟩ := List.mem_map.mp hn
  rw [List.mem_range, groupSize_eq] at hk
  have hx0 : 0 < s.span c.plan.axes 0 := Nat.pos_of_ne_zero fun h => by simp [h] at hk
  have hy0 : 0 < s.span c.plan.axes 1 := Nat.pos_of_ne_zero fun h => by simp [h] at hk
  have hx : k % s.span c.plan.axes 0 < 64 := (Nat.mod_lt _ hx0).trans (span_lt s _ 0)
  have hy : k / s.span c.plan.axes 0 % s.span c.plan.axes 1 < 64 := (Nat.mod_lt _ hy0).trans (span_lt s _ 1)
  have hz : k / s.span c.plan.axes 0 / s.span c.plan.axes 1 < 64 := by
    refine lt_trans ?_ (span_lt s c.plan.axes 2)
    rw [Nat.div_div_eq_div_mul, Nat.div_lt_iff_lt_mul (Nat.mul_pos hx0 hy0), Nat.mul_comm]
    exact hk
  have hchip : s.chip < 2 ^ 15 := Nat.mod_lt _ (by decide)
  have hmember : s.memberChip c.plan.axes k =
      ((if c.plan.axes.testBit 2 then k / s.span c.plan.axes 0 / s.span c.plan.axes 1 else chipZ s.chip) * 32 +
        (if c.plan.axes.testBit 1 then k / s.span c.plan.axes 0 % s.span c.plan.axes 1 else chipY s.chip)) * 32 +
        (if c.plan.axes.testBit 0 then k % s.span c.plan.axes 0 else chipX s.chip) := rfl
  rw [hmember]
  unfold chipX chipY chipZ
  split <;> split <;> split <;> omega

/-- The registers that say which chips a group has, and which of them are fenced. -/
def groupRegs (off : Nat) : Prop := off = Reg.IDM_BOARD0 ∨ 0x101000 ≤ off ∧ off < 0x105000

/-- Those registers are as they were. -/
def groupKept (s t : State) : Prop := regsKept (fun off => ¬ groupRegs off) s t

theorem groupKept.trans (h : groupKept s t) (k : groupKept t u) : groupKept s u := regsKept.trans h k

theorem groupKept.of_regs (h : t.regs = s.regs) : groupKept s t := (regsKept.refl _ s).of_regs h

theorem Near.groupKept {e : Nat → Prop} (h : Near e s t) (he : ∀ off, e off → ¬ groupRegs off) : groupKept s t := by
  intro off hoff
  rw [not_not] at hoff
  refine h.regs off (fun hin => he off hin hoff) ?_
  rw [observes_eq_false]
  rcases hoff with rfl | hoff
  · decide
  · omega

theorem groupKept.board (h : groupKept s t) : t.rd Reg.IDM_BOARD0 = s.rd Reg.IDM_BOARD0 := h _ (not_not.mpr (.inl rfl))

theorem groupKept.group (h : groupKept s t) (c : Coll) : t.group c = s.group c := group_of_rd h.board c

theorem groupKept.fenced (h : groupKept s t) {c : Coll} {n : Nat} (hn : n ∈ s.group c) : t.fenced n = s.fenced n := by
  have hlt := member_lt hn
  exact fenced_of_rd (h _ (not_not.mpr (.inr (by simp only [Reg.FAB_FENCE]; omega))))

theorem groupKept.fencedIn (h : groupKept s t) (c : Coll) : t.fencedIn c = s.fencedIn c := by
  rw [State.fencedIn, h.group, List.filter_congr fun n hn => h.fenced hn]
  rfl

/-- The chips of a group that no fence covers (R369). -/
def State.unfenced (s : State) (c : Coll) : List Nat := (s.group c).filter (fun n => !s.fenced n)

theorem groupKept.unfenced (h : groupKept s t) (c : Coll) : t.unfenced c = s.unfenced c := by
  rw [State.unfenced, h.group, List.filter_congr fun n hn => by rw [h.fenced hn]]
  rfl

end Sys2Proof.Machine
end

section
/-!
SUPPORT. What writing a context leaves, and what the engine's own messages leave alone (R365, R366, R373, R379).
-/
namespace Sys2Proof.Machine

variable {s t u : State} {i : Nat} {c : Coll}

/-! ### A context is written (R379) -/

theorem showColl_eq (s : State) (i : Nat) : ∃ v, s.showColl i = s.wr (Reg.COL_CTX_STAT i) v := by
  unfold State.showColl
  split <;> exact ⟨_, rfl⟩

theorem setColl_eq (s : State) (i : Nat) (c : Coll) :
    ∃ v, s.setColl i c = ({ s with colls := s.colls.put i c }).wr (Reg.COL_CTX_STAT i) v :=
  showColl_eq _ i

@[simp] theorem setColl_mem (s : State) (i : Nat) (c : Coll) : (s.setColl i c).mem = s.mem := by
  obtain ⟨v, hv⟩ := setColl_eq s i c
  rw [hv]; rfl

@[simp] theorem setColl_early (s : State) (i : Nat) (c : Coll) : (s.setColl i c).early = s.early := by
  obtain ⟨v, hv⟩ := setColl_eq s i c
  rw [hv]; rfl

@[simp] theorem setColl_colls (s : State) (i : Nat) (c : Coll) : (s.setColl i c).colls = s.colls.put i c := by
  obtain ⟨v, hv⟩ := setColl_eq s i c
  rw [hv]; rfl

theorem rd_setColl_ne (s : State) (c : Coll) {off : Nat} (h : off ≠ Reg.COL_CTX_STAT i) : (s.setColl i c).rd off = s.rd off := by
  obtain ⟨v, hv⟩ := setColl_eq s i c
  rw [hv, rd_wr_ne v h]; rfl

theorem near_setColl (s : State) (i : Nat) (c : Coll) : Near (· = Reg.COL_CTX_STAT i) { s with colls := s.colls.put i c } (s.setColl i c) := by
  obtain ⟨v, hv⟩ := setColl_eq s i c
  rw [hv]
  exact near_wr _ _ (.inl rfl)

theorem find_put {α : Type} (l : Tab α) (i : Nat) (x : α) : (l.put i x).find? (fun e => e.1 == i) = some (i, x) := by
  induction l with
  | nil => simp [Tab.put]
  | cons e l ih =>
    obtain ⟨k, y⟩ := e
    unfold Tab.put
    split
    · next hk => simp [hk]
    · next hk =>
      split
      · simp
      · rw [List.find?_cons_of_neg (by simpa using Ne.symm hk), ih]

@[simp] theorem coll_setColl_here (s : State) (i : Nat) (c : Coll) : (s.setColl i c).coll i = some c := by
  rw [State.coll, setColl_colls, find_put]
  rfl

theorem setColl_groupKept (hi : i < 16) (s : State) (c : Coll) : groupKept s (s.setColl i c) := by
  have hnear : groupKept { s with colls := s.colls.put i c } (s.setColl i c) :=
    (near_setColl s i c).groupKept (by rintro off rfl; simp only [groupRegs, Reg.IDM_BOARD0, Reg.COL_CTX_STAT]; omega)
  exact groupKept.trans (.of_regs rfl) hnear

/-! ### Messages (R365, R366, R373) -/

/-- `t` is `s` once the engine has sent messages: packets that wait at the router, operations on queue pairs. -/
structure Sent (s t : State) : Prop where
  rest : t = { s with rt := t.rt, qps := t.qps, out := t.out }
  rin : ∃ l, t.rt = { s.rt with rin := s.rt.rin ++ l }

theorem Sent.refl (s : State) : Sent s s := ⟨rfl, [], by simp⟩

theorem Sent.trans (h : Sent s t) (k : Sent t u) : Sent s u := by
  refine ⟨by rw [k.rest, h.rest], ?_⟩
  obtain ⟨l, hl⟩ := h.rin
  obtain ⟨m, hm⟩ := k.rin
  exact ⟨l ++ m, by rw [hm, hl]; simp⟩

theorem Sent.foldl {β : Type} {f : State → β → State} {l : List β} (h : Sent s t) (hf : ∀ x b, Sent x (f x b)) : Sent s (l.foldl f t) := by
  induction l generalizing t with
  | nil => exact h
  | cons b l ih => exact ih (h.trans (hf t b))

theorem Sent.regs (h : Sent s t) : t.regs = s.regs := by rw [h.rest]
theorem Sent.mem (h : Sent s t) : t.mem = s.mem := by rw [h.rest]
theorem Sent.early (h : Sent s t) : t.early = s.early := by rw [h.rest]
theorem Sent.colls (h : Sent s t) : t.colls = s.colls := by rw [h.rest]
theorem Sent.rd (h : Sent s t) (off : Nat) : t.rd off = s.rd off := by rw [h.rest]; rfl

theorem sent_inject (s : State) (p : Packet) : Sent s (s.inject p) := ⟨rfl, _, rfl⟩

theorem sent_ownPost (s : State) (qp op rkey remote n : Nat) (bs : List Byte) : Sent s (s.ownPost qp op rkey remote n bs) := by
  unfold State.ownPost
  split
  · exact Sent.refl s
  · split
    · exact Sent.refl s
    · exact ⟨rfl, [], by simp [State.sendPost, State.setQp, State.say]⟩

theorem sent_sendCredit (s : State) (c : Coll) (st n limit : Nat) : Sent s (s.sendCredit c st n limit) := by
  unfold State.sendCredit
  dsimp only
  split
  · exact sent_ownPost s _ _ _ _ _ _
  · exact sent_inject s _

/-- A control that a member multicasts to its group's box (R365). -/
def State.controlTo (s : State) (c : Coll) (kind : Nat) : Packet :=
  { s.collPacket c 0 0 0 0xFF00 (s.controlBody c kind 0 c.attempt 0) with mc := true, mask := s.groupMask c.plan.axes }

theorem sent_multicastControl (s : State) (c : Coll) (kind : Nat) : Sent (s.inject (s.controlTo c kind)) (s.multicastControl c kind) :=
  (Sent.refl _).foldl fun x _ => sent_ownPost x _ _ _ _ _ _

/-! ### LIMITs told (R366) -/

/-- A context with its state, and the same once LIMITs have been told. -/
structure LimitsTold (a b : Coll × State) : Prop where
  context : ∃ told, b.1 = { a.1 with told := told }
  sent : Sent a.2 b.2

theorem LimitsTold.refl (a : Coll × State) : LimitsTold a a := ⟨⟨_, rfl⟩, .refl _⟩

theorem LimitsTold.trans {a b d : Coll × State} (h : LimitsTold a b) (k : LimitsTold b d) : LimitsTold a d := by
  obtain ⟨_, hb⟩ := h.context
  obtain ⟨_, hd⟩ := k.context
  exact ⟨⟨_, by rw [hd, hb]⟩, h.sent.trans k.sent⟩

theorem LimitsTold.foldl {β : Type} {f : Coll × State → β → Coll × State} (hf : ∀ x b, LimitsTold x (f x b)) (l : List β) (a : Coll × State) :
    LimitsTold a (l.foldl f a) := by
  induction l generalizing a with
  | nil => exact .refl a
  | cons b l ih => exact (hf a b).trans (ih _)

theorem told_tellLimits (s : State) (c : Coll) (st : Nat) : LimitsTold (c, s) (s.tellLimits c st) := by
  refine LimitsTold.foldl (fun x n => ?_) _ _
  dsimp only
  split
  · exact .refl x
  · exact ⟨⟨_, rfl⟩, sent_sendCredit _ _ _ _ _⟩

theorem firstCredits_tells (s : State) (i : Nat) (c : Coll) :
    ∃ r, LimitsTold (c, s) r ∧ s.firstCredits i c = r.2.setColl i r.1 :=
  ⟨_, LimitsTold.foldl (fun x st => told_tellLimits x.2 x.1 st) _ _, rfl⟩

end Sys2Proof.Machine
end

section
/-!
SUPPORT. A partial packet of a collective, and a control that is stale (R364, R367, R370): duplicates counted, a landing stored and counted.
-/
namespace Sys2Proof.Machine

variable {s u : State} {p : Packet} {i : Nat} {c : Coll} {x : CItem} {seq ix slot need : Nat} {got : List (Nat × Nat × Nat × Nat)}

/-! ### Duplicates (R367) -/

theorem near_colDup (s : State) : Near (fun off => off = Reg.COL_STATUS ∨ off = Reg.COL_DUP_CNT) s s.colDup :=
  ((Near.refl _ s).event _ _ _ (.inl (.inl rfl)) (.inl (.inr rfl))).bumpGlb _ _ _

theorem raised_colDup (s : State) : raised Reg.COL_STATUS (bitField 3) Reg.COL_DUP_CNT s s.colDup := by
  have hglb : Near (fun _ => False) (s.colEvent 3 Reg.COL_DUP_CNT) s.colDup := (Near.refl _ _).bumpGlb 0x09 0 1
  exact raised_congr (raised_event s _ _ _ (by decide)) rfl rfl (hglb.regs _ id (by decide)) (hglb.regs _ id (by decide))

/-- A packet taken and counted as a duplicate leaves nothing else behind. -/
theorem dup_counted (p : Packet) (h : s.early = []) : ∃ t : State, t = (s.take p).colDup.replayEarly ∧
    raised Reg.COL_STATUS (bitField 3) Reg.COL_DUP_CNT s t ∧ t.mem = s.mem ∧ t.colls = s.colls := by
  have hnear := (near_colDup (s.take p)).eq
  have hearly : (s.take p).colDup.early = [] := by rw [hnear]; exact h
  rw [replayEarly_of_none hearly]
  exact ⟨_, rfl, raised_colDup (s.take p), by rw [hnear]; rfl, by rw [hnear]; rfl⟩

theorem collDone_dup (hearly : s.early = []) (hfor : s.collFor p = some (i, c)) (hatt : leNat ((p.body.drop 4).take 4) < c.attempt) :
    Completes (.collDoneRx p) s (fun t =>
      raised Reg.COL_STATUS (bitField 3) Reg.COL_DUP_CNT s t ∧ t.mem = s.mem ∧ t.colls = s.colls) := by
  obtain ⟨t, rfl, hdup⟩ := dup_counted p hearly
  exact ⟨_, next_replayed (collDone_stale (s := s.take p) hfor hatt), hdup⟩

/-! ### A partial packet as it comes (R364, R367) -/

theorem landsLater_idle (h : s.commitPc = none) (a : Nat) : s.landsLater a = false := by rw [State.landsLater, h]; rfl

section
variable (htype : p.type = 1) (hoff : p.offset ≠ 0xFF00)
include htype hoff

theorem collPacketRx_stale (hfor : s.collFor p = some (i, c)) (hage : c.age p = 0) : s.collPacketRx p false = s.colDup := by
  unfold State.collPacketRx
  simp only [htype, hoff, hfor, hage, Nat.reduceEqDiff, if_false]

theorem collPacketRx_current (hfor : s.collFor p = some (i, c)) (hage : c.age p = 1) : s.collPacketRx p false = s.landPartial i c p := by
  unfold State.collPacketRx
  simp only [htype, hoff, hfor, hage, Nat.reduceEqDiff, Bool.false_eq_true, if_false]

end

theorem exec_partialPacketRx (hmal : p.malformed = false) (hcommit : s.commitPc = none) :
    exec (.partialPacketRx p) s = .next ((s.take p).collPacketRx p false).replayEarly := by
  have hnow : (s.collFor p).any (fun e => s.landsLater e.2.plan.land) = false := by
    simp only [landsLater_idle hcommit]
    cases s.collFor p <;> rfl
  show execPartialPacketRx p s = _
  unfold execPartialPacketRx
  simp only [hmal, hnow, Bool.false_eq_true, and_false, if_false]

/-- A packet of a chunk that has been counted, or that does not come here (R367). -/
theorem landPartial_dup (h : (p.stream, p.src, p.chunk % 2 ^ 18) ∈ c.counted ∨ ∀ e ∈ s.recvs c p.stream p.src, e.1 ≠ p.chunk % 2 ^ 18) :
    s.landPartial i c p = s.colDup := by
  unfold State.landPartial State.landPiece
  dsimp only
  split
  · rfl
  · next r ix hfind =>
    refine if_pos (.inr ?_)
    rcases h with hcounted | hnone
    · simpa using hcounted
    · have hmem : r ∈ s.recvs c p.stream p.src := by
        obtain ⟨-, hlt, heq⟩ := List.mem_zipIdx (List.mem_of_find?_eq_some hfind)
        rw [heq]
        exact List.getElem_mem _
      exact absurd (by simpa using List.find?_some hfind) (hnone r hmem)

theorem partial_dup (hearly : s.early = []) (htype : p.type = 1) (hoff : p.offset ≠ 0xFF00) (hmal : p.malformed = false)
    (hcommit : s.commitPc = none) (hfor : s.collFor p = some (i, c))
    (h : c.age p = 0 ∨ c.age p = 1 ∧ ((p.stream, p.src, p.chunk % 2 ^ 18) ∈ c.counted ∨
      ∀ e ∈ s.recvs c p.stream p.src, e.1 ≠ p.chunk % 2 ^ 18)) :
    Completes (.partialPacketRx p) s (fun t =>
      raised Reg.COL_STATUS (bitField 3) Reg.COL_DUP_CNT s t ∧ t.mem = s.mem ∧ t.colls = s.colls) := by
  have hdup : (s.take p).collPacketRx p false = (s.take p).colDup := by
    rcases h with hage | ⟨hage, hgone⟩
    · exact collPacketRx_stale htype hoff hfor hage
    · rw [← show (s.take p).recvs = s.recvs from recvs_of_rd rfl] at hgone
      exact (collPacketRx_current (s := s.take p) htype hoff hfor hage).trans (landPartial_dup hgone)
  obtain ⟨t, rfl, hcounted⟩ := dup_counted p hearly
  exact ⟨_, (exec_partialPacketRx hmal hcommit).trans (next_replayed hdup), hcounted⟩

/-! ### A landing (R366, R367) -/

/-- The packets of chunk `seq` of chip `n` on stream `st` that have landed. -/
def landedOf (got : List (Nat × Nat × Nat × Nat)) (st n seq : Nat) : Nat :=
  (got.filter (fun g => g.1 == st && g.2.1 == n && g.2.2.1 == seq)).length

/-- Where a packet of the current pass is to land: the `ix`-th chunk of its sender, `x`, not taken and not counted, its slot in a region that
admits it (R232, R366, R367). -/
structure Lands (s : State) (c : Coll) (p : Packet) (seq ix : Nat) (x : CItem) : Prop where
  chunk : seq = p.chunk % 2 ^ 18
  due : (s.recvs c p.stream p.src).zipIdx.find? (fun e => e.1.1 == seq) = some ((seq, x), ix)
  ahead : c.eaten.get 0 (ckey p.stream p.src) ≤ ix
  uncounted : (p.stream, p.src, seq) ∉ c.counted
  region : s.regionOk 1 (s.landSlot c p.stream p.src seq) 65536 .fl = true

/-- The packet is written at its offset in its slot; the chunk is counted where every packet of it has landed. -/
theorem landPartial_lands (h : Lands s c p seq ix x) (hcommit : s.commitPc = none)
    (hwrite : (s.onBehalf 1).write (s.landSlot c p.stream p.src seq + p.offset) p.body = (none, u))
    (hgot : got = if (p.stream, p.src, seq, p.offset) ∈ c.got then c.got else c.got ++ [(p.stream, p.src, seq, p.offset)])
    (hneed : need = (u.itemBytes c x + 4095) / 4096 + (if x.kind = 2 then 1 else 0)) :
    s.landPartial i c p = if landedOf got p.stream p.src seq < need then u.setColl i { c with got := got }
      else u.countChunk i { c with got := got } p.stream p.src seq := by
  obtain ⟨rfl, hdue, hahead, huncounted, hregion⟩ := h
  subst hgot hneed
  have hfresh : ¬ (ix < c.eaten.get 0 (ckey p.stream p.src) ∨ (p.stream, p.src, p.chunk % 2 ^ 18) ∈ c.counted) :=
    not_or.mpr ⟨Nat.not_lt.mpr hahead, huncounted⟩
  unfold State.landPartial State.landPiece
  simp only [hdue, List.contains_eq_mem, decide_eq_true_eq, hfresh, landsLater_idle hcommit, hregion, hwrite, Bool.not_true,
    Bool.false_eq_true, if_false]
  rfl

theorem rxCnt_setColl (hi : i < 16) (s : State) (c : Coll) : (s.setColl i c).rd Reg.COL_CHUNK_RX_CNT = s.rd Reg.COL_CHUNK_RX_CNT :=
  rd_setColl_ne s c (by simp only [Reg.COL_CHUNK_RX_CNT, Reg.COL_CTX_STAT]; omega)

theorem counted_countChunk (hi : i < 16) (s : State) (c : Coll) (st n seq : Nat) :
    counted Reg.COL_CHUNK_RX_CNT 1 s (s.countChunk i c st n seq) := by
  unfold State.countChunk
  exact counted.of_rd (rxCnt_setColl hi s _) (counted_cntBy _ _ _)

theorem countChunk_mem (s : State) (c : Coll) (st n seq : Nat) : (s.countChunk i c st n seq).mem = s.mem := by
  unfold State.countChunk
  exact setColl_mem s i _

theorem countChunk_early (s : State) (c : Coll) (st n seq : Nat) : (s.countChunk i c st n seq).early = s.early := by
  unfold State.countChunk
  exact setColl_early s i _

theorem coll_countChunk (s : State) (c : Coll) (st n seq : Nat) :
    (s.countChunk i c st n seq).coll i = some { c.unland st n seq with counted := c.counted ++ [(st, n, seq)] } := coll_setColl_here s i _

/-- A body written into plain device memory for the engine. -/
theorem body_written (p : Packet) (a : Nat) (hplain : plainHbm s a p.body.length) :
    ∃ u, ((s.take p).onBehalf 1).write a p.body = (none, u) ∧ HbmWritten (s.take p) u ∧ storedAt a p.body s u := by
  obtain ⟨u, hwrite, hwritten, hstored⟩ := plainHbm.write (s := (s.take p).onBehalf 1) hplain p.body rfl
  exact ⟨u, hwrite, (near_onBehalf (s.take p) 1).hbmWritten.trans hwritten, hstored.of_mem rfl rfl⟩

theorem Lands.taken (h : Lands s c p seq ix x) : Lands (s.take p) c p seq ix x := by
  obtain ⟨hchunk, hdue, hahead, huncounted, hregion⟩ := h
  have hrecvs : (s.take p).recvs = s.recvs := recvs_of_rd rfl
  have hland : (s.take p).landSlot = s.landSlot := landSlot_of_rd rfl
  exact ⟨hchunk, by rw [hrecvs]; exact hdue, hahead, huncounted, by rw [hland]; exact hregion⟩

/-- What a landing leaves: its bytes stored, the context with what has landed, or with the chunk counted. -/
theorem partial_lands (h : Lands s c p seq ix x) (hi : i < 16) (hearly : s.early = []) (htype : p.type = 1) (hoff : p.offset ≠ 0xFF00)
    (hmal : p.malformed = false) (hcommit : s.commitPc = none) (hfor : s.collFor p = some (i, c)) (hage : c.age p = 1)
    (hslot : slot = s.landSlot c p.stream p.src seq) (hplain : plainHbm s (slot + p.offset) p.body.length)
    (hgot : got = if (p.stream, p.src, seq, p.offset) ∈ c.got then c.got else c.got ++ [(p.stream, p.src, seq, p.offset)])
    (hneed : need = (s.itemBytes c x + 4095) / 4096 + (if x.kind = 2 then 1 else 0)) :
    Completes (.partialPacketRx p) s (fun t => storedAt (slot + p.offset) p.body s t ∧
      (landedOf got p.stream p.src seq < need → t.coll i = some { c with got := got } ∧ t.rd Reg.COL_CHUNK_RX_CNT = s.rd Reg.COL_CHUNK_RX_CNT) ∧
      (need ≤ landedOf got p.stream p.src seq → t.coll i = some { c with
          got := got.filter (fun g => !(g.1 == p.stream && g.2.1 == p.src && g.2.2.1 == seq))
          counted := c.counted ++ [(p.stream, p.src, seq)] } ∧ counted Reg.COL_CHUNK_RX_CNT 1 s t)) := by
  obtain ⟨u, hwrite, hwritten, hstored⟩ := body_written p _ hplain
  have hboard : u.rd Reg.IDM_BOARD0 = s.rd Reg.IDM_BOARD0 := hwritten.regs _ (by decide) (by decide)
  have hcount : u.rd Reg.COL_CHUNK_RX_CNT = s.rd Reg.COL_CHUNK_RX_CNT := hwritten.regs _ (by decide) (by decide)
  have hkeep : u.early = [] := by rw [hwritten.rest]; exact hearly
  have hland : (s.take p).landSlot = s.landSlot := landSlot_of_rd rfl
  have hlands : (s.take p).landPartial i c p = if landedOf got p.stream p.src seq < need then u.setColl i { c with got := got }
      else u.countChunk i { c with got := got } p.stream p.src seq :=
    landPartial_lands h.taken hcommit (by rw [hland, ← hslot]; exact hwrite) hgot (by rw [itemBytes_of_rd hboard]; exact hneed)
  have hexec : exec (.partialPacketRx p) s = .next ((s.take p).landPartial i c p).replayEarly := by
    rw [exec_partialPacketRx hmal hcommit, collPacketRx_current (s := s.take p) htype hoff hfor hage]
  rw [hlands] at hexec
  refine ⟨_, hexec, ?_⟩
  by_cases hlast : landedOf got p.stream p.src seq < need
  · rw [if_pos hlast, replayEarly_of_none ((setColl_early _ _ _).trans hkeep)]
    exact ⟨hstored.of_mem rfl (setColl_mem _ _ _), fun _ => ⟨coll_setColl_here _ _ _, (rxCnt_setColl hi u _).trans hcount⟩,
      fun hle => absurd hlast (Nat.not_lt.mpr hle)⟩
  · rw [if_neg hlast, replayEarly_of_none ((countChunk_early _ _ _ _ _).trans hkeep)]
    exact ⟨hstored.of_mem rfl (countChunk_mem _ _ _ _ _), fun hlt => absurd hlt hlast,
      fun _ => ⟨coll_countChunk _ _ _ _ _, .of_rd hcount (counted_countChunk hi u _ _ _ _)⟩⟩

end Sys2Proof.Machine
end

section
/-!
SUPPORT. A restart of a collective (R371), and the attempt it starts where enough chips are fenced (R369).
-/
namespace Sys2Proof.Machine

variable {s t u : State} {p : Packet} {i a : Nat} {c : Coll}

/-! ### An attempt starts (R356, R369) -/

/-- The attempt of context `c` over the members `m`, as it starts: nothing sent, landed or held (R369). -/
def Coll.begun (c : Coll) (m : List Nat) : Coll :=
  { c.beginPass (if c.sums && c.atIssue.isEmpty then 0 else 1) with
    running := true, members := m, codes := c.atIssue, dones := [], doneSent := false, fb := [], fbIn := [], stalled := []
    det := [], resend := [], prepass := (if c.sums && c.atIssue.isEmpty then 0 else 1) == 0 }

/-- A pre-pass is counted (R358). -/
def State.prepassCounted (s : State) (c : Coll) : State :=
  if (if c.sums && c.atIssue.isEmpty then 0 else 1) = 0 then s.cnt Reg.COL_PREPASS_CNT else s

theorem near_prepassCounted (s : State) (c : Coll) : Near (· = Reg.COL_PREPASS_CNT) s (s.prepassCounted c) :=
  Near.ite (fun _ => (Near.refl _ s).cnt _ (.inl rfl)) (fun _ => Near.refl _ s)

theorem beginAttempt_starts (s : State) (i : Nat) (h : c.unread = false) : ∃ r told, Sent (s.prepassCounted c) r ∧
    s.beginAttempt i c = r.setColl i { c.begun (s.unfenced c) with told := told } := by
  obtain ⟨r, htold, hcredits⟩ := firstCredits_tells (s.prepassCounted c) i (c.begun (s.unfenced c))
  obtain ⟨told, hr⟩ := htold.context
  refine ⟨r.2, told, htold.sent, ?_⟩
  unfold State.beginAttempt
  rw [h, if_neg Bool.false_ne_true, ← hr]
  exact hcredits

/-! ### A restart is told (R371) -/

/-- The context once it has joined the attempt: it waits until it starts (R371). -/
def Coll.rejoined (c : Coll) (wait attempt : Nat) : Coll :=
  { c with wait := wait, attempt := attempt, highest := max attempt c.highest, running := false }

/-- The restart is counted and recorded, and nothing of it has left (R371, R476). -/
def State.restartNoted (s : State) (i : Nat) (c : Coll) : State :=
  ((s.setColl i c).colEvent 5 Reg.COL_RESTART_CNT).trace 77 0x14 c.plan.id 0 (peerWord c.attempt 0 0 0 c.n)

theorem near_restartNoted (s : State) (i : Nat) (c : Coll) :
    Near (fun off => off = Reg.COL_CTX_STAT i ∨ off = Reg.COL_STATUS ∨ off = Reg.COL_RESTART_CNT)
      { s with colls := s.colls.put i c } (s.restartNoted i c) :=
  (((near_setColl s i c).mono fun _ => .inl).event _ _ _ (.inl (.inr (.inl rfl))) (.inl (.inr (.inr rfl)))).trace (by decide) _ _ _ _

theorem raised_restartNoted (hi : i < 16) (s : State) (c : Coll) :
    raised Reg.COL_STATUS (bitField 5) Reg.COL_RESTART_CNT s (s.restartNoted i c) := by
  have htrace : Near (fun _ => False) ((s.setColl i c).colEvent 5 Reg.COL_RESTART_CNT) (s.restartNoted i c) :=
    (Near.refl _ _).trace (by decide) _ _ _ _
  refine raised_congr (raised_event (s.setColl i c) _ _ _ (by decide)) (rd_setColl_ne s c ?_).symm (rd_setColl_ne s c ?_).symm
    (htrace.regs _ id (by decide)) (htrace.regs _ id (by decide)) <;>
  · simp only [Reg.COL_STATUS, Reg.COL_RESTART_CNT, Reg.COL_CTX_STAT]; omega

theorem restartNoted_groupKept (hi : i < 16) (s : State) (c : Coll) : groupKept s (s.restartNoted i c) := by
  refine groupKept.trans (.of_regs rfl) ((near_restartNoted s i c).groupKept ?_)
  rintro off (rfl | rfl | rfl) <;> simp only [groupRegs, Reg.IDM_BOARD0, Reg.COL_STATUS, Reg.COL_RESTART_CNT, Reg.COL_CTX_STAT] <;> omega

/-- The group has been told of the restart (R365, R371). -/
def State.restartSent (s : State) (i : Nat) (c : Coll) : State := (s.restartNoted i c).multicastControl c 2

/-- What a RESTART leaves that has been told to the group, the attempt not started (R371). -/
structure RestartTold (s : State) (i : Nat) (c : Coll) (u : State) : Prop where
  here : u.coll i = some c
  flag : raised Reg.COL_STATUS (bitField 5) Reg.COL_RESTART_CNT s u
  memory : u.mem = s.mem
  early : u.early = s.early
  group : groupKept s u
  told : ∃ rest, u.rt.rin = s.rt.rin ++ ({ p := (s.restartNoted i c).controlTo c 2 } : RPkt) :: rest

theorem restart_told (hi : i < 16) (s : State) (c : Coll) : RestartTold s i c (s.restartSent i c) := by
  have hnear := (near_restartNoted s i c).eq
  have hmulticast : Sent ((s.restartNoted i c).inject ((s.restartNoted i c).controlTo c 2)) (s.restartSent i c) :=
    sent_multicastControl _ _ _
  have hsent : Sent (s.restartNoted i c) (s.restartSent i c) := (sent_inject _ _).trans hmulticast
  have hcolls : (s.restartSent i c).colls = s.colls.put i c := hsent.colls.trans (by rw [hnear])
  have hrin : (s.restartNoted i c).rt.rin = s.rt.rin := by rw [hnear]
  obtain ⟨rest, hrest⟩ := hmulticast.rin
  refine ⟨?_, raised_congr (raised_restartNoted hi s c) rfl rfl (hsent.rd _) (hsent.rd _), hsent.mem.trans (by rw [hnear]),
    hsent.early.trans (by rw [hnear]), (restartNoted_groupKept hi s c).trans (.of_regs hsent.regs), rest, ?_⟩
  · rw [State.coll, hcolls, find_put]
    rfl
  · rw [hrest]
    show ((s.restartNoted i c).rt.rin ++ [_]) ++ rest = _
    rw [hrin, List.append_assoc]
    rfl

/-! ### A RESTART of a higher attempt (R371) -/

theorem leNat_leBytes (n v : Nat) : leNat (leBytes n v) = v % 256 ^ n := by
  induction n generalizing v with
  | zero => rw [Nat.pow_zero, Nat.mod_one]; rfl
  | succ n ih =>
    rw [Nat.pow_succ', Nat.mod_mul, ← ih]
    simp only [leBytes, leNat, BitVec.toNat_ofNat]

theorem controlTo_restart (s : State) (c : Coll) : (s.controlTo c 2).mc = true ∧ (s.controlTo c 2).type = 1 ∧
    (s.controlTo c 2).offset = 0xFF00 ∧ (s.controlTo c 2).body.take 1 = [2] ∧
    leNat (((s.controlTo c 2).body.drop 4).take 4) = c.attempt % 2 ^ 32 :=
  ⟨rfl, rfl, rfl, rfl, leNat_leBytes 4 c.attempt⟩

theorem take_fencedIn (s : State) (p : Packet) (c : Coll) : (s.take p).fencedIn c = s.fencedIn c := rfl

theorem take_unfenced (s : State) (p : Packet) (c : Coll) : (s.take p).unfenced c = s.unfenced c := rfl

section
variable {d : Coll} (hi : i < 16) (hearly : s.early = []) (hfor : s.collFor p = some (i, c)) (ha : a = leNat ((p.body.drop 4).take 4))
  (hatt : c.attempt < a) (hd : d = c.rejoined (max (leNat ((p.body.drop 2).take 2)) c.wait) a)

section
include hfor ha hatt hd

theorem exec_collRestartRx : exec (.collRestartRx p) s = .next (if d.wait ≤ ((s.take p).restartSent i d).fencedIn d
    then ((s.take p).restartSent i d).beginAttempt i d else (s.take p).restartSent i d).replayEarly := by
  subst ha hd
  exact next_replayed (collRestart_joins (s := s.take p) hfor hatt)

end

include hi hearly hfor ha hatt hd

/-- Too few chips of the group are fenced here: the member has joined, and waits (R371). -/
theorem collRestart_waits (hfew : s.fencedIn d < d.wait) : Completes (.collRestartRx p) s (fun t => t.coll i = some d ∧
    raised Reg.COL_STATUS (bitField 5) Reg.COL_RESTART_CNT s t ∧ t.mem = s.mem ∧
    ∃ q rest, t.rt.rin = s.rt.rin ++ ({ p := q } : RPkt) :: rest ∧ q.mc = true ∧ q.type = 1 ∧ q.offset = 0xFF00 ∧
      q.body.take 1 = [2] ∧ leNat ((q.body.drop 4).take 4) = a % 2 ^ 32) := by
  obtain ⟨hhere, hflag, hmem, hkeep, hgroup, rest, hrest⟩ := restart_told hi (s.take p) d
  have hexec := exec_collRestartRx hfor ha hatt hd
  rw [hgroup.fencedIn, take_fencedIn, if_neg (Nat.not_le.mpr hfew), replayEarly_of_none (hkeep.trans hearly)] at hexec
  have hattempt : d.attempt = a := by rw [hd]; rfl
  exact ⟨_, hexec, hhere, hflag, hmem, _, rest, hrest, hattempt ▸ controlTo_restart _ d⟩

/-- Enough chips are fenced here: the attempt starts over the others (R369, R371). -/
theorem collRestart_starts (henough : d.wait ≤ s.fencedIn d) (hunread : d.unread = false) :
    Completes (.collRestartRx p) s (fun t => raised Reg.COL_STATUS (bitField 5) Reg.COL_RESTART_CNT s t ∧ t.mem = s.mem ∧
      ∃ told, t.coll i = some { d.begun (s.unfenced d) with told := told }) := by
  obtain ⟨-, hflag, hmem, hkeep, hgroup, -⟩ := restart_told hi (s.take p) d
  obtain ⟨r, told, hsent, hbegun⟩ := beginAttempt_starts ((s.take p).restartSent i d) i hunread
  have hexec := exec_collRestartRx hfor ha hatt hd
  have hpass := near_prepassCounted ((s.take p).restartSent i d) d
  have hrd : ∀ off, off = Reg.COL_STATUS ∨ off = Reg.COL_RESTART_CNT → ((r.setColl i { d.begun (s.unfenced d) with told := told }).rd off =
      ((s.take p).restartSent i d).rd off) := by
    intro off hoff
    obtain ⟨hcontext, hprepass, hunobserved⟩ : off ≠ Reg.COL_CTX_STAT i ∧ off ≠ Reg.COL_PREPASS_CNT ∧ observes off = false := by
      rcases hoff with rfl | rfl <;> refine ⟨?_, by decide, by decide⟩ <;>
      · simp only [Reg.COL_STATUS, Reg.COL_RESTART_CNT, Reg.COL_CTX_STAT]; omega
    rw [rd_setColl_ne r _ hcontext, hsent.rd, hpass.regs off hprepass hunobserved]
  rw [hgroup.fencedIn, take_fencedIn, if_pos henough, hbegun, hgroup.unfenced, take_unfenced,
    replayEarly_of_none (by rw [setColl_early, hsent.early, hpass.eq]; exact hkeep.trans hearly)] at hexec
  refine ⟨_, hexec, raised_congr hflag rfl rfl (hrd _ (.inl rfl)) (hrd _ (.inr rfl)), ?_, told, coll_setColl_here _ _ _⟩
  rw [setColl_mem, hsent.mem, hpass.eq]
  exact hmem

end

end Sys2Proof.Machine
end

section
/-!
SUPPORT. The packets of a chunk that leaves (R355, R364), and COL_REDRIVE of a context (R375, R380).
-/
namespace Sys2Proof.Machine

variable {e : Nat → Prop} {s t u : State} {i : Nat} {c : Coll} {st seq ovf n : Nat} {trailer : Bool} {bs : List Byte}

/-! ### A chunk leaves (R355, R364) -/

theorem injectAll_eq (s : State) (ps : List Packet) :
    s.injectAll ps = { s with rt := { s.rt with rin := s.rt.rin ++ ps.map (fun q => ({ p := q } : RPkt)) } } := by
  induction ps generalizing s with
  | nil => simp [State.injectAll]
  | cons p ps ih =>
    show (s.inject p).injectAll ps = _
    rw [ih, State.inject]
    simp

/-- The packets of a chunk to one receiver, its trailer last. -/
def State.chunkPackets (s : State) (c : Coll) (st seq : Nat) (trailer : Bool) (ovf n : Nat) (bs : List Byte) : List Packet :=
  packetsOf (s.collPacket c n st seq 0 []) 16 0 bs ++ (if trailer then
    [{ s.collPacket c n st seq 0xC000 [] with body := leBytes 32 ovf ++ leBytes 32 0 }] else [])

/-- The chunk is counted as it leaves. -/
def State.txCounted (s : State) : State := (s.cnt Reg.COL_CHUNK_TX_CNT).bumpGlb 0x08 0 1

theorem near_txCounted (s : State) : Near (· = Reg.COL_CHUNK_TX_CNT) s s.txCounted :=
  ((Near.refl (· = Reg.COL_CHUNK_TX_CNT) s).cnt _ (.inl rfl)).bumpGlb _ _ _

theorem counted_txCounted (s : State) : counted Reg.COL_CHUNK_TX_CNT 1 s s.txCounted :=
  (counted_cntBy s _ 1).near ((Near.refl (fun _ => False) _).bumpGlb 0x08 0 1) id (by decide)

theorem emitChunk_torus (s : State) (hfb : c.fbTo st n = none) :
    s.emitChunk c st seq trailer ovf n false bs = s.txCounted.injectAll (s.chunkPackets c st seq trailer ovf n bs) := by
  unfold State.emitChunk State.chunkPackets
  simp only [Bool.false_eq_true, if_false, hfb]
  cases trailer
  · simp only [Bool.false_eq_true, if_false, List.append_nil]
    rfl
  · simp only [if_true, State.injectAll, List.foldl_append]
    rfl

theorem Near.withRt (h : Near e s t) (r : Router) : Near e { s with rt := r } { t with rt := r } := by
  refine ⟨h.regs, ?_⟩
  rw [h.eq]
  rfl

/-- A chunk on the torus is counted and its packets wait at the router; nothing else changes. -/
theorem emitChunk_leaves (s : State) (hfb : c.fbTo st n = none) : ∃ u : State, u = s.emitChunk c st seq trailer ovf n false bs ∧
    counted Reg.COL_CHUNK_TX_CNT 1 s u ∧
    u.rt.rin = s.rt.rin ++ (s.chunkPackets c st seq trailer ovf n bs).map (fun q => ({ p := q } : RPkt)) ∧
    Near (· = Reg.COL_CHUNK_TX_CNT) { s with rt := { s.rt with rin := u.rt.rin } } u := by
  have hrt : s.txCounted.rt = s.rt := by rw [(near_txCounted s).eq]
  refine ⟨_, rfl, ?_⟩
  rw [emitChunk_torus s hfb, injectAll_eq, hrt]
  exact ⟨counted_txCounted s, rfl, (near_txCounted s).withRt _⟩

/-! ### COL_REDRIVE (R375, R380) -/

/-- A context goes no further whose attempt does not run, which has stopped, or whose reduce phase is not over. -/
theorem advance_rests (hc : s.coll i = some c) (h : c.running = false ∨ c.stop = true ∨ c.ready = false ∧ s.reduceOver c = false) :
    s.advance i = s := by
  unfold State.advance State.advanceColl
  simp only [hc]
  by_cases hopen : (!c.running || c.stop) = true
  · exact if_pos hopen
  · obtain ⟨hready, hreduce⟩ : c.ready = false ∧ s.reduceOver c = false := by
      rcases h with h | h | h
      · simp [h] at hopen
      · simp [h] at hopen
      · exact h
    rw [if_neg hopen, hready, hreduce]
    rfl

theorem reduceOver_undetected (s : State) (c : Coll) : s.reduceOver { c with det := [] } = s.reduceOver c := rfl

/-- The streams that a detected error stopped go on; a context that goes no further at once is changed in no other way. -/
theorem collRedrive_cleared (hi : i < 16) (hearly : s.early = []) (hc : s.coll i = some c) (hunread : c.unread = false)
    (h : c.running = false ∨ c.stop = true ∨ c.ready = false ∧ s.reduceOver c = false) : ∃ t : State, t = (s.collRedrive i).replayEarly ∧
    t.coll i = some { c with det := [] } ∧ t.mem = s.mem ∧ Near (· = Reg.COL_CTX_STAT i) { s with colls := t.colls } t := by
  have hboard := (setColl_groupKept hi s { c with det := [] }).board
  have hrests : (s.setColl i { c with det := [] }).advance i = s.setColl i { c with det := [] } :=
    advance_rests (coll_setColl_here s i _) (by rw [reduceOver_of_rd hboard, reduceOver_undetected]; exact h)
  rw [collRedrive_clears hc hunread, hrests, replayEarly_of_none ((setColl_early s i _).trans hearly)]
  refine ⟨_, rfl, coll_setColl_here s i _, setColl_mem s i _, ?_⟩
  rw [setColl_colls]
  exact near_setColl s i _

end Sys2Proof.Machine
end

section
/-!
SUPPORT. The statements of the collectives, put together.
-/
namespace Sys2Proof.Machine

/-- Settles O34, by what each packet of the engine leaves, the packets kept early looked at again. -/
theorem collectivePackets : Obligations.CollectivePackets := by
  unfold Obligations.CollectivePackets
  refine ⟨?credit, ?early, ?dup, ?lands, ?done, ?stale, ?restart, ?resend⟩
  case credit =>
    rintro s p i c k hkind hfor hage rfl
    rw [exec_collCreditRx hkind, collCredit_current (s := s.take p) hfor hage]
    rfl
  case early =>
    intro s p hearly hkind htype hnone hpast
    rw [exec_collCreditRx hkind, collCredit_unissued (s := s.take p) hnone hpast,
      replayEarly_keptCredit (s := s.take p) hearly htype hnone hpast]
  case dup =>
    exact fun s p i c _ hearly htype hoff hmal hcommit hfor h => partial_dup hearly htype hoff hmal hcommit hfor h
  case lands =>
    intro s p i seq ix slot need c x got _ hi hearly htype hoff hmal hcommit hfor hage hseq hdue hahead huncounted hslot hregion hplain hgot hneed
    exact partial_lands ⟨hseq, hdue, hahead, huncounted, hslot ▸ hregion⟩ hi hearly htype hoff hmal hcommit hfor hage hslot hplain hgot hneed
  case done =>
    intro s p i c hfor hrun hatt hdones
    exact next_replayed (collDone_noted (s := s.take p) hfor hrun hatt hdones)
  case stale => exact fun s p i c _ hearly hfor hatt => collDone_dup hearly hfor hatt
  case restart =>
    intro s p i a c _ hearly hi hfor ha hatt
    refine ⟨fun hfew => collRestart_waits hi hearly hfor ha hatt rfl hfew, fun henough hunread => ?_⟩
    obtain ⟨t, ht, hflag, hmem, told, hcoll⟩ := collRestart_starts hi hearly hfor ha hatt rfl henough hunread
    exact ⟨t, ht, hflag, hmem, _, hcoll, rfl, rfl, rfl, rfl, rfl, rfl, rfl⟩
  case resend =>
    intro s p i c hearly hfor hage
    have hkeep : ((s.take p).collResend p).early = [] := by
      rw [collResend_current (s := s.take p) hfor hage, setColl_early]
      exact hearly
    have hexec : exec (.collResendRx p) s = .next ((s.take p).collResend p).replayEarly := rfl
    rw [hexec, replayEarly_of_none hkeep, collResend_current (s := s.take p) hfor hage]
    simp [Coll.dueAgain]

/-- Settles O35, by what the engine does with a stream that goes on, and by what COL_REDRIVE clears. -/
theorem collectiveEngine : Obligations.CollectiveEngine := by
  unfold Obligations.CollectiveEngine
  refine ⟨?send, ?emit, ?again, ?reduce, ?gather, ?credit, ?redrive, ?unread, fun s b i hb => congrArg Host.Outcome.next (if_neg hb)⟩
  case send =>
    rintro s v u w i st err c c' d x bs ovf seq r rfl hc hrun hstop hdet hstall hk hseq hx hcredit hfree hbody hwrite hd hr
    have hsend := collSend_next ⟨hc, hrun, hstop, hdet⟩ hstall hk hseq hx hcredit hfree hbody hwrite hd hr
    have hexec : exec (.collChunkSend i st err) s = .next (s.collSend i st err).replayEarly := rfl
    rw [hexec, hsend]
    refine ⟨fun h5 => by rw [if_neg h5, if_neg h5], fun h5 => ?_⟩
    rw [if_pos h5, if_pos h5, h5]
    rfl
  case emit => exact fun s c st seq ovf n trailer bs _ hfb => emitChunk_leaves s hfb
  case again =>
    rintro s v u i st err c k bs rfl hc hrun hstop hdet hstall hk hread
    have hsend := (collSend_due (err := err) ⟨hc, hrun, hstop, hdet⟩ hstall hk).trans (resendHeld_read hread)
    exact next_replayed hsend
  case reduce =>
    rintro s v u w i st err c d x own n seq len bs rfl hc hrun hstop hdet hnext hk hlen hread hpart
    have htake := (collReduce_takes ⟨hc, hrun, hstop, hdet⟩ hnext).trans (consume_partial hk hlen hread hpart)
    exact next_replayed htake
  case gather =>
    rintro s v u w i st err c x n seq len bs rfl hc hrun hstop hdet hnext hlen hread
    have htake := collReduce_takes ⟨hc, hrun, hstop, hdet⟩ hnext
    exact ⟨fun h3 hwrite => next_replayed (htake.trans (consume_gathered h3 hlen hread hwrite)),
      fun h5 hwrite => next_replayed (htake.trans (consume_broadcast h5 hlen hread hwrite))⟩
  case credit => exact fun s c st n hup hrecvs hlimit hback => tellLimits_one hup hrecvs hlimit hback
  case redrive =>
    intro s i c _ hearly hc hunread h
    obtain ⟨t, rfl, ht⟩ := collRedrive_cleared i.isLt hearly hc hunread h
    exact ⟨_, rfl, ht⟩
  case unread =>
    exact fun s i c hc hunread => next_replayed (collRedrive_unread hc hunread)

end Sys2Proof.Machine
end
